-- ==== Sys2Proof/Word.lean ====
section
/-! DEFINITION. The word and byte types of the HX960 and the small name types its chapters share. -/

namespace Sys2Proof

/-- A byte of memory, of a descriptor or of a byte string. -/
abbrev Byte := BitVec 8

/-- A 32-bit register word (R98). -/
abbrev Word32 := BitVec 32

/-- A general register of a control core (R182). -/
abbrev Word64 := BitVec 64

/-- The two host ports (R114). -/
inductive Port | a | b
deriving DecidableEq, Repr

/-- The two worlds (chapter 09). -/
inductive World | secure | normal
deriving DecidableEq, Repr

/-- The privilege levels of a control core (R190). -/
inductive Level | u | k | m
deriving DecidableEq, Repr

/-- A function that submits commands: a PF, one of the VFs of a port, or the normal world. -/
inductive Fn
  /-- The physical function of a port. -/
  | pf (p : Port)
  /-- VF `n` of a port, n = 1 to 128. -/
  | vf (p : Port) (n : Nat)
  /-- The normal world, whose queue pairs are bound with WLD_NQ_BIND. -/
  | nw
deriving DecidableEq, Repr

/-- Who sends an access to the register space or to memory (R102, Table 10-1). -/
inductive Requester
  /-- A control-core pair, with the world and the level it runs at. -/
  | core (pair : Nat) (world : World) (level : Level)
  /-- A host through function `vf` of a port; `vf` = 0 is the PF. -/
  | host (port : Port) (vf : Nat)
  /-- The debug port, in a world. -/
  | debug (world : World)
deriving DecidableEq, Repr

/-- The number of a port, 0 for A and 1 for B. -/
def Port.num : Port → Nat
  | .a => 0
  | .b => 1

/-- The number of a world, 0 secure and 1 normal. -/
def World.num : World → Nat
  | .secure => 0
  | .normal => 1

/-- The code of a level in registers: 0 U, 1 K, 2 M. -/
def Level.num : Level → Nat
  | .u => 0
  | .k => 1
  | .m => 2

/-- The number under which a function's state is held. -/
def Fn.id : Fn → Nat
  | .pf p => p.num * 256
  | .vf p n => p.num * 256 + n
  | .nw => 512

/-- The port of a function; port A for the normal world, as handover entries report it. -/
def Fn.port : Fn → Port
  | .pf p => p
  | .vf p _ => p
  | .nw => .a

/-- A physical function. -/
def Fn.isPf : Fn → Bool
  | .pf _ => true
  | _ => false

/-- A virtual function. -/
def Fn.isVf : Fn → Bool
  | .vf _ _ => true
  | _ => false

end Sys2Proof
end

