-- ==== Sys2Proof/Syntax.lean ====
section
/-! DEFINITION. The commands and events the device takes, and the types of their operands. -/

namespace Sys2Proof

/-- A general register of a core pair; 31 is g31 (R182). -/
abbrev Reg := Fin 32

/-- What the compare stage found when an instruction retired (R200): `mismatch` 0 for equal, or the KIND of CCS_LS_INFO. -/
structure Run where
  pair : Fin 4
  mismatch : Fin 6 := 0
deriving DecidableEq, Repr

/-- The shift kinds that IMM[7:6] of SHI selects. -/
inductive Shift | sll | srl | sra
deriving DecidableEq, Repr

/-- The rails whose loss the device survives (R63). -/
inductive Rail
  /-- VDD_SD or VDDH_SD: both PCIe ports and the Soade link. -/
  | serdes
  /-- VDDQ_DA. -/
  | ddrA
  /-- VDDQ_DB. -/
  | ddrB
deriving DecidableEq, Repr

/-- The engine pools, numbered as DSP_WAIT numbers them. -/
inductive Pool | lattice | hash | bignum | code | sym
deriving DecidableEq, Repr

/-- The number of a pool. -/
def Pool.num : Pool → Nat
  | .lattice => 0
  | .hash => 1
  | .bignum => 2
  | .code => 3
  | .sym => 4

/-- How a known-answer test run failed: the number of the test (Tables 14-10, 15-6, 16-13, 16-14, 17-5), and the set or lane concerned. The cause follows from the test. -/
structure TestFail where
  test : Nat
  sub : Nat
deriving DecidableEq, Repr

/-- An image copy as it was read from flash (R78, R89). -/
structure ImageRead where
  /-- Copy B, else copy A. -/
  copyB : Bool
  /-- The flash declares an SFDP table with a density of 16 to 64 MiB. -/
  sfdpOk : Bool
  /-- Flash size in bytes. -/
  size : Nat
  /-- Read in 1-1-1 mode, else in 8D-8D-8D mode. -/
  single : Bool
  /-- Every byte was read without a flash error. -/
  readOk : Bool
  bytes : List Byte
deriving DecidableEq, Repr

/-- A scatter-gather entry (Table 7-3). -/
structure SgEntry where
  addr : Nat
  len : Nat
  flags : Nat
deriving DecidableEq, Repr

/-- A segment of a scatter-gather list as it was read: its address and its entries, or a PCIe error. -/
structure SgSegment where
  addr : Nat
  entries : List SgEntry
  error : Bool := false
deriving DecidableEq, Repr

/-- What has befallen the stored bits of a line since they were last read or written (R256, Table 11-4). -/
inductive LineEvent
  | none
  /-- Errors at the set bits: eight data symbols of 64 bits from bit 0 on, the tag from bit 512 on, the parity from bit 576 on. -/
  | flips (x : BitVec 640)
  /-- Errors confined to DRAM device `n` of the subchannel: 64 bits of a ×4 device, 128 bits of a ×8 device. -/
  | device (n : Nat) (x : BitVec 128)
  /-- The line stored at another DDR5 offset stands there, or the address lines were swapped. -/
  | moved (off : Nat)
  /-- Whole-line corruption, a stuck lane, or bits written by an agent without the key. -/
  | altered
  /-- A line stored in an earlier boot. -/
  | earlierBoot
  /-- An older copy of the same line, of this boot, with the 64 bytes it held. -/
  | replayed (data : List Byte)
deriving DecidableEq, Repr

/-- What host memory and the object cache answer while one command is carried out. (DESIGN CHOICE, log entry 59) -/
structure HostData where
  inSegs : List SgSegment := []
  outSegs : List SgSegment := []
  /-- The input bytes; `none` when an input fetch ends in a PCIe error. -/
  input : Option (List Byte) := some []
  /-- What has befallen each line of the object body, in order, since it was last read or written. -/
  bodyEvents : List LineEvent := []
deriving DecidableEq, Repr

/-- The outcome of training a channel (R249, R250). -/
inductive Training
  /-- SPD cannot be read. -/
  | noSpd
  /-- What SPD declares: ×8 devices, two ranks, rate code, capacity in GiB; and whether every lane trains. -/
  | module (wide twoRanks : Bool) (rate gib : Nat) (lanes : Bool)
deriving DecidableEq, Repr

/-- What a health test observed of a cell (Table 13-1). -/
inductive HealthFail
  /-- So many consecutive identical samples. -/
  | repetition (run : Nat)
  /-- The first sample's value occurred so many times among 1,024 samples. -/
  | proportion (count : Nat)
  /-- So many ones among 4,096 samples. -/
  | balance (ones : Nat)
  /-- The trim stayed at an end of its range for a whole balance window. -/
  | trim
  /-- The conditioner's known-answer test of a start. -/
  | knownAnswer
deriving DecidableEq, Repr

/-- An initiator of an access to DDR5. -/
inductive Initiator
  | requester (who : Requester)
  /-- The dispatcher or the engine DMA, for a command, with the world of Table 9-1. -/
  | command (id : Nat) (world : World)
  | soade
  | test
  /-- The patrol scrub of a channel. -/
  | scrub
deriving DecidableEq, Repr

/-- An access to one line of DDR5. -/
structure LineAccess where
  who : Initiator
  /-- Offset in DDR5. -/
  off : Nat
  /-- Bytes of a write; empty for a read of the line. -/
  data : List Byte
deriving DecidableEq, Repr

/-- A device key that R517 re-derives or redraws. -/
inductive DeviceKey
  /-- A reserved slot of Table 12-2. -/
  | slot (n : Nat)
  /-- The key-encryption key of an owner. -/
  | kek (owner : Nat)
deriving DecidableEq, Repr

/-- The attribute word set of a key (Table 12-4). -/
structure Attr where
  alg : Nat := 0
  usage : Nat := 0
  kflags : Nat := 0
  origin : Nat := 0
  cls : Nat := 0
  owner : Nat := 0
  gen : Nat := 0
  index : Nat := 0
  secretLen : Nat := 0
  created : Nat := 0
deriving DecidableEq, Repr

/-- A custodian of an owner: SIG_ALG and public key (Table 12-8). -/
structure Cust where
  sigAlg : Nat
  key : List Byte
deriving DecidableEq, Repr

/-- What an owner definition settles, with the SALT and POLICY_SEQ of the blob (Tables 12-8 and 12-9). -/
structure OwnerDef where
  policy : Nat := 0
  algAllow : Nat := 0
  cust : List Cust := []
  quorum : Nat := 0
  windowS : Nat := 0
  label : List Byte := []
  salt : List Byte := []
  policySeq : Nat := 0
deriving DecidableEq, Repr

/-- A change record (R488): what a device mirrors to its twin. -/
inductive ChangeRec
  /-- A key with its stored form, for a slot (`object` false) or the object cache. -/
  | key (attr : Attr) (stored : List Byte) (object : Bool)
  /-- The destruction of the key of an index, with its generation. -/
  | destroy (owner index gen : Nat)
  /-- The last generation of an index. -/
  | lastGen (owner index gen : Nat)
  /-- An owner loaded, created or redefined. -/
  | owner (id : Nat) (defn : OwnerDef)
  /-- The destruction of an owner at a POLICY_SEQ. -/
  | ownerDestroy (id policySeq : Nat)
  /-- A pending approval, for resynchronisation only. -/
  | approval (id : Nat)
deriving DecidableEq, Repr

/-- The header of a Soade frame and what its checks found (R480, R481). (DESIGN CHOICE, log entry 59) -/
structure FrameHdr where
  nak : Bool := false
  purge : Bool := false
  seq : Nat
  ackSeq : Nat := 0
  /-- The LCRC is good. -/
  lcrcOk : Bool := true
  /-- The tag verifies (types that carry one). -/
  tagOk : Bool := true
deriving DecidableEq, Repr

/-- The payload of a Soade frame, by type (Table 21-5). -/
inductive TwinPayload
  | hello (minMajor minMinor maxMajor maxMinor serial : Nat)
  | pairKem (x25519 kem : List Byte)
  | pairAuth (part : Fin 3) (bytes : List Byte)
  | heartbeat (cseq : Nat)
  | close (reason : Nat)
  | commit (rec : ChangeRec)
  | ack (status : Nat)
  | resyncData (recs : List ChangeRec)
  | resyncEnd (count : Nat)
  | journal (recs : List ChangeRec)
  | keyReq (handle : Nat)
  | keyResp (rec : Option ChangeRec)
deriving DecidableEq, Repr

/-- A frame this device sends. -/
structure TwinFrame where
  nak : Bool
  purge : Bool
  seq : Nat
  ackSeq : Nat
  payload : TwinPayload
deriving DecidableEq, Repr


/-- A request of a requester to the register space or to one of its BARs (R98). -/
inductive RegRequest
  /-- A write of a word, under the byte enables of the row. -/
  | write (value : Word32)
  /-- A host's write of two doublewords: two word accesses in ascending order. -/
  | write2 (lo hi : Word32)
  /-- A host's write of more than two doublewords. -/
  | writeLong (words : List Word32)
  /-- A host's read of `len` bytes. -/
  | read (len : Nat)
deriving DecidableEq, Repr

/-- What a debug access acts on (R223). -/
inductive DebugTarget
  /-- Memory or the register space: address and length. -/
  | memory (addr len : Nat)
  /-- A general register of a pair. -/
  | general (pair : Fin 4) (reg : Reg)
  /-- A system register of a pair. -/
  | system (pair : Fin 4) (sr : BitVec 12)
  /-- The PC, the level and CCS_PAIR of a pair, for reading only. -/
  | sample (pair : Fin 4)
deriving DecidableEq, Repr

/-- The commands and events of the HX960, one constructor for each row of the table. (DESIGN CHOICE, log entry 58) -/
inductive Instr
  /-- POR_N_FALL (R67): POR_N held low for 10 µs or longer resets the POR group and every group after it. -/
  | porNFall
  /-- POR_N_RISE (R70): POR_N rises and the start-up sequence of Table 4-2 begins, or is held until PWRGD goes high. -/
  | porNRise
  /-- PWRGD_RISE (R68): PWRGD goes high and releases a start-up that a POR_N rise had held. -/
  | pwrgdRise
  /-- PWRGD_FALL (R68): PWRGD falls while the device runs; PWRGD_LOW is set and life-cycle transitions are refused. -/
  | pwrgdFall
  /-- WRST_N_PULSE (R67): WRST_N low for 1 µs or longer resets the WARM group and start-up runs from step 3. -/
  | wrstNPulse
  /-- PERST_N_ASSERT (R77): PEx_PERST_N falls: in-flight commands of the port are aborted without completion and its contexts are destroyed. -/
  | perstNAssert (port : Port)
  /-- PERST_N_RISE (R524): PEx_PERST_N rises; the port block is reset and link training begins within 20 µs. -/
  | perstNRise (port : Port)
  /-- IMAGE_COPY_READ_DONE (R89): The last byte of an image copy has been read and every section digest is compared, giving the copy result. -/
  | imageCopyReadDone (img : ImageRead)
  /-- BOOT_KAT_DONE (R73): Step 11 ends: device keys are derived and every unit's known-answer tests have finished, failing units fenced. -/
  | bootKatDone (failedUnits : List (Nat × Nat × TestFail)) (failedPairs : List Nat)
  /-- READY_RISE (R71): READY rises once FW_READY is written and channel DA training and first fill have finished. -/
  | readyRise
  /-- READY_TIMEOUT (R71): 900 ms after POR_N without READY, PFs answer configuration normally and commands get SERVICE_SUSPENDED. -/
  | readyTimeout
  /-- ENTROPY_START_TIMEOUT (R75): No quadrant ready 5 ms after step 3: ENTROPY_FAIL is raised and the device enters recovery. -/
  | entropyStartTimeout
  /-- BOOT_RESET (R67): Guarded write of 0x5A to BOOT_RESET starts a warm reset within 1 µs. -/
  | bootReset (who : Requester) (complement : Word32)
  /-- FW_READY_WRITE (R71): Secure world writes BOOT_CTRL.FW_READY = 1, allowing READY. -/
  | fwReadyWrite (who : Requester) (value : Word32)
  /-- BOOT_PT_GO (R93): A write of GO issues a raw flash pass-through command after READY. -/
  | bootPtGo (who : Requester) (value : Word32)
  /-- PT_COMMAND_DONE (R93): A flash pass-through command finishes, setting PT_DONE or PT_ERROR. -/
  | ptCommandDone (result : Nat) (data : List Byte)
  /-- REGISTER_WRITE (R101): A write to a register that has no row of its own takes effect in issue order under the access checks. -/
  | registerWrite (who : Requester) (addr : Nat) (value : RegRequest) (enables : BitVec 4)
  /-- EVT_CLEAR_WRITE (R105): A write to an *_EVT register clears the written event bits only when its SEQ matches. -/
  | evtClearWrite (who : Requester) (off : Nat) (value : Word32)
  /-- BIT_ALIAS_WRITE (R110): A write to a bit-alias word sets or clears one RW bit atomically inside the block. -/
  | bitAliasWrite (who : Requester) (off : Nat) (bit : Fin 32) (value : Word32)
  /-- GUARD_VALUE_WRITE (R112): The value half of a guarded write becomes pending for its complement. -/
  | guardValueWrite (who : Requester) (off : Nat) (value : Word32)
  /-- GUARD_TIMEOUT (R112): No complement arrives within 256 ns; the value is discarded and GUARD_FAIL TIMEOUT recorded. -/
  | guardTimeout (off : Nat)
  /-- WIDE_SEL_WRITE (R107): A write to GLB_WIDE_SEL clears VALID and requests a snapshot of a wide value. -/
  | wideSelWrite (who : Requester) (value : Word32)
  /-- WIDE_SNAPSHOT_DONE (R107): The wide value is copied into the DATA words and VALID, with ERR where denied, is set. -/
  | wideSnapshotDone (bank : Fin 4)
  /-- PWR_DOM_REQ_WRITE (R60): A world requests a domain state; the request is refused, done, or deferred behind claims. -/
  | pwrDomReqWrite (who : Requester) (value : Word32)
  /-- DOMAIN_CLAIMS_ZERO (R60): Claims on a domain with a pending request reach zero and hardware starts the transition. -/
  | domainClaimsZero (domain : Nat)
  /-- DOMAIN_TRANSITION_DONE (R56): A domain finishes a state transition of Table 3-6; the result becomes DONE and GATE_DONE is set. -/
  | domainTransitionDone (domain : Nat)
  /-- IDLE_BASK_TIMEOUT (R58): A domain with idle basking enabled has held no claim for the idle time and moves to BASKING. -/
  | idleBaskTimeout (domain : Nat)
  /-- BASKING_WAKE (R57): An access to a BASKING domain wakes it and completes after the wake time. -/
  | baskingWake (domain : Nat)
  /-- DOMAIN_SUPPLY_LOST (R63): A rail monitor detects loss of a SerDes or VDDQ supply; the domain goes LOST and its work is aborted. -/
  | domainSupplyLost (rail : Rail)
  /-- DOMAIN_SUPPLY_RETURNED (R64): The supply of a LOST domain returns; it is retrained or re-initialised and DOMAIN_RETURNED is set. -/
  | domainSupplyReturned (rail : Rail)
  /-- DEVICE_POWER_FAIL (R63): Loss of VDD_CORE, VDDIO or VDD_PLL; the backup domain continues from VBAT. -/
  | devicePowerFail (vbat : Bool)
  /-- POWER_MANAGER_TICK (R49): Every 100 µs the power manager compares total power with the cap and steps the setpoint by 5 mV. -/
  | powerManagerTick (total temp measured : Nat)
  /-- CAP_LIMIT_STEP (R49): Each millisecond at 0.55 V above the cap halves, or below it raises, each pool's unit limit. -/
  | capLimitStep
  /-- PWR_CAP_WRITE (R49): Guarded write of the run-time power cap, clamped to 10 W through the image cap. -/
  | pwrCapWrite (who : Requester) (complement : Word32)
  /-- RATE_WINDOW_END (R47): The token rate monitor ends its 1,000-period window and updates PWR_RATE. -/
  | rateWindowEnd (rate : Nat)
  /-- AVS_ALERT (R48): AVS_ALERT_N low causes a STATUS_WORD read; a fault bit sets AVS_FAULT. -/
  | avsAlert (statusWord : BitVec 16)
  /-- AVS_TIMEOUT (R48): The regulator fails to acknowledge for 1 ms; AVS_FAULT is set and AVS is abandoned. -/
  | avsTimeout
  /-- CONFIG_REQUEST (R120): A PCIe configuration request to a function is answered, or Request Retry Status before READY. -/
  | configRequest (fn : Fn) (off : Nat) (write : Option Word32)
  /-- VF_ENABLE_SET (R124): VF Enable is set; VFs exist on the bus as UNPROVISIONED. -/
  | vfEnableSet (port : Port) (numVfs : Nat)
  /-- VF_ENABLE_CLEAR (R129): VF Enable is cleared; every VF of the port is torn down and its resources returned. -/
  | vfEnableClear (port : Port)
  /-- VF_FLR (R129): A function level reset of a VF aborts its commands and destroys its contexts and queue pairs. -/
  | vfFlr (port : Port) (vf : Nat)
  /-- PF_FLR (R129): A function level reset of a PF resets it and all its VFs and clears VF Enable. -/
  | pfFlr (port : Port)
  /-- FUNCTION_RESET_DONE (R129): Aborts and clearing of a reset or teardown end; freed resources appear in PEx_POOL. -/
  | functionResetDone (fn : Fn)
  /-- PF_D3HOT_ENTRY (R119): A PF enters D3hot and the dispatcher stops fetching for it and its VFs. -/
  | pfD3hotEntry (port : Port)
  /-- PF_D0_RETURN (R119): A PF returns to D0 and held outputs and completions are released. -/
  | pfD0Return (port : Port)
  /-- DL_DOWN (R129): The data link goes down; the port's functions are reset as by PERST_N and LINK_DOWN is set. -/
  | dlDown (port : Port)
  /-- DL_UP (R524): A port's link reaches L0 with the data link up; LINK_UP is set. -/
  | dlUp (port : Port) (speed width : Nat) (reversed : Bool)
  /-- L1_EXIT (R119): The link leaves L1 and a doorbell that arrived in L1 is served. -/
  | l1Exit (port : Port)
  /-- MSIX_UNMASK (R135): A masked MSI-X vector with its pending bit set is unmasked and sends its message. -/
  | msixUnmask (fn : Fn) (vector : Nat)
  /-- EVENT_SOURCE_ASSERT (R135): A routed event source becomes asserted and sends an MSI-X message on its vector. -/
  | eventSourceAssert (source : Nat)
  /-- SQ_TAIL_DOORBELL (R144): A host or normal world writes a new SQ tail; entries from the device head to the tail become fetchable. -/
  | sqTailDoorbell (fn : Fn) (qp : Nat) (value : Word32)
  /-- CQ_HEAD_DOORBELL (R147): A host frees CQ entries by writing the next index it will read. -/
  | cqHeadDoorbell (fn : Fn) (qp : Nat) (value : Word32)
  /-- QZ_ENABLE (R142): Writing QZ_CTRL.ENABLE = 1 checks the register set and enables the queue pair or reports CFG_ERR. -/
  | qzEnable (fn : Fn) (qp : Nat)
  /-- QZ_DISABLE (R151): Writing ENABLE = 0 deletes the queue pair as QUEUE_DELETE does. -/
  | qzDisable (fn : Fn) (qp : Nat)
  /-- SQ_ENTRY_FETCH_DONE (R24): A submission entry arrives from host memory, or a fetch error completes it with DMA_ERROR and CID 0xFFFF. -/
  | sqEntryFetchDone (fn : Fn) (qp : Nat) (entry : Option (List Byte))
  /-- SG_SEGMENT_ARRIVED (R153): A scatter-gather segment arrives and is walked for format faults. -/
  | sgSegmentArrived (cmd : Nat) (seg : SgSegment)
  /-- OBJECT_BODY_ARRIVED (R24): An object body arrives from DDR5 and is authenticated and unwrapped into operand memory. -/
  | objectBodyArrived (cmd : Nat) (events : List LineEvent)
  /-- UNIT_GRANT (R174): A waiting command is granted an engine unit by weighted rotation and its input fetch begins. -/
  | unitGrant (pool unit : Nat)
  /-- INPUT_FETCH_DONE (R24): The input data of a command has been fetched; the engine starts, or a fetch error ends with DMA_ERROR. -/
  | inputFetchDone (cmd : Nat) (data : Option (List Byte))
  /-- ENGINE_DONE (R24): An engine finishes a command; outputs are written, the twin commit sent, or the completion written. -/
  | engineDone (cmd : Nat)
  /-- COAL_TIME_EXPIRY (R150): COAL_TIME passes since the first unsignalled completion and the CQ's MSI-X message is sent. -/
  | coalTimeExpiry (fn : Fn) (qp : Nat)
  /-- HELLO (R157): Negotiates the Evolin version and features of the function and writes the 64-byte response. -/
  | hello (fn : Fn) (qp : Nat) (entry : List Byte) (host : HostData)
  /-- GET_INFO (R164): Writes the 64-byte device and function information, accepted before HELLO and in recovery. -/
  | getInfo (fn : Fn) (qp : Nat) (entry : List Byte) (host : HostData)
  /-- ABORT_COMMAND (R172): Aborts a named command of the function and reports its outcome. -/
  | abortCommand (fn : Fn) (qp : Nat) (entry : List Byte) (host : HostData)
  /-- ABORT_CONTEXT (R172): Destroys a named context, aborting any command running on it. -/
  | abortContext (fn : Fn) (qp : Nat) (entry : List Byte) (host : HostData)
  /-- QUEUE_CREATE (R151): Creates a further queue pair of a VF on its queue pair 0. -/
  | queueCreate (fn : Fn) (qp : Nat) (entry : List Byte) (host : HostData)
  /-- QUEUE_DELETE (R151): Stops fetching for a queue pair and disables it once its fetched commands complete. -/
  | queueDelete (fn : Fn) (qp : Nat) (entry : List Byte) (host : HostData)
  /-- CTX_EXPORT (R171): Writes a wrapped context blob and destroys the context. -/
  | ctxExport (fn : Fn) (qp : Nat) (entry : List Byte) (host : HostData)
  /-- CTX_IMPORT (R171): Authenticates a context blob and makes a new context of the function. -/
  | ctxImport (fn : Fn) (qp : Nat) (entry : List Byte) (host : HostData)
  /-- KEY_GENERATE (R329): Generates a key into a slot or object and optionally returns its public key. -/
  | keyGenerate (fn : Fn) (qp : Nat) (entry : List Byte) (host : HostData)
  /-- KEY_IMPORT_WRAPPED (R300): Imports a device object, an AES-KWP wrapping or a plain public key. -/
  | keyImportWrapped (fn : Fn) (qp : Nat) (entry : List Byte) (host : HostData)
  /-- KEY_EXPORT_WRAPPED (R299): Exports a key as a device object, an AES-KWP wrapping or a plain public key. -/
  | keyExportWrapped (fn : Fn) (qp : Nat) (entry : List Byte) (host : HostData)
  /-- KEY_DESTROY (R274): Zeroizes a key's slot or object cells and frees its index. -/
  | keyDestroy (fn : Fn) (qp : Nat) (entry : List Byte) (host : HostData)
  /-- KEY_DERIVE (R298): Derives a new key from a base key with SP 800-108 or HKDF. -/
  | keyDerive (fn : Fn) (qp : Nat) (entry : List Byte) (host : HostData)
  /-- KEY_ATTEST (R301): Writes an attestation statement of a key signed by the identity keys. -/
  | keyAttest (fn : Fn) (qp : Nat) (entry : List Byte) (host : HostData)
  /-- KEM_ENCAPS (R330): Encapsulates to a public key, returning ciphertext and shared secret or a new key. -/
  | kemEncaps (fn : Fn) (qp : Nat) (entry : List Byte) (host : HostData)
  /-- KEM_DECAPS (R331): Decapsulates a ciphertext with implicit rejection into the host or a new key. -/
  | kemDecaps (fn : Fn) (qp : Nat) (entry : List Byte) (host : HostData)
  /-- KEY_AGREE (R400): Computes an ECDH or X25519/X448 shared secret with a peer public key. -/
  | keyAgree (fn : Fn) (qp : Nat) (entry : List Byte) (host : HostData)
  /-- SIGN (R333): Signs a message or digest with a private key. -/
  | sign (fn : Fn) (qp : Nat) (entry : List Byte) (host : HostData)
  /-- VERIFY (R336): Verifies a signature with a public key. -/
  | verify (fn : Fn) (qp : Nat) (entry : List Byte) (host : HostData)
  /-- HASH_INIT (R359): Starts a hash, creating a context, or computes a one-shot digest with LAST. -/
  | hashInit (fn : Fn) (qp : Nat) (entry : List Byte) (host : HostData)
  /-- HASH_UPDATE (R360): Absorbs more data into a hash context. -/
  | hashUpdate (fn : Fn) (qp : Nat) (entry : List Byte) (host : HostData)
  /-- HASH_FINAL (R361): Completes a hash and writes the digest. -/
  | hashFinal (fn : Fn) (qp : Nat) (entry : List Byte) (host : HostData)
  /-- HASH_VERIFY (R362): Completes a hash and compares it with an expected digest. -/
  | hashVerify (fn : Fn) (qp : Nat) (entry : List Byte) (host : HostData)
  /-- MAC_INIT (R364): Starts a MAC with a key, creating a context, or computes a one-shot tag. -/
  | macInit (fn : Fn) (qp : Nat) (entry : List Byte) (host : HostData)
  /-- MAC_UPDATE (R167): Absorbs more data into a MAC context. -/
  | macUpdate (fn : Fn) (qp : Nat) (entry : List Byte) (host : HostData)
  /-- MAC_FINAL (R364): Completes a MAC and writes the tag. -/
  | macFinal (fn : Fn) (qp : Nat) (entry : List Byte) (host : HostData)
  /-- MAC_VERIFY (R362): Completes a MAC and compares it with an expected tag. -/
  | macVerify (fn : Fn) (qp : Nat) (entry : List Byte) (host : HostData)
  /-- CIPHER (R416): Runs AES in XTS, CTR, CBC, KW or KWP mode, or RSA-OAEP, in one command. -/
  | cipher (fn : Fn) (qp : Nat) (entry : List Byte) (host : HostData)
  /-- AEAD_INIT (R420): Starts an AES-GCM operation, creating a context, or runs it one-shot. -/
  | aeadInit (fn : Fn) (qp : Nat) (entry : List Byte) (host : HostData)
  /-- AEAD_UPDATE (R421): Processes more AAD or data of a GCM context. -/
  | aeadUpdate (fn : Fn) (qp : Nat) (entry : List Byte) (host : HostData)
  /-- AEAD_FINAL (R421): Completes a GCM operation, appending or checking the tag. -/
  | aeadFinal (fn : Fn) (qp : Nat) (entry : List Byte) (host : HostData)
  /-- RANDOM (R317): Draws OUT_LEN conditioned random bytes and writes them after the last is drawn. -/
  | random (fn : Fn) (qp : Nat) (entry : List Byte) (host : HostData)
  /-- OWNER_LOAD (R289): Loads an owner blob and derives the owner key-encryption key. -/
  | ownerLoad (fn : Fn) (qp : Nat) (entry : List Byte) (host : HostData)
  /-- OWNER_CREATE (R290): MODE 0: creates a new owner under quorum and writes its blob. -/
  | ownerCreate (fn : Fn) (qp : Nat) (entry : List Byte) (host : HostData)
  /-- OWNER_REDEFINE (R290): MODE 1: replaces a loaded owner's policy and custodians under quorum. -/
  | ownerRedefine (fn : Fn) (qp : Nat) (entry : List Byte) (host : HostData)
  /-- OWNER_DESTROY (R290): MODE 2: destroys an owner's keys and unloads it under quorum. -/
  | ownerDestroy (fn : Fn) (qp : Nat) (entry : List Byte) (host : HostData)
  /-- OWNER_REISSUE (R290): MODE 3: writes the present blob of a loaded owner with a fresh nonce. -/
  | ownerReissue (fn : Fn) (qp : Nat) (entry : List Byte) (host : HostData)
  /-- QUORUM_CHALLENGE (R294): Opens an approval for an action digest and returns its challenge and ID. -/
  | quorumChallenge (fn : Fn) (qp : Nat) (entry : List Byte) (host : HostData)
  /-- QUORUM_APPROVE (R296): Verifies custodian approval records and counts them toward an approval. -/
  | quorumApprove (fn : Fn) (qp : Nat) (entry : List Byte) (host : HostData)
  /-- MIGRATION_LOG_START (R137): Starts dirty-page logging for a VF into a host log ring. -/
  | migrationLogStart (fn : Fn) (qp : Nat) (entry : List Byte) (host : HostData)
  /-- MIGRATION_LOG_STOP (R138): Stops dirty-page logging for a VF after every earlier record. -/
  | migrationLogStop (fn : Fn) (qp : Nat) (entry : List Byte) (host : HostData)
  /-- VF_CREATE (R126): Provisions a VF, binding it to an owner and dividing pool resources. -/
  | vfCreate (fn : Fn) (qp : Nat) (entry : List Byte) (host : HostData)
  /-- VF_DESTROY (R525): Tears down a VF and returns its resources to the pool. -/
  | vfDestroy (fn : Fn) (qp : Nat) (entry : List Byte) (host : HostData)
  /-- APPROVAL_WINDOW_EXPIRY (R294): An approval's window ends unconsumed and the approval is removed. -/
  | approvalWindowExpiry (id : Nat)
  /-- CONTROL_HANDOVER (R176): A free handover entry is found and the dispatcher hands a control-plane command to a control queue. -/
  | controlHandover (cmd : Nat)
  /-- DSP_CQ_ENABLE (R177): Setting DSP_CQ_CFG.ENABLE checks and enables a control queue. -/
  | dspCqEnable (who : Requester) (queue : Fin 2)
  /-- DSP_CQ_DISABLE (R177): Writing ENABLE = 0 disables a control queue when nothing is handed to it. -/
  | dspCqDisable (who : Requester) (queue : Fin 2)
  /-- DSP_CQ_RTAIL_WRITE (R177): Secure firmware hands return entries to the dispatcher, which completes their commands or refuses them. -/
  | dspCqRtailWrite (who : Requester) (queue : Fin 2) (value : Word32)
  /-- ADD (R183): Register add. -/
  | add (r : Run) (d a b : Reg)
  /-- SUB (R183): Register subtract. -/
  | sub (r : Run) (d a b : Reg)
  /-- AND (R183): Register bitwise and. -/
  | and (r : Run) (d a b : Reg)
  /-- OR (R183): Register bitwise or. -/
  | or (r : Run) (d a b : Reg)
  /-- XOR (R183): Register bitwise exclusive or. -/
  | xor (r : Run) (d a b : Reg)
  /-- ANDN (R183): Register and-not. -/
  | andn (r : Run) (d a b : Reg)
  /-- SLL (R183): Shift left logical by register. -/
  | sll (r : Run) (d a b : Reg)
  /-- SRL (R183): Shift right logical by register. -/
  | srl (r : Run) (d a b : Reg)
  /-- SRA (R183): Shift right arithmetic by register. -/
  | sra (r : Run) (d a b : Reg)
  /-- SLT (R183): Set if less than, signed. -/
  | slt (r : Run) (d a b : Reg)
  /-- SLTU (R183): Set if less than, unsigned. -/
  | sltu (r : Run) (d a b : Reg)
  /-- MUL (R183): Multiply, low 64 bits. -/
  | mul (r : Run) (d a b : Reg)
  /-- MULH (R183): Multiply, high 64 bits signed. -/
  | mulh (r : Run) (d a b : Reg)
  /-- MULHU (R183): Multiply, high 64 bits unsigned. -/
  | mulhu (r : Run) (d a b : Reg)
  /-- DIV (R183): Signed divide, with arithmetic exception on zero or overflow. -/
  | div (r : Run) (d a b : Reg)
  /-- DIVU (R183): Unsigned divide. -/
  | divu (r : Run) (d a b : Reg)
  /-- REM (R183): Signed remainder. -/
  | rem (r : Run) (d a b : Reg)
  /-- REMU (R183): Unsigned remainder. -/
  | remu (r : Run) (d a b : Reg)
  /-- ADDI (R183): Add sign-extended immediate. -/
  | addi (r : Run) (d a : Reg) (imm : BitVec 16)
  /-- ANDI (R183): And zero-extended immediate. -/
  | andi (r : Run) (d a : Reg) (imm : BitVec 16)
  /-- ORI (R183): Or zero-extended immediate. -/
  | ori (r : Run) (d a : Reg) (imm : BitVec 16)
  /-- XORI (R183): Exclusive or zero-extended immediate. -/
  | xori (r : Run) (d a : Reg) (imm : BitVec 16)
  /-- SLTI (R183): Set if less than immediate, signed. -/
  | slti (r : Run) (d a : Reg) (imm : BitVec 16)
  /-- SLTIU (R183): Set if less than immediate, unsigned. -/
  | sltiu (r : Run) (d a : Reg) (imm : BitVec 16)
  /-- LUI (R183): Load upper immediate. -/
  | lui (r : Run) (d : Reg) (imm : BitVec 16)
  /-- SHI (R183): Shift by immediate, kind selected by IMM[7:6]. -/
  | shi (r : Run) (d a : Reg) (kind : Shift) (amount : BitVec 6)
  /-- ORHI (R183): Or immediate shifted left by 32. -/
  | orhi (r : Run) (d a : Reg) (imm : BitVec 16)
  /-- ORTI (R183): Or immediate shifted left by 48. -/
  | orti (r : Run) (d a : Reg) (imm : BitVec 16)
  /-- LD (R182): Load 64 bits. -/
  | ld (r : Run) (d a : Reg) (imm : BitVec 16)
  /-- LW (R182): Load 32 bits sign-extended. -/
  | lw (r : Run) (d a : Reg) (imm : BitVec 16)
  /-- LWU (R182): Load 32 bits zero-extended. -/
  | lwu (r : Run) (d a : Reg) (imm : BitVec 16)
  /-- LH (R182): Load 16 bits sign-extended. -/
  | lh (r : Run) (d a : Reg) (imm : BitVec 16)
  /-- LHU (R182): Load 16 bits zero-extended. -/
  | lhu (r : Run) (d a : Reg) (imm : BitVec 16)
  /-- LB (R182): Load 8 bits sign-extended. -/
  | lb (r : Run) (d a : Reg) (imm : BitVec 16)
  /-- LBU (R182): Load 8 bits zero-extended. -/
  | lbu (r : Run) (d a : Reg) (imm : BitVec 16)
  /-- SD (R182): Store 64 bits. -/
  | sd (r : Run) (d a : Reg) (imm : BitVec 16)
  /-- SW (R182): Store 32 bits. -/
  | sw (r : Run) (d a : Reg) (imm : BitVec 16)
  /-- SH (R182): Store 16 bits. -/
  | sh (r : Run) (d a : Reg) (imm : BitVec 16)
  /-- SB (R182): Store 8 bits. -/
  | sb (r : Run) (d a : Reg) (imm : BitVec 16)
  /-- LR (R189): Load 64 bits and reserve the line. -/
  | lr (r : Run) (d a : Reg)
  /-- SC (R189): Store conditional on the reservation. -/
  | sc (r : Run) (d a b : Reg)
  /-- AMO_SWAP (R185): Atomic swap. -/
  | amoSwap (r : Run) (d a b : Reg)
  /-- AMO_ADD (R185): Atomic add. -/
  | amoAdd (r : Run) (d a b : Reg)
  /-- AMO_AND (R185): Atomic and. -/
  | amoAnd (r : Run) (d a b : Reg)
  /-- AMO_OR (R185): Atomic or. -/
  | amoOr (r : Run) (d a b : Reg)
  /-- AMO_XOR (R185): Atomic exclusive or. -/
  | amoXor (r : Run) (d a b : Reg)
  /-- AMO_MAX (R185): Atomic signed maximum. -/
  | amoMax (r : Run) (d a b : Reg)
  /-- AMO_MIN (R185): Atomic signed minimum. -/
  | amoMin (r : Run) (d a b : Reg)
  /-- AMO_MAXU (R185): Atomic unsigned maximum. -/
  | amoMaxu (r : Run) (d a b : Reg)
  /-- AMO_MINU (R185): Atomic unsigned minimum. -/
  | amoMinu (r : Run) (d a b : Reg)
  /-- BEQ (R183): Branch if equal. -/
  | beq (r : Run) (d a : Reg) (imm : BitVec 16)
  /-- BNE (R183): Branch if not equal. -/
  | bne (r : Run) (d a : Reg) (imm : BitVec 16)
  /-- BLT (R183): Branch if less than, signed. -/
  | blt (r : Run) (d a : Reg) (imm : BitVec 16)
  /-- BGE (R183): Branch if greater or equal, signed. -/
  | bge (r : Run) (d a : Reg) (imm : BitVec 16)
  /-- BLTU (R183): Branch if less than, unsigned. -/
  | bltu (r : Run) (d a : Reg) (imm : BitVec 16)
  /-- BGEU (R183): Branch if greater or equal, unsigned. -/
  | bgeu (r : Run) (d a : Reg) (imm : BitVec 16)
  /-- JAL (R182): Jump and link through g30. -/
  | jal (r : Run) (off : BitVec 26)
  /-- JALR (R184): Jump to register target and link. -/
  | jalr (r : Run) (d a : Reg) (imm : BitVec 16)
  /-- SRD (R198): Read a system register. -/
  | srd (r : Run) (d : Reg) (sr : BitVec 12)
  /-- SWR (R198): Write a system register, including WDBG_SET and MXBASE. -/
  | swr (r : Run) (d : Reg) (sr : BitVec 12)
  /-- KCALL (R190): Exception from U to K. -/
  | kcall (r : Run) (imm : BitVec 16)
  /-- WCALL (R193): Entry from K to monitor level M. -/
  | wcall (r : Run) (imm : BitVec 16)
  /-- KRET (R193): Return from K. -/
  | kret (r : Run)
  /-- WRET (R193): Return from M to the saved level and the pair's world. -/
  | wret (r : Run)
  /-- FENCE (R186): Memory barrier, optionally invalidating the instruction cache. -/
  | fence (r : Run) (invalidate : Bool)
  /-- WFI (R197): Wait until an interrupt would be pending. -/
  | wfi (r : Run)
  /-- BRK (R190): Breakpoint exception. -/
  | brk (r : Run) (imm : BitVec 16)
  /-- CACHE_CLEAN (R241): Clean a data cache line. -/
  | cacheClean (r : Run) (a : Reg) (off : BitVec 14)
  /-- CACHE_CLEAN_INVALIDATE (R241): Clean and invalidate a data cache line. -/
  | cacheCleanInvalidate (r : Run) (a : Reg) (off : BitVec 14)
  /-- CACHE_INVALIDATE_ILINE (R188): Invalidate an instruction cache line. -/
  | cacheInvalidateIline (r : Run) (a : Reg) (off : BitVec 14)
  /-- ILLEGAL_INSTRUCTION (R183): An unlisted opcode or field, or a disallowed instruction, takes an illegal-instruction exception. -/
  | illegalInstruction (r : Run) (word : Word32)
  /-- WFI_WAKE (R197): A pair in WFI finds an interrupt pending and continues. -/
  | wfiWake (pair : Fin 4)
  /-- EXTERNAL_INTERRUPT (R196): A pending enabled source is taken at K at an instruction boundary. -/
  | externalInterrupt (pair : Fin 4)
  /-- TIMER_INTERRUPT (R196): TIME reaches TCMP with TIE set and the timer interrupt is taken. -/
  | timerInterrupt (pair : Fin 4)
  /-- STORE_ERROR_RESPONSE (R192): An error response to an earlier store is taken as an imprecise exception at the next boundary. -/
  | storeErrorResponse (pair : Fin 4)
  /-- CCS_NSTART_WRITE (R180): Secure firmware releases a normal pair from reset once. -/
  | ccsNstartWrite (who : Requester) (value : Word32)
  /-- CCS_NRESET (R181): Guarded write restarts a normal pair at the NORMAL_FW entry. -/
  | ccsNreset (who : Requester) (complement : Word32)
  /-- NQ_REQUEST (R216): Monitor service that binds normal-world queue pairs to an owner. -/
  | nqRequest (pair : Fin 4)
  /-- NQ_RELEASE (R216): Monitor service that unbinds a normal-world queue pair. -/
  | nqRelease (pair : Fin 4)
  /-- MONITOR_VERSION (R216): Monitor service VERSION returning the firmware release. -/
  | monitorVersion (pair : Fin 4)
  /-- WLD_NQ_BIND (R217): Secure write binding a normal-world queue pair to owner, weight and pool queue pair. -/
  | wldNqBind (who : Requester) (n : Nat) (value : Word32)
  /-- WLD_NQ_UNBIND (R221): Write clearing BOUND deletes the queue pair and returns it to the pool after its commands. -/
  | wldNqUnbind (who : Requester) (n : Nat) (value : Word32)
  /-- MBX_DATA_WRITE (R227): A sender writes a mailbox payload word, marking MIXED or COLLISION where applicable. -/
  | mbxDataWrite (who : Requester) (mbx : Fin 32) (word : Fin 16) (value : Word32)
  /-- MBX_SEND (R226): A sender posts a message: MSEQ advances, header stamped, FULL and RECEIVED set. -/
  | mbxSend (who : Requester) (mbx : Fin 32) (value : Word32)
  /-- MBX_ACK (R228): The receiver acknowledges a message by MSEQ, emptying the mailbox. -/
  | mbxAck (who : Requester) (mbx : Fin 32) (value : Word32)
  /-- MBX_WAKE (R231): A write wakes the receiver domain of a mailbox as a request for ON. -/
  | mbxWake (who : Requester) (value : Word32)
  /-- ACT_UPDATE_BEGIN (R245): Guarded ACT_CTRL write with UPDATE = 1 disables entries and holds traffic. -/
  | actUpdateBegin (who : Requester) (complement : Word32)
  /-- ACT_UPDATE_END (R245): UPDATE returns to 0; new entries take effect together and held accesses are released. -/
  | actUpdateEnd (who : Requester) (complement : Word32)
  /-- ACT_LOCK (R247): Setting LOCK forbids further table updates until a WARM reset. -/
  | actLock (who : Requester) (complement : Word32)
  /-- ACT_HOLD_TIMEOUT (R246): An access held 64 µs receives an error response and counts as a violation. -/
  | actHoldTimeout (index : Nat)
  /-- DEBUG_ACCESS (R242): A debug-port access under an effective control enable, or refused and recorded. -/
  | debugAccess (world : World) (target : DebugTarget) (write : Option (List Byte))
  /-- DEBUG_HALT_REQUEST (R224): A halt request to a pair is carried out when its world's control enable is in effect. -/
  | debugHaltRequest (pair : Fin 4)
  /-- DEBUG_STEP (R223): The debug port steps a halted pair. -/
  | debugStep (pair : Fin 4)
  /-- DEBUG_ENABLE_LEAVE (R224): An enable leaves effect and a pair halted under it resumes within 1 µs. -/
  | debugEnableLeave (pair : Fin 4)
  /-- DDR_TRAINING_DONE (R250): Channel training finishes, or fails with TRAIN_FAIL, and zero-fill starts. -/
  | ddrTrainingDone (channel : Fin 2) (result : Training)
  /-- ZERO_FILL_BLOCK (R264): The filler fills a 64 KiB block, out of order for a held access, releasing it. -/
  | zeroFillBlock (channel : Fin 2) (block : Nat)
  /-- FILL_DONE (R264): Zero-fill of a channel finishes and FILL_DONE is set. -/
  | fillDone (channel : Fin 2)
  /-- PATROL_SCRUB_LINE (R265): The patrol scrub reads a filled line and corrects or reports it. -/
  | patrolScrubLine (channel : Fin 2) (event : LineEvent)
  /-- SCRUB_PERIOD_END (R266): A scrub period ends; a finished pass sets SCRUB_PASS, an unfinished one SCRUB_LATE. -/
  | scrubPeriodEnd (channel : Fin 2)
  /-- DDR_LINE_READ (R255): A line read is descrambled and tag-checked, corrected or reported uncorrectable. -/
  | ddrLineRead (who : Initiator) (off : Nat) (event : LineEvent)
  /-- DDR_PARTIAL_WRITE (R260): A partial write locks the line and performs a read-modify-write. -/
  | ddrPartialWrite (who : Initiator) (off : Nat) (data : List Byte) (event : LineEvent)
  /-- DDR_LOCK_RELEASE (R261): A line lock is released and waiting accesses proceed in arrival order. -/
  | ddrLockRelease (off : Nat)
  /-- DDR_ALERT (R267): ALERT_N from the RCD triggers replay of commands, up to 3 times. -/
  | ddrAlert (channel : Fin 2) (again : Bool) (accesses : List LineAccess)
  /-- MOLT_PERIOD (R275): A Molt period begins and every occupied slot is re-masked, or MOLT_LATE set if the pass overran. -/
  | moltPeriod (bad : List (Nat × Nat)) (late : Bool)
  /-- DEVICE_KEY_REDERIVED (R517): A defective device or owner key-encryption key is re-derived into a slot and RESTORED set. -/
  | deviceKeyRederived (key : DeviceKey)
  /-- ENT_QUADRANT_JOINED (R312): A quadrant releases its first block; READY is set with the first and JOINED for each. -/
  | entQuadrantJoined (quadrant : Fin 4)
  /-- ENT_BALANCE_WINDOW_END (R305): A balance window closes and every cell's trim is updated. -/
  | entBalanceWindowEnd (quadrant : Fin 4) (startup : Bool) (ones : List Nat)
  /-- ENT_QUADRANT_FAIL (R310): A health test fails; the quadrant stops, discards its quarantine and is marked FAILED. -/
  | entQuadrantFail (quadrant : Fin 4) (cell : Nat) (fail : HealthFail)
  /-- ENT_BLOCK_RELEASE (R309): A conditioned block's covering windows close and it enters the distribution path. -/
  | entBlockRelease (quadrant : Fin 4)
  /-- ENT_WORD_GRANT (R314): A waiting consumer is granted a 256-bit word in class order. -/
  | entWordGrant
  /-- ENT_SHARE_WINDOW_END (R315): A 10 µs share window ends and the class 1-3 word count restarts. -/
  | entShareWindowEnd
  /-- ENT_STARVED (R316): A class 4 or 5 request has waited 100 µs and STARVED is set. -/
  | entStarved
  /-- ENT_CAPTURE_GO (R320): GO starts raw capture of a quadrant, or is refused with a result. -/
  | entCaptureGo (who : Requester) (value : Word32)
  /-- ENT_CAPTURE_DONE (R320): A raw capture ends and the quadrant restarts from step 2. Each group holds one sample of every cell, bit j that of cell j, in sampling order. -/
  | entCaptureDone (failed : Bool) (groups : List (BitVec 512))
  /-- SELF_TEST_ROTATION (R349): Every 100 ms a pool's self-test unit returns to service and the next is selected. -/
  | selfTestRotation (pool : Pool)
  /-- SELF_TEST_ENTRY (R349): A selected unit's present command completes and it enters self-test. -/
  | selfTestEntry (pool : Pool) (unit : Nat)
  /-- SELF_TEST_RUN_DONE (R350): A unit's known-answer test run passes, or fails and the unit is fenced. -/
  | selfTestRunDone (pool : Pool) (unit : Nat) (failed : Option TestFail)
  /-- ENGINE_FAULT (R348): A unit detects a fault; it is fenced and its command restarted once or completed INTERNAL. -/
  | engineFault (pool : Pool) (unit lane cause : Nat)
  /-- REGROWTH_DONE (R351): A spare lattice tile passes all tests and takes the fenced tile's role. -/
  | regrowthDone (tile : Nat) (failed : Option TestFail)
  /-- UNIT_CLEAR_DONE (R328): A unit's operand memory clearing finishes and the unit is free or serves. -/
  | unitClearDone (pool : Pool) (unit : Nat) (inTime : Bool)
  /-- ALARM_RAISE (R452): A monitor decides an alarm; flag set, event bit set, response executed and record decided. -/
  | alarmRaise (source : Nat)
  /-- ZEROIZATION_DONE (R453): Zeroization of memories and context cache completes. -/
  | zeroizationDone
  /-- KILL_WORD_PROGRAMMED (R453): Response 5 finishes programming the kill word. -/
  | killWordProgrammed
  /-- TAMPER_LOOP_SAMPLE (R450): Every 122 µs bit period each enabled loop input is compared with the driven bit. -/
  | tamperLoopSample (loop : Fin 4) (level : Bool)
  /-- XTAL_STOP (R451): The crystal gives no edge for 1 ms; every enabled loop counts as broken. -/
  | xtalStop
  /-- BACKUP_DOMAIN_RESET (R460): VBAT and VDDIO absent together; every backup item is lost. -/
  | backupDomainReset
  /-- OPERATING_HOUR_TICK (R458): 3,600 s of powered time advance the operating-hours counter. -/
  | operatingHourTick
  /-- TMP_FLAG_CLR (R461): Guarded write clears named sticky flags whose condition is absent and ACTED is set. -/
  | tmpFlagClr (who : Requester) (complement : Word32)
  /-- TMP_RESUME (R456): Guarded write of 0xA5 resumes service when no purge, condition or kill prevents it. -/
  | tmpResume (who : Requester) (complement : Word32)
  /-- DEBUG_INTRUSION_LEVEL (R36): TEST_EN or SCAN_MODE high for 1 µs outside test states raises DEBUG_INTRUSION. -/
  | debugIntrusionLevel
  /-- RECORD_STORE (R470): The highest pending record is stored into a free or replaceable slot, or dropped. -/
  | recordStore
  /-- EVR_RD_SEL_WRITE (R472): Writing a slot index requests a copy of that record. -/
  | evrRdSelWrite (who : Requester) (value : Word32)
  /-- EVR_RD_COPY_DONE (R472): The record copy is in EVR_RD_DATA and VALID is set. -/
  | evrRdCopyDone (bank : Fin 4)
  /-- EVR_EXP_GO (R472): A PF starts an export of records to its memory. -/
  | evrExpGo (who : Requester) (value : Word32)
  /-- EVR_EXP_DONE (R472): An export ends with its result and EXP_DONE set. -/
  | evrExpDone (port : Port) (dmaError : Bool)
  /-- EVR_CLEAR (R473): Guarded write with an approval clears records up to UPTO, or is refused. -/
  | evrClear (who : Requester) (complement : Word32)
  /-- EVR_CLEARING_DONE (R473): A clearing ends and CLEARED is set. -/
  | evrClearingDone
  /-- LC_TARGET_WRITE (R436): Secure world requests a life-cycle transition by guarded write of the target. -/
  | lcTargetWrite (who : Requester) (complement : Word32)
  /-- LC_REQ (R436): TAP instruction whose Update-DR requests a life-cycle transition. -/
  | lcReq (dr : BitVec 136)
  /-- LC_TRANSITION_DONE (R439): OTP programming of a transition ends with RESULT 0 or 6. -/
  | lcTransitionDone (failed : Option (Nat × BitVec 64))
  /-- LC_REPAIR (R433): A minority copy of a decoded word is reprogrammed, setting REPAIRED or REPAIR_FAIL. -/
  | lcRepair (word : Nat) (failed : Bool)
  /-- TAP_RESET (R444): TRST_N low or five TCK with TMS high selects IDCODE. -/
  | tapReset
  /-- EXTEST (R445): TAP instruction driving boundary balls from the boundary register. -/
  | extest (dr : Nat)
  /-- SAMPLE_PRELOAD (R444): TAP instruction sampling or preloading the boundary register. -/
  | samplePreload (dr : Nat)
  /-- IDCODE (R444): TAP instruction returning the 32-bit identification code. -/
  | idcode
  /-- LC_STATUS (R444): TAP instruction reading back LC_STATE and LC_STATUS. -/
  | lcStatus
  /-- DBG_ACCESS (R447): TAP instruction opening the debug port under the effective enables. -/
  | dbgAccess
  /-- TEST_MODE (R446): TAP instruction reaching the factory test chain, or BYPASS with a record outside its states. -/
  | testMode (dr : Nat)
  /-- BYPASS (R444): TAP one-bit bypass instruction, also for unlisted codes. -/
  | bypass (dr : Nat)
  /-- TWIN_LINK_TRAINED (R482): The Soade link trains and each device sends HELLO. -/
  | twinLinkTrained (speed width : Nat)
  /-- TWIN_RETRAIN_TIMER (R491): In a SOLO state LEAD retrains the link every 1 ms. -/
  | twinRetrainTimer (trained : Bool)
  /-- TWIN_LINK_DOWN (R481): Three retrains fail within 1 s and the link is down. -/
  | twinLinkDown
  /-- SOADE_HELLO (R482): Frame that exchanges Soade versions and serial and chooses a version. -/
  | soadeHello (hdr : FrameHdr) (minMajor minMinor maxMajor maxMinor serial : Nat)
  /-- PAIR_KEM (R484): Frame carrying hybrid key exchange material; session keys are derived. -/
  | pairKem (hdr : FrameHdr) (x25519 kem : List Byte)
  /-- PAIR_AUTH (R484): Frame carrying identity keys and transcript signatures, checked against the bound PEER_ID_HASH. -/
  | pairAuth (hdr : FrameHdr) (idMldsa idP384 sigMldsa sigP384 : List Byte)
  /-- HEARTBEAT (R491): Frame received from the peer showing it alive. -/
  | heartbeat (hdr : FrameHdr) (cseq : Nat)
  /-- HEARTBEAT_SEND (R491): Every 10 µs a HEARTBEAT is sent and GPIO0 toggled. -/
  | heartbeatSend
  /-- HEARTBEAT_MISS (R491): Five heartbeats missed; SOLO_LINK or SOLO_LOST is decided. -/
  | heartbeatMiss (sidebandToggles : Bool)
  /-- CLOSE (R491): Frame ending the session, with PURGE before a peer purge. -/
  | close (hdr : FrameHdr) (reason : Nat)
  /-- COMMIT (R489): Frame carrying a change record, applied in order and acknowledged. -/
  | commit (hdr : FrameHdr) (rec : ChangeRec)
  /-- ACK (R489): Frame acknowledging a commit; the waiting command completes. -/
  | ack (hdr : FrameHdr) (status : Nat)
  /-- RESYNC_DATA (R493): Frame carrying mirrored state in full resynchronisation, merged under Table 21-9. -/
  | resyncData (hdr : FrameHdr) (recs : List ChangeRec)
  /-- RESYNC_END (R493): Frame ending resynchronisation; PAIRED, TWIN_UP and RESYNC_DONE when both ends done. -/
  | resyncEnd (hdr : FrameHdr) (count : Nat)
  /-- JOURNAL (R493): Frame carrying journal change records in journal-mode resynchronisation. -/
  | journal (hdr : FrameHdr) (recs : List ChangeRec)
  /-- KEY_REQ (R496): Frame requesting a key by handle from the peer. -/
  | keyReq (hdr : FrameHdr) (handle : Nat)
  /-- KEY_RESP (R496): Frame returning a requested key, placed under its own handle. -/
  | keyResp (hdr : FrameHdr) (rec : Option ChangeRec)
  /-- TWN_PAIR (R483): Guarded write starting a first pairing under approval or a re-pairing with the blob. -/
  | twnPair (who : Requester) (complement : Word32)
  /-- LTS_TEST_ENTER (R498): Writing TEST = 1 puts a link in its test state when its entry condition holds. -/
  | ltsTestEnter (who : Requester) (link : Fin 5)
  /-- LTS_TEST_EXIT (R498): Writing TEST = 0 leaves the test state, stopping generators and retraining the link. -/
  | ltsTestExit (who : Requester) (link : Fin 5)
  /-- LTS_CHK_START (R502): Writing CHK = 1 zeroes the error counters and starts the checkers. -/
  | ltsChkStart (who : Requester) (link : Fin 5)
  /-- LTS_EYE_GO (R503): GO scans one eye point on an eligible SerDes lane. -/
  | ltsEyeGo (who : Requester) (value : Word32)
  /-- LTS_EYE_DONE (R503): An eye-scan point finishes and DONE is set with its error count. -/
  | ltsEyeDone (result errors : Nat)
  /-- ALARM_CONDITION_END (R449): A monitored alarm condition disappears, clearing its TMP_COND bit and re-arming the source so a later reappearance raises again. -/
  | alarmConditionEnd (source : Nat)
  /-- PEER_FAULT_IN_HIGH (R491): GPIO3, the peer-fault input of the TWIN sideband, goes high and the device decides SOLO_LOST. -/
  | peerFaultInHigh
  /-- LTS_CHECKER_ALIGNED (R502): A link-test checker finds 64 consecutive bits agreeing with the pattern, sets SYNC and begins counting errors. -/
  | ltsCheckerAligned (lane : Nat)
  /-- LTS_CHECKER_SYNC_LOST (R502): A checker sees 32 errors within 64 bits, clears SYNC and realigns, which also ends an eye-scan point with result 1. -/
  | ltsCheckerSyncLost (lane : Nat)
  /-- LINK_L1_ENTRY (R119): A PCIe link enters L1 or an L1 substate under ASPM or PCI-PM, setting PEx_LINK.L1. -/
  | linkL1Entry (port : Port)
  /-- LINK_SPEED_CHANGE (R524): A PCIe link retrains at another speed or width while up, for example at the partner's request, and SPEED_CHANGE is set. -/
  | linkSpeedChange (port : Port) (speed width : Nat)
  /-- TW_PRESENT_N_CHANGE (R479): TW_PRESENT_N changes level, so the Soade link is or is no longer trained and TWN_STATUS.PRESENT follows. -/
  | twPresentNChange (high : Bool)
  /-- STATUS_COMMAND_PULSE_END (R39): The 20 ms STATUS pulse on GPIO7 after the last completed command runs out and the ball falls low. -/
  | statusCommandPulseEnd
deriving DecidableEq, Repr

end Sys2Proof
end

