-- ==== Sys2Proof/Decode.lean ====
section
/-! DEFINITION. The commands that a word of the table spells: the table gives no row any bits. -/

namespace Sys2Proof

/-- The command that the `nbits` bits `w` spell. spec/opcode_table.json lists no bits for any row, so none is spelt. (DESIGN CHOICE, log entry 7) -/
def decodeTableWord (nbits w : Nat) : Option Instr :=
  match nbits, w with
  | _, _ => none

end Sys2Proof
end

