-- ==== Sys2Proof/Config.lean ====
section
/-! DEFINITION. What one device or one implementation fixes, and the free values: opaque constants nothing can evaluate. -/

namespace Sys2Proof

/-- The functions of the cryptographic standards the spec names without giving them. Each takes its operands as byte strings. -/
inductive CryptoFn
  /-- SHA-2, SHA-3, SHAKE and cSHAKE of the message, by ALG code (code, N, S, message, output length; 0 for a fixed digest). -/
  | hash
  /-- The state of SHA-256, SHA-384, SHA-512 after one block (number, block), and the digest reached from a state (number, state, rest of the message). -/
  | hashState
  | hashFrom
  /-- The AES block function of FIPS 197 and its inverse (key, block). -/
  | aes
  | aesInv
  /-- Private key in its stored form (ALG, random bytes). -/
  | keyGen
  /-- Public key of a stored form (ALG, stored form). -/
  | publicOf
  /-- The encryption inside a KEM: K-PKE.Encrypt of ML-KEM (ALG, public key, m, r), Encode of Classic McEliece (ALG, public key, e). -/
  | kemEncrypt
  /-- The decryption inside a KEM: K-PKE.Decrypt, the decoder of Classic McEliece (ALG, stored form, ciphertext). -/
  | kemDecrypt
  /-- The error vector that a try of FixedWeight gives (ALG, random bytes). -/
  | fixedWeight
  /-- ECDH, X25519, X448 shared secret (ALG, stored form, peer key). -/
  | agree
  /-- Signature (ALG, mode octets, stored form, context, message, random bytes). -/
  | sign
  /-- RSA-OAEP (direction, key, fields, data). -/
  | oaep
  /-- Attempts that a signing, a key generation or a FixedWeight procedure takes, less one (its operands). -/
  | attempts
  /-- ML-KEM-768 and X25519 of the Soade handshake. -/
  | twin
deriving DecidableEq, Repr

/-- The yes-or-no questions that the standards decide. -/
inductive CryptoPred
  /-- A signature verifies (ALG, mode octets, public key, context, message, signature). -/
  | verify
  /-- An RSA-OAEP ciphertext decodes (key, fields, data). -/
  | oaep
  /-- A Classic McEliece ciphertext decodes to an error vector of the right weight (ALG, stored form, ciphertext). -/
  | decodes
  /-- An operation ends within its attempt limit (its operands). -/
  | attempts
  /-- The fixed sampler draws of Table 14-6 suffice (its operands). -/
  | sampler
deriving DecidableEq, Repr

/-- The standards' functions, uninterpreted. (DESIGN CHOICE, log entry 2) -/
opaque Config.crypto : CryptoFn → List (List Byte) → List Byte

/-- The standards' predicates, uninterpreted. (DESIGN CHOICE, log entry 2) -/
opaque Config.holds : CryptoPred → List (List Byte) → Bool

/-- Conditioned random bytes and every other free value, by the model's own counter. (DESIGN CHOICE, log entry 3) -/
opaque Config.freeByte : Nat → Byte

/-- The keyed mix that scrambles a line of DDR5 and the keyed function of its tag: key, channel offset, 64 bytes (R254). (DESIGN CHOICE, log entry 64) -/
opaque Config.lineMix : List Byte → Nat → List Byte → List Byte

/-- The tag of a line (R254). (DESIGN CHOICE, log entry 64) -/
opaque Config.lineTag : List Byte → Nat → List Byte → List Byte

/-- The bytes of a change record: R488 and Table 21-8 list what it carries and give no layout. (DEDUCED, log entry 31) -/
opaque Config.recordBytes : ChangeRec → List Byte

/-- The seed from which the PRBS generators of one length start, before the rotation by the lane index: R501 gives none. (DESIGN CHOICE, log entry 73) -/
opaque Config.prbsSeed : Nat → Nat

/-- The check row that belongs to a device secret (Table 18-2); the spec does not give its code. (DESIGN CHOICE, log entry 62) -/
opaque Config.dsecCheck : BitVec 256 → BitVec 32

/-- GLB_SERIAL, from OTP. (DESIGN CHOICE, log entries 5 and 62) -/
opaque Config.serial : BitVec 64

/-- The boot ROM's 256 KiB, by offset. (DESIGN CHOICE, log entries 4 and 62) -/
opaque Config.rom : Nat → Byte

/-- Vendor keys fixed in boot ROM: ML-DSA-87, then ECDSA P-384. (DESIGN CHOICE, log entry 62) -/
opaque Config.vendorKeys : List Byte

/-- Secure firmware release that the VERSION service reports. (DESIGN CHOICE, log entry 62) -/
opaque Config.firmwareRelease : BitVec 64

/-- Words of a function's configuration space that the spec leaves to PCI Express, by offset. (PRESUMED, log entry 9) -/
opaque Config.pcieWord : Nat → BitVec 32

/-- The levels that the outside drives on the GPIO balls, by TIME. (DESIGN CHOICE, log entry 50) -/
opaque Config.gpioIn : Nat → BitVec 16

/-- Whether hash tile `n` fails its known-answer test at step 4 of the start whose first free value has number `k` (R89). (DESIGN CHOICE, log entry 70) -/
opaque Config.tileFails : Nat → Nat → Bool

/-- The regulator's answer to VOUT_MODE, by the TIME of the command. (DESIGN CHOICE, log entry 50) -/
opaque Config.voutMode : Nat → BitVec 8

/-- The voltage of the cell in mV, by the number of the millisecond in which it was measured. (DESIGN CHOICE, log entry 50) -/
opaque Config.vbatMv : Nat → BitVec 12

/-- The die temperature grade: a -E part, else a -I part (Table 0-1). (DESIGN CHOICE, log entry 62) -/
opaque Config.extended : Bool

end Sys2Proof
end

