-- ==== Sys2Proof/Machine/Bits.lean ====
section
/-! DEFINITION. Byte strings, bit fields and the cyclic codes the spec gives in full. -/

namespace Sys2Proof.Machine

/-- Bits [lsb + w − 1 : lsb] of `v`. -/
def bits (v lsb w : Nat) : Nat := v / 2 ^ lsb % 2 ^ w

/-- `v` with bit `i` set. -/
def bitSet (v i : Nat) : Nat := if v.testBit i then v else v + 2 ^ i

/-- `v` with bit `i` cleared. -/
def bitClear (v i : Nat) : Nat := if v.testBit i then v - 2 ^ i else v

/-- How many of the lowest `n` bits of `v` are set. -/
def popCount : Nat → Nat → Nat
  | 0, _ => 0
  | n + 1, v => v % 2 + popCount n (v / 2)

/-- A byte string as a little-endian number (R4). -/
def leNat : List Byte → Nat
  | [] => 0
  | b :: t => b.toNat + 256 * leNat t

/-- The `n` bytes of a little-endian field (R4). -/
def leBytes : Nat → Nat → List Byte
  | 0, _ => []
  | n + 1, v => BitVec.ofNat 8 v :: leBytes n (v / 256)

/-- The `n` bytes of a big-endian number. -/
def beBytes (n v : Nat) : List Byte := (leBytes n v).reverse

/-- Bytes `off` to `off + len − 1`. -/
def slice (l : List Byte) (off len : Nat) : List Byte := (l.drop off).take len

/-- The little-endian field of `len` bytes at `off`. -/
def leAt (l : List Byte) (off len : Nat) : Nat := leNat (slice l off len)

/-- `n` zero bytes. -/
def zeros (n : Nat) : List Byte := List.replicate n 0

/-- The byte string cut or zero-padded to `n` bytes. -/
def fit (n : Nat) (l : List Byte) : List Byte := (l ++ zeros (n - l.length)).take n

/-- Whether every byte is zero. -/
def allZero (l : List Byte) : Bool := l.all (· == 0)

/-- The offset of the first byte that is not zero. -/
def firstNonZero : List Byte → Option Nat
  | [] => none
  | b :: t => if b = 0 then (firstNonZero t).map (· + 1) else some 0

/-- Bitwise exclusive or of two byte strings. -/
def xorBytes (a b : List Byte) : List Byte := List.zipWith (· ^^^ ·) a b

/-- An ASCII string as bytes. -/
def ascii (s : String) : List Byte := s.toList.map fun c => BitVec.ofNat 8 c.toNat

/-- Round `n` up to a multiple of `m`. -/
def roundUp (n m : Nat) : Nat := (n + m - 1) / m * m

/-- One bit of a reflected cyclic code. -/
def crcBit (poly : Nat) (c : Nat) : Nat := if c % 2 = 1 then (c / 2) ^^^ poly else c / 2

/-- One byte of a reflected 32-bit cyclic code. -/
def crcByte (poly : Nat) (c : Nat) (b : Byte) : Nat :=
  let f := crcBit poly
  f (f (f (f (f (f (f (f (c ^^^ b.toNat))))))))

/-- CRC-32 of IEEE 802.3 (R82, R480). -/
def crc32 (l : List Byte) : Nat := (l.foldl (crcByte 0xEDB88320) 0xFFFFFFFF) ^^^ 0xFFFFFFFF

/-- CRC-32C, Castagnoli (R273). -/
def crc32c (l : List Byte) : Nat := (l.foldl (crcByte 0x82F63B78) 0xFFFFFFFF) ^^^ 0xFFFFFFFF

/-- One bit of the recorder's CRC-8. -/
def crc8Bit (c : Nat) : Nat := if c ≥ 128 then ((c * 2) % 256) ^^^ 7 else c * 2

/-- CRC-8 with polynomial x⁸ + x² + x + 1 (R465). -/
def crc8 (l : List Byte) : Nat :=
  l.foldl (fun c b => crc8Bit (crc8Bit (crc8Bit (crc8Bit (crc8Bit (crc8Bit (crc8Bit (crc8Bit (c ^^^ b.toNat))))))))) 0

/-- `n` free bytes from counter value `c` on. -/
def freeBytes (c : Nat) : Nat → List Byte
  | 0 => []
  | n + 1 => Config.freeByte c :: freeBytes (c + 1) n

end Sys2Proof.Machine
end

