-- ==== Sys2Proof/Machine/Modes.lean ====
section
/-! DEFINITION. The modes of operation and the key-derivation functions the spec uses, written out over the AES block function and the hash functions, which stay uninterpreted (R19, R298, R364, R365, R415 to R423). -/

namespace Sys2Proof.Machine

/-! Hash functions. -/

/-- Hash by ALG code with N and S of cSHAKE; `n` output bytes, 0 for a fixed digest. -/
def hashNS (alg : Nat) (fname custom msg : List Byte) (n : Nat) : List Byte :=
  Config.crypto .hash [leBytes 2 alg, fname, custom, msg, leBytes 4 n]

/-- Hash by ALG code, one operand. -/
def hashOf (alg : Nat) (msg : List Byte) : List Byte := hashNS alg [] [] msg 0

/-- SHA-256. -/
def sha256 (msg : List Byte) : List Byte := fit 32 (hashOf 0x0A01 msg)

/-- SHA-384. -/
def sha384 (msg : List Byte) : List Byte := fit 48 (hashOf 0x0A02 msg)

/-- SHA3-256. -/
def sha3 (msg : List Byte) : List Byte := fit 32 (hashOf 0x0A04 msg)

/-- A digest of Table 15-2: cSHAKE with N and S both empty is SHAKE (R359). (DESIGN CHOICE, log entry 2) -/
def digestOf (alg : Nat) (fname custom msg : List Byte) (n : Nat) : List Byte :=
  if 0x0A09 ≤ alg ∧ fname.isEmpty ∧ custom.isEmpty then fit n (hashNS (alg - 2) [] [] msg n)
  else if 0x0A07 ≤ alg then fit n (hashNS alg fname custom msg n)
  else fit n (hashOf alg msg)

/-! AES and its modes. -/

/-- The AES block function and its inverse (FIPS 197). (DESIGN CHOICE, log entry 2) -/
def aesEnc (key blk : List Byte) : List Byte := fit 16 (Config.crypto .aes [key, blk])

/-- AES decryption of a block. -/
def aesDec (key blk : List Byte) : List Byte := fit 16 (Config.crypto .aesInv [key, blk])

/-- A byte string cut into pieces of `n` bytes, the last one possibly shorter. -/
def pieces (n : Nat) : Nat → List Byte → List (List Byte)
  | 0, _ => []
  | fuel + 1, l => if l.isEmpty then [] else l.take n :: pieces n fuel (l.drop n)

/-- Blocks of 16 bytes. -/
def blocks (l : List Byte) : List (List Byte) := pieces 16 (l.length / 16 + 1) l

/-- A byte string padded with zeros to whole blocks. -/
def padBlocks (l : List Byte) : List Byte := fit (roundUp l.length 16) l

/-- A byte string as a big-endian number. -/
def beNat (l : List Byte) : Nat := leNat l.reverse

/-- CTR: the counter block is a 128-bit big-endian number that wraps (R417). -/
def ctrBlocks (key : List Byte) : Nat → List (List Byte) → List Byte
  | _, [] => []
  | c, b :: t => xorBytes b (aesEnc key (beBytes 16 c)) ++ ctrBlocks key (c + 1) t

/-- Counter mode. -/
def ctr (key iv data : List Byte) : List Byte := ctrBlocks key (beNat iv) (blocks data)

/-- CBC encryption and decryption of whole blocks. -/
def cbcEnc (key : List Byte) : List Byte → List (List Byte) → List Byte
  | _, [] => []
  | prev, b :: t => let c := aesEnc key (xorBytes b prev); c ++ cbcEnc key c t

/-- CBC decryption. -/
def cbcDec (key : List Byte) : List Byte → List (List Byte) → List Byte
  | _, [] => []
  | prev, b :: t => xorBytes (aesDec key b) prev ++ cbcDec key b t

/-- PKCS#7 padding, and its removal: `none` where it is not 1 to 16 bytes of equal value (R418). -/
def pkcsPad (l : List Byte) : List Byte := l ++ List.replicate (16 - l.length % 16) (BitVec.ofNat 8 (16 - l.length % 16))

/-- PKCS #7 padding is checked and removed. -/
def pkcsStrip (l : List Byte) : Option (List Byte) :=
  let n := match l.getLast? with | some b => b.toNat | none => 0
  if 1 ≤ n ∧ n ≤ 16 ∧ (l.drop (l.length - n)).all (fun b => b.toNat == n) then some (l.take (l.length - n)) else none

/-- Doubling of an XTS tweak, a little-endian element of GF(2^128). -/
def xtsDouble (t : Nat) : Nat := if t < 2 ^ 127 then 2 * t else (2 * t % 2 ^ 128) ^^^ 0x87

/-- One block under a tweak. -/
def xtsBlock (f : List Byte → List Byte) (t : Nat) (b : List Byte) : List Byte :=
  xorBytes (f (xorBytes b (leBytes 16 t))) (leBytes 16 t)

/-- One data unit, completed by ciphertext stealing; `dec` exchanges the last two tweaks (R417). -/
def xtsBlocks (f : List Byte → List Byte) (dec : Bool) : Nat → List (List Byte) → List Byte
  | _, [] => []
  | t, [b] => xtsBlock f t b
  | t, a :: b :: r =>
    if b.length < 16 then
      let u := xtsDouble t
      let x := xtsBlock f (if dec then u else t) a
      xtsBlock f (if dec then t else u) (b ++ x.drop b.length) ++ x.take b.length
    else xtsBlock f t a ++ xtsBlocks f dec (xtsDouble t) (b :: r)

/-- The data units from tweak value `i` on. -/
def xtsUnits (f g : List Byte → List Byte) (dec : Bool) : Nat → List (List Byte) → List Byte
  | _, [] => []
  | i, u :: t => xtsBlocks f dec (leNat (g (leBytes 16 i))) (blocks u) ++ xtsUnits f g dec (i + 1) t

/-! GCM. -/

/-- The product in GF(2^128) of GHASH: `n` bits of `x` are still to come, `v` is the shifted factor, `z` the sum. -/
def ghashMul (x : Nat) : Nat → Nat → Nat → Nat
  | 0, _, z => z
  | n + 1, v, z =>
    ghashMul x n (if v % 2 = 1 then (v / 2) ^^^ (0xE1 * 2 ^ 120) else v / 2) (if x.testBit n then z ^^^ v else z)

/-- GHASH over whole blocks under H. -/
def ghash (h : Nat) : Nat → List (List Byte) → Nat
  | y, [] => y
  | y, b :: t => ghash h (ghashMul (y ^^^ beNat b) 128 h 0) t

/-- The counter mode of GCM: the last 32 bits of the block count. -/
def gctr (key nonce : List Byte) : Nat → List (List Byte) → List Byte
  | _, [] => []
  | i, b :: t => xorBytes b (aesEnc key (nonce ++ beBytes 4 i)) ++ gctr key nonce (i + 1) t

/-- The tag over a ciphertext, J0 being the nonce with counter 1 (R420). -/
def gcmTagOf (key nonce aad cipher : List Byte) : List Byte :=
  let h := beNat (aesEnc key (zeros 16))
  let y := ghash h 0 (blocks (padBlocks aad) ++ blocks (padBlocks cipher) ++ [beBytes 8 (8 * aad.length) ++ beBytes 8 (8 * cipher.length)])
  xorBytes (aesEnc key (nonce ++ beBytes 4 1)) (beBytes 16 y)

/-- AES-256-GCM: ciphertext, tag of a sealing, plaintext of a ciphertext. -/
def gcmSeal (key nonce _aad plain : List Byte) : List Byte := gctr key nonce 2 (blocks plain)

/-- GCM decryption. -/
def gcmOpen (key nonce aad cipher : List Byte) : List Byte := gcmSeal key nonce aad cipher

/-- The tag of GCM, of the key. -/
def gcmTag (key nonce aad plain : List Byte) : List Byte := gcmTagOf key nonce aad (gcmSeal key nonce aad plain)

/-- Whether a tag, possibly truncated, belongs to a ciphertext. -/
def gcmOk (key nonce aad cipher tag : List Byte) : Bool := (gcmTagOf key nonce aad cipher).take tag.length == tag

/-! Key wrap (RFC 3394, RFC 5649). -/

/-- One pass of wrapping over the registers, `t` the step number so far: the register A and the new registers. -/
def kwPass (key : List Byte) : List Byte → Nat → List (List Byte) → List Byte × List (List Byte)
  | a, _, [] => (a, [])
  | a, t, r :: rs =>
    let b := aesEnc key (a ++ r)
    let (a', rs') := kwPass key (xorBytes (b.take 8) (beBytes 8 (t + 1))) (t + 1) rs
    (a', b.drop 8 :: rs')

/-- `n` passes of wrapping. -/
def kwPasses (key : List Byte) : Nat → List Byte → Nat → List (List Byte) → List Byte × List (List Byte)
  | 0, a, _, rs => (a, rs)
  | n + 1, a, t, rs => let (a, rs) := kwPass key a t rs; kwPasses key n a (t + rs.length) rs

/-- One pass of unwrapping, over the registers in reverse order; `t` is the step to undo. -/
def kwBack (key : List Byte) : List Byte → Nat → List (List Byte) → List Byte × List (List Byte)
  | a, _, [] => (a, [])
  | a, t, r :: rs =>
    let b := aesDec key (xorBytes a (beBytes 8 t) ++ r)
    let (a', rs') := kwBack key (b.take 8) (t - 1) rs
    (a', b.drop 8 :: rs')

/-- `n` passes of unwrapping. -/
def kwBacks (key : List Byte) : Nat → List Byte → Nat → List (List Byte) → List Byte × List (List Byte)
  | 0, a, _, rs => (a, rs)
  | n + 1, a, t, rs => let (a, rs) := kwBack key a t rs; kwBacks key n a (t - rs.length) rs

/-- Registers of 8 bytes. -/
def halves (l : List Byte) : List (List Byte) := pieces 8 (l.length / 8 + 1) l

/-- Wrapping whole registers under an initial value, and the way back. -/
def kwWrap (key iv data : List Byte) : List Byte :=
  let (a, rs) := kwPasses key 6 iv 0 (halves data)
  a ++ rs.flatten

/-- Key unwrapping. -/
def kwUnwrap (key data : List Byte) : List Byte × List Byte :=
  let rs := (halves (data.drop 8)).reverse
  let (a, rs) := kwBacks key 6 (data.take 8) (6 * rs.length) rs
  (a, rs.reverse.flatten)

/-- The initial value of KW. -/
def kwIv : List Byte := List.replicate 8 0xA6

/-- AES-KW unwrapping: `none` where the integrity check fails. -/
def kwOpen (key data : List Byte) : Option (List Byte) :=
  let (a, p) := kwUnwrap key data
  if a = kwIv then some p else none

/-- AES-KWP wrapping. -/
def kwpSeal (key data : List Byte) : List Byte :=
  let aiv := [0xA6, 0x59, 0x59, 0xA6] ++ beBytes 4 data.length
  let p := fit (roundUp data.length 8) data
  if p.length = 8 then aesEnc key (aiv ++ p) else kwWrap key aiv p

/-- AES-KWP unwrapping: `none` where the integrity, length or padding check fails (R419). -/
def kwpOpen (key data : List Byte) : Option (List Byte) :=
  let (a, p) := if data.length = 16 then ((aesDec key data).take 8, (aesDec key data).drop 8) else kwUnwrap key data
  let n := beNat (a.drop 4)
  if a.take 4 = [0xA6, 0x59, 0x59, 0xA6] ∧ n ≤ p.length ∧ p.length < n + 8 ∧ allZero (p.drop n) then some (p.take n) else none

/-! Message authentication. -/

/-- Doubling of a CMAC subkey, a big-endian element of GF(2^128). -/
def cmacDouble (v : Nat) : Nat := xtsDouble v

/-- CBC-MAC over whole blocks. -/
def cbcMac (key : List Byte) : List Byte → List (List Byte) → List Byte
  | y, [] => y
  | y, b :: t => cbcMac key (aesEnc key (xorBytes b y)) t

/-- AES-CMAC (SP 800-38B, R423). -/
def cmac (key msg : List Byte) : List Byte :=
  let k1 := cmacDouble (beNat (aesEnc key (zeros 16)))
  let full := decide (0 < msg.length) && msg.length % 16 == 0
  let m := if full then msg else fit (msg.length / 16 * 16 + 16) (msg ++ [0x80])
  let last := m.drop (m.length - 16)
  cbcMac key (zeros 16)
    (blocks (m.take (m.length - 16)) ++ [xorBytes last (beBytes 16 (if full then k1 else cmacDouble k1))])

/-- Digest bytes and block bytes of SHA-256, SHA-384, SHA-512 by number. -/
def shaLen (i : Nat) : Nat := if i = 1 then 32 else if i = 2 then 48 else 64

/-- Block length of a hash. -/
def shaBlock (i : Nat) : Nat := if i = 1 then 64 else 128

/-- Bytes of the chaining state of a SHA-2 hash by number. -/
def shaState (i : Nat) : Nat := if i = 1 then 32 else 64

/-- A key state of HMAC: the hash after the one block of the padded key (FIPS 198-1, R364). (DESIGN CHOICE, log entry 2) -/
def hmacState (i : Nat) (pad : Byte) (key : List Byte) : List Byte :=
  let k := fit (shaBlock i) (if shaBlock i < key.length then fit (shaLen i) (hashOf (0x0A00 + i) key) else key)
  fit (shaState i) (Config.crypto .hashState [leBytes 1 i, k.map (· ^^^ pad)])

/-- The inner key state, then the outer one. -/
def hmacStates (i : Nat) (key : List Byte) : List Byte := hmacState i 0x36 key ++ hmacState i 0x5C key

/-- A digest from a chaining state on. (DESIGN CHOICE, log entry 2) -/
def hashFrom (i : Nat) (state msg : List Byte) : List Byte := fit (shaLen i) (Config.crypto .hashFrom [leBytes 1 i, state, msg])

/-- HMAC from its key states. -/
def hmacFrom (i : Nat) (states msg : List Byte) : List Byte :=
  hashFrom i (states.drop (shaState i)) (hashFrom i (states.take (shaState i)) msg)

/-- HMAC with SHA-256, SHA-384, SHA-512 by number (FIPS 198-1, R364). -/
def hmac (i : Nat) (key msg : List Byte) : List Byte := hmacFrom i (hmacStates i key) msg

/-- Bytes of a number, most significant first, without leading zeros but at least one. -/
def minBytes : Nat → Nat → List Byte
  | 0, v => [BitVec.ofNat 8 v]
  | fuel + 1, v => if v < 256 then [BitVec.ofNat 8 v] else minBytes fuel (v / 256) ++ [BitVec.ofNat 8 v]

/-- left_encode and right_encode, encode_string and bytepad of SP 800-185. -/
def leftEncode (v : Nat) : List Byte := let b := minBytes 8 v; BitVec.ofNat 8 b.length :: b

/-- right_encode of SP 800-185. -/
def rightEncode (v : Nat) : List Byte := let b := minBytes 8 v; b ++ [BitVec.ofNat 8 b.length]

/-- encode_string of SP 800-185. -/
def encodeString (l : List Byte) : List Byte := leftEncode (8 * l.length) ++ l

/-- bytepad of SP 800-185. -/
def bytepad (l : List Byte) (w : Nat) : List Byte := let x := leftEncode w ++ l; fit (roundUp x.length w) x

/-- KMAC128 (`big` false) and KMAC256 with `n` output bytes (SP 800-185, R365). -/
def kmac (big : Bool) (key msg custom : List Byte) (n : Nat) : List Byte :=
  fit n (hashNS (if big then 0x0A0A else 0x0A09) (ascii "KMAC") custom
    (bytepad (encodeString key) (if big then 136 else 168) ++ msg ++ rightEncode (8 * n)) n)

/-- KDF of R19: KMAC256. -/
def kdf (key : List Byte) (label : String) (context : List Byte) (bits : Nat) : List Byte :=
  kmac true key context (ascii label) (bits / 8)

/-! KEY_DERIVE (R298). -/

/-- Blocks `i`, `i` + 1, … of SP 800-108 in counter mode with HMAC, `n` of them. -/
def counterBlocks (h : Nat) (key label context : List Byte) (bits : Nat) : Nat → Nat → List Byte
  | _, 0 => []
  | i, n + 1 =>
    hmac h key (beBytes 4 i ++ label ++ [0] ++ context ++ beBytes 4 bits) ++ counterBlocks h key label context bits (i + 1) n

/-- HKDF-Expand: `n` blocks from number `i` on, after block `prev`. -/
def hkdfBlocks (h : Nat) (prk info : List Byte) : List Byte → Nat → Nat → List Byte
  | _, _, 0 => []
  | prev, i, n + 1 =>
    let t := hmac h prk (prev ++ info ++ [BitVec.ofNat 8 i])
    t ++ hkdfBlocks h prk info t (i + 1) n

/-- The key that KEY_DERIVE computes: KDF, base key, first and second part of the input, bytes wanted. -/
def deriveKey (f : Nat) (key p1 p2 : List Byte) (n : Nat) : List Byte :=
  if f ≤ 3 then (counterBlocks f key p1 p2 (8 * n) 1 (n / shaLen f + 1)).take n
  else if f ≤ 5 then kmac (f == 5) key p2 p1 n
  else
    let h := f - 5
    let prk := hmac h (if p1.isEmpty then zeros (shaLen h) else p1) key
    (hkdfBlocks h prk p2 [] 1 (n / shaLen h + 1)).take n

end Sys2Proof.Machine
end

