-- ==== Sys2Proof/Machine/Table.lean ====
section
/-! DEFINITION. Sparse tables by number: the one form in which memory, registers and other numbered things are held. -/

namespace Sys2Proof.Machine

/-- A sparse table: pairs of a key and a value, keys rising, no pair holding the value an unlisted key reads as. (DESIGN CHOICE, log entry 4) -/
abbrev Tbl (α : Type) := List (Nat × α)

/-- The value at `k`, `d` where `k` is not listed. -/
def tblGet {α : Type} (d : α) : Tbl α → Nat → α
  | [], _ => d
  | (k', v) :: t, k => if k = k' then v else tblGet d t k

/-- The table without the key `k`. -/
def tblErase {α : Type} : Tbl α → Nat → Tbl α
  | [], _ => []
  | (k', v) :: t, k => if k = k' then tblErase t k else (k', v) :: tblErase t k

/-- The table with `v` placed at `k`, keys staying in rising order. -/
def tblInsert {α : Type} : Tbl α → Nat → α → Tbl α
  | [], k, v => [(k, v)]
  | (k', v') :: t, k, v =>
    if k < k' then (k, v) :: (k', v') :: t
    else if k = k' then (k, v) :: t
    else (k', v') :: tblInsert t k v

/-- Writing `v` at `k`: writing the value an unlisted key reads as removes the entry. (DESIGN CHOICE, log entry 4) -/
def tblPut {α : Type} [DecidableEq α] (d : α) (t : Tbl α) (k : Nat) (v : α) : Tbl α :=
  if v = d then tblErase t k else tblInsert t k v

/-- Whether every key of the table is above `b`. -/
def tblAbove {α : Type} (b : Nat) : Tbl α → Bool
  | [] => true
  | (k, _) :: t => decide (b < k) && tblAbove b t

/-- Whether the keys rise strictly. -/
def tblSorted {α : Type} : Tbl α → Bool
  | [] => true
  | (k, _) :: t => tblAbove k t && tblSorted t

/-- Whether no listed value is the one an unlisted key reads as. (DESIGN CHOICE, log entry 4) -/
def tblLean {α : Type} [DecidableEq α] (d : α) : Tbl α → Bool
  | [] => true
  | (_, v) :: t => decide (v ≠ d) && tblLean d t

/-- The canonical form of a table. -/
def tblWf {α : Type} [DecidableEq α] (d : α) (t : Tbl α) : Bool :=
  tblSorted t && tblLean d t

/-- Changing the value at `k` by `f`. -/
def tblMod {α : Type} [DecidableEq α] (d : α) (t : Tbl α) (k : Nat) (f : α → α) : Tbl α :=
  tblPut d t k (f (tblGet d t k))

end Sys2Proof.Machine
end

