-- ==== Sys2Proof/Machine/Regs.lean ====
section
/-! DEFINITION. Every register field of the HX960 as its field table gives it: place, width, access, reset value (R5). -/

namespace Sys2Proof.Machine

/-- The access codes of Table 0-3. -/
inductive Acc | ro | rw | rwl | sq | gw | wm | wo
deriving DecidableEq, Repr

/-- A register field. `off` is the offset of its word in the register space, or in its window for the banks that repeat. -/
structure Fld where
  off : Nat
  lsb : Nat
  width : Nat
  acc : Acc
  reset : Nat
  /-- The distance between the words of an array of registers. -/
  stride : Nat := 0
  /-- The instance of a banked register (R102). -/
  bank : Nat := 0
  /-- Reset values by index, where they differ along the array. -/
  resets : List Nat := []
deriving DecidableEq, Repr

/-- Element `i` of a field of an array of registers. -/
def Fld.ix (f : Fld) (i : Nat) : Fld :=
  { f with off := f.off + f.stride * i, stride := 0, reset := f.resets.getD i f.reset, resets := [] }

/-- The field in the window that lies `b` above. -/
def Fld.add (f : Fld) (b : Nat) : Fld := { f with off := f.off + b }

/-- The field of port `p`'s block. -/
def Fld.port (f : Fld) (p : Port) : Fld := f.add (0x10000 * p.num)

/-- Instance `k` of a banked field. -/
def Fld.inst (f : Fld) (k : Nat) : Fld := { f with bank := k }

/-- The key under which the field's value is held: its instance, its word and its lowest bit. -/
def Fld.key (f : Fld) : Nat := (f.bank * 0x1000000 + f.off) * 64 + f.lsb

/-- One register, or array of registers, with its fields. -/
structure RegRow where
  off : Nat
  stride : Nat
  count : Nat
  flds : List Fld
deriving DecidableEq, Repr

namespace R

/-! Chapter 03. -/

/-- PWR_RATE.RATE [15:0] RO, reset 0x0000. -/
def PWR_RATE_RATE : Fld := { off := 0x10000, lsb := 0, width := 16, acc := .ro, reset := 0 }

/-- PWR_VCORE.SETPOINT [9:0] RO, reset 0x2EE. -/
def PWR_VCORE_SETPOINT : Fld := { off := 0x10004, lsb := 0, width := 10, acc := .ro, reset := 750 }

/-- PWR_VCORE.MEASURED [25:16] RO, reset 0x000. -/
def PWR_VCORE_MEASURED : Fld := { off := 0x10004, lsb := 16, width := 10, acc := .ro, reset := 0 }

/-- PWR_VCORE.AVS_EN [31] RO, reset 0. -/
def PWR_VCORE_AVS_EN : Fld := { off := 0x10004, lsb := 31, width := 1, acc := .ro, reset := 0 }

/-- PWR_CAP.CAP [5:0] GW, reset 0x37. -/
def PWR_CAP_CAP : Fld := { off := 0x10008, lsb := 0, width := 6, acc := .gw, reset := 55 }

/-- PWR_POWER.TOTAL [15:0] RO, reset 0x0000. -/
def PWR_POWER_TOTAL : Fld := { off := 0x10010, lsb := 0, width := 16, acc := .ro, reset := 0 }

/-- PWR_POWER.TEMP [31:16] RO, reset 0x0000. -/
def PWR_POWER_TEMP : Fld := { off := 0x10010, lsb := 16, width := 16, acc := .ro, reset := 0 }

/-- PWR_EVT.DOMAIN_LOST [0] SQ, reset 0. -/
def PWR_EVT_DOMAIN_LOST : Fld := { off := 0x10014, lsb := 0, width := 1, acc := .sq, reset := 0 }

/-- PWR_EVT.DOMAIN_RETURNED [1] SQ, reset 0. -/
def PWR_EVT_DOMAIN_RETURNED : Fld := { off := 0x10014, lsb := 1, width := 1, acc := .sq, reset := 0 }

/-- PWR_EVT.GATE_DONE [2] SQ, reset 0. -/
def PWR_EVT_GATE_DONE : Fld := { off := 0x10014, lsb := 2, width := 1, acc := .sq, reset := 0 }

/-- PWR_EVT.GATE_SUPERSEDED [3] SQ, reset 0. -/
def PWR_EVT_GATE_SUPERSEDED : Fld := { off := 0x10014, lsb := 3, width := 1, acc := .sq, reset := 0 }

/-- PWR_EVT.CAP_ACTIVE [4] SQ, reset 0. -/
def PWR_EVT_CAP_ACTIVE : Fld := { off := 0x10014, lsb := 4, width := 1, acc := .sq, reset := 0 }

/-- PWR_EVT.AVS_FAULT [5] SQ, reset 0. -/
def PWR_EVT_AVS_FAULT : Fld := { off := 0x10014, lsb := 5, width := 1, acc := .sq, reset := 0 }

/-- PWR_EVT.SEQ [31:16] SQ, reset 0x0000. -/
def PWR_EVT_SEQ : Fld := { off := 0x10014, lsb := 16, width := 16, acc := .sq, reset := 0 }

/-- PWR_DOM_REQ.DOMAIN [5:0] RW, reset 0. -/
def PWR_DOM_REQ_DOMAIN : Fld := { off := 0x10020, lsb := 0, width := 6, acc := .rw, reset := 0 }

/-- PWR_DOM_REQ.TARGET [9:8] RW, reset 0b00. -/
def PWR_DOM_REQ_TARGET : Fld := { off := 0x10020, lsb := 8, width := 2, acc := .rw, reset := 0 }

/-- PWR_DOM_REQ.RESULT [18:16] RO, reset 0b000. -/
def PWR_DOM_REQ_RESULT : Fld := { off := 0x10020, lsb := 16, width := 3, acc := .ro, reset := 0 }

/-- PWR_DOM_STAT.STATE [1:0] RO, reset 0b00. -/
def PWR_DOM_STAT_STATE : Fld := { off := 0x10100, lsb := 0, width := 2, acc := .ro, reset := 0, stride := 4 }

/-- PWR_DOM_STAT.WORLD [3:2] RO, reset Table 3-5. -/
def PWR_DOM_STAT_WORLD : Fld := { off := 0x10100, lsb := 2, width := 2, acc := .ro, reset := 0, stride := 4, resets := [0, 0, 0, 2, 2, 2, 2, 2, 2, 2, 2, 2, 2, 0, 0, 0, 0, 0, 0, 0, 0, 0, 0, 0, 0, 0, 0, 0, 2, 0, 0, 0, 1, 1, 0, 1, 0, 0, 0, 0, 0, 2, 2, 2, 2, 2, 2, 2, 2, 2, 2, 2, 2, 2, 2, 2, 2, 2, 0, 0] }

/-- PWR_DOM_STAT.PENDING [5:4] RO, reset 0b11. -/
def PWR_DOM_STAT_PENDING : Fld := { off := 0x10100, lsb := 4, width := 2, acc := .ro, reset := 3, stride := 4 }

/-- PWR_DOM_STAT.PEND_WORLD [6] RO, reset 0. -/
def PWR_DOM_STAT_PEND_WORLD : Fld := { off := 0x10100, lsb := 6, width := 1, acc := .ro, reset := 0, stride := 4 }

/-- PWR_DOM_STAT.IDLE_BASK [7] RO, reset 0. -/
def PWR_DOM_STAT_IDLE_BASK : Fld := { off := 0x10100, lsb := 7, width := 1, acc := .ro, reset := 0, stride := 4 }

/-- PWR_DOM_STAT.CLAIMS [15:8] RO, reset 0x00. -/
def PWR_DOM_STAT_CLAIMS : Fld := { off := 0x10100, lsb := 8, width := 8, acc := .ro, reset := 0, stride := 4 }

/-! Chapter 04. -/

/-- BOOT_STATUS.STAGE [3:0] RO, reset 0x0. -/
def BOOT_STATUS_STAGE : Fld := { off := 0x20000, lsb := 0, width := 4, acc := .ro, reset := 0 }

/-- BOOT_STATUS.COPY [5:4] RO, reset 0b00. -/
def BOOT_STATUS_COPY : Fld := { off := 0x20000, lsb := 4, width := 2, acc := .ro, reset := 0 }

/-- BOOT_STATUS.FORMAT [7:6] RO, reset 0b00. -/
def BOOT_STATUS_FORMAT : Fld := { off := 0x20000, lsb := 6, width := 2, acc := .ro, reset := 0 }

/-- BOOT_STATUS.A_RESULT [11:8] RO, reset 0x0. -/
def BOOT_STATUS_A_RESULT : Fld := { off := 0x20000, lsb := 8, width := 4, acc := .ro, reset := 0 }

/-- BOOT_STATUS.B_RESULT [15:12] RO, reset 0x0. -/
def BOOT_STATUS_B_RESULT : Fld := { off := 0x20000, lsb := 12, width := 4, acc := .ro, reset := 0 }

/-- BOOT_STATUS.XSPI_SINGLE [16] RO, reset 0. -/
def BOOT_STATUS_XSPI_SINGLE : Fld := { off := 0x20000, lsb := 16, width := 1, acc := .ro, reset := 0 }

/-- BOOT_STATUS.RECOVERY_CAUSE [19:17] RO, reset 0b000. -/
def BOOT_STATUS_RECOVERY_CAUSE : Fld := { off := 0x20000, lsb := 17, width := 3, acc := .ro, reset := 0 }

/-- BOOT_TIME.READY_US [23:0] RO, reset 0x00_0000. -/
def BOOT_TIME_READY_US : Fld := { off := 0x20004, lsb := 0, width := 24, acc := .ro, reset := 0 }

/-- BOOT_RESET.KEY [7:0] GW, reset 0x00. -/
def BOOT_RESET_KEY : Fld := { off := 0x20008, lsb := 0, width := 8, acc := .gw, reset := 0 }

/-- BOOT_CTRL.FW_READY [0] RW, reset 0. -/
def BOOT_CTRL_FW_READY : Fld := { off := 0x20010, lsb := 0, width := 1, acc := .rw, reset := 0 }

/-- BOOT_EVT.COPY_A_BAD [0] SQ, reset 0. -/
def BOOT_EVT_COPY_A_BAD : Fld := { off := 0x20014, lsb := 0, width := 1, acc := .sq, reset := 0 }

/-- BOOT_EVT.COPY_B_BAD [1] SQ, reset 0. -/
def BOOT_EVT_COPY_B_BAD : Fld := { off := 0x20014, lsb := 1, width := 1, acc := .sq, reset := 0 }

/-- BOOT_EVT.SINGLE_FALLBACK [2] SQ, reset 0. -/
def BOOT_EVT_SINGLE_FALLBACK : Fld := { off := 0x20014, lsb := 2, width := 1, acc := .sq, reset := 0 }

/-- BOOT_EVT.PWRGD_LOW [3] SQ, reset 0. -/
def BOOT_EVT_PWRGD_LOW : Fld := { off := 0x20014, lsb := 3, width := 1, acc := .sq, reset := 0 }

/-- BOOT_EVT.PT_DONE [4] SQ, reset 0. -/
def BOOT_EVT_PT_DONE : Fld := { off := 0x20014, lsb := 4, width := 1, acc := .sq, reset := 0 }

/-- BOOT_EVT.PT_ERROR [5] SQ, reset 0. -/
def BOOT_EVT_PT_ERROR : Fld := { off := 0x20014, lsb := 5, width := 1, acc := .sq, reset := 0 }

/-- BOOT_EVT.SEQ [31:16] SQ, reset 0x0000. -/
def BOOT_EVT_SEQ : Fld := { off := 0x20014, lsb := 16, width := 16, acc := .sq, reset := 0 }

/-- BOOT_PT_CMD.CMD [15:0] RW, reset 0x0000. -/
def BOOT_PT_CMD_CMD : Fld := { off := 0x20020, lsb := 0, width := 16, acc := .rw, reset := 0 }

/-- BOOT_PT_CMD.DIR [16] RW, reset 0. -/
def BOOT_PT_CMD_DIR : Fld := { off := 0x20020, lsb := 16, width := 1, acc := .rw, reset := 0 }

/-- BOOT_PT_CMD.ADDR_EN [17] RW, reset 0. -/
def BOOT_PT_CMD_ADDR_EN : Fld := { off := 0x20020, lsb := 17, width := 1, acc := .rw, reset := 0 }

/-- BOOT_PT_CMD.DUMMY [22:18] RW, reset 0. -/
def BOOT_PT_CMD_DUMMY : Fld := { off := 0x20020, lsb := 18, width := 5, acc := .rw, reset := 0 }

/-- BOOT_PT_CMD.LEN [31:23] RW, reset 0. -/
def BOOT_PT_CMD_LEN : Fld := { off := 0x20020, lsb := 23, width := 9, acc := .rw, reset := 0 }

/-- BOOT_PT_ADDR.ADDR [31:0] RW, reset 0x0000_0000. -/
def BOOT_PT_ADDR_ADDR : Fld := { off := 0x20024, lsb := 0, width := 32, acc := .rw, reset := 0 }

/-- BOOT_PT_GO.GO [0] WO, reset 0. -/
def BOOT_PT_GO_GO : Fld := { off := 0x20028, lsb := 0, width := 1, acc := .wo, reset := 0 }

/-- BOOT_PT_STAT.BUSY [0] RO, reset 0. -/
def BOOT_PT_STAT_BUSY : Fld := { off := 0x2002C, lsb := 0, width := 1, acc := .ro, reset := 0 }

/-- BOOT_PT_STAT.RESULT [3:1] RO, reset 0b000. -/
def BOOT_PT_STAT_RESULT : Fld := { off := 0x2002C, lsb := 1, width := 3, acc := .ro, reset := 0 }

/-- BOOT_PT_BUF.DATA [31:0] RW, reset 0x0000_0000. -/
def BOOT_PT_BUF_DATA : Fld := { off := 0x20100, lsb := 0, width := 32, acc := .rw, reset := 0, stride := 4 }

/-! Chapter 05. -/

/-- GLB_ID.VENDOR [15:0] RO, reset 0x1E5A. -/
def GLB_ID_VENDOR : Fld := { off := 0x0, lsb := 0, width := 16, acc := .ro, reset := 7770 }

/-- GLB_ID.DEVICE [31:16] RO, reset 0x0960. -/
def GLB_ID_DEVICE : Fld := { off := 0x0, lsb := 16, width := 16, acc := .ro, reset := 2400 }

/-- GLB_REV.STEPPING [7:0] RO, reset 0xB0. -/
def GLB_REV_STEPPING : Fld := { off := 0x4, lsb := 0, width := 8, acc := .ro, reset := 176 }

/-- GLB_REV.ROM_VER [15:8] RO, reset 0x03. -/
def GLB_REV_ROM_VER : Fld := { off := 0x4, lsb := 8, width := 8, acc := .ro, reset := 3 }

/-- GLB_REV.EVOLIN_MINOR [19:16] RO, reset 0x3. -/
def GLB_REV_EVOLIN_MINOR : Fld := { off := 0x4, lsb := 16, width := 4, acc := .ro, reset := 3 }

/-- GLB_REV.EVOLIN_MAJOR [23:20] RO, reset 0x1. -/
def GLB_REV_EVOLIN_MAJOR : Fld := { off := 0x4, lsb := 20, width := 4, acc := .ro, reset := 1 }

/-- GLB_REV.SOADE_MINOR [27:24] RO, reset 0x2. -/
def GLB_REV_SOADE_MINOR : Fld := { off := 0x4, lsb := 24, width := 4, acc := .ro, reset := 2 }

/-- GLB_REV.SOADE_MAJOR [31:28] RO, reset 0x1. -/
def GLB_REV_SOADE_MAJOR : Fld := { off := 0x4, lsb := 28, width := 4, acc := .ro, reset := 1 }

/-- GLB_STATUS.READY [0] RO, reset 0. -/
def GLB_STATUS_READY : Fld := { off := 0x8, lsb := 0, width := 1, acc := .ro, reset := 0 }

/-- GLB_STATUS.RECOVERY [1] RO, reset 0. -/
def GLB_STATUS_RECOVERY : Fld := { off := 0x8, lsb := 1, width := 1, acc := .ro, reset := 0 }

/-- GLB_STATUS.SUSPENDED [2] RO, reset 0. -/
def GLB_STATUS_SUSPENDED : Fld := { off := 0x8, lsb := 2, width := 1, acc := .ro, reset := 0 }

/-- GLB_STATUS.ENT_READY [3] RO, reset 0. -/
def GLB_STATUS_ENT_READY : Fld := { off := 0x8, lsb := 3, width := 1, acc := .ro, reset := 0 }

/-- GLB_STATUS.TWIN_UP [4] RO, reset 0. -/
def GLB_STATUS_TWIN_UP : Fld := { off := 0x8, lsb := 4, width := 1, acc := .ro, reset := 0 }

/-- GLB_STATUS.ALARM [5] RO, reset 0. -/
def GLB_STATUS_ALARM : Fld := { off := 0x8, lsb := 5, width := 1, acc := .ro, reset := 0 }

/-- GLB_STATUS.RESPONSE [8:6] RO, reset 0b000. -/
def GLB_STATUS_RESPONSE : Fld := { off := 0x8, lsb := 6, width := 3, acc := .ro, reset := 0 }

/-- GLB_EVT.CAPACITY [0] SQ, reset 0. -/
def GLB_EVT_CAPACITY : Fld := { off := 0xC, lsb := 0, width := 1, acc := .sq, reset := 0 }

/-- GLB_EVT.STATUS [1] SQ, reset 0. -/
def GLB_EVT_STATUS : Fld := { off := 0xC, lsb := 1, width := 1, acc := .sq, reset := 0 }

/-- GLB_EVT.SEQ [31:16] SQ, reset 0x0000. -/
def GLB_EVT_SEQ : Fld := { off := 0xC, lsb := 16, width := 16, acc := .sq, reset := 0 }

/-- GLB_CAPACITY.LATTICE [4:0] RO, reset 0. -/
def GLB_CAPACITY_LATTICE : Fld := { off := 0x10, lsb := 0, width := 5, acc := .ro, reset := 0 }

/-- GLB_CAPACITY.HASH [8:5] RO, reset 0. -/
def GLB_CAPACITY_HASH : Fld := { off := 0x10, lsb := 5, width := 4, acc := .ro, reset := 0 }

/-- GLB_CAPACITY.BIGNUM [11:9] RO, reset 0. -/
def GLB_CAPACITY_BIGNUM : Fld := { off := 0x10, lsb := 9, width := 3, acc := .ro, reset := 0 }

/-- GLB_CAPACITY.CODE [13:12] RO, reset 0. -/
def GLB_CAPACITY_CODE : Fld := { off := 0x10, lsb := 12, width := 2, acc := .ro, reset := 0 }

/-- GLB_CAPACITY.SYM [17:14] RO, reset 0. -/
def GLB_CAPACITY_SYM : Fld := { off := 0x10, lsb := 14, width := 4, acc := .ro, reset := 0 }

/-- GLB_CAPACITY.ENTROPY [20:18] RO, reset 0. -/
def GLB_CAPACITY_ENTROPY : Fld := { off := 0x10, lsb := 18, width := 3, acc := .ro, reset := 0 }

/-- GLB_CAPACITY.CORES [23:21] RO, reset 0. -/
def GLB_CAPACITY_CORES : Fld := { off := 0x10, lsb := 21, width := 3, acc := .ro, reset := 0 }

/-- GLB_CAPACITY.LAT_SPARE [24] RO, reset 0. -/
def GLB_CAPACITY_LAT_SPARE : Fld := { off := 0x10, lsb := 24, width := 1, acc := .ro, reset := 0 }

/-- GLB_CAPACITY_SLOTS.SLOTS [12:0] RO, reset 0. -/
def GLB_CAPACITY_SLOTS_SLOTS : Fld := { off := 0x14, lsb := 0, width := 13, acc := .ro, reset := 0 }

/-- GLB_CAPACITY_SLOTS.SPARES [24:16] RO, reset 0. -/
def GLB_CAPACITY_SLOTS_SPARES : Fld := { off := 0x14, lsb := 16, width := 9, acc := .ro, reset := 0 }

/-- GLB_GUARD_EVT.GUARD_FAIL [0] SQ, reset 0. -/
def GLB_GUARD_EVT_GUARD_FAIL : Fld := { off := 0x18, lsb := 0, width := 1, acc := .sq, reset := 0 }

/-- GLB_GUARD_EVT.SEQ [31:16] SQ, reset 0x0000. -/
def GLB_GUARD_EVT_SEQ : Fld := { off := 0x18, lsb := 16, width := 16, acc := .sq, reset := 0 }

/-- GLB_GUARD_INFO.OFFSET [21:2] RO, reset 0. -/
def GLB_GUARD_INFO_OFFSET : Fld := { off := 0x1C, lsb := 2, width := 20, acc := .ro, reset := 0 }

/-- GLB_GUARD_INFO.CLASS [25:22] RO, reset 0x0. -/
def GLB_GUARD_INFO_CLASS : Fld := { off := 0x1C, lsb := 22, width := 4, acc := .ro, reset := 0 }

/-- GLB_GUARD_INFO.CAUSE [28:26] RO, reset 0b000. -/
def GLB_GUARD_INFO_CAUSE : Fld := { off := 0x1C, lsb := 26, width := 3, acc := .ro, reset := 0 }

/-- GLB_GUARD_COUNT.COUNT [15:0] RO, reset 0x0000. -/
def GLB_GUARD_COUNT_COUNT : Fld := { off := 0x20, lsb := 0, width := 16, acc := .ro, reset := 0 }

/-- GLB_SERIAL.SERIAL [63:0] WM, reset From OTP. -/
def GLB_SERIAL_SERIAL : Fld := { off := 0x40, lsb := 0, width := 64, acc := .wm, reset := 0 }

/-- GLB_BUILD_ID.BUILD_ID [63:0] WM, reset 0. -/
def GLB_BUILD_ID_BUILD_ID : Fld := { off := 0x48, lsb := 0, width := 64, acc := .wm, reset := 0 }

/-- GLB_WIDE_SEL.OFFSET [21:2] RW, reset 0. -/
def GLB_WIDE_SEL_OFFSET : Fld := { off := 0x100, lsb := 2, width := 20, acc := .rw, reset := 0 }

/-- GLB_WIDE_VALID.VALID [0] RO, reset 0. -/
def GLB_WIDE_VALID_VALID : Fld := { off := 0x104, lsb := 0, width := 1, acc := .ro, reset := 0 }

/-- GLB_WIDE_VALID.ERR [1] RO, reset 0. -/
def GLB_WIDE_VALID_ERR : Fld := { off := 0x104, lsb := 1, width := 1, acc := .ro, reset := 0 }

/-- GLB_WIDE_VALID.OFFSET [21:2] RO, reset 0. -/
def GLB_WIDE_VALID_OFFSET : Fld := { off := 0x104, lsb := 2, width := 20, acc := .ro, reset := 0 }

/-- GLB_WIDE_DATA.DATA [31:0] RO, reset 0x0000_0000. -/
def GLB_WIDE_DATA_DATA : Fld := { off := 0x110, lsb := 0, width := 32, acc := .ro, reset := 0, stride := 4 }

/-! Chapter 06. -/

/-- PE_LINK.SPEED [2:0] RO, reset 0b000. -/
def PE_LINK_SPEED : Fld := { off := 0x100000, lsb := 0, width := 3, acc := .ro, reset := 0 }

/-- PE_LINK.WIDTH [5:3] RO, reset 0b000. -/
def PE_LINK_WIDTH : Fld := { off := 0x100000, lsb := 3, width := 3, acc := .ro, reset := 0 }

/-- PE_LINK.DL_UP [6] RO, reset 0. -/
def PE_LINK_DL_UP : Fld := { off := 0x100000, lsb := 6, width := 1, acc := .ro, reset := 0 }

/-- PE_LINK.L1 [7] RO, reset 0. -/
def PE_LINK_L1 : Fld := { off := 0x100000, lsb := 7, width := 1, acc := .ro, reset := 0 }

/-- PE_LINK.LANE_REV [8] RO, reset 0. -/
def PE_LINK_LANE_REV : Fld := { off := 0x100000, lsb := 8, width := 1, acc := .ro, reset := 0 }

/-- PE_LINK.VF_ENABLED [23:16] RO, reset 0x00. -/
def PE_LINK_VF_ENABLED : Fld := { off := 0x100000, lsb := 16, width := 8, acc := .ro, reset := 0 }

/-- PE_LINK.VF_ACTIVE [31:24] RO, reset 0x00. -/
def PE_LINK_VF_ACTIVE : Fld := { off := 0x100000, lsb := 24, width := 8, acc := .ro, reset := 0 }

/-- PE_EVT.LINK_DOWN [0] SQ, reset 0. -/
def PE_EVT_LINK_DOWN : Fld := { off := 0x100004, lsb := 0, width := 1, acc := .sq, reset := 0 }

/-- PE_EVT.LINK_UP [1] SQ, reset 0. -/
def PE_EVT_LINK_UP : Fld := { off := 0x100004, lsb := 1, width := 1, acc := .sq, reset := 0 }

/-- PE_EVT.PERST [2] SQ, reset 0. -/
def PE_EVT_PERST : Fld := { off := 0x100004, lsb := 2, width := 1, acc := .sq, reset := 0 }

/-- PE_EVT.FLR_PF [3] SQ, reset 0. -/
def PE_EVT_FLR_PF : Fld := { off := 0x100004, lsb := 3, width := 1, acc := .sq, reset := 0 }

/-- PE_EVT.FLR_VF [4] SQ, reset 0. -/
def PE_EVT_FLR_VF : Fld := { off := 0x100004, lsb := 4, width := 1, acc := .sq, reset := 0 }

/-- PE_EVT.VF_ENABLE [5] SQ, reset 0. -/
def PE_EVT_VF_ENABLE : Fld := { off := 0x100004, lsb := 5, width := 1, acc := .sq, reset := 0 }

/-- PE_EVT.AER_CORR [6] SQ, reset 0. -/
def PE_EVT_AER_CORR : Fld := { off := 0x100004, lsb := 6, width := 1, acc := .sq, reset := 0 }

/-- PE_EVT.AER_UNCORR [7] SQ, reset 0. -/
def PE_EVT_AER_UNCORR : Fld := { off := 0x100004, lsb := 7, width := 1, acc := .sq, reset := 0 }

/-- PE_EVT.MIG_OVERFLOW [8] SQ, reset 0. -/
def PE_EVT_MIG_OVERFLOW : Fld := { off := 0x100004, lsb := 8, width := 1, acc := .sq, reset := 0 }

/-- PE_EVT.DOORBELL_DROP [9] SQ, reset 0. -/
def PE_EVT_DOORBELL_DROP : Fld := { off := 0x100004, lsb := 9, width := 1, acc := .sq, reset := 0 }

/-- PE_EVT.SPEED_CHANGE [10] SQ, reset 0. -/
def PE_EVT_SPEED_CHANGE : Fld := { off := 0x100004, lsb := 10, width := 1, acc := .sq, reset := 0 }

/-- PE_EVT.SEQ [31:16] SQ, reset 0x0000. -/
def PE_EVT_SEQ : Fld := { off := 0x100004, lsb := 16, width := 16, acc := .sq, reset := 0 }

/-- PE_POOL.QP_FREE [10:0] RO, reset 0x3F8. -/
def PE_POOL_QP_FREE : Fld := { off := 0x100008, lsb := 0, width := 11, acc := .ro, reset := 1016 }

/-- PE_POOL.VEC_FREE [28:16] RO, reset 0x1000. -/
def PE_POOL_VEC_FREE : Fld := { off := 0x100008, lsb := 16, width := 13, acc := .ro, reset := 4096 }

/-- PE_POOL_SLOTS.UNRESERVED [12:0] RO, reset 0. -/
def PE_POOL_SLOTS_UNRESERVED : Fld := { off := 0x10000C, lsb := 0, width := 13, acc := .ro, reset := 0 }

/-- PE_POOL_OBJ.UNRESERVED [16:0] RO, reset 0. -/
def PE_POOL_OBJ_UNRESERVED : Fld := { off := 0x100010, lsb := 0, width := 17, acc := .ro, reset := 0 }

/-- PE_MIG_HEAD.HEAD [20:0] RW, reset 0. -/
def PE_MIG_HEAD_HEAD : Fld := { off := 0x100400, lsb := 0, width := 21, acc := .rw, reset := 0, stride := 4 }

/-- PE_EVMAP.VECTOR [5:0] RW, reset 0. -/
def PE_EVMAP_VECTOR : Fld := { off := 0x101000, lsb := 0, width := 6, acc := .rw, reset := 0, stride := 4 }

/-- PE_EVMAP.ENABLE [6] RW, reset 0. -/
def PE_EVMAP_ENABLE : Fld := { off := 0x101000, lsb := 6, width := 1, acc := .rw, reset := 0, stride := 4 }

/-- VFS_ID.VF [7:0] RO, reset VF number. -/
def VFS_ID_VF : Fld := { off := 0x200000, lsb := 0, width := 8, acc := .ro, reset := 0 }

/-- VFS_ID.PORT [8] RO, reset Port. -/
def VFS_ID_PORT : Fld := { off := 0x200000, lsb := 8, width := 1, acc := .ro, reset := 0 }

/-- VFS_STATE.STATE [1:0] RO, reset 0b00. -/
def VFS_STATE_STATE : Fld := { off := 0x200004, lsb := 0, width := 2, acc := .ro, reset := 0 }

/-- VFS_STATE.SUSPENDED [2] RO, reset 0. -/
def VFS_STATE_SUSPENDED : Fld := { off := 0x200004, lsb := 2, width := 1, acc := .ro, reset := 0 }

/-- VFS_STATE.MIG_ON [3] RO, reset 0. -/
def VFS_STATE_MIG_ON : Fld := { off := 0x200004, lsb := 3, width := 1, acc := .ro, reset := 0 }

/-- VFS_STATE.MIG_OVERFLOW [4] RO, reset 0. -/
def VFS_STATE_MIG_OVERFLOW : Fld := { off := 0x200004, lsb := 4, width := 1, acc := .ro, reset := 0 }

/-- VFS_OWNER.OWNER [9:0] RO, reset 0. -/
def VFS_OWNER_OWNER : Fld := { off := 0x200008, lsb := 0, width := 10, acc := .ro, reset := 0 }

/-- VFS_RES.QP_COUNT [4:0] RO, reset 0. -/
def VFS_RES_QP_COUNT : Fld := { off := 0x20000C, lsb := 0, width := 5, acc := .ro, reset := 0 }

/-- VFS_RES.VEC_COUNT [10:5] RO, reset 0. -/
def VFS_RES_VEC_COUNT : Fld := { off := 0x20000C, lsb := 5, width := 6, acc := .ro, reset := 0 }

/-- VFS_RES.WEIGHT [18:11] RO, reset 0. -/
def VFS_RES_WEIGHT : Fld := { off := 0x20000C, lsb := 11, width := 8, acc := .ro, reset := 0 }

/-- VFS_SLOTS.USED [12:0] RO, reset 0. -/
def VFS_SLOTS_USED : Fld := { off := 0x200010, lsb := 0, width := 13, acc := .ro, reset := 0 }

/-- VFS_SLOTS.LIMIT [28:16] RO, reset 0. -/
def VFS_SLOTS_LIMIT : Fld := { off := 0x200010, lsb := 16, width := 13, acc := .ro, reset := 0 }

/-- VFS_OBJECTS.USED [26:0] RO, reset 0. -/
def VFS_OBJECTS_USED : Fld := { off := 0x200014, lsb := 0, width := 27, acc := .ro, reset := 0 }

/-- VFS_OBJ_LIMIT.LIMIT [16:0] RO, reset 0. -/
def VFS_OBJ_LIMIT_LIMIT : Fld := { off := 0x200018, lsb := 0, width := 17, acc := .ro, reset := 0 }

/-! Chapter 07. -/

/-- QZ_SQ_ADDR_LO.ADDR [31:12] RWL, reset 0. -/
def QZ_SQ_ADDR_LO_ADDR : Fld := { off := 0x0, lsb := 12, width := 20, acc := .rwl, reset := 0 }

/-- QZ_SQ_ADDR_HI.ADDR [31:0] RWL, reset 0. -/
def QZ_SQ_ADDR_HI_ADDR : Fld := { off := 0x4, lsb := 0, width := 32, acc := .rwl, reset := 0 }

/-- QZ_CFG.SQ_LOG2 [3:0] RWL, reset 0. -/
def QZ_CFG_SQ_LOG2 : Fld := { off := 0x10, lsb := 0, width := 4, acc := .rwl, reset := 0 }

/-- QZ_CFG.CQ_LOG2 [7:4] RWL, reset 0. -/
def QZ_CFG_CQ_LOG2 : Fld := { off := 0x10, lsb := 4, width := 4, acc := .rwl, reset := 0 }

/-- QZ_CFG.VECTOR [13:8] RWL, reset 0. -/
def QZ_CFG_VECTOR : Fld := { off := 0x10, lsb := 8, width := 6, acc := .rwl, reset := 0 }

/-- QZ_CFG.COAL_COUNT [21:14] RWL, reset 0x01. -/
def QZ_CFG_COAL_COUNT : Fld := { off := 0x10, lsb := 14, width := 8, acc := .rwl, reset := 1 }

/-- QZ_CFG.COAL_TIME [31:22] RWL, reset 0. -/
def QZ_CFG_COAL_TIME : Fld := { off := 0x10, lsb := 22, width := 10, acc := .rwl, reset := 0 }

/-- QZ_CTRL.ENABLE [0] RW, reset 0. -/
def QZ_CTRL_ENABLE : Fld := { off := 0x14, lsb := 0, width := 1, acc := .rw, reset := 0 }

/-- QZ_STATUS.READY [0] RO, reset 0. -/
def QZ_STATUS_READY : Fld := { off := 0x18, lsb := 0, width := 1, acc := .ro, reset := 0 }

/-- QZ_STATUS.CFG_ERR [3:1] RO, reset 0b000. -/
def QZ_STATUS_CFG_ERR : Fld := { off := 0x18, lsb := 1, width := 3, acc := .ro, reset := 0 }

/-- QZ_EVT.QERR [0] SQ, reset 0. -/
def QZ_EVT_QERR : Fld := { off := 0x180, lsb := 0, width := 1, acc := .sq, reset := 0 }

/-- QZ_EVT.DB_DISABLED [1] SQ, reset 0. -/
def QZ_EVT_DB_DISABLED : Fld := { off := 0x180, lsb := 1, width := 1, acc := .sq, reset := 0 }

/-- QZ_EVT.SEQ [31:16] SQ, reset 0x0000. -/
def QZ_EVT_SEQ : Fld := { off := 0x180, lsb := 16, width := 16, acc := .sq, reset := 0 }

/-- QZ_QERR.QERR [15:0] RO, reset 0x0000. -/
def QZ_QERR_QERR : Fld := { off := 0x184, lsb := 0, width := 16, acc := .ro, reset := 0 }

/-- DSP_STATUS.CTX_USED [11:0] RO, reset 0. -/
def DSP_STATUS_CTX_USED : Fld := { off := 0xC0000, lsb := 0, width := 12, acc := .ro, reset := 0 }

/-- DSP_STATUS.INFLIGHT [23:12] RO, reset 0. -/
def DSP_STATUS_INFLIGHT : Fld := { off := 0xC0000, lsb := 12, width := 12, acc := .ro, reset := 0 }

/-- DSP_STATUS.CQ_EN [25:24] RO, reset 0b00. -/
def DSP_STATUS_CQ_EN : Fld := { off := 0xC0000, lsb := 24, width := 2, acc := .ro, reset := 0 }

/-- DSP_EVT.CTX_FULL [0] SQ, reset 0. -/
def DSP_EVT_CTX_FULL : Fld := { off := 0xC0004, lsb := 0, width := 1, acc := .sq, reset := 0 }

/-- DSP_EVT.CQ_WAIT [1] SQ, reset 0. -/
def DSP_EVT_CQ_WAIT : Fld := { off := 0xC0004, lsb := 1, width := 1, acc := .sq, reset := 0 }

/-- DSP_EVT.HANDOVER_LOST [2] SQ, reset 0. -/
def DSP_EVT_HANDOVER_LOST : Fld := { off := 0xC0004, lsb := 2, width := 1, acc := .sq, reset := 0 }

/-- DSP_EVT.BAD_RETURN [3] SQ, reset 0. -/
def DSP_EVT_BAD_RETURN : Fld := { off := 0xC0004, lsb := 3, width := 1, acc := .sq, reset := 0 }

/-- DSP_EVT.SEQ [31:16] SQ, reset 0x0000. -/
def DSP_EVT_SEQ : Fld := { off := 0xC0004, lsb := 16, width := 16, acc := .sq, reset := 0 }

/-- DSP_CMDS.COUNT [63:0] WM, reset 0. -/
def DSP_CMDS_COUNT : Fld := { off := 0xC0008, lsb := 0, width := 64, acc := .wm, reset := 0 }

/-- DSP_WAIT.WAITING [15:0] RO, reset 0x0000. -/
def DSP_WAIT_WAITING : Fld := { off := 0xC0020, lsb := 0, width := 16, acc := .ro, reset := 0, stride := 4 }

/-- DSP_CQ_HBASE.ADDR [31:7] RWL, reset 0. -/
def DSP_CQ_HBASE_ADDR : Fld := { off := 0xC0100, lsb := 7, width := 25, acc := .rwl, reset := 0, stride := 32 }

/-- DSP_CQ_RBASE.ADDR [31:5] RWL, reset 0. -/
def DSP_CQ_RBASE_ADDR : Fld := { off := 0xC0104, lsb := 5, width := 27, acc := .rwl, reset := 0, stride := 32 }

/-- DSP_CQ_CFG.LOG2 [3:0] RWL, reset 0. -/
def DSP_CQ_CFG_LOG2 : Fld := { off := 0xC0108, lsb := 0, width := 4, acc := .rwl, reset := 0, stride := 32 }

/-- DSP_CQ_CFG.CFG_ERR [6:4] RO, reset 0b000. -/
def DSP_CQ_CFG_CFG_ERR : Fld := { off := 0xC0108, lsb := 4, width := 3, acc := .ro, reset := 0, stride := 32 }

/-- DSP_CQ_CFG.ENABLE [31] RW, reset 0. -/
def DSP_CQ_CFG_ENABLE : Fld := { off := 0xC0108, lsb := 31, width := 1, acc := .rw, reset := 0, stride := 32 }

/-- DSP_CQ_HTAIL.TAIL [9:0] RO, reset 0. -/
def DSP_CQ_HTAIL_TAIL : Fld := { off := 0xC010C, lsb := 0, width := 10, acc := .ro, reset := 0, stride := 32 }

/-- DSP_CQ_HHEAD.HEAD [9:0] RW, reset 0. -/
def DSP_CQ_HHEAD_HEAD : Fld := { off := 0xC0110, lsb := 0, width := 10, acc := .rw, reset := 0, stride := 32 }

/-- DSP_CQ_RTAIL.TAIL [9:0] RW, reset 0. -/
def DSP_CQ_RTAIL_TAIL : Fld := { off := 0xC0114, lsb := 0, width := 10, acc := .rw, reset := 0, stride := 32 }

/-- DSP_CQ_RHEAD.HEAD [9:0] RO, reset 0. -/
def DSP_CQ_RHEAD_HEAD : Fld := { off := 0xC0118, lsb := 0, width := 10, acc := .ro, reset := 0, stride := 32 }

/-- QZ_CQ_ADDR_LO.ADDR [31:12] RWL, reset 0. -/
def QZ_CQ_ADDR_LO_ADDR : Fld := { off := 0x8, lsb := 12, width := 20, acc := .rwl, reset := 0 }

/-- QZ_CQ_ADDR_HI.ADDR [31:0] RWL, reset 0. -/
def QZ_CQ_ADDR_HI_ADDR : Fld := { off := 0xC, lsb := 0, width := 32, acc := .rwl, reset := 0 }

/-! Chapter 08. -/

/-- CCS_PAIR.STATE [2:0] RO, reset 0b000. -/
def CCS_PAIR_STATE : Fld := { off := 0x140000, lsb := 0, width := 3, acc := .ro, reset := 0, stride := 4 }

/-- CCS_PAIR.WORLD [3] RO, reset 0 for CP0 and CP1, 1 for CP2 and CP3. -/
def CCS_PAIR_WORLD : Fld := { off := 0x140000, lsb := 3, width := 1, acc := .ro, reset := 0, stride := 4, resets := [0, 0, 1, 1] }

/-- CCS_PAIR.LEVEL [5:4] RO, reset 0b00. -/
def CCS_PAIR_LEVEL : Fld := { off := 0x140000, lsb := 4, width := 2, acc := .ro, reset := 0, stride := 4 }

/-- CCS_PAIR.SELFTEST_OK [6] RO, reset 0. -/
def CCS_PAIR_SELFTEST_OK : Fld := { off := 0x140000, lsb := 6, width := 1, acc := .ro, reset := 0, stride := 4 }

/-- CCS_PAIR.LOCKSTEP [7] RO, reset 0. -/
def CCS_PAIR_LOCKSTEP : Fld := { off := 0x140000, lsb := 7, width := 1, acc := .ro, reset := 0, stride := 4 }

/-- CCS_NSTART.START [3:2] RW, reset 0b00. -/
def CCS_NSTART_START : Fld := { off := 0x140010, lsb := 2, width := 2, acc := .rw, reset := 0 }

/-- CCS_NRESET.PAIR [3:2] GW, reset 0b00. -/
def CCS_NRESET_PAIR : Fld := { off := 0x140018, lsb := 2, width := 2, acc := .gw, reset := 0 }

/-- CCS_EVT.FENCED [3:0] SQ, reset 0. -/
def CCS_EVT_FENCED : Fld := { off := 0x140020, lsb := 0, width := 4, acc := .sq, reset := 0 }

/-- CCS_EVT.SELFTEST_FAIL [7:4] SQ, reset 0. -/
def CCS_EVT_SELFTEST_FAIL : Fld := { off := 0x140020, lsb := 4, width := 4, acc := .sq, reset := 0 }

/-- CCS_EVT.NRESET_DONE [11:8] SQ, reset 0. -/
def CCS_EVT_NRESET_DONE : Fld := { off := 0x140020, lsb := 8, width := 4, acc := .sq, reset := 0 }

/-- CCS_EVT.SEQ [31:16] SQ, reset 0x0000. -/
def CCS_EVT_SEQ : Fld := { off := 0x140020, lsb := 16, width := 16, acc := .sq, reset := 0 }

/-- CCS_LS_INFO.PAIR [1:0] RO, reset 0b00. -/
def CCS_LS_INFO_PAIR : Fld := { off := 0x140024, lsb := 0, width := 2, acc := .ro, reset := 0 }

/-- CCS_LS_INFO.KIND [4:2] RO, reset 0b000. -/
def CCS_LS_INFO_KIND : Fld := { off := 0x140024, lsb := 2, width := 3, acc := .ro, reset := 0 }

/-- CCS_LS_INFO.LEVEL [6:5] RO, reset 0b00. -/
def CCS_LS_INFO_LEVEL : Fld := { off := 0x140024, lsb := 5, width := 2, acc := .ro, reset := 0 }

/-- CCS_LS_INFO.COUNT [23:16] RO, reset 0x00. -/
def CCS_LS_INFO_COUNT : Fld := { off := 0x140024, lsb := 16, width := 8, acc := .ro, reset := 0 }

/-- CCS_LS_PC.PC [63:0] WM, reset 0. -/
def CCS_LS_PC_PC : Fld := { off := 0x140028, lsb := 0, width := 64, acc := .wm, reset := 0 }

/-! Chapter 09. -/

/-- WLD_SRAM_WM.WM [7:0] RO, reset 0x80. -/
def WLD_SRAM_WM_WM : Fld := { off := 0x90000, lsb := 0, width := 8, acc := .ro, reset := 128 }

/-- WLD_DDR_WM.WM [8:0] RO, reset 0x100. -/
def WLD_DDR_WM_WM : Fld := { off := 0x90004, lsb := 0, width := 9, acc := .ro, reset := 256 }

/-- WLD_SCODE.BASE [10:0] RO, reset 0. -/
def WLD_SCODE_BASE : Fld := { off := 0x90008, lsb := 0, width := 11, acc := .ro, reset := 0 }

/-- WLD_SCODE.LAST [26:16] RO, reset 0. -/
def WLD_SCODE_LAST : Fld := { off := 0x90008, lsb := 16, width := 11, acc := .ro, reset := 0 }

/-- WLD_SCODE.EN [31] RO, reset 0. -/
def WLD_SCODE_EN : Fld := { off := 0x90008, lsb := 31, width := 1, acc := .ro, reset := 0 }

/-- WLD_NCODE.BASE [10:0] RO, reset 0. -/
def WLD_NCODE_BASE : Fld := { off := 0x9000C, lsb := 0, width := 11, acc := .ro, reset := 0 }

/-- WLD_NCODE.LAST [26:16] RO, reset 0. -/
def WLD_NCODE_LAST : Fld := { off := 0x9000C, lsb := 16, width := 11, acc := .ro, reset := 0 }

/-- WLD_NCODE.EN [31] RO, reset 0. -/
def WLD_NCODE_EN : Fld := { off := 0x9000C, lsb := 31, width := 1, acc := .ro, reset := 0 }

/-- WLD_DBG.SET [3:0] RO, reset 0x0. -/
def WLD_DBG_SET : Fld := { off := 0x90010, lsb := 0, width := 4, acc := .ro, reset := 0 }

/-- WLD_DBG.EFF [7:4] RO, reset 0x0. -/
def WLD_DBG_EFF : Fld := { off := 0x90010, lsb := 4, width := 4, acc := .ro, reset := 0 }

/-- WLD_DBG.LC_ALLOW [8] RO, reset 0. -/
def WLD_DBG_LC_ALLOW : Fld := { off := 0x90010, lsb := 8, width := 1, acc := .ro, reset := 0 }

/-- WLD_GPIO_IN.GPIO [15:0] RO (IN), RW (OUT, OE), reset 0x0000. -/
def WLD_GPIO_IN_GPIO : Fld := { off := 0x90020, lsb := 0, width := 16, acc := .ro, reset := 0 }

/-- WLD_GPIO_OUT.GPIO [15:0] RO (IN), RW (OUT, OE), reset 0x0000. -/
def WLD_GPIO_OUT_GPIO : Fld := { off := 0x90024, lsb := 0, width := 16, acc := .rw, reset := 0 }

/-- WLD_GPIO_OE.GPIO [15:0] RO (IN), RW (OUT, OE), reset 0x0000. -/
def WLD_GPIO_OE_GPIO : Fld := { off := 0x90028, lsb := 0, width := 16, acc := .rw, reset := 0 }

/-- WLD_NW_QUOTA.SLOT_LIMIT [12:0] RW, reset 0. -/
def WLD_NW_QUOTA_SLOT_LIMIT : Fld := { off := 0x90030, lsb := 0, width := 13, acc := .rw, reset := 0 }

/-- WLD_NW_QUOTA.OBJ_LIMIT [29:13] RW, reset 0. -/
def WLD_NW_QUOTA_OBJ_LIMIT : Fld := { off := 0x90030, lsb := 13, width := 17, acc := .rw, reset := 0 }

/-- WLD_NQ_BIND.OWNER [9:0] RW, reset 0. -/
def WLD_NQ_BIND_OWNER : Fld := { off := 0x90400, lsb := 0, width := 10, acc := .rw, reset := 0, stride := 4 }

/-- WLD_NQ_BIND.WEIGHT [17:10] RW, reset 0. -/
def WLD_NQ_BIND_WEIGHT : Fld := { off := 0x90400, lsb := 10, width := 8, acc := .rw, reset := 0, stride := 4 }

/-- WLD_NQ_BIND.POOL_QP [27:18] RW, reset 0. -/
def WLD_NQ_BIND_POOL_QP : Fld := { off := 0x90400, lsb := 18, width := 10, acc := .rw, reset := 0, stride := 4 }

/-- WLD_NQ_BIND.BOUND [28] RW, reset 0. -/
def WLD_NQ_BIND_BOUND : Fld := { off := 0x90400, lsb := 28, width := 1, acc := .rw, reset := 0, stride := 4 }

/-- WLD_NQ_BIND.RESULT [31:29] RO, reset 0b000. -/
def WLD_NQ_BIND_RESULT : Fld := { off := 0x90400, lsb := 29, width := 3, acc := .ro, reset := 0, stride := 4 }

/-- WLD_NQ_QERR0.QERR [31:0] RO, reset 0x0000_0000. -/
def WLD_NQ_QERR0_QERR : Fld := { off := 0x91804, lsb := 0, width := 32, acc := .ro, reset := 0 }

/-- WLD_NQ_QERR1.QERR [31:0] RO, reset 0x0000_0000. -/
def WLD_NQ_QERR1_QERR : Fld := { off := 0x91808, lsb := 0, width := 32, acc := .ro, reset := 0 }

/-- MBX_DATA.DATA [31:0] RW, reset 0x0000_0000. -/
def MBX_DATA_DATA : Fld := { off := 0xA0000, lsb := 0, width := 32, acc := .rw, reset := 0, stride := 4 }

/-- MBX_HDR0.LEN [6:0] RO, reset 0. -/
def MBX_HDR0_LEN : Fld := { off := 0xA0040, lsb := 0, width := 7, acc := .ro, reset := 0 }

/-- MBX_HDR0.TAG [15:8] RO, reset 0x00. -/
def MBX_HDR0_TAG : Fld := { off := 0xA0040, lsb := 8, width := 8, acc := .ro, reset := 0 }

/-- MBX_HDR0.MSEQ [31:16] RO, reset 0x0000. -/
def MBX_HDR0_MSEQ : Fld := { off := 0xA0040, lsb := 16, width := 16, acc := .ro, reset := 0 }

/-- MBX_HDR1.CLASS [3:0] RO, reset 0x0. -/
def MBX_HDR1_CLASS : Fld := { off := 0xA0044, lsb := 0, width := 4, acc := .ro, reset := 0 }

/-- MBX_HDR1.LEVEL [5:4] RO, reset 0b11. -/
def MBX_HDR1_LEVEL : Fld := { off := 0xA0044, lsb := 4, width := 2, acc := .ro, reset := 3 }

/-- MBX_HDR1.WORLD [6] RO, reset 0. -/
def MBX_HDR1_WORLD : Fld := { off := 0xA0044, lsb := 6, width := 1, acc := .ro, reset := 0 }

/-- MBX_HDR1.COLLISION [16] RO, reset 0. -/
def MBX_HDR1_COLLISION : Fld := { off := 0xA0044, lsb := 16, width := 1, acc := .ro, reset := 0 }

/-- MBX_HDR1.MIXED [17] RO, reset 0. -/
def MBX_HDR1_MIXED : Fld := { off := 0xA0044, lsb := 17, width := 1, acc := .ro, reset := 0 }

/-- MBX_HDR1.FULL [31] RO, reset 0. -/
def MBX_HDR1_FULL : Fld := { off := 0xA0044, lsb := 31, width := 1, acc := .ro, reset := 0 }

/-- MBX_SEND.LEN [6:0] WO, reset 0. -/
def MBX_SEND_LEN : Fld := { off := 0xA0048, lsb := 0, width := 7, acc := .wo, reset := 0 }

/-- MBX_SEND.TAG [15:8] WO, reset 0. -/
def MBX_SEND_TAG : Fld := { off := 0xA0048, lsb := 8, width := 8, acc := .wo, reset := 0 }

/-- MBX_ACK.MSEQ [31:16] WO, reset 0. -/
def MBX_ACK_MSEQ : Fld := { off := 0xA004C, lsb := 16, width := 16, acc := .wo, reset := 0 }

/-- MBX_RXEVT.RECEIVED [0] SQ, reset 0. -/
def MBX_RXEVT_RECEIVED : Fld := { off := 0xA0050, lsb := 0, width := 1, acc := .sq, reset := 0 }

/-- MBX_RXEVT.COLLISION [1] SQ, reset 0. -/
def MBX_RXEVT_COLLISION : Fld := { off := 0xA0050, lsb := 1, width := 1, acc := .sq, reset := 0 }

/-- MBX_RXEVT.SEQ [31:16] SQ, reset 0x0000. -/
def MBX_RXEVT_SEQ : Fld := { off := 0xA0050, lsb := 16, width := 16, acc := .sq, reset := 0 }

/-- MBX_TXEVT.EMPTIED [0] SQ, reset 0. -/
def MBX_TXEVT_EMPTIED : Fld := { off := 0xA0054, lsb := 0, width := 1, acc := .sq, reset := 0 }

/-- MBX_TXEVT.SEQ [31:16] SQ, reset 0x0000. -/
def MBX_TXEVT_SEQ : Fld := { off := 0xA0054, lsb := 16, width := 16, acc := .sq, reset := 0 }

/-- MBX_WAKE.WAKE [27:0] WO, reset 0. -/
def MBX_WAKE_WAKE : Fld := { off := 0xA1000, lsb := 0, width := 28, acc := .wo, reset := 0 }

/-- MBX_FULL.FULL [31:0] RO, reset 0x0000_0000. -/
def MBX_FULL_FULL : Fld := { off := 0xA1004, lsb := 0, width := 32, acc := .ro, reset := 0 }

/-- WLD_NQ_EVT.QERR [0] SQ, reset 0. -/
def WLD_NQ_EVT_QERR : Fld := { off := 0x91800, lsb := 0, width := 1, acc := .sq, reset := 0 }

/-- WLD_NQ_EVT.DB_DISABLED [1] SQ, reset 0. -/
def WLD_NQ_EVT_DB_DISABLED : Fld := { off := 0x91800, lsb := 1, width := 1, acc := .sq, reset := 0 }

/-- WLD_NQ_EVT.SEQ [31:16] SQ, reset 0x0000. -/
def WLD_NQ_EVT_SEQ : Fld := { off := 0x91800, lsb := 16, width := 16, acc := .sq, reset := 0 }

/-! Chapter 10. -/

/-- ACT_CTRL.UPDATE [0] GW, reset 0. -/
def ACT_CTRL_UPDATE : Fld := { off := 0x80000, lsb := 0, width := 1, acc := .gw, reset := 0 }

/-- ACT_CTRL.LOCK [1] GW, reset 0. -/
def ACT_CTRL_LOCK : Fld := { off := 0x80000, lsb := 1, width := 1, acc := .gw, reset := 0 }

/-- ACT_STATUS.UPDATING [0] RO, reset 0. -/
def ACT_STATUS_UPDATING : Fld := { off := 0x80008, lsb := 0, width := 1, acc := .ro, reset := 0 }

/-- ACT_STATUS.LOCKED [1] RO, reset 0. -/
def ACT_STATUS_LOCKED : Fld := { off := 0x80008, lsb := 1, width := 1, acc := .ro, reset := 0 }

/-- ACT_STATUS.HELD [15:8] RO, reset 0x00. -/
def ACT_STATUS_HELD : Fld := { off := 0x80008, lsb := 8, width := 8, acc := .ro, reset := 0 }

/-- ACT_STATUS.ENABLED [24:16] RO, reset 0. -/
def ACT_STATUS_ENABLED : Fld := { off := 0x80008, lsb := 16, width := 9, acc := .ro, reset := 0 }

/-- ACT_EVT.VIOLATION [0] SQ, reset 0. -/
def ACT_EVT_VIOLATION : Fld := { off := 0x8000C, lsb := 0, width := 1, acc := .sq, reset := 0 }

/-- ACT_EVT.DEBUG_VIOL [1] SQ, reset 0. -/
def ACT_EVT_DEBUG_VIOL : Fld := { off := 0x8000C, lsb := 1, width := 1, acc := .sq, reset := 0 }

/-- ACT_EVT.HOLD_TIMEOUT [2] SQ, reset 0. -/
def ACT_EVT_HOLD_TIMEOUT : Fld := { off := 0x8000C, lsb := 2, width := 1, acc := .sq, reset := 0 }

/-- ACT_EVT.UPDATE_DONE [3] SQ, reset 0. -/
def ACT_EVT_UPDATE_DONE : Fld := { off := 0x8000C, lsb := 3, width := 1, acc := .sq, reset := 0 }

/-- ACT_EVT.SEQ [31:16] SQ, reset 0x0000. -/
def ACT_EVT_SEQ : Fld := { off := 0x8000C, lsb := 16, width := 16, acc := .sq, reset := 0 }

/-- ACT_VIOL_INFO.CLASS [3:0] RO, reset 0x0. -/
def ACT_VIOL_INFO_CLASS : Fld := { off := 0x80010, lsb := 0, width := 4, acc := .ro, reset := 0 }

/-- ACT_VIOL_INFO.WORLD [4] RO, reset 0. -/
def ACT_VIOL_INFO_WORLD : Fld := { off := 0x80010, lsb := 4, width := 1, acc := .ro, reset := 0 }

/-- ACT_VIOL_INFO.KIND [6:5] RO, reset 0b00. -/
def ACT_VIOL_INFO_KIND : Fld := { off := 0x80010, lsb := 5, width := 2, acc := .ro, reset := 0 }

/-- ACT_VIOL_INFO.SOURCE [10:8] RO, reset 0b000. -/
def ACT_VIOL_INFO_SOURCE : Fld := { off := 0x80010, lsb := 8, width := 3, acc := .ro, reset := 0 }

/-- ACT_VIOL_INFO.ENTRY [18:11] RO, reset 0x00. -/
def ACT_VIOL_INFO_ENTRY : Fld := { off := 0x80010, lsb := 11, width := 8, acc := .ro, reset := 0 }

/-- ACT_VIOL_ADDR.ADDR [63:0] WM, reset 0. -/
def ACT_VIOL_ADDR_ADDR : Fld := { off := 0x80018, lsb := 0, width := 64, acc := .wm, reset := 0 }

/-- ACT_VIOL_COUNT.COUNT [15:0] RO, reset 0x0000. -/
def ACT_VIOL_COUNT_COUNT : Fld := { off := 0x80020, lsb := 0, width := 16, acc := .ro, reset := 0 }

/-- ACT_ENT0.BASE_LO [31:12] RW, reset 0. -/
def ACT_ENT0_BASE_LO : Fld := { off := 0x81000, lsb := 12, width := 20, acc := .rw, reset := 0, stride := 32 }

/-- ACT_ENT1.BASE_HI [7:0] RW, reset 0. -/
def ACT_ENT1_BASE_HI : Fld := { off := 0x81004, lsb := 0, width := 8, acc := .rw, reset := 0, stride := 32 }

/-- ACT_ENT2.LIMIT_FIX [11:0] RO, reset 0xFFF. -/
def ACT_ENT2_LIMIT_FIX : Fld := { off := 0x81008, lsb := 0, width := 12, acc := .ro, reset := 4095, stride := 32 }

/-- ACT_ENT2.LIMIT_LO [31:12] RW, reset 0. -/
def ACT_ENT2_LIMIT_LO : Fld := { off := 0x81008, lsb := 12, width := 20, acc := .rw, reset := 0, stride := 32 }

/-- ACT_ENT3.LIMIT_HI [7:0] RW, reset 0. -/
def ACT_ENT3_LIMIT_HI : Fld := { off := 0x8100C, lsb := 0, width := 8, acc := .rw, reset := 0, stride := 32 }

/-- ACT_ENT4.PERM_LO [31:0] RW, reset 0. -/
def ACT_ENT4_PERM_LO : Fld := { off := 0x81010, lsb := 0, width := 32, acc := .rw, reset := 0, stride := 32 }

/-- ACT_ENT5.PERM_HI [31:0] RW, reset 0. -/
def ACT_ENT5_PERM_HI : Fld := { off := 0x81014, lsb := 0, width := 32, acc := .rw, reset := 0, stride := 32 }

/-- ACT_ENT6.ENABLE [0] RW, reset 0. -/
def ACT_ENT6_ENABLE : Fld := { off := 0x81018, lsb := 0, width := 1, acc := .rw, reset := 0, stride := 32 }

/-! Chapter 11. -/

/-- MEM_CFG.PRESENT [0] RO, reset 0. -/
def MEM_CFG_PRESENT : Fld := { off := 0xB0000, lsb := 0, width := 1, acc := .ro, reset := 0 }

/-- MEM_CFG.WIDTH [1] RO, reset 0. -/
def MEM_CFG_WIDTH : Fld := { off := 0xB0000, lsb := 1, width := 1, acc := .ro, reset := 0 }

/-- MEM_CFG.RANKS [2] RO, reset 0. -/
def MEM_CFG_RANKS : Fld := { off := 0xB0000, lsb := 2, width := 1, acc := .ro, reset := 0 }

/-- MEM_CFG.RATE [5:3] RO, reset 0b000. -/
def MEM_CFG_RATE : Fld := { off := 0xB0000, lsb := 3, width := 3, acc := .ro, reset := 0 }

/-- MEM_CFG.CAP_GIB [15:8] RO, reset 0x00. -/
def MEM_CFG_CAP_GIB : Fld := { off := 0xB0000, lsb := 8, width := 8, acc := .ro, reset := 0 }

/-- MEM_STATUS.STATE [2:0] RO, reset 0b000. -/
def MEM_STATUS_STATE : Fld := { off := 0xB0004, lsb := 0, width := 3, acc := .ro, reset := 0 }

/-- MEM_STATUS.CAUSE [5:3] RO, reset 0b000. -/
def MEM_STATUS_CAUSE : Fld := { off := 0xB0004, lsb := 3, width := 3, acc := .ro, reset := 0 }

/-- MEM_FILL.FRONT_MIB [17:0] RO, reset 0. -/
def MEM_FILL_FRONT_MIB : Fld := { off := 0xB0008, lsb := 0, width := 18, acc := .ro, reset := 0 }

/-- MEM_FILL.OOO [30:18] RO, reset 0. -/
def MEM_FILL_OOO : Fld := { off := 0xB0008, lsb := 18, width := 13, acc := .ro, reset := 0 }

/-- MEM_FILL.DONE [31] RO, reset 0. -/
def MEM_FILL_DONE : Fld := { off := 0xB0008, lsb := 31, width := 1, acc := .ro, reset := 0 }

/-- MEM_EVT.CE [0] SQ, reset 0. -/
def MEM_EVT_CE : Fld := { off := 0xB000C, lsb := 0, width := 1, acc := .sq, reset := 0 }

/-- MEM_EVT.UE [1] SQ, reset 0. -/
def MEM_EVT_UE : Fld := { off := 0xB000C, lsb := 1, width := 1, acc := .sq, reset := 0 }

/-- MEM_EVT.RMW_FAIL [2] SQ, reset 0. -/
def MEM_EVT_RMW_FAIL : Fld := { off := 0xB000C, lsb := 2, width := 1, acc := .sq, reset := 0 }

/-- MEM_EVT.TRAIN_FAIL [3] SQ, reset 0. -/
def MEM_EVT_TRAIN_FAIL : Fld := { off := 0xB000C, lsb := 3, width := 1, acc := .sq, reset := 0 }

/-- MEM_EVT.FILL_DONE [4] SQ, reset 0. -/
def MEM_EVT_FILL_DONE : Fld := { off := 0xB000C, lsb := 4, width := 1, acc := .sq, reset := 0 }

/-- MEM_EVT.SCRUB_PASS [5] SQ, reset 0. -/
def MEM_EVT_SCRUB_PASS : Fld := { off := 0xB000C, lsb := 5, width := 1, acc := .sq, reset := 0 }

/-- MEM_EVT.SCRUB_LATE [6] SQ, reset 0. -/
def MEM_EVT_SCRUB_LATE : Fld := { off := 0xB000C, lsb := 6, width := 1, acc := .sq, reset := 0 }

/-- MEM_EVT.ALERT_RETRY [7] SQ, reset 0. -/
def MEM_EVT_ALERT_RETRY : Fld := { off := 0xB000C, lsb := 7, width := 1, acc := .sq, reset := 0 }

/-- MEM_EVT.SEQ [31:16] SQ, reset 0x0000. -/
def MEM_EVT_SEQ : Fld := { off := 0xB000C, lsb := 16, width := 16, acc := .sq, reset := 0 }

/-- MEM_CE_COUNT.COUNT [31:0] RO, reset 0x0000_0000. -/
def MEM_CE_COUNT_COUNT : Fld := { off := 0xB0010, lsb := 0, width := 32, acc := .ro, reset := 0 }

/-- MEM_UE_COUNT.COUNT [31:0] RO, reset 0x0000_0000. -/
def MEM_UE_COUNT_COUNT : Fld := { off := 0xB0014, lsb := 0, width := 32, acc := .ro, reset := 0 }

/-- MEM_ERR_INFO.KIND [1:0] RO, reset 0b00. -/
def MEM_ERR_INFO_KIND : Fld := { off := 0xB0018, lsb := 0, width := 2, acc := .ro, reset := 0 }

/-- MEM_ERR_INFO.SUBCH [2] RO, reset 0. -/
def MEM_ERR_INFO_SUBCH : Fld := { off := 0xB0018, lsb := 2, width := 1, acc := .ro, reset := 0 }

/-- MEM_ERR_INFO.POS [6:3] RO, reset 0x0. -/
def MEM_ERR_INFO_POS : Fld := { off := 0xB0018, lsb := 3, width := 4, acc := .ro, reset := 0 }

/-- MEM_ERR_INFO.SCRUB [7] RO, reset 0. -/
def MEM_ERR_INFO_SCRUB : Fld := { off := 0xB0018, lsb := 7, width := 1, acc := .ro, reset := 0 }

/-- MEM_ERR_ADDR.ADDR [63:0] WM, reset 0. -/
def MEM_ERR_ADDR_ADDR : Fld := { off := 0xB0020, lsb := 0, width := 64, acc := .wm, reset := 0 }

/-- MEM_SCRUB.PROGRESS [9:0] RO, reset 0. -/
def MEM_SCRUB_PROGRESS : Fld := { off := 0xB0028, lsb := 0, width := 10, acc := .ro, reset := 0 }

/-- MEM_SCRUB.PASSES [31:16] RO, reset 0x0000. -/
def MEM_SCRUB_PASSES : Fld := { off := 0xB0028, lsb := 16, width := 16, acc := .ro, reset := 0 }

/-- MEM_OBJ_CAP.CAP [16:0] RO, reset 0. -/
def MEM_OBJ_CAP_CAP : Fld := { off := 0xB2000, lsb := 0, width := 17, acc := .ro, reset := 0 }

/-! Chapter 12. -/

/-- KS_STATUS.USED [12:0] RO, reset 0. -/
def KS_STATUS_USED : Fld := { off := 0x70000, lsb := 0, width := 13, acc := .ro, reset := 0 }

/-- KS_STATUS.DEFECTIVE [21:13] RO, reset 0. -/
def KS_STATUS_DEFECTIVE : Fld := { off := 0x70000, lsb := 13, width := 9, acc := .ro, reset := 0 }

/-- KS_STATUS.MOLT_RUN [22] RO, reset 0. -/
def KS_STATUS_MOLT_RUN : Fld := { off := 0x70000, lsb := 22, width := 1, acc := .ro, reset := 0 }

/-- KS_EVT.SLOT_DEFECT [0] SQ, reset 0. -/
def KS_EVT_SLOT_DEFECT : Fld := { off := 0x70004, lsb := 0, width := 1, acc := .sq, reset := 0 }

/-- KS_EVT.REGROWTH [1] SQ, reset 0. -/
def KS_EVT_REGROWTH : Fld := { off := 0x70004, lsb := 1, width := 1, acc := .sq, reset := 0 }

/-- KS_EVT.SPARES_OUT [2] SQ, reset 0. -/
def KS_EVT_SPARES_OUT : Fld := { off := 0x70004, lsb := 2, width := 1, acc := .sq, reset := 0 }

/-- KS_EVT.MOLT_LATE [3] SQ, reset 0. -/
def KS_EVT_MOLT_LATE : Fld := { off := 0x70004, lsb := 3, width := 1, acc := .sq, reset := 0 }

/-- KS_EVT.OWNER_CHANGE [4] SQ, reset 0. -/
def KS_EVT_OWNER_CHANGE : Fld := { off := 0x70004, lsb := 4, width := 1, acc := .sq, reset := 0 }

/-- KS_EVT.RESTORED [5] SQ, reset 0. -/
def KS_EVT_RESTORED : Fld := { off := 0x70004, lsb := 5, width := 1, acc := .sq, reset := 0 }

/-- KS_EVT.SEQ [31:16] SQ, reset 0x0000. -/
def KS_EVT_SEQ : Fld := { off := 0x70004, lsb := 16, width := 16, acc := .sq, reset := 0 }

/-- KS_MOLT.INTERVAL_MS [9:0] RO, reset 0x00A. -/
def KS_MOLT_INTERVAL_MS : Fld := { off := 0x70008, lsb := 0, width := 10, acc := .ro, reset := 10 }

/-- KS_MOLT.PASSES [31:16] RO, reset 0x0000. -/
def KS_MOLT_PASSES : Fld := { off := 0x70008, lsb := 16, width := 16, acc := .ro, reset := 0 }

/-- KS_DEFECT_INFO.PSLOT [12:0] RO, reset 0. -/
def KS_DEFECT_INFO_PSLOT : Fld := { off := 0x7000C, lsb := 0, width := 13, acc := .ro, reset := 0 }

/-- KS_DEFECT_INFO.SHARE [14:13] RO, reset 0b00. -/
def KS_DEFECT_INFO_SHARE : Fld := { off := 0x7000C, lsb := 13, width := 2, acc := .ro, reset := 0 }

/-- KS_DEFECT_INFO.AT_USE [15] RO, reset 0. -/
def KS_DEFECT_INFO_AT_USE : Fld := { off := 0x7000C, lsb := 15, width := 1, acc := .ro, reset := 0 }

/-- KS_DEFECT_INFO.OWNER [25:16] RO, reset 0. -/
def KS_DEFECT_INFO_OWNER : Fld := { off := 0x7000C, lsb := 16, width := 10, acc := .ro, reset := 0 }

/-- KS_OWNERS.LOADED [10:0] RO, reset 0. -/
def KS_OWNERS_LOADED : Fld := { off := 0x70010, lsb := 0, width := 11, acc := .ro, reset := 0 }

/-- KS_OWNERS.APPROVALS [24:16] RO, reset 0. -/
def KS_OWNERS_APPROVALS : Fld := { off := 0x70010, lsb := 16, width := 9, acc := .ro, reset := 0 }

/-! Chapter 13. -/

/-- ENT_STATUS.READY [0] RO, reset 0. -/
def ENT_STATUS_READY : Fld := { off := 0x60000, lsb := 0, width := 1, acc := .ro, reset := 0 }

/-- ENT_STATUS.FAILED [1] RO, reset 0. -/
def ENT_STATUS_FAILED : Fld := { off := 0x60000, lsb := 1, width := 1, acc := .ro, reset := 0 }

/-- ENT_STATUS.IN_SERVICE [4:2] RO, reset 0b000. -/
def ENT_STATUS_IN_SERVICE : Fld := { off := 0x60000, lsb := 2, width := 3, acc := .ro, reset := 0 }

/-- ENT_STATUS.WAITING [9:5] RO, reset 0. -/
def ENT_STATUS_WAITING : Fld := { off := 0x60000, lsb := 5, width := 5, acc := .ro, reset := 0 }

/-- ENT_EVT.READY [0] SQ, reset 0. -/
def ENT_EVT_READY : Fld := { off := 0x60004, lsb := 0, width := 1, acc := .sq, reset := 0 }

/-- ENT_EVT.ALL_FAILED [1] SQ, reset 0. -/
def ENT_EVT_ALL_FAILED : Fld := { off := 0x60004, lsb := 1, width := 1, acc := .sq, reset := 0 }

/-- ENT_EVT.STARVED [2] SQ, reset 0. -/
def ENT_EVT_STARVED : Fld := { off := 0x60004, lsb := 2, width := 1, acc := .sq, reset := 0 }

/-- ENT_EVT.SEQ [31:16] SQ, reset 0x0000. -/
def ENT_EVT_SEQ : Fld := { off := 0x60004, lsb := 16, width := 16, acc := .sq, reset := 0 }

/-- ENT_FAIL_INFO.QUAD [1:0] RO, reset 0b00. -/
def ENT_FAIL_INFO_QUAD : Fld := { off := 0x60008, lsb := 0, width := 2, acc := .ro, reset := 0 }

/-- ENT_FAIL_INFO.CELL [10:2] RO, reset 0. -/
def ENT_FAIL_INFO_CELL : Fld := { off := 0x60008, lsb := 2, width := 9, acc := .ro, reset := 0 }

/-- ENT_FAIL_INFO.TEST [13:11] RO, reset 0b000. -/
def ENT_FAIL_INFO_TEST : Fld := { off := 0x60008, lsb := 11, width := 3, acc := .ro, reset := 0 }

/-- ENT_FAIL_INFO.STARTUP [14] RO, reset 0. -/
def ENT_FAIL_INFO_STARTUP : Fld := { off := 0x60008, lsb := 14, width := 1, acc := .ro, reset := 0 }

/-- ENT_DRAWN.BYTES [63:0] WM, reset 0. -/
def ENT_DRAWN_BYTES : Fld := { off := 0x60010, lsb := 0, width := 64, acc := .wm, reset := 0 }

/-- ENT_CAP_CTRL.QUAD [1:0] RW, reset 0b00. -/
def ENT_CAP_CTRL_QUAD : Fld := { off := 0x60020, lsb := 0, width := 2, acc := .rw, reset := 0 }

/-- ENT_CAP_CTRL.MODE [3:2] RW, reset 0b00. -/
def ENT_CAP_CTRL_MODE : Fld := { off := 0x60020, lsb := 2, width := 2, acc := .rw, reset := 0 }

/-- ENT_CAP_CTRL.CELL [12:4] RW, reset 0. -/
def ENT_CAP_CTRL_CELL : Fld := { off := 0x60020, lsb := 4, width := 9, acc := .rw, reset := 0 }

/-- ENT_CAP_CTRL.GO [31] WO, reset 0. -/
def ENT_CAP_CTRL_GO : Fld := { off := 0x60020, lsb := 31, width := 1, acc := .wo, reset := 0 }

/-- ENT_CAP_ADDR.ADDR [31:6] RW, reset 0. -/
def ENT_CAP_ADDR_ADDR : Fld := { off := 0x60024, lsb := 6, width := 26, acc := .rw, reset := 0 }

/-- ENT_CAP_LEN.LEN_KIB [10:0] RW, reset 0. -/
def ENT_CAP_LEN_LEN_KIB : Fld := { off := 0x60028, lsb := 0, width := 11, acc := .rw, reset := 0 }

/-- ENT_CAP_STAT.BUSY [0] RO, reset 0. -/
def ENT_CAP_STAT_BUSY : Fld := { off := 0x6002C, lsb := 0, width := 1, acc := .ro, reset := 0 }

/-- ENT_CAP_STAT.RESULT [3:1] RO, reset 0b000. -/
def ENT_CAP_STAT_RESULT : Fld := { off := 0x6002C, lsb := 1, width := 3, acc := .ro, reset := 0 }

/-- ENT_QSTAT.STATE [2:0] RO, reset 0b000. -/
def ENT_QSTAT_STATE : Fld := { off := 0x60100, lsb := 0, width := 3, acc := .ro, reset := 0, stride := 4 }

/-- ENT_QSTAT.QUAR [14:3] RO, reset 0. -/
def ENT_QSTAT_QUAR : Fld := { off := 0x60100, lsb := 3, width := 12, acc := .ro, reset := 0, stride := 4 }

/-- ENT_QEVT.FAIL [0] SQ, reset 0. -/
def ENT_QEVT_FAIL : Fld := { off := 0x60140, lsb := 0, width := 1, acc := .sq, reset := 0, stride := 4 }

/-- ENT_QEVT.JOINED [1] SQ, reset 0. -/
def ENT_QEVT_JOINED : Fld := { off := 0x60140, lsb := 1, width := 1, acc := .sq, reset := 0, stride := 4 }

/-- ENT_QEVT.CAP_DONE [2] SQ, reset 0. -/
def ENT_QEVT_CAP_DONE : Fld := { off := 0x60140, lsb := 2, width := 1, acc := .sq, reset := 0, stride := 4 }

/-- ENT_QEVT.SEQ [31:16] SQ, reset 0x0000. -/
def ENT_QEVT_SEQ : Fld := { off := 0x60140, lsb := 16, width := 16, acc := .sq, reset := 0, stride := 4 }

/-! Chapter 14. -/

/-- LAT_TILE.STATE [2:0] RO, reset 0b000. -/
def LAT_TILE_STATE : Fld := { off := 0xD0000, lsb := 0, width := 3, acc := .ro, reset := 0, stride := 4 }

/-- LAT_TILE.SELECTED [3] RO, reset 0. -/
def LAT_TILE_SELECTED : Fld := { off := 0xD0000, lsb := 3, width := 1, acc := .ro, reset := 0, stride := 4 }

/-- LAT_TILE.LAST_OWNER [13:4] RO, reset 0x3FF. -/
def LAT_TILE_LAST_OWNER : Fld := { off := 0xD0000, lsb := 4, width := 10, acc := .ro, reset := 1023, stride := 4 }

/-- LAT_TILE.CAUSE [19:16] RO, reset 0x0. -/
def LAT_TILE_CAUSE : Fld := { off := 0xD0000, lsb := 16, width := 4, acc := .ro, reset := 0, stride := 4 }

/-- LAT_TILE.NEXT_KEM [21:20] RO, reset 0b00. -/
def LAT_TILE_NEXT_KEM : Fld := { off := 0xD0000, lsb := 20, width := 2, acc := .ro, reset := 0, stride := 4 }

/-- LAT_TILE.NEXT_DSA [23:22] RO, reset 0b00. -/
def LAT_TILE_NEXT_DSA : Fld := { off := 0xD0000, lsb := 22, width := 2, acc := .ro, reset := 0, stride := 4 }

/-- LAT_UEVT.DONE [0] SQ, reset 0. -/
def LAT_UEVT_DONE : Fld := { off := 0xD0080, lsb := 0, width := 1, acc := .sq, reset := 0, stride := 4 }

/-- LAT_UEVT.FAULT [1] SQ, reset 0. -/
def LAT_UEVT_FAULT : Fld := { off := 0xD0080, lsb := 1, width := 1, acc := .sq, reset := 0, stride := 4 }

/-- LAT_UEVT.FENCED [2] SQ, reset 0. -/
def LAT_UEVT_FENCED : Fld := { off := 0xD0080, lsb := 2, width := 1, acc := .sq, reset := 0, stride := 4 }

/-- LAT_UEVT.SEQ [31:16] SQ, reset 0x0000. -/
def LAT_UEVT_SEQ : Fld := { off := 0xD0080, lsb := 16, width := 16, acc := .sq, reset := 0, stride := 4 }

/-- LAT_EVT.ROTATE [0] SQ, reset 0. -/
def LAT_EVT_ROTATE : Fld := { off := 0xD0100, lsb := 0, width := 1, acc := .sq, reset := 0 }

/-- LAT_EVT.REGROWTH [1] SQ, reset 0. -/
def LAT_EVT_REGROWTH : Fld := { off := 0xD0100, lsb := 1, width := 1, acc := .sq, reset := 0 }

/-- LAT_EVT.SPARE_OUT [2] SQ, reset 0. -/
def LAT_EVT_SPARE_OUT : Fld := { off := 0xD0100, lsb := 2, width := 1, acc := .sq, reset := 0 }

/-- LAT_EVT.SAMPLER_EXT [3] SQ, reset 0. -/
def LAT_EVT_SAMPLER_EXT : Fld := { off := 0xD0100, lsb := 3, width := 1, acc := .sq, reset := 0 }

/-- LAT_EVT.RESTART [4] SQ, reset 0. -/
def LAT_EVT_RESTART : Fld := { off := 0xD0100, lsb := 4, width := 1, acc := .sq, reset := 0 }

/-- LAT_EVT.ATTEMPT_LIMIT [5] SQ, reset 0. -/
def LAT_EVT_ATTEMPT_LIMIT : Fld := { off := 0xD0100, lsb := 5, width := 1, acc := .sq, reset := 0 }

/-- LAT_EVT.SEQ [31:16] SQ, reset 0x0000. -/
def LAT_EVT_SEQ : Fld := { off := 0xD0100, lsb := 16, width := 16, acc := .sq, reset := 0 }

/-- LAT_FAULT_INFO.TILE [4:0] RO, reset 0. -/
def LAT_FAULT_INFO_TILE : Fld := { off := 0xD0104, lsb := 0, width := 5, acc := .ro, reset := 0 }

/-- LAT_FAULT_INFO.CAUSE [8:5] RO, reset 0x0. -/
def LAT_FAULT_INFO_CAUSE : Fld := { off := 0xD0104, lsb := 5, width := 4, acc := .ro, reset := 0 }

/-- LAT_FAULT_INFO.IN_SERVICE [9] RO, reset 0. -/
def LAT_FAULT_INFO_IN_SERVICE : Fld := { off := 0xD0104, lsb := 9, width := 1, acc := .ro, reset := 0 }

/-- LAT_FAULT_INFO.TEST [12:10] RO, reset 0b000. -/
def LAT_FAULT_INFO_TEST : Fld := { off := 0xD0104, lsb := 10, width := 3, acc := .ro, reset := 0 }

/-- LAT_FAULT_INFO.SET [15:13] RO, reset 0b000. -/
def LAT_FAULT_INFO_SET : Fld := { off := 0xD0104, lsb := 13, width := 3, acc := .ro, reset := 0 }

/-- LAT_ROTATE.TESTING [4:0] RO, reset 0x1F. -/
def LAT_ROTATE_TESTING : Fld := { off := 0xD0108, lsb := 0, width := 5, acc := .ro, reset := 31 }

/-- LAT_ROTATE.SPARE [9:5] RO, reset 0x1F. -/
def LAT_ROTATE_SPARE : Fld := { off := 0xD0108, lsb := 5, width := 5, acc := .ro, reset := 31 }

/-- LAT_ROTATE.SERVING [14:10] RO, reset 0. -/
def LAT_ROTATE_SERVING : Fld := { off := 0xD0108, lsb := 10, width := 5, acc := .ro, reset := 0 }

/-- LAT_ROTATE.SUSPENDED [15] RO, reset 0. -/
def LAT_ROTATE_SUSPENDED : Fld := { off := 0xD0108, lsb := 15, width := 1, acc := .ro, reset := 0 }

/-- LAT_ROTATE.PASSES [31:16] RO, reset 0x0000. -/
def LAT_ROTATE_PASSES : Fld := { off := 0xD0108, lsb := 16, width := 16, acc := .ro, reset := 0 }

/-- LAT_ATTEMPTS.COUNT [63:0] WM, reset 0. -/
def LAT_ATTEMPTS_COUNT : Fld := { off := 0xD0110, lsb := 0, width := 64, acc := .wm, reset := 0 }

/-- LAT_SIGNS.COUNT [63:0] WM, reset 0. -/
def LAT_SIGNS_COUNT : Fld := { off := 0xD0118, lsb := 0, width := 64, acc := .wm, reset := 0 }

/-! Chapter 15. -/

/-- HSH_TILE.STATE [2:0] RO, reset 0b000. -/
def HSH_TILE_STATE : Fld := { off := 0xE0000, lsb := 0, width := 3, acc := .ro, reset := 0, stride := 4 }

/-- HSH_TILE.BUSY [6:3] RO, reset 0x0. -/
def HSH_TILE_BUSY : Fld := { off := 0xE0000, lsb := 3, width := 4, acc := .ro, reset := 0, stride := 4 }

/-- HSH_TILE.HELD [7] RO, reset 0. -/
def HSH_TILE_HELD : Fld := { off := 0xE0000, lsb := 7, width := 1, acc := .ro, reset := 0, stride := 4 }

/-- HSH_TILE.TILE_CMD [8] RO, reset 0. -/
def HSH_TILE_TILE_CMD : Fld := { off := 0xE0000, lsb := 8, width := 1, acc := .ro, reset := 0, stride := 4 }

/-- HSH_TILE.SELECTED [9] RO, reset 0. -/
def HSH_TILE_SELECTED : Fld := { off := 0xE0000, lsb := 9, width := 1, acc := .ro, reset := 0, stride := 4 }

/-- HSH_TILE.CAUSE [13:10] RO, reset 0x0. -/
def HSH_TILE_CAUSE : Fld := { off := 0xE0000, lsb := 10, width := 4, acc := .ro, reset := 0, stride := 4 }

/-- HSH_TILE.NEXT_SLH [17:14] RO, reset 0x0. -/
def HSH_TILE_NEXT_SLH : Fld := { off := 0xE0000, lsb := 14, width := 4, acc := .ro, reset := 0, stride := 4 }

/-- HSH_UEVT.DONE [0] SQ, reset 0. -/
def HSH_UEVT_DONE : Fld := { off := 0xE0080, lsb := 0, width := 1, acc := .sq, reset := 0, stride := 4 }

/-- HSH_UEVT.FAULT [1] SQ, reset 0. -/
def HSH_UEVT_FAULT : Fld := { off := 0xE0080, lsb := 1, width := 1, acc := .sq, reset := 0, stride := 4 }

/-- HSH_UEVT.FENCED [2] SQ, reset 0. -/
def HSH_UEVT_FENCED : Fld := { off := 0xE0080, lsb := 2, width := 1, acc := .sq, reset := 0, stride := 4 }

/-- HSH_UEVT.SEQ [31:16] SQ, reset 0x0000. -/
def HSH_UEVT_SEQ : Fld := { off := 0xE0080, lsb := 16, width := 16, acc := .sq, reset := 0, stride := 4 }

/-- HSH_EVT.ROTATE [0] SQ, reset 0. -/
def HSH_EVT_ROTATE : Fld := { off := 0xE0100, lsb := 0, width := 1, acc := .sq, reset := 0 }

/-- HSH_EVT.RESTART [1] SQ, reset 0. -/
def HSH_EVT_RESTART : Fld := { off := 0xE0100, lsb := 1, width := 1, acc := .sq, reset := 0 }

/-- HSH_EVT.CMP_FAULT [2] SQ, reset 0. -/
def HSH_EVT_CMP_FAULT : Fld := { off := 0xE0100, lsb := 2, width := 1, acc := .sq, reset := 0 }

/-- HSH_EVT.SEQ [31:16] SQ, reset 0x0000. -/
def HSH_EVT_SEQ : Fld := { off := 0xE0100, lsb := 16, width := 16, acc := .sq, reset := 0 }

/-- HSH_FAULT_INFO.TILE [3:0] RO, reset 0x0. -/
def HSH_FAULT_INFO_TILE : Fld := { off := 0xE0104, lsb := 0, width := 4, acc := .ro, reset := 0 }

/-- HSH_FAULT_INFO.CAUSE [7:4] RO, reset 0x0. -/
def HSH_FAULT_INFO_CAUSE : Fld := { off := 0xE0104, lsb := 4, width := 4, acc := .ro, reset := 0 }

/-- HSH_FAULT_INFO.IN_SERVICE [8] RO, reset 0. -/
def HSH_FAULT_INFO_IN_SERVICE : Fld := { off := 0xE0104, lsb := 8, width := 1, acc := .ro, reset := 0 }

/-- HSH_FAULT_INFO.TEST [12:9] RO, reset 0x0. -/
def HSH_FAULT_INFO_TEST : Fld := { off := 0xE0104, lsb := 9, width := 4, acc := .ro, reset := 0 }

/-- HSH_FAULT_INFO.LANE [14:13] RO, reset 0b00. -/
def HSH_FAULT_INFO_LANE : Fld := { off := 0xE0104, lsb := 13, width := 2, acc := .ro, reset := 0 }

/-- HSH_ROTATE.TESTING [3:0] RO, reset 0xF. -/
def HSH_ROTATE_TESTING : Fld := { off := 0xE0108, lsb := 0, width := 4, acc := .ro, reset := 15 }

/-- HSH_ROTATE.SERVING [7:4] RO, reset 0x0. -/
def HSH_ROTATE_SERVING : Fld := { off := 0xE0108, lsb := 4, width := 4, acc := .ro, reset := 0 }

/-- HSH_ROTATE.SUSPENDED [8] RO, reset 0. -/
def HSH_ROTATE_SUSPENDED : Fld := { off := 0xE0108, lsb := 8, width := 1, acc := .ro, reset := 0 }

/-- HSH_ROTATE.PASSES [31:16] RO, reset 0x0000. -/
def HSH_ROTATE_PASSES : Fld := { off := 0xE0108, lsb := 16, width := 16, acc := .ro, reset := 0 }

/-- HSH_BYTES.COUNT [63:0] WM, reset 0. -/
def HSH_BYTES_COUNT : Fld := { off := 0xE0110, lsb := 0, width := 64, acc := .wm, reset := 0 }

/-- HSH_LANE.LAST_OWNER [9:0] RO, reset 0x3FF. -/
def HSH_LANE_LAST_OWNER : Fld := { off := 0xE0200, lsb := 0, width := 10, acc := .ro, reset := 1023, stride := 4 }

/-- HSH_LANE.MODE [11:10] RO, reset 0b00. -/
def HSH_LANE_MODE : Fld := { off := 0xE0200, lsb := 10, width := 2, acc := .ro, reset := 0, stride := 4 }

/-- HSH_LANE.MASKED [12] RO, reset 0. -/
def HSH_LANE_MASKED : Fld := { off := 0xE0200, lsb := 12, width := 1, acc := .ro, reset := 0, stride := 4 }

/-- HSH_LANE.SNOOP [13] RO, reset 0. -/
def HSH_LANE_SNOOP : Fld := { off := 0xE0200, lsb := 13, width := 1, acc := .ro, reset := 0, stride := 4 }

/-! Chapter 16. -/

/-- BNE_UNIT.STATE [2:0] RO, reset 0b000. -/
def BNE_UNIT_STATE : Fld := { off := 0xF0000, lsb := 0, width := 3, acc := .ro, reset := 0, stride := 4 }

/-- BNE_UNIT.SELECTED [3] RO, reset 0. -/
def BNE_UNIT_SELECTED : Fld := { off := 0xF0000, lsb := 3, width := 1, acc := .ro, reset := 0, stride := 4 }

/-- BNE_UNIT.LAST_OWNER [13:4] RO, reset 0x3FF. -/
def BNE_UNIT_LAST_OWNER : Fld := { off := 0xF0000, lsb := 4, width := 10, acc := .ro, reset := 1023, stride := 4 }

/-- BNE_UNIT.CAUSE [19:16] RO, reset 0x0. -/
def BNE_UNIT_CAUSE : Fld := { off := 0xF0000, lsb := 16, width := 4, acc := .ro, reset := 0, stride := 4 }

/-- BNE_UNIT.LONG [20] RO, reset 0. -/
def BNE_UNIT_LONG : Fld := { off := 0xF0000, lsb := 20, width := 1, acc := .ro, reset := 0, stride := 4 }

/-- BNE_UNIT.NEXT_ECC [22:21] RO, reset 0b00. -/
def BNE_UNIT_NEXT_ECC : Fld := { off := 0xF0000, lsb := 21, width := 2, acc := .ro, reset := 0, stride := 4 }

/-- BNE_UNIT.NEXT_RSA [24:23] RO, reset 0b00. -/
def BNE_UNIT_NEXT_RSA : Fld := { off := 0xF0000, lsb := 23, width := 2, acc := .ro, reset := 0, stride := 4 }

/-- BNE_UNIT.NEXT_ED [25] RO, reset 0. -/
def BNE_UNIT_NEXT_ED : Fld := { off := 0xF0000, lsb := 25, width := 1, acc := .ro, reset := 0, stride := 4 }

/-- BNE_UEVT.DONE [0] SQ, reset 0. -/
def BNE_UEVT_DONE : Fld := { off := 0xF0080, lsb := 0, width := 1, acc := .sq, reset := 0, stride := 4 }

/-- BNE_UEVT.FAULT [1] SQ, reset 0. -/
def BNE_UEVT_FAULT : Fld := { off := 0xF0080, lsb := 1, width := 1, acc := .sq, reset := 0, stride := 4 }

/-- BNE_UEVT.FENCED [2] SQ, reset 0. -/
def BNE_UEVT_FENCED : Fld := { off := 0xF0080, lsb := 2, width := 1, acc := .sq, reset := 0, stride := 4 }

/-- BNE_UEVT.SEQ [31:16] SQ, reset 0x0000. -/
def BNE_UEVT_SEQ : Fld := { off := 0xF0080, lsb := 16, width := 16, acc := .sq, reset := 0, stride := 4 }

/-- BNE_EVT.ROTATE [0] SQ, reset 0. -/
def BNE_EVT_ROTATE : Fld := { off := 0xF0100, lsb := 0, width := 1, acc := .sq, reset := 0 }

/-- BNE_EVT.RESTART [1] SQ, reset 0. -/
def BNE_EVT_RESTART : Fld := { off := 0xF0100, lsb := 1, width := 1, acc := .sq, reset := 0 }

/-- BNE_EVT.ATTEMPT_LIMIT [2] SQ, reset 0. -/
def BNE_EVT_ATTEMPT_LIMIT : Fld := { off := 0xF0100, lsb := 2, width := 1, acc := .sq, reset := 0 }

/-- BNE_EVT.REJECT [3] SQ, reset 0. -/
def BNE_EVT_REJECT : Fld := { off := 0xF0100, lsb := 3, width := 1, acc := .sq, reset := 0 }

/-- BNE_EVT.SEQ [31:16] SQ, reset 0x0000. -/
def BNE_EVT_SEQ : Fld := { off := 0xF0100, lsb := 16, width := 16, acc := .sq, reset := 0 }

/-- BNE_FAULT_INFO.UNIT [2:0] RO, reset 0b000. -/
def BNE_FAULT_INFO_UNIT : Fld := { off := 0xF0104, lsb := 0, width := 3, acc := .ro, reset := 0 }

/-- BNE_FAULT_INFO.CAUSE [6:3] RO, reset 0x0. -/
def BNE_FAULT_INFO_CAUSE : Fld := { off := 0xF0104, lsb := 3, width := 4, acc := .ro, reset := 0 }

/-- BNE_FAULT_INFO.IN_SERVICE [7] RO, reset 0. -/
def BNE_FAULT_INFO_IN_SERVICE : Fld := { off := 0xF0104, lsb := 7, width := 1, acc := .ro, reset := 0 }

/-- BNE_FAULT_INFO.TEST [11:8] RO, reset 0x0. -/
def BNE_FAULT_INFO_TEST : Fld := { off := 0xF0104, lsb := 8, width := 4, acc := .ro, reset := 0 }

/-- BNE_ROTATE.TESTING [2:0] RO, reset 0b111. -/
def BNE_ROTATE_TESTING : Fld := { off := 0xF0108, lsb := 0, width := 3, acc := .ro, reset := 7 }

/-- BNE_ROTATE.SERVING [5:3] RO, reset 0b000. -/
def BNE_ROTATE_SERVING : Fld := { off := 0xF0108, lsb := 3, width := 3, acc := .ro, reset := 0 }

/-- BNE_ROTATE.SUSPENDED [6] RO, reset 0. -/
def BNE_ROTATE_SUSPENDED : Fld := { off := 0xF0108, lsb := 6, width := 1, acc := .ro, reset := 0 }

/-- BNE_ROTATE.PASSES [31:16] RO, reset 0x0000. -/
def BNE_ROTATE_PASSES : Fld := { off := 0xF0108, lsb := 16, width := 16, acc := .ro, reset := 0 }

/-- BNE_CTRL.LONG_MAX [2:0] RW, reset 0b100. -/
def BNE_CTRL_LONG_MAX : Fld := { off := 0xF010C, lsb := 0, width := 3, acc := .rw, reset := 4 }

/-- BNE_REJECTS.COUNT [63:0] WM, reset 0. -/
def BNE_REJECTS_COUNT : Fld := { off := 0xF0110, lsb := 0, width := 64, acc := .wm, reset := 0 }

/-- CBE_ENGINE.STATE [2:0] RO, reset 0b000. -/
def CBE_ENGINE_STATE : Fld := { off := 0xF4000, lsb := 0, width := 3, acc := .ro, reset := 0, stride := 4 }

/-- CBE_ENGINE.SELECTED [3] RO, reset 0. -/
def CBE_ENGINE_SELECTED : Fld := { off := 0xF4000, lsb := 3, width := 1, acc := .ro, reset := 0, stride := 4 }

/-- CBE_ENGINE.LAST_OWNER [13:4] RO, reset 0x3FF. -/
def CBE_ENGINE_LAST_OWNER : Fld := { off := 0xF4000, lsb := 4, width := 10, acc := .ro, reset := 1023, stride := 4 }

/-- CBE_ENGINE.CAUSE [19:16] RO, reset 0x0. -/
def CBE_ENGINE_CAUSE : Fld := { off := 0xF4000, lsb := 16, width := 4, acc := .ro, reset := 0, stride := 4 }

/-- CBE_ENGINE.PK_RES [20] RO, reset 0. -/
def CBE_ENGINE_PK_RES : Fld := { off := 0xF4000, lsb := 20, width := 1, acc := .ro, reset := 0, stride := 4 }

/-- CBE_ENGINE.SK_RES [21] RO, reset 0. -/
def CBE_ENGINE_SK_RES : Fld := { off := 0xF4000, lsb := 21, width := 1, acc := .ro, reset := 0, stride := 4 }

/-- CBE_ENGINE.LONG [22] RO, reset 0. -/
def CBE_ENGINE_LONG : Fld := { off := 0xF4000, lsb := 22, width := 1, acc := .ro, reset := 0, stride := 4 }

/-- CBE_ENGINE.NEXT_SET [24:23] RO, reset 0b00. -/
def CBE_ENGINE_NEXT_SET : Fld := { off := 0xF4000, lsb := 23, width := 2, acc := .ro, reset := 0, stride := 4 }

/-- CBE_EVT.ROTATE [0] SQ, reset 0. -/
def CBE_EVT_ROTATE : Fld := { off := 0xF4100, lsb := 0, width := 1, acc := .sq, reset := 0 }

/-- CBE_EVT.RESTART [1] SQ, reset 0. -/
def CBE_EVT_RESTART : Fld := { off := 0xF4100, lsb := 1, width := 1, acc := .sq, reset := 0 }

/-- CBE_EVT.ATTEMPT_LIMIT [2] SQ, reset 0. -/
def CBE_EVT_ATTEMPT_LIMIT : Fld := { off := 0xF4100, lsb := 2, width := 1, acc := .sq, reset := 0 }

/-- CBE_EVT.SEQ [31:16] SQ, reset 0x0000. -/
def CBE_EVT_SEQ : Fld := { off := 0xF4100, lsb := 16, width := 16, acc := .sq, reset := 0 }

/-- CBE_FAULT_INFO.ENGINE [1:0] RO, reset 0b00. -/
def CBE_FAULT_INFO_ENGINE : Fld := { off := 0xF4104, lsb := 0, width := 2, acc := .ro, reset := 0 }

/-- CBE_FAULT_INFO.CAUSE [5:2] RO, reset 0x0. -/
def CBE_FAULT_INFO_CAUSE : Fld := { off := 0xF4104, lsb := 2, width := 4, acc := .ro, reset := 0 }

/-- CBE_FAULT_INFO.IN_SERVICE [6] RO, reset 0. -/
def CBE_FAULT_INFO_IN_SERVICE : Fld := { off := 0xF4104, lsb := 6, width := 1, acc := .ro, reset := 0 }

/-- CBE_FAULT_INFO.TEST [9:7] RO, reset 0b000. -/
def CBE_FAULT_INFO_TEST : Fld := { off := 0xF4104, lsb := 7, width := 3, acc := .ro, reset := 0 }

/-- CBE_ROTATE.TESTING [1:0] RO, reset 0b11. -/
def CBE_ROTATE_TESTING : Fld := { off := 0xF4108, lsb := 0, width := 2, acc := .ro, reset := 3 }

/-- CBE_ROTATE.SERVING [3:2] RO, reset 0b00. -/
def CBE_ROTATE_SERVING : Fld := { off := 0xF4108, lsb := 2, width := 2, acc := .ro, reset := 0 }

/-- CBE_ROTATE.SUSPENDED [4] RO, reset 0. -/
def CBE_ROTATE_SUSPENDED : Fld := { off := 0xF4108, lsb := 4, width := 1, acc := .ro, reset := 0 }

/-- CBE_ROTATE.PASSES [31:16] RO, reset 0x0000. -/
def CBE_ROTATE_PASSES : Fld := { off := 0xF4108, lsb := 16, width := 16, acc := .ro, reset := 0 }

/-- CBE_CTRL.LONG_MAX [1:0] RW, reset 0b10. -/
def CBE_CTRL_LONG_MAX : Fld := { off := 0xF410C, lsb := 0, width := 2, acc := .rw, reset := 2 }

/-- CBE_PK_RES.HANDLE [63:0] WM, reset 0. -/
def CBE_PK_RES_HANDLE : Fld := { off := 0xF4200, lsb := 0, width := 64, acc := .wm, reset := 0, stride := 8 }

/-- CBE_SK_RES.HANDLE [63:0] WM, reset 0. -/
def CBE_SK_RES_HANDLE : Fld := { off := 0xF4220, lsb := 0, width := 64, acc := .wm, reset := 0, stride := 8 }

/-- CBE_HITS.COUNT [63:0] WM, reset 0. -/
def CBE_HITS_COUNT : Fld := { off := 0xF4240, lsb := 0, width := 64, acc := .wm, reset := 0 }

/-- CBE_UEVT.DONE [0] SQ, reset 0. -/
def CBE_UEVT_DONE : Fld := { off := 0xF4080, lsb := 0, width := 1, acc := .sq, reset := 0, stride := 4 }

/-- CBE_UEVT.FAULT [1] SQ, reset 0. -/
def CBE_UEVT_FAULT : Fld := { off := 0xF4080, lsb := 1, width := 1, acc := .sq, reset := 0, stride := 4 }

/-- CBE_UEVT.FENCED [2] SQ, reset 0. -/
def CBE_UEVT_FENCED : Fld := { off := 0xF4080, lsb := 2, width := 1, acc := .sq, reset := 0, stride := 4 }

/-- CBE_UEVT.SEQ [31:16] SQ, reset 0x0000. -/
def CBE_UEVT_SEQ : Fld := { off := 0xF4080, lsb := 16, width := 16, acc := .sq, reset := 0, stride := 4 }

/-! Chapter 17. -/

/-- SYM_LANE.STATE [2:0] RO, reset 0b000. -/
def SYM_LANE_STATE : Fld := { off := 0xF8000, lsb := 0, width := 3, acc := .ro, reset := 0, stride := 4 }

/-- SYM_LANE.SELECTED [3] RO, reset 0. -/
def SYM_LANE_SELECTED : Fld := { off := 0xF8000, lsb := 3, width := 1, acc := .ro, reset := 0, stride := 4 }

/-- SYM_LANE.LAST_OWNER [13:4] RO, reset 0x3FF. -/
def SYM_LANE_LAST_OWNER : Fld := { off := 0xF8000, lsb := 4, width := 10, acc := .ro, reset := 1023, stride := 4 }

/-- SYM_LANE.CAUSE [19:16] RO, reset 0x0. -/
def SYM_LANE_CAUSE : Fld := { off := 0xF8000, lsb := 16, width := 4, acc := .ro, reset := 0, stride := 4 }

/-- SYM_LANE.WORK [22:20] RO, reset 0b000. -/
def SYM_LANE_WORK : Fld := { off := 0xF8000, lsb := 20, width := 3, acc := .ro, reset := 0, stride := 4 }

/-- SYM_EVT.ROTATE [0] SQ, reset 0. -/
def SYM_EVT_ROTATE : Fld := { off := 0xF8100, lsb := 0, width := 1, acc := .sq, reset := 0 }

/-- SYM_EVT.RESTART [1] SQ, reset 0. -/
def SYM_EVT_RESTART : Fld := { off := 0xF8100, lsb := 1, width := 1, acc := .sq, reset := 0 }

/-- SYM_EVT.CMP_FAULT [2] SQ, reset 0. -/
def SYM_EVT_CMP_FAULT : Fld := { off := 0xF8100, lsb := 2, width := 1, acc := .sq, reset := 0 }

/-- SYM_EVT.SEQ [31:16] SQ, reset 0x0000. -/
def SYM_EVT_SEQ : Fld := { off := 0xF8100, lsb := 16, width := 16, acc := .sq, reset := 0 }

/-- SYM_FAULT_INFO.LANE [3:0] RO, reset 0x0. -/
def SYM_FAULT_INFO_LANE : Fld := { off := 0xF8104, lsb := 0, width := 4, acc := .ro, reset := 0 }

/-- SYM_FAULT_INFO.CAUSE [7:4] RO, reset 0x0. -/
def SYM_FAULT_INFO_CAUSE : Fld := { off := 0xF8104, lsb := 4, width := 4, acc := .ro, reset := 0 }

/-- SYM_FAULT_INFO.IN_SERVICE [8] RO, reset 0. -/
def SYM_FAULT_INFO_IN_SERVICE : Fld := { off := 0xF8104, lsb := 8, width := 1, acc := .ro, reset := 0 }

/-- SYM_FAULT_INFO.TEST [12:9] RO, reset 0x0. -/
def SYM_FAULT_INFO_TEST : Fld := { off := 0xF8104, lsb := 9, width := 4, acc := .ro, reset := 0 }

/-- SYM_ROTATE.TESTING [3:0] RO, reset 0xF. -/
def SYM_ROTATE_TESTING : Fld := { off := 0xF8108, lsb := 0, width := 4, acc := .ro, reset := 15 }

/-- SYM_ROTATE.SERVING [7:4] RO, reset 0x0. -/
def SYM_ROTATE_SERVING : Fld := { off := 0xF8108, lsb := 4, width := 4, acc := .ro, reset := 0 }

/-- SYM_ROTATE.SUSPENDED [8] RO, reset 0. -/
def SYM_ROTATE_SUSPENDED : Fld := { off := 0xF8108, lsb := 8, width := 1, acc := .ro, reset := 0 }

/-- SYM_ROTATE.PASSES [31:16] RO, reset 0x0000. -/
def SYM_ROTATE_PASSES : Fld := { off := 0xF8108, lsb := 16, width := 16, acc := .ro, reset := 0 }

/-- SYM_BYTES.COUNT [63:0] WM, reset 0. -/
def SYM_BYTES_COUNT : Fld := { off := 0xF8110, lsb := 0, width := 64, acc := .wm, reset := 0 }

/-- SYM_UEVT.DONE [0] SQ, reset 0. -/
def SYM_UEVT_DONE : Fld := { off := 0xF8080, lsb := 0, width := 1, acc := .sq, reset := 0, stride := 4 }

/-- SYM_UEVT.FAULT [1] SQ, reset 0. -/
def SYM_UEVT_FAULT : Fld := { off := 0xF8080, lsb := 1, width := 1, acc := .sq, reset := 0, stride := 4 }

/-- SYM_UEVT.FENCED [2] SQ, reset 0. -/
def SYM_UEVT_FENCED : Fld := { off := 0xF8080, lsb := 2, width := 1, acc := .sq, reset := 0, stride := 4 }

/-- SYM_UEVT.SEQ [31:16] SQ, reset 0x0000. -/
def SYM_UEVT_SEQ : Fld := { off := 0xF8080, lsb := 16, width := 16, acc := .sq, reset := 0, stride := 4 }

/-! Chapter 18. -/

/-- LC_STATE.STATE [4:0] RO, reset From OTP. -/
def LC_STATE_STATE : Fld := { off := 0x30000, lsb := 0, width := 5, acc := .ro, reset := 0 }

/-- LC_STATE.INV_CAUSE [7:5] RO, reset 0b000. -/
def LC_STATE_INV_CAUSE : Fld := { off := 0x30000, lsb := 5, width := 3, acc := .ro, reset := 0 }

/-- LC_STATE.NEXT [12:8] RO, reset From OTP. -/
def LC_STATE_NEXT : Fld := { off := 0x30000, lsb := 8, width := 5, acc := .ro, reset := 0 }

/-- LC_STATE.KILLED [13] RO, reset 0. -/
def LC_STATE_KILLED : Fld := { off := 0x30000, lsb := 13, width := 1, acc := .ro, reset := 0 }

/-- LC_STATE.TRANSITIONED [14] RO, reset 0. -/
def LC_STATE_TRANSITIONED : Fld := { off := 0x30000, lsb := 14, width := 1, acc := .ro, reset := 0 }

/-- LC_TARGET.TARGET [4:0] GW, reset 0. -/
def LC_TARGET_TARGET : Fld := { off := 0x30004, lsb := 0, width := 5, acc := .gw, reset := 0 }

/-- LC_TOKEN.TOKEN [31:0] WO, reset 0. -/
def LC_TOKEN_TOKEN : Fld := { off := 0x30010, lsb := 0, width := 32, acc := .wo, reset := 0, stride := 4 }

/-- LC_STATUS.BUSY [0] RO, reset 0. -/
def LC_STATUS_BUSY : Fld := { off := 0x30020, lsb := 0, width := 1, acc := .ro, reset := 0 }

/-- LC_STATUS.RESULT [3:1] RO, reset 0b000. -/
def LC_STATUS_RESULT : Fld := { off := 0x30020, lsb := 1, width := 3, acc := .ro, reset := 0 }

/-- LC_STATUS.RESERVE_OK [4] RO, reset 0. -/
def LC_STATUS_RESERVE_OK : Fld := { off := 0x30020, lsb := 4, width := 1, acc := .ro, reset := 0 }

/-- LC_STATUS.FAILS [6:5] RO, reset 0b00. -/
def LC_STATUS_FAILS : Fld := { off := 0x30020, lsb := 5, width := 2, acc := .ro, reset := 0 }

/-- LC_STATUS.PATH [7] RO, reset 0. -/
def LC_STATUS_PATH : Fld := { off := 0x30020, lsb := 7, width := 1, acc := .ro, reset := 0 }

/-- LC_EVT.DONE [0] SQ, reset 0. -/
def LC_EVT_DONE : Fld := { off := 0x30024, lsb := 0, width := 1, acc := .sq, reset := 0 }

/-- LC_EVT.REFUSED [1] SQ, reset 0. -/
def LC_EVT_REFUSED : Fld := { off := 0x30024, lsb := 1, width := 1, acc := .sq, reset := 0 }

/-- LC_EVT.TOKEN_FAIL [2] SQ, reset 0. -/
def LC_EVT_TOKEN_FAIL : Fld := { off := 0x30024, lsb := 2, width := 1, acc := .sq, reset := 0 }

/-- LC_EVT.REPAIRED [3] SQ, reset 0. -/
def LC_EVT_REPAIRED : Fld := { off := 0x30024, lsb := 3, width := 1, acc := .sq, reset := 0 }

/-- LC_EVT.REPAIR_FAIL [4] SQ, reset 0. -/
def LC_EVT_REPAIR_FAIL : Fld := { off := 0x30024, lsb := 4, width := 1, acc := .sq, reset := 0 }

/-- LC_EVT.SEQ [31:16] SQ, reset 0x0000. -/
def LC_EVT_SEQ : Fld := { off := 0x30024, lsb := 16, width := 16, acc := .sq, reset := 0 }

/-! Chapter 19. -/

/-- TMP_FLAGS.SRC [23:0] RO, reset Backup domain (TMP_COND 0). -/
def TMP_FLAGS_SRC : Fld := { off := 0x40000, lsb := 0, width := 24, acc := .ro, reset := 0 }

/-- TMP_ACTED.SRC [23:0] RO, reset Backup domain (TMP_COND 0). -/
def TMP_ACTED_SRC : Fld := { off := 0x40004, lsb := 0, width := 24, acc := .ro, reset := 0 }

/-- TMP_COND.SRC [23:0] RO, reset Backup domain (TMP_COND 0). -/
def TMP_COND_SRC : Fld := { off := 0x40008, lsb := 0, width := 24, acc := .ro, reset := 0 }

/-- TMP_AEVT0.SRC [15:0] SQ, reset 0. -/
def TMP_AEVT0_SRC : Fld := { off := 0x40010, lsb := 0, width := 16, acc := .sq, reset := 0 }

/-- TMP_AEVT0.SEQ [31:16] SQ, reset 0x0000. -/
def TMP_AEVT0_SEQ : Fld := { off := 0x40010, lsb := 16, width := 16, acc := .sq, reset := 0 }

/-- TMP_AEVT1.SRC [15:0] SQ, reset 0. -/
def TMP_AEVT1_SRC : Fld := { off := 0x40014, lsb := 0, width := 16, acc := .sq, reset := 0 }

/-- TMP_AEVT1.SEQ [31:16] SQ, reset 0x0000. -/
def TMP_AEVT1_SEQ : Fld := { off := 0x40014, lsb := 16, width := 16, acc := .sq, reset := 0 }

/-- TMP_RESP.CODE [29:0] RO, reset Backup domain. -/
def TMP_RESP_CODE : Fld := { off := 0x40018, lsb := 0, width := 30, acc := .ro, reset := 0, stride := 4, resets := [323635492, 153392226, 1617] }

/-- TMP_BKP_STATUS.LOOP_EN [3:0] RO, reset Backup domain. -/
def TMP_BKP_STATUS_LOOP_EN : Fld := { off := 0x40024, lsb := 0, width := 4, acc := .ro, reset := 15 }

/-- TMP_BKP_STATUS.BBK_VALID [4] RO, reset Backup domain. -/
def TMP_BKP_STATUS_BBK_VALID : Fld := { off := 0x40024, lsb := 4, width := 1, acc := .ro, reset := 0 }

/-- TMP_BKP_STATUS.ON_VBAT [5] RO, reset 0. -/
def TMP_BKP_STATUS_ON_VBAT : Fld := { off := 0x40024, lsb := 5, width := 1, acc := .ro, reset := 0 }

/-- TMP_BKP_STATUS.BKP_LOST [6] RO, reset 0. -/
def TMP_BKP_STATUS_BKP_LOST : Fld := { off := 0x40024, lsb := 6, width := 1, acc := .ro, reset := 0 }

/-- TMP_BKP_STATUS.XTAL_STOP [7] RO, reset Backup domain. -/
def TMP_BKP_STATUS_XTAL_STOP : Fld := { off := 0x40024, lsb := 7, width := 1, acc := .ro, reset := 0 }

/-- TMP_BKP_STATUS.VBAT_MV [19:8] RO, reset 0. -/
def TMP_BKP_STATUS_VBAT_MV : Fld := { off := 0x40024, lsb := 8, width := 12, acc := .ro, reset := 0 }

/-- TMP_FLAG_CLR.SRC [23:0] GW, reset 0. -/
def TMP_FLAG_CLR_SRC : Fld := { off := 0x40028, lsb := 0, width := 24, acc := .gw, reset := 0 }

/-- TMP_RESUME.KEY [7:0] GW, reset 0x00. -/
def TMP_RESUME_KEY : Fld := { off := 0x40030, lsb := 0, width := 8, acc := .gw, reset := 0 }

/-- TMP_STATUS.RESPONSE [2:0] RO, reset 0b000. -/
def TMP_STATUS_RESPONSE : Fld := { off := 0x40038, lsb := 0, width := 3, acc := .ro, reset := 0 }

/-- TMP_STATUS.SUSPENDED [3] RO, reset 0. -/
def TMP_STATUS_SUSPENDED : Fld := { off := 0x40038, lsb := 3, width := 1, acc := .ro, reset := 0 }

/-- TMP_STATUS.PURGING [4] RO, reset 0. -/
def TMP_STATUS_PURGING : Fld := { off := 0x40038, lsb := 4, width := 1, acc := .ro, reset := 0 }

/-- TMP_STATUS.RESUME_RESULT [7:5] RO, reset 0b000. -/
def TMP_STATUS_RESUME_RESULT : Fld := { off := 0x40038, lsb := 5, width := 3, acc := .ro, reset := 0 }

/-- TMP_TIME.TICKS [63:0] WM, reset Backup domain. -/
def TMP_TIME_TICKS : Fld := { off := 0x40040, lsb := 0, width := 64, acc := .wm, reset := 0 }

/-- TMP_HOURS.COUNT [31:0] RO, reset Backup domain. -/
def TMP_HOURS_COUNT : Fld := { off := 0x40048, lsb := 0, width := 32, acc := .ro, reset := 0 }

/-- TMP_CYCLES.COUNT [31:0] RO, reset Backup domain. -/
def TMP_CYCLES_COUNT : Fld := { off := 0x4004C, lsb := 0, width := 32, acc := .ro, reset := 0 }

/-- TMP_FLAG_TIME.TICKS [63:0] WM, reset Backup domain. -/
def TMP_FLAG_TIME_TICKS : Fld := { off := 0x40100, lsb := 0, width := 64, acc := .wm, reset := 0, stride := 8 }

/-! Chapter 20. -/

/-- EVR_STATUS.STORED [11:0] RO, reset 0. -/
def EVR_STATUS_STORED : Fld := { off := 0x50000, lsb := 0, width := 12, acc := .ro, reset := 0 }

/-- EVR_STATUS.FULL [12] RO, reset 0. -/
def EVR_STATUS_FULL : Fld := { off := 0x50000, lsb := 12, width := 1, acc := .ro, reset := 0 }

/-- EVR_STATUS.CLEARING [13] RO, reset 0. -/
def EVR_STATUS_CLEARING : Fld := { off := 0x50000, lsb := 13, width := 1, acc := .ro, reset := 0 }

/-- EVR_STATUS.QUEUED [19:14] RO, reset 0. -/
def EVR_STATUS_QUEUED : Fld := { off := 0x50000, lsb := 14, width := 6, acc := .ro, reset := 0 }

/-- EVR_EVT.STORED [0] SQ, reset 0. -/
def EVR_EVT_STORED : Fld := { off := 0x50004, lsb := 0, width := 1, acc := .sq, reset := 0 }

/-- EVR_EVT.FULL [1] SQ, reset 0. -/
def EVR_EVT_FULL : Fld := { off := 0x50004, lsb := 1, width := 1, acc := .sq, reset := 0 }

/-- EVR_EVT.OVERWRITE [2] SQ, reset 0. -/
def EVR_EVT_OVERWRITE : Fld := { off := 0x50004, lsb := 2, width := 1, acc := .sq, reset := 0 }

/-- EVR_EVT.DROPPED [3] SQ, reset 0. -/
def EVR_EVT_DROPPED : Fld := { off := 0x50004, lsb := 3, width := 1, acc := .sq, reset := 0 }

/-- EVR_EVT.CLEARED [4] SQ, reset 0. -/
def EVR_EVT_CLEARED : Fld := { off := 0x50004, lsb := 4, width := 1, acc := .sq, reset := 0 }

/-- EVR_EVT.CLEAR_REFUSED [5] SQ, reset 0. -/
def EVR_EVT_CLEAR_REFUSED : Fld := { off := 0x50004, lsb := 5, width := 1, acc := .sq, reset := 0 }

/-- EVR_EVT.EXP_DONE [6] SQ, reset 0. -/
def EVR_EVT_EXP_DONE : Fld := { off := 0x50004, lsb := 6, width := 1, acc := .sq, reset := 0 }

/-- EVR_EVT.SEQ [31:16] SQ, reset 0x0000. -/
def EVR_EVT_SEQ : Fld := { off := 0x50004, lsb := 16, width := 16, acc := .sq, reset := 0 }

/-- EVR_NEXT_SEQ.SEQ [31:0] RO, reset 0x0000_0000. -/
def EVR_NEXT_SEQ_SEQ : Fld := { off := 0x50008, lsb := 0, width := 32, acc := .ro, reset := 0 }

/-- EVR_DROPPED.COUNT [31:0] RO, reset 0x0000_0000. -/
def EVR_DROPPED_COUNT : Fld := { off := 0x5000C, lsb := 0, width := 32, acc := .ro, reset := 0 }

/-- EVR_OVERWR.COUNT [31:0] RO, reset 0x0000_0000. -/
def EVR_OVERWR_COUNT : Fld := { off := 0x50010, lsb := 0, width := 32, acc := .ro, reset := 0 }

/-- EVR_FILTERED.COUNT [31:0] RO, reset 0x0000_0000. -/
def EVR_FILTERED_COUNT : Fld := { off := 0x50014, lsb := 0, width := 32, acc := .ro, reset := 0 }

/-- EVR_CLR_UPTO.UPTO [31:0] RW, reset 0x0000_0000. -/
def EVR_CLR_UPTO_UPTO : Fld := { off := 0x50020, lsb := 0, width := 32, acc := .rw, reset := 0 }

/-- EVR_CLEAR.APPROVAL_ID [15:0] GW, reset 0x0000. -/
def EVR_CLEAR_APPROVAL_ID : Fld := { off := 0x50024, lsb := 0, width := 16, acc := .gw, reset := 0 }

/-- EVR_CLR_STATUS.RESULT [1:0] RO, reset 0b00. -/
def EVR_CLR_STATUS_RESULT : Fld := { off := 0x5002C, lsb := 0, width := 2, acc := .ro, reset := 0 }

/-- EVR_CLR_STATUS.REMOVED [13:2] RO, reset 0. -/
def EVR_CLR_STATUS_REMOVED : Fld := { off := 0x5002C, lsb := 2, width := 12, acc := .ro, reset := 0 }

/-- EVR_RD_SEL.SLOT [10:0] RW, reset 0. -/
def EVR_RD_SEL_SLOT : Fld := { off := 0x50040, lsb := 0, width := 11, acc := .rw, reset := 0 }

/-- EVR_RD_VALID.VALID [0] RO, reset 0. -/
def EVR_RD_VALID_VALID : Fld := { off := 0x50044, lsb := 0, width := 1, acc := .ro, reset := 0 }

/-- EVR_RD_VALID.SLOT [11:1] RO, reset 0. -/
def EVR_RD_VALID_SLOT : Fld := { off := 0x50044, lsb := 1, width := 11, acc := .ro, reset := 0 }

/-- EVR_RD_DATA.DATA [31:0] RO, reset 0x0000_0000. -/
def EVR_RD_DATA_DATA : Fld := { off := 0x50080, lsb := 0, width := 32, acc := .ro, reset := 0, stride := 4 }

/-- EVR_EXP_ADDR_LO.ADDR [31:0] RW, reset 0x0000_0000. -/
def EVR_EXP_ADDR_LO_ADDR : Fld := { off := 0x50100, lsb := 0, width := 32, acc := .rw, reset := 0 }

/-- EVR_EXP_ADDR_HI.ADDR [31:0] RW, reset 0x0000_0000. -/
def EVR_EXP_ADDR_HI_ADDR : Fld := { off := 0x50104, lsb := 0, width := 32, acc := .rw, reset := 0 }

/-- EVR_EXP_FROM.SEQ [31:0] RW, reset 0x0000_0000. -/
def EVR_EXP_FROM_SEQ : Fld := { off := 0x50108, lsb := 0, width := 32, acc := .rw, reset := 0 }

/-- EVR_EXP_CTRL.COUNT [11:0] RW, reset 0. -/
def EVR_EXP_CTRL_COUNT : Fld := { off := 0x5010C, lsb := 0, width := 12, acc := .rw, reset := 0 }

/-- EVR_EXP_CTRL.GO [31] WO, reset 0. -/
def EVR_EXP_CTRL_GO : Fld := { off := 0x5010C, lsb := 31, width := 1, acc := .wo, reset := 0 }

/-- EVR_EXP_STAT.BUSY [0] RO, reset 0. -/
def EVR_EXP_STAT_BUSY : Fld := { off := 0x50110, lsb := 0, width := 1, acc := .ro, reset := 0 }

/-- EVR_EXP_STAT.RESULT [2:1] RO, reset 0b00. -/
def EVR_EXP_STAT_RESULT : Fld := { off := 0x50110, lsb := 1, width := 2, acc := .ro, reset := 0 }

/-- EVR_EXP_STAT.WRITTEN [14:3] RO, reset 0. -/
def EVR_EXP_STAT_WRITTEN : Fld := { off := 0x50110, lsb := 3, width := 12, acc := .ro, reset := 0 }

/-- EVR_EXP_LAST.SEQ [31:0] RO, reset 0x0000_0000. -/
def EVR_EXP_LAST_SEQ : Fld := { off := 0x50114, lsb := 0, width := 32, acc := .ro, reset := 0 }

/-! Chapter 21. -/

/-- TWN_STATUS.STATE [2:0] RO, reset 0b000. -/
def TWN_STATUS_STATE : Fld := { off := 0x120000, lsb := 0, width := 3, acc := .ro, reset := 0 }

/-- TWN_STATUS.ROLE [3] RO, reset TW_ROLE. -/
def TWN_STATUS_ROLE : Fld := { off := 0x120000, lsb := 3, width := 1, acc := .ro, reset := 0 }

/-- TWN_STATUS.PRESENT [4] RO, reset 0. -/
def TWN_STATUS_PRESENT : Fld := { off := 0x120000, lsb := 4, width := 1, acc := .ro, reset := 0 }

/-- TWN_STATUS.SIDEBAND [5] RO, reset 0. -/
def TWN_STATUS_SIDEBAND : Fld := { off := 0x120000, lsb := 5, width := 1, acc := .ro, reset := 0 }

/-- TWN_STATUS.VER_MINOR [11:8] RO, reset 0x0. -/
def TWN_STATUS_VER_MINOR : Fld := { off := 0x120000, lsb := 8, width := 4, acc := .ro, reset := 0 }

/-- TWN_STATUS.VER_MAJOR [15:12] RO, reset 0x0. -/
def TWN_STATUS_VER_MAJOR : Fld := { off := 0x120000, lsb := 12, width := 4, acc := .ro, reset := 0 }

/-- TWN_STATUS.SPEED [18:16] RO, reset 0b000. -/
def TWN_STATUS_SPEED : Fld := { off := 0x120000, lsb := 16, width := 3, acc := .ro, reset := 0 }

/-- TWN_STATUS.WIDTH [21:19] RO, reset 0b000. -/
def TWN_STATUS_WIDTH : Fld := { off := 0x120000, lsb := 19, width := 3, acc := .ro, reset := 0 }

/-- TWN_STATUS.MODE [23:22] RO, reset 0b00. -/
def TWN_STATUS_MODE : Fld := { off := 0x120000, lsb := 22, width := 2, acc := .ro, reset := 0 }

/-- TWN_EVT.PAIRED [0] SQ, reset 0. -/
def TWN_EVT_PAIRED : Fld := { off := 0x120004, lsb := 0, width := 1, acc := .sq, reset := 0 }

/-- TWN_EVT.PEER_LOST [1] SQ, reset 0. -/
def TWN_EVT_PEER_LOST : Fld := { off := 0x120004, lsb := 1, width := 1, acc := .sq, reset := 0 }

/-- TWN_EVT.LINK_DOWN [2] SQ, reset 0. -/
def TWN_EVT_LINK_DOWN : Fld := { off := 0x120004, lsb := 2, width := 1, acc := .sq, reset := 0 }

/-- TWN_EVT.RESYNC_DONE [3] SQ, reset 0. -/
def TWN_EVT_RESYNC_DONE : Fld := { off := 0x120004, lsb := 3, width := 1, acc := .sq, reset := 0 }

/-- TWN_EVT.BLOB_READY [4] SQ, reset 0. -/
def TWN_EVT_BLOB_READY : Fld := { off := 0x120004, lsb := 4, width := 1, acc := .sq, reset := 0 }

/-- TWN_EVT.PAIR_FAIL [5] SQ, reset 0. -/
def TWN_EVT_PAIR_FAIL : Fld := { off := 0x120004, lsb := 5, width := 1, acc := .sq, reset := 0 }

/-- TWN_EVT.JOURNAL_FULL [6] SQ, reset 0. -/
def TWN_EVT_JOURNAL_FULL : Fld := { off := 0x120004, lsb := 6, width := 1, acc := .sq, reset := 0 }

/-- TWN_EVT.CONFLICT [7] SQ, reset 0. -/
def TWN_EVT_CONFLICT : Fld := { off := 0x120004, lsb := 7, width := 1, acc := .sq, reset := 0 }

/-- TWN_EVT.SEQ [31:16] SQ, reset 0x0000. -/
def TWN_EVT_SEQ : Fld := { off := 0x120004, lsb := 16, width := 16, acc := .sq, reset := 0 }

/-- TWN_PAIR.APPROVAL_ID [15:0] GW, reset 0x0000. -/
def TWN_PAIR_APPROVAL_ID : Fld := { off := 0x120008, lsb := 0, width := 16, acc := .gw, reset := 0 }

/-- TWN_PAIR.BLOB [16] GW, reset 0. -/
def TWN_PAIR_BLOB : Fld := { off := 0x120008, lsb := 16, width := 1, acc := .gw, reset := 0 }

/-- TWN_PAIR.JOIN [17] GW, reset 0. -/
def TWN_PAIR_JOIN : Fld := { off := 0x120008, lsb := 17, width := 1, acc := .gw, reset := 0 }

/-- TWN_PAIR_STATUS.BUSY [0] RO, reset 0. -/
def TWN_PAIR_STATUS_BUSY : Fld := { off := 0x120010, lsb := 0, width := 1, acc := .ro, reset := 0 }

/-- TWN_PAIR_STATUS.RESULT [3:1] RO, reset 0b000. -/
def TWN_PAIR_STATUS_RESULT : Fld := { off := 0x120010, lsb := 1, width := 3, acc := .ro, reset := 0 }

/-- TWN_CSEQ.COUNT [63:0] WM, reset 0. -/
def TWN_CSEQ_COUNT : Fld := { off := 0x120018, lsb := 0, width := 64, acc := .wm, reset := 0 }

/-- TWN_JOURNAL.ENTRIES [20:0] RO, reset 0. -/
def TWN_JOURNAL_ENTRIES : Fld := { off := 0x120020, lsb := 0, width := 21, acc := .ro, reset := 0 }

/-- TWN_JOURNAL.OVERFLOW [31] RO, reset 0. -/
def TWN_JOURNAL_OVERFLOW : Fld := { off := 0x120020, lsb := 31, width := 1, acc := .ro, reset := 0 }

/-- TWN_LINK_ERR.REPLAYS [15:0] RO, reset 0x0000. -/
def TWN_LINK_ERR_REPLAYS : Fld := { off := 0x120024, lsb := 0, width := 16, acc := .ro, reset := 0 }

/-- TWN_LINK_ERR.RETRAINS [23:16] RO, reset 0x00. -/
def TWN_LINK_ERR_RETRAINS : Fld := { off := 0x120024, lsb := 16, width := 8, acc := .ro, reset := 0 }

/-- TWN_BLOB.DATA [31:0] RW, reset 0x0000_0000. -/
def TWN_BLOB_DATA : Fld := { off := 0x120100, lsb := 0, width := 32, acc := .rw, reset := 0, stride := 4 }

/-! Chapter 22. -/

/-- LTS_CTRL.TEST [0] RW, reset 0. -/
def LTS_CTRL_TEST : Fld := { off := 0x130000, lsb := 0, width := 1, acc := .rw, reset := 0, stride := 4 }

/-- LTS_CTRL.GEN [1] RW, reset 0. -/
def LTS_CTRL_GEN : Fld := { off := 0x130000, lsb := 1, width := 1, acc := .rw, reset := 0, stride := 4 }

/-- LTS_CTRL.CHK [2] RW, reset 0. -/
def LTS_CTRL_CHK : Fld := { off := 0x130000, lsb := 2, width := 1, acc := .rw, reset := 0, stride := 4 }

/-- LTS_CTRL.LOOP [3] RW, reset 0. -/
def LTS_CTRL_LOOP : Fld := { off := 0x130000, lsb := 3, width := 1, acc := .rw, reset := 0, stride := 4 }

/-- LTS_CTRL.PATTERN [6:4] RW, reset 0b000. -/
def LTS_CTRL_PATTERN : Fld := { off := 0x130000, lsb := 4, width := 3, acc := .rw, reset := 0, stride := 4 }

/-- LTS_CTRL.STATE [7] RO, reset 0. -/
def LTS_CTRL_STATE : Fld := { off := 0x130000, lsb := 7, width := 1, acc := .ro, reset := 0, stride := 4 }

/-- LTS_CTRL.RESULT [10:8] RO, reset 0b000. -/
def LTS_CTRL_RESULT : Fld := { off := 0x130000, lsb := 8, width := 3, acc := .ro, reset := 0, stride := 4 }

/-- LTS_USER.PATTERN [63:0] RW, reset 0. -/
def LTS_USER_PATTERN : Fld := { off := 0x130020, lsb := 0, width := 64, acc := .rw, reset := 0 }

/-- LTS_LANE.SYNC [0] RO, reset 0. -/
def LTS_LANE_SYNC : Fld := { off := 0x131000, lsb := 0, width := 1, acc := .ro, reset := 0, stride := 4 }

/-- LTS_LANE.ERRORS [31:1] RO, reset 0. -/
def LTS_LANE_ERRORS : Fld := { off := 0x131000, lsb := 1, width := 31, acc := .ro, reset := 0, stride := 4 }

/-- LTS_EYE_CTRL.LANE [7:0] RW, reset 0. -/
def LTS_EYE_CTRL_LANE : Fld := { off := 0x132000, lsb := 0, width := 8, acc := .rw, reset := 0 }

/-- LTS_EYE_CTRL.TOFF [13:8] RW, reset 0. -/
def LTS_EYE_CTRL_TOFF : Fld := { off := 0x132000, lsb := 8, width := 6, acc := .rw, reset := 0 }

/-- LTS_EYE_CTRL.VOFF [20:14] RW, reset 0. -/
def LTS_EYE_CTRL_VOFF : Fld := { off := 0x132000, lsb := 14, width := 7, acc := .rw, reset := 0 }

/-- LTS_EYE_CTRL.DWELL [26:21] RW, reset 20. -/
def LTS_EYE_CTRL_DWELL : Fld := { off := 0x132000, lsb := 21, width := 6, acc := .rw, reset := 20 }

/-- LTS_EYE_CTRL.GO [31] WO, reset 0. -/
def LTS_EYE_CTRL_GO : Fld := { off := 0x132000, lsb := 31, width := 1, acc := .wo, reset := 0 }

/-- LTS_EYE_RES.BUSY [0] RO, reset 0. -/
def LTS_EYE_RES_BUSY : Fld := { off := 0x132004, lsb := 0, width := 1, acc := .ro, reset := 0 }

/-- LTS_EYE_RES.DONE [1] RO, reset 0. -/
def LTS_EYE_RES_DONE : Fld := { off := 0x132004, lsb := 1, width := 1, acc := .ro, reset := 0 }

/-- LTS_EYE_RES.RESULT [3:2] RO, reset 0b00. -/
def LTS_EYE_RES_RESULT : Fld := { off := 0x132004, lsb := 2, width := 2, acc := .ro, reset := 0 }

/-- LTS_EYE_RES.ERRORS [31:4] RO, reset 0. -/
def LTS_EYE_RES_ERRORS : Fld := { off := 0x132004, lsb := 4, width := 28, acc := .ro, reset := 0 }

end R

/-- The registers of a queue-pair register set. -/
def regRowsQZ : List RegRow := [

  { off := 0x0, stride := 0, count := 1, flds := [R.QZ_SQ_ADDR_LO_ADDR] },
  { off := 0x4, stride := 0, count := 1, flds := [R.QZ_SQ_ADDR_HI_ADDR] },
  { off := 0x10, stride := 0, count := 1, flds := [R.QZ_CFG_SQ_LOG2, R.QZ_CFG_CQ_LOG2, R.QZ_CFG_VECTOR, R.QZ_CFG_COAL_COUNT, R.QZ_CFG_COAL_TIME] },
  { off := 0x14, stride := 0, count := 1, flds := [R.QZ_CTRL_ENABLE] },
  { off := 0x18, stride := 0, count := 1, flds := [R.QZ_STATUS_READY, R.QZ_STATUS_CFG_ERR] },
  { off := 0x8, stride := 0, count := 1, flds := [R.QZ_CQ_ADDR_LO_ADDR] },
  { off := 0xC, stride := 0, count := 1, flds := [R.QZ_CQ_ADDR_HI_ADDR] }]

/-- The registers of QZ_EVT and QZ_QERR. -/
def regRowsQZE : List RegRow := [

  { off := 0x180, stride := 0, count := 1, flds := [R.QZ_EVT_QERR, R.QZ_EVT_DB_DISABLED, R.QZ_EVT_SEQ] },
  { off := 0x184, stride := 0, count := 1, flds := [R.QZ_QERR_QERR] }]

/-- The registers of chapter 03. -/
def regRows03 : List RegRow := [

  { off := 0x10000, stride := 0, count := 1, flds := [R.PWR_RATE_RATE] },
  { off := 0x10004, stride := 0, count := 1, flds := [R.PWR_VCORE_SETPOINT, R.PWR_VCORE_MEASURED, R.PWR_VCORE_AVS_EN] },
  { off := 0x10008, stride := 0, count := 1, flds := [R.PWR_CAP_CAP] },
  { off := 0x10010, stride := 0, count := 1, flds := [R.PWR_POWER_TOTAL, R.PWR_POWER_TEMP] },
  { off := 0x10014, stride := 0, count := 1, flds := [R.PWR_EVT_DOMAIN_LOST, R.PWR_EVT_DOMAIN_RETURNED, R.PWR_EVT_GATE_DONE, R.PWR_EVT_GATE_SUPERSEDED, R.PWR_EVT_CAP_ACTIVE, R.PWR_EVT_AVS_FAULT, R.PWR_EVT_SEQ] },
  { off := 0x10020, stride := 0, count := 1, flds := [R.PWR_DOM_REQ_DOMAIN, R.PWR_DOM_REQ_TARGET, R.PWR_DOM_REQ_RESULT] },
  { off := 0x10100, stride := 4, count := 60, flds := [R.PWR_DOM_STAT_STATE, R.PWR_DOM_STAT_WORLD, R.PWR_DOM_STAT_PENDING, R.PWR_DOM_STAT_PEND_WORLD, R.PWR_DOM_STAT_IDLE_BASK, R.PWR_DOM_STAT_CLAIMS] }]

/-- The registers of chapter 04. -/
def regRows04 : List RegRow := [

  { off := 0x20000, stride := 0, count := 1, flds := [R.BOOT_STATUS_STAGE, R.BOOT_STATUS_COPY, R.BOOT_STATUS_FORMAT, R.BOOT_STATUS_A_RESULT, R.BOOT_STATUS_B_RESULT, R.BOOT_STATUS_XSPI_SINGLE, R.BOOT_STATUS_RECOVERY_CAUSE] },
  { off := 0x20004, stride := 0, count := 1, flds := [R.BOOT_TIME_READY_US] },
  { off := 0x20008, stride := 0, count := 1, flds := [R.BOOT_RESET_KEY] },
  { off := 0x20010, stride := 0, count := 1, flds := [R.BOOT_CTRL_FW_READY] },
  { off := 0x20014, stride := 0, count := 1, flds := [R.BOOT_EVT_COPY_A_BAD, R.BOOT_EVT_COPY_B_BAD, R.BOOT_EVT_SINGLE_FALLBACK, R.BOOT_EVT_PWRGD_LOW, R.BOOT_EVT_PT_DONE, R.BOOT_EVT_PT_ERROR, R.BOOT_EVT_SEQ] },
  { off := 0x20020, stride := 0, count := 1, flds := [R.BOOT_PT_CMD_CMD, R.BOOT_PT_CMD_DIR, R.BOOT_PT_CMD_ADDR_EN, R.BOOT_PT_CMD_DUMMY, R.BOOT_PT_CMD_LEN] },
  { off := 0x20024, stride := 0, count := 1, flds := [R.BOOT_PT_ADDR_ADDR] },
  { off := 0x20028, stride := 0, count := 1, flds := [R.BOOT_PT_GO_GO] },
  { off := 0x2002C, stride := 0, count := 1, flds := [R.BOOT_PT_STAT_BUSY, R.BOOT_PT_STAT_RESULT] },
  { off := 0x20100, stride := 4, count := 64, flds := [R.BOOT_PT_BUF_DATA] }]

/-- The registers of chapter 05. -/
def regRows05 : List RegRow := [

  { off := 0x0, stride := 0, count := 1, flds := [R.GLB_ID_VENDOR, R.GLB_ID_DEVICE] },
  { off := 0x4, stride := 0, count := 1, flds := [R.GLB_REV_STEPPING, R.GLB_REV_ROM_VER, R.GLB_REV_EVOLIN_MINOR, R.GLB_REV_EVOLIN_MAJOR, R.GLB_REV_SOADE_MINOR, R.GLB_REV_SOADE_MAJOR] },
  { off := 0x8, stride := 0, count := 1, flds := [R.GLB_STATUS_READY, R.GLB_STATUS_RECOVERY, R.GLB_STATUS_SUSPENDED, R.GLB_STATUS_ENT_READY, R.GLB_STATUS_TWIN_UP, R.GLB_STATUS_ALARM, R.GLB_STATUS_RESPONSE] },
  { off := 0xC, stride := 0, count := 1, flds := [R.GLB_EVT_CAPACITY, R.GLB_EVT_STATUS, R.GLB_EVT_SEQ] },
  { off := 0x10, stride := 0, count := 1, flds := [R.GLB_CAPACITY_LATTICE, R.GLB_CAPACITY_HASH, R.GLB_CAPACITY_BIGNUM, R.GLB_CAPACITY_CODE, R.GLB_CAPACITY_SYM, R.GLB_CAPACITY_ENTROPY, R.GLB_CAPACITY_CORES, R.GLB_CAPACITY_LAT_SPARE] },
  { off := 0x14, stride := 0, count := 1, flds := [R.GLB_CAPACITY_SLOTS_SLOTS, R.GLB_CAPACITY_SLOTS_SPARES] },
  { off := 0x18, stride := 0, count := 1, flds := [R.GLB_GUARD_EVT_GUARD_FAIL, R.GLB_GUARD_EVT_SEQ] },
  { off := 0x1C, stride := 0, count := 1, flds := [R.GLB_GUARD_INFO_OFFSET, R.GLB_GUARD_INFO_CLASS, R.GLB_GUARD_INFO_CAUSE] },
  { off := 0x20, stride := 0, count := 1, flds := [R.GLB_GUARD_COUNT_COUNT] },
  { off := 0x40, stride := 0, count := 1, flds := [R.GLB_SERIAL_SERIAL] },
  { off := 0x48, stride := 0, count := 1, flds := [R.GLB_BUILD_ID_BUILD_ID] },
  { off := 0x100, stride := 0, count := 1, flds := [R.GLB_WIDE_SEL_OFFSET] },
  { off := 0x104, stride := 0, count := 1, flds := [R.GLB_WIDE_VALID_VALID, R.GLB_WIDE_VALID_ERR, R.GLB_WIDE_VALID_OFFSET] },
  { off := 0x110, stride := 4, count := 8, flds := [R.GLB_WIDE_DATA_DATA] }]

/-- The registers of chapter 06. -/
def regRows06 : List RegRow := [

  { off := 0x100000, stride := 0, count := 1, flds := [R.PE_LINK_SPEED, R.PE_LINK_WIDTH, R.PE_LINK_DL_UP, R.PE_LINK_L1, R.PE_LINK_LANE_REV, R.PE_LINK_VF_ENABLED, R.PE_LINK_VF_ACTIVE] },
  { off := 0x100004, stride := 0, count := 1, flds := [R.PE_EVT_LINK_DOWN, R.PE_EVT_LINK_UP, R.PE_EVT_PERST, R.PE_EVT_FLR_PF, R.PE_EVT_FLR_VF, R.PE_EVT_VF_ENABLE, R.PE_EVT_AER_CORR, R.PE_EVT_AER_UNCORR, R.PE_EVT_MIG_OVERFLOW, R.PE_EVT_DOORBELL_DROP, R.PE_EVT_SPEED_CHANGE, R.PE_EVT_SEQ] },
  { off := 0x100008, stride := 0, count := 1, flds := [R.PE_POOL_QP_FREE, R.PE_POOL_VEC_FREE] },
  { off := 0x10000C, stride := 0, count := 1, flds := [R.PE_POOL_SLOTS_UNRESERVED] },
  { off := 0x100010, stride := 0, count := 1, flds := [R.PE_POOL_OBJ_UNRESERVED] },
  { off := 0x100400, stride := 4, count := 128, flds := [R.PE_MIG_HEAD_HEAD] },
  { off := 0x101000, stride := 4, count := 256, flds := [R.PE_EVMAP_VECTOR, R.PE_EVMAP_ENABLE] },
  { off := 0x200000, stride := 0, count := 1, flds := [R.VFS_ID_VF, R.VFS_ID_PORT] },
  { off := 0x200004, stride := 0, count := 1, flds := [R.VFS_STATE_STATE, R.VFS_STATE_SUSPENDED, R.VFS_STATE_MIG_ON, R.VFS_STATE_MIG_OVERFLOW] },
  { off := 0x200008, stride := 0, count := 1, flds := [R.VFS_OWNER_OWNER] },
  { off := 0x20000C, stride := 0, count := 1, flds := [R.VFS_RES_QP_COUNT, R.VFS_RES_VEC_COUNT, R.VFS_RES_WEIGHT] },
  { off := 0x200010, stride := 0, count := 1, flds := [R.VFS_SLOTS_USED, R.VFS_SLOTS_LIMIT] },
  { off := 0x200014, stride := 0, count := 1, flds := [R.VFS_OBJECTS_USED] },
  { off := 0x200018, stride := 0, count := 1, flds := [R.VFS_OBJ_LIMIT_LIMIT] }]

/-- The registers of chapter 07. -/
def regRows07 : List RegRow := [

  { off := 0xC0000, stride := 0, count := 1, flds := [R.DSP_STATUS_CTX_USED, R.DSP_STATUS_INFLIGHT, R.DSP_STATUS_CQ_EN] },
  { off := 0xC0004, stride := 0, count := 1, flds := [R.DSP_EVT_CTX_FULL, R.DSP_EVT_CQ_WAIT, R.DSP_EVT_HANDOVER_LOST, R.DSP_EVT_BAD_RETURN, R.DSP_EVT_SEQ] },
  { off := 0xC0008, stride := 0, count := 1, flds := [R.DSP_CMDS_COUNT] },
  { off := 0xC0020, stride := 4, count := 5, flds := [R.DSP_WAIT_WAITING] },
  { off := 0xC0100, stride := 32, count := 2, flds := [R.DSP_CQ_HBASE_ADDR] },
  { off := 0xC0104, stride := 32, count := 2, flds := [R.DSP_CQ_RBASE_ADDR] },
  { off := 0xC0108, stride := 32, count := 2, flds := [R.DSP_CQ_CFG_LOG2, R.DSP_CQ_CFG_CFG_ERR, R.DSP_CQ_CFG_ENABLE] },
  { off := 0xC010C, stride := 32, count := 2, flds := [R.DSP_CQ_HTAIL_TAIL] },
  { off := 0xC0110, stride := 32, count := 2, flds := [R.DSP_CQ_HHEAD_HEAD] },
  { off := 0xC0114, stride := 32, count := 2, flds := [R.DSP_CQ_RTAIL_TAIL] },
  { off := 0xC0118, stride := 32, count := 2, flds := [R.DSP_CQ_RHEAD_HEAD] }]

/-- The registers of chapter 08. -/
def regRows08 : List RegRow := [

  { off := 0x140000, stride := 4, count := 4, flds := [R.CCS_PAIR_STATE, R.CCS_PAIR_WORLD, R.CCS_PAIR_LEVEL, R.CCS_PAIR_SELFTEST_OK, R.CCS_PAIR_LOCKSTEP] },
  { off := 0x140010, stride := 0, count := 1, flds := [R.CCS_NSTART_START] },
  { off := 0x140018, stride := 0, count := 1, flds := [R.CCS_NRESET_PAIR] },
  { off := 0x140020, stride := 0, count := 1, flds := [R.CCS_EVT_FENCED, R.CCS_EVT_SELFTEST_FAIL, R.CCS_EVT_NRESET_DONE, R.CCS_EVT_SEQ] },
  { off := 0x140024, stride := 0, count := 1, flds := [R.CCS_LS_INFO_PAIR, R.CCS_LS_INFO_KIND, R.CCS_LS_INFO_LEVEL, R.CCS_LS_INFO_COUNT] },
  { off := 0x140028, stride := 0, count := 1, flds := [R.CCS_LS_PC_PC] }]

/-- The registers of chapter 09. -/
def regRows09 : List RegRow := [

  { off := 0x90000, stride := 0, count := 1, flds := [R.WLD_SRAM_WM_WM] },
  { off := 0x90004, stride := 0, count := 1, flds := [R.WLD_DDR_WM_WM] },
  { off := 0x90008, stride := 0, count := 1, flds := [R.WLD_SCODE_BASE, R.WLD_SCODE_LAST, R.WLD_SCODE_EN] },
  { off := 0x9000C, stride := 0, count := 1, flds := [R.WLD_NCODE_BASE, R.WLD_NCODE_LAST, R.WLD_NCODE_EN] },
  { off := 0x90010, stride := 0, count := 1, flds := [R.WLD_DBG_SET, R.WLD_DBG_EFF, R.WLD_DBG_LC_ALLOW] },
  { off := 0x90020, stride := 0, count := 1, flds := [R.WLD_GPIO_IN_GPIO] },
  { off := 0x90024, stride := 0, count := 1, flds := [R.WLD_GPIO_OUT_GPIO] },
  { off := 0x90028, stride := 0, count := 1, flds := [R.WLD_GPIO_OE_GPIO] },
  { off := 0x90030, stride := 0, count := 1, flds := [R.WLD_NW_QUOTA_SLOT_LIMIT, R.WLD_NW_QUOTA_OBJ_LIMIT] },
  { off := 0x90400, stride := 4, count := 64, flds := [R.WLD_NQ_BIND_OWNER, R.WLD_NQ_BIND_WEIGHT, R.WLD_NQ_BIND_POOL_QP, R.WLD_NQ_BIND_BOUND, R.WLD_NQ_BIND_RESULT] },
  { off := 0x91804, stride := 0, count := 1, flds := [R.WLD_NQ_QERR0_QERR] },
  { off := 0x91808, stride := 0, count := 1, flds := [R.WLD_NQ_QERR1_QERR] },
  { off := 0xA0000, stride := 4, count := 16, flds := [R.MBX_DATA_DATA] },
  { off := 0xA0040, stride := 0, count := 1, flds := [R.MBX_HDR0_LEN, R.MBX_HDR0_TAG, R.MBX_HDR0_MSEQ] },
  { off := 0xA0044, stride := 0, count := 1, flds := [R.MBX_HDR1_CLASS, R.MBX_HDR1_LEVEL, R.MBX_HDR1_WORLD, R.MBX_HDR1_COLLISION, R.MBX_HDR1_MIXED, R.MBX_HDR1_FULL] },
  { off := 0xA0048, stride := 0, count := 1, flds := [R.MBX_SEND_LEN, R.MBX_SEND_TAG] },
  { off := 0xA004C, stride := 0, count := 1, flds := [R.MBX_ACK_MSEQ] },
  { off := 0xA0050, stride := 0, count := 1, flds := [R.MBX_RXEVT_RECEIVED, R.MBX_RXEVT_COLLISION, R.MBX_RXEVT_SEQ] },
  { off := 0xA0054, stride := 0, count := 1, flds := [R.MBX_TXEVT_EMPTIED, R.MBX_TXEVT_SEQ] },
  { off := 0xA1000, stride := 0, count := 1, flds := [R.MBX_WAKE_WAKE] },
  { off := 0xA1004, stride := 0, count := 1, flds := [R.MBX_FULL_FULL] },
  { off := 0x91800, stride := 0, count := 1, flds := [R.WLD_NQ_EVT_QERR, R.WLD_NQ_EVT_DB_DISABLED, R.WLD_NQ_EVT_SEQ] }]

/-- The registers of chapter 10. -/
def regRows10 : List RegRow := [

  { off := 0x80000, stride := 0, count := 1, flds := [R.ACT_CTRL_UPDATE, R.ACT_CTRL_LOCK] },
  { off := 0x80008, stride := 0, count := 1, flds := [R.ACT_STATUS_UPDATING, R.ACT_STATUS_LOCKED, R.ACT_STATUS_HELD, R.ACT_STATUS_ENABLED] },
  { off := 0x8000C, stride := 0, count := 1, flds := [R.ACT_EVT_VIOLATION, R.ACT_EVT_DEBUG_VIOL, R.ACT_EVT_HOLD_TIMEOUT, R.ACT_EVT_UPDATE_DONE, R.ACT_EVT_SEQ] },
  { off := 0x80010, stride := 0, count := 1, flds := [R.ACT_VIOL_INFO_CLASS, R.ACT_VIOL_INFO_WORLD, R.ACT_VIOL_INFO_KIND, R.ACT_VIOL_INFO_SOURCE, R.ACT_VIOL_INFO_ENTRY] },
  { off := 0x80018, stride := 0, count := 1, flds := [R.ACT_VIOL_ADDR_ADDR] },
  { off := 0x80020, stride := 0, count := 1, flds := [R.ACT_VIOL_COUNT_COUNT] },
  { off := 0x81000, stride := 32, count := 256, flds := [R.ACT_ENT0_BASE_LO] },
  { off := 0x81004, stride := 32, count := 256, flds := [R.ACT_ENT1_BASE_HI] },
  { off := 0x81008, stride := 32, count := 256, flds := [R.ACT_ENT2_LIMIT_FIX, R.ACT_ENT2_LIMIT_LO] },
  { off := 0x8100C, stride := 32, count := 256, flds := [R.ACT_ENT3_LIMIT_HI] },
  { off := 0x81010, stride := 32, count := 256, flds := [R.ACT_ENT4_PERM_LO] },
  { off := 0x81014, stride := 32, count := 256, flds := [R.ACT_ENT5_PERM_HI] },
  { off := 0x81018, stride := 32, count := 256, flds := [R.ACT_ENT6_ENABLE] }]

/-- The registers of chapter 11. -/
def regRows11 : List RegRow := [

  { off := 0xB0000, stride := 0, count := 1, flds := [R.MEM_CFG_PRESENT, R.MEM_CFG_WIDTH, R.MEM_CFG_RANKS, R.MEM_CFG_RATE, R.MEM_CFG_CAP_GIB] },
  { off := 0xB0004, stride := 0, count := 1, flds := [R.MEM_STATUS_STATE, R.MEM_STATUS_CAUSE] },
  { off := 0xB0008, stride := 0, count := 1, flds := [R.MEM_FILL_FRONT_MIB, R.MEM_FILL_OOO, R.MEM_FILL_DONE] },
  { off := 0xB000C, stride := 0, count := 1, flds := [R.MEM_EVT_CE, R.MEM_EVT_UE, R.MEM_EVT_RMW_FAIL, R.MEM_EVT_TRAIN_FAIL, R.MEM_EVT_FILL_DONE, R.MEM_EVT_SCRUB_PASS, R.MEM_EVT_SCRUB_LATE, R.MEM_EVT_ALERT_RETRY, R.MEM_EVT_SEQ] },
  { off := 0xB0010, stride := 0, count := 1, flds := [R.MEM_CE_COUNT_COUNT] },
  { off := 0xB0014, stride := 0, count := 1, flds := [R.MEM_UE_COUNT_COUNT] },
  { off := 0xB0018, stride := 0, count := 1, flds := [R.MEM_ERR_INFO_KIND, R.MEM_ERR_INFO_SUBCH, R.MEM_ERR_INFO_POS, R.MEM_ERR_INFO_SCRUB] },
  { off := 0xB0020, stride := 0, count := 1, flds := [R.MEM_ERR_ADDR_ADDR] },
  { off := 0xB0028, stride := 0, count := 1, flds := [R.MEM_SCRUB_PROGRESS, R.MEM_SCRUB_PASSES] },
  { off := 0xB2000, stride := 0, count := 1, flds := [R.MEM_OBJ_CAP_CAP] }]

/-- The registers of chapter 12. -/
def regRows12 : List RegRow := [

  { off := 0x70000, stride := 0, count := 1, flds := [R.KS_STATUS_USED, R.KS_STATUS_DEFECTIVE, R.KS_STATUS_MOLT_RUN] },
  { off := 0x70004, stride := 0, count := 1, flds := [R.KS_EVT_SLOT_DEFECT, R.KS_EVT_REGROWTH, R.KS_EVT_SPARES_OUT, R.KS_EVT_MOLT_LATE, R.KS_EVT_OWNER_CHANGE, R.KS_EVT_RESTORED, R.KS_EVT_SEQ] },
  { off := 0x70008, stride := 0, count := 1, flds := [R.KS_MOLT_INTERVAL_MS, R.KS_MOLT_PASSES] },
  { off := 0x7000C, stride := 0, count := 1, flds := [R.KS_DEFECT_INFO_PSLOT, R.KS_DEFECT_INFO_SHARE, R.KS_DEFECT_INFO_AT_USE, R.KS_DEFECT_INFO_OWNER] },
  { off := 0x70010, stride := 0, count := 1, flds := [R.KS_OWNERS_LOADED, R.KS_OWNERS_APPROVALS] }]

/-- The registers of chapter 13. -/
def regRows13 : List RegRow := [

  { off := 0x60000, stride := 0, count := 1, flds := [R.ENT_STATUS_READY, R.ENT_STATUS_FAILED, R.ENT_STATUS_IN_SERVICE, R.ENT_STATUS_WAITING] },
  { off := 0x60004, stride := 0, count := 1, flds := [R.ENT_EVT_READY, R.ENT_EVT_ALL_FAILED, R.ENT_EVT_STARVED, R.ENT_EVT_SEQ] },
  { off := 0x60008, stride := 0, count := 1, flds := [R.ENT_FAIL_INFO_QUAD, R.ENT_FAIL_INFO_CELL, R.ENT_FAIL_INFO_TEST, R.ENT_FAIL_INFO_STARTUP] },
  { off := 0x60010, stride := 0, count := 1, flds := [R.ENT_DRAWN_BYTES] },
  { off := 0x60020, stride := 0, count := 1, flds := [R.ENT_CAP_CTRL_QUAD, R.ENT_CAP_CTRL_MODE, R.ENT_CAP_CTRL_CELL, R.ENT_CAP_CTRL_GO] },
  { off := 0x60024, stride := 0, count := 1, flds := [R.ENT_CAP_ADDR_ADDR] },
  { off := 0x60028, stride := 0, count := 1, flds := [R.ENT_CAP_LEN_LEN_KIB] },
  { off := 0x6002C, stride := 0, count := 1, flds := [R.ENT_CAP_STAT_BUSY, R.ENT_CAP_STAT_RESULT] },
  { off := 0x60100, stride := 4, count := 4, flds := [R.ENT_QSTAT_STATE, R.ENT_QSTAT_QUAR] },
  { off := 0x60140, stride := 4, count := 4, flds := [R.ENT_QEVT_FAIL, R.ENT_QEVT_JOINED, R.ENT_QEVT_CAP_DONE, R.ENT_QEVT_SEQ] }]

/-- The registers of chapter 14. -/
def regRows14 : List RegRow := [

  { off := 0xD0000, stride := 4, count := 18, flds := [R.LAT_TILE_STATE, R.LAT_TILE_SELECTED, R.LAT_TILE_LAST_OWNER, R.LAT_TILE_CAUSE, R.LAT_TILE_NEXT_KEM, R.LAT_TILE_NEXT_DSA] },
  { off := 0xD0080, stride := 4, count := 18, flds := [R.LAT_UEVT_DONE, R.LAT_UEVT_FAULT, R.LAT_UEVT_FENCED, R.LAT_UEVT_SEQ] },
  { off := 0xD0100, stride := 0, count := 1, flds := [R.LAT_EVT_ROTATE, R.LAT_EVT_REGROWTH, R.LAT_EVT_SPARE_OUT, R.LAT_EVT_SAMPLER_EXT, R.LAT_EVT_RESTART, R.LAT_EVT_ATTEMPT_LIMIT, R.LAT_EVT_SEQ] },
  { off := 0xD0104, stride := 0, count := 1, flds := [R.LAT_FAULT_INFO_TILE, R.LAT_FAULT_INFO_CAUSE, R.LAT_FAULT_INFO_IN_SERVICE, R.LAT_FAULT_INFO_TEST, R.LAT_FAULT_INFO_SET] },
  { off := 0xD0108, stride := 0, count := 1, flds := [R.LAT_ROTATE_TESTING, R.LAT_ROTATE_SPARE, R.LAT_ROTATE_SERVING, R.LAT_ROTATE_SUSPENDED, R.LAT_ROTATE_PASSES] },
  { off := 0xD0110, stride := 0, count := 1, flds := [R.LAT_ATTEMPTS_COUNT] },
  { off := 0xD0118, stride := 0, count := 1, flds := [R.LAT_SIGNS_COUNT] }]

/-- The registers of chapter 15. -/
def regRows15 : List RegRow := [

  { off := 0xE0000, stride := 4, count := 9, flds := [R.HSH_TILE_STATE, R.HSH_TILE_BUSY, R.HSH_TILE_HELD, R.HSH_TILE_TILE_CMD, R.HSH_TILE_SELECTED, R.HSH_TILE_CAUSE, R.HSH_TILE_NEXT_SLH] },
  { off := 0xE0080, stride := 4, count := 9, flds := [R.HSH_UEVT_DONE, R.HSH_UEVT_FAULT, R.HSH_UEVT_FENCED, R.HSH_UEVT_SEQ] },
  { off := 0xE0100, stride := 0, count := 1, flds := [R.HSH_EVT_ROTATE, R.HSH_EVT_RESTART, R.HSH_EVT_CMP_FAULT, R.HSH_EVT_SEQ] },
  { off := 0xE0104, stride := 0, count := 1, flds := [R.HSH_FAULT_INFO_TILE, R.HSH_FAULT_INFO_CAUSE, R.HSH_FAULT_INFO_IN_SERVICE, R.HSH_FAULT_INFO_TEST, R.HSH_FAULT_INFO_LANE] },
  { off := 0xE0108, stride := 0, count := 1, flds := [R.HSH_ROTATE_TESTING, R.HSH_ROTATE_SERVING, R.HSH_ROTATE_SUSPENDED, R.HSH_ROTATE_PASSES] },
  { off := 0xE0110, stride := 0, count := 1, flds := [R.HSH_BYTES_COUNT] },
  { off := 0xE0200, stride := 4, count := 36, flds := [R.HSH_LANE_LAST_OWNER, R.HSH_LANE_MODE, R.HSH_LANE_MASKED, R.HSH_LANE_SNOOP] }]

/-- The registers of chapter 16. -/
def regRows16 : List RegRow := [

  { off := 0xF0000, stride := 4, count := 5, flds := [R.BNE_UNIT_STATE, R.BNE_UNIT_SELECTED, R.BNE_UNIT_LAST_OWNER, R.BNE_UNIT_CAUSE, R.BNE_UNIT_LONG, R.BNE_UNIT_NEXT_ECC, R.BNE_UNIT_NEXT_RSA, R.BNE_UNIT_NEXT_ED] },
  { off := 0xF0080, stride := 4, count := 5, flds := [R.BNE_UEVT_DONE, R.BNE_UEVT_FAULT, R.BNE_UEVT_FENCED, R.BNE_UEVT_SEQ] },
  { off := 0xF0100, stride := 0, count := 1, flds := [R.BNE_EVT_ROTATE, R.BNE_EVT_RESTART, R.BNE_EVT_ATTEMPT_LIMIT, R.BNE_EVT_REJECT, R.BNE_EVT_SEQ] },
  { off := 0xF0104, stride := 0, count := 1, flds := [R.BNE_FAULT_INFO_UNIT, R.BNE_FAULT_INFO_CAUSE, R.BNE_FAULT_INFO_IN_SERVICE, R.BNE_FAULT_INFO_TEST] },
  { off := 0xF0108, stride := 0, count := 1, flds := [R.BNE_ROTATE_TESTING, R.BNE_ROTATE_SERVING, R.BNE_ROTATE_SUSPENDED, R.BNE_ROTATE_PASSES] },
  { off := 0xF010C, stride := 0, count := 1, flds := [R.BNE_CTRL_LONG_MAX] },
  { off := 0xF0110, stride := 0, count := 1, flds := [R.BNE_REJECTS_COUNT] },
  { off := 0xF4000, stride := 4, count := 3, flds := [R.CBE_ENGINE_STATE, R.CBE_ENGINE_SELECTED, R.CBE_ENGINE_LAST_OWNER, R.CBE_ENGINE_CAUSE, R.CBE_ENGINE_PK_RES, R.CBE_ENGINE_SK_RES, R.CBE_ENGINE_LONG, R.CBE_ENGINE_NEXT_SET] },
  { off := 0xF4100, stride := 0, count := 1, flds := [R.CBE_EVT_ROTATE, R.CBE_EVT_RESTART, R.CBE_EVT_ATTEMPT_LIMIT, R.CBE_EVT_SEQ] },
  { off := 0xF4104, stride := 0, count := 1, flds := [R.CBE_FAULT_INFO_ENGINE, R.CBE_FAULT_INFO_CAUSE, R.CBE_FAULT_INFO_IN_SERVICE, R.CBE_FAULT_INFO_TEST] },
  { off := 0xF4108, stride := 0, count := 1, flds := [R.CBE_ROTATE_TESTING, R.CBE_ROTATE_SERVING, R.CBE_ROTATE_SUSPENDED, R.CBE_ROTATE_PASSES] },
  { off := 0xF410C, stride := 0, count := 1, flds := [R.CBE_CTRL_LONG_MAX] },
  { off := 0xF4200, stride := 8, count := 3, flds := [R.CBE_PK_RES_HANDLE] },
  { off := 0xF4220, stride := 8, count := 3, flds := [R.CBE_SK_RES_HANDLE] },
  { off := 0xF4240, stride := 0, count := 1, flds := [R.CBE_HITS_COUNT] },
  { off := 0xF4080, stride := 4, count := 3, flds := [R.CBE_UEVT_DONE, R.CBE_UEVT_FAULT, R.CBE_UEVT_FENCED, R.CBE_UEVT_SEQ] }]

/-- The registers of chapter 17. -/
def regRows17 : List RegRow := [

  { off := 0xF8000, stride := 4, count := 9, flds := [R.SYM_LANE_STATE, R.SYM_LANE_SELECTED, R.SYM_LANE_LAST_OWNER, R.SYM_LANE_CAUSE, R.SYM_LANE_WORK] },
  { off := 0xF8100, stride := 0, count := 1, flds := [R.SYM_EVT_ROTATE, R.SYM_EVT_RESTART, R.SYM_EVT_CMP_FAULT, R.SYM_EVT_SEQ] },
  { off := 0xF8104, stride := 0, count := 1, flds := [R.SYM_FAULT_INFO_LANE, R.SYM_FAULT_INFO_CAUSE, R.SYM_FAULT_INFO_IN_SERVICE, R.SYM_FAULT_INFO_TEST] },
  { off := 0xF8108, stride := 0, count := 1, flds := [R.SYM_ROTATE_TESTING, R.SYM_ROTATE_SERVING, R.SYM_ROTATE_SUSPENDED, R.SYM_ROTATE_PASSES] },
  { off := 0xF8110, stride := 0, count := 1, flds := [R.SYM_BYTES_COUNT] },
  { off := 0xF8080, stride := 4, count := 9, flds := [R.SYM_UEVT_DONE, R.SYM_UEVT_FAULT, R.SYM_UEVT_FENCED, R.SYM_UEVT_SEQ] }]

/-- The registers of chapter 18. -/
def regRows18 : List RegRow := [

  { off := 0x30000, stride := 0, count := 1, flds := [R.LC_STATE_STATE, R.LC_STATE_INV_CAUSE, R.LC_STATE_NEXT, R.LC_STATE_KILLED, R.LC_STATE_TRANSITIONED] },
  { off := 0x30004, stride := 0, count := 1, flds := [R.LC_TARGET_TARGET] },
  { off := 0x30010, stride := 4, count := 4, flds := [R.LC_TOKEN_TOKEN] },
  { off := 0x30020, stride := 0, count := 1, flds := [R.LC_STATUS_BUSY, R.LC_STATUS_RESULT, R.LC_STATUS_RESERVE_OK, R.LC_STATUS_FAILS, R.LC_STATUS_PATH] },
  { off := 0x30024, stride := 0, count := 1, flds := [R.LC_EVT_DONE, R.LC_EVT_REFUSED, R.LC_EVT_TOKEN_FAIL, R.LC_EVT_REPAIRED, R.LC_EVT_REPAIR_FAIL, R.LC_EVT_SEQ] }]

/-- The registers of chapter 19. -/
def regRows19 : List RegRow := [

  { off := 0x40000, stride := 0, count := 1, flds := [R.TMP_FLAGS_SRC] },
  { off := 0x40004, stride := 0, count := 1, flds := [R.TMP_ACTED_SRC] },
  { off := 0x40008, stride := 0, count := 1, flds := [R.TMP_COND_SRC] },
  { off := 0x40010, stride := 0, count := 1, flds := [R.TMP_AEVT0_SRC, R.TMP_AEVT0_SEQ] },
  { off := 0x40014, stride := 0, count := 1, flds := [R.TMP_AEVT1_SRC, R.TMP_AEVT1_SEQ] },
  { off := 0x40018, stride := 4, count := 3, flds := [R.TMP_RESP_CODE] },
  { off := 0x40024, stride := 0, count := 1, flds := [R.TMP_BKP_STATUS_LOOP_EN, R.TMP_BKP_STATUS_BBK_VALID, R.TMP_BKP_STATUS_ON_VBAT, R.TMP_BKP_STATUS_BKP_LOST, R.TMP_BKP_STATUS_XTAL_STOP, R.TMP_BKP_STATUS_VBAT_MV] },
  { off := 0x40028, stride := 0, count := 1, flds := [R.TMP_FLAG_CLR_SRC] },
  { off := 0x40030, stride := 0, count := 1, flds := [R.TMP_RESUME_KEY] },
  { off := 0x40038, stride := 0, count := 1, flds := [R.TMP_STATUS_RESPONSE, R.TMP_STATUS_SUSPENDED, R.TMP_STATUS_PURGING, R.TMP_STATUS_RESUME_RESULT] },
  { off := 0x40040, stride := 0, count := 1, flds := [R.TMP_TIME_TICKS] },
  { off := 0x40048, stride := 0, count := 1, flds := [R.TMP_HOURS_COUNT] },
  { off := 0x4004C, stride := 0, count := 1, flds := [R.TMP_CYCLES_COUNT] },
  { off := 0x40100, stride := 8, count := 24, flds := [R.TMP_FLAG_TIME_TICKS] }]

/-- The registers of chapter 20. -/
def regRows20 : List RegRow := [

  { off := 0x50000, stride := 0, count := 1, flds := [R.EVR_STATUS_STORED, R.EVR_STATUS_FULL, R.EVR_STATUS_CLEARING, R.EVR_STATUS_QUEUED] },
  { off := 0x50004, stride := 0, count := 1, flds := [R.EVR_EVT_STORED, R.EVR_EVT_FULL, R.EVR_EVT_OVERWRITE, R.EVR_EVT_DROPPED, R.EVR_EVT_CLEARED, R.EVR_EVT_CLEAR_REFUSED, R.EVR_EVT_EXP_DONE, R.EVR_EVT_SEQ] },
  { off := 0x50008, stride := 0, count := 1, flds := [R.EVR_NEXT_SEQ_SEQ] },
  { off := 0x5000C, stride := 0, count := 1, flds := [R.EVR_DROPPED_COUNT] },
  { off := 0x50010, stride := 0, count := 1, flds := [R.EVR_OVERWR_COUNT] },
  { off := 0x50014, stride := 0, count := 1, flds := [R.EVR_FILTERED_COUNT] },
  { off := 0x50020, stride := 0, count := 1, flds := [R.EVR_CLR_UPTO_UPTO] },
  { off := 0x50024, stride := 0, count := 1, flds := [R.EVR_CLEAR_APPROVAL_ID] },
  { off := 0x5002C, stride := 0, count := 1, flds := [R.EVR_CLR_STATUS_RESULT, R.EVR_CLR_STATUS_REMOVED] },
  { off := 0x50040, stride := 0, count := 1, flds := [R.EVR_RD_SEL_SLOT] },
  { off := 0x50044, stride := 0, count := 1, flds := [R.EVR_RD_VALID_VALID, R.EVR_RD_VALID_SLOT] },
  { off := 0x50080, stride := 4, count := 16, flds := [R.EVR_RD_DATA_DATA] },
  { off := 0x50100, stride := 0, count := 1, flds := [R.EVR_EXP_ADDR_LO_ADDR] },
  { off := 0x50104, stride := 0, count := 1, flds := [R.EVR_EXP_ADDR_HI_ADDR] },
  { off := 0x50108, stride := 0, count := 1, flds := [R.EVR_EXP_FROM_SEQ] },
  { off := 0x5010C, stride := 0, count := 1, flds := [R.EVR_EXP_CTRL_COUNT, R.EVR_EXP_CTRL_GO] },
  { off := 0x50110, stride := 0, count := 1, flds := [R.EVR_EXP_STAT_BUSY, R.EVR_EXP_STAT_RESULT, R.EVR_EXP_STAT_WRITTEN] },
  { off := 0x50114, stride := 0, count := 1, flds := [R.EVR_EXP_LAST_SEQ] }]

/-- The registers of chapter 21. -/
def regRows21 : List RegRow := [

  { off := 0x120000, stride := 0, count := 1, flds := [R.TWN_STATUS_STATE, R.TWN_STATUS_ROLE, R.TWN_STATUS_PRESENT, R.TWN_STATUS_SIDEBAND, R.TWN_STATUS_VER_MINOR, R.TWN_STATUS_VER_MAJOR, R.TWN_STATUS_SPEED, R.TWN_STATUS_WIDTH, R.TWN_STATUS_MODE] },
  { off := 0x120004, stride := 0, count := 1, flds := [R.TWN_EVT_PAIRED, R.TWN_EVT_PEER_LOST, R.TWN_EVT_LINK_DOWN, R.TWN_EVT_RESYNC_DONE, R.TWN_EVT_BLOB_READY, R.TWN_EVT_PAIR_FAIL, R.TWN_EVT_JOURNAL_FULL, R.TWN_EVT_CONFLICT, R.TWN_EVT_SEQ] },
  { off := 0x120008, stride := 0, count := 1, flds := [R.TWN_PAIR_APPROVAL_ID, R.TWN_PAIR_BLOB, R.TWN_PAIR_JOIN] },
  { off := 0x120010, stride := 0, count := 1, flds := [R.TWN_PAIR_STATUS_BUSY, R.TWN_PAIR_STATUS_RESULT] },
  { off := 0x120018, stride := 0, count := 1, flds := [R.TWN_CSEQ_COUNT] },
  { off := 0x120020, stride := 0, count := 1, flds := [R.TWN_JOURNAL_ENTRIES, R.TWN_JOURNAL_OVERFLOW] },
  { off := 0x120024, stride := 0, count := 1, flds := [R.TWN_LINK_ERR_REPLAYS, R.TWN_LINK_ERR_RETRAINS] },
  { off := 0x120100, stride := 4, count := 27, flds := [R.TWN_BLOB_DATA] }]

/-- The registers of chapter 22. -/
def regRows22 : List RegRow := [

  { off := 0x130000, stride := 4, count := 5, flds := [R.LTS_CTRL_TEST, R.LTS_CTRL_GEN, R.LTS_CTRL_CHK, R.LTS_CTRL_LOOP, R.LTS_CTRL_PATTERN, R.LTS_CTRL_STATE, R.LTS_CTRL_RESULT] },
  { off := 0x130020, stride := 0, count := 1, flds := [R.LTS_USER_PATTERN] },
  { off := 0x131000, stride := 4, count := 200, flds := [R.LTS_LANE_SYNC, R.LTS_LANE_ERRORS] },
  { off := 0x132000, stride := 0, count := 1, flds := [R.LTS_EYE_CTRL_LANE, R.LTS_EYE_CTRL_TOFF, R.LTS_EYE_CTRL_VOFF, R.LTS_EYE_CTRL_DWELL, R.LTS_EYE_CTRL_GO] },
  { off := 0x132004, stride := 0, count := 1, flds := [R.LTS_EYE_RES_BUSY, R.LTS_EYE_RES_DONE, R.LTS_EYE_RES_RESULT, R.LTS_EYE_RES_ERRORS] }]

/-- Every register at a fixed place; windows that repeat are listed once. -/
def regRows : List RegRow :=
  regRows03 ++ regRows04 ++ regRows05 ++ regRows06 ++ regRows07 ++ regRows08 ++ regRows09 ++ regRows10 ++ regRows11 ++ regRows12 ++ regRows13 ++ regRows14 ++ regRows15 ++ regRows16 ++ regRows17 ++ regRows18 ++ regRows19 ++ regRows20 ++ regRows21 ++ regRows22

end Sys2Proof.Machine
end

