-- ==== Sys2Proof/Machine/State.lean ====
section
/-! DEFINITION. The state of the HX960: every register field, every memory and every hidden register of its blocks, as plain data. -/

namespace Sys2Proof.Machine

/-- What a posted write carries: its rank in the write buffer of its port (Table 1-5). -/
inductive WriteKind
  /-- A completion entry. -/
  | completion
  /-- Output data of a command. -/
  | output
  /-- A migration-log record. -/
  | migration
  /-- An export of the event recorder. -/
  | recorder
deriving DecidableEq, Repr

/-- Something the device sends out of itself; the newest is first in `State.out`. (DESIGN CHOICE, log entry 57) -/
inductive Out
  /-- A posted memory write of a function. -/
  | dmaWrite (fn : Fn) (addr : Nat) (data : List Byte) (kind : WriteKind)
  /-- A memory read request of a function. -/
  | dmaRead (fn : Fn) (addr len : Nat)
  /-- An MSI-X message of a vector of a function (R135, R136). -/
  | msix (fn : Fn) (vector : Nat)
  /-- The answer to a configuration request: a value, or Request Retry Status. -/
  | cfg (fn : Fn) (value : Option Nat)
  /-- The answer to a read of the register space or of memory: a value, or an error response. -/
  | answer (who : Requester) (value : Option Nat)
  /-- An Unsupported Request completion of a memory read of a host (R129). -/
  | unsupported (who : Requester)
  /-- A PMBus command to the core regulator (R48). -/
  | pmbus (command value : Nat)
  /-- A raw flash command (R93): CMD, ADDR, LEN, DIR, ADDR_EN, DUMMY, and the data of a command to flash. -/
  | flash (cmd addr len : Nat) (toFlash : Bool) (addrEn dummy : Nat) (data : List Byte)
  /-- A Soade frame to the peer. -/
  | soade (frame : TwinFrame)
  /-- Bits shifted out of the test access port. -/
  | tdo (width value : Nat)
deriving DecidableEq, Repr

/-- The device's input balls and the hidden state of its outputs (chapter 02). READY, ALARM_N and the GPIO words are held in registers. (DESIGN CHOICE, log entries 8 and 61 and 71) -/
structure Pins where
  porN : Bool := false
  pwrgd : Bool := true
  /-- PEA_PERST_N and PEB_PERST_N. -/
  perstNA : Bool := false
  perstNB : Bool := false
  /-- High by its pull-up: no peer. -/
  twPresentN : Bool := true
  /-- TW_ROLE as sampled at the rising edge of POR_N (R37). -/
  twRole : Bool := false
  /-- Level of the strap itself. -/
  twRoleStrap : Bool := false
  /-- The STATUS pulse of GPIO7 is running (R39). -/
  cmdPulse : Bool := false
  /-- Level of GPIO0, the heartbeat output: it starts low and keeps its last level over resets. -/
  beat : Bool := false
  /-- Level of GPIO3, the peer-fault input. -/
  peerFaultIn : Bool := false
  /-- TEST_EN or SCAN_MODE high. -/
  testHigh : Bool := false
  /-- TRST_N; low holds the test access port in reset (R35). -/
  trstN : Bool := false
deriving DecidableEq, Repr

/-- The value half of a guarded write, waiting for its complement (R112). -/
structure GuardPend where
  off : Nat
  val : Nat
  who : Requester
deriving DecidableEq, Repr

/-- Hidden state of the register space (chapter 05). -/
structure Bus where
  /-- Guarded values waiting for their complement. -/
  guards : List GuardPend := []
  /-- Instances of the wide-value mailbox whose snapshot is awaited, with the requester whose checks apply (R107). -/
  wideReq : Tbl (Option Requester) := []
  /-- TIME of the latest guarded-write failures, newest first, at most 16 (GUARD_STORM). -/
  failTimes : List Nat := []
deriving DecidableEq, Repr

/-- A trigger class of the RECORDER section (R91). -/
structure RecClass where
  minSev : Nat
  offs : List Nat
deriving DecidableEq, Repr

/-- The applied configuration image, less what it writes into registers (Table 4-9). (DESIGN CHOICE, log entry 50) -/
structure Cfg where
  /-- EVENT_WORLD by source: 0 secure, 1 normal, 2 both. -/
  eventWorld : Tbl Nat := []
  gpioFunc : List Nat := List.replicate 16 0
  alarmMask : List Nat := List.replicate 16 0
  /-- The recorder's classes; empty when the image has no RECORDER section or is not yet applied. -/
  recorder : List RecClass := []
  floors : List Nat := [12, 6, 3, 1, 6, 2, 3, 3840]
  avsEn : Bool := false
  avsFast : Bool := false
  vceil : Nat := 750
  capW : Nat := 55
  xtalLoad : Nat := 20
  idleUs : Nat := 50
  ssids : List Nat := [0x1E5A, 0, 0x1E5A, 0]
  maxVfA : Nat := 128
  maxVfB : Nat := 128
  portBEn : Bool := true
  dbPresent : Bool := true
  scrubHours : Nat := 24
  /-- MIN_MAJOR, MIN_MINOR, MAX_MAJOR, MAX_MINOR of the TWIN section; empty without one. -/
  twinVers : List Nat := []
  sideband : Bool := false
deriving DecidableEq, Repr

/-- How far the present start has come (chapter 04). BOOT_STATUS.STAGE names the stage. (DESIGN CHOICE, log entry 61) -/
structure Boot where
  /-- A POR_N rise is held until PWRGD goes high (R68). -/
  held : Bool := false
  /-- A warm reset's start is held until a life-cycle transition has ended (R440). -/
  heldWarm : Bool := false
  /-- Step 3 reached: the main supervisor runs. -/
  alive : Bool := false
  /-- Step 7 done: the DDR scrambling key and the context key are drawn. -/
  keysDrawn : Bool := false
  /-- Step 10 done: the configuration is applied and locked. -/
  applied : Bool := false
  /-- Step 11 done. -/
  katDone : Bool := false
  /-- The 900 ms limit of R71 has passed. -/
  limit : Bool := false
  /-- The header of copy A failed in 8D-8D-8D mode (R78). -/
  headerBadA : Bool := false
  /-- IMAGE_AUTH has been raised in this start (R80). -/
  authRaised : Bool := false
  /-- The hash tile that snoops the image (R89). -/
  snoopTile : Option Nat := none
  /-- TIME of the start reference (BOOT_TIME). -/
  startTime : Nat := 0
  /-- The PFs answer configuration requests normally (R71, R81). -/
  cfgOpen : Bool := false
  /-- Entry points of the firmware of the copy in use. -/
  secureEntry : Nat := 0
  normalEntry : Option Nat := none
  /-- Certificates of the IDENTITY section, root first. -/
  identity : List (List Byte) := []
  /-- Pass-through command in progress: CMD, ADDR, LEN and DIR as issued. -/
  ptCmd : Option (Nat × Nat × Nat × Bool) := none
deriving DecidableEq, Repr

/-- Hidden state of the power manager (chapter 03). -/
structure Pwr where
  /-- Total power exceeded the cap at the last comparison (edge of CAP_ACTIVE). -/
  overCap : Bool := false
  /-- Unit limit of each pool under R49, by pool number; 0 for none. -/
  limits : Tbl Nat := []
  /-- Claims held on each domain, unsaturated. -/
  claims : Tbl Nat := []
  /-- Domains that move towards a state: domain to target + 1. -/
  moving : Tbl Nat := []
deriving DecidableEq, Repr

/-- An event record (Table 20-1). -/
structure Rec where
  kind : Nat
  source : Nat
  sev : Nat
  seq : Nat
  time : Nat
  hours : Nat
  cycles : Nat
  arg : Nat
  snaps : List Nat
  snapErr : Nat
deriving DecidableEq, Repr

/-- Hidden state of the event recorder (chapter 20). (DESIGN CHOICE, log entry 8) -/
structure Evr where
  /-- The 2,048 record slots. -/
  slots : Tbl (Option Rec) := []
  /-- Decided records waiting to be stored, oldest first (R470). -/
  queue : List Rec := []
  /-- UPTO of a clearing in progress. -/
  clearing : Option Nat := none
  /-- Instances whose slot copy is awaited (R472). -/
  rdReq : List Nat := []
deriving DecidableEq, Repr

/-- Hidden state of the alarms and of the backup domain (chapter 19). Flags, ACTED, COND and the counters are registers. (DESIGN CHOICE, log entries 5 and 8) -/
structure Tmp where
  /-- The battery-backed key; empty when none is held. -/
  bbk : List Byte := []
  /-- The validity marker of the backup domain (R460). -/
  marker : Bool := false
  /-- Powered time since the last full hour, in SYS_REFCLK periods (R458). -/
  subHour : Nat := 0
  /-- Remainder of the crystal accumulator that advances TMP_TIME. -/
  xtalAcc : Nat := 0
  /-- The shift registers of the four loops (R450). -/
  loops : List (BitVec 16) := [1, 2, 3, 4]
  /-- Sources whose executed response was 1 or higher, as a bit set (R453). -/
  notify : Nat := 0
  /-- The code in force (R454). -/
  inForce : Option Nat := none
  /-- A response of 3 or higher was executed since the last WARM reset, outside steps 3 to 6 (R456). -/
  purged : Bool := false
  /-- Zeroization in progress. -/
  zeroing : Bool := false
  /-- Kill-word programming in progress. -/
  killing : Bool := false
  /-- Alarm sources that an access to DDR5 fired and that are still to be decided, oldest first (R257, R260). -/
  due : List Nat := []
  /-- Main power is present; without it the domain runs on VBAT. -/
  mainPower : Bool := true
deriving DecidableEq, Repr

/-- The kinds of access the table checks (Table 10-2). -/
inductive AccKind | read | write | fetch
deriving DecidableEq, Repr

/-- What an access that waits is part of. -/
inductive HeldBy
  /-- An access of a requester to the register space, to the bit-alias window or to a host's BAR4. -/
  | bus (who : Requester)
  /-- An access of a requester to memory. -/
  | mem (who : Requester)
  /-- The next internal access of a command in flight. -/
  | cmd (id : Nat)
  /-- The dispatcher's read of the return ring of a control queue. -/
  | returns (queue : Nat)
  /-- A write that the dispatcher has posted for the normal world. -/
  | post
  /-- A DDR5 line access of an initiator. -/
  | line (who : Initiator)
deriving DecidableEq, Repr

/-- An access held at the table while UPDATE = 1 (R245), or at a link in L1 (R119). -/
structure HeldAccess where
  cls : Nat
  world : World
  origin : HeldBy
  addr : Nat
  kind : AccKind
  /-- Bytes of a write; the length of a read is `len`. -/
  data : List Byte
  len : Nat
deriving DecidableEq, Repr

/-- Hidden state of one port (chapter 06). -/
structure PortSt where
  /-- VF Enable and NumVFs of the SR-IOV capability. -/
  vfEnable : Bool := false
  numVfs : Nat := 0
  /-- The PF is in D3hot. -/
  d3 : Bool := false
  /-- A function level reset of the PF, a VF Enable clear or a port reset is being carried out. -/
  pfReset : Bool := false
  /-- What the reset in progress was: 0 none, 1 PF FLR, 2 VF Enable cleared, 3 PERST_N, 4 DL_Down. -/
  resetKind : Nat := 0
  /-- The link is training. -/
  training : Bool := false
  /-- Writes of the host that arrived in L1, served in order after L1_EXIT (R101, R119). -/
  l1Held : List HeldAccess := []
  /-- Outputs and completions held while the PF is in D3hot, oldest first (R119). -/
  held : List Out := []
deriving DecidableEq, Repr

/-- Hidden state of one VF; the rest is in its VFS_ registers. -/
structure Vf where
  slotReserve : Nat := 0
  objReserve : Nat := 0
  /-- Queue pairs of the device pool bound to the VF. -/
  poolQps : List Nat := []
  /-- VEC_COUNT: vectors taken from the pool. -/
  vectors : Nat := 0
  /-- Migration log: address, entries, write index, phase, last pages. -/
  logAddr : Nat := 0
  logSize : Nat := 0
  logIdx : Nat := 0
  logPhase : Bool := false
  logPages : List Nat := []
deriving DecidableEq, Repr

/-- State a function has whatever its kind. (PRESUMED, log entry 9) -/
structure FnSt where
  /-- Negotiated version, major × 256 + minor; 0 for none (R158). -/
  version : Nat := 0
  granted : Nat := 0
  /-- MSI-X vectors that are not masked, and those with their pending bit set, as bit sets. Every vector is masked after a reset of its table. -/
  unmasked : Nat := 0
  msixPend : Nat := 0
  /-- MSI-X table words, by byte offset. -/
  msixTable : Tbl Nat := []
  /-- Writable and status bits of the configuration space, by word offset (R116, R118, R120). -/
  cfgRegs : Tbl Nat := []
deriving DecidableEq, Repr

/-- A queue pair (chapter 07). -/
structure Qp where
  enabled : Bool := false
  /-- QUEUE_DELETE or ENABLE = 0 waits for its fetched commands (R151). -/
  deleting : Bool := false
  /-- The deletion unbinds a normal-world queue pair (R221). -/
  unbind : Bool := false
  error : Bool := false
  sqAddr : Nat := 0
  cqAddr : Nat := 0
  sqLog2 : Nat := 0
  cqLog2 : Nat := 0
  vector : Nat := 0
  coalCount : Nat := 1
  coalTime : Nat := 0
  /-- Device head and doorbell tail of the SQ. -/
  sqHead : Nat := 0
  sqTail : Nat := 0
  /-- Host head and device tail of the CQ, and the phase of the present pass. -/
  cqHead : Nat := 0
  cqTail : Nat := 0
  phase : Bool := true
  /-- CQ entries reserved for fetched commands (R147). -/
  reserved : Nat := 0
  /-- Entries reserved before an error, into which completions may still go (R146). -/
  usable : Nat := 0
  /-- Completions written since the last message (R150). -/
  unsignalled : Nat := 0
deriving DecidableEq, Repr

/-- The stage of a fetched command along R24. -/
inductive Stage
  /-- Step 1: the read of the entry at this address of a normal-world SQ waits at the access table. -/
  | entry (addr : Nat)
  /-- Steps 2 and 3: the entry is there. -/
  | check
  /-- Step 3: held until ENT_STATUS.READY. -/
  | held
  /-- Step 4: a scatter-gather segment is on its way. -/
  | lists
  /-- Step 5: an object body is on its way from DDR5. -/
  | body
  /-- Step 5: a device key is being re-derived (R517). -/
  | rederive
  /-- Step 8: RANDOM draws its bytes from Spawn (R317). -/
  | drawing
  /-- Step 7: waiting for a unit, for its context, for its fence or for a handover entry. -/
  | waiting
  /-- Step 7: the input is on its way. -/
  | input
  /-- Step 8: an engine runs. -/
  | engine
  /-- Step 8: handed to secure firmware through a control queue. -/
  | handed (queue tag : Nat)
  /-- Step 9 and 10: waiting for the twin's acknowledgement. -/
  | commit (cseq : Nat)
  /-- A VF_DESTROY waits until its VF has been released (R525). -/
  | teardown
  /-- Done; its completion is written. -/
  | done
deriving DecidableEq, Repr

/-- The result a command completes with (Table 7-4). -/
structure Res where
  status : Nat := 0
  detail : Nat := 0
  result : Nat := 0
  aux : Nat := 0
  output : List Byte := []
  /-- The unit's operand memory is cleared although the status alone would leave it (R335, R418, R419). -/
  clear : Bool := false
deriving DecidableEq, Repr

/-- A command the dispatcher has fetched. -/
structure Cmd where
  /-- Fetch order. -/
  id : Nat
  fn : Fn
  qp : Nat
  /-- The 64 bytes of the submission entry; empty until it arrives. -/
  entry : List Byte
  stage : Stage
  /-- Scatter-gather segments that have arrived, input list first. -/
  inSegs : List SgSegment := []
  outSegs : List SgSegment := []
  /-- Input bytes, once fetched: `none` while not; an error is `some none`. -/
  data : Option (Option (List Byte)) := none
  /-- The object body may be read from DDR5, with what has befallen each of its lines. -/
  bodyOk : Option (List LineEvent) := none
  /-- The pool it waits for at step 7: its number + 1. -/
  pool : Nat := 0
  /-- The unit granted: pool and unit (and lane). -/
  unit : Option (Nat × Nat) := none
  /-- The whole command is carried out by its own row: its engine and secure firmware end as soon as they may begin. -/
  whole : Bool := false
  /-- The engine's run has ended. -/
  engineDone : Bool := false
  /-- The key of KEY_HANDLE as resolved at step 5: its attributes and its stored form or encoding. -/
  resolved : Option (Attr × List Byte) := none
  /-- The key of WRAP_HANDLE. -/
  wrapKey : Option (Attr × List Byte) := none
  /-- The digest of the approval that the command has used, to be compared once its input is there (R297). -/
  digest : Option (List Byte) := none
  /-- The hash lane reserved with the unit (R367, R396, R398): 4 × tile + lane. -/
  lane : Option Nat := none
  /-- The digest of MODE 2 has been computed (R368). -/
  preHashed : Bool := false
  /-- It has waited for a handover entry (R177). -/
  cqWaited : Bool := false
  /-- Its key came from an engine's residency, so that no body was read (R387). -/
  hit : Bool := false
  /-- Bytes a RANDOM command has drawn (R317). -/
  drawn : List Byte := []
  /-- The changes that step 10 mirrors to the twin (R175). -/
  changes : List ChangeRec := []
  /-- Restarted once after an engine fault (R348). -/
  restarted : Bool := false
  /-- The result, once decided. -/
  res : Res := {}
deriving DecidableEq, Repr

/-- A multi-part context (R166 to R171). -/
structure Ctx where
  fn : Fn
  owner : Nat
  /-- 1 hash, 2 MAC, 3 AEAD decryption, 4 AEAD encryption. -/
  kind : Nat
  alg : Nat
  gen : Nat
  /-- Counted input bytes (R168). -/
  count : Nat
  /-- The bytes absorbed so far, prefix (N, S) excluded. -/
  absorbed : List Byte
  /-- N ‖ S of cSHAKE, S of KMAC. -/
  custom : List Byte := []
  nLen : Nat := 0
  kmacLen : Nat := 0
  /-- The key bytes of a keyed context while a command has it open; of HMAC the inner and the outer key state (R364). -/
  key : List Byte := []
  iv : List Byte := []
  aadLen : Nat := 0
  tagLen : Nat := 0
  /-- A keyed context as it is parked: IV, ciphertext and tag under the context key; its key, IV, customization string and absorbed bytes are empty then (R167). -/
  wrapIv : List Byte := []
  wrapped : List Byte := []
  wrapTag : List Byte := []
deriving DecidableEq, Repr

/-- Hidden state of the dispatcher (chapter 07). (DESIGN CHOICE, log entry 8) -/
structure Dsp where
  /-- Fetched commands, in fetch order. -/
  inflight : List Cmd := []
  nextId : Nat := 0
  /-- The context cache. -/
  ctxs : Tbl (Option Ctx) := []
  /-- Last generation used of each context index. -/
  ctxGen : Tbl Nat := []
  /-- BOOT_ID, drawn at each start. -/
  bootId : List Byte := []
  /-- The control queue that takes the next control-plane command. -/
  cqTurn : Nat := 0
  nextTag : Nat := 0
  /-- The port that fetched last, the function that fetched last by port, and the queue pair by function: number + 1 (R130, R173). -/
  fetchPort : Nat := 0
  fetchFn : Tbl Nat := []
  fetchQp : Tbl Nat := []
  /-- Grants each function has had in the present round, by pool × 1024 + function. -/
  grants : Tbl Nat := []
  /-- What the blobs of CTX_EXPORT of this boot hold, by IV and encrypted state; the spec does not lay the state out (R171). -/
  exported : List (List Byte × List Byte × Ctx) := []
  /-- The context key drawn at step 7. -/
  ctxKey : List Byte := []
deriving DecidableEq, Repr

/-- What a slot is held by. -/
inductive Holder
  /-- A reserved device key (Table 12-2). -/
  | device (n : Nat)
  /-- An owner key-encryption key. -/
  | kek (owner : Nat)
  /-- A key of an owner, by index. -/
  | key (owner index : Nat)
deriving DecidableEq, Repr

/-- An occupied physical slot (Table 12-1). -/
structure Slot where
  shareA : List Byte
  shareB : List Byte
  attr : Attr
  codeA : Nat
  codeB : Nat
  holder : Holder
deriving DecidableEq, Repr

/-- Where a key lies. -/
inductive Loc
  | slot (phys : Nat)
  | object
  /-- Its slot was found defective; the handle stays (R277). -/
  | defective
deriving DecidableEq, Repr

/-- An object of the object cache: what its directory entry holds besides the header, which its attributes give (R253, R284). The body lies in DDR5. (DESIGN CHOICE, log entry 61) -/
structure Obj where
  nonce : List Byte
  tag : List Byte
  /-- BODY_LEN. -/
  len : Nat
  /-- The 128-byte cells of the body, in order. -/
  cells : List Nat
  /-- The content of its cells has not been lost with its channel (R64). -/
  kept : Bool := true
deriving DecidableEq, Repr

/-- A key of an owner, under its index. -/
structure Key where
  attr : Attr
  loc : Loc
  obj : Option Obj := none
  /-- The function it counts toward (R127); `none` when it counts toward none. -/
  counted : Option Fn := none
deriving DecidableEq, Repr

/-- A loaded owner. -/
structure Owner where
  defn : OwnerDef
  /-- The slot of the key-encryption key; `none` once it is lost (R517). -/
  kekSlot : Option Nat
deriving DecidableEq, Repr

/-- A pending approval (R294). -/
structure Approval where
  action : Nat
  owner : Nat
  digest : List Byte
  challenge : List Byte
  counted : List Nat
  quorum : Nat
  windowS : Nat
deriving DecidableEq, Repr

/-- The key store, the objects, the owners and the approvals (chapter 12). (DESIGN CHOICE, log entry 8) -/
structure Keys where
  /-- Occupied physical slots, 0 to 4,351. -/
  slots : Tbl (Option Slot) := []
  /-- Physical slots fenced this boot. -/
  fenced : List Nat := []
  /-- Spares mapped into service this boot (R277). -/
  regrown : List Nat := []
  /-- The physical slot of each reserved logical slot, where Regrowth moved it. -/
  reservedMap : Tbl (Option Nat) := []
  /-- Device keys that wait to be re-derived, and those lost (R517). -/
  rederive : List DeviceKey := []
  lost : List DeviceKey := []
  /-- Keys by owner × 2^32 + INDEX. -/
  keys : Tbl (Option Key) := []
  /-- Last generation + 1 of every index used this boot; 0 for none. -/
  lastGen : Tbl Nat := []
  owners : Tbl (Option Owner) := []
  approvals : Tbl (Option Approval) := []
  /-- The approval identifier assigned last, and those that have ended since the slots were cleared. -/
  lastApproval : Nat := 0
  ended : List Nat := []
  /-- Owner of each ended approval, for R296. -/
  endedOwner : Tbl Nat := []
  endedAction : Tbl Nat := []
  /-- The nonce count of R521 and the TMP_TIME it belongs to. -/
  nonceTime : Nat := 0
  nonceCount : Nat := 0
deriving DecidableEq, Repr

/-- A line of a cache: its address, the world that filled it, whether it is dirty, its 64 bytes (R188). -/
structure CacheLine where
  addr : Nat
  world : World
  dirty : Bool
  data : List Byte
deriving DecidableEq, Repr

/-- The run state of a pair; the domain's state is kept with the domain (CCS_PAIR.STATE). -/
inductive RunState | reset | running | wfi | halted | fenced
deriving DecidableEq, Repr

/-- A core pair (chapter 08). (DESIGN CHOICE, log entry 6) -/
structure Core where
  run : RunState := .reset
  /-- g0 to g30; g31 is never listed. -/
  g : Tbl Word64 := []
  pc : Word64 := 0
  level : Level := .m
  /-- KSTATUS. -/
  ie : Bool := false
  pie : Bool := false
  plev : Level := .u
  tie : Bool := false
  kepc : Word64 := 0
  kcause : Word64 := 0
  keaddr : Word64 := 0
  kxbase : Word64 := 0
  kscratch : Word64 := 0
  tcmp : Word64 := BitVec.allOnes 64
  /-- IEN0 to IEN7. -/
  ien : Tbl Word64 := []
  pmuCtl : Word64 := 0
  pmuSel : Tbl Word64 := []
  pmc : Tbl Word64 := []
  /-- MSTATUS.PLEV. -/
  mplev : Level := .u
  mepc : Word64 := 0
  mcause : Word64 := 0
  meaddr : Word64 := 0
  mxbase : Word64 := 0
  mscratch : Word64 := 0
  /-- The line reserved by LR (R189). -/
  resv : Option Nat := none
  /-- Imprecise store errors not yet taken: address and issuing level (R192). -/
  storeErrs : List (Nat × Level) := []
  icache : List CacheLine := []
  dcache : List CacheLine := []
  /-- The halt was made under the control enable of this world (R224). -/
  haltWorld : Option World := none
  /-- The debug port steps the halted pair: its next instruction is carried out (R223). -/
  stepping : Bool := false
  /-- A halt request that is held (R224). -/
  haltReq : Bool := false
  /-- Released by CCS_NSTART in this start. -/
  nstarted : Bool := false
deriving DecidableEq, Repr

/-- Who wrote a payload word of a mailbox since its last ACK or SEND (R226). -/
structure MbxHidden where
  writers : List Requester := []
deriving DecidableEq, Repr

/-- Hidden state of the access table (chapter 10). -/
structure Act where
  /-- Accesses held, in arrival order. -/
  held : List HeldAccess := []
deriving DecidableEq, Repr

/-- What a line access came to: the line's 64 bytes for a read, `none` for an error response. -/
structure LineDone where
  access : LineAccess
  answer : Option (List Byte)
deriving DecidableEq, Repr

/-- A locked line (R261). -/
structure LineLock where
  /-- Accesses that wait, in arrival order. -/
  waiting : List LineAccess := []
  /-- Accesses that another access to the line has let through first; their initiators are answered at the release. -/
  served : List LineDone := []
deriving DecidableEq, Repr

/-- What is wrong with the stored bits of a line (R254, Table 11-4). -/
inductive LineErr
  /-- They differ from the line's own at the set bits: eight data symbols of 64 bits from bit 0 on, the tag from bit 512 on, the parity from bit 576 on. -/
  | flips (x : BitVec 640)
  /-- They are no line stored at this offset under the keys of this boot. -/
  | foreign
deriving DecidableEq, Repr

/-- Hidden state of one DDR5 channel (chapter 11). -/
structure Ddr where
  /-- Blocks of 64 KiB that the sweep has filled or skipped; MEM_FILL shows it in MiB. -/
  sweep : Nat := 0
  /-- Blocks of 64 KiB filled ahead of the sweep. -/
  ooo : List Nat := []
  /-- Lines whose stored bits are not those of their content, by line of the channel. -/
  errs : Tbl (Option LineErr) := []
  /-- Locked lines, by line of the channel. -/
  locks : Tbl (Option LineLock) := []
  /-- Accesses held above the fill front. -/
  heldFill : List LineAccess := []
  /-- The patrol scrub's next line, in the present pass. -/
  scrubLine : Nat := 0
  passDone : Bool := false
  /-- MEM_ERR_INFO holds a capture (chapter 11). -/
  captured : Bool := false
  /-- Replays of the present ALERT_N sequence. -/
  replays : Nat := 0
deriving DecidableEq, Repr

/-- One copy of a 128-bit transition word, as its bits inside and outside its 64-bit codeword (R431). -/
structure OtpCopy where
  own : BitVec 64 := 0
  stray : BitVec 64 := 0
deriving DecidableEq, Repr

/-- The three copies of a transition word. -/
structure OtpWord where
  c0 : OtpCopy := {}
  c1 : OtpCopy := {}
  c2 : OtpCopy := {}
deriving DecidableEq, Repr

/-- A life-cycle transition in progress. -/
structure LcReq where
  target : Nat
  /-- Requested by the TAP. -/
  tap : Bool
deriving DecidableEq, Repr

/-- OTP and the life-cycle controller (chapter 18). (DESIGN CHOICE, log entries 5 and 61) -/
structure Lc where
  /-- T1 to T18, by number. -/
  words : Tbl OtpWord := []
  kill : List (BitVec 128) := [0, 0, 0]
  /-- The device secret and its check row. -/
  dsec : BitVec 256 := 0
  dsecCheck : BitVec 32 := 0
  /-- TOKH[1] to TOKH[7], and RMAH. -/
  tokh : Tbl (BitVec 256) := []
  rmah : BitVec 256 := 0
  /-- A transition in progress. -/
  busy : Option LcReq := none
  /-- TIME since which PWRGD and the rails VDD_CORE, VDDIO and VDD_OTP have been within range (R438). -/
  railsSince : Nat := 0
deriving DecidableEq, Repr

/-- The test access port (Table 18-5). -/
structure Tap where
  ir : Nat := 2
  boundary : Nat := 0
  /-- EXTEST drives the balls of the boundary register. -/
  extest : Bool := false
  /-- Error flag of the debug port (R99). -/
  dbgError : Bool := false
  /-- The factory test chain is reached. -/
  testMode : Bool := false
deriving DecidableEq, Repr

/-- Hidden state of the entropy source (chapter 13). -/
structure Ent where
  /-- Trim of each cell, by quadrant × 512 + cell; mid-range is 32 (R305). -/
  trims : Tbl Nat := []
  /-- Words granted to classes 1 to 3 in the present share window (R315). -/
  windowWords : Nat := 0
  /-- Trim updates made in the present start-up acquisition, by quadrant. -/
  acquired : Tbl Nat := []
  /-- The capture in progress: quadrant, mode, cell, destination, bytes. -/
  capture : Option (Nat × Nat × Nat × Nat × Nat) := none
  /-- Quadrants that have joined and not failed; one that is captured or rejoins counts as in service (R320). -/
  joined : List Nat := []
  /-- The command granted last in each of the classes 4 and 5: its identifier + 1 (R314). -/
  turns : Tbl Nat := []
deriving DecidableEq, Repr

/-- Hidden state of the engine pools (chapters 14 to 17); the units' own states are registers. -/
structure Eng where
  /-- The command each unit (or lane of a hash tile) runs, by (pool × 256 + unit) × 4 + lane: its id + 1. -/
  running : Tbl Nat := []
  /-- A unit whose operand memory is being cleared, by pool × 256 + unit: 2, it is free afterwards; 6, it is fenced; 7, it then serves the command that has reserved it (R328); 100 once a clearing has failed. -/
  afterClear : Tbl Nat := []
  /-- The tile command each hash tile is held for, by tile: command id + 1 (R357). -/
  heldFor : Tbl Nat := []
  /-- The spare that is in Regrowth and whether it will take the self-test role, else the serving role (R351). -/
  regrowth : Option (Nat × Bool) := none
  /-- Units in the self-test role whose run has passed, by pool × 256 + unit (R349). -/
  passed : List Nat := []
  /-- Units that come out of OFF after a fencing and count for nothing until they pass their tests (R59, R352). -/
  returning : List Nat := []
  /-- The unit that held the self-test role last, by pool: + 1 (R349). -/
  lastTested : Tbl Nat := []
  /-- The public key that each code-based engine holds resident, by engine, and its private key, by engine + 8 (R387). -/
  resKey : Tbl (List Byte) := []
deriving DecidableEq, Repr

/-- The Soade link controller (chapter 21). -/
structure Twn where
  linkUp : Bool := false
  /-- SEQ of the next frame to send and of the next frame expected. -/
  sendSeq : Nat := 0
  recvSeq : Nat := 0
  /-- Frames sent and not yet acknowledged, oldest first. -/
  unacked : List TwinFrame := []
  /-- Replays of the present loss, and failed retrains since the last that succeeded. -/
  replays : Nat := 0
  failedRetrains : Nat := 0
  /-- NAK goes into the next frame. -/
  nak : Bool := false
  /-- GLB_SERIAL of the peer's HELLO of this session. -/
  peerSerial : Option Nat := none
  /-- HELLO and PAIR_KEM frames sent and received in the present session, in order. -/
  sent : List (List Byte) := []
  got : List (List Byte) := []
  /-- The random bytes of this device's key exchange. -/
  eph : List Byte := []
  /-- Session keys are in slots 5 to 7. -/
  keyed : Bool := false
  /-- PAIR_AUTH was verified; the session is in force. -/
  authed : Bool := false
  /-- The peer identity bound by a pairing blob or kept under R494: serial and PEER_ID_HASH. -/
  bound : Option (Nat × List Byte) := none
  /-- The owner and digest of the approval that a first pairing runs under (R483). -/
  approved : Option (Nat × List Byte) := none
  /-- JOIN as written for a first pairing. -/
  join : Bool := false
  /-- What R494 keeps: PAIR_ID, peer serial, PEER_ID_HASH. -/
  kept : Option (Nat × Nat × List Byte) := none
  pairId : Nat := 0
  /-- The state before the handshake under way, to which a failed one returns. -/
  before : Nat := 1
  /-- Neither end has been reset since both were last PAIRED, as far as this device knows. -/
  journalOk : Bool := false
  journal : List ChangeRec := []
  sentEnd : Bool := false
  gotEnd : Bool := false
deriving DecidableEq, Repr

/-- Hidden state of the link test block (chapter 22). -/
structure Lts where
  /-- The lane of the eye point in progress. -/
  eyeLane : Option Nat := none
deriving DecidableEq, Repr

/-- The state of the device. -/
structure State where
  /-- Commands that wait, first in, first out. -/
  pending : List Instr := []
  /-- Every register field that does not read as reset, under `Fld.key`. -/
  regs : Tbl Nat := []
  /-- General SRAM and DDR5, by internal address; an unlisted byte reads as zero. -/
  mem : Tbl Byte := []
  /-- TIME: SYS_REFCLK periods of 10 ns from the release of POR_N (R197). -/
  time : Nat := 0
  /-- The model's own counter of conditioned bytes and other free values drawn. -/
  freeCtr : Nat := 0
  /-- What the device has sent, newest first. -/
  out : List Out := []
  /-- Event sources that became asserted and whose delivery (R135, R467) is still to come, oldest first. -/
  edges : List Nat := []
  bus : Bus := {}
  pins : Pins := {}
  cfg : Cfg := {}
  boot : Boot := {}
  pwr : Pwr := {}
  evr : Evr := {}
  tmp : Tmp := {}
  portA : PortSt := {}
  portB : PortSt := {}
  vfs : Tbl Vf := []
  fns : Tbl FnSt := []
  qps : Tbl Qp := []
  dsp : Dsp := {}
  keys : Keys := {}
  cores : Tbl Core := []
  mbx : Tbl MbxHidden := []
  act : Act := {}
  ddr : Tbl Ddr := []
  ent : Ent := {}
  eng : Eng := {}
  lc : Lc := {}
  tap : Tap := {}
  twn : Twn := {}
  lts : Lts := {}
deriving DecidableEq, Repr

/-- The reasons the device stops with a fault. -/
inductive Fault
  /-- Raised by nothing in this model: the spec names no state of the device in which it stops. Safe. -/
  | stuck
deriving DecidableEq, Repr

/-- The reasons a step is refused. -/
inductive Refusal
  /-- Raised by the dispatch table for a command that has no meaning yet; every command of this model has one. Safe. -/
  | notModelled (mnemonic : String)
deriving DecidableEq, Repr

/-- The machine right after power-on reset, POR_N still low (R5, R32, R76). (DESIGN CHOICE, log entries 5 and 8) -/
def State.reset : State := {}

end Sys2Proof.Machine
end

