-- ==== Sys2Proof/Machine/Ops.lean ====
section
/-! DEFINITION. The named operations every chapter uses: register fields, events, free values, functions, units. -/

namespace Sys2Proof.Machine

/-- An event that this state rules out does not take place: nothing changes. (DESIGN CHOICE, log entry 10) -/
def State.noEvent (s : State) : Host.Outcome State Fault Refusal := .next s

/-! Register fields. -/

/-- The value of a register field. -/
def State.rd (s : State) (f : Fld) : Nat := tblGet f.reset s.regs f.key

/-- Writing a register field, cut to its width. -/
def State.wr (s : State) (f : Fld) (v : Nat) : State :=
  { s with regs := tblPut f.reset s.regs f.key (v % 2 ^ f.width) }

/-- Whether a register field is not zero. -/
def State.flag (s : State) (f : Fld) : Bool := s.rd f != 0

/-- Adding `n` to a counter that saturates at its largest value. -/
def State.satAdd (s : State) (f : Fld) (n : Nat) : State := s.wr f (min (s.rd f + n) (2 ^ f.width - 1))

/-- Adding `n` to a counter that wraps. -/
def State.wrapAdd (s : State) (f : Fld) (n : Nat) : State := s.wr f (s.rd f + n)

/-- Dropping every field at the registers from `lo` to below `hi`, in instance `bank`: they read as reset again. -/
def regsClear (lo hi bank : Nat) (t : Tbl Nat) : Tbl Nat :=
  t.filter fun e => !(decide ((bank * 0x1000000 + lo) * 64 ≤ e.1) && decide (e.1 < (bank * 0x1000000 + hi) * 64))

/-- The register words from `lo` to below `hi` return to their reset values, in every instance. -/
def State.clearRegs (s : State) (lo hi : Nat) : State :=
  { s with regs := regsClear lo hi 3 (regsClear lo hi 2 (regsClear lo hi 1 (regsClear lo hi 0 s.regs))) }

/-! Event registers (R104, R105). -/

/-- The lowest key of the register word a field lies in. -/
def Fld.wordKey (f : Fld) : Nat := (f.bank * 0x1000000 + f.off) * 64

/-- SEQ of the event register a field lies in. -/
def Fld.seq (f : Fld) : Fld := { f with lsb := 16, width := 16, reset := 0, stride := 0, resets := [] }

/-- The event bits of the register word that starts at key `k`. -/
def evtBits (t : Tbl Nat) (k : Nat) : Nat :=
  t.foldl (fun a e => if decide (k ≤ e.1) && decide (e.1 < k + 16) then a + e.2 * 2 ^ (e.1 - k) else a) 0

/-- Whether any event bit of the register that holds `f` is 1. -/
def State.asserted (s : State) (f : Fld) : Bool := evtBits s.regs f.wordKey != 0

/-- The event source tied to an event register (Table 6-8). -/
def evtSource (off : Nat) : Option Nat :=
  if off = 0x10014 then some 32
  else if off = 0x20014 then some 33
  else if off = 0xC then some 34
  else if off = 0x18 then some 35
  else if off = 0x30024 then some 36
  else if off = 0x100004 then some 37
  else if off = 0x110004 then some 38
  else if off = 0x50004 then some 39
  else if 0xA0000 ≤ off ∧ off < 0xA1000 ∧ off % 0x80 = 0x50 then some (64 + 2 * ((off - 0xA0000) / 0x80))
  else if 0xA0000 ≤ off ∧ off < 0xA1000 ∧ off % 0x80 = 0x54 then some (65 + 2 * ((off - 0xA0000) / 0x80))
  else if 0xD0080 ≤ off ∧ off < 0xD0080 + 72 then some (128 + (off - 0xD0080) / 4)
  else if 0xE0080 ≤ off ∧ off < 0xE0080 + 36 then some (146 + (off - 0xE0080) / 4)
  else if 0xF0080 ≤ off ∧ off < 0xF0080 + 20 then some (155 + (off - 0xF0080) / 4)
  else if 0xF4080 ≤ off ∧ off < 0xF4080 + 12 then some (160 + (off - 0xF4080) / 4)
  else if 0xF8080 ≤ off ∧ off < 0xF8080 + 36 then some (163 + (off - 0xF8080) / 4)
  else if 0x60140 ≤ off ∧ off < 0x60150 then some (192 + (off - 0x60140) / 4)
  else if off = 0x60004 then some 196
  else if off = 0x70004 then some 200
  else if off = 0xC0004 then some 201
  else if off = 0xB000C then some 208
  else if off = 0xB100C then some 209
  else if off = 0x8000C then some 216
  else if off = 0x120004 then some 224
  else none

/-- An edge to deliver: a source, with the instance of a banked register. (DEDUCED, log entry 11) -/
def edgeOf (source bank : Nat) : Nat := bank * 512 + source

/-- The edges that setting a bit of `f` makes: of the source of its register, of an alarm source, of source 40. (DEDUCED, log entry 11) -/
def evtEdges (s : State) (f : Fld) (bit : Nat) : List Nat :=
  if f.off = 0x40010 ∨ f.off = 0x40014 then
    if (s.rd f).testBit bit then [] else [if f.off = 0x40010 then bit else 16 + bit]
  else
    (if s.asserted f then [] else (evtSource f.off).toList.map (edgeOf · f.bank)) ++
    (if f.off = 0x10014 ∧ f.lsb = 0 ∧ s.rd f = 0 then [40] else [])

/-- A hardware event: its bit is set, SEQ advances, and a source that was not asserted becomes asserted (R104). (DEDUCED, log entry 11) -/
def State.setEvt (s : State) (f : Fld) (bit : Nat := 0) : State :=
  let es := evtEdges s f bit
  let s := (s.wr f (bitSet (s.rd f) bit)).wr f.seq (s.rd f.seq + 1)
  { s with edges := s.edges ++ es }

/-- An event of a register banked by requester class sets its bit in each instance (R115). -/
def State.setEvtAll (s : State) (f : Fld) : State :=
  (((s.setEvt (f.inst 0)).setEvt (f.inst 1)).setEvt (f.inst 2)).setEvt (f.inst 3)

/-- A bit of GLB_STATUS takes a value; a change sets GLB_EVT.STATUS. -/
def State.setStatus (s : State) (f : Fld) (v : Nat) : State :=
  if s.rd f = v % 2 ^ f.width then s else (s.wr f v).setEvtAll R.GLB_EVT_STATUS

/-! Free values. -/

/-- A raw block of the conditioner: 1,024 bits, two consecutive samples of each of the 512 cells of a quadrant in cell order (R306). Each sample is a free value, so that the order of the samples within the 128 bytes does not show. (DESIGN CHOICE, log entry 3) -/
def rawBlock (c : Nat) : List Byte := freeBytes c 128

/-- A conditioned block: SHA3-256 over the 128 bytes of a raw block (R306). -/
def conditioned (c : Nat) : List Byte := sha3 (rawBlock c)

/-- Consecutive conditioned blocks. -/
def condBlocks (c : Nat) : Nat → List Byte
  | 0 => []
  | k + 1 => conditioned c ++ condBlocks (c + 128) k

/-- The 256-bit words that a consumer of `n` bytes is granted (R314). -/
def wordsFor (n : Nat) : Nat := (n + 31) / 32

/-- `n` conditioned bytes of Spawn have been delivered to a consumer of class 4 or 5. (DESIGN CHOICE, log entry 3) -/
def State.countHost (s : State) (n : Nat) : State :=
  ({ s with freeCtr := s.freeCtr + 128 * wordsFor n } : State).wr R.ENT_DRAWN_BYTES (s.rd R.ENT_DRAWN_BYTES + n)

/-- The next `n` bytes that Spawn delivers: whole words, of which the last may be used in part. -/
def State.delivered (s : State) (n : Nat) : List Byte := (condBlocks s.freeCtr (wordsFor n)).take n

/-- `n` conditioned bytes of Spawn, each block of them delivered once, for a consumer of class 4 or 5. (DESIGN CHOICE, log entry 3) -/
def State.drawHost (s : State) (n : Nat) : List Byte × State := (s.delivered n, s.countHost n)

/-- `n` conditioned bytes of Spawn have been delivered to an internal consumer, whose words count against the share of R316. (DESIGN CHOICE, log entry 3) -/
def State.countDraw (s : State) (n : Nat) : State :=
  ({ s with ent := { s.ent with windowWords := s.ent.windowWords + wordsFor n } } : State).countHost n

/-- `n` conditioned bytes for a consumer of classes 1 to 3; the words count in the share window (R315). (DESIGN CHOICE, log entry 3) -/
def State.draw (s : State) (n : Nat) : List Byte × State :=
  (s.delivered n, s.countDraw n)

/-- `n` bytes on which the spec states nothing. (DESIGN CHOICE, log entry 3) -/
def State.free (s : State) (n : Nat) : List Byte × State :=
  (freeBytes s.freeCtr n, { s with freeCtr := s.freeCtr + n })

/-- A free number below 2^(8n). (DESIGN CHOICE, log entry 3) -/
def State.freeNat (s : State) (n : Nat) : Nat × State :=
  let (b, s) := s.free n
  (leNat b, s)

/-! Ports, functions and queue pairs. -/

/-- A port. -/
def State.port (s : State) : Port → PortSt
  | .a => s.portA
  | .b => s.portB

/-- A port is set. -/
def State.setPort (s : State) (p : Port) (v : PortSt) : State :=
  match p with
  | .a => { s with portA := v }
  | .b => { s with portB := v }

/-- A function's state. -/
def State.fnSt (s : State) (f : Fn) : FnSt := tblGet {} s.fns f.id

/-- A function's state is set. -/
def State.setFnSt (s : State) (f : Fn) (v : FnSt) : State := { s with fns := tblPut {} s.fns f.id v }

/-- The window index of a VF in the register space (R97). -/
def vfIndex (p : Port) (n : Nat) : Nat := p.num * 128 + n - 1

/-- A field of a VF's BAR0 page. -/
def Fld.vf (f : Fld) (p : Port) (n : Nat) : Fld := f.add (0x2000 * vfIndex p n)

/-- A VF. -/
def State.vf (s : State) (p : Port) (n : Nat) : Vf := tblGet {} s.vfs (vfIndex p n)

/-- A VF is set. -/
def State.setVf (s : State) (p : Port) (n : Nat) (v : Vf) : State := { s with vfs := tblPut {} s.vfs (vfIndex p n) v }

/-- The number under which a queue pair is held. -/
def qpId (f : Fn) (q : Nat) : Nat := f.id * 64 + q

/-- A queue pair. -/
def State.qp (s : State) (f : Fn) (q : Nat) : Qp := tblGet {} s.qps (qpId f q)

/-- A queue pair is set. -/
def State.setQp (s : State) (f : Fn) (q : Nat) (v : Qp) : State := { s with qps := tblPut {} s.qps (qpId f q) v }

/-- The base of the QZ_ register set of a queue pair, where it has one (Table 7-1, R218). -/
def qzBase (f : Fn) (q : Nat) : Nat :=
  match f with
  | .pf p => 0x102100 + 0x10000 * p.num + 0x20 * q
  | .vf p n => 0x200100 + 0x2000 * vfIndex p n
  | .nw => 0x91000 + 0x20 * q

/-- Whether a queue pair has a register set. -/
def hasQz (f : Fn) (q : Nat) : Bool :=
  match f with
  | .pf _ => decide (q < 4)
  | .vf _ _ => decide (q = 0)
  | .nw => decide (q < 64)

/-- A field of the QZ_ register set of a queue pair. -/
def Fld.qz (f : Fld) (fn : Fn) (q : Nat) : Fld := f.add (qzBase fn q)

/-- A field of QZ_EVT or of the like register of the normal world. -/
def qzEvt (f : Fld) (fn : Fn) : Fld :=
  match fn with
  | .pf p => f.add (0x102000 + 0x10000 * p.num)
  | .vf p n => f.add (0x200000 + 0x2000 * vfIndex p n)
  | .nw => f.add (0x91800 - 0x180)

/-- The QZ_QERR field and bit of a queue pair. -/
def qzErr (fn : Fn) (q : Nat) : Fld × Nat :=
  match fn with
  | .nw => if q < 32 then (R.WLD_NQ_QERR0_QERR, q) else (R.WLD_NQ_QERR1_QERR, q - 32)
  | _ => (qzEvt R.QZ_QERR_QERR fn, q)

/-- Whether a VF is in ACTIVE. -/
def State.vfActive (s : State) (p : Port) (n : Nat) : Bool := s.rd (R.VFS_STATE_STATE.vf p n) == 1

/-- The owner a function's commands run for; `none` on a PF. -/
def State.ownerOf (s : State) (f : Fn) (q : Nat) : Option Nat :=
  match f with
  | .pf _ => none
  | .vf p n => some (s.rd (R.VFS_OWNER_OWNER.vf p n))
  | .nw => some (s.rd (R.WLD_NQ_BIND_OWNER.ix q))

/-- The function whose driver a host requester is. -/
def hostFn (p : Port) (n : Nat) : Fn := if n = 0 then .pf p else .vf p n

/-- Offset of the uncorrectable error status of AER (Table 6-3). (PRESUMED, log entry 9) -/
def aerStatus : Nat := 0x104

/-- An uncorrectable error is logged in the AER registers of a function, as bit `b` of the status, and in its port's event register (R99, R118). (PRESUMED, log entry 9) -/
def State.aerLog (s : State) (f : Fn) (b : Nat) : State :=
  if f = .nw then s
  else
    let x := s.fnSt f
    (s.setFnSt f { x with cfgRegs := tblPut 0 x.cfgRegs aerStatus (bitSet (tblGet 0 x.cfgRegs aerStatus) b) }).setEvt
      (R.PE_EVT_AER_UNCORR.port f.port)

/-! Cores and channels. -/

/-- The installed capacity of a channel in bytes. -/
def State.capBytes (s : State) (c : Nat) : Nat := s.rd ({ R.MEM_CFG_CAP_GIB with off := R.MEM_CFG_CAP_GIB.off + 0x1000 * c }) * 0x40000000

/-- Objects in the object cache. -/
def State.objects (s : State) : List (Nat × Obj) :=
  s.keys.keys.filterMap fun e =>
    match e.2 with
    | some k => k.obj.map fun o => (e.1, o)
    | none => none

/-- Object capacity in objects (R253). -/
def State.objCap (s : State) : Nat := s.rd R.MEM_OBJ_CAP_CAP * 1024

/-- The DDR5 offset of a cell: the cells follow the object directory (Table 11-2, R253). -/
def State.cellOff (s : State) (c : Nat) : Nat := 0x40000000 + 80 * s.objCap + 128 * c

/-- The claim that a DDR group holds for the lines on it: DA for the secure region, DB while an object lies on it (R268). (DEDUCED, log entry 49) -/
def State.ddrClaim (s : State) (d : Nat) : Nat :=
  if d = 18 ∧ 0 < s.rd R.WLD_DDR_WM_WM then 1
  else if d = 22 ∧ s.objects.any (fun e => e.2.cells.any fun c => decide (s.capBytes 0 ≤ s.cellOff c)) then 1 else 0

/-- A core pair. -/
def State.core (s : State) (p : Nat) : Core := tblGet {} s.cores p

/-- A core pair is set. -/
def State.setCore (s : State) (p : Nat) (v : Core) : State := { s with cores := tblPut {} s.cores p v }

/-- The world of a pair outside M (R178). -/
def pairWorld (p : Nat) : World := if p < 2 then .secure else .normal

/-- A DDR5 channel. -/
def State.chan (s : State) (c : Nat) : Ddr := tblGet {} s.ddr c

/-- A DDR5 channel is set. -/
def State.setChan (s : State) (c : Nat) (v : Ddr) : State := { s with ddr := tblPut {} s.ddr c v }

/-- A field of a channel's MEM_ registers. -/
def Fld.mem (f : Fld) (c : Nat) : Fld := f.add (0x1000 * c)

/-- A field of a mailbox. -/
def Fld.mbx (f : Fld) (m : Nat) : Fld := f.add (0x80 * m)

/-- The instance of the banked registers a requester reaches: its own (R102, R106). -/
def bankOf : Requester → Option Nat
  | .core _ .secure _ => some 0
  | .core _ .normal _ => some 1
  | .host .a 0 => some 2
  | .host .b 0 => some 3
  | _ => none

/-- The initiator class of a requester (Table 10-1). -/
def classOf : Requester → Nat
  | .host .a _ => 0
  | .host .b _ => 1
  | .core p .secure _ => 3 + 2 * p
  | .core p .normal _ => 4 + 2 * p
  | .debug _ => 11

/-- The world an access carries (Table 9-1); a host access carries none and counts as secure here. -/
def worldOf : Requester → World
  | .core _ w _ => w
  | .host _ _ => .secure
  | .debug w => w

/-- A core access of world S. -/
def isSecure : Requester → Bool
  | .core _ .secure _ => true
  | _ => false

/-- The same initiator, whatever level it runs at. -/
def sameSource (a b : Requester) : Bool :=
  match a, b with
  | .core p w _, .core p' w' _ => p == p' && w == w'
  | .host p v, .host p' v' => p == p' && v == v'
  | .debug w, .debug w' => w == w'
  | _, _ => false

/-! Engine pools (Table 1-2). -/

/-- Units of a pool. -/
def poolSize : Pool → Nat
  | .lattice => 18
  | .hash => 9
  | .bignum => 5
  | .code => 3
  | .sym => 9

/-- STATE of a unit. -/
def unitState : Pool → Nat → Fld
  | .lattice, u => R.LAT_TILE_STATE.ix u
  | .hash, u => R.HSH_TILE_STATE.ix u
  | .bignum, u => R.BNE_UNIT_STATE.ix u
  | .code, u => R.CBE_ENGINE_STATE.ix u
  | .sym, u => R.SYM_LANE_STATE.ix u

/-- SELECTED of a unit. -/
def unitSelected : Pool → Nat → Fld
  | .lattice, u => R.LAT_TILE_SELECTED.ix u
  | .hash, u => R.HSH_TILE_SELECTED.ix u
  | .bignum, u => R.BNE_UNIT_SELECTED.ix u
  | .code, u => R.CBE_ENGINE_SELECTED.ix u
  | .sym, u => R.SYM_LANE_SELECTED.ix u

/-- CAUSE of a unit. -/
def unitCause : Pool → Nat → Fld
  | .lattice, u => R.LAT_TILE_CAUSE.ix u
  | .hash, u => R.HSH_TILE_CAUSE.ix u
  | .bignum, u => R.BNE_UNIT_CAUSE.ix u
  | .code, u => R.CBE_ENGINE_CAUSE.ix u
  | .sym, u => R.SYM_LANE_CAUSE.ix u

/-- LAST_OWNER of a unit, or of a lane of a hash tile. -/
def unitLastOwner : Pool → Nat → Nat → Fld
  | .lattice, u, _ => R.LAT_TILE_LAST_OWNER.ix u
  | .hash, u, l => R.HSH_LANE_LAST_OWNER.ix (4 * u + l)
  | .bignum, u, _ => R.BNE_UNIT_LAST_OWNER.ix u
  | .code, u, _ => R.CBE_ENGINE_LAST_OWNER.ix u
  | .sym, u, _ => R.SYM_LANE_LAST_OWNER.ix u

/-- The event register of a unit: bit 0 DONE, 1 FAULT, 2 FENCED. -/
def unitEvt : Pool → Nat → Fld
  | .lattice, u => R.LAT_UEVT_DONE.ix u
  | .hash, u => R.HSH_UEVT_DONE.ix u
  | .bignum, u => R.BNE_UEVT_DONE.ix u
  | .code, u => R.CBE_UEVT_DONE.ix u
  | .sym, u => R.SYM_UEVT_DONE.ix u

/-- FAULT and FENCED of a unit's event register. -/
def unitEvtFault (p : Pool) (u : Nat) : Fld := { unitEvt p u with lsb := 1 }

/-- FENCED of a unit's event register. -/
def unitEvtFenced (p : Pool) (u : Nat) : Fld := { unitEvt p u with lsb := 2 }

/-- TESTING of a pool: the unit in the self-test role, all ones for none. -/
def poolTesting : Pool → Fld
  | .lattice => R.LAT_ROTATE_TESTING
  | .hash => R.HSH_ROTATE_TESTING
  | .bignum => R.BNE_ROTATE_TESTING
  | .code => R.CBE_ROTATE_TESTING
  | .sym => R.SYM_ROTATE_TESTING

/-- SERVING of a pool. -/
def poolServing : Pool → Fld
  | .lattice => R.LAT_ROTATE_SERVING
  | .hash => R.HSH_ROTATE_SERVING
  | .bignum => R.BNE_ROTATE_SERVING
  | .code => R.CBE_ROTATE_SERVING
  | .sym => R.SYM_ROTATE_SERVING

/-- SUSPENDED of a pool. -/
def poolSuspended : Pool → Fld
  | .lattice => R.LAT_ROTATE_SUSPENDED
  | .hash => R.HSH_ROTATE_SUSPENDED
  | .bignum => R.BNE_ROTATE_SUSPENDED
  | .code => R.CBE_ROTATE_SUSPENDED
  | .sym => R.SYM_ROTATE_SUSPENDED

/-- PASSES of a pool. -/
def poolPasses : Pool → Fld
  | .lattice => R.LAT_ROTATE_PASSES
  | .hash => R.HSH_ROTATE_PASSES
  | .bignum => R.BNE_ROTATE_PASSES
  | .code => R.CBE_ROTATE_PASSES
  | .sym => R.SYM_ROTATE_PASSES

/-- The rotation event of a pool. -/
def poolEvtRotate : Pool → Fld
  | .lattice => R.LAT_EVT_ROTATE
  | .hash => R.HSH_EVT_ROTATE
  | .bignum => R.BNE_EVT_ROTATE
  | .code => R.CBE_EVT_ROTATE
  | .sym => R.SYM_EVT_ROTATE

/-- The restart event of a pool. -/
def poolEvtRestart : Pool → Fld
  | .lattice => R.LAT_EVT_RESTART
  | .hash => R.HSH_EVT_RESTART
  | .bignum => R.BNE_EVT_RESTART
  | .code => R.CBE_EVT_RESTART
  | .sym => R.SYM_EVT_RESTART

/-- GLB_CAPACITY field of a pool. -/
def poolCapacity : Pool → Fld
  | .lattice => R.GLB_CAPACITY_LATTICE
  | .hash => R.GLB_CAPACITY_HASH
  | .bignum => R.GLB_CAPACITY_BIGNUM
  | .code => R.GLB_CAPACITY_CODE
  | .sym => R.GLB_CAPACITY_SYM

/-- The timing domain of a unit (Table 3-5). -/
def unitDomain : Pool → Nat → Nat
  | .lattice, u => 41 + u / 2
  | .hash, u => 50 + u / 3
  | .bignum, u => if u < 3 then 53 else 54
  | .code, _ => 55
  | .sym, u => if u < 5 then 56 else 57

/-- The event source of a unit (Table 6-8). -/
def unitSource : Pool → Nat → Nat
  | .lattice, u => 128 + u
  | .hash, u => 146 + u
  | .bignum, u => 155 + u
  | .code, u => 160 + u
  | .sym, u => 163 + u

/-- The key of a unit, and of a lane of it, in the engines' hidden tables. -/
def unitKey (p : Pool) (u : Nat) : Nat := p.num * 256 + u

/-- The key of a hash lane in the tables of units. -/
def laneKey (p : Pool) (u l : Nat) : Nat := (p.num * 256 + u) * 4 + l

/-- Whether TESTING names a unit. -/
def State.isTesting (s : State) (p : Pool) (u : Nat) : Bool := s.rd (poolTesting p) == u

/-- Whether a unit is the lattice spare. -/
def State.isSpare (s : State) (p : Pool) (u : Nat) : Bool :=
  match p with
  | .lattice => s.rd R.LAT_ROTATE_SPARE == u
  | _ => false

/-- Whether a unit counts as in service (GLB_CAPACITY): not fenced, spare, in or selected for self-test, or in Regrowth. -/
def State.inService (s : State) (p : Pool) (u : Nat) : Bool :=
  s.rd (unitState p u) != 5 && !s.isTesting p u && !s.isSpare p u && !s.flag (unitSelected p u) &&
    !s.eng.returning.contains (unitKey p u) && !(match p, s.eng.regrowth with
      | .lattice, some (t, _) => t == u
      | _, _ => false)

/-- Units of a pool in service. -/
def State.serving (s : State) (p : Pool) : Nat := ((List.range (poolSize p)).filter (s.inService p)).length

/-- Units of a pool that are not fenced. -/
def State.healthy (s : State) (p : Pool) : List Nat :=
  (List.range (poolSize p)).filter fun u => s.rd (unitState p u) != 5

/-! Domains (Table 3-6). -/

/-- PWR_DOM_STAT.STATE of a domain. -/
def domState (d : Nat) : Fld := R.PWR_DOM_STAT_STATE.ix d

/-- Whether a domain is ON. -/
def State.domOn (s : State) (d : Nat) : Bool := s.rd (domState d) == 0

/-- Whether a domain answers accesses: ON, or BASKING, which an access wakes (R57). -/
def State.domAnswers (s : State) (d : Nat) : Bool := s.rd (domState d) < 2

/-- A domain in BASKING is woken by an access or a claim (R57). -/
def State.wake (s : State) (d : Nat) : State := if s.rd (domState d) = 1 then s.wr (domState d) 0 else s

/-- A claim more, or less, on a domain; CLAIMS reads it saturated. -/
def State.addClaim (s : State) (d : Nat) : State :=
  let n := tblGet 0 s.pwr.claims d + 1
  ({ s with pwr := { s.pwr with claims := tblPut 0 s.pwr.claims d n } }).wr (R.PWR_DOM_STAT_CLAIMS.ix d) (min n 255)

/-- A claim on a domain ends. -/
def State.dropClaim (s : State) (d : Nat) : State :=
  let n := tblGet 0 s.pwr.claims d - 1
  ({ s with pwr := { s.pwr with claims := tblPut 0 s.pwr.claims d n } }).wr (R.PWR_DOM_STAT_CLAIMS.ix d) (min n 255)

/-- A message the device sends. (DESIGN CHOICE, log entry 57) -/
def State.emit (s : State) (o : Out) : State := { s with out := o :: s.out }

/-- The life-cycle state's CODE, as decoded at the last start (Table 18-1). -/
def State.lcState (s : State) : Nat := s.rd R.LC_STATE_STATE

/-- TEST_UNLOCKED_n. -/
def lcUnlocked (c : Nat) : Bool := decide (1 ≤ c) && decide (c ≤ 8)

/-! Links under test (R498, R500, Table 22-1). -/

/-- The first lane index of a link, and its number of lanes. -/
def linkFirst (k : Nat) : Nat := if k < 3 then 4 * k else 12 + 94 * (k - 3)

/-- Lanes of a link. -/
def linkLanes (k : Nat) : Nat := if k < 3 then 4 else 94

/-- Whether a link is in its test state. -/
def State.inTest (s : State) (k : Nat) : Bool := s.flag (R.LTS_CTRL_STATE.ix k)

/-- SYNC of every lane of a link is cleared. -/
def State.dropSync (s : State) (k : Nat) : State :=
  (List.range (linkLanes k)).foldl (fun s i => s.wr (R.LTS_LANE_SYNC.ix (linkFirst k + i)) 0) s

/-- An eye point in progress ends with a result and an error count. -/
def State.endEye (s : State) (result errors : Nat) : State :=
  let s := ((s.wr R.LTS_EYE_RES_BUSY 0).wr R.LTS_EYE_RES_DONE 1).wr R.LTS_EYE_RES_RESULT result
  ({ s with lts := { s.lts with eyeLane := none } } : State).wr R.LTS_EYE_RES_ERRORS (min errors (2 ^ 28 - 1))

/-- An eye point on a lane of a link that leaves its test state; the count it had reached is a free value. -/
def State.stopEye (s : State) (k : Nat) : State :=
  match s.lts.eyeLane with
  | some l =>
    if linkFirst k ≤ l ∧ l < linkFirst k + linkLanes k then
      let (n, s) := s.freeNat 4
      s.endEye 2 n
    else s
  | none => s

/-- A link leaves its test state: generators and checkers stop, the error counters keep their values (R500). -/
def State.leaveTest (s : State) (k : Nat) : State :=
  if s.inTest k then
    let s := (((s.wr (R.LTS_CTRL_TEST.ix k) 0).wr (R.LTS_CTRL_STATE.ix k) 0).wr (R.LTS_CTRL_GEN.ix k) 0).wr (R.LTS_CTRL_CHK.ix k) 0
    (s.dropSync k).stopEye k
  else s

/-! Accesses that wait at the access table (R245). -/

/-- The requester of a held access, where it has one. -/
def HeldAccess.who (a : HeldAccess) : Option Requester :=
  match a.origin with
  | .bus w | .mem w | .line (.requester w) => some w
  | _ => none

/-- The pair whose access is held. -/
def HeldAccess.pair (a : HeldAccess) : Option Nat :=
  match a.who with
  | some (.core p _ _) => some p
  | _ => none

/-- An access takes its place in the arrival order at the table. -/
def State.hold (s : State) (a : HeldAccess) : State := { s with act := { s.act with held := s.act.held ++ [a] } }

/-- Internal addresses end here; a held access to a host's BAR4 lies at its offset above (R95). -/
def bar4Base : Nat := 2 ^ 40

/-- A write of `n` bytes to the register space, to the bit-alias window or to a host's BAR4. -/
def busBytes (who : Requester) (a n val : Nat) : HeldAccess :=
  { cls := classOf who, world := worldOf who, origin := .bus who, addr := a, kind := .write, data := leBytes n val, len := n }

/-- A write of a word. -/
def busWrite (who : Requester) (a val : Nat) : HeldAccess := busBytes who a 4 val

/-- A read of `n` bytes. -/
def busRead (who : Requester) (a n : Nat) : HeldAccess :=
  { cls := classOf who, world := worldOf who, origin := .bus who, addr := a, kind := .read, data := [], len := n }

/-- Whether a host's link is in L1, so that its requests wait for the link's exit (R101, R119). -/
def State.inL1 (s : State) (who : Requester) : Bool :=
  match who with
  | .host p _ => s.flag (R.PE_LINK_L1.port p)
  | _ => false

/-- A host's request takes its place behind its link in L1. -/
def State.holdL1 (s : State) (who : Requester) (a : HeldAccess) : State :=
  match who with
  | .host p _ => s.setPort p { s.port p with l1Held := (s.port p).l1Held ++ [a] }
  | _ => s

/-- Whether the device is in the recovery state (R81). -/
def State.recovery (s : State) : Bool := s.flag R.GLB_STATUS_RECOVERY

end Sys2Proof.Machine
end

