-- ==== Sys2Proof/Machine/RegMap.lean ====
section
/-! DEFINITION. The register space as requesters see it: which fields lie at an offset, what a read returns, who may reach what. -/

namespace Sys2Proof.Machine

/-- The row that holds the word at `off`. -/
def rowAt (off : Nat) : List RegRow → Option (RegRow × Nat)
  | [] => none
  | r :: t =>
    if r.stride = 0 then (if off = r.off then some (r, 0) else rowAt off t)
    else if r.off ≤ off ∧ (off - r.off) % r.stride = 0 ∧ (off - r.off) / r.stride < r.count then
      some (r, (off - r.off) / r.stride)
    else rowAt off t

/-- The fields of the word at `off` in `rows`, each moved up by `add`. -/
def fieldsIn (rows : List RegRow) (off add : Nat) : List Fld :=
  match rowAt off rows with
  | none => []
  | some (r, i) => r.flds.map fun f => (f.ix i).add add

/-- The fields of a queue-pair register set's word, the set starting at `base`. -/
def fieldsQz (base off : Nat) : List Fld := fieldsIn regRowsQZ (off - base) base

/-- The fields of the register word at an offset of the register space (R96, R97). -/
def regFields (off : Nat) : List Fld :=
  if 0x100000 ≤ off ∧ off < 0x120000 then
    let add := if off < 0x110000 then 0 else 0x10000
    let o := off - add
    if 0x102100 ≤ o ∧ o < 0x102180 then fieldsQz ((o - 0x102100) / 0x20 * 0x20 + 0x102100 + add) off
    else if o = 0x102180 ∨ o = 0x102184 then fieldsIn regRowsQZE (o - 0x102000) (0x102000 + add)
    else if o = 0x100008 ∨ o = 0x10000C ∨ o = 0x100010 then fieldsIn regRows06 o 0
    else fieldsIn regRows06 o add
  else if 0x200000 ≤ off ∧ off < 0x400000 then
    let add := (off - 0x200000) / 0x2000 * 0x2000
    let x := (off - 0x200000) % 0x2000
    if 0x100 ≤ x ∧ x < 0x120 then fieldsQz (0x200100 + add) off
    else if x = 0x180 ∨ x = 0x184 then fieldsIn regRowsQZE x (0x200000 + add)
    else fieldsIn regRows06 (0x200000 + x) add
  else if 0xA0000 ≤ off ∧ off < 0xA1000 then
    fieldsIn regRows09 (0xA0000 + (off - 0xA0000) % 0x80) ((off - 0xA0000) / 0x80 * 0x80)
  else if 0xB0000 ≤ off ∧ off < 0xB2000 then
    fieldsIn regRows11 (0xB0000 + (off - 0xB0000) % 0x1000) ((off - 0xB0000) / 0x1000 * 0x1000)
  else if 0x91000 ≤ off ∧ off < 0x91800 then fieldsQz ((off - 0x91000) / 0x20 * 0x20 + 0x91000) off
  else fieldsIn regRows off 0

/-- The offsets of guarded registers (access GW); the complement is taken at X + 4 (R112). -/
def guardedRegs : List Nat :=
  [0x10008, 0x20008, 0x30004, 0x40028, 0x40030, 0x50024, 0x80000, 0x120008, 0x140018]

/-- The code of a pair's state in CCS_PAIR. -/
def State.pairState (s : State) (p : Nat) : Nat :=
  match (s.core p).run with
  | .fenced => 4
  | r =>
    if s.rd (domState (30 + p)) = 2 then 6
    else if s.rd (domState (30 + p)) = 1 then 5
    else match r with
      | .reset => 0
      | .running => 1
      | .wfi => 2
      | .halted => 3
      | .fenced => 4

/-- Whether the life-cycle state lets debug enables take effect (R447). -/
def State.lcAllow (s : State) : Bool :=
  (lcUnlocked s.lcState || s.lcState == 16) && !s.flag R.LC_STATE_TRANSITIONED

/-- The debug enables in effect, in the bit order of WDBG_SET (R222, R223). -/
def State.dbgEff (s : State) : Nat :=
  if s.lcAllow then
    let v := s.rd R.WLD_DBG_SET
    let v := if v.testBit 0 then bitSet v 1 else v
    if v.testBit 2 then bitSet v 3 else v
  else 0

/-- Commands between step 3 and step 11 of R24. -/
def State.inflightCount (s : State) : Nat := s.dsp.inflight.length

/-- Occupied slots in service. -/
def State.slotsUsed (s : State) : Nat := (s.keys.slots.filter fun e => e.2.isSome).length

/-- The pair that receives a mailbox below 28 (Table 9-5). -/
def mbxPair (m : Nat) : Nat := if m < 8 then 0 else if m < 16 then 1 else if m < 22 then 2 else 3

/-- The receiver's domain of a mailbox (Table 9-5). -/
def mbxDomain (m : Nat) : Nat :=
  if m < 28 then 30 + mbxPair m else if m = 28 ∨ m = 30 then 34 else if m = 29 then 3 else 8

/-- Whether a pair is in reset or fenced. -/
def State.pairOut (s : State) (p : Nat) : Bool := (s.core p).run == .reset || (s.core p).run == .fenced

/-- Whether a mailbox's receiver is out of reach (R230); 28 and 30 are closed while both pairs that receive them are. (DEDUCED, log entry 66) -/
def State.mbxClosed (s : State) (m : Nat) : Bool :=
  decide (2 ≤ s.rd (domState (mbxDomain m))) ||
    (if m < 28 then s.pairOut (mbxPair m)
     else if m = 28 ∨ m = 30 then s.pairOut 0 && s.pairOut 1
     else
       let p := if m = 29 then Port.a else Port.b
       !s.flag (R.PE_LINK_DL_UP.port p) || (s.port p).pfReset)

/-- Bit `m` of MBX_FULL for each mailbox below `n`: 0 while the receiver's domain is OFF or LOST. -/
def State.mbxFull (s : State) : Nat → Nat
  | 0 => 0
  | n + 1 =>
    s.mbxFull n + (if s.flag (R.MBX_HDR1_FULL.mbx n) && decide (s.rd (domState (mbxDomain n)) < 2) then 2 ^ n else 0)

/-- The hold-up monitor: PWRGD high and the rails within range for the last 10 ms (R438). -/
def State.reserveOk (s : State) : Bool :=
  s.pins.pwrgd && [6, 7, 8].all (fun i => !(s.rd R.TMP_COND_SRC).testBit i) && decide (s.lc.railsSince + 1000000 ≤ s.time)

/-- Shared slots that are neither reserved nor hold an owner key-encryption key (PEx_POOL_SLOTS). -/
def State.slotsUnreserved (s : State) : Nat :=
  s.rd R.GLB_CAPACITY_SLOTS_SLOTS - 16 - s.keys.owners.length - s.vfs.foldl (fun a e => a + e.2.slotReserve) 0

/-- Object capacity that no VF reserves, in units of 1,024 objects (PEx_POOL_OBJ). -/
def State.objUnreserved (s : State) : Nat := s.rd R.MEM_OBJ_CAP_CAP - s.vfs.foldl (fun a e => a + e.2.objReserve) 0

/-- Queue pairs free in the pool (PEx_POOL). -/
def State.poolQpFree (s : State) : Nat :=
  1016 - s.vfs.foldl (fun a e => a + e.2.poolQps.length) 0 -
    ((List.range 64).filter fun n => s.flag (R.WLD_NQ_BIND_BOUND.ix n)).length

/-- MSI-X vectors free in the pool (PEx_POOL). -/
def State.poolVecFree (s : State) : Nat := 4096 - s.vfs.foldl (fun a e => a + e.2.vectors) 0

/-- The fields that copy or count other state, by offset and lowest bit. (DESIGN CHOICE, log entry 50) -/
def derivedField (s : State) (off lsb : Nat) : Option Nat :=
  if off = 0x30020 then
    (if lsb = 0 then some s.lc.busy.isSome.toNat else if lsb = 4 then some s.reserveOk.toNat else none)
  else if off = 0x40024 then
    (if lsb = 4 then some (if s.tmp.bbk.isEmpty then 0 else 1) else if lsb = 5 then some (if s.tmp.mainPower then 0 else 1)
     else if lsb = 8 then some (if s.time < 100000 then 0 else (Config.vbatMv (s.time / 100000)).toNat) else none)
  else if off = 0x40038 then (if lsb = 3 then some (s.rd R.GLB_STATUS_SUSPENDED) else if lsb = 4 then some (s.tmp.zeroing || s.tmp.killing).toNat else none)
  else if off = 0x50000 then
    some (if lsb = 0 then s.evr.slots.length else if lsb = 12 then (decide (s.evr.slots.length = 2048)).toNat
      else if lsb = 13 then s.evr.clearing.isSome.toNat else s.evr.queue.length)
  else if off = 0x60000 ∧ lsb = 5 then
    let w := s.dsp.inflight.filter fun c => c.stage == .drawing
    some ((if w.any fun c => c.fn != .nw then 8 else 0) + (if w.any fun c => c.fn == .nw then 16 else 0))
  else if off = 0x70000 then
    (if lsb = 0 then some s.slotsUsed else if lsb = 13 then some (min s.keys.fenced.length 511) else none)
  else if off = 0x70010 then
    some (if lsb = 0 then s.keys.owners.length else s.keys.approvals.length)
  else if off = 0x80008 then
    some (if lsb = 0 then s.rd R.ACT_CTRL_UPDATE else if lsb = 1 then s.rd R.ACT_CTRL_LOCK
      else if lsb = 8 then min s.act.held.length 255
      else ((List.range 256).filter fun i => s.flag (R.ACT_ENT6_ENABLE.ix i)).length)
  else if off = 0x90020 then
    let o := s.rd R.WLD_GPIO_OE_GPIO
    let i := (Config.gpioIn s.time).toNat
    some (Nat.land (s.rd R.WLD_GPIO_OUT_GPIO) o + (i - Nat.land i o))
  else if (off = 0x10148 ∨ off = 0x10158) ∧ lsb = 8 then
    let d := (off - 0x10100) / 4
    some (min 255 (tblGet 0 s.pwr.claims d + s.ddrClaim d))
  else if off = 0x90010 then some (if lsb = 0 then s.rd R.WLD_DBG_SET else if lsb = 4 then s.dbgEff else s.lcAllow.toNat)
  else if off = 0xA1004 then some (s.mbxFull 32)
  else if off = 0xC0000 then
    some (if lsb = 0 then s.dsp.ctxs.length else if lsb = 12 then min s.inflightCount 4095
      else s.rd (R.DSP_CQ_CFG_ENABLE.ix 0) + 2 * s.rd (R.DSP_CQ_CFG_ENABLE.ix 1))
  else if 0xC0020 ≤ off ∧ off < 0xC0034 then
    some (min 65535 (s.dsp.inflight.filter fun c => c.stage == .waiting && c.pool == (off - 0xC0020) / 4 + 1).length)
  else if 0x140000 ≤ off ∧ off < 0x140010 then
    let p := (off - 0x140000) / 4
    (if lsb = 0 then some (s.pairState p) else if lsb = 4 then some (if (s.core p).run = .reset then 0 else (s.core p).level.num) else none)
  else if off = 0x100008 then some (if lsb = 0 then s.poolQpFree else s.poolVecFree)
  else if off = 0x10000C then some s.slotsUnreserved
  else if off = 0x100010 then some s.objUnreserved
  else if off = 0x100000 ∨ off = 0x110000 then
    let p := if off = 0x100000 then Port.a else Port.b
    (if lsb = 16 then some (if (s.port p).vfEnable then (s.port p).numVfs else 0)
     else if lsb = 24 then some ((List.range 128).filter fun n => s.vfActive p (n + 1)).length
     else none)
  else if off = 0x120000 then
    (if lsb = 3 then some s.pins.twRole.toNat else if lsb = 4 then some (!s.pins.twPresentN).toNat else none)
  else if off = 0x120020 then (if lsb = 0 then some s.twn.journal.length else none)
  else if 0x200000 ≤ off ∧ off < 0x400000 ∧ (off - 0x200000) % 0x2000 = 0 then
    let v := (off - 0x200000) / 0x2000
    some (if lsb = 0 then v % 128 + 1 else v / 128)
  else none

/-- What a read sees of a field. -/
def State.see (s : State) (f : Fld) : Nat :=
  match derivedField s f.off f.lsb with
  | some v => v % 2 ^ f.width
  | none => s.rd f

/-- The word of the fields `fs`: WM and WO fields read as zero (R106, Table 0-3). -/
def wordOf (s : State) : List Fld → Nat
  | [] => 0
  | f :: t => (if f.acc = .wm ∨ f.acc = .wo then 0 else s.see f * 2 ^ f.lsb) + wordOf s t

/-- DATA reads as zero while its VALID is 0 (R107, R472). -/
def dataHidden (s : State) (bank off : Nat) : Bool :=
  (decide (0x110 ≤ off) && decide (off < 0x130) && s.rd (R.GLB_WIDE_VALID_VALID.inst bank) == 0) ||
  (decide (0x50080 ≤ off) && decide (off < 0x500C0) && s.rd (R.EVR_RD_VALID_VALID.inst bank) == 0)

/-- Whether a register is banked by requester class. -/
def isBanked (off : Nat) : Bool :=
  off == 0xC || off == 0x18 || (decide (0x100 ≤ off) && decide (off < 0x130)) || off == 0x10020 ||
  (decide (0x50040 ≤ off) && decide (off < 0x50200))

/-- The instance of a banked register that a read shows: the requester's own; debug, which has none, is shown that of the world it names. (DEDUCED, log entry 66) -/
def readBank (who : Requester) : Nat :=
  match who with
  | .debug w => w.num
  | w => (bankOf w).getD 0

/-- The value a direct read of the word at `off` returns, in instance `bank` of banked registers. -/
def State.word (s : State) (bank off : Nat) : Nat :=
  if off = 0x130024 then s.rd R.LTS_USER_PATTERN / 2 ^ 32
  else if off = 0x130020 then s.rd R.LTS_USER_PATTERN % 2 ^ 32
  else if dataHidden s bank off then 0
  else wordOf s ((regFields off).map fun f => if isBanked off then f.inst bank else f)

/-- The world of a WORLD ball: 4 secure, 5 normal (Table 4-9). -/
def gpioMask (s : State) (w : World) : Nat :=
  (List.range 16).foldl (fun a n => if s.cfg.gpioFunc.getD n 0 = (match w with | .secure => 4 | .normal => 5) then a + 2 ^ n else a) 0

/-- Whether a requester is the receiver of a mailbox (Table 9-5). -/
def mbxReceiver (who : Requester) (m : Nat) : Bool :=
  match who with
  | .core p _ _ => if m < 28 then p == mbxPair m else (m == 28 || m == 30) && decide (p < 2)
  | .host .a 0 => m == 29
  | .host .b 0 => m == 31
  | _ => false

/-- Whether a requester may send to a mailbox (Table 9-5). -/
def mbxSender (who : Requester) (m : Nat) : Bool :=
  match who with
  | .core _ w _ => decide (m < 28) || ((m == 29 || m == 31) && w == .secure)
  | .host .a 0 => m == 28
  | .host .b 0 => m == 30
  | _ => false

/-- Whether R229 opens a mailbox word to a requester. -/
def mbxAllowed (who : Requester) (write : Bool) (off : Nat) : Bool :=
  if off = 0xA1000 then (match who with | .core _ _ _ => write | _ => false)
  else if off = 0xA1004 then (match who with | .core _ _ _ => !write | _ => false)
  else if off ≥ 0xA1000 then true
  else
    let m := (off - 0xA0000) / 0x80
    let x := (off - 0xA0000) % 0x80
    if x < 0x40 then (if write then mbxSender who m else mbxReceiver who m)
    else if x = 0x48 ∨ x = 0x54 then mbxSender who m
    else if x ≤ 0x50 then mbxReceiver who m
    else mbxSender who m || mbxReceiver who m

/-- Whether the VF of the window that holds an offset exists on the bus. -/
def State.windowThere (s : State) (off : Nat) : Bool :=
  let v := (off - 0x200000) / 0x2000
  let p := if v < 128 then Port.a else Port.b
  (s.port p).vfEnable && decide (v % 128 < (s.port p).numVfs)

/-- The words that their field tables close to every requester but a core of the secure world, for reads as for writes: BOOT_RESET and PWR_CAP with their complements (R102). (DEDUCED, log entry 66) -/
def secureWords : List Nat := [0x10008, 0x1000C, 0x20008, 0x2000C]

/-- Words of block WLD_ that only a core of the secure world writes. -/
def secureWritten (off : Nat) : Bool := off == 0x90030 || (decide (0x90400 ≤ off) && decide (off < 0x90500))

/-- Whether Table 9-3 opens a word to the normal world. -/
def normalAllowed (write : Bool) (off : Nat) : Bool :=
  let block := off / 0x10000
  if block = 0 then true
  else if block = 1 then !write || off == 0x10020
  else if block = 3 then !write && (off == 0x30000 || off == 0x30020)
  else if block = 6 ∨ block = 0x14 then !write
  else if block = 9 then
    !write || off == 0x90024 || off == 0x90028 || (decide (0x91000 ≤ off) && decide (off < 0x92400))
  else false

/-- Whether the field tables open a word to debug, where Table 9-3 opens it to the world that the access names: a block that "only the secure world reaches" is closed to debug, as are the banked mailboxes and PWR_DOM_REQ (R102, R106). (DEDUCED, log entry 66) -/
def debugAllowed (write : Bool) (off : Nat) : Bool :=
  let block := off / 0x10000
  if block = 0 then !(decide (0x100 ≤ off) && decide (off < 0x130))
  else if block = 1 then off != 0x10020
  else if block = 2 then !(write && off == 0x20028)
  else if block = 3 ∨ block = 6 then !write
  else if block = 9 then !(write && secureWritten off)
  else false

/-- Whether Table 9-3 and the field tables open the register word at `off` to a requester. (DEDUCED, log entry 66) -/
def regAllowed (s : State) (who : Requester) (write : Bool) (off : Nat) : Bool :=
  let block := off / 0x10000
  if off ≥ 0x400000 ∨ (0x150000 ≤ off ∧ off < 0x200000) then false
  else if block = 0xA then mbxAllowed who write off
  else match who with
  | .core _ .secure lvl =>
    if 0x200000 ≤ off then !s.windowThere off || decide ((off - 0x200000) % 0x2000 ≥ 0x100)
    else if write ∧ (off = 0x80000 ∨ off = 0x80004 ∨ (0x81000 ≤ off ∧ off < 0x83000)) then lvl == .m
    else true
  | .core _ .normal _ => !secureWords.contains off && normalAllowed write off
  | .host p 0 =>
    if secureWords.contains off then false
    else if block = 0 then true
    else if block = 1 then !write && off != 0x10020
    else if block = 2 then !write
    else if block = 3 then !write && (off == 0x30000 || off == 0x30020)
    else if block = 5 then true
    else if block = 0x10 ∨ block = 0x11 then
      block == 0x10 + p.num && !(write && decide (off % 0x10000 ≥ 0x1000) && decide (off % 0x10000 < 0x1400))
    else if block = 0x13 then s.recovery
    else if block = 0x14 then !write
    else if 0x200000 ≤ off then
      decide ((off - 0x200000) / 0x2000 / 128 = p.num) && (!s.windowThere off || decide ((off - 0x200000) % 0x2000 ≥ 0x100))
    else false
  | .host p v =>
    decide (0x200000 + 0x2000 * vfIndex p v ≤ off) && decide (off < 0x202000 + 0x2000 * vfIndex p v)
  | .debug w =>
    !secureWords.contains off && debugAllowed write off && (match w with | .secure => true | .normal => normalAllowed write off)

/-- The domain a register word lives in, where an access may find it BASKING, OFF or LOST: a mailbox lives in its receiver's domain (R225), the test block in its own. -/
def wordDomain (off : Nat) : Option Nat :=
  if 0x130000 ≤ off ∧ off < 0x140000 then some 59
  else if 0xA0000 ≤ off ∧ off < 0xA1000 then some (mbxDomain ((off - 0xA0000) / 0x80))
  else none

/-- Whether the block at an offset answers: a mailbox is closed while its receiver is out of reach (R230), the test block may be OFF (R57). -/
def State.blockAnswers (s : State) (off : Nat) : Bool :=
  if 0x130000 ≤ off ∧ off < 0x140000 then s.domAnswers 59
  else if 0xA0000 ≤ off ∧ off < 0xA1000 then !s.mbxClosed ((off - 0xA0000) / 0x80)
  else true

/-- An access to the word at an offset wakes the domain it lives in (R57, R230). -/
def State.wakeWord (s : State) (off : Nat) : State :=
  match wordDomain off with
  | some d => s.wake d
  | none => s

/-- What a read of the register word at `off` answers: a value, or an error response. -/
def State.regRead (s : State) (who : Requester) (off : Nat) : Option Nat :=
  if off % 4 ≠ 0 ∨ regAllowed s who false off = false ∨ s.blockAnswers off = false then none
  else if off = 0x90020 ∨ off = 0x90024 ∨ off = 0x90028 then
    some (Nat.land (s.word 0 off) (gpioMask s (worldOf who)))
  else if 0x200000 ≤ off ∧ s.windowThere off = false then some 0
  else some (s.word (readBank who) off)

/-- The wide value at an offset (R106). -/
def State.wide (s : State) (off : Nat) : Option Nat :=
  if off = 0x40 then some Config.serial.toNat
  else match (regFields off).filter (fun f => f.acc == .wm) with
    | f :: _ => some (s.rd f)
    | [] => none

end Sys2Proof.Machine
end

