-- ==== Sys2Proof/Machine/Recorder.lean ====
section
/-! DEFINITION. The event recorder's operations: deciding, queueing and storing records (chapter 20). -/

namespace Sys2Proof.Machine

/-- The offset of the event register of an event source; `none` for a source that has none (Table 6-8). -/
def evtOffset (source : Nat) : Option Nat :=
  if source < 16 then some 0x40010
  else if source < 24 then some 0x40014
  else if source = 32 ∨ source = 40 then some 0x10014
  else if source = 33 then some 0x20014
  else if source = 34 then some 0xC
  else if source = 35 then some 0x18
  else if source = 36 then some 0x30024
  else if source = 37 then some 0x100004
  else if source = 38 then some 0x110004
  else if source = 39 then some 0x50004
  else if 64 ≤ source ∧ source < 128 then some (0xA0050 + (source - 64) / 2 * 0x80 + (source % 2) * 4)
  else if 128 ≤ source ∧ source < 146 then some (0xD0080 + 4 * (source - 128))
  else if 146 ≤ source ∧ source < 155 then some (0xE0080 + 4 * (source - 146))
  else if 155 ≤ source ∧ source < 160 then some (0xF0080 + 4 * (source - 155))
  else if 160 ≤ source ∧ source < 163 then some (0xF4080 + 4 * (source - 160))
  else if 163 ≤ source ∧ source < 172 then some (0xF8080 + 4 * (source - 163))
  else if 192 ≤ source ∧ source < 196 then some (0x60140 + 4 * (source - 192))
  else if source = 196 then some 0x60004
  else if source = 200 then some 0x70004
  else if source = 201 then some 0xC0004
  else if source = 208 then some 0xB000C
  else if source = 209 then some 0xB100C
  else if source = 216 then some 0x8000C
  else if source = 224 then some 0x120004
  else none

/-- The recorder trigger class of a source (R91). -/
def recClass (source : Nat) : Nat :=
  if source < 32 then 0 else if source < 64 then 1 else if source < 128 then 2
  else if source < 192 then 3 else if source < 256 then 4 else 5

/-- MIN_SEV of a source's class; without a RECORDER section 0, and 2 for class 5 (R468). (DESIGN CHOICE, log entry 20) -/
def recMinSev (s : State) (source : Nat) : Nat :=
  match s.cfg.recorder[recClass source]? with
  | some c => c.minSev
  | none => if recClass source = 5 then 2 else 0

/-- A direct read by the secure world of a snapshot offset: its value, and whether it met an error response (R469). -/
def snapOf (s : State) (off : Nat) : Nat × Bool :=
  if off = 0xFFFFFFFF then (0, false)
  else match s.regRead (.core 0 .secure .m) off with
    | some v => (v, false)
    | none => (0, true)

/-- The snapshots of a class: eight words, and the SNAP_ERR bits. (DESIGN CHOICE, log entry 20) -/
def snapsOf (s : State) (source : Nat) : List Nat × Nat :=
  match s.cfg.recorder[recClass source]? with
  | some c =>
    if s.boot.applied then
      let r := (c.offs.take 8).map (snapOf s)
      ((r.map Prod.fst ++ List.replicate (8 - r.length) 0), bitsOf 0 (r.map Prod.snd))
    else (List.replicate 8 0, 0)
  | none => (List.replicate 8 0, 0)
where
  /-- The number whose bit `i` is element `i`. -/
  bitsOf (i : Nat) : List Bool → Nat
    | [] => 0
    | b :: t => (if b then 2 ^ i else 0) + bitsOf (i + 1) t

/-- The record that a decision makes now. -/
def State.mkRec (s : State) (kind source sev arg : Nat) : Rec :=
  { kind := kind, source := source, sev := sev, seq := s.rd R.EVR_NEXT_SEQ_SEQ,
    time := s.rd R.TMP_TIME_TICKS % 2 ^ 48, hours := s.rd R.TMP_HOURS_COUNT, cycles := s.rd R.TMP_CYCLES_COUNT,
    arg := arg % 2 ^ 64, snaps := (snapsOf s source).1, snapErr := (snapsOf s source).2 }

/-- The lowest severity in a list of records, 8 where it is empty. -/
def lowestSev (l : List Rec) : Nat := l.foldl (fun a r => min a r.sev) 8

/-- The newest record of severity `sev`: the highest SEQ. -/
def newestOf (sev : Nat) (l : List Rec) : Nat := l.foldl (fun a r => if r.sev = sev then max a r.seq else a) 0

/-- A dropped record counts (R471). -/
def State.dropRecord (s : State) : State := (s.satAdd R.EVR_DROPPED_COUNT 1).setEvt R.EVR_EVT_DROPPED

/-- A decided record enters the queue of 32, with the drop rule of R470. -/
def State.enqueueRec (s : State) (r : Rec) : State :=
  let q := s.evr.queue
  if q.length < 32 then { s with evr := { s.evr with queue := q ++ [r] } }
  else
    let low := lowestSev q
    if low < r.sev then
      let q := q.filter fun x => !(x.sev == low && x.seq == newestOf low q)
      (({ s with evr := { s.evr with queue := q ++ [r] } }) : State).dropRecord
    else s.dropRecord

/-- Deciding a record: the filter of R468, SEQ (R466), the pending queue. (DESIGN CHOICE, log entry 20) -/
def State.decideRecord (s : State) (kind source sev arg : Nat) : State :=
  if 2 ≤ kind ∧ kind ≤ 7 ∧ sev < recMinSev s source then s.satAdd R.EVR_FILTERED_COUNT 1
  else (s.wrapAdd R.EVR_NEXT_SEQ_SEQ 1).enqueueRec (s.mkRec kind source sev arg)

/-- The header word of a record, VALID set (Table 20-2). -/
def Rec.header (r : Rec) : Nat :=
  1 + r.sev % 8 * 2 + r.source % 512 * 16 + r.kind % 16 * 8192 + r.snapErr % 256 * 131072

/-- The 64 bytes of a record with a given CHECK byte (Table 20-1). -/
def Rec.raw (r : Rec) (check : Nat) : List Byte :=
  leBytes 4 r.header ++ leBytes 4 r.seq ++ leBytes 6 r.time ++ leBytes 1 0 ++ leBytes 1 check ++
  leBytes 4 r.hours ++ leBytes 4 r.cycles ++ leBytes 8 r.arg ++
  (r.snaps.take 8).flatMap (leBytes 4)

/-- The 64 bytes of a record, CHECK as R465 states. -/
def Rec.bytes (r : Rec) : List Byte := r.raw (crc8 (fit 64 (r.raw 0)))

/-- The 64 bytes of a slot; an empty slot reads as zeros (R464). -/
def State.slotBytes (s : State) (slot : Nat) : List Byte :=
  match tblGet none s.evr.slots slot with
  | some r => fit 64 r.bytes
  | none => zeros 64

/-- The stored records, by slot. -/
def State.stored (s : State) : List (Nat × Rec) := s.evr.slots.filterMap fun e => e.2.map fun r => (e.1, r)

/-- The empty slots. -/
def State.emptySlots (s : State) : List Nat := (List.range 2048).filter fun i => (tblGet none s.evr.slots i).isNone

/-- The slot of the oldest stored record of the lowest severity present, with that severity. -/
def oldestLowest (l : List (Nat × Rec)) : Option (Nat × Nat) :=
  let low := lowestSev (l.map Prod.snd)
  (l.foldl (fun (a : Option (Nat × Nat × Nat)) e =>
    if e.2.sev = low then
      (match a with
       | some (_, _, q) => if e.2.seq < q then some (e.1, low, e.2.seq) else a
       | none => some (e.1, low, e.2.seq))
    else a) none).map fun x => (x.1, x.2.1)

/-- A record is placed in a slot. -/
def State.putRec (s : State) (slot : Nat) (r : Rec) : State :=
  { s with evr := { s.evr with slots := tblPut none s.evr.slots slot (some r) } }

/-- Storing a record (R471). Which empty slot takes it is a free value. (DESIGN CHOICE, log entry 20) -/
def State.storeRec (s : State) (r : Rec) : State :=
  match s.emptySlots with
  | e :: es =>
    let (n, s) := s.freeNat 2
    let s := (s.putRec ((e :: es).getD (n % (es.length + 1)) e) r).setEvt R.EVR_EVT_STORED
    if es.isEmpty then s.setEvt R.EVR_EVT_FULL else s
  | [] =>
    match oldestLowest s.stored with
    | some (slot, sev) =>
      if sev < r.sev ∨ (r.kind = 8 ∧ sev = 7) then
        (((s.putRec slot r).satAdd R.EVR_OVERWR_COUNT 1).setEvt R.EVR_EVT_OVERWRITE).setEvt R.EVR_EVT_STORED
      else s.dropRecord
    | none => s.dropRecord

/-- The queued record served next: highest severity, then lowest SEQ; during a clearing only an ALARM record (R470, R473). (DESIGN CHOICE, log entry 20) -/
def State.nextRec (s : State) : Option Rec :=
  let q := if s.evr.clearing.isSome then s.evr.queue.filter (·.kind == 1) else s.evr.queue
  q.foldl (fun (a : Option Rec) r =>
    match a with
    | none => some r
    | some b => if b.sev < r.sev ∨ (b.sev = r.sev ∧ r.seq < b.seq) then some r else a) none

/-- Completing with INTERNAL is recorded (Table 20-3, kind 5). -/
def State.recordInternal (s : State) (source detail cid vf port : Nat) : State :=
  s.decideRecord 5 source 3 (detail % 65536 + cid % 65536 * 2 ^ 16 + vf % 256 * 2 ^ 32 + port % 2 * 2 ^ 40)

end Sys2Proof.Machine
end

