-- ==== Sys2Proof/Machine/Access.lean ====
section
/-! DEFINITION. The interconnect access table: areas, permissions, code regions, violations, and the bytes of internal memory (chapters 09, 10). -/

namespace Sys2Proof.Machine

/-- The areas of the internal address map that the baseline tells apart (Tables 5-1 and 10-3). -/
inductive Area | rom | secSram | norSram | opWin | regSpace | secDdr | norDdr | unmapped
deriving DecidableEq, Repr

/-- The base of general SRAM, of the operand windows, of the register space, of the bit window, of DDR5. -/
def sramBase : Nat := 0x10000000

/-- The operand windows of the engines. -/
def opWinBase : Nat := 0x20000000

/-- The register space. -/
def regBase : Nat := 0x40000000

/-- The bit-alias window. -/
def bitBase : Nat := 0x50000000

/-- DDR5. -/
def ddrBase : Nat := 0x100000000

/-- The area an internal address lies in; secure or normal by the watermarks (R207). -/
def State.areaOf (s : State) (a : Nat) : Area :=
  if a < 0x40000 then .rom
  else if sramBase ≤ a ∧ a < sramBase + 0x800000 then
    if a - sramBase < s.rd R.WLD_SRAM_WM_WM * 0x10000 then .secSram else .norSram
  else if opWinBase ≤ a ∧ a < opWinBase + 0x1000000 then .opWin
  else if regBase ≤ a ∧ a < regBase + 0x400000 then .regSpace
  else if bitBase ≤ a ∧ a < bitBase + 0x2000000 then .regSpace
  else if ddrBase ≤ a ∧ a < ddrBase + 0x4000000000 then
    if a - ddrBase < s.rd R.WLD_DDR_WM_WM * 0x40000000 then .secDdr else .norDdr
  else .unmapped

/-- The unit whose operand window holds an address: its pool and number (R327, chapters 15 to 17). -/
def opWinUnit (a : Nat) : Option (Pool × Nat) :=
  let o := a - opWinBase
  if o < 0x240000 then some (.lattice, o / 0x20000)
  else if o < 0x240000 + 9 * 0x8000 then some (.hash, (o - 0x240000) / 0x8000)
  else if 0x300000 ≤ o ∧ o < 0x350000 then some (.bignum, (o - 0x300000) / 0x10000)
  else if 0x380000 ≤ o ∧ o < 0x380000 + 9 * 0x4000 then some (.sym, (o - 0x380000) / 0x4000)
  else if 0x400000 ≤ o ∧ o < 0x700000 then some (.code, (o - 0x400000) / 0x100000)
  else none

/-- Whether the operand window at an address is open to a core: its unit is fenced and its clearing succeeded (R327, R354). -/
def State.opWinOpen (s : State) (a : Nat) : Bool :=
  match opWinUnit a with
  | some (p, u) => s.rd (unitState p u) == 5 && tblGet 0 s.eng.afterClear (unitKey p u) == 0
  | none => false

/-- A core class of world S. -/
def classCoreS (c : Nat) : Bool := c == 3 || c == 5 || c == 7 || c == 9

/-- A core class of world N. -/
def classCoreN (c : Nat) : Bool := c == 4 || c == 6 || c == 8 || c == 10

/-- The test block reaches DDR5 in the test states only (Table 10-3). (DEDUCED, log entry 43) -/
def State.testDdr (s : State) : Bool := lcUnlocked s.lcState || s.lcState == 18

/-- The baseline nibble of a class for an address (Table 10-3). -/
def State.baseline (s : State) (cls a : Nat) : Nat :=
  match s.areaOf a with
  | .rom => if classCoreS cls then 5 else 0
  | .secSram => if classCoreS cls then 7 else if cls = 2 ∨ cls = 11 ∨ cls = 12 ∨ cls = 13 then 3 else 0
  | .norSram =>
    if classCoreS cls then 7 else if classCoreN cls then 15
    else if cls = 11 ∨ cls = 12 ∨ cls = 13 then 11 else 0
  | .opWin => if classCoreS cls then (if s.opWinOpen a then 3 else 0) else if cls = 12 ∨ cls = 13 then 3 else 0
  | .regSpace =>
    if classCoreS cls ∨ cls = 0 ∨ cls = 1 then 3 else if classCoreN cls ∨ cls = 11 then 11
    else if cls = 14 then (if regBase + 0x130000 ≤ a ∧ a < regBase + 0x140000 then 3 else 0) else 0
  | .secDdr =>
    if classCoreS cls then 7 else if cls = 2 ∨ cls = 11 ∨ cls = 12 ∨ cls = 13 then 3
    else if cls = 14 ∧ s.testDdr then 3 else 0
  | .norDdr =>
    if classCoreS cls then 7 else if classCoreN cls then 15
    else if cls = 11 ∨ cls = 12 ∨ cls = 13 then 11
    else if cls = 14 ∧ s.testDdr then 3 else 0
  | .unmapped => 0

/-- Whether a nibble grants a kind of access in a world (Table 10-2). -/
def nibbleGrants (n : Nat) (kind : AccKind) (normal : Bool) : Bool :=
  n.testBit (match kind with | .read => 0 | .write => 1 | .fetch => 2) && (!normal || n.testBit 3)

/-- BASE and LIMIT of a region entry. -/
def State.entBase (s : State) (i : Nat) : Nat :=
  s.rd (R.ACT_ENT0_BASE_LO.ix i) * 0x1000 + s.rd (R.ACT_ENT1_BASE_HI.ix i) * 0x100000000

/-- LIMIT of entry `i`, in granules of 4 KiB. -/
def State.entLimit (s : State) (i : Nat) : Nat :=
  0xFFF + s.rd (R.ACT_ENT2_LIMIT_LO.ix i) * 0x1000 + s.rd (R.ACT_ENT3_LIMIT_HI.ix i) * 0x100000000

/-- The nibble of a class in a region entry. -/
def State.entNibble (s : State) (i cls : Nat) : Nat :=
  bits (s.rd (R.ACT_ENT4_PERM_LO.ix i) + s.rd (R.ACT_ENT5_PERM_HI.ix i) * 0x100000000) (4 * cls) 4

/-- Whether an enabled entry covers an address (R236). -/
def State.entCovers (s : State) (i a : Nat) : Bool :=
  s.flag (R.ACT_ENT6_ENABLE.ix i) && decide (s.entBase i ≤ a) && decide (a ≤ s.entLimit i)

/-- Whether an address lies in a code region given by its first and last page. -/
def inCode (base last a : Nat) : Bool :=
  decide (sramBase + base * 0x1000 ≤ a) && decide (a ≤ sramBase + last * 0x1000 + 0xFFF)

/-- Whether the code-region rule of R209 refuses an access. -/
def State.codeRefuses (s : State) (cls : Nat) (kind : AccKind) (world : World) (a : Nat) : Bool :=
  let sIn := inCode (s.rd R.WLD_SCODE_BASE) (s.rd R.WLD_SCODE_LAST) a
  let nIn := inCode (s.rd R.WLD_NCODE_BASE) (s.rd R.WLD_NCODE_LAST) a
  match kind with
  | .write => (s.flag R.WLD_SCODE_EN && sIn) || (s.flag R.WLD_NCODE_EN && nIn)
  | .fetch =>
    (classCoreS cls || classCoreN cls) && decide (0x40000 ≤ a) &&
      (match world with
       | .secure => s.flag R.WLD_SCODE_EN && !sIn
       | .normal => s.flag R.WLD_NCODE_EN && !nIn)
  | .read => false

/-- The lowest-numbered entry below `n` that refuses an access. -/
def State.refusingEntry (s : State) (cls : Nat) (kind : AccKind) (normal : Bool) (a : Nat) : Nat → Option Nat
  | 0 => none
  | n + 1 =>
    match s.refusingEntry cls kind normal a n with
    | some i => some i
    | none => if s.entCovers n a && !nibbleGrants (s.entNibble n cls) kind normal then some n else none

/-- Why a beat is refused: SOURCE and ENTRY of ACT_VIOL_INFO (R237). (DEDUCED, log entry 14) -/
def State.beatRefusal (s : State) (cls : Nat) (kind : AccKind) (world : World) (a : Nat) : Option (Nat × Nat) :=
  let normal := decide (world = .normal) && decide (2 ≤ cls)
  if s.areaOf a = .unmapped then some (4, 0)
  else if !nibbleGrants (s.baseline cls a) kind normal then some (2, 0)
  else if s.codeRefuses cls kind world a then some (3, 0)
  else if s.flag R.ACT_CTRL_UPDATE then none
  else (s.refusingEntry cls kind normal a 256).map fun i => (1, i)


/-- A violation is counted and captured (R244). (DEDUCED, log entry 14) -/
def State.violation (s : State) (cls : Nat) (world : World) (kind : AccKind) (source entry a : Nat) : State :=
  let s :=
    if s.flag R.ACT_EVT_VIOLATION then s.satAdd R.ACT_VIOL_COUNT_COUNT 1
    else
      (((((s.wr R.ACT_VIOL_INFO_CLASS cls).wr R.ACT_VIOL_INFO_WORLD (if 2 ≤ cls then world.num else 0)).wr
        R.ACT_VIOL_INFO_KIND (match kind with | .read => 0 | .write => 1 | .fetch => 2)).wr R.ACT_VIOL_INFO_SOURCE source).wr
        R.ACT_VIOL_INFO_ENTRY entry).wr R.ACT_VIOL_ADDR_ADDR (a % 2 ^ 40)
  s.setEvt R.ACT_EVT_VIOLATION

/-- The beats of an access: address and length of each part within its aligned 32 bytes (R238). -/
def beatsOf : Nat → Nat → Nat → List (Nat × Nat)
  | 0, _, _ => []
  | fuel + 1, a, len =>
    if len = 0 then []
    else
      let n := min len (32 - a % 32)
      (a, n) :: beatsOf fuel (a + n) (len - n)

/-- The beats of an access of `len` bytes. -/
def beats (a len : Nat) : List (Nat × Nat) := beatsOf (len / 32 + 2) a len

/-- The first refused beat of an access: its address, SOURCE and ENTRY. -/
def State.firstRefusal (s : State) (cls : Nat) (kind : AccKind) (world : World) : List (Nat × Nat) → Option (Nat × Nat × Nat)
  | [] => none
  | (a, _) :: t =>
    match s.beatRefusal cls kind world a with
    | some (src, e) => some (a, src, e)
    | none => s.firstRefusal cls kind world t

/-- The channel of a DDR5 offset, with the offset within it (R251). -/
def State.chanOf (s : State) (off : Nat) : Option (Nat × Nat) :=
  if off < s.capBytes 0 then some (0, off)
  else if off - s.capBytes 0 < s.capBytes 1 then some (1, off - s.capBytes 0)
  else none

/-- Whether a channel answers: trained, not LOST, STOPPED or under test, its domains not OFF or LOST (R57, R251, R258). -/
def State.chanUp (s : State) (c : Nat) : Bool :=
  (s.rd (R.MEM_STATUS_STATE.mem c) == 2 || s.rd (R.MEM_STATUS_STATE.mem c) == 3) && s.domAnswers (18 + 4 * c)

/-- Whether a line of a channel is filled: below the front or in a recorded block (R264). -/
def State.lineFilled (s : State) (c off : Nat) : Bool :=
  s.flag (R.MEM_FILL_DONE.mem c) || decide (off / 0x10000 < (s.chan c).sweep) || (s.chan c).ooo.contains (off / 0x10000)

/-- Blocks of 64 KiB of a channel. -/
def State.chanBlocks (s : State) (c : Nat) : Nat := s.capBytes c / 0x10000

/-- The sweep skips the blocks filled ahead of it (R264). -/
def skipBlocks (ooo : List Nat) : Nat → Nat → Nat
  | 0, n => n
  | fuel + 1, n => if ooo.contains n then skipBlocks ooo fuel (n + 1) else n

/-- The sweep has filled every block below `n`; recorded blocks it has passed leave the record. (DEDUCED, log entry 43) -/
def State.sweepTo (s : State) (c n : Nat) : State :=
  let ch := s.chan c
  let n := min (skipBlocks ch.ooo ch.ooo.length n) (s.chanBlocks c)
  let ooo := ch.ooo.filter fun b => decide (n ≤ b)
  ((s.setChan c { ch with sweep := n, ooo := ooo }).wr (R.MEM_FILL_FRONT_MIB.mem c) (n / 16)).wr (R.MEM_FILL_OOO.mem c) ooo.length

/-- The block of a held access is filled ahead of the sweep; with a full record the access waits for the sweep (R264). (DEDUCED, log entry 43) -/
def State.fillBlock (s : State) (c b : Nat) : State :=
  let ch := s.chan c
  if ch.ooo.length < 4096 then
    (s.setChan c { ch with ooo := b :: ch.ooo }).wr (R.MEM_FILL_OOO.mem c) (ch.ooo.length + 1)
  else s.sweepTo c (b + 1)

/-- The channel and line of an address in DDR5. -/
def State.lineOf (s : State) (a : Nat) : Option (Nat × Nat) :=
  if ddrBase ≤ a then (s.chanOf (a - ddrBase)).map fun x => (x.1, x.2 / 64) else none

/-- What the read of a line comes to (R255). -/
inductive LineRead
  /-- The tags are equal. -/
  | good
  /-- Exactly one trial matches: the symbol rebuilt, 8 for the tag. -/
  | corrected (symbol : Nat)
  /-- Only the parity symbol differs. -/
  | parity
  | uncorrectable
deriving DecidableEq, Repr

/-- The symbols in which a stored line differs from its own bits: 0 to 7 of the data, 8 the tag, 9 the parity (R254). -/
def errSymbols (x : BitVec 640) : List Nat := (List.range 10).filter fun i => bits x.toNat (64 * i) 64 != 0

/-- Tag comparison and the nine trials of R255. A trial rebuilds one symbol from the parity and the others, so it gives the line back where that symbol alone is wrong; a tag is taken to match its own line and offset only (R256, R262). (DESIGN CHOICE, log entry 64) -/
def readOf : Option LineErr → LineRead
  | none => .good
  | some (.flips x) => (match errSymbols x with | [] => .good | [9] => .parity | [k] => .corrected k | _ => .uncorrectable)
  | some .foreign => .uncorrectable

/-- What the read of a line of a channel comes to; under EXTEST no line can be read (R445). -/
def State.lineRead (s : State) (c l : Nat) : LineRead :=
  if s.tap.extest then .uncorrectable else readOf (tblGet none (s.chan c).errs l)

/-- Whether the line at an address is beyond correction. -/
def State.badAt (s : State) (a : Nat) : Bool :=
  match s.lineOf a with
  | some (c, l) => s.lineRead c l == .uncorrectable
  | none => false

/-- The domain that an address outside DDR5 lies in: general SRAM, or the unit of an operand window. -/
def State.memDomain (s : State) (a : Nat) : Option Nat :=
  match s.areaOf a with
  | .secSram => some 34
  | .norSram => some 35
  | .opWin => (opWinUnit a).map fun x => unitDomain x.1 x.2
  | _ => none

/-- Whether the memory behind an address takes an access at all (R57, R251, R258). -/
def State.memUp (s : State) (a : Nat) : Bool :=
  match s.areaOf a with
  | .secDdr | .norDdr =>
    (match s.chanOf (a - ddrBase) with
     | some (c, _) => s.chanUp c
     | none => false)
  | _ => (match s.memDomain a with | some d => s.domAnswers d | none => true)

/-- An access wakes the domain of its memory (R57). -/
def State.wakeMem (s : State) (a : Nat) : State :=
  match s.memDomain a with
  | some d => s.wake d
  | none => s

/-- Whether the memory behind an address answers a read or a partial write. -/
def State.memAnswers (s : State) (a : Nat) : Bool := s.memUp a && !s.badAt a

/-- An access to an unfilled block waits until its block is filled (R264). -/
def State.awaitFill (s : State) (a : Nat) : State :=
  match s.lineOf a with
  | some (c, l) => if s.chanUp c && !s.lineFilled c (64 * l) then s.fillBlock c (l / 1024) else s
  | none => s

/-- The DDR5 offset of a line of a channel. -/
def State.lineAddr (s : State) (c l : Nat) : Nat := 64 * l + (if c = 0 then 0 else s.capBytes 0)

/-- An error of a line is captured: the first since CE or UE was cleared, or an uncorrectable one over a corrected one. -/
def State.captureErr (s : State) (c l kind pos : Nat) (scrub : Bool) : State :=
  let ch := s.chan c
  if ch.captured && !(kind == 2 && s.rd (R.MEM_ERR_INFO_KIND.mem c) != 2) then s
  else
    let s := s.setChan c { ch with captured := true }
    ((((s.wr (R.MEM_ERR_INFO_KIND.mem c) kind).wr (R.MEM_ERR_INFO_SUBCH.mem c) l).wr (R.MEM_ERR_INFO_POS.mem c) pos).wr
      (R.MEM_ERR_INFO_SCRUB.mem c) scrub.toNat).wr (R.MEM_ERR_ADDR_ADDR.mem c) (s.lineAddr c l)

/-- Errors more in the stored bits of a line. -/
def addErr (e : Option LineErr) (x : BitVec 640) : Option LineErr :=
  match e with
  | some .foreign => some .foreign
  | some (.flips y) => if y ^^^ x = 0 then none else some (.flips (y ^^^ x))
  | none => if x = 0 then none else some (.flips x)

/-- The stored bits of a line change. -/
def State.setErr (s : State) (c l : Nat) (e : Option LineErr) : State :=
  s.setChan c { s.chan c with errs := tblPut none (s.chan c).errs l e }

/-- A line whose stored bits are written anew has no error left (R259). -/
def State.cleanLine (s : State) (c l : Nat) : State :=
  s.setErr c l none

/-- The bits of a line that DRAM device `n` carries: a symbol of a ×4 device, two symbols of a ×8 device (R254, R256). -/
def deviceBits (wide : Bool) (n : Nat) (x : BitVec 128) : BitVec 640 :=
  if wide then BitVec.ofNat 640 (x.toNat * 2 ^ (128 * (n % 5))) else BitVec.ofNat 640 (x.toNat % 2 ^ 64 * 2 ^ (64 * (n % 10)))

/-- Storing bytes from `a` on. -/
def memPut (m : Tbl Byte) (a : Nat) : List Byte → Tbl Byte
  | [] => m
  | b :: t => memPut (tblPut 0 m a b) (a + 1) t

/-- What has befallen the stored bits of a line since they were last read or written (R256, Table 11-4). -/
def State.befall (s : State) (c l : Nat) (e : LineEvent) : State :=
  match e with
  | .none => s
  | .flips x => s.setErr c l (addErr (tblGet none (s.chan c).errs l) x)
  | .device n x => s.setErr c l (addErr (tblGet none (s.chan c).errs l) (deviceBits (s.flag (R.MEM_CFG_WIDTH.mem c)) n x))
  | .moved off => if off / 64 * 64 = s.lineAddr c l then s else s.setErr c l (some .foreign)
  | .altered | .earlierBoot => s.setErr c l (some .foreign)
  | .replayed data =>
    let s := s.setErr c l none
    { s with mem := memPut s.mem (ddrBase + s.lineAddr c l) (fit 64 data) }

/-- What has befallen the lines from the one at an address on. -/
def befallFrom (a : Nat) : List LineEvent → State → State
  | [], s => s
  | e :: t, s => befallFrom (a + 64) t (match s.lineOf a with | some (c, l) => s.befall c l e | none => s)

/-- A corrected error of a line: `pos` is the symbol rebuilt, 15 with KIND 3 for the parity symbol; the line is written back (R255). -/
def State.corrected (s : State) (c l kind pos : Nat) (scrub : Bool) : State :=
  (((s.cleanLine c l).captureErr c l kind pos scrub).satAdd (R.MEM_CE_COUNT_COUNT.mem c) 1).setEvt (R.MEM_EVT_CE.mem c)

/-- MEM_INTEGRITY fires; the alarm is decided once the access is over. -/
def State.fireMem (s : State) : State := { s with tmp := { s.tmp with due := s.tmp.due ++ [15] } }

/-- An uncorrectable line, which keeps its stored bits (R257). -/
def State.uncorrectable (s : State) (c l : Nat) (scrub : Bool) : State :=
  (((s.captureErr c l 2 15 scrub).satAdd (R.MEM_UE_COUNT_COUNT.mem c) 1).setEvt (R.MEM_EVT_UE.mem c)).fireMem

/-- What a read of a line does besides: corrections are counted and written back, an uncorrectable line fires MEM_INTEGRITY (R255, R257). -/
def State.checkLine (s : State) (c l : Nat) (scrub : Bool) : State :=
  match s.lineRead c l with
  | .good => s
  | .corrected k => s.corrected c l 1 k scrub
  | .parity => s.corrected c l 3 15 scrub
  | .uncorrectable => s.uncorrectable c l scrub

/-- A partial write that met an uncorrectable line (R260). -/
def State.rmwFail (s : State) (c l : Nat) : State := (s.uncorrectable c l false).setEvt (R.MEM_EVT_RMW_FAIL.mem c)

/-- A byte of internal memory as stored. (DESIGN CHOICE, log entry 4) -/
def State.byte (s : State) (a : Nat) : Byte := if a < 0x40000 then Config.rom a else tblGet 0 s.mem a

/-- `n` bytes of internal memory from `a` on. -/
def State.bytes (s : State) (a : Nat) : Nat → List Byte
  | 0 => []
  | n + 1 => s.byte a :: s.bytes (a + 1) n

/-- Whether a line is one of those that `len` bytes from `a` touch. -/
def lineIn (a len l : Nat) : Bool := decide (a / 64 ≤ l) && decide (l ≤ (a + len - 1) / 64)

/-- A pair as a write leaves it: its reservation and its data-cache lines on the lines written are gone (R188, R189). -/
def Core.snoop (c : Core) (a len : Nat) : Core :=
  { c with
    resv := match c.resv with | some l => if lineIn a len l then none else some l | none => none,
    dcache := c.dcache.filter fun x => !lineIn a len (x.addr / 64) }

/-- Every pair sees a write. (DEDUCED, log entry 27) -/
def snoopAll (cores : Tbl Core) (a len : Nat) : Tbl Core := cores.map fun e => (e.1, e.2.snoop a len)

/-- Storing bytes in internal memory: stores take reservations and cached copies away. -/
def State.setBytes (s : State) (a : Nat) (l : List Byte) : State :=
  { s with mem := memPut s.mem a l, cores := snoopAll s.cores a l.length }

/-- A refusal, if there is one, is counted as one violation. -/
def State.noteRefusal (s : State) (cls : Nat) (world : World) (kind : AccKind) (r : Option (Nat × Nat × Nat)) : State :=
  match r with
  | some (a, src, e) => s.violation cls world kind src e a
  | none => s

/-- The beats of an access that the table lets through and whose memory takes accesses. -/
def State.openBeats (s : State) (cls : Nat) (kind : AccKind) (world : World) (bs : List (Nat × Nat)) : List (Nat × Nat) :=
  bs.filter fun b => (s.beatRefusal cls kind world b.1).isNone && s.memUp b.1

/-- The lines of DDR5 that some beats touch. -/
def State.linesOf (s : State) (bs : List (Nat × Nat)) : List (Nat × Nat) := (bs.filterMap fun b => s.lineOf b.1).dedup

/-- One line access as its channel serves it: the answer, `none` for an error response (R255 to R260). -/
def State.serveLine (s : State) (x : LineAccess) : Option (List Byte) × State :=
  match s.lineOf (ddrBase + x.off) with
  | none => (none, s)
  | some (c, l) =>
    let a := ddrBase + x.off
    let bad := s.lineRead c l == .uncorrectable
    if !s.chanUp c then (none, s)
    else if x.data.isEmpty then
      (if bad then none else some (s.bytes (ddrBase + x.off / 64 * 64) 64), s.checkLine c l (x.who == .scrub))
    else if x.off % 64 = 0 ∧ x.data.length = 64 then
      (some [], if s.tap.extest then s else (s.cleanLine c l).setBytes a x.data)
    else if bad then (none, s.rmwFail c l)
    else (some [], (s.checkLine c l false).setBytes a x.data)

/-- The accesses that wait for a locked line are served in arrival order; their initiators are answered when the lock is released. -/
def State.yieldLock (s : State) (c l : Nat) : State :=
  match tblGet none (s.chan c).locks l with
  | none => s
  | some k =>
    let (done, s) := k.waiting.foldl (fun r x => let (a, s) := r.2.serveLine x; (r.1 ++ [{ access := x, answer := a }], s)) (k.served, s)
    s.setChan c { s.chan c with locks := tblPut none (s.chan c).locks l (some { waiting := [], served := done }) }

/-- What an access to memory waits for before it proceeds: its domain wakes (R57), its block is filled (R264), its lines are unlocked (R261). (DEDUCED, log entry 43) -/
def State.awaitLines (s : State) (bs : List (Nat × Nat)) : State :=
  let s := bs.foldl (fun s b => (s.wakeMem b.1).awaitFill b.1) s
  (s.linesOf bs).foldl (fun s x => s.yieldLock x.1 x.2) s

/-- A read of internal memory, beat by beat: refused beats, memory that does not answer and uncorrectable lines read as zeros (R239, R257). -/
def State.readMem (s : State) (cls : Nat) (world : World) (kind : AccKind) (a len : Nat) : List Byte × Bool × State :=
  let bs := beats a len
  let r := s.firstRefusal cls kind world bs
  let up := s.openBeats cls kind world bs
  let s := s.awaitLines up
  let data := bs.flatMap fun b => if up.contains b && !s.badAt b.1 then s.bytes b.1 b.2 else zeros b.2
  let s' := (s.linesOf up).foldl (fun s x => s.checkLine x.1 x.2 false) s
  (data, up.length == bs.length && bs.all (fun b => !s.badAt b.1), s'.noteRefusal cls world kind r)

/-- The beats of a write are written, those of `skip` dropped. -/
def putBeats (skip : Nat × Nat → Bool) : List (Nat × Nat) → List Byte → State → State
  | [], _, s => s
  | b :: t, l, s => putBeats skip t (l.drop b.2) (if skip b then s else s.setBytes b.1 (l.take b.2))

/-- Whether the beats of a write cover the whole of a line. -/
def coversLine (bs : List (Nat × Nat)) (a : Nat) : Bool :=
  bs.contains (a / 64 * 64, 32) && bs.contains (a / 64 * 64 + 32, 32)

/-- A write of internal memory: whether every beat was carried out, and the state after it. Refused beats are dropped (R239), whole lines replace, partial ones merge or fail (R259, R260). -/
def State.writeMem (s : State) (cls : Nat) (world : World) (a : Nat) (l : List Byte) : Bool × State :=
  let bs := beats a l.length
  let r := s.firstRefusal cls .write world bs
  let up := s.openBeats cls .write world bs
  let s := s.awaitLines up
  let (full, part) := up.partition fun b => coversLine up b.1
  let s := if s.tap.extest then s else (s.linesOf full).foldl (fun s x => s.cleanLine x.1 x.2) s
  let drop := fun b : Nat × Nat => !up.contains b || s.badAt b.1
  let lost := (s.linesOf part).filter fun x => s.lineRead x.1 x.2 == .uncorrectable
  let s' := (s.linesOf part).foldl (fun s x => if lost.contains x then s.rmwFail x.1 x.2 else s.checkLine x.1 x.2 false) s
  (up.length == bs.length && lost.isEmpty, (putBeats drop bs l s').noteRefusal cls world .write r)

/-! Accesses of the dispatcher and the engine DMA: up to 16 beats each (R238). -/

/-- The accesses that a transfer of `len` bytes from `a` on is made of. -/
def transfersOf : Nat → Nat → Nat → List (Nat × Nat)
  | 0, _, _ => []
  | fuel + 1, a, len =>
    if len = 0 then []
    else
      let n := min len (512 - a % 32)
      (a, n) :: transfersOf fuel (a + n) (len - n)

/-- The accesses of a transfer. -/
def transfers (a len : Nat) : List (Nat × Nat) := transfersOf (len / 512 + 2) a len

/-- The accesses of a read, until one receives an error response: what lies past it reads as zeros. -/
def readAccesses (cls : Nat) (world : World) : List (Nat × Nat) → State → List Byte × Bool × State
  | [], s => ([], true, s)
  | (a, n) :: t, s =>
    match s.readMem cls world .read a n with
    | (d, true, s) => let (d', ok, s) := readAccesses cls world t s; (d ++ d', ok, s)
    | (d, false, s) => (d ++ zeros ((t.map Prod.snd).foldl (· + ·) 0), false, s)

/-- A read by the dispatcher or the engine DMA. -/
def State.dmaIn (s : State) (cls : Nat) (world : World) (a len : Nat) : List Byte × Bool × State :=
  readAccesses cls world (transfers a len) s

/-- The accesses of a write, until one receives an error response (Table 10-4). -/
def writeAccesses (cls : Nat) (world : World) : List (Nat × Nat) → List Byte → State → Bool × State
  | [], _, s => (true, s)
  | (a, n) :: t, l, s =>
    match s.writeMem cls world a (l.take n) with
    | (true, s) => writeAccesses cls world t (l.drop n) s
    | (false, s) => (false, s)

/-- A write by the dispatcher or the engine DMA. -/
def State.dmaOut (s : State) (cls : Nat) (world : World) (a : Nat) (l : List Byte) : Bool × State :=
  writeAccesses cls world (transfers a l.length) l s

end Sys2Proof.Machine
end

