-- ==== Sys2Proof/Machine/Queues.lean ====
section
/-! DEFINITION. What leaves the device for a function: host writes with their migration log, MSI-X messages, completion entries (chapters 06, 07). -/

namespace Sys2Proof.Machine

/-- Whether a function's port is in D3hot, so that its outputs are held (R119). -/
def State.heldFn (s : State) (f : Fn) : Bool :=
  match f with
  | .nw => false
  | f => (s.port f.port).d3

/-- Attr[2:0] of the memory requests that the device issues, reads, writes and messages alike (R117). -/
def Out.attr : Out → Option Nat
  | .dmaWrite _ _ _ _ | .dmaRead _ _ _ | .msix _ _ => some 0
  | _ => none

/-- The function whose request leaves the device. -/
def Out.fn : Out → Option Fn
  | .dmaWrite f _ _ _ | .dmaRead f _ _ | .msix f _ => some f
  | _ => none

/-- The rank of a request in the write buffer of its port (Table 1-5). -/
def Out.rank : Out → Nat
  | .dmaWrite _ _ _ .output => 1
  | .dmaWrite _ _ _ .migration => 2
  | .dmaWrite _ _ _ .recorder => 3
  | _ => 0

/-- Whether a request is a completion entry of a function. -/
def Out.completes (o : Out) (f : Fn) : Bool :=
  match o with
  | .dmaWrite g _ _ .completion => f == g
  | _ => false

/-- The ranks of waiting requests: the output that precedes a completion of its function goes with it (R25). -/
def heldRanks : List Out → List (Nat × Out)
  | [] => []
  | o :: t => (if o.rank == 1 && t.any (fun c => o.fn.any fun f => c.completes f) then 0 else o.rank, o) :: heldRanks t

/-- The order in which waiting requests of a port leave it (R26). (DEDUCED, log entry 65) -/
def byRank (l : List Out) : List Out :=
  [0, 1, 2, 3].flatMap fun k => ((heldRanks l).filter fun e => e.1 == k).map Prod.snd

/-- Sending a request of a function, or holding it while its PF is in D3hot (R119). (DESIGN CHOICE, log entry 57) -/
def State.send (s : State) (f : Fn) (o : Out) : State :=
  if s.heldFn f then s.setPort f.port { s.port f.port with held := (s.port f.port).held ++ [o] } else s.emit o

/-- A read request of a function to host memory. -/
def State.fnRead (s : State) (f : Fn) (addr len : Nat) : State := if f = .nw then s else s.emit (.dmaRead f addr len)

/-- A message on an MSI-X vector of a function; a masked vector sets its pending bit instead (R135). -/
def State.vector (s : State) (f : Fn) (v : Nat) : State :=
  if f = .nw then s
  else if (s.fnSt f).unmasked.testBit v then s.send f (.msix f v)
  else s.setFnSt f { s.fnSt f with msixPend := bitSet (s.fnSt f).msixPend v }

/-- VFS_STATE.MIG_OVERFLOW of a VF takes the value 1: logging stops (R139), vector 0 sends a message (R136). -/
def State.migOverflow (s : State) (p : Port) (n : Nat) : State :=
  let was := s.flag (R.VFS_STATE_MIG_OVERFLOW.vf p n)
  let s := (s.wr (R.VFS_STATE_MIG_ON.vf p n) 0).wr (R.VFS_STATE_MIG_OVERFLOW.vf p n) 1
  let s := s.setEvt (R.PE_EVT_MIG_OVERFLOW.port p)
  if was then s else s.vector (.vf p n) 0

/-- One page written on behalf of a VF is logged (R137 to R139). -/
def State.logPage (s : State) (p : Port) (n page : Nat) : State :=
  let v := s.vf p n
  if s.flag (R.VFS_STATE_MIG_ON.vf p n) && !v.logPages.contains page then
    let next := (v.logIdx + 1) % (max v.logSize 1)
    if next = s.rd ((R.PE_MIG_HEAD_HEAD.port p).ix (n - 1)) then s.migOverflow p n
    else
      let s := s.send (.pf p) (.dmaWrite (.pf p) (v.logAddr + 8 * v.logIdx)
        (leBytes 8 (page * 4096 + (if v.logPhase then 1 else 0))) .migration)
      s.setVf p n { v with
        logIdx := next, logPhase := if next = 0 then !v.logPhase else v.logPhase,
        logPages := (page :: v.logPages).take 64 }
  else s

/-- The pages from `page` on, `k` of them, are logged. -/
def State.logPages (s : State) (p : Port) (n page : Nat) : Nat → State
  | 0 => s
  | k + 1 => (s.logPage p n page).logPages p n (page + 1) k

/-- Pages that `len` bytes from `addr` touch. -/
def pagesOf (addr len : Nat) : Nat := if len = 0 then 0 else (addr + len - 1) / 4096 - addr / 4096 + 1

/-- One posted write of a function into its memory: host memory, then its migration records, or internal memory for the normal world, held at the table while UPDATE = 1. The Bool says whether an internal write was carried out (R24, step 9). (DESIGN CHOICE, log entry 57) -/
def State.fnWrite (s : State) (f : Fn) (cls addr : Nat) (data : List Byte) (kind : WriteKind) : Bool × State :=
  match f with
  | .nw =>
    if s.flag R.ACT_CTRL_UPDATE then
      (true, s.hold { cls := cls, world := .normal, origin := .post, addr := addr, kind := .write, data := data, len := data.length })
    else s.dmaOut cls .normal addr data
  | .pf p => (true, s.send (.pf p) (.dmaWrite (.pf p) addr data kind))
  | .vf p n => (true, (s.send (.vf p n) (.dmaWrite (.vf p n) addr data kind)).logPages p n (addr / 4096) (pagesOf addr data.length))

/-- Whether the completion queues of a queue group hold entries past their heads (Table 6-8). -/
def State.groupAsserted (s : State) (g : Nat) : Bool :=
  (List.range 64).any fun n =>
    s.flag (R.WLD_NQ_BIND_BOUND.ix n) && s.rd (R.WLD_NQ_BIND_POOL_QP.ix n) / 4 == g &&
      (s.qp .nw n).cqTail != (s.qp .nw n).cqHead

/-- The group of a normal-world queue pair. -/
def State.groupOf (s : State) (n : Nat) : Nat := s.rd (R.WLD_NQ_BIND_POOL_QP.ix n) / 4

/-- A queue pair of the function enters error (R146). -/
def State.queueError (s : State) (f : Fn) (q : Nat) : State :=
  let qp := s.qp f q
  if qp.error then s
  else
    let s := s.setQp f q { qp with error := true, usable := qp.reserved }
    let e := qzErr f q
    let s := s.wr e.1 (bitSet (s.rd e.1) e.2)
    (s.setEvt (qzEvt R.QZ_EVT_QERR f)).vector f 0

/-- The 32 bytes of a completion entry (Table 7-4). -/
def completionBytes (cid status qp sqHead detail result aux written : Nat) (phase : Bool) : List Byte :=
  leBytes 2 cid ++ leBytes 1 status ++ leBytes 1 qp ++ leBytes 2 sqHead ++ leBytes 2 detail ++
  leBytes 8 result ++ leBytes 8 aux ++ leBytes 4 written ++ zeros 3 ++ leBytes 1 (if phase then 1 else 0)

/-- Whether GPIO[n], n = 4 to 7, carries STATUS (R39). -/
def State.gpioStatus (s : State) (n : Nat) : Bool := s.cfg.gpioFunc.getD n 0 == 0 || s.cfg.gpioFunc.getD n 0 == 2

/-- Writing one completion entry into its CQ, in ring order, with its message (R147 to R150). -/
def State.writeCompletion (s : State) (f : Fn) (q cid : Nat) (status detail result aux written : Nat) : State :=
  let qp := s.qp f q
  let able := if qp.error then decide (0 < qp.usable) else decide (0 < qp.reserved)
  let qp := { qp with reserved := qp.reserved - 1, usable := qp.usable - 1 }
  if !able then s.setQp f q qp
  else
    let size := 2 ^ qp.cqLog2
    let data := completionBytes cid status q qp.sqHead detail result aux written qp.phase
    let next := (qp.cqTail + 1) % size
    let full := decide (qp.coalCount ≤ qp.unsignalled + 1)
    let was := s.groupAsserted (s.groupOf q)
    let s := (s.fnWrite f 13 (qp.cqAddr + 32 * qp.cqTail) data .completion).2
    let s := s.setQp f q { qp with
      cqTail := next, phase := if next = 0 then !qp.phase else qp.phase,
      unsignalled := if full then 0 else qp.unsignalled + 1 }
    let s := s.wrapAdd R.DSP_CMDS_COUNT 1
    let s := if s.gpioStatus 7 then { s with pins := { s.pins with cmdPulse := true } } else s
    let s := if full then s.vector f qp.vector else s
    if f = .nw ∧ was = false then { s with edges := s.edges ++ [256 + s.groupOf q] } else s

/-- Fetched commands of a queue pair. -/
def State.qpBusy (s : State) (f : Fn) (q : Nat) : Bool := s.dsp.inflight.any fun c => c.fn == f && c.qp == q && c.stage != .done

/-- Queue pairs of a port that are enabled. -/
def State.portEnabled (s : State) (p : Port) : Bool :=
  s.qps.any fun e => e.2.enabled && (e.1 / 64 / 256 == p.num) && decide (e.1 / 64 < 512)

/-- The claim on a port's PCIe group follows whether any of its queue pairs is enabled (chapter 03). -/
def State.portClaim (s : State) (p : Port) : State :=
  let d := if p = .a then 3 else 8
  let held := tblGet 0 s.pwr.claims d
  if s.portEnabled p then (if held = 0 then s.addClaim d else s) else (if held = 0 then s else s.dropClaim d)

/-- Releasing a normal-world queue pair: it leaves its binding and its pool queue pair is free again (R221). -/
def State.nqRelease (s : State) (n : Nat) : State :=
  s.wr (R.WLD_NQ_BIND_BOUND.ix n) 0

/-- A queue pair is disabled: its registers and rings are free (R151). -/
def State.disableQp (s : State) (f : Fn) (q : Nat) : State :=
  let unbind := decide (f = .nw) && (s.qp f q).unbind
  let s := s.setQp f q {}
  let e := qzErr f q
  let s := s.wr e.1 (bitClear (s.rd e.1) e.2)
  let s := if hasQz f q then (s.wr (R.QZ_STATUS_READY.qz f q) 0).wr (R.QZ_CTRL_ENABLE.qz f q) 0 else s
  let s := if f = .nw then s else s.portClaim f.port
  if unbind then s.nqRelease q else s

/-- A deletion that waits for the queue pair's commands ends once none is left (R151). -/
def State.finishDelete (s : State) (f : Fn) (q : Nat) : State :=
  if (s.qp f q).deleting && !s.qpBusy f q then s.disableQp f q else s

end Sys2Proof.Machine
end

