-- ==== Sys2Proof/Machine/KeyOps.lean ====
section
/-! DEFINITION. Operations of the key store: attributes, handles, slots, objects, indices, owners (chapter 12). -/

namespace Sys2Proof.Machine

/-- The attribute word set as its 32 bytes (Table 12-4). -/
def attrBytes (a : Attr) : List Byte :=
  leBytes 2 a.alg ++ leBytes 2 a.usage ++ leBytes 2 a.kflags ++ leBytes 1 a.origin ++ leBytes 1 a.cls ++
  leBytes 2 a.owner ++ leBytes 2 a.gen ++ leBytes 4 a.index ++ leBytes 2 a.secretLen ++ zeros 2 ++
  leBytes 4 a.created ++ zeros 8

/-- The attribute word set of 32 bytes. -/
def attrOf (l : List Byte) : Attr :=
  { alg := leAt l 0 2, usage := leAt l 2 2, kflags := leAt l 4 2, origin := leAt l 6 1, cls := leAt l 7 1,
    owner := leAt l 8 2, gen := leAt l 10 2, index := leAt l 12 4, secretLen := leAt l 16 2, created := leAt l 20 4 }

/-- A handle: OWNER, CLASS, GENERATION, INDEX (R159). -/
def handleOf (owner cls gen index : Nat) : Nat :=
  owner % 1024 * 2 ^ 54 + cls % 64 * 2 ^ 48 + gen % 65536 * 2 ^ 32 + index % 2 ^ 32

/-- OWNER of a handle (R159). -/
def hOwner (h : Nat) : Nat := bits h 54 10

/-- CLASS of a handle. -/
def hClass (h : Nat) : Nat := bits h 48 6

/-- GENERATION of a handle. -/
def hGen (h : Nat) : Nat := bits h 32 16

/-- INDEX of a handle. -/
def hIndex (h : Nat) : Nat := bits h 0 32

/-- The handle of a key. -/
def attrHandle (a : Attr) : Nat := handleOf a.owner a.cls a.gen a.index

/-- The number under which a key of an owner is held. -/
def keyId (owner index : Nat) : Nat := owner * 2 ^ 32 + index

/-- The key under an owner's index. -/
def State.keyAt (s : State) (owner index : Nat) : Option Key := tblGet none s.keys.keys (keyId owner index)

/-- The key under an owner's index is set. -/
def State.setKey (s : State) (owner index : Nat) (k : Option Key) : State :=
  { s with keys := { s.keys with keys := tblPut none s.keys.keys (keyId owner index) k } }

/-- A loaded owner. -/
def State.ownerAt (s : State) (o : Nat) : Option Owner := tblGet none s.keys.owners o

/-- An owner is set. -/
def State.setOwner (s : State) (o : Nat) (v : Option Owner) : State :=
  { s with keys := { s.keys with owners := tblPut none s.keys.owners o v } }

/-- What a physical slot holds. -/
def State.slotAt (s : State) (p : Nat) : Option Slot := tblGet none s.keys.slots p

/-- A physical slot is set. -/
def State.setSlot (s : State) (p : Nat) (v : Option Slot) : State :=
  { s with keys := { s.keys with slots := tblPut none s.keys.slots p v } }

/-- The integrity code of a share in physical slot `p` (R273). -/
def shareCode (share : List Byte) (a : Attr) (p : Nat) : Nat := crc32c (fit 128 share ++ attrBytes a ++ leBytes 2 p)

/-- A slot that holds a secret under share A (Table 12-1). -/
def mkSlot (shareA secret : List Byte) (a : Attr) (p : Nat) (h : Holder) : Slot :=
  let sa := fit 128 shareA
  let sb := xorBytes sa (fit 128 secret)
  { shareA := sa, shareB := sb, attr := a, codeA := shareCode sa a p, codeB := shareCode sb a p, holder := h }

/-- The secret of a slot: the exclusive or of its shares (R269). -/
def Slot.secret (sl : Slot) : List Byte := (xorBytes sl.shareA sl.shareB).take sl.attr.secretLen

/-- Which codes of a slot fail: 0 none, 1 A, 2 B, 3 both (KS_DEFECT_INFO.SHARE). -/
def Slot.failing (sl : Slot) (p : Nat) : Nat :=
  (if sl.codeA = shareCode sl.shareA sl.attr p then 0 else 1) + (if sl.codeB = shareCode sl.shareB sl.attr p then 0 else 2)

/-- Physical slots in service that no reserved logical slot holds and that are free. -/
def State.freeSlots (s : State) : List Nat :=
  (((List.range 4096).drop 16) ++ s.keys.regrown).filter fun p =>
    !s.keys.fenced.contains p && (s.slotAt p).isNone && !(s.keys.reservedMap.any fun e => e.2 == some p)

/-- A free slot; which of them is a free value. (DESIGN CHOICE, log entry 52) -/
def State.pickSlot (s : State) : Option Nat × State :=
  match s.freeSlots with
  | [] => (none, s)
  | p :: ps =>
    let (n, s) := s.freeNat 2
    (some ((p :: ps).getD (n % (ps.length + 1)) p), s)

/-- The physical slot of a reserved logical slot (Table 12-2). -/
def State.reservedSlot (s : State) (n : Nat) : Nat := (tblGet none s.keys.reservedMap n).getD n

/-- Writing a secret into a slot, share A drawn from Spawn where it is not given (R272, R523). -/
def State.fillSlot (s : State) (p : Nat) (secret : List Byte) (a : Attr) (h : Holder) (share : List Byte := []) : State :=
  if share.isEmpty then
    let (r, s) := s.draw secret.length
    s.setSlot p (some (mkSlot r secret a p h))
  else s.setSlot p (some (mkSlot share secret a p h))

/-- Writing a device key into its reserved slot; a fenced slot takes nothing (R277). -/
def State.fillDevice (s : State) (n : Nat) (secret : List Byte) : State :=
  if s.keys.fenced.contains (s.reservedSlot n) then s else s.fillSlot (s.reservedSlot n) secret { secretLen := secret.length } (.device n)

/-- The device key in a reserved slot. -/
def State.deviceKey (s : State) (n : Nat) : Option (List Byte) :=
  match s.slotAt (s.reservedSlot n) with
  | some sl => if sl.holder = .device n then some sl.secret else none
  | none => none

/-- The key-encryption key of an owner. -/
def State.kekOf (s : State) (o : Nat) : Option (List Byte) :=
  match s.ownerAt o with
  | some ow => (ow.kekSlot.bind s.slotAt).map Slot.secret
  | none => none

/-- owner_kek of an owner under the storage root (R19). -/
def ownerKek (root : List Byte) (o : Nat) : List Byte := kdf root "HX960 OWNER" (leBytes 2 o) 256

/-- obj_key of an owner (R283). -/
def State.objKey (s : State) (o : Nat) : List Byte :=
  kdf ((s.kekOf o).getD []) "HX960 OBJECT" (match s.ownerAt o with | some ow => ow.defn.salt | none => []) 256

/-- The lowest index of an owner from `i` on, in steps, that no key holds (R285). -/
def lowestIndex (t : Tbl (Option Key)) (owner step : Nat) : Nat → Nat → Nat
  | 0, i => i
  | fuel + 1, i => if (tblGet none t (keyId owner i)).isSome then lowestIndex t owner step fuel (i + step) else i

/-- Whether the image holds a TWIN section, so that indices and owner IDs are taken by parity (R487). -/
def State.byParity (s : State) : Bool := !s.cfg.twinVers.isEmpty

/-- The device's own parity: even for LEAD, odd for FOLLOW (R487). -/
def State.parity (s : State) : Nat := if s.pins.twRole then 0 else 1

/-- The index a new key of an owner takes (R285, R487). -/
def State.newIndex (s : State) (owner : Nat) : Nat :=
  if s.byParity then lowestIndex s.keys.keys owner 2 s.keys.keys.length s.parity
  else lowestIndex s.keys.keys owner 1 s.keys.keys.length 0

/-- A generation that follows the one recorded as `last` (the generation + 1, 0 for none): the first is 1 (Example 14-2). (DEDUCED, log entry 54) -/
def nextGen (last : Nat) : Nat := if last = 0 then 1 else last % 65536

/-- The generation a new key of an index takes (R285). -/
def State.newGen (s : State) (owner index : Nat) : Nat := nextGen (tblGet 0 s.keys.lastGen (keyId owner index))

/-- Recording the generation of an index. -/
def State.useGen (s : State) (owner index gen : Nat) : State :=
  { s with keys := { s.keys with lastGen := tblPut 0 s.keys.lastGen (keyId owner index) (gen + 1) } }

/-- 128-byte cells of the object cache after its directory (R253). -/
def State.objCells (s : State) : Nat :=
  ((s.rd R.WLD_DDR_WM_WM - 1) * 0x40000000 - 80 * s.objCap) / 128

/-- The cells in use. -/
def State.cellsUsed (s : State) : List Nat := s.objects.flatMap fun e => e.2.cells

/-- Cells an object body of `n` bytes occupies. -/
def cellsFor (n : Nat) : Nat := (n + 127) / 128

/-- Whether object bodies of these lengths find room in the object cache (R253). -/
def State.objRoom (s : State) (bodies : List Nat) : Bool :=
  decide (s.objects.length + bodies.length ≤ s.objCap) &&
    decide (s.cellsUsed.length + (bodies.map cellsFor).foldl (· + ·) 0 ≤ s.objCells)

/-- The lowest `k` cells from `c` on that no object holds. (DESIGN CHOICE, log entry 52) -/
def freeCells (used : List Nat) : Nat → Nat → Nat → List Nat
  | 0, _, _ => []
  | fuel + 1, c, k =>
    if k = 0 then [] else if used.contains c then freeCells used fuel (c + 1) k else c :: freeCells used fuel (c + 1) (k - 1)

/-- The cells that a new body of `n` bytes takes. (DESIGN CHOICE, log entry 52) -/
def State.takeCells (s : State) (n : Nat) : List Nat := freeCells s.cellsUsed (s.cellsUsed.length + cellsFor n) 0 (cellsFor n)

/-- The internal address of the first cell: the cells follow the object directory (Table 11-2, R253). -/
def State.cellBase (s : State) : Nat := ddrBase + s.cellOff 0

/-- The buffers in which a body of `n` bytes lies. -/
def bodyPieces (base : Nat) : List Nat → Nat → List (Nat × Nat)
  | [], _ => []
  | c :: t, n => (base + 128 * c, min n 128) :: bodyPieces base t (n - 128)

/-- The buffers in which an object's body lies. -/
def State.bodyOf (s : State) (o : Obj) : List (Nat × Nat) := bodyPieces s.cellBase o.cells o.len

/-- Writing cells in order, each as two full lines, until one is refused: the dispatcher, world S (R253, R259). -/
def writeCells (base : Nat) : List Nat → List Byte → State → Bool × State
  | [], _, s => (true, s)
  | c :: t, l, s =>
    match s.writeMem 13 .secure (base + 128 * c) (fit 128 l) with
    | (true, s) => writeCells base t (l.drop 128) s
    | (false, s) => (false, s)

/-- Cells are written to zero with full-line writes (R274). -/
def State.wipeCells (s : State) (cells : List Nat) : State :=
  cells.foldl (fun s c => (s.writeMem 13 .secure (s.cellBase + 128 * c) (zeros 128)).2) s

/-- The first 64 bytes of a wrapped object (Table 12-7). -/
def objectHead (a : Attr) (n : Nat) (nonce : List Byte) : List Byte :=
  ascii "HXKO" ++ leBytes 1 1 ++ leBytes 1 a.cls ++ leBytes 2 a.owner ++ leBytes 8 Config.serial.toNat ++ attrBytes a ++ leBytes 4 n ++ nonce

/-- Why the read of a buffer of an object's body gives nothing: a status and its DETAIL (Table 10-4, R257, R517). -/
def State.pieceFault (s : State) (b : Nat × Nat) : Option (Nat × Nat) :=
  let bs := beats b.1 b.2
  if (s.firstRefusal 13 .read .secure bs).isSome then some (0x14, 3)
  else if bs.any fun x => !s.memUp x.1 then
    (match s.lineOf b.1 with
     | some (c, _) => if s.rd (R.MEM_STATUS_STATE.mem c) = 5 then some (0x7F, 0x16) else some (0x14, 3)
     | none => some (0x14, 3))
  else if bs.any fun x => s.badAt x.1 then some (0x21, 0) else none

/-- Reading an object of the object cache: its body comes from DDR5 and is opened under its owner's object key, with its header as AAD (R263, R283, R284). -/
def State.readObject (s : State) (a : Attr) (o : Obj) : (List Byte ⊕ (Nat × Nat)) × State :=
  let ps := s.bodyOf o
  match readAccesses 13 .secure ps s with
  | (_, false, s') => (.inr ((ps.findSome? s.pieceFault).getD (0x21, 0)), s')
  | (c, true, s') =>
    let key := s.objKey a.owner
    let head := objectHead a o.len o.nonce
    if o.kept && gcmOk key o.nonce head c o.tag then (.inl (gcmOpen key o.nonce head c), s') else (.inr (0x21, 0), s')

/-- Whether an object has cells on a channel that is LOST (R64). -/
def State.bodyLost (s : State) (o : Obj) : Bool :=
  (s.bodyOf o).any fun b => match s.lineOf b.1 with | some (c, _) => s.rd (R.MEM_STATUS_STATE.mem c) == 4 | none => false

/-- A line of DDR5 as it is stored: scrambled data, tag and parity, with its errors; `none` where other bits stand there (R254). (DESIGN CHOICE, log entry 64) -/
def State.storedLine (s : State) (c l : Nat) : Option (BitVec 640) :=
  let key := (s.deviceKey 3).getD []
  let plain := s.bytes (ddrBase + s.lineAddr c l) 64
  let word := fit 64 (Config.lineMix key (64 * l) plain) ++ fit 8 (Config.lineTag key (64 * l) plain)
  let own := BitVec.ofNat 640 (leNat (word ++ (pieces 8 9 word).foldl xorBytes (zeros 8)))
  match tblGet none (s.chan c).errs l with
  | none => some own
  | some (.flips x) => some (own ^^^ x)
  | some .foreign => none

/-- Clearing a slot's shares, codes and attributes (R274). -/
def State.clearSlot (s : State) (p : Nat) : State := s.setSlot p none

/-- A slot or object less counts toward a function (R127). -/
def State.uncount (s : State) (f : Option Fn) (isObj : Bool) : State :=
  match f with
  | some (.vf p n) =>
    let fld := (if isObj then R.VFS_OBJECTS_USED else R.VFS_SLOTS_USED).vf p n
    s.wr fld (s.rd fld - 1)
  | _ => s

/-- The function from which a destroyed key is subtracted: the VF whose command destroys it, else the one it counts toward (R127). (DEDUCED, log entry 67) -/
def countedBy (by' counted : Option Fn) : Option Fn :=
  match by' with
  | some (.vf p n) => some (.vf p n)
  | _ => counted

/-- A key's residency ends in every code-based engine (R388). -/
def State.dropResident (s : State) (h : Nat) : State :=
  (List.range 3).foldl (fun s u =>
    let s := if s.rd (R.CBE_PK_RES_HANDLE.ix u) = h then
        let s := (s.wr (R.CBE_ENGINE_PK_RES.ix u) 0).wr (R.CBE_PK_RES_HANDLE.ix u) 0
        { s with eng := { s.eng with resKey := tblPut [] s.eng.resKey u [] } }
      else s
    if s.rd (R.CBE_SK_RES_HANDLE.ix u) = h then
      let s := (s.wr (R.CBE_ENGINE_SK_RES.ix u) 0).wr (R.CBE_SK_RES_HANDLE.ix u) 0
      { s with eng := { s.eng with resKey := tblPut [] s.eng.resKey (u + 8) [] } }
    else s) s

/-- Destroying a key: its slot or cells are zeroed, its index is free (R127, R274). -/
def State.destroyKey (s : State) (owner index : Nat) (by' : Option Fn := none) : State :=
  match s.keyAt owner index with
  | none => s
  | some k =>
    let s := match k.loc, k.obj with
      | .slot p, _ => s.clearSlot p
      | _, some o => s.wipeCells o.cells
      | _, none => s
    let s := s.uncount (countedBy by' k.counted) k.obj.isSome
    (if k.attr.alg / 256 = 7 then s.dropResident (attrHandle k.attr) else s).setKey owner index none

/-- The function-of-the-device numbers under which quota is counted. -/
def State.nwSlots (s : State) : Nat :=
  (s.keys.keys.filter fun e => match e.2 with | some k => k.counted == some .nw && k.obj.isNone | none => false).length

/-- Objects that count toward the normal world. -/
def State.nwObjs (s : State) : Nat :=
  (s.keys.keys.filter fun e => match e.2 with | some k => k.counted == some .nw && k.obj.isSome | none => false).length

/-- The approvals of an owner are cancelled: pending ones end (R290, R294). -/
def State.endApproval (s : State) (id : Nat) : State :=
  match tblGet none s.keys.approvals id with
  | none => s
  | some a =>
    { s with keys := { s.keys with
        approvals := tblPut none s.keys.approvals id none,
        ended := if s.keys.ended.contains id then s.keys.ended else id :: s.keys.ended,
        endedOwner := tblPut 0 s.keys.endedOwner id a.owner,
        endedAction := tblPut 0 s.keys.endedAction id a.action } }

/-- Every pending approval that `pred` selects ends. -/
def State.cancelApprovals (s : State) (pred : Approval → Bool) : State :=
  (s.keys.approvals.filterMap fun e => match e.2 with | some a => if pred a then some e.1 else none | none => none).foldl
    State.endApproval s

/-- The action digest that binds an approval to a command (R293). -/
def actionDigest (action owner opcode key : Nat) (params input : List Byte) : List Byte :=
  sha256 (ascii "HX960-ACT" ++ leBytes 2 action ++ leBytes 2 owner ++ leBytes 1 opcode ++ leBytes 8 key ++
    fit 24 params ++ sha256 input)

/-- Whether an approval has reached its quorum. -/
def Approval.met (a : Approval) : Bool := decide (a.quorum ≤ a.counted.length)

/-- A pending approval. -/
def State.approvalAt (s : State) (id : Nat) : Option Approval := tblGet none s.keys.approvals id

/-- Destroying a context. -/
def State.dropCtx (s : State) (i : Nat) : State :=
  { s with dsp := { s.dsp with ctxs := tblPut none s.dsp.ctxs i none } }

/-- Destroying every context that meets a condition. -/
def State.dropCtxs (s : State) (pred : Ctx → Bool) : State :=
  { s with dsp := { s.dsp with ctxs := s.dsp.ctxs.filter fun e => match e.2 with | some c => !pred c | none => false } }

/-- Zeroization: every slot, context and owner goes; the DDR scrambling key goes, and both channels stop (R23, R258, R274, R294). -/
def State.zeroize (s : State) : State :=
  let s := s.cancelApprovals fun _ => true
  let s := { s with
    keys := { s.keys with slots := [], keys := [], owners := [], rederive := [], lost := [] },
    dsp := { s.dsp with ctxs := [], ctxKey := [] } }
  let stop := fun (s : State) (c : Nat) =>
    if s.rd (R.MEM_STATUS_STATE.mem c) = 0 then s else s.wr (R.MEM_STATUS_STATE.mem c) 5
  (stop (stop s 0) 1).wr R.KS_STATUS_MOLT_RUN 0

/-- Whether an owner is suspended, or no longer loaded (R290). -/
def State.ownerSuspended (s : State) (o : Nat) : Bool :=
  match s.ownerAt o with
  | some ow => ow.defn.policy.testBit 0
  | none => true

/-- VFS_STATE.SUSPENDED of one VF follows the service state and its owner; a change sends vector 0 (R136). -/
def State.refreshVf (s : State) (w : Nat) : State :=
  let p := if w < 128 then Port.a else Port.b
  let n := w % 128 + 1
  let v := if s.flag R.GLB_STATUS_SUSPENDED || s.ownerSuspended (s.rd (R.VFS_OWNER_OWNER.vf p n)) then 1 else 0
  if !s.vfActive p n || s.rd (R.VFS_STATE_SUSPENDED.vf p n) == v then s
  else (s.wr (R.VFS_STATE_SUSPENDED.vf p n) v).vector (.vf p n) 0

/-- VFS_STATE.SUSPENDED of every provisioned VF. -/
def State.refreshSuspended (s : State) : State := (s.vfs.map Prod.fst).foldl State.refreshVf s

end Sys2Proof.Machine
end

