-- ==== Sys2Proof/Machine/Commands.lean ====
section
/-! DEFINITION. A fetched command: its fields, its buffers, the unit it holds, its completion and its abort (chapters 01, 07). -/

namespace Sys2Proof.Machine

/-! The submission entry (Table 7-2). -/

/-- OPCODE. -/
def Cmd.opcode (c : Cmd) : Nat := leAt c.entry 0 1

/-- PLEN. -/
def Cmd.plen (c : Cmd) : Nat := leAt c.entry 1 1

/-- CID. -/
def Cmd.cid (c : Cmd) : Nat := leAt c.entry 2 2

/-- FLAGS. -/
def Cmd.flags (c : Cmd) : Nat := leAt c.entry 4 2

/-- The input is a direct buffer. -/
def Cmd.inDirect (c : Cmd) : Bool := c.flags.testBit 0

/-- The output is a direct buffer. -/
def Cmd.outDirect (c : Cmd) : Bool := c.flags.testBit 1

/-- FENCE. -/
def Cmd.fence (c : Cmd) : Bool := c.flags.testBit 2

/-- LAST. -/
def Cmd.last (c : Cmd) : Bool := c.flags.testBit 3

/-- APPROVAL_ID. -/
def Cmd.approval (c : Cmd) : Nat := leAt c.entry 6 2

/-- KEY_HANDLE. -/
def Cmd.key (c : Cmd) : Nat := leAt c.entry 8 8

/-- IN_ADDR. -/
def Cmd.inAddr (c : Cmd) : Nat := leAt c.entry 0x10 8

/-- IN_LEN. -/
def Cmd.inLen (c : Cmd) : Nat := leAt c.entry 0x18 4

/-- OUT_LEN. -/
def Cmd.outLen (c : Cmd) : Nat := leAt c.entry 0x1C 4

/-- OUT_ADDR. -/
def Cmd.outAddr (c : Cmd) : Nat := leAt c.entry 0x20 8

/-- The parameter block. -/
def Cmd.params (c : Cmd) : List Byte := slice c.entry 0x28 24

/-- The parameter field of `n` bytes at `off`. -/
def Cmd.par (c : Cmd) (off n : Nat) : Nat := leAt c.entry (0x28 + off) n

/-- The pool of a number. -/
def poolOf (n : Nat) : Pool :=
  if n = 0 then .lattice else if n = 1 then .hash else if n = 2 then .bignum else if n = 3 then .code else .sym

/-- Data entries of a scatter-gather list. -/
def dataEntries (segs : List SgSegment) : List SgEntry := segs.flatMap fun g => g.entries.filter fun e => !e.flags.testBit 0

/-- The output buffers of a command: address and length of each. -/
def Cmd.outPieces (c : Cmd) : List (Nat × Nat) :=
  if c.outDirect then [(c.outAddr, c.outLen)] else (dataEntries c.outSegs).map fun e => (e.addr, e.len)

/-- Writing output bytes into the buffers in order; a refused internal write ends it (R24, step 9). -/
def writePieces (f : Fn) (cls : Nat) : List (Nat × Nat) → List Byte → State → Bool × State
  | [], _, s => (true, s)
  | (a, n) :: t, l, s =>
    if l.isEmpty then (true, s)
    else
      match s.fnWrite f cls a (l.take n) .output with
      | (true, s') => writePieces f cls t (l.drop n) s'
      | (false, s') => (false, s')

/-- The commands in flight, changed one by one. -/
def State.setCmd (s : State) (c : Cmd) : State :=
  { s with dsp := { s.dsp with inflight := s.dsp.inflight.map fun x => if x.id = c.id then c else x } }

/-- A tile held for a command is held no longer (R357). -/
def State.unhold (s : State) (id : Nat) : State :=
  (s.eng.heldFor.filter fun e => e.2 == id + 1).foldl (fun s e =>
    ({ s with eng := { s.eng with heldFor := tblPut 0 s.eng.heldFor e.1 0 } } : State).wr (R.HSH_TILE_HELD.ix e.1) 0) s

/-- A command leaves the dispatcher, and its access the table. -/
def State.dropCmd (s : State) (id : Nat) : State :=
  let s := s.unhold id
  { s with
    dsp := { s.dsp with inflight := s.dsp.inflight.filter fun x => x.id != id },
    act := { s.act with held := s.act.held.filter fun a => a.origin != .cmd id } }

/-- The command in flight with an identifier. -/
def State.cmd (s : State) (id : Nat) : Option Cmd := s.dsp.inflight.find? fun c => c.id == id

/-- Whether a status leaves the unit's operand memory as it is (R328, R385, R369, R413). -/
def keepsMemory (p : Pool) (status : Nat) : Bool :=
  status == 0 || status == 0x50 || (p != .hash && status == 0x31) || ((p == .lattice || p == .sym) && status == 0x30) ||
    (p == .sym && status == 0x33)

/-- Residency of a code-based engine ends (R387). -/
def State.endResidency (s : State) (p : Pool) (u : Nat) : State :=
  match p with
  | .code =>
    let s := (((s.wr (R.CBE_ENGINE_PK_RES.ix u) 0).wr (R.CBE_ENGINE_SK_RES.ix u) 0).wr (R.CBE_PK_RES_HANDLE.ix u) 0).wr
      (R.CBE_SK_RES_HANDLE.ix u) 0
    { s with eng := { s.eng with resKey := tblPut [] (tblPut [] s.eng.resKey u []) (u + 8) [] } }
  | _ => s

/-- A unit's operand memory is being cleared; the unit is free afterwards. (DEDUCED, log entry 41) -/
def State.clearUnit (s : State) (p : Pool) (u : Nat) : State :=
  let s := { s with eng := { s.eng with afterClear := tblPut 0 s.eng.afterClear (unitKey p u) 2 } }
  let s := (s.wr (unitState p u) 6).endResidency p u
  match p with
  | .hash => (List.range 4).foldl (fun s l => s.wr (unitLastOwner .hash u l) 0x3FF) s
  | p => s.wr (unitLastOwner p u 0) 0x3FF

/-- Lanes of a hash tile that run a command. -/
def State.busyLanes (s : State) (u : Nat) : Nat :=
  ((List.range 4).filter fun l => tblGet 0 s.eng.running (laneKey .hash u l) != 0).foldl (fun a l => a + 2 ^ l) 0

/-- What a unit's register shows of the command it ran is cleared. -/
def State.idleFields (s : State) (p : Pool) (u l : Nat) : State :=
  match p with
  | .lattice => s
  | .hash => ((s.wr (R.HSH_LANE_MODE.ix (4 * u + l)) 0).wr (R.HSH_LANE_MASKED.ix (4 * u + l)) 0).wr (R.HSH_LANE_SNOOP.ix (4 * u + l)) 0
  | .bignum => s.wr (R.BNE_UNIT_LONG.ix u) 0
  | .code => s.wr (R.CBE_ENGINE_LONG.ix u) 0
  | .sym => s.wr (R.SYM_LANE_WORK.ix u) 0

/-- A unit, or a lane of a hash tile, no longer runs its command; the claim is dropped. -/
def State.releaseLane (s : State) (p : Pool) (u l : Nat) (keep : Bool) : State :=
  let tile := decide (p = .hash) && s.flag (R.HSH_TILE_TILE_CMD.ix u)
  let s := { s with eng := { s.eng with running := tblPut 0 s.eng.running (laneKey p u l) 0 } }
  let s := s.dropClaim (unitDomain p u)
  let s := if tile then (List.range 4).foldl (fun s l => s.idleFields p u l) s else s.idleFields p u l
  match p with
  | .hash =>
    let s := if tile then (s.wr (R.HSH_TILE_TILE_CMD.ix u) 0).wr (R.HSH_TILE_BUSY.ix u) 0
      else s.wr (R.HSH_TILE_BUSY.ix u) (s.busyLanes u)
    if keep then s
    else if tile then s.clearUnit .hash u
    else s.wr (unitLastOwner .hash u l) 0x3FF
  | p =>
    if keep then (if s.rd (unitState p u) = 2 then s.wr (unitState p u) 1 else s)
    else if s.rd (unitState p u) = 5 then s
    else s.clearUnit p u

/-- Releasing the hash lane reserved with a unit. -/
def State.releaseExtra (s : State) (c : Cmd) (keep : Bool) : State :=
  match c.lane with
  | some k => if tblGet 0 s.eng.running (laneKey .hash (k / 4) (k % 4)) = c.id + 1 then s.releaseLane .hash (k / 4) (k % 4) keep else s
  | none => s

/-- Releasing what a command holds of the pools. -/
def State.releaseUnit (s : State) (c : Cmd) (keep : Bool) : State :=
  let s := s.releaseExtra c keep
  match c.unit with
  | some (p, ul) =>
    if tblGet 0 s.eng.running (laneKey (poolOf p) (ul / 4) (ul % 4)) = c.id + 1 then
      s.releaseLane (poolOf p) (ul / 4) (ul % 4) keep
    else s
  | none => s

/-- The event source that an INTERNAL completion names: the unit's, or 34 (Table 20-3). -/
def Cmd.source (c : Cmd) : Nat :=
  match c.unit with
  | some (p, ul) => unitSource (poolOf p) (ul / 4)
  | none => 34

/-- VF number of a function in records: 0 for a PF, 0xFF for the normal world. -/
def recVf : Fn → Nat
  | .pf _ => 0
  | .vf _ n => n
  | .nw => 0xFF

/-- Step 11: the unit is released, the completion entry is written, the command leaves the dispatcher (R24, R149). -/
def State.complete (s : State) (c : Cmd) (r : Res) : State :=
  let p := match c.unit with | some (p, _) => poolOf p | none => .lattice
  let s := s.releaseUnit c (keepsMemory p r.status && !r.clear)
  let s := s.dropCmd c.id
  let s := s.writeCompletion c.fn c.qp (if c.entry.isEmpty then 0xFFFF else c.cid) r.status r.detail r.result r.aux r.output.length
  let s := if r.status = 0x7F then s.recordInternal c.source r.detail c.cid (recVf c.fn) c.fn.port.num else s
  let s := if c.opcode = 1 ∧ r.status = 0 ∧ !c.entry.isEmpty then
      s.decideRecord 6 (match c.fn with | .nw => 34 | f => 37 + f.port.num) 0 (c.par 16 8) else s
  s.finishDelete c.fn c.qp

/-- Whether a command is a CIPHER in XTS mode. -/
def Cmd.isXts (c : Cmd) : Bool := c.opcode == 0x50 && c.par 1 1 == 1

/-- Data units of an XTS command. -/
def Cmd.xtsCount (c : Cmd) : Nat := (c.inLen + c.par 4 4 - 1) / (max (c.par 4 4) 1)

/-- The key value a command has resolved. -/
def Cmd.secret (c : Cmd) : List Byte := match c.resolved with | some (_, k) => k | none => []

/-- The stored form or encoding of the key of an owner, from its slot or its object; `none` where it cannot be read. -/
def State.keyValue (s : State) (owner index : Nat) : Option (List Byte) :=
  match s.keyAt owner index with
  | some k =>
    (match k.loc, k.obj with
     | .slot p, _ => (s.slotAt p).map Slot.secret
     | .object, some o => (s.readObject k.attr o).1.getLeft?
     | _, _ => none)
  | none => none

/-- The output of modes 1 to 3 of CIPHER; mode 4 uses mode 3 on padded data (R415, R417). -/
def Cmd.cipherOut (c : Cmd) (data : List Byte) : List Byte :=
  let iv := slice c.params 8 16
  let enc := c.par 0 1 == 0
  let n := c.secret.length
  if c.par 1 1 = 1 then
    let k := kdf c.secret "HX960 XTS" [] (16 * n)
    xtsUnits (fun b => if enc then aesEnc (k.take n) b else aesDec (k.take n) b) (aesEnc (k.drop n)) (!enc) (leNat iv)
      (pieces (c.par 4 4) (c.xtsCount + 1) data)
  else if c.par 1 1 = 2 then ctr c.secret iv data
  else if enc then cbcEnc c.secret iv (blocks data)
  else cbcDec c.secret iv (blocks data)

/-- The part of an XTS command that was written before it stopped: how many units is a free value (R425). -/
def State.xtsPart (s : State) (c : Cmd) : List Byte × Nat × State :=
  match c.data, c.stage with
  | some (some d), .engine =>
    let (n, s) := s.freeNat 4
    let units := n % (c.xtsCount + 1)
    ((fit d.length (c.cipherOut d)).take (units * c.par 4 4), units, s)
  | _, _ => ([], 0, s)

/-! HELLO (R156 to R158). -/

/-- Vectors of a function: 64 of a PF, VEC_COUNT of a VF. -/
def State.vectors (s : State) (f : Fn) : Nat :=
  match f with
  | .pf _ => 64
  | .vf p n => s.rd (R.VFS_RES_VEC_COUNT.vf p n)
  | .nw => 0

/-- Queue pairs a function may use. -/
def State.qpCount (s : State) (f : Fn) : Nat :=
  match f with
  | .pf _ => 4
  | .vf p n => s.rd (R.VFS_RES_QP_COUNT.vf p n)
  | .nw => 64

/-- SUPPORTED: features 0 to 6. -/
def supported : Nat := 0x7F

/-- The 64-byte response (Table 7-6). -/
def State.helloResponse (s : State) (c : Cmd) (v granted : Nat) : List Byte :=
  leBytes 1 (v / 256) ++ leBytes 1 (v % 256) ++ ([1, 0, 1, 3] : List Byte) ++ leBytes 2 (s.word 0 4) ++ leBytes 8 granted ++ leBytes 8 supported ++
    leBytes 4 1048576 ++ leBytes 2 (match s.ownerOf c.fn c.qp with | some o => o | none => 0xFFFF) ++ leBytes 1 (s.qpCount c.fn) ++
    leBytes 1 (s.vectors c.fn) ++ leBytes 8 Config.serial.toNat ++ leBytes 8 (s.rd R.GLB_BUILD_ID_BUILD_ID) ++ zeros 16

/-- HELLO ends: the negotiation, the response, the completion. -/
def State.helloEnd (s : State) (c : Cmd) (status detail v granted : Nat) : State :=
  let s := s.setFnSt c.fn { s.fnSt c.fn with version := v, granted := granted }
  if c.outLen ≠ 64 then s.complete c { status := status, detail := detail }
  else
    let (ok, s) := s.fnWrite c.fn 12 c.outAddr (s.helloResponse c v granted) .output
    s.complete c (if ok then { status := status, detail := detail, output := zeros 64 } else { status := 0x14, detail := 3 })

/-- Ending a command early with a status: outputs receive nothing, except for HELLO and XTS (R157, R172, R425). -/
def State.stopCmd (s : State) (c : Cmd) (status detail : Nat) : State :=
  if c.opcode = 1 ∧ !c.entry.isEmpty then s.helloEnd c status detail 0 0
  else if c.isXts then
    let (d, n, s) := s.xtsPart c
    let s := (writePieces c.fn 12 c.outPieces d s).2
    s.complete c { status := status, detail := detail, aux := n, output := d }
  else s.complete c { status := status, detail := detail }

/-- The context a command names, by its index in the cache. -/
def Cmd.ctxIndex (c : Cmd) : Option Nat := if hClass c.key = 0x3F ∧ c.key ≠ 0 then some (hIndex c.key) else none

/-- A failure at step 7 or later destroys the context the command names (R169). -/
def State.dropCmdCtx (s : State) (c : Cmd) : State :=
  match c.ctxIndex with
  | some i =>
    (match tblGet none s.dsp.ctxs i with
     | some x => if x.fn = c.fn ∧ x.gen = hGen c.key then s.dropCtx i else s
     | none => s)
  | none => s

/-- Whether ABORT and SUSPEND can stop a command: it is at steps 3 to 8 and not with secure firmware (R172). -/
def Cmd.abortable (c : Cmd) : Bool :=
  match c.stage with
  | .entry _ | .handed _ _ | .commit _ | .teardown | .done => false
  | _ => true

/-- A step-7-or-later stage, at which a failure destroys the context. -/
def Cmd.late (c : Cmd) : Bool :=
  match c.stage with
  | .waiting | .input | .engine | .drawing => true
  | _ => false

/-- A unit whose command is stopped clears its operand memory. -/
def State.abortCmd (s : State) (c : Cmd) (status : Nat := 0x40) : State :=
  let s := if c.late then s.dropCmdCtx c else s
  s.stopCmd c status 0

/-- Opcodes that are served while SUSPENDED is 1 (R453). -/
def servedSuspended (op : Nat) : Bool :=
  op == 1 || op == 2 || op == 3 || op == 4 || op == 5 || op == 0x7E || op == 0x7D

/-- Aborting every command that a suspension stops (R453). -/
def State.abortSuspended (s : State) : State :=
  (s.dsp.inflight.filter fun c => c.abortable && !servedSuspended c.opcode).foldl (fun s c => s.abortCmd c) s

/-- An abort that writes no completion: units are cleared, outputs discarded (R77, R129). (DEDUCED, log entry 48) -/
def State.discardCmd (s : State) (c : Cmd) : State :=
  let qp := s.qp c.fn c.qp
  ((s.releaseUnit c false).dropCmd c.id).setQp c.fn c.qp { qp with reserved := qp.reserved - 1 }

end Sys2Proof.Machine
end

