-- ==== Sys2Proof/Machine/Alarms.lean ====
section
/-! DEFINITION. Raising alarms and executing their responses, capacity and its floors, defective slots (chapters 12, 19). -/

namespace Sys2Proof.Machine

/-- The latched response code of an alarm source (TMP_RESP0 to TMP_RESP2). -/
def State.respCode (s : State) (src : Nat) : Nat := bits (s.rd (R.TMP_RESP_CODE.ix (src / 10))) (3 * (src % 10)) 3

/-- The event field of an alarm source: its register and bit. -/
def alarmEvt (src : Nat) : Fld × Nat := if src < 16 then (R.TMP_AEVT0_SRC, src) else (R.TMP_AEVT1_SRC, src - 16)

/-- Both alarm event registers as one set of sources. -/
def State.alarmSet (s : State) : Nat := s.rd R.TMP_AEVT0_SRC % 65536 + s.rd R.TMP_AEVT1_SRC * 65536

/-- ALARM_N and GLB_STATUS.ALARM follow the AEVT bits of sources whose executed response was 1 or higher (R453). -/
def State.alarmLevel (s : State) : State :=
  s.setStatus R.GLB_STATUS_ALARM (if Nat.land s.alarmSet s.tmp.notify = 0 then 0 else 1)

/-- Flag, time-stamp and AEVT bit of a source (R452, items 1 and 2). (DEDUCED, log entry 21) -/
def State.flagSource (s : State) (acted : Bool) (src : Nat) : State :=
  let fl := s.rd R.TMP_FLAGS_SRC
  let s := if fl.testBit src then s
    else (s.wr R.TMP_FLAGS_SRC (bitSet fl src)).wr (R.TMP_FLAG_TIME_TICKS.ix src) (s.rd R.TMP_TIME_TICKS % 2 ^ 48)
  let s := s.wr R.TMP_ACTED_SRC (if acted then bitSet (s.rd R.TMP_ACTED_SRC) src else bitClear (s.rd R.TMP_ACTED_SRC) src)
  let e := alarmEvt src
  s.setEvt e.1 e.2

/-- A frame of a type that takes SEQ goes to the peer. -/
def State.sendFrame (s : State) (purge : Bool) (p : TwinPayload) : State :=
  let f : TwinFrame := { nak := s.twn.nak, purge := purge, seq := s.twn.sendSeq, ackSeq := (s.twn.recvSeq + 2 ^ 64 - 1) % 2 ^ 64, payload := p }
  { s with
    twn := { s.twn with sendSeq := s.twn.sendSeq + 1, unacked := s.twn.unacked ++ [f], nak := false },
    out := .soade f :: s.out }

/-- Whether the start is at steps 3 to 6: no key has been drawn (R456, R457). -/
def State.earlyStart (s : State) : Bool := s.boot.alive && !s.boot.keysDrawn

/-- A CLOSE frame goes to the peer; the reasons the spec does not state are free values. (DEDUCED, log entry 30) -/
def State.sendClose (s : State) (purge : Bool) (reason : Option Nat) : State :=
  match reason with
  | some r => s.sendFrame purge (.close r)
  | none =>
    let (r, s) := s.freeNat 1
    s.sendFrame purge (.close r)

/-- A change that the twin has not received is appended to the journal (R492). (DEDUCED, log entry 31) -/
def State.journalAdd (s : State) (r : ChangeRec) : State :=
  if s.twn.journal.length < 1048576 then { s with twn := { s.twn with journal := s.twn.journal ++ [r] } }
  else (s.wr R.TWN_JOURNAL_OVERFLOW 1).setEvt R.TWN_EVT_JOURNAL_FULL

/-- A command that waits for the twin ends with MIRROR_UNAVAILABLE, its changes journaled (R175, R491). -/
def State.endCommit (s : State) (c : Cmd) : State :=
  (c.changes.foldl State.journalAdd s).complete c { c.res with status := 0x50 }

/-- Commands that wait for the twin's acknowledgement, in the order their commits were sent. (DEDUCED, log entry 31) -/
def State.commits (s : State) : List Cmd := s.dsp.inflight.filter fun c => match c.stage with | .commit _ => true | _ => false

/-- The peer is lost, or only its link: the session is over, pending commits end (R491). -/
def State.peerGone (s : State) (lost : Bool) : State :=
  let s := s.commits.foldl State.endCommit s
  let was := s.twn.authed
  let s := { s with twn := { s.twn with authed := false, keyed := false, sentEnd := false, gotEnd := false } }
  let s := s.setStatus R.GLB_STATUS_TWIN_UP 0
  if was then
    if lost then (s.wr R.TWN_STATUS_STATE 6).setEvt R.TWN_EVT_PEER_LOST
    else (s.wr R.TWN_STATUS_STATE 5).setEvt R.TWN_EVT_LINK_DOWN
  else if s.rd R.TWN_STATUS_STATE = 2 then s.wr R.TWN_STATUS_STATE s.twn.before
  else s

/-- The link is down (R481): without a sideband the peer counts as lost at once, with one the heartbeats decide (R491). (DEDUCED, log entry 30) -/
def State.twinDown (s : State) : State :=
  let s := (({ s with twn := { s.twn with linkUp := false } } : State).wr R.TWN_STATUS_SPEED 0).wr R.TWN_STATUS_WIDTH 0
  if s.twn.authed && s.cfg.sideband then s else s.peerGone true

/-- The actions that code `k` adds to the lower codes (Table 19-2). -/
def State.respond (s : State) (k : Nat) : State :=
  if k = 1 then s.alarmLevel
  else if k = 2 then
    (s.setStatus R.GLB_STATUS_SUSPENDED 1).refreshSuspended.abortSuspended
  else if k = 3 then
    let s := if s.twn.authed && s.twn.linkUp then s.sendClose true none else s
    if s.earlyStart then s
    else
      let s := s.zeroize
      { s with tmp := { s.tmp with zeroing := true, purged := true } }
  else if k = 4 then { s with tmp := { s.tmp with bbk := [] } }
  else if k = 5 then { s with tmp := { s.tmp with killing := true } }
  else s

/-- The actions of the codes from `lo` up to `lo + n − 1`, the highest first where secrets are at stake. -/
def State.respondAll (s : State) (lo : Nat) : Nat → State
  | 0 => s
  | n + 1 => (s.respond lo).respondAll (lo + 1) n

/-- Executing code `c` under R454: only what it adds to the code in force. (DEDUCED, log entry 21) -/
def State.execCode (s : State) (srcs : Nat) (c : Nat) : State :=
  let lo := match s.tmp.inForce with | none => 0 | some f => f + 1
  if c < lo then s
  else
    let s := { s with tmp := { s.tmp with
      inForce := some c, notify := if 1 ≤ c then Nat.lor s.tmp.notify srcs else s.tmp.notify } }
    let s := s.respondAll lo (c + 1 - lo)
    let s := if 1 ≤ c then s.alarmLevel else s
    let s := s.wr R.TMP_STATUS_RESPONSE (max (s.rd R.TMP_STATUS_RESPONSE) c)
    s.setStatus R.GLB_STATUS_RESPONSE (max (s.rd R.GLB_STATUS_RESPONSE) c)

/-- A set of sources as bits. -/
def srcBits (l : List Nat) : Nat := l.foldl bitSet 0

/-- The lowest source of a set. -/
def lowestBit (v : Nat) : Nat := ((List.range 24).find? fun i => v.testBit i).getD 0

/-- The ALARM record of a decision, or its merger into the one that is pending (R452, R454). (DEDUCED, log entry 21) -/
def State.alarmRecord (s : State) (srcs code : Nat) (atStart : Bool) : State :=
  if s.evr.queue.any (·.kind == 1) then
    { s with evr := { s.evr with queue := s.evr.queue.map fun r =>
        if r.kind = 1 then
          let all := Nat.lor (r.arg % 2 ^ 24) srcs
          let c := max (bits r.arg 24 3) code
          { r with source := lowestBit all, sev := c, arg := all + c * 2 ^ 24 + (if r.arg.testBit 27 || atStart then 2 ^ 27 else 0) }
        else r } }
  else s.decideRecord 1 (lowestBit srcs) code (srcs + code * 2 ^ 24 + (if atStart then 2 ^ 27 else 0))

/-- A decision that raises the sources `l` together (R452 to R454). (DEDUCED, log entry 21) -/
def State.raiseAlarms (s : State) (l : List Nat) (atStart : Bool := false) : State :=
  if l.isEmpty then s
  else
    let code := l.foldl (fun a x => max a (s.respCode x)) 0
    let s := l.foldl (fun s x => s.flagSource true x) s
    (s.execCode (srcBits l) code).alarmRecord (srcBits l) code atStart

/-- A condition appears: its TMP_COND bit is set, and its source raises unless it was present already (R449). (DEDUCED, log entry 22) -/
def State.raiseCond (s : State) (src : Nat) : State :=
  if (s.rd R.TMP_COND_SRC).testBit src then s
  else (s.wr R.TMP_COND_SRC (bitSet (s.rd R.TMP_COND_SRC) src)).raiseAlarms [src]

/-- A condition disappears. (DEDUCED, log entry 22) -/
def State.endCond (s : State) (src : Nat) : State := s.wr R.TMP_COND_SRC (bitClear (s.rd R.TMP_COND_SRC) src)

/-! Capacity (GLB_CAPACITY, R475). -/

/-- Pairs in service: passed their self-test and not fenced. -/
def State.pairsServing (s : State) : Nat :=
  ((List.range 4).filter fun p => s.flag (R.CCS_PAIR_SELFTEST_OK.ix p) && (s.core p).run != .fenced).length

/-- Entropy quadrants in service; one in capture counts until it rejoins (R320). -/
def State.quadsServing (s : State) : Nat := s.ent.joined.length

/-- The capacity figures in the order of the FLOORS section; a spare in Regrowth counts (R475). (DEDUCED, log entry 37) -/
def State.capacityList (s : State) : List Nat :=
  [s.serving .lattice + s.eng.regrowth.isSome.toNat, s.serving .hash, s.serving .bignum, s.serving .code, s.serving .sym,
   s.quadsServing, s.pairsServing, s.rd R.GLB_CAPACITY_SLOTS_SLOTS]

/-- Whether a healthy spare lattice tile is held. -/
def State.spareHeld (s : State) : Bool :=
  decide (s.rd R.LAT_ROTATE_SPARE < 18) && s.rd (R.LAT_TILE_STATE.ix (s.rd R.LAT_ROTATE_SPARE)) == 4

/-- GLB_CAPACITY takes the present counts. (DEDUCED, log entry 37) -/
def State.writeCapacity (s : State) : State :=
  (((((((((s.wr R.GLB_CAPACITY_LATTICE (s.serving .lattice)).wr R.GLB_CAPACITY_HASH (s.serving .hash)).wr
    R.GLB_CAPACITY_BIGNUM (s.serving .bignum)).wr R.GLB_CAPACITY_CODE (s.serving .code)).wr
    R.GLB_CAPACITY_SYM (s.serving .sym)).wr R.GLB_CAPACITY_ENTROPY s.quadsServing).wr
    R.GLB_CAPACITY_CORES s.pairsServing).wr R.GLB_CAPACITY_LAT_SPARE s.spareHeld.toNat).wr R.LAT_ROTATE_SERVING (s.serving .lattice)).wr
    R.HSH_ROTATE_SERVING (s.serving .hash) |>.wr R.BNE_ROTATE_SERVING (s.serving .bignum) |>.wr
    R.CBE_ROTATE_SERVING (s.serving .code) |>.wr R.SYM_ROTATE_SERVING (s.serving .sym)

/-- Pools below their floor. (DEDUCED, log entry 37) -/
def belowFloor (caps floors : List Nat) : List Bool := List.zipWith (fun c f => decide (c < f)) caps floors

/-- The capacity changes: registers, GLB_EVT.CAPACITY, and CAPACITY_FLOOR with its record for a pool that falls below its floor (R475). (DEDUCED, log entries 22 and 37) -/
def State.recapacity (s : State) (before : List Nat) : State :=
  let s := s.writeCapacity.setEvtAll R.GLB_EVT_CAPACITY
  let was := belowFloor before s.cfg.floors
  let now := belowFloor s.capacityList s.cfg.floors
  if (List.zipWith (fun a b => !a && b) was now).any id then
    let s := s.raiseAlarms [20]
    s.decideRecord 9 20 (s.respCode 20) (s.word 0 0x14 + s.word 0 0x10 * 2 ^ 32)
  else s

/-- Whether the chosen version is 1.1 or later. -/
def State.twinRestores (s : State) : Bool := decide (0x101 ≤ s.rd R.TWN_STATUS_VER_MAJOR * 256 + s.rd R.TWN_STATUS_VER_MINOR)

/-- Whether a secure pair is in service (R18, R476). -/
def State.secureServing (s : State) : Bool :=
  (s.flag (R.CCS_PAIR_SELFTEST_OK.ix 0) && (s.core 0).run != .fenced) || (s.flag (R.CCS_PAIR_SELFTEST_OK.ix 1) && (s.core 1).run != .fenced)

/-! Defective slots (R277, R517). -/

/-- With a twin paired, secure firmware asks the peer for a key that has been found defective (R278, R482, R496). -/
def State.requestKey (s : State) (k : Key) : State :=
  if s.rd R.TWN_STATUS_STATE = 4 ∧ s.twn.authed ∧ s.twn.linkUp ∧ s.twinRestores ∧ s.secureServing then
    s.sendFrame false (.keyReq (attrHandle k.attr))
  else s

/-- A reserved logical slot leaves a fenced physical slot for the spare that Regrowth mapped, or for a free shared slot (R277, R517). -/
def State.moveReserved (s : State) (n : Nat) : State :=
  match (s.keys.regrown ++ s.freeSlots).find? fun p => s.freeSlots.contains p with
  | none => s
  | some p => { s with keys := { s.keys with reservedMap := tblPut none s.keys.reservedMap n (some p) } }

/-- Regrowth maps a spare in place of a fenced slot, or the in-service count falls (R277). -/
def State.regrowSlot (s : State) : State :=
  let left := s.rd R.GLB_CAPACITY_SLOTS_SPARES
  match ((List.range 256).map (· + 4096)).find? (fun p => !s.keys.regrown.contains p && !s.keys.fenced.contains p) with
  | some p =>
    if left = 0 then s.wr R.GLB_CAPACITY_SLOTS_SLOTS (s.rd R.GLB_CAPACITY_SLOTS_SLOTS - 1)
    else
      let s := { s with keys := { s.keys with regrown := p :: s.keys.regrown } }
      let s := (s.wr R.GLB_CAPACITY_SLOTS_SPARES (left - 1)).setEvt R.KS_EVT_REGROWTH
      if left = 1 then s.setEvt R.KS_EVT_SPARES_OUT else s
  | none => s.wr R.GLB_CAPACITY_SLOTS_SLOTS (s.rd R.GLB_CAPACITY_SLOTS_SLOTS - 1)

/-- What a defective slot's key meets: a handle stays with SLOT_DEFECT; a device key follows R517. -/
def State.loseHolder (s : State) (h : Holder) : State :=
  match h with
  | .key o i =>
    (match s.keyAt o i with
     | some k => (s.setKey o i (some { k with loc := .defective })).requestKey k
     | none => s)
  | .kek o =>
    (match s.ownerAt o with
     | some ow => (s.setOwner o (some { ow with kekSlot := none }))
     | none => s) |> fun s =>
      if s.freeSlots.isEmpty then { s with keys := { s.keys with lost := .kek o :: s.keys.lost } }
      else { s with keys := { s.keys with rederive := s.keys.rederive ++ [.kek o] } }
  | .device n =>
    if n = 3 then
      let stop := fun (s : State) (c : Nat) =>
        if s.rd (R.MEM_STATUS_STATE.mem c) = 0 then s else s.wr (R.MEM_STATUS_STATE.mem c) 5
      stop (stop s 0) 1
    else if 5 ≤ n then (s.moveReserved n).twinDown
    else
      let s := if n = 4 then (({ s with dsp := { s.dsp with ctxKey := [] } } : State).dropCtxs fun c => c.kind != 1) else s
      if s.freeSlots.isEmpty then { s with keys := { s.keys with lost := .slot n :: s.keys.lost } }
      else { s with keys := { s.keys with rederive := s.keys.rederive ++ [.slot n] } }

/-- OWNER of KS_DEFECT_INFO. -/
def Holder.owner : Holder → Nat
  | .device _ => 0x3FF
  | .kek o => o
  | .key o _ => o

/-- A slot whose code fails is marked defective (R277). -/
def State.defectSlot (s : State) (p share : Nat) (atUse : Bool) : State :=
  match s.slotAt p with
  | none => s
  | some sl =>
    let before := s.capacityList
    let s := s.clearSlot p
    let s := { s with keys := { s.keys with fenced := p :: s.keys.fenced } }
    let s := if s.flag R.KS_EVT_SLOT_DEFECT then s
      else (((s.wr R.KS_DEFECT_INFO_PSLOT p).wr R.KS_DEFECT_INFO_SHARE share).wr R.KS_DEFECT_INFO_AT_USE atUse.toNat).wr
        R.KS_DEFECT_INFO_OWNER sl.holder.owner
    let s := s.regrowSlot.setEvt R.KS_EVT_SLOT_DEFECT
    let s := s.loseHolder sl.holder
    (s.raiseAlarms [17]).recapacity before

/-- The alarms that accesses to DDR5 fired are decided (R257, R260). -/
def State.settle (s : State) : State :=
  if s.tmp.due.isEmpty then s
  else
    let l := s.tmp.due.dedup
    ({ s with tmp := { s.tmp with due := [] } } : State).raiseAlarms l

end Sys2Proof.Machine
end

