-- ==== Sys2Proof/Machine/Gate.lean ====
section
/-! DEFINITION. How a write reaches a register: the checks every write meets, guarded writes, error responses (chapters 05, 10). -/

namespace Sys2Proof.Machine

/-- The privilege level a requester runs at; hosts and debug have none. -/
def levelOf : Requester → Option Level
  | .core _ _ l => some l
  | _ => none

/-- Whether a requester is a pair at level M. -/
def isM : Requester → Bool
  | .core _ _ .m => true
  | _ => false

/-- Whether a requester is the secure world at level M. -/
def coreOf : Requester → Option Nat
  | .core p _ _ => some p
  | _ => none

/-- An error response to a write (R99): imprecise at a core, an AER error at a host, the error flag at debug. -/
def State.errorWrite (s : State) (who : Requester) (addr : Nat) : State :=
  match who with
  | .core p _ l => s.setCore p { s.core p with storeErrs := (s.core p).storeErrs ++ [(addr, l)] }
  | .host p n => s.aerLog (hostFn p n) 15
  | .debug _ => { s with tap := { s.tap with dbgError := true } }

/-- An error response to a read: a Completer Abort at a host, the error flag and zero data at debug. The exception of a core is its instruction's. -/
def State.errorRead (s : State) (who : Requester) : State :=
  match who with
  | .core _ _ _ => s
  | .host p n => (s.aerLog (hostFn p n) 15).emit (.answer who none)
  | .debug _ => ({ s with tap := { s.tap with dbgError := true } } : State).emit (.answer who (some 0))

/-- A refused debug access sets DEBUG_VIOL and writes its record (R243). -/
def State.debugViol (s : State) (world : World) (kind : AccKind) (a : Nat) : State :=
  let k := match kind with | .read => 0 | .write => 1 | .fetch => 2
  (s.setEvt R.ACT_EVT_DEBUG_VIOL).decideRecord 3 216 2 (a % 2 ^ 40 + k * 2 ^ 40 + world.num * 2 ^ 42)

/-! Guarded registers (R112, R113). -/

/-- Periods of SYS_REFCLK in 1 ms. -/
def msTicks : Nat := 100000

/-- A GUARD_FAIL: its event in each instance, the capture or the count, GUARD_STORM (R113). (DEDUCED, log entry 12) -/
def State.guardFail (s : State) (off cls cause : Nat) : State :=
  let s :=
    if s.flag (R.GLB_GUARD_EVT_GUARD_FAIL.inst 0) then s.satAdd R.GLB_GUARD_COUNT_COUNT 1
    else ((s.wr R.GLB_GUARD_INFO_OFFSET (off / 4)).wr R.GLB_GUARD_INFO_CLASS cls).wr R.GLB_GUARD_INFO_CAUSE cause
  let s := s.setEvtAll R.GLB_GUARD_EVT_GUARD_FAIL
  let recent := s.bus.failTimes.filter fun t => decide (s.time < t + msTicks)
  let s := { s with bus := { s.bus with failTimes := (s.time :: recent).take 16 } }
  if recent.length = 15 then s.raiseAlarms [21] else s

/-- Dropping the pending value at an offset. -/
def State.dropGuard (s : State) (off : Nat) : State :=
  { s with bus := { s.bus with guards := s.bus.guards.filter fun g => g.off != off } }

/-- A write of a requester to `off` breaks every sequence of its own that does not expect it (INTERLEAVED). `off` is an offset of the register space, or an address that is none. (DEDUCED, log entry 12) -/
def State.interleave (s : State) (who : Requester) (off : Nat) : State :=
  (s.bus.guards.filter fun g => sameSource g.who who && off != g.off + 4).foldl
    (fun s g => (s.dropGuard g.off).guardFail g.off (classOf who) 2) s

/-- The value half of a guarded write arrives at X. (DEDUCED, log entry 12) -/
def State.guardValue (s : State) (who : Requester) (off val : Nat) : State :=
  match s.bus.guards.find? fun g => g.off == off with
  | some _ => s.guardFail off (classOf who) 5
  | none => { s with bus := { s.bus with guards := { off := off, val := val, who := who } :: s.bus.guards } }

/-- The complement arrives at X + 4: a correct one lets the value take effect through `f`. (DEDUCED, log entry 12) -/
def State.guardComplement (s : State) (who : Requester) (off compl : Nat) (f : Nat → State → State) : State :=
  match s.bus.guards.find? fun g => g.off == off && sameSource g.who who with
  | some g => if compl + g.val = 2 ^ 32 - 1 then f g.val (s.dropGuard off) else (s.dropGuard off).guardFail off (classOf who) 1
  | none => s.guardFail off (classOf who) 4

/-! The gate of the register space. -/

/-- Why a register access is refused: SOURCE and ENTRY of ACT_VIOL_INFO; the rules of Table 9-3 and of the field tables count as the baseline (R235). (DEDUCED, log entry 14) -/
def State.regRefusal (s : State) (who : Requester) (write : Bool) (off : Nat) : Option (Nat × Nat) :=
  match s.beatRefusal (classOf who) (if write then .write else .read) (worldOf who) (regBase + off) with
  | some r => some r
  | none => if regAllowed s who write off then none else some (2, 0)

/-- Whether an access waits at the table: UPDATE = 1, and not from level M (R245). (DEDUCED, log entry 19) -/
def State.tableHolds (s : State) (who : Requester) : Bool := s.flag R.ACT_CTRL_UPDATE && !isM who

/-- A refused write to the register space. -/
def State.refuseWrite (s : State) (who : Requester) (off src entry : Nat) : State :=
  let s := s.violation (classOf who) (worldOf who) .write src entry (regBase + off)
  let s := match who with | .debug w => s.debugViol w .write (regBase + off) | _ => s
  s.errorWrite who (regBase + off)

/-- Whether a host's requests reach the device: its link is up and its function is not in reset (R76, R97, R129). Every other requester is inside it. (DEDUCED, log entry 13) -/
def State.reaches (s : State) (who : Requester) : Bool :=
  match who with
  | .host p n =>
    s.flag (R.PE_LINK_DL_UP.port p) && !(s.port p).pfReset &&
      (n == 0 || ((s.port p).vfEnable && decide (n ≤ (s.port p).numVfs) && decide (s.rd (R.VFS_STATE_STATE.vf p n) < 2)))
  | _ => true

/-- A write to memory, or to a BAR that holds no register, breaks the writer's guarded sequences (R112). -/
def State.interleaveAt (s : State) (who : Requester) (a : Nat) : State := s.interleave who (bar4Base + a)

/-- An access to the register space that must wait takes its place: behind a link in L1, or at the table. `none` where it goes on. -/
def State.parked (s : State) (who : Requester) (a : HeldAccess) : Option State :=
  if s.inL1 who then some (s.holdL1 who a) else if s.tableHolds who then some (s.hold a) else none

/-- A write of a whole word to the register at `off`: held, refused, or carried out by `f` (R98, R102, R112, R245). (DEDUCED, log entry 13) -/
def State.gated (s : State) (who : Requester) (off val : Nat) (f : State → State) : State :=
  if !s.reaches who then s
  else match s.parked who (busWrite who (regBase + off) val) with
  | some s => s
  | none =>
    let s := s.interleave who off
    if off % 4 ≠ 0 then s.errorWrite who (regBase + off)
    else match s.regRefusal who true off with
      | some (src, e) => s.refuseWrite who off src e
      | none => if s.blockAnswers off then f (s.wakeWord off) else s.errorWrite who (regBase + off)

/-- The value half of a write to a guarded register. (DEDUCED, log entry 12) -/
def State.writeGuardValue (s : State) (who : Requester) (off val : Nat) : State :=
  s.gated who off val fun s => s.guardValue who off val

/-- The complement of a write to the guarded register at `off`. (DEDUCED, log entry 12) -/
def State.writeGuarded (s : State) (who : Requester) (off compl : Nat) (f : Nat → State → State) : State :=
  s.gated who (off + 4) compl fun s => s.guardComplement who off compl f

/-- A write that only the secure world may make; every other requester receives an error response. -/
def State.secureOnly (s : State) (who : Requester) (off : Nat) (f : State → State) : State :=
  if isSecure who then f s else s.refuseWrite who off 2 0

end Sys2Proof.Machine
end

