-- ==== Sys2Proof/Machine/Evr.lean ====
section
/-! DEFINITION. The commands and events of the event recorder (chapter 20). -/

namespace Sys2Proof.Machine

/-- RECORD_STORE: the record that is next is stored; records wait until step 10 has applied the image (R469, R470). (DESIGN CHOICE, log entry 20) -/
def execRecordStore (s : State) : Host.Outcome State Fault Refusal :=
  match s.boot.applied, s.nextRec with
  | true, some r =>
    .next (({ s with evr := { s.evr with queue := s.evr.queue.filter fun x => x.seq != r.seq } } : State).storeRec r)
  | _, _ => s.noEvent

/-- Asking for a copy of a slot (R472). -/
def State.rdSel (s : State) (b slot : Nat) : State :=
  let s := (s.wr (R.EVR_RD_SEL_SLOT.inst b) slot).wr (R.EVR_RD_VALID_VALID.inst b) 0
  { s with evr := { s.evr with rdReq := if s.evr.rdReq.contains b then s.evr.rdReq else s.evr.rdReq ++ [b] } }

/-- EVR_RD_SEL_WRITE. -/
def execEvrRdSelWrite (who : Requester) (value : Word32) (s : State) : Host.Outcome State Fault Refusal :=
  .next (s.gated who 0x50040 value.toNat fun s => s.rdSel ((bankOf who).getD 0) (bits value.toNat 0 11))

/-- Words of a byte string written into an array of data fields. -/
def putWords (f : Fld) (b : Nat) (l : List Byte) : Nat → State → State
  | 0, s => s
  | n + 1, s => (putWords f b l n s).wr ((f.ix n).inst b) (leAt l (4 * n) 4)

/-- EVR_RD_COPY_DONE: the copy is in EVR_RD_DATA and VALID is set (R472). -/
def execEvrRdCopyDone (bank : Fin 4) (s : State) : Host.Outcome State Fault Refusal :=
  let b := bank.val
  if s.evr.rdReq.contains b then
    let slot := s.rd (R.EVR_RD_SEL_SLOT.inst b)
    let s := putWords R.EVR_RD_DATA_DATA b (s.slotBytes slot) 16 s
    let s := (s.wr (R.EVR_RD_VALID_SLOT.inst b) slot).wr (R.EVR_RD_VALID_VALID.inst b) 1
    .next { s with evr := { s.evr with rdReq := s.evr.rdReq.filter (· != b) } }
  else s.noEvent

/-- A write to EVR_EXP_CTRL in instance `b`: the secure instance ignores it (chapter 20). -/
def State.expCtrl (s : State) (b val : Nat) : State :=
  if b = 0 then s
  else
    let busy := s.flag (R.EVR_EXP_STAT_BUSY.inst b)
    let s := s.wr (R.EVR_EXP_CTRL_COUNT.inst b) (bits val 0 12)
    if val.testBit 31 && !busy then
      ((s.wr (R.EVR_EXP_STAT_BUSY.inst b) 1).wr (R.EVR_EXP_STAT_RESULT.inst b) 0).wr (R.EVR_EXP_STAT_WRITTEN.inst b) 0
    else s

/-- EVR_EXP_GO. -/
def execEvrExpGo (who : Requester) (value : Word32) (s : State) : Host.Outcome State Fault Refusal :=
  .next (s.gated who 0x5010C value.toNat fun s => s.expCtrl ((bankOf who).getD 0) value.toNat)

/-- Insertion of a record by its SEQ. -/
def insertSeq (r : Rec) : List Rec → List Rec
  | [] => [r]
  | x :: t => if r.seq ≤ x.seq then r :: x :: t else x :: insertSeq r t

/-- Records in ascending SEQ. -/
def sortSeq (l : List Rec) : List Rec := l.foldr insertSeq []

/-- Each record as one posted write. -/
def exportRecs (p : Port) : Nat → List Rec → State → State
  | _, [], s => s
  | a, r :: t, s => exportRecs p (a + 64) t (s.send (.pf p) (.dmaWrite (.pf p) a (fit 64 r.bytes) .recorder))

/-- The records an export writes (R472). -/
def State.expRecs (s : State) (b : Nat) : List Rec :=
  let count := s.rd (R.EVR_EXP_CTRL_COUNT.inst b)
  (sortSeq ((s.stored.map Prod.snd).filter fun r => decide (s.rd (R.EVR_EXP_FROM_SEQ.inst b) ≤ r.seq))).take
    (if count = 0 then 2048 else count)

/-- Ending an export with its result: `n` records were written. -/
def State.expEnd (s : State) (p : Port) (result n : Nat) : State :=
  let b := 2 + p.num
  let l := (s.expRecs b).take n
  let a := s.rd (R.EVR_EXP_ADDR_LO_ADDR.inst b) + s.rd (R.EVR_EXP_ADDR_HI_ADDR.inst b) * 2 ^ 32
  let s := exportRecs p (a / 64 * 64) l s
  let s := ((s.wr (R.EVR_EXP_STAT_BUSY.inst b) 0).wr (R.EVR_EXP_STAT_RESULT.inst b) result).wr
    (R.EVR_EXP_STAT_WRITTEN.inst b) l.length
  let s := match l.getLast? with
    | some r => s.wr (R.EVR_EXP_LAST_SEQ.inst b) r.seq
    | none => s
  s.setEvt R.EVR_EVT_EXP_DONE

/-- EVR_EXP_DONE: an export ends; on a DMA error how many records went out is a free value. -/
def execEvrExpDone (port : Port) (dmaError : Bool) (s : State) : Host.Outcome State Fault Refusal :=
  let b := 2 + port.num
  if s.flag (R.EVR_EXP_STAT_BUSY.inst b) then
    let total := (s.expRecs b).length
    if dmaError then
      let (n, s) := s.freeNat 2
      .next (s.expEnd port 2 (n % (total + 1)))
    else .next (s.expEnd port (if total = 0 then 1 else 0) total)
  else s.noEvent

/-- The digest an approval of a clearing must carry (R473). -/
def State.clearDigest (s : State) (owner : Nat) : List Byte :=
  actionDigest 7 owner 0 0 (leBytes 4 (s.rd R.EVR_CLR_UPTO_UPTO) ++ leBytes 8 Config.serial.toNat ++ zeros 12) []

/-- The result of a request to clear: 0 accepted, else EVR_CLR_STATUS.RESULT. -/
def State.clearCheck (s : State) (id : Nat) : Nat :=
  if s.evr.clearing.isSome then 3
  else match s.approvalAt id with
    | none => 1
    | some a =>
      if a.action ≠ 7 ∨ a.met = false ∨ a.digest ≠ s.clearDigest a.owner then 1
      else if s.rd R.EVR_NEXT_SEQ_SEQ ≤ s.rd R.EVR_CLR_UPTO_UPTO then 2 else 0

/-- An accepted EVR_CLEAR complement: the approval is consumed; the CLEAR record is stored and the clearing starts, or it is refused (R473). -/
def State.clearWrite (s : State) (val : Nat) : State :=
  let id := bits val 0 16
  let r := s.clearCheck id
  let owner := match s.approvalAt id with | some a => a.owner | none => 0
  let s := (s.endApproval id).wr R.EVR_CLR_STATUS_RESULT r
  let s := s.wr R.EVR_CLEAR_APPROVAL_ID id
  if r ≠ 0 then s.setEvt R.EVR_EVT_CLEAR_REFUSED
  else
    let upto := s.rd R.EVR_CLR_UPTO_UPTO
    let rec_ := s.mkRec 8 39 7 (upto + id * 2 ^ 32 + owner * 2 ^ 48)
    let s := (s.wrapAdd R.EVR_NEXT_SEQ_SEQ 1).storeRec rec_
    { s with evr := { s.evr with clearing := some upto } }

/-- EVR_CLEAR. -/
def execEvrClear (who : Requester) (complement : Word32) (s : State) : Host.Outcome State Fault Refusal :=
  .next (s.writeGuarded who 0x50024 complement.toNat fun v s => s.clearWrite v)

/-- EVR_CLEARING_DONE: every slot whose SEQ is at most UPTO is empty (R473). -/
def execEvrClearingDone (s : State) : Host.Outcome State Fault Refusal :=
  match s.evr.clearing with
  | none => s.noEvent
  | some upto =>
    let keep := s.evr.slots.filter fun e => match e.2 with | some r => decide (upto < r.seq) | none => false
    let s := s.wr R.EVR_CLR_STATUS_REMOVED (s.evr.slots.length - keep.length)
    let s : State := { s with evr := { s.evr with slots := keep, clearing := none } }
    .next (s.setEvt R.EVR_EVT_CLEARED)

/-- A reset of a port ends its export with RESULT 2; how many records went out is a free value (R472). -/
def State.expReset (s : State) (p : Port) : State :=
  if s.flag (R.EVR_EXP_STAT_BUSY.inst (2 + p.num)) then
    let (n, s) := s.freeNat 2
    s.expEnd p 2 (n % ((s.expRecs (2 + p.num)).length + 1))
  else s

end Sys2Proof.Machine
end

