-- ==== Sys2Proof/Machine/Power.lean ====
section
/-! DEFINITION. Supplies, the power cap and the timing domains (chapter 03). -/

namespace Sys2Proof.Machine

/-- The domains of the group that a domain belongs to (Table 3-5). -/
def domGroup (d : Nat) : List Nat :=
  if 3 ≤ d ∧ d ≤ 7 then [3, 4, 5, 6, 7]
  else if 8 ≤ d ∧ d ≤ 12 then [8, 9, 10, 11, 12]
  else if 13 ≤ d ∧ d ≤ 17 then [13, 14, 15, 16, 17]
  else if 18 ≤ d ∧ d ≤ 21 then [18, 19, 20, 21]
  else if 22 ≤ d ∧ d ≤ 25 then [22, 23, 24, 25]
  else [d]

/-- The first domain of a group, under which its requests and claims are held. -/
def domHead (d : Nat) : Nat := (domGroup d).headD d

/-- Claims on a domain: those the dispatcher holds, and the one a DDR group holds for the lines on it (R268). (DEDUCED, log entry 49) -/
def State.claimsOn (s : State) (d : Nat) : Nat := tblGet 0 s.pwr.claims d + s.ddrClaim d

/-- Whether Table 3-5 allows a target state on request: 0 ON, 1 BASKING, 2 OFF. A LOST domain takes no request, whatever its target. (DESIGN CHOICE, log entry 68) -/
def State.stateAllowed (s : State) (d target : Nat) : Bool :=
  if s.rd (domState d) = 3 then false
  else if target = 0 then !(decide (22 ≤ d) && decide (d ≤ 25) && !s.cfg.dbPresent)
  else if target = 1 then (decide (30 ≤ d) && decide (d ≤ 33)) || d == 35 || (decide (41 ≤ d) && decide (d ≤ 57))
  else if target = 2 then
    (decide (3 ≤ d) && decide (d ≤ 25)) || (d == 26 && s.flag R.GLB_STATUS_READY) || d == 32 || d == 33 ||
      (decide (41 ≤ d) && decide (d ≤ 57)) || d == 59
  else false

/-- A domain is OFF, or a request that is pending or under way takes it OFF. -/
def State.domGoing (s : State) (d : Nat) : Bool :=
  s.rd (domState d) == 2 || s.rd (R.PWR_DOM_STAT_PENDING.ix d) == 2 || tblGet 0 s.pwr.moving d == 3

/-- Units of a pool that would serve with domain `d` OFF besides those already OFF (R60, R62). -/
def State.servingWithout (s : State) (p : Pool) (d : Nat) : Nat :=
  ((List.range (poolSize p)).filter fun u =>
    s.inService p u && unitDomain p u != d && !s.domGoing (unitDomain p u)).length

/-- The engine pool whose units lie in a domain. -/
def domPool (d : Nat) : Option Pool :=
  if 41 ≤ d ∧ d ≤ 49 then some .lattice else if 50 ≤ d ∧ d ≤ 52 then some .hash
  else if d = 53 ∨ d = 54 then some .bignum else if d = 55 then some .code
  else if d = 56 ∨ d = 57 then some .sym else none

/-- Whether OFF of a domain would take a pool below its capacity floor (R60, step 2). -/
def State.belowFloorOff (s : State) (d : Nat) : Bool :=
  match domPool d with
  | some p => decide (s.servingWithout p d < s.cfg.floors.getD p.num 0)
  | none =>
    if d = 32 ∨ d = 33 then
      decide (((List.range 4).filter fun p =>
        s.flag (R.CCS_PAIR_SELFTEST_OK.ix p) && (s.core p).run != .fenced && 30 + p != d && !s.domGoing (30 + p)).length
        < s.cfg.floors.getD 6 0)
    else false

/-- The instance of PWR_DOM_REQ of a world takes a result. (DEDUCED, log entry 49) -/
def State.domResult (s : State) (w : World) (r : Nat) : State := s.wr (R.PWR_DOM_REQ_RESULT.inst w.num) r

/-- The world whose request is pending on a domain. -/
def State.pendWorld (s : State) (d : Nat) : World := if s.flag (R.PWR_DOM_STAT_PEND_WORLD.ix d) then .normal else .secure

/-- The result of the request pending on `d` changes, where it is the last request of its world. -/
def State.pendResult (s : State) (d r : Nat) : State :=
  let w := s.pendWorld d
  if domHead (s.rd (R.PWR_DOM_REQ_DOMAIN.inst w.num)) = d then s.domResult w r else s

/-- The pending request of a group, written in each of its domains. -/
def State.setPending (s : State) (d target : Nat) (w : World) : State :=
  (domGroup d).foldl (fun s x => (s.wr (R.PWR_DOM_STAT_PENDING.ix x) target).wr (R.PWR_DOM_STAT_PEND_WORLD.ix x) w.num) s

/-- A pending request is replaced, a transition that it has already started with it (R61, R65). (DESIGN CHOICE, log entry 68) -/
def State.supersede (s : State) (d : Nat) : State :=
  if s.rd (R.PWR_DOM_STAT_PENDING.ix d) = 3 then s
  else
    let s := ((s.pendResult d 6).setPending d 3 .secure).setEvt R.PWR_EVT_GATE_SUPERSEDED
    { s with pwr := { s.pwr with moving := tblPut 0 s.pwr.moving d 0 } }

/-- The first domain of a channel's group. -/
def chanDomain (c : Nat) : Nat := 18 + 4 * c

/-- Whether the DDR scrambling key of this boot is gone, so that both channels stay STOPPED until the next reset (R258). -/
def State.ddrKeyGone (s : State) : Bool := s.boot.keysDrawn && (s.deviceKey 3).isNone

/-- A channel whose training may begin. -/
def State.trainChannel (s : State) (c : Nat) : State :=
  (s.setChan c {}).wr (R.MEM_STATUS_STATE.mem c) (if s.ddrKeyGone then 5 else 1)

/-- A channel is powered again: its registers are as after reset, and it trains (R55, R64, Table 3-6, step 6). -/
def State.powerChannel (s : State) (c : Nat) : State :=
  (s.clearRegs (0xB0000 + 0x1000 * c) (0xB1000 + 0x1000 * c)).trainChannel c

/-- A transition starts; that of a DDR group out of OFF starts with its training. -/
def State.startMove (s : State) (d target : Nat) : State :=
  let s := if target = 0 ∧ s.rd (domState d) = 2 then
      (if d = 18 then s.powerChannel 0 else if d = 22 then s.powerChannel 1 else s) else s
  { s with pwr := { s.pwr with moving := tblPut 0 s.pwr.moving d (target + 1) } }

/-- A request that passed its checks: it supersedes, is done at once, starts or is deferred (R60, R61). While a transition that was not deferred is under way, RESULT reads 0. (DESIGN CHOICE, log entry 68) -/
def State.acceptRequest (s : State) (w : World) (d target : Nat) : State :=
  let s := s.supersede d
  if s.rd (domState d) = target then (s.domResult w 1).setEvt R.PWR_EVT_GATE_DONE
  else
    let s := s.setPending d target w
    if target = 0 ∨ s.claimsOn d = 0 then (s.domResult w 0).startMove d target
    else s.domResult w 2

/-- A world requests a state of a domain (R60). A request that is refused leaves a pending one standing. (DEDUCED, log entry 49; DESIGN CHOICE, log entry 68) -/
def State.domRequest (s : State) (w : World) (own : Option Nat) (dom target : Nat) : State :=
  if 60 ≤ dom then s.domResult w 5
  else
    let d := domHead dom
    let dw := s.rd (R.PWR_DOM_STAT_WORLD.ix d)
    if dw ≠ 2 ∧ dw ≠ w.num then s.domResult w 3
    else if !s.stateAllowed d target || (target == 2 && own == some d) then s.domResult w 5
    else if target = 2 ∧ s.rd (domState d) ≠ 2 ∧ s.belowFloorOff d then s.domResult w 4
    else s.acceptRequest w d target

/-- A write to PWR_DOM_REQ issues a request (R60). -/
def State.domReqWrite (s : State) (who : Requester) (val : Nat) : State :=
  let w := worldOf who
  let dom := bits val 0 6
  let target := bits val 8 2
  let s := (s.wr (R.PWR_DOM_REQ_DOMAIN.inst w.num) dom).wr (R.PWR_DOM_REQ_TARGET.inst w.num) target
  s.domRequest w ((coreOf who).map (30 + ·)) dom target

/-- PWR_DOM_REQ_WRITE. -/
def execPwrDomReqWrite (who : Requester) (value : Word32) (s : State) : Host.Outcome State Fault Refusal :=
  .next (s.gated who 0x10020 value.toNat fun s => s.domReqWrite who value.toNat)

/-- DOMAIN_CLAIMS_ZERO: a deferred request starts (R60, step 4). -/
def execDomainClaimsZero (domain : Nat) (s : State) : Host.Outcome State Fault Refusal :=
  let d := domHead domain
  let p := s.rd (R.PWR_DOM_STAT_PENDING.ix d)
  if d < 60 ∧ p < 3 ∧ tblGet 0 s.pwr.moving d = 0 ∧ s.claimsOn d = 0 then .next (s.startMove d p)
  else s.noEvent

/-- IDLE_BASK_TIMEOUT: a domain with idle basking that holds no claim moves to BASKING (R58). -/
def execIdleBaskTimeout (domain : Nat) (s : State) : Host.Outcome State Fault Refusal :=
  if domain < 60 ∧ s.flag (R.PWR_DOM_STAT_IDLE_BASK.ix domain) ∧ s.domOn domain ∧ s.claimsOn domain = 0 ∧
      tblGet 0 s.pwr.moving domain = 0 then
    .next (s.wr (domState domain) 1)
  else s.noEvent

/-- BASKING_WAKE: an access or a claim wakes a domain (R57). -/
def execBaskingWake (domain : Nat) (s : State) : Host.Outcome State Fault Refusal :=
  if domain < 60 then .next (s.wake domain) else s.noEvent

/-- The power cap in force, in units of 10 mW (R49). -/
def State.capNow (s : State) : Nat := 100 * min s.cfg.capW (s.rd R.PWR_CAP_CAP)

/-- The VDD_CORE ceiling in mV: 0.70 V on a hot -E part (R49, R50). -/
def State.ceiling (s : State) : Nat :=
  let t := s.rd R.PWR_POWER_TEMP
  if Config.extended && decide (420 < t) && decide (t < 0x8000) then min s.cfg.vceil 700 else s.cfg.vceil

/-- A new setpoint is sent to the regulator (R48). -/
def State.setpoint (s : State) (mv : Nat) : State := (s.wr R.PWR_VCORE_SETPOINT mv).emit (.pmbus 0x21 mv)

/-- The regulator's readings that one comparison takes: READ_VOUT, READ_IOUT, READ_POUT (R48, R49). -/
def State.readRegulator (s : State) : State := ((s.emit (.pmbus 0x8B 0)).emit (.pmbus 0x8C 0)).emit (.pmbus 0x96 0)

/-- One comparison of total power with the cap (R49, steps 1 and 2). A setpoint above a lowered ceiling comes down by 5 mV at each comparison. (DEDUCED, log entry 49; DESIGN CHOICE, log entry 68) -/
def State.powerTick (s : State) (total temp measured : Nat) : State :=
  let avs := s.flag R.PWR_VCORE_AVS_EN
  let s := (s.wr R.PWR_POWER_TOTAL (min total 65535)).wr R.PWR_POWER_TEMP temp
  let s := if avs then s.readRegulator.wr R.PWR_VCORE_MEASURED measured else s
  let excess := decide (s.capNow < total)
  let was := s.pwr.overCap
  let s := { s with pwr := { s.pwr with overCap := excess } }
  let sp := s.rd R.PWR_VCORE_SETPOINT
  if !avs then s
  else if excess then
    let s := if was then s else s.setEvt R.PWR_EVT_CAP_ACTIVE
    if 550 < sp then s.setpoint (max 550 (sp - 5)) else s
  else if s.ceiling < sp then s.setpoint (max s.ceiling (sp - 5))
  else if total + 200 < s.capNow ∧ sp < s.ceiling then s.setpoint (min s.ceiling (sp + 5))
  else s

/-- POWER_MANAGER_TICK. -/
def execPowerManagerTick (total temp measured : Nat) (s : State) : Host.Outcome State Fault Refusal :=
  if s.boot.alive then .next (s.powerTick total temp measured) else s.noEvent

/-- The limit of a pool halves, rounded up, never below one (R49, step 3). (DEDUCED, log entry 49) -/
def State.halveLimit (s : State) (p : Pool) : State :=
  let n := s.serving p
  let l := tblGet 0 s.pwr.limits p.num
  if n = 0 then s
  else { s with pwr := { s.pwr with limits := tblPut 0 s.pwr.limits p.num ((if l = 0 then n + 1 else l + 1) / 2) } }

/-- The limit of a pool rises by one, until it reaches the serving count (R49, step 3). (DEDUCED, log entry 49) -/
def State.raiseLimit (s : State) (p : Pool) : State :=
  let l := tblGet 0 s.pwr.limits p.num
  if l = 0 then s
  else { s with pwr := { s.pwr with limits := tblPut 0 s.pwr.limits p.num (if s.serving p ≤ l + 1 then 0 else l + 1) } }

/-- The five pools. -/
def allPools : List Pool := [.lattice, .hash, .bignum, .code, .sym]

/-- CAP_LIMIT_STEP: one millisecond of R49, step 3, or of R52. -/
def execCapLimitStep (s : State) : Host.Outcome State Fault Refusal :=
  if s.pwr.overCap ∧ (!s.flag R.PWR_VCORE_AVS_EN ∨ s.rd R.PWR_VCORE_SETPOINT = 550) then
    .next (allPools.foldl State.halveLimit s)
  else if s.rd R.PWR_POWER_TOTAL + 200 ≤ s.capNow then .next (allPools.foldl State.raiseLimit s)
  else s.noEvent

/-- The run-time cap, clamped to 10 W to the image cap. (DEDUCED, log entry 49) -/
def State.capWrite (v : Nat) (s : State) : State := s.wr R.PWR_CAP_CAP (max 10 (min s.cfg.capW (bits v 0 6)))

/-- PWR_CAP_WRITE. -/
def execPwrCapWrite (who : Requester) (complement : Word32) (s : State) : Host.Outcome State Fault Refusal :=
  .next (s.writeGuarded who 0x10008 complement.toNat fun v s => State.capWrite v s)

/-- RATE_WINDOW_END: the token rate of the window, in mega-tokens per second (R47). -/
def execRateWindowEnd (rate : Nat) (s : State) : Host.Outcome State Fault Refusal :=
  .next (s.wr R.PWR_RATE_RATE (min rate 65535))

/-- AVS is given up after a regulator fault at run time (R48). -/
def State.avsFault (s : State) : State :=
  ((s.setEvt R.PWR_EVT_AVS_FAULT).wr R.PWR_VCORE_AVS_EN 0).wr R.PWR_VCORE_MEASURED 0

/-- At start-up VOUT_MODE is read; a format that is not linear is an AVS fault, else AVS is in use (R48). (DESIGN CHOICE, log entry 68) -/
def State.startAvs (s : State) : State :=
  let s := s.emit (.pmbus 0x20 0)
  if bits (Config.voutMode s.time).toNat 5 3 = 0 then s.wr R.PWR_VCORE_AVS_EN 1 else s.setEvt R.PWR_EVT_AVS_FAULT

/-- AVS_ALERT: STATUS_WORD is read; every bit of it counts as a fault bit (R48, R52). (DESIGN CHOICE, log entry 68) -/
def execAvsAlert (statusWord : BitVec 16) (s : State) : Host.Outcome State Fault Refusal :=
  if s.flag R.PWR_VCORE_AVS_EN then
    let s := s.emit (.pmbus 0x79 statusWord.toNat)
    .next (if statusWord = 0 then s else s.avsFault)
  else .next s

/-- AVS_TIMEOUT: the regulator does not acknowledge for 1 ms (R48). -/
def execAvsTimeout (s : State) : Host.Outcome State Fault Refusal :=
  if s.flag R.PWR_VCORE_AVS_EN then .next s.avsFault else s.noEvent

end Sys2Proof.Machine
end

