-- ==== Sys2Proof/Machine/Worlds.lean ====
section
/-! DEFINITION. Mailboxes and normal-world queue-pair bindings (chapter 09). -/

namespace Sys2Proof.Machine

/-- The offset of word `x` of a mailbox. -/
def mbxOff (m x : Nat) : Nat := 0xA0000 + 0x80 * m + x

/-- A write meets a full mailbox: COLLISION in the header and in RXEVT (R227). -/
def State.collide (s : State) (m : Nat) : State :=
  if s.flag (R.MBX_HDR1_FULL.mbx m) then (s.wr (R.MBX_HDR1_COLLISION.mbx m) 1).setEvt (R.MBX_RXEVT_COLLISION.mbx m) else s

/-- A payload word is written (R226, R227). -/
def State.mbxData (s : State) (who : Requester) (m w val : Nat) : State :=
  let h := tblGet {} s.mbx m
  let ws := if h.writers.any (sameSource who) then h.writers else h.writers ++ [who]
  let s : State := { s with mbx := tblPut {} s.mbx m { h with writers := ws } }
  (s.wr ((R.MBX_DATA_DATA.mbx m).ix w) val).collide m

/-- MBX_DATA_WRITE. -/
def execMbxDataWrite (who : Requester) (mbx : Fin 32) (word : Fin 16) (value : Word32) (s : State) : Host.Outcome State Fault Refusal :=
  .next (s.gated who (mbxOff mbx.val (4 * word.val)) value.toNat fun s => s.mbxData who mbx.val word.val value.toNat)

/-- The level stamped into a header: 3 for a requester that is not a core. -/
def stampLevel (who : Requester) : Nat :=
  match levelOf who with
  | some l => l.num
  | none => 3

/-- The world stamped into a header: 1 for the normal world or a host. -/
def stampWorld : Requester → Nat
  | .core _ w _ => w.num
  | .host _ _ => 1
  | .debug w => w.num

/-- A message is posted (R226, R227). -/
def State.mbxSend (s : State) (who : Requester) (m val : Nat) : State :=
  let len := bits val 0 7
  if 64 < len then s.errorWrite who (regBase + mbxOff m 0x48)
  else
    let full := s.flag (R.MBX_HDR1_FULL.mbx m)
    let mixed := (tblGet {} s.mbx m).writers.any fun w => !sameSource who w
    let s := s.wrapAdd (R.MBX_HDR0_MSEQ.mbx m) 1
    let s := (s.wr (R.MBX_HDR0_LEN.mbx m) len).wr (R.MBX_HDR0_TAG.mbx m) (bits val 8 8)
    let s := ((s.wr (R.MBX_HDR1_CLASS.mbx m) (classOf who)).wr (R.MBX_HDR1_LEVEL.mbx m) (stampLevel who)).wr
      (R.MBX_HDR1_WORLD.mbx m) (stampWorld who)
    let s := if mixed then s.wr (R.MBX_HDR1_MIXED.mbx m) 1 else s
    let s : State := { s with mbx := tblPut {} s.mbx m {} }
    if full then s.collide m
    else (s.wr (R.MBX_HDR1_FULL.mbx m) 1).setEvt (R.MBX_RXEVT_RECEIVED.mbx m)

/-- MBX_SEND. -/
def execMbxSend (who : Requester) (mbx : Fin 32) (value : Word32) (s : State) : Host.Outcome State Fault Refusal :=
  .next (s.gated who (mbxOff mbx.val 0x48) value.toNat fun s => s.mbxSend who mbx.val value.toNat)

/-- The payload words of a mailbox become zero. -/
def State.mbxZero (s : State) (m : Nat) : Nat → State
  | 0 => s
  | n + 1 => (s.mbxZero m n).wr ((R.MBX_DATA_DATA.mbx m).ix n) 0

/-- A message is acknowledged by its MSEQ (R228). -/
def State.mbxAck (s : State) (m val : Nat) : State :=
  if s.flag (R.MBX_HDR1_FULL.mbx m) && s.rd (R.MBX_HDR0_MSEQ.mbx m) == bits val 16 16 then
    let s := s.mbxZero m 16
    let s := ((s.wr (R.MBX_HDR1_FULL.mbx m) 0).wr (R.MBX_HDR1_COLLISION.mbx m) 0).wr (R.MBX_HDR1_MIXED.mbx m) 0
    let s : State := { s with mbx := tblPut {} s.mbx m {} }
    s.setEvt (R.MBX_TXEVT_EMPTIED.mbx m)
  else s

/-- MBX_ACK. -/
def execMbxAck (who : Requester) (mbx : Fin 32) (value : Word32) (s : State) : Host.Outcome State Fault Refusal :=
  .next (s.gated who (mbxOff mbx.val 0x4C) value.toNat fun s => s.mbxAck mbx.val value.toNat)

/-- A request of a world for ON of a pair's domain, without the checks of R60 (R231). -/
def State.wakePair (s : State) (w : World) (p : Nat) : State :=
  let d := 30 + p
  let st := s.rd (domState d)
  if (st = 1 ∨ st = 2) ∧ (p < 2 ∨ (s.core p).nstarted) then ((s.supersede d).setPending d 0 w).startMove d 0 else s

/-- MBX_WAKE acts on the domains of the receivers named (R231). -/
def State.mbxWake (s : State) (w : World) (val : Nat) : State :=
  (((List.range 28).filter fun m => val.testBit m).map mbxPair).dedup.foldl (fun s p => s.wakePair w p) s

/-- MBX_WAKE. -/
def execMbxWake (who : Requester) (value : Word32) (s : State) : Host.Outcome State Fault Refusal :=
  .next (s.gated who 0xA1000 value.toNat fun s => s.mbxWake (worldOf who) value.toNat)

/-- Emptying the mailboxes from `lo` to below `lo + n`, MSEQ included (R230). -/
def State.emptyMbx (s : State) (lo n : Nat) : State :=
  let s := s.clearRegs (0xA0000 + 0x80 * lo) (0xA0000 + 0x80 * (lo + n))
  { s with mbx := s.mbx.filter fun e => !(decide (lo ≤ e.1) && decide (e.1 < lo + n)) }

/-- The mailboxes a pair receives. -/
def State.emptyPairMbx (s : State) (p : Nat) : State :=
  if p = 0 then s.emptyMbx 0 8 else if p = 1 then s.emptyMbx 8 8 else if p = 2 then s.emptyMbx 16 6 else s.emptyMbx 22 6

/-- Whether a pool queue pair is held by a VF or by a normal-world queue pair. -/
def State.poolQpUsed (s : State) (q : Nat) : Bool :=
  s.vfs.any (fun e => e.2.poolQps.contains q) ||
    (List.range 64).any fun n => s.flag (R.WLD_NQ_BIND_BOUND.ix n) && s.rd (R.WLD_NQ_BIND_POOL_QP.ix n) == q

/-- RESULT of a bind: 0 done (chapter 09, WLD_NQ_BIND). (DEDUCED, log entry 32) -/
def State.bindCheck (s : State) (n val : Nat) : Nat :=
  let pq := bits val 18 10
  if s.flag (R.WLD_NQ_BIND_BOUND.ix n) then 3
  else if pq < 8 ∨ s.poolQpUsed pq then 1
  else if (s.ownerAt (bits val 0 10)).isNone then 2
  else if bits val 10 8 = 0 then 4 else 0

/-- A write to WLD_NQ_BIND[n]: BOUND = 1 binds, BOUND = 0 unbinds (R217, R221). (DEDUCED, log entry 32) -/
def State.nqBind (s : State) (n val : Nat) : State :=
  if val.testBit 28 then
    let r := s.bindCheck n val
    let s := s.wr (R.WLD_NQ_BIND_RESULT.ix n) r
    if r ≠ 0 then s
    else
      (((s.wr (R.WLD_NQ_BIND_OWNER.ix n) (bits val 0 10)).wr (R.WLD_NQ_BIND_WEIGHT.ix n) (bits val 10 8)).wr
        (R.WLD_NQ_BIND_POOL_QP.ix n) (bits val 18 10)).wr (R.WLD_NQ_BIND_BOUND.ix n) 1
  else if s.flag (R.WLD_NQ_BIND_BOUND.ix n) then
    let s := s.wr (R.WLD_NQ_BIND_RESULT.ix n) 0
    let s := s.setQp .nw n { s.qp .nw n with deleting := true, unbind := true }
    s.finishDelete .nw n
  else s.wr (R.WLD_NQ_BIND_RESULT.ix n) 0

/-- WLD_NQ_BIND. -/
def execWldNqBind (who : Requester) (n : Nat) (value : Word32) (s : State) : Host.Outcome State Fault Refusal :=
  .next (s.gated who (0x90400 + 4 * n) value.toNat fun s => if n < 64 then s.nqBind n value.toNat else s)

/-- WLD_NQ_UNBIND. -/
def execWldNqUnbind (who : Requester) (n : Nat) (value : Word32) (s : State) : Host.Outcome State Fault Refusal :=
  .next (s.gated who (0x90400 + 4 * n) value.toNat fun s => if n < 64 then s.nqBind n value.toNat else s)

end Sys2Proof.Machine
end

