-- ==== Sys2Proof/Machine/Functions.lean ====
section
/-! DEFINITION. Resets and teardown of functions and ports (R77, R129, R525, Table 6-6). -/

namespace Sys2Proof.Machine

/-- The function that an identifier names. -/
def fnOf (id : Nat) : Fn :=
  if id = 512 then .nw
  else
    let p := if id < 256 then Port.a else Port.b
    if id % 256 = 0 then .pf p else .vf p (id % 256)

/-- A function of a port. -/
def onPort (p : Port) (f : Fn) : Bool := f != .nw && f.port == p

/-- What a reset of a function leaves of its state: the error status of AER, which is sticky (R118). (PRESUMED, log entry 9) -/
def FnSt.sticky (x : FnSt) : FnSt := { cfgRegs := x.cfgRegs.filter fun e => e.1 == aerStatus }

/-- What a port holds for functions that stop is discarded. -/
def State.dropHeld (s : State) (pred : Fn → Bool) (p : Port) : State :=
  s.setPort p { s.port p with held := (s.port p).held.filter fun o => !o.fn.any pred }

/-- Functions are stopped: in-flight commands without completion, contexts, queue pairs, MSI-X table, negotiation (R77, R129, R158). (DEDUCED, log entry 48) -/
def State.stopFns (s : State) (pred : Fn → Bool) : State :=
  let s := (s.dsp.inflight.filter fun c => pred c.fn).foldl State.discardCmd s
  let s := s.dropCtxs fun c => pred c.fn
  let s := (s.qps.filter fun e => pred (fnOf (e.1 / 64))).foldl (fun s e => s.disableQp (fnOf (e.1 / 64)) (e.1 % 64)) s
  let s := (s.dropHeld pred .a).dropHeld pred .b
  (s.fns.filter fun e => pred (fnOf e.1)).foldl (fun s e => s.setFnSt (fnOf e.1) e.2.sticky) s

/-- The provisioned VFs of a port. -/
def State.vfsOf (s : State) (p : Port) : List Nat :=
  (s.vfs.filter fun e => e.1 / 128 == p.num).map fun e => e.1 % 128 + 1

/-- A key that no longer counts toward a function (R127). -/
def uncounted (f : Fn) (k : Option Key) : Option Key :=
  k.map fun k => if k.counted = some f then { k with counted := none } else k

/-- A VF's resources return to the pool; it is UNPROVISIONED. -/
def State.releaseVf (s : State) (p : Port) (n : Nat) : State :=
  let b := 0x200000 + 0x2000 * vfIndex p n
  let s := s.clearRegs b (b + 0x1C)
  { s with
    vfs := tblPut {} s.vfs (vfIndex p n) {},
    keys := { s.keys with keys := s.keys.keys.map fun e => (e.1, uncounted (.vf p n) e.2) } }

/-- A VF is being torn down. -/
def State.startTeardown (s : State) (p : Port) (n : Nat) : State :=
  (s.stopFns (· == .vf p n)).wr (R.VFS_STATE_STATE.vf p n) 3

/-- VF_DESTROY commands that wait for a VF complete (R525). -/
def State.endDestroys (s : State) (p : Port) (n : Nat) : State :=
  (s.dsp.inflight.filter fun c => c.stage == .teardown && c.fn == .pf p && c.par 0 1 == n).foldl (fun s c => s.complete c c.res) s

/-- The link fields of a port read as down; a link under test leaves its test state. -/
def State.linkOff (s : State) (p : Port) : State :=
  let s := s.leaveTest p.num
  let s := ((s.wr (R.PE_LINK_SPEED.port p) 0).wr (R.PE_LINK_WIDTH.port p) 0).wr (R.PE_LINK_DL_UP.port p) 0
  ((s.wr (R.PE_LINK_L1.port p) 0).wr (R.PE_LINK_LANE_REV.port p) 0).setPort p { s.port p with training := false, l1Held := [] }

/-- VF Enable is cleared: a change sets VF_ENABLE. -/
def State.dropVfEnable (s : State) (p : Port) : State :=
  let was := (s.port p).vfEnable
  let s := s.setPort p { s.port p with vfEnable := false, numVfs := 0 }
  if was then s.setEvt (R.PE_EVT_VF_ENABLE.port p) else s

/-- Every VF of a port is being torn down. -/
def State.teardownAll (s : State) (p : Port) : State :=
  let s := s.stopFns fun f => onPort p f && f.isVf
  (s.vfsOf p).foldl (fun s n => s.wr (R.VFS_STATE_STATE.vf p n) 3) s

/-- Mailbox 29 or 31, which a port's PF receives, is emptied (R230). -/
def State.emptyPortMbx (s : State) (p : Port) : State := s.emptyMbx (29 + 2 * p.num) 1

/-- A reset of a whole port begins: `kind` is 1 for a PF FLR, 3 for PEx_PERST_N, 4 for DL_Down (R129). -/
def State.resetPort (s : State) (p : Port) (kind : Nat) : State :=
  let s := ((s.expReset p).stopFns (onPort p)).teardownAll p |>.dropVfEnable p
  (s.emptyPortMbx p).setPort p { s.port p with pfReset := true, resetKind := kind, d3 := false, l1Held := [] }

/-- The register block of a port, less the pool it shares with the other port, and its VFs' windows return to reset (R76). -/
def State.clearPortRegs (s : State) (p : Port) : State :=
  let b := 0x100000 + 0x10000 * p.num
  let s := (s.clearRegs b (b + 8)).clearRegs (b + 0x14) (b + 0x10000)
  s.clearRegs (0x200000 + 0x100000 * p.num) (0x300000 + 0x100000 * p.num)

/-- PEx_PERST_N is low: the port's functions, their configuration spaces and its block are reset (R76, R77). -/
def State.assertPerst (s : State) (p : Port) : State :=
  let s := (s.resetPort p 3).linkOff p
  let s : State := { s with fns := s.fns.filter fun e => !onPort p (fnOf e.1) }
  -- provisioning is returned by FUNCTION_RESET_DONE; the state of each VF is kept until then
  let vs := s.vfsOf p
  let s := s.clearPortRegs p
  vs.foldl (fun s n => s.wr (R.VFS_STATE_STATE.vf p n) 3) s

/-- The data link goes down: the functions are reset, the block keeps its state (R129). -/
def State.linkDown (s : State) (p : Port) : State :=
  ((s.resetPort p 4).linkOff p).setEvt (R.PE_EVT_LINK_DOWN.port p)

/-- A reset of a whole port, or a VF Enable clear, ends. -/
def State.portResetDone (s : State) (p : Port) : State :=
  let kind := (s.port p).resetKind
  let vs := s.vfsOf p
  let s := vs.foldl (fun s n => (s.releaseVf p n).endDestroys p n) s
  let s := s.setPort p { s.port p with pfReset := false, resetKind := 0 }
  if kind = 1 then s.setEvt (R.PE_EVT_FLR_PF.port p) else s

/-- The FLR or the teardown of one VF ends. -/
def State.vfResetDone (s : State) (p : Port) (n : Nat) : State :=
  if s.rd (R.VFS_STATE_STATE.vf p n) = 2 then
    let s := ((s.wr (R.VFS_STATE_STATE.vf p n) 1).setEvt (R.PE_EVT_FLR_VF.port p)).refreshVf (vfIndex p n)
    if s.dsp.inflight.any fun c => c.stage == .teardown && c.fn == .pf p && c.par 0 1 == n then s.startTeardown p n else s
  else (s.releaseVf p n).endDestroys p n

/-- FUNCTION_RESET_DONE. -/
def execFunctionResetDone (fn : Fn) (s : State) : Host.Outcome State Fault Refusal :=
  match fn with
  | .pf p => if (s.port p).resetKind = 0 then s.noEvent else .next (s.portResetDone p)
  | .vf p n =>
    if (s.port p).resetKind = 0 ∧ 2 ≤ s.rd (R.VFS_STATE_STATE.vf p n) then .next (s.vfResetDone p n)
    else s.noEvent
  | .nw => s.noEvent

/-- Whether a VF exists on the bus. -/
def State.vfExists (s : State) (p : Port) (n : Nat) : Bool :=
  (s.port p).vfEnable && decide (1 ≤ n) && decide (n ≤ (s.port p).numVfs)

/-- VF_FLR: an ACTIVE VF is in FLR until its commands are stopped; one without provisioning is reset at once. (DEDUCED, log entry 33) -/
def State.vfFlr (s : State) (p : Port) (n : Nat) : State :=
  let st := s.rd (R.VFS_STATE_STATE.vf p n)
  let s := s.stopFns (· == .vf p n)
  if st = 1 then s.wr (R.VFS_STATE_STATE.vf p n) 2
  else if st = 0 then s.setEvt (R.PE_EVT_FLR_VF.port p)
  else s

/-- VF_FLR. -/
def execVfFlr (port : Port) (vf : Nat) (s : State) : Host.Outcome State Fault Refusal :=
  if s.vfExists port vf then .next (s.vfFlr port vf) else s.noEvent

/-- Whether a port's PF is out of reset. -/
def State.pfAlive (s : State) (p : Port) : Bool :=
  s.boot.alive && (match p with | .a => s.pins.perstNA | .b => s.pins.perstNB && s.cfg.portBEn)

/-- PF_FLR. -/
def execPfFlr (port : Port) (s : State) : Host.Outcome State Fault Refusal :=
  if s.pfAlive port && s.flag (R.PE_LINK_DL_UP.port port) then .next (s.resetPort port 1) else s.noEvent

/-- VF Enable is written to 0: every VF of the port is torn down. -/
def State.clearVfEnable (s : State) (p : Port) : State :=
  if (s.port p).vfEnable && (s.port p).resetKind == 0 then
    let s := (s.teardownAll p).dropVfEnable p
    s.setPort p { s.port p with resetKind := 2 }
  else s

/-- VF_ENABLE_CLEAR. -/
def execVfEnableClear (port : Port) (s : State) : Host.Outcome State Fault Refusal := .next (s.clearVfEnable port)

/-- MAXVF_x, the TotalVFs of a port (R121). -/
def State.maxVf (s : State) (p : Port) : Nat := match p with | .a => s.cfg.maxVfA | .b => s.cfg.maxVfB

/-- VF Enable is written to 1: VFs exist on the bus, UNPROVISIONED; none in recovery, before READY or the limit (R71, R81, R124). With MAXVF 0 the bit is hardwired to 0 (R121). -/
def State.setVfEnable (s : State) (p : Port) (numVfs : Nat) : State :=
  if s.pfAlive p && s.boot.cfgOpen && !s.recovery && !(s.port p).vfEnable && (s.port p).resetKind == 0 &&
      decide (numVfs ≤ s.maxVf p) && decide (0 < s.maxVf p) then
    (s.setPort p { s.port p with vfEnable := true, numVfs := numVfs }).setEvt (R.PE_EVT_VF_ENABLE.port p)
  else s

/-- VF_ENABLE_SET. -/
def execVfEnableSet (port : Port) (numVfs : Nat) (s : State) : Host.Outcome State Fault Refusal := .next (s.setVfEnable port numVfs)

/-- A PF enters D3hot: fetching stops; outputs are held from then on (R119). -/
def State.enterD3 (s : State) (p : Port) : State :=
  if s.pfAlive p then s.setPort p { s.port p with d3 := true } else s

/-- PF_D3HOT_ENTRY. -/
def execPfD3hotEntry (port : Port) (s : State) : Host.Outcome State Fault Refusal := .next (s.enterD3 port)

/-- A PF returns to D0: what its port held leaves it, in the order of the write buffer (R26, R119). (DESIGN CHOICE, log entry 57; DEDUCED, log entry 65) -/
def State.returnD0 (s : State) (p : Port) : State :=
  let l := (s.port p).held
  (byRank l).foldl State.emit (s.setPort p { s.port p with d3 := false, held := [] })

/-- PF_D0_RETURN. -/
def execPfD0Return (port : Port) (s : State) : Host.Outcome State Fault Refusal := .next (s.returnD0 port)

/-- PERST_N_ASSERT. -/
def execPerstNAssert (port : Port) (s : State) : Host.Outcome State Fault Refusal :=
  match port with
  | .a =>
    if s.pins.perstNA then .next (({ s with pins := { s.pins with perstNA := false } } : State).assertPerst .a)
    else s.noEvent
  | .b =>
    if s.pins.perstNB then .next (({ s with pins := { s.pins with perstNB := false } } : State).assertPerst .b)
    else s.noEvent

/-- Link training begins on a port whose PERST_N is high, once step 3 has been reached (R122, R524). -/
def State.trainPort (s : State) (p : Port) : State :=
  if s.pfAlive p && s.domOn (3 + 5 * p.num) then s.setPort p { s.port p with training := true } else s

/-- A port's block is reset as PEx_PERST_N rises; PERST is set and the link trains (R524). With PORTB_EN = 0 port B stays as if the ball were low (R122). -/
def State.risePerst (s : State) (p : Port) : State :=
  if s.pfAlive p then ((s.clearPortRegs p).setEvt (R.PE_EVT_PERST.port p)).trainPort p else s

/-- PERST_N_RISE. -/
def execPerstNRise (port : Port) (s : State) : Host.Outcome State Fault Refusal :=
  match port with
  | .a =>
    if s.pins.perstNA then s.noEvent
    else .next (({ s with pins := { s.pins with perstNA := true } } : State).risePerst .a)
  | .b =>
    if s.pins.perstNB then s.noEvent
    else .next (({ s with pins := { s.pins with perstNB := true } } : State).risePerst .b)

/-- DL_DOWN. -/
def execDlDown (port : Port) (s : State) : Host.Outcome State Fault Refusal :=
  if s.flag (R.PE_LINK_DL_UP.port port) then .next ((s.linkDown port).trainPort port) else s.noEvent

/-- A speed and a width that Table 6-1 lists. -/
def linkFits (speed width : Nat) : Bool :=
  decide (1 ≤ speed) && decide (speed ≤ 5) && (width == 1 || width == 2 || width == 4)

/-- DL_UP: a training ends in L0 with the data link up. -/
def execDlUp (port : Port) (speed width : Nat) (reversed : Bool) (s : State) : Host.Outcome State Fault Refusal :=
  if (s.port port).training && !s.inTest port.num && linkFits speed width then
    let s := s.setPort port { s.port port with training := false }
    let s := ((s.wr (R.PE_LINK_SPEED.port port) speed).wr (R.PE_LINK_WIDTH.port port) width).wr (R.PE_LINK_DL_UP.port port) 1
    .next ((s.wr (R.PE_LINK_LANE_REV.port port) reversed.toNat).setEvt (R.PE_EVT_LINK_UP.port port))
  else s.noEvent

/-- LINK_L1_ENTRY. -/
def execLinkL1Entry (port : Port) (s : State) : Host.Outcome State Fault Refusal :=
  if s.flag (R.PE_LINK_DL_UP.port port) && !s.flag (R.PE_LINK_L1.port port) then .next (s.wr (R.PE_LINK_L1.port port) 1)
  else s.noEvent

/-- A retraining of a link that is up ends, as the host requested it or the partners chose: SPEED_CHANGE is set where the speed or the width is another (R524). -/
def State.retrained (s : State) (p : Port) (speed width : Nat) : State :=
  let s' := (s.wr (R.PE_LINK_SPEED.port p) speed).wr (R.PE_LINK_WIDTH.port p) width
  if s.rd (R.PE_LINK_SPEED.port p) = speed ∧ s.rd (R.PE_LINK_WIDTH.port p) = width then s'
  else s'.setEvt (R.PE_EVT_SPEED_CHANGE.port p)

/-- LINK_SPEED_CHANGE. -/
def execLinkSpeedChange (port : Port) (speed width : Nat) (s : State) : Host.Outcome State Fault Refusal :=
  if s.flag (R.PE_LINK_DL_UP.port port) && linkFits speed width then .next (s.retrained port speed width) else s.noEvent

end Sys2Proof.Machine
end

