-- ==== Sys2Proof/Machine/Crypto.lean ====
section
/-! DEFINITION. Calls of the standards' functions, with the lengths the spec gives their results. -/

namespace Sys2Proof.Machine

/-- The public key of a stored form, `n` bytes. (DESIGN CHOICE, log entry 2) -/
def publicOf (alg : Nat) (stored : List Byte) (n : Nat) : List Byte := fit n (Config.crypto .publicOf [leBytes 2 alg, stored])

/-- The DER object identifier of a pre-hash function. (PRESUMED, log entry 72) -/
def hashOid (ph : Nat) : List Byte :=
  [0x06, 0x09, 0x60, 0x86, 0x48, 0x01, 0x65, 0x03, 0x04, 0x02] ++ leBytes 1 ([0, 1, 2, 3, 8, 9, 10, 11, 12].getD ph 0)

/-- The string M′ that ML-DSA and SLH-DSA sign (Table 14-3, R373): mode octet, length of the context, context, OID of the pre-hash, message or digest. -/
def signedString (mode ctx msg : List Byte) : List Byte :=
  if mode.headD 0 = 0 then 0 :: (leBytes 1 ctx.length ++ ctx ++ msg)
  else 1 :: (leBytes 1 ctx.length ++ ctx ++ hashOid ((mode.getD 1 0).toNat) ++ msg)

/-- What a signature algorithm is given of mode, context and message: ML-DSA and SLH-DSA the one string M′. -/
def signOperands (alg : Nat) (mode ctx msg : List Byte) : List (List Byte) :=
  if alg / 256 = 2 ∨ alg / 256 = 3 then [[], [], signedString mode ctx msg] else [mode, ctx, msg]

/-- A signature of `n` bytes: algorithm, the mode octets of the command, stored form, context, message, random bytes. (DESIGN CHOICE, log entry 2) -/
def signature (alg : Nat) (mode stored ctx msg rnd : List Byte) (n : Nat) : List Byte :=
  fit n (Config.crypto .sign ([leBytes 2 alg, stored, rnd] ++ signOperands alg mode ctx msg))

/-- Whether a signature verifies. (DESIGN CHOICE, log entry 2) -/
def verifies (alg : Nat) (mode pub ctx msg sig : List Byte) : Bool :=
  Config.holds .verify ([leBytes 2 alg, pub, sig] ++ signOperands alg mode ctx msg)

/-! The KEMs over their inner encryption (R330, R331, R391, R392). -/

/-- SHA3-512. -/
def sha3big (msg : List Byte) : List Byte := fit 64 (hashOf 0x0A06 msg)

/-- SHAKE256 with 32 bytes of output. -/
def shake256 (msg : List Byte) : List Byte := fit 32 (hashNS 0x0A08 [] [] msg 32)

/-- Whether every 12-bit coefficient of an encoded vector is below 3,329 (R330). -/
def coefficientsOk : List Byte → Bool
  | a :: b :: c :: t => decide (leNat [a, b, c] % 4096 < 3329) && decide (leNat [a, b, c] / 4096 < 3329) && coefficientsOk t
  | _ => true

/-- The modulus check of an ML-KEM public key, ByteEncode12(t̂) ‖ ρ (R325, R330). -/
def modulusOk (alg : Nat) (pk : List Byte) : Bool := coefficientsOk (pk.take (384 * (alg % 256 + 1)))

/-- K and the randomness r of the encryption: G(m ‖ H(ek)) (R331). -/
def mlkemDerive (pk m : List Byte) : List Byte × List Byte :=
  let g := sha3big (m ++ sha3 pk)
  (g.take 32, g.drop 32)

/-- ML-KEM.Encaps_internal: ciphertext of `n` bytes, shared secret. -/
def mlkemEncaps (alg : Nat) (pk m : List Byte) (n : Nat) : List Byte × List Byte :=
  let (k, r) := mlkemDerive pk m
  (fit n (Config.crypto .kemEncrypt [leBytes 2 alg, pk, m, r]), k)

/-- ML-KEM.Decaps_internal: decryption, re-encryption, comparison, and the implicit-rejection key J(z ‖ c) (R331). -/
def mlkemDecaps (alg : Nat) (stored pk c : List Byte) : List Byte :=
  let m := fit 32 (Config.crypto .kemDecrypt [leBytes 2 alg, stored, c])
  let (c', k) := mlkemEncaps alg pk m c.length
  if c' = c then k else shake256 (stored.drop 32 ++ c)

/-- Bytes of the error vector e, and of the string s at the end of the stored form (R386). -/
def mcelieceLen (alg : Nat) : Nat := if alg % 256 ≤ 2 then 436 else 576

/-- Classic McEliece encapsulation: C = Encode(e, T) of `n` bytes, K = H(1, e, C) (R391). -/
def mcelieceEncaps (alg : Nat) (pk r : List Byte) (n : Nat) : List Byte × List Byte :=
  let e := fit (mcelieceLen alg) (Config.crypto .fixedWeight [leBytes 2 alg, r])
  let c := fit n (Config.crypto .kemEncrypt [leBytes 2 alg, pk, e])
  (c, shake256 ([1] ++ e ++ c))

/-- Classic McEliece decapsulation: H(1, e, C), or H(0, s, C) where decoding fails (R392). -/
def mcelieceDecaps (alg : Nat) (stored c : List Byte) : List Byte :=
  let ops := [leBytes 2 alg, stored, c]
  if Config.holds .decodes ops then shake256 ([1] ++ fit (mcelieceLen alg) (Config.crypto .kemDecrypt ops) ++ c)
  else shake256 ([0] ++ stored.drop (stored.length - mcelieceLen alg) ++ c)

/-- ML-DSA-65 and ECDSA P-384, their public-key and signature lengths. -/
def algMldsa65 : Nat := 0x0202

/-- ALG of ECDSA P-384 with SHA-384. -/
def algP384 : Nat := 0x0602

/-- The pure mode, and ECDSA over the message's SHA-384. -/
def pureMode : List Byte := [0, 0]

/-- The mode octets of a signature over a SHA-384 digest. -/
def sha384Mode : List Byte := [2, 2]

/-- The 256-bit output of a key schedule step of the Soade handshake: operation, own random bytes, the peer's payload. -/
def twinStep (op : Nat) (eph peer : List Byte) (n : Nat) : List Byte :=
  fit n (Config.crypto .twin [leBytes 1 op, eph, peer])

end Sys2Proof.Machine
end

