-- ==== Sys2Proof/Machine/Cores.lean ====
section
/-! DEFINITION. The control-core pairs: registers, caches, exceptions, interrupts, lockstep (chapter 08). -/

namespace Sys2Proof.Machine

/-! Registers, level and world. -/

/-- A general register; g31 reads as zero (R182). -/
def State.gr (s : State) (p : Nat) (a : Reg) : Word64 := if a = 31 then 0 else tblGet 0 (s.core p).g a.val

/-- Writing a general register; a write to g31 is discarded (R182). -/
def State.setGr (s : State) (p : Nat) (d : Reg) (v : Word64) : State :=
  if d = 31 then s else s.setCore p { s.core p with g := tblPut 0 (s.core p).g d.val v }

/-- A pair's program counter is set. -/
def State.setPc (s : State) (p : Nat) (pc : Word64) : State := s.setCore p { s.core p with pc := pc }

/-- The world a pair executes in (R179). -/
def State.worldOfPair (s : State) (p : Nat) : World := if (s.core p).level = .m then .secure else pairWorld p

/-- The requester a pair's accesses come from. -/
def State.reqOf (s : State) (p : Nat) : Requester := .core p (s.worldOfPair p) (s.core p).level

/-- The initiator class of a pair's accesses in a world. -/
def pairClass (p : Nat) (w : World) : Nat := 3 + 2 * p + w.num

/-- Every counter of a pair of world N that is enabled and selects an event advances (R204). -/
def State.pmuAt (s : State) (p ev : Nat) : State :=
  if pairWorld p = .secure then s
  else
    let c := s.core p
    let pmc := (List.range 4).foldl (fun t i =>
      if c.pmuCtl.getLsbD i && (tblGet 0 c.pmuSel i).toNat == ev then tblPut 0 t i (tblGet 0 t i + 1) else t) c.pmc
    s.setCore p { c with pmc := pmc }

/-- A performance counter event; counters are frozen at M (R204). (DEDUCED, log entry 29) -/
def State.pmuCount (s : State) (p ev : Nat) : State := if (s.core p).level = .m then s else s.pmuAt p ev

/-! Exceptions (R190, Table 8-4). -/

/-- xCAUSE: CODE and IMM. -/
def causeWord (code imm : Nat) : Word64 := BitVec.ofNat 64 (code + imm % 65536 * 65536)

/-- Taking an exception at K: KEPC, KCAUSE, KEADDR and KSTATUS are set, execution goes on at KXBASE + `off` (R190). -/
def State.takeAtK (s : State) (p : Nat) (code imm off : Nat) (epc eaddr : Word64) : State :=
  let s := s.pmuCount p 8
  let c := s.core p
  s.setCore p { c with
    kepc := epc, kcause := causeWord code imm, keaddr := eaddr, plev := c.level, pie := c.ie, ie := false,
    level := .k, pc := c.kxbase + BitVec.ofNat 64 off, resv := none, run := if c.run = .wfi then .running else c.run }

/-- MXBASE without its LOCK bit. -/
def mvec (c : Core) : Word64 := c.mxbase &&& BitVec.ofNat 64 0xFFFFFFFE00

/-- Taking an exception at M (R190, R191). -/
def State.takeAtM (s : State) (p : Nat) (code imm off : Nat) (epc eaddr : Word64) : State :=
  let s := s.pmuCount p 8
  let c := s.core p
  s.setCore p { c with
    mepc := epc, mcause := causeWord code imm, meaddr := eaddr, mplev := c.level,
    level := .m, pc := mvec c + BitVec.ofNat 64 off, resv := none, run := if c.run = .wfi then .running else c.run }

/-- A synchronous exception: at M if raised in M, else at K with the vector of the present level. -/
def State.trap (s : State) (p : Nat) (code imm : Nat) (epc eaddr : Word64) : State :=
  match (s.core p).level with
  | .m => s.takeAtM p code imm 0 epc eaddr
  | .k => s.takeAtK p code imm 0x80 epc eaddr
  | .u => s.takeAtK p code imm 0 epc eaddr

/-- An exception of the instruction at PC. -/
def State.fault (s : State) (p code : Nat) (eaddr : Word64) : State := s.trap p code 0 (s.core p).pc eaddr

/-- An instruction address fault at a target. -/
def State.addrFault (s : State) (p : Nat) (target : Word64) : State := s.trap p 1 0 target target

/-- An illegal-instruction exception with the instruction word. -/
def State.illegal (s : State) (p word : Nat) : State := s.fault p 2 (BitVec.ofNat 64 word)

/-- Whether a pair waits for an access of its own that is held at the table: its accesses leave it one at a time (R187). (DEDUCED, log entry 19) -/
def State.waitsAtTable (s : State) (p : Nat) : Bool := s.act.held.any fun h => h.pair == some p

/-! Caches (R188, R208, R240, R241). -/

/-- How the cores see an address (Table 8-3). -/
inductive MemType | cached (atomics : Bool) | uncached | device
deriving DecidableEq, Repr

/-- The memory type of an address; addresses outside Table 5-1 are treated as cached memory that does not answer. -/
def memType (a : Nat) : MemType :=
  if a < 0x40000 then .cached false
  else if opWinBase ≤ a ∧ a < opWinBase + 0x1000000 then .uncached
  else if (regBase ≤ a ∧ a < regBase + 0x400000) ∨ (bitBase ≤ a ∧ a < bitBase + 0x2000000) then .device
  else .cached true

/-- The line of an address in a cache that a world can hit: an access of world N never hits a line tagged S. -/
def cacheHit (l : List CacheLine) (w : World) (a : Nat) : Option CacheLine :=
  l.find? fun x => x.addr == a / 64 * 64 && !(w == .normal && x.world == .secure)

/-- A cache without the line of an address. -/
def cacheDrop (l : List CacheLine) (a : Nat) : List CacheLine := l.filter fun x => x.addr != a / 64 * 64

/-- Lines of the set an address maps to: 128 sets of 4 ways. -/
def cacheSet (l : List CacheLine) (a : Nat) : List CacheLine := l.filter fun x => x.addr / 64 % 128 == a / 64 % 128

/-- A store of a pair into a line that its data cache holds: the others lose their copies, its own turns dirty and keeps what memory held (R188, R189). (DEDUCED, log entry 27) -/
def State.storeHit (s : State) (p : Nat) (x : CacheLine) (a : Nat) (l : List Byte) : State :=
  let x' : CacheLine := if x.dirty then x else { x with dirty := true, data := s.bytes x.addr 64 }
  let s := s.setBytes a l
  let c := s.core p
  s.setCore p { c with dcache := x' :: cacheDrop c.dcache x.addr }

/-- Dirty data that is dropped: the memory behind the line is seen again. (DEDUCED, log entry 27) -/
def State.revertLine (s : State) (x : CacheLine) : State :=
  if x.dirty then { s with mem := memPut s.mem x.addr x.data } else s

/-- Writing a dirty line back: checked with the class and world of its tag; a refused line is dropped and raises the imprecise store error (R240). (DEDUCED, log entry 27) -/
def State.writeBack (s : State) (p : Nat) (x : CacheLine) : State :=
  if !x.dirty then s
  else
    let bs := beats x.addr 64
    let cls := pairClass p x.world
    match s.firstRefusal cls .write x.world bs with
    | none =>
      if bs.all fun b => s.memUp b.1 then
        match s.lineOf x.addr with
        | some (c, l) => s.cleanLine c l
        | none => s
      else (s.revertLine x).errorWrite (s.reqOf p) x.addr
    | some r => ((s.revertLine x).noteRefusal cls x.world .write (some r)).errorWrite (s.reqOf p) x.addr

/-- A line leaves the data cache: it is written back, a reservation on it is cleared (R189). (DEDUCED, log entry 27) -/
def State.evict (s : State) (p : Nat) (x : CacheLine) : State :=
  let s := s.writeBack p x
  let c := s.core p
  s.setCore p { c with
    dcache := cacheDrop c.dcache x.addr, resv := if c.resv = some (x.addr / 64) then none else c.resv }

/-- Room for a line in its set: with four lines there, one is evicted, which of them is a free value. (DEDUCED, log entry 27) -/
def State.makeRoom (s : State) (p a : Nat) : State :=
  let set := cacheSet (s.core p).dcache a
  if set.length < 4 then s
  else
    let (n, s) := s.freeNat 1
    match set[n % set.length]? with
    | some x => s.evict p x
    | none => s

/-- A line fill into the data cache: whether it succeeded (R208: a line the world cannot hit is written back first). -/
def State.fillData (s : State) (p : Nat) (w : World) (a : Nat) : Bool × State :=
  let s := match (s.core p).dcache.find? (fun x => x.addr == a / 64 * 64) with
    | some x => s.evict p x
    | none => s
  let (_, ok, s) := s.readMem (pairClass p w) w .read (a / 64 * 64) 64
  let s := s.pmuCount p 3
  if !ok then (false, s)
  else
    let s := s.makeRoom p a
    let c := s.core p
    (true, s.setCore p { c with dcache := { addr := a / 64 * 64, world := w, dirty := false, data := [] } :: c.dcache })

/-- Emptying a pair's caches without write-back: dirty data are lost, and so are the accesses that wait at the table. -/
def State.dropCaches (s : State) (p : Nat) : State :=
  let s : State := { s with act := { s.act with held := s.act.held.filter fun h => h.pair != some p } }
  let s := (s.core p).dcache.foldl State.revertLine s
  s.setCore p { s.core p with dcache := [], icache := [] }

/-- Fetching the instruction at PC: whether it arrived; otherwise the instruction address fault is due (R182, R184, R209). (DESIGN CHOICE, log entry 25) -/
def State.fetchAt (s : State) (p : Nat) : Bool × State :=
  let c := s.core p
  let a := c.pc.toNat
  let w := s.worldOfPair p
  if a % 4 ≠ 0 ∨ 2 ^ 40 ≤ a then (false, s)
  else match memType a with
    | .cached _ =>
      (match cacheHit c.icache w a with
       | some _ => (true, s)
       | none =>
         let (data, ok, s) := s.readMem (pairClass p w) w .fetch (a / 64 * 64) 64
         let s := s.pmuCount p 2
         if !ok then (false, s)
         else
           let set := cacheSet (s.core p).icache a
           let (n, s) := if set.length < 4 then (0, s) else s.freeNat 1
           let c := s.core p
           let l := cacheDrop c.icache a
           let l := if set.length < 4 then l else match set[n % set.length]? with | some x => cacheDrop l x.addr | none => l
           (true, s.setCore p { c with icache := { addr := a / 64 * 64, world := w, dirty := false, data := data } :: l }))
    | _ => (false, s)

/-! Starting, restarting and fencing (R180, R181, R201 to R203). -/

/-- CP0 while it runs boot ROM, at level M, from the first address of it; boot ROM's work is the events of the start (R180). (DEDUCED, log entry 48) -/
def romCore : Core := { run := .running, level := .m, mplev := .m }

/-- A pair as it leaves reset: registers zero, caches empty; MXBASE is kept as boot ROM wrote it. (DESIGN CHOICE, log entry 6) -/
def freshCore (old : Core) (level : Level) (entry : Nat) : Core :=
  { run := .running, pc := BitVec.ofNat 64 entry, level := level, mxbase := old.mxbase,
    mplev := if level = .m then .m else .u, nstarted := old.nstarted, haltReq := old.haltReq }

/-- A normal pair starts at the NORMAL_FW entry at level K. (DESIGN CHOICE, log entry 6) -/
def State.startNormal (s : State) (p entry : Nat) : State :=
  let s := s.dropCaches p
  s.setCore p { freshCore (s.core p) .k entry with nstarted := true }

/-- A secure pair starts at the SECURE_FW entry at level M. (DESIGN CHOICE, log entry 6) -/
def State.startSecure (s : State) (p entry : Nat) : State :=
  let s := s.dropCaches p
  s.setCore p (freshCore (s.core p) .m entry)

/-- A normal pair is released once; with its domain OFF it starts as the domain comes ON (R180, R181). -/
def State.release (s : State) (p e : Nat) : State :=
  if (s.core p).run != .reset || (s.core p).nstarted then s
  else if s.domAnswers (30 + p) then s.startNormal p e
  else s.setCore p { s.core p with nstarted := true }

/-- CCS_NSTART: a bit set releases its pair once (R180). (DESIGN CHOICE, log entry 6) -/
def State.nstart (s : State) (val : Nat) : State :=
  let s := s.wr R.CCS_NSTART_START (bits val 2 2)
  [2, 3].foldl (fun s p =>
    match s.boot.normalEntry with
    | some e => if val.testBit p then s.release p e else s
    | none => s) s

/-- CCS_NSTART_WRITE. -/
def execCcsNstartWrite (who : Requester) (value : Word32) (s : State) : Host.Outcome State Fault Refusal :=
  .next (s.gated who 0x140010 value.toNat fun s => s.nstart value.toNat)

/-- CCS_NRESET: each normal pair named restarts, unless it is fenced, OFF or was never released (R181). -/
def State.nreset (s : State) (val : Nat) : State :=
  let s := s.wr R.CCS_NRESET_PAIR (bits val 2 2)
  [2, 3].foldl (fun s p =>
    match s.boot.normalEntry with
    | some e =>
      if val.testBit p && (s.core p).nstarted && (s.core p).run != .fenced && s.rd (domState (30 + p)) < 2 then
        (s.startNormal p e).setEvt R.CCS_EVT_NRESET_DONE p
      else s
    | none => s) s

/-- CCS_NRESET. -/
def execCcsNreset (who : Requester) (complement : Word32) (s : State) : Host.Outcome State Fault Refusal :=
  .next (s.writeGuarded who 0x140018 complement.toNat fun v s => s.nreset v)

/-- Control-plane opcodes (R16). -/
def controlOp (op : Nat) : Bool :=
  op == 0x70 || op == 0x71 || op == 0x72 || op == 0x73 || op == 0x11 || op == 0x12 || op == 0x13 || op == 0x15 ||
    op == 0x7D || op == 0x7E || op == 0x7F

/-- Whether a secure pair takes part in the control plane. -/
def State.secureUp (s : State) (p : Nat) : Bool :=
  s.flag (R.CCS_PAIR_SELFTEST_OK.ix p) && (s.core p).run != .fenced && (s.core p).run != .reset

/-- Whether a control queue of a secure pair in service is enabled (R18, R177). -/
def State.queueUp (s : State) (p : Nat) : Bool := s.flag (R.DSP_CQ_CFG_ENABLE.ix p) && s.secureUp p

/-- The control queue of a pair that is fenced is disabled; commands handed to it complete with INTERNAL, DETAIL 8; with no queue left of a pair in service, those at step 7 are refused (R18, R177, R202). -/
def State.loseQueue (s : State) (p : Nat) : State :=
  let s := s.wr (R.DSP_CQ_CFG_ENABLE.ix p) 0
  let handed := s.dsp.inflight.filter fun c => match c.stage with | .handed q _ => q == p | _ => false
  let s := handed.foldl (fun s c => (s.complete c { status := 0x7F, detail := 8 }).setEvt R.DSP_EVT_HANDOVER_LOST) s
  if s.queueUp 0 || s.queueUp 1 then s
  else (s.dsp.inflight.filter fun c => controlOp c.opcode && c.late).foldl (fun s c => s.complete c { status := 0x42 }) s

/-- Tail-drop fences a pair for the rest of the boot (R201). -/
def State.fencePair (s : State) (p : Nat) : State :=
  let s := s.dropCaches p
  let s := s.setCore p { s.core p with run := .fenced, storeErrs := [], resv := none, haltWorld := none, stepping := false }
  let s := s.setEvt R.CCS_EVT_FENCED p
  if p < 2 then s.loseQueue p else s

/-- A lockstep mismatch of a kind (R201). -/
def State.lockstepFail (s : State) (p kind : Nat) : State :=
  let before := s.capacityList
  let c := s.core p
  let s := if s.flag R.CCS_LS_INFO_KIND then s.satAdd R.CCS_LS_INFO_COUNT 1
    else (((s.wr R.CCS_LS_INFO_PAIR p).wr R.CCS_LS_INFO_KIND kind).wr R.CCS_LS_INFO_LEVEL c.level.num).wr R.CCS_LS_PC_PC c.pc.toNat
  let s := (s.wr (R.CCS_PAIR_LOCKSTEP.ix p) 1).fencePair p
  (s.raiseAlarms [16]).recapacity before

/-! Interrupts and the timer (R133, R195 to R197). -/

/-- Whether an event source is asserted, as seen by a world (Table 6-8). -/
def State.sourceUp (s : State) (w : World) (n : Nat) : Bool :=
  if n < 24 then s.alarmSet.testBit n
  else if n = 40 then s.flag R.PWR_EVT_DOMAIN_LOST
  else if n = 202 ∨ n = 203 then
    s.rd (R.DSP_CQ_HTAIL_TAIL.ix (n - 202)) != s.rd (R.DSP_CQ_HHEAD_HEAD.ix (n - 202))
  else if 256 ≤ n then s.groupAsserted (n - 256)
  else match evtOffset n with
    | some off => evtBits s.regs ((if n = 34 ∨ n = 35 then w.num * 0x1000000 + off else off) * 64) != 0
    | none => false

/-- Whether a source is routed to a world (R133). -/
def State.routed (s : State) (w : World) (n : Nat) : Bool :=
  let v := tblGet 0 s.cfg.eventWorld n
  if n = 202 ∨ n = 203 then w == .secure
  else if n = 40 then true
  else match w with
    | .secure => decide (n < 24) || v != 1
    | .normal => v == 1 || v == 2

/-- Whether a source is pending at a pair (R195). -/
def State.ipend (s : State) (p n : Nat) : Bool :=
  (tblGet 0 (s.core p).ien (n / 64)).getLsbD (n % 64) && s.routed (pairWorld p) n && s.sourceUp (pairWorld p) n

/-- The sources a pair enables. -/
def enabledSources (c : Core) : List Nat :=
  c.ien.flatMap fun e => ((List.range 64).filter fun j => e.2.getLsbD j).map fun j => 64 * e.1 + j

/-- The lowest pending source of a pair. -/
def State.ifirst (s : State) (p : Nat) : Option Nat := (enabledSources (s.core p)).find? fun n => s.ipend p n

/-- Whether a timer interrupt would be pending. -/
def State.timerUp (s : State) (p : Nat) : Bool := (s.core p).tie && decide ((s.core p).tcmp.toNat ≤ s.time)

/-- Whether an interrupt would be pending, whatever IE holds (R197). -/
def State.wakes (s : State) (p : Nat) : Bool := (s.ifirst p).isSome || s.timerUp p

/-- Whether a pair can take an interrupt: IE = 1, outside M, running or in WFI (R194, R196). (DEDUCED, log entry 26) -/
def State.canInterrupt (s : State) (p : Nat) : Bool :=
  let c := s.core p
  c.ie && c.level != .m && (c.run == .running || c.run == .wfi) && s.domAnswers (30 + p) && !s.waitsAtTable p

/-- A pair whose domain basks comes ON (R197). -/
def State.wakeDomain (s : State) (p : Nat) : State := if s.rd (domState (30 + p)) = 1 then s.wr (domState (30 + p)) 0 else s

/-- WFI_WAKE. (DEDUCED, log entry 26) -/
def execWfiWake (pair : Fin 4) (s : State) : Host.Outcome State Fault Refusal :=
  let p := pair.val
  if (s.core p).run = .wfi ∧ s.wakes p ∧ s.domAnswers (30 + p) then
    .next ((s.wakeDomain p).setCore p { s.core p with run := .running })
  else s.noEvent

/-- The external interrupt is taken (R196). -/
def State.takeExternal (s : State) (p : Nat) : State := (s.wakeDomain p).takeAtK p 16 0 0x100 (s.core p).pc 0

/-- The timer interrupt is taken (R196). -/
def State.takeTimer (s : State) (p : Nat) : State := (s.wakeDomain p).takeAtK p 17 0 0x100 (s.core p).pc 0

/-- EXTERNAL_INTERRUPT. (DEDUCED, log entry 26) -/
def execExternalInterrupt (pair : Fin 4) (s : State) : Host.Outcome State Fault Refusal :=
  let p := pair.val
  if s.canInterrupt p && (s.ifirst p).isSome && (s.core p).storeErrs.isEmpty then
    .next (s.takeExternal p)
  else s.noEvent

/-- TIMER_INTERRUPT: with an external interrupt pending too, that one is reported (R196). (DEDUCED, log entry 26) -/
def execTimerInterrupt (pair : Fin 4) (s : State) : Host.Outcome State Fault Refusal :=
  let p := pair.val
  if s.canInterrupt p && s.timerUp p && (s.ifirst p).isNone && (s.core p).storeErrs.isEmpty then
    .next (s.takeTimer p)
  else s.noEvent

/-- The higher of two levels. -/
def higherLevel (a b : Level) : Level := if a.num < b.num then b else a

/-- The oldest imprecise store error is taken, at the higher of the present and the issuing level (Table 8-4). -/
def State.takeStoreErr (s : State) (p : Nat) : State :=
  let c := s.core p
  match c.storeErrs with
  | [] => s
  | (a, l) :: rest =>
    let s := s.setCore p { c with storeErrs := rest }
    if higherLevel c.level l = .m then s.takeAtM p 6 0 0 c.pc (BitVec.ofNat 64 a)
    else s.takeAtK p 6 0 (if c.level = .u then 0 else 0x80) c.pc (BitVec.ofNat 64 a)

/-- STORE_ERROR_RESPONSE (R192). (DEDUCED, log entry 26) -/
def execStoreErrorResponse (pair : Fin 4) (s : State) : Host.Outcome State Fault Refusal :=
  let p := pair.val
  let c := s.core p
  if c.storeErrs.isEmpty || c.run == .fenced || c.run == .reset || s.waitsAtTable p then s.noEvent
  else .next (s.takeStoreErr p)

/-- What a pair takes at an instruction boundary ahead of its next instruction: a store error, an external interrupt, the timer's (R192, R196). (DEDUCED, log entry 26) -/
def State.boundaryTakes (s : State) (p : Nat) : Option State :=
  if !(s.core p).storeErrs.isEmpty then some (s.takeStoreErr p)
  else if s.canInterrupt p && (s.ifirst p).isSome then some (s.takeExternal p)
  else if s.canInterrupt p && s.timerUp p then some (s.takeTimer p)
  else none

/-! Debug control (R223, R224). -/

/-- Whether the control enable of a world is in effect. (DEDUCED, log entry 23) -/
def State.ctrlOn (s : State) (w : World) : Bool := s.dbgEff.testBit (match w with | .normal => 0 | .secure => 2)

/-- At an instruction boundary a held halt request is carried out where the enable is in effect; a step that led into a world without it goes on until the pair is back (R224). (DEDUCED, log entry 26) -/
def State.boundary (s : State) (p : Nat) : State :=
  let c := s.core p
  if c.run == .halted && !c.stepping && !s.ctrlOn (s.worldOfPair p) then
    s.setCore p { c with run := .running, haltWorld := none, haltReq := true }
  else if c.haltReq && s.ctrlOn (s.worldOfPair p) && (c.run == .running || c.run == .wfi) && !s.waitsAtTable p then
    s.setCore p { c with run := .halted, haltWorld := some (s.worldOfPair p), haltReq := false, stepping := false }
  else s

/-- Whether the test access port has the debug port open (Table 18-5). -/
def State.dbgPort (s : State) : Bool := s.tap.ir == 0x20

/-- DEBUG_HALT_REQUEST: carried out at once, or held. -/
def execDebugHaltRequest (pair : Fin 4) (s : State) : Host.Outcome State Fault Refusal :=
  let p := pair.val
  let c := s.core p
  if !s.dbgPort then s.noEvent
  else if c.run = .fenced then .next s
  else .next ((s.setCore p { c with haltReq := true }).boundary p)

/-- DEBUG_STEP: the halted pair carries out its next instruction. -/
def execDebugStep (pair : Fin 4) (s : State) : Host.Outcome State Fault Refusal :=
  let p := pair.val
  let c := s.core p
  if s.dbgPort ∧ c.run = .halted ∧ s.ctrlOn (s.worldOfPair p) then .next (s.setCore p { c with stepping := true })
  else s.noEvent

/-- DEBUG_ENABLE_LEAVE: the pair halted under an enable that is no longer in effect resumes. -/
def execDebugEnableLeave (pair : Fin 4) (s : State) : Host.Outcome State Fault Refusal :=
  let p := pair.val
  let c := s.core p
  match c.run, c.haltWorld with
  | .halted, some w =>
    if s.ctrlOn w then s.noEvent
    else .next (s.setCore p { c with run := .running, haltWorld := none, stepping := false })
  | _, _ => s.noEvent

end Sys2Proof.Machine
end

