-- ==== Sys2Proof/Machine/Tamper.lean ====
section
/-! DEFINITION. The alarm monitors, the tamper loops, the backup domain and its guarded registers (chapter 19). -/

namespace Sys2Proof.Machine

/-- Whether a source is monitored in the backup domain (Table 19-1). -/
def backupSource (src : Nat) : Bool := decide (src < 4) || src == 12

/-- A raise that the main logic cannot answer: the flag is latched with ACTED = 0, for the next start; while the domain runs on VBAT alone the BBK is erased (R457, R459, R463). (DEDUCED, log entry 21) -/
def State.backupRaise (s : State) (src : Nat) : State :=
  let fl := s.rd R.TMP_FLAGS_SRC
  let s := if fl.testBit src then s
    else (s.wr R.TMP_FLAGS_SRC (bitSet fl src)).wr (R.TMP_FLAG_TIME_TICKS.ix src) (s.rd R.TMP_TIME_TICKS % 2 ^ 48)
  let s := s.wr R.TMP_ACTED_SRC (bitClear (s.rd R.TMP_ACTED_SRC) src)
  if s.tmp.mainPower then s else { s with tmp := { s.tmp with bbk := [] } }

/-- A monitored condition appears (R449, R452, R459). -/
def State.condition (s : State) (src : Nat) : State :=
  if (s.rd R.TMP_COND_SRC).testBit src then s
  else
    let s := s.wr R.TMP_COND_SRC (bitSet (s.rd R.TMP_COND_SRC) src)
    if s.tmp.mainPower && s.boot.alive then s.raiseAlarms [src]
    else if backupSource src then s.backupRaise src
    else s

/-- Whether a source's monitor runs (R448). -/
def State.monitored (s : State) (src : Nat) : Bool := decide (src < 24) && (backupSource src || s.boot.alive)

/-- Whether the factory test modes are open: TEST_UNLOCKED_n and RMA, no transition done (Table 18-1, R439). -/
def State.testState (s : State) : Bool :=
  (lcUnlocked s.lcState || s.lcState == 18) && !s.flag R.LC_STATE_TRANSITIONED

/-- TEST_EN or SCAN_MODE has been high for 1 µs: ignored in the test states, a condition in every other (R36). -/
def State.testBallHigh (s : State) : State :=
  let s : State := { s with pins := { s.pins with testHigh := true } }
  if s.testState || !s.boot.alive then s else s.condition 23

/-- ALARM_RAISE: a monitor finds its condition, which was absent; sources 14 to 22 are single events (R449, R452). (DEDUCED, log entry 22) -/
def execAlarmRaise (source : Nat) (s : State) : Host.Outcome State Fault Refusal :=
  if source = 23 then .next s.testBallHigh
  else if !s.monitored source || (s.rd R.TMP_COND_SRC).testBit source then s.noEvent
  else if 14 ≤ source ∧ source ≤ 22 then .next (s.raiseAlarms [source])
  else .next (s.condition source)

/-- ALARM_CONDITION_END: the condition is absent again, and the source may raise anew (R449); of source 23, the test balls are low again. (DEDUCED, log entry 22) -/
def execAlarmConditionEnd (source : Nat) (s : State) : Host.Outcome State Fault Refusal :=
  let s : State := if source = 23 then { s with pins := { s.pins with testHigh := false } } else s
  if source < 24 ∧ (s.rd R.TMP_COND_SRC).testBit source then
    let s := s.endCond source
    .next (if 6 ≤ source ∧ source ≤ 8 then { s with lc := { s.lc with railsSince := s.time } } else s)
  else s.noEvent

/-- ZEROIZATION_DONE (R453). -/
def execZeroizationDone (s : State) : Host.Outcome State Fault Refusal :=
  if s.tmp.zeroing then .next { s with tmp := { s.tmp with zeroing := false } }
  else s.noEvent

/-- KILL_WORD_PROGRAMMED: every copy of the kill word is programmed, after a transition's word where one is in progress; the next start decodes SCRAP (R440, R453). (DEDUCED, log entry 44) -/
def execKillWordProgrammed (s : State) : Host.Outcome State Fault Refusal :=
  if s.tmp.killing && !(s.lc.busy.any fun r => r.target != 19) then
    let s := (s.wr R.LC_STATE_KILLED 1).wr R.LC_STATE_NEXT 19
    .next { s with
      tmp := { s.tmp with killing := false },
      lc := { s.lc with kill := List.replicate 3 (BitVec.allOnes 128) } }
  else s.noEvent

/-- The shift register of a loop. -/
def State.loopReg (s : State) (n : Nat) : BitVec 16 := s.tmp.loops.getD n 1

/-- The next state of a loop's register: feedback x¹⁶ + x¹⁴ + x¹³ + x¹¹ + 1 (R450). -/
def loopNext (r : BitVec 16) : BitVec 16 :=
  let b := (r ^^^ (r >>> 2) ^^^ (r >>> 3) ^^^ (r >>> 5)) &&& 1
  (r >>> 1) ||| (b <<< 15)

/-- The bit a loop drives. -/
def State.loopBit (s : State) (n : Nat) : Bool := (s.loopReg n).getLsbD 0

/-- Whether a loop is enabled. -/
def State.loopOn (s : State) (n : Nat) : Bool := (s.rd R.TMP_BKP_STATUS_LOOP_EN).testBit n

/-- One bit period of a loop: the input is compared with the bit driven, then the register advances; the input of a loop that is not enabled is ignored (R450, R451). -/
def State.loopSample (s : State) (n : Nat) (level : Bool) : State :=
  let s' :=
    if !s.loopOn n then s
    else if level = s.loopBit n then s.endCond n
    else s.condition n
  { s' with tmp := { s'.tmp with loops := s'.tmp.loops.set n (loopNext (s.loopReg n)) } }

/-- TAMPER_LOOP_SAMPLE. -/
def execTamperLoopSample (loop : Fin 4) (level : Bool) (s : State) : Host.Outcome State Fault Refusal :=
  .next (s.loopSample loop.val level)

/-- XTAL_STOP: every enabled loop counts as broken (R451). -/
def execXtalStop (s : State) : Host.Outcome State Fault Refusal :=
  let s := s.wr R.TMP_BKP_STATUS_XTAL_STOP 1
  let l := (List.range 4).filter fun n => s.loopOn n && !(s.rd R.TMP_COND_SRC).testBit n
  let s := s.wr R.TMP_COND_SRC (l.foldl bitSet (s.rd R.TMP_COND_SRC))
  .next (if s.tmp.mainPower && s.boot.alive then s.raiseAlarms l else l.foldl State.backupRaise s)

/-- BACKUP_DOMAIN_RESET: every item of the backup domain is lost, its validity marker first (R44, R460). -/
def execBackupDomainReset (s : State) : Host.Outcome State Fault Refusal :=
  if s.tmp.mainPower then s.noEvent
  else
    let s := s.clearRegs 0x40000 0x40200
    .next { s with tmp := { s.tmp with bbk := [], marker := false, subHour := 0, xtalAcc := 0 } }

/-- OPERATING_HOUR_TICK: 3,600 s during which POR_N and PWRGD were high (R458). -/
def execOperatingHourTick (s : State) : Host.Outcome State Fault Refusal :=
  if s.pins.porN && s.pins.pwrgd then
    .next { s.satAdd R.TMP_HOURS_COUNT 1 with tmp := { s.tmp with subHour := 0 } }
  else s.noEvent

/-- The flags a write to TMP_FLAG_CLR clears: named, acted on, their condition absent (R461). -/
def State.clearable (s : State) (val : Nat) : Nat :=
  (List.range 24).foldl (fun a i =>
    if val.testBit i && (s.rd R.TMP_FLAGS_SRC).testBit i && (s.rd R.TMP_ACTED_SRC).testBit i &&
      !(s.rd R.TMP_COND_SRC).testBit i then a + 2 ^ i else a) 0

/-- Clearing one flag with its ACTED bit and its time. -/
def State.clearFlag (s : State) (i : Nat) : State :=
  ((s.wr R.TMP_FLAGS_SRC (bitClear (s.rd R.TMP_FLAGS_SRC) i)).wr R.TMP_ACTED_SRC (bitClear (s.rd R.TMP_ACTED_SRC) i)).wr
    (R.TMP_FLAG_TIME_TICKS.ix i) 0

/-- An accepted TMP_FLAG_CLR (R461). -/
def State.flagClr (s : State) (val : Nat) : State :=
  let m := s.clearable val
  if m = 0 then s
  else
    let s := ((List.range 24).filter fun i => m.testBit i).foldl State.clearFlag s
    (s.wr R.TMP_BKP_STATUS_XTAL_STOP 0).decideRecord 7 (lowestBit m) 3 m

/-- TMP_FLAG_CLR. -/
def execTmpFlagClr (who : Requester) (complement : Word32) (s : State) : Host.Outcome State Fault Refusal :=
  .next (s.writeGuarded who 0x40028 complement.toNat fun v s => s.flagClr v)

/-- Whether a resumption is refused, as TMP_STATUS.RESUME_RESULT: 0 resumed, 1 purge, 2 condition, 3 killed (R456). -/
def State.resumeCheck (s : State) : Nat :=
  if s.tmp.purged then 1
  else if (List.range 24).any fun i => (s.rd R.TMP_COND_SRC).testBit i && decide (2 ≤ s.respCode i) then 2
  else if s.flag R.LC_STATE_KILLED then 3 else 0

/-- An accepted TMP_RESUME (R456). (DEDUCED, log entry 21) -/
def State.resume (s : State) (val : Nat) : State :=
  if bits val 0 8 ≠ 0xA5 then s
  else
    let r := s.resumeCheck
    let s := s.wr R.TMP_STATUS_RESUME_RESULT r
    if r ≠ 0 then s
    else ({ s with tmp := { s.tmp with inForce := s.tmp.inForce.map (min 1) } } : State).setStatus R.GLB_STATUS_SUSPENDED 0 |>.refreshSuspended

/-- TMP_RESUME. -/
def execTmpResume (who : Requester) (complement : Word32) (s : State) : Host.Outcome State Fault Refusal :=
  .next (s.writeGuarded who 0x40030 complement.toNat fun v s => s.resume v)

/-- DEBUG_INTRUSION_LEVEL: a test ball is high for 1 µs (R36). -/
def execDebugIntrusionLevel (s : State) : Host.Outcome State Fault Refusal := .next s.testBallHigh

end Sys2Proof.Machine
end

