-- ==== Sys2Proof/Machine/LifeCycle.lean ====
section
/-! DEFINITION. The life-cycle controller and the test access port (chapter 18). -/

namespace Sys2Proof.Machine

/-! Decoding OTP (R431, R432). -/

/-- Bitwise majority of three copies. -/
def maj {n : Nat} (a b c : BitVec n) : BitVec n := (a &&& b) ||| (a &&& c) ||| (b &&& c)

/-- The majority of the codeword's bits, and of the bits outside it. -/
def OtpWord_own (w : OtpWord) : BitVec 64 := maj w.c0.own w.c1.own w.c2.own

/-- The majority of the bits outside the codeword. -/
def OtpWord_stray (w : OtpWord) : BitVec 64 := maj w.c0.stray w.c1.stray w.c2.stray

/-- Whether a transition word decodes to blank, or to its codeword. -/
def wordBlank (w : OtpWord) : Bool := OtpWord_own w == 0 && OtpWord_stray w == 0

/-- A word that decodes to its codeword. -/
def wordSet (w : OtpWord) : Bool := OtpWord_own w == BitVec.allOnes 64 && OtpWord_stray w == 0

/-- The CODE of the state of transition word T1 to T18. -/
def wordState (k : Nat) : Nat :=
  if 16 ≤ k then k else if k % 2 = 0 then 9 + (k - 2) / 2 else 1 + (k - 1) / 2

/-- The transition word of a state's CODE. (DEDUCED, log entry 44) -/
def stateWord (c : Nat) : Nat := if 16 ≤ c then c else if 9 ≤ c then 2 + 2 * (c - 9) else 2 * c - 1

/-- The highest transition word at or below `k` that is not blank; 0 for none. -/
def highestWord (t : Tbl OtpWord) : Nat → Nat
  | 0 => 0
  | k + 1 => if wordBlank (tblGet {} t (k + 1)) then highestWord t k else k + 1

/-- Whether one copy of the kill word has 16 or more bits set. -/
def killSet (l : List (BitVec 128)) : Bool := l.any fun c => decide (16 ≤ popCount 128 c.toNat)

/-- The state that OTP holds, with INV_CAUSE (R432). (DEDUCED, log entry 44) -/
def lcDecode (lc : Lc) : Nat × Nat :=
  let k := highestWord lc.words 18
  let st := if k = 0 then 0 else if wordSet (tblGet {} lc.words k) then wordState k else 20
  if killSet lc.kill then (19, 0)
  else if lc.dsec = BitVec.allOnes 256 ∧ st ≠ 18 then (20, 2)
  else if lc.dsecCheck ≠ Config.dsecCheck lc.dsec ∧ st ≠ 0 ∧ st ≠ 1 ∧ st ≠ 18 ∧ st ≠ 20 then (20, 3)
  else (st, if st = 20 then 1 else 0)

/-- Step 4: LC_STATE takes what OTP holds. -/
def State.readOtp (s : State) : State :=
  let d := lcDecode s.lc
  ((((s.wr R.LC_STATE_STATE d.1).wr R.LC_STATE_INV_CAUSE d.2).wr R.LC_STATE_NEXT d.1).wr
    R.LC_STATE_KILLED (killSet s.lc.kill).toNat).wr R.LC_STATE_TRANSITIONED 0

/-! Transitions (R435 to R441). -/

/-- The token a transition needs. -/
inductive TokenNeed | none | test (k : Nat) | rma
deriving DecidableEq, Repr

/-- Table 18-3: the token of a transition and whether the TAP and the secure world may request it; nothing where it is not listed. (DEDUCED, log entry 44) -/
def lcListed (src dst : Nat) : Option (TokenNeed × Bool × Bool) :=
  if src = 0 ∧ dst = 1 then some (.none, true, false)
  else if 1 ≤ src ∧ src ≤ 7 ∧ dst = src + 8 then some (.none, true, true)
  else if 9 ≤ src ∧ src ≤ 15 ∧ dst = src - 7 then some (.test (src - 8), true, true)
  else if src = 8 ∧ dst = 16 then some (.none, true, true)
  else if 9 ≤ src ∧ src ≤ 15 ∧ dst = 16 then some (.none, true, true)
  else if src = 16 ∧ dst = 17 then some (.none, false, true)
  else if src = 17 ∧ dst = 18 then some (.rma, true, true)
  else if src = 20 ∧ dst = 18 then some (.rma, true, false)
  else if src = 18 ∧ dst = 19 then some (.none, true, true)
  else if src ≤ 16 ∧ dst = 19 then some (.none, true, true)
  else if src = 17 ∧ dst = 19 then some (.none, false, true)
  else none

/-- Whether a token's hash is the one OTP holds (Table 18-2, R437). -/
def State.tokenOk (s : State) (need : TokenNeed) (token : List Byte) : Bool :=
  match need with
  | .none => true
  | .test k => leNat (sha3 (ascii "HX960-LCTOK" ++ leBytes 1 k ++ token)) == (tblGet 0 s.lc.tokh k).toNat
  | .rma => leNat (sha3 (ascii "HX960-RMATOK" ++ leBytes 8 Config.serial.toNat ++ token)) == s.lc.rmah.toNat

/-- The RESULT of a request's checks; 0 where it passes (R437). (DEDUCED, log entry 44) -/
def State.lcCheck (s : State) (tap : Bool) (target : Nat) (token : List Byte) : Nat :=
  if s.lc.busy.isSome then 5
  else match lcListed s.lcState target with
    | none => 1
    | some (need, byTap, byWorld) =>
      if !(if tap then byTap else byWorld) then 1
      else if s.rd R.LC_STATUS_FAILS = 3 then 3
      else if !s.tokenOk need token then 2
      else if !s.reserveOk then 4
      else 0

/-- The token registers are cleared. -/
def State.clearToken (s : State) : State := (List.range 4).foldl (fun s w => s.wr (R.LC_TOKEN_TOKEN.ix w) 0) s

/-- A refused request (R437). -/
def State.lcRefuse (s : State) (tap : Bool) (target r : Nat) : State :=
  let s := ((s.wr R.LC_STATUS_RESULT r).setEvt R.LC_EVT_REFUSED).clearToken
  if r = 2 then
    ((s.satAdd R.LC_STATUS_FAILS 1).setEvt R.LC_EVT_TOKEN_FAIL).decideRecord 4 36 2 (r + tap.toNat * 2 ^ 7 + target * 2 ^ 8)
  else s

/-- A pair halted under a debug enable resumes once no enable is in effect (R224, R439). -/
def State.resumeHalted (s : State) (p : Nat) : State :=
  if (s.core p).run = .halted then s.setCore p { s.core p with run := .running, haltWorld := none, stepping := false } else s

/-- An accepted request: step 3 of Table 18-4, and what RMA and SCRAP begin (R439). (DEDUCED, log entry 44) -/
def State.lcStart (s : State) (tap : Bool) (target : Nat) : State :=
  let s := s.wr R.LC_STATE_TRANSITIONED 1
  let s := [0, 1, 2, 3].foldl State.resumeHalted s
  let s : State := { s with lc := { s.lc with busy := some { target := target, tap := tap } }, tap := { s.tap with testMode := false } }
  if target = 18 then
    let s := s.execCode 0 4
    { s with tmp := { s.tmp with bbk := [] }, lc := { s.lc with dsec := BitVec.allOnes 256 } }
  else if target = 19 then s.execCode 0 5
  else s

/-- A request for a transition (R436, R437). -/
def State.lcRequest (s : State) (tap : Bool) (target : Nat) (token : List Byte) : State :=
  let r := s.lcCheck tap target token
  let s := s.wr R.LC_STATUS_PATH tap.toNat
  if r = 0 then s.lcStart tap target else s.lcRefuse tap target r

/-- The token that the LC_TOKEN registers hold. -/
def State.lcToken (s : State) : List Byte := (List.range 4).flatMap fun w => leBytes 4 (s.rd (R.LC_TOKEN_TOKEN.ix w))

/-- An accepted value of LC_TARGET requests a transition (R436). (DEDUCED, log entry 44) -/
def State.lcTarget (s : State) (v : Nat) : State :=
  (s.wr R.LC_TARGET_TARGET (bits v 0 5)).lcRequest false (bits v 0 5) s.lcToken

/-- LC_TARGET_WRITE. -/
def execLcTargetWrite (who : Requester) (complement : Word32) (s : State) : Host.Outcome State Fault Refusal :=
  .next (s.writeGuarded who 0x30004 complement.toNat fun v s => s.lcTarget v)

/-- A copy programmed whole, or left as a failure left it: the bits that were set. -/
def programCopy (fail : Option (Nat × BitVec 64)) (i : Nat) (c : OtpCopy) : OtpCopy :=
  match fail with
  | none => { c with own := BitVec.allOnes 64 }
  | some (k, b) => if i < k then { c with own := BitVec.allOnes 64 } else if i = k then { c with own := c.own ||| b } else c

/-- The target word, copies 0, 1, 2 in order (Table 18-4, step 5). -/
def programWord (fail : Option (Nat × BitVec 64)) (w : OtpWord) : OtpWord :=
  { c0 := programCopy fail 0 w.c0, c1 := programCopy fail 1 w.c1, c2 := programCopy fail 2 w.c2 }

/-- The kill word, copies in order. -/
def programKill (fail : Option (Nat × BitVec 64)) (l : List (BitVec 128)) : List (BitVec 128) :=
  (List.range 3).map fun i =>
    match fail with
    | none => BitVec.allOnes 128
    | some (k, b) =>
      if i < k then BitVec.allOnes 128 else if i = k then l.getD i 0 ||| b.setWidth 128 else l.getD i 0

/-- OTP after a transition's programming. -/
def programmed (lc : Lc) (target : Nat) (fail : Option (Nat × BitVec 64)) : Lc :=
  if target = 19 then { lc with kill := programKill fail lc.kill, busy := none }
  else
    let k := stateWord target
    { lc with words := tblPut {} lc.words k (programWord fail (tblGet {} lc.words k)), busy := none }

/-- A transition ends (R439, R441). (DESIGN CHOICE, log entry 45) -/
def State.lcEnd (s : State) (target : Nat) (fail : Option (Nat × BitVec 64)) : State :=
  let s : State := { s with lc := programmed s.lc target fail }
  let s := s.clearToken.wr R.LC_STATE_NEXT (lcDecode s.lc).1
  let s := s.wr R.LC_STATE_KILLED (killSet s.lc.kill).toNat
  let s : State := { s with tmp := { s.tmp with killing := s.tmp.killing && !(target == 19 && fail.isNone) } }
  match fail with
  | none => (s.wr R.LC_STATUS_RESULT 0).setEvt R.LC_EVT_DONE
  | some _ => s.wr R.LC_STATUS_RESULT 6

/-- Whether a copy lacks a bit of its codeword. -/
def copyShort (c : OtpCopy) : Bool := c.own != BitVec.allOnes 64

/-- The copies of a word with their missing bits programmed (R433). (DESIGN CHOICE, log entry 45) -/
def repaired (w : OtpWord) : OtpWord :=
  { c0 := { w.c0 with own := BitVec.allOnes 64 }, c1 := { w.c1 with own := BitVec.allOnes 64 },
    c2 := { w.c2 with own := BitVec.allOnes 64 } }

/-- A failed repair: which of the missing bits were programmed is a free value (R441). (DESIGN CHOICE, log entry 45) -/
def halfRepaired (w : OtpWord) (b : BitVec 64) : OtpWord :=
  { c0 := { w.c0 with own := w.c0.own ||| b }, c1 := { w.c1 with own := w.c1.own ||| b }, c2 := { w.c2 with own := w.c2.own ||| b } }

/-- LC_REPAIR: the deciding word decodes to its codeword while a copy lacks bits of it; it needs the supply reserve, as a request does (R433, R437). -/
def execLcRepair (word : Nat) (failed : Bool) (s : State) : Host.Outcome State Fault Refusal :=
  let w := tblGet {} s.lc.words word
  if s.lc.busy.isNone && s.reserveOk && (s.flag R.GLB_STATUS_READY || s.recovery) && word != 0 && highestWord s.lc.words 18 == word &&
      wordSet w && (copyShort w.c0 || copyShort w.c1 || copyShort w.c2) then
    if failed then
      let (b, s) := s.freeNat 8
      let s : State := { s with lc := { s.lc with words := tblPut {} s.lc.words word (halfRepaired w (BitVec.ofNat 64 b)) } }
      .next (s.setEvt R.LC_EVT_REPAIR_FAIL)
    else
      let s : State := { s with lc := { s.lc with words := tblPut {} s.lc.words word (repaired w) } }
      .next (s.setEvt R.LC_EVT_REPAIRED)
  else s.noEvent

/-- Power is lost in the middle of a transition: how far its programming came is a free value (R438). (DESIGN CHOICE, log entry 45) -/
def State.lcCut (s : State) : State :=
  match s.lc.busy with
  | none => s
  | some r =>
    let (k, s) := s.freeNat 1
    let (b, s) := s.freeNat 8
    { s with lc := programmed s.lc r.target (some (k % 3, BitVec.ofNat 64 b)) }

/-! The test access port (R444 to R447). -/

/-- A command of the test access port: with TRST_N low the port is held in reset and takes none (R35, R38). -/
def State.atTap (s : State) (f : State → State) : Host.Outcome State Fault Refusal := if s.pins.trstN then .next (f s) else s.noEvent

/-- An instruction is selected: EXTEST and TEST_MODE end unless they are it. -/
def State.tapSelect (s : State) (ir : Nat) : State :=
  { s with tap := { s.tap with ir := ir, extest := false, testMode := false } }

/-- LC_REQ: Update-DR requests a transition (R436). A non-zero bit in [7:5] names no target. -/
def execLcReq (dr : BitVec 136) (s : State) : Host.Outcome State Fault Refusal :=
  s.atTap fun s => (s.tapSelect 0x10).lcRequest true (bits dr.toNat 0 8) (leBytes 16 (dr.toNat / 256))

/-- TAP_RESET selects IDCODE, by TRST_N low or by five TCK cycles with TMS high; the level of TRST_N after it is a free value. (DESIGN CHOICE, log entry 71) -/
def execTapReset (s : State) : Host.Outcome State Fault Refusal :=
  let (n, s) := s.freeNat 1
  .next (({ s with pins := { s.pins with trstN := n % 2 == 1 } } : State).tapSelect 2)

/-- EXTEST: the balls of the boundary register follow it (R445). -/
def execExtest (dr : Nat) (s : State) : Host.Outcome State Fault Refusal :=
  s.atTap fun s =>
    let s := s.tapSelect 0
    { s with tap := { s.tap with boundary := dr, extest := true } }

/-- SAMPLE/PRELOAD: the balls are sampled and the boundary register is loaded; the layout of the register is not in the spec, so the sample is a free value. -/
def execSamplePreload (dr : Nat) (s : State) : Host.Outcome State Fault Refusal :=
  s.atTap fun s =>
    let (v, s) := (s.tapSelect 1).freeNat 64
    ({ s with tap := { s.tap with boundary := dr } } : State).emit (.tdo 512 v)

/-- IDCODE. -/
def execIdcode (s : State) : Host.Outcome State Fault Refusal := s.atTap fun s => (s.tapSelect 2).emit (.tdo 32 0xB0960001)

/-- LC_STATUS: LC_STATE in [31:0], LC_STATUS in [63:32]. -/
def execLcStatus (s : State) : Host.Outcome State Fault Refusal :=
  s.atTap fun s => (s.tapSelect 0x11).emit (.tdo 64 (s.word 0 0x30000 + s.word 0 0x30020 * 2 ^ 32))

/-- DBG_ACCESS opens the debug port; its accesses are DEBUG_ACCESS. -/
def execDbgAccess (s : State) : Host.Outcome State Fault Refusal := s.atTap fun s => s.tapSelect 0x20

/-- TEST_MODE: the factory test chain, or BYPASS with a record outside its states (R446). -/
def execTestMode (dr : Nat) (s : State) : Host.Outcome State Fault Refusal :=
  s.atTap fun s =>
    let s := s.tapSelect 0x30
    if s.testState then { s with tap := { s.tap with testMode := true, boundary := dr } }
    else (s.emit (.tdo 1 0)).decideRecord 4 36 2 (7 + 2 ^ 7)

/-- BYPASS. -/
def execBypass (_dr : Nat) (s : State) : Host.Outcome State Fault Refusal := s.atTap fun s => (s.tapSelect 0xFF).emit (.tdo 1 0)

end Sys2Proof.Machine
end

