-- ==== Sys2Proof/Machine/Image.lean ====
section
/-! DEFINITION. The configuration image: its layout, its signatures, its checks, its configuration (chapter 04). -/

namespace Sys2Proof.Machine

/-- A section table entry (Table 4-5). -/
structure Section where
  type : Nat
  signer : Nat
  flags : Nat
  off : Nat
  len : Nat
  digest : List Byte
  /-- The 64 bytes of the entry itself. -/
  raw : List Byte
deriving DecidableEq, Repr

/-- The `i`-th entry of the section table. -/
def sectionAt (b : List Byte) (i : Nat) : Section :=
  let e := slice b (0x100 + 64 * i) 64
  { type := leAt e 0 2, signer := leAt e 2 1, flags := leAt e 3 1, off := leAt e 4 4, len := leAt e 8 4,
    digest := slice e 16 48, raw := e }

/-- Every section of a copy, in table order. -/
def sectionsOf (b : List Byte) : List Section := (List.range (leAt b 6 2)).map (sectionAt b)

/-- The payload of a section. -/
def payloadOf (b : List Byte) (x : Section) : List Byte := slice b x.off x.len

/-- The section of a type. -/
def sectionOf (b : List Byte) (type : Nat) : Option Section := (sectionsOf b).find? fun x => x.type == type

/-- The payload of the section of a type. -/
def payload (b : List Byte) (type : Nat) : Option (List Byte) := (sectionOf b type).map (payloadOf b)

/-- SIGBLOCK_LENGTH (Table 4-4). -/
def sigBlockLength : Nat := 8144

/-- Sections from `floor` on: ascending, aligned, apart, with zero bytes between them, before the first and after the last (R83). (DESIGN CHOICE, log entry 70) -/
def sectionsLaid (b : List Byte) : Nat → List Section → Bool
  | floor, [] => allZero (slice b floor (leAt b 0x0C 4 - floor)) && decide (floor ≤ leAt b 0x0C 4)
  | floor, x :: t =>
    decide (floor ≤ x.off) && decide (x.off % 16 = 0) && allZero (slice b floor (x.off - floor)) && sectionsLaid b (x.off + x.len) t

/-- The header's CRC is good (R78). -/
def headerCrc (b : List Byte) : Bool := crc32 (b.take 0xFC) == leAt b 0xFC 4

/-- The signature block: PRESENT names known classes, and the fields of an absent class are zero (R85). -/
def sigBlockOk (b : List Byte) (sig : Nat) : Bool :=
  let present := leAt b sig 1
  decide (present < 4) && allZero (slice b (sig + 1) 15) && (present.testBit 0 || allZero (slice b (sig + 0x10) 0x1273)) &&
    (present.testBit 1 || allZero (slice b (sig + 0x1283) 0xD4D))

/-- The layout rules of R82, R83 and R85; `limit` bounds the copy. -/
def layoutOk (limit : Nat) (b : List Byte) : Bool :=
  let fmt := leAt b 4 2
  let n := leAt b 6 2
  let sig := leAt b 0x0C 4
  decide (256 ≤ b.length) && slice b 0 4 == ascii "HXIM" && headerCrc b &&
    decide (1 ≤ n) && decide (n ≤ (if fmt = 1 then 32 else 64)) &&
    decide (leAt b 8 4 ≤ limit) && decide (leAt b 8 4 ≤ b.length) && decide (sig % 16 = 0) &&
    leAt b 0x10 4 == sigBlockLength && leAt b 8 4 == sig + sigBlockLength &&
    leAt b 0x14 4 == 0 && allZero (slice b 0x40 188) &&
    (sectionsOf b).all (fun x => decide (x.flags < 2) && leAt x.raw 0x0C 4 == 0) &&
    sectionsLaid b (0x100 + 64 * n) (sectionsOf b) && sigBlockOk b sig

/-! Section types and signers (R84, R88). -/

/-- The types a copy's format knows. -/
def knownType (fmt t : Nat) : Bool :=
  (decide (1 ≤ t) && decide (t ≤ 4)) || (decide (0x10 ≤ t) && decide (t ≤ 0x1A)) || (t == 0x1B && fmt == 2)

/-- The signer of Table 4-6. -/
def typeSigner (t : Nat) : Nat := if t = 1 ∨ t = 3 then 1 else if t = 4 then 0 else 2

/-- Whether Table 4-8 lets a section be unsigned in a life-cycle state. -/
def unsignedOk (lc t : Nat) : Bool := typeSigner t == 0 || lcUnlocked lc || (lc == 16 && t == 2)

/-- The result of a section's type and signer; 0 where they pass (R84, R88). -/
def signerResult (lc fmt : Nat) (x : Section) : Nat :=
  if !knownType fmt x.type then (if x.flags % 2 = 1 then 0 else 6)
  else if x.signer = typeSigner x.type then 0
  else if x.signer = 0 then (if unsignedOk lc x.type then 0 else 7)
  else 6

/-- Whether no type appears twice. -/
def typesOnce : List Section → Bool
  | [] => true
  | x :: t => t.all (fun y => y.type != x.type) && typesOnce t

/-- The result of the section table; 0 where it passes. -/
def tableResult (lc : Nat) (b : List Byte) : Nat :=
  let l := sectionsOf b
  match (l.map (signerResult lc (leAt b 4 2))).find? (· != 0) with
  | some r => r
  | none =>
    if typesOnce l && l.any (·.type == 1) && l.any (·.type == 3) && (l.any (·.type == 4) || l.all (·.signer != 2)) then 0 else 6

/-! Signatures (R85 to R87). -/

/-- The manifest of a signer class. -/
def manifest (b : List Byte) (c : Nat) : List Byte :=
  ascii "HX960-IMG" ++ leBytes 1 c ++ b.take 256 ++ ((sectionsOf b).filter (·.signer == c)).flatMap (·.raw)

/-- Vendor keys: ML-DSA-87, then ECDSA P-384. -/
def vendorMldsa : List Byte := Config.vendorKeys.take 2592

/-- The vendor's ECDSA P-384 key. -/
def vendorP384 : List Byte := (Config.vendorKeys.drop 2592).take 97

/-- Both signatures of the vendor class verify. -/
def vendorOk (b : List Byte) (sig : Nat) : Bool :=
  verifies 0x0203 pureMode vendorMldsa (ascii "HX960 IMAGE") (manifest b 1) (slice b (sig + 0x10) 4627) &&
    verifies algP384 sha384Mode vendorP384 [] (manifest b 1) (slice b (sig + 0x1223) 96)

/-- The vendor's endorsement of the authority keys (R87). (DESIGN CHOICE, log entry 70) -/
def endorsed (a : List Byte) : Bool :=
  decide (0x1A77 ≤ a.length) && allZero (slice a 0x801 3) &&
    verifies 0x0203 pureMode vendorMldsa (ascii "HX960 AUTH") (a.take 0x804) (slice a 0x804 4627) &&
    verifies algP384 sha384Mode vendorP384 [] (a.take 0x804) (slice a 0x1A17 96)

/-- Both signatures of the authority class verify, under endorsed keys. -/
def authorityOk (b : List Byte) (sig : Nat) : Bool :=
  match payload b 4 with
  | none => false
  | some a =>
    endorsed a && verifies 0x0202 pureMode (a.take 1952) (ascii "HX960 IMAGE") (manifest b 2) (slice b (sig + 0x1283) 3309) &&
      verifies algP384 sha384Mode (slice a 0x7A0 97) [] (manifest b 2) (slice b (sig + 0x1F70) 96)

/-- Every class that has entries is present and verifies; an AUTHORITY section is endorsed (R86, R87). -/
def signaturesOk (b : List Byte) : Bool :=
  let sig := leAt b 0x0C 4
  let present := leAt b sig 1
  let uses := fun c => (sectionsOf b).any (·.signer == c)
  (!(uses 1 || present.testBit 0) || (present.testBit 0 && vendorOk b sig)) &&
    (!(uses 2 || present.testBit 1) || (present.testBit 1 && authorityOk b sig)) &&
    (match payload b 4 with | some a => endorsed a | none => true)

/-- Every section's digest is the one its entry holds (R89). -/
def digestsOk (b : List Byte) : Bool := (sectionsOf b).all fun x => sha384 (payloadOf b x) == x.digest

/-! Section payloads (R90 to R92, Table 4-9). -/

/-- A payload holds at least `n` bytes, and nothing but zero after them (R91). -/
def exact (n : Nat) (p : List Byte) : Bool := decide (n ≤ p.length) && allZero (p.drop n)

/-- Domains whose world is fixed. -/
def fixedDomain (d : Nat) : Bool := [0, 1, 2, 27, 29, 30, 31, 34, 36, 37, 38, 39, 40, 58].contains d

/-- Domains that have BASKING (Table 3-5). -/
def basks (d : Nat) : Bool := (decide (30 ≤ d) && decide (d ≤ 33)) || d == 35 || (decide (41 ≤ d) && decide (d ≤ 57))

/-- The ASSIGN section: worlds, fixed domains, groups, idle basking. -/
def assignOk (p : List Byte) : Bool :=
  exact 0xC0 p && leAt p 0x3C 4 == 0 &&
    (List.range 60).all (fun d => decide (leAt p d 1 < 3) && (!fixedDomain d || leAt p d 1 == 0) &&
      leAt p d 1 == leAt p (domHead d) 1) &&
    (List.range 512).all fun n => decide (bits (leAt p (0x40 + n / 4) 1) (2 * (n % 4)) 2 < 3)

/-- The GPIO section: functions and alarm masks (R39). -/
def gpioOk (sideband : Bool) (p : List Byte) : Bool :=
  exact 0x50 p && (List.range 16).all fun n =>
    let f := leAt p n 1
    decide (f < 6) && (f != 1 || (decide (n < 4) && sideband)) && (f != 2 || (decide (4 ≤ n) && decide (n < 8))) &&
      !(decide (n < 4) && sideband && (f == 4 || f == 5)) && decide (leAt p (0x10 + 4 * n) 4 < 2 ^ 24)

/-- The ACCESS section. (DEDUCED, log entry 47) -/
def accessOk (p : List Byte) : Bool :=
  let n := leAt p 0 2
  exact (0x10 + 32 * n) p && decide (n ≤ 256) && allZero (slice p 2 14) && (List.range n).all fun i =>
    let e := slice p (0x10 + 32 * i) 32
    leAt e 0 8 % 4096 == 0 && leAt e 8 8 % 4096 == 4095 && decide (leAt e 0 8 ≤ leAt e 8 8) && decide (leAt e 8 8 < 2 ^ 40) &&
      decide (leAt e 24 8 < 2)

/-- DDR_WM is at most the capacity installed; a channel that has not trained yet is not counted against it, one that the image declares absent has none. (DEDUCED, log entry 47) -/
def State.ddrWmOk (s : State) (db : Bool) (wm : Nat) : Bool :=
  let a := s.rd R.MEM_CFG_CAP_GIB
  decide (1 ≤ wm) && decide (wm ≤ (if a = 0 then 128 else a) + (if db then 128 else 0))

/-- The WATERMARK section. -/
def State.watermarkOk (s : State) (db : Bool) (p : List Byte) : Bool :=
  exact 4 p && decide (16 ≤ leAt p 0 2) && decide (leAt p 0 2 ≤ 112) && s.ddrWmOk db (leAt p 2 2)

/-- The TAMPER section. (DEDUCED, log entry 47) -/
def tamperOk (p : List Byte) : Bool := exact 0x19 p && (p.take 24).all fun c => decide (c.toNat < 6)

/-- The bytes of a recorder class, by the copy's format. -/
def recStride (fmt : Nat) : Nat := if fmt = 1 then 20 else 36

/-- Register offsets of a class in each format. -/
def recOffsets (fmt : Nat) (p : List Byte) (k : Nat) : List Nat :=
  (List.range (if fmt = 1 then 4 else 8)).map fun i => leAt p (recStride fmt * k + 4 + 4 * i) 4

/-- The RECORDER section. -/
def recorderOk (fmt : Nat) (p : List Byte) : Bool :=
  exact (6 * recStride fmt) p && (List.range 6).all fun k =>
    decide (leAt p (recStride fmt * k) 1 < 8) && allZero (slice p (recStride fmt * k + 1) 3) &&
      (recOffsets fmt p k).all fun o => o == 0xFFFFFFFF || (o % 4 == 0 && decide (o < 0x400000))

/-- The highest floors. -/
def floorMax : List Nat := [16, 8, 4, 2, 8, 4, 4, 4096]

/-- The FLOORS section. -/
def floorsOk (p : List Byte) : Bool := exact 16 p && (List.range 8).all fun i => decide (leAt p (2 * i) 2 ≤ floorMax.getD i 0)

/-- The POWER section. -/
def powerOk (p : List Byte) : Bool :=
  exact 16 p && decide (leAt p 0 1 < 2) && decide (leAt p 1 1 < 2) && decide (550 ≤ leAt p 2 2) && decide (leAt p 2 2 ≤ 850) &&
    leAt p 2 2 % 5 == 0 && decide (10 ≤ leAt p 4 1) && decide (leAt p 4 1 ≤ 55) && decide (18 ≤ leAt p 5 1) && decide (leAt p 5 1 ≤ 25) &&
    decide (10 ≤ leAt p 6 2) && decide (leAt p 6 2 ≤ 10000) && (List.range 64).all fun d => !(leAt p 8 8).testBit d || basks d

/-- The PCIE section. -/
def pcieOk (p : List Byte) : Bool :=
  exact 11 p && decide (leAt p 8 1 ≤ 128) && decide (leAt p 9 1 ≤ 128) && decide (leAt p 10 1 < 2)

/-- The MEMORY section. -/
def memoryOk (p : List Byte) : Bool := exact 2 p && decide (leAt p 0 1 < 2) && decide (1 ≤ leAt p 1 1) && decide (leAt p 1 1 ≤ 48)

/-- The TWIN section: its range of versions holds one of 1.0 to 1.2. -/
def twinOk (p : List Byte) : Bool :=
  exact 5 p && decide (max (leAt p 0 1 * 256 + leAt p 1 1) 0x100 ≤ min (leAt p 2 1 * 256 + leAt p 3 1) 0x102) && decide (leAt p 4 1 < 2)

/-- The KEYSTORE section. -/
def keystoreOk (p : List Byte) : Bool := exact 2 p && decide (1 ≤ leAt p 0 2) && decide (leAt p 0 2 ≤ 1000)

/-- A firmware section lies wholly in its world's part of general SRAM (R90, R92), its entry point at a multiple of 4 (R182). (DESIGN CHOICE, log entry 70) -/
def fwOk (secure : Bool) (wm : Nat) (p : List Byte) : Bool :=
  let load := leAt p 0 8
  let n := p.length - 16
  decide (16 < p.length) && decide ((load + leAt p 8 4) % 4 = 0) && decide (sramBase ≤ load) && decide (load + n ≤ sramBase + 0x800000) &&
    (if secure then decide (load + n ≤ sramBase + wm * 0x10000) else decide (sramBase + wm * 0x10000 ≤ load))

/-- The certificates of the IDENTITY section; `none` where they do not fit it (R90). -/
def certs (p : List Byte) : Nat → Nat → Option (List (List Byte))
  | 0, off => if allZero (p.drop off) then some [] else none
  | n + 1, off =>
    let len := leAt p off 4
    if p.length < off + 4 + len then none
    else (certs p n (off + 4 + roundUp len 4)).map (slice p (off + 4) len :: ·)

/-- The certificates of the IDENTITY section. (DESIGN CHOICE, log entry 70) -/
def identityOf (p : List Byte) : Option (List (List Byte)) :=
  if 1 ≤ leAt p 0 2 ∧ leAt p 0 2 ≤ 4 ∧ leAt p 2 2 = 0 then certs p (leAt p 0 2) 4 else none

/-- A section's check, where it is present. -/
def checked (b : List Byte) (t : Nat) (f : List Byte → Bool) : Bool :=
  match payload b t with
  | some p => f p
  | none => true

/-- SIDEBAND in force: a TWIN section with SIDEBAND = 1 (R39). -/
def sidebandOf (b : List Byte) : Bool := match payload b 0x1A with | some p => leAt p 4 1 == 1 | none => false

/-- DB_PRESENT of an image. -/
def dbPresentOf (b : List Byte) : Bool := match payload b 0x19 with | some p => leAt p 0 1 == 1 | none => true

/-- SRAM_WM of an image. -/
def sramWm (b : List Byte) : Nat := match payload b 0x13 with | some p => leAt p 0 2 | none => 80

/-- DDR_WM of an image. -/
def ddrWm (b : List Byte) : Nat := match payload b 0x13 with | some p => leAt p 2 2 | none => 4

/-- The ranges and the static checks of R90 to R92. (DEDUCED, log entry 47) -/
def State.staticOk (s : State) (b : List Byte) : Bool :=
  let fmt := leAt b 4 2
  checked b 0x10 assignOk && checked b 0x11 (gpioOk (sidebandOf b)) && checked b 0x12 accessOk && checked b 0x13 (s.watermarkOk (dbPresentOf b)) &&
    checked b 0x14 tamperOk && checked b 0x15 (recorderOk fmt) && checked b 0x16 floorsOk && checked b 0x17 powerOk &&
    checked b 0x18 pcieOk && checked b 0x19 memoryOk && checked b 0x1A twinOk &&
    (fmt != 2 || checked b 0x1B keystoreOk) && checked b 1 (fwOk true (sramWm b)) && checked b 2 (fwOk false (sramWm b)) &&
    checked b 3 fun p => (identityOf p).isSome

/-- The result of a copy (Table 4-10). (DEDUCED, log entry 46) -/
def State.copyResult (s : State) (img : ImageRead) : Nat :=
  let b := img.bytes
  let fmt := leAt b 4 2
  if !img.sfdpOk || decide (img.size < 0x1000000) || decide (0x4000000 < img.size) || !img.readOk then 8
  else if slice b 0 4 == ascii "HXIM" && headerCrc b && fmt != 1 && fmt != 2 then 3
  else if !layoutOk (min (img.size / 2) 0x1C00000) b then 2
  else
    let r := tableResult s.lcState b
    if r ≠ 0 then r
    else if !signaturesOk b then 4
    else if !digestsOk b then 5
    else if !s.staticOk b then 6
    else 1

/-! Applying the configuration (step 10). -/

/-- A byte or a field of a section, or its default. -/
def field (b : List Byte) (t off n d : Nat) : Nat := match payload b t with | some p => leAt p off n | none => d

/-- EVENT_WORLD of an image. -/
def eventWorlds (b : List Byte) : Tbl Nat :=
  match payload b 0x10 with
  | none => []
  | some p => (List.range 512).filterMap fun n =>
      let v := bits (leAt p (0x40 + n / 4) 1) (2 * (n % 4)) 2
      if v = 0 then none else some (n, v)

/-- The recorder's classes of an image. -/
def recClasses (b : List Byte) : List RecClass :=
  match payload b 0x15 with
  | none => []
  | some p => (List.range 6).map fun k =>
      { minSev := leAt p (recStride (leAt b 4 2) * k) 1, offs := recOffsets (leAt b 4 2) p k }

/-- GPIO functions of an image. -/
def gpioFuncs (b : List Byte) : List Nat :=
  match payload b 0x11 with
  | none => List.replicate 16 0
  | some p => (List.range 16).map fun n => leAt p n 1

/-- The configuration of an image, less what it writes into registers. -/
def cfgOf (b : List Byte) : Cfg :=
  { eventWorld := eventWorlds b, gpioFunc := gpioFuncs b,
    alarmMask := (match payload b 0x11 with | none => List.replicate 16 0 | some p => (List.range 16).map fun n => leAt p (0x10 + 4 * n) 4),
    recorder := recClasses b,
    floors := (match payload b 0x16 with | none => [12, 6, 3, 1, 6, 2, 3, 3840] | some p => (List.range 8).map fun i => leAt p (2 * i) 2),
    avsEn := field b 0x17 0 1 0 == 1, avsFast := field b 0x17 1 1 0 == 1, vceil := field b 0x17 2 2 750, capW := field b 0x17 4 1 55,
    xtalLoad := field b 0x17 5 1 20, idleUs := field b 0x17 6 2 50,
    ssids := [field b 0x18 0 2 0x1E5A, field b 0x18 2 2 0, field b 0x18 4 2 0x1E5A, field b 0x18 6 2 0],
    maxVfA := field b 0x18 8 1 128, maxVfB := field b 0x18 9 1 128, portBEn := field b 0x18 10 1 1 == 1,
    dbPresent := dbPresentOf b, scrubHours := field b 0x19 1 1 24,
    twinVers := (match payload b 0x1A with | none => [] | some p => [leAt p 0 1, leAt p 1 1, leAt p 2 1, leAt p 3 1]),
    sideband := sidebandOf b && (List.range 4).all fun n => (gpioFuncs b).getD n 0 != 3 }

/-- Region entries of an image (R237). -/
def State.loadEntries (s : State) (p : List Byte) : State :=
  (List.range (leAt p 0 2)).foldl (fun (s : State) i =>
    let e := slice p (0x10 + 32 * i) 32
    ((((((s.wr (R.ACT_ENT0_BASE_LO.ix i) (leAt e 0 8 / 4096)).wr (R.ACT_ENT1_BASE_HI.ix i) (leAt e 4 4)).wr
      (R.ACT_ENT2_LIMIT_LO.ix i) (leAt e 8 8 / 4096)).wr (R.ACT_ENT3_LIMIT_HI.ix i) (leAt e 12 4)).wr
      (R.ACT_ENT4_PERM_LO.ix i) (leAt e 16 4)).wr (R.ACT_ENT5_PERM_HI.ix i) (leAt e 20 4)).wr (R.ACT_ENT6_ENABLE.ix i) (leAt e 24 1)) s

/-- A code region: [LOAD, LOAD + LENGTH − 16), rounded outward to 4 KiB, restricted as Table 9-2 states (R209). -/
def State.codeRegion (s : State) (base last en : Fld) (p : List Byte) (restricted : Bool) : State :=
  let load := leAt p 0 8 - sramBase
  ((s.wr base (load / 4096)).wr last ((load + (p.length - 16) - 1) / 4096)).wr en restricted.toNat

/-- Table 9-2: whether a world's code region restricts it. -/
def State.restricts (s : State) (secure : Bool) : Bool := !lcUnlocked s.lcState && (secure || s.lcState != 16)

/-- The response codes and LOOP_EN copied into the backup domain (R458); a loop that is not enabled has no condition (R451). -/
def State.latchTamper (s : State) (p : List Byte) : State :=
  let code := fun (k : Nat) => (List.range 10).foldl (fun a i => if 10 * k + i < 24 then a + leAt p (10 * k + i) 1 * 2 ^ (3 * i) else a) 0
  let s := (((s.wr (R.TMP_RESP_CODE.ix 0) (code 0)).wr (R.TMP_RESP_CODE.ix 1) (code 1)).wr (R.TMP_RESP_CODE.ix 2) (code 2)).wr
    R.TMP_BKP_STATUS_LOOP_EN (leAt p 0x18 1)
  s.wr R.TMP_COND_SRC (Nat.land (s.rd R.TMP_COND_SRC) (0xFFFFF0 + leAt p 0x18 1 % 16))

/-- The defaults of Table 19-1, as a TAMPER section. -/
def tamperDefault : List Byte := [4, 4, 4, 4, 4, 4, 2, 2, 3, 2, 2, 4, 1, 2, 1, 1, 1, 1, 1, 1, 1, 2, 1, 3, 0x0F]

/-- Firmware goes to its load address (R89). -/
def State.loadFw (s : State) (p : List Byte) : State := { s with mem := memPut s.mem (leAt p 0 8) (p.drop 16) }

/-- Object capacity in units of 1,024 (R253). -/
def objCapacity (wm : Nat) : Nat := min 65536 (4096 * (wm - 1))

/-- Step 10: the configuration is applied and locked. -/
def State.applyImage (s : State) (b : List Byte) : State :=
  let s : State := { s with cfg := cfgOf b }
  let s := match payload b 1 with
    | some p => (s.loadFw p).codeRegion R.WLD_SCODE_BASE R.WLD_SCODE_LAST R.WLD_SCODE_EN p (s.restricts true)
    | none => s
  let s := match payload b 2 with
    | some p => (s.loadFw p).codeRegion R.WLD_NCODE_BASE R.WLD_NCODE_LAST R.WLD_NCODE_EN p (s.restricts false)
    | none => s
  let s := match payload b 0x10 with
    | some p => (List.range 60).foldl (fun (s : State) d => s.wr (R.PWR_DOM_STAT_WORLD.ix d) (leAt p d 1)) s
    | none => s
  let s := match payload b 0x12 with | some p => s.loadEntries p | none => s
  let s := (s.wr R.WLD_SRAM_WM_WM (sramWm b)).wr R.WLD_DDR_WM_WM (ddrWm b)
  let s := s.latchTamper ((payload b 0x14).getD tamperDefault)
  let s := (List.range 60).foldl (fun (s : State) d => s.wr (R.PWR_DOM_STAT_IDLE_BASK.ix d) ((field b 0x17 8 8 0).testBit d).toNat) s
  let s := if s.cfg.avsEn then s.startAvs else s.wr R.PWR_VCORE_AVS_EN 0
  let s := (s.wr R.KS_MOLT_INTERVAL_MS (if leAt b 4 2 = 2 then field b 0x1B 0 2 10 else 10)).wr R.MEM_OBJ_CAP_CAP (objCapacity (ddrWm b))
  let s := (s.wr R.TWN_STATUS_SIDEBAND s.cfg.sideband.toNat).wr R.GLB_BUILD_ID_BUILD_ID (leAt b 0x18 8)
  let s : State := { s with boot := { s.boot with
    applied := true, identity := ((payload b 3).bind identityOf).getD [],
    secureEntry := (match payload b 1 with | some p => leAt p 0 8 + leAt p 8 4 | none => 0),
    normalEntry := (payload b 2).map fun p => leAt p 0 8 + leAt p 8 4 } }
  let s := { s with cores := (List.range 4).foldl (fun t p =>
      tblPut {} t p { tblGet ({} : Core) t p with mxbase := BitVec.ofNat 64 (field b 1 0 8 0 / 512 * 512 + 1) }) s.cores }
  if s.cfg.dbPresent then s.trainChannel 1
  else [22, 23, 24, 25].foldl (fun s d => s.wr (domState d) 2) s

end Sys2Proof.Machine
end

