-- ==== Sys2Proof/Machine/Roles.lean ====
section
/-! DEFINITION. The roles of engine units: start, fencing, the next unit in rotation, Regrowth (R322, R349, R351, R355, R380, R516). -/

namespace Sys2Proof.Machine

/-- No unit, in TESTING of a pool and in SPARE. -/
def noUnit : Pool → Nat
  | .lattice => 31
  | .hash => 15
  | .bignum => 7
  | .code => 3
  | .sym => 15

/-- CAUSE of a pool's FAULT_INFO. -/
def poolFaultCause : Pool → Fld
  | .lattice => R.LAT_FAULT_INFO_CAUSE
  | .hash => R.HSH_FAULT_INFO_CAUSE
  | .bignum => R.BNE_FAULT_INFO_CAUSE
  | .code => R.CBE_FAULT_INFO_CAUSE
  | .sym => R.SYM_FAULT_INFO_CAUSE

/-- The unit number, IN_SERVICE and TEST of a pool's FAULT_INFO. -/
def poolFaultFields : Pool → Fld × Fld × Fld
  | .lattice => (R.LAT_FAULT_INFO_TILE, R.LAT_FAULT_INFO_IN_SERVICE, R.LAT_FAULT_INFO_TEST)
  | .hash => (R.HSH_FAULT_INFO_TILE, R.HSH_FAULT_INFO_IN_SERVICE, R.HSH_FAULT_INFO_TEST)
  | .bignum => (R.BNE_FAULT_INFO_UNIT, R.BNE_FAULT_INFO_IN_SERVICE, R.BNE_FAULT_INFO_TEST)
  | .code => (R.CBE_FAULT_INFO_ENGINE, R.CBE_FAULT_INFO_IN_SERVICE, R.CBE_FAULT_INFO_TEST)
  | .sym => (R.SYM_FAULT_INFO_LANE, R.SYM_FAULT_INFO_IN_SERVICE, R.SYM_FAULT_INFO_TEST)

/-- What a unit is fenced for: the test that failed, 0 in service; the set or lane concerned; the code of its cause. -/
structure UnitFault where
  test : Nat
  sub : Nat
  cause : Nat
deriving DecidableEq, Repr

/-- The cause code of a failed test; 0 where the pool has no test of that number (Tables 14-10, 15-6, 16-13, 16-14, 17-5). -/
def testCause (p : Pool) (t : Nat) : Nat :=
  match p with
  | .lattice => [0, 3, 3, 4, 1, 2, 5, 6].getD t 0
  | .code => if t ≤ 5 then t else 0
  | _ => if t ≤ 8 then t else 0

/-- What a failed test reports: SET of a lattice tile for tests 4 to 6, LANE of a hash tile (LAT_FAULT_INFO, HSH_FAULT_INFO). -/
def testFault (p : Pool) (f : TestFail) : UnitFault :=
  { test := f.test, cause := testCause p f.test,
    sub := match p with
      | .lattice => if f.test = 4 ∨ f.test = 6 then f.sub % 3 else if f.test = 5 then 3 + f.sub % 3 else 0
      | .hash => f.sub % 4
      | _ => 0 }

/-- What a failed rotating run reports: a lattice tile tests the sets of NEXT_KEM and NEXT_DSA (R350). -/
def State.runFault (s : State) (p : Pool) (u : Nat) (f : TestFail) : UnitFault :=
  match p with
  | .lattice => testFault p { f with sub := if f.test = 5 then s.rd (R.LAT_TILE_NEXT_DSA.ix u) else s.rd (R.LAT_TILE_NEXT_KEM.ix u) }
  | p => testFault p f

/-- The capture of the first fault since the last reset of the WARM group. (DEDUCED, log entry 42) -/
def State.captureFault (s : State) (p : Pool) (u : Nat) (inService : Bool) (f : UnitFault) : State :=
  if s.flag (poolFaultCause p) then s
  else
    let (unit, serv, test) := poolFaultFields p
    let s := (((s.wr (poolFaultCause p) f.cause).wr unit u).wr serv inService.toNat).wr test f.test
    match p with
    | .lattice => s.wr R.LAT_FAULT_INFO_SET f.sub
    | .hash => s.wr R.HSH_FAULT_INFO_LANE f.sub
    | _ => s

/-- LAST_OWNER of a unit, or of every lane of a hash tile, reads none. -/
def State.forgetOwner (s : State) (p : Pool) (u : Nat) : State :=
  match p with
  | .hash => (List.range 4).foldl (fun s l => s.wr (unitLastOwner .hash u l) 0x3FF) s
  | p => s.wr (unitLastOwner p u 0) 0x3FF

/-- A unit is marked fenced: STATE, CAUSE, events, capture; its operand memory is being cleared (R351, R354). -/
def State.markFenced (s : State) (p : Pool) (u : Nat) (inService : Bool) (f : UnitFault) : State :=
  let s := (s.captureFault p u inService f).endResidency p u |>.forgetOwner p u
  let s := if p = .hash ∧ tblGet 0 s.eng.heldFor u ≠ 0 then s.unhold (tblGet 0 s.eng.heldFor u - 1) else s
  let s := ((s.wr (unitState p u) 5).wr (unitCause p u) f.cause).wr (unitSelected p u) 0
  let s : State := { s with eng := { s.eng with
    afterClear := tblPut 0 s.eng.afterClear (unitKey p u) 6,
    passed := s.eng.passed.filter (· != unitKey p u), returning := s.eng.returning.filter (· != unitKey p u) } }
  (s.setEvt (unitEvtFault p u)).setEvt (unitEvtFenced p u)

/-- Units that rotation may select: serving, their domain ON (R349, R59). (DEDUCED, log entry 40) -/
def State.rotatable (s : State) (p : Pool) : List Nat :=
  (List.range (poolSize p)).filter fun u =>
    s.inService p u && s.domOn (unitDomain p u) && (s.rd (unitState p u) == 1 || s.rd (unitState p u) == 2 || s.rd (unitState p u) == 6)

/-- The serving unit that comes next after `prev`, in ascending number with wrap-around. (DEDUCED, log entry 40) -/
def State.nextServing (s : State) (p : Pool) (prev : Nat) : Option Nat :=
  let l := s.rotatable p
  match l.find? (fun u => decide (prev < u)) with
  | some u => some u
  | none => l.head?

/-- The next serving unit is selected for self-test. (DEDUCED, log entry 40) -/
def State.selectNext (s : State) (p : Pool) : State :=
  let prev := match tblGet 0 s.eng.lastTested p.num with | 0 => poolSize p | n + 1 => n
  match s.nextServing p prev with
  | some u => s.wr (unitSelected p u) 1
  | none => s

/-- A pool left with one healthy unit serves with it, its rotation suspended (R516). -/
def State.lastUnit (s : State) (p : Pool) : Option Nat :=
  match s.healthy p with
  | [u] => some u
  | _ => none

/-- The roles after a fencing: Regrowth where a spare is held, else the role is lost (R351, R380, R516). -/
def State.reassign (s : State) (p : Pool) (wasTesting wasSpare wasServing : Bool) : State :=
  let spare := s.rd R.LAT_ROTATE_SPARE
  match s.lastUnit p with
  | some u =>
    let s := (s.wr (poolSuspended p) 1).wr (unitSelected p u) 0
    if p = .lattice ∧ spare = u then (s.wr R.LAT_ROTATE_SPARE 31).wr (R.LAT_TILE_STATE.ix u) 1 |>.setEvt R.LAT_EVT_SPARE_OUT
    else if s.eng.passed.contains (unitKey p u) then (s.wr (poolTesting p) (noUnit p)).wr (unitState p u) 1
    else s
  | none =>
    if wasSpare then s.setEvt R.LAT_EVT_SPARE_OUT
    else if p = .lattice ∧ s.spareHeld ∧ (wasTesting ∨ wasServing) ∧ s.eng.regrowth.isNone then
      let s := (s.wr R.LAT_ROTATE_SPARE 31).wr (R.LAT_TILE_STATE.ix spare) 3
      { s with eng := { s.eng with regrowth := some (spare, wasTesting) } }
    else if wasTesting then s.selectNext p
    else s

/-- Tail-drop: a unit is fenced for the rest of the boot, its role passes on, the capacity is compared (R351, R380, R409, R429). (DEDUCED, log entry 41) -/
def State.fenceUnit (s : State) (p : Pool) (u : Nat) (inService : Bool) (f : UnitFault) : State :=
  let before := s.capacityList
  let wasTesting := s.isTesting p u || s.flag (unitSelected p u)
  let wasSpare := s.isSpare p u
  let wasServing := s.inService p u
  let s := s.markFenced p u inService f
  let s := if s.isTesting p u then s.wr (poolTesting p) (noUnit p) else s
  let s := if wasSpare then s.wr R.LAT_ROTATE_SPARE 31 else s
  (s.reassign p wasTesting wasSpare wasServing).recapacity before

/-- A unit that failed a known-answer test at step 11. -/
def State.failAtStart (s : State) (p : Pool) (u : Nat) (f : TestFail) : State := s.markFenced p u false (testFault p f)

/-- The serving role, idle. -/
def State.serveUnit (s : State) (p : Pool) (u : Nat) : State :=
  if s.rd (unitState p u) = 7 then s else s.wr (unitState p u) 1

/-- The roles of a pool's healthy units at step 11, in ascending number (R322, R355, R382, R411). -/
def State.assignRoles (s : State) (p : Pool) : State :=
  match s.healthy p with
  | [] => s
  | [u] => (s.serveUnit p u).wr (poolSuspended p) 1
  | u :: rest =>
    let s := (if s.rd (unitState p u) = 7 then s else s.wr (unitState p u) 3).wr (poolTesting p) u
    let s : State := { s with eng := { s.eng with lastTested := tblPut 0 s.eng.lastTested p.num (u + 1) } }
    match p with
    | .lattice =>
      let s := (rest.take 16).foldl (fun s u => s.serveUnit .lattice u) s
      (match rest.drop 16 with
       | x :: _ => (s.wr R.LAT_ROTATE_SPARE x).wr (R.LAT_TILE_STATE.ix x) 4
       | [] => s)
    | p => rest.foldl (fun s u => s.serveUnit p u) s

end Sys2Proof.Machine
end

