-- ==== Sys2Proof/Machine/Place.lean ====
section
/-! DEFINITION. Placing keys in slots and in the object cache, loading and destroying owners (chapter 12). -/

namespace Sys2Proof.Machine

/-- Whether a class is that of a public key (Table 7-8A). -/
def publicClass (cls : Nat) : Bool := cls == 3 || cls == 5 || cls == 7 || cls == 9 || cls == 11

/-- Whether a new secret goes to a slot (R271). -/
def goesToSlot (cls len : Nat) (cache : Bool) : Bool :=
  !publicClass cls && cls != 0x06 && cls != 0x0A && decide (len ≤ 128) && !cache

/-- A drawn NONCE of 12 bytes, bit 7 of byte 0 cleared (R521). -/
def State.drawNonce (s : State) : List Byte × State :=
  let (n, s) := s.draw 12
  (match n with | b :: t => (b &&& 0x7F) :: t | [] => [], s)

/-- The NONCE of a public key placed while no quadrant is in service (R521). -/
def State.clockNonce (s : State) : List Byte × State :=
  let t := s.rd R.TMP_TIME_TICKS % 2 ^ 48
  let n := if s.keys.nonceTime = t then s.keys.nonceCount else 0
  (0xFF :: leBytes 6 t ++ leBytes 5 n, { s with keys := { s.keys with nonceTime := t, nonceCount := n + 1 } })

/-- A key enters an object, counted toward a function: its body is sealed into cells. A status and DETAIL, (0, 0) once it is there (R253, R283, R284). -/
def State.putObject (s : State) (a : Attr) (stored : List Byte) (nonce : List Byte) (counted : Option Fn) : (Nat × Nat) × State :=
  let key := s.objKey a.owner
  let head := objectHead a stored.length nonce
  let cells := s.takeCells stored.length
  match writeCells s.cellBase cells (gcmSeal key nonce head stored) s with
  | (false, s) => ((0x14, 3), s)
  | (true, s) =>
    let o : Obj := { nonce := nonce, tag := gcmTag key nonce head stored, len := stored.length, cells := cells }
    let s := match counted with
      | some (.vf p n) => s.wr (R.VFS_OBJECTS_USED.vf p n) (s.rd (R.VFS_OBJECTS_USED.vf p n) + 1)
      | _ => s
    ((0, 0), (s.setKey a.owner a.index (some { attr := a, loc := .object, obj := some o, counted := counted })).useGen a.owner a.index a.gen)

/-- A key enters a slot, counted toward a function. -/
def State.putSlot (s : State) (p : Nat) (a : Attr) (stored : List Byte) (counted : Option Fn) (share : List Byte := []) : State :=
  let s := s.fillSlot p stored a (.key a.owner a.index) share
  let s := match counted with
    | some (.vf q n) => s.wr (R.VFS_SLOTS_USED.vf q n) (s.rd (R.VFS_SLOTS_USED.vf q n) + 1)
    | _ => s
  (s.setKey a.owner a.index (some { attr := a, loc := .slot p, counted := counted })).useGen a.owner a.index a.gen

/-- Whether DDR5 was stopped by the loss of its scrambling key (R258, R517). -/
def State.ddrStopped (s : State) : Bool := s.rd (R.MEM_STATUS_STATE.mem 0) == 5 && (s.deviceKey 3).isNone

/-- Placing a key under its own handle, in a slot or in an object as `slot` says: a status and DETAIL, (0, 0) once it is there (R253, R271, R517). (DESIGN CHOICE, log entry 52) -/
def State.placeAt (s : State) (a : Attr) (stored : List Byte) (slot : Bool) (counted : Option Fn) (share : List Byte := []) : (Nat × Nat) × State :=
  if slot then
    match s.pickSlot with
    | (some p, s) => ((0, 0), s.putSlot p a stored counted share)
    | (none, _) => ((0x43, 0), s)
  else if s.ddrStopped then ((0x7F, 0x16), s)
  else if s.objRoom [stored.length] then
    let (n, s) := if s.rd R.ENT_STATUS_IN_SERVICE = 0 ∧ publicClass a.cls then s.clockNonce else s.drawNonce
    s.putObject a stored n counted
  else ((0x43, 0), s)

/-- A key just placed is taken back: neither it nor its generation has been (R165). -/
def State.unplace (s : State) (a : Attr) (counted : Option Fn) (lastGen : Tbl Nat) : State :=
  let s := s.destroyKey a.owner a.index counted
  { s with keys := { s.keys with lastGen := lastGen } }

/-- The attribute word set of a new key of an owner: its index, generation and creation hours (R280, R285). -/
def State.newAttr (s : State) (owner alg usage kflags origin cls len : Nat) : Attr :=
  let i := s.newIndex owner
  { alg := alg, usage := usage, kflags := kflags % 4, origin := origin, cls := cls, owner := owner,
    gen := s.newGen owner i, index := i, secretLen := if publicClass cls then 0 else len, created := s.rd R.TMP_HOURS_COUNT }

/-! Owners. -/

/-- Every key of an owner, by index. -/
def State.indicesOf (s : State) (o : Nat) : List Nat :=
  s.keys.keys.filterMap fun e => if e.1 / 2 ^ 32 = o then some (e.1 % 2 ^ 32) else none

/-- Destroying an owner: its slots and objects are cleared, its key-encryption key goes, it is unloaded (R290). -/
def State.destroyOwner (s : State) (o : Nat) (by' : Option Fn := none) : State :=
  match s.ownerAt o with
  | none => s
  | some ow =>
    let s := (s.indicesOf o).foldl (fun s i => s.destroyKey o i by') s
    let s := match ow.kekSlot with | some p => s.clearSlot p | none => s
    let s := { s with keys := { s.keys with
      rederive := s.keys.rederive.filter (· != DeviceKey.kek o), lost := s.keys.lost.filter (· != DeviceKey.kek o) } }
    (((s.setOwner o none).cancelApprovals fun a => a.owner == o && a.action != 1).setEvt R.KS_EVT_OWNER_CHANGE).refreshSuspended

/-- Loading an owner: its key-encryption key is derived into a free slot; `none` with no slot free (R289). -/
def State.loadOwner (s : State) (o : Nat) (d : OwnerDef) : Option State :=
  match s.pickSlot with
  | (none, _) => none
  | (some p, s) =>
    let root := (s.deviceKey 2).getD []
    let s := s.fillSlot p (ownerKek root o) { owner := o, secretLen := 32 } (.kek o)
    some ((s.setOwner o (some { defn := d, kekSlot := some p })).setEvt R.KS_EVT_OWNER_CHANGE).refreshSuspended

/-- The definition of a loaded owner is replaced (R290). -/
def State.redefineOwner (s : State) (o : Nat) (d : OwnerDef) : State :=
  match s.ownerAt o with
  | none => s
  | some ow =>
    (((s.setOwner o (some { ow with defn := d })).cancelApprovals fun a => a.owner == o && a.action != 1).setEvt R.KS_EVT_OWNER_CHANGE).refreshSuspended

/-- Every owner, slot and object goes (R486). -/
def State.destroyAll (s : State) : State :=
  (s.keys.owners.map Prod.fst).foldl (fun s o => s.destroyOwner o) s

end Sys2Proof.Machine
end

