-- ==== Sys2Proof/Machine/Twin.lean ====
section
/-! DEFINITION. The Soade link and the twin: training, handshake, mirroring, resynchronisation (chapter 21). -/

namespace Sys2Proof.Machine

/-- Whether this device is LEAD (R478). -/
def State.lead (s : State) : Bool := s.pins.twRole

/-- The pairing under way ends with RESULT `r` (TWN_PAIR_STATUS). -/
def State.pairEnd (s : State) (r : Nat) : State :=
  let was := s.rd R.TWN_PAIR_STATUS_RESULT
  let s := (s.wr R.TWN_PAIR_STATUS_BUSY 0).wr R.TWN_PAIR_STATUS_RESULT r
  let s := { s with twn := { s.twn with approved := none } }
  if r ≠ 0 ∧ was = 0 then s.setEvt R.TWN_EVT_PAIR_FAIL else s

/-- The session is closed (TWN_EVT.LINK_DOWN); a session in force leaves the device in SOLO_LOST (R491). (DEDUCED, log entry 30) -/
def State.closeSession (s : State) : State := (s.setEvt R.TWN_EVT_LINK_DOWN).peerGone true

/-- This device sends CLOSE and ends the session. (DEDUCED, log entry 30) -/
def State.closeWith (s : State) (reason : Option Nat) : State := (s.sendClose false reason).closeSession

/-- TWIN_AUTH is raised, CLOSE is sent and the session ends (R481). (DEDUCED, log entry 30) -/
def State.twinAuthFail (s : State) : State :=
  let s := s.raiseAlarms [22]
  let s := if s.flag R.TWN_PAIR_STATUS_BUSY then s.pairEnd 6 else s
  s.closeWith none

/-! The receiver (R480, R481). -/

/-- ACK_SEQ of a peer that has received no frame in order. (DEDUCED, log entry 31) -/
def noAck : Nat := 2 ^ 64 - 1

/-- Retraining the link: no frame passes until it has trained again. -/
def State.retrain (s : State) : State :=
  let s := s.satAdd R.TWN_LINK_ERR_RETRAINS 1
  { s with twn := { s.twn with linkUp := false, replays := 0 } }

/-- Every frame that the peer has not acknowledged is sent again, at most 4 times; after that the link retrains (R481). (DEDUCED, log entry 31) -/
def State.replay (s : State) : State :=
  if s.twn.replays < 4 then
    let s := s.satAdd R.TWN_LINK_ERR_REPLAYS 1
    let s := { s with twn := { s.twn with replays := s.twn.replays + 1 } }
    s.twn.unacked.foldl (fun s f => s.emit (.soade f)) s
  else s.retrain

/-- ACK_SEQ and NAK of a frame that passed its checks. -/
def State.takeAck (s : State) (h : FrameHdr) : State :=
  let left := if h.ackSeq = noAck then s.twn.unacked else s.twn.unacked.filter fun f => decide (h.ackSeq < f.seq)
  let fresh := left.length != s.twn.unacked.length
  let s := { s with twn := { s.twn with unacked := left, replays := if fresh then 0 else s.twn.replays } }
  if h.nak then s.replay else s

/-- Receiving a frame: LCRC, tag and SEQ are checked, then `f` takes its payload (R481). (DESIGN CHOICE, log entry 59) -/
def State.recvFrame (s : State) (h : FrameHdr) (tagged : Bool) (f : State → State) : Host.Outcome State Fault Refusal :=
  if !s.twn.linkUp then s.noEvent
  else if !h.lcrcOk then .next { s with twn := { s.twn with nak := true } }
  else if tagged && !h.tagOk then .next s.twinAuthFail
  else
    let s := s.takeAck h
    if h.seq = s.twn.recvSeq then .next (f { s with twn := { s.twn with recvSeq := s.twn.recvSeq + 1 } })
    else if tagged && decide (h.seq < s.twn.recvSeq) then .next s.twinAuthFail
    else .next { s with twn := { s.twn with nak := true } }

/-! Training and HELLO (R478, R482). -/

/-- The 24-byte header of a frame (Table 21-4). -/
def frameHeader (type len seq ackSeq flags : Nat) : List Byte :=
  leBytes 1 type ++ leBytes 1 flags ++ leBytes 2 len ++ zeros 4 ++ leBytes 8 seq ++ leBytes 8 ackSeq

/-- The payload bytes of HELLO (Table 21-5). -/
def helloBytes (minMajor minMinor maxMajor maxMinor serial : Nat) : List Byte :=
  leBytes 1 minMajor ++ leBytes 1 minMinor ++ leBytes 1 maxMajor ++ leBytes 1 maxMinor ++ leBytes 8 serial ++ zeros 20

/-- TYPE of a frame (Table 21-5). -/
def frameType : TwinPayload → Nat
  | .hello _ _ _ _ _ => 0x01
  | .pairKem _ _ => 0x02
  | .pairAuth _ _ => 0x03
  | .heartbeat _ => 0x10
  | .close _ => 0x11
  | .commit _ => 0x20
  | .ack _ => 0x21
  | .resyncData _ => 0x30
  | .resyncEnd _ => 0x31
  | .journal _ => 0x32
  | .keyReq _ => 0x40
  | .keyResp _ => 0x41

/-- The payload of a frame in plain (Table 21-5). (DEDUCED, log entry 31) -/
def framePlain : TwinPayload → List Byte
  | .hello a b c d serial => helloBytes a b c d serial
  | .pairKem x25519 kem => x25519 ++ kem
  | .pairAuth _ bytes => bytes
  | .heartbeat cseq => leBytes 8 cseq
  | .close reason => leBytes 1 reason
  | .commit rec => Config.recordBytes rec
  | .ack status => leBytes 1 status
  | .resyncData recs => recs.flatMap Config.recordBytes
  | .resyncEnd count => leBytes 8 count
  | .journal recs => recs.flatMap Config.recordBytes
  | .keyReq handle => leBytes 8 handle
  | .keyResp rec => (rec.map Config.recordBytes).getD []

/-- A frame as it goes over the link: header, payload, tag and LCRC. HELLO and PAIR_KEM carry their payload in plain and no tag; every other type is encrypted under the direction key of its sender, slot 5 for LEAD and slot 6 for FOLLOW (R480, R484). Where no session key exists, as for a CLOSE that answers HELLO, the spec names none: the key is then empty. (DEDUCED, log entry 31) -/
def State.wire (s : State) (f : TwinFrame) : List Byte :=
  let plain := framePlain f.payload
  let head := frameHeader (frameType f.payload) plain.length f.seq f.ackSeq (f.nak.toNat + 2 * f.purge.toNat)
  let body :=
    if frameType f.payload ≤ 2 then plain
    else
      let key := (s.deviceKey (if s.lead then 5 else 6)).getD []
      let nonce := leBytes 1 (if s.lead then 1 else 2) ++ zeros 3 ++ leBytes 8 f.seq
      gcmSeal key nonce head plain ++ gcmTag key nonce head plain
  head ++ body ++ leBytes 4 (crc32 (head ++ body))

/-- Sending a frame that belongs to the transcript. -/
def State.sendNoted (s : State) (type : Nat) (bytes : List Byte) (p : TwinPayload) : State :=
  let b := frameHeader type bytes.length s.twn.sendSeq ((s.twn.recvSeq + 2 ^ 64 - 1) % 2 ^ 64) s.twn.nak.toNat ++ bytes
  let s := { s with twn := { s.twn with sent := s.twn.sent ++ [b] } }
  s.sendFrame false p

/-- A received frame that belongs to the transcript. -/
def State.noteGot (s : State) (type : Nat) (h : FrameHdr) (bytes : List Byte) : State :=
  { s with twn := { s.twn with got := s.twn.got ++ [frameHeader type bytes.length h.seq h.ackSeq (h.nak.toNat + 2 * h.purge.toNat) ++ bytes] } }

/-- Whether this device takes part in a handshake: it keeps a pairing, or firmware has begun one (R494). -/
def State.takesPart (s : State) : Bool := s.twn.kept.isSome || s.twn.bound.isSome || s.twn.approved.isSome

/-- The four bytes of this device's version range (TWIN section). -/
def State.twinVer (s : State) (i : Nat) : Nat := s.cfg.twinVers.getD i 0

/-- The link has trained: a new session begins and HELLO is sent (R480, R482). (DEDUCED, log entry 30) -/
def State.linkTrained (s : State) (speed width : Nat) : State :=
  let s := if s.twn.authed then s.peerGone false else s
  let st := s.rd R.TWN_STATUS_STATE
  let s := { s with twn := { s.twn with
    linkUp := true, sendSeq := 0, recvSeq := 0, unacked := [], replays := 0, failedRetrains := 0, nak := false,
    peerSerial := none, sent := [], got := [], eph := [], keyed := false, authed := false, sentEnd := false, gotEnd := false,
    before := if st = 2 then s.twn.before else st } }
  let s := (s.wr R.TWN_STATUS_SPEED speed).wr R.TWN_STATUS_WIDTH width
  let s := if s.takesPart then s.wr R.TWN_STATUS_STATE 2 else s
  s.sendNoted 1 (helloBytes (s.twinVer 0) (s.twinVer 1) (s.twinVer 2) (s.twinVer 3) Config.serial.toNat)
    (.hello (s.twinVer 0) (s.twinVer 1) (s.twinVer 2) (s.twinVer 3) Config.serial.toNat)

/-- TWIN_LINK_TRAINED: SPEED 4 is 16 GT/s, 5 is 32 GT/s (TWN_STATUS). -/
def execTwinLinkTrained (speed width : Nat) (s : State) : Host.Outcome State Fault Refusal :=
  if s.byParity && !s.pins.twPresentN && s.domOn 13 && !s.inTest 2 && (speed == 4 || speed == 5) && (width == 1 || width == 2 || width == 4) then
    .next (s.linkTrained speed width)
  else s.noEvent

/-- TWIN_RETRAIN_TIMER: one retrain of LEAD in a SOLO state; a success is followed by TWIN_LINK_TRAINED (R491). -/
def execTwinRetrainTimer (trained : Bool) (s : State) : Host.Outcome State Fault Refusal :=
  let st := s.rd R.TWN_STATUS_STATE
  if s.lead && (st == 5 || st == 6) && !s.pins.twPresentN && !s.inTest 2 then
    let s := s.satAdd R.TWN_LINK_ERR_RETRAINS 1
    .next { s with twn := { s.twn with failedRetrains := if trained then 0 else s.twn.failedRetrains + 1 } }
  else s.noEvent

/-- TWIN_LINK_DOWN: three retrains failed within 1 s (R481). -/
def execTwinLinkDown (s : State) : Host.Outcome State Fault Refusal :=
  if s.byParity then .next s.twinDown else s.noEvent

/-- The highest version in both ranges and in 1.0 to 1.2 (R482). -/
def State.chooseVersion (s : State) (lo hi : Nat) : Option Nat :=
  [0x102, 0x101, 0x100].find? fun v =>
    decide (lo ≤ v) && decide (v ≤ hi) && decide (s.twinVer 0 * 256 + s.twinVer 1 ≤ v) && decide (v ≤ s.twinVer 2 * 256 + s.twinVer 3)

/-! The handshake (R483 to R486). -/

/-- LEAD's PAIR_KEM: X25519 public key and ML-KEM-768 encapsulation key. -/
def State.sendKem (s : State) : State :=
  let (r, s) := s.draw 96
  let b := twinStep 0 r [] 1216
  let s := { s with twn := { s.twn with eph := r } }
  s.sendNoted 2 b (.pairKem (b.take 32) (b.drop 32))

/-- The peer's HELLO (R482, R494). -/
def State.gotHello (s : State) (h : FrameHdr) (minMajor minMinor maxMajor maxMinor serial : Nat) : State :=
  let s := s.noteGot 1 h (helloBytes minMajor minMinor maxMajor maxMinor serial)
  let s := { s with twn := { s.twn with peerSerial := some serial } }
  match s.chooseVersion (minMajor * 256 + minMinor) (maxMajor * 256 + maxMinor) with
  | none =>
    let s := s.pairEnd 1
    if s.rd R.TWN_STATUS_STATE = 2 then s.wr R.TWN_STATUS_STATE s.twn.before else s
  | some v =>
    let s := (s.wr R.TWN_STATUS_VER_MAJOR (v / 256)).wr R.TWN_STATUS_VER_MINOR (v % 256)
    if !s.takesPart then s.closeWith (some 5)
    else if s.lead then s.sendKem else s

/-- SOADE_HELLO. -/
def execSoadeHello (hdr : FrameHdr) (minMajor minMinor maxMajor maxMinor serial : Nat) (s : State) : Host.Outcome State Fault Refusal :=
  s.recvFrame hdr false fun s => s.gotHello hdr minMajor minMinor maxMajor maxMinor serial

/-- LEAD's and FOLLOW's frames of the transcript in turn, LEAD's first (R484). -/
def takeTurns : List (List Byte) → List (List Byte) → List Byte
  | a :: as, b :: bs => a ++ b ++ takeTurns as bs
  | a :: as, [] => a ++ takeTurns as []
  | [], b :: bs => b ++ takeTurns [] bs
  | [], [] => []

/-- The hash of the session's transcript. -/
def State.transcript (s : State) : List Byte :=
  sha3 (if s.lead then takeTurns s.twn.sent s.twn.got else takeTurns s.twn.got s.twn.sent)

/-- The payload of PAIR_AUTH goes out in three frames, the first two of them full (Table 21-5, R480). (DEDUCED, log entry 31) -/
def State.sendThree (s : State) (b : List Byte) : State :=
  ((s.sendFrame false (.pairAuth 0 (b.take 2048))).sendFrame false (.pairAuth 1 (slice b 2048 2048))).sendFrame false (.pairAuth 2 (b.drop 4096))

/-- This device's PAIR_AUTH: its identity public keys and both signatures of the transcript hash (R484). (DEDUCED, log entry 31) -/
def State.sendAuth (s : State) : State :=
  match s.deviceKey 0, s.deviceKey 1 with
  | some k0, some k1 =>
    let (r, s) := s.draw 32
    let (k, s) := s.draw 48
    s.sendThree (publicOf algMldsa65 k0 1952 ++ publicOf algP384 k1 97 ++
      signature algMldsa65 pureMode k0 (ascii "HX960 TWIN") s.transcript r 3309 ++
      signature algP384 sha384Mode k1 [] s.transcript k 96)
  | _, _ => (if s.flag R.TWN_PAIR_STATUS_BUSY then s.pairEnd 6 else s).closeWith none

/-- The session keys are derived into slots 5 to 7, and PAIR_AUTH is sent (R484). Where one of the slots is fenced and nothing takes its place, the handshake fails. (DESIGN CHOICE, log entry 69) -/
def State.deriveSession (s : State) (shared : List Byte) : State :=
  if [5, 6, 7].any fun n => s.keys.fenced.contains (s.reservedSlot n) then
    (if s.flag R.TWN_PAIR_STATUS_BUSY then s.pairEnd 6 else s).closeWith none
  else
  let session := kdf shared "HX960 TWIN" s.transcript 256
  let s := s.fillDevice 7 session
  let s := s.fillDevice 5 (kdf session "HX960 TWIN LF" [] 256)
  let s := s.fillDevice 6 (kdf session "HX960 TWIN FL" [] 256)
  ({ s with twn := { s.twn with keyed := true } } : State).sendAuth

/-- The peer's PAIR_KEM. -/
def State.gotKem (s : State) (h : FrameHdr) (x25519 kem : List Byte) : State :=
  let s := s.noteGot 2 h (x25519 ++ kem)
  if s.lead then s.deriveSession (twinStep 2 s.twn.eph (x25519 ++ kem) 64)
  else
    let (r, s) := s.draw 64
    let b := twinStep 1 r (x25519 ++ kem) 1120
    let s := { s with twn := { s.twn with eph := r } }
    let s := s.sendNoted 2 b (.pairKem (b.take 32) (b.drop 32))
    s.deriveSession (twinStep 3 r (x25519 ++ kem) 64)

/-- PAIR_KEM. -/
def execPairKem (hdr : FrameHdr) (x25519 kem : List Byte) (s : State) : Host.Outcome State Fault Refusal :=
  if s.twn.peerSerial.isNone || s.twn.keyed || s.rd R.TWN_STATUS_STATE != 2 then s.noEvent
  else s.recvFrame hdr false fun s => s.gotKem hdr x25519 kem

/-- Whether the peer's identity is the one bound by the approval, by the blob or by the pairing kept (R483, R484, R494). -/
def State.peerAccepted (s : State) (hash : List Byte) : Bool :=
  let serial := s.twn.peerSerial.getD 0
  match s.twn.approved, s.twn.bound, s.twn.kept with
  | some (o, d), _, _ => actionDigest 8 o 0 0 (leBytes 8 serial ++ hash.take 16) [] == d
  | none, some b, _ => b.1 == serial && b.2 == hash
  | none, none, some (_, n, h) => n == serial && h == hash
  | none, none, none => false

/-- The tag key of a pairing blob (R485). -/
def State.blobKey (s : State) : List Byte := kdf ((s.deviceKey 2).getD []) "HX960 PAIR" [] 256

/-- Words of a byte string written into TWN_BLOB. -/
def putBlob (l : List Byte) : Nat → State → State
  | 0, s => s
  | n + 1, s => (putBlob l n s).wr (R.TWN_BLOB_DATA.ix n) (leAt l (4 * n) 4)

/-- The pairing blob of a first pairing is written into TWN_BLOB (Table 21-7). -/
def State.writeBlob (s : State) (peer pairId : Nat) (hash : List Byte) : State :=
  let (nonce, s) := s.draw 12
  let head := ascii "HXTP" ++ leBytes 1 1 ++ zeros 3 ++ leBytes 8 Config.serial.toNat ++ leBytes 8 peer ++ leBytes 8 pairId ++
    fit 48 hash ++ nonce
  (putBlob (head ++ gcmTag s.blobKey nonce head []) 27 s).setEvt R.TWN_EVT_BLOB_READY

/-- The 108 bytes of TWN_BLOB. -/
def State.blobBytes (s : State) : List Byte := (List.range 27).flatMap fun w => leBytes 4 (s.rd (R.TWN_BLOB_DATA.ix w))

/-- Everything that resynchronisation mirrors in full mode (Table 21-8). -/
def State.mirrored (s : State) : List ChangeRec :=
  (s.keys.owners.filterMap fun e => e.2.map fun o => ChangeRec.owner e.1 o.defn) ++
  (s.keys.keys.filterMap fun e => e.2.bind fun k =>
    (s.keyValue k.attr.owner k.attr.index).map fun v => ChangeRec.key k.attr v k.obj.isSome) ++
  (s.keys.lastGen.map fun e => ChangeRec.lastGen (e.1 / 2 ^ 32) (e.1 % 2 ^ 32) (e.2 - 1)) ++
  (s.keys.approvals.map fun e => ChangeRec.approval e.1)

/-- This device's part of the resynchronisation: its records, then RESYNC_END (R493). -/
def State.sendResync (s : State) (journalMode : Bool) : State :=
  let s := s.wr R.TWN_STATUS_MODE (if journalMode then 1 else 2)
  let l := if journalMode then s.twn.journal else s.mirrored
  let s := s.sendFrame false (if journalMode then .journal l else .resyncData l)
  let s := s.sendFrame false (.resyncEnd l.length)
  { s with twn := { s.twn with sentEnd := true } }

/-- Resynchronisation starts, in journal mode where every condition that this device knows holds (R493). -/
def State.startResync (s : State) (first : Bool) : State :=
  let s := s.wr R.TWN_STATUS_STATE 3
  s.sendResync (!first && s.twn.journalOk && !s.flag R.TWN_JOURNAL_OVERFLOW &&
    decide (0x102 ≤ s.rd R.TWN_STATUS_VER_MAJOR * 256 + s.rd R.TWN_STATUS_VER_MINOR))

/-- The handshake ends with success (Table 21-6, steps 4 and 5). A PAIR_ID of a first pairing is drawn by LEAD; the spec does not say how FOLLOW learns it, so there it is a free value. (DEDUCED, log entry 31) -/
def State.paired (s : State) (hash : List Byte) : State :=
  let serial := s.twn.peerSerial.getD 0
  let first := s.twn.approved.isSome
  let (r, s) := if s.lead then s.draw 8 else s.free 8
  let pid := if first then leNat r else match s.twn.bound, s.twn.kept with
    | some _, _ => s.twn.pairId
    | none, some (p, _, _) => p
    | none, none => leNat r
  let s := if first then s.writeBlob serial pid hash else s
  let s := s.pairEnd 0
  let s := { s with
    pins := { s.pins with peerFaultIn := false }
    twn := { s.twn with authed := true, bound := none, pairId := pid, kept := some (pid, serial, hash) } }
  let s := s.setEvt R.TWN_EVT_PAIRED
  let s := if first && s.twn.join then s.destroyAll else s
  s.startResync first

/-- The peer's PAIR_AUTH (R481, R484, R486). How a device learns the peer's JOIN is not stated: it is a free value. (DEDUCED, log entry 31) -/
def State.gotAuth (s : State) (idMldsa idP384 sigMldsa sigP384 : List Byte) : State :=
  let hash := sha384 (idMldsa ++ idP384)
  let s : State := { s with twn := { s.twn with recvSeq := s.twn.recvSeq + 2 } }
  if !s.peerAccepted hash then (s.pairEnd 3).closeWith none
  else if !(verifies algMldsa65 pureMode idMldsa (ascii "HX960 TWIN") s.transcript sigMldsa &&
      verifies algP384 sha384Mode idP384 [] s.transcript sigP384) then s.twinAuthFail
  else if s.twn.approved.isSome then
    let (n, s) := s.freeNat 1
    if (n % 2 == 1) == s.twn.join then (s.pairEnd 5).closeWith none else s.paired hash
  else s.paired hash

/-- PAIR_AUTH: its three frames have arrived, `hdr` heads the first (Table 21-5). (DEDUCED, log entry 31) -/
def execPairAuth (hdr : FrameHdr) (idMldsa idP384 sigMldsa sigP384 : List Byte) (s : State) : Host.Outcome State Fault Refusal :=
  if s.twn.keyed && !s.twn.authed then
    s.recvFrame hdr true fun s => s.gotAuth idMldsa idP384 sigMldsa sigP384
  else s.noEvent

/-! TWN_PAIR. -/

/-- RESULT of an approval named for a first pairing: 0 accepted, 2 not valid (R483). -/
def State.pairApproval (s : State) (id : Nat) : Nat :=
  match s.approvalAt id with
  | none => 2
  | some a => if a.action = 8 ∧ a.met then 0 else 2

/-- Whether the blob in TWN_BLOB is this device's own (R485). -/
def State.blobOk (s : State) : Bool :=
  let b := s.blobBytes
  slice b 0 4 == ascii "HXTP" && leAt b 8 8 == Config.serial.toNat &&
    gcmOk s.blobKey (slice b 0x50 12) (slice b 0 0x5C) [] (slice b 0x5C 16)

/-- A pairing begins: the link is trained anew. -/
def State.beginPair (s : State) : State :=
  let st := s.rd R.TWN_STATUS_STATE
  let s := ((s.wr R.TWN_PAIR_STATUS_BUSY 1).wr R.TWN_PAIR_STATUS_RESULT 0).wr R.TWN_STATUS_STATE 2
  { s with twn := { s.twn with linkUp := false, before := if st = 2 then s.twn.before else st } }

/-- An accepted TWN_PAIR: the approval it names is consumed whatever the result (R483, R485). -/
def State.pairWrite (s : State) (val : Nat) : State :=
  let id := bits val 0 16
  let r := s.pairApproval id
  let a := s.approvalAt id
  let blob := val.testBit 16
  let s := ((s.wr R.TWN_PAIR_APPROVAL_ID id).wr R.TWN_PAIR_BLOB blob.toNat).wr R.TWN_PAIR_JOIN (val.testBit 17).toNat
  let s := s.endApproval id
  let fail := fun (s : State) (r : Nat) =>
    (s.wr R.TWN_PAIR_STATUS_RESULT r).setEvt R.TWN_EVT_PAIR_FAIL
  if s.flag R.TWN_PAIR_STATUS_BUSY then fail s 7
  else if !s.byParity then fail s 1
  else if blob then
    if !s.blobOk then fail s 4
    else
      let b := s.blobBytes
      ({ s with twn := { s.twn with bound := some (leAt b 0x10 8, slice b 0x20 48), pairId := leAt b 0x18 8, approved := none, join := false } } : State).beginPair
  else match a with
    | some a =>
      if r ≠ 0 then fail s 2
      else ({ s with twn := { s.twn with approved := some (a.owner, a.digest), join := val.testBit 17 } } : State).beginPair
    | none => fail s 2

/-- TWN_PAIR. -/
def execTwnPair (who : Requester) (complement : Word32) (s : State) : Host.Outcome State Fault Refusal :=
  .next (s.writeGuarded who 0x120008 complement.toNat fun v s => s.pairWrite v)

/-! Heartbeats and loss (R491). -/

/-- HEARTBEAT. -/
def execHeartbeat (hdr : FrameHdr) (cseq : Nat) (s : State) : Host.Outcome State Fault Refusal :=
  let _ := cseq
  s.recvFrame hdr true fun s => s

/-- HEARTBEAT_SEND: one 10 µs period of a session, or of the sideband. -/
def execHeartbeatSend (s : State) : Host.Outcome State Fault Refusal :=
  let side := s.cfg.sideband && s.boot.applied && !s.recovery
  let link := s.twn.authed && s.twn.linkUp
  if side || link then
    let s := if link then s.sendFrame false (.heartbeat (s.rd R.TWN_CSEQ_COUNT)) else s
    .next (if side then { s with pins := { s.pins with beat := !s.pins.beat } } else s)
  else s.noEvent

/-- HEARTBEAT_MISS: five heartbeats are missed. -/
def execHeartbeatMiss (sidebandToggles : Bool) (s : State) : Host.Outcome State Fault Refusal :=
  if s.twn.authed then .next (s.peerGone (!(s.cfg.sideband && sidebandToggles && !s.pins.peerFaultIn)))
  else s.noEvent

/-- PEER_FAULT_IN_HIGH: GPIO3 goes high; in use, the sideband tells that the peer is lost. -/
def execPeerFaultInHigh (s : State) : Host.Outcome State Fault Refusal :=
  let s := { s with pins := { s.pins with peerFaultIn := true } }
  if !(s.cfg.sideband && s.boot.applied) then .next s
  else if s.twn.authed then .next (s.peerGone true)
  else if s.rd R.TWN_STATUS_STATE = 5 then .next ((s.wr R.TWN_STATUS_STATE 6).setEvt R.TWN_EVT_PEER_LOST)
  else .next s

/-- TW_PRESENT_N_CHANGE (R479). -/
def execTwPresentNChange (high : Bool) (s : State) : Host.Outcome State Fault Refusal :=
  let s := { s with pins := { s.pins with twPresentN := high } }
  .next (if high && s.twn.linkUp then s.twinDown else s)

/-- CLOSE: the peer ends the session. (DEDUCED, log entry 30) -/
def execClose (hdr : FrameHdr) (reason : Nat) (s : State) : Host.Outcome State Fault Refusal :=
  let _ := reason
  s.recvFrame hdr true fun s => s.closeSession

/-! Applying change records (R489, R490, R495). -/

/-- A key record, by its generation (Table 21-9): ACK status and whether it was a conflict. (DEDUCED, log entry 31) -/
def State.applyKey (s : State) (a : Attr) (stored : List Byte) (object : Bool) : Nat × Bool × State :=
  let last := tblGet 0 s.keys.lastGen (keyId a.owner a.index)
  if last ≤ a.gen then
    if (s.ownerAt a.owner).isNone then (1, false, s)
    else
      let s := s.destroyKey a.owner a.index
      let slot := !object && goesToSlot a.cls stored.length false && !s.freeSlots.isEmpty
      match s.placeAt a stored slot none with
      | ((0, _), s) => (0, false, s)
      | (_, s) => (1, false, s)
  else if last = a.gen + 1 then (0, (s.keyAt a.owner a.index).isNone, s)
  else (0, true, s)

/-- A destruction record of a key. -/
def State.applyDestroy (s : State) (owner index gen : Nat) : Nat × Bool × State :=
  match s.keyAt owner index with
  | none => (0, false, s)
  | some k => if k.attr.gen ≤ gen then (0, false, s.destroyKey owner index) else (0, true, s)

/-- Loading a mirrored owner; status 1 with no slot free. -/
def State.applyLoad (s : State) (id : Nat) (d : OwnerDef) (conflict : Bool) : Nat × Bool × State :=
  match s.loadOwner id d with
  | some s => (0, conflict, s)
  | none => (1, conflict, s)

/-- Whether this device destroyed an owner since the split, with a POLICY_SEQ not below `p` (Table 21-9). -/
def State.destroyedHere (s : State) (id p : Nat) : Bool :=
  s.twn.journal.any fun r => match r with
    | .ownerDestroy i q => i == id && decide (p ≤ q)
    | _ => false

/-- An owner record (Table 21-9). Status 2 tells FOLLOW that LEAD's redefinition stands (R489). -/
def State.applyOwner (s : State) (id : Nat) (d : OwnerDef) : Nat × Bool × State :=
  match s.ownerAt id with
  | none => if s.destroyedHere id d.policySeq then (0, true, s) else s.applyLoad id d false
  | some ow =>
    if ow.defn = d then (0, false, s)
    else if ow.defn.salt ≠ d.salt then
      if s.lead then (0, true, s) else (s.destroyOwner id).applyLoad id d true
    else if ow.defn.policySeq < d.policySeq then (0, false, s.redefineOwner id d)
    else if ow.defn.policySeq = d.policySeq then
      if s.lead then (2, true, s) else (0, true, s.redefineOwner id d)
    else (0, true, s)

/-- A destruction record of an owner. -/
def State.applyOwnerDestroy (s : State) (id policySeq : Nat) : Nat × Bool × State :=
  match s.ownerAt id with
  | none => (0, false, s)
  | some ow => if ow.defn.policySeq ≤ policySeq then (0, false, s.destroyOwner id) else (0, true, s)

/-- One change record: the ACK status it gives. -/
def State.applyRec (s : State) (r : ChangeRec) : Nat × State :=
  let x := match r with
    | .key a stored object => s.applyKey a stored object
    | .destroy o i g => s.applyDestroy o i g
    | .lastGen o i g =>
      (0, false, if tblGet 0 s.keys.lastGen (keyId o i) ≤ g then s.useGen o i g else s)
    | .owner id d => s.applyOwner id d
    | .ownerDestroy id p => s.applyOwnerDestroy id p
    | .approval _ => (0, false, s)
  (x.1, if x.2.1 then x.2.2.setEvt R.TWN_EVT_CONFLICT else x.2.2)

/-- Records one after the other. -/
def State.applyAll (s : State) (l : List ChangeRec) : State := l.foldl (fun s r => (s.applyRec r).2) s

/-- One more commit sent or applied. -/
def State.countCommit (s : State) : State := s.wrapAdd R.TWN_CSEQ_COUNT 1

/-- The peer's commit is applied, then acknowledged (R489). -/
def State.gotCommit (s : State) (r : ChangeRec) : State :=
  let x := s.applyRec r
  x.2.countCommit.sendFrame false (.ack x.1)

/-- COMMIT. -/
def execCommit (hdr : FrameHdr) (rec : ChangeRec) (s : State) : Host.Outcome State Fault Refusal :=
  if s.twn.authed then s.recvFrame hdr true fun s => s.gotCommit rec else s.noEvent

/-- The acknowledgement of the oldest commit: its command completes once every change of it is acknowledged (R489, R490). -/
def State.gotAck (s : State) (status : Nat) : State :=
  match s.commits with
  | [] => s
  | c :: _ =>
    if status = 2 then (s.setEvt R.TWN_EVT_CONFLICT).complete c { status := 0x21 }
    else
      let s := if status = 1 then s.setEvt R.TWN_EVT_CONFLICT else s
      let r : Res := if status = 1 then { c.res with status := 0x50 } else c.res
      if 1 < c.changes.length then s.setCmd { c with changes := c.changes.drop 1, res := r }
      else s.complete c r

/-- ACK. -/
def execAck (hdr : FrameHdr) (status : Nat) (s : State) : Host.Outcome State Fault Refusal :=
  if s.twn.authed && !s.commits.isEmpty then s.recvFrame hdr true fun s => s.gotAck status
  else s.noEvent

/-! Resynchronisation (R493, R495). -/

/-- Both ends are done: PAIRED. -/
def State.resyncDone (s : State) : State :=
  if s.twn.sentEnd && s.twn.gotEnd then
    let s := { s with twn := { s.twn with sentEnd := false, gotEnd := false, journal := [], journalOk := true } }
    (((s.wr R.TWN_STATUS_STATE 4).wr R.TWN_JOURNAL_OVERFLOW 0).setStatus R.GLB_STATUS_TWIN_UP 1).setEvt R.TWN_EVT_RESYNC_DONE
  else s

/-- Received records pass through a resynchronisation buffer in the secure firmware area, whose address the spec leaves open: the access is the Soade link's own. A refused one ends the session with CLOSE, reason 4 (Table 11-2, R481). (DESIGN CHOICE, log entry 69) -/
def State.buffered (s : State) (f : State → State) : State :=
  let (n, s) := s.freeNat 4
  let a := ddrBase + n % 0x40000000 / 64 * 64
  match s.beatRefusal 2 .write .secure a with
  | some (src, e) => (s.violation 2 .secure .write src e a).closeWith (some 4)
  | none => f s

/-- Records of full resynchronisation; a device that had chosen journal mode follows its peer into full mode. -/
def State.gotResync (s : State) (l : List ChangeRec) : State :=
  let s := if s.rd R.TWN_STATUS_MODE = 1 then s.sendResync false else s
  s.buffered fun s => s.applyAll l

/-- RESYNC_DATA. -/
def execResyncData (hdr : FrameHdr) (recs : List ChangeRec) (s : State) : Host.Outcome State Fault Refusal :=
  if s.rd R.TWN_STATUS_STATE = 3 then s.recvFrame hdr true fun s => s.gotResync recs
  else s.noEvent

/-- JOURNAL. -/
def execJournal (hdr : FrameHdr) (recs : List ChangeRec) (s : State) : Host.Outcome State Fault Refusal :=
  if s.rd R.TWN_STATUS_STATE = 3 then s.recvFrame hdr true fun s => s.buffered fun s => s.applyAll recs
  else s.noEvent

/-- RESYNC_END. -/
def execResyncEnd (hdr : FrameHdr) (count : Nat) (s : State) : Host.Outcome State Fault Refusal :=
  let _ := count
  if s.rd R.TWN_STATUS_STATE = 3 then
    s.recvFrame hdr true fun s => ({ s with twn := { s.twn with gotEnd := true } } : State).resyncDone
  else s.noEvent

/-! Restoring a key from the peer (R278, R496). -/

/-- The record of a key of this device, by handle. -/
def State.keyRecord (s : State) (h : Nat) : Option ChangeRec :=
  match s.keyAt (hOwner h) (hIndex h) with
  | some k =>
    if k.attr.gen = hGen h then (s.keyValue (hOwner h) (hIndex h)).map fun v => .key k.attr v k.obj.isSome else none
  | none => none

/-- KEY_REQ: firmware answers with KEY_RESP; without a secure pair in service it is not served (R476). -/
def execKeyReq (hdr : FrameHdr) (handle : Nat) (s : State) : Host.Outcome State Fault Refusal :=
  if s.twn.authed && s.twinRestores then
    s.recvFrame hdr true fun s => if s.secureServing then s.sendFrame false (.keyResp (s.keyRecord handle)) else s
  else s.noEvent

/-- A defective key is placed again under its own handle. -/
def State.restoreKey (s : State) (a : Attr) (stored : List Byte) (object : Bool) : State :=
  match s.keyAt a.owner a.index with
  | some k =>
    if k.loc = .defective ∧ k.attr.gen = a.gen then
      let slot := !object && goesToSlot a.cls stored.length false && !s.freeSlots.isEmpty
      match (s.uncount k.counted k.obj.isSome).placeAt k.attr stored slot k.counted with
      | ((0, _), s') => s'.setEvt R.KS_EVT_RESTORED
      | (_, _) => s
    else s
  | none => s

/-- KEY_RESP. -/
def execKeyResp (hdr : FrameHdr) (rec : Option ChangeRec) (s : State) : Host.Outcome State Fault Refusal :=
  if s.twn.authed && s.twinRestores then
    s.recvFrame hdr true fun s =>
      match rec with
      | some (.key a stored object) => s.restoreKey a stored object
      | _ => s
  else s.noEvent

end Sys2Proof.Machine
end

