-- ==== Sys2Proof/Machine/Reset.lean ====
section
/-! DEFINITION. What each reset keeps and clears, and the start-up sequence (chapter 04). -/

namespace Sys2Proof.Machine

/-! Resets (R55, R67, R76). -/

/-- The TMP_ words that the backup domain holds (R458). -/
def backupWord (off : Nat) : Bool :=
  off == 0x40000 || off == 0x40004 || off == 0x40008 || (decide (0x40018 ≤ off) && decide (off ≤ 0x40024)) ||
    (decide (0x40040 ≤ off) && decide (off ≤ 0x4004C)) || (decide (0x40100 ≤ off) && decide (off < 0x40200))

/-- Whether a register field, by its key, keeps its value over a reset: of the POR group, or of the WARM group only (Table 4-3). TMP_BKP_STATUS.BKP_LOST, which tells of the present start, does not. -/
def keptField (por : Bool) (k : Nat) : Bool :=
  let off := k / 64 % 0x1000000
  (backupWord off && !(off == 0x40024 && k % 64 == 6)) ||
    (!por && ((decide (0x50000 ≤ off) && decide (off < 0x60000)) || (off == 8 && k % 64 == 6) || (off == 0x30020 && k % 64 == 5)))

/-- The alarm sources whose conditions are outside events: 0 to 13 and 23. (DEDUCED, log entry 22) -/
def externalSources : Nat := 2 ^ 14 - 1 + 2 ^ 23

/-- A reset of the POR group (`por`) or of the WARM group: what Table 4-3 does not keep is cleared. -/
def State.resetGroup (s : State) (por : Bool) : State :=
  let s : State := { s with
    regs := s.regs.filter fun e => keptField por e.1
    mem := [], edges := [], bus := {}, cfg := { sideband := s.cfg.sideband && !por }, boot := {}, pwr := {},
    evr := if por then {} else s.evr,
    tmp := { s.tmp with notify := 0, inForce := none, purged := false, zeroing := false, due := [] },
    portA := {}, portB := {}, vfs := [], fns := [], qps := [], dsp := {}, keys := {}, cores := [], mbx := [], act := {}, ddr := [],
    ent := {}, eng := {}, twn := {}, lts := {}, tap := if por then {} else s.tap,
    pins := { s.pins with cmdPulse := false } }
  s.wr R.TMP_COND_SRC (Nat.land (s.rd R.TMP_COND_SRC) externalSources)

/-! Start-up (Table 4-2). -/

/-- The recovery state (R81). -/
def State.enterRecovery (s : State) (cause : Nat) : State :=
  let s := (s.wr R.BOOT_STATUS_STAGE 8).wr R.BOOT_STATUS_RECOVERY_CAUSE cause
  let s := (s.wr R.GLB_BUILD_ID_BUILD_ID 0).wr R.TWN_STATUS_SIDEBAND 0
  ({ s with cfg := { s.cfg with sideband := false } } : State).setStatus R.GLB_STATUS_RECOVERY 1

/-- Step 3: the supervisor and the monitors run, the quadrants start, ports may train; conditions that are present raise. (DEDUCED, log entries 22 and 46) -/
def State.startStep3 (s : State) : State :=
  let s : State := { s with boot := { s.boot with alive := true, startTime := s.time, held := false, heldWarm := false } }
  let s := (List.range 4).foldl (fun (s : State) q => s.wr (R.ENT_QSTAT_STATE.ix q) 1) s
  let s := ((s.trainPort .a).trainPort .b).setCore 0 romCore
  s.raiseAlarms ((List.range 24).filter fun i => (s.rd R.TMP_COND_SRC).testBit i && i != 23)

/-- Step 4: the backup domain, its latched flags, OTP and the life-cycle state (R72, R432, R457, R460). (DEDUCED, log entries 21 and 22) -/
def State.startStep4 (s : State) : State :=
  let lost := !s.tmp.marker
  let s := s.wr R.TMP_BKP_STATUS_BKP_LOST lost.toNat
  let s := if lost then ({ s with tmp := { s.tmp with marker := true } } : State).raiseAlarms [12] else s
  let late := (List.range 24).filter fun i => (s.rd R.TMP_FLAGS_SRC).testBit i && !(s.rd R.TMP_ACTED_SRC).testBit i
  let s := (s.raiseAlarms late true).readOtp
  let s := if s.pins.testHigh && !s.testState then
      (s.wr R.TMP_COND_SRC (bitSet (s.rd R.TMP_COND_SRC) 23)).raiseAlarms [23]
    else s
  if s.lcState = 20 then s.raiseAlarms [19] else s

/-- The hash tile that snoops the image: the lowest that passes its known-answer test at step 4 (R89). (DESIGN CHOICE, log entry 70) -/
def State.snoop (s : State) : Option Nat := (List.range 9).find? fun t => !Config.tileFails s.freeCtr t

/-- The tile that snoops the image is taken. -/
def State.startSnoop (s : State) : State :=
  match s.snoop with
  | some t => { s.wr (R.HSH_TILE_STATE.ix t) 7 with boot := { s.boot with snoopTile := some t } }
  | none => s

/-- Steps 3 to 5: the start runs up to the wait for entropy, or enters the recovery state in RAW, SCRAP and INVALID (R81). -/
def State.start (s : State) : State :=
  let s := s.startStep3.startStep4
  if s.lcState = 0 ∨ s.lcState = 19 ∨ s.lcState = 20 then s.enterRecovery 3
  else s.startSnoop.wr R.BOOT_STATUS_STAGE 2

/-- A start after POR_N: counted, TIME restarted. -/
def State.startPor (s : State) : State :=
  (({ s with time := 0, lc := { s.lc with railsSince := 0 } } : State).satAdd R.TMP_CYCLES_COUNT 1).start

/-- A warm reset: the start runs from step 3, after a life-cycle transition in progress (R67, R440). -/
def State.warmReset (s : State) : State :=
  let s := s.resetGroup false
  if s.lc.busy.isSome then { s with boot := { s.boot with heldWarm := true } } else s.start

/-- The seed of loop `n` from 16 drawn bits: no register is zero, and no two are alike (R450). (DESIGN CHOICE, log entry 8) -/
def loopSeed (n x : Nat) : BitVec 16 := BitVec.ofNat 16 (1 + 4 * (x % 16383) + n)

/-- Step 7: the DDR scrambling key, the context key and BOOT_ID are drawn, a BBK is created if absent, the tamper loops are reseeded (R450), channel DA trains. -/
def State.startStep7 (s : State) : State :=
  if s.recovery || s.boot.keysDrawn || !s.boot.alive then s
  else
    let (k, s) := s.draw 32
    let s := s.fillDevice 3 k
    let (k, s) := s.draw 32
    let s := s.fillDevice 4 k
    let (b, s) := s.draw 8
    let s : State := { s with dsp := { s.dsp with ctxKey := k, bootId := b }, boot := { s.boot with keysDrawn := true } }
    let s := if s.tmp.bbk.isEmpty then
        let (b, s) := s.draw 32
        ({ s with tmp := { s.tmp with bbk := b } } : State)
      else s
    let (l, s) := s.draw 8
    let s : State := { s with tmp := { s.tmp with loops := (List.range 4).map fun n => loopSeed n (leAt l (2 * n) 2) } }
    (s.trainChannel 0).wr R.BOOT_STATUS_STAGE 3

/-- General SRAM is cleared. -/
def State.clearSram (s : State) : State :=
  { s with mem := s.mem.filter fun e => !(decide (sramBase ≤ e.1) && decide (e.1 < sramBase + 0x800000)) }

/-- The image is read in 1-1-1 mode from now on (R78). (DEDUCED, log entry 46) -/
def State.singleMode (s : State) : State :=
  if s.flag R.BOOT_STATUS_XSPI_SINGLE then s else (s.wr R.BOOT_STATUS_XSPI_SINGLE 1).setEvt R.BOOT_EVT_SINGLE_FALLBACK

/-- A copy is invalid: its event, IMAGE_AUTH once per start, general SRAM cleared (R79, R80). -/
def State.copyBad (s : State) (b : Bool) (r : Nat) : State :=
  let s := s.setEvt (if b then R.BOOT_EVT_COPY_B_BAD else R.BOOT_EVT_COPY_A_BAD)
  let s := s.clearSram
  if (r = 4 ∨ r = 5) ∧ s.boot.authRaised = false then
    ({ s with boot := { s.boot with authRaised := true } } : State).raiseAlarms [18]
  else s

/-- A valid copy is applied (steps 9 and 10). -/
def State.useCopy (s : State) (img : ImageRead) : State :=
  let s := (s.wr R.BOOT_STATUS_COPY (if img.copyB then 2 else 1)).wr R.BOOT_STATUS_FORMAT (leAt img.bytes 4 2)
  let s := (s.applyImage img.bytes).wr R.BOOT_STATUS_STAGE 5
  if s.cfg.portBEn then s else s.assertPerst .b

/-- Both copies are invalid: the copies are read again in 1-1-1 mode, or the device enters the recovery state (R78, R81). (DEDUCED, log entry 46) -/
def State.bothBad (s : State) (again : Bool) : State :=
  if again then ((s.wr R.BOOT_STATUS_A_RESULT 0).wr R.BOOT_STATUS_B_RESULT 0).singleMode
  else s.enterRecovery 1

/-- Whether this is the copy that is being read: A first, then B, in the mode chosen. -/
def State.expects (s : State) (img : ImageRead) : Bool :=
  s.boot.alive && s.boot.keysDrawn && !s.boot.applied && !s.recovery &&
    (img.single || !s.flag R.BOOT_STATUS_XSPI_SINGLE) &&
    (if img.copyB then s.rd R.BOOT_STATUS_A_RESULT != 0 && s.rd R.BOOT_STATUS_B_RESULT == 0 else s.rd R.BOOT_STATUS_A_RESULT == 0)

/-- Whether a header failed its CRC in 8D-8D-8D mode. -/
def headerBad (img : ImageRead) : Bool := img.readOk && img.sfdpOk && !img.single && !headerCrc img.bytes

/-- A copy has been read and checked (R78 to R80). (DEDUCED, log entry 46) -/
def State.copyRead (s : State) (img : ImageRead) : State :=
  let r := s.copyResult img
  let s := if img.single then s.singleMode else s
  if img.copyB then
    let again := headerBad img && s.boot.headerBadA
    let s := s.wr R.BOOT_STATUS_B_RESULT r
    if r = 1 then s.useCopy img else (s.copyBad true r).bothBad again
  else
    let s := s.wr R.BOOT_STATUS_A_RESULT r
    let s : State := { s with boot := { s.boot with headerBadA := headerBad img } }
    if r = 1 then s.useCopy img else s.copyBad false r

/-- The order of P-384. -/
def p384Order : Nat :=
  39402006196394479212279040100143613805079739270465446667946905279627659399113263569398956308152294913554433653942643

/-- A device key derived from OTP and the BBK: identity keys and storage root, reserved slots 0 to 2 (R19). The device secret enters the KDF with its least significant byte first. (DEDUCED, log entry 48; DESIGN CHOICE, log entry 70) -/
def State.derivedKey (s : State) (n : Nat) : List Byte :=
  let d := leBytes 32 s.lc.dsec.toNat
  if n = 0 then kdf d "HX960 ID-MLDSA65" [] 256
  else if n = 1 then beBytes 48 (leNat (kdf d "HX960 ID-P384" [] 448).reverse % (p384Order - 1) + 1)
  else kdf d "HX960 SROOT" s.tmp.bbk 256

/-- Step 11: identity keys and storage root go to reserved slots 0 to 2; in RMA none is derived (R19, R442). -/
def State.deviceKeys (s : State) : State :=
  if s.lcState = 18 then s else [0, 1, 2].foldl (fun s n => s.fillDevice n (s.derivedKey n)) s

/-- The pair self-test's outcome (R180). -/
def State.pairTest (s : State) (failed : List Nat) (p : Nat) : State :=
  if failed.contains p then
    ((s.setCore p { s.core p with run := .fenced }).setEvt R.CCS_EVT_SELFTEST_FAIL p).setEvt R.CCS_EVT_FENCED p
  else s.wr (R.CCS_PAIR_SELFTEST_OK.ix p) 1

/-- Step 13: boot ROM ends; the secure pairs that are not fenced start with secure firmware. (DEDUCED, log entry 48) -/
def State.startPairs (s : State) : State :=
  [0, 1].foldl (fun (s : State) p => if (s.core p).run = .fenced then s else s.startSecure p s.boot.secureEntry) s

/-- Steps 11 and 13 (R73, R180). (DEDUCED, log entry 37) -/
def State.katDone (s : State) (units : List (Nat × Nat × TestFail)) (pairs : List Nat) : State :=
  let s := s.deviceKeys
  let s := units.foldl (fun s u => s.failAtStart (poolOf u.1) u.2.1 u.2.2) s
  let s := allPools.foldl State.assignRoles s
  let s := (s.wr R.GLB_CAPACITY_SLOTS_SLOTS 4096).wr R.GLB_CAPACITY_SLOTS_SPARES 256
  let s := [0, 1, 2, 3].foldl (fun s p => s.pairTest pairs p) s
  let s : State := { s with boot := { s.boot with katDone := true } }
  (s.recapacity s.cfg.floors).startPairs.wr R.BOOT_STATUS_STAGE 6

/-- Step 12: channel DA has trained and its first 1 GiB is filled. -/
def State.step12 (s : State) : Bool :=
  s.chanUp 0 && (decide (16384 ≤ (s.chan 0).sweep) || s.flag (R.MEM_FILL_DONE.mem 0))

/-- READY rises (step 14); the tile that snooped the image returns to service (R89). -/
def State.readyUp (s : State) : State :=
  let s := (s.wr R.BOOT_STATUS_STAGE 7).wr R.BOOT_TIME_READY_US (min ((s.time - s.boot.startTime) / 100) (2 ^ 24 - 1))
  let s := match s.boot.snoopTile with
    | some t => if s.rd (R.HSH_TILE_STATE.ix t) = 7 then s.wr (R.HSH_TILE_STATE.ix t) (if s.isTesting .hash t then 3 else 1) else s
    | none => s
  ({ s with boot := { s.boot with cfgOpen := true, snoopTile := none } } : State).setStatus R.GLB_STATUS_READY 1

end Sys2Proof.Machine
end

