-- ==== Sys2Proof/Machine/Boot.lean ====
section
/-! DEFINITION. The commands and events of start-up, of resets and of the flash pass-through (chapters 02, 04). -/

namespace Sys2Proof.Machine

/-- POR_N_FALL: the POR group and every group after it are reset (R67). -/
def execPorNFall (s : State) : Host.Outcome State Fault Refusal :=
  if s.pins.porN then .next (({ s with pins := { s.pins with porN := false } } : State).resetGroup true)
  else s.noEvent

/-- POR_N rises: TW_ROLE is sampled; the start begins, or is held until PWRGD is high or a transition has ended (R37, R68, R440). -/
def State.porRise (s : State) : State :=
  let s : State := { s with
    pins := { s.pins with porN := true, twRole := s.pins.twRoleStrap }, tmp := { s.tmp with mainPower := true } }
  if s.lc.busy.isSome || !s.pins.pwrgd then { s with boot := { s.boot with held := true } } else s.startPor

/-- POR_N_RISE. -/
def execPorNRise (s : State) : Host.Outcome State Fault Refusal :=
  if s.pins.porN then s.noEvent else .next s.porRise

/-- PWRGD_RISE. -/
def execPwrgdRise (s : State) : Host.Outcome State Fault Refusal :=
  if s.pins.pwrgd then s.noEvent
  else
    let s : State := { s with pins := { s.pins with pwrgd := true }, lc := { s.lc with railsSince := s.time } }
    .next (if s.boot.held && s.lc.busy.isNone then s.startPor else s)

/-- PWRGD_FALL: it causes no reset (R68). -/
def execPwrgdFall (s : State) : Host.Outcome State Fault Refusal :=
  if s.pins.pwrgd then
    let s : State := { s with pins := { s.pins with pwrgd := false } }
    .next (if s.boot.alive then s.setEvt R.BOOT_EVT_PWRGD_LOW else s)
  else s.noEvent

/-- WRST_N_PULSE: with POR_N low the device is in reset already. -/
def execWrstNPulse (s : State) : Host.Outcome State Fault Refusal :=
  .next (if s.pins.porN && !s.boot.held then s.warmReset else s)

/-- BOOT_RESET: 0x5A starts a warm reset; other values are ignored. -/
def execBootReset (who : Requester) (complement : Word32) (s : State) : Host.Outcome State Fault Refusal :=
  .next (s.writeGuarded who 0x20008 complement.toNat fun v s => if bits v 0 8 = 0x5A then s.warmReset else s)

/-- IMAGE_COPY_READ_DONE: under EXTEST the flash does not answer (R445). -/
def execImageCopyReadDone (img : ImageRead) (s : State) : Host.Outcome State Fault Refusal :=
  if s.expects img && !(s.tap.extest && img.readOk) then .next (s.copyRead img) else s.noEvent

/-- Whether a unit and a test of step 11 can be named: code-based engines run tests 1, 2, 4 and 5 there (R73, R408). -/
def katFails (u : Nat × Nat × TestFail) : Bool :=
  decide (u.1 < 5) && decide (u.2.1 < poolSize (poolOf u.1)) && testCause (poolOf u.1) u.2.2.test != 0 && !(u.1 == 3 && u.2.2.test == 3)

/-- BOOT_KAT_DONE. -/
def execBootKatDone (failedUnits : List (Nat × Nat × TestFail)) (failedPairs : List Nat) (s : State) :
    Host.Outcome State Fault Refusal :=
  if s.boot.applied && !s.boot.katDone &&
      failedUnits.all katFails && failedPairs.all (fun p => decide (p < 4)) then
    .next (s.katDone failedUnits failedPairs)
  else s.noEvent

/-- READY_RISE: FW_READY is written and step 12 has finished (R71). -/
def execReadyRise (s : State) : Host.Outcome State Fault Refusal :=
  if s.boot.katDone && s.flag R.BOOT_CTRL_FW_READY && s.step12 && !s.flag R.GLB_STATUS_READY then .next s.readyUp
  else s.noEvent

/-- READY_TIMEOUT: 900 ms after the start reference, or the end of the recovery start (R71, R81). -/
def execReadyTimeout (s : State) : Host.Outcome State Fault Refusal :=
  if s.boot.alive && !s.flag R.GLB_STATUS_READY && !s.boot.limit then
    .next { s with boot := { s.boot with limit := true, cfgOpen := true } }
  else s.noEvent

/-- ENTROPY_START_TIMEOUT (R75): a device that is in the recovery state already raises the alarm too and keeps its cause. (DESIGN CHOICE, log entry 70) -/
def execEntropyStartTimeout (s : State) : Host.Outcome State Fault Refusal :=
  if s.boot.alive && !s.boot.keysDrawn && !s.flag R.ENT_STATUS_READY then
    .next (if s.recovery then s.raiseAlarms [14] else (s.raiseAlarms [14]).enterRecovery 2)
  else s.noEvent

/-- FW_READY is set by a write of 1 and cleared by resets only. -/
def State.fwReady (s : State) (val : Nat) : State := if val.testBit 0 then s.wr R.BOOT_CTRL_FW_READY 1 else s

/-- FW_READY_WRITE. -/
def execFwReadyWrite (who : Requester) (value : Word32) (s : State) : Host.Outcome State Fault Refusal :=
  .next (s.gated who 0x20010 value.toNat fun s => s.fwReady value.toNat)

/-! Flash pass-through (R93). -/

/-- The transfer buffer. -/
def State.ptBuf (s : State) : List Byte := (List.range 64).flatMap fun w => leBytes 4 (s.rd (R.BOOT_PT_BUF_DATA.ix w))

/-- A write to BOOT_PT_GO: the command goes to the flash, with the buffer's bytes where it writes. -/
def State.ptGo (s : State) (who : Requester) (val : Nat) : State :=
  if !isSecure who || !s.flag R.GLB_STATUS_READY || !s.domAnswers 26 then s.errorWrite who (regBase + 0x20028)
  else if !val.testBit 0 || s.flag R.BOOT_PT_STAT_BUSY then s
  else
    let len := s.rd R.BOOT_PT_CMD_LEN
    if 256 < len then (s.wr R.BOOT_PT_STAT_RESULT 2).setEvt R.BOOT_EVT_PT_ERROR
    else
      let cmd := if s.flag R.BOOT_STATUS_XSPI_SINGLE then s.rd R.BOOT_PT_CMD_CMD % 256 else s.rd R.BOOT_PT_CMD_CMD
      let addr := if s.flag R.BOOT_PT_CMD_ADDR_EN then s.rd R.BOOT_PT_ADDR_ADDR else 0
      let s := (s.wr R.BOOT_PT_STAT_BUSY 1).wr R.BOOT_PT_STAT_RESULT 0
      let dir := s.flag R.BOOT_PT_CMD_DIR
      ({ s with boot := { s.boot with ptCmd := some (cmd, addr, len, dir) } } : State).emit
        (.flash cmd addr len (!dir) (s.rd R.BOOT_PT_CMD_ADDR_EN) (s.rd R.BOOT_PT_CMD_DUMMY) (if dir then [] else s.ptBuf.take len))

/-- BOOT_PT_GO. -/
def execBootPtGo (who : Requester) (value : Word32) (s : State) : Host.Outcome State Fault Refusal :=
  .next (s.gated who 0x20028 value.toNat fun s => s.ptGo who value.toNat)

/-- Bytes of the transfer buffer from word 0 on. -/
def putPtBuf (l : List Byte) : Nat → State → State
  | 0, s => s
  | n + 1, s => (putPtBuf l n s).wr (R.BOOT_PT_BUF_DATA.ix n) (leAt l (4 * n) 4)

/-- PT_COMMAND_DONE: result 0 or 3; the bytes read go to the buffer. (DEDUCED, log entry 48) -/
def execPtCommandDone (result : Nat) (data : List Byte) (s : State) : Host.Outcome State Fault Refusal :=
  match s.boot.ptCmd with
  | some (_, _, len, dir) =>
    if (result = 0 ∧ s.tap.extest = false) ∨ result = 3 then
      let s := if dir ∧ result = 0 then putPtBuf (fit len data ++ s.ptBuf.drop len) 64 s else s
      let s : State := { s with boot := { s.boot with ptCmd := none } }
      let s := (s.wr R.BOOT_PT_STAT_BUSY 0).wr R.BOOT_PT_STAT_RESULT result
      .next (s.setEvt (if result = 0 then R.BOOT_EVT_PT_DONE else R.BOOT_EVT_PT_ERROR))
    else s.noEvent
  | none => s.noEvent

/-! The end of a life-cycle transition (R439, R440). -/

/-- A start that waited for the transition begins. (DESIGN CHOICE, log entry 45) -/
def State.releaseHeld (s : State) : State :=
  if s.boot.heldWarm then ((s.clearRegs 0x30024 0x30030).wr R.LC_STATUS_RESULT 0).start
  else if s.boot.held && s.pins.pwrgd then ((s.clearRegs 0x30024 0x30030).wr R.LC_STATUS_RESULT 0).startPor
  else s

/-- LC_TRANSITION_DONE: the copy and the bits that a failure left are given by the event. -/
def execLcTransitionDone (failed : Option (Nat × BitVec 64)) (s : State) : Host.Outcome State Fault Refusal :=
  match s.lc.busy with
  | some r => .next ((s.lcEnd r.target failed).releaseHeld)
  | none => s.noEvent

/-! Device power (R63). -/

/-- The kill word was being programmed: the bits that power loss left are a free value (R453). (DESIGN CHOICE, log entry 45) -/
def State.killCut (s : State) : State :=
  if s.tmp.killing then
    let (k, s) := s.freeNat 1
    let (b, s) := s.freeNat 16
    { s with
      tmp := { s.tmp with killing := false },
      lc := { s.lc with kill := (List.range 3).map fun i =>
        if i < k % 3 then BitVec.allOnes 128 else if i = k % 3 then s.lc.kill.getD i 0 ||| BitVec.ofNat 128 b else s.lc.kill.getD i 0 } }
  else s

/-- DEVICE_POWER_FAIL: the backup domain goes on, from VBAT where VDDIO is gone too; the next start is a power-on. (DESIGN CHOICE, log entry 45) -/
def execDevicePowerFail (vbat : Bool) (s : State) : Host.Outcome State Fault Refusal :=
  let s := s.lcCut.killCut
  let s : State := { s with
    pins := { s.pins with porN := false, pwrgd := false }, tmp := { s.tmp with mainPower := !vbat } }
  .next (s.resetGroup true)

/-- STATUS_COMMAND_PULSE_END (R39). -/
def execStatusCommandPulseEnd (s : State) : Host.Outcome State Fault Refusal :=
  if s.pins.cmdPulse then .next { s with pins := { s.pins with cmdPulse := false } }
  else s.noEvent

end Sys2Proof.Machine
end

