-- ==== Sys2Proof/Machine/CoreMem.lean ====
section
/-! DEFINITION. Loads, stores and atomic accesses of a pair to memory (chapter 08). -/

namespace Sys2Proof.Machine

/-- Whether an access of a pair to memory has to go to the ring: it does not hit the data cache. -/
def State.leavesPair (s : State) (p a : Nat) : Bool :=
  match memType a with
  | .cached _ => (cacheHit (s.core p).dcache (s.worldOfPair p) a).isNone
  | _ => true

/-- Whether an access of a pair waits at the access table (R245). (DEDUCED, log entry 19) -/
def State.wouldHold (s : State) (p a : Nat) : Bool := s.flag R.ACT_CTRL_UPDATE && (s.core p).level != .m && s.leavesPair p a

/-- An access of a pair is held at the table; a store is carried out from there, a load is carried out anew by its instruction. (DEDUCED, log entry 19) -/
def State.holdAccess (s : State) (p : Nat) (kind : AccKind) (a : Nat) (data : List Byte) : State :=
  s.hold { cls := pairClass p (s.worldOfPair p), world := s.worldOfPair p, origin := .mem (s.reqOf p), addr := a, kind := kind, data := data,
           len := data.length }

/-- A load from cacheable memory: a hit is not checked again (R241), a miss fills the line. `none` for an error response. (DEDUCED, log entry 27) -/
def State.cachedLoad (s : State) (p a n : Nat) : Option (List Byte) × State :=
  let w := s.worldOfPair p
  match cacheHit (s.core p).dcache w a with
  | some _ => (some (s.bytes a n), s)
  | none =>
    match s.fillData p w a with
    | (true, s) => (some (s.bytes a n), s)
    | (false, s) => (none, s)

/-- Whether the table lets a pair write the line of an address. -/
def State.writable (s : State) (p a : Nat) : Option (Nat × Nat) :=
  s.beatRefusal (pairClass p (s.worldOfPair p)) .write (s.worldOfPair p) a

/-- The write half of an access of a pair is refused. (DESIGN CHOICE, log entry 28) -/
def State.refuseCore (s : State) (p a src e : Nat) : State :=
  s.violation (pairClass p (s.worldOfPair p)) (s.worldOfPair p) .write src e a

/-- A line of the data cache for writing: a hit as it is; a miss is filled and checked for writing. `none` for an error response. (DEDUCED, log entry 27) -/
def State.lineToWrite (s : State) (p a : Nat) : Option CacheLine × State :=
  let w := s.worldOfPair p
  match cacheHit (s.core p).dcache w a with
  | some x => (some x, s)
  | none =>
    match s.fillData p w a with
    | (false, s) => (none, s)
    | (true, s) =>
      match s.writable p a with
      | some (src, e) => (none, s.refuseCore p a src e)
      | none => (cacheHit (s.core p).dcache w a, s)

/-- A store of a pair to cacheable or uncached memory; an error response is imprecise (R192). (DESIGN CHOICE, log entry 28) -/
def State.storeMem (s : State) (p a : Nat) (l : List Byte) : State :=
  match memType a with
  | .cached _ =>
    (match s.lineToWrite p a with
     | (some x, s) => s.storeHit p x a l
     | (none, s) => s.errorWrite (s.reqOf p) a)
  | _ =>
    let (ok, s) := s.writeMem (pairClass p (s.worldOfPair p)) (s.worldOfPair p) a l
    if ok then s else s.errorWrite (s.reqOf p) a

/-- A load from an operand window. -/
def State.uncachedLoad (s : State) (p a n : Nat) : Option (List Byte) × State :=
  let w := s.worldOfPair p
  let (l, ok, s) := s.readMem (pairClass p w) w .read a n
  (if ok then some l else none, s)

/-- Whether the write-back of a line would be carried out (R240). -/
def State.writeBackOk (s : State) (p : Nat) (x : CacheLine) : Bool :=
  (s.firstRefusal (pairClass p x.world) .write x.world (beats x.addr 64)).isNone && (beats x.addr 64).all fun b => s.memUp b.1

/-- Cleaning a line of the data cache: it is written back and stays, or leaves the cache where the write-back is refused, and with it a reservation on it (R189). (DEDUCED, log entry 27) -/
def State.cleanCache (s : State) (p : Nat) (x : CacheLine) : State :=
  let ok := s.writeBackOk p x
  let s := s.writeBack p x
  if !x.dirty then s
  else
    let c := s.core p
    let rest := cacheDrop c.dcache x.addr
    if ok then s.setCore p { c with dcache := { x with dirty := false, data := [] } :: rest }
    else s.setCore p { c with dcache := rest, resv := if c.resv = some (x.addr / 64) then none else c.resv }

end Sys2Proof.Machine
end

