-- ==== Sys2Proof/Machine/Algs.lean ====
section
/-! DEFINITION. The algorithms of Table 7-8B: their classes, sizes, permitted uses and pools (chapters 07, 12, 14 to 17). -/

namespace Sys2Proof.Machine

/-- The family of a code: its high byte. -/
def algFamily (a : Nat) : Nat := a / 256

/-- How many codes each family has. -/
def familyCodes : List Nat := [0, 3, 3, 12, 3, 4, 3, 4, 3, 2, 10, 6, 1]

/-- Whether a code is in Table 7-8B. -/
def algListed (a : Nat) : Bool := decide (1 ≤ a % 256) && decide (a % 256 ≤ familyCodes.getD (algFamily a) 0)

/-- The CLASS of the private or secret key of an algorithm; 0 where it has none (Table 7-8A, R378). -/
def privClass (a : Nat) : Nat := [0, 2, 2, 4, 0, 6, 8, 8, 0xA, 1, 0, 0xC, 0xC].getD (algFamily a) 0

/-- Whether a code names a secret-key algorithm: AES, HMAC, KMAC, generic secret. AES-CMAC uses AES keys. -/
def symAlg (a : Nat) : Bool := algFamily a == 9 || (algFamily a == 0xB && a != 0x0B06) || algFamily a == 0xC

/-- The CLASS of a new private or secret key of an algorithm; 0 where no key of it can be made. -/
def keyClass (a : Nat) : Nat := if a = 0x0B06 then 0 else privClass a

/-- The CLASS of the public key of an algorithm; 0 where it has none. -/
def pubClass (a : Nat) : Nat := [0, 3, 3, 5, 5, 7, 9, 9, 0xB].getD (algFamily a) 0

/-- Bits of USAGE (R161). -/
def uEncrypt : Nat := 1

/-- Decrypt. -/
def uDecrypt : Nat := 2

/-- Sign. -/
def uSign : Nat := 4

/-- Verify. -/
def uVerify : Nat := 8

/-- Wrap. -/
def uWrap : Nat := 16

/-- Unwrap. -/
def uUnwrap : Nat := 32

/-- Derive. -/
def uDerive : Nat := 64

/-- MAC. -/
def uMac : Nat := 128

/-- Agree. -/
def uAgree : Nat := 256

/-- Encapsulate. -/
def uEncaps : Nat := 512

/-- Decapsulate. -/
def uDecaps : Nat := 1024

/-- Usage bits that a private or secret key may have (Table 12-5). -/
def privUses (a : Nat) : Nat :=
  if algFamily a = 1 ∨ algFamily a = 5 then uDecaps
  else if algFamily a = 2 ∨ algFamily a = 3 then uSign
  else if algFamily a = 6 then uSign + uAgree
  else if algFamily a = 7 then (if a % 256 ≤ 2 then uSign else uAgree)
  else if algFamily a = 8 then uSign + uDecrypt
  else if algFamily a = 9 then uEncrypt + uDecrypt + uWrap + uUnwrap + uMac
  else if algFamily a = 0xB then uMac + uDerive
  else if algFamily a = 0xC then uDerive else 0

/-- Usage bits that a public key may have (Table 12-5). -/
def pubUses (a : Nat) : Nat :=
  if algFamily a = 1 ∨ algFamily a = 5 then uEncaps
  else if algFamily a = 2 ∨ algFamily a = 3 ∨ algFamily a = 4 then uVerify
  else if algFamily a = 6 then uVerify + uAgree
  else if algFamily a = 7 then (if a % 256 ≤ 2 then uVerify else uAgree)
  else if algFamily a = 8 then uVerify + uEncrypt else 0

/-- Whether a set of usage bits lies within another. -/
def usesWithin (u m : Nat) : Bool := Nat.land u m == u

/-- The usage of the public object of a private key: sign → verify, decrypt → encrypt, agree → agree, decapsulate → encapsulate (R329, R372, R389, R396). -/
def pubUsage (u : Nat) : Nat :=
  (if u.testBit 2 then uVerify else 0) + (if u.testBit 1 then uEncrypt else 0) + (if u.testBit 8 then uAgree else 0) +
    (if u.testBit 10 then uEncaps else 0)

/-- The security parameter n of an SLH-DSA set (Table 15-4). -/
def slhN (a : Nat) : Nat := if a % 256 ≤ 4 then 16 else if a % 256 ≤ 8 then 24 else 32

/-- Bytes of a P-curve's field and order. -/
def curveLen (a : Nat) : Nat := [0, 32, 48, 66].getD (a % 256) 0

/-- Bytes k of an RSA modulus. -/
def rsaK (a : Nat) : Nat := [0, 256, 384, 512].getD (a % 256) 0

/-- Bytes of the stored form (Table 12-3); `keyLen` for HMAC, KMAC and generic secrets. -/
def storedLen (a keyLen : Nat) : Nat :=
  let i := a % 256
  [0, 64, 32, 4 * slhN a, 0, if i ≤ 2 then 6492 else 13608, curveLen a, [0, 32, 57, 32, 56].getD i 0,
    [0, 900, 1348, 1796].getD i 0, [0, 16, 32].getD i 0, 0, keyLen, keyLen].getD (algFamily a) 0

/-- Bytes of a public key that the device makes; 0 where the length depends on the key (Tables 14-1, 15-4, 16-1, 16-6). -/
def pubLen (a : Nat) : Nat :=
  let i := a % 256
  [0, [0, 800, 1184, 1568].getD i 0, [0, 1312, 1952, 2592].getD i 0, 2 * slhN a, 0, if i ≤ 2 then 261120 else 524160,
    2 * curveLen a + 1, [0, 32, 57, 32, 56].getD i 0, [0, 270, 398, 526].getD i 0].getD (algFamily a) 0

/-- Bytes of a KEM ciphertext. -/
def ctLen (a : Nat) : Nat :=
  if algFamily a = 1 then [0, 768, 1088, 1568].getD (a % 256) 0 else if a % 256 ≤ 2 then 96 else 156

/-- Bytes of a signature; 0 for the hash-based sets that SIG_LEN follows the type codes of. -/
def sigLen (a : Nat) : Nat :=
  let i := a % 256
  [0, 0, [0, 2420, 3309, 4627].getD i 0,
    [0, 7856, 7856, 17088, 17088, 16224, 16224, 35664, 35664, 29792, 29792, 49856, 49856].getD i 0, 0, 0, 2 * curveLen a,
    [0, 64, 114].getD i 0, rsaK a].getD (algFamily a) 0

/-- Bytes of a shared secret of KEY_AGREE. -/
def agreeLen (a : Nat) : Nat := if algFamily a = 6 then curveLen a else [0, 0, 0, 32, 56].getD (a % 256) 0

/-- Bytes of a fixed digest by the low byte of its code (Table 15-2); 0 for SHAKE and cSHAKE. -/
def digestLen (i : Nat) : Nat := [0, 32, 48, 64, 32, 48, 64].getD i 0

/-- Bytes of the digest of a PH_ALG (Table 14-3, R373). -/
def phLen (i : Nat) : Nat := if i = 7 then 32 else if i = 8 then 64 else digestLen i

/-- Bytes of a MAC's tag: HMAC digest, CMAC block, KMAC_LEN. -/
def tagLen (a kmacLen : Nat) : Nat := if a = 0x0B06 then 16 else if a ≤ 0x0B03 then digestLen (a % 256) else kmacLen

/-- The pool that runs an asymmetric algorithm (chapters 14 to 16). -/
def algPool (a : Nat) : Pool :=
  if algFamily a ≤ 2 then .lattice else if algFamily a ≤ 4 then .hash else if algFamily a = 5 then .code else .bignum

/-- The PH_ALG values an algorithm accepts with a MODE (Tables 14-3, 16-8, R373, R378). -/
def phAccepted (a mode ph : Nat) : Bool :=
  let pre := mode == 1 || mode == 2
  if algFamily a = 2 then (mode == 0 && ph == 0) || (pre && [1, 3, 7].contains ph)
  else if algFamily a = 3 then (mode == 0 && ph == 0) || (pre && [1, 3, 7, 8].contains ph)
  else if algFamily a = 4 then mode == 0 && ph == 0
  else if algFamily a = 6 then pre && decide (1 ≤ ph) && decide (ph ≤ 6)
  else if a = 0x0701 then (mode == 0 && ph == 0) || (pre && ph == 3)
  else if a = 0x0702 then (mode == 0 && ph == 0) || (pre && ph == 8)
  else if algFamily a = 8 then pre && decide (1 ≤ ph) && decide (ph ≤ 3)
  else false

/-- The PAD and SALT_LEN values an algorithm accepts. -/
def padAccepted (a ph pad salt : Nat) : Bool :=
  if algFamily a = 8 then (pad == 0 && salt == 0) || (pad == 1 && decide (salt ≤ phLen ph)) else pad == 0 && salt == 0

/-- Whether an algorithm accepts a context of this length. -/
def ctxAccepted (a len : Nat) : Bool := len == 0 || algFamily a == 2 || algFamily a == 3 || a == 0x0701 || a == 0x0702

/-- Whether an algorithm accepts DETERMINISTIC = 1. -/
def detAccepted (a : Nat) : Bool := algFamily a == 2 || algFamily a == 3 || algFamily a == 6

/-- Whether a stored form or a public key of an import has the length its algorithm calls for (R326, R378, Table 16-6). -/
def importLen (a len : Nat) (pub : Bool) : Bool :=
  if pub then pubLen a == len || algFamily a == 4 || (algFamily a == 8 && decide (rsaK a < len))
  else if algFamily a = 0xB ∨ algFamily a = 0xC then decide (16 ≤ len) && decide (len ≤ 128)
  else storedLen a 0 == len

/-- The public key that a stored form belongs to. -/
def pubOf (a : Nat) (stored : List Byte) : List Byte :=
  if algFamily a = 3 then stored.drop (2 * slhN a) else publicOf a stored (pubLen a)

end Sys2Proof.Machine
end

