-- ==== Sys2Proof/Machine/Curves.lean ====
section
/-! DEFINITION. The validation stage of a big-number unit, check by check (R395, R402, Table 16-9). The parameter sets are those of FIPS 186-5, RFC 7748 and RFC 8032, which the spec names without printing them. -/

namespace Sys2Proof.Machine

/-- Powers modulo `m`: base, exponent of at most `fuel` bits, product so far. -/
def powMod (m : Nat) : Nat → Nat → Nat → Nat → Nat
  | 0, _, _, r => r
  | n + 1, b, e, r => powMod m n (b * b % m) (e / 2) (if e % 2 = 1 then r * b % m else r)

/-- The inverse modulo a prime. -/
def invMod (p v : Nat) : Nat := powMod p 521 v (p - 2) 1

/-! P-curves: y² = x³ − 3x + b. -/

/-- The prime of a P-curve. (PRESUMED, log entry 72) -/
def curvePrime (a : Nat) : Nat :=
  [0, 2 ^ 256 - 2 ^ 224 + 2 ^ 192 + 2 ^ 96 - 1, 2 ^ 384 - 2 ^ 128 - 2 ^ 96 + 2 ^ 32 - 1, 2 ^ 521 - 1].getD (a % 256) 0

/-- The order of a P-curve's generator. (PRESUMED, log entry 72) -/
def curveOrder (a : Nat) : Nat :=
  [0, 0xFFFFFFFF00000000FFFFFFFFFFFFFFFFBCE6FAADA7179E84F3B9CAC2FC632551,
    2 ^ 384 - 0x389CB27E0BC8D220A7E5F24DB74F58851313E695333AD68D,
    2 ^ 521 - 0x5AE79787C40D069948033FEB708F65A2FC44A36477663B851449048E16EC79BF7].getD (a % 256) 0

/-- The coefficient b of a P-curve. (PRESUMED, log entry 72) -/
def curveB (a : Nat) : Nat :=
  [0, 0x5AC635D8AA3A93E7B3EBBD55769886BC651D06B0CC53B0F63BCE3C3E27D2604B,
    0xB3312FA7E23EE7E4988E056BE3F82D19181D9C6EFE8141120314088F5013875AC656398D8A2ED19D2A85C8EDD3EC2AEF,
    0x51953EB9618E1C9A1F929A21A0B68540EEA2DA725B99B315F3B8B489918EF109E156193951EC7E937B1652C0BD3BB1BF073573DF883D2C34F1EF451FD46B503F00].getD
      (a % 256) 0

/-- A point in SEC1 uncompressed form: first byte 0x04, both coordinates below p, on the curve. -/
def pointOk (a : Nat) (l : List Byte) : Bool :=
  let p := curvePrime a
  let x := beNat (slice l 1 (curveLen a))
  let y := beNat (slice l (1 + curveLen a) (curveLen a))
  l.take 1 == [4] && decide (x < p) && decide (y < p) && y * y % p == (x * x * x + (p - 3) * x + curveB a) % p

/-- A number in [1, n − 1]. -/
def scalarOk (a v : Nat) : Bool := decide (0 < v) && decide (v < curveOrder a)

/-- The r and s of an ECDSA signature. -/
def ecdsaOk (a : Nat) (sig : List Byte) : Bool :=
  scalarOk a (beNat (sig.take (curveLen a))) && scalarOk a (beNat (sig.drop (curveLen a)))

/-- The private scalar of the extra-random-bits method: N + 64 random bits, reduced modulo n − 1, plus 1 (R396). -/
def extraBits (a : Nat) (k : List Byte) : List Byte :=
  beBytes (curveLen a) (beNat k % 2 ^ ([0, 320, 448, 585].getD (a % 256) 0) % (curveOrder a - 1) + 1)

/-! Edwards and Montgomery curves. -/

/-- The prime of Ed25519 and X25519, and of Ed448 and X448. (PRESUMED, log entry 72) -/
def edPrime (a : Nat) : Nat := if a % 2 = 1 then 2 ^ 255 - 19 else 2 ^ 448 - 2 ^ 224 - 1

/-- The order L of the base point. (PRESUMED, log entry 72) -/
def edOrder (a : Nat) : Nat :=
  if a % 2 = 1 then 2 ^ 252 + 27742317777372353535851937790883648493
  else 2 ^ 446 - 13818066809895115352007386748515426880336692474882178609894547503885

/-- The coefficients of a·x² + y² = 1 + d·x²·y². (PRESUMED, log entry 72) -/
def edCoeffs (a : Nat) : Nat × Nat :=
  let p := edPrime a
  if a % 2 = 1 then (p - 1, 0x52036CEE2B6FFE738CC740797779E89800700A4D4141D8AB75EB4DCA135978A3) else (1, p - 39081)

/-- The y of an encoded point: the encoding without its top bit, which is the sign of x. -/
def edY (l : List Byte) : Nat := leNat l % 2 ^ (8 * l.length - 1)

/-- The sign bit of an encoded point. -/
def edSign (l : List Byte) : Bool := (leNat l).testBit (8 * l.length - 1)

/-- x² of the point with a given y. -/
def edX2 (a y : Nat) : Nat :=
  let p := edPrime a
  let (ca, cd) := edCoeffs a
  (y * y + (p - 1)) * invMod p ((cd * (y * y % p) + (p - ca)) % p) % p

/-- The y of the double of a point. -/
def edDouble (a y : Nat) : Nat :=
  let p := edPrime a
  let (ca, cd) := edCoeffs a
  let u := edX2 a y
  (y * y + (p - ca) * u) * invMod p ((1 + (p - cd) * (u * (y * y % p) % p)) % p) % p

/-- Whether an encoding is canonical and decodes to a point of the curve. -/
def edPointOk (a : Nat) (l : List Byte) : Bool :=
  let p := edPrime a
  let u := edX2 a (edY l)
  decide (edY l < p) && ((u == 0 && !edSign l) || powMod p 521 u ((p - 1) / 2) 1 == 1)

/-- Whether a point has small order: eight times, or for Ed448 four times, the point is the identity. -/
def edSmall (a : Nat) (l : List Byte) : Bool :=
  let y := edDouble a (edDouble a (edY l))
  (if a % 2 = 1 then edDouble a y else y) == 1

/-- The public key A, and R and S of a signature. -/
def eddsaOk (a : Nat) (pk sig : List Byte) : Bool :=
  let n := pubLen a
  edPointOk a pk && !edSmall a pk && edPointOk a (sig.take n) && decide (leNat (sig.drop n) < edOrder a)

/-- A peer key of X25519, whose bit 255 is cleared first, or of X448. -/
def montOk (a : Nat) (l : List Byte) : Bool := decide ((if a % 2 = 1 then leNat l % 2 ^ 255 else leNat l) < edPrime a)

/-! RSA. -/

/-- A DER header with its length in the shortest form. -/
def derHead (tag : Byte) (n : Nat) : List Byte :=
  tag :: (if n < 128 then leBytes 1 n else if n < 256 then 0x81 :: leBytes 1 n else 0x82 :: beBytes 2 n)

/-- A DER INTEGER of a number that is not negative: a sign octet where its top bit is set. -/
def derInt (v : Nat) : List Byte :=
  let b := minBytes 1024 v
  let b := if (b.headD 0).getLsbD 7 then 0 :: b else b
  derHead 2 b.length ++ b

/-- The DER RSAPublicKey of a modulus and an exponent. -/
def rsaDer (n e : Nat) : List Byte := let b := derInt n ++ derInt e; derHead 0x30 b.length ++ b

/-- The modulus in an RSA public key of `k` bytes. -/
def rsaN (a : Nat) (pk : List Byte) : Nat := beNat (slice pk 9 (rsaK a))

/-- The exponent in it. -/
def rsaE (a : Nat) (pk : List Byte) : Nat := beNat (pk.drop (11 + rsaK a))

/-- An exponent is odd and in the range of R395. -/
def expOk (e : Nat) : Bool := e % 2 == 1 && decide (65537 ≤ e) && decide (e < 2 ^ 32)

/-- An RSA public key: n odd and of exactly k bytes, e as R395 has it, in DER. -/
def rsaPubOk (a : Nat) (pk : List Byte) : Bool :=
  let n := rsaN a pk
  pk == rsaDer n (rsaE a pk) && n % 2 == 1 && decide (2 ^ (8 * rsaK a - 1) ≤ n) && expOk (rsaE a pk)

/-- A signature or ciphertext lies in [2, n − 2]. -/
def rsaRange (n : Nat) (l : List Byte) : Bool := decide (2 ≤ beNat l) && decide (beNat l + 2 ≤ n)

/-- An RSA private key as it is imported: n = p·q, the exponents and the coefficient agree; its public part is checked as well. -/
def rsaPrivOk (a : Nat) (l : List Byte) : Bool :=
  let k := rsaK a
  let h := k / 2
  let at' := fun i => beNat (slice l (k + 4 + i * h) h)
  let n := beNat (l.take k)
  let e := beNat (slice l k 4)
  let p := at' 0
  let q := at' 1
  n == p * q && e * at' 2 % (p - 1) == 1 && e * at' 3 % (q - 1) == 1 && q * at' 4 % p == 1 && n % 2 == 1 && decide (2 ^ (8 * k - 1) ≤ n) && expOk e

/-! The stage. -/

/-- The public inputs of VERIFY: public key and signature. -/
def verifyInputs (a : Nat) (pk sig : List Byte) : Bool :=
  if algFamily a = 6 then pointOk a pk && ecdsaOk a sig
  else if algFamily a = 7 then eddsaOk a pk sig
  else rsaPubOk a pk && rsaRange (rsaN a pk) sig

/-- The peer key of KEY_AGREE. -/
def peerOk (a : Nat) (l : List Byte) : Bool := if algFamily a = 6 then pointOk a l else montOk a l

/-- A public key entered by FORMAT 1 (R300, R402): a key that must pass the checks its use would make. -/
def pubKeyOk (a : Nat) (l : List Byte) : Bool :=
  if algFamily a = 6 then pointOk a l
  else if algFamily a = 7 then (if a ≤ 0x0702 then edPointOk a l && !edSmall a l else montOk a l)
  else rsaPubOk a l

/-- A private key entered by FORMAT 1. -/
def privKeyOk (a : Nat) (l : List Byte) : Bool :=
  if algFamily a = 6 then scalarOk a (beNat l) else if algFamily a = 8 then rsaPrivOk a l else true

end Sys2Proof.Machine
end

