-- ==== Sys2Proof/Machine/Stateful.lean ====
section
/-! DEFINITION. HSS, XMSS and XMSS^MT: the type codes, and the lengths that follow from them (R377, R378). The codes are those of RFC 8554, RFC 8391 and SP 800-208, which the spec names without printing them. -/

namespace Sys2Proof.Machine

/-- A big-endian field. -/
def beAt (l : List Byte) (off n : Nat) : Nat := beNat (slice l off n)

/-! LMS and LM-OTS. The four groups are SHA-256, SHA-256/192, SHAKE256, SHAKE256/192. -/

/-- Group and height of an LMS type code. (PRESUMED, log entry 72) -/
def lmsType (t : Nat) : Option (Nat × Nat) := if 5 ≤ t ∧ t ≤ 24 then some ((t - 5) / 5, 5 * ((t - 5) % 5 + 1)) else none

/-- Group and number of chains of an LM-OTS type code. (PRESUMED, log entry 72) -/
def otsType (t : Nat) : Option (Nat × Nat) :=
  if 1 ≤ t ∧ t ≤ 16 then
    let g := (t - 1) / 4
    some (g, (if g % 2 = 0 then [265, 133, 67, 34] else [200, 101, 51, 26]).getD ((t - 1) % 4) 0)
  else none

/-- Bytes of a hash value of a group. -/
def groupLen (g : Nat) : Nat := if g % 2 = 0 then 32 else 24

/-- Bytes of an LMS public key and of an LMS signature of an LMS and an LM-OTS type, of one group. -/
def lmsSizes (t o : Nat) : Option (Nat × Nat) :=
  match lmsType t, otsType o with
  | some (g, h), some (g', p) => if g = g' then some (24 + groupLen g, 12 + groupLen g * (p + 1 + h)) else none
  | _, _ => none

/-- Whether an HSS public key has known type codes and the length they imply. -/
def hssPubOk (pk : List Byte) : Bool :=
  decide (1 ≤ beAt pk 0 4) && decide (beAt pk 0 4 ≤ 8) &&
    (match lmsSizes (beAt pk 4 4) (beAt pk 8 4) with | some (n, _) => pk.length == 4 + n | none => false)

/-- Whether what is left of an HSS signature has the types of its key, level by level, and the length they imply: `n` more signed keys, then the signature of the message. -/
def hssLevels : Nat → Nat → Nat → List Byte → Bool
  | n, t, o, l =>
    match lmsSizes t o with
    | none => false
    | some (_, len) =>
      let own := beAt l 4 4 == o && beAt l (len - groupLen ((t - 5) / 5) * (5 * ((t - 5) % 5 + 1)) - 4) 4 == t
      match n with
      | 0 => own && l.length == len
      | n + 1 =>
        let r := l.drop len
        match lmsSizes (beAt r 0 4) (beAt r 4 4) with
        | none => false
        | some (k, _) => own && hssLevels n (beAt r 0 4) (beAt r 4 4) (r.drop k)

/-- Whether an HSS signature has L − 1 signed keys, the key's types and the length implied. -/
def hssSigOk (pk sig : List Byte) : Bool :=
  beAt sig 0 4 + 1 == beAt pk 0 4 && hssLevels (beAt pk 0 4 - 1) (beAt pk 4 4) (beAt pk 8 4) (sig.drop 4)

/-! XMSS and XMSS^MT. -/

/-- Hash length, height and number of layers of an XMSS type code. (PRESUMED, log entry 72) -/
def xmssType (t : Nat) : Option (Nat × Nat × Nat) :=
  let h := fun i => [10, 16, 20].getD i 0
  if 1 ≤ t ∧ t ≤ 3 then some (32, h (t - 1), 1)
  else if 0x0D ≤ t ∧ t ≤ 0x0F then some (24, h (t - 0x0D), 1)
  else if 0x10 ≤ t ∧ t ≤ 0x12 then some (32, h (t - 0x10), 1)
  else if 0x13 ≤ t ∧ t ≤ 0x15 then some (24, h (t - 0x13), 1)
  else none

/-- Hash length, height and number of layers of an XMSS^MT type code. (PRESUMED, log entry 72) -/
def xmssMtType (t : Nat) : Option (Nat × Nat × Nat) :=
  let hd := fun i => ([(20, 2), (20, 4), (40, 2), (40, 4), (40, 8), (60, 3), (60, 6), (60, 12)] : List (Nat × Nat)).getD i (0, 0)
  if 1 ≤ t ∧ t ≤ 8 then some (32, hd (t - 1))
  else if 0x21 ≤ t ∧ t ≤ 0x28 then some (24, hd (t - 0x21))
  else if 0x29 ≤ t ∧ t ≤ 0x30 then some (32, hd (t - 0x29))
  else if 0x31 ≤ t ∧ t ≤ 0x38 then some (24, hd (t - 0x31))
  else none

/-- The type of an XMSS or XMSS^MT public key. -/
def xmssOf (a : Nat) (pk : List Byte) : Option (Nat × Nat × Nat) :=
  if a = 0x0402 then xmssType (beAt pk 0 4) else xmssMtType (beAt pk 0 4)

/-- Bytes of the leaf index in a signature. -/
def xmssIndexLen (a h : Nat) : Nat := if a = 0x0402 then 4 else (h + 7) / 8

/-- Bytes of a signature: index, randomizer, chains of each layer, authentication paths. -/
def xmssSigLen (a n h d : Nat) : Nat := xmssIndexLen a h + n + (h + d * (if n = 32 then 67 else 51)) * n

/-! Both. -/

/-- Whether a public key has known type codes and the length they imply (R378). -/
def hashPubOk (a : Nat) (pk : List Byte) : Bool :=
  if a = 0x0401 then hssPubOk pk
  else match xmssOf a pk with
    | some (n, _, _) => pk.length == 4 + 2 * n
    | none => false

/-- Whether a signature has the key's types, the length they imply, and a leaf below 2^h (R378). -/
def hashSigOk (a : Nat) (pk sig : List Byte) : Bool :=
  if a = 0x0401 then hssSigOk pk sig
  else match xmssOf a pk with
    | some (n, h, d) => sig.length == xmssSigLen a n h d && decide (beAt sig 0 (xmssIndexLen a h) < 2 ^ h)
    | none => false

end Sys2Proof.Machine
end

