-- ==== Sys2Proof/Machine/Pcie.lean ====
section
/-! DEFINITION. Configuration requests, event delivery, doorbells and queue-pair registers (chapters 06, 07, 09). -/

namespace Sys2Proof.Machine

/-! Configuration space (R120, R121). -/

/-- Capability structures of the first 256 bytes: offset, identifier, offset of the next; identifiers are those of PCI Express. (PRESUMED, log entry 9) -/
def legacyCaps (vf : Bool) : List (Nat × Nat × Nat) :=
  if vf then [(0x50, 0x10, 0x90), (0x90, 0x11, 0)] else [(0x40, 0x01, 0x50), (0x50, 0x10, 0x90), (0x90, 0x11, 0)]

/-- Extended capability structures: offset, identifier, offset of the next. (PRESUMED, log entry 9) -/
def extendedCaps (vf : Bool) : List (Nat × Nat × Nat) :=
  if vf then [(0x100, 0x01, 0x150), (0x150, 0x0E, 0)]
  else [(0x100, 0x01, 0x150), (0x150, 0x0E, 0x160), (0x160, 0x10, 0x1A0), (0x1A0, 0x03, 0x1B0), (0x1B0, 0x19, 0x1D0),
    (0x1D0, 0x25, 0x1E0), (0x1E0, 0x26, 0x210), (0x210, 0x2A, 0x250), (0x250, 0x27, 0x280), (0x280, 0x1E, 0x290), (0x290, 0x18, 0)]

/-- A word of a configuration space: its fixed bits, the bits that a write changes, and those bits after a reset. -/
structure CfgWord where
  fixed : Nat := 0
  mask : Nat := 0
  init : Nat := 0
deriving DecidableEq, Repr

/-- Sizes of the BARs by number (Table 5-4). -/
def barSize (vf : Bool) (b : Nat) : Nat :=
  if vf then (if b = 0 then 0x10000 else if b = 4 then 0x2000 else 0)
  else if b = 0 then 0x400000 else if b = 2 then 0x2000000 else if b = 4 then 0x10000 else 0

/-- A word of a 64-bit non-prefetchable BAR of `size` bytes: the low words declare the type, the address bits are writable (R114, R120). (PRESUMED, log entry 9) -/
def barWord (size : Nat) (high : Bool) : CfgWord :=
  if size = 0 then {} else if high then { mask := 2 ^ 32 - 1 } else { fixed := 4, mask := 2 ^ 32 - size }

/-- The word at `off` of six BAR words from `base` on. -/
def barAt (size : Nat → Nat) (base off : Nat) : CfgWord :=
  let i := (off - base) / 4
  barWord (size (i / 2 * 2)) (i % 2 == 1)

/-- The value of a configuration word that only its function's own state and its written bits settle. -/
def State.cfgReg (s : State) (f : Fn) (off init : Nat) : Nat := tblGet init (s.fnSt f).cfgRegs off

/-- System Page Size, as the number of bytes (R121). (PRESUMED, log entry 9) -/
def State.sysPage (s : State) (p : Port) : Nat := 4096 * max 1 (Nat.land (s.cfgReg (.pf p) 0x180 1) 0x1F)

/-- The words of Tables 6-1 to 6-3 and of R119 to R121 that a PF holds beyond its capability headers. (PRESUMED, log entry 9; DEDUCED, log entry 33) -/
def State.cfgPf (s : State) (p : Port) (off : Nat) : Option CfgWord :=
  let free := (Config.pcieWord off).toNat
  if 0x10 ≤ off ∧ off < 0x28 then some (barAt (barSize false) 0x10 off)
  else if off = 0x44 then some { fixed := 8 + (if (s.port p).d3 then 3 else 0) }
  else if off = 0x58 then some { mask := 0x79FF, init := 0x2810 }
  else if off = 0x5C then some { fixed := 0x400845 + Nat.land free 0xFF03F000 }
  else if off = 0x60 then
    some { fixed := s.rd (R.PE_LINK_SPEED.port p) * 2 ^ 16 + s.rd (R.PE_LINK_WIDTH.port p) * 2 ^ 20 + Nat.land free 0x10000000, mask := 0xCA }
  else if off = 0x74 then some { fixed := 0x30813 }
  else if off = 0x78 then some { mask := 0x171F }
  else if off = 0x7C then some { fixed := 0x3E }
  else if off = 0x80 then some { mask := 0xFFFF, init := 5 }
  else if off = 0x164 then some { fixed := Nat.land free 6 }
  else if off = 0x168 then some { fixed := (s.port p).vfEnable.toNat, mask := 0x18 }
  else if off = 0x16C then some { fixed := s.maxVf p * 65537 }
  else if off = 0x170 then
    some (if (s.port p).vfEnable then { fixed := (s.port p).numVfs } else { mask := 0xFFFF })
  else if off = 0x174 then some { fixed := 0x10001 }
  else if off = 0x178 then some { fixed := 0x0961 * 65536 }
  else if off = 0x17C then some { fixed := 0x1F }
  else if off = 0x180 then some { mask := 0x1F, init := 1 }
  else if 0x184 ≤ off ∧ off < 0x19C then
    some (barAt (fun b => if barSize true b = 0 then 0 else max (barSize true b) (s.sysPage p)) 0x184 off)
  else if off = 0x19C then some {}
  else if off = 0x1A4 then some { fixed := Config.serial.toNat % 2 ^ 32 }
  else if off = 0x1A8 then some { fixed := Config.serial.toNat / 2 ^ 32 }
  else if off = 0x284 then some { fixed := 0x1F + Nat.land free 0xFFFF00 }
  else if off = 0x288 then some { mask := 0xE3FFFF0F }
  else if off = 0x294 then some { mask := 0x1FFF1FFF }
  else none

/-- The words that every function holds beyond its capability headers; those of a VF whose bits only its PF controls are zero (Tables 6-1 to 6-3). (PRESUMED, log entry 9; DEDUCED, log entry 33) -/
def State.cfgAny (s : State) (f : Fn) (off : Nat) : Option CfgWord :=
  let free := (Config.pcieWord off).toNat
  let p := f.port
  if off = 0 then some { fixed := if f.isVf then 0xFFFFFFFF else 0x09601E5A }
  else if off = 4 then some { fixed := 0x100000, mask := if f.isVf then 4 else 0x146 }
  else if off = 8 then some { fixed := 0x108000B0 }
  else if off = 0x2C then some { fixed := s.cfg.ssids.getD (2 * p.num) 0 + s.cfg.ssids.getD (2 * p.num + 1) 0 * 65536 }
  else if off = 0x34 then some { fixed := if f.isVf then 0x50 else 0x40 }
  else if off < 0x40 then some {}
  else if off = 0x54 then some { fixed := 0x10008022 + Nat.land free 0xFC0 }
  else if off = 0x94 then some { fixed := 4 }
  else if off = 0x98 then some { fixed := if f.isVf then 0x1004 else 0x8004 }
  else if off = aerStatus then some { fixed := s.cfgReg f aerStatus 0 }
  else if off = 0x108 then some { mask := if f.isVf then 0 else 0x1FFF030 }
  else if off = 0x10C then some { mask := if f.isVf then 0 else 0x1FFF030, init := if f.isVf then 0 else 0x462030 }
  else if off = 0x110 then some {}
  else if off = 0x114 then some { mask := if f.isVf then 0 else 0xF1C1, init := if f.isVf then 0 else 0x2000 }
  else if off = 0x154 then some {}
  else if f.isVf then
    (if off = 0x58 ∨ off = 0x78 ∨ off = 0x60 then some {}
     else if off = 0x5C then some { fixed := 0x400845 + Nat.land free 0xFF03F000 }
     else if off = 0x74 then some { fixed := 0x30013 }
     else if off = 0x7C then some { fixed := 0x3E }
     else none)
  else none

/-- The capability header at an offset: MSI-X with its two control bits, which a write changes; the version and type fields of the others (R116, Table 6-3). (PRESUMED, log entry 9) -/
def State.cfgHead (s : State) (f : Fn) (off : Nat) : Option CfgWord :=
  match (legacyCaps f.isVf).find? (·.1 == off), (extendedCaps f.isVf).find? (·.1 == off) with
  | some (_, id, next), _ =>
    let hi := if id = 0x11 then (s.vectors f - 1) % 2048 else if id = 1 then 3 else 2
    some { fixed := id + next * 256 + hi * 65536, mask := if id = 0x11 then 0xC0000000 else 0 }
  | none, some (_, id, next) => some { fixed := id + bits (Config.pcieWord off).toNat 16 4 * 65536 + next * 2 ^ 20 }
  | none, none => none

/-- Whether a word lies past the header within the reach of the capability structures: there PCI Express settles what Table 6-3 does not; no other structure exists (R116). (PRESUMED, log entry 9) -/
def inStructures (vf : Bool) (off : Nat) : Bool :=
  (decide ((if vf then 0x50 else 0x40) ≤ off) && decide (off < 0x9C)) || (decide (0x100 ≤ off) && decide (off < if vf then 0x158 else 0x298))

/-- A word of a function's configuration space. (PRESUMED, log entry 9; DESIGN CHOICE, log entry 60) -/
def State.cfgSpec (s : State) (f : Fn) (off : Nat) : CfgWord :=
  match s.cfgAny f off with
  | some w => w
  | none =>
    match (match f with | .pf p => s.cfgPf p off | _ => none) with
    | some w => w
    | none =>
      match s.cfgHead f off with
      | some w => w
      | none => { fixed := if inStructures f.isVf off then (Config.pcieWord off).toNat else 0 }

/-- What a configuration read returns of a word. -/
def State.cfgWord (s : State) (f : Fn) (off : Nat) : Nat :=
  let w := s.cfgSpec f off
  w.fixed + Nat.land (s.cfgReg f off w.init) w.mask

/-- The writable bits of a word take a value. -/
def State.cfgStore (s : State) (f : Fn) (off v : Nat) : State :=
  let w := s.cfgSpec f off
  if w.mask = 0 then s
  else
    let x := s.fnSt f
    s.setFnSt f { x with cfgRegs := tblPut w.init x.cfgRegs off (Nat.land v w.mask) }

/-- A configuration write: writable bits are stored, error status bits written with 1 are cleared; PowerState, Initiate Function Level Reset and VF Enable act (R119, R121, R124, R129). (PRESUMED, log entry 9) -/
def State.cfgWrite (s : State) (f : Fn) (off v : Nat) : State :=
  if off = aerStatus then
    let x := s.fnSt f
    let old := tblGet 0 x.cfgRegs aerStatus
    s.setFnSt f { x with cfgRegs := tblPut 0 x.cfgRegs aerStatus (old - Nat.land old v) }
  else
    let s := s.cfgStore f off v
    match f with
    | .pf p =>
      if off = 0x44 then (if v % 4 = 3 then s.enterD3 p else if v % 4 = 0 then s.returnD0 p else s)
      else if off = 0x58 ∧ v.testBit 15 then s.resetPort p 1
      else if off = 0x168 then (if v.testBit 0 then s.setVfEnable p (Nat.land (s.cfgReg f 0x170 0) 0xFFFF) else s.clearVfEnable p)
      else s
    | .vf p n => if off = 0x58 ∧ v.testBit 15 then s.vfFlr p n else s
    | .nw => s

/-- Whether a function exists on the bus and answers configuration requests. (DEDUCED, log entry 33) -/
def State.fnExists (s : State) (f : Fn) : Bool :=
  match f with
  | .pf p => s.pfAlive p
  | .vf p n => s.pfAlive p && s.vfExists p n
  | .nw => false

/-- CONFIG_REQUEST: before READY, or before the limit of R71 or R81, a PF answers with Request Retry Status. (DEDUCED, log entry 33) -/
def execConfigRequest (fn : Fn) (off : Nat) (write : Option Word32) (s : State) : Host.Outcome State Fault Refusal :=
  if !s.fnExists fn || off % 4 != 0 || decide (4096 ≤ off) then s.noEvent
  else if !s.boot.cfgOpen then .next (s.emit (.cfg fn none))
  else match write with
    | some v => .next ((s.emit (.cfg fn (some 0))).cfgWrite fn off v.toNat)
    | none => .next (s.emit (.cfg fn (some (s.cfgWord fn off))))

/-! Event sources and messages (R132 to R136, R467). -/

/-- Sources that can reach the PF of a port (R134). -/
def mappable (n : Nat) : Bool :=
  (decide (n < 64) || (decide (120 ≤ n) && decide (n < 128)) || (decide (192 ≤ n) && decide (n < 256))) && n != 202 && n != 203

/-- The message of a source to the PF of a port, where it is routed. -/
def State.routeMsg (s : State) (p : Port) (n : Nat) : State :=
  if mappable n && s.flag ((R.PE_EVMAP_ENABLE.port p).ix n) then s.vector (.pf p) (s.rd ((R.PE_EVMAP_VECTOR.port p).ix n)) else s

/-- The messages of a source that became, or stays, asserted; 34 and 35 follow the instance (R115). (DEDUCED, log entry 11) -/
def State.sourceMsgs (s : State) (bank n : Nat) : State :=
  if n = 34 ∨ n = 35 then
    (if bank = 2 then s.routeMsg .a n else if bank = 3 then s.routeMsg .b n else s)
  else (s.routeMsg .a n).routeMsg .b n

/-- The EVENT record of a source that became asserted (Table 20-3): alarm sources and source 39 have none; a banked register counts once. (DEDUCED, log entry 11) -/
def State.sourceRecord (s : State) (bank n : Nat) : State :=
  if n < 24 ∨ n = 39 ∨ bank ≠ 0 then s
  else s.decideRecord 2 n 1 (match evtOffset n with | some off => s.word 0 off | none => 0)

/-- The removal of the first element that equals `x`. -/
def removeFirst (x : Nat) : List Nat → List Nat
  | [] => []
  | y :: t => if x = y then t else y :: removeFirst x t

/-- EVENT_SOURCE_ASSERT: the oldest assertion of the source that is still to be delivered. (DEDUCED, log entry 11) -/
def execEventSourceAssert (source : Nat) (s : State) : Host.Outcome State Fault Refusal :=
  match s.edges.find? fun e => e % 512 == source with
  | none => s.noEvent
  | some e =>
    let s : State := { s with edges := removeFirst e s.edges }
    .next ((s.sourceRecord (e / 512) source).sourceMsgs (e / 512) source)

/-- A vector is unmasked: a pending message goes out (R135). -/
def State.unmask (s : State) (f : Fn) (v : Nat) : State :=
  let x := s.fnSt f
  let was := x.msixPend.testBit v
  let s := s.setFnSt f { x with unmasked := bitSet x.unmasked v, msixPend := bitClear x.msixPend v }
  if was then s.send f (.msix f v) else s

/-- MSIX_UNMASK. -/
def execMsixUnmask (fn : Fn) (vector : Nat) (s : State) : Host.Outcome State Fault Refusal :=
  if s.fnExists fn && decide (vector < s.vectors fn) then .next (s.unmask fn vector) else s.noEvent

/-! Doorbells (R124, R143 to R147). -/

/-- An event of the queue-pair event register; vector 0 sends a message when the register becomes asserted (QZ_EVT). -/
def State.qzEvent (s : State) (f : Fld) (fn : Fn) : State :=
  let was := s.asserted (qzEvt f fn)
  let s := s.setEvt (qzEvt f fn)
  if was then s else s.vector fn 0

/-- A doorbell finds its queue pair disabled or its function not ready: dropped. `none` where it may be served. -/
def State.doorbellDrop (s : State) (f : Fn) (q : Nat) : Option State :=
  match f with
  | .vf p n =>
    let st := s.rd (R.VFS_STATE_STATE.vf p n)
    if !s.vfExists p n || (s.port p).pfReset || decide (2 ≤ st) then some s
    else if st = 0 ∨ s.qpCount f ≤ q then some (s.setEvt (R.PE_EVT_DOORBELL_DROP.port p))
    else none
  | .pf p => if (s.port p).pfReset || decide (4 ≤ q) then some s else none
  | .nw => if 64 ≤ q then some s else none

/-- An SQ tail doorbell (R143, R144, R146). -/
def State.sqTail (s : State) (f : Fn) (q val : Nat) : State :=
  match s.doorbellDrop f q with
  | some s => s
  | none =>
    let qp := s.qp f q
    let i := bits val 0 12
    if !qp.enabled then s.qzEvent R.QZ_EVT_DB_DISABLED f
    else if 2 ^ qp.sqLog2 ≤ i then s.queueError f q
    else s.setQp f q { qp with sqTail := i }

/-- A CQ head doorbell (R146, R147). -/
def State.cqHead (s : State) (f : Fn) (q val : Nat) : State :=
  match s.doorbellDrop f q with
  | some s => s
  | none =>
    let qp := s.qp f q
    let i := bits val 0 12
    let size := 2 ^ qp.cqLog2
    if !qp.enabled then s.qzEvent R.QZ_EVT_DB_DISABLED f
    else if size ≤ i ∨ (qp.cqTail + size - qp.cqHead) % size < (i + size - qp.cqHead) % size then s.queueError f q
    else s.setQp f q { qp with cqHead := i }

/-- A doorbell is served. -/
def State.doorbell (s : State) (f : Fn) (q val : Nat) (sq : Bool) : State := if sq then s.sqTail f q val else s.cqHead f q val

/-- The requester that writes a function's doorbells and register sets; of the normal world it is CP2, where the row names no pair. -/
def fnRequester : Fn → Requester
  | .pf p => .host p 0
  | .vf p n => .host p n
  | .nw => .core 2 .normal .k

/-- The offset of a doorbell (Table 7-1, R218). (DEDUCED, log entry 13) -/
def doorbellOff (f : Fn) (q : Nat) (sq : Bool) : Nat :=
  (match f with
   | .pf p => 0x102000 + 0x10000 * p.num
   | .vf p n => 0x201000 + 0x2000 * vfIndex p n
   | .nw => 0x92000) + 16 * q + (if sq then 0 else 8)

/-- Doorbells of a function. (DEDUCED, log entry 13) -/
def doorbells : Fn → Nat
  | .pf _ => 4
  | .vf _ _ => 16
  | .nw => 64

/-- A doorbell write meets the checks of every register write. (DEDUCED, log entry 13) -/
def State.ringDoorbell (s : State) (f : Fn) (q val : Nat) (sq : Bool) : State :=
  s.gated (fnRequester f) (doorbellOff f q sq) val fun s => s.doorbell f q val sq

/-- SQ_TAIL_DOORBELL. -/
def execSqTailDoorbell (fn : Fn) (qp : Nat) (value : Word32) (s : State) : Host.Outcome State Fault Refusal :=
  if qp < doorbells fn then .next (s.ringDoorbell fn qp value.toNat true) else s.noEvent

/-- CQ_HEAD_DOORBELL. -/
def execCqHeadDoorbell (fn : Fn) (qp : Nat) (value : Word32) (s : State) : Host.Outcome State Fault Refusal :=
  if qp < doorbells fn then .next (s.ringDoorbell fn qp value.toNat false) else s.noEvent

/-! Queue-pair register sets (R142, R151, R218). -/

/-- Whether a function may have queue pairs enabled. -/
def State.fnActive (s : State) (f : Fn) (q : Nat) : Bool :=
  match f with
  | .pf p => !(s.port p).pfReset
  | .vf p n => s.vfActive p n
  | .nw => s.flag (R.WLD_NQ_BIND_BOUND.ix q)

/-- Whether a ring of the normal world lies in normal memory. -/
def State.normalRing (s : State) (a len : Nat) : Bool :=
  let x := s.areaOf a
  (x == .norSram || x == .norDdr) && s.areaOf (a + len - 1) == x

/-- The addresses in a register set. -/
def State.qzSqAddr (s : State) (f : Fn) (q : Nat) : Nat :=
  s.rd (R.QZ_SQ_ADDR_LO_ADDR.qz f q) * 4096 + s.rd (R.QZ_SQ_ADDR_HI_ADDR.qz f q) * 2 ^ 32

/-- The completion queue's address in a register set. -/
def State.qzCqAddr (s : State) (f : Fn) (q : Nat) : Nat :=
  s.rd (R.QZ_CQ_ADDR_LO_ADDR.qz f q) * 4096 + s.rd (R.QZ_CQ_ADDR_HI_ADDR.qz f q) * 2 ^ 32

/-- The queue pair that a register set describes. -/
def State.qzQp (s : State) (f : Fn) (q : Nat) : Qp :=
  { enabled := true, sqAddr := s.qzSqAddr f q, cqAddr := s.qzCqAddr f q, sqLog2 := s.rd (R.QZ_CFG_SQ_LOG2.qz f q),
    cqLog2 := s.rd (R.QZ_CFG_CQ_LOG2.qz f q), vector := s.rd (R.QZ_CFG_VECTOR.qz f q),
    coalCount := s.rd (R.QZ_CFG_COAL_COUNT.qz f q), coalTime := s.rd (R.QZ_CFG_COAL_TIME.qz f q) }

/-- A LOG2 value that R140 allows. -/
def logOk (n : Nat) : Bool := decide (4 ≤ n) && decide (n ≤ 12)

/-- COAL values that R150 allows. -/
def coalOk (count time : Nat) : Bool :=
  decide (1 ≤ count) && decide (count ≤ 255) && decide (time ≤ 1000) && (time != 0 || count == 1)

/-- CFG_ERR of a register set, in the order of R142; 0 where it passes. -/
def State.qzCheck (s : State) (f : Fn) (q : Nat) : Nat :=
  let x := s.qzQp f q
  let vectors := match f with | .nw => 1 | f => s.vectors f
  if !s.fnActive f q then 4
  else if !logOk x.sqLog2 || !logOk x.cqLog2 then 1
  else if f = .nw ∧ !(s.normalRing x.sqAddr (64 * 2 ^ x.sqLog2) && s.normalRing x.cqAddr (32 * 2 ^ x.cqLog2)) then 2
  else if vectors ≤ x.vector then 3
  else if !coalOk x.coalCount x.coalTime || (f == .nw && (x.coalCount != 1 || x.coalTime != 0)) then 5
  else 0

/-- ENABLE is written to 1 (R142). -/
def State.qzEnable (s : State) (f : Fn) (q : Nat) : State :=
  if s.flag (R.QZ_CTRL_ENABLE.qz f q) || (s.qp f q).enabled then s
  else
    let r := s.qzCheck f q
    let s := s.wr (R.QZ_STATUS_CFG_ERR.qz f q) r
    if r ≠ 0 then s
    else
      let s := s.setQp f q (s.qzQp f q)
      let s := (s.wr (R.QZ_CTRL_ENABLE.qz f q) 1).wr (R.QZ_STATUS_READY.qz f q) 1
      if f = .nw then s else s.portClaim f.port

/-- The deletion of a queue pair begins, and ends where no fetched command is left (R151). -/
def State.deleteQp (s : State) (f : Fn) (q : Nat) : State :=
  if (s.qp f q).enabled then (s.setQp f q { s.qp f q with deleting := true }).finishDelete f q else s

/-- ENABLE is written to 0. -/
def State.qzDisable (s : State) (f : Fn) (q : Nat) : State := (s.wr (R.QZ_CTRL_ENABLE.qz f q) 0).deleteQp f q

/-- Whether the register set of a queue pair can be reached: it exists and its function is not in reset. -/
def State.qzReached (s : State) (f : Fn) (q : Nat) : Bool :=
  hasQz f q && (match f with
    | .pf p => !(s.port p).pfReset
    | .vf p n => s.vfExists p n && !(s.port p).pfReset && decide (s.rd (R.VFS_STATE_STATE.vf p n) < 2)
    | .nw => true)

/-- A write to QZ_CTRL: ENABLE. -/
def State.qzCtrl (s : State) (f : Fn) (q val : Nat) : State :=
  if !s.qzReached f q then s else if val.testBit 0 then s.qzEnable f q else s.qzDisable f q

/-- A write to QZ_CTRL by the function's requester. -/
def State.writeQzCtrl (s : State) (f : Fn) (q val : Nat) : State :=
  s.gated (fnRequester f) (qzBase f q + 0x14) val fun s => s.qzCtrl f q val

/-- QZ_ENABLE. -/
def execQzEnable (fn : Fn) (qp : Nat) (s : State) : Host.Outcome State Fault Refusal :=
  if hasQz fn qp then .next (s.writeQzCtrl fn qp 1) else s.noEvent

/-- QZ_DISABLE. -/
def execQzDisable (fn : Fn) (qp : Nat) (s : State) : Host.Outcome State Fault Refusal :=
  if hasQz fn qp then .next (s.writeQzCtrl fn qp 0) else s.noEvent

/-- COAL_TIME_EXPIRY (R150). -/
def execCoalTimeExpiry (fn : Fn) (qp : Nat) (s : State) : Host.Outcome State Fault Refusal :=
  let x := s.qp fn qp
  if x.enabled && decide (0 < x.unsignalled) && decide (0 < x.coalTime) then
    .next ((s.setQp fn qp { x with unsignalled := 0 }).vector fn x.vector)
  else s.noEvent

end Sys2Proof.Machine
end

