-- ==== Sys2Proof/Machine/Fields.lean ====
section
/-! DEFINITION. Steps 2 to 4 of R24 on a submission entry: opcode, version, features, service state, fields (chapters 01, 07). -/

namespace Sys2Proof.Machine

/-- The opcodes of Table 7-8. -/
def opcodes : List Nat :=
  [0x01, 0x02, 0x03, 0x04, 0x05, 0x06, 0x07, 0x10, 0x11, 0x12, 0x13, 0x14, 0x15, 0x20, 0x21, 0x22, 0x30, 0x31,
   0x40, 0x41, 0x42, 0x43, 0x48, 0x49, 0x4A, 0x4B, 0x50, 0x51, 0x52, 0x53, 0x60, 0x70, 0x71, 0x72, 0x73, 0x7D, 0x7E, 0x7F]

/-- The HASH_ opcodes. -/
def hashOp (op : Nat) : Bool := decide (0x40 ≤ op) && decide (op ≤ 0x43)

/-- Opcodes that RMA serves (R442). -/
def rmaServed (op : Nat) : Bool := op == 1 || op == 2 || op == 3 || op == 0x60 || hashOp op

/-- Whether Table 7-8 lists an opcode for a function and queue pair (R162, R217, R442). -/
def listedOn (rma : Bool) (op : Nat) (f : Fn) (q : Nat) : Bool :=
  let pfOnly := op == 0x70 || op == 0x71 || op == 0x7D || op == 0x7E || op == 0x7F
  let both := op == 1 || op == 2 || op == 3 || op == 0x72 || op == 0x73
  match f with
  | .pf _ => both || pfOnly || (rma && (op == 0x60 || hashOp op))
  | .vf _ _ => if op = 4 ∨ op = 5 then q == 0 else !pfOnly
  | .nw => op != 4 && op != 5 && !pfOnly

/-- The version that adds an opcode (Table 7-7), as major × 256 + minor. -/
def opVersion (op : Nat) : Nat :=
  if op = 0x15 ∨ op = 0x43 ∨ op = 0x4B then 0x101 else if op = 6 ∨ op = 7 ∨ op = 0x7D then 0x102 else 0x100

/-- Commands that carry SS_DEST. -/
def ssOp (op : Nat) : Bool := op == 0x20 || op == 0x21 || op == 0x22

/-- The features that the flags and parameters of a command need (Table 7-7). -/
def Cmd.features (c : Cmd) : List Nat :=
  (if c.inDirect || c.outDirect then [0] else []) ++
  (if c.opcode = 4 ∧ 1 < c.par 4 1 then [1] else []) ++
  (if c.fence then [2] else []) ++
  (if ssOp c.opcode && c.par 0 1 == 0 then [3] else []) ++
  (if c.opcode = 0x30 ∧ c.par 3 1 = 1 then [4] else []) ++
  (if c.opcode = 6 ∨ c.opcode = 7 then [5] else []) ++
  (if c.opcode = 0x14 ∧ 4 ≤ c.par 0 1 ∧ c.par 0 1 ≤ 8 then [6] else [])

/-- The version a command needs. -/
def Cmd.version (c : Cmd) : Nat := max (opVersion c.opcode) (if c.opcode = 0x14 ∧ 4 ≤ c.par 0 1 ∧ c.par 0 1 ≤ 8 then 0x103 else 0x100)

/-- Step 2: the status of the first check that fails, 0 for none. -/
def State.checkOpcode (s : State) (c : Cmd) : Nat :=
  let op := c.opcode
  let rma := s.lcState == 18
  let x := s.fnSt c.fn
  if (!s.flag R.GLB_STATUS_READY || s.recovery) && op != 2 then 0x42
  else if !opcodes.contains op then 0x10
  else if !listedOn rma op c.fn c.qp then 0x10
  else if op = 1 then 0
  else if op ≠ 2 ∧ x.version = 0 then 0x11
  else if op ≠ 2 ∧ x.version < c.version then 0x11
  else if c.features.any fun b => !x.granted.testBit b then 0x11
  else 0

/-- Whether a command needs randomness (R520). -/
def Cmd.random (c : Cmd) : Bool :=
  let op := c.opcode
  op == 0x10 || op == 0x14 || op == 0x15 || ssOp op || op == 0x30 || op == 0x60 || (decide (0x48 ≤ op) && decide (op ≤ 0x53)) ||
    (op == 0x11 && !(c.par 0 1 == 1 && c.key == 0)) || (op == 0x12 && !(c.par 8 1 == 1 && c.par 0 8 == 0)) ||
    op == 6 || op == 7 || op == 0x70 || op == 0x71 || op == 0x72

/-- Step 3: the status of the service check, 0 for none. -/
def State.checkService (s : State) (c : Cmd) : Nat :=
  if s.lcState == 18 && !rmaServed c.opcode then 0x42
  else if s.flag R.GLB_STATUS_SUSPENDED && !servedSuspended c.opcode then 0x42
  else if controlOp c.opcode && !s.queueUp 0 && !s.queueUp 1 then 0x42
  else if c.random && s.flag R.ENT_STATUS_FAILED then 0x41
  else 0

/-! Step 4: fields. Each list holds the entry offsets of the bytes that break a rule. -/

/-- The offset `o` where a rule is broken. -/
def bad (b : Bool) (o : Nat) : List Nat := if b then [o] else []

/-- Offsets of non-zero bytes among the `n` bytes of PARAMS from `off` on. -/
def Cmd.reserved (c : Cmd) (off n : Nat) : List Nat :=
  match firstNonZero (slice c.params off n) with
  | some i => [0x28 + off + i]
  | none => []

/-- Reserved bits of a two-byte parameter from bit `b` on. -/
def Cmd.resBits (c : Cmd) (off b : Nat) : List Nat :=
  let v := c.par off 2
  bad (decide (v % 256 / 2 ^ b ≠ 0) && decide (b < 8)) (0x28 + off) ++ bad (decide (v / 2 ^ (max b 8) ≠ 0)) (0x29 + off)

/-- PLEN of an opcode (Table 7-9). -/
def plenOf (op : Nat) : Nat :=
  if op = 1 ∨ op = 4 ∨ op = 0x50 ∨ op = 0x51 ∨ op = 0x7F then 24
  else if op = 3 ∨ op = 5 ∨ op = 0x7E ∨ op = 0x40 ∨ op = 0x71 ∨ op = 0x73 then 4
  else if op = 0x10 ∨ op = 0x11 ∨ op = 0x30 ∨ op = 0x48 ∨ op = 0x42 ∨ op = 0x4A ∨ op = 0x53 ∨ op = 0x72 then 8
  else if op = 0x12 ∨ op = 0x14 ∨ ssOp op ∨ op = 0x43 ∨ op = 0x4B then 12
  else if op = 0x31 ∨ op = 0x7D then 16 else 0

/-- Whether KEY_HANDLE must be 0 (R522). -/
def Cmd.handleZero (c : Cmd) : Bool :=
  let op := c.opcode
  op == 1 || op == 2 || (op == 3 && c.par 1 1 == 0) || op == 4 || op == 5 || op == 7 || op == 0x10 || (op == 0x11 && c.par 0 1 == 0) ||
    op == 0x40 || op == 0x60 || decide (0x70 ≤ op)

/-- Whether a command has no input (R522). -/
def Cmd.noInput (c : Cmd) : Bool :=
  let op := c.opcode
  op == 1 || op == 2 || op == 3 || op == 4 || op == 5 || op == 6 || op == 0x10 || op == 0x12 || op == 0x13 || op == 0x60 || op == 0x7D ||
    op == 0x7E || op == 0x7F || (op == 0x20 && c.key != 0)

/-- Whether a command has no output (R522). -/
def Cmd.noOutput (c : Cmd) : Bool :=
  let op := c.opcode
  op == 3 || op == 4 || op == 5 || op == 7 || op == 0x11 || op == 0x13 || op == 0x14 || op == 0x41 || op == 0x49 || op == 0x43 ||
    op == 0x4B || op == 0x31 || op == 0x70 || op == 0x73 || op == 0x7D || op == 0x7E || op == 0x7F ||
    ((op == 0x40 || op == 0x48) && !c.last) || ((op == 0x21 || op == 0x22) && c.par 0 1 == 1) || (op == 0x10 && symAlg (c.par 0 2))

/-- Whether a command can ever need an approval (R292). -/
def guardable (op : Nat) : Bool :=
  op == 0x11 || op == 0x12 || op == 0x13 || op == 0x14 || op == 0x15 || ssOp op || op == 0x30 || op == 0x31 || op == 0x48 ||
    op == 0x50 || op == 0x51 || op == 0x71

/-- IN_LEN a CIPHER mode accepts (Table 17-3). -/
def cipherLen (mode dir du len : Nat) : Bool :=
  if mode = 1 then decide (16 ≤ len) && (decide (du = 0) || len % du == 0 || decide (16 ≤ len % du))
  else if mode = 2 then decide (1 ≤ len)
  else if mode = 3 then len % 16 == 0 && decide (16 ≤ len)
  else if mode = 4 then dir == 0 || (len % 16 == 0 && decide (16 ≤ len))
  else if mode = 5 then len % 8 == 0 && (if dir = 0 then decide (16 ≤ len) && decide (len ≤ 14336) else decide (24 ≤ len) && decide (len ≤ 14344))
  else if mode = 6 then
    (if dir = 0 then decide (1 ≤ len) && decide (len ≤ 14336) else len % 8 == 0 && decide (16 ≤ len) && decide (len ≤ 14344))
  else true

/-- Offsets of the fields that break the rules of QUEUE_CREATE (R151, Table 7-9). -/
def State.badQueue (s : State) (c : Cmd) : List Nat :=
  bad (c.par 0 1 == 0 || decide (s.qpCount c.fn ≤ c.par 0 1) || (s.qp c.fn (c.par 0 1)).enabled) 0x28 ++
  bad (!logOk (c.par 1 1)) 0x29 ++ bad (!logOk (c.par 2 1)) 0x2A ++ bad (decide (s.vectors c.fn ≤ c.par 3 1)) 0x2B ++
  bad (c.par 4 1 == 0) 0x2C ++ c.reserved 5 1 ++ bad (c.par 4 1 != 0 && !coalOk (c.par 4 1) (c.par 6 2)) 0x2E ++
  bad (c.par 8 8 % 4096 != 0) 0x30 ++ bad (c.par 16 8 % 4096 != 0) 0x38

/-- Whether `n` is no VF that exists on the function's port. -/
def State.noVf (s : State) (c : Cmd) (n : Nat) : Bool := !s.vfExists c.fn.port n

/-- Offsets of the fields that break the rules of VF_CREATE (R126, Table 6-5). -/
def State.badVf (s : State) (c : Cmd) : List Nat :=
  bad (s.noVf c (c.par 0 1) || s.rd (R.VFS_STATE_STATE.vf c.fn.port (c.par 0 1)) != 0) 0x28 ++
  bad (c.par 1 1 == 0 || decide (16 < c.par 1 1)) 0x29 ++ bad (c.par 2 1 == 0 || decide (32 < c.par 2 1)) 0x2A ++
  bad (c.par 3 1 == 0) 0x2B ++ bad (decide (1023 < c.par 4 2)) 0x2C ++ bad (decide (4080 < c.par 6 2)) 0x2E ++
  bad (decide (c.par 8 2 < c.par 6 2) || decide (4080 < c.par 8 2)) 0x30 ++ c.reserved 10 2 ++
  bad (decide (65536 < c.par 12 4)) 0x34 ++ bad (decide (c.par 16 4 < c.par 12 4) || decide (65536 < c.par 16 4)) 0x38 ++ c.reserved 20 4

/-- Offsets of the parameters that break the rules of their opcode (Table 7-9 and the engine chapters). -/
def State.badParams (s : State) (c : Cmd) : List Nat :=
  let op := c.opcode
  if op = 1 then c.reserved 4 4
  else if op = 3 then bad (decide (1 < c.par 1 1)) 0x29
  else if op = 4 then s.badQueue c
  else if op = 5 then bad (c.par 0 1 == 0 || decide (s.qpCount c.fn ≤ c.par 0 1)) 0x28 ++ c.reserved 1 3
  else if op = 0x10 then
    let a := c.par 0 2
    let keyed := (algFamily a == 0xB && a != 0x0B06) || algFamily a == 0xC
    bad (!algListed a) 0x28 ++ c.resBits 2 11 ++ c.resBits 4 4 ++
      bad (if keyed then decide (c.par 6 2 < 16) || decide (128 < c.par 6 2) else c.par 6 2 != 0) 0x2E
  else if op = 0x11 then
    bad (decide (1 < c.par 0 1)) 0x28 ++ c.reserved 1 1 ++
      (if c.par 0 1 = 0 then c.reserved 2 4 ++ bad (c.par 6 2 % 256 != 0 && c.par 6 2 % 256 != 4) 0x2E ++ c.reserved 7 1
       else bad (!algListed (c.par 2 2)) 0x2A ++ c.resBits 4 11 ++ c.resBits 6 4)
  else if op = 0x12 then bad (c.par 8 1 == 0 && c.par 0 8 != 0) 0x28 ++ bad (decide (1 < c.par 8 1)) 0x30 ++ c.reserved 9 3
  else if op = 0x14 then
    bad (c.par 0 1 == 0 || decide (8 < c.par 0 1)) 0x28 ++ c.reserved 1 1 ++ bad (!algListed (c.par 2 2)) 0x2A ++ c.resBits 4 11 ++
      c.resBits 6 4 ++ bad (decide (c.inLen < c.par 10 2)) 0x32
  else if ssOp op then
    bad (decide (1 < c.par 0 1)) 0x28 ++ c.reserved 1 1 ++
      (if c.par 0 1 = 1 then bad (!algListed (c.par 2 2)) 0x2A ++ c.resBits 4 11 ++ c.resBits 6 4 else []) ++
      bad (op == 0x20 && c.key == 0 && !algListed (c.par 8 2)) 0x30 ++ c.reserved 10 2
  else if op = 0x30 then
    bad (decide (c.inLen < c.par 2 1)) 0x2A ++ bad (decide (1 < c.par 3 1)) 0x2B ++ c.reserved 6 2
  else if op = 0x31 then
    bad (decide (c.inLen < c.par 2 1 + c.par 8 2 + c.par 12 4)) 0x2A ++ c.reserved 3 1 ++ c.reserved 6 2 ++
      bad (c.key == 0 && !algListed (c.par 10 2)) 0x32 ++ bad (c.key != 0 && c.par 12 4 != 0) 0x34
  else if op = 0x40 then
    let cshake := c.par 0 2 == 0x0A09 || c.par 0 2 == 0x0A0A
    bad (!algListed (c.par 0 2)) 0x28 ++
      bad (if cshake then decide (c.inLen < c.par 2 1 + c.par 3 1) else c.par 2 1 != 0) 0x2A ++ bad (!cshake && c.par 3 1 != 0) 0x2B
  else if op = 0x48 then
    let kmac := c.par 0 2 == 0x0B04 || c.par 0 2 == 0x0B05
    bad (!algListed (c.par 0 2)) 0x28 ++ bad (if kmac then decide (c.inLen < c.par 2 1) else c.par 2 1 != 0) 0x2A ++ c.reserved 3 1 ++
      bad (if kmac then decide (c.par 4 2 < 16) || decide (1024 < c.par 4 2) else c.par 4 2 != 0) 0x2C ++ c.reserved 6 2
  else if op = 0x43 ∨ op = 0x4B then bad (decide (c.inLen < c.par 8 2)) 0x30 ++ c.reserved 10 2
  else if op = 0x50 then
    let m := c.par 1 1
    bad (decide (1 < c.par 0 1)) 0x28 ++ bad (m == 0 || decide (7 < m)) 0x29 ++ c.reserved 2 2 ++
      bad (if m = 1 then decide (c.par 4 4 < 16) || decide (65536 < c.par 4 4) else c.par 4 4 != 0) 0x2C ++
      (if m = 5 ∨ m = 6 then c.reserved 8 16
       else if m = 7 then
         bad (c.par 8 1 == 0 || decide (3 < c.par 8 1)) 0x30 ++ bad (decide (c.inLen < c.par 9 1)) 0x31 ++ c.reserved 10 14
       else []) ++ bad (!cipherLen m (c.par 0 1) (c.par 4 4) c.inLen) 0x18
  else if op = 0x51 then
    bad (decide (1 < c.par 0 1)) 0x28 ++ bad (decide (c.par 1 1 < 12) || decide (16 < c.par 1 1)) 0x29 ++
      bad (decide (1 < c.par 2 1) || (c.par 2 1 == 1 && c.par 0 1 != 0)) 0x2A ++ c.reserved 3 1 ++
      (if c.par 2 1 = 1 then c.reserved 8 12 else []) ++ c.reserved 20 4
  else if op = 0x71 then bad (decide (1023 < c.par 0 2) && c.par 0 2 != 0xFFFF) 0x28 ++ c.reserved 2 2
  else if op = 0x72 then
    bad (c.par 4 2 != 0 && (decide (c.par 4 2 < 30) || decide (3600 < c.par 4 2))) 0x2C ++ c.reserved 6 2
  else if op = 0x73 then c.reserved 3 1
  else if op = 0x7D then
    bad (s.noVf c (c.par 0 1)) 0x28 ++ bad (decide (1 < c.par 1 1)) 0x29 ++
      (if c.par 1 1 = 1 then bad (decide (c.par 2 1 < 9) || decide (21 < c.par 2 1)) 0x2A ++ bad (c.par 8 8 % 4096 != 0) 0x30 else []) ++
      c.reserved 3 5
  else if op = 0x7E then bad (s.noVf c (c.par 0 1)) 0x28 ++ c.reserved 1 3
  else if op = 0x7F then s.badVf c
  else []

/-- Every offset of the entry that breaks a rule of step 4. Of the bytes of a HELLO that R156 has the device ignore, R522 checks KEY_HANDLE and IN_LEN. (DEDUCED, log entry 53) -/
def State.badFields (s : State) (c : Cmd) : List Nat :=
  let op := c.opcode
  let exact := op == 1 || op == 2
  let pastPlen := match firstNonZero (c.params.drop (plenOf op)) with | some i => [0x28 + plenOf op + i] | none => []
  bad (c.plen != plenOf op) 1 ++
  (if op = 1 then []
   else
    bad (bits c.flags 4 4 != 0 || (c.last && op != 0x40 && op != 0x48 && op != 0x51)) 4 ++ bad (c.flags / 256 != 0) 5 ++
    bad (c.approval != 0 && !guardable op) 6) ++
  bad (c.handleZero && c.key != 0) 8 ++
  bad (decide (1048576 < c.inLen) || (c.noInput && c.inLen != 0) || ((op == 0x15 || op == 0x72) && c.inLen != 32)) 0x18 ++
  bad (decide (1048576 < c.outLen) || (c.noOutput && c.outLen != 0) || (exact && c.outLen != 64) || (op == 0x60 && c.outLen == 0)) 0x1C ++
  s.badParams c ++ (if c.plen = plenOf op then pastPlen else [])

/-- Step 4, fields: the DETAIL of BAD_DESCRIPTOR, the lowest offset; an ACTION out of range comes first (R294). -/
def State.checkFields (s : State) (c : Cmd) : Option Nat :=
  if c.opcode = 0x72 ∧ c.plen = 8 ∧ (c.par 2 2 = 0 ∨ 8 < c.par 2 2) then some 0x2A
  else (s.badFields c).min?

end Sys2Proof.Machine
end

