-- ==== Sys2Proof/Machine/Lists.lean ====
section
/-! DEFINITION. Scatter-gather lists, and the submission entries, lists and buffers that the normal world keeps in internal memory (R118, R153, R154). -/

namespace Sys2Proof.Machine

/-- How far the walk of a list has come. -/
inductive Walk
  /-- The list has ended: the total of its data entries. -/
  | ended (total : Nat)
  /-- A fault of R153. -/
  | fault
  /-- A segment could not be read. -/
  | dma
  /-- The segment at this address is needed next. -/
  | more (addr : Nat)
deriving DecidableEq, Repr

/-- The entries of one segment: `n` data entries and `total` bytes so far; the answer is the walk's end, or the next segment with the counts. -/
def walkEntries : List SgEntry → Nat → Nat → Walk ⊕ (Nat × Nat × Nat)
  | [], _, _ => .inl .fault
  | e :: t, n, total =>
    if 4 ≤ e.flags ∨ e.flags = 3 then .inl .fault
    else if e.flags.testBit 0 then .inr (e.addr, n, total)
    else if e.len = 0 ∨ 1048576 < e.len ∨ 1024 ≤ n then .inl .fault
    else if e.flags.testBit 1 then .inl (.ended (total + e.len))
    else walkEntries t (n + 1) (total + e.len)

/-- Whether a segment lies as R153 asks: 16-byte aligned, within 4 KiB. -/
def segmentOk (g : SgSegment) : Bool := g.addr % 16 == 0 && decide (g.addr % 4096 + 16 * g.entries.length ≤ 4096)

/-- The walk over the segments that have arrived; `k` segments have been walked (R153). -/
def walkSegs : List SgSegment → Nat → Nat → Nat → Nat → Walk
  | [], addr, k, _, _ => if addr % 16 ≠ 0 ∨ 64 ≤ k then .fault else .more addr
  | g :: t, addr, k, n, total =>
    if addr % 16 ≠ 0 ∨ 64 ≤ k then .fault
    else if g.error then .dma
    else if !segmentOk g then .fault
    else match walkEntries g.entries n total with
      | .inl w => w
      | .inr (next, n, total) => walkSegs t next (k + 1) n total

/-- The walk of the input list; a direct buffer or no input needs none. -/
def Cmd.inWalk (c : Cmd) : Walk :=
  if c.inLen = 0 ∨ c.inDirect then .ended c.inLen else walkSegs c.inSegs c.inAddr 0 0 0

/-- The walk of the output list. HELLO writes one contiguous buffer whatever FLAGS holds (R156). -/
def Cmd.outWalk (c : Cmd) : Walk :=
  if c.outLen = 0 ∨ c.outDirect ∨ c.opcode = 1 then .ended c.outLen else walkSegs c.outSegs c.outAddr 0 0 0

/-- The result of walking both lists, the input list first: the total of each, a failure, or the list and address of a segment still needed. -/
def Cmd.walk (c : Cmd) : Walk ⊕ (Nat × Nat) :=
  if c.opcode = 1 then .inr (c.inLen, c.outLen)
  else match c.inWalk with
    | .ended i =>
      (match c.outWalk with
       | .ended o => .inr (i, o)
       | w => .inl w)
    | w => .inl w

/-! The normal world (R218). -/

/-- The 16-byte entries of a byte string. -/
def sgEntries : Nat → List Byte → List SgEntry
  | 0, _ => []
  | n + 1, l =>
    let e : SgEntry := { addr := leAt l 0 8, len := leAt l 8 4, flags := leAt l 12 4 }
    if e.flags % 4 = 0 then e :: sgEntries n (l.drop 16) else [e]

/-- A segment in internal memory, read up to its end or to the 4 KiB boundary. -/
def State.nwSegment (s : State) (addr : Nat) : SgSegment × State :=
  let room := 4096 - addr % 4096
  let es := sgEntries (room / 16) (s.bytes addr room)
  let (_, ok, s) := s.dmaIn 13 .normal addr (16 * es.length)
  ({ addr := addr, entries := es, error := !ok }, s)

/-- A whole list in internal memory. -/
def State.nwList (s : State) (addr : Nat) : Nat → List SgSegment → List SgSegment × State
  | 0, acc => (acc, s)
  | k + 1, acc =>
    if addr % 16 ≠ 0 then (acc, s)
    else
      let (g, s) := s.nwSegment addr
      let acc := acc ++ [g]
      match walkSegs acc (match acc with | x :: _ => x.addr | [] => addr) 0 0 0 with
      | .more next => s.nwList next k acc
      | _ => (acc, s)

/-- The buffers that a command's input lies in. -/
def Cmd.inPieces (c : Cmd) : List (Nat × Nat) :=
  if c.inDirect then [(c.inAddr, c.inLen)] else (dataEntries c.inSegs).map fun e => (e.addr, e.len)

/-- Reading buffers in internal memory with world N, until an access receives an error response (R24, step 7; Table 10-4). -/
def State.nwRead (s : State) : List (Nat × Nat) → List Byte × Bool × State
  | [] => ([], true, s)
  | (a, n) :: t =>
    match s.dmaIn 12 .normal a n with
    | (l, true, s) => let (l', ok, s) := s.nwRead t; (l ++ l', ok, s)
    | (l, false, s) => (l, false, s)

/-- The address of the entry that the dispatcher fetches next from a queue pair. -/
def State.entryAddr (s : State) (f : Fn) (q : Nat) : Nat := (s.qp f q).sqAddr + 64 * (s.qp f q).sqHead

/-- The submission entry at an address of a normal-world SQ; `none` where its read receives an error response. -/
def State.nwEntry (s : State) (a : Nat) : Option (List Byte) × State :=
  let (l, ok, s) := s.dmaIn 13 .normal a 64
  (if ok then some l else none, s)

/-- The lists of a normal-world command, read from internal memory: the input list first (R24, R218). -/
def State.nwLists (s : State) (c : Cmd) : Cmd × State :=
  let (i, s) := if c.inLen = 0 ∨ c.inDirect then ([], s) else s.nwList c.inAddr 64 []
  let c := { c with inSegs := i }
  match c.inWalk with
  | .ended _ =>
    let (o, s) := if c.outLen = 0 ∨ c.outDirect ∨ c.opcode = 1 then ([], s) else s.nwList c.outAddr 64 []
    ({ c with outSegs := o }, s)
  | _ => (c, s)

end Sys2Proof.Machine
end

