-- ==== Sys2Proof/Machine/Resolve.lean ====
section
/-! DEFINITION. Steps 5 and 6 of R24: resolving keys, contexts and owners; policy, approvals, quotas (chapters 01, 07, 12). -/

namespace Sys2Proof.Machine

/-- What step 5 finds. -/
inductive Found
  /-- The key, with its stored form or encoding. -/
  | key (a : Attr) (value : List Byte)
  /-- An object whose body must be read from DDR5. -/
  | body (a : Attr) (o : Obj)
  /-- Its owner's key-encryption key is being re-derived (R517). -/
  | wait
  /-- A status and its DETAIL. -/
  | fail (status detail : Nat)
deriving DecidableEq, Repr

/-- Whether a slot's codes are right; a failing slot is marked defective (R273, R277). -/
def State.slotSound (s : State) (p : Nat) : Bool × State :=
  match s.slotAt p with
  | none => (false, s)
  | some sl => if sl.failing p = 0 then (true, s) else (false, s.defectSlot p (sl.failing p) true)

/-- The state of an owner's key-encryption key: sound, or what its loss means (R517). -/
def State.kekReady (s : State) (o : Nat) : Option Found :=
  match s.ownerAt o with
  | none => some (.fail 0x24 0)
  | some ow =>
    if ow.kekSlot.isSome then none
    else if s.keys.rederive.contains (.kek o) then some .wait else some (.fail 0x7F 0x15)

/-- Resolving an object: its owner's key-encryption key, then DDR5 (R283, R517). -/
def State.findObject (s : State) (k : Key) (o : Obj) : Found × State :=
  let owner := k.attr.owner
  let s := match s.ownerAt owner with
    | some ow => (match ow.kekSlot with | some p => (s.slotSound p).2 | none => s)
    | none => s
  match s.kekReady owner with
  | some f => (f, s)
  | none => if s.ddrStopped then (.fail 0x7F 0x16, s) else (.body k.attr o, s)

/-- Resolving a key handle for an owner (step 5 of R24, R159). -/
def State.findKey (s : State) (owner : Option Nat) (h : Nat) : Found × State :=
  if h = 0 ∨ owner ≠ some (hOwner h) then (.fail 0x20 0, s)
  else match s.keyAt (hOwner h) (hIndex h) with
    | none => (.fail 0x20 0, s)
    | some k =>
      if k.attr.cls ≠ hClass h then (.fail 0x20 0, s)
      else if s.ownerSuspended (hOwner h) then (.fail 0x24 0, s)
      else if k.attr.gen ≠ hGen h then (.fail 0x22 0, s)
      else match k.loc, k.obj with
        | .slot p, _ =>
          let r := s.slotSound p
          (if r.1 then .key k.attr (((s.slotAt p).map Slot.secret).getD []) else .fail 0x23 0, r.2)
        | .object, some o => s.findObject k o
        | _, _ => (.fail 0x23 0, s)

/-- The owner under which a function's contexts are held; secure firmware's number for a PF. -/
def State.ctxOwner (s : State) (f : Fn) (q : Nat) : Nat := (s.ownerOf f q).getD 0x3FF

/-- Resolving a context handle: the context, or a status (R159, R166, R217). -/
def State.findCtx (s : State) (f : Fn) (q h : Nat) : Ctx ⊕ Nat :=
  if hClass h ≠ 0x3F ∨ hOwner h ≠ s.ctxOwner f q then .inr 0x20
  else match tblGet none s.dsp.ctxs (hIndex h) with
    | none => .inr 0x20
    | some x => if x.fn ≠ f ∨ x.owner ≠ s.ctxOwner f q then .inr 0x20 else if x.gen ≠ hGen h then .inr 0x22 else .inl x

/-- Opcodes that name a context: UPDATE, FINAL, VERIFY, CTX_EXPORT. -/
def ctxOp (op : Nat) : Bool :=
  op == 6 || (decide (0x41 ≤ op) && decide (op ≤ 0x43)) || (decide (0x49 ≤ op) && decide (op ≤ 0x4B)) || op == 0x52 || op == 0x53

/-- Whether a command resolves KEY_HANDLE as a key. -/
def Cmd.namesKey (c : Cmd) : Bool :=
  let op := c.opcode
  op == 0x12 || op == 0x13 || op == 0x14 || op == 0x15 || op == 0x21 || op == 0x22 || op == 0x30 || op == 0x48 || op == 0x50 ||
    op == 0x51 || ((op == 0x11 || op == 0x20 || op == 0x31) && c.key != 0)

/-- WRAP_HANDLE, where a command names one. -/
def Cmd.wrapHandle (c : Cmd) : Nat := if c.opcode = 0x12 ∧ c.par 8 1 = 1 then c.par 0 8 else 0

/-- Device keys a command needs; a one-shot MAC_INIT or AEAD_INIT creates no context (R517). -/
def Cmd.deviceNeeds (c : Cmd) : List Nat :=
  let op := c.opcode
  if op = 0x15 then [0, 1] else if op = 0x70 ∨ op = 0x71 then [2]
  else if c.last then []
  else if op = 6 ∨ op = 7 ∨ (0x48 ≤ op ∧ op ≤ 0x4B) ∨ (0x51 ≤ op ∧ op ≤ 0x53) then [4] else []

/-- A device key that is away: waited for, or lost. -/
def State.deviceMissing (s : State) (c : Cmd) : Option Found :=
  if c.deviceNeeds.any fun n => s.keys.lost.contains (.slot n) then some (.fail 0x7F 0x15)
  else if c.deviceNeeds.any fun n => s.keys.rederive.contains (.slot n) then some .wait
  else none

/-- Whether an OWNER_REQ can be asked for: 0xFFFF, or an ID neither loaded nor bound (R290, R294). -/
def State.ownerFree (s : State) (o : Nat) : Bool :=
  o == 0xFFFF || (decide (o < 1024) && (s.ownerAt o).isNone &&
    !(s.vfs.any fun e => s.rd (R.VFS_OWNER_OWNER.add (0x2000 * e.1)) == o && s.rd (R.VFS_STATE_STATE.add (0x2000 * e.1)) != 0) &&
    !((List.range 64).any fun n => s.flag (R.WLD_NQ_BIND_BOUND.ix n) && s.rd (R.WLD_NQ_BIND_OWNER.ix n) == o))

/-- The checks of QUORUM_CHALLENGE at step 5 (R294). -/
def State.findChallenge (s : State) (c : Cmd) : Nat :=
  let o := c.par 0 2
  let act := c.par 2 2
  if c.fn.isPf = false ∧ s.ownerOf c.fn c.qp ≠ some o then 0x20
  else if act = 1 then (if s.ownerFree o then 0 else 0x20)
  else match s.ownerAt o with
    | none => 0x20
    | some ow => if 7 ≤ act ∧ ow.defn.policy.testBit 7 = false then 0x21 else 0

/-- The checks of QUORUM_APPROVE at step 5 (R296). -/
def State.findApproval (s : State) (c : Cmd) : Nat :=
  let id := c.par 0 2
  let seen := fun (action owner : Nat) => action != 1 && (c.fn.isPf || s.ownerOf c.fn c.qp == some owner)
  match s.approvalAt id with
  | some a => if seen a.action a.owner then 0 else 0x20
  | none =>
    if s.keys.ended.contains id && seen (tblGet 0 s.keys.endedAction id) (tblGet 0 s.keys.endedOwner id) then 0x25 else 0x20

/-- The checks of VF_CREATE after its fields (R126). -/
def State.findVfOwner (s : State) (c : Cmd) : Nat :=
  if (s.ownerAt (c.par 4 2)).isNone then 0x20 else if s.ownerSuspended (c.par 4 2) then 0x24 else 0

/-- Whether the owner that a function is bound to has been destroyed (R290). -/
def State.ownerGone (s : State) (c : Cmd) : Bool :=
  match s.ownerOf c.fn c.qp with
  | some o => (s.ownerAt o).isNone && c.opcode != 1 && c.opcode != 2 && c.opcode != 3
  | none => false

/-- Step 5 apart from KEY_HANDLE and WRAP_HANDLE as keys: a status, 0 for none. (DEDUCED, log entry 53) -/
def State.checkNames (s : State) (c : Cmd) : Nat :=
  if s.ownerGone c then 0x24
  else if ctxOp c.opcode then (match s.findCtx c.fn c.qp c.key with | .inl _ => 0 | .inr st => st)
  else if c.opcode = 0x72 then s.findChallenge c
  else if c.opcode = 0x73 then s.findApproval c
  else if c.opcode = 0x7F then s.findVfOwner c
  else 0

/-! Totals of multi-part commands (R168), compared at step 4. -/

/-- FINAL and VERIFY opcodes. -/
def finalOp (op : Nat) : Bool := op == 0x42 || op == 0x43 || op == 0x4A || op == 0x4B || op == 0x53

/-- Input bytes of a command that are not counted: the expected value, or the tag of an AEAD decryption. -/
def Cmd.uncounted (c : Cmd) (x : Ctx) : Nat :=
  if c.opcode = 0x43 ∨ c.opcode = 0x4B then c.par 8 2 else if c.opcode = 0x53 ∧ x.kind = 3 then x.tagLen else 0

/-- Whether the totals of a command on its context differ. -/
def State.totalsDiffer (s : State) (c : Cmd) : Bool :=
  if c.opcode = 0x51 ∧ c.last then
    let tag := if c.par 0 1 = 1 then c.par 1 1 else 0
    decide (c.inLen < tag) || decide (c.inLen - tag < c.par 4 4)
  else if finalOp c.opcode then
    (match s.findCtx c.fn c.qp c.key with
     | .inl x =>
       decide (c.inLen < c.uncounted x) || x.count + (c.inLen - c.uncounted x) != c.par 0 8 ||
         (c.opcode == 0x53 && decide (c.par 0 8 < x.aadLen))
     | .inr _ => false)
  else false

/-! Step 6: policy. -/

/-- The algorithm of the key a command works with: of KEY_HANDLE, or PK_ALG. -/
def Cmd.alg (c : Cmd) : Nat :=
  match c.resolved with
  | some (a, _) => a.alg
  | none => if c.opcode = 0x20 then c.par 8 2 else if c.opcode = 0x31 then c.par 10 2 else c.par 0 2

/-- The attributes of the resolved key. -/
def Cmd.attr (c : Cmd) : Attr := match c.resolved with | some (a, _) => a | none => {}

/-- Whether the resolved key carries a usage bit. -/
def Cmd.uses (c : Cmd) (u : Nat) : Bool := Nat.land c.attr.usage u == u

/-- A policy bit of an owner (Table 12-10). -/
def State.policyBit (s : State) (o b : Nat) : Bool :=
  match s.ownerAt o with
  | some ow => ow.defn.policy.testBit b
  | none => false

/-- Whether an owner allows an algorithm's family (R288). -/
def State.algAllowed (s : State) (o a : Nat) : Bool :=
  match s.ownerAt o with
  | some ow => ow.defn.algAllow.testBit (algFamily a)
  | none => false

/-- Whether the policy refuses a new key (R281, R288). -/
def State.newKeyRefused (s : State) (o a usage kflags : Nat) (pub : Bool) : Bool :=
  (if pub then pubClass a == 0 || !usesWithin usage (pubUses a) else keyClass a == 0 || !usesWithin usage (privUses a)) ||
    !s.algAllowed o a || (kflags.testBit 0 && !s.policyBit o 1) || (kflags.testBit 3 && (symAlg a || pub))

/-- Algorithms whose private keys take one exact usage (R329, R372, R389). -/
def exactUse (a : Nat) : Bool := algFamily a == 1 || algFamily a == 2 || algFamily a == 3 || algFamily a == 5

/-- Whether a new secret key of KEY_DERIVE or of a KEM has an algorithm and length that R298 and R332 allow. -/
def derivedAlg (a keyLen : Nat) (derive : Bool) : Bool :=
  if a = 0x0901 then keyLen == 0 || (derive && keyLen == 16)
  else if a = 0x0902 then keyLen == 0 || (derive && keyLen == 32)
  else if derive then ((0x0B01 ≤ a && a ≤ 0x0B05) || a == 0x0C01) && decide (16 ≤ keyLen) && decide (keyLen ≤ 128)
  else a == 0x0C01

/-- Policy of SIGN and VERIFY parameters (R333, R373, R378, R397). -/
def Cmd.modeRefused (c : Cmd) (det : Bool) : Bool :=
  !phAccepted c.alg (c.par 0 1) (c.par 1 1) || !padAccepted c.alg (c.par 1 1) (c.par 4 1) (c.par 5 1) || !ctxAccepted c.alg (c.par 2 1) ||
    (det && c.par 3 1 == 1 && !detAccepted c.alg)

/-- Policy of the KEM and agreement commands (R288, R330 to R332, R400). -/
def State.ssRefused (s : State) (c : Cmd) (o : Nat) : Bool :=
  !s.algAllowed o c.alg ||
    (if c.par 0 1 = 0 then !s.policyBit o 4
     else !derivedAlg (c.par 2 2) 0 false || s.newKeyRefused o (c.par 2 2) (c.par 4 2) (c.par 6 2) false)

/-- CMP_LEN and TOTAL_LEN rules of hash and MAC contexts (R360, R362, R423). -/
def Cmd.hashRefused (c : Cmd) (x : Ctx) (mac : Bool) : Bool :=
  let total := c.par 0 8
  let cmp := c.par 8 2
  let sha := finalOp c.opcode && !mac && ((x.alg == 0x0A01 && decide (2 ^ 61 ≤ total)) ||
    ((x.alg == 0x0A02 || x.alg == 0x0A03) && decide (2 ^ 125 ≤ total)))
  let range := !(c.opcode == 0x43 || c.opcode == 0x4B) ||
    (if !mac then (if 0x0A07 ≤ x.alg then decide (16 ≤ cmp) && decide (cmp ≤ 1024) else cmp == digestLen (x.alg % 256))
     else if x.alg = 0x0B06 then decide (8 ≤ cmp) && decide (cmp ≤ 16)
     else if x.alg ≤ 0x0B03 then decide (16 ≤ cmp) && decide (cmp ≤ digestLen (x.alg % 256))
     else cmp == x.kmacLen)
  sha || !range

/-- Policy of commands on a context. -/
def State.ctxRefused (s : State) (c : Cmd) : Bool :=
  match s.findCtx c.fn c.qp c.key with
  | .inr _ => false
  | .inl x =>
    if c.opcode = 6 then x.kind == 4
    else if hashOp c.opcode then x.kind != 1 || c.hashRefused x false
    else if c.opcode ≤ 0x4B then x.kind != 2 || c.hashRefused x true
    else (x.kind != 3 && x.kind != 4) || (c.opcode == 0x53 && (decide (2 ^ 36 - 32 < c.par 0 8 - x.aadLen) || decide (2 ^ 61 - 1 < x.aadLen)))

/-- Whether step 6 refuses a command with KEY_POLICY. (DEDUCED, log entry 54) -/
def State.policyRefuses (s : State) (c : Cmd) : Bool :=
  let op := c.opcode
  let o := (s.ownerOf c.fn c.qp).getD 0x400
  let a := c.par 0 2
  if op = 0x10 then
    s.newKeyRefused o a (c.par 2 2) (c.par 4 2) false || (exactUse a && c.par 2 2 != privUses a)
  else if op = 0x11 then
    c.par 0 1 == 1 && (!s.policyBit o 5 || (c.key != 0 && !(c.uses uUnwrap && c.attr.cls == 1)) ||
      s.newKeyRefused o (c.par 2 2) (c.par 4 2) (c.par 6 2) (c.key == 0 || keyClass (c.par 2 2) == 0))
  else if op = 0x12 then
    c.par 8 1 == 1 && (if c.wrapHandle = 0 then !publicClass c.attr.cls
      else !(match c.wrapKey with | some (w, _) => w.cls == 1 && Nat.land w.usage uWrap != 0 | none => false) ||
        !c.attr.kflags.testBit 0 || !s.policyBit o 1)
  else if op = 0x14 then
    !(c.uses uDerive && c.attr.cls == 0xC) || !derivedAlg (c.par 2 2) (c.par 8 2) true ||
      s.newKeyRefused o (c.par 2 2) (c.par 4 2) (c.par 6 2) false || ((c.par 6 2).testBit 0 && !c.attr.kflags.testBit 0)
  else if op = 0x20 then
    (c.key != 0 && !c.uses uEncaps) || !(algFamily c.alg == 1 || algFamily c.alg == 5) || s.ssRefused c o
  else if op = 0x21 then !c.uses uDecaps || s.ssRefused c o
  else if op = 0x22 then !(c.uses uAgree && c.attr.cls == 8) || s.ssRefused c o
  else if op = 0x30 then !c.uses uSign || c.modeRefused true
  else if op = 0x31 then (if c.key = 0 then Nat.land (pubUses c.alg) uVerify == 0 else !c.uses uVerify) || c.modeRefused false
  else if op = 0x40 then algFamily a != 0xA
  else if op = 0x48 then algFamily a != 0xB || !c.uses uMac || (if a = 0x0B06 then c.attr.cls != 1 else c.attr.alg != a)
  else if op = 0x50 then
    let m := c.par 1 1
    let enc := c.par 0 1 == 0
    if m = 7 then !(c.uses (if enc then uEncrypt else uDecrypt) && c.attr.cls == (if enc then 0xB else 0xA))
    else if 5 ≤ m then !(c.uses (if enc then uWrap else uUnwrap) && c.attr.cls == 1)
    else !(c.uses (if enc then uEncrypt else uDecrypt) && c.attr.cls == 1)
  else if op = 0x51 then !(c.uses (if c.par 0 1 = 0 then uEncrypt else uDecrypt) && c.attr.cls == 1)
  else if ctxOp op then s.ctxRefused c
  else false

/-- AAD bytes among the next `n` counted bytes of an AEAD operation that has counted `count`. -/
def aadPart (aadLen count n : Nat) : Nat := min n (aadLen - count)

/-- Output of the modes of CIPHER that the capacity must allow for (Table 17-3, R401). -/
def Cmd.cipherNeed (c : Cmd) : Nat :=
  let n := c.inLen
  let enc := c.par 0 1 == 0
  let m := c.par 1 1
  if m = 4 then (if enc then n + 16 - n % 16 else n - 1)
  else if m = 5 then (if enc then n + 8 else n - 8)
  else if m = 6 then (if enc then (n + 7) / 8 * 8 + 8 else n - 8)
  else if m = 7 then (if enc then rsaK c.alg else rsaK c.alg - 2 * digestLen (c.par 8 1) - 2)
  else n

/-- The output capacity a command needs (R154). -/
def State.outNeed (s : State) (c : Cmd) : Nat :=
  let op := c.opcode
  let plain := match c.resolved with | some (_, k) => k.length | none => 0
  if op = 0x10 then (if c.outLen = 0 then 0 else pubLen (c.par 0 2))
  else if op = 0x12 then
    (if c.par 8 1 = 0 then plain + 0x50 else if c.wrapHandle = 0 then plain else (plain + 7) / 8 * 8 + 8)
  else if op = 0x15 then 3565
  else if op = 0x20 then ctLen c.alg + (if c.par 0 1 = 0 then 32 else 0)
  else if op = 0x21 then (if c.par 0 1 = 0 then 32 else 0)
  else if op = 0x22 then (if c.par 0 1 = 0 then agreeLen c.alg else 0)
  else if op = 0x30 then sigLen c.alg
  else if op = 0x40 then (if c.last then max 1 (digestLen (c.par 0 2 % 256)) else 0)
  else if op = 0x48 then (if c.last then tagLen (c.par 0 2) (c.par 4 2) else 0)
  else if op = 0x50 then c.cipherNeed
  else if op = 0x51 then
    let tag := c.par 1 1
    let iv := if c.par 2 1 = 1 then 12 else 0
    if !c.last then iv + (c.inLen - aadPart (c.par 4 4) 0 c.inLen)
    else if c.par 0 1 = 0 then iv + (c.inLen - c.par 4 4) + tag else c.inLen - tag - c.par 4 4
  else if op = 6 then 556
  else if op = 0x72 then 32
  else match s.findCtx c.fn c.qp c.key with
    | .inl x =>
      if op = 0x42 then max 1 (digestLen (x.alg % 256))
      else if op = 0x4A then tagLen x.alg x.kmacLen
      else if op = 0x52 then c.inLen - aadPart x.aadLen x.count c.inLen
      else if op = 0x53 then
        let n := c.inLen - c.uncounted x
        n - aadPart x.aadLen x.count n + (if x.kind = 4 then x.tagLen else 0)
      else 0
    | .inr _ => 0

/-- The action that a command needs an approval of, 0 for none (R292). -/
def State.actionOf (s : State) (c : Cmd) : Nat :=
  let o := (s.ownerOf c.fn c.qp).getD 0x400
  let dual := c.attr.kflags.testBit 1 || (match c.wrapKey with | some (w, _) => w.kflags.testBit 1 | none => false)
  if dual then 4
  else if c.opcode = 0x13 ∧ s.policyBit o 3 then 5
  else if c.opcode = 0x12 ∧ c.par 8 1 = 1 ∧ c.wrapHandle ≠ 0 ∧ s.policyBit o 2 then 6 else 0

/-- Examining the approval that a command names: the digest it binds, or none; the approval is consumed if it is the owner's (R163, R297). -/
def State.useApproval (s : State) (id action owner : Nat) : Option (List Byte) × State :=
  match s.approvalAt id with
  | none => (none, s)
  | some a =>
    if a.owner ≠ owner then (none, s)
    else (if a.met && a.action == action then some a.digest else none, s.endApproval id)

/-! Quotas (R127, R166, R220). -/

/-- The keys that a command creates: whether each goes to a slot, and the bytes of its body. -/
def State.creates (_s : State) (c : Cmd) : List (Bool × Nat) :=
  let op := c.opcode
  let one := fun (a len : Nat) (kflags : Nat) => (goesToSlot (keyClass a) len (kflags.testBit 2), len)
  if op = 0x10 then
    let a := c.par 0 2
    one a (storedLen a (c.par 6 2)) (c.par 4 2) :: (if (c.par 4 2).testBit 3 then [(false, pubLen a)] else [])
  else if op = 0x14 then [one (c.par 2 2) (storedLen (c.par 2 2) (c.par 8 2)) (c.par 6 2)]
  else if ssOp op ∧ c.par 0 1 = 1 then
    [one (c.par 2 2) (storedLen (c.par 2 2) (if op = 0x22 then agreeLen c.alg else 32)) (c.par 6 2)]
  else if op = 0x11 ∧ c.par 0 1 = 1 then
    (if c.key = 0 then [(false, c.inLen)] else [one (c.par 2 2) (storedLen (c.par 2 2) 16) (c.par 6 2)])
  else []

/-- Slots or objects that VFs have reserved and not yet filled. -/
def State.unfilled (s : State) (isObj : Bool) : Nat :=
  s.vfs.foldl (fun a e =>
    let used := s.rd ((if isObj then R.VFS_OBJECTS_USED else R.VFS_SLOTS_USED).add (0x2000 * e.1))
    a + ((if isObj then e.2.objReserve * 1024 else e.2.slotReserve) - used)) 0

/-- Used, reserved and limit of a function for slots or objects. -/
def State.quotaOf (s : State) (f : Fn) (isObj : Bool) : Nat × Nat × Nat :=
  match f with
  | .vf p n =>
    if isObj then (s.rd (R.VFS_OBJECTS_USED.vf p n), (s.vf p n).objReserve * 1024, s.rd (R.VFS_OBJ_LIMIT_LIMIT.vf p n) * 1024)
    else (s.rd (R.VFS_SLOTS_USED.vf p n), (s.vf p n).slotReserve, s.rd (R.VFS_SLOTS_LIMIT.vf p n))
  | _ =>
    if isObj then (s.nwObjs, 0, s.rd R.WLD_NW_QUOTA_OBJ_LIMIT * 1024) else (s.nwSlots, 0, s.rd R.WLD_NW_QUOTA_SLOT_LIMIT)

/-- Whether `k` more slots or objects would pass the limit of a function (R127, R220). -/
def State.limitPassed (s : State) (f : Fn) (isObj : Bool) (k : Nat) : Bool :=
  let (used, _, limit) := s.quotaOf f isObj
  k != 0 && decide (limit < used + k)

/-- Whether the device has no room for `k` more slots or objects of a function, beyond its reservation in the unreserved remainder (R127, R253). -/
def State.roomShort (s : State) (f : Fn) (isObj : Bool) (k : Nat) (bodies : List Nat) : Bool :=
  let (used, reserved, _) := s.quotaOf f isObj
  let free := if isObj then s.objCap - s.objects.length else s.freeSlots.length
  k != 0 && (decide (free < k) || (isObj && !s.objRoom bodies) ||
    (decide (reserved < used + k) && decide (free < s.unfilled isObj - (reserved - used) + k)))

/-- The quotas, then the capacity, of what a command creates: a status, 0 for none (R24, step 6). -/
def State.quotaOfCmd (s : State) (c : Cmd) (l : List (Bool × Nat)) : Nat :=
  let slots := (l.filter fun x => x.1).length
  let objs := (l.filter fun x => !x.1).map Prod.snd
  if s.limitPassed c.fn false slots || s.limitPassed c.fn true objs.length then 0x44
  else if s.roomShort c.fn false slots [] || s.roomShort c.fn true objs.length objs then 0x43 else 0

/-- Whether a command creates a context. -/
def Cmd.makesCtx (c : Cmd) : Bool := ((c.opcode == 0x40 || c.opcode == 0x48 || c.opcode == 0x51) && !c.last) || c.opcode == 7

/-- Contexts a function may hold (R166, R217). -/
def State.ctxLimit (s : State) (f : Fn) : Nat :=
  match f with
  | .pf _ => 256
  | .vf _ _ => 64 * s.qpCount f
  | .nw => 64 * ((List.range 64).filter fun n => s.flag (R.WLD_NQ_BIND_BOUND.ix n)).length

/-- The quota of a context creation: a status, 0 for none. -/
def State.ctxCheck (s : State) (c : Cmd) : Nat :=
  if !c.makesCtx then 0
  else if s.ctxLimit c.fn ≤ (s.dsp.ctxs.filter fun e => match e.2 with | some x => x.fn == c.fn | none => false).length then 0x44
  else if 3072 ≤ s.dsp.ctxs.length then 0x43 else 0

/-- Divided resources of a VF_CREATE beyond the pool's remainder (R126). -/
def State.vfPoolShort (s : State) (c : Cmd) : Bool :=
  decide (s.poolQpFree < c.par 1 1) || decide (s.poolVecFree < c.par 2 1) || decide (s.slotsUnreserved < c.par 6 2) ||
    decide (s.objUnreserved < c.par 12 4)

/-- The AES-KWP forms, which run on a symmetric lane (R419, R429). -/
def Cmd.wraps (c : Cmd) : Bool := (c.opcode == 0x11 && c.par 0 1 == 1 && c.key != 0) || (c.opcode == 0x12 && c.wrapHandle != 0)

/-- Step 6: a status and DETAIL, or none with the digest of the approval used; the state after the approval is examined. (DEDUCED, log entry 53) -/
def State.checkPolicy (s : State) (c : Cmd) : ((Nat × Nat) ⊕ Option (List Byte)) × State :=
  let act := s.actionOf c
  let o := (s.ownerOf c.fn c.qp).getD 0x400
  if s.policyRefuses c then (.inl (0x21, 0), s)
  else if c.outLen < s.outNeed c ∧ c.opcode ≠ 0x60 then (.inl (0x12, 4), s)
  else if c.opcode ≠ 0x71 ∧ act = 0 ∧ c.approval ≠ 0 then (.inl (0x13, 6), s)
  else
    let r := if c.opcode ≠ 0x71 ∧ act ≠ 0 then s.useApproval c.approval act o else (some [], s)
    match r with
    | (none, s) => (.inl (0x25, 0), s)
    | (some d, s) =>
      match s.quotaOfCmd c (s.creates c), s.ctxCheck c with
      | 0, 0 =>
        if c.opcode = 0x7F ∧ s.vfPoolShort c then (.inl (0x43, 0), s)
        else if c.opcode = 0x72 ∧ 256 ≤ s.keys.approvals.length then (.inl (0x43, 0), s)
        else (.inr (if d.isEmpty then none else some d), s)
      | 0, st => (.inl (st, 0), if st = 0x43 then s.setEvt R.DSP_EVT_CTX_FULL else s)
      | st, _ => (.inl (st, 0), s)

end Sys2Proof.Machine
end

