-- ==== Sys2Proof/Machine/Units.lean ====
section
/-! DEFINITION. Step 7 of R24: which unit a command needs, which it gets, and what a grant does (R174, R323, R357, R383, R384, R387, R412). -/

namespace Sys2Proof.Machine

/-- The algorithm of the context that a command names. -/
def State.ctxAlg (s : State) (c : Cmd) : Nat :=
  match s.findCtx c.fn c.qp c.key with
  | .inl x => x.alg
  | .inr _ => 0

/-- Whether a command works in MODE 2, so that a hash lane computes its digest first (R368). -/
def Cmd.preHash (c : Cmd) : Bool := (c.opcode == 0x30 || c.opcode == 0x31) && c.par 0 1 == 2 && !c.preHashed

/-- The pool whose unit a command needs next, and whether it needs a whole hash tile (Table 15-1); none for work of the dispatcher itself. -/
def State.need (s : State) (c : Cmd) : Option (Pool × Bool) :=
  let op := c.opcode
  let asym := fun (a : Nat) => some (algPool a, algPool a == .hash)
  let mac := fun (a : Nat) => if a = 0x0B06 then some (Pool.sym, false) else some (Pool.hash, false)
  if op = 0x10 then (if symAlg (c.par 0 2) then none else asym (c.par 0 2))
  else if op = 0x14 ∨ hashOp op ∨ c.preHash then some (.hash, false)
  else if ssOp op ∨ op = 0x30 ∨ op = 0x31 then asym c.alg
  else if op = 0x48 then mac (c.par 0 2)
  else if 0x49 ≤ op ∧ op ≤ 0x4B then mac (s.ctxAlg c)
  else if op = 0x50 then some (if c.par 1 1 = 7 then .bignum else .sym, false)
  else if (0x51 ≤ op ∧ op ≤ 0x53) ∨ c.wraps then some (.sym, false)
  else none

/-- Whether a hash lane is reserved with the unit: for the action digest, for an EdDSA public key or message, for RFC 6979 (R367, R396, R398). -/
def Cmd.needsLane (c : Cmd) : Bool :=
  let ed := c.alg == 0x0701 || c.alg == 0x0702
  c.digest.isSome || (c.opcode == 0x10 && ed) || (c.opcode == 0x30 && ed && c.par 0 1 == 0) ||
    (c.opcode == 0x30 && algFamily c.alg == 6 && c.par 3 1 == 1)

/-- Whether a command is a long operation (R384). -/
def Cmd.long (c : Cmd) : Bool := c.opcode == 0x10 && (algFamily (c.par 0 2) == 8 || algFamily (c.par 0 2) == 5)

/-- Units of a pool that run long operations, and the limit on them (R384). -/
def State.longBusy (s : State) (p : Pool) : Nat :=
  match p with
  | .bignum => ((List.range 5).filter fun u => s.flag (R.BNE_UNIT_LONG.ix u)).length
  | .code => ((List.range 3).filter fun u => s.flag (R.CBE_ENGINE_LONG.ix u)).length
  | _ => 0

/-- LONG_MAX of a pool (R384). -/
def State.longMax (s : State) (p : Pool) : Nat :=
  match p with
  | .bignum => max 1 (min 4 (s.rd R.BNE_CTRL_LONG_MAX))
  | .code => max 1 (min 2 (s.rd R.CBE_CTRL_LONG_MAX))
  | _ => 0

/-- The owner number that LAST_OWNER records for a command. -/
def State.cmdOwner (s : State) (c : Cmd) : Nat := (s.ownerOf c.fn c.qp).getD 0x3FF

/-- Units of a pool that run a command. -/
def State.busyUnits (s : State) (p : Pool) : Nat :=
  ((List.range (poolSize p)).filter fun u => (List.range 4).any fun l => tblGet 0 s.eng.running (laneKey p u l) != 0).length

/-- Whether a unit may take one more command under the limit of R49. -/
def State.underLimit (s : State) (p : Pool) (u : Nat) : Bool :=
  let l := tblGet 0 s.pwr.limits p.num
  l == 0 || decide (s.busyUnits p < l) || (List.range 4).any fun k => tblGet 0 s.eng.running (laneKey p u k) != 0

/-- Whether a domain takes new commands: ON or BASKING, and no request to leave that state is pending or under way (R57, R60, step 4). -/
def State.domTakes (s : State) (d : Nat) : Bool :=
  let p := s.rd (R.PWR_DOM_STAT_PENDING.ix d)
  s.domAnswers d && !(p == 1 || p == 2) && decide (tblGet 0 s.pwr.moving d < 2)

/-- Whether a unit serves and is idle, for a hash tile whether it serves at all. -/
def State.unitFree (s : State) (p : Pool) (u : Nat) : Bool :=
  s.inService p u && s.rd (unitState p u) == 1 && s.domTakes (unitDomain p u) && s.underLimit p u

/-- Free lanes of a tile for lane commands: it is not held and runs no tile command (R357). -/
def State.laneFree (s : State) (k : Nat) : Bool :=
  let u := k / 4
  s.unitFree .hash u && !s.flag (R.HSH_TILE_HELD.ix u) && !s.flag (R.HSH_TILE_TILE_CMD.ix u) &&
    tblGet 0 s.eng.running (laneKey .hash u (k % 4)) == 0

/-- The group of R323 that a unit falls in for an owner; 0 stands before all, for a matching residency (R383). -/
def State.group (s : State) (p : Pool) (u l owner : Nat) (resident : Bool) : Nat :=
  if resident then 0
  else if !s.domOn (unitDomain p u) then 3
  else if s.rd (unitLastOwner p u l) = owner then 1 else 2

/-- The first of a list of unit numbers with the smallest group. -/
def bestOf (g : Nat → Nat) (l : List Nat) : Option Nat :=
  l.foldl (fun b u => match b with | none => some u | some v => if g u < g v then some u else some v) none

/-- Whether an engine holds the key that a command names resident (R387). -/
def State.resident (s : State) (c : Cmd) (u : Nat) : Bool :=
  c.key != 0 &&
    ((c.opcode == 0x20 && s.flag (R.CBE_ENGINE_PK_RES.ix u) && s.rd (R.CBE_PK_RES_HANDLE.ix u) == c.key) ||
     (c.opcode == 0x21 && s.flag (R.CBE_ENGINE_SK_RES.ix u) && s.rd (R.CBE_SK_RES_HANDLE.ix u) == c.key))

/-- The lane a lane command takes: 4 × tile + lane. -/
def State.pickLane (s : State) (owner : Nat) : Option Nat :=
  bestOf (fun k => s.group .hash (k / 4) (k % 4) owner false) ((List.range 36).filter s.laneFree)

/-- The tile a waiting tile command holds from now on: the serving tile with the fewest busy lanes, at most four held at once (R357). -/
def State.holdTile (s : State) (c : Cmd) : State :=
  if s.eng.heldFor.any (fun e => e.2 == c.id + 1) ∨ 4 ≤ s.eng.heldFor.length then s
  else
    let cand := (List.range 9).filter fun u => s.unitFree .hash u && !s.flag (R.HSH_TILE_HELD.ix u) && !s.flag (R.HSH_TILE_TILE_CMD.ix u)
    match bestOf (fun u => popCount 4 (s.busyLanes u)) cand with
    | some u => ({ s with eng := { s.eng with heldFor := tblPut 0 s.eng.heldFor u (c.id + 1) } } : State).wr (R.HSH_TILE_HELD.ix u) 1
    | none => s

/-- The unit a command takes if it is granted one now: unit × 4 + lane (R323, R357, R383, R412). -/
def State.pickUnit (s : State) (c : Cmd) (p : Pool) (tile : Bool) : Option Nat :=
  let owner := s.cmdOwner c
  match p, tile with
  | .hash, false => s.pickLane owner
  | .hash, true =>
    ((s.eng.heldFor.find? fun e => e.2 == c.id + 1).map Prod.fst).bind fun u =>
      if s.busyLanes u = 0 ∧ s.unitFree .hash u then some (4 * u) else none
  | p, _ =>
    if c.long ∧ s.longMax p ≤ s.longBusy p then none
    else (bestOf (fun u => s.group p u 0 owner (p == .code && s.resident c u)) ((List.range (poolSize p)).filter (s.unitFree p))).map (4 * ·)

/-- The hash-lane mode of an algorithm: 1 SHA-2, 2 Keccak. (DESIGN CHOICE, log entry 56) -/
def laneMode (a : Nat) : Nat :=
  if algFamily a = 0xA then (if a ≤ 0x0A03 then 1 else 2)
  else if algFamily a = 0xB then (if a ≤ 0x0B03 then 1 else 2)
  else if algFamily a = 3 then (if a % 2 = 1 then 1 else 2)
  else if a = 0x0702 then 2 else 1

/-- What a lane works with: its mode, and whether it is masked (R366). (DESIGN CHOICE, log entry 56) -/
def State.laneWork (s : State) (c : Cmd) : Nat × Bool :=
  let op := c.opcode
  if c.preHash then ((if c.par 1 1 ≤ 3 then 1 else 2), false)
  else if op = 0x40 then (laneMode (c.par 0 2), false)
  else if hashOp op then (laneMode (s.ctxAlg c), false)
  else if op = 0x14 then ((if c.par 0 1 = 4 ∨ c.par 0 1 = 5 then 2 else 1), true)
  else if op = 0x48 then (laneMode (c.par 0 2), true)
  else if 0x49 ≤ op ∧ op ≤ 0x4B then (laneMode (s.ctxAlg c), true)
  else (laneMode (if op = 0x10 then c.par 0 2 else c.alg), op != 0x31)

/-- A lane begins to run a command. -/
def State.startLane (s : State) (u l mode : Nat) (masked snoop : Bool) (owner : Nat) : State :=
  let k := 4 * u + l
  (((s.wr (R.HSH_LANE_MODE.ix k) mode).wr (R.HSH_LANE_MASKED.ix k) masked.toNat).wr (R.HSH_LANE_SNOOP.ix k) snoop.toNat).wr
    (R.HSH_LANE_LAST_OWNER.ix k) owner

/-- WORK of a symmetric lane. -/
def symWork (op : Nat) : Nat :=
  if op = 0x50 then 1 else if 0x51 ≤ op ∧ op ≤ 0x53 then 2 else if op = 0x11 ∨ op = 0x12 then 4 else 3

/-- An engine holds a key resident: its handle and its body (R387). -/
def State.loadResident (s : State) (c : Cmd) (u : Nat) : State :=
  let pub := decide (c.opcode = 0x20)
  let s := if pub then (s.wr (R.CBE_ENGINE_PK_RES.ix u) 1).wr (R.CBE_PK_RES_HANDLE.ix u) c.key
    else (s.wr (R.CBE_ENGINE_SK_RES.ix u) 1).wr (R.CBE_SK_RES_HANDLE.ix u) c.key
  { s with eng := { s.eng with resKey := tblPut [] s.eng.resKey (if pub then u else u + 8) c.secret } }

/-- A code-based engine takes a command: its residency serves it, or it loads the key; CBE_HITS counts a command whose body was not read (R387, R388). -/
def State.takeResident (s : State) (c : Cmd) (u : Nat) : State :=
  let s := if c.hit then s.wrapAdd R.CBE_HITS_COUNT 1 else s
  if c.long then (s.endResidency .code u).wr (R.CBE_ENGINE_LONG.ix u) 1
  else if s.resident c u ∨ c.key = 0 then s
  else s.loadResident c u

/-- Whether a unit's operand memory must be cleared before it serves an owner: of a hash tile, if any lane last served another (R328, R358, R385, R413). -/
def State.ownerSwitch (s : State) (p : Pool) (u owner : Nat) : Bool :=
  match p with
  | .hash => (List.range 4).any fun l => s.rd (unitLastOwner .hash u l) != owner
  | p => s.rd (unitLastOwner p u 0) != owner

/-- The clearing of a switch of owners: while it lasts STATE reads 6. Where one row carries out the whole command, and in a single hash lane, it has no duration. (DEDUCED, log entry 41) -/
def State.clearFirst (s : State) (c : Cmd) (p : Pool) (u : Nat) : State :=
  if c.whole then s
  else ({ s with eng := { s.eng with afterClear := tblPut 0 s.eng.afterClear (unitKey p u) 7 } } : State).wr (unitState p u) 6

/-- What a unit's registers show while it runs a command. -/
def State.startUnit (s : State) (c : Cmd) (p : Pool) (tile : Bool) (u l : Nat) : State :=
  let owner := s.cmdOwner c
  let switch := s.ownerSwitch p u owner
  let s := if switch then s.endResidency p u else s
  let first := fun (s : State) => if switch then s.clearFirst c p u else s
  match p with
  | .hash =>
    let (mode, masked) := s.laneWork c
    if tile then
      let (mode, s) := if algFamily c.alg = 4 then (let (n, s) := s.freeNat 1; (1 + n % 2, s)) else (mode, s)
      let s := (List.range 4).foldl (fun s l => s.startLane u l mode masked false owner) (s.unhold c.id)
      first ((s.wr (R.HSH_TILE_TILE_CMD.ix u) 1).wr (R.HSH_TILE_BUSY.ix u) 15)
    else
      let s := s.startLane u l mode masked false owner
      s.wr (R.HSH_TILE_BUSY.ix u) (s.busyLanes u)
  | .lattice => first ((s.wr (unitLastOwner p u 0) owner).wr (unitState p u) 2)
  | .bignum => first (((s.wr (unitLastOwner p u 0) owner).wr (unitState p u) 2).wr (R.BNE_UNIT_LONG.ix u) c.long.toNat)
  | .code => first (((s.wr (unitLastOwner p u 0) owner).wr (unitState p u) 2).takeResident c u)
  | .sym => first (((s.wr (unitLastOwner p u 0) owner).wr (unitState p u) 2).wr (R.SYM_LANE_WORK.ix u) (symWork c.opcode))

/-- Whether the unit that a command has reserved is still being cleared for it (R328). -/
def State.clearing (s : State) (c : Cmd) : Bool :=
  match c.unit with
  | some (p, ul) => tblGet 0 s.eng.afterClear (unitKey (poolOf p) (ul / 4)) == 7
  | none => false

/-- A unit is bound to a command: a claim on its domain, which a BASKING domain answers by waking. -/
def State.bindUnit (s : State) (p : Pool) (u l id : Nat) : State :=
  let s : State := { s with eng := { s.eng with running := tblPut 0 s.eng.running (laneKey p u l) (id + 1) } }
  (s.addClaim (unitDomain p u)).wake (unitDomain p u)

/-- Granting the unit `ul` = unit × 4 + lane to a command. -/
def State.grantUnit (s : State) (c : Cmd) (p : Pool) (tile : Bool) (ul : Nat) : Cmd × State :=
  let s := s.bindUnit p (ul / 4) (ul % 4) c.id
  ({ c with unit := some (p.num, ul), pool := 0 }, s.startUnit c p tile (ul / 4) (ul % 4))

/-- Reserving the hash lane that goes with a unit; `none` where no lane is free. -/
def State.grantLane (s : State) (c : Cmd) : Option (Cmd × State) :=
  if !c.needsLane ∨ c.lane.isSome then some (c, s)
  else match s.pickLane (s.cmdOwner c) with
    | none => none
    | some k =>
      let s := s.bindUnit .hash (k / 4) (k % 4) c.id
      let masked := c.digest.isNone
      let mode := if c.digest.isSome then 1 else if c.alg = 0x0702 then 2 else if algFamily c.alg = 6 ∧ 4 ≤ c.par 1 1 then 2 else 1
      let s := s.startLane (k / 4) (k % 4) mode masked c.digest.isSome (s.cmdOwner c)
      some ({ c with lane := some k }, s.wr (R.HSH_TILE_BUSY.ix (k / 4)) (s.busyLanes (k / 4)))

/-- Whether every unit of a pool in service is OFF by request (R62). -/
def State.poolOff (s : State) (p : Pool) : Bool :=
  (List.range (poolSize p)).all fun u => !s.inService p u || s.rd (domState (unitDomain p u)) == 2

/-- Whether a pool can serve at all: with capacity 0, lattice commands still wait while a tile is in Regrowth (R62, R351, R380, R409, R429). -/
def State.poolGone (s : State) (p : Pool) : Bool :=
  (s.rd (poolCapacity p) == 0 && !(p == .lattice && s.eng.regrowth.isSome)) || (s.serving p != 0 && s.poolOff p)

/-! Weighted rotation (R174). -/

/-- The weight of a function; of a normal-world queue pair its own. -/
def State.weightOf (s : State) (f : Fn) (q : Nat) : Nat :=
  match f with
  | .pf _ => 32
  | .vf p n => s.rd (R.VFS_RES_WEIGHT.vf p n)
  | .nw => s.rd (R.WLD_NQ_BIND_WEIGHT.ix q)

/-- The number under which a function takes part in the rotation; each normal-world queue pair by itself. -/
def rotId (f : Fn) (q : Nat) : Nat := match f with | .nw => 512 + q | f => f.id

/-- Commands that wait for a pool, oldest first. -/
def State.waiters (s : State) (p : Pool) : List Cmd := s.dsp.inflight.filter fun c => c.stage == .waiting && c.pool == p.num + 1

/-- The table key of a function's grants in the round of a pool; 1023 holds the function granted last. -/
def grantKey (p : Pool) (r : Nat) : Nat := p.num * 1024 + r

/-- The waiting command, but for those in `skip`, that the rotation serves next: the oldest of the next function with grants left in the round. (DESIGN CHOICE, log entry 63) -/
def State.nextWaiter (s : State) (p : Pool) (skip : List Nat) : Option (Cmd × State) :=
  let w := (s.waiters p).filter fun c => !skip.contains c.id
  let left := w.filter fun c => decide (tblGet 0 s.dsp.grants (grantKey p (rotId c.fn c.qp)) < s.weightOf c.fn c.qp)
  let fresh := left.isEmpty
  let last := tblGet 0 s.dsp.grants (grantKey p 1023)
  let grants := if fresh then s.dsp.grants.filter fun e => e.1 / 1024 != p.num || e.1 % 1024 == 1023 else s.dsp.grants
  let cand := if fresh then w else left
  let after := cand.filter fun c => decide (last ≤ rotId c.fn c.qp)
  let best := bestOf id ((if after.isEmpty then cand else after).map fun c => rotId c.fn c.qp)
  match best.bind fun r => cand.find? fun c => rotId c.fn c.qp == r with
  | none => none
  | some c =>
    let r := rotId c.fn c.qp
    let grants := tblPut 0 grants (grantKey p r) (tblGet 0 grants (grantKey p r) + 1)
    some (c, { s with dsp := { s.dsp with grants := tblPut 0 grants (grantKey p 1023) (r + 1) } })

end Sys2Proof.Machine
end

