-- ==== Sys2Proof/Machine/Engines.lean ====
section
/-! DEFINITION. Step 8 of R24 for the asymmetric engines: key generation, KEMs, agreement, signing, verification, derivation (chapters 12, 14 to 16). -/

namespace Sys2Proof.Machine

/-- What carrying out a command gives: its result, the changes a twin must receive, the state. -/
abbrev Ran := Res × List ChangeRec × State

/-- A result without effect on keys. -/
def ran (s : State) (status : Nat) (clear : Bool := false) : Ran := ({ status := status, clear := clear }, [], s)

/-- A result with an output. -/
def ranOut (s : State) (out : List Byte) (result : Nat := 0) (aux : Nat := 0) : Ran :=
  ({ output := out, result := result, aux := aux }, [], s)

/-! Randomness (Tables 14-7, 16-3, 16-10, 17-2). -/

/-- Masks drawn: bytes that only ENT_DRAWN shows. -/
def State.mask (s : State) (n : Nat) : State := s.countDraw n

/-- Masks whose number the spec does not fix in terms of the command: ENT_DRAWN grows by a free amount. (DESIGN CHOICE, log entry 55) -/
def State.maskFree (s : State) : State :=
  let (n, s) := s.freeNat 4
  s.wrapAdd R.ENT_DRAWN_BYTES n

/-- A secret of `n` bytes drawn as two shares: share A, the secret. (DESIGN CHOICE, log entry 55) -/
def State.drawShares (s : State) (n : Nat) : List Byte × List Byte × State :=
  let (a, s) := s.draw n
  let (b, s) := s.draw n
  (a, xorBytes a b, s)

/-- The number of attempts of an operation, or none beyond its limit. (DESIGN CHOICE, log entries 2 and 56) -/
def attemptsOf (limit : Nat) (ops : List (List Byte)) : Option Nat :=
  if Config.holds .attempts ops then some (1 + leNat (Config.crypto .attempts ops) % limit) else none

/-- LAT_EVT.SAMPLER_EXT where a sampler needed more than Table 14-6 gives it (R340). (DESIGN CHOICE, log entry 55) -/
def State.sampled (s : State) (ops : List (List Byte)) : State :=
  if Config.holds .sampler ops then s else s.setEvt R.LAT_EVT_SAMPLER_EXT

/-- A column of a table by parameter set 1, 2, 3. -/
def col (a : Nat) (l : List Nat) : Nat := l.getD (a % 256 - 1) 0

/-- Input bytes that a hash lane absorbs (HSH_BYTES). -/
def State.countHashed (s : State) (n : Nat) : State := s.wrapAdd R.HSH_BYTES_COUNT n

/-- Masks of a key expansion (Table 17-2). -/
def expansion (key : List Byte) : Nat := if key.length = 16 then 80 else 112

/-- Masks of wrapping `n` bytes: key expansion, and 4 bytes for each AES step, of which a single padded register takes one (R419, Table 17-2). (DESIGN CHOICE, log entry 55) -/
def wrapMasks (key : List Byte) (n : Nat) : Nat := expansion key + 4 * (if n ≤ 8 then 1 else 6 * ((n + 7) / 8))

/-! Placing a new key. -/

/-- The owner of a command's function. -/
def State.own (s : State) (c : Cmd) : Nat := (s.ownerOf c.fn c.qp).getD 0x400

/-- Placing a key under given attributes for a command, within the limits of its function at that moment: a status and DETAIL, (0, 0) once it is there (R127). (DEDUCED, log entry 54) -/
def State.placeNew (s : State) (c : Cmd) (a : Attr) (stored : List Byte) (slot : Bool) (share : List Byte := []) : (Nat × Nat) × State :=
  match s.quotaOfCmd c [(slot, stored.length)] with
  | 0 => s.placeAt a stored slot (some c.fn) share
  | st => ((st, 0), s)

/-- Placing a new secret or public key for a command: a status and DETAIL, the key's attributes, whether it is an object. -/
def State.newKey (s : State) (c : Cmd) (a usage kflags origin cls : Nat) (stored share : List Byte) : (Nat × Nat) × Attr × Bool × State :=
  let slot := goesToSlot cls stored.length (kflags.testBit 2)
  let at' := s.newAttr (s.own c) a usage kflags origin cls stored.length
  let (e, s) := s.placeNew c at' stored slot share
  (e, at', !slot, s)

/-- A result that is a failure with its DETAIL. -/
def ranFail (s : State) (e : Nat × Nat) : Ran := ({ status := e.1, detail := e.2 }, [], s)

/-- Completing a command whose effect is one new key. -/
def State.keyed (s : State) (c : Cmd) (a usage kflags origin cls : Nat) (stored share out : List Byte) : Ran :=
  match s.newKey c a usage kflags origin cls stored share with
  | ((0, _), at', obj, s) => ({ result := attrHandle at', output := out }, [.key at' stored obj], s)
  | (e, _, _, s) => ranFail s e

/-! KEY_GENERATE (R329, R372, R389, R396, R523). -/

/-- Bytes of a scalar drawn by the extra-random-bits method. -/
def extraLen (a : Nat) : Nat := col a [40, 56, 74]

/-- The secret of a new key: share A where the secret is what was drawn, and the stored form; `none` beyond an attempt limit. -/
def State.genSecret (s : State) (a keyLen : Nat) : Option (List Byte × List Byte) × State :=
  let n := storedLen a keyLen
  let id := leBytes 2 a
  match algFamily a with
  | 1 =>
    let (sh, k, s) := s.drawShares 64
    (some (sh, k), (s.mask (col a [1024, 1536, 2048])).sampled [id, k])
  | 2 =>
    let (sh, k, s) := s.drawShares 32
    (some (sh, k), (s.mask (col a [1024, 1536, 2048])).sampled [id, k])
  | 3 =>
    let (_, k, s) := s.drawShares (3 * slhN a)
    (some ([], k ++ fit (slhN a) (Config.crypto .keyGen [id, k])), s.maskFree)
  | 5 =>
    let (_, k, s) := s.drawShares 32
    let m := if a % 256 ≤ 2 then 262144 else 393216
    (match attemptsOf 256 [id, k] with
     | some t => (some ([], fit n (Config.crypto .keyGen [id, k])), s.mask (t * m))
     | none => (none, (s.mask (256 * m)).setEvt R.CBE_EVT_ATTEMPT_LIMIT))
  | 6 =>
    let (_, k, s) := s.drawShares (extraLen a)
    (some ([], extraBits a k), s.mask (col a [72, 104, 140]))
  | 7 =>
    let (sh, k, s) := s.drawShares n
    let s := s.mask (col a [72, 120, 64, 112])
    (some (sh, k), if a ≤ 0x0702 then s.maskFree else s)
  | 8 =>
    let (_, k, s) := s.drawShares (rsaK a)
    let s := s.maskFree
    if Config.holds .attempts [id, k] then (some ([], fit n (Config.crypto .keyGen [id, k])), s)
    else (none, s.setEvt R.BNE_EVT_ATTEMPT_LIMIT)
  | _ =>
    let (sh, k, s) := s.drawShares n
    (some (sh, k), s)

/-- KEY_GENERATE. -/
def State.opGenerate (s : State) (c : Cmd) : Ran :=
  let a := c.par 0 2
  let kflags := c.par 4 2
  match s.genSecret a (c.par 6 2) with
  | (none, s) => ran s 0x30 true
  | (some (share, stored), s) =>
    let last := s.keys.lastGen
    match s.newKey c a (c.par 2 2) kflags 1 (keyClass a) stored share with
    | ((0, _), at', obj, s) =>
      let pub := if symAlg a then [] else pubOf a stored
      let out := if c.outLen = 0 then [] else pub
      if kflags.testBit 3 then
        match s.newKey c a (pubUsage (c.par 2 2)) 0 1 (pubClass a) pub [] with
        | ((0, _), pat, _, s) =>
          ({ result := attrHandle at', aux := attrHandle pat, output := out }, [.key at' stored obj, .key pat pub true], s)
        | (e, _, _, s) => ranFail (s.unplace at' (some c.fn) last) e
      else ({ result := attrHandle at', output := out }, [.key at' stored obj], s)
    | (e, _, _, s) => ranFail s e

/-! Validation (R402). -/

/-- A validation stage of a big-number unit rejects an input. -/
def State.rejectInput (s : State) : Ran := ran ((s.setEvt R.BNE_EVT_REJECT).wrapAdd R.BNE_REJECTS_COUNT 1) 0x30

/-! KEMs and agreement (R330 to R332, R391, R392, R400). -/

/-- Delivering a shared secret: to the host behind `out`, or as a new key. -/
def State.deliver (s : State) (c : Cmd) (origin : Nat) (out secret : List Byte) : Ran :=
  if c.par 0 1 = 0 then ranOut s (out ++ secret)
  else
    let a := c.par 2 2
    let k := if a = 0x0901 then secret.take 16 else if a = 0x0902 then secret.take 32 else secret
    s.keyed c a (c.par 4 2) (c.par 6 2) origin (keyClass a) k [] out

/-- KEM_ENCAPS. -/
def State.opEncaps (s : State) (c : Cmd) (d : List Byte) : Ran :=
  let a := c.alg
  let pk := if c.key = 0 then d else c.secret
  let id := leBytes 2 a
  if c.key = 0 ∧ c.inLen ≠ pubLen a then ran s 0x30
  else if algFamily a = 1 then
    if !modulusOk a pk then ran s 0x30
    else
      let (_, m, s) := s.drawShares 32
      let s := (s.mask (col a [1280, 1792, 2304])).sampled [id, pk, m]
      let (ct, k) := mlkemEncaps a pk m (ctLen a)
      s.deliver c 1 ct k
  else
    let small := decide (a % 256 ≤ 2)
    let (r, s) := s.draw (if small then 512 else 768)
    match attemptsOf 64 [id, r] with
    | none => ran ((s.mask (63 * (if small then 512 else 768))).setEvt R.CBE_EVT_ATTEMPT_LIMIT) 0x30
    | some t =>
      let s := s.mask ((t - 1) * (if small then 512 else 768) + (if small then 256 else 384))
      let (ct, k) := mcelieceEncaps a pk r (ctLen a)
      s.deliver c 1 ct k

/-- KEM_DECAPS. -/
def State.opDecaps (s : State) (c : Cmd) (d : List Byte) : Ran :=
  let a := c.alg
  let id := leBytes 2 a
  if c.inLen ≠ ctLen a then ran s 0x30
  else
    if algFamily a = 1 then
      ((s.mask (col a [2304, 3072, 3840])).sampled [id, c.secret, d]).deliver c 2 [] (mlkemDecaps a c.secret (pubOf a c.secret) d)
    else (s.mask (if a % 256 ≤ 2 then 8192 else 12288)).deliver c 2 [] (mcelieceDecaps a c.secret d)

/-- KEY_AGREE. (DEDUCED, log entry 54) -/
def State.opAgree (s : State) (c : Cmd) (d : List Byte) : Ran :=
  let a := c.alg
  let id := leBytes 2 a
  if c.inLen ≠ pubLen a then ran s 0x30
  else if !peerOk a d then s.rejectInput
  else
    let s := s.mask (if algFamily a = 6 then col a [104, 152, 206] else col a [0, 0, 64, 112])
    let z := fit (agreeLen a) (Config.crypto .agree [id, c.secret, d])
    if algFamily a = 7 ∧ allZero z then ran s 0x30 else s.deliver c 2 [] z

/-! SIGN and VERIFY (R333 to R336, R373, R376, R378, R397 to R399). -/

/-- The octets under which a signature is made: MODE 2 signs as MODE 1 does (R368). -/
def Cmd.modeOctets (c : Cmd) : List Byte := leBytes 1 (min 1 (c.par 0 1)) ++ leBytes 1 (c.par 1 1) ++ leBytes 1 (c.par 4 1) ++ leBytes 1 (c.par 5 1)

/-- The string that is signed: the message or digest supplied, or the digest the device computes (Table 14-3). -/
def Cmd.signed (c : Cmd) (m : List Byte) : List Byte :=
  if c.par 0 1 = 2 then digestOf (0x0A00 + c.par 1 1) [] [] m (phLen (c.par 1 1)) else m

/-- The random bytes of a signature, and the masks it draws besides those of each attempt. (DESIGN CHOICE, log entry 55) -/
def State.signRandom (s : State) (c : Cmd) : List Byte × State :=
  let a := c.alg
  let det := c.par 3 1 == 1
  match algFamily a with
  | 2 =>
    let (r, s) := if det then (zeros 32, s) else s.draw 32
    (r, s.mask (col a [1536, 2048, 3072]))
  | 3 =>
    let n := slhN a
    let (r, s) := if det then (slice c.secret (2 * n) n, s) else s.draw n
    (r, s.maskFree)
  | 6 => if det then ([], (s.mask (col a [104, 152, 206])).maskFree) else s.draw (col a [184, 264, 354])
  | 7 => ([], (s.mask (col a [72, 120])).maskFree)
  | _ =>
    let (r, s) := s.draw (if c.par 4 1 = 1 then c.par 5 1 else 0)
    (r, s.mask (col a [400, 592, 784]))

/-- ECDSA: a computed r or s of zero draws a new k, here `n` times at most (R398). -/
def State.ecdsaSign (c : Cmd) (ctx msg : List Byte) : Nat → List Byte × State → List Byte × State
  | 0, x => x
  | n + 1, (sig, s) =>
    let l := curveLen c.alg
    if allZero (sig.take l) || allZero (sig.drop l) then
      let (r, s) := s.signRandom c
      State.ecdsaSign c ctx msg n (signature c.alg c.modeOctets c.secret ctx msg r (sigLen c.alg), s)
    else (sig, s)

/-- Input bytes that hash lanes absorb for a signature: the message of an SLH-DSA or hash-based signature, and of EdDSA in MODE 0, `passes` times (R398). (DESIGN CHOICE, log entry 55) -/
def State.countSigned (s : State) (c : Cmd) (m : List Byte) (passes : Nat) : State :=
  if algPool c.alg = .hash then s.countHashed m.length
  else if algFamily c.alg = 7 ∧ c.par 0 1 = 0 then s.countHashed (passes * m.length)
  else s

/-- SIGN. -/
def State.opSign (s : State) (c : Cmd) (d : List Byte) : Ran :=
  let a := c.alg
  let ctx := d.take (c.par 2 1)
  let m := d.drop (c.par 2 1)
  if c.par 0 1 = 1 ∧ m.length ≠ phLen (c.par 1 1) then ran s 0x30
  else
    let (r, s) := s.signRandom c
    let msg := c.signed m
    let ops := [leBytes 2 a, c.modeOctets, c.secret, ctx, msg, r]
    let sig := signature a c.modeOctets c.secret ctx msg r (sigLen a)
    if algFamily a = 2 then
      let each := col a [1024, 1536, 2048]
      let s := s.sampled ops
      match attemptsOf 1000 ops with
      | some t => ranOut (((s.mask (t * each)).wrapAdd R.LAT_ATTEMPTS_COUNT t).wrapAdd R.LAT_SIGNS_COUNT 1) sig
      | none => ran (((s.mask (1000 * each)).wrapAdd R.LAT_ATTEMPTS_COUNT 1000).setEvt R.LAT_EVT_ATTEMPT_LIMIT) 0x30 true
    else
      let s := s.countSigned c msg 2
      let (sig, s) := if algFamily a = 6 ∧ c.par 3 1 = 0 then State.ecdsaSign c ctx msg 8 (sig, s) else (sig, s)
      ranOut s sig

/-- The length that the DER header of an RSA public key declares. -/
def derLen (pk : List Byte) : Nat :=
  if slice pk 0 2 = [0x30, 0x82] then 4 + beNat (slice pk 2 2) else 0

/-- The length an inline public key must have; `none` where its type codes decide (R378, R399). -/
def pkLen (a : Nat) (pk : List Byte) : Option Nat :=
  if algFamily a = 4 then none else if algFamily a = 8 then some (derLen pk) else some (pubLen a)

/-- VERIFY. -/
def State.opVerify (s : State) (c : Cmd) (d : List Byte) : Ran :=
  let a := c.alg
  let pk := if c.key = 0 then d.take (c.par 12 4) else c.secret
  let r := if c.key = 0 then d.drop (c.par 12 4) else d
  let sig := r.take (c.par 8 2)
  let ctx := slice r (c.par 8 2) (c.par 2 1)
  let m := r.drop (c.par 8 2 + c.par 2 1)
  let msg := c.signed m
  if c.key == 0 && (match pkLen a pk with | some n => c.par 12 4 != n | none => !hashPubOk a pk) then ran s 0x30
  else if c.par 0 1 = 1 ∧ m.length ≠ phLen (c.par 1 1) then ran s 0x30
  else if (sigLen a ≠ 0 ∧ c.par 8 2 ≠ sigLen a) ∨ (algFamily a = 4 ∧ !hashSigOk a pk sig) then ran s 0x31
  else if algPool a = .bignum ∧ !verifyInputs a pk sig then s.rejectInput
  else
    let s := s.countSigned c msg 1
    if verifies a c.modeOctets pk ctx msg sig then ran s 0 else ran s 0x31

/-! KEY_DERIVE (R298). -/

/-- KEY_DERIVE. -/
def State.opDerive (s : State) (c : Cmd) (d : List Byte) : Ran :=
  let a := c.par 2 2
  let n := storedLen a (c.par 8 2)
  let s := s.maskFree.countHashed c.inLen
  s.keyed c a (c.par 4 2) (c.par 6 2) 2 (keyClass a)
    (fit n (deriveKey (c.par 0 1) c.secret (d.take (c.par 10 2)) (d.drop (c.par 10 2)) n)) [] []

end Sys2Proof.Machine
end

