-- ==== Sys2Proof/Machine/Streams.lean ====
section
/-! DEFINITION. Step 8 of R24 for hashes, MACs, ciphers, AEAD and RSA-OAEP, and the multi-part contexts (chapters 07, 15 to 17). -/

namespace Sys2Proof.Machine

/-! Contexts (R166 to R169). -/

/-- The free indices of the context cache. (DESIGN CHOICE, log entry 52) -/
def freeCtxs (t : Tbl (Option Ctx)) : List Nat := (List.range 3072).filter fun i => (tblGet none t i).isNone

/-- Whether a context is keyed: of a MAC or an AEAD operation (R167). -/
def Ctx.keyed (x : Ctx) : Bool := x.kind != 1

/-- What the wrapped form of a context holds: its key, IV, customization string and absorbed bytes. (DEDUCED, log entry 53) -/
def Ctx.state (x : Ctx) : List Byte := leBytes 2 x.key.length ++ leBytes 2 x.iv.length ++ leBytes 2 x.custom.length ++ x.key ++ x.iv ++ x.custom ++ x.absorbed

/-- The AAD of a wrapped context: what it was made for. (DEDUCED, log entry 53) -/
def Ctx.head (x : Ctx) : List Byte := leBytes 1 x.kind ++ leBytes 2 x.owner ++ leBytes 2 x.alg ++ leBytes 2 x.gen ++ leBytes 8 x.count

/-- A context as it is parked: a keyed one only in wrapped form, under AES-256-GCM with the context key; its IV is a free value (R167, R263). (DEDUCED, log entry 53) -/
def State.parkCtx (s : State) (x : Ctx) : Ctx × State :=
  if x.keyed then
    let (iv, s) := s.free 12
    ({ x with key := [], iv := [], custom := [], absorbed := [], wrapIv := iv, wrapped := gcmSeal s.dsp.ctxKey iv x.head x.state,
              wrapTag := gcmTag s.dsp.ctxKey iv x.head x.state }, s)
  else (x, s)

/-- A parked context is opened for use; `none` where it does not authenticate (R263). -/
def State.unparkCtx (s : State) (x : Ctx) : Option Ctx :=
  if x.keyed then
    if gcmOk s.dsp.ctxKey x.wrapIv x.head x.wrapped x.wrapTag then
      let b := gcmOpen s.dsp.ctxKey x.wrapIv x.head x.wrapped
      let k := leAt b 0 2
      let v := leAt b 2 2
      let n := leAt b 4 2
      some { x with key := slice b 6 k, iv := slice b (6 + k) v, custom := slice b (6 + k + v) n, absorbed := b.drop (6 + k + v + n),
                    wrapIv := [], wrapped := [], wrapTag := [] }
    else none
  else some x

/-- A new context: its handle. Which of the free indices it takes is a free value. (DESIGN CHOICE, log entry 52) -/
def State.putCtx (s : State) (x : Ctx) : Nat × State :=
  let (n, s) := s.freeNat 2
  let l := freeCtxs s.dsp.ctxs
  let i := l.getD (n % l.length) 3072
  let g := nextGen (tblGet 0 s.dsp.ctxGen i)
  let (x, s) := s.parkCtx { x with gen := g }
  (handleOf x.owner 0x3F g i, { s with dsp := { s.dsp with
    ctxs := tblPut none s.dsp.ctxs i (some x), ctxGen := tblPut 0 s.dsp.ctxGen i (g + 1) } })

/-- A command ends with a new context, whose handle is its RESULT, within the limits at that moment (R166). -/
def State.openCtx (s : State) (c : Cmd) (x : Ctx) (out : List Byte) : Ran :=
  match s.ctxCheck c with
  | 0 => let (h, s) := s.putCtx x; ranOut s out h
  | st => ran (if st = 0x43 then s.setEvt R.DSP_EVT_CTX_FULL else s) st

/-- The context a command names, opened; or a status (R159, R166, R263). -/
def State.ctxOf (s : State) (c : Cmd) : Ctx ⊕ Nat :=
  match s.findCtx c.fn c.qp c.key with
  | .inl x => (match s.unparkCtx x with | some x => .inl x | none => .inr 0x33)
  | .inr st => .inr st

/-- A context after an UPDATE, parked again. -/
def State.growCtx (s : State) (c : Cmd) (x : Ctx) (d : List Byte) : State :=
  let (x, s) := s.parkCtx { x with count := x.count + d.length, absorbed := x.absorbed ++ d }
  { s with dsp := { s.dsp with ctxs := tblPut none s.dsp.ctxs (hIndex c.key) (some x) } }

/-- A context that this command creates. -/
def State.newCtx (s : State) (c : Cmd) (kind alg : Nat) : Ctx :=
  { fn := c.fn, owner := s.ctxOwner c.fn c.qp, kind := kind, alg := alg, gen := 0, count := 0, absorbed := [] }

/-- A tag or digest compared with the expected bytes: match, or the status of a mismatch (R362, R363, R422). -/
def State.compared (s : State) (got want : List Byte) (status : Nat) : Ran := ran s (if got = want then 0 else status)

/-! HASH_ (R359 to R362). -/

/-- Output bytes of a digest: fixed, or as many as asked for. -/
def digestBytes (a n : Nat) : Nat := if 0x0A07 ≤ a then n else digestLen (a % 256)

/-- The digest of what a hash context has absorbed, `d` included. -/
def Ctx.digest (x : Ctx) (d : List Byte) (n : Nat) : List Byte :=
  digestOf x.alg (x.custom.take x.nLen) (x.custom.drop x.nLen) (x.absorbed ++ d) (digestBytes x.alg n)

/-- The HASH_ opcodes. -/
def State.opHash (s : State) (c : Cmd) (d : List Byte) : Ran :=
  if c.opcode = 0x40 then
    let s := s.countHashed c.inLen
    let p := c.par 2 1 + c.par 3 1
    let x := { s.newCtx c 1 (c.par 0 2) with custom := d.take p, nLen := c.par 2 1, absorbed := d.drop p, count := d.length }
    if c.last then ranOut s (x.digest [] c.outLen)
    else s.openCtx c x []
  else match s.ctxOf c with
    | .inr st => ran s st
    | .inl x =>
      let s := s.countHashed (c.inLen - c.uncounted x)
      if c.opcode = 0x41 then ran (s.growCtx c x d) 0
      else
        let s := s.dropCtx (hIndex c.key)
        if c.opcode = 0x42 then ranOut s (x.digest d c.outLen)
        else
          let n := c.inLen - c.par 8 2
          s.compared (x.digest (d.take n) (c.par 8 2)) (d.drop n) 0x31

/-! MAC_ (R364, R365, R423). -/

/-- The whole tag of a MAC context over what it has absorbed and `d`. -/
def Ctx.mac (x : Ctx) (d : List Byte) : List Byte :=
  let m := x.absorbed ++ d
  if x.alg = 0x0B06 then cmac x.key m
  else if x.alg ≤ 0x0B03 then hmacFrom (x.alg - 0x0B00) x.key m
  else kmac (x.alg == 0x0B05) x.key m x.custom x.kmacLen

/-- Compressions that a HMAC command runs masked: `n` bytes on top of `done`, the two key states at INIT, padding and the outer pass at the end (R364). -/
def hmacBlocks (i keyLen done n : Nat) (first last : Bool) : Nat :=
  let b := shaBlock i
  let pad := if i = 1 then 9 else 17
  let key := if b < keyLen then (keyLen + pad + b - 1) / b else 0
  (if first then 2 + key else 0) + ((done + n) / b - done / b) +
    (if last then (done + n + pad + b - 1) / b - (done + n) / b + 1 else 0)

/-- Permutations that a KMAC command runs masked, from the block of the key on (R366, SP 800-185): absorbing, then squeezing KMAC_LEN bytes. -/
def kmacBlocks (big : Bool) (key : List Byte) (done n out : Nat) (first last : Bool) : Nat :=
  let r := if big then 136 else 168
  (if first then (bytepad (encodeString key) r).length / r else 0) + ((done + n) / r - done / r) +
    (if last then (done + n + (rightEncode (8 * out)).length) / r + 1 - (done + n) / r + (out - 1) / r else 0)

/-- AES blocks of a CMAC command: the subkey at its start, then each block but the last that may still take a subkey (R423). -/
def cmacBlocks (done n : Nat) (first last : Bool) : Nat :=
  (if first then 1 else 0) + ((done + n - 1) / 16 - (done - 1) / 16) + (if last then 1 else 0)

/-- The randomness of a MAC command: 8 bytes for each masked compression or permutation, Table 17-2 for CMAC. The subkeys of CMAC are formed at INIT. (DESIGN CHOICE, log entry 55) -/
def State.macMasks (s : State) (x : Ctx) (n : Nat) (first last : Bool) : State :=
  let done := x.absorbed.length
  if x.alg ≤ 0x0B03 then s.mask (8 * hmacBlocks (x.alg - 0x0B00) x.key.length done n first last)
  else if x.alg ≤ 0x0B05 then s.mask (8 * kmacBlocks (x.alg == 0x0B05) x.key done n x.kmacLen first last)
  else s.mask (expansion x.key + 4 * cmacBlocks done n first last)

/-- The bytes of a MAC command count for its pool. -/
def State.countMac (s : State) (a n : Nat) : State := s.wrapAdd (if a = 0x0B06 then R.SYM_BYTES_COUNT else R.HSH_BYTES_COUNT) n

/-- The MAC_ opcodes. -/
def State.opMac (s : State) (c : Cmd) (d : List Byte) : Ran :=
  if c.opcode = 0x48 then
    let a := c.par 0 2
    let p := c.par 2 1
    let x := { s.newCtx c 2 a with key := c.secret, custom := d.take p, kmacLen := c.par 4 2 }
    let s := (s.macMasks x (d.length - p) true c.last).countMac a c.inLen
    let x := { x with absorbed := d.drop p, count := d.length, key := if a ≤ 0x0B03 then hmacStates (a - 0x0B00) c.secret else c.secret }
    if c.last then ranOut s (x.mac [])
    else s.openCtx c x []
  else match s.ctxOf c with
    | .inr st => ran s st
    | .inl x =>
      let s := s.countMac x.alg (c.inLen - c.uncounted x)
      if c.opcode = 0x49 then ran ((s.macMasks x d.length false false).growCtx c x d) 0
      else
        let n := if c.opcode = 0x4B then c.inLen - c.par 8 2 else c.inLen
        let s := (s.macMasks x n false true).dropCtx (hIndex c.key)
        if c.opcode = 0x4A then ranOut s (x.mac d)
        else s.compared ((x.mac (d.take n)).take (c.par 8 2)) (d.drop n) 0x33

/-! CIPHER (R415 to R419, R401). -/

/-- The masks of modes 1 to 4: key expansion, derivation, 4 bytes for each AES block (Table 17-2). -/
def Cmd.cipherMasks (c : Cmd) (n : Nat) : Nat :=
  let unit := c.par 4 4
  let rest := n % max unit 1
  expansion c.secret +
    (if c.par 1 1 = 1 then 16 + 4 * (n / max unit 1 * ((unit + 15) / 16 + 1) + (if rest = 0 then 0 else (rest + 15) / 16 + 1))
     else 4 * ((n + 15) / 16))

/-- Modes 1 to 6. -/
def State.opAes (s : State) (c : Cmd) (d : List Byte) : Ran :=
  let m := c.par 1 1
  let enc := c.par 0 1 == 0
  let s := (if m ≤ 4 then s.mask (c.cipherMasks (if m = 4 ∧ enc then d.length + 16 - d.length % 16 else d.length))
      else s.mask (wrapMasks c.secret (if enc then d.length else d.length - 8))).wrapAdd
    R.SYM_BYTES_COUNT c.inLen
  if m = 1 then ranOut s (c.cipherOut d) 0 c.xtsCount
  else if m = 4 then
    (if enc then ranOut s (c.cipherOut (pkcsPad d))
     else match pkcsStrip (c.cipherOut d) with
       | some p => ranOut s p
       | none => ran s 0x30 true)
  else if m = 5 then
    (if enc then ranOut s (kwWrap c.secret kwIv d)
     else match kwOpen c.secret d with
       | some p => ranOut s p
       | none => ran s 0x33 true)
  else if m = 6 then
    (if enc then ranOut s (kwpSeal c.secret d)
     else match kwpOpen c.secret d with
       | some p => ranOut s p
       | none => ran s 0x33 true)
  else ranOut s (c.cipherOut d)

/-- Mode 7, RSA-OAEP (R401). (DEDUCED, log entry 54) -/
def State.opOaep (s : State) (c : Cmd) (d : List Byte) : Ran :=
  let a := c.alg
  let h := shaLen (c.par 8 1)
  let label := d.take (c.par 9 1)
  let m := d.drop (c.par 9 1)
  let fields := leBytes 1 (c.par 8 1) ++ label
  if c.par 0 1 = 0 then
    if !rsaPubOk a c.secret then s.rejectInput
    else if rsaK a - 2 * h - 2 < m.length then ran s 0x30
    else
      let (seed, s) := s.draw h
      ranOut s (fit (rsaK a) (Config.crypto .oaep [[0], c.secret, fields, m, seed]))
  else if m.length ≠ rsaK a then ran s 0x30
  else if !rsaRange (beNat (c.secret.take (rsaK a))) m then s.rejectInput
  else
    let s := s.mask (col a [400, 592, 784])
    if Config.holds .oaep [c.secret, fields, m] then
      ranOut s ((Config.crypto .oaep [[1], c.secret, fields, m]).take (rsaK a - 2 * h - 2))
    else ran s 0x30

/-- CIPHER, every mode. -/
def State.opCipher (s : State) (c : Cmd) (d : List Byte) : Ran := if c.par 1 1 = 7 then s.opOaep c d else s.opAes c d

/-! AEAD (R420 to R422). -/

/-- The data bytes among counted bytes. -/
def Ctx.dataOf (x : Ctx) (l : List Byte) : List Byte := l.drop x.aadLen

/-- The output for the counted bytes `d` that follow what the context has absorbed: one byte for each data byte. -/
def Ctx.stream (x : Ctx) (d : List Byte) : List Byte :=
  (gcmSeal x.key x.iv [] (x.dataOf (x.absorbed ++ d))).drop (x.dataOf x.absorbed).length

/-- The full tag over everything counted, `d` included. -/
def Ctx.gcmTag (x : Ctx) (d : List Byte) : List Byte :=
  let all := x.absorbed ++ d
  let data := x.dataOf all
  gcmTagOf x.key x.iv (all.take x.aadLen) (if x.kind = 3 then data else gcmSeal x.key x.iv [] data)

/-- Blocks begun by `n` bytes after `done` bytes. -/
def blocksBegun (done n : Nat) : Nat := (done + n + 15) / 16 - (done + 15) / 16

/-- Masks of an AEAD command on `n` counted bytes: key expansion; 4 bytes for each AES block, H at INIT, one for each data block begun, the one of the tag at the end; 2 bytes for each GHASH block completed, the lengths at the end (Table 17-2). When H is formed is the model's choice. (DESIGN CHOICE, log entry 55) -/
def Ctx.aeadMasks (x : Ctx) (n : Nat) (first last : Bool) : Nat :=
  let done := x.absorbed.length
  let data := fun k => k - x.aadLen
  let aad := fun k => min k x.aadLen
  let hashed := fun k => (if aad k = x.aadLen then (x.aadLen + 15) / 16 else aad k / 16) + data k / 16
  expansion x.key + 4 * ((if first then 1 else 0) + blocksBegun (data done) (data (done + n) - data done) + (if last then 1 else 0)) +
    2 * (hashed (done + n) - hashed done + (if last then (if data (done + n) % 16 = 0 then 1 else 2) else 0))

/-- An AEAD command draws its masks and counts its bytes, the tag to be compared not among them. -/
def State.aeadCount (s : State) (c : Cmd) (x : Ctx) (first last : Bool) : State :=
  let n := c.inLen - (if last ∧ x.kind = 3 then x.tagLen else 0)
  (s.mask (x.aeadMasks n first last)).wrapAdd R.SYM_BYTES_COUNT n

/-- The last part of an operation: the tag is appended or compared. -/
def State.aeadEnd (s : State) (x : Ctx) (iv d : List Byte) : Ran :=
  if x.kind = 4 then ranOut s (iv ++ x.stream d ++ (x.gcmTag d).take x.tagLen)
  else
    let n := d.length - x.tagLen
    if (x.gcmTag (d.take n)).take x.tagLen = d.drop n then ranOut s (x.stream (d.take n)) else ran s 0x33

/-- The AEAD_ opcodes. -/
def State.opAead (s : State) (c : Cmd) (d : List Byte) : Ran :=
  if c.opcode = 0x51 then
    let (iv, s) := if c.par 2 1 = 1 then s.draw 12 else (slice c.params 8 12, s)
    let shown := if c.par 2 1 = 1 then iv else []
    let x := { s.newCtx c (if c.par 0 1 = 1 then 3 else 4) c.alg with key := c.secret, iv := iv, aadLen := c.par 4 4, tagLen := c.par 1 1 }
    let s := s.aeadCount c x true c.last
    if c.last then s.aeadEnd x shown d
    else s.openCtx c { x with absorbed := d, count := d.length } (shown ++ x.stream d)
  else match s.ctxOf c with
    | .inr st => ran s st
    | .inl x =>
      let s := s.aeadCount c x false (c.opcode = 0x53)
      if c.opcode = 0x52 then ranOut (s.growCtx c x d) (x.stream d)
      else (s.dropCtx (hIndex c.key)).aeadEnd x [] d

/-! CTX_EXPORT and CTX_IMPORT (R171). -/

/-- CTX_EXPORT: the blob of Table 7-12; the context is destroyed. The encrypted state is free: the spec lays out only its length. (DEDUCED, log entry 53) -/
def State.opCtxExport (s : State) (c : Cmd) : Ran :=
  match s.ctxOf c with
  | .inr st => ran s st
  | .inl x =>
    let (iv, s) := s.draw 12
    let (body, s) := s.free 512
    let head := ascii "HXCX" ++ [1] ++ leBytes 1 x.kind ++ leBytes 2 x.owner ++ fit 8 s.dsp.bootId
    let s := s.dropCtx (hIndex c.key)
    let tag := gcmTagOf s.dsp.ctxKey iv head body
    ranOut { s with dsp := { s.dsp with exported := (iv, body, x) :: s.dsp.exported } } (head ++ iv ++ body ++ tag)

/-- CTX_IMPORT. (DEDUCED, log entry 53) -/
def State.opCtxImport (s : State) (c : Cmd) (d : List Byte) : Ran :=
  if leAt d 6 2 ≠ s.ctxOwner c.fn c.qp then ran s 0x20
  else if slice d 8 8 ≠ fit 8 s.dsp.bootId then ran s 0x22
  else
    let iv := slice d 0x10 12
    let body := slice d 0x1C 512
    if d.length ≠ 556 ∨ d.take 5 ≠ ascii "HXCX" ++ [1] ∨ !gcmOk s.dsp.ctxKey iv (d.take 0x10) body (slice d 0x21C 16) then ran s 0x33
    else match s.dsp.exported.find? fun e => e.1 == iv && e.2.1 == body with
      | none => ran s 0x33
      | some (_, _, x) => s.openCtx c { x with fn := c.fn, owner := s.ctxOwner c.fn c.qp } []

end Sys2Proof.Machine
end

