-- ==== Sys2Proof/Machine/Control.lean ====
section
/-! DEFINITION. What the control-plane commands do: import, export, destruction and attestation of keys, owners, approvals, VFs, migration logs (chapters 06, 12). -/

namespace Sys2Proof.Machine

/-! Import, export, destruction (R274, R282 to R285, R299, R300). -/

/-- A wrapped object under an owner's object key. -/
def State.wrapObject (s : State) (a : Attr) (stored nonce : List Byte) : List Byte :=
  let head := objectHead a stored.length nonce
  let key := s.objKey a.owner
  head ++ gcmSeal key nonce head stored ++ gcmTag key nonce head stored

/-- Whether a device object authenticates for an owner (R283). -/
def State.objectOk (s : State) (o : Nat) (d : List Byte) : Bool :=
  let n := leAt d 0x30 4
  let a := attrOf (slice d 0x10 32)
  decide (d.length = n + 0x50) && slice d 0 4 == ascii "HXKO" && leAt d 4 1 == 1 && leAt d 6 2 == o && a.owner == o &&
    leAt d 8 8 == Config.serial.toNat &&
    gcmOk (s.objKey o) (slice d 0x34 12) (d.take 0x40) (slice d 0x40 n) (slice d (0x40 + n) 16)

/-- Placing an imported key under given attributes, within the function's limits. (DEDUCED, log entry 54) -/
def State.admitKey (s : State) (c : Cmd) (a : Attr) (stored : List Byte) (cache : Bool) : Ran :=
  let slot := goesToSlot a.cls stored.length cache
  match s.placeNew c a stored slot with
  | ((0, _), s) => ({ result := attrHandle a }, [.key a stored !slot], s)
  | (e, s) => ranFail s e

/-- The key that an index holds, when it is defective and of the same generation (R278). -/
def State.restores (s : State) (a : Attr) : Bool :=
  match s.keyAt a.owner a.index with
  | some k => k.loc == .defective && k.attr.gen == a.gen
  | none => false

/-- A FORMAT 0 import: the key returns to its own index where that is free or holds its defective self (R285). -/
def State.opImportObject (s : State) (c : Cmd) (d : List Byte) : Ran :=
  let o := s.own c
  if !s.objectOk o d then ran s 0x21
  else
    let at0 := attrOf (slice d 0x10 32)
    let stored := gcmOpen (s.objKey o) (slice d 0x34 12) (d.take 0x40) (slice d 0x40 (leAt d 0x30 4))
    let cache := (c.par 6 2).testBit 2
    if s.restores at0 then
      match (s.destroyKey o at0.index).admitKey c at0 stored cache with
      | (r, ch, s') => if r.status = 0 then (r, ch, s'.setEvt R.KS_EVT_RESTORED) else (r, [], s)
    else if (s.keyAt o at0.index).isNone then s.admitKey c at0 stored cache
    else
      let i := s.newIndex o
      s.admitKey c { at0 with index := i, gen := s.newGen o i } stored cache

/-- Whether a public key of FORMAT 1 passes the checks of its algorithm (R300, R326, R378, R402). -/
def publicOk (a : Nat) (l : List Byte) : Bool :=
  if algFamily a = 1 then modulusOk a l else if algFamily a = 4 then hashPubOk a l else if algPool a = .bignum then pubKeyOk a l else true

/-- A key that FORMAT 1 brings in: ORIGIN 3, validated like an operand (R300, R402). -/
def State.admitPlain (s : State) (c : Cmd) (cls : Nat) (stored : List Byte) (ok : Bool) : Ran :=
  let a := c.par 2 2
  if !importLen a stored.length (publicClass cls) then ran s 0x30
  else if !ok then (if algPool a = .bignum ∧ !symAlg a then s.rejectInput else ran s 0x30)
  else s.admitKey c (s.newAttr (s.own c) a (c.par 4 2) (c.par 6 2) 3 cls stored.length) stored ((c.par 6 2).testBit 2)

/-- KEY_IMPORT_WRAPPED. -/
def State.opImport (s : State) (c : Cmd) (d : List Byte) : Ran :=
  let a := c.par 2 2
  if c.par 0 1 = 0 then s.opImportObject c d
  else if c.key = 0 then s.admitPlain c (pubClass a) d (publicOk a d)
  else
    let s := (s.mask (wrapMasks c.secret (d.length - 8))).wrapAdd R.SYM_BYTES_COUNT d.length
    match kwpOpen c.secret d with
    | none => ran s 0x33
    | some stored => s.admitPlain c (keyClass a) stored (symAlg a || privKeyOk a stored)

/-- KEY_EXPORT_WRAPPED. -/
def State.opExport (s : State) (c : Cmd) : Ran :=
  if c.par 8 1 = 0 then
    let (n, s) := s.drawNonce
    ranOut s (s.wrapObject c.attr c.secret n)
  else if c.wrapHandle = 0 then ranOut s c.secret
  else
    let key := match c.wrapKey with | some (_, k) => k | none => []
    ranOut ((s.mask (wrapMasks key c.secret.length)).wrapAdd R.SYM_BYTES_COUNT c.secret.length) (kwpSeal key c.secret)

/-- KEY_DESTROY. -/
def State.opDestroy (s : State) (c : Cmd) : Ran :=
  ran (s.destroyKey (hOwner c.key) (hIndex c.key) (some c.fn)) 0 |> fun (r, _, s) =>
    (r, [.destroy (hOwner c.key) (hIndex c.key) (hGen c.key)], s)

/-! KEY_ATTEST (R301). -/

/-- LC of an attestation statement. -/
def lcByte (st : Nat) : Nat :=
  if lcUnlocked st then 1 else if 9 ≤ st ∧ st ≤ 15 then 2 else if st = 16 then 3 else if st = 17 then 4 else 5

/-- The hash of a key's public key; zero for a symmetric key. -/
def pubHash (a : Attr) (value : List Byte) : List Byte :=
  if symAlg a.alg then zeros 48 else sha384 (if publicClass a.cls then value else pubOf a.alg value)

/-- The signed part of a statement (Table 12-12). -/
def State.statement (s : State) (c : Cmd) (nonce : List Byte) : List Byte :=
  ascii "HXAT" ++ leBytes 1 1 ++ leBytes 1 (lcByte s.lcState) ++ zeros 2 ++ leBytes 8 Config.serial.toNat ++ fit 32 nonce ++
    leBytes 8 c.key ++ fit 32 (attrBytes c.attr) ++ leBytes 4 (s.rd R.TMP_HOURS_COUNT) ++ leBytes 4 (s.rd R.TMP_CYCLES_COUNT) ++
    pubHash c.attr c.secret ++ zeros 16

/-- An internal signature of secure firmware: a command of no owner (R17). -/
def Cmd.internal (c : Cmd) : Cmd :=
  { c with fn := .pf c.fn.port, entry := leBytes 1 0x30 ++ zeros 63, resolved := none, wrapKey := none, digest := none, unit := none, lane := none }

/-- Whether a unit of a pool is free for an internal command, or none will be (R17). -/
def State.unitReady (s : State) (c : Cmd) (p : Pool) : Bool := s.poolGone p || (s.pickUnit c.internal p false).isSome

/-- An internal command runs on a unit of a pool: the unit is reserved for it and released (R17, R301). -/
def State.runInternal (s : State) (c : Cmd) (p : Pool) : State :=
  match s.pickUnit c.internal p false with
  | some ul => let (x, s) := s.grantUnit c.internal p false ul; s.releaseUnit x true
  | none => s

/-- KEY_ATTEST: two internal signatures, one after the other; a failing one gives INTERNAL 0x0017. -/
def State.opAttest (s : State) (c : Cmd) (d : List Byte) : Ran :=
  let fail := fun (s : State) => (({ status := 0x7F, detail := 0x17 }, [], s) : Ran)
  match s.deviceKey 0, s.deviceKey 1 with
  | some k0, some k1 =>
    if s.poolGone .lattice then fail s
    else
      let m := s.statement c d
      let s := s.runInternal c .lattice
      let (r, s) := s.draw 32
      let ops := [leBytes 2 algMldsa65, pureMode, k0, ascii "HX960 ATTEST", m, r]
      let s := (s.mask 2048).sampled ops
      match attemptsOf 1000 ops with
      | none => fail (((s.mask 1536000).wrapAdd R.LAT_ATTEMPTS_COUNT 1000).setEvt R.LAT_EVT_ATTEMPT_LIMIT)
      | some t =>
        let s := ((s.mask (t * 1536)).wrapAdd R.LAT_ATTEMPTS_COUNT t).wrapAdd R.LAT_SIGNS_COUNT 1
        if s.poolGone .bignum then fail s
        else
          let (k, s) := (s.runInternal c .bignum).draw 264
          ranOut s (m ++ signature algMldsa65 pureMode k0 (ascii "HX960 ATTEST") m r 3309 ++ signature algP384 sha384Mode k1 [] m k 96)
  | _, _ => fail s

/-! Owner definitions and blobs (R286, R287). -/

/-- Bytes of a custodian's public key by SIG_ALG; 0 for a code that is none. -/
def custKeyLen (alg : Nat) : Nat := if alg = 1 then 1952 else if alg = 2 then 97 else 0

/-- Custodian `k` of a definition. -/
def custAt (d : List Byte) (k : Nat) : Cust :=
  let e := slice d (0x40 + 2048 * k) 2048
  { sigAlg := leAt e 0 1, key := slice e 8 (custKeyLen (leAt e 0 1)) }

/-- Whether custodian `k` of a definition keeps to Table 12-8. -/
def custOk (d : List Byte) (k : Nat) : Bool :=
  let e := slice d (0x40 + 2048 * k) 2048
  custKeyLen (leAt e 0 1) != 0 && allZero (slice e 1 7) && allZero (e.drop (8 + custKeyLen (leAt e 0 1)))

/-- DEF_LEN. -/
def defLen (d : List Byte) : Nat := 0x40 + 2048 * leAt d 8 1

/-- What a definition settles. -/
def ownerDefOf (d salt : List Byte) (seq : Nat) : OwnerDef :=
  { policy := leAt d 0xC 4, algAllow := leAt d 0x10 2, cust := (List.range (leAt d 8 1)).map (custAt d), quorum := leAt d 9 1,
    windowS := leAt d 0xA 2, label := slice d 0x20 16, salt := salt, policySeq := seq }

/-- The bytes of a definition, MODE 0 and OWNER filled in. -/
def ownerDefBytes (o : Nat) (d : OwnerDef) : List Byte :=
  ascii "HXOD" ++ leBytes 1 1 ++ leBytes 1 0 ++ leBytes 2 o ++ leBytes 1 d.cust.length ++ leBytes 1 d.quorum ++ leBytes 2 d.windowS ++
    leBytes 4 d.policy ++ leBytes 2 d.algAllow ++ zeros 14 ++ fit 16 d.label ++ zeros 16 ++
    d.cust.flatMap fun c => leBytes 1 c.sigAlg ++ zeros 7 ++ fit 2040 c.key

/-- The key of an owner's blob. -/
def State.ownerBlobKey (s : State) (o : Nat) : List Byte :=
  kdf (ownerKek ((s.deviceKey 2).getD []) o) "HX960 BLOB" [] 256

/-- The owner blob (Table 12-9). -/
def State.ownerBlob (s : State) (o : Nat) (d : OwnerDef) (nonce : List Byte) : List Byte :=
  let body := fit 32 d.salt ++ ownerDefBytes o d
  let head := ascii "HXOW" ++ leBytes 1 1 ++ leBytes 1 0 ++ leBytes 2 o ++ leBytes 8 Config.serial.toNat ++ leBytes 4 d.policySeq ++
    leBytes 4 body.length ++ nonce ++ zeros 12
  head ++ gcmSeal (s.ownerBlobKey o) nonce head body ++ gcmTag (s.ownerBlobKey o) nonce head body

/-- An owner blob under a fresh NONCE. -/
def State.issueBlob (s : State) (o : Nat) (d : OwnerDef) : List Byte × State :=
  let (n, s) := s.draw 12
  (s.ownerBlob o d n, s)

/-- Whether a fetched blob is authentic; reserved bytes stand under the tag. -/
def State.blobAuthentic (s : State) (d : List Byte) : Bool :=
  let n := leAt d 0x14 4
  slice d 0 4 == ascii "HXOW" && leAt d 4 1 == 1 && decide (leAt d 6 2 < 1024) && leAt d 8 8 == Config.serial.toNat &&
    gcmOk (s.ownerBlobKey (leAt d 6 2)) (slice d 0x18 12) (d.take 0x30) (slice d 0x30 n) (slice d (0x30 + n) 16)

/-- OWNER_LOAD (R289). (DEDUCED, log entry 54) -/
def State.opOwnerLoad (s : State) (d : List Byte) : Ran :=
  let n := leAt d 0x14 4
  let o := leAt d 6 2
  let seq := leAt d 0x10 4
  if d.length < 0x30 ∨ d.length ≠ 0x40 + n then ({ status := 0x12, detail := 3 }, [], s)
  else if !s.blobAuthentic d then ran s 0x21
  else match s.ownerAt o with
    | some ow => if ow.defn.policySeq = seq then ranOut s [] o else ran s 0x21
    | none =>
      let body := gcmOpen (s.ownerBlobKey o) (slice d 0x18 12) (d.take 0x30) (slice d 0x30 n)
      let defn := ownerDefOf (body.drop 32) (body.take 32) seq
      if s.freeSlots.length < s.unfilled false + 1 then ran s 0x43
      else match s.loadOwner o defn with
        | some s => ({ result := o }, [.owner o defn], s)
        | none => ran s 0x43

/-! OWNER_CREATE (R286, R290, R292, R297). -/

/-- The header of a definition that breaks a range of Table 12-8. -/
def State.badDefHead (s : State) (d : List Byte) : Bool :=
  let mode := leAt d 5 1
  let n := leAt d 8 1
  slice d 0 4 != ascii "HXOD" || leAt d 4 1 != 1 || decide (3 < mode) || !allZero (slice d 0x12 14) || !allZero (slice d 0x30 16) ||
    (if mode = 0 then leAt d 6 2 != 0 else (s.ownerAt (leAt d 6 2)).isNone) ||
    (if mode ≤ 1 then
       decide (n < 2) || decide (16 < n) || decide (leAt d 9 1 < 2) || decide (n < leAt d 9 1) || decide (leAt d 0xA 2 < 30) ||
       decide (3600 < leAt d 0xA 2) || decide (256 ≤ leAt d 0xC 4) || Nat.land (leAt d 0x10 2) 0xE001 != 0
     else n != 0)

/-- The check of a fetched definition: a status and DETAIL, 0 for none. -/
def State.checkDef (s : State) (d : List Byte) : Nat × Nat :=
  if d.length < 0x40 then (0x12, 3)
  else if s.badDefHead d then (0x13, 0x200)
  else if d.length < defLen d then (0x12, 3)
  else if !((List.range (leAt d 8 1)).all (custOk d)) then (0x13, 0x200)
  else (0, 0)

/-- An approval record at the start of a byte string: custodian, signature, the rest; `none` for a malformed one (R295, R296). -/
def takeRecord (custs : List Cust) (l : List Byte) : Option (Nat × List Byte × List Byte) :=
  let c := leAt l 0 1
  let n := leAt l 2 2
  let size := 8 + roundUp n 8
  match custs[c]? with
  | none => none
  | some cu =>
    if decide (l.length < size) || leAt l 1 1 != cu.sigAlg || n != (if cu.sigAlg = 1 then 3309 else 96) || !allZero (slice l 4 4) ||
        !allZero (slice l (8 + n) (size - 8 - n)) then none
    else some (c, slice l 8 n, l.drop size)

/-- The records of a byte string; `none` where one is malformed or the bytes do not end with a record. -/
def takeRecords (custs : List Cust) : Nat → List Byte → Option (List (Nat × List Byte))
  | 0, l => if l.isEmpty then some [] else none
  | fuel + 1, l =>
    if l.isEmpty then some []
    else match takeRecord custs l with
      | none => none
      | some (c, sig, rest) => (takeRecords custs fuel rest).map fun t => (c, sig) :: t

/-- Whether a custodian's signature of an approval verifies (R295). -/
def approves (a : Approval) (cu : Cust) (sig : List Byte) : Bool :=
  let m := ascii "HX960-APPROVE" ++ a.challenge ++ a.digest
  if cu.sigAlg = 1 then verifies algMldsa65 pureMode cu.key (ascii "HX960 QUORUM") m sig
  else verifies algP384 sha384Mode cu.key [] m sig

/-- The custodians that an approval counts after some records: each once. -/
def countRecords (a : Approval) (custs : List Cust) (l : List (Nat × List Byte)) : List Nat :=
  l.foldl (fun acc r =>
    match custs[r.1]? with
    | some cu => if acc.contains r.1 || !approves a cu r.2 then acc else acc ++ [r.1]
    | none => acc) a.counted

/-- The lowest owner ID from `i` on that is free. -/
def lowestOwner (s : State) (step : Nat) : Nat → Nat → Option Nat
  | 0, _ => none
  | fuel + 1, i => if 1024 ≤ i then none else if s.ownerFree i then some i else lowestOwner s step fuel (i + step)

/-- The ID that a creation takes, if it may (R290, R487). -/
def State.pickOwner (s : State) (req : Nat) : Option Nat :=
  if req = 0xFFFF then (if s.byParity then lowestOwner s 2 512 s.parity else lowestOwner s 1 1024 0)
  else if s.ownerFree req then some req else none

/-- MODE 0: the records in the input are counted, then the owner is created. -/
def State.createOwner (s : State) (c : Cmd) (a : Approval) (d : List Byte) : Ran :=
  let defn := ownerDefOf d [] 0
  match takeRecords defn.cust (d.length / 104 + 1) (d.drop (defLen d)) with
  | none => ({ status := 0x13, detail := 0x200 }, [], s)
  | some l =>
    if (countRecords a defn.cust l).length < defn.quorum then ran s 0x25
    else match s.pickOwner (c.par 0 2) with
      | none => ran s 0x21
      | some o =>
        if s.freeSlots.length < s.unfilled false + 1 then ran s 0x43
        else
          let (salt, s) := s.draw 32
          let defn := { defn with salt := salt }
          match s.loadOwner o defn with
          | none => ran s 0x43
          | some s =>
            let (b, s) := s.issueBlob o defn
            ({ result := o, output := b }, [.owner o defn], s)

/-- MODE 1. (DEDUCED, log entry 54) -/
def State.redefine (s : State) (o : Nat) (d : List Byte) : Ran :=
  match s.ownerAt o with
  | none => ran s 0x13
  | some ow =>
    let defn := ownerDefOf d ow.defn.salt (ow.defn.policySeq + 1)
    let s := s.redefineOwner o defn
    let (b, s) := s.issueBlob o defn
    ({ result := o, output := b }, [.owner o defn], s)

/-- MODE 2. -/
def State.removeOwner (s : State) (c : Cmd) (o : Nat) : Ran :=
  let seq := match s.ownerAt o with | some ow => ow.defn.policySeq | none => 0
  ({ result := o }, [.ownerDestroy o seq], s.destroyOwner o (some c.fn))

/-- MODE 3. -/
def State.reissue (s : State) (o : Nat) : Ran :=
  match s.ownerAt o with
  | none => ran s 0x13
  | some ow =>
    let (b, s) := s.issueBlob o ow.defn
    ranOut s b o

/-- OWNER_CREATE once its definition is checked: the capacity, then the approval, then the mode's work. -/
def State.ownerModes (s : State) (c : Cmd) (d : List Byte) : Ran :=
  let mode := leAt d 5 1
  let o := if mode = 0 then c.par 0 2 else leAt d 6 2
  let custs := if mode = 3 then (match s.ownerAt o with | some ow => ow.defn.cust.length | none => 0) else leAt d 8 1
  if mode = 3 ∧ c.approval ≠ 0 then ({ status := 0x13, detail := 6 }, [], s)
  else if mode = 2 ∧ c.outLen ≠ 0 then ({ status := 0x13, detail := 0x1C }, [], s)
  else if mode ≠ 2 ∧ c.outLen < 160 + 2048 * custs then ({ status := 0x12, detail := 4 }, [], s)
  else if mode = 3 then s.reissue o
  else
    let input := if mode ≤ 1 then d.take (defLen d) else d
    match s.approvalAt c.approval with
    | none => ran s 0x25
    | some a =>
      if a.owner ≠ o then ran s 0x25
      else
        let s := s.endApproval c.approval
        if a.action ≠ mode + 1 ∨ (mode ≠ 0 ∧ !a.met) ∨ a.digest ≠ actionDigest (mode + 1) o 0x71 0 c.params input then ran s 0x25
        else if mode = 0 then s.createOwner c a d
        else if mode = 1 then s.redefine o d
        else s.removeOwner c o

/-- OWNER_CREATE. -/
def State.opOwnerCreate (s : State) (c : Cmd) (d : List Byte) : Ran :=
  match s.checkDef d with
  | (0, _) => s.ownerModes c d
  | (st, detail) => ({ status := st, detail := detail }, [], s)

/-! Approvals (R294 to R296). -/

/-- The next APPROVAL_ID after `id`: ascending, 0 left out, pending ones skipped. -/
def nextApproval (t : Tbl (Option Approval)) : Nat → Nat → Nat
  | 0, id => id % 65535 + 1
  | fuel + 1, id => if (tblGet none t (id % 65535 + 1)).isSome then nextApproval t fuel (id % 65535 + 1) else id % 65535 + 1

/-- QUORUM_CHALLENGE. -/
def State.opChallenge (s : State) (c : Cmd) (d : List Byte) : Ran :=
  let o := c.par 0 2
  let act := c.par 2 2
  let (window, m) := match s.ownerAt o with | some ow => (ow.defn.windowS, ow.defn.quorum) | none => (300, 0)
  let id := nextApproval s.keys.approvals s.keys.approvals.length s.keys.lastApproval
  let (n, s) := s.draw 32
  let digest := fit 32 d
  let chal := sha3 (ascii "HX960-CHAL" ++ n ++ leBytes 8 Config.serial.toNat ++ leBytes 2 id ++ leBytes 2 act ++ leBytes 2 o ++ digest)
  let a : Approval := { action := act, owner := o, digest := digest, challenge := chal, counted := [], quorum := if act = 1 then 0 else m,
                        windowS := if c.par 4 2 ≠ 0 then c.par 4 2 else if act = 1 then 300 else window }
  ranOut { s with keys := { s.keys with approvals := tblPut none s.keys.approvals id (some a), lastApproval := id } } chal id

/-- QUORUM_APPROVE. -/
def State.opApprove (s : State) (c : Cmd) (d : List Byte) : Ran :=
  let id := c.par 0 2
  match s.approvalAt id with
  | none => ran s 0x25
  | some a =>
    let custs := match s.ownerAt a.owner with | some ow => ow.defn.cust | none => []
    match takeRecords custs (c.par 2 1) d with
    | none => ({ status := 0x13, detail := 0x200 }, [], s)
    | some l =>
      if l.length ≠ c.par 2 1 then ({ status := 0x13, detail := 0x200 }, [], s)
      else
        let a := { a with counted := countRecords a custs l }
        let s : State := { s with keys := { s.keys with approvals := tblPut none s.keys.approvals id (some a) } }
        let r : Res := { status := if a.met then 0 else 0x25, result := a.counted.length, aux := a.quorum }
        (r, if a.met then [.approval id] else [], s)

/-! VFs and migration logs (R126, R137, R138, R525). -/

/-- The highest `k` pool queue pairs that nothing holds, from 1,023 downward (R217). -/
def State.takePoolQps (s : State) (k : Nat) : List Nat := (((List.range 1016).map (1023 - ·)).filter fun q => !s.poolQpUsed q).take k

/-- VF_CREATE: the VF is ACTIVE, bound to its owner, with its share of the pool. -/
def State.opVfCreate (s : State) (c : Cmd) : Ran :=
  let p := c.fn.port
  let n := c.par 0 1
  if s.noVf c n ∨ s.rd (R.VFS_STATE_STATE.vf p n) ≠ 0 then ({ status := 0x13, detail := 0x28 }, [], s)
  else if s.findVfOwner c ≠ 0 then ran s (s.findVfOwner c)
  else if s.vfPoolShort c then ran s 0x43
  else
    let s := s.setVf p n { s.vf p n with
      slotReserve := c.par 6 2, objReserve := c.par 12 4, poolQps := s.takePoolQps (c.par 1 1), vectors := c.par 2 1 }
    let s := (((s.wr (R.VFS_OWNER_OWNER.vf p n) (c.par 4 2)).wr (R.VFS_RES_QP_COUNT.vf p n) (c.par 1 1)).wr
      (R.VFS_RES_VEC_COUNT.vf p n) (c.par 2 1)).wr (R.VFS_RES_WEIGHT.vf p n) (c.par 3 1)
    let s := (((s.wr (R.VFS_SLOTS_LIMIT.vf p n) (c.par 8 2)).wr (R.VFS_OBJ_LIMIT_LIMIT.vf p n) (c.par 16 4)).wr
      (R.VFS_SLOTS_USED.vf p n) 0).wr (R.VFS_OBJECTS_USED.vf p n) 0
    ran ((s.wr (R.VFS_STATE_STATE.vf p n) 1).refreshVf (vfIndex p n)) 0

/-- MIGRATION_LOG. -/
def State.opMigration (s : State) (c : Cmd) : Ran :=
  let p := c.fn.port
  let n := c.par 0 1
  if c.par 1 1 = 0 then ran (s.wr (R.VFS_STATE_MIG_ON.vf p n) 0) 0
  else
    let s := s.setVf p n { s.vf p n with logAddr := c.par 8 8, logSize := 2 ^ c.par 2 1, logIdx := 0, logPhase := true, logPages := [] }
    let s := s.wr ((R.PE_MIG_HEAD_HEAD.port p).ix (n - 1)) 0
    let was := s.flag (R.VFS_STATE_MIG_OVERFLOW.vf p n)
    let s := (s.wr (R.VFS_STATE_MIG_ON.vf p n) 1).wr (R.VFS_STATE_MIG_OVERFLOW.vf p n) 0
    ran (if was then s.vector (.vf p n) 0 else s) 0

/-- VF_DESTROY: RESULT, and whether the completion waits for a release (R525). -/
def State.opVfDestroy (s : State) (c : Cmd) : Ran × Bool :=
  let p := c.fn.port
  let n := c.par 0 1
  let st := s.rd (R.VFS_STATE_STATE.vf p n)
  if s.noVf c n then (({ status := 0x13, detail := 0x28 }, [], s), false)
  else if st = 0 then (ranOut s [] 1, false)
  else if st = 3 then (ranOut s [] 1, true)
  else (ran (if st = 1 then s.startTeardown p n else s) 0, true)

/-- What a control-plane command does, by secure firmware. -/
def State.opControl (s : State) (c : Cmd) (d : List Byte) : Ran :=
  let op := c.opcode
  if op = 0x11 then s.opImport c d
  else if op = 0x12 then s.opExport c
  else if op = 0x13 then s.opDestroy c
  else if op = 0x15 then s.opAttest c d
  else if op = 0x70 then s.opOwnerLoad d
  else if op = 0x71 then s.opOwnerCreate c d
  else if op = 0x72 then s.opChallenge c d
  else if op = 0x73 then s.opApprove c d
  else if op = 0x7D then s.opMigration c
  else s.opVfCreate c

end Sys2Proof.Machine
end

