-- ==== Sys2Proof/Machine/Ends.lean ====
section
/-! DEFINITION. What a command does at step 8, and how it ends: failures, outputs, commit, completion (R24, R151, R157, R165, R172, R175). -/

namespace Sys2Proof.Machine

/-! HELLO and GET_INFO (R156 to R158, R164). -/

/-- The version that a feature needs (Table 7-7). -/
def featureVersion (b : Nat) : Nat := if b ≤ 3 then 0x100 else if b = 4 then 0x101 else if b = 5 then 0x102 else 0x103

/-- The highest version in the range of the driver and of the device. -/
def Cmd.helloVersion (c : Cmd) : Option Nat :=
  [0x103, 0x102, 0x101, 0x100].find? fun v =>
    decide (c.par 0 1 * 256 + c.par 1 1 ≤ v) && decide (v ≤ c.par 2 1 * 256 + c.par 3 1)

/-- GRANTED under a version. -/
def Cmd.granted (c : Cmd) (v : Nat) : Nat :=
  ((List.range 7).filter fun b => (c.par 8 8).testBit b && decide (featureVersion b ≤ v)).foldl bitSet 0

/-- HELLO after its checks. -/
def State.hello (s : State) (c : Cmd) : State :=
  match c.helloVersion with
  | some v => s.helloEnd c 0 0 v (c.granted v)
  | none => s.helloEnd c 0x11 0 0 0

/-- The 64 bytes of GET_INFO (Table 7-11). -/
def State.infoBytes (s : State) (c : Cmd) : List Byte :=
  let x := s.fnSt c.fn
  let st := match c.fn with | .vf p n => s.rd (R.VFS_STATE_STATE.vf p n) | _ => 0
  leBytes 4 (s.word 0 0) ++ leBytes 4 (s.word 0 4) ++ leBytes 4 (s.word 0 8) ++ leBytes 4 (s.word 0 0x10) ++ leBytes 4 (s.word 0 0x14) ++
    leBytes 4 (s.word 0 0x20000) ++ leBytes 8 Config.serial.toNat ++ leBytes 8 (s.rd R.GLB_BUILD_ID_BUILD_ID) ++
    leBytes 4 (st + (match s.ownerOf c.fn c.qp with | some o => o | none => 0x3FF) * 65536) ++
    leBytes 1 (x.version / 256) ++ leBytes 1 (x.version % 256) ++ zeros 2 ++ leBytes 8 x.granted ++ zeros 8

/-! Ends of a command. -/

/-- A check before step 7 fails. A HELLO still answers; a LENGTH_MISMATCH on a context destroys it (R157, R169). -/
def State.failEarly (s : State) (c : Cmd) (status detail : Nat) : State :=
  if c.opcode = 1 then s.helloEnd c status detail 0 0
  else (if status = 0x12 ∧ ctxOp c.opcode then s.dropCmdCtx c else s).complete c { status := status, detail := detail }

/-- A failure at step 7 or later. -/
def State.failLate (s : State) (c : Cmd) (status detail : Nat) : State := (s.dropCmdCtx c).stopCmd c status detail

/-- A failed read of host memory is logged in the function's AER registers, and in its port's event register; which of the errors of R118 it was is a free value. (DESIGN CHOICE, log entry 60) -/
def State.aerOf (s : State) (f : Fn) : State :=
  match f with
  | .nw => s
  | f => let (n, s) := s.freeNat 1; s.aerLog f (([12, 14, 15, 20] : List Nat).getD (n % 4) 14)

/-- A command fails for the loss of a resource; the spec states no reason code for it (R64). (DEDUCED, log entry 49) -/
def State.failLost (s : State) (c : Cmd) : State :=
  let (n, s) := s.freeNat 2
  s.failEarly c 0x7F n

/-- Commit records go to the twin one after the other. -/
def State.sendCommits (s : State) : List ChangeRec → State
  | [] => s
  | r :: t => (s.countCommit.sendFrame false (.commit r)).sendCommits t

/-- Steps 10 and 11 (R175, R489, R492). During a resynchronisation the commit is live (R493), and its command still ends with MIRROR_UNAVAILABLE, since the peer is not yet resynchronised. (DEDUCED, log entry 31) -/
def State.commitStep (s : State) (c : Cmd) (r : Res) (ch : List ChangeRec) : State :=
  let st := s.rd R.TWN_STATUS_STATE
  if ch.isEmpty then s.complete c r
  else if (st = 3 ∨ st = 4) ∧ s.twn.authed ∧ s.twn.linkUp then
    let s := s.sendCommits ch
    s.setCmd { c with stage := .commit (s.rd R.TWN_CSEQ_COUNT), changes := ch, res := if st = 3 then { r with status := 0x50 } else r }
  else if 3 ≤ st ∨ (st = 2 ∧ 3 ≤ s.twn.before) then (ch.foldl State.journalAdd s).complete c { r with status := 0x50 }
  else s.complete c r

/-- Steps 9 to 11: outputs, commit, completion. A refused internal write takes the effect back (R24). (DEDUCED, log entry 53) -/
def State.finish (pre : State) (c : Cmd) (x : Ran) : State :=
  let (r, ch, s) := x
  if r.status ≠ 0 then (s.dropCmdCtx c).complete c r
  else
    match writePieces c.fn 12 c.outPieces r.output s with
    | (true, s) => s.commitStep c r ch
    | (false, _) =>
      let back := { pre with freeCtr := s.freeCtr }
      ((writePieces c.fn 12 c.outPieces r.output back).2.dropCmdCtx c).complete c { status := 0x14, detail := 3 }

/-! What the dispatcher does alone (R151, R172). -/

/-- QUEUE_CREATE. -/
def State.opQueueCreate (s : State) (c : Cmd) : Ran :=
  let q := c.par 0 1
  let s := s.setQp c.fn q { enabled := true, sqAddr := c.par 8 8, cqAddr := c.par 16 8, sqLog2 := c.par 1 1, cqLog2 := c.par 2 1,
                            vector := c.par 3 1, coalCount := c.par 4 1, coalTime := c.par 6 2 }
  ran (s.portClaim c.fn.port) 0

/-- The command that an ABORT names: of the function, the one fetched first. -/
def State.abortTarget (s : State) (c : Cmd) : Option Cmd :=
  s.dsp.inflight.find? fun x => x.fn == c.fn && x.qp == c.par 0 1 && x.id != c.id && !x.entry.isEmpty && x.cid == c.par 2 2

/-- ABORT in command mode: the outcome. -/
def State.abortByCid (s : State) (c : Cmd) : Ran :=
  match s.abortTarget c with
  | none => ranOut s [] 1
  | some t =>
    if t.opcode = 3 then ranOut s [] 1
    else if t.abortable then ranOut (s.abortCmd t) [] 0
    else ranOut s [] 2

/-- Whether a handle names a context of another function (R166). -/
def State.foreignCtx (s : State) (c : Cmd) : Bool :=
  hClass c.key == 0x3F && (match tblGet none s.dsp.ctxs (hIndex c.key) with
    | some x => x.fn != c.fn && x.gen == hGen c.key && x.owner == hOwner c.key
    | none => false)

/-- ABORT in context mode. (DEDUCED, log entry 53) -/
def State.abortContext (s : State) (c : Cmd) : Ran :=
  match s.findCtx c.fn c.qp c.key with
  | .inr _ => if s.foreignCtx c then ran s 0x20 else ranOut s [] 1
  | .inl _ =>
    let users := s.dsp.inflight.filter fun x => x.fn == c.fn && x.id != c.id && ctxOp x.opcode && x.key == c.key && x.late
    ranOut ((users.foldl (fun s x => s.abortCmd x) s).dropCtx (hIndex c.key)) [] 0

/-- ABORT. -/
def State.opAbort (s : State) (c : Cmd) : Ran := if c.par 1 1 = 0 then s.abortByCid c else s.abortContext c

/-- RANDOM, all at once (R317). -/
def State.opRandom (s : State) (c : Cmd) : Ran :=
  let (r, s) := s.drawHost c.outLen
  ranOut s r

/-- Step 8 of every command but HELLO, QUEUE_DELETE and VF_DESTROY. -/
def State.runOp (s : State) (c : Cmd) (d : List Byte) : Ran :=
  let op := c.opcode
  if op = 2 then ranOut s (s.infoBytes c)
  else if op = 3 then s.opAbort c
  else if op = 4 then s.opQueueCreate c
  else if op = 6 then s.opCtxExport c
  else if op = 7 then s.opCtxImport c d
  else if op = 0x10 then s.opGenerate c
  else if op = 0x14 then s.opDerive c d
  else if op = 0x20 then s.opEncaps c d
  else if op = 0x21 then s.opDecaps c d
  else if op = 0x22 then s.opAgree c d
  else if op = 0x30 then s.opSign c d
  else if op = 0x31 then s.opVerify c d
  else if hashOp op then s.opHash c d
  else if 0x48 ≤ op ∧ op ≤ 0x4B then s.opMac c d
  else if op = 0x50 then s.opCipher c d
  else if 0x51 ≤ op ∧ op ≤ 0x53 then s.opAead c d
  else if op = 0x60 then s.opRandom c
  else s.opControl c d

end Sys2Proof.Machine
end

