-- ==== Sys2Proof/Machine/Handover.lean ====
section
/-! DEFINITION. The control queues between the dispatcher and secure firmware (R16, R17, R176, R177). -/

namespace Sys2Proof.Machine

/-- The input of a command at step 8. -/
def Cmd.input (c : Cmd) : List Byte := match c.data with | some (some d) => d | _ => []

/-- VF_DESTROY ends now, or once the VF has been released. -/
def State.vfDestroyed (s : State) (c : Cmd) (r : Res) (wait : Bool) : State :=
  if wait then s.setCmd { c with stage := .teardown, res := r } else s.complete c r

/-- A control queue that may take one more command: enabled, its pair in service, at most 2^LOG2 − 1 handed. -/
def State.queueRoom (s : State) (p : Nat) : Bool :=
  s.queueUp p && decide ((s.dsp.inflight.filter fun c => match c.stage with | .handed q _ => q == p | _ => false).length + 1 <
    2 ^ s.rd (R.DSP_CQ_CFG_LOG2.ix p))

/-- The ring of a control queue: base address, entry size and number of entries. -/
def State.ringBase (s : State) (p : Nat) (ret : Bool) : Nat :=
  if ret then s.rd (R.DSP_CQ_RBASE_ADDR.ix p) * 32 else s.rd (R.DSP_CQ_HBASE_ADDR.ix p) * 128

/-- Entries of a ring. -/
def State.ringSize (s : State) (p : Nat) : Nat := 2 ^ s.rd (R.DSP_CQ_CFG_LOG2.ix p)

/-- FUNC, PORT, FN and OWNER of a handover entry. -/
def State.handFn (s : State) (c : Cmd) : List Byte :=
  let o := match s.ownerOf c.fn c.qp with | some o => o | none => 0x3FF
  match c.fn with
  | .pf p => leBytes 1 0 ++ leBytes 1 p.num ++ leBytes 2 0 ++ leBytes 2 o
  | .vf p n => leBytes 1 1 ++ leBytes 1 p.num ++ leBytes 2 n ++ leBytes 2 o
  | .nw => leBytes 1 2 ++ leBytes 1 0 ++ leBytes 2 c.qp ++ leBytes 2 o

/-- A handover entry (Table 7-13). -/
def State.handEntry (s : State) (c : Cmd) (tag stage : Nat) : List Byte :=
  fit 64 c.entry ++ leBytes 2 tag ++ s.handFn c ++ leBytes 8 stage ++ leBytes 4 c.inLen ++ leBytes 4 c.outLen ++ leBytes 8 c.key ++ zeros 32

/-- The queue that takes the next command: in alternation, of those with room. (DEDUCED, log entry 51) -/
def State.pickQueue (s : State) : Option Nat :=
  let p := s.dsp.cqTurn % 2
  if s.queueRoom p then some p else if s.queueRoom (1 - p) then some (1 - p) else none

/-- A command is handed to a queue: its input lies in secure staging, whose address the spec leaves open within the secure firmware area (Table 11-2). A refused write ends the command (Table 10-4). (DEDUCED, log entry 51) -/
def State.handOver (s : State) (c : Cmd) (p : Nat) : State :=
  let (n, s) := s.freeNat 4
  let stage := ddrBase + n % 16760832 * 64
  let tag := s.dsp.nextTag % 65536
  let tail := s.rd (R.DSP_CQ_HTAIL_TAIL.ix p)
  let was := decide (s.rd (R.DSP_CQ_HHEAD_HEAD.ix p) ≠ tail)
  match s.dmaOut 13 .secure stage c.input with
  | (false, s) => s.failLate c 0x14 3
  | (true, s) =>
    match s.dmaOut 13 .secure (s.ringBase p false + 128 * tail) (s.handEntry c tag stage) with
    | (false, s) => s.failLate c 0x14 3
    | (true, s) =>
      let s := s.wr (R.DSP_CQ_HTAIL_TAIL.ix p) ((tail + 1) % s.ringSize p)
      let s := s.setCmd { c with stage := .handed p tag }
      let s : State := { s with dsp := { s.dsp with nextTag := tag + 1, cqTurn := 1 - p } }
      if was then s else { s with edges := s.edges ++ [202 + p] }

/-- The effect of a handed command: it takes place when secure firmware returns the status that the rules give. -/
def State.returned (s : State) (c : Cmd) (r : Res) : State :=
  if c.opcode = 0x7E then
    let ((x, _, s'), wait) := s.opVfDestroy c
    if x.status = r.status then s'.vfDestroyed c r wait else s.complete c r
  else
    let (x, ch, s') := s.opControl c c.input
    if x.status = r.status then s.finish c (r, ch, s') else s.finish c (r, [], s)

/-- One return entry (Table 7-14). (DESIGN CHOICE, log entry 24; DEDUCED, log entry 51) -/
def State.takeReturn (s : State) (p : Nat) (e : List Byte) : State :=
  match s.dsp.inflight.find? fun c => c.stage == .handed p (leAt e 0 2) with
  | none => s.setEvt R.DSP_EVT_BAD_RETURN
  | some c =>
    let n := leAt e 0x1C 4
    if c.outLen < n then s.complete c { status := 0x7F, detail := 9 }
    else
      match s.dmaIn 13 .secure (ddrBase + leAt e 0x18 4) n with
      | (_, false, s) => s.failLate c 0x14 3
      | (out, true, s) =>
        s.returned c { status := leAt e 2 1, detail := leAt e 4 2, result := leAt e 8 8, aux := leAt e 0x10 8, output := out }

/-- Return entries up to the new tail, `n` at most; one that cannot be read names no command and is refused. (DEDUCED, log entry 51) -/
def State.takeReturns (s : State) (p tail : Nat) : Nat → State
  | 0 => s
  | n + 1 =>
    let head := s.rd (R.DSP_CQ_RHEAD_HEAD.ix p)
    if head = tail then s
    else
      let (e, ok, s) := s.dmaIn 13 .secure (s.ringBase p true + 32 * head) 32
      let s := s.wr (R.DSP_CQ_RHEAD_HEAD.ix p) ((head + 1) % s.ringSize p)
      (if ok then s.takeReturn p e else s.setEvt R.DSP_EVT_BAD_RETURN).takeReturns p tail n

/-- The dispatcher reads the return ring up to its tail; while UPDATE = 1 its read waits at the table (R245). -/
def State.readReturns (s : State) (p : Nat) : State :=
  let a := s.ringBase p true + 32 * s.rd (R.DSP_CQ_RHEAD_HEAD.ix p)
  if s.rd (R.DSP_CQ_RHEAD_HEAD.ix p) = s.rd (R.DSP_CQ_RTAIL_TAIL.ix p) then s
  else if s.flag R.ACT_CTRL_UPDATE then
    if s.act.held.any fun x => x.origin == .returns p then s
    else s.hold { cls := 13, world := .secure, origin := .returns p, addr := a, kind := .read, data := [], len := 32 }
  else s.takeReturns p (s.rd (R.DSP_CQ_RTAIL_TAIL.ix p)) (s.ringSize p)

/-! Secure firmware carrying out a command by the rules, for a command that its own row carries out as a whole. -/

/-- The result that the rules give a control-plane command. -/
def State.controlRes (s : State) (c : Cmd) : Res := if c.opcode = 0x7E then (s.opVfDestroy c).1.1 else (s.opControl c c.input).1

/-- Whether the units that firmware's internal commands need are free (R17, R301). -/
def State.servable (s : State) (c : Cmd) : Bool := c.opcode != 0x15 || (s.unitReady c .lattice && s.unitReady c .bignum)

/-- A return entry (Table 7-14), its output at an offset of secure staging. -/
def returnEntry (tag off : Nat) (r : Res) : List Byte :=
  leBytes 2 tag ++ leBytes 1 r.status ++ zeros 1 ++ leBytes 2 r.detail ++ zeros 2 ++ leBytes 8 r.result ++ leBytes 8 r.aux ++
    leBytes 4 off ++ leBytes 4 r.output.length

/-- Secure firmware on pair `p` reads the handover ring, carries out the command, places its output in secure staging and returns it (R176, steps 3 and 4). (DESIGN CHOICE, log entry 24) -/
def State.serve (s : State) (c : Cmd) (p tag : Nat) : State :=
  let (n, s) := s.freeNat 4
  let off := n % 16760832 * 64
  let r := s.controlRes c
  let tail := s.rd (R.DSP_CQ_RTAIL_TAIL.ix p)
  let s := s.wr (R.DSP_CQ_HHEAD_HEAD.ix p) (s.rd (R.DSP_CQ_HTAIL_TAIL.ix p))
  let s := (s.dmaOut (3 + 2 * p) .secure (ddrBase + off) r.output).2
  let s := (s.dmaOut (3 + 2 * p) .secure (s.ringBase p true + 32 * tail) (returnEntry tag off r)).2
  (s.wr (R.DSP_CQ_RTAIL_TAIL.ix p) ((tail + 1) % s.ringSize p)).readReturns p

end Sys2Proof.Machine
end

