-- ==== Sys2Proof/Machine/Pipeline.lean ====
section
/-! DEFINITION. The path of a command (R24): from its submission entry to its completion, one stage at a time. -/

namespace Sys2Proof.Machine

/-! Step 7: waiting (R152, R158, R167). -/

/-- Whether a command names the context that another names. -/
def sameCtx (a b : Cmd) : Bool := ctxOp a.opcode && ctxOp b.opcode && a.fn == b.fn && a.key == b.key

/-- Whether an earlier command on its context has not ended. -/
def State.ctxBusy (s : State) (c : Cmd) : Bool := s.dsp.inflight.any fun x => decide (x.id < c.id) && sameCtx x c

/-- Whether a fence or its context holds a command at step 7. -/
def State.blocked (s : State) (c : Cmd) : Bool :=
  (c.fence && s.dsp.inflight.any fun x => decide (x.id < c.id) && x.fn == c.fn && x.qp == c.qp) ||
    s.ctxBusy c

/-- What a command needs next of the pools: its unit, then its hash lane. -/
def State.needNow (s : State) (c : Cmd) : Option (Pool × Bool) :=
  let first := if c.unit.isNone then s.need c else none
  match first with
  | some x => some x
  | none => if c.needsLane && c.lane.isNone then some (.hash, false) else none

/-- Granting a command what it needs next, where it is free. -/
def State.grantNext (s : State) (c : Cmd) (p : Pool) (tile : Bool) : Option (Cmd × State) :=
  if c.unit.isNone && (s.need c).isSome then (s.pickUnit c p tile).map fun ul => s.grantUnit c p tile ul
  else s.grantLane c

/-- A command's step 7: it waits, fails, or has what it needs. The Bool says whether it can go on. -/
def State.reserve (s : State) (c : Cmd) : State × Bool :=
  match s.needNow c with
  | none => (s.setCmd { c with stage := .input, pool := 0 }, true)
  | some (p, tile) =>
    if s.poolGone p then (if c.pool = 0 ∧ c.unit.isNone then s.failEarly c 0x43 0 else s.failLate c 0x43 0, false)
    else if c.pool ≠ 0 then (s, false)
    else
      let others := !(s.waiters p).isEmpty
      let c := { c with stage := .waiting, pool := p.num + 1 }
      let s := s.setCmd c
      let s := if tile then s.holdTile c else s
      if !c.whole ∨ others then (s, false)
      else match s.grantNext c p tile with
        | some (c, s) => (s.setCmd { c with pool := 0 }, true)
        | none => (s, false)

/-! The stages. Each answers the state and whether the command goes on at once. -/

/-- An entry that cannot be read completes with DMA_ERROR and CID 0xFFFF (R118, R155). (DESIGN CHOICE, log entry 59) -/
def State.entryError (s : State) (c : Cmd) : State := (s.aerOf c.fn).complete c { status := 0x14, detail := 1 }

/-- Step 1 of a normal-world command: its entry is read from internal memory (R218). -/
def State.stageEntry (s : State) (c : Cmd) (a : Nat) : State × Bool :=
  match s.nwEntry a with
  | (some e, s) => (s.setCmd { c with entry := e, stage := .check }, true)
  | (none, s) => (s.entryError c, false)

/-- Steps 2 and 3. -/
def State.stageCheck (s : State) (c : Cmd) : State × Bool :=
  match s.checkOpcode c with
  | 0 =>
    (match s.checkService c with
     | 0 => (s.setCmd { c with stage := .held }, true)
     | st => (s.failEarly c st 0, false))
  | st => (s.failEarly c st 0, false)

/-- Whether a HELLO waits for the commands of its function that were fetched before it (R158). -/
def State.helloWaits (s : State) (c : Cmd) : Bool :=
  c.opcode == 1 && s.dsp.inflight.any fun x => decide (x.id < c.id) && x.fn == c.fn

/-- The address of the segment that a command's walk needs next. -/
def Cmd.wants (c : Cmd) : Option Nat :=
  match c.walk with
  | .inl (.more a) => some a
  | _ => none

/-- The read requests that host memory answers for a command (R117). -/
def State.fnReads (s : State) (f : Fn) (l : List (Nat × Nat)) : State := l.foldl (fun s x => s.fnRead f x.1 x.2) s

/-- The read requests of some list segments. -/
def segReads (l : List SgSegment) : List (Nat × Nat) := l.map fun g => (g.addr, 16 * g.entries.length)

/-- Step 3 is left once Spawn is ready (R520, R318). -/
def State.stageHeld (s : State) (c : Cmd) : State × Bool :=
  if c.random && !s.flag R.ENT_STATUS_READY then
    (if s.flag R.ENT_STATUS_FAILED then (s.failEarly c 0x41 0, false) else (s, false))
  else (s.setCmd { c with stage := .lists }, true)

/-- Step 4: fields, lists, totals. -/
def State.stageLists (s : State) (c : Cmd) : State × Bool :=
  match s.checkFields c with
  | some off => (s.failEarly c 0x13 off, false)
  | none =>
    let (c, s) := if c.fn = .nw ∧ c.wants.isSome then s.nwLists c else (c, s)
    let s := if c.whole then s.fnReads c.fn (segReads (c.inSegs ++ c.outSegs)) else s
    match c.walk with
    | .inl .fault => (s.failEarly c 0x13 0x100, false)
    | .inl .dma => ((s.aerOf c.fn).failEarly c 0x14 2, false)
    | .inl _ => (s, false)
    | .inr (i, o) =>
      if i ≠ c.inLen then (s.failEarly c 0x12 1, false)
      else if o ≠ c.outLen then (s.failEarly c 0x12 2, false)
      else if !s.ctxBusy c && s.totalsDiffer c then ((s.dropCmdCtx c).failEarly c 0x12 3, false)
      else (s.setCmd { c with stage := .body }, true)

/-- The lines that the body of an object lies in, by address. -/
def State.bodyLines (s : State) (o : Obj) : List Nat := o.cells.flatMap fun k => [s.cellBase + 128 * k, s.cellBase + 128 * k + 64]

/-- What has befallen some lines, one after the other. -/
def befallLines : List Nat → List LineEvent → State → State
  | a :: t, e :: ev, s => befallLines t ev (befallFrom a [e] s)
  | _, _, s => s

/-- The read of an object's body, as the table sees it (R205). -/
def State.bodyAccess (s : State) (c : Cmd) (o : Obj) : HeldAccess :=
  { cls := 13, world := .secure, origin := .cmd c.id, addr := (s.bodyLines o).headD s.cellBase, kind := .read, data := [], len := o.len }

/-- A command's access takes its place in the arrival order at the table, once (R245). -/
def State.holdCmd (s : State) (a : HeldAccess) : State := if s.act.held.any fun x => x.origin == a.origin then s else s.hold a

/-- What step 5 found of a key: kept in the command through `f`, or the command waits or fails (R64, R205, R263). -/
def State.takeFound (s : State) (c : Cmd) (x : Found) (f : Attr × List Byte → Cmd) : State × Bool :=
  match x with
  | .key a v => (s.setCmd (f (a, v)), true)
  | .wait => (s.setCmd { c with stage := .rederive }, false)
  | .fail st detail => (s.failEarly c st detail, false)
  | .body a o =>
    match (List.range 3).find? fun u => s.resident c u && s.unitFree .code u with
    | some u => (s.setCmd { f (a, tblGet [] s.eng.resKey (if c.opcode = 0x20 then u else u + 8)) with hit := true }, true)
    | none =>
      let c := { c with stage := .body }
      if s.bodyLost o then (s.failLost c, false)
      else if s.flag R.ACT_CTRL_UPDATE then ((s.setCmd c).holdCmd (s.bodyAccess c o), false)
      else match c.bodyOk with
        | none => (s.setCmd c, false)
        | some ev =>
          match (befallLines (s.bodyLines o) ev s).readObject a o with
          | (.inl v, s) => (s.setCmd (f (a, v)), true)
          | (.inr (st, detail), s) => (s.failEarly c st detail, false)

/-- Whether a command works under the key-encryption key of its own owner (R283, R517). -/
def Cmd.usesKek (c : Cmd) : Bool := (c.opcode == 0x11 && c.par 0 1 == 0) || (c.opcode == 0x12 && c.par 8 1 == 0)

/-- Step 6. (DEDUCED, log entry 53) -/
def State.stagePolicy (s : State) (c : Cmd) : State × Bool :=
  match s.checkPolicy c with
  | (.inl (st, detail), s) => (s.failEarly c st detail, false)
  | (.inr digest, s) => (s.setCmd { c with stage := .waiting, pool := 0, digest := digest }, true)

/-- Step 5 and, once it is done, step 6. -/
def State.stageBody (s : State) (c : Cmd) : State × Bool :=
  match s.checkNames c with
  | 0 =>
    (match s.deviceMissing c with
     | some f => s.takeFound c f fun _ => c
     | none =>
       match (if c.usesKek then s.kekReady (s.own c) else none) with
       | some f => s.takeFound c f fun _ => c
       | none =>
         if c.namesKey && c.resolved.isNone then
           let (x, s) := s.findKey (s.ownerOf c.fn c.qp) c.key
           s.takeFound c x fun k => { c with resolved := some k, stage := .body, bodyOk := if c.whole then c.bodyOk else none }
         else if c.wrapHandle ≠ 0 ∧ c.wrapKey.isNone then
           let (x, s) := s.findKey (s.ownerOf c.fn c.qp) c.wrapHandle
           s.takeFound c x fun k => { c with wrapKey := some k, stage := .body, bodyOk := if c.whole then c.bodyOk else none }
         else if ctxOp c.opcode && s.ctxBusy c then (s.setCmd { c with stage := .waiting, pool := 0 }, false)
         else s.stagePolicy c)
  | st => (s.failEarly c st 0, false)

/-- Step 7, first part. A command on a context is checked again once the context is its own. (DEDUCED, log entry 53) -/
def State.stageWaiting (s : State) (c : Cmd) : State × Bool :=
  if c.pool = 0 ∧ c.unit.isNone ∧ s.blocked c then (s, false)
  else if ctxOp c.opcode ∧ c.pool = 0 ∧ c.unit.isNone then
    match s.checkNames c with
    | 0 =>
      if s.totalsDiffer c then ((s.dropCmdCtx c).failEarly c 0x12 3, false)
      else (match s.checkPolicy c with
        | (.inl (st, detail), s) => (s.failEarly c st detail, false)
        | (.inr _, s) => s.reserve c)
    | st => (s.failEarly c st 0, false)
  else s.reserve c

/-- The number of the action that a command's approval was for. -/
def State.digestWrong (s : State) (c : Cmd) (d : List Byte) : Bool :=
  match c.digest with
  | some g => g != actionDigest (s.actionOf c) (s.own c) c.opcode c.key c.params d
  | none => false

/-- Step 7, second part: the input; then the action digest (R297). -/
def State.stageInput (s : State) (c : Cmd) : State × Bool :=
  match (if c.inLen = 0 then some (some []) else c.data) with
  | some none => ((s.aerOf c.fn).failLate c 0x14 3, false)
  | some (some d) =>
    let s := if c.whole ∧ c.inLen ≠ 0 then s.fnReads c.fn c.inPieces else s
    let s := if c.digest.isSome then s.countHashed c.inLen else s
    if s.digestWrong c (fit c.inLen d) then (s.failLate c 0x25 0, false)
    else (s.setCmd { c with data := some (some (fit c.inLen d)), stage := .engine }, true)
  | none =>
    match c.fn with
      | .nw =>
        let (l, ok, s) := s.nwRead c.inPieces
        (s.setCmd { c with data := some (if ok then some l else none) }, true)
      | _ => (s, false)

/-- Whether a command waits for a handover entry. -/
def Cmd.waitsHandover (c : Cmd) : Bool := c.stage == .engine && controlOp c.opcode

/-- Whether an earlier command waits for a handover entry. -/
def State.handoverAhead (s : State) (c : Cmd) : Bool := s.dsp.inflight.any fun x => decide (x.id < c.id) && x.waitsHandover

/-- Step 7 of a control-plane command: it waits for a handover entry, each wait counted once, and is handed over by its own row or by CONTROL_HANDOVER (R16, R176, R177). (DESIGN CHOICE, log entry 24) -/
def State.stageControl (s : State) (c : Cmd) : State × Bool :=
  if !s.queueUp 0 ∧ !s.queueUp 1 then (s.failLate c 0x42 0, false)
  else match s.pickQueue with
    | none => (if c.cqWaited then s else (s.setEvt R.DSP_EVT_CQ_WAIT).setCmd { c with cqWaited := true }, false)
    | some p => if c.whole && !s.handoverAhead c then (s.handOver c p, true) else (s, false)

/-- A command with secure firmware: of a whole command the firmware's work is done as soon as its units are free. (DESIGN CHOICE, log entry 24) -/
def State.stageHanded (s : State) (c : Cmd) (p tag : Nat) : State × Bool :=
  if c.whole && !s.flag R.ACT_CTRL_UPDATE && s.servable c then (s.serve c p tag, false) else (s, false)

/-- QUEUE_DELETE: the queue pair is disabled once its fetched commands have completed (R151). `engineDone` marks that the deletion has begun. -/
def State.stageDelete (s : State) (c : Cmd) : State × Bool :=
  let q := c.par 0 1
  if c.engineDone then (if (s.qp c.fn q).enabled then (s, false) else (s.complete c {}, false))
  else if !(s.qp c.fn q).enabled then (s.complete c { result := 1 }, false)
  else
    let s := s.setQp c.fn q { s.qp c.fn q with deleting := true }
    ((s.finishDelete c.fn q).setCmd { c with engineDone := true }, true)

/-- Step 8. A digest of MODE 2 comes first; the command then waits for the unit of its key's pool (R368). -/
def State.stageEngine (s : State) (c : Cmd) : State × Bool :=
  if controlOp c.opcode then s.stageControl c
  else if c.opcode = 1 then (s.hello c, false)
  else if c.opcode = 5 then s.stageDelete c
  else if c.opcode = 0x60 ∧ !c.whole then (s.setCmd { c with stage := .drawing }, false)
  else if c.unit.isSome ∧ !c.whole ∧ !c.engineDone then (s, false)
  else if c.preHash then
    let s := (s.countHashed (c.inLen - c.par 2 1)).releaseUnit { c with lane := none } true
    (s.setCmd { c with unit := none, preHashed := true, engineDone := false, stage := .waiting, pool := 0 }, true)
  else (s.finish c (s.runOp c c.input), false)

/-- RANDOM ends once its last byte is drawn. -/
def State.stageDrawing (s : State) (c : Cmd) : State × Bool :=
  if c.outLen ≤ c.drawn.length then (s.finish c (ranOut s (c.drawn.take c.outLen)), false) else (s, false)

/-- The access that a command makes next at its stage, as the table sees it: engine DMA for inputs and outputs of the normal world, the dispatcher for the rest (R233, R245). The read of an object's body is held where it is found. (DEDUCED, log entry 19) -/
def State.nextAccess (s : State) (c : Cmd) : Option HeldAccess :=
  let acc := fun (cls : Nat) (w : World) (k : AccKind) (a : Nat × Nat) =>
    some ({ cls := cls, world := w, origin := .cmd c.id, addr := a.1, kind := k, data := [], len := a.2 } : HeldAccess)
  match c.stage with
  | .entry a => acc 13 .normal .read (a, 64)
  | .lists => if c.fn = .nw then c.wants.bind fun a => acc 13 .normal .read (a, 16) else none
  | .input => if c.fn = .nw ∧ c.inLen ≠ 0 ∧ c.data = none then acc 12 .normal .read (c.inPieces.headD (0, 0)) else none
  | .engine =>
    if controlOp c.opcode then
      let p := s.pickQueue.getD 0
      acc 13 .secure .write (s.ringBase p false + 128 * s.rd (R.DSP_CQ_HTAIL_TAIL.ix p), 128)
    else if c.unit.isSome ∧ !c.whole ∧ !c.engineDone then none
    else match (s.creates c).find? fun x => !x.1 with
      | some (_, n) => acc 13 .secure .write (s.cellBase + 128 * (s.takeCells n).headD 0, n)
      | none => if c.fn = .nw ∧ c.outLen ≠ 0 then acc 12 .normal .write (c.outPieces.headD (0, 0)) else none
  | .drawing => if c.fn = .nw ∧ c.outLen ≤ c.drawn.length then acc 12 .normal .write (c.outPieces.headD (0, 0)) else none
  | _ => none

/-- What a command does at its stage. -/
def State.stageDo (s : State) (c : Cmd) : State × Bool :=
  match c.stage with
  | .entry a => s.stageEntry c a
  | .check => s.stageCheck c
  | .held => s.stageHeld c
  | .lists => s.stageLists c
  | .body | .rederive => s.stageBody c
  | .waiting => s.stageWaiting c
  | .input => s.stageInput c
  | .engine => s.stageEngine c
  | .drawing => s.stageDrawing c
  | .handed p tag => s.stageHanded c p tag
  | .commit _ | .teardown | .done => (s, false)

/-- One stage of a command: a HELLO waits for the commands before it, an access waits at the table while UPDATE = 1 (R158, R245). -/
def State.stageStep (s : State) (c : Cmd) : State × Bool :=
  if s.helloWaits c then (s, false)
  else match (if s.flag R.ACT_CTRL_UPDATE then s.nextAccess c else none) with
    | some a => (s.holdCmd a, false)
    | none => s.stageDo c

/-- A command goes on through at most `n` stages, until it waits or ends. (DESIGN CHOICE, log entry 24) -/
def State.advance (s : State) (id : Nat) : Nat → State
  | 0 => s
  | n + 1 =>
    match s.cmd id with
    | none => s
    | some c =>
      match s.stageStep c with
      | (s, true) => s.advance id n
      | (s, false) => s

/-- More stages than any command has. (DESIGN CHOICE, log entry 24) -/
def stages : Nat := 24

/-- Every command that may go on does so, in fetch order; the alarms that its accesses fired are decided. (DESIGN CHOICE, log entry 24) -/
def State.pump (s : State) : State := ((s.dsp.inflight.map Cmd.id).foldl (fun s id => s.advance id stages) s).settle

/-! Step 1: fetching (R144, R147, R158, R173). -/

/-- Commands that a function may hold at steps 3 to 7. -/
def State.fetchLimit (s : State) (f : Fn) : Nat := match f with | .pf _ => 256 | _ => s.ctxLimit f

/-- Commands that a function holds at steps 3 to 7, one that waits for a handover entry among them. -/
def State.fetched (s : State) (f : Fn) : Nat :=
  (s.dsp.inflight.filter fun c => c.fn == f && (match c.stage with
    | .entry _ | .check | .held | .lists | .body | .rederive | .waiting | .input => true
    | _ => c.waitsHandover)).length

/-- Whether a function is able to submit. -/
def State.fnUp (s : State) (f : Fn) (q : Nat) : Bool :=
  match f with
  | .pf p => s.flag (R.PE_LINK_DL_UP.port p) && !(s.port p).d3 && !(s.port p).pfReset
  | .vf p n => s.flag (R.PE_LINK_DL_UP.port p) && !(s.port p).d3 && !(s.port p).pfReset && s.vfActive p n
  | .nw => s.flag (R.WLD_NQ_BIND_BOUND.ix q)

/-- Whether a queue pair has an entry that the dispatcher can fetch (R144, R147, R158, R173). -/
def State.canFetch (s : State) (f : Fn) (q : Nat) : Bool :=
  let x := s.qp f q
  let size := 2 ^ x.cqLog2
  s.boot.alive && s.fnUp f q && x.enabled && !x.deleting && !x.error && x.sqHead != x.sqTail &&
    decide ((x.cqTail + size - x.cqHead) % size + x.reserved + 1 < size) && decide (s.fetched f < s.fetchLimit f) &&
    !(s.dsp.inflight.any fun c => c.fn == f && !c.entry.isEmpty && c.opcode == 1)

/-- The function of an identifier. -/
def fnOfId (i : Nat) : Fn :=
  if 512 ≤ i then .nw
  else
    let p := if i < 256 then Port.a else Port.b
    if i % 256 = 0 then .pf p else .vf p (i % 256)

/-- Queue pairs with an entry to fetch, by the number under which they are held. -/
def State.fetchable (s : State) : List Nat := (s.qps.map Prod.fst).filter fun k => s.canFetch (fnOfId (k / 64)) (k % 64)

/-- The next number of a rotation that last served the one before `next`. -/
def turnOf (next : Nat) (l : List Nat) : Option Nat :=
  match (l.filter fun x => decide (next ≤ x)).min? with
  | some x => some x
  | none => l.min?

/-- Whether a queue pair's turn has come: queue pairs of a function in rotation, functions of a port in rotation, ports in alternation (R130, R173). The normal world takes its turns apart from the ports. (DEDUCED, log entry 53) -/
def State.fetchTurn (s : State) (f : Fn) (q : Nat) : Bool :=
  let l := s.fetchable
  let mine := l.filter fun k => k / 64 == f.id
  turnOf (tblGet 0 s.dsp.fetchQp f.id) (mine.map (· % 64)) == some q && (f == .nw ||
    let near := l.filter fun k => k / 64 / 256 == f.port.num
    let far := l.filter fun k => k / 64 / 256 != f.port.num && decide (k / 64 < 512)
    turnOf (tblGet 0 s.dsp.fetchFn f.port.num) (near.map (· / 64)) == some f.id && (far.isEmpty || s.dsp.fetchPort != f.port.num + 1))

/-- Whether the dispatcher fetches the next entry of a queue pair. -/
def State.mayFetch (s : State) (f : Fn) (q : Nat) : Bool := s.canFetch f q && s.fetchTurn f q

/-- The dispatcher's head moves past an entry, for which a completion entry is reserved; the rotations move on. -/
def State.takeEntry (s : State) (f : Fn) (q : Nat) : State :=
  let x := s.qp f q
  let s := (s.fnRead f (s.entryAddr f q) 64).setQp f q { x with sqHead := (x.sqHead + 1) % 2 ^ x.sqLog2, reserved := x.reserved + 1 }
  let d := { s.dsp with nextId := s.dsp.nextId + 1, fetchQp := tblPut 0 s.dsp.fetchQp f.id (q + 1) }
  { s with dsp := if f = .nw then d else { d with fetchFn := tblPut 0 s.dsp.fetchFn f.port.num (f.id + 1), fetchPort := f.port.num + 1 } }

/-- A fetched command joins the dispatcher and goes as far as it can. -/
def State.begin (s : State) (c : Cmd) : State :=
  ({ s with dsp := { s.dsp with inflight := s.dsp.inflight ++ [c] } } : State).advance c.id stages

/-- A command as it is fetched: a normal-world entry is read by the dispatcher itself. -/
def State.newCmd (s : State) (f : Fn) (q : Nat) (e : List Byte) : Cmd :=
  match f with
  | .nw => { id := s.dsp.nextId, fn := f, qp := q, entry := [], stage := .entry (s.entryAddr f q) }
  | _ => { id := s.dsp.nextId, fn := f, qp := q, entry := e, stage := .check }

/-- An entry of host memory that cannot be read (R118, R155). -/
def State.unreadable (s : State) (f : Fn) (q : Nat) : State :=
  let c : Cmd := { id := s.dsp.nextId, fn := f, qp := q, entry := [], stage := .check }
  let s := s.takeEntry f q
  ({ s with dsp := { s.dsp with inflight := s.dsp.inflight ++ [c] } } : State).entryError c

/-- The entry that a fetch brings: what the event says of host memory; what internal memory holds for the normal world. (DESIGN CHOICE, log entry 59) -/
def State.fetchedEntry (s : State) (f : Fn) (q : Nat) (e : List Byte) : List Byte :=
  match f with
  | .nw => (s.nwEntry (s.entryAddr f q)).1.getD e
  | _ => e

/-- A command carried out as a whole by its own row: its entry must carry the row's opcode. (DESIGN CHOICE, log entry 24) -/
def State.whole (s : State) (ops : List Byte → List Byte → Bool) (f : Fn) (q : Nat) (e : List Byte) (h : HostData) :
    Host.Outcome State Fault Refusal :=
  if s.mayFetch f q && decide (e.length = 64) && ops (s.fetchedEntry f q e) (h.input.getD []) then
    let c : Cmd := { s.newCmd f q e with
      inSegs := h.inSegs, outSegs := h.outSegs, data := match f with | .nw => none | _ => some h.input,
      bodyOk := some h.bodyEvents, whole := true }
    .next ((s.takeEntry f q).begin c).pump
  else s.noEvent

/-- The row of one opcode. (DESIGN CHOICE, log entry 24) -/
def State.opRow (s : State) (op : Nat) (f : Fn) (q : Nat) (e : List Byte) (h : HostData) :
    Host.Outcome State Fault Refusal :=
  s.whole (fun e _ => leAt e 0 1 == op) f q e h

end Sys2Proof.Machine
end

