-- ==== Sys2Proof/Machine/Entropy.lean ====
section
/-! DEFINITION. Spawn: its quadrants, trims, distribution and raw capture (chapter 13). -/

namespace Sys2Proof.Machine

/-- STATE of a quadrant: 1 starting, 2 in service, 3 capture, 4 FAILED. -/
def State.quad (s : State) (q : Nat) : Nat := s.rd (R.ENT_QSTAT_STATE.ix q)

/-- The first quadrant to join after the reset makes Spawn ready; step 7 of the start follows where it is due (R312). (DEDUCED, log entry 34) -/
def State.entReady (s : State) : State :=
  let s := (s.wr R.ENT_STATUS_READY 1).setEvt R.ENT_EVT_READY
  (s.setStatus R.GLB_STATUS_ENT_READY 1).startStep7

/-- GLB_CAPACITY changes; it is set at step 11 for the first time (R310, R475). (DEDUCED, log entry 37) -/
def State.entCapacity (s : State) (before : List Nat) : State :=
  if s.boot.katDone then s.recapacity before else s

/-- A quadrant releases its first block: one that had been captured is counted already (R312, R320). After the loss of every
quadrant READY stays 0 until the next reset of the WARM group (R318). (DEDUCED, log entry 34) -/
def State.joinQuad (s : State) (q : Nat) : State :=
  let before := s.capacityList
  let fresh := !s.ent.joined.contains q
  let s := ((s.wr (R.ENT_QSTAT_STATE.ix q) 2).wr R.ENT_STATUS_IN_SERVICE (s.rd R.ENT_STATUS_IN_SERVICE + 1)).setEvt (R.ENT_QEVT_JOINED.ix q)
  let s : State := if fresh then { s with ent := { s.ent with joined := q :: s.ent.joined } } else s
  let s := if fresh then s.entCapacity before else s
  if s.flag R.ENT_STATUS_READY || s.flag R.ENT_STATUS_FAILED then s else s.entReady

/-- ENT_QUADRANT_JOINED. (DESIGN CHOICE, log entry 10) -/
def execEntQuadrantJoined (quadrant : Fin 4) (s : State) : Host.Outcome State Fault Refusal :=
  if s.quad quadrant.val = 1 then .next (s.joinQuad quadrant.val).pump else s.noEvent

/-- A trim after a window with `ones` ones between its thresholds: 6 bits, zero the end that favours zeros (R305). (DEDUCED, log entry 35) -/
def trimStep (trim ones lo hi : Nat) : Nat := if hi < ones then trim - 1 else if ones < lo then min 63 (trim + 1) else trim

/-- Whether the trim of a cell stands at an end of its range (R305). -/
def State.trimAtEnd (s : State) (q c : Nat) : Bool := tblGet 32 s.ent.trims (q * 512 + c) == 0 || tblGet 32 s.ent.trims (q * 512 + c) == 63

/-- Whether the ones count of a balance window fails (Table 13-1). -/
def balanceFails (ones : Nat) : Bool := decide (ones < 1748) || decide (2348 < ones)

/-- The first cell, from number `c` on, that a balance window of 4,096 samples fails, with its test: the ones counts, and the trims that stood at an end for the whole window (R305, R307). (DEDUCED, log entry 35) -/
def State.windowFails (s : State) (q : Nat) : Nat → List Nat → Option (Nat × Nat)
  | _, [] => none
  | c, n :: t => if balanceFails n then some (c, 3) else if s.trimAtEnd q c then some (c, 4) else s.windowFails q (c + 1) t

/-- The trims of a quadrant's cells from number `c` on, by their ones counts. (DEDUCED, log entry 35) -/
def State.trimCells (s : State) (q lo hi : Nat) : Nat → List Nat → State
  | _, [] => s
  | c, n :: t =>
    let k := q * 512 + c
    let s : State := { s with ent := { s.ent with trims := tblPut 32 s.ent.trims k (trimStep (tblGet 32 s.ent.trims k) n lo hi) } }
    s.trimCells q lo hi (c + 1) t

/-! Failure of a quadrant (R310, R318). -/

/-- The capture of the first failure. -/
def State.captureEnt (s : State) (q cell test : Nat) (startup : Bool) : State :=
  if s.flag R.ENT_FAIL_INFO_TEST then s
  else (((s.wr R.ENT_FAIL_INFO_QUAD q).wr R.ENT_FAIL_INFO_CELL cell).wr R.ENT_FAIL_INFO_TEST test).wr R.ENT_FAIL_INFO_STARTUP startup.toNat

/-- A command that needs randomness and has not handed its work on ends with ENTROPY_FAILED (R318). (DEDUCED, log entry 35) -/
def State.entropyLost (s : State) : State :=
  (s.dsp.inflight.filter fun c => c.random && c.abortable).foldl (fun s c => s.abortCmd c 0x41) s

/-- The last quadrant in service has failed (R318). (DEDUCED, log entry 34) -/
def State.allFailed (s : State) : State :=
  let s := ((s.wr R.ENT_STATUS_READY 0).wr R.ENT_STATUS_FAILED 1).setStatus R.GLB_STATUS_ENT_READY 0
  let s := (s.setEvt R.ENT_EVT_ALL_FAILED).raiseAlarms [14]
  s.entropyLost.wr R.KS_STATUS_MOLT_RUN 0

/-- A quadrant stops for the rest of the boot. (DEDUCED, log entry 34) -/
def State.failQuad (s : State) (q cell test : Nat) : State :=
  let before := s.capacityList
  let was := s.quad q
  let counted := s.ent.joined.contains q
  let s := s.captureEnt q cell test (was == 1)
  let s := ((s.wr (R.ENT_QSTAT_STATE.ix q) 4).wr (R.ENT_QSTAT_QUAR.ix q) 0).setEvt (R.ENT_QEVT_FAIL.ix q)
  let s : State := { s with ent := { s.ent with joined := s.ent.joined.filter (· != q) } }
  let s := if was = 2 then s.wr R.ENT_STATUS_IN_SERVICE (s.rd R.ENT_STATUS_IN_SERVICE - 1) else s
  let s := if counted then s.entCapacity before else s
  if was = 2 ∧ s.rd R.ENT_STATUS_IN_SERVICE = 0 then s.allFailed
  else if (List.range 4).all fun i => s.quad i == 4 then s.wr R.ENT_STATUS_FAILED 1
  else s

/-- ENT_BALANCE_WINDOW_END: a window of 4,096 samples, which a cell may fail, or one of the at most 10 windows of 1,024 in acquisition. -/
def execEntBalanceWindowEnd (quadrant : Fin 4) (startup : Bool) (ones : List Nat) (s : State) : Host.Outcome State Fault Refusal :=
  let q := quadrant.val
  let n := tblGet 0 s.ent.acquired q
  if ones.length ≠ 512 ∨ s.quad q = 0 ∨ s.quad q = 4 then s.noEvent
  else if startup then
    if s.quad q = 1 ∧ n < 10 then
      let s : State := { s with ent := { s.ent with acquired := tblPut 0 s.ent.acquired q (n + 1) } }
      .next (s.trimCells q 496 528 0 ones)
    else s.noEvent
  else match s.windowFails q 0 ones with
    | some (cell, test) => .next (s.failQuad q cell test).pump
    | none => .next (s.trimCells q 1984 2112 0 ones)

/-- The code of a health test (Table 13-1, ENT_FAIL_INFO.TEST). -/
def failCode : HealthFail → Nat
  | .repetition _ => 1
  | .proportion _ => 2
  | .balance _ => 3
  | .trim => 4
  | .knownAnswer => 5

/-- Whether what was observed of a cell fails its test (Table 13-1, R305, R311). (DEDUCED, log entry 35) -/
def State.healthFails (s : State) (q cell : Nat) : HealthFail → Bool
  | .repetition run => decide (101 ≤ run)
  | .proportion count => decide (756 ≤ count) && decide (count ≤ 1024)
  | .balance ones => balanceFails ones
  | .trim => s.trimAtEnd q cell
  | .knownAnswer => s.quad q == 1

/-- ENT_QUADRANT_FAIL. -/
def execEntQuadrantFail (quadrant : Fin 4) (cell : Nat) (fail : HealthFail) (s : State) : Host.Outcome State Fault Refusal :=
  let q := quadrant.val
  if cell < 512 ∧ s.healthFails q cell fail ∧ 1 ≤ s.quad q ∧ s.quad q ≤ 3 then .next (s.failQuad q cell (failCode fail)).pump
  else s.noEvent

/-! Distribution (R309, R314 to R317). -/

/-- ENT_BLOCK_RELEASE: a block leaves quarantine; how many remain there is a free value (R309). (DEDUCED, log entry 35) -/
def execEntBlockRelease (quadrant : Fin 4) (s : State) : Host.Outcome State Fault Refusal :=
  if s.quad quadrant.val = 2 then
    let (n, s) := s.freeNat 2
    .next (s.wr (R.ENT_QSTAT_QUAR.ix quadrant.val) (n % 2049))
  else s.noEvent

/-- The class of a RANDOM command: 4 from a host function, 5 from a normal-world queue pair (Table 13-3). (DEDUCED, log entry 35) -/
def Cmd.entClass (c : Cmd) : Nat := if c.fn = .nw then 5 else 4

/-- RANDOM commands that wait for words of a class. -/
def State.drawers (s : State) (cls : Nat) : List Cmd := s.dsp.inflight.filter fun c => c.stage == .drawing && c.entClass == cls

/-- The requester of a class that is next in rotation after the one granted last. (DEDUCED, log entry 35) -/
def State.nextDrawer (s : State) (cls : Nat) : Option Cmd :=
  let l := s.drawers cls
  match l.find? (fun c => decide (tblGet 0 s.ent.turns cls ≤ c.id)) with
  | some c => some c
  | none => l.head?

/-- One word is granted to a RANDOM command. -/
def State.grantWord (s : State) (c : Cmd) : State :=
  let (w, s) := s.drawHost (min 32 (c.outLen - c.drawn.length))
  let s : State := { s with ent := { s.ent with turns := tblPut 0 s.ent.turns c.entClass (c.id + 1) } }
  s.setCmd { c with drawn := c.drawn ++ w }

/-- ENT_WORD_GRANT: class 4 before class 5; requests of classes 1 to 3 never wait in this model. (DEDUCED, log entry 35) -/
def execEntWordGrant (s : State) : Host.Outcome State Fault Refusal :=
  if !s.flag R.ENT_STATUS_READY then s.noEvent
  else match s.nextDrawer 4, s.nextDrawer 5 with
    | some c, _ => .next (s.grantWord c).pump
    | none, some c => .next (s.grantWord c).pump
    | none, none => s.noEvent

/-- ENT_SHARE_WINDOW_END: a window of 1,000 SYS_REFCLK periods ends (R315). -/
def execEntShareWindowEnd (s : State) : Host.Outcome State Fault Refusal :=
  if s.boot.alive && decide (s.time % 1000 = 0) then .next { s with ent := { s.ent with windowWords := 0 } }
  else s.noEvent

/-- ENT_STARVED: a RANDOM has waited 100 µs (R316). -/
def execEntStarved (s : State) : Host.Outcome State Fault Refusal :=
  if s.dsp.inflight.any fun c => c.stage == .drawing then .next (s.setEvt R.ENT_EVT_STARVED)
  else s.noEvent

/-! Raw capture (R320). -/

/-- The life-cycle states that allow raw capture: TEST_UNLOCKED_n, DEV and RMA. -/
def State.captureState (s : State) : Bool := lcUnlocked s.lcState || s.lcState == 16 || s.lcState == 18

/-- RESULT of a GO: 0 where the capture starts. (DEDUCED, log entry 36) -/
def State.captureCheck (s : State) (q dest len : Nat) : Nat :=
  if !s.captureState then 1
  else if s.quad q = 4 ∨ (List.range 4).all (fun i => i == q || s.quad i != 2) then 2
  else if len = 0 ∨ 0x100000 < len ∨ dest < sramBase ∨ sramBase + s.rd R.WLD_SRAM_WM_WM * 0x10000 < dest + len then 3
  else 0

/-- A capture starts: the quadrant leaves service. (DEDUCED, log entry 36) -/
def State.startCapture (s : State) (q dest len : Nat) : State :=
  let s := if s.quad q = 2 then s.wr R.ENT_STATUS_IN_SERVICE (s.rd R.ENT_STATUS_IN_SERVICE - 1) else s
  let s := (s.wr (R.ENT_QSTAT_STATE.ix q) 3).wr R.ENT_CAP_STAT_BUSY 1
  { s with ent := { s.ent with capture := some (q, s.rd R.ENT_CAP_CTRL_MODE, s.rd R.ENT_CAP_CTRL_CELL, dest, len) } }

/-- A write to ENT_CAP_CTRL: its fields, and GO, which is ignored while BUSY. (DEDUCED, log entry 36) -/
def State.capCtrl (s : State) (val : Nat) : State :=
  let s := ((s.wr R.ENT_CAP_CTRL_QUAD (bits val 0 2)).wr R.ENT_CAP_CTRL_MODE (bits val 2 2)).wr R.ENT_CAP_CTRL_CELL (bits val 4 9)
  if !val.testBit 31 || s.flag R.ENT_CAP_STAT_BUSY then s
  else
    let dest := s.rd R.ENT_CAP_ADDR_ADDR * 64
    let len := s.rd R.ENT_CAP_LEN_LEN_KIB * 1024
    let r := s.captureCheck (bits val 0 2) dest len
    let s := s.wr R.ENT_CAP_STAT_RESULT r
    if r = 0 then s.startCapture (bits val 0 2) dest len else s

/-- ENT_CAPTURE_GO: a write to ENT_CAP_CTRL. -/
def execEntCaptureGo (who : Requester) (value : Word32) (s : State) : Host.Outcome State Fault Refusal :=
  .next (s.gated who 0x60020 value.toNat fun s => s.capCtrl value.toNat)

/-- A captured quadrant runs its start-up again from step 2, its trims at mid-range. (DEDUCED, log entry 36) -/
def State.restartQuad (s : State) (q : Nat) : State :=
  let s : State := { s with ent := { s.ent with
    trims := s.ent.trims.filter (fun e => e.1 / 512 != q), acquired := tblPut 0 s.ent.acquired q 0 } }
  s.wr (R.ENT_QSTAT_STATE.ix q) 1

/-- Captured samples go to memory through the engine DMA with world S; while UPDATE = 1 the write waits at the table (R245). -/
def State.captureWrite (s : State) (dest : Nat) (l : List Byte) : State :=
  if s.flag R.ACT_CTRL_UPDATE then
    s.hold { cls := 12, world := .secure, origin := .post, addr := dest, kind := .write, data := l, len := l.length }
  else (s.dmaOut 12 .secure dest l).2

/-- Bits packed into bytes, least significant bit first; a last part of a byte is filled with zeros. (DEDUCED, log entry 36) -/
def packBits (l : List Bool) : List Byte := leBytes ((l.length + 7) / 8) (l.foldr (fun b n => b.toNat + 2 * n) 0)

/-- The data that a capture writes for the groups sampled (Table 13-5): whole groups, or the samples of one cell, of which restart mode takes 1,024 a record. (DEDUCED, log entry 36) -/
def captureData (mode cell : Nat) (groups : List (BitVec 512)) : List Byte :=
  if mode = 0 then groups.flatMap fun g => leBytes 64 g.toNat
  else packBits (groups.map fun g => g.getLsbD cell)

/-- ENT_CAPTURE_DONE: the samples go to memory through the engine DMA with world S; a health test that failed ended the capture. What the reserved MODE 3 writes is free. (DEDUCED, log entry 36) -/
def execEntCaptureDone (failed : Bool) (groups : List (BitVec 512)) (s : State) : Host.Outcome State Fault Refusal :=
  match s.ent.capture with
  | none => s.noEvent
  | some (q, mode, cell, dest, len) =>
    let data := captureData mode cell groups
    if failed ≠ decide (s.quad q = 4) ∨ len < data.length ∨ (failed = false ∧ data.length ≠ len) then
      s.noEvent
    else
      let (samples, s) := if mode = 3 then s.free data.length else (data, s)
      let s : State := { s with ent := { s.ent with capture := none } }
      let s := s.captureWrite dest samples
      let s := ((s.wr R.ENT_CAP_STAT_BUSY 0).wr R.ENT_CAP_STAT_RESULT (if failed then 4 else 0)).setEvt (R.ENT_QEVT_CAP_DONE.ix q)
      .next (if failed then s else s.restartQuad q).settle

end Sys2Proof.Machine
end

