-- ==== Sys2Proof/Machine/Evolin.lean ====
section
/-! DEFINITION. The rows of the Evolin protocol: each opcode as one row, the stages of a fetched command, the control queues (chapter 07). -/

namespace Sys2Proof.Machine

/-! One row for each opcode: the entry is fetched and carried as far as it goes, with what host memory answers. -/

/-- HELLO. -/
def execHello (fn : Fn) (qp : Nat) (entry : List Byte) (host : HostData) (s : State) : Host.Outcome State Fault Refusal :=
  s.opRow 0x01 fn qp entry host

/-- GET_INFO. -/
def execGetInfo (fn : Fn) (qp : Nat) (entry : List Byte) (host : HostData) (s : State) : Host.Outcome State Fault Refusal :=
  s.opRow 0x02 fn qp entry host

/-- QUEUE_CREATE. -/
def execQueueCreate (fn : Fn) (qp : Nat) (entry : List Byte) (host : HostData) (s : State) : Host.Outcome State Fault Refusal :=
  s.opRow 0x04 fn qp entry host

/-- QUEUE_DELETE. -/
def execQueueDelete (fn : Fn) (qp : Nat) (entry : List Byte) (host : HostData) (s : State) : Host.Outcome State Fault Refusal :=
  s.opRow 0x05 fn qp entry host

/-- CTX_EXPORT. -/
def execCtxExport (fn : Fn) (qp : Nat) (entry : List Byte) (host : HostData) (s : State) : Host.Outcome State Fault Refusal :=
  s.opRow 0x06 fn qp entry host

/-- CTX_IMPORT. -/
def execCtxImport (fn : Fn) (qp : Nat) (entry : List Byte) (host : HostData) (s : State) : Host.Outcome State Fault Refusal :=
  s.opRow 0x07 fn qp entry host

/-- KEY_GENERATE. -/
def execKeyGenerate (fn : Fn) (qp : Nat) (entry : List Byte) (host : HostData) (s : State) : Host.Outcome State Fault Refusal :=
  s.opRow 0x10 fn qp entry host

/-- KEY_IMPORT_WRAPPED. -/
def execKeyImportWrapped (fn : Fn) (qp : Nat) (entry : List Byte) (host : HostData) (s : State) : Host.Outcome State Fault Refusal :=
  s.opRow 0x11 fn qp entry host

/-- KEY_EXPORT_WRAPPED. -/
def execKeyExportWrapped (fn : Fn) (qp : Nat) (entry : List Byte) (host : HostData) (s : State) : Host.Outcome State Fault Refusal :=
  s.opRow 0x12 fn qp entry host

/-- KEY_DESTROY. -/
def execKeyDestroy (fn : Fn) (qp : Nat) (entry : List Byte) (host : HostData) (s : State) : Host.Outcome State Fault Refusal :=
  s.opRow 0x13 fn qp entry host

/-- KEY_DERIVE. -/
def execKeyDerive (fn : Fn) (qp : Nat) (entry : List Byte) (host : HostData) (s : State) : Host.Outcome State Fault Refusal :=
  s.opRow 0x14 fn qp entry host

/-- KEY_ATTEST. -/
def execKeyAttest (fn : Fn) (qp : Nat) (entry : List Byte) (host : HostData) (s : State) : Host.Outcome State Fault Refusal :=
  s.opRow 0x15 fn qp entry host

/-- KEM_ENCAPS. -/
def execKemEncaps (fn : Fn) (qp : Nat) (entry : List Byte) (host : HostData) (s : State) : Host.Outcome State Fault Refusal :=
  s.opRow 0x20 fn qp entry host

/-- KEM_DECAPS. -/
def execKemDecaps (fn : Fn) (qp : Nat) (entry : List Byte) (host : HostData) (s : State) : Host.Outcome State Fault Refusal :=
  s.opRow 0x21 fn qp entry host

/-- KEY_AGREE. -/
def execKeyAgree (fn : Fn) (qp : Nat) (entry : List Byte) (host : HostData) (s : State) : Host.Outcome State Fault Refusal :=
  s.opRow 0x22 fn qp entry host

/-- SIGN. -/
def execSign (fn : Fn) (qp : Nat) (entry : List Byte) (host : HostData) (s : State) : Host.Outcome State Fault Refusal :=
  s.opRow 0x30 fn qp entry host

/-- VERIFY. -/
def execVerify (fn : Fn) (qp : Nat) (entry : List Byte) (host : HostData) (s : State) : Host.Outcome State Fault Refusal :=
  s.opRow 0x31 fn qp entry host

/-- HASH_INIT. -/
def execHashInit (fn : Fn) (qp : Nat) (entry : List Byte) (host : HostData) (s : State) : Host.Outcome State Fault Refusal :=
  s.opRow 0x40 fn qp entry host

/-- HASH_UPDATE. -/
def execHashUpdate (fn : Fn) (qp : Nat) (entry : List Byte) (host : HostData) (s : State) : Host.Outcome State Fault Refusal :=
  s.opRow 0x41 fn qp entry host

/-- HASH_FINAL. -/
def execHashFinal (fn : Fn) (qp : Nat) (entry : List Byte) (host : HostData) (s : State) : Host.Outcome State Fault Refusal :=
  s.opRow 0x42 fn qp entry host

/-- HASH_VERIFY. -/
def execHashVerify (fn : Fn) (qp : Nat) (entry : List Byte) (host : HostData) (s : State) : Host.Outcome State Fault Refusal :=
  s.opRow 0x43 fn qp entry host

/-- MAC_INIT. -/
def execMacInit (fn : Fn) (qp : Nat) (entry : List Byte) (host : HostData) (s : State) : Host.Outcome State Fault Refusal :=
  s.opRow 0x48 fn qp entry host

/-- MAC_UPDATE. -/
def execMacUpdate (fn : Fn) (qp : Nat) (entry : List Byte) (host : HostData) (s : State) : Host.Outcome State Fault Refusal :=
  s.opRow 0x49 fn qp entry host

/-- MAC_FINAL. -/
def execMacFinal (fn : Fn) (qp : Nat) (entry : List Byte) (host : HostData) (s : State) : Host.Outcome State Fault Refusal :=
  s.opRow 0x4A fn qp entry host

/-- MAC_VERIFY. -/
def execMacVerify (fn : Fn) (qp : Nat) (entry : List Byte) (host : HostData) (s : State) : Host.Outcome State Fault Refusal :=
  s.opRow 0x4B fn qp entry host

/-- CIPHER. -/
def execCipher (fn : Fn) (qp : Nat) (entry : List Byte) (host : HostData) (s : State) : Host.Outcome State Fault Refusal :=
  s.opRow 0x50 fn qp entry host

/-- AEAD_INIT. -/
def execAeadInit (fn : Fn) (qp : Nat) (entry : List Byte) (host : HostData) (s : State) : Host.Outcome State Fault Refusal :=
  s.opRow 0x51 fn qp entry host

/-- AEAD_UPDATE. -/
def execAeadUpdate (fn : Fn) (qp : Nat) (entry : List Byte) (host : HostData) (s : State) : Host.Outcome State Fault Refusal :=
  s.opRow 0x52 fn qp entry host

/-- AEAD_FINAL. -/
def execAeadFinal (fn : Fn) (qp : Nat) (entry : List Byte) (host : HostData) (s : State) : Host.Outcome State Fault Refusal :=
  s.opRow 0x53 fn qp entry host

/-- RANDOM. -/
def execRandom (fn : Fn) (qp : Nat) (entry : List Byte) (host : HostData) (s : State) : Host.Outcome State Fault Refusal :=
  s.opRow 0x60 fn qp entry host

/-- OWNER_LOAD. -/
def execOwnerLoad (fn : Fn) (qp : Nat) (entry : List Byte) (host : HostData) (s : State) : Host.Outcome State Fault Refusal :=
  s.opRow 0x70 fn qp entry host

/-- QUORUM_CHALLENGE. -/
def execQuorumChallenge (fn : Fn) (qp : Nat) (entry : List Byte) (host : HostData) (s : State) : Host.Outcome State Fault Refusal :=
  s.opRow 0x72 fn qp entry host

/-- QUORUM_APPROVE. -/
def execQuorumApprove (fn : Fn) (qp : Nat) (entry : List Byte) (host : HostData) (s : State) : Host.Outcome State Fault Refusal :=
  s.opRow 0x73 fn qp entry host

/-- VF_CREATE. -/
def execVfCreate (fn : Fn) (qp : Nat) (entry : List Byte) (host : HostData) (s : State) : Host.Outcome State Fault Refusal :=
  s.opRow 0x7F fn qp entry host

/-- VF_DESTROY. -/
def execVfDestroy (fn : Fn) (qp : Nat) (entry : List Byte) (host : HostData) (s : State) : Host.Outcome State Fault Refusal :=
  s.opRow 0x7E fn qp entry host

/-- ABORT in command mode. -/
def execAbortCommand (fn : Fn) (qp : Nat) (entry : List Byte) (host : HostData) (s : State) : Host.Outcome State Fault Refusal :=
  s.whole (fun e _ => leAt e 0 1 == 3 && leAt e 0x29 1 != 1) fn qp entry host

/-- ABORT in context mode. -/
def execAbortContext (fn : Fn) (qp : Nat) (entry : List Byte) (host : HostData) (s : State) : Host.Outcome State Fault Refusal :=
  s.whole (fun e _ => leAt e 0 1 == 3 && leAt e 0x29 1 == 1) fn qp entry host

/-- OWNER_CREATE with MODE 0, and with a MODE that is none. -/
def execOwnerCreate (fn : Fn) (qp : Nat) (entry : List Byte) (host : HostData) (s : State) : Host.Outcome State Fault Refusal :=
  s.whole (fun e d => leAt e 0 1 == 0x71 && (leAt d 5 1 == 0 || decide (3 < leAt d 5 1))) fn qp entry host

/-- OWNER_CREATE with MODE 1. -/
def execOwnerRedefine (fn : Fn) (qp : Nat) (entry : List Byte) (host : HostData) (s : State) : Host.Outcome State Fault Refusal :=
  s.whole (fun e d => leAt e 0 1 == 0x71 && leAt d 5 1 == 1) fn qp entry host

/-- OWNER_CREATE with MODE 2. -/
def execOwnerDestroy (fn : Fn) (qp : Nat) (entry : List Byte) (host : HostData) (s : State) : Host.Outcome State Fault Refusal :=
  s.whole (fun e d => leAt e 0 1 == 0x71 && leAt d 5 1 == 2) fn qp entry host

/-- OWNER_CREATE with MODE 3. -/
def execOwnerReissue (fn : Fn) (qp : Nat) (entry : List Byte) (host : HostData) (s : State) : Host.Outcome State Fault Refusal :=
  s.whole (fun e d => leAt e 0 1 == 0x71 && leAt d 5 1 == 3) fn qp entry host

/-- MIGRATION_LOG with START ≠ 0. -/
def execMigrationLogStart (fn : Fn) (qp : Nat) (entry : List Byte) (host : HostData) (s : State) : Host.Outcome State Fault Refusal :=
  s.whole (fun e _ => leAt e 0 1 == 0x7D && leAt e 0x29 1 != 0) fn qp entry host

/-- MIGRATION_LOG with START = 0. -/
def execMigrationLogStop (fn : Fn) (qp : Nat) (entry : List Byte) (host : HostData) (s : State) : Host.Outcome State Fault Refusal :=
  s.whole (fun e _ => leAt e 0 1 == 0x7D && leAt e 0x29 1 == 0) fn qp entry host

/-! The stages of a command whose transfers and engines are events of their own. -/

/-- SQ_ENTRY_FETCH_DONE: the next entry of a queue pair has been read, or the read has failed. Of a normal-world queue pair internal memory itself says what it holds. (DESIGN CHOICE, log entry 59) -/
def execSqEntryFetchDone (fn : Fn) (qp : Nat) (entry : Option (List Byte)) (s : State) : Host.Outcome State Fault Refusal :=
  if !s.mayFetch fn qp then s.noEvent
  else match entry, fn with
    | none, .pf _ | none, .vf _ _ => .next (s.unreadable fn qp).pump
    | e, _ => .next ((s.takeEntry fn qp).begin (s.newCmd fn qp (fit 64 (e.getD [])))).pump

/-- Whether the segment needed next is one of the input list. -/
def Cmd.wantsIn (c : Cmd) : Bool :=
  match c.inWalk with
  | .more _ => true
  | _ => false

/-- SG_SEGMENT_ARRIVED. -/
def execSgSegmentArrived (cmd : Nat) (seg : SgSegment) (s : State) : Host.Outcome State Fault Refusal :=
  match s.cmd cmd with
  | some c =>
    if c.stage = .lists ∧ c.wants = some seg.addr then
      let c := if c.wantsIn then { c with inSegs := c.inSegs ++ [seg] } else { c with outSegs := c.outSegs ++ [seg] }
      .next (((s.setCmd c).fnReads c.fn (segReads [seg])).advance cmd stages).pump
    else s.noEvent
  | none => s.noEvent

/-- OBJECT_BODY_ARRIVED: the body comes from DDR5, with what has befallen its lines (Table 11-4). -/
def execObjectBodyArrived (cmd : Nat) (events : List LineEvent) (s : State) : Host.Outcome State Fault Refusal :=
  match s.cmd cmd with
  | some c =>
    if c.stage = .body ∧ c.bodyOk = none ∧ s.flag R.ACT_CTRL_UPDATE = false then .next ((s.setCmd { c with bodyOk := some events }).advance cmd stages).pump
    else s.noEvent
  | none => s.noEvent

/-- The unit number that a grant names: of a tile command the first lane of its tile. -/
def grantNumber (p : Pool) (ul : Nat) : Nat := match p with | .hash => ul | _ => ul / 4

/-- A waiting command takes what it needs next of a pool, where that is free. -/
def State.tryGrant (s : State) (p : Pool) (c : Cmd) : Option (Nat × Cmd × State) :=
  match s.needNow c with
  | none => none
  | some (_, tile) =>
    let ul := if c.unit.isNone && (s.need c).isSome then s.pickUnit c p tile else s.pickLane (s.cmdOwner c)
    match ul, s.grantNext c p tile with
    | some ul, some (c, s) => some (grantNumber p ul, c, s)
    | _, _ => none

/-- The rotation passes over a command that can take nothing now, and serves the next (R174, R384). -/
def State.grantFrom (s : State) (p : Pool) : Nat → List Nat → Option (Nat × Cmd × State)
  | 0, _ => none
  | n + 1, skip =>
    match s.nextWaiter p skip with
    | none => none
    | some (c, s') =>
      match s'.tryGrant p c with
      | some g => some g
      | none => s.grantFrom p n (c.id :: skip)

/-- What the next grant of a pool gives: what is taken, the command it goes to, and the state after it. (DESIGN CHOICE, log entry 63) -/
def State.nextGrant (s : State) (p : Pool) : Option (Nat × Cmd × State) := s.grantFrom p (s.waiters p).length []

/-- UNIT_GRANT: the command that the weighted rotation serves next takes a unit; for the hash pool `unit` is 4 × tile + lane. -/
def execUnitGrant (pool unit : Nat) (s : State) : Host.Outcome State Fault Refusal :=
  if 5 ≤ pool then s.noEvent
  else match s.nextGrant (poolOf pool) with
    | some (u, c, s) =>
      if u = unit then .next ((s.setCmd { c with pool := 0 }).advance c.id stages).pump else s.noEvent
    | none => s.noEvent

/-- INPUT_FETCH_DONE. -/
def execInputFetchDone (cmd : Nat) (data : Option (List Byte)) (s : State) : Host.Outcome State Fault Refusal :=
  match s.cmd cmd with
  | some c =>
    if c.stage = .input ∧ c.data = none ∧ c.fn ≠ .nw then
      .next (((s.setCmd { c with data := some data }).fnReads c.fn c.inPieces).advance cmd stages).pump
    else s.noEvent
  | none => s.noEvent

/-- ENGINE_DONE. (DESIGN CHOICE, log entry 10) -/
def execEngineDone (cmd : Nat) (s : State) : Host.Outcome State Fault Refusal :=
  match s.cmd cmd with
  | some c =>
    if c.stage = .engine ∧ c.unit.isSome ∧ c.engineDone = false ∧ s.clearing c = false then
      .next ((s.setCmd { c with engineDone := true }).advance cmd stages).pump
    else s.noEvent
  | none => s.noEvent

/-! The control queues (R176, R177). -/

/-- CONTROL_HANDOVER. (DEDUCED, log entry 51) -/
def execControlHandover (cmd : Nat) (s : State) : Host.Outcome State Fault Refusal :=
  match s.cmd cmd, s.pickQueue with
  | some c, some p =>
    if c.waitsHandover && !s.flag R.ACT_CTRL_UPDATE && !s.handoverAhead c then .next (s.handOver c p).pump
    else s.noEvent
  | _, _ => s.noEvent

/-- The CFG_ERR of a control queue (R177). -/
def State.cqError (s : State) (p : Nat) : Nat :=
  let l := s.rd (R.DSP_CQ_CFG_LOG2.ix p)
  let inSram := fun (a n : Nat) => decide (sramBase ≤ a) && decide (a + n ≤ sramBase + s.rd R.WLD_SRAM_WM_WM * 0x10000)
  let h := s.ringBase p false
  let r := s.ringBase p true
  if l < 4 ∨ 10 < l then 1
  else if !inSram h (128 * 2 ^ l) || !inSram r (32 * 2 ^ l) then 2
  else if h % (128 * 2 ^ l) ≠ 0 ∨ r % (32 * 2 ^ l) ≠ 0 then 3 else 0

/-- ENABLE of a control queue is written to 1. (DEDUCED, log entry 51) -/
def State.cqEnable (s : State) (p : Nat) : State :=
  if s.flag (R.DSP_CQ_CFG_ENABLE.ix p) then s
  else
    let e := s.cqError p
    let s := s.wr (R.DSP_CQ_CFG_CFG_ERR.ix p) e
    if e = 0 then s.wr (R.DSP_CQ_CFG_ENABLE.ix p) 1 else s

/-- ENABLE is written to 0: without effect while a command is handed to the queue. -/
def State.cqDisable (s : State) (p : Nat) : State :=
  if s.dsp.inflight.any fun c => match c.stage with | .handed q _ => q == p | _ => false then s
  else s.wr (R.DSP_CQ_CFG_ENABLE.ix p) 0

/-- DSP_CQ_CFG[p] as its enable write finds it. -/
def State.cqCfg (s : State) (p : Nat) (enable : Bool) : Nat := s.rd (R.DSP_CQ_CFG_LOG2.ix p) + (if enable then 2 ^ 31 else 0)

/-- DSP_CQ_ENABLE. -/
def execDspCqEnable (who : Requester) (queue : Fin 2) (s : State) : Host.Outcome State Fault Refusal :=
  .next (s.gated who (0xC0108 + 0x20 * queue.val) (s.cqCfg queue.val true) fun s => (s.cqEnable queue.val).pump)

/-- DSP_CQ_DISABLE. -/
def execDspCqDisable (who : Requester) (queue : Fin 2) (s : State) : Host.Outcome State Fault Refusal :=
  .next (s.gated who (0xC0108 + 0x20 * queue.val) (s.cqCfg queue.val false) fun s => (s.cqDisable queue.val).pump)

/-- A write to DSP_CQ_RTAIL. -/
def State.cqRtail (s : State) (p val : Nat) : State :=
  let t := bits val 0 10
  if !s.flag (R.DSP_CQ_CFG_ENABLE.ix p) then s.wr (R.DSP_CQ_RTAIL_TAIL.ix p) t
  else if s.ringSize p ≤ t then s.setEvt R.DSP_EVT_BAD_RETURN
  else ((s.wr (R.DSP_CQ_RTAIL_TAIL.ix p) t).readReturns p).pump

/-- DSP_CQ_RTAIL_WRITE. -/
def execDspCqRtailWrite (who : Requester) (queue : Fin 2) (value : Word32) (s : State) : Host.Outcome State Fault Refusal :=
  .next (s.gated who (0xC0114 + 0x20 * queue.val) value.toNat fun s => s.cqRtail queue.val value.toNat)

end Sys2Proof.Machine
end

