-- ==== Sys2Proof/Machine/Keys.lean ====
section
/-! DEFINITION. Molt, the re-derivation of device keys, the end of approval windows (chapter 12). -/

namespace Sys2Proof.Machine

/-- Re-masking of a slot: fresh bytes go over both shares and both codes are computed anew (R275). (DEDUCED, log entry 38) -/
def State.remask (s : State) (p : Nat) (sl : Slot) : State :=
  let (r, s) := s.draw 128
  let a := xorBytes sl.shareA r
  let b := xorBytes sl.shareB r
  s.setSlot p (some { sl with shareA := a, shareB := b, codeA := shareCode a sl.attr p, codeB := shareCode b sl.attr p })

/-- One slot of a Molt pass: the codes that fail, by the event or by the stored bytes, make it defective (R275, R277). (DEDUCED, log entry 38) -/
def State.moltSlot (s : State) (bad : List (Nat × Nat)) (p : Nat) : State :=
  match s.slotAt p with
  | none => s
  | some sl =>
    let share := match bad.find? fun b => b.1 == p with | some b => b.2 % 4 | none => sl.failing p
    if share = 0 then s.remask p sl else s.defectSlot p share false

/-- A Molt pass over some slots: it ends at once where a defect's response zeroizes the slots (R276). The Bool says whether it came to its end. -/
def moltPass (bad : List (Nat × Nat)) : List Nat → State → Bool × State
  | [], s => (true, s)
  | p :: t, s =>
    let s := s.moltSlot bad p
    if s.tmp.zeroing then (false, s) else moltPass bad t s

/-- MOLT_PERIOD: the pass over the occupied slots; `late` tells that it has not finished when the next period begins (R276). (DEDUCED, log entry 38) -/
def execMoltPeriod (bad : List (Nat × Nat)) (late : Bool) (s : State) : Host.Outcome State Fault Refusal :=
  if s.boot.keysDrawn && s.flag R.ENT_STATUS_READY && !s.tmp.zeroing then
    match moltPass bad (s.keys.slots.map Prod.fst) s with
    | (true, s) =>
      let s := if late then s.setEvt R.KS_EVT_MOLT_LATE else s
      .next (((s.wrapAdd R.KS_MOLT_PASSES 1).wr R.KS_STATUS_MOLT_RUN late.toNat).pump)
    | (false, s) => .next (s.wr R.KS_STATUS_MOLT_RUN 0).pump
  else s.noEvent

/-- The slot of a restored device key: the one that Regrowth mapped last where it is free, else a free shared slot (R517). (DEDUCED, log entry 38) -/
def State.restoreSlot (s : State) : Option Nat × State :=
  match s.keys.regrown.find? fun p => s.freeSlots.contains p with
  | some p => (some p, s)
  | none => s.pickSlot

/-- A device key is placed in a slot: re-derived, or, for the context key, drawn anew (R19, R517). (DEDUCED, log entry 38) -/
def State.restoreDevice (s : State) (k : DeviceKey) (p : Nat) : State :=
  match k with
  | .kek o =>
    let s := s.fillSlot p (ownerKek (s.derivedKey 2) o) { owner := o, secretLen := 32 } (.kek o)
    (match s.ownerAt o with
     | some ow => s.setOwner o (some { ow with kekSlot := some p })
     | none => s).setEvt R.KS_EVT_RESTORED
  | .slot n =>
    let s : State := { s with keys := { s.keys with reservedMap := tblPut none s.keys.reservedMap n (some p) } }
    if n = 4 then
      let (k, s) := s.draw 32
      let s := s.fillDevice 4 k
      { s with dsp := { s.dsp with ctxKey := k } }
    else (s.fillDevice n (s.derivedKey n)).setEvt R.KS_EVT_RESTORED

/-- DEVICE_KEY_REDERIVED: the commands that waited for the key go on; with no slot free it is lost (R517). -/
def execDeviceKeyRederived (key : DeviceKey) (s : State) : Host.Outcome State Fault Refusal :=
  if s.keys.rederive.contains key then
    let s : State := { s with keys := { s.keys with rederive := s.keys.rederive.filter (· != key) } }
    match s.restoreSlot with
    | (some p, s) => .next (s.restoreDevice key p).pump
    | (none, s) => .next ({ s with keys := { s.keys with lost := key :: s.keys.lost } } : State).pump
  else s.noEvent

/-- APPROVAL_WINDOW_EXPIRY: the approval is removed (R294). -/
def execApprovalWindowExpiry (id : Nat) (s : State) : Host.Outcome State Fault Refusal :=
  if (s.approvalAt id).isSome then .next (s.endApproval id) else s.noEvent

end Sys2Proof.Machine
end

