-- ==== Sys2Proof/Machine/Memory.lean ====
section
/-! DEFINITION. The DDR5 channels: training, zero-fill, scrub, line reads and writes, ALERT_N (chapter 11). -/

namespace Sys2Proof.Machine

/-! Initiators (Tables 10-1 and 10-4). -/

/-- Whether a command's accesses at its stage are the dispatcher's own; its data pass by engine DMA (R233). -/
def Cmd.dispatches (c : Cmd) : Bool :=
  match c.stage with
  | .entry _ | .check | .held | .lists | .body | .rederive => true
  | .engine => controlOp c.opcode
  | _ => false

/-- The initiator class of an access to DDR5. -/
def State.initClass (s : State) : Initiator → Nat
  | .requester w => classOf w
  | .command id _ => (match s.cmd id with | some c => if c.dispatches then 13 else 12 | none => 12)
  | .soade => 2
  | .test => 14
  | .scrub => 13

/-- The world an access to DDR5 carries: the object cache is read with world S (Table 9-1). -/
def State.initWorld (s : State) : Initiator → World
  | .requester w => worldOf w
  | .command id w => (match s.cmd id with | some c => if c.stage = .body then .secure else w | none => w)
  | _ => .secure

/-- Why a line access fails: refused at the table, its channel does not answer, or the line is beyond correction. -/
inductive LineFault | refused | down | uncorrectable
deriving DecidableEq, Repr

/-- An internal access of a command ends with an error response (Table 10-4). -/
def State.dmaError (s : State) (c : Cmd) : State :=
  match c.stage with
  | .entry _ => s.entryError c
  | .check | .held | .lists => s.failEarly c 0x14 2
  | .body | .rederive => s.failEarly c 0x14 3
  | .commit _ | .teardown | .done => s
  | _ => s.failLate c 0x14 3

/-- The read of an object's body fails: KEY_POLICY where the line is beyond correction, INTERNAL where its channel is LOST or STOPPED (R64, R257, R517). -/
def State.bodyError (s : State) (c : Cmd) (off : Nat) (why : LineFault) : State :=
  match why with
  | .refused => s.dmaError c
  | .uncorrectable => s.failEarly c 0x21 0
  | .down =>
    match (match s.lineOf (ddrBase + off) with | some (ch, _) => s.rd (R.MEM_STATUS_STATE.mem ch) | none => 0) with
    | 4 => s.failLost c
    | 5 => s.failEarly c 0x7F 0x16
    | _ => s.dmaError c

/-- An error response at its initiator (R99, Table 10-4). -/
def State.initError (s : State) (x : LineAccess) (why : LineFault) : State :=
  match x.who with
  | .requester w =>
    if !x.data.isEmpty then s.errorWrite w (ddrBase + x.off)
    else (match w with
      | .core _ _ _ => s.emit (.answer w none)
      | _ => s.errorRead w)
  | .command id _ =>
    (match s.cmd id with
     | some c => if c.stage = .body then s.bodyError c x.off why else s.dmaError c
     | none => s)
  | .soade => s.closeWith (some 4)
  | .test | .scrub => s

/-! Training (R249, R250). -/

/-- A module as MEM_CFG reports it. -/
def State.reportModule (s : State) (c : Nat) (present wide twoRanks : Bool) (rate gib : Nat) : State :=
  ((((s.wr (R.MEM_CFG_PRESENT.mem c) present.toNat).wr (R.MEM_CFG_WIDTH.mem c) wide.toNat).wr (R.MEM_CFG_RANKS.mem c) twoRanks.toNat).wr
    (R.MEM_CFG_RATE.mem c) rate).wr (R.MEM_CFG_CAP_GIB.mem c) gib

/-- A rate code and a capacity that Table 11-1 lists. -/
def trainingFits (rate gib : Nat) : Bool := decide (rate < 5) && decide (8 ≤ gib) && decide (gib ≤ 128)

/-- A channel whose training failed stays without service; DB's domains enter LOST, a pending request for them is replaced (R65, R250). -/
def State.trainFail (s : State) (c cause : Nat) : State :=
  let s := (s.wr (R.MEM_STATUS_CAUSE.mem c) cause).setEvt (R.MEM_EVT_TRAIN_FAIL.mem c)
  if c = 1 then
    let s := s.supersede 22
    let s : State := { s with pwr := { s.pwr with moving := tblPut 0 s.pwr.moving 22 0 } }
    ([22, 23, 24, 25].foldl (fun s d => s.wr (domState d) 3) (s.wr (R.MEM_STATUS_STATE.mem 1) 4)).setEvt R.PWR_EVT_DOMAIN_LOST
  else s

/-- A channel has trained: zero-fill starts. -/
def State.trained (s : State) (c : Nat) : State :=
  let s := (s.wr (R.MEM_STATUS_CAUSE.mem c) 0).wr (R.MEM_STATUS_STATE.mem c) 2
  let s := ((s.wr (R.MEM_FILL_FRONT_MIB.mem c) 0).wr (R.MEM_FILL_OOO.mem c) 0).wr (R.MEM_FILL_DONE.mem c) 0
  s.setChan c {}

/-- Whether a channel is in training: powered, and its training has not failed. -/
def State.inTraining (s : State) (c : Nat) : Bool :=
  s.rd (R.MEM_STATUS_STATE.mem c) == 1 && s.rd (R.MEM_STATUS_CAUSE.mem c) == 0 &&
    (s.domAnswers (chanDomain c) || tblGet 0 s.pwr.moving (chanDomain c) == 1)

/-- DDR_TRAINING_DONE: a module outside Table 11-1 is not reported; one that fails on a lane is. -/
def execDdrTrainingDone (channel : Fin 2) (result : Training) (s : State) : Host.Outcome State Fault Refusal :=
  let c := channel.val
  if !s.inTraining c then s.noEvent
  else match result with
    | .noSpd => .next ((s.reportModule c false false false 0 0).trainFail c 1)
    | .module w r rate gib lanes =>
      if !trainingFits rate gib then .next ((s.reportModule c false false false 0 0).trainFail c 2)
      else if lanes then .next ((s.reportModule c true w r rate gib).trained c)
      else .next ((s.reportModule c true w r rate gib).trainFail c 3)

/-! Reads and writes of a line (R255 to R261). -/

/-- A line access has come to an answer; a read is answered with the line's 64 bytes. -/
def State.lineAnswer (s : State) (x : LineAccess) (a : Option (List Byte)) : State :=
  match a with
  | none =>
    s.initError x (match s.lineOf (ddrBase + x.off) with | some (c, _) => if s.chanUp c then .uncorrectable else .down | none => .down)
  | some d =>
    (match x.who with
     | .requester w => if x.data.isEmpty then s.emit (.answer w (some (leNat d))) else s
     | _ => s)

/-- An access that waits for a locked line, or for its block to be filled (R261, R264). (DEDUCED, log entry 43) -/
def State.holdLine (s : State) (c l : Nat) (x : LineAccess) : Option State :=
  let ch := s.chan c
  match tblGet none ch.locks l with
  | some k => some (s.setChan c { ch with locks := tblPut none ch.locks l (some { k with waiting := k.waiting ++ [x] }) })
  | none =>
    if s.lineFilled c (64 * l) then none else some (s.setChan c { ch with heldFill := ch.heldFill ++ [x] })

/-- Whether an access is a partial write, which locks its line until DDR_LOCK_RELEASE (R260). -/
def isPartial (x : LineAccess) : Bool := !x.data.isEmpty && !(x.off % 64 == 0 && x.data.length == 64)

/-- A partial write locks its line. -/
def State.lockFor (s : State) (c l : Nat) (x : LineAccess) : State :=
  if isPartial x then s.setChan c { s.chan c with locks := tblPut none (s.chan c).locks l (some {}) } else s

/-- An access that has reached its channel: it waits, or is served and answered. -/
def State.channelAccess (s : State) (x : LineAccess) : State :=
  match s.lineOf (ddrBase + x.off) with
  | none => s.lineAnswer x none
  | some (c, l) =>
    if !s.chanUp c then s.lineAnswer x none
    else match s.holdLine c l x with
      | some s => s
      | none => let (a, s) := (s.lockFor c l x).serveLine x; s.lineAnswer x a

/-- Why the table refuses a line access; debug needs its control enable besides (R242). -/
def State.lineRefusal (s : State) (x : LineAccess) : Option (Nat × Nat) :=
  let k := if x.data.isEmpty then AccKind.read else .write
  let r := s.beatRefusal (s.initClass x.who) k (s.initWorld x.who) (ddrBase + x.off)
  match x.who with
  | .scrub => none
  | .requester (.debug w) => if s.ctrlOn w then r else some (2, 0)
  | _ => r

/-- A refused line access: a violation, at debug its record too, and the error response (R243, R244). -/
def State.refuseLine (s : State) (x : LineAccess) (src e : Nat) : State :=
  let k := if x.data.isEmpty then AccKind.read else .write
  let a := ddrBase + x.off
  let s := s.violation (s.initClass x.who) (s.initWorld x.who) k src e a
  (match x.who with | .requester (.debug w) => s.debugViol w k a | _ => s).initError x .refused

/-- A line access at the table (R245 passed). -/
def State.lineAccess (s : State) (x : LineAccess) : State :=
  match s.lineRefusal x with
  | some (src, e) => s.refuseLine x src e
  | none => s.channelAccess x

/-- Whether an initiator's access waits at the access table (R245). -/
def State.initHeld (s : State) (who : Initiator) : Bool :=
  match who with
  | .requester w => s.tableHolds w
  | .scrub => false
  | _ => s.flag R.ACT_CTRL_UPDATE

/-- A line access as it is held at the table. -/
def State.heldLine (s : State) (x : LineAccess) : HeldAccess :=
  { cls := s.initClass x.who, world := s.initWorld x.who, origin := .line x.who, addr := ddrBase + x.off,
    kind := if x.data.isEmpty then .read else .write, data := x.data, len := if x.data.isEmpty then 64 else x.data.length }

/-- A line access arrives, after what has befallen its line; while UPDATE = 1 it is held. -/
def State.lineArrives (s : State) (x : LineAccess) (event : LineEvent) : State :=
  let s := befallFrom (ddrBase + x.off) [event] s
  (if s.initHeld x.who then s.hold (s.heldLine x) else s.lineAccess x).settle

/-- DDR_LINE_READ. -/
def execDdrLineRead (who : Initiator) (off : Nat) (event : LineEvent) (s : State) : Host.Outcome State Fault Refusal :=
  .next (s.lineArrives { who := who, off := off, data := [] } event)

/-- DDR_PARTIAL_WRITE: the bytes lie within one line (R238); a partial write locks the line until DDR_LOCK_RELEASE (R260, R261). (DEDUCED, log entry 43) -/
def execDdrPartialWrite (who : Initiator) (off : Nat) (data : List Byte) (event : LineEvent) (s : State) :
    Host.Outcome State Fault Refusal :=
  if data.isEmpty || decide (64 < off % 64 + data.length) then s.noEvent
  else .next (s.lineArrives { who := who, off := off, data := data } event)

/-- A lock ends: the accesses that were let through are answered, those that wait proceed in arrival order (R261). (DEDUCED, log entry 43) -/
def State.unlockLine (s : State) (c l : Nat) (k : LineLock) : State :=
  let s := s.setChan c { s.chan c with locks := tblPut none (s.chan c).locks l none }
  let s := k.served.foldl (fun s d => s.lineAnswer d.access d.answer) s
  k.waiting.foldl (fun s x => s.channelAccess x) s

/-- DDR_LOCK_RELEASE. (DEDUCED, log entry 43) -/
def execDdrLockRelease (off : Nat) (s : State) : Host.Outcome State Fault Refusal :=
  match s.lineOf (ddrBase + off) with
  | none => s.noEvent
  | some (c, l) =>
    match tblGet none (s.chan c).locks l with
    | none => s.noEvent
    | some k => .next (s.unlockLine c l k).settle

/-! Zero-fill (R264). -/

/-- The line of an access within its channel. -/
def State.lineNo (s : State) (x : LineAccess) : Nat := match s.lineOf (ddrBase + x.off) with | some y => y.2 | none => 0

/-- Accesses held for a fill that now proceed. -/
def State.releaseFilled (s : State) (c : Nat) : State :=
  let ch := s.chan c
  let (ready, rest) := ch.heldFill.partition fun x => s.lineFilled c (64 * s.lineNo x)
  (ready.foldl (fun s x => s.channelAccess x) (s.setChan c { ch with heldFill := rest })).settle

/-- Whether a held access waits for a block. -/
def State.blockAwaited (s : State) (c b : Nat) : Bool := (s.chan c).heldFill.any fun x => s.lineNo x / 1024 == b

/-- ZERO_FILL_BLOCK: the sweep's next block, or one ahead of it for a held access (R264). (DESIGN CHOICE, log entry 10) -/
def execZeroFillBlock (channel : Fin 2) (block : Nat) (s : State) : Host.Outcome State Fault Refusal :=
  let c := channel.val
  let ch := s.chan c
  if s.rd (R.MEM_STATUS_STATE.mem c) ≠ 2 ∨ s.chanBlocks c ≤ block then s.noEvent
  else if block = ch.sweep then .next ((s.sweepTo c (block + 1)).releaseFilled c)
  else if ch.sweep < block ∧ s.blockAwaited c block ∧ ch.ooo.length < 4096 ∧ ch.ooo.contains block = false then
    .next ((s.fillBlock c block).releaseFilled c)
  else s.noEvent

/-- FILL_DONE: the sweep has reached the end of the channel (R264). -/
def execFillDone (channel : Fin 2) (s : State) : Host.Outcome State Fault Refusal :=
  let c := channel.val
  if s.rd (R.MEM_STATUS_STATE.mem c) = 2 then
    let s := s.sweepTo c (s.chanBlocks c)
    let s := (s.wr (R.MEM_FILL_DONE.mem c) 1).wr (R.MEM_STATUS_STATE.mem c) 3
    .next ((s.setEvt (R.MEM_EVT_FILL_DONE.mem c)).releaseFilled c)
  else s.noEvent

/-! Patrol scrub (R265, R266). -/

/-- Lines the scrub covers: those below the fill front. -/
def State.filledLines (s : State) (c : Nat) : Nat := 1024 * (s.chan c).sweep

/-- The scrub has passed a line; the last one ends the pass. -/
def State.scrubOn (s : State) (c : Nat) : State :=
  let n := s.filledLines c
  let next := (s.chan c).scrubLine + 1
  if next < n then
    (s.setChan c { s.chan c with scrubLine := next }).wr (R.MEM_SCRUB_PROGRESS.mem c) (min 1023 (next * 1024 / n))
  else
    (((s.setChan c { s.chan c with scrubLine := 0, passDone := true }).wr (R.MEM_SCRUB_PROGRESS.mem c) 0).satAdd
      (R.MEM_SCRUB_PASSES.mem c) 1).setEvt (R.MEM_EVT_SCRUB_PASS.mem c)

/-- PATROL_SCRUB_LINE: the next filled line is read, after what has befallen it; a read of a locked line waits its turn (R261, R265). (DEDUCED, log entry 43) -/
def execPatrolScrubLine (channel : Fin 2) (event : LineEvent) (s : State) : Host.Outcome State Fault Refusal :=
  let c := channel.val
  let ch := s.chan c
  if !s.chanUp c || decide (s.filledLines c = 0) || ch.passDone then s.noEvent
  else
    let l := ch.scrubLine
    let s := (s.befall c l event).channelAccess { who := .scrub, off := s.lineAddr c l, data := [] }
    .next (s.scrubOn c).settle

/-- SCRUB_PERIOD_END: a pass that has not finished is late and goes on; after a finished one the next begins. (DEDUCED, log entry 43) -/
def execScrubPeriodEnd (channel : Fin 2) (s : State) : Host.Outcome State Fault Refusal :=
  let c := channel.val
  if !s.chanUp c then s.noEvent
  else if (s.chan c).passDone then .next (s.setChan c { s.chan c with passDone := false })
  else .next (s.setEvt (R.MEM_EVT_SCRUB_LATE.mem c))

/-! ALERT_N (R267). -/

/-- An access that the fourth ALERT_N fails ends as an uncorrectable read or write (R257, R260). (DEDUCED, log entry 43) -/
def State.alertFail (s : State) (c : Nat) (x : LineAccess) : State :=
  match s.lineOf (ddrBase + x.off) with
  | none => s
  | some (d, l) =>
    if d ≠ c then s
    else (if x.data.isEmpty then s.uncorrectable c l (x.who == .scrub) else s.rmwFail c l).initError x .uncorrectable

/-- DDR_ALERT: `again` tells that the attempt after this one raised ALERT_N too; `accesses` are those whose commands are concerned. (DEDUCED, log entry 43) -/
def execDdrAlert (channel : Fin 2) (again : Bool) (accesses : List LineAccess) (s : State) : Host.Outcome State Fault Refusal :=
  let c := channel.val
  let ch := s.chan c
  if !s.chanUp c then s.noEvent
  else if ch.replays < 3 then
    let s := s.setChan c { ch with replays := if again then ch.replays + 1 else 0 }
    .next (s.setEvt (R.MEM_EVT_ALERT_RETRY.mem c))
  else .next (accesses.foldl (fun s x => s.alertFail c x) (s.setChan c { ch with replays := 0 })).settle

end Sys2Proof.Machine
end

