-- ==== Sys2Proof/Machine/Domains.lean ====
section
/-! DEFINITION. What a domain's transition, or the loss of its supply, does to the blocks in it (R56 to R66). -/

namespace Sys2Proof.Machine

/-- Every domain of a group takes a state. -/
def State.setDom (s : State) (d st : Nat) : State := (domGroup d).foldl (fun s x => s.wr (domState x) st) s

/-- The DDR5 bytes of a channel: first offset and end. -/
def State.chanRange (s : State) (c : Nat) : Nat × Nat :=
  if c = 0 then (0, s.capBytes 0) else (s.capBytes 0, s.capBytes 0 + s.capBytes 1)

/-- Whether an object has cells on a channel. -/
def State.objOn (s : State) (c : Nat) (o : Obj) : Bool :=
  let r := s.chanRange c
  o.cells.any fun k => decide (r.1 ≤ s.cellOff k) && decide (s.cellOff k < r.2)

/-- A key whose object lay on a lost channel. -/
def State.loseObj (s : State) (c : Nat) (k : Option Key) : Option Key :=
  k.map fun k => match k.obj with
    | some o => if s.objOn c o then { k with obj := some { o with kept := false } } else k
    | none => k

/-- Whether a handle names an object on a channel. -/
def State.handleOn (s : State) (c h : Nat) : Bool :=
  match s.keyAt (hOwner h) (hIndex h) with
  | some k => (match k.obj with | some o => s.objOn c o | none => false)
  | none => false

/-- Whether a command waits for an object body on a channel. -/
def State.needsChan (s : State) (c : Nat) (x : Cmd) : Bool := x.stage == .body && (s.handleOn c x.key || s.handleOn c x.wrapHandle)

/-- The content of a channel is lost: its accesses end with errors, its objects' bodies are gone (R63, R64). -/
def State.loseChannel (s : State) (c : Nat) : State :=
  let r := s.chanRange c
  let ch := s.chan c
  let open' := ch.heldFill ++ ch.locks.flatMap fun e => match e.2 with | some k => k.served.map LineDone.access ++ k.waiting | none => []
  let s := (s.dsp.inflight.filter (s.needsChan c)).foldl State.failLost s
  let s : State := { s with
    keys := { s.keys with keys := s.keys.keys.map fun e => (e.1, s.loseObj c e.2) },
    mem := s.mem.filter fun e => !(decide (ddrBase + r.1 ≤ e.1) && decide (e.1 < ddrBase + r.2)) }
  open'.foldl (fun s x => s.initError x .down) (s.setChan c {})

/-- The units of a domain. -/
def unitsIn (d : Nat) : List (Pool × Nat) :=
  match domPool d with
  | some p => ((List.range (poolSize p)).filter fun u => unitDomain p u == d).map fun u => (p, u)
  | none => []

/-- A unit goes OFF: a fenced one stays marked. (DEDUCED, log entry 41) -/
def State.unitOff (s : State) (p : Pool) (u : Nat) : State :=
  let s := (s.endResidency p u).forgetOwner p u
  let s : State := { s with eng := { s.eng with
    afterClear := tblPut 0 s.eng.afterClear (unitKey p u) 0, passed := s.eng.passed.filter (· != unitKey p u) } }
  if s.rd (unitState p u) = 5 then s else s.wr (unitState p u) 0

/-- A unit comes out of OFF: its registers are as after reset, and it runs its pool's tests before it serves (R55, R59). (DEDUCED, log entry 41) -/
def State.unitOn (s : State) (p : Pool) (u : Nat) : State :=
  let fenced := decide (s.rd (unitState p u) = 5)
  let s := s.clearRegs (unitEvt p u).off ((unitEvt p u).off + 4)
  let s := ((s.wr (unitState p u) 3).wr (unitCause p u) 0).wr (unitSelected p u) 0
  let s : State := { s with eng := { s.eng with passed := s.eng.passed.filter (· != unitKey p u) } }
  if fenced then { s with eng := { s.eng with returning := unitKey p u :: s.eng.returning } } else s

/-- A link leaves its test state: a port retrains as after DL_Down, a channel as after the return of its supply (Table 22-2). -/
def State.exitTest (s : State) (k : Nat) : State :=
  if s.inTest k then
    let s := s.leaveTest k
    if k = 0 then s.trainPort .a
    else if k = 1 then s.trainPort .b
    else if k = 2 then s
    else s.trainChannel (k - 3)
  else s

/-- What a domain loses when it goes OFF (Table 3-6, step 3). -/
def State.domainOff (s : State) (d : Nat) : State :=
  let s := s.setDom d 2
  if d = 3 ∨ d = 8 then
    let p := if d = 3 then Port.a else Port.b
    if s.flag (R.PE_LINK_DL_UP.port p) then s.linkDown p else s.linkOff p
  else if d = 13 then (s.leaveTest 2).twinDown
  else if d = 59 then (List.range 5).foldl State.exitTest s
  else if d = 18 ∨ d = 22 then (s.leaveTest (3 + (d - 18) / 4)).loseChannel ((d - 18) / 4)
  else if d = 26 then { s with boot := { s.boot with ptCmd := none } }
  else if d = 32 ∨ d = 33 then
    let s := s.dropCaches (d - 30)
    let c := s.core (d - 30)
    s.setCore (d - 30) { c with run := if c.run = .fenced then .fenced else .reset, storeErrs := [], resv := none }
  else (unitsIn d).foldl (fun s u => s.unitOff u.1 u.2) s

/-- A normal pair whose domain has come ON restarts, unless it is fenced or was never released (R181). -/
def State.restartPair (s : State) (p : Nat) : State :=
  let s := s.emptyPairMbx p
  match s.boot.normalEntry with
  | some e =>
    if (s.core p).nstarted && (s.core p).run != .fenced then (s.startNormal p e).setEvt R.CCS_EVT_NRESET_DONE p else s
  | none => s

/-- What a domain does as it comes from OFF or LOST to ON: it is re-initialised, its registers are as after reset (R55, R76, Table 3-6, steps 4 to 6). A DDR group that was OFF has trained before; the Soade group's are the registers whose text gives them no longer life. (DEDUCED, log entries 48 and 49) -/
def State.domainOn (s : State) (d : Nat) : State :=
  let lost := s.rd (domState d) == 3
  let s := s.setDom d 0
  if d = 3 ∨ d = 8 then
    let p := if d = 3 then Port.a else Port.b
    (s.clearPortRegs p).trainPort p
  else if d = 13 then ((s.clearRegs 0x120004 0x120018).clearRegs 0x120024 0x120028).clearRegs 0x120100 0x120180
  else if d = 18 ∨ d = 22 then (if lost then s.powerChannel ((d - 18) / 4) else s)
  else if d = 26 then s.clearRegs 0x20020 0x20200
  else if d = 32 ∨ d = 33 then s.restartPair (d - 30)
  else if d = 59 then s.clearRegs 0x130000 0x140000
  else (unitsIn d).foldl (fun s u => s.unitOn u.1 u.2) s

/-- A transition to a state ends. -/
def State.reachState (s : State) (d target : Nat) : State :=
  let was := s.rd (domState d)
  if target = 2 then (if was = 2 then s else s.domainOff d)
  else if target = 0 ∧ 2 ≤ was then s.domainOn d
  else s.setDom d target

/-- Whether a transition may end: that of a DDR group to ON once training is complete (Table 3-6, step 6). -/
def State.moveReady (s : State) (d target : Nat) : Bool :=
  !((d == 18 || d == 22) && target == 0) || decide (2 ≤ s.rd (R.MEM_STATUS_STATE.mem ((d - 18) / 4)))

/-- DOMAIN_TRANSITION_DONE: a request for the state reached is DONE (R60). -/
def execDomainTransitionDone (domain : Nat) (s : State) : Host.Outcome State Fault Refusal :=
  let d := domHead domain
  match tblGet 0 s.pwr.moving d with
  | 0 => s.noEvent
  | t + 1 =>
    if !s.moveReady d t then s.noEvent else
    let s : State := { s with pwr := { s.pwr with moving := tblPut 0 s.pwr.moving d 0 } }
    let s := s.reachState d t
    .next (if s.rd (R.PWR_DOM_STAT_PENDING.ix d) = t then
        ((s.pendResult d 1).setPending d 3 .secure).setEvt R.PWR_EVT_GATE_DONE
      else s)

/-- The groups of domains that a rail feeds, by their first domain. -/
def railGroups : Rail → List Nat
  | .serdes => [3, 8, 13]
  | .ddrA => [18]
  | .ddrB => [22]

/-- A group of domains loses its supply (R63, R65). -/
def State.groupLost (s : State) (d : Nat) : State :=
  let s := s.supersede d
  let s : State := { s with pwr := { s.pwr with moving := tblPut 0 s.pwr.moving d 0 } }
  let s :=
    if d = 3 ∨ d = 8 then
      let p := if d = 3 then Port.a else Port.b
      if s.flag (R.PE_LINK_DL_UP.port p) then s.linkDown p else s.linkOff p
    else if d = 13 then (s.leaveTest 2).twinDown
    else
      let c := (d - 18) / 4
      let s := s.leaveTest (3 + c)
      (s.wr (R.MEM_STATUS_STATE.mem c) (if s.ddrKeyGone then 5 else 4)).loseChannel c
  (s.setDom d 3).setEvt R.PWR_EVT_DOMAIN_LOST

/-- Whether a group is there: the image may declare channel DB absent (R66). -/
def State.groupThere (s : State) (d : Nat) : Bool := d != 22 || s.cfg.dbPresent

/-- DOMAIN_SUPPLY_LOST. -/
def execDomainSupplyLost (rail : Rail) (s : State) : Host.Outcome State Fault Refusal :=
  let l := (railGroups rail).filter fun d => s.groupThere d && s.rd (domState d) != 3
  if l.isEmpty || !s.boot.alive then s.noEvent else .next (l.foldl State.groupLost s)

/-- DOMAIN_SUPPLY_RETURNED: the domains are re-initialised, a channel is trained again (R64). -/
def execDomainSupplyReturned (rail : Rail) (s : State) : Host.Outcome State Fault Refusal :=
  let l := (railGroups rail).filter fun d => s.groupThere d && s.rd (domState d) == 3
  if l.isEmpty then s.noEvent
  else .next (l.foldl (fun s d => (s.domainOn d).setEvt R.PWR_EVT_DOMAIN_RETURNED) s)

end Sys2Proof.Machine
end

