-- ==== Sys2Proof/Machine/LinkTest.lean ====
section
/-! DEFINITION. The link test block: test state, pattern generators and checkers, eye scan (chapter 22). -/

namespace Sys2Proof.Machine

/-- The first domain of the group that a link lies in. -/
def linkDomain (k : Nat) : Nat := [3, 8, 13, 18, 22].getD k 3

/-- RESULT of a request for the test state (Table 22-2). -/
def State.testCheck (s : State) (k : Nat) : Nat :=
  let ok :=
    if k < 2 then true
    else if k = 2 then s.rd R.TWN_STATUS_STATE != 2 && s.rd R.TWN_STATUS_STATE != 3
    else if k = 3 then s.recovery
    else (s.objects.all fun o => !s.objOn 1 o.2) && s.claimsOn 22 == 0
  if s.rd (domState (linkDomain k)) = 3 then 2 else if ok then 0 else 1

/-- A link enters its test state; a port trains with its test partner (R524, Table 22-2). (DEDUCED, log entry 39) -/
def State.enterTest (s : State) (k : Nat) : State :=
  let s :=
    if k = 0 then (s.linkDown .a).trainPort .a
    else if k = 1 then (s.linkDown .b).trainPort .b
    else if k = 2 then s.twinDown
    else (s.wr (R.MEM_STATUS_STATE.mem (k - 3)) 6).loseChannel (k - 3)
  (s.wr (R.LTS_CTRL_TEST.ix k) 1).wr (R.LTS_CTRL_STATE.ix k) 1

/-- TEST of a write: entry, exit, or neither (R498). (DEDUCED, log entry 39) -/
def State.testBitWrite (s : State) (k : Nat) (test : Bool) : State :=
  if test && !s.inTest k then
    let r := s.testCheck k
    let s := s.wr (R.LTS_CTRL_RESULT.ix k) r
    if r = 0 then s.enterTest k else s
  else if !test && s.inTest k then (s.exitTest k).wr (R.LTS_CTRL_RESULT.ix k) 0
  else s

/-- ERRORS of every lane of a link is zeroed. -/
def State.zeroErrors (s : State) (k : Nat) : State :=
  (List.range (linkLanes k)).foldl (fun s i => s.wr (R.LTS_LANE_ERRORS.ix (linkFirst k + i)) 0) s

/-- GEN and CHK of a write, ignored while the link is not in test (R500, R502). (DEDUCED, log entry 39) -/
def State.runBits (s : State) (k : Nat) (gen chk : Bool) : State :=
  if !s.inTest k then s
  else
    let s := s.wr (R.LTS_CTRL_GEN.ix k) gen.toNat
    let s := if chk then s.zeroErrors k else (s.dropSync k).stopEye k
    s.wr (R.LTS_CTRL_CHK.ix k) chk.toNat

/-- A write to LTS_CTRL[k]. (DEDUCED, log entry 39) -/
def State.ltsCtrl (s : State) (k val : Nat) : State :=
  let s := (s.wr (R.LTS_CTRL_LOOP.ix k) (bits val 3 1)).wr (R.LTS_CTRL_PATTERN.ix k) (bits val 4 3)
  (s.testBitWrite k (val.testBit 0)).runBits k (val.testBit 1) (val.testBit 2)

/-- The value of LTS_CTRL[k] with one bit changed: the write that a row of the table names. -/
def State.ltsValue (s : State) (k bit : Nat) (v : Bool) : Nat :=
  let w := s.word 0 (0x130000 + 4 * k) % 128
  if v then bitSet w bit else bitClear w bit

/-- LTS_TEST_ENTER. -/
def execLtsTestEnter (who : Requester) (link : Fin 5) (s : State) : Host.Outcome State Fault Refusal :=
  let k := link.val
  .next (s.gated who (0x130000 + 4 * k) (s.ltsValue k 0 true) fun s => s.ltsCtrl k (s.ltsValue k 0 true))

/-- LTS_TEST_EXIT. -/
def execLtsTestExit (who : Requester) (link : Fin 5) (s : State) : Host.Outcome State Fault Refusal :=
  let k := link.val
  .next (s.gated who (0x130000 + 4 * k) (s.ltsValue k 0 false) fun s => s.ltsCtrl k (s.ltsValue k 0 false))

/-- LTS_CHK_START. -/
def execLtsChkStart (who : Requester) (link : Fin 5) (s : State) : Host.Outcome State Fault Refusal :=
  let k := link.val
  .next (s.gated who (0x130000 + 4 * k) (s.ltsValue k 2 true) fun s => s.ltsCtrl k (s.ltsValue k 2 true))

/-- The link of a lane index. -/
def laneLink (l : Nat) : Nat := if l < 12 then l / 4 else if l < 106 then 3 else 4

/-! Patterns (R501). -/

/-- The two taps of a PRBS polynomial of ITU-T O.150 by PATTERN; 6 and 7 act as 4. (DESIGN CHOICE, log entry 73) -/
def prbsTaps : Nat → Nat × Nat
  | 0 => (7, 6)
  | 1 => (9, 5)
  | 2 => (15, 14)
  | 3 => (23, 18)
  | _ => (31, 28)

/-- The register of a PRBS generator of `n` stages one bit later, the newest bit lowest. -/
def prbsNext (n m r : Nat) : Nat := (2 * r + (r.testBit (n - 1) != r.testBit (m - 1)).toNat) % 2 ^ n

/-- The bit that a PRBS generator drives after `t` others: its oldest stage. (DESIGN CHOICE, log entry 73) -/
def prbsBit (n m : Nat) : Nat → Nat → Bool
  | r, 0 => r.testBit (n - 1)
  | r, t + 1 => prbsBit n m (prbsNext n m r) t

/-- An `n`-bit word rotated left by `i` bits. (DESIGN CHOICE, log entry 73) -/
def rotated (n r i : Nat) : Nat := (r * 2 ^ (i % n) + r / 2 ^ (n - i % n)) % 2 ^ n

/-- The seed of an `n`-stage generator before the rotation: any but zero. (DESIGN CHOICE, log entry 73) -/
def prbsSeed (n : Nat) : Nat := Config.prbsSeed n % (2 ^ n - 1) + 1

/-- The bit that the generator of lane `l` drives after `t` others: the PRBS of its link from the seed rotated by the lane index, or the 64 bits of LTS_USER, least significant bit first (R501). -/
def State.laneBit (s : State) (l t : Nat) : Bool :=
  let v := s.rd (R.LTS_CTRL_PATTERN.ix (laneLink l))
  if v = 5 then (s.rd R.LTS_USER_PATTERN).testBit (t % 64)
  else
    let (n, m) := prbsTaps v
    prbsBit n m (rotated n (prbsSeed n) l) t

/-- The bits that an eye point counts: 2^DWELL, DWELL within 20 to 40 (R503). -/
def State.eyeBits (s : State) : Nat := 2 ^ max 20 (min 40 (s.rd R.LTS_EYE_CTRL_DWELL))

/-- Whether the checker of a lane runs. -/
def State.checking (s : State) (l : Nat) : Bool := decide (l < 200) && s.inTest (laneLink l) && s.flag (R.LTS_CTRL_CHK.ix (laneLink l))

/-- LTS_CHECKER_ALIGNED. -/
def execLtsCheckerAligned (lane : Nat) (s : State) : Host.Outcome State Fault Refusal :=
  if s.checking lane && !s.flag (R.LTS_LANE_SYNC.ix lane) then .next (s.wr (R.LTS_LANE_SYNC.ix lane) 1)
  else s.noEvent

/-- Bit errors that a checker has counted; their number is a free value. -/
def State.bitErrors (s : State) (lane least : Nat) : State :=
  let (n, s) := s.freeNat 4
  s.satAdd (R.LTS_LANE_ERRORS.ix lane) (least + n)

/-- LTS_CHECKER_SYNC_LOST: 32 errors or more were counted; an eye point on the lane ends with RESULT 1. -/
def execLtsCheckerSyncLost (lane : Nat) (s : State) : Host.Outcome State Fault Refusal :=
  if s.checking lane && s.flag (R.LTS_LANE_SYNC.ix lane) then
    let s := (s.wr (R.LTS_LANE_SYNC.ix lane) 0).bitErrors lane 32
    if s.lts.eyeLane = some lane then
      let (n, s) := s.freeNat 4
      .next (s.endEye 1 n)
    else .next s
  else s.noEvent

/-- Between two events every aligned checker counts the bit errors it meets (R502). (DEDUCED, log entry 39) -/
def State.countBitErrors (s : State) : State :=
  ((List.range 200).filter fun l => s.flag (R.LTS_LANE_SYNC.ix l)).foldl (fun s l => s.bitErrors l 0) s

/-- VOFF as it is kept: clamped to ±12. (DEDUCED, log entry 39) -/
def clampVoff (v : Nat) : Nat := if v < 64 then min v 12 else max v 116

/-- Whether an eye scan may run on a lane (R503). (DEDUCED, log entry 39) -/
def State.eyeEligible (s : State) (l : Nat) : Bool :=
  decide (l < 12) && s.inTest (laneLink l) && !s.flag (R.LTS_CTRL_LOOP.ix (laneLink l)) && s.flag (R.LTS_LANE_SYNC.ix l)

/-- A write to LTS_EYE_CTRL: its fields, and GO, which is ignored while BUSY. (DEDUCED, log entry 39) -/
def State.eyeCtrl (s : State) (val : Nat) : State :=
  let s := (((s.wr R.LTS_EYE_CTRL_LANE (bits val 0 8)).wr R.LTS_EYE_CTRL_TOFF (bits val 8 6)).wr
    R.LTS_EYE_CTRL_VOFF (clampVoff (bits val 14 7))).wr R.LTS_EYE_CTRL_DWELL (bits val 21 6)
  if !val.testBit 31 || s.flag R.LTS_EYE_RES_BUSY then s
  else if s.eyeEligible (bits val 0 8) then
    let s := (s.wr R.LTS_EYE_RES_BUSY 1).wr R.LTS_EYE_RES_DONE 0
    { s with lts := { s.lts with eyeLane := some (bits val 0 8) } }
  else s.endEye 3 (s.rd R.LTS_EYE_RES_ERRORS)

/-- LTS_EYE_GO: a write to LTS_EYE_CTRL. -/
def execLtsEyeGo (who : Requester) (value : Word32) (s : State) : Host.Outcome State Fault Refusal :=
  .next (s.gated who 0x132000 value.toNat fun s => s.eyeCtrl value.toNat)

/-- LTS_EYE_DONE: a point ends, with no more errors than bits; RESULT 1 and 2 tell that synchronisation or the test state was lost. -/
def execLtsEyeDone (result errors : Nat) (s : State) : Host.Outcome State Fault Refusal :=
  if s.flag R.LTS_EYE_RES_BUSY && decide (result ≤ 2) && decide (errors ≤ s.eyeBits) then .next (s.endEye result errors)
  else s.noEvent

end Sys2Proof.Machine
end

