-- ==== Sys2Proof/Machine/Bus.lean ====
section
/-! DEFINITION. Writes to the register space by offset: event registers, bit aliases, guarded writes, wide values, and the update of the access table (chapters 05, 10). -/

namespace Sys2Proof.Machine

/-! Event registers (R104, R105, R135). -/

/-- Whether the word at an offset is an event register. -/
def isEvt (off : Nat) : Bool := (regFields off).any fun f => f.acc == .sq

/-- SEQ of the event register at an offset, in an instance. -/
def seqAt (bank off : Nat) : Fld := { off := off, lsb := 16, width := 16, acc := .sq, reset := 0, bank := bank }

/-- The event bits named by `mask` are cleared. (DEDUCED, log entry 18) -/
def clearEvts (bank mask : Nat) : List Fld → State → State
  | [], s => s
  | f :: t, s =>
    clearEvts bank mask t
      (if f.lsb < 16 then s.wr (f.inst bank) (s.rd (f.inst bank) - Nat.land (s.rd (f.inst bank)) (mask / 2 ^ f.lsb)) else s)

/-- What a clearing of an event bit does besides (R113, R244, MEM_ERR_INFO). (DEDUCED, log entry 18) -/
def State.cleared (s : State) (bank off mask : Nat) : State :=
  if off = 0x18 ∧ bank = 0 ∧ mask.testBit 0 then s.wr R.GLB_GUARD_COUNT_COUNT 0
  else if off = 0x8000C ∧ mask.testBit 0 then s.wr R.ACT_VIOL_COUNT_COUNT 0
  else if (off = 0xB000C ∨ off = 0xB100C) ∧ (mask.testBit 0 ∨ mask.testBit 1) then
    let c := if off = 0xB000C then 0 else 1
    s.setChan c { s.chan c with captured := false }
  else if off = 0x40010 ∨ off = 0x40014 then s.alarmLevel
  else s

/-- The function whose queue-pair event register lies at an offset. -/
def qzEvtFn (off : Nat) : Option Fn :=
  if off = 0x102180 then some (.pf .a)
  else if off = 0x112180 then some (.pf .b)
  else if 0x200000 ≤ off ∧ off < 0x400000 ∧ (off - 0x200000) % 0x2000 = 0x180 then
    let v := (off - 0x200000) / 0x2000
    some (.vf (if v < 128 then .a else .b) (v % 128 + 1))
  else none

/-- The messages of a write that leaves its event register asserted (R135). (DEDUCED, log entry 18) -/
def State.stillAsserted (s : State) (bank off : Nat) : State :=
  let b := evtBits s.regs (bank * 0x1000000 * 64 + off * 64)
  if b = 0 then s
  else if off = 0x40010 ∨ off = 0x40014 then
    ((List.range 16).filter fun i => b.testBit i).foldl
      (fun s i => s.sourceMsgs bank (if off = 0x40010 then i else 16 + i)) s
  else
    let s := match evtSource off with | some n => s.sourceMsgs bank n | none => s
    let s := if off = 0x10014 ∧ b.testBit 0 then s.sourceMsgs bank 40 else s
    match qzEvtFn off with
    | some f => s.vector f 0
    | none => s

/-- A write to an event register: its bits are cleared where the SEQ written is the present one (R105). (DEDUCED, log entry 18) -/
def State.evtWrite (s : State) (bank off val : Nat) : State :=
  let mask := bits val 0 16
  let s := if bits val 16 16 = s.rd (seqAt bank off) then (clearEvts bank mask (regFields off) s).cleared bank off mask else s
  s.stillAsserted bank off

/-! Updating the access table (R245 to R248). -/

/-- Enabled entries whose BASE lies above their LIMIT: each counts as a violation with SOURCE 1 (R248). -/
def State.emptyEntries (s : State) : List Nat :=
  (List.range 256).filter fun i => s.flag (R.ACT_ENT6_ENABLE.ix i) && decide (s.entLimit i < s.entBase i)

/-- The violation of such an entry: no access belongs to it, so CLASS, WORLD, KIND and ADDR of a capture are free values. (DESIGN CHOICE, log entry 15) -/
def State.entryViolation (s : State) (i : Nat) : State :=
  let (x, s) := s.freeNat 8
  s.violation (x % 16) (if (x / 16) % 2 = 0 then .secure else .normal)
    (if (x / 32) % 3 = 0 then .read else if (x / 32) % 3 = 1 then .write else .fetch) 1 i (x / 96 % 2 ^ 40)

/-! Plain registers. -/

/-- The lock under which the RWL fields of a word lie is set. (DEDUCED, log entry 17) -/
def State.rwlLocked (s : State) (off : Nat) : Bool :=
  if 0xC0100 ≤ off ∧ off < 0xC0140 then s.flag (R.DSP_CQ_CFG_ENABLE.ix ((off - 0xC0100) / 0x20))
  else if 0x91000 ≤ off ∧ off < 0x91800 then s.flag (R.QZ_CTRL_ENABLE.add (off / 0x20 * 0x20))
  else if 0x102100 ≤ off ∧ off < 0x120000 ∨ 0x200000 ≤ off then s.flag (R.QZ_CTRL_ENABLE.add (off / 0x20 * 0x20))
  else true

/-- Writing the RW fields of a word, and the RWL fields before their lock. (DEDUCED, log entry 17) -/
def putFields (bank val : Nat) (locked : Bool) : List Fld → State → State
  | [], s => s
  | f :: t, s =>
    putFields bank val locked t
      (if f.acc = .rw ∨ f.acc = .wo ∨ (f.acc = .rwl ∧ locked = false) then s.wr (f.inst bank) (bits val f.lsb f.width) else s)

/-- A write to a register that only holds what is written. (DEDUCED, log entry 17) -/
def State.plainWrite (s : State) (bank off val : Nat) : State :=
  putFields (if isBanked off then bank else 0) val (s.rwlLocked off) (regFields off) s

/-- A write to WLD_GPIO_OUT or WLD_GPIO_OE: the bits of the writer's balls (R213). -/
def State.gpioWrite (s : State) (who : Requester) (f : Fld) (val : Nat) : State :=
  let m := gpioMask s (worldOf who)
  s.wr f (s.rd f - Nat.land (s.rd f) m + Nat.land (val % 65536) m)

/-- A write to a half of LTS_USER. -/
def State.userWrite (s : State) (hi : Bool) (val : Nat) : State :=
  let v := s.rd R.LTS_USER_PATTERN
  s.wr R.LTS_USER_PATTERN (if hi then v % 2 ^ 32 + val % 2 ^ 32 * 2 ^ 32 else v / 2 ^ 32 * 2 ^ 32 + val % 2 ^ 32)

/-- A write to DSP_CQ_CFG: LOG2 before the lock, then ENABLE (R177). -/
def State.cqCfgWrite (s : State) (q val : Nat) : State :=
  let on := s.flag (R.DSP_CQ_CFG_ENABLE.ix q)
  let s := if on then s else s.wr (R.DSP_CQ_CFG_LOG2.ix q) (bits val 0 4)
  (if val.testBit 31 then (if on then s else s.cqEnable q) else s.cqDisable q).pump

/-- A word of an entry of the access table: written only while UPDATE = 1 (chapter 10, ACT_ENT). (DESIGN CHOICE, log entry 15; DEDUCED, log entry 17) -/
def State.entWrite (s : State) (who : Requester) (off val : Nat) : State :=
  if s.flag R.ACT_CTRL_UPDATE then s.plainWrite 0 off val else s.errorWrite who (regBase + off)

/-- A request for a wide value: VALID is cleared; an earlier request is replaced (R107). -/
def State.wideSel (s : State) (who : Requester) (bank val : Nat) : State :=
  let s := (s.wr (R.GLB_WIDE_SEL_OFFSET.inst bank) (bits val 2 20)).wr (R.GLB_WIDE_VALID_VALID.inst bank) 0
  { s with bus := { s.bus with wideReq := tblPut none s.bus.wideReq bank (some who) } }

/-- A write to PEx_MIG_HEAD: the host frees entries of a running log (R139). -/
def State.migHead (s : State) (p : Port) (n val : Nat) : State :=
  if s.flag (R.VFS_STATE_MIG_ON.vf p n) then s.wr ((R.PE_MIG_HEAD_HEAD.port p).ix (n - 1)) (bits val 0 21) else s

/-- A write to PEx_EVMAP: sources that never reach a host have no entry (R134). -/
def State.evMapWrite (s : State) (p : Port) (n val : Nat) : State :=
  if mappable n then
    (s.wr ((R.PE_EVMAP_VECTOR.port p).ix n) (bits val 0 6)).wr ((R.PE_EVMAP_ENABLE.port p).ix n) (bits val 6 1)
  else s

/-- The function and queue pair of a queue-pair register set, with the offset within it. -/
def qzAt (off : Nat) : Option (Fn × Nat × Nat) :=
  if 0x91000 ≤ off ∧ off < 0x91800 then some (.nw, (off - 0x91000) / 0x20, off % 0x20)
  else if 0x102100 ≤ off ∧ off < 0x102180 then some (.pf .a, (off - 0x102100) / 0x20, off % 0x20)
  else if 0x112100 ≤ off ∧ off < 0x112180 then some (.pf .b, (off - 0x112100) / 0x20, off % 0x20)
  else if 0x200000 ≤ off ∧ off < 0x400000 then
    let v := (off - 0x200000) / 0x2000
    let x := (off - 0x200000) % 0x2000
    if 0x100 ≤ x ∧ x < 0x120 then some (.vf (if v < 128 then .a else .b) (v % 128 + 1), 0, x % 0x20) else none
  else none

/-- The doorbell at an offset: function, queue pair, SQ tail or CQ head. -/
def doorbellAt (off : Nat) : Option (Fn × Nat × Bool) :=
  let bell := fun (f : Fn) (x : Nat) => if x % 16 = 0 then some (f, x / 16, true) else if x % 16 = 8 then some (f, x / 16, false) else none
  if 0x92000 ≤ off ∧ off < 0x92400 then bell .nw (off - 0x92000)
  else if 0x102000 ≤ off ∧ off < 0x102040 then bell (.pf .a) (off - 0x102000)
  else if 0x112000 ≤ off ∧ off < 0x112040 then bell (.pf .b) (off - 0x112000)
  else if 0x200000 ≤ off ∧ off < 0x400000 then
    let v := (off - 0x200000) / 0x2000
    let x := (off - 0x200000) % 0x2000
    if 0x1000 ≤ x ∧ x < 0x1100 then bell (.vf (if v < 128 then .a else .b) (v % 128 + 1)) (x - 0x1000) else none
  else none

/-- A write to a word of a queue-pair register set: QZ_CTRL acts, the others hold what is written while ENABLE = 0 (R142). -/
def State.qzWrite (s : State) (f : Fn) (q x off val : Nat) : State :=
  if x = 0x14 then s.qzCtrl f q val else if s.qzReached f q then s.plainWrite 0 off val else s

/-- A write to a word of a mailbox (R226 to R228). -/
def State.mbxWrite (s : State) (who : Requester) (off val : Nat) : State :=
  let m := (off - 0xA0000) / 0x80
  let x := off % 0x80
  if x < 0x40 then s.mbxData who m (x / 4) val
  else if x = 0x48 then s.mbxSend who m val
  else if x = 0x4C then s.mbxAck m val
  else s

/-- The effect of a write to a register of the port blocks. -/
def State.portWrite (s : State) (off val : Nat) : State :=
  let p := if off < 0x110000 then Port.a else Port.b
  let o := off - 0x10000 * p.num
  if 0x100400 ≤ o ∧ o < 0x100600 then s.migHead p ((o - 0x100400) / 4 + 1) val
  else if 0x101000 ≤ o ∧ o < 0x101400 then s.evMapWrite p ((o - 0x101000) / 4) val
  else s

/-- The effect of a write that passed the checks, registers below the port blocks. -/
def State.lowWrite (s : State) (who : Requester) (bank off val : Nat) : State :=
  if off = 0x100 then s.wideSel who bank val
  else if off = 0x10020 then s.domReqWrite who val
  else if off = 0x20010 then s.fwReady val
  else if off = 0x20028 then s.ptGo who val
  else if off = 0x50040 then s.rdSel bank (bits val 0 11)
  else if 0x50100 ≤ off ∧ off < 0x5010C then (if bank = 0 then s else s.plainWrite bank off val)
  else if off = 0x5010C then s.expCtrl bank val
  else if off = 0x60020 then s.capCtrl val
  else if 0x81000 ≤ off ∧ off < 0x83000 then s.entWrite who off val
  else if off = 0x90024 then s.gpioWrite who R.WLD_GPIO_OUT_GPIO val
  else if off = 0x90028 then s.gpioWrite who R.WLD_GPIO_OE_GPIO val
  else if 0x90400 ≤ off ∧ off < 0x90500 then s.nqBind ((off - 0x90400) / 4) val
  else if 0xA0000 ≤ off ∧ off < 0xA1000 then s.mbxWrite who off val
  else if off = 0xA1000 then s.mbxWake (worldOf who) val
  else if off = 0xC0108 ∨ off = 0xC0128 then s.cqCfgWrite ((off - 0xC0108) / 0x20) val
  else if off = 0xC0114 ∨ off = 0xC0134 then s.cqRtail ((off - 0xC0114) / 0x20) val
  else s.plainWrite bank off val

/-- The effect of a write that passed the checks, to a register that is neither guarded nor an event register. -/
def State.valueWrite (s : State) (who : Requester) (bank off val : Nat) : State :=
  match qzAt off, doorbellAt off with
  | some (f, q, x), _ => s.qzWrite f q x off val
  | none, some (f, q, sq) => s.doorbell f q val sq
  | none, none =>
    if off < 0x100000 then s.lowWrite who bank off val
    else if off < 0x120000 then s.portWrite off val
    else if 0x130000 ≤ off ∧ off < 0x130014 then s.ltsCtrl ((off - 0x130000) / 4) val
    else if off = 0x130020 ∨ off = 0x130024 then s.userWrite (off = 0x130024) val
    else if off = 0x132000 then s.eyeCtrl val
    else if off = 0x140010 then s.nstart val
    else s.plainWrite bank off val

/-! Bit aliases (R110, R111). -/

/-- The field that holds a bit of a word. -/
def fieldAt (off bit : Nat) : Option Fld := (regFields off).find? fun f => decide (f.lsb ≤ bit) && decide (bit < f.lsb + f.width)

/-- The address of an alias word. -/
def aliasAddr (off bit : Nat) : Nat := bitBase + off * 32 + bit * 4

/-- A window of a VF that does not exist (R97), and the instances of a banked register for a requester that has none, ignore writes (R102, R115). -/
def State.ignores (s : State) (who : Requester) (off : Nat) : Bool :=
  (decide (0x200000 ≤ off) && !s.windowThere off) || (isBanked off && (bankOf who).isNone)

/-- The effect of an alias write that passed the checks. (DEDUCED, log entry 17) -/
def State.bitEffect (s : State) (who : Requester) (bank off bit val : Nat) : State :=
  match fieldAt off bit with
  | none => s
  | some f =>
    if s.ignores who off then s
    else match f.acc with
    | .rw => s.valueWrite who bank off ((if val.testBit 0 then bitSet else bitClear) (s.word bank off) bit)
    | .rwl =>
      if s.rwlLocked off then s
      else s.valueWrite who bank off ((if val.testBit 0 then bitSet else bitClear) (s.word bank off) bit)
    | .gw => s.guardFail off (classOf who) 6
    | _ => s

/-- A write to an alias word: it meets the checks of an access to the register, and the table's at the alias address. (DEDUCED, log entry 17) -/
def State.bitWrite (s : State) (who : Requester) (off bit val : Nat) : State :=
  if !s.reaches who then s
  else match s.parked who (busWrite who (aliasAddr off bit) val) with
  | some s => s
  | none =>
    let s := s.interleaveAt who (aliasAddr off bit)
    match s.beatRefusal (classOf who) .write (worldOf who) (aliasAddr off bit) with
    | some (src, e) => s.refuseWrite who (aliasAddr off bit - regBase) src e
    | none =>
      if !regAllowed s who true off then s.refuseWrite who (aliasAddr off bit - regBase) 2 0
      else if s.blockAnswers off then (s.wakeWord off).bitEffect who ((bankOf who).getD 0) off bit val
      else s.errorWrite who (aliasAddr off bit)

/-! Every write by its offset. -/

/-- What a guarded register's accepted value does, ACT_CTRL apart. -/
def State.guardedEffect (off v : Nat) (s : State) : State :=
  if off = 0x10008 then State.capWrite v s
  else if off = 0x20008 then (if bits v 0 8 = 0x5A then s.warmReset else s)
  else if off = 0x30004 then s.lcTarget v
  else if off = 0x40028 then s.flagClr v
  else if off = 0x40030 then s.resume v
  else if off = 0x50024 then s.clearWrite v
  else if off = 0x120008 then s.pairWrite v
  else if off = 0x140018 then s.nreset v
  else s

/-- The effect of a write that passed the checks, by offset; `act` is what an accepted value of ACT_CTRL does. -/
def State.regEffect (s : State) (who : Requester) (off val : Nat) (act : Nat → State → State) : State :=
  let bank := if isBanked off then (bankOf who).getD 0 else 0
  if guardedRegs.contains off then s.guardValue who off val
  else if 4 ≤ off ∧ guardedRegs.contains (off - 4) then
    s.guardComplement who (off - 4) val (if off - 4 = 0x80000 then act else State.guardedEffect (off - 4))
  else if s.ignores who off then s
  else if isEvt off then s.evtWrite bank off val
  else s.valueWrite who bank off val

/-! Requests to the register space and to BARs, by address (R95 to R99, R114). -/

/-- The offset of the register that an address of the register space or of the bit-alias window belongs to. -/
def wordOff (a : Nat) : Nat := if bitBase ≤ a then (a - bitBase) / 128 * 4 else (a - regBase) / 4 * 4

/-- A write by its internal address, with `n` bytes enabled: one that does not enable a whole word is dropped with an error response (R98). -/
def State.writeAt (s : State) (act : Nat → State → State) (who : Requester) (a n val : Nat) : State :=
  if n = 4 ∧ a % 4 = 0 then
    if bitBase ≤ a then s.bitWrite who (wordOff a) ((a - bitBase) / 4 % 32) val
    else s.gated who (a - regBase) val fun s => s.regEffect who (a - regBase) val act
  else if !s.reaches who then s
  else match s.parked who (busBytes who a n val) with
    | some s => s
    | none =>
      let s := s.interleaveAt who a
      match s.beatRefusal (classOf who) .write (worldOf who) a with
      | some (src, e) => s.refuseWrite who (a - regBase) src e
      | none => s.errorWrite who a

/-- A read of a register or of an alias word, as its requester sees it: the word, or an error response. -/
def State.loadWord (s : State) (who : Requester) (a : Nat) : Option Nat :=
  if bitBase ≤ a then (s.regRead who (wordOff a)).map fun w => bits w ((a - bitBase) / 4 % 32) 1
  else s.regRead who (a - regBase)

/-- Why a read of a word is refused. -/
def State.wordRefusal (s : State) (who : Requester) (a : Nat) : Option (Nat × Nat) :=
  match s.beatRefusal (classOf who) .read (worldOf who) a with
  | some r => some r
  | none => if regAllowed s who false (wordOff a) then none else some (2, 0)

/-- A refused read is a violation; at debug it leaves its record too (R243, R244). -/
def State.noteRead (s : State) (who : Requester) (a src e : Nat) : State :=
  let s := s.violation (classOf who) (worldOf who) .read src e a
  match who with
  | .debug w => s.debugViol w .read a
  | _ => s

/-- A read of the word at an address, with its checks: `none` for an error response. -/
def State.readWord (s : State) (who : Requester) (a : Nat) : Option Nat × State :=
  match s.wordRefusal who a with
  | some (src, e) => (none, s.noteRead who a src e)
  | none => (match s.loadWord who a with | some v => (some v, s.wakeWord (wordOff a)) | none => (none, s))

/-- Whether a requester is a host. -/
def isHost : Requester → Bool
  | .host _ _ => true
  | _ => false

/-- A read of `n` bytes: the bytes asked for of one word, or of two in ascending order; a longer one receives an error response (R98). -/
def State.readAt (s : State) (who : Requester) (a n : Nat) : Option Nat × State :=
  let x := a / 4 * 4
  let y := (a + n - 1) / 4 * 4
  if n = 0 ∨ x + 4 < y then (none, s)
  else match s.readWord who x with
    | (none, s) => (none, s)
    | (some v, s) =>
      if y = x then (some (bits v (8 * (a % 4)) (8 * n)), s)
      else if !isHost who then (none, s)
      else (match s.readWord who y with | (some w, s) => (some (bits (v + 2 ^ 32 * w) (8 * (a % 4)) (8 * n)), s) | (none, s) => (none, s))

/-- A read is answered with its value, or with an error response. -/
def State.answerRead (s : State) (who : Requester) (a n : Nat) : State :=
  match s.readAt who a n with
  | (some v, s) => s.emit (.answer who (some v))
  | (none, s) => s.errorRead who

/-- A word of a function's BAR4: its MSI-X table, and its pending bits (R114). (PRESUMED, log entry 9) -/
def State.msixWord (s : State) (f : Fn) (off : Nat) : Nat :=
  let x := s.fnSt f
  let pba := match f with | .pf _ => 0x8000 | _ => 0x1000
  if off / 16 < s.vectors f then
    let w := tblGet 0 x.msixTable off
    if off % 16 = 12 then w / 2 * 2 + (if x.unmasked.testBit (off / 16) then 0 else 1) else w
  else if pba ≤ off ∧ off < pba + 8 then bits x.msixPend (8 * (off - pba)) 32
  else 0

/-- MSI-X table words of a function: bit 0 of the vector control word masks (BAR4). (PRESUMED, log entry 9; DEDUCED, log entry 17) -/
def State.msixWrite (s : State) (f : Fn) (off val : Nat) : State :=
  let v := off / 16
  if s.vectors f ≤ v then s
  else
    let x := s.fnSt f
    let s := s.setFnSt f { x with msixTable := tblPut 0 x.msixTable off val }
    if off % 16 ≠ 12 then s
    else if val.testBit 0 then s.setFnSt f { s.fnSt f with unmasked := bitClear (s.fnSt f).unmasked v }
    else if x.unmasked.testBit v then s
    else s.unmask f v

/-- Where a request of a requester lands (Table 5-4). -/
inductive Lands
  /-- An address of the register space or of the bit-alias window. -/
  | reg (a : Nat)
  /-- An offset of the function's BAR4. -/
  | bar4 (off : Nat)
  /-- An offset of a BAR that holds nothing. -/
  | empty (off : Nat)
deriving DecidableEq, Repr

/-- A host's address is an offset of its BAR0; 2^32 more is BAR4, 2^33 more is BAR2. A VF's BAR0 shows its window of the register space (R97). Other requesters name offsets of the register space, and from 2^33 on those of the bit-alias window. (DEDUCED, log entry 17) -/
def landing (who : Requester) (addr : Nat) : Lands :=
  match who with
  | .host p n =>
    if 2 ^ 33 ≤ addr then (if n = 0 ∧ addr - 2 ^ 33 < 0x2000000 then .reg (bitBase + (addr - 2 ^ 33)) else .empty addr)
    else if 2 ^ 32 ≤ addr then .bar4 (addr - 2 ^ 32)
    else if n = 0 then (if addr < 0x400000 then .reg (regBase + addr) else .empty addr)
    else if addr < 0x2000 then .reg (regBase + 0x200000 + 0x2000 * vfIndex p n + addr)
    else .empty addr
  | _ => if 2 ^ 33 ≤ addr then .reg (bitBase + (addr - 2 ^ 33)) else .reg (regBase + addr)

/-- A write to a host's BAR4, or to an offset that holds nothing, which ignores it (R114). -/
def State.bar4Write (s : State) (who : Requester) (off val : Nat) (whole : Bool) : State :=
  match who with
  | .host p n =>
    if !s.reaches who then s
    else if s.inL1 who then s.holdL1 who (busBytes who (bar4Base + off) (if whole then 4 else 1) val)
    else
      let s := s.interleaveAt who off
      if whole && off % 4 == 0 then s.msixWrite (hostFn p n) off val else s
  | _ => s

/-- A read of a host's BAR4: a value of one or two words. -/
def State.bar4Read (s : State) (who : Requester) (off n : Nat) : State :=
  match who with
  | .host p v =>
    if s.inL1 who then s.holdL1 who (busRead who (bar4Base + off) n)
    else
      let w := s.msixWord (hostFn p v) (off / 4 * 4) + 2 ^ 32 * s.msixWord (hostFn p v) (off / 4 * 4 + 4)
      s.emit (.answer who (some (bits w (8 * (off % 4)) (8 * n))))
  | _ => s

/-- Offsets of a BAR4 end here. -/
def bar4Size : Nat := 0x10000

/-- One word of a write, where it lands. -/
def State.writeWord (s : State) (act : Nat → State → State) (who : Requester) (at' : Lands) (n val : Nat) : State :=
  match at' with
  | .reg a => s.writeAt act who a n val
  | .bar4 off => s.bar4Write who off val (n == 4)
  | .empty off => s.bar4Write who (bar4Size + off) val (n == 4)

/-- A write of several words to a host's BAR4. -/
def putBar4 (who : Requester) : Nat → List Word32 → State → State
  | _, [], s => s
  | off, w :: t, s => putBar4 who (off + 4) t (s.bar4Write who off w.toNat true)

/-- The next word after an address. -/
def Lands.next : Lands → Lands
  | .reg a => .reg (a + 4)
  | .bar4 off => .bar4 (off + 4)
  | .empty off => .empty (off + 4)

/-- A host's read that finds no function to answer it is an Unsupported Request; one that finds no link does not arrive (R129). -/
def State.unanswered (s : State) (who : Requester) : State :=
  match who with
  | .host p _ => if s.flag (R.PE_LINK_DL_UP.port p) then s.emit (.unsupported who) else s
  | _ => s

/-- A read, where it lands. -/
def State.readFrom (s : State) (who : Requester) (at' : Lands) (n : Nat) : State :=
  if !s.reaches who then s.unanswered who
  else match at' with
    | .reg a => (match s.parked who (busRead who a n) with | some s => s | none => s.answerRead who a n)
    | .bar4 off => s.bar4Read who off n
    | .empty off => s.bar4Read who (bar4Size + off) n

/-- A request to the register space or to a BAR; a write of two words is two accesses in ascending order, a longer one to BAR0 or BAR2 is dropped with an error response (R98). -/
def State.request (s : State) (act : Nat → State → State) (who : Requester) (addr : Nat) (r : RegRequest) (en : BitVec 4) : State :=
  let t := landing who addr
  match r with
  | .write v => s.writeWord act who t (if en = 0xF then 4 else 1) v.toNat
  | .write2 lo hi =>
    (match who with
     | .host _ _ => (s.writeWord act who t 4 lo.toNat).writeWord act who t.next 4 hi.toNat
     | _ => s.writeWord act who t 8 (lo.toNat + 2 ^ 32 * hi.toNat))
  | .writeLong ws =>
    (match t with
     | .bar4 off => putBar4 who off ws s
     | _ => s.writeWord act who t (4 * ws.length + 16) 0)
  | .read n => s.readFrom who t n

/-! The debug port's accesses to memory (R242, R243). -/

/-- A refused debug access: a violation, the record of source 216 and the error flag; a read returns zeros. (DEDUCED, log entry 14) -/
def State.debugRefused (s : State) (w : World) (k : AccKind) (a src e : Nat) : State :=
  let s := (s.violation 11 w k src e a).debugViol w k a
  match k with
  | .write => s.errorWrite (.debug w) a
  | _ => s.errorRead (.debug w)

/-- A debug access to memory at the table. -/
def State.debugMem (s : State) (w : World) (a len : Nat) (write : Option (List Byte)) : State :=
  let kind := if write.isSome then AccKind.write else .read
  if !s.ctrlOn w then s.debugRefused w kind a 2 0
  else
    let s := match s.firstRefusal 11 kind w (beats a len) with
      | some (x, _, _) => s.debugViol w kind x
      | none => s
    match write with
    | some l =>
      let (ok, s) := s.writeMem 11 w a l
      if ok then s else s.errorWrite (.debug w) a
    | none =>
      let (d, ok, s) := s.readMem 11 w .read a len
      (if ok then s else s.errorWrite (.debug w) a).emit (.answer (.debug w) (some (leNat d)))

/-! Accesses that UPDATE = 0, or the exit of a link from L1, lets go on (R119, R245). -/

/-- An access of a requester to the register space or to its BAR4 goes on. -/
def State.releaseBus (s : State) (who : Requester) (a : HeldAccess) (act : Nat → State → State) : State :=
  let open' := match who with | .debug w => s.ctrlOn w | _ => true
  if !open' then s.debugRefused a.world a.kind a.addr 2 0
  else
    let t := if bar4Base ≤ a.addr then Lands.bar4 (a.addr - bar4Base) else .reg a.addr
    match a.kind with
    | .write => s.writeWord act who t a.len (leNat a.data)
    | _ => s.readFrom who t a.len

/-- An access of a requester to memory goes on; a core's store is carried out, its load anew by its instruction. -/
def State.releaseMem (s : State) (who : Requester) (a : HeldAccess) : State :=
  match who, a.kind with
  | .debug w, .write => s.debugMem w a.addr a.len (some a.data)
  | .debug w, _ => s.debugMem w a.addr a.len none
  | .core p _ _, .write => if a.data.isEmpty then s else s.storeMem p a.addr a.data
  | _, _ => s

/-- A line access that was held. -/
def HeldAccess.line (a : HeldAccess) (who : Initiator) : LineAccess := { who := who, off := a.addr - ddrBase, data := a.data }

/-- A held access goes on, by what it is an access of (R245). (DEDUCED, log entry 19) -/
def State.releaseAccess (s : State) (a : HeldAccess) (act : Nat → State → State) : State :=
  match a.origin with
  | .bus who => s.releaseBus who a act
  | .mem who => s.releaseMem who a
  | .cmd id => s.advance id stages
  | .returns q => s.readReturns q
  | .post => (s.dmaOut a.cls a.world a.addr a.data).2
  | .line who => s.lineAccess (a.line who)

/-- UPDATE returns to 0: all entries take effect, ill-formed ones count as violations, the held accesses go on in order (R245, R248). (DEDUCED, log entry 19) -/
def State.updateEnd (s : State) : State :=
  let s := s.wr R.ACT_CTRL_UPDATE 0
  let s := s.emptyEntries.foldl State.entryViolation s
  let s := s.setEvt R.ACT_EVT_UPDATE_DONE
  let l := s.act.held
  let s : State := { s with act := { s.act with held := [] } }
  (l.foldl (fun s a => s.releaseAccess a fun _ s => s) s).pump

/-- An accepted value of ACT_CTRL: LOCK stays once set; with it, UPDATE cannot be set (R245, R247). (DEDUCED, log entry 17) -/
def State.actCtrl (v : Nat) (s : State) : State :=
  let locked := s.flag R.ACT_CTRL_LOCK
  let s := if v.testBit 1 then s.wr R.ACT_CTRL_LOCK 1 else s
  if v.testBit 0 then (if locked then s else s.wr R.ACT_CTRL_UPDATE 1)
  else if s.flag R.ACT_CTRL_UPDATE then s.updateEnd else s

/-- A write of a whole word to the register space. (DEDUCED, log entry 17) -/
def State.writeReg (s : State) (who : Requester) (off val : Nat) : State :=
  s.gated who off val fun s => s.regEffect who off val State.actCtrl

/-- A write to the register space or to the bit-alias window by its internal address, with `n` bytes enabled (R98). -/
def State.storeReg (s : State) (who : Requester) (a n val : Nat) : State := s.writeAt State.actCtrl who a n val

/-! The rows. -/

/-- REGISTER_WRITE: any request to the register space or to a BAR (R96 to R102, R114). The debug port makes none while it is closed. (DEDUCED, log entry 17) -/
def execRegisterWrite (who : Requester) (addr : Nat) (value : RegRequest) (enables : BitVec 4) (s : State) : Host.Outcome State Fault Refusal :=
  match who with
  | .debug w =>
    if !s.dbgPort then s.noEvent
    else if !s.ctrlOn w then .next (s.debugRefused w (match value with | .read _ => .read | _ => .write) (regBase + addr) 2 0)
    else .next (s.request State.actCtrl who addr value enables)
  | _ => .next (s.request State.actCtrl who addr value enables)

/-- EVT_CLEAR_WRITE. -/
def execEvtClearWrite (who : Requester) (off : Nat) (value : Word32) (s : State) : Host.Outcome State Fault Refusal :=
  .next (s.writeReg who off value.toNat)

/-- BIT_ALIAS_WRITE: the port blocks and those above have no aliases (R110). -/
def execBitAliasWrite (who : Requester) (off : Nat) (bit : Fin 32) (value : Word32) (s : State) : Host.Outcome State Fault Refusal :=
  .next (s.storeReg who (aliasAddr off bit.val) 4 value.toNat)

/-- GUARD_VALUE_WRITE. -/
def execGuardValueWrite (who : Requester) (off : Nat) (value : Word32) (s : State) : Host.Outcome State Fault Refusal :=
  if guardedRegs.contains off then .next (s.writeGuardValue who off value.toNat) else .next (s.writeReg who off value.toNat)

/-- GUARD_TIMEOUT: 256 ns after its arrival a value without its complement is discarded. -/
def execGuardTimeout (off : Nat) (s : State) : Host.Outcome State Fault Refusal :=
  match s.bus.guards.find? fun g => g.off == off with
  | some g => .next ((s.dropGuard off).guardFail off (classOf g.who) 3)
  | none => s.noEvent

/-- WIDE_SEL_WRITE. -/
def execWideSelWrite (who : Requester) (value : Word32) (s : State) : Host.Outcome State Fault Refusal :=
  .next (s.gated who 0x100 value.toNat fun s => s.wideSel who ((bankOf who).getD 0) value.toNat)

/-- DATA words of the wide-value mailbox. -/
def putWide (bank v : Nat) : Nat → State → State
  | 0, s => s
  | n + 1, s => (putWide bank v n s).wr ((R.GLB_WIDE_DATA_DATA.ix n).inst bank) (v / 2 ^ (32 * n))

/-- The value a snapshot takes: `none` where a direct read would be refused, or where no wide value lies there (R107). -/
def State.snapshot (s : State) (who : Requester) (off : Nat) : Option Nat :=
  if (s.regRefusal who false off).isSome || !s.blockAnswers off then none else s.wide off

/-- WIDE_SNAPSHOT_DONE. -/
def execWideSnapshotDone (bank : Fin 4) (s : State) : Host.Outcome State Fault Refusal :=
  let b := bank.val
  match tblGet none s.bus.wideReq b with
  | none => s.noEvent
  | some who =>
    if s.tableHolds who then s.noEvent
    else
      let sel := s.rd (R.GLB_WIDE_SEL_OFFSET.inst b)
      let v := s.snapshot who (4 * sel)
      let s := putWide b (v.getD 0) 8 s
      let s := ((s.wr (R.GLB_WIDE_VALID_VALID.inst b) 1).wr (R.GLB_WIDE_VALID_ERR.inst b) v.isNone.toNat).wr
        (R.GLB_WIDE_VALID_OFFSET.inst b) sel
      .next { s with bus := { s.bus with wideReq := tblPut none s.bus.wideReq b none } }

/-- ACT_UPDATE_BEGIN: the complement of a guarded write to ACT_CTRL. -/
def execActUpdateBegin (who : Requester) (complement : Word32) (s : State) : Host.Outcome State Fault Refusal :=
  .next (s.writeGuarded who 0x80000 complement.toNat State.actCtrl)

/-- ACT_UPDATE_END: the complement of a guarded write to ACT_CTRL. -/
def execActUpdateEnd (who : Requester) (complement : Word32) (s : State) : Host.Outcome State Fault Refusal :=
  .next (s.writeGuarded who 0x80000 complement.toNat State.actCtrl)

/-- ACT_LOCK: the complement of a guarded write to ACT_CTRL. -/
def execActLock (who : Requester) (complement : Word32) (s : State) : Host.Outcome State Fault Refusal :=
  .next (s.writeGuarded who 0x80000 complement.toNat State.actCtrl)

/-- A held access of a requester ends with an error response: the load or fetch of a pair raises its exception (R246, Table 10-4). (DEDUCED, log entry 16) -/
def State.heldError (s : State) (who : Requester) (k : AccKind) (a : Nat) : State :=
  match k, who with
  | .write, _ => s.errorWrite who a
  | .fetch, .core p _ _ => s.addrFault p (BitVec.ofNat 64 a)
  | .read, .core p _ _ => s.fault p 4 (BitVec.ofNat 64 a)
  | _, _ => s.errorRead who

/-- The read of a return entry ends with an error response: the entry is refused, and the dispatcher goes on (R176, R246). (DEDUCED, log entry 51) -/
def State.returnLost (s : State) (q : Nat) : State :=
  let head := s.rd (R.DSP_CQ_RHEAD_HEAD.ix q)
  ((s.wr (R.DSP_CQ_RHEAD_HEAD.ix q) ((head + 1) % s.ringSize q)).setEvt R.DSP_EVT_BAD_RETURN).readReturns q

/-- What the error response to a held access does, by what it is an access of (Table 10-4). (DEDUCED, log entry 16) -/
def State.heldFails (s : State) (a : HeldAccess) : State :=
  match a.origin with
  | .bus who | .mem who => s.heldError who a.kind a.addr
  | .cmd id => (match s.cmd id with | some c => s.dmaError c | none => s)
  | .returns q => s.returnLost q
  | .post => s
  | .line who => s.initError (a.line who) .refused

/-- A time-out of a held access is a violation with SOURCE 5 (R246). (DEDUCED, log entry 16) -/
def State.holdViolation (s : State) (a : HeldAccess) : State :=
  (s.violation a.cls a.world a.kind 5 0 a.addr).setEvt R.ACT_EVT_HOLD_TIMEOUT

/-- ACT_HOLD_TIMEOUT: the access is named by its place in arrival order. (DEDUCED, log entry 16) -/
def execActHoldTimeout (index : Nat) (s : State) : Host.Outcome State Fault Refusal :=
  match s.flag R.ACT_CTRL_UPDATE, s.act.held[index]? with
  | true, some a =>
    let s : State := { s with act := { s.act with held := s.act.held.eraseIdx index } }
    .next ((s.holdViolation a).heldFails a).pump
  | _, _ => s.noEvent

/-- L1_EXIT: what arrived in L1 goes on in order (R101, R119). -/
def execL1Exit (port : Port) (s : State) : Host.Outcome State Fault Refusal :=
  if s.flag (R.PE_LINK_L1.port port) then
    let l := (s.port port).l1Held
    let s := (s.wr (R.PE_LINK_L1.port port) 0).setPort port { s.port port with l1Held := [] }
    .next (l.foldl (fun s a => s.releaseAccess a State.actCtrl) s)
  else s.noEvent

end Sys2Proof.Machine
end

