-- ==== Sys2Proof/Machine/SysRegs.lean ====
section
/-! DEFINITION. The system registers of a pair (Table 8-6, R198, R232). -/

namespace Sys2Proof.Machine

/-- The level that a number of a system register needs; `none` for the reserved group. -/
def sysLevel (n : Nat) : Option Nat := if n / 0x400 % 4 = 3 then none else some (n / 0x400 % 4)

/-- KSTATUS (Table 8-7). -/
def kstatus (c : Core) : Word64 :=
  BitVec.ofNat 64 (c.ie.toNat + 2 * c.pie.toNat + 4 * (if c.plev = .k then 1 else 0) + 8 * c.tie.toNat)

/-- MSTATUS (Table 8-8). -/
def State.mstatus (s : State) (p : Nat) : Word64 := BitVec.ofNat 64 ((s.core p).mplev.num + 4 * (pairWorld p).num)

/-- IPEND word `i`: sources asserted, routed to the pair's world and enabled. -/
def State.ipendWord (s : State) (p i : Nat) : Word64 :=
  BitVec.ofNat 64 (((List.range 64).filter fun j => s.ipend p (64 * i + j)).foldl (fun a j => a + 2 ^ j) 0)

/-- PAIRID. -/
def State.pairId (s : State) (p : Nat) : Word64 := BitVec.ofNat 64 (p + 4 * (pairWorld p).num + 8 * (s.core p).level.num)

/-- The value of a system register of a pair, where Table 8-6 lists it and a reader of level `lvl` may read it. -/
def State.sysReadAt (s : State) (p lvl n : Nat) : Option Word64 :=
  let c := s.core p
  if (match sysLevel n with | none => true | some l => decide (lvl < l)) then none
  else if n = 0x000 then some (BitVec.ofNat 64 s.time)
  else if n = 0x001 then some (s.pairId p)
  else if 0x010 ≤ n ∧ n ≤ 0x013 then
    (if lvl = 0 ∧ c.pmuCtl.getLsbD 4 = false then none else some (tblGet 0 c.pmc (n - 0x010)))
  else if n = 0x400 then some (kstatus c)
  else if n = 0x401 then some c.kepc
  else if n = 0x402 then some c.kcause
  else if n = 0x403 then some c.keaddr
  else if n = 0x404 then some c.kxbase
  else if n = 0x405 then some c.kscratch
  else if n = 0x406 then some c.tcmp
  else if 0x410 ≤ n ∧ n ≤ 0x417 then some (tblGet 0 c.ien (n - 0x410))
  else if 0x418 ≤ n ∧ n ≤ 0x41F then some (s.ipendWord p (n - 0x418))
  else if n = 0x420 then some (BitVec.ofNat 64 (match s.ifirst p with | some i => i | none => 0x200))
  else if n = 0x430 then some c.pmuCtl
  else if 0x431 ≤ n ∧ n ≤ 0x434 then some (tblGet 0 c.pmuSel (n - 0x431))
  else if n = 0x800 then some (s.mstatus p)
  else if n = 0x801 then some c.mepc
  else if n = 0x802 then some c.mcause
  else if n = 0x803 then some c.meaddr
  else if n = 0x804 then some c.mxbase
  else if n = 0x805 then some c.mscratch
  else if n = 0x810 then some (BitVec.ofNat 64 (s.rd R.WLD_DBG_SET))
  else if n = 0x811 then some (BitVec.ofNat 64 s.dbgEff)
  else none

/-- SRD's value at the present level of the pair. (DEDUCED, log entry 29) -/
def State.sysRead (s : State) (p n : Nat) : Option Word64 := s.sysReadAt p (s.core p).level.num n

/-- The lowest `k` bits of a word. -/
def lowBits (v : Word64) (k : Nat) : Word64 := v &&& BitVec.ofNat 64 (2 ^ k - 1)

/-- The level that a field codes; `old` where the code is reserved. -/
def levelOfCode (old : Level) (v : Nat) : Level := if v = 0 then .u else if v = 1 then .k else if v = 2 then .m else old

/-- MXBASE as written: its base and its lock; ignored while the lock is set. -/
def mxbaseWrite (c : Core) (v : Word64) : Word64 :=
  if c.mxbase.getLsbD 0 then c.mxbase else v &&& BitVec.ofNat 64 0xFFFFFFFE01

/-- Writing a system register of a pair, where Table 8-6 lists it as writable and a writer of level `lvl` may write it. -/
def State.sysWriteAt (s : State) (p lvl n : Nat) (v : Word64) : Option State :=
  let c := s.core p
  if (match sysLevel n with | none => true | some l => decide (lvl < l)) then none
  else if 0x010 ≤ n ∧ n ≤ 0x013 then
    (if lvl = 0 then none else some (s.setCore p { c with pmc := tblPut 0 c.pmc (n - 0x010) v }))
  else if n = 0x400 then
    some (s.setCore p { c with
      ie := v.getLsbD 0, pie := v.getLsbD 1, plev := if v.getLsbD 2 then .k else .u, tie := v.getLsbD 3 })
  else if n = 0x401 then some (s.setCore p { c with kepc := v })
  else if n = 0x404 then some (s.setCore p { c with kxbase := v &&& ~~~(BitVec.ofNat 64 0x1FF) })
  else if n = 0x405 then some (s.setCore p { c with kscratch := v })
  else if n = 0x406 then some (s.setCore p { c with tcmp := v })
  else if 0x410 ≤ n ∧ n ≤ 0x417 then some (s.setCore p { c with ien := tblPut 0 c.ien (n - 0x410) v })
  else if n = 0x430 then some (s.setCore p { c with pmuCtl := lowBits v 5 })
  else if 0x431 ≤ n ∧ n ≤ 0x434 then some (s.setCore p { c with pmuSel := tblPut 0 c.pmuSel (n - 0x431) (lowBits v 4) })
  else if n = 0x800 then some (s.setCore p { c with mplev := levelOfCode c.mplev (v.toNat % 4) })
  else if n = 0x801 then some (s.setCore p { c with mepc := v })
  else if n = 0x804 then some (s.setCore p { c with mxbase := mxbaseWrite c v })
  else if n = 0x805 then some (s.setCore p { c with mscratch := v })
  else if n = 0x810 then some (s.wr R.WLD_DBG_SET (v.toNat % 16))
  else none

/-- SWR's effect at the present level of the pair. -/
def State.sysWrite (s : State) (p n : Nat) (v : Word64) : Option State := s.sysWriteAt p (s.core p).level.num n v

end Sys2Proof.Machine
end

