-- ==== Sys2Proof/Machine/Debug.lean ====
section
/-! DEFINITION. Accesses of the debug port (chapters 09, 10, 18). -/

namespace Sys2Proof.Machine

/-! The debug port (R242, R243). -/

/-- Whether an address lies in the register space or in the bit-alias window. -/
def isRegAddr (a : Nat) : Bool :=
  (decide (regBase ≤ a) && decide (a < regBase + 0x400000)) || (decide (bitBase ≤ a) && decide (a < bitBase + 0x2000000))

/-- An access of the debug port to memory or to the register space. -/
def State.debugDo (s : State) (w : World) (a len : Nat) (write : Option (List Byte)) : State :=
  let kind := if write.isSome then AccKind.write else .read
  if !s.ctrlOn w then s.debugRefused w kind a 2 0
  else if isRegAddr a then
    match write with
    | some l => s.storeReg (.debug w) a len (leNat l)
    | none => s.readFrom (.debug w) (.reg a) len
  else if s.flag R.ACT_CTRL_UPDATE then
    s.hold { cls := 11, world := w, origin := .mem (.debug w), addr := a, kind := kind, data := write.getD [], len := len }
  else s.debugMem w a len write

/-- Whether the watch enable of a world is in effect. (DEDUCED, log entry 23) -/
def State.watchOn (s : State) (w : World) : Bool := s.dbgEff.testBit (match w with | .normal => 1 | .secure => 3)

/-- A refused access to a register of a pair: it has no address, so the one captured is a free value. (DEDUCED, log entry 23) -/
def State.debugCoreRefused (s : State) (w : World) (write : Bool) : State :=
  let (a, s) := s.freeNat 5
  s.debugRefused w (if write then .write else .read) a 2 0

/-- Reading or writing a register of a pair that executes in the world named, under its control enable (R223). (DEDUCED, log entry 23) -/
def State.debugCore (s : State) (w : World) (p : Nat) (write : Option (List Byte))
    (get : State → Option Word64) (put : State → Word64 → Option State) : State :=
  if !(s.ctrlOn w && s.worldOfPair p == w && (s.core p).run != .fenced) then s.debugCoreRefused w write.isSome
  else match write with
    | some l =>
      (match put s (BitVec.ofNat 64 (leNat l)) with
       | some s => s
       | none => s.errorWrite (.debug w) 0)
    | none =>
      (match get s with
       | some v => s.emit (.answer (.debug w) (some v.toNat))
       | none => s.errorRead (.debug w))

/-- Sampling PC, level and CCS_PAIR under the watch enable (R223). (DEDUCED, log entry 23) -/
def State.debugSample (s : State) (w : World) (p : Nat) : State :=
  if !(s.watchOn w && s.worldOfPair p == w) then s.debugCoreRefused w false
  else
    let c := s.core p
    ((s.emit (.answer (.debug w) (some c.pc.toNat))).emit (.answer (.debug w) (some c.level.num))).emit
      (.answer (.debug w) (some (s.word 0 (0x140000 + 4 * p))))

/-- DEBUG_ACCESS: at most 16 beats (R238); a register access is one word; the system registers of a pair are open whatever its level (R223). -/
def execDebugAccess (world : World) (target : DebugTarget) (write : Option (List Byte)) (s : State) : Host.Outcome State Fault Refusal :=
  if !s.dbgPort then s.noEvent
  else match target with
    | .memory addr len =>
      if decide (0 < len) && decide ((beats addr len).length ≤ 16) && (write.all fun l => l.length == len) then
        .next ((s.debugDo world addr len write).settle)
      else s.noEvent
    | .general p g => .next (s.debugCore world p.val write (fun s => some (s.gr p.val g)) fun s v => some (s.setGr p.val g v))
    | .system p n =>
      .next (s.debugCore world p.val write (fun s => s.sysReadAt p.val 2 n.toNat) fun s v => s.sysWriteAt p.val 2 n.toNat v)
    | .sample p => if write.isSome then s.noEvent else .next (s.debugSample world p.val)

end Sys2Proof.Machine
end

