-- ==== Sys2Proof/Machine/Operands.lean ====
section
/-! DEFINITION. The operand forms and the arithmetic of the HCC instructions, and the words that no level may execute (Tables 8-1 and 8-2). -/

namespace Sys2Proof.Machine

/-- An immediate extended by its sign bit. -/
def sext {n : Nat} (v : BitVec n) : Word64 := v.signExtend 64

/-- An immediate extended with zeros. -/
def zext {n : Nat} (v : BitVec n) : Word64 := v.zeroExtend 64

/-- The address of a load or store: A + sext(IMM). -/
def State.addrOf (s : State) (p : Nat) (a : Reg) (imm : BitVec 16) : Word64 := s.gr p a + sext imm

/-- The address of CACHE: IMM[15:2] with two zero bits, extended by its sign. -/
def State.cacheAddr (s : State) (p : Nat) (a : Reg) (off : BitVec 14) : Word64 := s.gr p a + sext (off ++ (0 : BitVec 2))

/-- PC + 4 × an extended offset. -/
def branchTo (pc : Word64) (off : Word64) : Word64 := pc + off <<< 2

/-- The most negative value. -/
def minWord : Word64 := BitVec.ofNat 64 (2 ^ 63)

/-- A shift by the low six bits of B. -/
def shiftBy (k : Shift) (a : Word64) (n : Nat) : Word64 :=
  match k with
  | .sll => a <<< n
  | .srl => a >>> n
  | .sra => a.sshiftRight n

/-- The high half of a product, signed and unsigned. -/
def mulHigh (a b : Word64) : Word64 := BitVec.ofInt 64 (a.toInt * b.toInt / 2 ^ 64)

/-- The high half of an unsigned product. -/
def mulHighU (a b : Word64) : Word64 := BitVec.ofNat 64 (a.toNat * b.toNat / 2 ^ 64)

/-- A signed division that takes the arithmetic exception. -/
def divTraps (a b : Word64) : Bool := b == 0 || (a == minWord && b == BitVec.allOnes 64)

/-- Signed quotient rounded toward zero, and the remainder with the sign of A. -/
def divSigned (a b : Word64) : Word64 := BitVec.ofInt 64 (Int.tdiv a.toInt b.toInt)

/-- The remainder of a signed division. -/
def remSigned (a b : Word64) : Word64 := BitVec.ofInt 64 (Int.tmod a.toInt b.toInt)

/-- 1 or 0. -/
def flagWord (b : Bool) : Word64 := if b then 1 else 0

/-- The result of LUI: sext(IMM << 16). -/
def luiValue (imm : BitVec 16) : Word64 := sext (imm ++ (0 : BitVec 16))

/-- Loaded bytes extended by their sign. -/
def sextNat (n : Nat) (v : Nat) : Word64 := (BitVec.ofNat n v).signExtend 64

/-- Loaded bytes extended with zeros. -/
def zextNat (v : Nat) : Word64 := BitVec.ofNat 64 v

/-- The operation of an AMO on the old value and B (Table 8-2). -/
inductive Amo | swap | add | and | or | xor | max | min | maxu | minu
deriving DecidableEq, Repr

/-- What an AMO stores: its operation on the old value and the operand. -/
def amoOp (k : Amo) (old b : Word64) : Word64 :=
  match k with
  | .swap => b
  | .add => old + b
  | .and => old &&& b
  | .or => old ||| b
  | .xor => old ^^^ b
  | .max => if b.slt old then old else b
  | .min => if old.slt b then old else b
  | .maxu => if b.ult old then old else b
  | .minu => if old.ult b then old else b

/-! Illegal words (R183, R198). -/

/-- FN values of OP 0x00 (Table 8-2). -/
def aluFn (fn : Nat) : Bool :=
  decide (fn ≤ 5) || (decide (8 ≤ fn) && decide (fn ≤ 0xA)) || fn == 0xC || fn == 0xD ||
    (decide (0x10 ≤ fn) && decide (fn ≤ 0x12)) || (decide (0x14 ≤ fn) && decide (fn ≤ 0x17))

/-- Whether a number of a system register may be read, or written, by a pair as it stands. (DEDUCED, log entry 29) -/
def State.sysLegal (s : State) (p n : Nat) (write : Bool) : Bool :=
  if write then (s.sysWrite p n 0).isSome else (s.sysRead p n).isSome

/-- Whether a word is an instruction that a pair may execute at its present level. (DESIGN CHOICE, log entry 25) -/
def State.hccLegal (s : State) (p w : Nat) : Bool :=
  let op := bits w 26 6
  let fn := bits w 0 6
  let b := bits w 6 5
  let lvl := (s.core p).level
  if op = 0 then aluFn fn && b == 0
  else if op ≤ 6 then true
  else if op = 7 then bits w 16 5 == 0
  else if op = 8 then bits w 8 8 == 0 && bits w 6 2 != 3
  else if op ≤ 0xA then true
  else if 0x10 ≤ op ∧ op ≤ 0x16 then true
  else if 0x18 ≤ op ∧ op ≤ 0x1B then true
  else if op = 0x1C then bits w 0 16 == 0
  else if op = 0x1D then fn == 0 && b == 0
  else if op = 0x1E then decide (fn ≤ 8) && b == 0
  else if 0x20 ≤ op ∧ op ≤ 0x27 then true
  else if op = 0x30 ∨ op = 0x31 then bits w 12 9 == 0 && s.sysLegal p (bits w 0 12) (op == 0x31)
  else if op = 0x32 then bits w 16 10 == 0 && lvl == .u
  else if op = 0x33 then bits w 16 10 == 0 && lvl == .k
  else if op = 0x34 then bits w 0 26 == 0 && lvl == .k
  else if op = 0x35 then bits w 0 26 == 0 && lvl == .m
  else if op = 0x36 then bits w 1 25 == 0
  else if op = 0x37 then bits w 0 26 == 0
  else if op = 0x38 then bits w 16 10 == 0
  else if op = 0x39 then bits w 21 5 == 0 && bits w 0 2 != 3
  else false

end Sys2Proof.Machine
end

