-- ==== Sys2Proof/Machine/Hcc.lean ====
section
/-! DEFINITION. The HCC instructions: what each does to the pair that executes it (chapter 08). The row names the instruction; that the bytes fetched are its encoding is not checked. -/

namespace Sys2Proof.Machine

/-- The PC moves past the instruction. -/
def State.pcNext (s : State) (p : Nat) : State := s.setPc p ((s.core p).pc + 4)

/-- Whether a pair executes its next instruction: it runs, or the debug port steps it; its domain is ON; it waits for nothing at the table. (DESIGN CHOICE, log entry 25) -/
def State.executes (s : State) (p : Nat) : Bool :=
  let c := s.core p
  (c.run == .running || (c.run == .halted && c.stepping)) && s.domOn (30 + p) && !s.waitsAtTable p

/-- Whether the instruction fetch of a pair waits at the table (R245). -/
def State.fetchHeld (s : State) (p : Nat) : Bool :=
  let c := s.core p
  s.flag R.ACT_CTRL_UPDATE && c.level != .m &&
    (match memType c.pc.toNat with
     | .cached _ => decide (c.pc.toNat < 2 ^ 40) && (cacheHit c.icache (s.worldOfPair p) c.pc.toNat).isNone
     | _ => false)

/-- An instruction has ended: it is counted as retired where it is, a step is over, a held halt request is carried out (R204, R223, R224). (DEDUCED, log entry 29) -/
def State.endInstr (s : State) (p : Nat) (level : Level) (retired : Bool) : State :=
  let s := if retired && level != .m then s.pmuAt p 1 else s
  let s := s.setCore p { s.core p with stepping := false }
  (s.boundary p).settle

/-- The frame of every instruction: what the boundary before it takes, compare stage, fetch, the instruction itself (R192, R200, R201). (DESIGN CHOICE, log entry 25; DEDUCED, log entry 26) -/
def State.runInstr (s : State) (r : Run) (f : State → Nat → Bool × State) : Host.Outcome State Fault Refusal :=
  let p := r.pair.val
  if !s.executes p then s.noEvent
  else
    let level := (s.core p).level
    match s.boundaryTakes p with
    | some t => .next (t.endInstr p level false)
    | none =>
      if s.fetchHeld p then .next (s.holdAccess p .fetch (s.core p).pc.toNat [])
      else if r.mismatch ≠ 0 then .next (s.lockstepFail p r.mismatch.val)
      else match s.fetchAt p with
        | (false, s) => .next ((s.addrFault p (s.core p).pc).endInstr p level false)
        | (true, s) =>
          let (done, s) := f s p
          .next (s.endInstr p level done)

/-- An instruction that only computes a register. -/
def State.alu (s : State) (r : Run) (d : Reg) (f : State → Nat → Word64) : Host.Outcome State Fault Refusal :=
  s.runInstr r fun s p => (true, (s.setGr p d (f s p)).pcNext p)

/-- A division: a divisor or an overflow that Table 8-2 names takes the arithmetic exception, D unchanged. -/
def State.divide (s : State) (r : Run) (d a b : Reg) (bad : Word64 → Word64 → Bool) (f : Word64 → Word64 → Word64) :
    Host.Outcome State Fault Refusal :=
  s.runInstr r fun s p =>
    let x := s.gr p a
    let y := s.gr p b
    if bad x y then (false, s.fault p 7 0) else (true, (s.setGr p d (f x y)).pcNext p)

/-- A read of a register or an alias word by a pair: the bytes asked for, or an error response (R98, R102). (DESIGN CHOICE, log entry 28) -/
def State.deviceLoad (s : State) (p a n : Nat) : Option (List Byte) × State :=
  match s.readAt (s.reqOf p) a n with
  | (some v, s) => (some (leBytes n v), s)
  | (none, s) => (none, s)

/-- The bytes a load obtains: `none` for an error response. -/
def State.loadBytes (s : State) (p a n : Nat) : Option (List Byte) × State :=
  match memType a with
  | .cached _ => s.cachedLoad p a n
  | .uncached => (s.pmuCount p 6).uncachedLoad p a n
  | .device => (s.pmuCount p 6).deviceLoad p a n

/-- A load (R182, R190). -/
def State.load (s : State) (p : Nat) (d : Reg) (a : Word64) (n : Nat) (ext : Nat → Word64) : Bool × State :=
  let x := a.toNat
  if x % n ≠ 0 then (false, s.fault p 3 a)
  else if s.wouldHold p x then (false, s.holdAccess p .read x [])
  else match (s.pmuCount p 4).loadBytes p x n with
    | (some l, s) => (true, (s.setGr p d (ext (leNat l))).pcNext p)
    | (none, s) => (false, s.fault p 4 a)

/-- A store: its error response is imprecise (R192). (DESIGN CHOICE, log entry 28) -/
def State.store (s : State) (p : Nat) (a : Word64) (l : List Byte) : Bool × State :=
  let x := a.toNat
  if x % l.length ≠ 0 then (false, s.fault p 3 a)
  else
    let s := s.pmuCount p 5
    match memType x with
    | .device => (true, ((s.pmuCount p 6).storeReg (s.reqOf p) x l.length (leNat l)).pcNext p)
    | t =>
      let s := (if t = .uncached then s.pmuCount p 6 else s).interleaveAt (s.reqOf p) x
      if s.wouldHold p x then (true, (s.holdAccess p .write x l).pcNext p)
      else (true, (s.storeMem p x l).pcNext p)

/-- Whether an address takes LR, SC and AMO (Table 8-3). (DESIGN CHOICE, log entry 28) -/
def atomicOk (a : Nat) : Bool := match memType a with | .cached b => b | _ => false

/-- LR (R189). (DESIGN CHOICE, log entry 28) -/
def State.loadReserve (s : State) (p : Nat) (d : Reg) (a : Word64) : Bool × State :=
  let x := a.toNat
  if x % 8 ≠ 0 then (false, s.fault p 3 a)
  else if !atomicOk x then (false, s.fault p 5 a)
  else if s.wouldHold p x then (false, s.holdAccess p .read x [])
  else match (s.pmuCount p 4).cachedLoad p x 8 with
    | (none, s) => (false, s.fault p 4 a)
    | (some l, s) =>
      let s := s.setCore p { s.core p with resv := some (x / 64) }
      (true, (s.setGr p d (zextNat (leNat l))).pcNext p)

/-- SC: the reservation is used up whatever happens (R189). (DESIGN CHOICE, log entry 28) -/
def State.storeCond (s : State) (p : Nat) (d : Reg) (a b : Word64) : Bool × State :=
  let x := a.toNat
  if x % 8 ≠ 0 then (false, s.fault p 3 a)
  else if !atomicOk x then (false, s.fault p 5 a)
  else if (s.core p).resv = some (x / 64) then
    if s.wouldHold p x then (false, s.holdAccess p .read x [])
    else
      let s := (s.pmuCount p 5).setCore p { (s.pmuCount p 5).core p with resv := none }
      let s := (s.interleaveAt (s.reqOf p) x).storeMem p x (leBytes 8 b.toNat)
      (true, (s.setGr p d 0).pcNext p)
  else
    let s := s.setCore p { s.core p with resv := none }
    (true, (s.setGr p d 1).pcNext p)

/-- AMO: one indivisible read and write, which needs both permissions. (DESIGN CHOICE, log entry 28) -/
def State.amo (s : State) (p : Nat) (k : Amo) (d : Reg) (a b : Word64) : Bool × State :=
  let x := a.toNat
  if x % 8 ≠ 0 then (false, s.fault p 3 a)
  else if !atomicOk x then (false, s.fault p 5 a)
  else if s.wouldHold p x then (false, s.holdAccess p .read x [])
  else match ((s.pmuCount p 4).pmuCount p 5).lineToWrite p x with
    | (none, s) => (false, s.fault p 4 a)
    | (some line, s) =>
      let old := zextNat (leNat (s.bytes x 8))
      let s := (s.interleaveAt (s.reqOf p) x).storeHit p line x (leBytes 8 (amoOp k old b).toNat)
      (true, (s.setGr p d old).pcNext p)

/-- A branch: if D compares with A as named, PC := PC + 4 × sext(IMM). -/
def State.branch (s : State) (p : Nat) (d a : Reg) (imm : BitVec 16) (cond : Word64 → Word64 → Bool) : Bool × State :=
  if cond (s.gr p d) (s.gr p a) then (true, (s.pmuCount p 7).setPc p (branchTo (s.core p).pc (sext imm)))
  else (true, s.pcNext p)

/-- A jump that links. -/
def State.jumpLink (s : State) (p : Nat) (d : Reg) (t : Word64) : Bool × State :=
  (true, ((s.pmuCount p 7).setGr p d ((s.core p).pc + 4)).setPc p t)

/-- Whether a pair has a store error to take, or an access on its way. -/
def State.accessesOpen (s : State) (p : Nat) : Bool :=
  !(s.core p).storeErrs.isEmpty || s.act.held.any fun h => h.pair == some p

/-- CACHE on the data line of an address, where the pair's world can hit it; a write-back waits while the table is updated. -/
def State.cacheOp (s : State) (p a : Nat) (f : State → CacheLine → State) : Bool × State :=
  match cacheHit (s.core p).dcache (s.worldOfPair p) a with
  | none => (true, s.pcNext p)
  | some x =>
    if x.dirty ∧ s.flag R.ACT_CTRL_UPDATE ∧ (s.core p).level ≠ .m then (false, s.holdAccess p .write a [])
    else (true, (f s x).pcNext p)

/-! Register and immediate arithmetic. -/

/-- ADD. -/
def execAdd (r : Run) (d a b : Reg) (s : State) : Host.Outcome State Fault Refusal :=
  s.alu r d fun s p => let x := s.gr p a; let y := s.gr p b; x + y

/-- SUB. -/
def execSub (r : Run) (d a b : Reg) (s : State) : Host.Outcome State Fault Refusal :=
  s.alu r d fun s p => let x := s.gr p a; let y := s.gr p b; x - y

/-- AND. -/
def execAnd (r : Run) (d a b : Reg) (s : State) : Host.Outcome State Fault Refusal :=
  s.alu r d fun s p => let x := s.gr p a; let y := s.gr p b; x &&& y

/-- OR. -/
def execOr (r : Run) (d a b : Reg) (s : State) : Host.Outcome State Fault Refusal :=
  s.alu r d fun s p => let x := s.gr p a; let y := s.gr p b; x ||| y

/-- XOR. -/
def execXor (r : Run) (d a b : Reg) (s : State) : Host.Outcome State Fault Refusal :=
  s.alu r d fun s p => let x := s.gr p a; let y := s.gr p b; x ^^^ y

/-- ANDN. -/
def execAndn (r : Run) (d a b : Reg) (s : State) : Host.Outcome State Fault Refusal :=
  s.alu r d fun s p => let x := s.gr p a; let y := s.gr p b; x &&& ~~~y

/-- SLL. -/
def execSll (r : Run) (d a b : Reg) (s : State) : Host.Outcome State Fault Refusal :=
  s.alu r d fun s p => let x := s.gr p a; let y := s.gr p b; shiftBy .sll x (y.toNat % 64)

/-- SRL. -/
def execSrl (r : Run) (d a b : Reg) (s : State) : Host.Outcome State Fault Refusal :=
  s.alu r d fun s p => let x := s.gr p a; let y := s.gr p b; shiftBy .srl x (y.toNat % 64)

/-- SRA. -/
def execSra (r : Run) (d a b : Reg) (s : State) : Host.Outcome State Fault Refusal :=
  s.alu r d fun s p => let x := s.gr p a; let y := s.gr p b; shiftBy .sra x (y.toNat % 64)

/-- SLT. -/
def execSlt (r : Run) (d a b : Reg) (s : State) : Host.Outcome State Fault Refusal :=
  s.alu r d fun s p => let x := s.gr p a; let y := s.gr p b; flagWord (x.slt y)

/-- SLTU. -/
def execSltu (r : Run) (d a b : Reg) (s : State) : Host.Outcome State Fault Refusal :=
  s.alu r d fun s p => let x := s.gr p a; let y := s.gr p b; flagWord (x.ult y)

/-- MUL. -/
def execMul (r : Run) (d a b : Reg) (s : State) : Host.Outcome State Fault Refusal :=
  s.alu r d fun s p => let x := s.gr p a; let y := s.gr p b; x * y

/-- MULH. -/
def execMulh (r : Run) (d a b : Reg) (s : State) : Host.Outcome State Fault Refusal :=
  s.alu r d fun s p => let x := s.gr p a; let y := s.gr p b; mulHigh x y

/-- MULHU. -/
def execMulhu (r : Run) (d a b : Reg) (s : State) : Host.Outcome State Fault Refusal :=
  s.alu r d fun s p => let x := s.gr p a; let y := s.gr p b; mulHighU x y

/-- DIV. -/
def execDiv (r : Run) (d a b : Reg) (s : State) : Host.Outcome State Fault Refusal :=
  s.divide r d a b (fun x y => divTraps x y) fun x y => divSigned x y

/-- DIVU. -/
def execDivu (r : Run) (d a b : Reg) (s : State) : Host.Outcome State Fault Refusal :=
  s.divide r d a b (fun _ y => y == 0) fun x y => x / y

/-- REM. -/
def execRem (r : Run) (d a b : Reg) (s : State) : Host.Outcome State Fault Refusal :=
  s.divide r d a b (fun x y => divTraps x y) fun x y => remSigned x y

/-- REMU. -/
def execRemu (r : Run) (d a b : Reg) (s : State) : Host.Outcome State Fault Refusal :=
  s.divide r d a b (fun _ y => y == 0) fun x y => x % y

/-- ADDI. -/
def execAddi (r : Run) (d a : Reg) (imm : BitVec 16) (s : State) : Host.Outcome State Fault Refusal :=
  s.alu r d fun s p => s.gr p a + sext imm

/-- ANDI. -/
def execAndi (r : Run) (d a : Reg) (imm : BitVec 16) (s : State) : Host.Outcome State Fault Refusal :=
  s.alu r d fun s p => s.gr p a &&& zext imm

/-- ORI. -/
def execOri (r : Run) (d a : Reg) (imm : BitVec 16) (s : State) : Host.Outcome State Fault Refusal :=
  s.alu r d fun s p => s.gr p a ||| zext imm

/-- XORI. -/
def execXori (r : Run) (d a : Reg) (imm : BitVec 16) (s : State) : Host.Outcome State Fault Refusal :=
  s.alu r d fun s p => s.gr p a ^^^ zext imm

/-- SLTI. -/
def execSlti (r : Run) (d a : Reg) (imm : BitVec 16) (s : State) : Host.Outcome State Fault Refusal :=
  s.alu r d fun s p => flagWord ((s.gr p a).slt (sext imm))

/-- SLTIU. -/
def execSltiu (r : Run) (d a : Reg) (imm : BitVec 16) (s : State) : Host.Outcome State Fault Refusal :=
  s.alu r d fun s p => flagWord ((s.gr p a).ult (sext imm))

/-- ORHI. -/
def execOrhi (r : Run) (d a : Reg) (imm : BitVec 16) (s : State) : Host.Outcome State Fault Refusal :=
  s.alu r d fun s p => s.gr p a ||| zext imm <<< 32

/-- ORTI. -/
def execOrti (r : Run) (d a : Reg) (imm : BitVec 16) (s : State) : Host.Outcome State Fault Refusal :=
  s.alu r d fun s p => s.gr p a ||| zext imm <<< 48

/-- LUI. -/
def execLui (r : Run) (d : Reg) (imm : BitVec 16) (s : State) : Host.Outcome State Fault Refusal :=
  s.alu r d fun _ _ => luiValue imm

/-- SHI. -/
def execShi (r : Run) (d a : Reg) (kind : Shift) (amount : BitVec 6) (s : State) : Host.Outcome State Fault Refusal :=
  s.alu r d fun s p => shiftBy kind (s.gr p a) amount.toNat

/-! Loads and stores. -/

/-- LD. -/
def execLd (r : Run) (d a : Reg) (imm : BitVec 16) (s : State) : Host.Outcome State Fault Refusal :=
  s.runInstr r fun s p => s.load p d (s.addrOf p a imm) 8 zextNat

/-- LW. -/
def execLw (r : Run) (d a : Reg) (imm : BitVec 16) (s : State) : Host.Outcome State Fault Refusal :=
  s.runInstr r fun s p => s.load p d (s.addrOf p a imm) 4 (sextNat 32)

/-- LWU. -/
def execLwu (r : Run) (d a : Reg) (imm : BitVec 16) (s : State) : Host.Outcome State Fault Refusal :=
  s.runInstr r fun s p => s.load p d (s.addrOf p a imm) 4 zextNat

/-- LH. -/
def execLh (r : Run) (d a : Reg) (imm : BitVec 16) (s : State) : Host.Outcome State Fault Refusal :=
  s.runInstr r fun s p => s.load p d (s.addrOf p a imm) 2 (sextNat 16)

/-- LHU. -/
def execLhu (r : Run) (d a : Reg) (imm : BitVec 16) (s : State) : Host.Outcome State Fault Refusal :=
  s.runInstr r fun s p => s.load p d (s.addrOf p a imm) 2 zextNat

/-- LB. -/
def execLb (r : Run) (d a : Reg) (imm : BitVec 16) (s : State) : Host.Outcome State Fault Refusal :=
  s.runInstr r fun s p => s.load p d (s.addrOf p a imm) 1 (sextNat 8)

/-- LBU. -/
def execLbu (r : Run) (d a : Reg) (imm : BitVec 16) (s : State) : Host.Outcome State Fault Refusal :=
  s.runInstr r fun s p => s.load p d (s.addrOf p a imm) 1 zextNat

/-- SD. -/
def execSd (r : Run) (d a : Reg) (imm : BitVec 16) (s : State) : Host.Outcome State Fault Refusal :=
  s.runInstr r fun s p => s.store p (s.addrOf p a imm) (leBytes 8 (s.gr p d).toNat)

/-- SW. -/
def execSw (r : Run) (d a : Reg) (imm : BitVec 16) (s : State) : Host.Outcome State Fault Refusal :=
  s.runInstr r fun s p => s.store p (s.addrOf p a imm) (leBytes 4 (s.gr p d).toNat)

/-- SH. -/
def execSh (r : Run) (d a : Reg) (imm : BitVec 16) (s : State) : Host.Outcome State Fault Refusal :=
  s.runInstr r fun s p => s.store p (s.addrOf p a imm) (leBytes 2 (s.gr p d).toNat)

/-- SB. -/
def execSb (r : Run) (d a : Reg) (imm : BitVec 16) (s : State) : Host.Outcome State Fault Refusal :=
  s.runInstr r fun s p => s.store p (s.addrOf p a imm) (leBytes 1 (s.gr p d).toNat)

/-! Atomics (R185, R189). -/

/-- LR. -/
def execLr (r : Run) (d a : Reg) (s : State) : Host.Outcome State Fault Refusal :=
  s.runInstr r fun s p => s.loadReserve p d (s.gr p a)

/-- SC. -/
def execSc (r : Run) (d a b : Reg) (s : State) : Host.Outcome State Fault Refusal :=
  s.runInstr r fun s p => s.storeCond p d (s.gr p a) (s.gr p b)

/-- AMO_SWAP. -/
def execAmoSwap (r : Run) (d a b : Reg) (s : State) : Host.Outcome State Fault Refusal :=
  s.runInstr r fun s p => s.amo p .swap d (s.gr p a) (s.gr p b)

/-- AMO_ADD. -/
def execAmoAdd (r : Run) (d a b : Reg) (s : State) : Host.Outcome State Fault Refusal :=
  s.runInstr r fun s p => s.amo p .add d (s.gr p a) (s.gr p b)

/-- AMO_AND. -/
def execAmoAnd (r : Run) (d a b : Reg) (s : State) : Host.Outcome State Fault Refusal :=
  s.runInstr r fun s p => s.amo p .and d (s.gr p a) (s.gr p b)

/-- AMO_OR. -/
def execAmoOr (r : Run) (d a b : Reg) (s : State) : Host.Outcome State Fault Refusal :=
  s.runInstr r fun s p => s.amo p .or d (s.gr p a) (s.gr p b)

/-- AMO_XOR. -/
def execAmoXor (r : Run) (d a b : Reg) (s : State) : Host.Outcome State Fault Refusal :=
  s.runInstr r fun s p => s.amo p .xor d (s.gr p a) (s.gr p b)

/-- AMO_MAX. -/
def execAmoMax (r : Run) (d a b : Reg) (s : State) : Host.Outcome State Fault Refusal :=
  s.runInstr r fun s p => s.amo p .max d (s.gr p a) (s.gr p b)

/-- AMO_MIN. -/
def execAmoMin (r : Run) (d a b : Reg) (s : State) : Host.Outcome State Fault Refusal :=
  s.runInstr r fun s p => s.amo p .min d (s.gr p a) (s.gr p b)

/-- AMO_MAXU. -/
def execAmoMaxu (r : Run) (d a b : Reg) (s : State) : Host.Outcome State Fault Refusal :=
  s.runInstr r fun s p => s.amo p .maxu d (s.gr p a) (s.gr p b)

/-- AMO_MINU. -/
def execAmoMinu (r : Run) (d a b : Reg) (s : State) : Host.Outcome State Fault Refusal :=
  s.runInstr r fun s p => s.amo p .minu d (s.gr p a) (s.gr p b)

/-! Branches and jumps. -/

/-- BEQ. -/
def execBeq (r : Run) (d a : Reg) (imm : BitVec 16) (s : State) : Host.Outcome State Fault Refusal :=
  s.runInstr r fun s p => s.branch p d a imm fun x y => x == y

/-- BNE. -/
def execBne (r : Run) (d a : Reg) (imm : BitVec 16) (s : State) : Host.Outcome State Fault Refusal :=
  s.runInstr r fun s p => s.branch p d a imm fun x y => x != y

/-- BLT. -/
def execBlt (r : Run) (d a : Reg) (imm : BitVec 16) (s : State) : Host.Outcome State Fault Refusal :=
  s.runInstr r fun s p => s.branch p d a imm fun x y => x.slt y

/-- BGE. -/
def execBge (r : Run) (d a : Reg) (imm : BitVec 16) (s : State) : Host.Outcome State Fault Refusal :=
  s.runInstr r fun s p => s.branch p d a imm fun x y => !x.slt y

/-- BLTU. -/
def execBltu (r : Run) (d a : Reg) (imm : BitVec 16) (s : State) : Host.Outcome State Fault Refusal :=
  s.runInstr r fun s p => s.branch p d a imm fun x y => x.ult y

/-- BGEU. -/
def execBgeu (r : Run) (d a : Reg) (imm : BitVec 16) (s : State) : Host.Outcome State Fault Refusal :=
  s.runInstr r fun s p => s.branch p d a imm fun x y => !x.ult y

/-- JAL. -/
def execJal (r : Run) (off : BitVec 26) (s : State) : Host.Outcome State Fault Refusal :=
  s.runInstr r fun s p => s.jumpLink p 30 (branchTo (s.core p).pc (sext off))

/-- JALR. -/
def execJalr (r : Run) (d a : Reg) (imm : BitVec 16) (s : State) : Host.Outcome State Fault Refusal :=
  s.runInstr r fun s p =>
    let t := s.addrOf p a imm
    if t.toNat % 4 ≠ 0 then (false, s.addrFault p t) else s.jumpLink p d t

/-! System instructions. -/

/-- SRD. -/
def execSrd (r : Run) (d : Reg) (sr : BitVec 12) (s : State) : Host.Outcome State Fault Refusal :=
  s.runInstr r fun s p =>
    match s.sysRead p sr.toNat with
    | some v => (true, (s.setGr p d v).pcNext p)
    | none => (false, s.illegal p (0x30 * 2 ^ 26 + d.val * 2 ^ 21 + sr.toNat))

/-- SWR. -/
def execSwr (r : Run) (d : Reg) (sr : BitVec 12) (s : State) : Host.Outcome State Fault Refusal :=
  s.runInstr r fun s p =>
    match s.sysWrite p sr.toNat (s.gr p d) with
    | some s => (true, s.pcNext p)
    | none => (false, s.illegal p (0x31 * 2 ^ 26 + d.val * 2 ^ 21 + sr.toNat))

/-- KCALL: an exception from U to K (R190). (DEDUCED, log entry 29) -/
def execKcall (r : Run) (imm : BitVec 16) (s : State) : Host.Outcome State Fault Refusal :=
  s.runInstr r fun s p =>
    if (s.core p).level = .u then (true, s.takeAtK p 8 imm.toNat 0x180 ((s.core p).pc + 4) 0)
    else (false, s.illegal p (0x32 * 2 ^ 26 + imm.toNat))

/-- WCALL: entry from K to M (R193). -/
def execWcall (r : Run) (imm : BitVec 16) (s : State) : Host.Outcome State Fault Refusal :=
  s.runInstr r fun s p =>
    if (s.core p).level = .k then (true, s.takeAtM p 9 imm.toNat 0x80 ((s.core p).pc + 4) 0)
    else (false, s.illegal p (0x33 * 2 ^ 26 + imm.toNat))

/-- A PC is a multiple of 4 (R182): the low bits of a saved one are dropped. (DEDUCED, log entry 29) -/
def pcOf (v : Word64) : Word64 := v &&& ~~~3#64

/-- KRET: return from K (R193). -/
def execKret (r : Run) (s : State) : Host.Outcome State Fault Refusal :=
  s.runInstr r fun s p =>
    let c := s.core p
    if c.level = .k then (true, s.setCore p { c with level := c.plev, ie := c.pie, pc := pcOf c.kepc, resv := none })
    else (false, s.illegal p (0x34 * 2 ^ 26))

/-- WRET: return from M to the saved level (R193). -/
def execWret (r : Run) (s : State) : Host.Outcome State Fault Refusal :=
  s.runInstr r fun s p =>
    let c := s.core p
    if c.level = .m then (true, s.setCore p { c with level := c.mplev, pc := pcOf c.mepc, resv := none })
    else (false, s.illegal p (0x35 * 2 ^ 26))

/-- FENCE: it completes once every earlier access has, and every store error has been taken (R186, R192). (DEDUCED, log entry 26) -/
def execFence (r : Run) (invalidate : Bool) (s : State) : Host.Outcome State Fault Refusal :=
  if r.mismatch = 0 ∧ s.accessesOpen r.pair.val then s.noEvent
  else s.runInstr r fun s p =>
    (true, (if invalidate then s.setCore p { s.core p with icache := [] } else s).pcNext p)

/-- WFI: the pair waits unless an interrupt would be pending (R197). (DEDUCED, log entry 29) -/
def execWfi (r : Run) (s : State) : Host.Outcome State Fault Refusal :=
  s.runInstr r fun s p =>
    let s' := s.pcNext p
    let c := s'.core p
    (true, if s.wakes p || c.run != .running then s' else s'.setCore p { c with run := .wfi })

/-- BRK. -/
def execBrk (r : Run) (imm : BitVec 16) (s : State) : Host.Outcome State Fault Refusal :=
  s.runInstr r fun s p => (false, s.trap p 10 imm.toNat (s.core p).pc 0)

/-- CACHE_CLEAN. -/
def execCacheClean (r : Run) (a : Reg) (off : BitVec 14) (s : State) : Host.Outcome State Fault Refusal :=
  s.runInstr r fun s p => s.cacheOp p (s.cacheAddr p a off).toNat fun s x => s.cleanCache p x

/-- CACHE_CLEAN_INVALIDATE. -/
def execCacheCleanInvalidate (r : Run) (a : Reg) (off : BitVec 14) (s : State) : Host.Outcome State Fault Refusal :=
  s.runInstr r fun s p => s.cacheOp p (s.cacheAddr p a off).toNat fun s x => s.evict p x

/-- CACHE_INVALIDATE_ILINE. -/
def execCacheInvalidateIline (r : Run) (a : Reg) (off : BitVec 14) (s : State) : Host.Outcome State Fault Refusal :=
  s.runInstr r fun s p =>
    let x := (s.cacheAddr p a off).toNat
    let c := s.core p
    let l := if (cacheHit c.icache (s.worldOfPair p) x).isSome then cacheDrop c.icache x else c.icache
    (true, (s.setCore p { c with icache := l }).pcNext p)

/-- ILLEGAL_INSTRUCTION: the word is none that the pair may execute (R183). (DESIGN CHOICE, log entry 25) -/
def execIllegalInstruction (r : Run) (word : Word32) (s : State) : Host.Outcome State Fault Refusal :=
  if s.hccLegal r.pair.val word.toNat then s.noEvent
  else s.runInstr r fun s p => (false, s.illegal p word.toNat)

/-! The monitor's services to the normal world (R216, Table 9-4). -/

/-- Whether a normal pair is in the monitor for a service: it entered M by WCALL with the service's number. -/
def State.serving216 (s : State) (p imm : Nat) : Bool :=
  let c := s.core p
  decide (2 ≤ p) && s.executes p && c.level == .m && c.mcause == causeWord 9 imm

/-- Whether a normal pair is in the monitor for a service that Table 9-4 does not list. -/
def State.servingUnknown (s : State) (p : Nat) : Bool :=
  let c := s.core p
  decide (2 ≤ p) && s.executes p && c.level == .m && c.mcause.toNat % 65536 == 9 && decide (2 < c.mcause.toNat / 65536)

/-- A service has ended: g1 holds the status, g2 to g4 the results; those it does not state are free values. (DEDUCED, log entry 32) -/
def State.svcReturn (s : State) (p status : Nat) (g2 g3 : Option Word64) : State :=
  let (x, s) := s.freeNat 8
  let (y, s) := s.freeNat 8
  let (z, s) := s.freeNat 8
  (((s.setGr p 1 (BitVec.ofNat 64 status)).setGr p 2 (g2.getD (BitVec.ofNat 64 x))).setGr p 3 (g3.getD (BitVec.ofNat 64 y))).setGr p 4
    (BitVec.ofNat 64 z)

/-- Pool queue pairs that secure firmware may bind: free, their group routed to the normal world (R219). -/
def State.freePoolQps (s : State) : List Nat :=
  ((List.range 1016).map (8 + ·)).filter fun q => !s.poolQpUsed q && s.routed .normal (256 + q / 4)

/-- First numbers of `count` consecutive normal-world queue pairs that are not bound. (DEDUCED, log entry 32) -/
def State.freeRuns (s : State) (count : Nat) : List Nat :=
  (List.range 64).filter fun n => decide (n + count ≤ 64) && (List.range count).all fun i => !s.flag (R.WLD_NQ_BIND_BOUND.ix (n + i))

/-- Secure firmware binds `k` queue pairs from `n` on; which pool queue pairs it takes is a free value. (DEDUCED, log entry 32) -/
def State.bindRun (s : State) (owner weight n : Nat) : Nat → State
  | 0 => s
  | k + 1 =>
    let (x, s) := s.freeNat 4
    let l := s.freePoolQps
    let q := l.getD (x % (max l.length 1)) 0
    (s.nqBind n (owner + weight * 2 ^ 10 + q * 2 ^ 18 + 2 ^ 28)).bindRun owner weight (n + 1) k

/-- Whether an owner is loaded and admits the normal world (Table 12-10). (DEDUCED, log entry 32) -/
def State.admitsNormal (s : State) (owner : Nat) : Bool :=
  match s.ownerAt owner with
  | some ow => ow.defn.policy.testBit 6
  | none => false

/-- NQ_REQUEST (Table 9-4). (DEDUCED, log entry 32) -/
def State.svcRequest (s : State) (p : Nat) : State :=
  let owner := (s.gr p 1).toNat
  let count := (s.gr p 2).toNat
  let weight := (s.gr p 3).toNat
  if count = 0 ∨ 16 < count ∨ weight = 0 ∨ 255 < weight then s.svcReturn p 3 none none
  else if 1024 ≤ owner ∨ s.admitsNormal owner = false then s.svcReturn p 2 none none
  else
    let runs := s.freeRuns count
    if runs.isEmpty ∨ s.freePoolQps.length < count then s.svcReturn p 4 none none
    else
      let (x, s) := s.freeNat 4
      let n := runs.getD (x % runs.length) 0
      (s.bindRun owner weight n count).svcReturn p 0 (some (BitVec.ofNat 64 n)) (some (BitVec.ofNat 64 count))

/-- A request for a service by its number: its own service, or UNKNOWN for a number that Table 9-4 does not list (R216). -/
def State.service (s : State) (p imm : Nat) (f : State → State) : Host.Outcome State Fault Refusal :=
  if s.serving216 p imm then .next (f s)
  else if s.servingUnknown p then .next (s.svcReturn p 1 none none)
  else s.noEvent

/-- NQ_REQUEST. -/
def execNqRequest (pair : Fin 4) (s : State) : Host.Outcome State Fault Refusal :=
  s.service pair.val 1 fun s => s.svcRequest pair.val

/-- NQ_RELEASE (Table 9-4). -/
def State.svcRelease (s : State) (p : Nat) : State :=
  let n := (s.gr p 1).toNat
  if 64 ≤ n ∨ s.flag (R.WLD_NQ_BIND_BOUND.ix n) = false then s.svcReturn p 3 none none
  else ((s.nqBind n 0).svcReturn p 0 none none).pump

/-- NQ_RELEASE. -/
def execNqRelease (pair : Fin 4) (s : State) : Host.Outcome State Fault Refusal :=
  s.service pair.val 2 fun s => s.svcRelease pair.val

/-- MONITOR_VERSION: the firmware release and the highest service number. -/
def execMonitorVersion (pair : Fin 4) (s : State) : Host.Outcome State Fault Refusal :=
  s.service pair.val 0 fun s => s.svcReturn pair.val 0 (some Config.firmwareRelease) (some 2)

end Sys2Proof.Machine
end

