-- ==== Sys2Proof/Machine/Rotation.lean ====
section
/-! DEFINITION. Self-test rotation, engine faults, Regrowth and the clearing of operand memories (R328, R348 to R352, R354, R379, R408, R428, R516). -/

namespace Sys2Proof.Machine

/-- A unit of a pool that a row may name. -/
def unitOk (p : Pool) (u : Nat) : Bool := decide (u < poolSize p)

/-- The unit that is in the self-test role, if any. -/
def State.tester (s : State) (p : Pool) : Option Nat :=
  if s.rd (poolTesting p) < poolSize p then some (s.rd (poolTesting p)) else none

/-- A unit that has passed serves. -/
def State.returnUnit (s : State) (p : Pool) (u : Nat) : State :=
  let s : State := { s with eng := { s.eng with
    passed := s.eng.passed.filter (· != unitKey p u), returning := s.eng.returning.filter (· != unitKey p u) } }
  s.wr (unitState p u) 1

/-- A rotation: the tester serves again, the next serving unit is selected; the serving count does not change (R349). (DEDUCED, log entry 40) -/
def State.rotate (s : State) (p : Pool) (t : Nat) : State :=
  let next := s.nextServing p (match tblGet 0 s.eng.lastTested p.num with | 0 => t | n + 1 => n)
  match next with
  | none => s
  | some u =>
    let s := (s.returnUnit p t).wr (poolTesting p) (noUnit p)
    (s.wr (unitSelected p u) 1).setEvt (poolEvtRotate p)

/-- SELF_TEST_ROTATION: with rotation suspended, a selection pending or the run not yet passed, no rotation takes place. (DEDUCED, log entry 40) -/
def execSelfTestRotation (pool : Pool) (s : State) : Host.Outcome State Fault Refusal :=
  let p := pool
  if !s.boot.katDone then s.noEvent
  else if s.flag (poolSuspended p) || (List.range (poolSize p)).any (fun u => s.flag (unitSelected p u)) then .next s
  else match s.tester p with
    | some t => .next (if s.eng.passed.contains (unitKey p t) then (s.rotate p t).pump else s)
    | none => .next s

/-- Whether a unit runs a command, in any lane. -/
def State.unitBusy (s : State) (p : Pool) (u : Nat) : Bool := (List.range 4).any fun l => tblGet 0 s.eng.running (laneKey p u l) != 0

/-- A unit takes the self-test role; the memory and residency that its tests use are cleared. (DEDUCED, log entry 40) -/
def State.enterSelfTest (s : State) (p : Pool) (u : Nat) : State :=
  let s := ((s.endResidency p u).forgetOwner p u).wr (unitSelected p u) 0
  let s : State := { s with eng := { s.eng with
    lastTested := tblPut 0 s.eng.lastTested p.num (u + 1), afterClear := tblPut 0 s.eng.afterClear (unitKey p u) 0 } }
  (s.wr (unitState p u) 3).wr (poolTesting p) u

/-- SELF_TEST_ENTRY. -/
def execSelfTestEntry (pool : Pool) (unit : Nat) (s : State) : Host.Outcome State Fault Refusal :=
  if unitOk pool unit && s.flag (unitSelected pool unit) && !s.unitBusy pool unit && s.rd (unitState pool unit) == 1 then
    .next (s.enterSelfTest pool unit)
  else s.noEvent

/-- The number of a cycling test set after `v`, of `n` sets. (DESIGN CHOICE, log entry 56) -/
def cycle (v n : Nat) : Nat := (v + 1) % n

/-- The sets that the next run of a unit takes (R350, Tables 15-6, 16-13, 16-14). (DESIGN CHOICE, log entry 56) -/
def State.cycleSets (s : State) (p : Pool) (u : Nat) : State :=
  match p with
  | .lattice => (s.wr (R.LAT_TILE_NEXT_KEM.ix u) (cycle (s.rd (R.LAT_TILE_NEXT_KEM.ix u)) 3)).wr (R.LAT_TILE_NEXT_DSA.ix u)
      (cycle (s.rd (R.LAT_TILE_NEXT_DSA.ix u)) 3)
  | .hash => s.wr (R.HSH_TILE_NEXT_SLH.ix u) (cycle (s.rd (R.HSH_TILE_NEXT_SLH.ix u)) 12)
  | .bignum => ((s.wr (R.BNE_UNIT_NEXT_ECC.ix u) (cycle (s.rd (R.BNE_UNIT_NEXT_ECC.ix u)) 3)).wr (R.BNE_UNIT_NEXT_RSA.ix u)
      (cycle (s.rd (R.BNE_UNIT_NEXT_RSA.ix u)) 3)).wr (R.BNE_UNIT_NEXT_ED.ix u) (cycle (s.rd (R.BNE_UNIT_NEXT_ED.ix u)) 2)
  | .code => s.wr (R.CBE_ENGINE_NEXT_SET.ix u) (cycle (s.rd (R.CBE_ENGINE_NEXT_SET.ix u)) 4)
  | .sym => s

/-- A unit that passed its run: the tester waits for the next rotation, others serve at once (R349, R59, R516). (DEDUCED, log entry 41) -/
def State.passUnit (s : State) (p : Pool) (u : Nat) : State :=
  let before := s.capacityList
  let s := ((s.cycleSets p u).wrapAdd (poolPasses p) 1).setEvt (unitEvt p u)
  let tester := s.isTesting p u
  if tester && !s.flag (poolSuspended p) then
    { s with eng := { s.eng with passed := unitKey p u :: s.eng.passed } }
  else
    let s := (if tester then s.wr (poolTesting p) (noUnit p) else s).returnUnit p u
    if before = s.capacityList then s else s.recapacity before

/-- Whether a run can end so: without randomness none passes, and a lattice tile's stops without a verdict (R342, R366, R406, R414). (DEDUCED, log entry 40) -/
def State.verdict (s : State) (p : Pool) (failed : Option TestFail) : Bool :=
  match failed with
  | none => !s.flag R.ENT_STATUS_FAILED
  | some f => testCause p f.test != 0 && !(p == .lattice && s.flag R.ENT_STATUS_FAILED)

/-- SELF_TEST_RUN_DONE. -/
def execSelfTestRunDone (pool : Pool) (unit : Nat) (failed : Option TestFail) (s : State) : Host.Outcome State Fault Refusal :=
  if unitOk pool unit && s.rd (unitState pool unit) == 3 && !s.eng.passed.contains (unitKey pool unit) && s.verdict pool failed &&
      !(pool == .lattice && s.eng.regrowth.any fun r => r.1 == unit) then
    match failed with
    | none => .next (s.passUnit pool unit).pump
    | some f => .next (s.fenceUnit pool unit false (s.runFault pool unit f)).pump
  else s.noEvent

/-- The spare takes the fenced tile's role (R351). -/
def State.regrown (s : State) (t : Nat) (testing : Bool) : State :=
  let before := s.capacityList
  let s : State := { s with eng := { s.eng with regrowth := none } }
  let s := (s.wrapAdd R.LAT_ROTATE_PASSES 1).setEvt (unitEvt .lattice t)
  let s := if testing && !s.flag R.LAT_ROTATE_SUSPENDED then
      ({ s with eng := { s.eng with passed := unitKey .lattice t :: s.eng.passed, lastTested := tblPut 0 s.eng.lastTested 0 (t + 1) } } : State).wr
        R.LAT_ROTATE_TESTING t
    else s.wr (R.LAT_TILE_STATE.ix t) 1
  (((s.setEvt R.LAT_EVT_REGROWTH).setEvt R.LAT_EVT_SPARE_OUT).recapacity before)

/-- REGROWTH_DONE: a spare that fails is fenced, and the role is lost. -/
def execRegrowthDone (tile : Nat) (failed : Option TestFail) (s : State) : Host.Outcome State Fault Refusal :=
  match s.eng.regrowth with
  | some (t, testing) =>
    if t ≠ tile ∨ !s.verdict .lattice failed then s.noEvent
    else match failed with
      | none => .next (s.regrown t testing).pump
      | some f =>
        let before := s.capacityList
        let s : State := { s with eng := { s.eng with regrowth := none } }
        let s := (s.markFenced .lattice t false (testFault .lattice f)).setEvt R.LAT_EVT_SPARE_OUT
        .next ((s.reassign .lattice testing false (!testing)).recapacity before).pump
  | none => s.noEvent

/-! Faults (R348, R370, R407, R426). -/

/-- DETAIL of an INTERNAL completion after a unit's second fault. (DEDUCED, log entry 42) -/
def faultDetail : Pool → Nat
  | .lattice => 0x10
  | .hash => 0x11
  | .bignum => 0x12
  | .code => 0x13
  | .sym => 0x14

/-- CAUSE of a clearing that was not finished in time. (DEDUCED, log entry 41) -/
def clearCause : Pool → Nat
  | .lattice => 9
  | .hash => 12
  | .bignum => 11
  | .code => 8
  | .sym => 12

/-- The fault of a comparator sets CMP_FAULT (R363). (DEDUCED, log entry 42) -/
def State.cmpFault (s : State) (p : Pool) (cause : Nat) : State :=
  match p with
  | .hash => if cause = 11 then s.setEvt R.HSH_EVT_CMP_FAULT else s
  | .sym => if cause = 11 then s.setEvt R.SYM_EVT_CMP_FAULT else s
  | _ => s

/-- A command whose unit faulted restarts once from step 7; after a second fault, or with XTS units written, it ends with INTERNAL. (DEDUCED, log entry 42) -/
def State.faultCmd (s : State) (p : Pool) (c : Cmd) : State :=
  let part := if c.isXts then (s.xtsPart c).2.1 else 0
  if let .handed _ _ := c.stage then
    let s := s.releaseUnit c true
    let c := { c with restarted := true, unit := none }
    if c.wraps then
      let s := s.setEvt (poolEvtRestart p)
      match s.pickUnit c p false with
      | some ul => let (c, s) := s.grantUnit c p false ul; s.setCmd c
      | none => s.setCmd c
    else s.setCmd c
  else if c.restarted || decide (0 < part) then (s.dropCmdCtx c).stopCmd c 0x7F (faultDetail p)
  else
    let s := (s.releaseUnit c true).setEvt (poolEvtRestart p)
    s.setCmd { c with restarted := true, stage := .waiting, unit := none, lane := none, pool := 0, engineDone := false, preHashed := false,
                      data := if c.whole then c.data else none }

/-- The commands that a unit runs, or that hold one of its lanes. -/
def State.unitCmds (s : State) (p : Pool) (u : Nat) : List Cmd :=
  s.dsp.inflight.filter fun c => (List.range 4).any fun l => tblGet 0 s.eng.running (laneKey p u l) == c.id + 1

/-- A unit faults: its commands restart or end, Tail-drop fences it. (DEDUCED, log entry 42) -/
def State.faultUnit (s : State) (p : Pool) (u lane cause : Nat) : State :=
  let cs := s.unitCmds p u
  let s := (cs.foldl (fun s c => s.faultCmd p c) s).cmpFault p cause
  s.fenceUnit p u (!cs.isEmpty) { test := 0, sub := lane, cause := cause }

/-- The causes that a unit finds outside its tests (Tables 14-11, 15-7, 16-15, 17-6). -/
def serviceCause (p : Pool) (cause : Nat) : Bool :=
  match p with
  | .lattice => decide (7 ≤ cause) && decide (cause ≤ 9)
  | .code => decide (6 ≤ cause) && decide (cause ≤ 8)
  | _ => decide (9 ≤ cause) && decide (cause ≤ 12)

/-- ENGINE_FAULT. (DEDUCED, log entry 42) -/
def execEngineFault (pool : Pool) (unit lane cause : Nat) (s : State) : Host.Outcome State Fault Refusal :=
  let st := s.rd (unitState pool unit)
  if unitOk pool unit && decide (lane < 4) && serviceCause pool cause && st != 0 && st != 5 then
    .next (s.faultUnit pool unit lane cause).pump
  else s.noEvent

/-- UNIT_CLEAR_DONE: a unit is free, or, fenced, its window opens; one that is late is fenced, its window stays closed (R328, R354). (DEDUCED, log entry 41) -/
def execUnitClearDone (pool : Pool) (unit : Nat) (inTime : Bool) (s : State) : Host.Outcome State Fault Refusal :=
  let k := unitKey pool unit
  let a := tblGet 0 s.eng.afterClear k
  if !unitOk pool unit || a == 0 || a == 100 then s.noEvent
  else
    let fenced := decide (s.rd (unitState pool unit) = 5)
    let set := fun (s : State) v => ({ s with eng := { s.eng with afterClear := tblPut 0 s.eng.afterClear k v } } : State)
    if inTime then
      let s := set s 0
      .next ((if fenced then s else s.wr (unitState pool unit) (if a = 7 ∧ pool ≠ .hash then 2 else 1)).pump)
    else if fenced then .next (set s 100)
    else .next ((set (s.faultUnit pool unit 0 (clearCause pool)) 100).pump)

end Sys2Proof.Machine
end

