-- ==== Sys2Proof/Machine/Dispatch.lean ====
section
/-! DEFINITION. The dispatch table: one arm for each command, each a direct call of its meaning. -/

namespace Sys2Proof.Machine

/-- The effect of a command on everything but the queue. -/
def exec (i : Instr) (s : State) : Host.Outcome State Fault Refusal :=
  match i with
  | .porNFall => Sys2Proof.Machine.execPorNFall s
  | .porNRise => Sys2Proof.Machine.execPorNRise s
  | .pwrgdRise => Sys2Proof.Machine.execPwrgdRise s
  | .pwrgdFall => Sys2Proof.Machine.execPwrgdFall s
  | .wrstNPulse => Sys2Proof.Machine.execWrstNPulse s
  | .perstNAssert port => Sys2Proof.Machine.execPerstNAssert port s
  | .perstNRise port => Sys2Proof.Machine.execPerstNRise port s
  | .imageCopyReadDone img => Sys2Proof.Machine.execImageCopyReadDone img s
  | .bootKatDone failedUnits failedPairs => Sys2Proof.Machine.execBootKatDone failedUnits failedPairs s
  | .readyRise => Sys2Proof.Machine.execReadyRise s
  | .readyTimeout => Sys2Proof.Machine.execReadyTimeout s
  | .entropyStartTimeout => Sys2Proof.Machine.execEntropyStartTimeout s
  | .bootReset who complement => Sys2Proof.Machine.execBootReset who complement s
  | .fwReadyWrite who value => Sys2Proof.Machine.execFwReadyWrite who value s
  | .bootPtGo who value => Sys2Proof.Machine.execBootPtGo who value s
  | .ptCommandDone result data => Sys2Proof.Machine.execPtCommandDone result data s
  | .registerWrite who addr value enables => Sys2Proof.Machine.execRegisterWrite who addr value enables s
  | .evtClearWrite who off value => Sys2Proof.Machine.execEvtClearWrite who off value s
  | .bitAliasWrite who off bit value => Sys2Proof.Machine.execBitAliasWrite who off bit value s
  | .guardValueWrite who off value => Sys2Proof.Machine.execGuardValueWrite who off value s
  | .guardTimeout off => Sys2Proof.Machine.execGuardTimeout off s
  | .wideSelWrite who value => Sys2Proof.Machine.execWideSelWrite who value s
  | .wideSnapshotDone bank => Sys2Proof.Machine.execWideSnapshotDone bank s
  | .pwrDomReqWrite who value => Sys2Proof.Machine.execPwrDomReqWrite who value s
  | .domainClaimsZero domain => Sys2Proof.Machine.execDomainClaimsZero domain s
  | .domainTransitionDone domain => Sys2Proof.Machine.execDomainTransitionDone domain s
  | .idleBaskTimeout domain => Sys2Proof.Machine.execIdleBaskTimeout domain s
  | .baskingWake domain => Sys2Proof.Machine.execBaskingWake domain s
  | .domainSupplyLost rail => Sys2Proof.Machine.execDomainSupplyLost rail s
  | .domainSupplyReturned rail => Sys2Proof.Machine.execDomainSupplyReturned rail s
  | .devicePowerFail vbat => Sys2Proof.Machine.execDevicePowerFail vbat s
  | .powerManagerTick total temp measured => Sys2Proof.Machine.execPowerManagerTick total temp measured s
  | .capLimitStep => Sys2Proof.Machine.execCapLimitStep s
  | .pwrCapWrite who complement => Sys2Proof.Machine.execPwrCapWrite who complement s
  | .rateWindowEnd rate => Sys2Proof.Machine.execRateWindowEnd rate s
  | .avsAlert statusWord => Sys2Proof.Machine.execAvsAlert statusWord s
  | .avsTimeout => Sys2Proof.Machine.execAvsTimeout s
  | .configRequest fn off write => Sys2Proof.Machine.execConfigRequest fn off write s
  | .vfEnableSet port numVfs => Sys2Proof.Machine.execVfEnableSet port numVfs s
  | .vfEnableClear port => Sys2Proof.Machine.execVfEnableClear port s
  | .vfFlr port vf => Sys2Proof.Machine.execVfFlr port vf s
  | .pfFlr port => Sys2Proof.Machine.execPfFlr port s
  | .functionResetDone fn => Sys2Proof.Machine.execFunctionResetDone fn s
  | .pfD3hotEntry port => Sys2Proof.Machine.execPfD3hotEntry port s
  | .pfD0Return port => Sys2Proof.Machine.execPfD0Return port s
  | .dlDown port => Sys2Proof.Machine.execDlDown port s
  | .dlUp port speed width reversed => Sys2Proof.Machine.execDlUp port speed width reversed s
  | .l1Exit port => Sys2Proof.Machine.execL1Exit port s
  | .msixUnmask fn vector => Sys2Proof.Machine.execMsixUnmask fn vector s
  | .eventSourceAssert source => Sys2Proof.Machine.execEventSourceAssert source s
  | .sqTailDoorbell fn qp value => Sys2Proof.Machine.execSqTailDoorbell fn qp value s
  | .cqHeadDoorbell fn qp value => Sys2Proof.Machine.execCqHeadDoorbell fn qp value s
  | .qzEnable fn qp => Sys2Proof.Machine.execQzEnable fn qp s
  | .qzDisable fn qp => Sys2Proof.Machine.execQzDisable fn qp s
  | .sqEntryFetchDone fn qp entry => Sys2Proof.Machine.execSqEntryFetchDone fn qp entry s
  | .sgSegmentArrived cmd seg => Sys2Proof.Machine.execSgSegmentArrived cmd seg s
  | .objectBodyArrived cmd events => Sys2Proof.Machine.execObjectBodyArrived cmd events s
  | .unitGrant pool unit => Sys2Proof.Machine.execUnitGrant pool unit s
  | .inputFetchDone cmd data => Sys2Proof.Machine.execInputFetchDone cmd data s
  | .engineDone cmd => Sys2Proof.Machine.execEngineDone cmd s
  | .coalTimeExpiry fn qp => Sys2Proof.Machine.execCoalTimeExpiry fn qp s
  | .hello fn qp entry host => Sys2Proof.Machine.execHello fn qp entry host s
  | .getInfo fn qp entry host => Sys2Proof.Machine.execGetInfo fn qp entry host s
  | .abortCommand fn qp entry host => Sys2Proof.Machine.execAbortCommand fn qp entry host s
  | .abortContext fn qp entry host => Sys2Proof.Machine.execAbortContext fn qp entry host s
  | .queueCreate fn qp entry host => Sys2Proof.Machine.execQueueCreate fn qp entry host s
  | .queueDelete fn qp entry host => Sys2Proof.Machine.execQueueDelete fn qp entry host s
  | .ctxExport fn qp entry host => Sys2Proof.Machine.execCtxExport fn qp entry host s
  | .ctxImport fn qp entry host => Sys2Proof.Machine.execCtxImport fn qp entry host s
  | .keyGenerate fn qp entry host => Sys2Proof.Machine.execKeyGenerate fn qp entry host s
  | .keyImportWrapped fn qp entry host => Sys2Proof.Machine.execKeyImportWrapped fn qp entry host s
  | .keyExportWrapped fn qp entry host => Sys2Proof.Machine.execKeyExportWrapped fn qp entry host s
  | .keyDestroy fn qp entry host => Sys2Proof.Machine.execKeyDestroy fn qp entry host s
  | .keyDerive fn qp entry host => Sys2Proof.Machine.execKeyDerive fn qp entry host s
  | .keyAttest fn qp entry host => Sys2Proof.Machine.execKeyAttest fn qp entry host s
  | .kemEncaps fn qp entry host => Sys2Proof.Machine.execKemEncaps fn qp entry host s
  | .kemDecaps fn qp entry host => Sys2Proof.Machine.execKemDecaps fn qp entry host s
  | .keyAgree fn qp entry host => Sys2Proof.Machine.execKeyAgree fn qp entry host s
  | .sign fn qp entry host => Sys2Proof.Machine.execSign fn qp entry host s
  | .verify fn qp entry host => Sys2Proof.Machine.execVerify fn qp entry host s
  | .hashInit fn qp entry host => Sys2Proof.Machine.execHashInit fn qp entry host s
  | .hashUpdate fn qp entry host => Sys2Proof.Machine.execHashUpdate fn qp entry host s
  | .hashFinal fn qp entry host => Sys2Proof.Machine.execHashFinal fn qp entry host s
  | .hashVerify fn qp entry host => Sys2Proof.Machine.execHashVerify fn qp entry host s
  | .macInit fn qp entry host => Sys2Proof.Machine.execMacInit fn qp entry host s
  | .macUpdate fn qp entry host => Sys2Proof.Machine.execMacUpdate fn qp entry host s
  | .macFinal fn qp entry host => Sys2Proof.Machine.execMacFinal fn qp entry host s
  | .macVerify fn qp entry host => Sys2Proof.Machine.execMacVerify fn qp entry host s
  | .cipher fn qp entry host => Sys2Proof.Machine.execCipher fn qp entry host s
  | .aeadInit fn qp entry host => Sys2Proof.Machine.execAeadInit fn qp entry host s
  | .aeadUpdate fn qp entry host => Sys2Proof.Machine.execAeadUpdate fn qp entry host s
  | .aeadFinal fn qp entry host => Sys2Proof.Machine.execAeadFinal fn qp entry host s
  | .random fn qp entry host => Sys2Proof.Machine.execRandom fn qp entry host s
  | .ownerLoad fn qp entry host => Sys2Proof.Machine.execOwnerLoad fn qp entry host s
  | .ownerCreate fn qp entry host => Sys2Proof.Machine.execOwnerCreate fn qp entry host s
  | .ownerRedefine fn qp entry host => Sys2Proof.Machine.execOwnerRedefine fn qp entry host s
  | .ownerDestroy fn qp entry host => Sys2Proof.Machine.execOwnerDestroy fn qp entry host s
  | .ownerReissue fn qp entry host => Sys2Proof.Machine.execOwnerReissue fn qp entry host s
  | .quorumChallenge fn qp entry host => Sys2Proof.Machine.execQuorumChallenge fn qp entry host s
  | .quorumApprove fn qp entry host => Sys2Proof.Machine.execQuorumApprove fn qp entry host s
  | .migrationLogStart fn qp entry host => Sys2Proof.Machine.execMigrationLogStart fn qp entry host s
  | .migrationLogStop fn qp entry host => Sys2Proof.Machine.execMigrationLogStop fn qp entry host s
  | .vfCreate fn qp entry host => Sys2Proof.Machine.execVfCreate fn qp entry host s
  | .vfDestroy fn qp entry host => Sys2Proof.Machine.execVfDestroy fn qp entry host s
  | .approvalWindowExpiry id => Sys2Proof.Machine.execApprovalWindowExpiry id s
  | .controlHandover cmd => Sys2Proof.Machine.execControlHandover cmd s
  | .dspCqEnable who queue => Sys2Proof.Machine.execDspCqEnable who queue s
  | .dspCqDisable who queue => Sys2Proof.Machine.execDspCqDisable who queue s
  | .dspCqRtailWrite who queue value => Sys2Proof.Machine.execDspCqRtailWrite who queue value s
  | .add r d a b => Sys2Proof.Machine.execAdd r d a b s
  | .sub r d a b => Sys2Proof.Machine.execSub r d a b s
  | .and r d a b => Sys2Proof.Machine.execAnd r d a b s
  | .or r d a b => Sys2Proof.Machine.execOr r d a b s
  | .xor r d a b => Sys2Proof.Machine.execXor r d a b s
  | .andn r d a b => Sys2Proof.Machine.execAndn r d a b s
  | .sll r d a b => Sys2Proof.Machine.execSll r d a b s
  | .srl r d a b => Sys2Proof.Machine.execSrl r d a b s
  | .sra r d a b => Sys2Proof.Machine.execSra r d a b s
  | .slt r d a b => Sys2Proof.Machine.execSlt r d a b s
  | .sltu r d a b => Sys2Proof.Machine.execSltu r d a b s
  | .mul r d a b => Sys2Proof.Machine.execMul r d a b s
  | .mulh r d a b => Sys2Proof.Machine.execMulh r d a b s
  | .mulhu r d a b => Sys2Proof.Machine.execMulhu r d a b s
  | .div r d a b => Sys2Proof.Machine.execDiv r d a b s
  | .divu r d a b => Sys2Proof.Machine.execDivu r d a b s
  | .rem r d a b => Sys2Proof.Machine.execRem r d a b s
  | .remu r d a b => Sys2Proof.Machine.execRemu r d a b s
  | .addi r d a imm => Sys2Proof.Machine.execAddi r d a imm s
  | .andi r d a imm => Sys2Proof.Machine.execAndi r d a imm s
  | .ori r d a imm => Sys2Proof.Machine.execOri r d a imm s
  | .xori r d a imm => Sys2Proof.Machine.execXori r d a imm s
  | .slti r d a imm => Sys2Proof.Machine.execSlti r d a imm s
  | .sltiu r d a imm => Sys2Proof.Machine.execSltiu r d a imm s
  | .lui r d imm => Sys2Proof.Machine.execLui r d imm s
  | .shi r d a kind amount => Sys2Proof.Machine.execShi r d a kind amount s
  | .orhi r d a imm => Sys2Proof.Machine.execOrhi r d a imm s
  | .orti r d a imm => Sys2Proof.Machine.execOrti r d a imm s
  | .ld r d a imm => Sys2Proof.Machine.execLd r d a imm s
  | .lw r d a imm => Sys2Proof.Machine.execLw r d a imm s
  | .lwu r d a imm => Sys2Proof.Machine.execLwu r d a imm s
  | .lh r d a imm => Sys2Proof.Machine.execLh r d a imm s
  | .lhu r d a imm => Sys2Proof.Machine.execLhu r d a imm s
  | .lb r d a imm => Sys2Proof.Machine.execLb r d a imm s
  | .lbu r d a imm => Sys2Proof.Machine.execLbu r d a imm s
  | .sd r d a imm => Sys2Proof.Machine.execSd r d a imm s
  | .sw r d a imm => Sys2Proof.Machine.execSw r d a imm s
  | .sh r d a imm => Sys2Proof.Machine.execSh r d a imm s
  | .sb r d a imm => Sys2Proof.Machine.execSb r d a imm s
  | .lr r d a => Sys2Proof.Machine.execLr r d a s
  | .sc r d a b => Sys2Proof.Machine.execSc r d a b s
  | .amoSwap r d a b => Sys2Proof.Machine.execAmoSwap r d a b s
  | .amoAdd r d a b => Sys2Proof.Machine.execAmoAdd r d a b s
  | .amoAnd r d a b => Sys2Proof.Machine.execAmoAnd r d a b s
  | .amoOr r d a b => Sys2Proof.Machine.execAmoOr r d a b s
  | .amoXor r d a b => Sys2Proof.Machine.execAmoXor r d a b s
  | .amoMax r d a b => Sys2Proof.Machine.execAmoMax r d a b s
  | .amoMin r d a b => Sys2Proof.Machine.execAmoMin r d a b s
  | .amoMaxu r d a b => Sys2Proof.Machine.execAmoMaxu r d a b s
  | .amoMinu r d a b => Sys2Proof.Machine.execAmoMinu r d a b s
  | .beq r d a imm => Sys2Proof.Machine.execBeq r d a imm s
  | .bne r d a imm => Sys2Proof.Machine.execBne r d a imm s
  | .blt r d a imm => Sys2Proof.Machine.execBlt r d a imm s
  | .bge r d a imm => Sys2Proof.Machine.execBge r d a imm s
  | .bltu r d a imm => Sys2Proof.Machine.execBltu r d a imm s
  | .bgeu r d a imm => Sys2Proof.Machine.execBgeu r d a imm s
  | .jal r off => Sys2Proof.Machine.execJal r off s
  | .jalr r d a imm => Sys2Proof.Machine.execJalr r d a imm s
  | .srd r d sr => Sys2Proof.Machine.execSrd r d sr s
  | .swr r d sr => Sys2Proof.Machine.execSwr r d sr s
  | .kcall r imm => Sys2Proof.Machine.execKcall r imm s
  | .wcall r imm => Sys2Proof.Machine.execWcall r imm s
  | .kret r => Sys2Proof.Machine.execKret r s
  | .wret r => Sys2Proof.Machine.execWret r s
  | .fence r invalidate => Sys2Proof.Machine.execFence r invalidate s
  | .wfi r => Sys2Proof.Machine.execWfi r s
  | .brk r imm => Sys2Proof.Machine.execBrk r imm s
  | .cacheClean r a off => Sys2Proof.Machine.execCacheClean r a off s
  | .cacheCleanInvalidate r a off => Sys2Proof.Machine.execCacheCleanInvalidate r a off s
  | .cacheInvalidateIline r a off => Sys2Proof.Machine.execCacheInvalidateIline r a off s
  | .illegalInstruction r word => Sys2Proof.Machine.execIllegalInstruction r word s
  | .wfiWake pair => Sys2Proof.Machine.execWfiWake pair s
  | .externalInterrupt pair => Sys2Proof.Machine.execExternalInterrupt pair s
  | .timerInterrupt pair => Sys2Proof.Machine.execTimerInterrupt pair s
  | .storeErrorResponse pair => Sys2Proof.Machine.execStoreErrorResponse pair s
  | .ccsNstartWrite who value => Sys2Proof.Machine.execCcsNstartWrite who value s
  | .ccsNreset who complement => Sys2Proof.Machine.execCcsNreset who complement s
  | .nqRequest pair => Sys2Proof.Machine.execNqRequest pair s
  | .nqRelease pair => Sys2Proof.Machine.execNqRelease pair s
  | .monitorVersion pair => Sys2Proof.Machine.execMonitorVersion pair s
  | .wldNqBind who n value => Sys2Proof.Machine.execWldNqBind who n value s
  | .wldNqUnbind who n value => Sys2Proof.Machine.execWldNqUnbind who n value s
  | .mbxDataWrite who mbx word value => Sys2Proof.Machine.execMbxDataWrite who mbx word value s
  | .mbxSend who mbx value => Sys2Proof.Machine.execMbxSend who mbx value s
  | .mbxAck who mbx value => Sys2Proof.Machine.execMbxAck who mbx value s
  | .mbxWake who value => Sys2Proof.Machine.execMbxWake who value s
  | .actUpdateBegin who complement => Sys2Proof.Machine.execActUpdateBegin who complement s
  | .actUpdateEnd who complement => Sys2Proof.Machine.execActUpdateEnd who complement s
  | .actLock who complement => Sys2Proof.Machine.execActLock who complement s
  | .actHoldTimeout index => Sys2Proof.Machine.execActHoldTimeout index s
  | .debugAccess world target write => Sys2Proof.Machine.execDebugAccess world target write s
  | .debugHaltRequest pair => Sys2Proof.Machine.execDebugHaltRequest pair s
  | .debugStep pair => Sys2Proof.Machine.execDebugStep pair s
  | .debugEnableLeave pair => Sys2Proof.Machine.execDebugEnableLeave pair s
  | .ddrTrainingDone channel result => Sys2Proof.Machine.execDdrTrainingDone channel result s
  | .zeroFillBlock channel block => Sys2Proof.Machine.execZeroFillBlock channel block s
  | .fillDone channel => Sys2Proof.Machine.execFillDone channel s
  | .patrolScrubLine channel event => Sys2Proof.Machine.execPatrolScrubLine channel event s
  | .scrubPeriodEnd channel => Sys2Proof.Machine.execScrubPeriodEnd channel s
  | .ddrLineRead who off event => Sys2Proof.Machine.execDdrLineRead who off event s
  | .ddrPartialWrite who off data event => Sys2Proof.Machine.execDdrPartialWrite who off data event s
  | .ddrLockRelease off => Sys2Proof.Machine.execDdrLockRelease off s
  | .ddrAlert channel again accesses => Sys2Proof.Machine.execDdrAlert channel again accesses s
  | .moltPeriod bad late => Sys2Proof.Machine.execMoltPeriod bad late s
  | .deviceKeyRederived key => Sys2Proof.Machine.execDeviceKeyRederived key s
  | .entQuadrantJoined quadrant => Sys2Proof.Machine.execEntQuadrantJoined quadrant s
  | .entBalanceWindowEnd quadrant startup ones => Sys2Proof.Machine.execEntBalanceWindowEnd quadrant startup ones s
  | .entQuadrantFail quadrant cell fail => Sys2Proof.Machine.execEntQuadrantFail quadrant cell fail s
  | .entBlockRelease quadrant => Sys2Proof.Machine.execEntBlockRelease quadrant s
  | .entWordGrant => Sys2Proof.Machine.execEntWordGrant s
  | .entShareWindowEnd => Sys2Proof.Machine.execEntShareWindowEnd s
  | .entStarved => Sys2Proof.Machine.execEntStarved s
  | .entCaptureGo who value => Sys2Proof.Machine.execEntCaptureGo who value s
  | .entCaptureDone failed groups => Sys2Proof.Machine.execEntCaptureDone failed groups s
  | .selfTestRotation pool => Sys2Proof.Machine.execSelfTestRotation pool s
  | .selfTestEntry pool unit => Sys2Proof.Machine.execSelfTestEntry pool unit s
  | .selfTestRunDone pool unit failed => Sys2Proof.Machine.execSelfTestRunDone pool unit failed s
  | .engineFault pool unit lane cause => Sys2Proof.Machine.execEngineFault pool unit lane cause s
  | .regrowthDone tile failed => Sys2Proof.Machine.execRegrowthDone tile failed s
  | .unitClearDone pool unit inTime => Sys2Proof.Machine.execUnitClearDone pool unit inTime s
  | .alarmRaise source => Sys2Proof.Machine.execAlarmRaise source s
  | .zeroizationDone => Sys2Proof.Machine.execZeroizationDone s
  | .killWordProgrammed => Sys2Proof.Machine.execKillWordProgrammed s
  | .tamperLoopSample loop level => Sys2Proof.Machine.execTamperLoopSample loop level s
  | .xtalStop => Sys2Proof.Machine.execXtalStop s
  | .backupDomainReset => Sys2Proof.Machine.execBackupDomainReset s
  | .operatingHourTick => Sys2Proof.Machine.execOperatingHourTick s
  | .tmpFlagClr who complement => Sys2Proof.Machine.execTmpFlagClr who complement s
  | .tmpResume who complement => Sys2Proof.Machine.execTmpResume who complement s
  | .debugIntrusionLevel => Sys2Proof.Machine.execDebugIntrusionLevel s
  | .recordStore => Sys2Proof.Machine.execRecordStore s
  | .evrRdSelWrite who value => Sys2Proof.Machine.execEvrRdSelWrite who value s
  | .evrRdCopyDone bank => Sys2Proof.Machine.execEvrRdCopyDone bank s
  | .evrExpGo who value => Sys2Proof.Machine.execEvrExpGo who value s
  | .evrExpDone port dmaError => Sys2Proof.Machine.execEvrExpDone port dmaError s
  | .evrClear who complement => Sys2Proof.Machine.execEvrClear who complement s
  | .evrClearingDone => Sys2Proof.Machine.execEvrClearingDone s
  | .lcTargetWrite who complement => Sys2Proof.Machine.execLcTargetWrite who complement s
  | .lcReq dr => Sys2Proof.Machine.execLcReq dr s
  | .lcTransitionDone failed => Sys2Proof.Machine.execLcTransitionDone failed s
  | .lcRepair word failed => Sys2Proof.Machine.execLcRepair word failed s
  | .tapReset => Sys2Proof.Machine.execTapReset s
  | .extest dr => Sys2Proof.Machine.execExtest dr s
  | .samplePreload dr => Sys2Proof.Machine.execSamplePreload dr s
  | .idcode => Sys2Proof.Machine.execIdcode s
  | .lcStatus => Sys2Proof.Machine.execLcStatus s
  | .dbgAccess => Sys2Proof.Machine.execDbgAccess s
  | .testMode dr => Sys2Proof.Machine.execTestMode dr s
  | .bypass dr => Sys2Proof.Machine.execBypass dr s
  | .twinLinkTrained speed width => Sys2Proof.Machine.execTwinLinkTrained speed width s
  | .twinRetrainTimer trained => Sys2Proof.Machine.execTwinRetrainTimer trained s
  | .twinLinkDown => Sys2Proof.Machine.execTwinLinkDown s
  | .soadeHello hdr minMajor minMinor maxMajor maxMinor serial => Sys2Proof.Machine.execSoadeHello hdr minMajor minMinor maxMajor maxMinor serial s
  | .pairKem hdr x25519 kem => Sys2Proof.Machine.execPairKem hdr x25519 kem s
  | .pairAuth hdr idMldsa idP384 sigMldsa sigP384 => Sys2Proof.Machine.execPairAuth hdr idMldsa idP384 sigMldsa sigP384 s
  | .heartbeat hdr cseq => Sys2Proof.Machine.execHeartbeat hdr cseq s
  | .heartbeatSend => Sys2Proof.Machine.execHeartbeatSend s
  | .heartbeatMiss sidebandToggles => Sys2Proof.Machine.execHeartbeatMiss sidebandToggles s
  | .close hdr reason => Sys2Proof.Machine.execClose hdr reason s
  | .commit hdr rec => Sys2Proof.Machine.execCommit hdr rec s
  | .ack hdr status => Sys2Proof.Machine.execAck hdr status s
  | .resyncData hdr recs => Sys2Proof.Machine.execResyncData hdr recs s
  | .resyncEnd hdr count => Sys2Proof.Machine.execResyncEnd hdr count s
  | .journal hdr recs => Sys2Proof.Machine.execJournal hdr recs s
  | .keyReq hdr handle => Sys2Proof.Machine.execKeyReq hdr handle s
  | .keyResp hdr rec => Sys2Proof.Machine.execKeyResp hdr rec s
  | .twnPair who complement => Sys2Proof.Machine.execTwnPair who complement s
  | .ltsTestEnter who link => Sys2Proof.Machine.execLtsTestEnter who link s
  | .ltsTestExit who link => Sys2Proof.Machine.execLtsTestExit who link s
  | .ltsChkStart who link => Sys2Proof.Machine.execLtsChkStart who link s
  | .ltsEyeGo who value => Sys2Proof.Machine.execLtsEyeGo who value s
  | .ltsEyeDone result errors => Sys2Proof.Machine.execLtsEyeDone result errors s
  | .alarmConditionEnd source => Sys2Proof.Machine.execAlarmConditionEnd source s
  | .peerFaultInHigh => Sys2Proof.Machine.execPeerFaultInHigh s
  | .ltsCheckerAligned lane => Sys2Proof.Machine.execLtsCheckerAligned lane s
  | .ltsCheckerSyncLost lane => Sys2Proof.Machine.execLtsCheckerSyncLost lane s
  | .linkL1Entry port => Sys2Proof.Machine.execLinkL1Entry port s
  | .linkSpeedChange port speed width => Sys2Proof.Machine.execLinkSpeedChange port speed width s
  | .twPresentNChange high => Sys2Proof.Machine.execTwPresentNChange high s
  | .statusCommandPulseEnd => Sys2Proof.Machine.execStatusCommandPulseEnd s

end Sys2Proof.Machine
end

