-- ==== Sys2Proof/Machine/Tick.lean ====
section
/-! DEFINITION. One period of SYS_REFCLK in which no command arrives: the counters of time advance, what waits goes on. -/

namespace Sys2Proof.Machine

/-- TIME and the powered time since the last full hour (R197, R458). (DESIGN CHOICE, log entry 1) -/
def State.tickTime (s : State) : State :=
  if s.pins.porN then
    { s with time := s.time + 1, tmp := { s.tmp with subHour := if s.pins.pwrgd then s.tmp.subHour + 1 else s.tmp.subHour } }
  else s

/-- TMP_TIME counts the 32,768 Hz crystal while it oscillates (R458). (DESIGN CHOICE, log entry 1) -/
def State.tickXtal (s : State) : State :=
  if s.flag R.TMP_BKP_STATUS_XTAL_STOP then s
  else
    let a := s.tmp.xtalAcc + 32768
    let s' : State := { s with tmp := { s.tmp with xtalAcc := a % 100000000 } }
    if 100000000 ≤ a then s'.wrapAdd R.TMP_TIME_TICKS 1 else s'

/-- The time-based counter events of a pair: waiting for memory, or busy (Table 8-10). (DESIGN CHOICE, log entry 1) -/
def State.tickPair (s : State) (p : Nat) : State :=
  if (s.core p).run = .running then
    let s' := if s.waitsAtTable p then s.pmuCount p 10 else s
    s'.pmuCount p 9
  else s

/-- One period of SYS_REFCLK. (DESIGN CHOICE, log entry 1) -/
def State.tick (s : State) : State :=
  (([2, 3].foldl State.tickPair s.tickTime.tickXtal).countBitErrors).pump

end Sys2Proof.Machine
end

