-- ==== Sys2Proof/Machine/Step.lean ====
section
/-! DEFINITION. One step: the command at the front of the queue, or one SYS_REFCLK period on an empty queue. -/

namespace Sys2Proof.Machine

/-- A step takes the command at the front of the queue; on an empty queue one period of SYS_REFCLK passes. (DESIGN CHOICE, log entries 1 and 7 and 58 and 63) -/
def step (s : State) : Host.Outcome State Fault Refusal :=
  match s.pending with
  | [] => .next s.tick
  | c :: rest => exec c { s with pending := rest }

/-- `s` with the command that the word spells at the front of its queue; `s` itself where the word spells none. (DESIGN CHOICE, log entry 7) -/
def State.withFetchWord (s : State) (nbits w : Nat) : State :=
  match decodeTableWord nbits w with
  | some c => { s with pending := c :: s.pending }
  | none => s

end Sys2Proof.Machine
end

