-- ==== Sys2Proof/Safety.lean ====
section
/-! DEFINITION. What counts as a sound state, and the terms the claims use: what a command leaves unchanged, where a write or an instruction meets no obstacle. -/

namespace Sys2Proof.Machine

/-! The invariant. -/

/-- Memory is in canonical form: addresses rising, no entry holding the zero that an unlisted address reads as. (DESIGN CHOICE, log entry 4) -/
def Memory.wf (m : Tbl Byte) : Bool := tblWf 0 m

/-- The register file is in canonical form: every field is listed at most once. (DESIGN CHOICE, log entry 4) -/
def Regs.wf (t : Tbl Nat) : Bool := tblSorted t

/-- The invariant of every step: memory and the register file stay in canonical form. -/
def State.canon (s : State) : Bool := Memory.wf s.mem && Regs.wf s.regs

/-! Frames. -/

/-- Every register field keeps its value, apart from those of `l`. -/
def State.keepsRegs (s t : State) (l : List Fld) : Prop := ∀ f : Fld, f.key ∉ l.map Fld.key → t.rd f = s.rd f

/-- Nothing but the register fields of `l` differs: memory, cores, queues and every other part of the state are as before. -/
def State.onlyRegs (s t : State) (l : List Fld) : Prop := { t with regs := s.regs } = s ∧ s.keepsRegs t l

/-- Nothing but the register fields of `l` and the event deliveries to come differs. -/
def State.onlyEvents (s t : State) (l : List Fld) : Prop := { t with regs := s.regs, edges := s.edges } = s ∧ s.keepsRegs t l

/-- Every byte of internal memory outside `len` bytes from `a` reads as before. -/
def State.keepsBytes (s t : State) (a len : Nat) : Prop := ∀ x, (x < a ∨ a + len ≤ x) → t.byte x = s.byte x

/-- An event bit was set: its field has the bit, SEQ of its register has advanced. -/
def State.sawEvent (s t : State) (f : Fld) (bit : Nat) : Prop :=
  t.rd f = bitSet (s.rd f) bit % 2 ^ f.width ∧ t.rd f.seq = (s.rd f.seq + 1) % 65536

/-- No command is in flight and no alarm waits to be decided. -/
def State.calm (s : State) : Prop := s.dsp.inflight = [] ∧ s.tmp.due = []

/-! Writes to registers. -/

/-- A write of `who` to the register at `off` meets no obstacle: it reaches the device over a link that is not in L1, the table is not being updated for it, it breaks no guarded sequence of the writer, the writer may write the register, and its block answers and is not BASKING. -/
def State.passes (s : State) (who : Requester) (off : Nat) : Bool :=
  s.reaches who && !s.inL1 who && !s.tableHolds who && ((wordDomain off).all fun d => s.rd (domState d) != 1) && (s.bus.guards.all fun g => !sameSource g.who who || off == g.off + 4) && off % 4 == 0 &&
    (s.regRefusal who true off).isNone && s.blockAnswers off

/-- The complement of a guarded write of `who` at `off` meets no obstacle, and the value that waits there is `v`. -/
def State.passesGuarded (s : State) (who : Requester) (off : Nat) (complement : Word32) (v : Nat) : Prop :=
  s.passes who (off + 4) = true ∧ complement.toNat + v = 2 ^ 32 - 1 ∧
    ((s.bus.guards.find? fun g => g.off == off && sameSource g.who who).map GuardPend.val) = some v

/-! System registers. -/

/-- A number that Table 8-6 lists. -/
def sysListed (n : Nat) : Prop :=
  n ∈ [0x000, 0x001, 0x420, 0x430, 0x810, 0x811] ∨ (0x010 ≤ n ∧ n ≤ 0x013) ∨ (0x400 ≤ n ∧ n ≤ 0x406) ∨ (0x410 ≤ n ∧ n ≤ 0x41F) ∨
    (0x431 ≤ n ∧ n ≤ 0x434) ∨ (0x800 ≤ n ∧ n ≤ 0x805)

/-- A number that Table 8-6 marks RO. -/
def sysReadOnly (n : Nat) : Prop := n ∈ [0x000, 0x001, 0x402, 0x403, 0x420, 0x802, 0x803, 0x811] ∨ (0x418 ≤ n ∧ n ≤ 0x41F)

/-- PMC0 to PMC3: RO at U, and readable there only while PMU_CTL.UREAD = 1. -/
def sysCounter (n : Nat) : Prop := 0x010 ≤ n ∧ n ≤ 0x013

/-! Starts. -/

/-- Nothing raises an alarm as the device starts: the backup domain is valid, no condition and no latched flag is held, no test ball is high. -/
def State.quiet (s : State) : Prop :=
  s.tmp.marker = true ∧ s.rd R.TMP_COND_SRC = 0 ∧ s.rd R.TMP_FLAGS_SRC = 0 ∧ s.pins.testHigh = false

/-- The start has come to its wait for entropy, or to the recovery state where the life-cycle state that OTP holds has no operation. -/
def State.started (s t : State) : Prop :=
  let c := (lcDecode s.lc).1
  (c = 20 → t.rd R.BOOT_STATUS_STAGE = 8 ∧ t.rd R.BOOT_STATUS_RECOVERY_CAUSE = 3 ∧ t.rd R.GLB_STATUS_RECOVERY = 1) ∧
    (c ≠ 20 → t.boot.alive = true ∧ t.boot.startTime = t.time ∧ t.rd R.LC_STATE_STATE = c ∧ (∀ q, q < 4 → t.rd (R.ENT_QSTAT_STATE.ix q) = 1)) ∧
    (c = 0 ∨ c = 19 → t.rd R.BOOT_STATUS_STAGE = 8 ∧ t.rd R.BOOT_STATUS_RECOVERY_CAUSE = 3 ∧ t.rd R.GLB_STATUS_RECOVERY = 1) ∧
    (c ≠ 0 → c ≠ 19 → c ≠ 20 → t.rd R.BOOT_STATUS_STAGE = 2 ∧ t.boot.snoopTile = t.snoop ∧ ∀ k, t.snoop = some k → t.rd (R.HSH_TILE_STATE.ix k) = 7)

/-! Commands of the Evolin protocol. -/

/-- Nothing holds a command back at its stage: no earlier command, no access of its own at the table. -/
def State.goesOn (s : State) (c : Cmd) : Bool := !s.helloWaits c && (if s.flag R.ACT_CTRL_UPDATE then s.nextAccess c else none).isNone

/-- A command goes through its stages to step 8: the command as it stands there and the state, or nothing where a stage fails or waits. -/
def State.toEngine (s : State) (id : Nat) : Nat → Option (Cmd × State)
  | 0 => none
  | n + 1 =>
    match s.cmd id with
    | none => none
    | some c =>
      if c.stage = .engine ∧ c.preHash = false ∧ s.goesOn c = true then some (c, s)
      else match s.stageStep c with
        | (s', true) => s'.toEngine id n
        | (_, false) => none

/-- The command that a row of one opcode makes of an entry, with what the host's memory holds for it. -/
def State.rowCmd (s : State) (fn : Fn) (q : Nat) (e : List Byte) (h : HostData) : Cmd :=
  { s.newCmd fn q e with
    inSegs := h.inSegs, outSegs := h.outSegs, data := (match fn with | .nw => none | _ => some h.input),
    bodyOk := some h.bodyEvents, whole := true }

/-- An entry may be fetched, and its command passes steps 1 to 7 of R24: the command at step 8, and the state it is carried out in. -/
def State.arrives (s : State) (fn : Fn) (q : Nat) (e : List Byte) (h : HostData) : Option (Cmd × State) :=
  let s1 := s.takeEntry fn q
  let s2 : State := { s1 with dsp := { s1.dsp with inflight := s1.dsp.inflight ++ [s.rowCmd fn q e h] } }
  if s.mayFetch fn q && e.length == 64 && s.fetchedEntry fn q e == e then
    (s2.toEngine s.dsp.nextId (stages - 2)).filter fun x =>
      x.1.entry == e && x.1.fn == fn && x.1.qp == q && x.1.id == s.dsp.nextId && x.1.whole
  else none

/-! Frames of the Soade link. -/

/-- A frame arrives in order over a link that is up, with a good LCRC and a good tag. -/
def State.inOrder (s : State) (h : FrameHdr) : Prop := s.twn.linkUp = true ∧ h.lcrcOk = true ∧ h.tagOk = true ∧ h.seq = s.twn.recvSeq ∧ h.nak = false

/-- The state in which the payload of such a frame is taken: its acknowledgement is noted, the next frame is expected. -/
def State.received (s : State) (h : FrameHdr) : State :=
  let x := s.takeAck h
  { x with twn := { x.twn with recvSeq := x.twn.recvSeq + 1 } }

/-! Instructions of a core pair. -/

/-- A pair executes the instruction of a run: it runs, its domain is ON, no store error and no interrupt is taken at the boundary before it, its fetch arrives, the compare stage finds no difference, and no alarm waits to be decided. -/
def State.runs (s : State) (r : Run) : Prop :=
  s.executes r.pair.val = true ∧ (s.boundaryTakes r.pair.val).isNone ∧ s.fetchHeld r.pair.val = false ∧ r.mismatch = 0 ∧ (s.fetchAt r.pair.val).1 = true ∧
    (s.fetchAt r.pair.val).2.tmp.due = []

/-- No line of DDR5 is locked: no access of another requester waits to be served ahead of a pair's own. -/
def State.linesFree (s : State) : Prop := (s.chan 0).locks = [] ∧ (s.chan 1).locks = []

/-- A pair has no guarded sequence of its own open, so that a store of it breaks none (R112). -/
def State.noSequence (s : State) (p : Nat) : Bool := s.bus.guards.all fun g => !sameSource g.who (s.reqOf p)

/-- The state once the instruction has been fetched. -/
def State.atInstr (s : State) (r : Run) : State := (s.fetchAt r.pair.val).2

/-- The state of a pair apart from its general registers and PC, its counters, and what the debug port changes. -/
def Core.rest (c : Core) : Core :=
  { c with g := [], pc := 0, pmc := [], run := .running, haltWorld := none, haltReq := false, stepping := false }

/-- Pair `p` has retired an instruction that writes `v` to the registers of `d` (g31 discards it) and goes on at `pc`; nothing else of the device differs. -/
def State.retires (s t : State) (p : Nat) (d : List Reg) (v pc : Word64) : Prop :=
  (∀ a : Reg, t.gr p a = if a ∈ d ∧ a ≠ 31 then v else s.gr p a) ∧ (t.core p).pc = pc ∧
    (t.core p).rest = (s.core p).rest ∧ (∀ q, q ≠ p → t.core q = s.core q) ∧ { t with cores := s.cores } = s

/-- Pair `p` has taken a synchronous exception: at M if it was raised in M, else at K with the vector of the level left; general registers and memory are as before. -/
def State.tookTrap (s t : State) (p code imm : Nat) (epc eaddr : Word64) : Prop :=
  let c := s.core p
  let d := t.core p
  (∀ a : Reg, t.gr p a = s.gr p a) ∧ d.resv = none ∧ (∀ q, q ≠ p → t.core q = s.core q) ∧ { t with cores := s.cores } = s ∧
    (c.level = .m → d.level = .m ∧ d.mplev = .m ∧ d.mepc = epc ∧ d.mcause = causeWord code imm ∧ d.meaddr = eaddr ∧ d.pc = mvec c) ∧
    (c.level ≠ .m → d.level = .k ∧ d.plev = c.level ∧ d.pie = c.ie ∧ d.ie = false ∧ d.kepc = epc ∧ d.kcause = causeWord code imm ∧
      d.keaddr = eaddr ∧ d.pc = c.kxbase + (if c.level = .k then 0x80 else 0))

/-- The data cache of a pair holds the line of an address of cacheable memory, and the pair's world can hit it. -/
def State.hits (s : State) (p a : Nat) : Bool :=
  (match memType a with | .cached _ => true | _ => false) && (cacheHit (s.core p).dcache (s.worldOfPair p) a).isSome

end Sys2Proof.Machine
end

