-- ==== Sys2Proof/Certificates/Slice0/Obligations.lean ====
section
/-! DEFINITION. The statements for the provers. -/

open Sys2Proof Sys2Proof.Machine

/-- A step takes the command at the front of the queue and answers what the command does to the state without it. -/
def Obligations.StepRunsFront : Prop :=
  ∀ (c : Instr) (s : State), step { s with pending := c :: s.pending } = exec c s

/-! Chapter 08: the instructions of a core pair. -/

/-- Fetching an instruction changes no general register, no PC and no level, and, with no line of DDR5 locked, no byte of memory. -/
def Obligations.FetchKeepsProgram : Prop :=
  ∀ (s : State) (p : Fin 4), let t := (s.fetchAt p.val).2
    (∀ a : Reg, t.gr p.val a = s.gr p.val a) ∧ (t.core p.val).pc = (s.core p.val).pc ∧ (t.core p.val).level = (s.core p.val).level ∧
      (s.linesFree → ∀ x, t.byte x = s.byte x)

/-- Table 8-2, OP 0x00: each register instruction but the divisions retires with its result in D, and changes nothing else. -/
def Obligations.RegisterArithmetic : Prop :=
  ∀ (r : Run) (d a b : Reg) (s : State), s.runs r →
    let p := r.pair.val
    let s1 := s.atInstr r
    let x := s1.gr p a
    let y := s1.gr p b
    let next := (s1.core p).pc + 4
    (∃ t, exec (.add r d a b) s = .next t ∧ s1.retires t p [d] (x + y) next) ∧
    (∃ t, exec (.sub r d a b) s = .next t ∧ s1.retires t p [d] (x - y) next) ∧
    (∃ t, exec (.and r d a b) s = .next t ∧ s1.retires t p [d] (x &&& y) next) ∧
    (∃ t, exec (.or r d a b) s = .next t ∧ s1.retires t p [d] (x ||| y) next) ∧
    (∃ t, exec (.xor r d a b) s = .next t ∧ s1.retires t p [d] (x ^^^ y) next) ∧
    (∃ t, exec (.andn r d a b) s = .next t ∧ s1.retires t p [d] (x &&& ~~~y) next) ∧
    (∃ t, exec (.sll r d a b) s = .next t ∧ s1.retires t p [d] (x <<< (y.toNat % 64)) next) ∧
    (∃ t, exec (.srl r d a b) s = .next t ∧ s1.retires t p [d] (x >>> (y.toNat % 64)) next) ∧
    (∃ t, exec (.sra r d a b) s = .next t ∧ s1.retires t p [d] (x.sshiftRight (y.toNat % 64)) next) ∧
    (∃ t, exec (.slt r d a b) s = .next t ∧ s1.retires t p [d] (if x.toInt < y.toInt then 1 else 0) next) ∧
    (∃ t, exec (.sltu r d a b) s = .next t ∧ s1.retires t p [d] (if x.toNat < y.toNat then 1 else 0) next) ∧
    (∃ t, exec (.mul r d a b) s = .next t ∧ s1.retires t p [d] (BitVec.ofNat 64 (x.toNat * y.toNat)) next) ∧
    (∃ t, exec (.mulh r d a b) s = .next t ∧ s1.retires t p [d] (BitVec.ofInt 64 (x.toInt * y.toInt / 2 ^ 64)) next) ∧
    (∃ t, exec (.mulhu r d a b) s = .next t ∧ s1.retires t p [d] (BitVec.ofNat 64 (x.toNat * y.toNat / 2 ^ 64)) next)

/-- Table 8-2, the immediate forms: each retires with its result in D; D, or A for the forms that name it, may be g31. -/
def Obligations.ImmediateArithmetic : Prop :=
  ∀ (r : Run) (d a : Reg) (imm : BitVec 16) (n : BitVec 6) (s : State), s.runs r →
    let p := r.pair.val
    let s1 := s.atInstr r
    let x := s1.gr p a
    let se := imm.signExtend 64
    let ze := imm.zeroExtend 64
    let next := (s1.core p).pc + 4
    (∃ t, exec (.addi r d a imm) s = .next t ∧ s1.retires t p [d] (x + se) next) ∧
    (∃ t, exec (.andi r d a imm) s = .next t ∧ s1.retires t p [d] (x &&& ze) next) ∧
    (∃ t, exec (.ori r d a imm) s = .next t ∧ s1.retires t p [d] (x ||| ze) next) ∧
    (∃ t, exec (.xori r d a imm) s = .next t ∧ s1.retires t p [d] (x ^^^ ze) next) ∧
    (∃ t, exec (.slti r d a imm) s = .next t ∧ s1.retires t p [d] (if x.toInt < imm.toInt then 1 else 0) next) ∧
    (∃ t, exec (.sltiu r d a imm) s = .next t ∧ s1.retires t p [d] (if x.toNat < se.toNat then 1 else 0) next) ∧
    (∃ t, exec (.lui r d imm) s = .next t ∧ s1.retires t p [d] (se <<< 16) next) ∧
    (∃ t, exec (.orhi r d a imm) s = .next t ∧ s1.retires t p [d] (x ||| ze <<< 32) next) ∧
    (∃ t, exec (.orti r d a imm) s = .next t ∧ s1.retires t p [d] (x ||| ze <<< 48) next) ∧
    (∃ t, exec (.shi r d a .sll n) s = .next t ∧ s1.retires t p [d] (x <<< n.toNat) next) ∧
    (∃ t, exec (.shi r d a .srl n) s = .next t ∧ s1.retires t p [d] (x >>> n.toNat) next) ∧
    (∃ t, exec (.shi r d a .sra n) s = .next t ∧ s1.retires t p [d] (x.sshiftRight n.toNat) next)

/-- Table 8-2: a division retires unless its divisor is zero or, signed, the quotient does not fit; then it takes the arithmetic exception, CODE 7, with D unchanged. -/
def Obligations.Division : Prop :=
  ∀ (r : Run) (d a b : Reg) (s : State), s.runs r →
    let p := r.pair.val
    let s1 := s.atInstr r
    let x := s1.gr p a
    let y := s1.gr p b
    let pc := (s1.core p).pc
    let fits := y ≠ 0 ∧ ¬(x = BitVec.ofNat 64 (2 ^ 63) ∧ y = BitVec.allOnes 64)
    (y ≠ 0 →
      (∃ t, exec (.divu r d a b) s = .next t ∧ s1.retires t p [d] (BitVec.ofNat 64 (x.toNat / y.toNat)) (pc + 4)) ∧
      (∃ t, exec (.remu r d a b) s = .next t ∧ s1.retires t p [d] (BitVec.ofNat 64 (x.toNat % y.toNat)) (pc + 4))) ∧
    (y = 0 →
      (∃ t, exec (.divu r d a b) s = .next t ∧ s1.tookTrap t p 7 0 pc 0) ∧ (∃ t, exec (.remu r d a b) s = .next t ∧ s1.tookTrap t p 7 0 pc 0)) ∧
    (fits →
      (∃ t, exec (.div r d a b) s = .next t ∧ s1.retires t p [d] (BitVec.ofInt 64 (x.toInt.tdiv y.toInt)) (pc + 4)) ∧
      (∃ t, exec (.rem r d a b) s = .next t ∧ s1.retires t p [d] (BitVec.ofInt 64 (x.toInt.tmod y.toInt)) (pc + 4))) ∧
    (¬fits →
      (∃ t, exec (.div r d a b) s = .next t ∧ s1.tookTrap t p 7 0 pc 0) ∧ (∃ t, exec (.rem r d a b) s = .next t ∧ s1.tookTrap t p 7 0 pc 0))

/-- Table 8-2: a load that hits the pair's data cache retires with the little-endian bytes of its address, extended as it names; nothing in memory changes. A load from any kind of memory, a device register among them, retires with the bytes that its access obtains, and changes nothing beyond what that access did. -/
def Obligations.Loads : Prop :=
  (∀ (r : Run) (d a : Reg) (imm : BitVec 16) (s : State), s.runs r →
     let p := r.pair.val
     let s1 := s.atInstr r
     let x := (s1.gr p a + imm.signExtend 64).toNat
     let v := fun n => leNat (s1.bytes x n)
     let next := (s1.core p).pc + 4
     s1.hits p x = true →
     (x % 8 = 0 → ∃ t, exec (.ld r d a imm) s = .next t ∧ s1.retires t p [d] (BitVec.ofNat 64 (v 8)) next) ∧
     (x % 4 = 0 →
       (∃ t, exec (.lw r d a imm) s = .next t ∧ s1.retires t p [d] ((BitVec.ofNat 32 (v 4)).signExtend 64) next) ∧
       (∃ t, exec (.lwu r d a imm) s = .next t ∧ s1.retires t p [d] (BitVec.ofNat 64 (v 4)) next)) ∧
     (x % 2 = 0 →
       (∃ t, exec (.lh r d a imm) s = .next t ∧ s1.retires t p [d] ((BitVec.ofNat 16 (v 2)).signExtend 64) next) ∧
       (∃ t, exec (.lhu r d a imm) s = .next t ∧ s1.retires t p [d] (BitVec.ofNat 64 (v 2)) next)) ∧
     (∃ t, exec (.lb r d a imm) s = .next t ∧ s1.retires t p [d] ((BitVec.ofNat 8 (v 1)).signExtend 64) next) ∧
     (∃ t, exec (.lbu r d a imm) s = .next t ∧ s1.retires t p [d] (BitVec.ofNat 64 (v 1)) next)) ∧
  (∀ (r : Run) (d a : Reg) (imm : BitVec 16) (s : State) (l : List Byte) (s3 : State), s.runs r →
     let p := r.pair.val
     let s1 := s.atInstr r
     let x := (s1.gr p a + imm.signExtend 64).toNat
     s1.wouldHold p x = false → s3.tmp.due = [] →
     let got := fun n => (s1.pmuCount p 4).loadBytes p x n = (some l, s3)
     let next := (s3.core p).pc + 4
     (x % 8 = 0 → got 8 → ∃ t, exec (.ld r d a imm) s = .next t ∧ s3.retires t p [d] (BitVec.ofNat 64 (leNat l)) next) ∧
     (x % 4 = 0 → got 4 →
       (∃ t, exec (.lw r d a imm) s = .next t ∧ s3.retires t p [d] ((BitVec.ofNat 32 (leNat l)).signExtend 64) next) ∧
       (∃ t, exec (.lwu r d a imm) s = .next t ∧ s3.retires t p [d] (BitVec.ofNat 64 (leNat l)) next)) ∧
     (x % 2 = 0 → got 2 →
       (∃ t, exec (.lh r d a imm) s = .next t ∧ s3.retires t p [d] ((BitVec.ofNat 16 (leNat l)).signExtend 64) next) ∧
       (∃ t, exec (.lhu r d a imm) s = .next t ∧ s3.retires t p [d] (BitVec.ofNat 64 (leNat l)) next)) ∧
     (got 1 →
       (∃ t, exec (.lb r d a imm) s = .next t ∧ s3.retires t p [d] ((BitVec.ofNat 8 (leNat l)).signExtend 64) next) ∧
       (∃ t, exec (.lbu r d a imm) s = .next t ∧ s3.retires t p [d] (BitVec.ofNat 64 (leNat l)) next)))

/-- Table 8-4: a misaligned load or store takes the exception of CODE 3 with its address, and stores nothing. -/
def Obligations.MisalignedTraps : Prop :=
  ∀ (r : Run) (d a : Reg) (imm : BitVec 16) (s : State), s.runs r →
    let p := r.pair.val
    let s1 := s.atInstr r
    let x := s1.gr p a + imm.signExtend 64
    let pc := (s1.core p).pc
    (x.toNat % 8 ≠ 0 →
      (∃ t, exec (.ld r d a imm) s = .next t ∧ s1.tookTrap t p 3 0 pc x) ∧ (∃ t, exec (.sd r d a imm) s = .next t ∧ s1.tookTrap t p 3 0 pc x)) ∧
    (x.toNat % 4 ≠ 0 →
      (∃ t, exec (.lw r d a imm) s = .next t ∧ s1.tookTrap t p 3 0 pc x) ∧ (∃ t, exec (.lwu r d a imm) s = .next t ∧ s1.tookTrap t p 3 0 pc x) ∧
      (∃ t, exec (.sw r d a imm) s = .next t ∧ s1.tookTrap t p 3 0 pc x)) ∧
    (x.toNat % 2 ≠ 0 →
      (∃ t, exec (.lh r d a imm) s = .next t ∧ s1.tookTrap t p 3 0 pc x) ∧ (∃ t, exec (.lhu r d a imm) s = .next t ∧ s1.tookTrap t p 3 0 pc x) ∧
      (∃ t, exec (.sh r d a imm) s = .next t ∧ s1.tookTrap t p 3 0 pc x))

/-- A store that hits the pair's data cache, with no guarded sequence of the pair open, puts the low bytes of D at its address, little-endian, and no other byte of memory changes; the boot ROM keeps what it holds. R192: a store is posted: an aligned one to memory, to an operand window or to a register retires once its access is sent, whatever the access meets. -/
def Obligations.Stores : Prop :=
  (∀ (r : Run) (d a : Reg) (imm : BitVec 16) (s : State), s.runs r →
     let p := r.pair.val
     let s1 := s.atInstr r
     let x := (s1.gr p a + imm.signExtend 64).toNat
     let done := fun (t : State) (n : Nat) =>
       (∀ i, i < n → t.byte (x + i) = if x + i < 0x40000 then s1.byte (x + i) else BitVec.ofNat 8 ((s1.gr p d).toNat / 256 ^ i)) ∧
         s1.keepsBytes t x n ∧ (∀ g : Reg, t.gr p g = s1.gr p g) ∧ (t.core p).pc = (s1.core p).pc + 4 ∧ t.regs = s1.regs
     s1.hits p x = true → s1.noSequence p = true →
     (x % 8 = 0 → ∃ t, exec (.sd r d a imm) s = .next t ∧ done t 8) ∧ (x % 4 = 0 → ∃ t, exec (.sw r d a imm) s = .next t ∧ done t 4) ∧
       (x % 2 = 0 → ∃ t, exec (.sh r d a imm) s = .next t ∧ done t 2) ∧ ∃ t, exec (.sb r d a imm) s = .next t ∧ done t 1) ∧
  (∀ (r : Run) (d a : Reg) (imm : BitVec 16) (s : State), s.runs r →
     let p := r.pair.val
     let s1 := s.atInstr r
     let x := (s1.gr p a + imm.signExtend 64).toNat
     let l := fun n => leBytes n (s1.gr p d).toNat
     let s2 := s1.pmuCount p 5
     let s3 := (if memType x = .uncached then s2.pmuCount p 6 else s2).interleaveAt (s2.reqOf p) x
     let posted := fun n => if memType x = .device then (s2.pmuCount p 6).storeReg (s2.reqOf p) x n (leNat (l n)) else s3.storeMem p x (l n)
     let done := fun n (t : State) => (posted n).retires t p [] 0 (((posted n).core p).pc + 4)
     let free := fun n => (posted n).tmp.due = []
     (memType x = .device ∨ s3.wouldHold p x = false) →
     (x % 8 = 0 → free 8 → ∃ t, exec (.sd r d a imm) s = .next t ∧ done 8 t) ∧ (x % 4 = 0 → free 4 → ∃ t, exec (.sw r d a imm) s = .next t ∧ done 4 t) ∧
       (x % 2 = 0 → free 2 → ∃ t, exec (.sh r d a imm) s = .next t ∧ done 2 t) ∧ (free 1 → ∃ t, exec (.sb r d a imm) s = .next t ∧ done 1 t))

/-- R189: LR reads eight bytes and reserves their line; SC stores only where the pair holds the reservation of the line, writes 0 or 1 to D, and uses the reservation up either way. -/
def Obligations.ReservedPairs : Prop :=
  ∀ (r : Run) (d a b : Reg) (s : State), s.runs r →
    let p := r.pair.val
    let s1 := s.atInstr r
    let x := (s1.gr p a).toNat
    let next := (s1.core p).pc + 4
    x % 8 = 0 → atomicOk x = true →
    (s1.hits p x = true → ∃ t, exec (.lr r d a) s = .next t ∧ (t.core p).resv = some (x / 64) ∧ (t.core p).pc = next ∧
      (∀ g : Reg, t.gr p g = if g = d ∧ g ≠ 31 then BitVec.ofNat 64 (leNat (s1.bytes x 8)) else s1.gr p g) ∧ t.mem = s1.mem) ∧
    (s1.hits p x = true → s1.noSequence p = true → (s1.core p).resv = some (x / 64) → ∃ t, exec (.sc r d a b) s = .next t ∧ (t.core p).resv = none ∧
      (t.core p).pc = next ∧ (∀ g : Reg, t.gr p g = if g = d ∧ g ≠ 31 then 0 else s1.gr p g) ∧
      (∀ i, i < 8 → t.byte (x + i) = BitVec.ofNat 8 ((s1.gr p b).toNat / 256 ^ i)) ∧ s1.keepsBytes t x 8) ∧
    ((s1.core p).resv ≠ some (x / 64) → ∃ t, exec (.sc r d a b) s = .next t ∧ (t.core p).resv = none ∧ (t.core p).pc = next ∧
      (∀ g : Reg, t.gr p g = if g = d ∧ g ≠ 31 then 1 else s1.gr p g) ∧ t.mem = s1.mem)

/-- Table 8-2: an AMO returns the old eight bytes in D and stores the operation's result, at a line its pair holds. -/
def Obligations.AtomicOperations : Prop :=
  ∀ (r : Run) (d a b : Reg) (s : State), s.runs r →
    let p := r.pair.val
    let s1 := s.atInstr r
    let x := (s1.gr p a).toNat
    let old := BitVec.ofNat 64 (leNat (s1.bytes x 8))
    let y := s1.gr p b
    let done := fun (t : State) (v : Word64) =>
      (∀ g : Reg, t.gr p g = if g = d ∧ g ≠ 31 then old else s1.gr p g) ∧ (t.core p).pc = (s1.core p).pc + 4 ∧
        (∀ i, i < 8 → t.byte (x + i) = BitVec.ofNat 8 (v.toNat / 256 ^ i)) ∧ s1.keepsBytes t x 8
    x % 8 = 0 → atomicOk x = true → s1.hits p x = true → s1.noSequence p = true →
    (∃ t, exec (.amoSwap r d a b) s = .next t ∧ done t y) ∧
    (∃ t, exec (.amoAdd r d a b) s = .next t ∧ done t (old + y)) ∧
    (∃ t, exec (.amoAnd r d a b) s = .next t ∧ done t (old &&& y)) ∧
    (∃ t, exec (.amoOr r d a b) s = .next t ∧ done t (old ||| y)) ∧
    (∃ t, exec (.amoXor r d a b) s = .next t ∧ done t (old ^^^ y)) ∧
    (∃ t, exec (.amoMax r d a b) s = .next t ∧ done t (if y.toInt < old.toInt then old else y)) ∧
    (∃ t, exec (.amoMin r d a b) s = .next t ∧ done t (if old.toInt < y.toInt then old else y)) ∧
    (∃ t, exec (.amoMaxu r d a b) s = .next t ∧ done t (if y.toNat < old.toNat then old else y)) ∧
    (∃ t, exec (.amoMinu r d a b) s = .next t ∧ done t (if old.toNat < y.toNat then old else y))

/-- Table 8-2: a branch goes to PC + 4 × sext(IMM) where D and A compare as it names, else past itself; JAL and JALR link in g30 and D. -/
def Obligations.BranchesAndJumps : Prop :=
  ∀ (r : Run) (d a : Reg) (imm : BitVec 16) (off : BitVec 26) (s : State), s.runs r →
    let p := r.pair.val
    let s1 := s.atInstr r
    let x := s1.gr p d
    let y := s1.gr p a
    let pc := (s1.core p).pc
    let go := fun (c : Prop) [Decidable c] => if c then pc + 4 * imm.signExtend 64 else pc + 4
    let target := y + imm.signExtend 64
    (∃ t, exec (.beq r d a imm) s = .next t ∧ s1.retires t p [] 0 (go (x = y))) ∧
    (∃ t, exec (.bne r d a imm) s = .next t ∧ s1.retires t p [] 0 (go (x ≠ y))) ∧
    (∃ t, exec (.blt r d a imm) s = .next t ∧ s1.retires t p [] 0 (go (x.toInt < y.toInt))) ∧
    (∃ t, exec (.bge r d a imm) s = .next t ∧ s1.retires t p [] 0 (go (y.toInt ≤ x.toInt))) ∧
    (∃ t, exec (.bltu r d a imm) s = .next t ∧ s1.retires t p [] 0 (go (x.toNat < y.toNat))) ∧
    (∃ t, exec (.bgeu r d a imm) s = .next t ∧ s1.retires t p [] 0 (go (y.toNat ≤ x.toNat))) ∧
    (∃ t, exec (.jal r off) s = .next t ∧ s1.retires t p [30] (pc + 4) (pc + 4 * off.signExtend 64)) ∧
    (target.toNat % 4 = 0 → ∃ t, exec (.jalr r d a imm) s = .next t ∧ s1.retires t p [d] (pc + 4) target) ∧
    (target.toNat % 4 ≠ 0 → ∃ t, exec (.jalr r d a imm) s = .next t ∧ s1.tookTrap t p 1 0 target target)

/-- R198: SRD and SWR move a system register of Table 8-6 that the present level reaches; every other number, too low a level and a write to a read-only register are an illegal instruction, CODE 2, whose word is the address saved. Tables 8-6 to 8-8: what a system register reads after it was written. -/
def Obligations.SystemRegisters : Prop :=
  (∀ (r : Run) (d : Reg) (sr : BitVec 12) (s : State), s.runs r →
     let p := r.pair.val
     let s1 := s.atInstr r
     let pc := (s1.core p).pc
     (∀ v, s1.sysRead p sr.toNat = some v → ∃ t, exec (.srd r d sr) s = .next t ∧ s1.retires t p [d] v (pc + 4)) ∧
     (∀ s2, s1.sysWrite p sr.toNat (s1.gr p d) = some s2 → ∃ t, exec (.swr r d sr) s = .next t ∧ s2.retires t p [] 0 (pc + 4)) ∧
     (s1.sysRead p sr.toNat = none → ∃ t, exec (.srd r d sr) s = .next t ∧
       s1.tookTrap t p 2 0 pc (BitVec.ofNat 64 (0x30 * 2 ^ 26 + d.val * 2 ^ 21 + sr.toNat))) ∧
     (s1.sysWrite p sr.toNat (s1.gr p d) = none → ∃ t, exec (.swr r d sr) s = .next t ∧
       s1.tookTrap t p 2 0 pc (BitVec.ofNat 64 (0x31 * 2 ^ 26 + d.val * 2 ^ 21 + sr.toNat))) ∧
     (let c := s1.core p
      let n := sr.toNat
      ((s1.sysRead p n).isSome = true ↔ n / 0x400 ≤ c.level.num ∧ sysListed n ∧ (sysCounter n → c.level = .u → c.pmuCtl.getLsbD 4 = true)) ∧
      (∀ v, (s1.sysWrite p n v).isSome = true ↔ n / 0x400 ≤ c.level.num ∧ sysListed n ∧ ¬ sysReadOnly n ∧ (sysCounter n → c.level ≠ .u)))) ∧
  (∀ (s t : State) (p : Fin 4) (v : Word64), (s.core p.val).level = .m →
     (∀ n, (n = 0x401 ∨ n = 0x405 ∨ n = 0x406 ∨ n = 0x801 ∨ n = 0x805 ∨ (0x410 ≤ n ∧ n ≤ 0x417) ∨ (0x010 ≤ n ∧ n ≤ 0x013)) →
       s.sysWrite p.val n v = some t → t.sysRead p.val n = some v) ∧
     (s.sysWrite p.val 0x404 v = some t → t.sysRead p.val 0x404 = some (v &&& ~~~0x1FF)) ∧
     (s.sysWrite p.val 0x400 v = some t → t.sysRead p.val 0x400 = some (v &&& 0xF)) ∧
     (s.sysWrite p.val 0x430 v = some t → t.sysRead p.val 0x430 = some (v &&& 0x1F)) ∧
     ((s.core p.val).mxbase.getLsbD 0 = true → s.sysWrite p.val 0x804 v = some t → t.sysRead p.val 0x804 = s.sysRead p.val 0x804))

/-- R190, R193: KCALL and WCALL enter K and M with the PC of the next instruction saved; KRET and WRET go back to what was saved, at the PC saved, which is a multiple of 4. -/
def Obligations.CallsAndReturns : Prop :=
  ∀ (r : Run) (imm : BitVec 16) (s : State), s.runs r →
    let p := r.pair.val
    let s1 := s.atInstr r
    let c := s1.core p
    let kept := fun (t : State) => (∀ g : Reg, t.gr p g = s1.gr p g) ∧ (t.core p).resv = none ∧ (∀ q, q ≠ p → t.core q = s1.core q) ∧ { t with cores := s1.cores } = s1
    (c.level = .u → ∃ t, exec (.kcall r imm) s = .next t ∧ kept t ∧ (t.core p).level = .k ∧ (t.core p).kepc = c.pc + 4 ∧
      (t.core p).kcause = causeWord 8 imm.toNat ∧ (t.core p).keaddr = 0 ∧ (t.core p).plev = .u ∧ (t.core p).pie = c.ie ∧ (t.core p).ie = false ∧
      (t.core p).pc = c.kxbase + 0x180) ∧
    (c.level = .k → ∃ t, exec (.wcall r imm) s = .next t ∧ kept t ∧ (t.core p).level = .m ∧ (t.core p).mepc = c.pc + 4 ∧
      (t.core p).mcause = causeWord 9 imm.toNat ∧ (t.core p).meaddr = 0 ∧ (t.core p).mplev = .k ∧ (t.core p).ie = c.ie ∧ (t.core p).pc = mvec c + 0x80 ∧
      t.worldOfPair p = .secure) ∧
    (c.level = .k → ∃ t, exec (.kret r) s = .next t ∧ kept t ∧ (t.core p).level = c.plev ∧ (t.core p).ie = c.pie ∧ (c.kepc.toNat % 4 = 0 → (t.core p).pc = c.kepc)) ∧
    (c.level = .m → ∃ t, exec (.wret r) s = .next t ∧ kept t ∧ (t.core p).level = c.mplev ∧ (c.mepc.toNat % 4 = 0 → (t.core p).pc = c.mepc) ∧
      (c.mplev ≠ .m → t.worldOfPair p = pairWorld p))

/-- Table 8-4: BRK takes the exception of CODE 10 with its IMM; an illegal word, and a call or return at a level that may not execute it, takes CODE 2 with the word. -/
def Obligations.TrapInstructions : Prop :=
  ∀ (r : Run) (imm : BitVec 16) (w : Word32) (s : State), s.runs r →
    let p := r.pair.val
    let s1 := s.atInstr r
    let pc := (s1.core p).pc
    let lvl := (s1.core p).level
    (∃ t, exec (.brk r imm) s = .next t ∧ s1.tookTrap t p 10 imm.toNat pc 0) ∧
    (s.hccLegal p w.toNat = false → ∃ t, exec (.illegalInstruction r w) s = .next t ∧ s1.tookTrap t p 2 0 pc (BitVec.ofNat 64 w.toNat)) ∧
    (lvl ≠ .u → ∃ t, exec (.kcall r imm) s = .next t ∧ s1.tookTrap t p 2 0 pc (BitVec.ofNat 64 (0x32 * 2 ^ 26 + imm.toNat))) ∧
    (lvl ≠ .k → (∃ t, exec (.wcall r imm) s = .next t ∧ s1.tookTrap t p 2 0 pc (BitVec.ofNat 64 (0x33 * 2 ^ 26 + imm.toNat))) ∧
      ∃ t, exec (.kret r) s = .next t ∧ s1.tookTrap t p 2 0 pc (BitVec.ofNat 64 (0x34 * 2 ^ 26))) ∧
    (lvl ≠ .m → ∃ t, exec (.wret r) s = .next t ∧ s1.tookTrap t p 2 0 pc (BitVec.ofNat 64 (0x35 * 2 ^ 26)))

/-- R186, R188, R197, R208: FENCE with no access open retires, INV empties the instruction cache; the CACHE forms retire without changing what memory reads as, a dirty line is written back, and one whose write-back is refused is lost with an imprecise store error (R240); WFI waits unless an interrupt would be pending. -/
def Obligations.FenceCacheWait : Prop :=
  ∀ (r : Run) (a : Reg) (off : BitVec 14) (s : State), s.runs r →
    let p := r.pair.val
    let s1 := s.atInstr r
    let x := (s1.cacheAddr p a off).toNat
    let next := (s1.core p).pc + 4
    (s.accessesOpen p = false →
      (∃ t, exec (.fence r false) s = .next t ∧ s1.retires t p [] 0 next) ∧
      (∃ t, exec (.fence r true) s = .next t ∧ (t.core p).icache = [] ∧ (t.core p).pc = next ∧ t.mem = s1.mem ∧ ∀ g : Reg, t.gr p g = s1.gr p g)) ∧
    (cacheHit (s1.core p).dcache (s1.worldOfPair p) x = none →
      (∃ t, exec (.cacheClean r a off) s = .next t ∧ s1.retires t p [] 0 next) ∧
      ∃ t, exec (.cacheCleanInvalidate r a off) s = .next t ∧ s1.retires t p [] 0 next) ∧
    (∀ l, cacheHit (s1.core p).dcache (s1.worldOfPair p) x = some l → l.dirty = true → s1.flag R.ACT_CTRL_UPDATE = false ∨ (s1.core p).level = .m →
      let went := fun (t : State) => (t.core p).pc = next ∧ (∀ g : Reg, t.gr p g = s1.gr p g)
      (s1.writeBackOk p l = true →
        (∃ t, exec (.cacheClean r a off) s = .next t ∧ went t ∧ t.mem = s1.mem ∧ cacheHit (t.core p).dcache (s1.worldOfPair p) x = some { l with dirty := false, data := [] }) ∧
        ∃ t, exec (.cacheCleanInvalidate r a off) s = .next t ∧ went t ∧ t.mem = s1.mem ∧ (t.core p).dcache = cacheDrop (s1.core p).dcache l.addr) ∧
      (s1.writeBackOk p l = false →
        let lost := fun (t : State) => went t ∧ t.mem = memPut s1.mem l.addr l.data ∧ (t.core p).dcache = cacheDrop (s1.core p).dcache l.addr ∧
          (t.core p).storeErrs = (s1.core p).storeErrs ++ [(l.addr, (s1.core p).level)]
        (∃ t, exec (.cacheClean r a off) s = .next t ∧ lost t) ∧ ∃ t, exec (.cacheCleanInvalidate r a off) s = .next t ∧ lost t)) ∧
    (∀ l, cacheHit (s1.core p).dcache (s1.worldOfPair p) x = some l → l.dirty = false →
      (∃ t, exec (.cacheClean r a off) s = .next t ∧ s1.retires t p [] 0 next) ∧
      ∃ t, exec (.cacheCleanInvalidate r a off) s = .next t ∧ (t.core p).dcache = cacheDrop (s1.core p).dcache l.addr ∧
        (t.core p).pc = next ∧ t.mem = s1.mem) ∧
    (∃ t, exec (.cacheInvalidateIline r a off) s = .next t ∧ (t.core p).pc = next ∧ t.mem = s1.mem ∧
      cacheHit (t.core p).icache (s1.worldOfPair p) x = none) ∧
    ((s1.core p).run = .running → (s1.core p).haltReq = false → ∃ t, exec (.wfi r) s = .next t ∧
      (t.core p).run = (if s1.wakes p then .running else .wfi) ∧ (t.core p).pc = next ∧ ∀ g : Reg, t.gr p g = s1.gr p g)

/-- R194 to R197, R192: an interrupt is taken at K with CODE 16 or 17 and KEADDR 0, at KXBASE + 0x100, with the PC not yet executed saved; a wake makes the pair run; a store error is taken with CODE 6 at the higher of two levels. -/
def Obligations.InterruptsAndWake : Prop :=
  ∀ (pair : Fin 4) (s : State),
    let p := pair.val
    let c := s.core p
    let entered := fun (t : State) (code : Nat) => (t.core p).kcause = causeWord code 0 ∧ (t.core p).kepc = c.pc ∧ (t.core p).keaddr = 0 ∧
      (t.core p).plev = c.level ∧ (t.core p).pie = c.ie ∧ (t.core p).ie = false ∧ (t.core p).level = .k ∧ (t.core p).run = .running ∧
      (t.core p).pc = c.kxbase + 0x100 ∧ (∀ g : Reg, t.gr p g = s.gr p g) ∧ t.mem = s.mem
    (s.canInterrupt p = true → (s.ifirst p).isSome = true → c.storeErrs = [] → ∃ t, exec (.externalInterrupt pair) s = .next t ∧ entered t 16) ∧
    (s.canInterrupt p = true → s.timerUp p = true → (s.ifirst p).isNone = true → c.storeErrs = [] →
      ∃ t, exec (.timerInterrupt pair) s = .next t ∧ entered t 17) ∧
    (c.run = .wfi → s.wakes p = true → s.domAnswers (30 + p) = true →
      ∃ t, exec (.wfiWake pair) s = .next t ∧ (t.core p).run = .running ∧ (t.core p).pc = c.pc ∧ t.domOn (30 + p) = true ∧ t.mem = s.mem) ∧
    (∀ a l rest, c.storeErrs = (a, l) :: rest → c.run ≠ .fenced → c.run ≠ .reset → s.waitsAtTable p = false →
      ∃ t, exec (.storeErrorResponse pair) s = .next t ∧ (t.core p).storeErrs = rest ∧ (∀ g : Reg, t.gr p g = s.gr p g) ∧
        (if c.level = .m ∨ l = .m then (t.core p).mcause = causeWord 6 0 ∧ (t.core p).meaddr = BitVec.ofNat 64 a ∧ (t.core p).mepc = c.pc ∧ (t.core p).level = .m
         else (t.core p).kcause = causeWord 6 0 ∧ (t.core p).keaddr = BitVec.ofNat 64 a ∧ (t.core p).kepc = c.pc ∧ (t.core p).level = .k))

/-! Chapter 03: supplies, the cap and the domains. -/

/-- R47 to R49, the power manager at work: the token rate is shown saturated, the comparison shows power and temperature, the cap is clamped to 10 W through the image cap, and AVS ends with AVS_FAULT on a fault bit of STATUS_WORD or a regulator that does not answer. R49, step 3: at 0.55 V above the cap each pool's unit limit halves, rounded up, counted from its serving units where it had none; below the cap by 2 W a limit rises by one. No register changes. R63, R64: the loss of VDDQ takes its channel's domains to LOST, with DOMAIN_LOST set and the channel's state 4, as the loss of VDD_SD takes the Soade group; the return of the supply makes DOMAIN_RETURNED, and a channel trains again, state 1. -/
def Obligations.PowerManagerRows : Prop :=
  (∀ (s : State),
     (∀ rate, ∃ t, exec (.rateWindowEnd rate) s = .next t ∧ t.rd R.PWR_RATE_RATE = min rate 65535 ∧ s.onlyRegs t [R.PWR_RATE_RATE]) ∧
     (∀ total temp measured, s.boot.alive = true → ∃ t, exec (.powerManagerTick total temp measured) s = .next t ∧
       t.rd R.PWR_POWER_TOTAL = min total 65535 ∧ t.rd R.PWR_POWER_TEMP = temp % 65536 ∧ t.mem = s.mem ∧ t.cores = s.cores ∧
       s.keepsRegs t [R.PWR_POWER_TOTAL, R.PWR_POWER_TEMP, R.PWR_VCORE_MEASURED, R.PWR_VCORE_SETPOINT, R.PWR_EVT_CAP_ACTIVE, R.PWR_EVT_CAP_ACTIVE.seq] ∧
       (s.rd R.PWR_VCORE_AVS_EN = 1 → 100 * min s.cfg.capW (s.rd R.PWR_CAP_CAP) < total → 550 < s.rd R.PWR_VCORE_SETPOINT →
         s.rd R.PWR_VCORE_SETPOINT < 1024 → t.rd R.PWR_VCORE_SETPOINT = max 550 (s.rd R.PWR_VCORE_SETPOINT - 5))) ∧
     (∀ who complement v, s.passesGuarded who 0x10008 complement v → s.cfg.capW < 64 → 10 ≤ s.cfg.capW → ∃ t, exec (.pwrCapWrite who complement) s = .next t ∧
       t.rd R.PWR_CAP_CAP = max 10 (min s.cfg.capW (v % 64)) ∧ s.keepsRegs t [R.PWR_CAP_CAP] ∧ t.mem = s.mem ∧ ∀ g ∈ t.bus.guards, g.off ≠ 0x10008) ∧
     (∀ w : BitVec 16, s.rd R.PWR_VCORE_AVS_EN = 1 → w ≠ 0 → ∃ t, exec (.avsAlert w) s = .next t ∧ s.sawEvent t R.PWR_EVT_AVS_FAULT 0 ∧
       t.rd R.PWR_VCORE_AVS_EN = 0 ∧ s.keepsRegs t [R.PWR_EVT_AVS_FAULT, R.PWR_EVT_AVS_FAULT.seq, R.PWR_VCORE_AVS_EN, R.PWR_VCORE_MEASURED]) ∧
     (s.rd R.PWR_VCORE_AVS_EN = 1 → ∃ t, exec .avsTimeout s = .next t ∧ s.sawEvent t R.PWR_EVT_AVS_FAULT 0 ∧ t.rd R.PWR_VCORE_AVS_EN = 0 ∧
       s.onlyEvents t [R.PWR_EVT_AVS_FAULT, R.PWR_EVT_AVS_FAULT.seq, R.PWR_VCORE_AVS_EN, R.PWR_VCORE_MEASURED])) ∧
  (∀ (s : State),
     let limit := fun (s : State) (p : Pool) => tblGet 0 s.pwr.limits p.num
     (s.pwr.overCap = true → s.rd R.PWR_VCORE_SETPOINT = 550 → ∃ t, exec .capLimitStep s = .next t ∧ t.regs = s.regs ∧ t.mem = s.mem ∧
       ∀ p : Pool, 0 < s.serving p → limit t p = ((if limit s p = 0 then s.serving p else limit s p) + 1) / 2) ∧
     (s.pwr.overCap = false → s.rd R.PWR_POWER_TOTAL + 200 ≤ s.capNow → ∃ t, exec .capLimitStep s = .next t ∧ t.regs = s.regs ∧ t.mem = s.mem ∧
       ∀ p : Pool, limit t p = if limit s p = 0 ∨ s.serving p ≤ limit s p + 1 then 0 else limit s p + 1)) ∧
  (∀ (s : State), s.boot.alive = true →
     (∀ (c : Fin 2), let rail := if c = 0 then Rail.ddrA else Rail.ddrB
       let d := 18 + 4 * c.val
       s.ddrKeyGone = false → (c = 1 → s.cfg.dbPresent = true) →
       (s.rd (domState d) ≠ 3 → s.dsp.inflight = [] → (s.chan c.val).heldFill = [] → (s.chan c.val).locks = [] → ∃ t, exec (.domainSupplyLost rail) s = .next t ∧ (∀ x, d ≤ x → x < d + 4 → t.rd (domState x) = 3) ∧
         t.rd R.PWR_EVT_DOMAIN_LOST = 1 ∧ t.rd (R.MEM_STATUS_STATE.mem c.val) = 4 ∧ (t.chan c.val) = {} ∧ tblGet 0 t.pwr.moving d = 0) ∧
       (s.rd (domState d) = 3 → ∃ t, exec (.domainSupplyReturned rail) s = .next t ∧ (∀ x, d ≤ x → x < d + 4 → t.rd (domState x) = 0) ∧
         t.rd R.PWR_EVT_DOMAIN_RETURNED = 1 ∧ t.rd (R.MEM_STATUS_STATE.mem c.val) = 1 ∧ (t.chan c.val) = {})) ∧
     (s.rd (domState 13) ≠ 3 → ∃ t, exec (.domainSupplyLost .serdes) s = .next t ∧ (∀ x, 13 ≤ x → x < 18 → t.rd (domState x) = 3) ∧ t.rd R.PWR_EVT_DOMAIN_LOST = 1))

/-- R57, R58, R60: an idle domain basks, an access wakes it; a request whose claims have reached zero starts its transition, that of a DDR group out of OFF with the training of its channel (Table 3-6, step 6); a request for a state already reached is DONE at once; one for a domain number above 59 has RESULT 5. R56, R60: a transition that ends in ON from BASKING, or in BASKING, shows the domain's state; the request that was pending for it is over, GATE_DONE is set, and its world's RESULT is DONE where it was its last request. -/
def Obligations.DomainRows : Prop :=
  (∀ (s : State) (d : Nat), d < 60 →
     (s.rd (R.PWR_DOM_STAT_IDLE_BASK.ix d) = 1 → s.rd (domState d) = 0 → s.claimsOn d = 0 → tblGet 0 s.pwr.moving d = 0 →
       ∃ t, exec (.idleBaskTimeout d) s = .next t ∧ t.rd (domState d) = 1 ∧ s.onlyRegs t [domState d]) ∧
     (s.rd (domState d) = 1 → ∃ t, exec (.baskingWake d) s = .next t ∧ t.rd (domState d) = 0 ∧ s.onlyRegs t [domState d]) ∧
     (∀ target, target < 3 → s.rd (R.PWR_DOM_STAT_PENDING.ix (domHead d)) = target → tblGet 0 s.pwr.moving (domHead d) = 0 → s.claimsOn (domHead d) = 0 →
       ∃ t, exec (.domainClaimsZero d) s = .next t ∧ tblGet 0 t.pwr.moving (domHead d) = target + 1 ∧ t.mem = s.mem ∧
         (target ≠ 0 ∨ s.rd (domState (domHead d)) ≠ 2 ∨ (domHead d ≠ 18 ∧ domHead d ≠ 22) → t.regs = s.regs) ∧
         (∀ c : Fin 2, domHead d = 18 + 4 * c.val → target = 0 → s.rd (domState (domHead d)) = 2 → s.ddrKeyGone = false → t.rd (R.MEM_STATUS_STATE.mem c.val) = 1)) ∧
     (∀ (who : Requester) (v : Word32), s.passes who 0x10020 = true → 60 ≤ v.toNat % 64 → ∃ t, exec (.pwrDomReqWrite who v) s = .next t ∧
       t.rd (R.PWR_DOM_REQ_RESULT.inst (worldOf who).num) = 5 ∧ s.onlyRegs t [R.PWR_DOM_REQ_DOMAIN.inst (worldOf who).num,
         R.PWR_DOM_REQ_TARGET.inst (worldOf who).num, R.PWR_DOM_REQ_RESULT.inst (worldOf who).num]) ∧
     (∀ (who : Requester) (v : Word32), s.passes who 0x10020 = true → v.toNat % 64 = d → v.toNat / 256 % 4 = 0 → domHead d = d →
       s.rd (domState d) = 0 → s.rd (R.PWR_DOM_STAT_WORLD.ix d) = 2 → s.rd (R.PWR_DOM_STAT_PENDING.ix d) = 3 →
       (22 ≤ d ∧ d ≤ 25 → s.cfg.dbPresent = true) → ∃ t, exec (.pwrDomReqWrite who v) s = .next t ∧
       t.rd (R.PWR_DOM_REQ_RESULT.inst (worldOf who).num) = 1 ∧ t.rd R.PWR_EVT_GATE_DONE = 1 ∧ t.mem = s.mem ∧ t.pwr = s.pwr)) ∧
  (∀ (s : State) (d target : Nat), d < 60 → domGroup d = [d] → target < 2 → s.rd (domState d) < 2 → tblGet 0 s.pwr.moving d = target + 1 →
     s.rd (R.PWR_DOM_STAT_PENDING.ix d) = target → ∃ t, exec (.domainTransitionDone d) s = .next t ∧ t.rd (domState d) = target ∧
       tblGet 0 t.pwr.moving d = 0 ∧ t.rd (R.PWR_DOM_STAT_PENDING.ix d) = 3 ∧ t.rd R.PWR_EVT_GATE_DONE = 1 ∧ t.mem = s.mem ∧
       (let w := s.pendWorld d
        domHead (s.rd (R.PWR_DOM_REQ_DOMAIN.inst w.num)) = d → t.rd (R.PWR_DOM_REQ_RESULT.inst w.num) = 1))

/-! Chapter 09: mailboxes, bindings, the monitor's services. -/

/-- R226 to R228: a payload word is stored; a message is stamped with its sender and posted; an acknowledgement by MSEQ empties the mailbox. R228: an acknowledgement whose MSEQ is not that of the posted message, or of an empty mailbox, changes nothing. R231: a wake names receivers; the domain of a secure pair that basks starts towards ON, as by a request of the writer's world that waits for its end. -/
def Obligations.MailboxRows : Prop :=
  (∀ (s : State) (who : Requester) (m : Fin 32) (w : Fin 16) (v : Word32),
     let data := fun k => (R.MBX_DATA_DATA.mbx m.val).ix k
     let full := R.MBX_HDR1_FULL.mbx m.val
     (s.passes who (mbxOff m.val (4 * w.val)) = true → s.rd full = 0 → ∃ t, exec (.mbxDataWrite who m w v) s = .next t ∧
       t.rd (data w.val) = v.toNat ∧ s.keepsRegs t [data w.val] ∧ t.mem = s.mem ∧ t.edges = s.edges ∧
       ((tblGet {} t.mbx m.val).writers.any (sameSource who)) = true) ∧
     (s.passes who (mbxOff m.val (4 * w.val)) = true → s.rd full = 1 → ∃ t, exec (.mbxDataWrite who m w v) s = .next t ∧
       t.rd (data w.val) = v.toNat ∧ t.rd (R.MBX_HDR1_COLLISION.mbx m.val) = 1 ∧ t.rd (R.MBX_RXEVT_COLLISION.mbx m.val) = 1 ∧ t.mem = s.mem) ∧
     (s.passes who (mbxOff m.val 0x48) = true → v.toNat % 128 ≤ 64 → s.rd full = 0 → ∃ t, exec (.mbxSend who m v) s = .next t ∧
       t.rd (R.MBX_HDR0_MSEQ.mbx m.val) = (s.rd (R.MBX_HDR0_MSEQ.mbx m.val) + 1) % 65536 ∧ t.rd (R.MBX_HDR0_LEN.mbx m.val) = v.toNat % 128 ∧
       t.rd (R.MBX_HDR0_TAG.mbx m.val) = v.toNat / 256 % 256 ∧ t.rd full = 1 ∧ t.rd (R.MBX_HDR1_CLASS.mbx m.val) = classOf who % 16 ∧
       t.rd (R.MBX_HDR1_LEVEL.mbx m.val) = stampLevel who ∧ t.rd (R.MBX_HDR1_WORLD.mbx m.val) = stampWorld who ∧ t.rd (R.MBX_RXEVT_RECEIVED.mbx m.val) = 1 ∧
       (∀ k, k < 16 → t.rd (data k) = s.rd (data k)) ∧ t.mem = s.mem ∧ tblGet {} t.mbx m.val = {}) ∧
     (s.passes who (mbxOff m.val 0x4C) = true → s.rd full = 1 → s.rd (R.MBX_HDR0_MSEQ.mbx m.val) = v.toNat / 65536 → ∃ t, exec (.mbxAck who m v) s = .next t ∧
       t.rd full = 0 ∧ t.rd (R.MBX_HDR1_COLLISION.mbx m.val) = 0 ∧ t.rd (R.MBX_HDR1_MIXED.mbx m.val) = 0 ∧ (∀ k, k < 16 → t.rd (data k) = 0) ∧
       t.rd (R.MBX_TXEVT_EMPTIED.mbx m.val) = 1 ∧ t.rd (R.MBX_HDR0_MSEQ.mbx m.val) = s.rd (R.MBX_HDR0_MSEQ.mbx m.val) ∧ t.mem = s.mem)) ∧
  (∀ (s : State) (who : Requester) (m : Fin 32) (v : Word32), s.passes who (mbxOff m.val 0x4C) = true →
     (s.rd (R.MBX_HDR1_FULL.mbx m.val) = 0 ∨ s.rd (R.MBX_HDR0_MSEQ.mbx m.val) ≠ v.toNat / 65536) → exec (.mbxAck who m v) s = .next s) ∧
  (∀ (s : State) (who : Requester) (p : Fin 2), s.passes who 0xA1000 = true → s.rd (domState (30 + p.val)) = 1 →
     s.rd (R.PWR_DOM_STAT_PENDING.ix (30 + p.val)) = 3 → ∃ t, exec (.mbxWake who (if p = 0 then 1 else 256)) s = .next t ∧
       tblGet 0 t.pwr.moving (30 + p.val) = 1 ∧ t.rd (R.PWR_DOM_STAT_PENDING.ix (30 + p.val)) = 0 ∧
       t.rd (R.PWR_DOM_STAT_PEND_WORLD.ix (30 + p.val)) = (worldOf who).num ∧ t.mem = s.mem ∧
       s.keepsRegs t [R.PWR_DOM_STAT_PENDING.ix (30 + p.val), R.PWR_DOM_STAT_PEND_WORLD.ix (30 + p.val)])

/-- R217, R221: a bind of a free queue pair to a loaded owner, a nonzero weight and a free pool queue pair shows them with BOUND = 1 and RESULT 0; an unbind of one without commands clears BOUND. R216, Table 9-4: the monitor's services leave their status in g1: VERSION the firmware release in g2 and the highest service, 2, in g3; NQ_REQUEST the first of the queue pairs it bound and their count; NQ_RELEASE unbinds; any other number has status 1, UNKNOWN. -/
def Obligations.NormalWorldServices : Prop :=
  (∀ (s : State) (who : Requester) (n : Nat) (v : Word32), n < 64 → s.passes who (0x90400 + 4 * n) = true →
     (v.toNat.testBit 28 = true → s.rd (R.WLD_NQ_BIND_BOUND.ix n) = 0 → 8 ≤ bits v.toNat 18 10 → s.poolQpUsed (bits v.toNat 18 10) = false →
       (s.ownerAt (bits v.toNat 0 10)).isSome = true → bits v.toNat 10 8 ≠ 0 → ∃ t, exec (.wldNqBind who n v) s = .next t ∧
       t.rd (R.WLD_NQ_BIND_BOUND.ix n) = 1 ∧ t.rd (R.WLD_NQ_BIND_RESULT.ix n) = 0 ∧ t.rd (R.WLD_NQ_BIND_OWNER.ix n) = bits v.toNat 0 10 ∧
       t.rd (R.WLD_NQ_BIND_WEIGHT.ix n) = bits v.toNat 10 8 ∧ t.rd (R.WLD_NQ_BIND_POOL_QP.ix n) = bits v.toNat 18 10 ∧
       s.onlyRegs t [R.WLD_NQ_BIND_RESULT.ix n, R.WLD_NQ_BIND_OWNER.ix n, R.WLD_NQ_BIND_WEIGHT.ix n, R.WLD_NQ_BIND_POOL_QP.ix n, R.WLD_NQ_BIND_BOUND.ix n]) ∧
     (v.toNat.testBit 28 = false → s.rd (R.WLD_NQ_BIND_BOUND.ix n) = 1 → s.qpBusy .nw n = false → ∃ t, exec (.wldNqUnbind who n v) s = .next t ∧
       t.rd (R.WLD_NQ_BIND_BOUND.ix n) = 0 ∧ t.qp .nw n = {} ∧ t.mem = s.mem)) ∧
  (∀ (s : State) (pair : Fin 4),
     let p := pair.val
     (s.serving216 p 0 = true → ∃ t, exec (.monitorVersion pair) s = .next t ∧ t.gr p 1 = 0 ∧ t.gr p 2 = Config.firmwareRelease ∧ t.gr p 3 = 2 ∧
       (∀ g : Reg, (g = 0 ∨ 5 ≤ g) → t.gr p g = s.gr p g) ∧ t.regs = s.regs ∧ t.mem = s.mem) ∧
     (s.serving216 p 1 = true → let owner := (s.gr p 1).toNat
       let count := (s.gr p 2).toNat
       1 ≤ count → count ≤ 16 → 1 ≤ (s.gr p 3).toNat → (s.gr p 3).toNat ≤ 255 → owner < 1024 → s.admitsNormal owner = true →
       (s.freeRuns count) ≠ [] → count ≤ s.freePoolQps.length → ∃ t n, exec (.nqRequest pair) s = .next t ∧ n ∈ s.freeRuns count ∧
         t.gr p 1 = 0 ∧ t.gr p 2 = BitVec.ofNat 64 n ∧ t.gr p 3 = BitVec.ofNat 64 count ∧ t.mem = s.mem) ∧
     (s.serving216 p 2 = true → let n := (s.gr p 1).toNat
       n < 64 → s.rd (R.WLD_NQ_BIND_BOUND.ix n) = 1 → s.calm → ∃ t, exec (.nqRelease pair) s = .next t ∧ t.gr p 1 = 0 ∧
         t.rd (R.WLD_NQ_BIND_BOUND.ix n) = 0 ∧ t.mem = s.mem) ∧
     (s.servingUnknown p = true → ∀ i, (i = .monitorVersion pair ∨ i = .nqRequest pair ∨ i = .nqRelease pair) →
       ∃ t, exec i s = .next t ∧ t.gr p 1 = 1 ∧ (∀ g : Reg, (g = 0 ∨ 5 ≤ g) → t.gr p g = s.gr p g) ∧ t.regs = s.regs ∧ t.mem = s.mem))

/-- R180, R181: CCS_NSTART starts a normal pair in reset at the firmware's entry, level K, registers zero; CCS_NRESET starts one again and says so with NRESET_DONE. -/
def Obligations.PairStarts : Prop :=
  ∀ (s : State) (who : Requester) (p : Nat) (entry : Nat), p = 2 ∨ p = 3 → s.boot.normalEntry = some entry → s.rd (domState (30 + p)) = 0 →
    let fresh := fun (t : State) => (t.core p).run = .running ∧ (t.core p).level = .k ∧ (t.core p).pc = BitVec.ofNat 64 entry ∧ (∀ g : Reg, t.gr p g = 0) ∧
      (t.core p).icache = [] ∧ (t.core p).dcache = [] ∧ (t.core p).resv = none
    (∀ v : Word32, v.toNat = 2 ^ p → s.passes who 0x140010 = true → (s.core p).run = .reset → (s.core p).nstarted = false →
      ∃ t, exec (.ccsNstartWrite who v) s = .next t ∧ fresh t) ∧
    (∀ (v : Nat) (complement : Word32), v = 2 ^ p → s.passesGuarded who 0x140018 complement v → (s.core p).nstarted = true → (s.core p).run ≠ .fenced →
      ∃ t, exec (.ccsNreset who complement) s = .next t ∧ fresh t ∧ (t.rd R.CCS_EVT_NRESET_DONE).testBit p = true)

/-! Chapters 05 and 10: the register space and the access table. -/

/-- R97 to R99, R101: a whole word reaches its register: BOOT_PT_ADDR takes the word, LTS_USER's low half its pattern; a write with fewer than four bytes enabled writes no register: one of a core leaves a store error with its address, one of a host is an uncorrectable error; a host's read is answered with the word, with a Completer Abort where it is refused, and is an Unsupported Request where no function is there to answer it. -/
def Obligations.RegisterWrites : Prop :=
  (∀ (s : State) (p : Nat) (w : World) (l : Level) (v : Word32),
     let who := Requester.core p w l
     (s.passes who 0x20024 = true → ∃ t, exec (.registerWrite who 0x20024 (.write v) 0xF) s = .next t ∧ t.rd R.BOOT_PT_ADDR_ADDR = v.toNat ∧ s.onlyRegs t [R.BOOT_PT_ADDR_ADDR]) ∧
     (s.passes who 0x130020 = true → s.rd R.LTS_USER_PATTERN < 2 ^ 64 → ∃ t, exec (.registerWrite who 0x130020 (.write v) 0xF) s = .next t ∧
       t.rd R.LTS_USER_PATTERN = s.rd R.LTS_USER_PATTERN / 2 ^ 32 * 2 ^ 32 + v.toNat ∧ s.onlyRegs t [R.LTS_USER_PATTERN]) ∧
     (∀ (addr : Nat) (en : BitVec 4), en ≠ 0xF → addr < 2 ^ 33 → s.tableHolds who = false → (∀ g ∈ s.bus.guards, sameSource g.who who = false) →
       s.beatRefusal (classOf who) .write w (regBase + addr) = none → ∃ t, exec (.registerWrite who addr (.write v) en) s = .next t ∧
       (t.core p).storeErrs = (s.core p).storeErrs ++ [(0x40000000 + addr, l)] ∧ { t with cores := s.cores } = s)) ∧
  (∀ (s : State) (port : Port) (addr : Nat) (en : BitVec 4) (v : Word32), addr < 0x400000 →
     let who := Requester.host port 0
     (s.reaches who = true → s.inL1 who = false → s.rd R.ACT_CTRL_UPDATE = 0 →
       (en ≠ 0xF → (∀ g ∈ s.bus.guards, sameSource g.who who = false) → s.beatRefusal (classOf who) .write (worldOf who) (regBase + addr) = none →
         ∃ t, exec (.registerWrite who addr (.write v) en) s = .next t ∧ s.sawEvent t (R.PE_EVT_AER_UNCORR.port port) 0 ∧ t.mem = s.mem ∧
           s.keepsRegs t [R.PE_EVT_AER_UNCORR.port port, (R.PE_EVT_AER_UNCORR.port port).seq]) ∧
       (addr % 4 = 0 → s.wordRefusal who (regBase + addr) = none → ∀ x, s.loadWord who (regBase + addr) = some x →
         ∃ t, exec (.registerWrite who addr (.read 4) en) s = .next t ∧ t.out = .answer who (some (bits x 0 32)) :: s.out ∧ t.mem = s.mem ∧ t.cores = s.cores) ∧
       (addr % 4 = 0 → ∀ r, s.wordRefusal who (regBase + addr) = some r →
         ∃ t, exec (.registerWrite who addr (.read 4) en) s = .next t ∧ t.out.head? = some (.answer who none) ∧ t.rd R.ACT_EVT_VIOLATION = 1 ∧
           t.rd (R.PE_EVT_AER_UNCORR.port port) = 1 ∧ t.mem = s.mem)) ∧
     (s.reaches who = false → s.rd (R.PE_LINK_DL_UP.port port) = 1 → exec (.registerWrite who addr (.read 4) en) s = .next (s.emit (.unsupported who))))

/-- R105: a write to an event register, of any of them, clears the bits it names only where its SEQ is the present one; with another SEQ no register changes; SEQ never changes. R97, R115: a write to an instance that the requester has not, or to the window of a VF that does not exist, changes nothing. -/
def Obligations.EventClear : Prop :=
  ∀ (s : State) (who : Requester) (v : Word32) (off : Nat), isEvt off = true → s.passes who off = true →
    let bank := if isBanked off then (bankOf who).getD 0 else 0
    let mask := v.toNat % 65536
    let cleared := (regFields off).filter fun f => f.lsb < 16
    (s.ignores who off = true → exec (.evtClearWrite who off v) s = .next s) ∧
    (s.ignores who off = false → v.toNat / 65536 ≠ s.rd (seqAt bank off) → ∃ t, exec (.evtClearWrite who off v) s = .next t ∧ t.regs = s.regs ∧ t.mem = s.mem) ∧
    (s.ignores who off = false → v.toNat / 65536 = s.rd (seqAt bank off) → ∃ t, exec (.evtClearWrite who off v) s = .next t ∧ t.rd (seqAt bank off) = s.rd (seqAt bank off) ∧
      (∀ f ∈ cleared, t.rd (f.inst bank) = (s.rd (f.inst bank) - Nat.land (s.rd (f.inst bank)) (mask / 2 ^ f.lsb)) % 2 ^ f.width) ∧
      (off ∉ [0x18, 0x8000C, 0x40010, 0x40014] → s.keepsRegs t (cleared.map fun f => f.inst bank)) ∧ t.mem = s.mem ∧ t.cores = s.cores)

/-- R112, R113: the value half of a guarded write waits; without its complement it is discarded with CAUSE 3, with a wrong one with CAUSE 1, and with a write of its requester to anything else, memory included, with CAUSE 2; the failure is captured with its offset and class, and the register keeps its value. R110, R111: a write to an alias word sets or clears one RW bit of its register and leaves every other; the alias of a guarded field is a guarded-write failure, CAUSE 6, and writes nothing; the alias of a read-only field is dropped. -/
def Obligations.GuardedWrites : Prop :=
  (∀ (s : State) (who : Requester) (v : Word32),
     (∀ off, off ∈ guardedRegs → s.passes who off = true → (∀ g ∈ s.bus.guards, g.off ≠ off) → ∃ t, exec (.guardValueWrite who off v) s = .next t ∧
       t.bus.guards = { off := off, val := v.toNat, who := who } :: s.bus.guards ∧ { t with bus := s.bus } = s) ∧
     (∀ off g, s.bus.guards = [g] → g.off = off → s.rd (R.GLB_GUARD_EVT_GUARD_FAIL.inst 0) = 0 → s.bus.failTimes.length < 15 →
       ∃ t, exec (.guardTimeout off) s = .next t ∧ t.bus.guards = [] ∧ t.rd R.GLB_GUARD_INFO_CAUSE = 3 ∧ t.rd R.GLB_GUARD_INFO_CLASS = classOf g.who % 16 ∧
         t.rd R.GLB_GUARD_INFO_OFFSET = off / 4 % 2 ^ 20 ∧ (∀ k, k < 4 → t.rd (R.GLB_GUARD_EVT_GUARD_FAIL.inst k) = 1) ∧ t.mem = s.mem ∧ t.cores = s.cores) ∧
     (∀ g, s.passes who 0x1000C = true → s.bus.guards = [g] → g.off = 0x10008 → sameSource g.who who = true →
       v.toNat + g.val ≠ 2 ^ 32 - 1 → s.rd (R.GLB_GUARD_EVT_GUARD_FAIL.inst 0) = 0 → s.bus.failTimes.length < 15 →
       ∃ t, exec (.pwrCapWrite who v) s = .next t ∧ t.bus.guards = [] ∧ t.rd R.GLB_GUARD_INFO_CAUSE = 1 ∧ t.rd R.PWR_CAP_CAP = s.rd R.PWR_CAP_CAP ∧ t.mem = s.mem) ∧
     (∀ g a, s.bus.guards = [g] → sameSource g.who who = true → g.off + 4 ≠ bar4Base + a → s.rd (R.GLB_GUARD_EVT_GUARD_FAIL.inst 0) = 0 → s.bus.failTimes.length < 15 →
       let t := s.interleaveAt who a
       t.bus.guards = [] ∧ t.rd R.GLB_GUARD_INFO_CAUSE = 2 ∧ t.rd R.GLB_GUARD_INFO_OFFSET = g.off / 4 % 2 ^ 20 ∧ t.mem = s.mem)) ∧
  (∀ (s : State) (p : Nat) (l : Level) (bit : Fin 32) (v : Word32), s.tableHolds (.core p .secure l) = false → s.bus.guards = [] →
     let who := Requester.core p .secure l
     (s.beatRefusal (classOf who) .write .secure (aliasAddr 0x20024 bit.val) = none → ∃ t, exec (.bitAliasWrite who 0x20024 bit v) s = .next t ∧
       t.rd R.BOOT_PT_ADDR_ADDR = (if v.toNat.testBit 0 then bitSet (s.rd R.BOOT_PT_ADDR_ADDR) bit.val else bitClear (s.rd R.BOOT_PT_ADDR_ADDR) bit.val) % 2 ^ 32 ∧
       s.onlyRegs t [R.BOOT_PT_ADDR_ADDR]) ∧
     (s.beatRefusal (classOf who) .write .secure (aliasAddr 0x10008 0) = none → s.rd (R.GLB_GUARD_EVT_GUARD_FAIL.inst 0) = 0 → s.bus.failTimes = [] →
       ∃ t, exec (.bitAliasWrite who 0x10008 0 v) s = .next t ∧ t.rd R.GLB_GUARD_INFO_CAUSE = 6 ∧ t.rd (R.GLB_GUARD_EVT_GUARD_FAIL.inst 0) = 1 ∧
         t.rd R.PWR_CAP_CAP = s.rd R.PWR_CAP_CAP ∧ t.mem = s.mem) ∧
     (s.beatRefusal (classOf who) .write .secure (aliasAddr 0x10000 bit.val) = none → exec (.bitAliasWrite who 0x10000 bit v) s = .next s))

/-- R107: a request for a wide value clears VALID and remembers its requester; the snapshot sets VALID, with ERR where the requester may not read the value, and with the value's words otherwise. -/
def Obligations.WideValues : Prop :=
  ∀ (s : State),
    (∀ (who : Requester) (v : Word32), s.passes who 0x100 = true → let b := (bankOf who).getD 0
      ∃ t, exec (.wideSelWrite who v) s = .next t ∧ t.rd (R.GLB_WIDE_VALID_VALID.inst b) = 0 ∧ t.rd (R.GLB_WIDE_SEL_OFFSET.inst b) = v.toNat / 4 % 2 ^ 20 ∧
        tblGet none t.bus.wideReq b = some who ∧ t.mem = s.mem) ∧
    (∀ (bank : Fin 4) (who : Requester), let b := bank.val
      tblGet none s.bus.wideReq b = some who → s.tableHolds who = false → s.rd (R.GLB_WIDE_SEL_OFFSET.inst b) < 2 ^ 20 →
      let got := s.snapshot who (4 * s.rd (R.GLB_WIDE_SEL_OFFSET.inst b))
      ∃ t, exec (.wideSnapshotDone bank) s = .next t ∧ t.rd (R.GLB_WIDE_VALID_VALID.inst b) = 1 ∧ t.rd (R.GLB_WIDE_VALID_ERR.inst b) = (if got = none then 1 else 0) ∧
        (∀ k, k < 8 → t.rd ((R.GLB_WIDE_DATA_DATA.ix k).inst b) = got.getD 0 / 2 ^ (32 * k) % 2 ^ 32) ∧ tblGet none t.bus.wideReq b = none ∧ t.mem = s.mem)

/-- R245, R247: an accepted UPDATE = 1 disables the entries, unless LOCK is set, which stays; UPDATE = 0 brings them into effect with UPDATE_DONE and leaves no access held; LOCK = 1 sticks. -/
def Obligations.TableUpdates : Prop :=
  ∀ (s : State) (who : Requester) (complement : Word32) (v : Nat), s.passesGuarded who 0x80000 complement v →
    (v % 4 = 1 → s.rd R.ACT_CTRL_LOCK = 0 → ∃ t, exec (.actUpdateBegin who complement) s = .next t ∧ t.rd R.ACT_CTRL_UPDATE = 1 ∧
      s.keepsRegs t [R.ACT_CTRL_UPDATE] ∧ t.mem = s.mem ∧ t.act = s.act) ∧
    (v % 4 = 1 → s.rd R.ACT_CTRL_LOCK = 1 → ∃ t, exec (.actUpdateBegin who complement) s = .next t ∧ t.regs = s.regs ∧ t.mem = s.mem) ∧
    (v % 4 = 0 → s.rd R.ACT_CTRL_UPDATE = 1 → s.act.held = [] → s.calm → s.emptyEntries = [] → ∃ t, exec (.actUpdateEnd who complement) s = .next t ∧
      t.rd R.ACT_CTRL_UPDATE = 0 ∧ s.sawEvent t R.ACT_EVT_UPDATE_DONE 0 ∧ t.act.held = [] ∧ t.mem = s.mem ∧
      s.keepsRegs t [R.ACT_CTRL_UPDATE, R.ACT_EVT_UPDATE_DONE, R.ACT_EVT_UPDATE_DONE.seq]) ∧
    (v % 4 = 2 → s.rd R.ACT_CTRL_UPDATE = 0 → ∃ t, exec (.actLock who complement) s = .next t ∧ t.rd R.ACT_CTRL_LOCK = 1 ∧ s.keepsRegs t [R.ACT_CTRL_LOCK] ∧ t.mem = s.mem)

/-- R244, R246: an access held too long receives an error response and counts as a violation with its class and address: a held store of a pair leaves a store error and is gone from those held. R235, R244: a write that Table 9-3 refuses writes nothing: a plain write of a normal-world core to PWR_CAP is a violation of SOURCE 2, captured with its class, and an imprecise store error. -/
def Obligations.RefusedAccesses : Prop :=
  (∀ (s : State) (i : Nat) (a : HeldAccess) (p : Nat) (w : World) (l : Level), s.rd R.ACT_CTRL_UPDATE = 1 → s.act.held[i]? = some a → (a.origin = .mem (.core p w l) ∨ a.origin = .bus (.core p w l)) →
     a.kind = .write → s.calm → s.rd R.ACT_EVT_VIOLATION = 0 → ∃ t, exec (.actHoldTimeout i) s = .next t ∧ t.act.held = s.act.held.eraseIdx i ∧
       (t.core p).storeErrs = (s.core p).storeErrs ++ [(a.addr, l)] ∧ t.rd R.ACT_EVT_VIOLATION = 1 ∧ t.rd R.ACT_VIOL_INFO_CLASS = a.cls % 16 ∧
       t.rd R.ACT_VIOL_INFO_KIND = 1 ∧ t.rd R.ACT_VIOL_ADDR_ADDR = a.addr % 2 ^ 40 ∧ t.mem = s.mem) ∧
  (∀ (s : State) (p : Nat) (l : Level) (v : Word32), l ≠ .m → let who := Requester.core p .normal l
     s.rd R.ACT_CTRL_UPDATE = 0 → s.bus.guards = [] → s.beatRefusal (classOf who) .write .normal 0x40010008 = none → s.rd R.ACT_EVT_VIOLATION = 0 →
     ∃ t, exec (.registerWrite who 0x10008 (.write v) 0xF) s = .next t ∧ t.rd R.PWR_CAP_CAP = s.rd R.PWR_CAP_CAP ∧ t.bus.guards = [] ∧ t.rd R.ACT_VIOL_INFO_SOURCE = 2 ∧
       t.rd R.ACT_VIOL_INFO_CLASS = classOf who % 16 ∧ t.rd R.ACT_VIOL_INFO_WORLD = 1 ∧ t.rd R.ACT_VIOL_INFO_KIND = 1 ∧ t.rd R.ACT_VIOL_ADDR_ADDR = 0x40010008 ∧
       (t.core p).storeErrs = (s.core p).storeErrs ++ [(0x40010008, l)] ∧ t.mem = s.mem)

/-! Chapters 06 and 20: event delivery and the recorder. -/

/-- R134, R135, R467: an assertion that is still to be delivered is delivered once, and makes its EVENT record; a source with no entry in either port's map sends nothing, one with an entry in one port's map sends that PF's message; unmasking a vector whose pending bit is set sends its message, or holds it while the port is in D3hot. -/
def Obligations.EventDelivery : Prop :=
  ∀ (s : State),
    (∀ source, (∃ e ∈ s.edges, e % 512 = source) → ∃ t, exec (.eventSourceAssert source) s = .next t ∧ t.mem = s.mem ∧
      (s.evr.queue.length < 32 → t.edges.length + 1 = s.edges.length) ∧
      ((∀ p : Port, s.rd ((R.PE_EVMAP_ENABLE.port p).ix source) = 0) → t.out = s.out) ∧
      (∀ p q : Port, p ≠ q → source ≠ 34 → source ≠ 35 → mappable source = true → s.rd ((R.PE_EVMAP_ENABLE.port p).ix source) = 1 →
        s.rd ((R.PE_EVMAP_ENABLE.port q).ix source) = 0 → s.heldFn (.pf p) = false →
        (s.fnSt (.pf p)).unmasked.testBit (s.rd ((R.PE_EVMAP_VECTOR.port p).ix source)) = true →
        t.out = .msix (.pf p) (s.rd ((R.PE_EVMAP_VECTOR.port p).ix source)) :: s.out)) ∧
    (∀ fn vector, s.fnExists fn = true → vector < s.vectors fn → ∃ t, exec (.msixUnmask fn vector) s = .next t ∧
      (t.fnSt fn).unmasked.testBit vector = true ∧ (t.fnSt fn).msixPend.testBit vector = false ∧
      t.out = (if (s.fnSt fn).msixPend.testBit vector = true ∧ s.heldFn fn = false then .msix fn vector :: s.out else s.out) ∧ t.regs = s.regs ∧ t.mem = s.mem)

/-- R470, R471: a queued record of highest severity is stored and leaves the queue; with an empty slot it takes one and STORED is set, with none it overwrites a record or is dropped. Which of the empty slots is a free value (the model's own choice, log entry 20). R472: a slot index clears VALID and asks for a copy; the copy sets VALID with its slot and shows the record's 64 bytes; an export goes busy, and ends with its result and EXP_DONE. R473: a clearing without a matching approval is refused with RESULT 1; one with it is accepted, RESULT 0; its end empties every slot up to UPTO and sets CLEARED. -/
def Obligations.RecordRows : Prop :=
  (∀ (s : State), s.boot.applied = true → s.evr.clearing = none → s.evr.queue ≠ [] →
     ∃ t r, exec .recordStore s = .next t ∧ r ∈ s.evr.queue ∧ (∀ x ∈ s.evr.queue, x.sev ≤ r.sev) ∧ (∀ x, x ∈ t.evr.queue ↔ x ∈ s.evr.queue ∧ x.seq ≠ r.seq) ∧ t.mem = s.mem ∧
       (s.emptySlots ≠ [] → t.rd R.EVR_EVT_STORED = 1 ∧ ∃ slot ∈ s.emptySlots, tblGet none t.evr.slots slot = some r ∧
         ∀ k, k ≠ slot → tblGet none t.evr.slots k = tblGet none s.evr.slots k) ∧
       (s.emptySlots = [] → t.rd R.EVR_EVT_OVERWRITE = 1 ∨ t.rd R.EVR_EVT_DROPPED = 1)) ∧
  (∀ (s : State),
     (∀ (who : Requester) (v : Word32), s.passes who 0x50040 = true → let b := (bankOf who).getD 0
       ∃ t, exec (.evrRdSelWrite who v) s = .next t ∧ t.rd (R.EVR_RD_SEL_SLOT.inst b) = v.toNat % 2048 ∧ t.rd (R.EVR_RD_VALID_VALID.inst b) = 0 ∧ b ∈ t.evr.rdReq ∧ t.mem = s.mem) ∧
     (∀ (bank : Fin 4), let b := bank.val
       b ∈ s.evr.rdReq → s.rd (R.EVR_RD_SEL_SLOT.inst b) < 2048 → ∃ t, exec (.evrRdCopyDone bank) s = .next t ∧ t.rd (R.EVR_RD_VALID_VALID.inst b) = 1 ∧
         t.rd (R.EVR_RD_VALID_SLOT.inst b) = s.rd (R.EVR_RD_SEL_SLOT.inst b) ∧ b ∉ t.evr.rdReq ∧
         (∀ k, k < 16 → t.rd ((R.EVR_RD_DATA_DATA.ix k).inst b) = leAt (s.slotBytes (s.rd (R.EVR_RD_SEL_SLOT.inst b))) (4 * k) 4) ∧ t.mem = s.mem) ∧
     (∀ (p : Port) (v : Word32), let who := Requester.host p 0
       let b := 2 + p.num
       s.passes who 0x5010C = true → v.toNat.testBit 31 = true → s.rd (R.EVR_EXP_STAT_BUSY.inst b) = 0 → ∃ t, exec (.evrExpGo who v) s = .next t ∧
         t.rd (R.EVR_EXP_STAT_BUSY.inst b) = 1 ∧ t.rd (R.EVR_EXP_STAT_WRITTEN.inst b) = 0 ∧ t.mem = s.mem ∧ t.evr = s.evr) ∧
     (∀ (p : Port) (dmaError : Bool), s.rd (R.EVR_EXP_STAT_BUSY.inst (2 + p.num)) = 1 → (s.port p).d3 = false → ∃ t, exec (.evrExpDone p dmaError) s = .next t ∧
       t.rd (R.EVR_EXP_STAT_BUSY.inst (2 + p.num)) = 0 ∧ t.rd R.EVR_EVT_EXP_DONE = 1 ∧
       t.rd (R.EVR_EXP_STAT_RESULT.inst (2 + p.num)) = (if dmaError then 2 else if (s.expRecs (2 + p.num)).length = 0 then 1 else 0) ∧
       (dmaError = false → t.out.length = s.out.length + (s.expRecs (2 + p.num)).length) ∧ t.evr = s.evr ∧ t.mem = s.mem)) ∧
  (∀ (s : State),
     (∀ (who : Requester) (complement : Word32) (v : Nat), s.passesGuarded who 0x50024 complement v → s.clearCheck (v % 65536) ≠ 0 → s.clearCheck (v % 65536) < 4 →
       ∃ t, exec (.evrClear who complement) s = .next t ∧ t.rd R.EVR_CLR_STATUS_RESULT = s.clearCheck (v % 65536) ∧ t.rd R.EVR_EVT_CLEAR_REFUSED = 1 ∧
         t.evr.slots = s.evr.slots ∧ t.evr.clearing = s.evr.clearing ∧ t.mem = s.mem) ∧
     (∀ (who : Requester) (complement : Word32) (v : Nat), s.passesGuarded who 0x50024 complement v → s.clearCheck (v % 65536) = 0 →
       ∃ t, exec (.evrClear who complement) s = .next t ∧ t.rd R.EVR_CLR_STATUS_RESULT = 0 ∧ t.evr.clearing = some (s.rd R.EVR_CLR_UPTO_UPTO) ∧
         tblGet none t.keys.approvals (v % 65536) = none ∧ t.mem = s.mem) ∧
     (∀ upto, s.evr.clearing = some upto → ∃ t, exec .evrClearingDone s = .next t ∧ t.evr.clearing = none ∧ t.rd R.EVR_EVT_CLEARED = 1 ∧
       (∀ e ∈ t.evr.slots, ∀ r, e.2 = some r → upto < r.seq) ∧ t.mem = s.mem))

/-! Chapters 02 and 04: balls, resets, the start. -/

/-- R5, R32: every register field reads as its table's reset value in the reset state, every general register of the pairs is zero, no queue pair is enabled, nothing has been sent and no command waits. -/
def Obligations.ResetState : Prop :=
  (∀ f : Fld, State.reset.rd f = f.reset) ∧ (∀ (p : Nat) (g : Reg), State.reset.gr p g = 0) ∧ (∀ f q, (State.reset.qp f q).enabled = false) ∧
    State.reset.out = [] ∧ State.reset.pending = [] ∧ ∀ a, 0x40000 ≤ a → State.reset.byte a = 0

/-- R67: POR_N low, and the loss of the device's main supply, reset every group: registers outside the backup domain read as reset, memory, keys, queues, cores and contexts are gone. -/
def Obligations.PowerOnResets : Prop :=
  ∀ (s : State),
    let cleared := fun (t : State) => (∀ f : Fld, keptField true f.key = false → t.rd f = f.reset) ∧ t.mem = [] ∧ t.keys = {} ∧ t.cores = [] ∧ t.qps = [] ∧ t.dsp = {} ∧
      t.evr = {} ∧ t.tap = {} ∧ t.bus = {} ∧ t.pins.porN = false
    (s.pins.porN = true → ∃ t, exec .porNFall s = .next t ∧ cleared t ∧ t.lc = s.lc ∧ t.tmp.bbk = s.tmp.bbk ∧ t.time = s.time) ∧
    (∀ vbat, s.lc.busy = none → s.tmp.killing = false → ∃ t, exec (.devicePowerFail vbat) s = .next t ∧ cleared t ∧ t.pins.pwrgd = false ∧ t.tmp.mainPower = !vbat ∧ t.lc = s.lc)

/-- R68, R70, R440: a start waits for PWRGD, and for a life-cycle transition under way; otherwise POR_N high, or PWRGD high for a start that waits, begins it, TIME at zero; a fall of PWRGD while the device runs sets PWRGD_LOW and resets nothing. R67, R440: WRST_N, and a guarded write of 0x5A to BOOT_RESET, reset the WARM group and start again: memory, keys and contexts are gone, only pair CP0 has begun its boot ROM, the recorder's records stay; while a transition is being programmed the start waits for its end. Another value does nothing. -/
def Obligations.ResetStarts : Prop :=
  (∀ (s : State),
     (s.pins.porN = false → (s.pins.pwrgd = false ∨ s.lc.busy.isSome = true) → ∃ t, exec .porNRise s = .next t ∧ t.pins.porN = true ∧ t.boot.held = true ∧
       t.regs = s.regs ∧ t.mem = s.mem ∧ t.pins.twRole = s.pins.twRoleStrap) ∧
     (s.pins.porN = false → s.pins.pwrgd = true → s.lc.busy = none → s.quiet → ∃ t, exec .porNRise s = .next t ∧ s.started t ∧
       ((lcDecode s.lc).1 ≠ 20 → t.time = 0 ∧ t.rd R.TMP_CYCLES_COUNT = min (s.rd R.TMP_CYCLES_COUNT + 1) (2 ^ 32 - 1))) ∧
     (s.pins.pwrgd = false → s.boot.held = false → ∃ t, exec .pwrgdRise s = .next t ∧ t.pins.pwrgd = true ∧ t.lc.railsSince = s.time ∧ t.regs = s.regs ∧ t.mem = s.mem) ∧
     (s.pins.pwrgd = false → s.boot.held = true → s.lc.busy = none → s.quiet → ∃ t, exec .pwrgdRise s = .next t ∧ s.started t ∧
       ((lcDecode s.lc).1 ≠ 20 → t.time = 0 ∧ t.pins.pwrgd = true)) ∧
     (s.pins.pwrgd = true → s.boot.alive = true → ∃ t, exec .pwrgdFall s = .next t ∧ t.pins.pwrgd = false ∧ t.rd R.BOOT_EVT_PWRGD_LOW = 1 ∧ t.mem = s.mem)) ∧
  (∀ (s : State),
     let cleared := fun (t : State) => t.boot.heldWarm = true ∧ t.mem = [] ∧ t.keys = {} ∧ t.cores = [] ∧ t.qps = [] ∧ t.dsp = {} ∧ t.evr = s.evr ∧ t.lc = s.lc ∧
       (∀ f : Fld, keptField false f.key = false → t.rd f = f.reset)
     let again := fun (t : State) => s.started t ∧ t.mem = [] ∧ t.keys = {} ∧ (∀ p, t.core p = if p = 0 then romCore else {}) ∧ t.qps = [] ∧ t.dsp = {} ∧ t.evr = s.evr ∧ t.lc = s.lc ∧ t.time = s.time
     (s.pins.porN = true → s.boot.held = false → s.lc.busy.isSome = true → ∃ t, exec .wrstNPulse s = .next t ∧ cleared t) ∧
     (s.pins.porN = true → s.boot.held = false → s.lc.busy = none → s.quiet → (lcDecode s.lc).1 ≠ 20 → ∃ t, exec .wrstNPulse s = .next t ∧ again t) ∧
     (∀ (who : Requester) (complement : Word32) (v : Nat), s.passesGuarded who 0x20008 complement v →
       (v % 256 = 0x5A → s.lc.busy.isSome = true → ∃ t, exec (.bootReset who complement) s = .next t ∧ cleared t) ∧
       (v % 256 = 0x5A → s.lc.busy = none → s.quiet → (lcDecode s.lc).1 ≠ 20 → ∃ t, exec (.bootReset who complement) s = .next t ∧ again t) ∧
       (v % 256 ≠ 0x5A → ∃ t, exec (.bootReset who complement) s = .next t ∧ { t with bus := s.bus } = s)))

/-- R71, R75, R93, R39: the events around READY, the flash pass-through and the STATUS pulse. -/
def Obligations.StartRows : Prop :=
  ∀ (s : State),
    (∀ who (v : Word32), s.passes who 0x20010 = true → v.toNat.testBit 0 = true → ∃ t, exec (.fwReadyWrite who v) s = .next t ∧ t.rd R.BOOT_CTRL_FW_READY = 1 ∧
      s.onlyRegs t [R.BOOT_CTRL_FW_READY]) ∧
    (s.boot.katDone = true → s.rd R.BOOT_CTRL_FW_READY = 1 → s.step12 = true → s.rd R.GLB_STATUS_READY = 0 → ∃ t, exec .readyRise s = .next t ∧
      t.rd R.GLB_STATUS_READY = 1 ∧ t.rd R.BOOT_STATUS_STAGE = 7 ∧ t.boot.cfgOpen = true ∧ t.mem = s.mem ∧
      (∀ k, k < 4 → t.rd (R.GLB_EVT_STATUS.inst k) = 1)) ∧
    (s.boot.alive = true → s.rd R.GLB_STATUS_READY = 0 → s.boot.limit = false → ∃ t, exec .readyTimeout s = .next t ∧ t.boot.limit = true ∧ t.boot.cfgOpen = true ∧
      { t with boot := s.boot } = s) ∧
    (s.boot.alive = true → s.boot.keysDrawn = false → s.rd R.ENT_STATUS_READY = 0 → ∃ t, exec .entropyStartTimeout s = .next t ∧
      (s.rd R.GLB_STATUS_RECOVERY = 0 → t.rd R.GLB_STATUS_RECOVERY = 1 ∧ t.rd R.BOOT_STATUS_STAGE = 8 ∧ t.rd R.BOOT_STATUS_RECOVERY_CAUSE = 2 ∧ t.cfg.sideband = false)) ∧
    (∀ p l (v : Word32), let who := Requester.core p .secure l
      s.passes who 0x20028 = true → v.toNat.testBit 0 = true → s.rd R.GLB_STATUS_READY = 1 → s.domAnswers 26 = true → s.rd R.BOOT_PT_STAT_BUSY = 0 →
      s.rd R.BOOT_PT_CMD_LEN ≤ 256 → ∃ t, exec (.bootPtGo who v) s = .next t ∧ t.rd R.BOOT_PT_STAT_BUSY = 1 ∧ t.rd R.BOOT_PT_STAT_RESULT = 0 ∧ t.mem = s.mem ∧
        t.out = .flash (if s.rd R.BOOT_STATUS_XSPI_SINGLE = 0 then s.rd R.BOOT_PT_CMD_CMD else s.rd R.BOOT_PT_CMD_CMD % 256)
          (if s.rd R.BOOT_PT_CMD_ADDR_EN = 0 then 0 else s.rd R.BOOT_PT_ADDR_ADDR) (s.rd R.BOOT_PT_CMD_LEN) (decide (s.rd R.BOOT_PT_CMD_DIR = 0)) (s.rd R.BOOT_PT_CMD_ADDR_EN)
          (s.rd R.BOOT_PT_CMD_DUMMY) (if s.rd R.BOOT_PT_CMD_DIR = 0 then s.ptBuf.take (s.rd R.BOOT_PT_CMD_LEN) else []) :: s.out) ∧
    (∀ result data cmd addr len dir, (result = 0 ∧ s.tap.extest = false ∨ result = 3) → s.boot.ptCmd = some (cmd, addr, len, dir) → ∃ t, exec (.ptCommandDone result data) s = .next t ∧
      t.rd R.BOOT_PT_STAT_BUSY = 0 ∧ t.rd R.BOOT_PT_STAT_RESULT = result ∧ t.boot.ptCmd = none ∧
      t.rd (if result = 0 then R.BOOT_EVT_PT_DONE else R.BOOT_EVT_PT_ERROR) = 1 ∧ (∀ k, k < 64 → t.rd (R.BOOT_PT_BUF_DATA.ix k) =
        if dir = true ∧ result = 0 then leAt (fit len data ++ s.ptBuf.drop len) (4 * k) 4 else s.rd (R.BOOT_PT_BUF_DATA.ix k))) ∧
    (s.pins.cmdPulse = true → ∃ t, exec .statusCommandPulseEnd s = .next t ∧ t.pins.cmdPulse = false ∧ { t with pins := s.pins } = s)

/-- R78 to R81, R89, R73: the result of a copy of the image shows in BOOT_STATUS; a copy that is not good sets its event and leaves general SRAM clear; with both bad in 1-1-1 mode the device enters the recovery state with cause 1, and after bad headers in 8D-8D-8D mode the copies are read again; a good copy is applied; step 11 ends in stage 6. -/
def Obligations.ImageAndTests : Prop :=
  ∀ (s : State),
    (∀ img : ImageRead, s.expects img = true → (s.tap.extest = true → img.readOk = false) →
      (img.copyB = false → s.copyResult img ≠ 1 → s.copyResult img ≠ 4 → s.copyResult img ≠ 5 → s.copyResult img < 16 →
        ∃ t, exec (.imageCopyReadDone img) s = .next t ∧ t.boot.applied = false ∧ t.rd R.BOOT_STATUS_A_RESULT = s.copyResult img ∧ t.rd R.BOOT_EVT_COPY_A_BAD = 1 ∧
          ∀ a, t.byte a = if sramBase ≤ a ∧ a < sramBase + 0x800000 then 0 else s.byte a) ∧
      (img.copyB = true → s.copyResult img ≠ 1 → (headerBad img && s.boot.headerBadA) = false →
        ∃ t, exec (.imageCopyReadDone img) s = .next t ∧ t.rd R.BOOT_STATUS_STAGE = 8 ∧ t.rd R.BOOT_STATUS_RECOVERY_CAUSE = 1 ∧ t.rd R.GLB_STATUS_RECOVERY = 1) ∧
      (img.copyB = true → s.copyResult img ≠ 1 → (headerBad img && s.boot.headerBadA) = true →
        ∃ t, exec (.imageCopyReadDone img) s = .next t ∧ t.rd R.BOOT_STATUS_XSPI_SINGLE = 1 ∧ t.rd R.BOOT_STATUS_A_RESULT = 0 ∧ t.rd R.BOOT_STATUS_B_RESULT = 0) ∧
      (∃ t, exec (.imageCopyReadDone img) s = .next t ∧ t.boot.applied = decide (s.copyResult img = 1))) ∧
    (∀ units pairs, s.boot.applied = true → s.boot.katDone = false → (∀ u ∈ units, katFails u = true) → (∀ p ∈ pairs, p < 4) →
      ∃ t, exec (.bootKatDone units pairs) s = .next t ∧ t.boot.katDone = true ∧ t.rd R.BOOT_STATUS_STAGE = 6)

/-! Chapter 18: the life cycle, the test access port, debug. -/

/-- R436, R437: a request that its check refuses shows the reason in RESULT with REFUSED, starts nothing and clears the token; an accepted one marks the part as in transition; one to RMA also erases the BBK and the device secret, one to SCRAP the BBK and begins the kill word. R439, R433, R453: a transition that is programmed ends with RESULT 0 and DONE, the next state decoded from OTP; one that fails has RESULT 6; a repaired word has three whole copies, and a repair that fails sets REPAIR_FAIL; the kill word ends with every bit set. -/
def Obligations.LifeCycleRows : Prop :=
  (∀ (s : State),
     (∀ (who : Requester) (complement : Word32) (v : Nat), s.passesGuarded who 0x30004 complement v →
       let s0 := (s.dropGuard 0x30004).wr R.LC_TARGET_TARGET (v % 32)
       let r := s0.lcCheck false (v % 32) s0.lcToken
       (r ≠ 0 → r < 8 → ∃ t, exec (.lcTargetWrite who complement) s = .next t ∧ t.rd R.LC_STATUS_RESULT = r ∧ t.rd R.LC_EVT_REFUSED = 1 ∧ t.lc = s.lc ∧ t.mem = s.mem ∧
         ∀ k, k < 4 → t.rd (R.LC_TOKEN_TOKEN.ix k) = 0) ∧
       (r = 0 → v % 32 ≠ 18 → v % 32 ≠ 19 → ∃ t, exec (.lcTargetWrite who complement) s = .next t ∧ t.lc.busy = some { target := v % 32, tap := false } ∧
         t.rd R.LC_STATE_TRANSITIONED = 1 ∧ t.lc.words = s.lc.words ∧ t.mem = s.mem) ∧
       (v % 32 = 18 → ∃ t, exec (.lcTargetWrite who complement) s = .next t ∧ (r = 0 → t.tmp.bbk = [] ∧ t.lc.dsec = BitVec.allOnes 256)) ∧
       (r = 0 → v % 32 = 19 → s.tmp.inForce = none → ∃ t, exec (.lcTargetWrite who complement) s = .next t ∧ t.tmp.bbk = [] ∧ t.tmp.killing = true)) ∧
     (∀ dr : BitVec 136, s.pins.trstN = true → let target := dr.toNat % 256
       let s0 := s.tapSelect 0x10
       let r := s0.lcCheck true target (leBytes 16 (dr.toNat / 256))
       (r ≠ 0 → r < 8 → ∃ t, exec (.lcReq dr) s = .next t ∧ t.rd R.LC_STATUS_RESULT = r ∧ t.rd R.LC_EVT_REFUSED = 1 ∧ t.tap.ir = 0x10 ∧ t.lc = s.lc ∧ t.mem = s.mem) ∧
       (r = 0 → target ≠ 18 → target ≠ 19 → ∃ t, exec (.lcReq dr) s = .next t ∧ t.lc.busy = some { target := target, tap := true } ∧ t.tap.ir = 0x10 ∧ t.mem = s.mem))) ∧
  (∀ (s : State),
     (∀ q, s.lc.busy = some q → s.boot.held = false → s.boot.heldWarm = false →
       (∃ t, exec (.lcTransitionDone none) s = .next t ∧ t.lc.busy = none ∧ t.rd R.LC_STATUS_RESULT = 0 ∧ t.rd R.LC_EVT_DONE = 1 ∧ t.mem = s.mem) ∧
       ∀ f, ∃ t, exec (.lcTransitionDone (some f)) s = .next t ∧ t.lc.busy = none ∧ t.rd R.LC_STATUS_RESULT = 6 ∧ t.mem = s.mem) ∧
     (∀ w, s.lc.busy = none → s.reserveOk = true → (s.rd R.GLB_STATUS_READY = 1 ∨ s.recovery = true) → w ≠ 0 → highestWord s.lc.words 18 = w → wordSet (tblGet {} s.lc.words w) = true →
       (copyShort (tblGet {} s.lc.words w).c0 || copyShort (tblGet {} s.lc.words w).c1 || copyShort (tblGet {} s.lc.words w).c2) = true →
       (∃ t, exec (.lcRepair w true) s = .next t ∧ t.rd R.LC_EVT_REPAIR_FAIL = 1 ∧ (∀ k, k ≠ w → tblGet {} t.lc.words k = tblGet {} s.lc.words k) ∧ t.mem = s.mem) ∧
       ∃ t, exec (.lcRepair w false) s = .next t ∧ t.rd R.LC_EVT_REPAIRED = 1 ∧ tblGet {} t.lc.words w = repaired (tblGet {} s.lc.words w) ∧
         (∀ k, k ≠ w → tblGet {} t.lc.words k = tblGet {} s.lc.words k) ∧ t.mem = s.mem) ∧
     (s.tmp.killing = true → (∀ r, s.lc.busy = some r → r.target = 19) → ∃ t, exec .killWordProgrammed s = .next t ∧ t.rd R.LC_STATE_KILLED = 1 ∧ t.rd R.LC_STATE_NEXT = 19 ∧
       t.tmp.killing = false ∧ t.lc.kill = List.replicate 3 (BitVec.allOnes 128) ∧ t.mem = s.mem ∧ s.keepsRegs t [R.LC_STATE_KILLED, R.LC_STATE_NEXT]))

/-- R35, R444 to R447: a reset of the port selects IDCODE; with TRST_N high each instruction is shown selected, IDCODE shifts out 0xB0960001, unlisted codes and TEST_MODE outside its states shift one bit; with TRST_N low none is taken; no instruction of the port changes memory. -/
def Obligations.TapInstructions : Prop :=
  ∀ (s : State),
    (∃ t, exec .tapReset s = .next t ∧ t.tap.ir = 2 ∧ t.tap.extest = false ∧ { t.pins with trstN := s.pins.trstN } = s.pins ∧
      { t with tap := s.tap, pins := s.pins, freeCtr := s.freeCtr } = s) ∧
    (s.pins.trstN = false → ∀ i ∈ [Instr.idcode, .lcStatus, .dbgAccess], exec i s = .next s) ∧
    (s.pins.trstN = true →
      (∃ t, exec .idcode s = .next t ∧ t.tap.ir = 2 ∧ t.out = .tdo 32 0xB0960001 :: s.out ∧ t.regs = s.regs ∧ t.mem = s.mem) ∧
      (∃ t, exec .lcStatus s = .next t ∧ t.tap.ir = 0x11 ∧ t.out = .tdo 64 (s.word 0 0x30000 + s.word 0 0x30020 * 2 ^ 32) :: s.out ∧ t.regs = s.regs ∧ t.mem = s.mem) ∧
      (∃ t, exec .dbgAccess s = .next t ∧ t.tap.ir = 0x20 ∧ t.dbgPort = true ∧ { t with tap := s.tap } = s)) ∧
    (∀ dr, (s.pins.trstN = false → ∀ i ∈ [Instr.extest dr, .samplePreload dr, .bypass dr, .testMode dr], exec i s = .next s) ∧
      (s.pins.trstN = true →
        (∃ t, exec (.extest dr) s = .next t ∧ t.tap.ir = 0 ∧ t.tap.extest = true ∧ t.tap.boundary = dr ∧ { t with tap := s.tap } = s) ∧
        (∃ t, exec (.samplePreload dr) s = .next t ∧ t.tap.ir = 1 ∧ t.tap.extest = false ∧ t.tap.boundary = dr ∧ t.regs = s.regs ∧ t.mem = s.mem) ∧
        (∃ t, exec (.bypass dr) s = .next t ∧ t.tap.ir = 0xFF ∧ t.out = .tdo 1 0 :: s.out ∧ t.regs = s.regs ∧ t.mem = s.mem) ∧
        (s.testState = true → ∃ t, exec (.testMode dr) s = .next t ∧ t.tap.ir = 0x30 ∧ t.tap.testMode = true ∧ { t with tap := s.tap } = s) ∧
        (s.testState = false → ∃ t, exec (.testMode dr) s = .next t ∧ t.tap.testMode = false ∧ t.out = .tdo 1 0 :: s.out ∧ t.mem = s.mem)))

/-- R223, R224, R242: with the debug port open a halt is carried out under the control enable of the pair's world, or held; a halted pair steps; it resumes once the enable has left effect; a debug read under the enable reads a general register, and one without it is recorded and changes no register of the pair. -/
def Obligations.DebugRows : Prop :=
  ∀ (s : State) (pair : Fin 4), let p := pair.val
    let c := s.core p
    (s.dbgPort = true → c.run = .running → s.waitsAtTable p = false → ∃ t, exec (.debugHaltRequest pair) s = .next t ∧
      (s.ctrlOn (s.worldOfPair p) = true → (t.core p).run = .halted ∧ (t.core p).haltWorld = some (s.worldOfPair p)) ∧
      (s.ctrlOn (s.worldOfPair p) = false → (t.core p).run = .running ∧ (t.core p).haltReq = true) ∧ (t.core p).pc = c.pc ∧ { t with cores := s.cores } = s) ∧
    (s.dbgPort = true → c.run = .halted → s.ctrlOn (s.worldOfPair p) = true → ∃ t, exec (.debugStep pair) s = .next t ∧ (t.core p).stepping = true ∧ (t.core p).rest = c.rest ∧
      { t with cores := s.cores } = s) ∧
    (∀ w, c.run = .halted → c.haltWorld = some w → s.ctrlOn w = false → ∃ t, exec (.debugEnableLeave pair) s = .next t ∧ (t.core p).run = .running ∧ (t.core p).haltWorld = none ∧
      (t.core p).pc = c.pc ∧ { t with cores := s.cores } = s) ∧
    (∀ (w : World) (g : Reg), s.dbgPort = true → s.ctrlOn w = true → s.worldOfPair p = w → c.run ≠ .fenced →
      (∃ t, exec (.debugAccess w (.general pair g) none) s = .next t ∧ t.out = .answer (.debug w) (some (s.gr p g).toNat) :: s.out ∧ t.regs = s.regs ∧ t.cores = s.cores ∧ t.mem = s.mem) ∧
      ∀ v : Word64, ∃ t, exec (.debugAccess w (.general pair g) (some (leBytes 8 v.toNat))) s = .next t ∧ (∀ a : Reg, t.gr p a = if a = g ∧ a ≠ 31 then v else s.gr p a) ∧ t.regs = s.regs ∧ t.mem = s.mem) ∧
    (∀ (w : World) (g : Reg), s.dbgPort = true → s.ctrlOn w = false → ∃ t, exec (.debugAccess w (.general pair g) none) s = .next t ∧ t.cores = s.cores ∧ t.rd R.ACT_EVT_DEBUG_VIOL = 1 ∧ t.mem = s.mem)

/-! Chapter 19: tamper and the backup domain. -/

/-- R449 to R451, R458, R460: conditions, loops, the hour counter and the loss of the backup domain. R36, R453, R456, R461: zeroization ends; TEST_EN high in a test state raises nothing; a resume with another value than 0xA5 does nothing, and with it records its result; a clearing that may clear no flag changes no register. -/
def Obligations.BackupAndTamper : Prop :=
  (∀ (s : State),
     (∀ src, src < 24 → (s.rd R.TMP_COND_SRC).testBit src = true → ∃ t, exec (.alarmConditionEnd src) s = .next t ∧ (t.rd R.TMP_COND_SRC).testBit src = false ∧
       s.keepsRegs t [R.TMP_COND_SRC] ∧ t.mem = s.mem ∧ t.tmp = s.tmp) ∧
     (s.tmp.mainPower = false → ∃ t, exec .backupDomainReset s = .next t ∧ t.tmp.bbk = [] ∧ t.tmp.marker = false ∧ t.rd R.TMP_HOURS_COUNT = 0 ∧ t.rd R.TMP_FLAGS_SRC = R.TMP_FLAGS_SRC.reset ∧ t.mem = s.mem) ∧
     (s.pins.porN = true → s.pins.pwrgd = true → ∃ t, exec .operatingHourTick s = .next t ∧
       t.rd R.TMP_HOURS_COUNT = min (s.rd R.TMP_HOURS_COUNT + 1) (2 ^ 32 - 1) ∧ t.tmp.subHour = 0 ∧ s.keepsRegs t [R.TMP_HOURS_COUNT] ∧ t.mem = s.mem) ∧
     (∀ (n : Fin 4) level, s.loopOn n.val = false → ∃ t, exec (.tamperLoopSample n level) s = .next t ∧ t.regs = s.regs ∧ t.mem = s.mem ∧ t.tmp.bbk = s.tmp.bbk) ∧
     (∀ (n : Fin 4) level, s.tmp.mainPower = false → s.loopOn n.val = true → level ≠ s.loopBit n.val → (s.rd R.TMP_COND_SRC).testBit n.val = false →
       ∃ t, exec (.tamperLoopSample n level) s = .next t ∧ (t.rd R.TMP_COND_SRC).testBit n.val = true ∧ t.tmp.bbk = [] ∧ t.mem = s.mem) ∧
     (∀ (n : Fin 4) level, s.loopOn n.val = true → level = s.loopBit n.val → ∃ t, exec (.tamperLoopSample n level) s = .next t ∧
       (t.rd R.TMP_COND_SRC).testBit n.val = false ∧ s.keepsRegs t [R.TMP_COND_SRC] ∧ t.mem = s.mem) ∧
     (∃ t, exec .xtalStop s = .next t ∧ t.rd R.TMP_BKP_STATUS_XTAL_STOP = 1 ∧ (s.tmp.mainPower = false → t.mem = s.mem ∧
       (∀ n, n < 4 → s.loopOn n = true → (t.rd R.TMP_COND_SRC).testBit n = true ∧ ((s.rd R.TMP_COND_SRC).testBit n = false → t.tmp.bbk = []))))) ∧
  (∀ (s : State),
     (s.tmp.zeroing = true → ∃ t, exec .zeroizationDone s = .next t ∧ t.tmp.zeroing = false ∧ t.regs = s.regs ∧ t.mem = s.mem) ∧
     ((s.testState = true ∨ s.boot.alive = false) → ∃ t, exec .debugIntrusionLevel s = .next t ∧ t.pins.testHigh = true ∧ { t with pins := s.pins } = s) ∧
     (∀ (who : Requester) (complement : Word32) (v : Nat), s.passesGuarded who 0x40030 complement v →
       (v % 256 ≠ 0xA5 → ∃ t, exec (.tmpResume who complement) s = .next t ∧ { t with bus := s.bus } = s) ∧
       (v % 256 = 0xA5 → s.resumeCheck ≠ 0 → s.resumeCheck < 4 → ∃ t, exec (.tmpResume who complement) s = .next t ∧ t.rd R.TMP_STATUS_RESUME_RESULT = s.resumeCheck ∧
         s.keepsRegs t [R.TMP_STATUS_RESUME_RESULT] ∧ t.mem = s.mem) ∧
       (v % 256 = 0xA5 → s.resumeCheck = 0 → ∃ t, exec (.tmpResume who complement) s = .next t ∧ t.rd R.TMP_STATUS_RESUME_RESULT = 0 ∧ t.rd R.GLB_STATUS_SUSPENDED = 0 ∧ t.mem = s.mem)) ∧
     (∀ (who : Requester) (complement : Word32) (v : Nat), s.passesGuarded who 0x40028 complement v → s.clearable v = 0 →
       ∃ t, exec (.tmpFlagClr who complement) s = .next t ∧ t.regs = s.regs ∧ t.mem = s.mem) ∧
     (∀ (who : Requester) (complement : Word32) (v src : Nat), s.passesGuarded who 0x40028 complement v → src < 24 → s.clearable v = 2 ^ src →
       ∃ t, exec (.tmpFlagClr who complement) s = .next t ∧ (t.rd R.TMP_FLAGS_SRC).testBit src = false ∧ t.rd R.TMP_BKP_STATUS_XTAL_STOP = 0 ∧ t.mem = s.mem))

/-- R449, R452, R453, R459: a monitored condition that appears sets its condition bit and latches its flag; on VBAT the BBK is erased and ACTED stays clear; under main power its event is set, a response code of 4 or more erases the BBK and code 5 begins the kill word. -/
def Obligations.AlarmRaised : Prop :=
  ∀ (s : State) (src : Nat), src < 24 → (s.rd R.TMP_COND_SRC).testBit src = false →
    let raised := fun (t : State) => (src < 14 ∨ src = 23 → (t.rd R.TMP_COND_SRC).testBit src = true) ∧ (t.rd R.TMP_FLAGS_SRC).testBit src = true
    (backupSource src = true → s.tmp.mainPower = false → ∃ t, exec (.alarmRaise src) s = .next t ∧ raised t ∧ (t.rd R.TMP_ACTED_SRC).testBit src = false ∧ t.tmp.bbk = [] ∧ t.mem = s.mem) ∧
    (s.boot.alive = true → s.tmp.mainPower = true → (src = 23 → s.testState = false) →
      (s.respCode src ≤ 1 → ∃ t, exec (.alarmRaise src) s = .next t ∧ raised t ∧ (t.rd R.TMP_ACTED_SRC).testBit src = true ∧
        (t.rd (alarmEvt src).1).testBit (alarmEvt src).2 = true ∧ t.mem = s.mem ∧ t.tmp.bbk = s.tmp.bbk) ∧
      (4 ≤ s.respCode src → s.tmp.inForce = none → ∃ t, exec (.alarmRaise src) s = .next t ∧ t.tmp.bbk = [] ∧ (s.respCode src = 5 → t.tmp.killing = true))) ∧
    (src = 23 → s.boot.alive = true → s.testState = false → s.tmp.mainPower = true → s.respCode 23 ≤ 1 →
      ∃ t, exec .debugIntrusionLevel s = .next t ∧ t.pins.testHigh = true ∧ raised t ∧ t.mem = s.mem)

/-! Chapters 06 and 07: functions, ports, queue pairs. -/

/-- R71, R120, Table 6-2: before READY or its limit a function answers a configuration request with Request Retry Status; after it a read answers the word, of word 0 the identifiers the table gives; a write is answered, and of a word that has no further effect exactly the writable bits take the value written. -/
def Obligations.ConfigurationRequests : Prop :=
  ∀ (s : State) (fn : Fn) (off : Nat), s.fnExists fn = true → off % 4 = 0 → off < 4096 →
    (s.boot.cfgOpen = false → ∀ w, ∃ t, exec (.configRequest fn off w) s = .next t ∧ t.out = .cfg fn none :: s.out ∧ { t with out := s.out } = s) ∧
    (s.boot.cfgOpen = true →
      (∃ t, exec (.configRequest fn off none) s = .next t ∧ t.out = .cfg fn (some (s.cfgWord fn off)) :: s.out ∧ { t with out := s.out } = s ∧
        (off = 0 → s.cfgWord fn off = if fn.isVf then 0xFFFFFFFF else 0x09601E5A)) ∧
      (∀ v : Word32, ∃ t, exec (.configRequest fn off (some v)) s = .next t ∧
        (off ≠ 0x44 → off ≠ 0x58 → off ≠ 0x168 → off ≠ aerStatus → t.out = .cfg fn (some 0) :: s.out ∧ t.regs = s.regs ∧ t.mem = s.mem ∧ t.dsp = s.dsp ∧
          t.cfgWord fn off = (s.cfgSpec fn off).fixed + Nat.land v.toNat (s.cfgSpec fn off).mask)))

/-- R122 to R129, R524, R525: VF Enable, function resets and their ends, PERST_N, the link, D3hot. -/
def Obligations.PortRows : Prop :=
  ∀ (s : State) (p : Port), let x := s.port p
    let pin := fun (t : State) => match p with | .a => t.pins.perstNA | .b => t.pins.perstNB
    (∀ n, s.pfAlive p = true → s.boot.cfgOpen = true → s.rd R.GLB_STATUS_RECOVERY = 0 → x.vfEnable = false → x.resetKind = 0 → n ≤ s.maxVf p → 0 < s.maxVf p →
      ∃ t, exec (.vfEnableSet p n) s = .next t ∧ (t.port p).vfEnable = true ∧ (t.port p).numVfs = n ∧ t.rd (R.PE_EVT_VF_ENABLE.port p) = 1 ∧ t.mem = s.mem) ∧
    (x.vfEnable = true → x.resetKind = 0 → ∃ t, exec (.vfEnableClear p) s = .next t ∧ (t.port p).vfEnable = false ∧ (t.port p).resetKind = 2 ∧
      ∀ n, n ∈ s.vfsOf p → t.rd (R.VFS_STATE_STATE.vf p n) = 3) ∧
    (s.pfAlive p = true → s.rd (R.PE_LINK_DL_UP.port p) = 1 → ∃ t, exec (.pfFlr p) s = .next t ∧ (t.port p).pfReset = true ∧ (t.port p).resetKind = 1) ∧
    (∀ n, s.vfExists p n = true →
      (s.rd (R.VFS_STATE_STATE.vf p n) = 1 → ∃ t, exec (.vfFlr p n) s = .next t ∧ t.rd (R.VFS_STATE_STATE.vf p n) = 2) ∧
      (s.rd (R.VFS_STATE_STATE.vf p n) = 0 → ∃ t, exec (.vfFlr p n) s = .next t ∧ t.rd (R.PE_EVT_FLR_VF.port p) = 1)) ∧
    (x.resetKind ≠ 0 → ∃ t, exec (.functionResetDone (.pf p)) s = .next t ∧ (t.port p).pfReset = false ∧ (t.port p).resetKind = 0 ∧
      (x.resetKind = 1 → t.rd (R.PE_EVT_FLR_PF.port p) = 1)) ∧
    (∀ n, x.resetKind = 0 → s.dsp.inflight = [] →
      (s.rd (R.VFS_STATE_STATE.vf p n) = 2 → ∃ t, exec (.functionResetDone (.vf p n)) s = .next t ∧ t.rd (R.VFS_STATE_STATE.vf p n) = 1 ∧ t.rd (R.PE_EVT_FLR_VF.port p) = 1 ∧ t.mem = s.mem) ∧
      (s.rd (R.VFS_STATE_STATE.vf p n) = 3 → ∃ t, exec (.functionResetDone (.vf p n)) s = .next t ∧ t.rd (R.VFS_STATE_STATE.vf p n) = 0 ∧ t.mem = s.mem)) ∧
    (pin s = true → ∃ t, exec (.perstNAssert p) s = .next t ∧ pin t = false ∧ (t.port p).pfReset = true ∧ (t.port p).resetKind = 3 ∧ t.rd (R.PE_LINK_DL_UP.port p) = 0) ∧
    (pin s = false → s.boot.alive = true → ∃ t, exec (.perstNRise p) s = .next t ∧ pin t = true ∧ t.mem = s.mem ∧
      ((p = .b → s.cfg.portBEn = true) → t.rd (R.PE_EVT_PERST.port p) = 1) ∧ (p = .b → s.cfg.portBEn = false → { t with pins := s.pins } = s)) ∧
    (s.rd (R.PE_LINK_DL_UP.port p) = 1 → ∃ t, exec (.dlDown p) s = .next t ∧ t.rd (R.PE_LINK_DL_UP.port p) = 0 ∧ t.rd (R.PE_EVT_LINK_DOWN.port p) = 1 ∧ (t.port p).resetKind = 4) ∧
    (∀ speed width rev, x.training = true → s.inTest p.num = false → linkFits speed width = true → ∃ t, exec (.dlUp p speed width rev) s = .next t ∧ t.rd (R.PE_LINK_SPEED.port p) = speed ∧
      t.rd (R.PE_LINK_WIDTH.port p) = width ∧ t.rd (R.PE_LINK_DL_UP.port p) = 1 ∧ t.rd (R.PE_EVT_LINK_UP.port p) = 1 ∧ (t.port p).training = false ∧ t.mem = s.mem) ∧
    (s.rd (R.PE_LINK_DL_UP.port p) = 1 → s.rd (R.PE_LINK_L1.port p) = 0 → ∃ t, exec (.linkL1Entry p) s = .next t ∧ t.rd (R.PE_LINK_L1.port p) = 1 ∧ s.onlyRegs t [R.PE_LINK_L1.port p]) ∧
    (∀ speed width, s.rd (R.PE_LINK_DL_UP.port p) = 1 → linkFits speed width = true → ∃ t, exec (.linkSpeedChange p speed width) s = .next t ∧
      t.rd (R.PE_LINK_SPEED.port p) = speed ∧ t.rd (R.PE_LINK_WIDTH.port p) = width ∧ t.mem = s.mem ∧
      (s.rd (R.PE_LINK_SPEED.port p) ≠ speed ∨ s.rd (R.PE_LINK_WIDTH.port p) ≠ width → t.rd (R.PE_EVT_SPEED_CHANGE.port p) = 1)) ∧
    (s.pfAlive p = true → x.d3 = false → ∃ t, exec (.pfD3hotEntry p) s = .next t ∧ (t.port p).d3 = true ∧ t.regs = s.regs ∧ t.mem = s.mem ∧ t.out = s.out) ∧
    (∃ t, exec (.pfD0Return p) s = .next t ∧ (t.port p).d3 = false ∧ (t.port p).held = [] ∧ t.out = (byRank x.held).reverse ++ s.out ∧ t.regs = s.regs ∧ t.mem = s.mem)

/-- R119, R143 to R147: a doorbell of an enabled queue pair moves its index alone; one whose index lies outside its queue puts the queue pair into error; one of a disabled queue pair sets DB_DISABLED; a doorbell that arrives in L1 waits, and is served as the link leaves it. R142, R150, R151: writing ENABLE brings a queue pair whose registers pass their check into service, and records the failed check otherwise; clearing it deletes one with no fetched command; the coalescing time sends the message of entries that wait. -/
def Obligations.QueuePairRows : Prop :=
  (∀ (s : State) (fn : Fn) (q : Nat) (v : Word32), q < doorbells fn →
     let x := s.qp fn q
     let i := v.toNat % 4096
     let only := fun (t : State) => (∀ g k, qpId g k ≠ qpId fn q → t.qp g k = s.qp g k) ∧ { t with qps := s.qps } = s
     ((fn ≠ .nw → s.rd (R.PE_LINK_L1.port fn.port) = 0) → s.doorbellDrop fn q = none →
       (s.passes (fnRequester fn) (doorbellOff fn q true) = true →
         (x.enabled = true → i < 2 ^ x.sqLog2 → ∃ t, exec (.sqTailDoorbell fn q v) s = .next t ∧ t.qp fn q = { x with sqTail := i } ∧ only t) ∧
         (x.enabled = true → 2 ^ x.sqLog2 ≤ i → ∃ t, exec (.sqTailDoorbell fn q v) s = .next t ∧ (t.qp fn q).error = true ∧ (t.qp fn q).sqTail = x.sqTail ∧ t.mem = s.mem) ∧
         (x.enabled = false → ∃ t, exec (.sqTailDoorbell fn q v) s = .next t ∧ t.rd (qzEvt R.QZ_EVT_DB_DISABLED fn) = 1 ∧ t.qps = s.qps ∧ t.mem = s.mem)) ∧
       (s.passes (fnRequester fn) (doorbellOff fn q false) = true → x.enabled = true → i < 2 ^ x.cqLog2 →
         (i + 2 ^ x.cqLog2 - x.cqHead) % 2 ^ x.cqLog2 ≤ (x.cqTail + 2 ^ x.cqLog2 - x.cqHead) % 2 ^ x.cqLog2 →
         ∃ t, exec (.cqHeadDoorbell fn q v) s = .next t ∧ t.qp fn q = { x with cqHead := i } ∧ only t)) ∧
     (fn ≠ .nw → s.rd (R.PE_LINK_L1.port fn.port) = 1 → s.reaches (fnRequester fn) = true → ∃ t, exec (.sqTailDoorbell fn q v) s = .next t ∧
       (t.port fn.port).l1Held = (s.port fn.port).l1Held ++ [busWrite (fnRequester fn) (regBase + doorbellOff fn q true) v.toNat] ∧ t.qps = s.qps ∧ t.regs = s.regs ∧ t.mem = s.mem) ∧
     (∀ p : Port, fn = .pf p → s.rd (R.PE_LINK_L1.port p) = 1 → (s.wr (R.PE_LINK_L1.port p) 0).passes (fnRequester fn) (doorbellOff fn q true) = true → x.enabled = true → i < 2 ^ x.sqLog2 →
       (s.port p).l1Held = [busWrite (fnRequester fn) (regBase + doorbellOff fn q true) v.toNat] →
       ∃ t, exec (.l1Exit p) s = .next t ∧ t.rd (R.PE_LINK_L1.port p) = 0 ∧ t.qp fn q = { x with sqTail := i } ∧ s.keepsRegs t [R.PE_LINK_L1.port p] ∧ t.mem = s.mem)) ∧
  (∀ (s : State) (fn : Fn) (q : Nat),
     (hasQz fn q = true → s.passes (fnRequester fn) (qzBase fn q + 0x14) = true → s.qzReached fn q = true →
       (s.rd (R.QZ_CTRL_ENABLE.qz fn q) = 0 → (s.qp fn q).enabled = false → s.qzCheck fn q = 0 → ∃ t, exec (.qzEnable fn q) s = .next t ∧ t.qp fn q = s.qzQp fn q ∧
         t.rd (R.QZ_STATUS_READY.qz fn q) = 1 ∧ t.rd (R.QZ_STATUS_CFG_ERR.qz fn q) = 0 ∧ t.mem = s.mem) ∧
       (s.rd (R.QZ_CTRL_ENABLE.qz fn q) = 0 → (s.qp fn q).enabled = false → s.qzCheck fn q ≠ 0 → ∃ t, exec (.qzEnable fn q) s = .next t ∧
         t.rd (R.QZ_STATUS_CFG_ERR.qz fn q) = s.qzCheck fn q ∧ s.onlyRegs t [R.QZ_STATUS_CFG_ERR.qz fn q]) ∧
       ((s.qp fn q).enabled = true → s.qpBusy fn q = false → ∃ t, exec (.qzDisable fn q) s = .next t ∧ (t.qp fn q).enabled = false ∧ t.rd (R.QZ_CTRL_ENABLE.qz fn q) = 0 ∧
         t.rd (R.QZ_STATUS_READY.qz fn q) = 0 ∧ t.mem = s.mem)) ∧
     ((s.qp fn q).enabled = true → 0 < (s.qp fn q).unsignalled → 0 < (s.qp fn q).coalTime → ∃ t, exec (.coalTimeExpiry fn q) s = .next t ∧ t.qp fn q = { s.qp fn q with unsignalled := 0 } ∧ t.regs = s.regs ∧ t.mem = s.mem ∧
         (fn ≠ .nw → s.heldFn fn = false → (s.fnSt fn).unmasked.testBit (s.qp fn q).vector = true → t.out = .msix fn (s.qp fn q).vector :: s.out)))

/-! Chapters 01 and 07: the commands of the Evolin protocol. -/

/-- R24, R176: an entry that may be fetched and whose command passes steps 2 to 7 is carried out by its row: the operation of step 8 runs on the command's input, and steps 9 to 11 follow from its result, whatever that is; a control-plane command is handed to the queue whose turn it is and served by secure firmware. One clause for each opcode, and for each mode that has a row of its own. That firmware serves such a command within its row is the model's own choice (log entry 24). -/
def Obligations.CommandsComplete : Prop :=
  ∀ (s : State) (fn : Fn) (q : Nat) (e : List Byte) (h : HostData) (c : Cmd) (u : State),
    s.arrives fn q e h = some (c, u) →
    let ends := fun (i : Instr) => exec i s = .next (u.finish c (u.runOp c c.input)).pump
    let served := fun (i : Instr) => ∀ p, u.pickQueue = some p → u.handoverAhead c = false →
      let tag := u.dsp.nextTag % 65536
      let d : Cmd := { c with stage := .handed p tag }
      let w := u.handOver c p
      w.cmd c.id = some d → w.rd R.ACT_CTRL_UPDATE = 0 → w.servable d = true → exec i s = .next (w.serve d p tag).pump
    let op := leAt e 0 1
    let mode := leAt (h.input.getD []) 5 1
    (op = 0x02 → ends (.getInfo fn q e h)) ∧ (op = 0x04 → ends (.queueCreate fn q e h)) ∧
    (op = 0x06 → ends (.ctxExport fn q e h)) ∧ (op = 0x07 → ends (.ctxImport fn q e h)) ∧
    (op = 0x10 → ends (.keyGenerate fn q e h)) ∧ (op = 0x11 → served (.keyImportWrapped fn q e h)) ∧
    (op = 0x12 → served (.keyExportWrapped fn q e h)) ∧ (op = 0x13 → served (.keyDestroy fn q e h)) ∧
    (op = 0x14 → ends (.keyDerive fn q e h)) ∧ (op = 0x15 → served (.keyAttest fn q e h)) ∧
    (op = 0x20 → ends (.kemEncaps fn q e h)) ∧ (op = 0x21 → ends (.kemDecaps fn q e h)) ∧ (op = 0x22 → ends (.keyAgree fn q e h)) ∧
    (op = 0x30 → ends (.sign fn q e h)) ∧ (op = 0x31 → ends (.verify fn q e h)) ∧
    (op = 0x40 → ends (.hashInit fn q e h)) ∧ (op = 0x41 → ends (.hashUpdate fn q e h)) ∧ (op = 0x42 → ends (.hashFinal fn q e h)) ∧
    (op = 0x43 → ends (.hashVerify fn q e h)) ∧ (op = 0x48 → ends (.macInit fn q e h)) ∧ (op = 0x49 → ends (.macUpdate fn q e h)) ∧
    (op = 0x4A → ends (.macFinal fn q e h)) ∧ (op = 0x4B → ends (.macVerify fn q e h)) ∧ (op = 0x50 → ends (.cipher fn q e h)) ∧
    (op = 0x51 → ends (.aeadInit fn q e h)) ∧ (op = 0x52 → ends (.aeadUpdate fn q e h)) ∧ (op = 0x53 → ends (.aeadFinal fn q e h)) ∧
    (op = 0x60 → ends (.random fn q e h)) ∧ (op = 0x70 → served (.ownerLoad fn q e h)) ∧ (op = 0x72 → served (.quorumChallenge fn q e h)) ∧
    (op = 0x73 → served (.quorumApprove fn q e h)) ∧ (op = 0x7E → served (.vfDestroy fn q e h)) ∧ (op = 0x7F → served (.vfCreate fn q e h)) ∧
    (op = 0x03 → leAt e 0x29 1 ≠ 1 → ends (.abortCommand fn q e h)) ∧ (op = 0x03 → leAt e 0x29 1 = 1 → ends (.abortContext fn q e h)) ∧
    (op = 0x71 → mode = 0 ∨ 3 < mode → served (.ownerCreate fn q e h)) ∧ (op = 0x71 → mode = 1 → served (.ownerRedefine fn q e h)) ∧
    (op = 0x71 → mode = 2 → served (.ownerDestroy fn q e h)) ∧ (op = 0x71 → mode = 3 → served (.ownerReissue fn q e h)) ∧
    (op = 0x7D → leAt e 0x29 1 ≠ 0 → served (.migrationLogStart fn q e h)) ∧ (op = 0x7D → leAt e 0x29 1 = 0 → served (.migrationLogStop fn q e h))

/-- R156, R157, R151, R525: HELLO settles the version and the features of its function and answers with them; QUEUE_DELETE disables the queue pair it names, or completes with RESULT 1 where it is disabled; VF_DESTROY, as secure firmware returns it, starts the teardown of an ACTIVE VF and waits for its end, and completes with RESULT 1 where the VF is unprovisioned. -/
def Obligations.HelloDeleteDestroy : Prop :=
  (∀ (s : State) (fn : Fn) (q : Nat) (e : List Byte) (h : HostData) (c : Cmd) (u : State), s.arrives fn q e h = some (c, u) →
    (∀ v, leAt e 0 1 = 0x01 → c.helloVersion = some v → c.outLen = 64 →
      let w := u.setFnSt fn { u.fnSt fn with version := v, granted := c.granted v }
      let x := w.fnWrite fn 12 c.outAddr (w.helloResponse c v (c.granted v)) .output
      x.1 = true → exec (.hello fn q e h) s = .next (x.2.complete c { output := zeros 64 }).pump) ∧
    (leAt e 0 1 = 0x05 → c.engineDone = false → fn ≠ .nw → let k := c.par 0 1
      ((u.qp fn k).enabled = false → exec (.queueDelete fn q e h) s = .next (u.complete c { result := 1 }).pump) ∧
      ((u.qp fn k).enabled = true → u.qpBusy fn k = false → exec (.queueDelete fn q e h) s =
        .next ((((u.setQp fn k { u.qp fn k with deleting := true }).disableQp fn k).setCmd { c with engineDone := true }).complete { c with engineDone := true } {}).pump))) ∧
  (∀ (s : State) (c : Cmd), c.opcode = 0x7E → s.noVf c (c.par 0 1) = false → let n := c.par 0 1
    let p := c.fn.port
    (s.rd (R.VFS_STATE_STATE.vf p n) = 0 → s.controlRes c = { result := 1 } ∧ s.returned c { result := 1 } = s.complete c { result := 1 }) ∧
    (s.rd (R.VFS_STATE_STATE.vf p n) = 1 → s.controlRes c = {} ∧ s.returned c {} = (s.startTeardown p n).setCmd { c with stage := .teardown, res := {} }))

/-- R24, R149, R150, R175: a result of status 0 goes to the command's buffers and on to step 10; any other completes the command with its status. Step 11 writes the completion entry at the tail of the completion queue, moves the tail, ends the command, and sends the message of a full count; while the twin is paired a change waits for its commit record; with the peer lost it completes with MIRROR_UNAVAILABLE and is journaled. -/
def Obligations.Completion : Prop :=
  ∀ (s : State) (c : Cmd) (r : Res) (p : Port), let x := s.qp c.fn c.qp
    (∀ (pre : State) (ch : List ChangeRec), (r.status ≠ 0 → pre.finish c (r, ch, s) = (s.dropCmdCtx c).complete c r) ∧
      (r.status = 0 → (writePieces c.fn 12 c.outPieces r.output s).1 = true →
        pre.finish c (r, ch, s) = (writePieces c.fn 12 c.outPieces r.output s).2.commitStep c r ch)) ∧
    (c.fn = .pf p → c.unit = none → c.lane = none → (s.port p).d3 = false → c.entry ≠ [] → x.error = false → 0 < x.reserved → x.deleting = false → r.status ≠ 0x7F → c.opcode ≠ 1 → x.coalCount ≤ x.unsignalled + 1 →
      (s.fnSt c.fn).unmasked.testBit x.vector = true →
      let t := s.complete c r
      t.out = .msix c.fn x.vector :: .dmaWrite c.fn (x.cqAddr + 32 * x.cqTail)
          (completionBytes c.cid r.status c.qp x.sqHead r.detail r.result r.aux r.output.length x.phase) .completion :: s.out ∧
        (t.qp c.fn c.qp).cqTail = (x.cqTail + 1) % 2 ^ x.cqLog2 ∧ (t.qp c.fn c.qp).reserved = x.reserved - 1 ∧
        ((t.qp c.fn c.qp).phase = if (x.cqTail + 1) % 2 ^ x.cqLog2 = 0 then !x.phase else x.phase) ∧ t.cmd c.id = none ∧ t.mem = s.mem) ∧
    (∀ a, s.rd R.TWN_STATUS_STATE = 4 → s.twn.authed = true → s.twn.linkUp = true →
      let t := s.commitStep c r [a]
      (∃ f, t.out = .soade f :: s.out ∧ f.payload = .commit a) ∧ t.rd R.TWN_CSEQ_COUNT = (s.rd R.TWN_CSEQ_COUNT + 1) % 2 ^ 64 ∧ t.mem = s.mem) ∧
    (∀ a, s.rd R.TWN_STATUS_STATE = 6 → s.twn.journal.length < 1048576 →
      s.commitStep c r [a] = ({ s with twn := { s.twn with journal := s.twn.journal ++ [a] } } : State).complete c { r with status := 0x50 })

/-- What the operations do at step 8: R142 QUEUE_CREATE, R274 KEY_DESTROY, R166 to R169, R263 and R359 to R365 the contexts of hashes, MACs and AEAD, R317 RANDOM, R137 MIGRATION_LOG. A keyed context is parked in wrapped form only, and opens again as it was; one that does not authenticate ends its command with TAG_MISMATCH. -/
def Obligations.CommandEffects : Prop :=
  ∀ (s : State) (c : Cmd) (d : List Byte), c.qp < 64 → let r := s.runOp c d
    let t := r.2.2
    (c.opcode = 0x02 → r = ({ output := s.infoBytes c }, [], s)) ∧
    (c.opcode = 0x04 → r.1.status = 0 ∧ t.mem = s.mem ∧ t.qp c.fn (c.par 0 1) =
      { enabled := true, sqAddr := c.par 8 8, cqAddr := c.par 16 8, sqLog2 := c.par 1 1, cqLog2 := c.par 2 1, vector := c.par 3 1, coalCount := c.par 4 1, coalTime := c.par 6 2 }) ∧
    (c.opcode = 0x13 → t.keyAt (hOwner c.key) (hIndex c.key) = none ∧ r.1.status = 0 ∧
      (∀ k, s.keyAt (hOwner c.key) (hIndex c.key) = some k → k.obj = none → t.mem = s.mem)) ∧
    (∀ x, s.findCtx c.fn c.qp c.key = .inl x → s.unparkCtx x = none → ctxOp c.opcode = true → r.1.status = 0x33 ∧ t = s) ∧
    (∀ x, s.ctxOf c = .inl x → let i := hIndex c.key
      let grown := { x with count := x.count + d.length, absorbed := x.absorbed ++ d }
      let kept := x.key.length < 65536 → x.iv.length < 65536 → x.custom.length < 65536 →
        t.ctxOf c = .inl grown ∧ (x.keyed = true → ∃ y, tblGet none t.dsp.ctxs i = some y ∧ y.key = [] ∧ y.absorbed = [])
      (c.opcode = 0x41 → r.1.status = 0 ∧ kept) ∧
      (c.opcode = 0x42 → r.1.output = x.digest d c.outLen ∧ tblGet none t.dsp.ctxs i = none) ∧
      (c.opcode = 0x43 → tblGet none t.dsp.ctxs i = none ∧
        (r.1.status = 0 ↔ x.digest (d.take (c.inLen - c.par 8 2)) (c.par 8 2) = d.drop (c.inLen - c.par 8 2))) ∧
      (c.opcode = 0x49 → r.1.status = 0 ∧ kept) ∧
      (c.opcode = 0x4A → r.1.output = x.mac d ∧ tblGet none t.dsp.ctxs i = none) ∧
      (c.opcode = 0x4B → tblGet none t.dsp.ctxs i = none ∧
        (r.1.status = 0 ↔ (x.mac (d.take (c.inLen - c.par 8 2))).take (c.par 8 2) = d.drop (c.inLen - c.par 8 2))) ∧
      (c.opcode = 0x52 → r.1.output = x.stream d ∧ kept) ∧
      (c.opcode = 0x53 → tblGet none t.dsp.ctxs i = none)) ∧
    (c.opcode = 0x60 → r.1.output.length = c.outLen ∧ r.1.status = 0 ∧ t.mem = s.mem) ∧
    (c.opcode = 0x7D → c.par 1 1 = 0 → r.1.status = 0 ∧ t.rd (R.VFS_STATE_MIG_ON.vf c.fn.port (c.par 0 1)) = 0) ∧
    (c.opcode = 0x7D → c.par 1 1 ≠ 0 → r.1.status = 0 ∧ t.rd (R.VFS_STATE_MIG_ON.vf c.fn.port (c.par 0 1)) = 1 ∧ (t.vf c.fn.port (c.par 0 1)).logAddr = c.par 8 8)

/-- R24, R144, R155: the stages of a command whose transfers are events of their own: an entry that cannot be read ends with an error at its port; one whose list is still to come waits for it; a segment is kept; an input that arrived brings the command to its engine; the engine's end carries it out. -/
def Obligations.CommandStages : Prop :=
  ∀ (s : State),
    (∀ p q, s.mayFetch (.pf p) q = true → s.calm → ∃ t, exec (.sqEntryFetchDone (.pf p) q none) s = .next t ∧ t.dsp.inflight = [] ∧
      (t.qp (.pf p) q).sqHead = ((s.qp (.pf p) q).sqHead + 1) % 2 ^ (s.qp (.pf p) q).sqLog2 ∧ t.rd (R.PE_EVT_AER_UNCORR.port p) = 1 ∧ t.mem = s.mem) ∧
    (∀ p q e a, s.mayFetch (.pf p) q = true → s.calm → e.length = 64 → s.rd R.ACT_CTRL_UPDATE = 0 →
      let c : Cmd := { id := s.dsp.nextId, fn := .pf p, qp := q, entry := e, stage := .check }
      let s1 := s.takeEntry (.pf p) q
      let s2 : State := { s1 with dsp := { s1.dsp with inflight := [c] } }
      s2.checkOpcode c = 0 → s2.checkService c = 0 → c.random = false → (s2.setCmd { c with stage := .lists }).checkFields { c with stage := .lists } = none →
      ({ c with stage := .lists } : Cmd).walk = .inl (.more a) →
      ∃ t, exec (.sqEntryFetchDone (.pf p) q (some e)) s = .next t ∧ t.dsp.inflight = [{ c with stage := .lists }] ∧ { t with dsp := s.dsp, qps := s.qps, out := s.out } = s ∧
        t.out = .dmaRead (.pf p) (s.entryAddr (.pf p) q) 64 :: s.out ∧ (t.qp (.pf p) q).sqHead = ((s.qp (.pf p) q).sqHead + 1) % 2 ^ (s.qp (.pf p) q).sqLog2) ∧
    (∀ (c : Cmd) (seg : SgSegment) (a : Nat), s.dsp.inflight = [c] → s.tmp.due = [] → c.fn ≠ .nw → c.whole = false → c.stage = .lists → c.wants = some seg.addr → c.wantsIn = true →
      s.rd R.ACT_CTRL_UPDATE = 0 →
      let d : Cmd := { c with inSegs := c.inSegs ++ [seg] }
      let u := (s.setCmd d).fnReads c.fn (segReads [seg])
      u.checkFields d = none → d.walk = .inl (.more a) → ∃ t, exec (.sgSegmentArrived c.id seg) s = .next t ∧ t.dsp.inflight = [d] ∧
        t.out = .dmaRead c.fn seg.addr (16 * seg.entries.length) :: s.out ∧ { t with dsp := s.dsp, out := s.out } = s) ∧
    (∀ (c : Cmd) (events : List LineEvent), s.cmd c.id = some c → c.stage = .body → c.bodyOk = none → s.rd R.ACT_CTRL_UPDATE = 0 →
      let d : Cmd := { c with bodyOk := some events }
      let u := s.setCmd d
      exec (.objectBodyArrived c.id events) s = .next (u.advance c.id stages).pump ∧
        (u.goesOn d = true → (u.stageBody d).2 = false → u.advance c.id stages = (u.stageBody d).1)) ∧
    (∀ pool unit c u, pool < 5 → s.nextGrant (poolOf pool) = some (unit, c, u) →
      ∃ t, exec (.unitGrant pool unit) s = .next t ∧ t = ((u.setCmd { c with pool := 0 }).advance c.id stages).pump) ∧
    (∀ (c : Cmd) (d : List Byte), s.dsp.inflight = [c] → s.tmp.due = [] → c.stage = .input → c.data = none → c.inLen ≠ 0 → c.fn ≠ .nw → c.digest = none → c.unit.isSome = true →
      c.whole = false → c.engineDone = false → controlOp c.opcode = false → c.opcode ∉ [1, 5, 0x60] →
      ∃ t, exec (.inputFetchDone c.id (some d)) s = .next t ∧ t.dsp.inflight = [{ c with data := some (some (fit c.inLen d)), stage := .engine }] ∧
        t.out = (s.fnReads c.fn c.inPieces).out ∧ { t with dsp := s.dsp, out := s.out } = s) ∧
    (∀ (c : Cmd), s.cmd c.id = some c → c.stage = .engine → c.unit.isSome = true → c.engineDone = false → c.preHash = false → s.clearing c = false →
      controlOp c.opcode = false → c.opcode ∉ [1, 5, 0x60] →
      let d : Cmd := { c with engineDone := true }
      let u := s.setCmd d
      u.goesOn d = true → exec (.engineDone c.id) s = .next (u.finish d (u.runOp d d.input)).pump)

/-- R176, R177, R294: a control-plane command is handed to a control queue, whose tail moves; enabling a queue checks it first; a return tail has the return entries up to it taken, each of which ends the command of its tag with the output that secure staging holds; a return tail without new entries changes nothing else, one outside its ring, or a return for no command, sets BAD_RETURN; an approval whose window ends is gone. -/
def Obligations.ControlQueues : Prop :=
  ∀ (s : State),
    (∀ (c : Cmd) (p : Nat), s.cmd c.id = some c → s.pickQueue = some p → c.waitsHandover = true → s.rd R.ACT_CTRL_UPDATE = 0 → s.handoverAhead c = false →
      let u := s.handOver c p
      exec (.controlHandover c.id) s = .next u.pump ∧
        (u.cmd c.id = some { c with stage := .handed p (s.dsp.nextTag % 65536) } → s.rd (R.DSP_CQ_CFG_LOG2.ix p) ≤ 10 →
          u.rd (R.DSP_CQ_HTAIL_TAIL.ix p) = (s.rd (R.DSP_CQ_HTAIL_TAIL.ix p) + 1) % 2 ^ s.rd (R.DSP_CQ_CFG_LOG2.ix p) ∧
          u.dsp.nextTag = s.dsp.nextTag % 65536 + 1 ∧ u.dsp.cqTurn = 1 - p)) ∧
    (∀ (who : Requester) (queue : Fin 2), s.calm → s.passes who (0xC0108 + 0x20 * queue.val) = true → let p := queue.val
      (s.rd (R.DSP_CQ_CFG_ENABLE.ix p) = 0 → ∃ t, exec (.dspCqEnable who queue) s = .next t ∧ t.rd (R.DSP_CQ_CFG_CFG_ERR.ix p) = s.cqError p ∧
        t.rd (R.DSP_CQ_CFG_ENABLE.ix p) = (if s.cqError p = 0 then 1 else 0) ∧ s.onlyRegs t [R.DSP_CQ_CFG_CFG_ERR.ix p, R.DSP_CQ_CFG_ENABLE.ix p]) ∧
      (∃ t, exec (.dspCqDisable who queue) s = .next t ∧ t.rd (R.DSP_CQ_CFG_ENABLE.ix p) = 0 ∧ s.onlyRegs t [R.DSP_CQ_CFG_ENABLE.ix p])) ∧
    (∀ (who : Requester) (queue : Fin 2) (v : Word32), s.passes who (0xC0114 + 0x20 * queue.val) = true → s.rd R.ACT_CTRL_UPDATE = 0 → let p := queue.val
      let tail := v.toNat % 1024
      (s.rd (R.DSP_CQ_CFG_ENABLE.ix p) = 0 → ∃ t, exec (.dspCqRtailWrite who queue v) s = .next t ∧ t.rd (R.DSP_CQ_RTAIL_TAIL.ix p) = tail ∧ s.onlyRegs t [R.DSP_CQ_RTAIL_TAIL.ix p]) ∧
      (s.rd (R.DSP_CQ_CFG_ENABLE.ix p) = 1 → s.ringSize p ≤ tail → ∃ t, exec (.dspCqRtailWrite who queue v) s = .next t ∧ t.rd R.DSP_EVT_BAD_RETURN = 1 ∧
        s.onlyEvents t [R.DSP_EVT_BAD_RETURN, R.DSP_EVT_BAD_RETURN.seq]) ∧
      (s.rd (R.DSP_CQ_CFG_ENABLE.ix p) = 1 → tail < s.ringSize p → s.rd (R.DSP_CQ_RHEAD_HEAD.ix p) ≠ tail →
        exec (.dspCqRtailWrite who queue v) s = .next ((s.wr (R.DSP_CQ_RTAIL_TAIL.ix p) tail).takeReturns p tail (s.ringSize p)).pump) ∧
      (s.calm → s.rd (R.DSP_CQ_CFG_ENABLE.ix p) = 1 → s.rd (R.DSP_CQ_RHEAD_HEAD.ix p) = tail → tail < s.ringSize p →
        ∃ t, exec (.dspCqRtailWrite who queue v) s = .next t ∧ t.rd (R.DSP_CQ_RTAIL_TAIL.ix p) = tail ∧ s.onlyRegs t [R.DSP_CQ_RTAIL_TAIL.ix p]) ∧
      (s.calm → s.rd (R.DSP_CQ_CFG_ENABLE.ix p) = 1 → s.ringSize p ≤ 1024 → tail < s.ringSize p → s.rd (R.DSP_CQ_RHEAD_HEAD.ix p) ≠ tail → (s.rd (R.DSP_CQ_RHEAD_HEAD.ix p) + 1) % s.ringSize p = tail →
        ∃ t, exec (.dspCqRtailWrite who queue v) s = .next t ∧ t.rd (R.DSP_CQ_RHEAD_HEAD.ix p) = tail ∧ t.rd R.DSP_EVT_BAD_RETURN = 1)) ∧
    (∀ (c : Cmd) (p : Nat) (e out : List Byte) (u : State), s.dsp.inflight.find? (fun x => x.stage == .handed p (leAt e 0 2)) = some c → leAt e 0x1C 4 ≤ c.outLen →
      s.dmaIn 13 .secure (ddrBase + leAt e 0x18 4) (leAt e 0x1C 4) = (out, true, u) →
      s.takeReturn p e = u.returned c { status := leAt e 2 1, detail := leAt e 4 2, result := leAt e 8 8, aux := leAt e 0x10 8, output := out }) ∧
    (∀ id, (s.approvalAt id).isSome = true → ∃ t, exec (.approvalWindowExpiry id) s = .next t ∧ t.approvalAt id = none ∧ t.regs = s.regs ∧ t.mem = s.mem)

/-! Chapter 11: the DDR5 channels. -/

/-- R249, R250, R264 to R267: training, the sweep of zero-fill, its end, patrol scrub, the scrub period, ALERT_N and the access that its fourth in a row fails. R255 to R261: a read of a line answers its bytes, and writes back a line with one symbol wrong; one beyond correction counts and stays so; a write of part of a line merges, stores its bytes and no others, and locks the line; one of a whole line replaces it without a read; an access to a locked line waits; the end of the lock lets it go on. -/
def Obligations.MemoryChannels : Prop :=
  (∀ (s : State) (channel : Fin 2), let c := channel.val
     let x := s.chan c
     let st := s.rd (R.MEM_STATUS_STATE.mem c)
     let failed := fun (t : State) (cause : Nat) => t.rd (R.MEM_STATUS_CAUSE.mem c) = cause ∧ t.rd (R.MEM_EVT_TRAIN_FAIL.mem c) = 1 ∧
       t.rd (R.MEM_STATUS_STATE.mem c) = (if c = 1 then 4 else 1) ∧ t.mem = s.mem
     (s.inTraining c = true →
       (∀ w r rate gib lanes, trainingFits rate gib = true → ∃ t, exec (.ddrTrainingDone channel (.module w r rate gib lanes)) s = .next t ∧ t.rd (R.MEM_CFG_PRESENT.mem c) = 1 ∧
         t.rd (R.MEM_CFG_RATE.mem c) = rate ∧ t.rd (R.MEM_CFG_CAP_GIB.mem c) = gib ∧ (lanes = false → failed t 3) ∧
         (lanes = true → t.rd (R.MEM_STATUS_STATE.mem c) = 2 ∧ t.rd (R.MEM_FILL_DONE.mem c) = 0 ∧ (t.chan c).sweep = 0 ∧ t.mem = s.mem)) ∧
       (∀ w r rate gib lanes, trainingFits rate gib = false → ∃ t, exec (.ddrTrainingDone channel (.module w r rate gib lanes)) s = .next t ∧
         t.rd (R.MEM_CFG_PRESENT.mem c) = 0 ∧ failed t 2) ∧
       ∃ t, exec (.ddrTrainingDone channel .noSpd) s = .next t ∧ t.rd (R.MEM_CFG_PRESENT.mem c) = 0 ∧ failed t 1) ∧
     (st = 2 → x.sweep < s.chanBlocks c → x.ooo = [] → x.heldFill = [] → s.tmp.due = [] → ∃ t, exec (.zeroFillBlock channel x.sweep) s = .next t ∧
       (t.chan c).sweep = x.sweep + 1 ∧ t.rd (R.MEM_FILL_FRONT_MIB.mem c) = (x.sweep + 1) / 16 % 2 ^ 18 ∧ t.mem = s.mem) ∧
     (st = 2 → x.heldFill = [] → s.tmp.due = [] → ∃ t, exec (.fillDone channel) s = .next t ∧ t.rd (R.MEM_STATUS_STATE.mem c) = 3 ∧ t.rd (R.MEM_FILL_DONE.mem c) = 1 ∧
       t.rd (R.MEM_EVT_FILL_DONE.mem c) = 1 ∧ t.mem = s.mem) ∧
     (∀ event, s.chanUp c = true → x.scrubLine < s.filledLines c → x.passDone = false → tblGet none x.locks x.scrubLine = none → s.tmp.due = [] →
       s.lineOf (ddrBase + s.lineAddr c x.scrubLine) = some (c, x.scrubLine) →
       let u := s.befall c x.scrubLine event
       (u.lineRead c x.scrubLine = .good → ∃ t, exec (.patrolScrubLine channel event) s = .next t ∧ t.mem = u.mem ∧
         (x.scrubLine + 1 < s.filledLines c → (t.chan c).scrubLine = x.scrubLine + 1 ∧ t.rd (R.MEM_SCRUB_PROGRESS.mem c) = min 1023 ((x.scrubLine + 1) * 1024 / s.filledLines c)) ∧
         (s.filledLines c ≤ x.scrubLine + 1 → (t.chan c).scrubLine = 0 ∧ (t.chan c).passDone = true ∧ t.rd (R.MEM_EVT_SCRUB_PASS.mem c) = 1)) ∧
       (∀ k, u.lineRead c x.scrubLine = .corrected k → ∃ t, exec (.patrolScrubLine channel event) s = .next t ∧ t.rd (R.MEM_EVT_CE.mem c) = 1 ∧
         t.rd (R.MEM_CE_COUNT_COUNT.mem c) = min (s.rd (R.MEM_CE_COUNT_COUNT.mem c) + 1) (2 ^ 32 - 1) ∧ tblGet none (t.chan c).errs x.scrubLine = none ∧ t.mem = u.mem)) ∧
     (s.chanUp c = true → x.passDone = true → ∃ t, exec (.scrubPeriodEnd channel) s = .next t ∧ (t.chan c).passDone = false ∧ t.regs = s.regs ∧ t.mem = s.mem) ∧
     (s.chanUp c = true → x.passDone = false → ∃ t, exec (.scrubPeriodEnd channel) s = .next t ∧ t.rd (R.MEM_EVT_SCRUB_LATE.mem c) = 1 ∧ t.mem = s.mem) ∧
     (∀ again l, s.chanUp c = true → x.replays < 3 → ∃ t, exec (.ddrAlert channel again l) s = .next t ∧ (t.chan c).replays = (if again then x.replays + 1 else 0) ∧
       t.rd (R.MEM_EVT_ALERT_RETRY.mem c) = 1 ∧ t.mem = s.mem) ∧
     (∀ again w off l, s.chanUp c = true → 3 ≤ x.replays → s.lineOf (ddrBase + off) = some (c, l) → s.tmp.due = [] → s.respCode 15 ≤ 1 →
       ∃ t, exec (.ddrAlert channel again [{ who := .requester w, off := off, data := [] }]) s = .next t ∧ t.rd (R.MEM_EVT_UE.mem c) = 1 ∧
         t.rd (R.MEM_UE_COUNT_COUNT.mem c) = min (s.rd (R.MEM_UE_COUNT_COUNT.mem c) + 1) (2 ^ 32 - 1) ∧ t.mem = s.mem)) ∧
  (∀ (s : State) (w : Requester) (off c l : Nat) (event : LineEvent), let u := befallFrom (ddrBase + off) [event] s
     u.tableHolds w = false → u.tmp.due = [] → u.lineOf (ddrBase + off) = some (c, l) → u.chanUp c = true →
     let read : LineAccess := { who := .requester w, off := off, data := [] }
     (u.lineRefusal read = none →
       (tblGet none (u.chan c).locks l = none → u.lineFilled c (64 * l) = true →
         (u.lineRead c l = .good → ∃ t, exec (.ddrLineRead (.requester w) off event) s = .next t ∧
           t.out = .answer w (some (leNat (u.bytes (ddrBase + off / 64 * 64) 64))) :: s.out ∧ { t with out := s.out } = u) ∧
         (∀ k, u.lineRead c l = .corrected k → ∃ t, exec (.ddrLineRead (.requester w) off event) s = .next t ∧
           t.out = .answer w (some (leNat (u.bytes (ddrBase + off / 64 * 64) 64))) :: s.out ∧ t.rd (R.MEM_EVT_CE.mem c) = 1 ∧ tblGet none (t.chan c).errs l = none ∧ t.mem = u.mem) ∧
         (u.lineRead c l = .uncorrectable → s.respCode 15 ≤ 1 → ∃ t, exec (.ddrLineRead (.requester w) off event) s = .next t ∧ t.rd (R.MEM_EVT_UE.mem c) = 1 ∧
           t.lineRead c l = .uncorrectable ∧ t.mem = u.mem)) ∧
       (∀ k, tblGet none (u.chan c).locks l = some k → ∃ t, exec (.ddrLineRead (.requester w) off event) s = .next t ∧
         tblGet none (t.chan c).locks l = some { k with waiting := k.waiting ++ [read] } ∧ t.out = s.out ∧ t.mem = u.mem ∧ t.regs = s.regs)) ∧
     (∀ data : List Byte, u.lineRefusal { read with data := data } = none → tblGet none (u.chan c).locks l = none → u.lineFilled c (64 * l) = true → data ≠ [] →
       off % 64 + data.length ≤ 64 →
       (data.length < 64 → u.lineRead c l = .good → ∃ t, exec (.ddrPartialWrite (.requester w) off data event) s = .next t ∧
         t.bytes (ddrBase + off) data.length = data ∧ u.keepsBytes t (ddrBase + off) data.length ∧ tblGet none (t.chan c).locks l = some {} ∧ t.regs = s.regs) ∧
       (data.length = 64 → s.tap.extest = false → ∃ t, exec (.ddrPartialWrite (.requester w) off data event) s = .next t ∧
         t.bytes (ddrBase + off) 64 = data ∧ u.keepsBytes t (ddrBase + off) 64 ∧ tblGet none (t.chan c).errs l = none ∧ t.regs = s.regs))) ∧
  (∀ (s : State) (w : Requester) (off o c l : Nat), s.lineOf (ddrBase + off) = some (c, l) → s.tmp.due = [] →
     (tblGet none (s.chan c).locks l = some {} → ∃ t, exec (.ddrLockRelease off) s = .next t ∧ tblGet none (t.chan c).locks l = none ∧ t.regs = s.regs ∧ t.mem = s.mem) ∧
     (tblGet none (s.chan c).locks l = some { waiting := [{ who := .requester w, off := o, data := [] }] } → s.lineOf (ddrBase + o) = some (c, l) → s.chanUp c = true →
       s.lineFilled c (64 * l) = true → s.lineRead c l = .good → ∃ t, exec (.ddrLockRelease off) s = .next t ∧ tblGet none (t.chan c).locks l = none ∧
         t.out = .answer w (some (leNat (s.bytes (ddrBase + o / 64 * 64) 64))) :: s.out ∧ t.mem = s.mem))

/-! Chapters 12 and 13: Molt and device keys, Spawn. -/

/-- R275, R276, R517: a Molt pass leaves the secret of a sound slot as it is and is counted; a re-derived key-encryption key, and a reserved slot's key, has a slot again; with no slot free the key is lost. -/
def Obligations.KeyStoreRows : Prop :=
  ∀ (s : State), s.calm →
    (∀ late p sl, s.boot.keysDrawn = true → s.rd R.ENT_STATUS_READY = 1 → s.tmp.zeroing = false → s.keys.slots = [(p, some sl)] → sl.failing p = 0 →
      sl.shareA.length = 128 → sl.shareB.length = 128 →
      ∃ t sl', exec (.moltPeriod [] late) s = .next t ∧ t.slotAt p = some sl' ∧ sl'.secret = sl.secret ∧ sl'.failing p = 0 ∧ sl'.attr = sl.attr ∧
        t.rd R.KS_MOLT_PASSES = (s.rd R.KS_MOLT_PASSES + 1) % 65536 ∧ t.rd R.KS_STATUS_MOLT_RUN = late.toNat ∧ t.mem = s.mem) ∧
    (∀ key : DeviceKey, s.keys.rederive.contains key = true →
      let x := ({ s with keys := { s.keys with rederive := s.keys.rederive.filter (· != key) } } : State).restoreSlot
      (x.1 = none → ∃ t, exec (.deviceKeyRederived key) s = .next t ∧ t.keys.lost = key :: s.keys.lost ∧ t.mem = s.mem) ∧
      (∀ o ow p, key = .kek o → x.1 = some p → s.ownerAt o = some ow → ∃ t, exec (.deviceKeyRederived key) s = .next t ∧
        t.ownerAt o = some { ow with kekSlot := some p } ∧ t.rd R.KS_EVT_RESTORED = 1 ∧ t.keys.rederive.contains key = false ∧ t.mem = s.mem) ∧
      (∀ n p, key = .slot n → x.1 = some p → ∃ t, exec (.deviceKeyRederived key) s = .next t ∧ tblGet none t.keys.reservedMap n = some p ∧
        t.keys.rederive.contains key = false ∧ t.mem = s.mem))

/-- R305, R307, R309, R310, R312: a quadrant joins, and the first one makes Spawn ready, but not once every quadrant has failed in this boot (DEDUCED, log entry 34); the trims follow the counts of a window, and a cell whose count or trim fails the window fails its quadrant; a quadrant whose cell fails a test leaves service, its failure captured; a block that is released leaves at most 2,048 in quarantine (how many is a free value). R315 to R317, R320: a granted word goes to the waiting RANDOM command; the share window; starvation; raw capture, refused or started, and its end, after which the quadrant starts anew. -/
def Obligations.SpawnRows : Prop :=
  (∀ (s : State) (quadrant : Fin 4), s.calm → let q := quadrant.val
     (s.quad q = 1 → s.rd R.ENT_STATUS_READY = 1 → s.boot.katDone = false → ∃ t, exec (.entQuadrantJoined quadrant) s = .next t ∧ t.quad q = 2 ∧
       t.rd R.ENT_STATUS_IN_SERVICE = (s.rd R.ENT_STATUS_IN_SERVICE + 1) % 8 ∧ t.rd (R.ENT_QEVT_JOINED.ix q) = 1 ∧ q ∈ t.ent.joined ∧ t.mem = s.mem) ∧
     (s.quad q = 1 → s.rd R.ENT_STATUS_READY = 0 → s.rd R.ENT_STATUS_FAILED = 1 → s.boot.katDone = false → ∃ t, exec (.entQuadrantJoined quadrant) s = .next t ∧ t.quad q = 2 ∧
       t.rd R.ENT_STATUS_READY = 0 ∧ t.rd R.ENT_STATUS_FAILED = 1 ∧ t.mem = s.mem) ∧
     (s.quad q = 1 → s.rd R.ENT_STATUS_READY = 0 → s.rd R.ENT_STATUS_FAILED = 0 → s.boot.katDone = false → s.boot.alive = true → s.boot.keysDrawn = false → s.rd R.GLB_STATUS_RECOVERY = 0 →
       s.keys.fenced = [] → s.keys.reservedMap = [] →
       ∃ t, exec (.entQuadrantJoined quadrant) s = .next t ∧ t.quad q = 2 ∧ t.rd R.ENT_STATUS_READY = 1 ∧ t.boot.keysDrawn = true ∧ t.rd (R.MEM_STATUS_STATE.mem 0) = 1 ∧
         t.rd R.BOOT_STATUS_STAGE = 3 ∧ t.mem = s.mem) ∧
     (∀ ones : List Nat, ones.length = 512 → 1 ≤ s.quad q → s.quad q ≤ 3 →
       (s.windowFails q 0 ones = none → ∃ t, exec (.entBalanceWindowEnd quadrant false ones) s = .next t ∧ { t with ent := s.ent } = s ∧
         ∀ k n, ones[k]? = some n → tblGet 32 t.ent.trims (q * 512 + k) = trimStep (tblGet 32 s.ent.trims (q * 512 + k)) n 1984 2112) ∧
       (∀ k n, ones[k]? = some n → (n < 1748 ∨ 2348 < n ∨ s.trimAtEnd q k = true) → ∃ t, exec (.entBalanceWindowEnd quadrant false ones) s = .next t ∧ t.quad q = 4 ∧ t.rd (R.ENT_QEVT_FAIL.ix q) = 1)) ∧
     (∀ ones : List Nat, ones.length = 512 → s.quad q = 1 → tblGet 0 s.ent.acquired q < 10 → ∃ t, exec (.entBalanceWindowEnd quadrant true ones) s = .next t ∧ { t with ent := s.ent } = s ∧
       tblGet 0 t.ent.acquired q = tblGet 0 s.ent.acquired q + 1 ∧
       ∀ k n, ones[k]? = some n → tblGet 32 t.ent.trims (q * 512 + k) = trimStep (tblGet 32 s.ent.trims (q * 512 + k)) n 496 528) ∧
     (∀ cell fail, cell < 512 → s.healthFails q cell fail = true → s.quad q = 2 → 2 ≤ s.rd R.ENT_STATUS_IN_SERVICE → s.rd R.ENT_STATUS_IN_SERVICE ≤ 4 → s.rd R.ENT_FAIL_INFO_TEST = 0 →
       s.boot.katDone = false → ∃ t, exec (.entQuadrantFail quadrant cell fail) s = .next t ∧ t.quad q = 4 ∧ t.rd (R.ENT_QEVT_FAIL.ix q) = 1 ∧
         t.rd R.ENT_STATUS_IN_SERVICE + 1 = s.rd R.ENT_STATUS_IN_SERVICE ∧ t.rd R.ENT_FAIL_INFO_QUAD = q ∧ t.rd R.ENT_FAIL_INFO_CELL = cell ∧ t.rd R.ENT_FAIL_INFO_TEST = failCode fail ∧
         q ∉ t.ent.joined ∧ t.mem = s.mem) ∧
     (∀ cell fail, cell < 512 → s.healthFails q cell fail = true → s.quad q = 2 → s.rd R.ENT_STATUS_IN_SERVICE = 1 → s.boot.katDone = false → s.respCode 14 ≤ 1 →
       ∃ t, exec (.entQuadrantFail quadrant cell fail) s = .next t ∧ t.rd R.ENT_STATUS_READY = 0 ∧ t.rd R.ENT_STATUS_FAILED = 1 ∧ t.rd R.ENT_EVT_ALL_FAILED = 1 ∧
         (t.rd R.TMP_FLAGS_SRC).testBit 14 = true ∧ t.mem = s.mem) ∧
     (s.quad q = 2 → ∃ t, exec (.entBlockRelease quadrant) s = .next t ∧ t.rd (R.ENT_QSTAT_QUAR.ix q) ≤ 2048 ∧ s.keepsRegs t [R.ENT_QSTAT_QUAR.ix q] ∧ t.mem = s.mem)) ∧
  (∀ (s : State),
     (∀ c : Cmd, s.rd R.ENT_STATUS_READY = 1 → s.dsp.inflight = [c] → s.tmp.due = [] → c.stage = .drawing → c.drawn.length + 32 < c.outLen →
       ∃ t w, exec .entWordGrant s = .next t ∧ w.length = 32 ∧ t.dsp.inflight = [{ c with drawn := c.drawn ++ w }] ∧ t.mem = s.mem) ∧
     (s.boot.alive = true → s.time % 1000 = 0 → ∃ t, exec .entShareWindowEnd s = .next t ∧ t.ent.windowWords = 0 ∧ { t with ent := s.ent } = s) ∧
     (∀ c : Cmd, c ∈ s.dsp.inflight → c.stage = .drawing → ∃ t, exec .entStarved s = .next t ∧ t.rd R.ENT_EVT_STARVED = 1 ∧ s.onlyEvents t [R.ENT_EVT_STARVED, R.ENT_EVT_STARVED.seq]) ∧
     (∀ (who : Requester) (v : Word32), let q := v.toNat % 4
       let dest := s.rd R.ENT_CAP_ADDR_ADDR * 64
       let len := s.rd R.ENT_CAP_LEN_LEN_KIB * 1024
       s.passes who 0x60020 = true → v.toNat.testBit 31 = true → s.rd R.ENT_CAP_STAT_BUSY = 0 →
       ∃ t, exec (.entCaptureGo who v) s = .next t ∧ t.rd R.ENT_CAP_STAT_RESULT = s.captureCheck q dest len ∧ t.mem = s.mem ∧
         (s.captureCheck q dest len = 0 → t.rd R.ENT_CAP_STAT_BUSY = 1 ∧ t.quad q = 3 ∧ ∃ mode cell, t.ent.capture = some (q, mode, cell, dest, len)) ∧
         (s.captureCheck q dest len ≠ 0 → t.rd R.ENT_CAP_STAT_BUSY = 0 ∧ t.ent.capture = s.ent.capture)) ∧
     (∀ q mode cell dest len failed (groups : List (BitVec 512)), s.ent.capture = some (q, mode, cell, dest, len) → q < 4 → s.rd R.ACT_CTRL_UPDATE = 0 →
       failed = decide (s.quad q = 4) → let data := captureData mode cell groups
       data.length ≤ len → (failed = false → data.length = len) →
       let y := if mode = 3 then s.free data.length else (data, s)
       let w := (({ y.2 with ent := { s.ent with capture := none } } : State).dmaOut 12 .secure dest y.1).2
       w.tmp.due = [] → ∃ t, exec (.entCaptureDone failed groups) s = .next t ∧ t.rd R.ENT_CAP_STAT_BUSY = 0 ∧ t.rd R.ENT_CAP_STAT_RESULT = (if failed then 4 else 0) ∧
         t.rd (R.ENT_QEVT_CAP_DONE.ix q) = 1 ∧ t.quad q = (if failed then 4 else 1) ∧ t.ent.capture = none ∧ t.mem = w.mem))

/-! Chapters 14 to 17: the units of the engines. -/

/-- R328, R348 to R351: rotation, entry into self-test, the end of a run, a fault of an idle unit, Regrowth, the end of a clearing. A run ends without a verdict while Spawn has failed (R342, R366, R406, R414). -/
def Obligations.UnitRows : Prop :=
  ∀ (s : State) (p : Pool) (u : Nat), s.calm → u < poolSize p →
    (∀ next, s.boot.katDone = true → s.rd (poolSuspended p) = 0 → (∀ k, k < poolSize p → s.rd (unitSelected p k) = 0) → s.tester p = some u → s.eng.passed.contains (unitKey p u) = true →
      s.nextServing p (match tblGet 0 s.eng.lastTested p.num with | 0 => u | n + 1 => n) = some next →
      ∃ t, exec (.selfTestRotation p) s = .next t ∧ t.rd (unitState p u) = 1 ∧ t.rd (unitSelected p next) = 1 ∧ t.rd (poolTesting p) = noUnit p ∧
        t.rd (poolEvtRotate p) = 1 ∧ t.eng.passed.contains (unitKey p u) = false ∧ t.mem = s.mem) ∧
    (s.boot.katDone = true → s.tester p = some u → s.eng.passed.contains (unitKey p u) = false → exec (.selfTestRotation p) s = .next s) ∧
    (s.rd (unitSelected p u) = 1 → s.unitBusy p u = false → s.rd (unitState p u) = 1 → ∃ t, exec (.selfTestEntry p u) s = .next t ∧ t.rd (unitState p u) = 3 ∧
      t.rd (poolTesting p) = u ∧ t.rd (unitSelected p u) = 0 ∧ t.mem = s.mem) ∧
    (s.rd (unitState p u) = 3 → s.eng.passed.contains (unitKey p u) = false → (∀ r, s.eng.regrowth = some r → p = .lattice → r.1 ≠ u) → s.isTesting p u = true → s.rd (poolSuspended p) = 0 → s.verdict p none = true →
      ∃ t, exec (.selfTestRunDone p u none) s = .next t ∧ t.eng.passed.contains (unitKey p u) = true ∧ t.rd (poolPasses p) = (s.rd (poolPasses p) + 1) % 65536 ∧
        t.rd (unitEvt p u) = 1 ∧ t.rd (unitState p u) = 3 ∧ t.mem = s.mem) ∧
    (∀ f : TestFail, s.verdict p (some f) = true → s.rd (unitState p u) = 3 → s.eng.passed.contains (unitKey p u) = false → (∀ r, s.eng.regrowth = some r → p = .lattice → r.1 ≠ u) → s.respCode 20 ≤ 1 →
      ∃ t, exec (.selfTestRunDone p u (some f)) s = .next t ∧ t.rd (unitState p u) = 5 ∧ t.rd (unitCause p u) = (s.runFault p u f).cause ∧ t.rd (unitEvtFenced p u) = 1 ∧ t.mem = s.mem) ∧
    (s.rd (unitState p u) = 3 → s.rd R.ENT_STATUS_FAILED = 1 → exec (.selfTestRunDone p u none) s = .next s) ∧
    (∀ lane cause, lane < 4 → serviceCause p cause = true → s.rd (unitState p u) ≠ 0 → s.rd (unitState p u) ≠ 5 → s.respCode 20 ≤ 1 → ∃ t, exec (.engineFault p u lane cause) s = .next t ∧
      t.rd (unitState p u) = 5 ∧ t.rd (unitCause p u) = cause ∧ t.rd (unitEvtFault p u) = 1 ∧ t.rd (unitEvtFenced p u) = 1 ∧ t.mem = s.mem) ∧
    (p = .lattice → s.eng.regrowth = some (u, false) → s.verdict .lattice none = true → s.respCode 20 ≤ 1 → ∃ t, exec (.regrowthDone u none) s = .next t ∧ t.rd (R.LAT_TILE_STATE.ix u) = 1 ∧
      t.rd R.LAT_EVT_REGROWTH = 1 ∧ t.eng.regrowth = none ∧ t.mem = s.mem) ∧
    (∀ f : TestFail, p = .lattice → s.eng.regrowth = some (u, false) → s.verdict .lattice (some f) = true → s.respCode 20 ≤ 1 → ∃ t, exec (.regrowthDone u (some f)) s = .next t ∧
      t.rd (R.LAT_TILE_STATE.ix u) = 5 ∧ t.rd (R.LAT_TILE_CAUSE.ix u) = testCause .lattice f.test ∧ t.rd R.LAT_EVT_SPARE_OUT = 1 ∧ t.mem = s.mem) ∧
    (tblGet 0 s.eng.afterClear (unitKey p u) ≠ 0 → tblGet 0 s.eng.afterClear (unitKey p u) ≠ 100 → ∃ t, exec (.unitClearDone p u true) s = .next t ∧
      tblGet 0 t.eng.afterClear (unitKey p u) = 0 ∧ t.rd (unitState p u) = (if s.rd (unitState p u) = 5 then 5 else if tblGet 0 s.eng.afterClear (unitKey p u) = 7 ∧ p ≠ .hash then 2 else 1) ∧ s.keepsRegs t [unitState p u] ∧ t.mem = s.mem)

/-! Chapter 21: the Soade link and the twin. -/

/-- R480, R481: a frame with a bad LCRC, or out of order ahead, asks for a replay and changes nothing else of the session; one in order is taken; a bad tag ends the session. -/
def Obligations.FrameChecks : Prop :=
  ∀ (s : State) (h : FrameHdr) (cseq : Nat), s.twn.linkUp = true →
    (h.lcrcOk = false → ∃ t, exec (.heartbeat h cseq) s = .next t ∧ t.twn.nak = true ∧ t.twn.recvSeq = s.twn.recvSeq ∧ { t with twn := s.twn } = s) ∧
    (s.inOrder h → exec (.heartbeat h cseq) s = .next (s.received h) ∧ (s.received h).twn.recvSeq = s.twn.recvSeq + 1 ∧ { s.received h with twn := s.twn } = s) ∧
    (h.lcrcOk = true → h.tagOk = true → h.nak = false → s.twn.recvSeq < h.seq → ∃ t, exec (.heartbeat h cseq) s = .next t ∧ t.twn.nak = true ∧ t.twn.recvSeq = s.twn.recvSeq ∧ { t with twn := s.twn } = s) ∧
    (h.lcrcOk = true → h.tagOk = false → ∃ t, exec (.heartbeat h cseq) s = .next t ∧ t.twn.authed = false ∧ t.twn.keyed = false)

/-- R479, R482, R491: the link trains, retrains and goes down; heartbeats are sent and missed; the sideband and TW_PRESENT_N; a peer that is lost leaves SOLO_LOST, a link that is lost SOLO_LINK. R483, R485: an accepted TWN_PAIR consumes its approval; with a met pairing approval it begins a pairing; while one is under way it ends with RESULT 7. -/
def Obligations.TwinLinkRows : Prop :=
  (∀ (s : State), s.calm →
     (∀ speed width, s.byParity = true → s.pins.twPresentN = false → s.domOn 13 = true → s.inTest 2 = false → s.twn.authed = false → (speed = 4 ∨ speed = 5) → (width = 1 ∨ width = 2 ∨ width = 4) →
       ∃ t f, exec (.twinLinkTrained speed width) s = .next t ∧ t.twn.linkUp = true ∧ t.twn.recvSeq = 0 ∧ t.twn.sendSeq = 1 ∧ t.rd R.TWN_STATUS_SPEED = speed ∧ t.rd R.TWN_STATUS_WIDTH = width ∧
         (s.takesPart = true → t.rd R.TWN_STATUS_STATE = 2) ∧ t.out = .soade f :: s.out ∧ f.seq = 0 ∧
         f.payload = .hello (s.twinVer 0) (s.twinVer 1) (s.twinVer 2) (s.twinVer 3) Config.serial.toNat ∧ t.mem = s.mem) ∧
     (∀ ok, s.lead = true → (s.rd R.TWN_STATUS_STATE = 5 ∨ s.rd R.TWN_STATUS_STATE = 6) → s.pins.twPresentN = false → s.inTest 2 = false → ∃ t, exec (.twinRetrainTimer ok) s = .next t ∧
       t.rd R.TWN_LINK_ERR_RETRAINS = min (s.rd R.TWN_LINK_ERR_RETRAINS + 1) 255 ∧ t.twn.failedRetrains = (if ok then 0 else s.twn.failedRetrains + 1) ∧ t.mem = s.mem) ∧
     (s.byParity = true → ∃ t, exec .twinLinkDown s = .next t ∧ t.twn.linkUp = false ∧ t.rd R.TWN_STATUS_SPEED = 0 ∧ t.mem = s.mem ∧
       (s.twn.authed = true → s.cfg.sideband = false → t.rd R.TWN_STATUS_STATE = 6 ∧ t.rd R.TWN_EVT_PEER_LOST = 1 ∧ t.twn.authed = false)) ∧
     (s.twn.authed = true → s.twn.linkUp = true → s.cfg.sideband = false → ∃ t f, exec .heartbeatSend s = .next t ∧ t.out = .soade f :: s.out ∧
       f.payload = .heartbeat (s.rd R.TWN_CSEQ_COUNT) ∧ f.seq = s.twn.sendSeq ∧ t.twn.sendSeq = s.twn.sendSeq + 1 ∧ t.regs = s.regs ∧ t.mem = s.mem) ∧
     (s.cfg.sideband = true → s.boot.applied = true → s.rd R.GLB_STATUS_RECOVERY = 0 → ∃ t, exec .heartbeatSend s = .next t ∧ t.pins.beat = (!s.pins.beat) ∧ t.regs = s.regs ∧ t.mem = s.mem) ∧
     (∀ toggles, s.twn.authed = true → ∃ t, exec (.heartbeatMiss toggles) s = .next t ∧ t.twn.authed = false ∧ t.rd R.GLB_STATUS_TWIN_UP = 0 ∧ t.mem = s.mem ∧
       t.rd R.TWN_STATUS_STATE = (if s.cfg.sideband = true ∧ toggles = true ∧ s.pins.peerFaultIn = false then 5 else 6)) ∧
     (s.cfg.sideband = true → s.boot.applied = true → s.twn.authed = true → ∃ t, exec .peerFaultInHigh s = .next t ∧ t.pins.peerFaultIn = true ∧ t.rd R.TWN_STATUS_STATE = 6 ∧
       t.rd R.TWN_EVT_PEER_LOST = 1 ∧ t.twn.authed = false ∧ t.mem = s.mem) ∧
     (s.cfg.sideband = false → ∃ t, exec .peerFaultInHigh s = .next t ∧ t.pins.peerFaultIn = true ∧ { t with pins := s.pins } = s) ∧
     (∀ high, ∃ t, exec (.twPresentNChange high) s = .next t ∧ t.pins.twPresentN = high ∧ t.mem = s.mem ∧ (high = true → t.twn.linkUp = false) ∧ (high = false → { t with pins := s.pins } = s)) ∧
     (∀ h reason, s.inOrder h → s.twn.authed = true → ∃ t, exec (.close h reason) s = .next t ∧ t.rd R.TWN_STATUS_STATE = 6 ∧ t.twn.authed = false ∧ t.rd R.TWN_EVT_LINK_DOWN = 1 ∧ t.mem = s.mem)) ∧
  (∀ (s : State) (who : Requester) (complement : Word32) (v : Nat), s.passesGuarded who 0x120008 complement v →
     (∀ a, s.rd R.TWN_PAIR_STATUS_BUSY = 0 → s.byParity = true → v.testBit 16 = false → s.approvalAt (v % 65536) = some a → s.pairApproval (v % 65536) = 0 →
       ∃ t, exec (.twnPair who complement) s = .next t ∧ t.rd R.TWN_PAIR_STATUS_BUSY = 1 ∧ t.rd R.TWN_PAIR_STATUS_RESULT = 0 ∧ t.rd R.TWN_STATUS_STATE = 2 ∧
         t.approvalAt (v % 65536) = none ∧ t.twn.approved = some (a.owner, a.digest) ∧ t.twn.join = v.testBit 17 ∧ t.twn.linkUp = false ∧ t.mem = s.mem) ∧
     (s.rd R.TWN_PAIR_STATUS_BUSY = 1 → ∃ t, exec (.twnPair who complement) s = .next t ∧ t.rd R.TWN_PAIR_STATUS_RESULT = 7 ∧ t.rd R.TWN_PAIR_STATUS_BUSY = 1 ∧
       t.rd R.TWN_EVT_PAIR_FAIL = 1 ∧ t.approvalAt (v % 65536) = none ∧ t.mem = s.mem))

/-- R482 to R486: the peer's HELLO settles the version, and LEAD answers with PAIR_KEM; a device that takes no part closes with reason 5; PAIR_KEM derives the session keys and is answered with PAIR_AUTH; a PAIR_AUTH of the accepted identity starts resynchronisation where both its signatures verify, and ends the session otherwise; one of another identity ends the pairing with RESULT 3. -/
def Obligations.Handshake : Prop :=
  ∀ (s : State) (h : FrameHdr), s.calm → s.inOrder h → let s1 := s.received h
    (∀ a b c d serial, let hello := exec (.soadeHello h a b c d serial) s
      (s1.chooseVersion (a * 256 + b) (c * 256 + d) = none → ∃ t, hello = .next t ∧ t.rd R.TWN_PAIR_STATUS_RESULT = 1 ∧ t.rd R.TWN_PAIR_STATUS_BUSY = 0 ∧ t.mem = s.mem) ∧
      (∀ v, s1.chooseVersion (a * 256 + b) (c * 256 + d) = some v →
        (s.takesPart = false → ∃ t f, hello = .next t ∧ t.out = .soade f :: s.out ∧ f.payload = .close 5 ∧ t.twn.authed = false ∧ t.mem = s.mem) ∧
        (s.takesPart = true → ∃ t, hello = .next t ∧ t.twn.peerSerial = some serial ∧ t.rd R.TWN_STATUS_VER_MAJOR = v / 256 ∧ t.rd R.TWN_STATUS_VER_MINOR = v % 256 ∧ t.mem = s.mem ∧
          (s.lead = false → t.out = s.out) ∧ (s.lead = true → ∃ f x k, t.out = .soade f :: s.out ∧ f.payload = .pairKem x k)))) ∧
    (∀ x k k0 k1, s.twn.peerSerial.isSome = true → s.twn.keyed = false → s.rd R.TWN_STATUS_STATE = 2 → s.keys.reservedMap = [] → (∀ n, n ∈ [5, 6, 7] → s.keys.fenced.contains n = false) →
      s.deviceKey 0 = some k0 → s.deviceKey 1 = some k1 → ∃ t f b, exec (.pairKem h x k) s = .next t ∧ t.twn.keyed = true ∧ (t.deviceKey 7).isSome = true ∧ (t.deviceKey 5).isSome = true ∧ (t.deviceKey 6).isSome = true ∧
        t.out.head? = some (.soade f) ∧ f.payload = .pairAuth 2 b ∧ t.out.length = s.out.length + (if s.lead then 3 else 4) ∧ t.mem = s.mem) ∧
    (∀ im ip sm sp, s.twn.keyed = true → s.twn.authed = false → let auth := exec (.pairAuth h im ip sm sp) s
      (s1.peerAccepted (sha384 (im ++ ip)) = false → ∃ t, auth = .next t ∧ t.rd R.TWN_PAIR_STATUS_RESULT = 3 ∧ t.twn.keyed = false ∧ t.mem = s.mem) ∧
      (s1.peerAccepted (sha384 (im ++ ip)) = true → s.twn.approved = none →
        let good := verifies algMldsa65 pureMode im (ascii "HX960 TWIN") s1.transcript sm && verifies algP384 sha384Mode ip [] s1.transcript sp
        ∃ t, auth = .next t ∧ t.twn.authed = good ∧ (good = true → t.rd R.TWN_STATUS_STATE = 3 ∧ t.rd R.TWN_EVT_PAIRED = 1 ∧ t.rd R.TWN_PAIR_STATUS_RESULT = 0 ∧ t.mem = s.mem)))

/-- R489 to R496: commits are applied, counted and acknowledged; an acknowledgement ends the command that waits; resynchronisation applies its records and ends in PAIRED; a key is sent when asked for and restored when it comes. -/
def Obligations.TwinSession : Prop :=
  ∀ (s : State) (h : FrameHdr), s.inOrder h → let s1 := s.received h
    (∀ rec, s.twn.authed = true → ∃ t f l, exec (.commit h rec) s = .next t ∧ t.out = .soade f :: l ∧ f.payload = .ack (s1.applyRec rec).1 ∧
      t.rd R.TWN_CSEQ_COUNT = ((s1.applyRec rec).2.rd R.TWN_CSEQ_COUNT + 1) % 2 ^ 64 ∧ t.keys = (s1.applyRec rec).2.keys ∧ t.mem = (s1.applyRec rec).2.mem) ∧
    (∀ o i g k, s.keyAt o i = some k → k.attr.gen ≤ g → (s1.applyRec (.destroy o i g)).1 = 0 ∧ (s1.applyRec (.destroy o i g)).2.keyAt o i = none) ∧
    (∀ c x, s.twn.authed = true → s.commits = [c] → c.changes = [x] → ∃ t, exec (.ack h 0) s = .next t ∧ t.cmd c.id = none) ∧
    (∀ c x y l, s.twn.authed = true → s.commits = [c] → c.changes = x :: y :: l → ∃ t, exec (.ack h 0) s = .next t ∧
      t.dsp.inflight = s.dsp.inflight.map (fun z => if z.id = c.id then { c with changes := y :: l } else z) ∧ t.regs = s.regs ∧ t.mem = s.mem) ∧
    (∀ recs, s.rd R.TWN_STATUS_STATE = 3 → (∀ a, ddrBase ≤ a → a < ddrBase + 0x40000000 → s.beatRefusal 2 .write .secure a = none) →
      (s.rd R.TWN_STATUS_MODE ≠ 1 → exec (.resyncData h recs) s = .next ((s1.freeNat 4).2.applyAll recs)) ∧ exec (.journal h recs) s = .next ((s1.freeNat 4).2.applyAll recs)) ∧
    (∀ count, s.rd R.TWN_STATUS_STATE = 3 → s.twn.sentEnd = true → ∃ t, exec (.resyncEnd h count) s = .next t ∧ t.rd R.TWN_STATUS_STATE = 4 ∧ t.rd R.GLB_STATUS_TWIN_UP = 1 ∧
      t.rd R.TWN_EVT_RESYNC_DONE = 1 ∧ t.twn.journal = [] ∧ t.mem = s.mem) ∧
    (∀ count, s.rd R.TWN_STATUS_STATE = 3 → s.twn.sentEnd = false → ∃ t, exec (.resyncEnd h count) s = .next t ∧ t.twn.gotEnd = true ∧ t.regs = s.regs ∧ t.mem = s.mem) ∧
    (∀ handle, s.twn.authed = true → s.twinRestores = true → s.secureServing = true → ∃ t f, exec (.keyReq h handle) s = .next t ∧ t.out = .soade f :: s.out ∧
      f.payload = .keyResp (s1.keyRecord handle) ∧ t.regs = s.regs ∧ t.mem = s.mem) ∧
    (s.twn.authed = true → s.twinRestores = true → exec (.keyResp h none) s = .next s1 ∧
      ∀ a stored object k d x, s.keyAt a.owner a.index = some k → k.loc = .defective → k.attr.gen = a.gen →
        (s1.uncount k.counted k.obj.isSome).placeAt k.attr stored (!object && goesToSlot a.cls stored.length false && !s1.freeSlots.isEmpty) k.counted = ((0, d), x) →
        ∃ t, exec (.keyResp h (some (.key a stored object))) s = .next t ∧ t.rd R.KS_EVT_RESTORED = 1 ∧ t.keys = x.keys ∧ t.mem = x.mem)

/-! Chapter 22: the link test block. -/

/-- R498 to R503, Table 22-2: entering and leaving the test state, checkers, eye points. -/
def Obligations.LinkTestRows : Prop :=
  ∀ (s : State),
    (∀ (who : Requester) (link : Fin 5), let k := link.val
      s.passes who (0x130000 + 4 * k) = true →
      (s.inTest k = false → s.testCheck k = 0 → ∃ t, exec (.ltsTestEnter who link) s = .next t ∧ t.rd (R.LTS_CTRL_STATE.ix k) = 1 ∧ t.rd (R.LTS_CTRL_TEST.ix k) = 1) ∧
      (s.inTest k = false → s.testCheck k ≠ 0 → ∃ t, exec (.ltsTestEnter who link) s = .next t ∧ t.rd (R.LTS_CTRL_RESULT.ix k) = s.testCheck k ∧ t.inTest k = false ∧ t.mem = s.mem) ∧
      (s.inTest k = true → ∃ t, exec (.ltsTestExit who link) s = .next t ∧ t.rd (R.LTS_CTRL_STATE.ix k) = 0 ∧ t.rd (R.LTS_CTRL_TEST.ix k) = 0 ∧ t.rd (R.LTS_CTRL_RESULT.ix k) = 0 ∧
        t.mem = s.mem) ∧
      (s.inTest k = true → (s.word 0 (0x130000 + 4 * k)).testBit 0 = true → ∃ t, exec (.ltsChkStart who link) s = .next t ∧ t.rd (R.LTS_CTRL_CHK.ix k) = 1 ∧
        (∀ i, i < linkLanes k → t.rd (R.LTS_LANE_ERRORS.ix (linkFirst k + i)) = 0) ∧ t.mem = s.mem)) ∧
    (∀ lane, s.checking lane = true → s.rd (R.LTS_LANE_SYNC.ix lane) = 0 → ∃ t, exec (.ltsCheckerAligned lane) s = .next t ∧ t.rd (R.LTS_LANE_SYNC.ix lane) = 1 ∧
      s.onlyRegs t [R.LTS_LANE_SYNC.ix lane]) ∧
    (∀ lane, s.checking lane = true → s.rd (R.LTS_LANE_SYNC.ix lane) = 1 → ∃ t, exec (.ltsCheckerSyncLost lane) s = .next t ∧ t.rd (R.LTS_LANE_SYNC.ix lane) = 0 ∧
      min (s.rd (R.LTS_LANE_ERRORS.ix lane) + 32) (2 ^ 31 - 1) ≤ t.rd (R.LTS_LANE_ERRORS.ix lane) ∧ t.mem = s.mem ∧
      (s.lts.eyeLane = some lane → t.rd R.LTS_EYE_RES_RESULT = 1 ∧ t.rd R.LTS_EYE_RES_BUSY = 0)) ∧
    (∀ (who : Requester) (v : Word32), s.passes who 0x132000 = true → v.toNat.testBit 31 = true → s.rd R.LTS_EYE_RES_BUSY = 0 →
      (s.eyeEligible (v.toNat % 256) = true → ∃ t, exec (.ltsEyeGo who v) s = .next t ∧ t.rd R.LTS_EYE_RES_BUSY = 1 ∧ t.lts.eyeLane = some (v.toNat % 256) ∧ t.mem = s.mem) ∧
      (s.eyeEligible (v.toNat % 256) = false → ∃ t, exec (.ltsEyeGo who v) s = .next t ∧ t.rd R.LTS_EYE_RES_BUSY = 0 ∧ t.rd R.LTS_EYE_RES_RESULT = 3 ∧ t.mem = s.mem)) ∧
    (∀ result errors, s.rd R.LTS_EYE_RES_BUSY = 1 → result ≤ 2 → errors ≤ s.eyeBits → ∃ t, exec (.ltsEyeDone result errors) s = .next t ∧ t.rd R.LTS_EYE_RES_BUSY = 0 ∧ t.rd R.LTS_EYE_RES_DONE = 1 ∧
      t.rd R.LTS_EYE_RES_RESULT = result ∧ t.rd R.LTS_EYE_RES_ERRORS = min errors (2 ^ 28 - 1) ∧ t.lts.eyeLane = none ∧ t.mem = s.mem)

/-! The machine. -/

/-- On an empty queue a step is one period of SYS_REFCLK: TIME counts it while POR_N is high (the model's choice, log entry 1). -/
def Obligations.IdleStep : Prop :=
  ∀ (s : State), s.pending = [] → s.calm → ∃ t, step s = .next t ∧ t.time = (if s.pins.porN then s.time + 1 else s.time) ∧ t.pending = [] ∧ t.mem = s.mem ∧ t.out = s.out

/-- The reset state is canonical. -/
def Obligations.ResetCanonical : Prop := State.reset.canon = true

/-- Every step keeps the canonical form of memory and of the register file, from every state that has it. -/
def Obligations.StepKeepsCanonical : Prop := ∀ (s t : State), s.canon = true → step s = .next t → t.canon = true
end

