-- ==== Sys2Proof/Laws/Table.lean ====
section
/-! SUPPORT. The laws of sparse tables: a read after a write, the canonical form kept by every operation. -/

namespace Sys2Proof.Machine

variable {α : Type}

theorem tblGet_erase_same (d : α) (t : Tbl α) (k : Nat) : tblGet d (tblErase t k) k = d := by
  induction t with
  | nil => rfl
  | cons e t ih =>
    obtain ⟨k', v⟩ := e
    by_cases h : k = k'
    · simp [tblErase, h]; rw [← h]; exact ih
    · simp [tblErase, tblGet, h, ih]

theorem tblGet_erase_other (d : α) (t : Tbl α) {k j : Nat} (h : j ≠ k) : tblGet d (tblErase t k) j = tblGet d t j := by
  induction t with
  | nil => rfl
  | cons e t ih =>
    obtain ⟨k', v⟩ := e
    by_cases hk : k = k'
    · subst hk; simp [tblErase, tblGet, h, ih]
    · simp [tblErase, tblGet, hk, ih]

theorem tblGet_insert_same (d : α) (t : Tbl α) (k : Nat) (v : α) : tblGet d (tblInsert t k v) k = v := by
  induction t with
  | nil => simp [tblInsert, tblGet]
  | cons e t ih =>
    obtain ⟨k', v'⟩ := e
    simp only [tblInsert]
    split
    · simp [tblGet]
    · split
      · simp [tblGet]
      · simp [tblGet, *]

theorem tblGet_insert_other (d : α) (t : Tbl α) {k j : Nat} (v : α) (h : j ≠ k) : tblGet d (tblInsert t k v) j = tblGet d t j := by
  induction t with
  | nil => simp [tblInsert, tblGet, h]
  | cons e t ih =>
    obtain ⟨k', v'⟩ := e
    simp only [tblInsert]
    split
    · simp [tblGet, h]
    · split
      · rename_i h1 h2; subst h2; simp [tblGet, h]
      · simp [tblGet, ih]

/-- Reading the key written gives the value written. -/
@[simp] theorem tblGet_put_same [DecidableEq α] (d : α) (t : Tbl α) (k : Nat) (v : α) : tblGet d (tblPut d t k v) k = v := by
  unfold tblPut
  split
  · subst_vars; exact tblGet_erase_same _ t k
  · exact tblGet_insert_same d t k v

/-- Reading another key gives what it gave before, whatever either reads as when it is not listed. -/
theorem tblGet_put_other [DecidableEq α] (d e : α) (t : Tbl α) {k j : Nat} (v : α) (h : j ≠ k) :
    tblGet d (tblPut e t k v) j = tblGet d t j := by
  unfold tblPut
  split
  · exact tblGet_erase_other d t h
  · exact tblGet_insert_other d t v h

/-! Canonical form. -/

theorem tblAbove_erase {b k : Nat} {t : Tbl α} (h : tblAbove b t = true) : tblAbove b (tblErase t k) = true := by
  induction t with
  | nil => rfl
  | cons e t ih =>
    obtain ⟨k', v⟩ := e
    simp only [tblAbove, Bool.and_eq_true] at h
    simp only [tblErase]
    split
    · exact ih h.2
    · simp [tblAbove, h.1, ih h.2]

theorem tblSorted_erase {k : Nat} {t : Tbl α} (h : tblSorted t = true) : tblSorted (tblErase t k) = true := by
  induction t with
  | nil => rfl
  | cons e t ih =>
    obtain ⟨k', v⟩ := e
    simp only [tblSorted, Bool.and_eq_true] at h
    simp only [tblErase]
    split
    · exact ih h.2
    · simp [tblSorted, tblAbove_erase h.1, ih h.2]

theorem tblLean_erase [DecidableEq α] {d : α} {k : Nat} {t : Tbl α} (h : tblLean d t = true) : tblLean d (tblErase t k) = true := by
  induction t with
  | nil => rfl
  | cons e t ih =>
    obtain ⟨k', v⟩ := e
    simp only [tblLean, Bool.and_eq_true] at h
    simp only [tblErase]
    split
    · exact ih h.2
    · simp [tblLean, h.1, ih h.2]

theorem tblAbove_insert {b k : Nat} {v : α} {t : Tbl α} (hb : b < k) (h : tblAbove b t = true) : tblAbove b (tblInsert t k v) = true := by
  induction t with
  | nil => simp [tblInsert, tblAbove, hb]
  | cons e t ih =>
    obtain ⟨k', v'⟩ := e
    simp only [tblAbove, Bool.and_eq_true] at h
    simp only [tblInsert]
    split
    · simp [tblAbove, hb, h.2]
      exact of_decide_eq_true h.1
    · split
      · simp [tblAbove, hb, h.2]
      · simp [tblAbove, of_decide_eq_true h.1, ih h.2]

theorem tblAbove_mono {a b : Nat} {t : Tbl α} (hab : a ≤ b) (h : tblAbove b t = true) : tblAbove a t = true := by
  induction t with
  | nil => rfl
  | cons e t ih =>
    simp only [tblAbove, Bool.and_eq_true] at h ⊢
    exact ⟨by have := of_decide_eq_true h.1; simp; omega, ih h.2⟩

theorem tblSorted_insert {k : Nat} {v : α} {t : Tbl α} (h : tblSorted t = true) : tblSorted (tblInsert t k v) = true := by
  induction t with
  | nil => simp [tblInsert, tblSorted, tblAbove]
  | cons e t ih =>
    obtain ⟨k', v'⟩ := e
    have h0 := h
    simp only [tblSorted, Bool.and_eq_true] at h
    simp only [tblInsert]
    split
    · rename_i hlt
      simp only [tblSorted, tblAbove, Bool.and_eq_true, decide_eq_true_eq]
      exact ⟨⟨hlt, tblAbove_mono (Nat.le_of_lt hlt) h.1⟩, h.1, h.2⟩
    · split
      · rename_i h1 h2; subst h2
        simp only [tblSorted, Bool.and_eq_true]
        exact ⟨h.1, h.2⟩
      · rename_i h1 h2
        simp only [tblSorted, Bool.and_eq_true]
        exact ⟨tblAbove_insert (by omega) h.1, ih h.2⟩

theorem tblLean_insert [DecidableEq α] {d : α} {k : Nat} {v : α} {t : Tbl α} (hv : v ≠ d) (h : tblLean d t = true) :
    tblLean d (tblInsert t k v) = true := by
  induction t with
  | nil => simp [tblInsert, tblLean, hv]
  | cons e t ih =>
    obtain ⟨k', v'⟩ := e
    have h0 := h
    simp only [tblLean, Bool.and_eq_true] at h
    simp only [tblInsert]
    split
    · simp only [tblLean, Bool.and_eq_true]; exact ⟨by simp [hv], h.1, h.2⟩
    · split
      · simp only [tblLean, Bool.and_eq_true]; exact ⟨by simp [hv], h.2⟩
      · simp only [tblLean, Bool.and_eq_true]; exact ⟨h.1, ih h.2⟩

/-- A write keeps keys in rising order. -/
theorem tblSorted_put [DecidableEq α] (d : α) {t : Tbl α} (k : Nat) (v : α) (h : tblSorted t = true) :
    tblSorted (tblPut d t k v) = true := by
  unfold tblPut
  split
  · exact tblSorted_erase h
  · exact tblSorted_insert h

/-- A write keeps the canonical form. -/
theorem tblWf_put [DecidableEq α] (d : α) {t : Tbl α} (k : Nat) (v : α) (h : tblWf d t = true) : tblWf d (tblPut d t k v) = true := by
  simp only [tblWf, Bool.and_eq_true] at h ⊢
  refine ⟨tblSorted_put d k v h.1, ?_⟩
  unfold tblPut
  split
  · exact tblLean_erase h.2
  · exact tblLean_insert ‹_› h.2

theorem tblAbove_filter {b : Nat} {t : Tbl α} (p : Nat × α → Bool) (h : tblAbove b t = true) : tblAbove b (t.filter p) = true := by
  induction t with
  | nil => rfl
  | cons e t ih =>
    simp only [tblAbove, Bool.and_eq_true] at h
    simp only [List.filter]
    split
    · simp only [tblAbove, Bool.and_eq_true]; exact ⟨h.1, ih h.2⟩
    · exact ih h.2

/-- Dropping entries keeps keys in rising order. -/
theorem tblSorted_filter {t : Tbl α} (p : Nat × α → Bool) (h : tblSorted t = true) : tblSorted (t.filter p) = true := by
  induction t with
  | nil => rfl
  | cons e t ih =>
    simp only [tblSorted, Bool.and_eq_true] at h
    simp only [List.filter]
    split
    · simp only [tblSorted, Bool.and_eq_true]; exact ⟨tblAbove_filter p h.1, ih h.2⟩
    · exact ih h.2

end Sys2Proof.Machine
end

