-- ==== Sys2Proof/Laws/State.lean ====
section
/-! SUPPORT. The laws of the state's accessors: what each update leaves of each part, and what a read gives after a write. -/

namespace Sys2Proof.Machine

/-! Register fields. -/

/-- A field reads, after it was written, the value cut to its width. -/
@[simp] theorem State.rd_wr_same (s : State) (f : Fld) (v : Nat) : (s.wr f v).rd f = v % 2 ^ f.width := by
  simp [State.rd, State.wr]

/-- Another field reads as before. -/
theorem State.rd_wr_other (s : State) {f g : Fld} (v : Nat) (h : g.key ≠ f.key) : (s.wr f v).rd g = s.rd g := by
  simp only [State.rd, State.wr]
  exact tblGet_put_other _ _ _ _ h

@[simp] theorem State.wr_mem (s : State) (f : Fld) (v : Nat) : (s.wr f v).mem = s.mem := rfl
@[simp] theorem State.wr_cores (s : State) (f : Fld) (v : Nat) : (s.wr f v).cores = s.cores := rfl
@[simp] theorem State.wr_core (s : State) (f : Fld) (v p : Nat) : (s.wr f v).core p = s.core p := rfl
@[simp] theorem State.wr_pins (s : State) (f : Fld) (v : Nat) : (s.wr f v).pins = s.pins := rfl
@[simp] theorem State.wr_boot (s : State) (f : Fld) (v : Nat) : (s.wr f v).boot = s.boot := rfl
@[simp] theorem State.wr_bus (s : State) (f : Fld) (v : Nat) : (s.wr f v).bus = s.bus := rfl
@[simp] theorem State.wr_cfg (s : State) (f : Fld) (v : Nat) : (s.wr f v).cfg = s.cfg := rfl
@[simp] theorem State.wr_tmp (s : State) (f : Fld) (v : Nat) : (s.wr f v).tmp = s.tmp := rfl
@[simp] theorem State.wr_pwr (s : State) (f : Fld) (v : Nat) : (s.wr f v).pwr = s.pwr := rfl
@[simp] theorem State.wr_evr (s : State) (f : Fld) (v : Nat) : (s.wr f v).evr = s.evr := rfl
@[simp] theorem State.wr_act (s : State) (f : Fld) (v : Nat) : (s.wr f v).act = s.act := rfl
@[simp] theorem State.wr_lc (s : State) (f : Fld) (v : Nat) : (s.wr f v).lc = s.lc := rfl
@[simp] theorem State.wr_tap (s : State) (f : Fld) (v : Nat) : (s.wr f v).tap = s.tap := rfl
@[simp] theorem State.wr_twn (s : State) (f : Fld) (v : Nat) : (s.wr f v).twn = s.twn := rfl
@[simp] theorem State.wr_lts (s : State) (f : Fld) (v : Nat) : (s.wr f v).lts = s.lts := rfl
@[simp] theorem State.wr_ent (s : State) (f : Fld) (v : Nat) : (s.wr f v).ent = s.ent := rfl
@[simp] theorem State.wr_eng (s : State) (f : Fld) (v : Nat) : (s.wr f v).eng = s.eng := rfl
@[simp] theorem State.wr_dsp (s : State) (f : Fld) (v : Nat) : (s.wr f v).dsp = s.dsp := rfl
@[simp] theorem State.wr_keys (s : State) (f : Fld) (v : Nat) : (s.wr f v).keys = s.keys := rfl
@[simp] theorem State.wr_out (s : State) (f : Fld) (v : Nat) : (s.wr f v).out = s.out := rfl
@[simp] theorem State.wr_edges (s : State) (f : Fld) (v : Nat) : (s.wr f v).edges = s.edges := rfl
@[simp] theorem State.wr_time (s : State) (f : Fld) (v : Nat) : (s.wr f v).time = s.time := rfl
@[simp] theorem State.wr_freeCtr (s : State) (f : Fld) (v : Nat) : (s.wr f v).freeCtr = s.freeCtr := rfl
@[simp] theorem State.wr_pending (s : State) (f : Fld) (v : Nat) : (s.wr f v).pending = s.pending := rfl
@[simp] theorem State.wr_qps (s : State) (f : Fld) (v : Nat) : (s.wr f v).qps = s.qps := rfl
@[simp] theorem State.wr_fns (s : State) (f : Fld) (v : Nat) : (s.wr f v).fns = s.fns := rfl
@[simp] theorem State.wr_vfs (s : State) (f : Fld) (v : Nat) : (s.wr f v).vfs = s.vfs := rfl
@[simp] theorem State.wr_portA (s : State) (f : Fld) (v : Nat) : (s.wr f v).portA = s.portA := rfl
@[simp] theorem State.wr_portB (s : State) (f : Fld) (v : Nat) : (s.wr f v).portB = s.portB := rfl
@[simp] theorem State.wr_ddr (s : State) (f : Fld) (v : Nat) : (s.wr f v).ddr = s.ddr := rfl
@[simp] theorem State.wr_mbx (s : State) (f : Fld) (v : Nat) : (s.wr f v).mbx = s.mbx := rfl

/-! Cores. -/

@[simp] theorem State.core_setCore_same (s : State) (p : Nat) (c : Core) : (s.setCore p c).core p = c := by
  simp [State.core, State.setCore]

theorem State.core_setCore_other (s : State) {p q : Nat} (c : Core) (h : q ≠ p) : (s.setCore p c).core q = s.core q := by
  simp only [State.core, State.setCore]
  exact tblGet_put_other _ _ _ _ h

@[simp] theorem State.setCore_regs (s : State) (p : Nat) (c : Core) : (s.setCore p c).regs = s.regs := rfl
@[simp] theorem State.setCore_rd (s : State) (p : Nat) (c : Core) (f : Fld) : (s.setCore p c).rd f = s.rd f := rfl
@[simp] theorem State.setCore_flag (s : State) (p : Nat) (c : Core) (f : Fld) : (s.setCore p c).flag f = s.flag f := rfl
@[simp] theorem State.setCore_mem (s : State) (p : Nat) (c : Core) : (s.setCore p c).mem = s.mem := rfl
@[simp] theorem State.setCore_byte (s : State) (p : Nat) (c : Core) (a : Nat) : (s.setCore p c).byte a = s.byte a := rfl
@[simp] theorem State.setCore_tmp (s : State) (p : Nat) (c : Core) : (s.setCore p c).tmp = s.tmp := rfl
@[simp] theorem State.setCore_act (s : State) (p : Nat) (c : Core) : (s.setCore p c).act = s.act := rfl
@[simp] theorem State.setCore_pins (s : State) (p : Nat) (c : Core) : (s.setCore p c).pins = s.pins := rfl
@[simp] theorem State.setCore_lc (s : State) (p : Nat) (c : Core) : (s.setCore p c).lc = s.lc := rfl
@[simp] theorem State.setCore_boot (s : State) (p : Nat) (c : Core) : (s.setCore p c).boot = s.boot := rfl
@[simp] theorem State.setCore_time (s : State) (p : Nat) (c : Core) : (s.setCore p c).time = s.time := rfl

/-- A general register after a write: g31 reads as zero and discards writes. -/
theorem State.gr_setGr (s : State) (p : Nat) (d a : Reg) (v : Word64) :
    (s.setGr p d v).gr p a = if a = d ∧ a ≠ 31 then v else s.gr p a := by
  unfold State.setGr State.gr
  by_cases hd : d = 31
  · subst hd
    by_cases ha : a = 31 <;> simp [ha]
  · by_cases ha : a = 31
    · simp [ha]
    · simp only [hd, ha, if_false, State.core_setCore_same, ne_eq, not_false_eq_true, and_true]
      by_cases h : a = d
      · subst h; simp
      · simp only [h, if_false]
        exact tblGet_put_other _ _ _ _ (fun e => h (Fin.ext e))

@[simp] theorem State.setGr_regs (s : State) (p : Nat) (d : Reg) (v : Word64) : (s.setGr p d v).regs = s.regs := by
  unfold State.setGr; split <;> rfl
@[simp] theorem State.setGr_mem (s : State) (p : Nat) (d : Reg) (v : Word64) : (s.setGr p d v).mem = s.mem := by
  unfold State.setGr; split <;> rfl
@[simp] theorem State.setGr_tmp (s : State) (p : Nat) (d : Reg) (v : Word64) : (s.setGr p d v).tmp = s.tmp := by
  unfold State.setGr; split <;> rfl

/-! Queue pairs, functions, ports, channels, mailboxes. -/

@[simp] theorem State.qp_setQp_same (s : State) (f : Fn) (q : Nat) (v : Qp) : (s.setQp f q v).qp f q = v := by
  simp [State.qp, State.setQp]
@[simp] theorem State.setQp_regs (s : State) (f : Fn) (q : Nat) (v : Qp) : (s.setQp f q v).regs = s.regs := rfl
@[simp] theorem State.setQp_mem (s : State) (f : Fn) (q : Nat) (v : Qp) : (s.setQp f q v).mem = s.mem := rfl
@[simp] theorem State.fnSt_setFnSt_same (s : State) (f : Fn) (v : FnSt) : (s.setFnSt f v).fnSt f = v := by
  simp [State.fnSt, State.setFnSt]
@[simp] theorem State.setFnSt_regs (s : State) (f : Fn) (v : FnSt) : (s.setFnSt f v).regs = s.regs := rfl
@[simp] theorem State.setFnSt_mem (s : State) (f : Fn) (v : FnSt) : (s.setFnSt f v).mem = s.mem := rfl
@[simp] theorem State.chan_setChan_same (s : State) (c : Nat) (v : Ddr) : (s.setChan c v).chan c = v := by
  simp [State.chan, State.setChan]
@[simp] theorem State.setChan_regs (s : State) (c : Nat) (v : Ddr) : (s.setChan c v).regs = s.regs := rfl
@[simp] theorem State.setChan_mem (s : State) (c : Nat) (v : Ddr) : (s.setChan c v).mem = s.mem := rfl
@[simp] theorem State.port_setPort_same (s : State) (p : Port) (v : PortSt) : (s.setPort p v).port p = v := by
  cases p <;> rfl
@[simp] theorem State.setPort_regs (s : State) (p : Port) (v : PortSt) : (s.setPort p v).regs = s.regs := by
  cases p <;> rfl
@[simp] theorem State.setPort_mem (s : State) (p : Port) (v : PortSt) : (s.setPort p v).mem = s.mem := by
  cases p <;> rfl
@[simp] theorem State.emit_regs (s : State) (o : Out) : (s.emit o).regs = s.regs := rfl
@[simp] theorem State.emit_mem (s : State) (o : Out) : (s.emit o).mem = s.mem := rfl

/-! Events. -/

@[simp] theorem State.setEvt_mem (s : State) (f : Fld) (b : Nat) : (s.setEvt f b).mem = s.mem := rfl
@[simp] theorem State.setEvt_cores (s : State) (f : Fld) (b : Nat) : (s.setEvt f b).cores = s.cores := rfl
@[simp] theorem State.setEvt_pins (s : State) (f : Fld) (b : Nat) : (s.setEvt f b).pins = s.pins := rfl
@[simp] theorem State.setEvt_boot (s : State) (f : Fld) (b : Nat) : (s.setEvt f b).boot = s.boot := rfl
@[simp] theorem State.setEvt_tmp (s : State) (f : Fld) (b : Nat) : (s.setEvt f b).tmp = s.tmp := rfl
@[simp] theorem State.setEvt_lc (s : State) (f : Fld) (b : Nat) : (s.setEvt f b).lc = s.lc := rfl

/-- An event changes its bit and SEQ of its register, and makes deliveries; nothing else. -/
theorem State.setEvt_frame (s : State) (f : Fld) (b : Nat) : s.onlyEvents (s.setEvt f b) [f, f.seq] := by
  refine ⟨rfl, fun g hg => ?_⟩
  simp only [List.map_cons, List.map_nil, List.mem_cons, List.not_mem_nil, or_false, not_or] at hg
  show ((s.wr f _).wr f.seq _).rd g = _
  rw [State.rd_wr_other _ _ hg.2, State.rd_wr_other _ _ hg.1]

end Sys2Proof.Machine
end

