-- ==== Sys2Proof/Laws/Access.lean ====
section
/-! SUPPORT. What a write of the dispatcher or the engine DMA does where nothing stands in its way, and a handover that consists of two. -/

namespace Sys2Proof.Machine

/-- A list of changes that each leave the state as it is. -/
theorem State.foldl_same {α : Type} {s : State} (f : State → α → State) (l : List α) (h : ∀ x ∈ l, f s x = s) : l.foldl f s = s := by
  induction l with
  | nil => rfl
  | cons x t ih =>
    rw [List.foldl_cons, h x (List.mem_cons_self ..)]
    exact ih fun y hy => h y (List.mem_cons_of_mem _ hy)

/-- The beats of an access lie within it. -/
theorem beatsOf_within {n a len : Nat} {b : Nat × Nat} (h : b ∈ beatsOf n a len) : a ≤ b.1 ∧ b.1 < a + len := by
  induction n generalizing a len with
  | zero => cases h
  | succ n ih =>
    unfold beatsOf at h
    split at h
    · cases h
    · rcases List.mem_cons.mp h with rfl | h
      · exact ⟨Nat.le_refl _, by simp only; omega⟩
      · have := ih h
        omega

/-- No line is locked, none is in error, and no test holds the balls. -/
def State.linesSound (s : State) : Prop := s.tap.extest = false ∧ ∀ c, (s.chan c).locks = [] ∧ (s.chan c).errs = []

/-- A write of a byte of memory meets no refusal, an awake memory, and a filled line. -/
def State.takesByte (s : State) (cls : Nat) (world : World) (a : Nat) : Prop :=
  s.beatRefusal cls .write world a = none ∧ s.memUp a = true ∧ s.wakeMem a = s ∧ s.awaitFill a = s

theorem State.lineRead_sound {s : State} (h : s.linesSound) (c l : Nat) : s.lineRead c l = .good := by
  simp only [State.lineRead, h.1, (h.2 c).2]
  rfl

/-- Lines written anew: only the channels differ, and the lines stay sound. -/
theorem State.cleanLines {s : State} (l : List (Nat × Nat)) (h : s.linesSound) :
    ∃ d, l.foldl (fun s x => s.cleanLine x.1 x.2) s = { s with ddr := d } ∧ ({ s with ddr := d } : State).linesSound := by
  induction l generalizing s with
  | nil => exact ⟨s.ddr, rfl, h⟩
  | cons x t ih =>
    have h1 : (s.cleanLine x.1 x.2).linesSound := by
      refine ⟨h.1, fun c => ?_⟩
      by_cases hc : c = x.1
      · subst hc
        simp only [State.cleanLine, State.setErr, State.chan_setChan_same, (h.2 _).1, (h.2 _).2]
        exact ⟨trivial, rfl⟩
      · have : (s.cleanLine x.1 x.2).chan c = s.chan c := by
          simp only [State.cleanLine, State.setErr, State.chan, State.setChan]
          exact tblGet_put_other _ _ _ _ hc
        rw [this]
        exact h.2 c
    obtain ⟨d, hd, hs⟩ := ih h1
    exact ⟨d, by rw [List.foldl_cons, hd]; rfl, hs⟩

/-- The beats of a write change memory and what the pairs hold of it. -/
theorem putBeats_frame (skip : Nat × Nat → Bool) (bs : List (Nat × Nat)) (l : List Byte) (s : State) :
    ∃ m c, putBeats skip bs l s = { s with mem := m, cores := c } := by
  induction bs generalizing l s with
  | nil => exact ⟨s.mem, s.cores, rfl⟩
  | cons b t ih =>
    obtain ⟨m, c, h⟩ := ih (l.drop b.2) (if skip b then s else s.setBytes b.1 (l.take b.2))
    refine ⟨m, c, ?_⟩
    simp only [putBeats, h]
    split <;> rfl

/-- A write that nothing stands in the way of is carried out; it changes memory, what the pairs and the channels hold of it, and nothing else. -/
theorem State.writeMem_clear {s : State} {cls : Nat} {world : World} {a : Nat} {l : List Byte}
    (h : ∀ x, a ≤ x → x < a + l.length → s.takesByte cls world x) (hl : s.linesSound) :
    ∃ m c d, s.writeMem cls world a l = (true, { s with mem := m, cores := c, ddr := d }) ∧
      ({ s with mem := m, cores := c, ddr := d } : State).linesSound := by
  have hb : ∀ b ∈ beats a l.length, s.takesByte cls world b.1 := fun b hb => h _ (beatsOf_within hb).1 (beatsOf_within hb).2
  have h1 : s.firstRefusal cls .write world (beats a l.length) = none := by
    generalize beats a l.length = bs at hb
    induction bs with
    | nil => rfl
    | cons b t ih =>
      unfold State.firstRefusal
      rw [(hb b (List.mem_cons_self ..)).1]
      exact ih fun x hx => hb x (List.mem_cons_of_mem _ hx)
  have h2 : s.openBeats cls .write world (beats a l.length) = beats a l.length := by
    unfold State.openBeats
    rw [List.filter_eq_self]
    intro b hx
    simp [(hb b hx).1, (hb b hx).2.1]
  have h3 : s.awaitLines (beats a l.length) = s := by
    unfold State.awaitLines
    rw [State.foldl_same (s := s) (fun s b => (s.wakeMem b.1).awaitFill b.1) (beats a l.length)
      (fun b hx => by simp only [(hb b hx).2.2.1, (hb b hx).2.2.2])]
    refine State.foldl_same _ _ fun x _ => ?_
    simp only [State.yieldLock, (hl.2 x.1).1]
    rfl
  unfold State.writeMem
  simp only [h1, h2, h3, hl.1, Bool.false_eq_true, if_false]
  obtain ⟨d, hd, hs⟩ := State.cleanLines (s.linesOf ((beats a l.length).partition fun b => coversLine (beats a l.length) b.1).1) hl
  rw [hd]
  generalize hu : ({ s with ddr := d } : State) = u at hs
  have hg : ∀ x : Nat × Nat, (u.lineRead x.1 x.2 == LineRead.uncorrectable) = false := fun x => by rw [State.lineRead_sound hs]; rfl
  have hc : ∀ x : Nat × Nat, u.checkLine x.1 x.2 false = u := fun x => by simp only [State.checkLine, State.lineRead_sound hs]
  simp only [hg, List.filter_false, List.isEmpty_nil, List.contains_nil, Bool.false_eq_true, if_false, BEq.rfl, Bool.and_self, State.noteRefusal]
  rw [State.foldl_same (s := u) (fun s x => s.checkLine x.1 x.2 false) _ fun x _ => hc x]
  obtain ⟨m, c, hp⟩ := putBeats_frame (fun b => !(beats a l.length).contains b || u.badAt b.1) (beats a l.length) l u
  rw [hp, ← hu]
  refine ⟨m, c, d, rfl, ?_⟩
  rw [← hu] at hs
  exact hs

/-- An aligned transfer of up to 512 bytes is one access. -/
theorem transfers_one {a n : Nat} (ha : a % 32 = 0) (h0 : n ≠ 0) (hn : n ≤ 512) : transfers a n = [(a, n)] := by
  have : n / 512 + 2 = (n / 512 + 1) + 1 := by omega
  unfold transfers
  rw [this, transfersOf]
  simp only [h0, if_false, ha, Nat.sub_zero, Nat.min_eq_left hn, Nat.sub_self, transfersOf, if_true]

/-- The same of a write of the dispatcher of up to 512 bytes. -/
theorem State.dmaOut_clear {s : State} {cls : Nat} {world : World} {a : Nat} {l : List Byte} (ha : a % 32 = 0) (hn : l.length ≤ 512)
    (h : ∀ x, a ≤ x → x < a + l.length → s.takesByte cls world x) (hl : s.linesSound) :
    ∃ m c d, s.dmaOut cls world a l = (true, { s with mem := m, cores := c, ddr := d }) ∧
      ({ s with mem := m, cores := c, ddr := d } : State).linesSound := by
  unfold State.dmaOut
  by_cases h0 : l.length = 0
  · refine ⟨s.mem, s.cores, s.ddr, ?_, hl⟩
    rw [h0]
    rfl
  · rw [transfers_one ha h0 hn]
    obtain ⟨m, c, d, hw, hs⟩ := State.writeMem_clear h hl
    refine ⟨m, c, d, ?_, hs⟩
    simp only [writeAccesses, List.take_length, hw]

/-! Writes of the dispatcher to the secure firmware area and to secure SRAM. -/

/-- The table refuses the dispatcher nothing that the baseline grants: no table update, no code region, no enabled entry. -/
def State.tableOpen (s : State) : Bool :=
  !s.flag R.ACT_CTRL_UPDATE && !s.flag R.WLD_SCODE_EN && !s.flag R.WLD_NCODE_EN && ((List.range 256).all fun i => !s.flag (R.ACT_ENT6_ENABLE.ix i))

theorem State.refusingEntry_open {s : State} (cls : Nat) (kind : AccKind) (normal : Bool) (a : Nat) {n : Nat}
    (h : ∀ i, i < n → s.flag (R.ACT_ENT6_ENABLE.ix i) = false) : s.refusingEntry cls kind normal a n = none := by
  induction n with
  | zero => rfl
  | succ n ih =>
    unfold State.refusingEntry
    rw [ih fun i hi => h i (Nat.lt_succ_of_lt hi)]
    simp [State.entCovers, h n (Nat.lt_succ_self n)]

/-- The twin and the dispatcher may write the secure areas. -/
theorem State.beatRefusal_open {s : State} {cls : Nat} (hcls : cls = 2 ∨ cls = 13) (ht : s.tableOpen = true) {a : Nat}
    (ha : s.areaOf a = .secDdr ∨ s.areaOf a = .secSram) : s.beatRefusal cls .write .secure a = none := by
  simp only [State.tableOpen, Bool.and_eq_true, Bool.not_eq_true', List.all_eq_true, List.mem_range] at ht
  obtain ⟨⟨⟨hu, h1⟩, h2⟩, h3⟩ := ht
  unfold State.beatRefusal
  have hg : nibbleGrants (s.baseline cls a) .write false = true := by
    unfold State.baseline
    rcases hcls with rfl | rfl <;> rcases ha with h | h <;> rw [h] <;> simp [classCoreS] <;> decide
  have hm : s.areaOf a ≠ .unmapped := by
    rcases ha with h | h <;> rw [h] <;> decide
  have hn : (decide (World.secure = .normal) && decide (2 ≤ cls)) = false := rfl
  simp only [State.codeRefuses, h1, h2, hu, hn, hm, hg, Bool.false_and, Bool.or_self, Bool.false_eq_true, if_false, Bool.not_true]
  rw [State.refusingEntry_open cls .write _ a h3]
  rfl

/-- The first GiB of DDR5 lies in the secure area, once the watermark is set. -/
theorem State.areaOf_staging {s : State} (hw : 1 ≤ s.rd R.WLD_DDR_WM_WM) {a : Nat} (h0 : ddrBase ≤ a) (h1 : a < ddrBase + 0x40000000) :
    s.areaOf a = .secDdr := by
  have hd : ddrBase = 0x100000000 := rfl
  unfold State.areaOf
  have e1 : sramBase = 0x10000000 := rfl
  have e2 : opWinBase = 0x20000000 := rfl
  have e3 : regBase = 0x40000000 := rfl
  have e4 : bitBase = 0x50000000 := rfl
  rw [if_neg (by omega), if_neg (by omega), if_neg (by omega), if_neg (by omega), if_neg (by omega), if_pos (by omega), if_pos (by omega)]

/-- Channel DA is up and filled over the secure firmware area. -/
def State.stagingUp (s : State) : Bool :=
  s.tableOpen && s.chanUp 0 && s.flag (R.MEM_FILL_DONE.mem 0) && decide (1 ≤ s.rd R.WLD_DDR_WM_WM) && decide (0x40000000 ≤ s.capBytes 0)

theorem State.takesByte_staging {s : State} (h : s.stagingUp = true) {a : Nat} (h0 : ddrBase ≤ a) (h1 : a < ddrBase + 0x40000000) :
    s.takesByte 13 .secure a := by
  simp only [State.stagingUp, Bool.and_eq_true, decide_eq_true_eq] at h
  obtain ⟨⟨⟨⟨ht, hc⟩, hf⟩, hw⟩, hg⟩ := h
  have hd : ddrBase = 0x100000000 := rfl
  have ha : s.areaOf a = .secDdr := State.areaOf_staging hw h0 h1
  have hn : s.chanOf (a - ddrBase) = some (0, a - ddrBase) := by
    unfold State.chanOf
    rw [if_pos (by omega)]
  refine ⟨State.beatRefusal_open (.inr rfl) ht (.inl ha), ?_, ?_, ?_⟩
  · unfold State.memUp
    generalize hx : s.chanOf (a - ddrBase) = x at hn
    subst hn
    rw [ha]
    exact hc
  · simp only [State.wakeMem, State.memDomain, ha]
  · simp only [State.awaitFill, State.lineOf, h0, if_true, hn, Option.map_some, hc, State.lineFilled, hf, Bool.true_or, Bool.not_true,
      Bool.and_false, Bool.false_eq_true, if_false]

/-- Secure SRAM below the watermark is on. -/
def State.sramUp (s : State) : Bool := s.tableOpen && s.rd (domState 34) == 0 && decide (s.rd R.WLD_SRAM_WM_WM ≤ 0x80)

theorem State.takesByte_sram {s : State} (h : s.sramUp = true) {a : Nat} (h0 : sramBase ≤ a)
    (h1 : a < sramBase + s.rd R.WLD_SRAM_WM_WM * 0x10000) : s.takesByte 13 .secure a := by
  simp only [State.sramUp, Bool.and_eq_true, beq_iff_eq, decide_eq_true_eq] at h
  obtain ⟨⟨ht, hp⟩, hw⟩ := h
  have hd : sramBase = 0x10000000 := rfl
  have ha : s.areaOf a = .secSram := by
    unfold State.areaOf
    rw [if_neg (by omega), if_pos (by omega), if_pos (by omega)]
  refine ⟨State.beatRefusal_open (.inr rfl) ht (.inr ha), ?_, ?_, ?_⟩
  · simp only [State.memUp, ha, State.memDomain, State.domAnswers, hp]
    rfl
  · simp only [State.wakeMem, State.memDomain, ha, State.wake, hp]
    rfl
  · have : ¬ddrBase ≤ a := by
      have : ddrBase = 0x100000000 := rfl
      omega
    simp only [State.awaitFill, State.lineOf, this, if_false]

/-! A handover. -/

/-- Secure staging and the handover ring of a queue take what a handover writes; nothing is in error. -/
def State.takesHandover (s : State) (c : Cmd) (p : Nat) : Bool :=
  let a := s.ringBase p false + 128 * s.rd (R.DSP_CQ_HTAIL_TAIL.ix p)
  s.stagingUp && s.sramUp && decide (sramBase ≤ a) && decide (a + 128 ≤ sramBase + s.rd R.WLD_SRAM_WM_WM * 0x10000) &&
    decide (c.input.length ≤ 512) && !s.tap.extest && s.ddr.isEmpty

theorem State.handEntry_length (s : State) (c : Cmd) (tag stage : Nat) : (s.handEntry c tag stage).length = 128 := by
  unfold State.handEntry State.handFn
  cases c.fn <;> simp [fit, leBytes, zeros] <;> omega

/-- A command that is set is found under its number. -/
theorem State.cmd_setCmd {s : State} {c d : Cmd} (h : s.cmd d.id = some c) : (s.setCmd d).cmd d.id = some d := by
  unfold State.cmd State.setCmd at *
  simp only
  generalize s.dsp.inflight = l at h
  induction l with
  | nil => cases h
  | cons x t ih =>
    rw [List.map_cons, List.find?_cons] at *
    by_cases hx : x.id = d.id
    · simp [hx]
    · have : (x.id == d.id) = false := by simpa using hx
      rw [this] at h
      simp only [hx, if_false, this]
      exact ih h

/-- The command stays, handed to the queue; the table is not being updated; the capacities are as before. -/
theorem State.handOver_takes {s : State} {c : Cmd} {p : Nat} (h : s.takesHandover c p = true) (hc : s.cmd c.id = some c) :
    (s.handOver c p).cmd c.id = some { c with stage := .handed p (s.dsp.nextTag % 65536) } ∧
      (p < 2 → (s.handOver c p).rd R.ACT_CTRL_UPDATE = 0 ∧ ∀ q, (s.handOver c p).rd (poolCapacity q) = s.rd (poolCapacity q)) ∧
      (s.handOver c p).eng = s.eng := by
  simp only [State.takesHandover, Bool.and_eq_true, Bool.not_eq_true', decide_eq_true_eq, List.isEmpty_iff] at h
  obtain ⟨⟨⟨⟨⟨⟨hst, hsr⟩, h0⟩, h1⟩, hl⟩, ht⟩, hd⟩ := h
  have hso : s.linesSound := ⟨ht, fun c => by simp only [State.chan, hd]; exact ⟨rfl, rfl⟩⟩
  have hu : s.rd R.ACT_CTRL_UPDATE = 0 := by
    simp only [State.stagingUp, State.tableOpen, State.flag, Bool.and_eq_true] at hst
    simpa using hst.1.1.1.1.1.1.1
  generalize hn : (s.freeNat 4).1 % 16760832 = n
  have hlt : n < 16760832 := by rw [← hn]; exact Nat.mod_lt _ (by decide)
  generalize hs1 : (s.freeNat 4).2 = s1
  have e1 : s1.regs = s.regs ∧ s1.dsp = s.dsp ∧ s1.eng = s.eng := by rw [← hs1]; exact ⟨rfl, rfl, rfl⟩
  have hst1 : s1.stagingUp = true := by rw [← hs1]; exact hst
  have hso1 : s1.linesSound := by rw [← hs1]; exact hso
  have hdb : ddrBase = 0x100000000 := rfl
  have hsb : sramBase = 0x10000000 := rfl
  obtain ⟨m, co, d, hw, hso2⟩ := State.dmaOut_clear (s := s1) (cls := 13) (world := .secure) (a := ddrBase + n * 64) (l := c.input)
    (by omega) hl (fun x hx hy => State.takesByte_staging hst1 (by omega) (by omega)) hso1
  generalize hs2 : ({ s1 with mem := m, cores := co, ddr := d } : State) = s2
  rw [hs2] at hso2
  have e2 : s2.regs = s.regs ∧ s2.dsp = s.dsp ∧ s2.eng = s.eng := by rw [← hs2]; exact e1
  have hrd : ∀ f, s2.rd f = s.rd f := fun f => by simp only [State.rd, e2.1]
  have hsr2 : s2.sramUp = true := by
    simp only [State.sramUp, State.tableOpen, State.flag, hrd] at hsr ⊢
    exact hsr
  have hb : s2.ringBase p false = s.ringBase p false := by simp only [State.ringBase, hrd]
  have hb1 : s1.rd (R.DSP_CQ_HTAIL_TAIL.ix p) = s.rd (R.DSP_CQ_HTAIL_TAIL.ix p) := by simp only [State.rd, e1.1]
  have hal : s.ringBase p false % 32 = 0 := by
    have : s.ringBase p false = s.rd (R.DSP_CQ_HBASE_ADDR.ix p) * 128 := rfl
    omega
  generalize he : s2.handEntry c (s1.dsp.nextTag % 65536) (ddrBase + n * 64) = e
  have hel : e.length = 128 := by rw [← he]; exact State.handEntry_length ..
  obtain ⟨m', co', d', hw', _⟩ := State.dmaOut_clear (s := s2) (cls := 13) (world := .secure)
    (a := s2.ringBase p false + 128 * s1.rd (R.DSP_CQ_HTAIL_TAIL.ix p)) (l := e) (by rw [hb]; omega) (by omega)
    (fun x hx hy => by rw [hb, hb1] at hx hy; exact State.takesByte_sram hsr2 (by omega) (by rw [hrd]; omega)) hso2
  generalize hs3 : ({ s2 with mem := m', cores := co', ddr := d' } : State) = s3
  have e3 : s3.regs = s.regs ∧ s3.dsp = s.dsp ∧ s3.eng = s.eng := by rw [← hs3]; exact e2
  have htag : s1.dsp.nextTag = s.dsp.nextTag := by rw [e1.2.1]
  rw [hs2] at hw
  rw [hs3] at hw'
  generalize hs4 : s3.wr (R.DSP_CQ_HTAIL_TAIL.ix p) ((s1.rd (R.DSP_CQ_HTAIL_TAIL.ix p) + 1) % s3.ringSize p) = s4
  have hc4 : s4.cmd c.id = some c := by
    rw [← hs4]
    simp only [State.cmd, State.wr_dsp, e3.2.1]
    exact hc
  have hd4 := State.cmd_setCmd (s := s4) (c := c) (d := { c with stage := .handed p (s.dsp.nextTag % 65536) }) hc4
  have hk : ∀ f : Fld, f.key ≠ (R.DSP_CQ_HTAIL_TAIL.ix p).key → s4.rd f = s.rd f := fun f hf => by
    rw [← hs4, State.rd_wr_other _ _ hf]
    simp only [State.rd, e3.1]
  have hh : ∃ x e, s.handOver c p = { s4.setCmd { c with stage := .handed p (s.dsp.nextTag % 65536) } with
      dsp := { (s4.setCmd { c with stage := .handed p (s.dsp.nextTag % 65536) }).dsp with nextTag := s.dsp.nextTag % 65536 + 1, cqTurn := x }, edges := e } := by
    refine ⟨1 - p, if decide (s1.rd (R.DSP_CQ_HHEAD_HEAD.ix p) ≠ s1.rd (R.DSP_CQ_HTAIL_TAIL.ix p)) then s4.edges else s4.edges ++ [202 + p], ?_⟩
    unfold State.handOver
    rw [show s.freeNat 4 = ((s.freeNat 4).1, s1) by rw [← hs1]]
    simp only [hn, hw]
    rw [htag] at he ⊢
    simp only [he, hw', hs4]
    split <;> rfl
  obtain ⟨x, ed, hh⟩ := hh
  rw [hh]
  refine ⟨?_, fun hp => ?_, ?_⟩
  · exact hd4
  · have h4 : s4.rd R.ACT_CTRL_UPDATE = 0 ∧ ∀ q, s4.rd (poolCapacity q) = s.rd (poolCapacity q) := by
      refine ⟨?_, fun q => ?_⟩
      · rw [hk _ ?_, hu]
        have : p = 0 ∨ p = 1 := by omega
        rcases this with rfl | rfl <;> decide
      · apply hk
        have : p = 0 ∨ p = 1 := by omega
        rcases this with rfl | rfl <;> cases q <;> decide
    exact h4
  · show s4.eng = s.eng
    rw [← hs4]
    exact e3.2.2

end Sys2Proof.Machine
end

