-- ==== Sys2Proof/Laws/Canon.lean ====
section
/-! SUPPORT. The canonical form of memory and of the register file: every operation that changes either keeps it. -/

namespace Sys2Proof.Machine

/-! Tables. -/

theorem tblLean_filter {α : Type} [DecidableEq α] {d : α} {t : Tbl α} (p : Nat × α → Bool) (h : tblLean d t = true) :
    tblLean d (t.filter p) = true := by
  induction t with
  | nil => rfl
  | cons e t ih =>
    simp only [tblLean, Bool.and_eq_true] at h
    simp only [List.filter]
    split
    · simp only [tblLean, Bool.and_eq_true]; exact ⟨h.1, ih h.2⟩
    · exact ih h.2

/-- Storing bytes keeps memory canonical. -/
theorem Memory.wf_put {m : Tbl Byte} (a : Nat) (l : List Byte) (h : Memory.wf m = true) : Memory.wf (memPut m a l) = true := by
  induction l generalizing m a with
  | nil => exact h
  | cons b t ih => exact ih (a + 1) (tblWf_put 0 a b h)

/-- Clearing a range keeps memory canonical. -/
theorem Memory.wf_filter {m : Tbl Byte} (p : Nat × Byte → Bool) (h : Memory.wf m = true) : Memory.wf (m.filter p) = true := by
  simp only [Memory.wf, tblWf, Bool.and_eq_true] at h ⊢
  exact ⟨tblSorted_filter p h.1, tblLean_filter p h.2⟩

theorem Memory.wf_nil : Memory.wf [] = true := rfl

theorem Regs.wf_clear {t : Tbl Nat} (lo hi b : Nat) (h : Regs.wf t = true) : Regs.wf (regsClear lo hi b t) = true := tblSorted_filter _ h

/-! States. -/

/-- Nothing but memory and the register file counts. -/
theorem State.canon_congr {s t : State} (hm : t.mem = s.mem) (hr : t.regs = s.regs) : t.canon = s.canon := by
  simp only [State.canon, hm, hr]

theorem State.canon_of {s : State} (hm : Memory.wf s.mem = true) (hr : Regs.wf s.regs = true) : s.canon = true := by
  simp only [State.canon, hm, hr, Bool.and_self]

theorem State.canon_mem {s : State} (h : s.canon = true) : Memory.wf s.mem = true := (Bool.and_eq_true _ _ ▸ h).1

theorem State.canon_regs {s : State} (h : s.canon = true) : Regs.wf s.regs = true := (Bool.and_eq_true _ _ ▸ h).2

/-- Writing a register field. -/
theorem State.wr_canon {s : State} (f : Fld) (v : Nat) (h : s.canon = true) : (s.wr f v).canon = true :=
  State.canon_of (s := s.wr f v) (State.canon_mem (s := s) h) (tblSorted_put _ _ _ (State.canon_regs (s := s) h))

/-- Returning registers to their reset values. -/
theorem State.clearRegs_canon {s : State} (lo hi : Nat) (h : s.canon = true) : (s.clearRegs lo hi).canon = true :=
  State.canon_of (s := s.clearRegs lo hi) (State.canon_mem (s := s) h) (Regs.wf_clear _ _ _ (Regs.wf_clear _ _ _ (Regs.wf_clear _ _ _ (Regs.wf_clear _ _ _ (State.canon_regs (s := s) h)))))

/-- Storing bytes in internal memory. -/
theorem State.setBytes_canon {s : State} (a : Nat) (l : List Byte) (h : s.canon = true) : (s.setBytes a l).canon = true :=
  State.canon_of (s := s.setBytes a l) (Memory.wf_put a l (State.canon_mem (s := s) h)) (State.canon_regs (s := s) h)

/-- A dropped cache line. -/
theorem State.revertLine_canon {s : State} (x : CacheLine) (h : s.canon = true) : (s.revertLine x).canon = true := by
  unfold State.revertLine
  split
  · exact State.canon_of (Memory.wf_put _ _ (State.canon_mem (s := s) h)) (State.canon_regs (s := s) h)
  · exact h

/-- Clearing general SRAM. -/
theorem State.clearSram_canon {s : State} (h : s.canon = true) : s.clearSram.canon = true :=
  State.canon_of (s := s.clearSram) (Memory.wf_filter _ (State.canon_mem (s := s) h)) (State.canon_regs (s := s) h)

/-- Loading a firmware section. -/
theorem State.loadFw_canon {s : State} (p : List Byte) (h : s.canon = true) : (s.loadFw p).canon = true :=
  State.canon_of (s := s.loadFw p) (Memory.wf_put _ _ (State.canon_mem (s := s) h)) (State.canon_regs (s := s) h)

/-- A reset of a group: memory is empty, the registers that it keeps stay as they are. -/
theorem State.resetGroup_canon {s : State} (por : Bool) (h : s.canon = true) : (s.resetGroup por).canon = true := by
  unfold State.resetGroup
  exact State.wr_canon _ _ (State.canon_of Memory.wf_nil (tblSorted_filter _ (State.canon_regs (s := s) h)))

theorem State.satAdd_canon {s : State} (f : Fld) (n : Nat) (h : s.canon = true) : (s.satAdd f n).canon = true := State.wr_canon _ _ h

theorem State.wrapAdd_canon {s : State} (f : Fld) (n : Nat) (h : s.canon = true) : (s.wrapAdd f n).canon = true := State.wr_canon _ _ h

theorem State.setCore_canon {s : State} (p : Nat) (c : Core) (h : s.canon = true) : (s.setCore p c).canon = true := h

theorem State.emit_canon {s : State} (o : Out) (h : s.canon = true) : (s.emit o).canon = true := h

/-- A list of changes that each keep the form. -/
theorem State.foldl_canon {α : Type} (f : State → α → State) (hf : ∀ s a, s.canon = true → (f s a).canon = true) (l : List α) {s : State}
    (h : s.canon = true) : (l.foldl f s).canon = true := by
  induction l generalizing s with
  | nil => exact h
  | cons a t ih => exact ih (hf s a h)

end Sys2Proof.Machine
end

