-- ==== Sys2Proof/Laws/Crypto.lean ====
section
/-! SUPPORT. What opens again what GCM sealed, and a parked context opened. -/

namespace Sys2Proof.Machine

@[simp] theorem fit_length (n : Nat) (l : List Byte) : (fit n l).length = n := by
  simp only [fit, zeros, List.length_take, List.length_append, List.length_replicate]
  omega

theorem aesEnc_length (key blk : List Byte) : (aesEnc key blk).length = 16 := fit_length ..

/-- Adding a key stream twice leaves the bytes as they were. -/
theorem xorBytes_twice {b k : List Byte} (h : b.length ≤ k.length) : xorBytes (xorBytes b k) k = b := by
  induction b generalizing k with
  | nil => rfl
  | cons x t ih =>
    cases k with
    | nil => simp at h
    | cons y u =>
      simp only [xorBytes, List.zipWith_cons_cons, List.cons.injEq]
      exact ⟨by rw [BitVec.xor_assoc, BitVec.xor_self, BitVec.xor_zero], ih (by simpa using h)⟩

theorem xorBytes_length {b k : List Byte} (h : b.length ≤ k.length) : (xorBytes b k).length = b.length := by
  simp only [xorBytes, List.length_zipWith]
  omega

/-- GCM's counter mode keeps lengths. -/
theorem gctr_length (key nonce : List Byte) (n i : Nat) (l : List Byte) (h : l.length ≤ 16 * n) :
    (gctr key nonce i (pieces 16 n l)).length = l.length := by
  induction n generalizing i l with
  | zero => simp at h; subst h; rfl
  | succ n ih =>
    unfold pieces
    split
    · next h0 => simp [gctr, List.isEmpty_iff.mp h0]
    · simp only [gctr, List.length_append]
      rw [ih _ _ (by simp; omega), xorBytes_length (by rw [aesEnc_length]; simp)]
      simp
      omega

/-- GCM's counter mode undoes itself. -/
theorem gctr_twice (key nonce : List Byte) (n i : Nat) (l : List Byte) (h : l.length ≤ 16 * n) :
    gctr key nonce i (pieces 16 n (gctr key nonce i (pieces 16 n l))) = l := by
  induction n generalizing i l with
  | zero => simp at h; subst h; rfl
  | succ n ih =>
    cases l with
    | nil => rfl
    | cons x t =>
      have hx : ∀ y, y = aesEnc key (nonce ++ beBytes 4 i) → (xorBytes ((x :: t).take 16) y).length = min 16 (x :: t).length := fun y hy => by
        rw [xorBytes_length (by rw [hy, aesEnc_length]; simp)]; simp; omega
      have hd : ((x :: t).drop 16).length ≤ 16 * n := by simp at h ⊢; omega
      have hr := gctr_length key nonce n (i + 1) _ hd
      have he : gctr key nonce i (pieces 16 (n + 1) (x :: t)) =
          xorBytes ((x :: t).take 16) (aesEnc key (nonce ++ beBytes 4 i)) ++ gctr key nonce (i + 1) (pieces 16 n ((x :: t).drop 16)) := rfl
      rw [he]
      generalize hy : aesEnc key (nonce ++ beBytes 4 i) = y
      have hl := hx y hy.symm
      generalize hg : gctr key nonce (i + 1) (pieces 16 n ((x :: t).drop 16)) = r at hr
      have ht : (xorBytes ((x :: t).take 16) y ++ r).take 16 = xorBytes ((x :: t).take 16) y ∧ (xorBytes ((x :: t).take 16) y ++ r).drop 16 = r := by
        by_cases h16 : 16 ≤ (x :: t).length
        · rw [Nat.min_eq_left h16] at hl
          exact ⟨by rw [List.take_append_of_le_length (by omega), List.take_of_length_le (by omega)],
            by rw [List.drop_append_of_le_length (by omega), List.drop_of_length_le (by omega)]; rfl⟩
        · have : r = [] := List.eq_nil_of_length_eq_zero (by rw [hr]; simp at h16 ⊢; omega)
          subst this
          rw [List.append_nil]
          exact ⟨List.take_of_length_le (by omega), List.drop_of_length_le (by omega)⟩
      have hne : (xorBytes ((x :: t).take 16) y ++ r).isEmpty = false := by
        rw [Bool.eq_false_iff]
        intro hc
        rw [List.isEmpty_iff] at hc
        have := congrArg List.length hc
        rw [List.length_append, hl] at this
        simp at this
      unfold pieces
      simp only [hne, Bool.false_eq_true, if_false, gctr, ht.1, ht.2, hy]
      rw [← hg, ih _ _ hd, xorBytes_twice (by rw [← hy, aesEnc_length]; simp)]
      exact List.take_append_drop 16 _

/-- The lengths of plaintext and ciphertext are the same. -/
theorem gcmSeal_length (key nonce aad plain : List Byte) : (gcmSeal key nonce aad plain).length = plain.length :=
  gctr_length _ _ _ _ _ (by omega)

/-- Opening what was sealed. -/
theorem gcmOpen_seal (key nonce aad plain : List Byte) : gcmOpen key nonce aad (gcmSeal key nonce aad plain) = plain := by
  unfold gcmOpen
  have : blocks (gcmSeal key nonce aad plain) = pieces 16 (plain.length / 16 + 1) (gcmSeal key nonce aad plain) := by
    unfold blocks
    rw [gcmSeal_length]
  show gctr key nonce 2 (blocks (gcmSeal key nonce aad plain)) = plain
  rw [this]
  exact gctr_twice _ _ _ _ _ (by omega)

/-- A tag belongs to what it was made for. -/
theorem gcmOk_tag (key nonce aad plain : List Byte) : gcmOk key nonce aad (gcmSeal key nonce aad plain) (gcmTag key nonce aad plain) = true := by
  simp [gcmOk, gcmTag]

/-! Parked contexts. -/

theorem leNat_leBytes2 {n : Nat} (h : n < 65536) : leNat (leBytes 2 n) = n := by
  simp only [leBytes, leNat, BitVec.toNat_ofNat]
  omega

theorem slice_append_left {a b : List Byte} {off len : Nat} (h : off + len ≤ a.length) : slice (a ++ b) off len = slice a off len := by
  unfold slice
  rw [List.drop_append_of_le_length (by omega), List.take_append_of_le_length (by simp; omega)]

theorem slice_append_right {a b : List Byte} {off len : Nat} (h : a.length ≤ off) : slice (a ++ b) off len = slice b (off - a.length) len := by
  unfold slice
  rw [List.drop_append, List.drop_of_length_le h, List.nil_append]

theorem slice_all (a b : List Byte) : slice (a ++ b) 0 a.length = a := by simp [slice]

/-- What the wrapped form of a context is read back as. -/
theorem Ctx.state_read {x : Ctx} (hk : x.key.length < 65536) (hi : x.iv.length < 65536) (hc : x.custom.length < 65536) :
    leAt x.state 0 2 = x.key.length ∧ leAt x.state 2 2 = x.iv.length ∧ leAt x.state 4 2 = x.custom.length ∧
      slice x.state 6 x.key.length = x.key ∧ slice x.state (6 + x.key.length) x.iv.length = x.iv ∧
      slice x.state (6 + x.key.length + x.iv.length) x.custom.length = x.custom ∧
      x.state.drop (6 + x.key.length + x.iv.length + x.custom.length) = x.absorbed := by
  have h2 : ∀ n, (leBytes 2 n).length = 2 := fun n => rfl
  have hs : x.state = leBytes 2 x.key.length ++ (leBytes 2 x.iv.length ++ (leBytes 2 x.custom.length ++ (x.key ++ (x.iv ++ (x.custom ++ x.absorbed))))) := by
    simp [Ctx.state, List.append_assoc]
  rw [hs]
  refine ⟨?_, ?_, ?_, ?_, ?_, ?_, ?_⟩
  · unfold leAt
    rw [slice_append_left (by simp [h2])]
    exact leNat_leBytes2 hk
  · unfold leAt
    rw [slice_append_right (by simp [h2]), h2, slice_append_left (by simp [h2])]
    exact leNat_leBytes2 hi
  · unfold leAt
    rw [slice_append_right (by simp [h2]), h2, slice_append_right (by simp [h2]), h2, slice_append_left (by simp [h2])]
    exact leNat_leBytes2 hc
  · rw [slice_append_right (by simp [h2]), h2, slice_append_right (by simp [h2]), h2, slice_append_right (by simp [h2]), h2]
    exact slice_all _ _
  · rw [slice_append_right (by simp [h2]; omega), h2, slice_append_right (by simp [h2]; omega), h2, slice_append_right (by simp [h2]; omega), h2,
      slice_append_right (by omega)]
    rw [show 6 + x.key.length - 2 - 2 - 2 - x.key.length = 0 by omega]
    exact slice_all _ _
  · rw [slice_append_right (by simp [h2]; omega), h2, slice_append_right (by simp [h2]; omega), h2, slice_append_right (by simp [h2]; omega), h2,
      slice_append_right (by omega), slice_append_right (by omega)]
    rw [show 6 + x.key.length + x.iv.length - 2 - 2 - 2 - x.key.length - x.iv.length = 0 by omega]
    exact slice_all _ _
  · rw [show 6 + x.key.length + x.iv.length + x.custom.length = 2 + (2 + (2 + (x.key.length + (x.iv.length + x.custom.length)))) by omega]
    simp only [← List.drop_drop]
    simp [leBytes]

/-- A keyed context parked and opened again is as it was. -/
theorem State.unpark_park {s t : State} {x : Ctx} (hx : x.keyed = true) (hw : x.wrapIv = [] ∧ x.wrapped = [] ∧ x.wrapTag = [])
    (hk : x.key.length < 65536) (hi : x.iv.length < 65536) (hc : x.custom.length < 65536) (ht : t.dsp.ctxKey = s.dsp.ctxKey) :
    t.unparkCtx (s.parkCtx x).1 = some x := by
  obtain ⟨h1, h2, h3, h4, h5, h6, h7⟩ := Ctx.state_read hk hi hc
  unfold State.parkCtx
  simp only [hx, if_true]
  have hh : ∀ (k i c a w v u : List Byte), (Ctx.head { x with key := k, iv := i, custom := c, absorbed := a, wrapIv := w, wrapped := v, wrapTag := u }) = x.head :=
    fun _ _ _ _ _ _ _ => rfl
  have hy : ∀ (k i c a w v u : List Byte), (Ctx.keyed { x with key := k, iv := i, custom := c, absorbed := a, wrapIv := w, wrapped := v, wrapTag := u }) = true :=
    fun _ _ _ _ _ _ _ => hx
  have hf : (s.free 12).2.dsp.ctxKey = s.dsp.ctxKey := rfl
  unfold State.unparkCtx
  simp only [hy, hh, ht, hf, if_true, gcmOk_tag, gcmOpen_seal, h1, h2, h3, h4, h5, h6, h7]
  cases x
  simp_all

end Sys2Proof.Machine
end

