-- ==== Sys2Proof/Laws/Gate.lean ====
section
/-! SUPPORT. What a register write does where it meets no obstacle. -/

namespace Sys2Proof.Machine

/-- Nothing is interleaved where no sequence of the writer is broken. -/
theorem State.interleave_of_all {s : State} {who : Requester} {off : Nat}
    (h : (s.bus.guards.all fun g => !sameSource g.who who || off == g.off + 4) = true) : s.interleave who off = s := by
  unfold State.interleave
  rw [List.filter_eq_nil_iff.mpr]
  · rfl
  · intro g hg
    have := List.all_eq_true.mp h g hg
    simp only [Bool.or_eq_true, Bool.not_eq_true', beq_iff_eq] at this
    rcases this with h | h
    · simp [h]
    · simp [h]

/-- An access changes nothing about a domain that is not BASKING. -/
theorem State.wakeWord_of_awake {s : State} {off : Nat} (h : ((wordDomain off).all fun d => s.rd (domState d) != 1) = true) :
    s.wakeWord off = s := by
  unfold State.wakeWord
  cases hd : wordDomain off with
  | none => rfl
  | some d => rw [hd] at h; simp [State.wake, show s.rd (domState d) ≠ 1 by simpa using h]

/-- A write that meets no obstacle has the effect of its register. -/
theorem State.gated_of_passes {s : State} {who : Requester} {off : Nat} (h : s.passes who off = true) (val : Nat) (f : State → State) :
    s.gated who off val f = f s := by
  simp only [State.passes, Bool.and_eq_true, Bool.not_eq_true', beq_iff_eq, Option.isNone_iff_eq_none] at h
  obtain ⟨⟨⟨⟨⟨⟨⟨h1, h0⟩, h2⟩, h7⟩, h3⟩, h4⟩, h5⟩, h6⟩ := h
  unfold State.gated State.parked
  simp only [h1, h0, h2, Bool.not_true, Bool.false_eq_true, if_false]
  rw [State.interleave_of_all h3]
  simp only [h4, h5, h6, ne_eq, not_true_eq_false, if_false, if_true, State.wakeWord_of_awake h7]

/-- The complement of a guarded write that meets no obstacle lets the value take effect. -/
theorem State.writeGuarded_of_passes {s : State} {who : Requester} {off : Nat} {c : Word32} {v : Nat} (h : s.passesGuarded who off c v)
    (f : Nat → State → State) : s.writeGuarded who off c.toNat f = f v (s.dropGuard off) := by
  obtain ⟨hp, hc, hv⟩ := h
  unfold State.writeGuarded
  rw [State.gated_of_passes hp]
  unfold State.guardComplement
  cases hg : s.bus.guards.find? (fun g => g.off == off && sameSource g.who who) with
  | none => rw [hg] at hv; cases hv
  | some g =>
    rw [hg] at hv
    simp only [Option.map_some, Option.some.injEq] at hv
    simp only [hv, hc, if_true]

end Sys2Proof.Machine
end

