-- ==== Sys2Proof/Laws/Hcc.lean ====
section
/-! SUPPORT. What every instruction of a core pair does around its own effect. -/

namespace Sys2Proof.Machine

/-- With no alarm waiting, settling does nothing. -/
theorem State.settle_of_none {s : State} (h : s.tmp.due = []) : s.settle = s := by
  simp [State.settle, h]

/-- Counting an event of a pair changes its counters only. -/
theorem State.pmuAt_eq (s : State) (p ev : Nat) : ∃ m, s.pmuAt p ev = s ∨ s.pmuAt p ev = s.setCore p { s.core p with pmc := m } := by
  unfold State.pmuAt
  split
  · exact ⟨[], .inl rfl⟩
  · exact ⟨_, .inr rfl⟩

/-- `t` is `s` but for counters, halt and step bookkeeping of pair `p`. -/
structure State.Counts (s t : State) (p : Nat) : Prop where
  rest : (t.core p).rest = (s.core p).rest
  g : (t.core p).g = (s.core p).g
  pc : (t.core p).pc = (s.core p).pc
  others : ∀ q, q ≠ p → t.core q = s.core q
  frame : { t with cores := s.cores } = s

theorem State.Counts.refl (s : State) (p : Nat) : s.Counts s p := ⟨rfl, rfl, rfl, fun _ _ => rfl, rfl⟩

theorem State.Counts.trans {s t u : State} {p : Nat} (h : s.Counts t p) (k : t.Counts u p) : s.Counts u p where
  rest := k.rest.trans h.rest
  g := k.g.trans h.g
  pc := k.pc.trans h.pc
  others q hq := (k.others q hq).trans (h.others q hq)
  frame := by
    have h1 := h.frame
    have h2 := k.frame
    cases s; cases t; cases u
    simp only [State.mk.injEq] at h1 h2 ⊢
    simp_all

theorem State.Counts.due {s t : State} {p : Nat} (h : s.Counts t p) : t.tmp = s.tmp := by
  have := congrArg State.tmp h.frame
  exact this

theorem State.Counts.mem {s t : State} {p : Nat} (h : s.Counts t p) : t.mem = s.mem := by
  have := congrArg State.mem h.frame
  exact this

theorem State.Counts.gr {s t : State} {p : Nat} (h : s.Counts t p) (a : Reg) : t.gr p a = s.gr p a := by
  simp only [State.gr, h.g]

theorem State.Counts.level {s t : State} {p : Nat} (h : s.Counts t p) : (t.core p).level = (s.core p).level := by
  have := congrArg Core.level h.rest
  exact this

theorem State.counts_setCore (s : State) (p : Nat) (c : Core) (hr : c.rest = (s.core p).rest) (hg : c.g = (s.core p).g)
    (hp : c.pc = (s.core p).pc) : s.Counts (s.setCore p c) p :=
  ⟨by simpa using hr, by simpa using hg, by simpa using hp, fun q hq => s.core_setCore_other c hq, rfl⟩

theorem State.counts_pmuAt (s : State) (p ev : Nat) : s.Counts (s.pmuAt p ev) p := by
  obtain ⟨m, h | h⟩ := s.pmuAt_eq p ev <;> rw [h]
  · exact .refl s p
  · exact s.counts_setCore p _ rfl rfl rfl

theorem State.counts_pmuCount (s : State) (p ev : Nat) : s.Counts (s.pmuCount p ev) p := by
  unfold State.pmuCount
  split
  · exact .refl s p
  · exact s.counts_pmuAt p ev

theorem State.counts_boundary (s : State) (p : Nat) : s.Counts (s.boundary p) p := by
  unfold State.boundary
  dsimp only
  split
  · exact s.counts_setCore p _ rfl rfl rfl
  · split
    · exact s.counts_setCore p _ rfl rfl rfl
    · exact .refl s p

/-- The end of an instruction counts, ends a step, and carries out a held halt request. -/
theorem State.counts_endInstr (s : State) (p : Nat) (l : Level) (b : Bool) (h : s.tmp.due = []) : s.Counts (s.endInstr p l b) p := by
  unfold State.endInstr
  dsimp only
  have h1 : s.Counts (if b && l != .m then s.pmuAt p 1 else s) p := by
    split
    · exact s.counts_pmuAt p 1
    · exact .refl s p
  generalize (if b && l != .m then s.pmuAt p 1 else s) = s1 at h1 ⊢
  have h2 : s1.Counts (s1.setCore p { s1.core p with stepping := false }) p := s1.counts_setCore p _ rfl rfl rfl
  have h3 := (h1.trans h2).trans (State.counts_boundary _ p)
  rw [State.settle_of_none (by rw [h3.due]; exact h)]
  exact h3

/-- An instruction that runs does its own effect on the state after the fetch, and then ends. -/
theorem State.runInstr_of_runs {s : State} {r : Run} (h : s.runs r) (f : State → Nat → Bool × State) :
    s.runInstr r f =
      .next ((f (s.atInstr r) r.pair.val).2.endInstr r.pair.val (s.core r.pair.val).level (f (s.atInstr r) r.pair.val).1) := by
  obtain ⟨h1, h2, h3, h4, h5, _⟩ := h
  unfold State.runInstr State.atInstr
  generalize hf : s.fetchAt r.pair.val = x at h5 ⊢
  obtain ⟨b, s1⟩ := x
  simp only at h5
  subst h5
  simp [h1, Option.isNone_iff_eq_none.mp h2, h3, h4, hf]

/-- Writing D and the PC, then ending, is retiring. -/
theorem State.retires_of_end (s s0 : State) (p : Nat) (d : Reg) (v pc : Word64) (l : Level) (b : Bool) (hd : s.tmp.due = [])
    (h0 : s0.Counts s p) : s0.retires (((s.setGr p d v).setPc p pc).endInstr p l b) p [d] v pc := by
  have hc := State.counts_endInstr ((s.setGr p d v).setPc p pc) p l b (by simpa [State.setPc] using hd)
  have hrest : (((s.setGr p d v).setPc p pc).core p).rest = (s.core p).rest := by
    unfold State.setPc State.setGr
    split <;> simp [Core.rest]
  have hoth : ∀ q, q ≠ p → ((s.setGr p d v).setPc p pc).core q = s.core q := by
    intro q hq
    unfold State.setPc
    rw [State.core_setCore_other _ _ hq]
    unfold State.setGr
    split
    · rfl
    · exact s.core_setCore_other _ hq
  have hfr : { ((s.setGr p d v).setPc p pc) with cores := s.cores } = s := by
    unfold State.setPc State.setGr
    split <;> rfl
  refine ⟨fun a => ?_, ?_, ?_, fun q hq => ?_, ?_⟩
  · rw [hc.gr]
    show ((s.setGr p d v).setPc p pc).gr p a = _
    have : ((s.setGr p d v).setPc p pc).gr p a = (s.setGr p d v).gr p a := by
      simp [State.gr, State.setPc]
    rw [this, State.gr_setGr, h0.gr]
    simp
  · rw [hc.pc]; simp [State.setPc]
  · rw [hc.rest, hrest, h0.rest]
  · rw [hc.others q hq, hoth q hq, h0.others q hq]
  · have h1 := hc.frame
    have h3 := h0.frame
    generalize ((s.setGr p d v).setPc p pc).endInstr p l b = u at *
    generalize ((s.setGr p d v).setPc p pc) = w at *
    cases s0; cases s; cases u; cases w
    simp only [State.mk.injEq] at *
    simp_all

/-- Setting the PC alone, then ending, is retiring without a destination. -/
theorem State.retires_of_jump (s s0 : State) (p : Nat) (pc : Word64) (l : Level) (b : Bool) (hd : s.tmp.due = [])
    (h0 : s0.Counts s p) : s0.retires ((s.setPc p pc).endInstr p l b) p [] 0 pc := by
  have h := s.retires_of_end s0 p 31 0 pc l b hd h0
  have e : s.setGr p 31 0 = s := by simp [State.setGr]
  rw [e] at h
  refine ⟨fun a => ?_, h.2⟩
  rw [h.1 a]
  by_cases ha : a = 31 <;> simp [ha]

/-- Moving past an instruction that has written D. -/
theorem State.pcNext_setGr (s : State) (p : Nat) (d : Reg) (v : Word64) :
    (s.setGr p d v).pcNext p = (s.setGr p d v).setPc p ((s.core p).pc + 4) := by
  unfold State.pcNext State.setGr
  split <;> simp

/-- An instruction that computes a register retires with it. -/
theorem State.alu_of_runs {s : State} {r : Run} (h : s.runs r) (d : Reg) (f : State → Nat → Word64) :
    ∃ t, s.alu r d f = .next t ∧
      (s.atInstr r).retires t r.pair.val [d] (f (s.atInstr r) r.pair.val) (((s.atInstr r).core r.pair.val).pc + 4) := by
  refine ⟨_, by unfold State.alu; rw [State.runInstr_of_runs h], ?_⟩
  dsimp only
  rw [State.pcNext_setGr]
  exact State.retires_of_end _ _ _ _ _ _ _ _ h.2.2.2.2.2 (.refl _ _)

end Sys2Proof.Machine
end

