-- ==== Sys2Proof/Machine/Balls.lean ====
section
/-! DEFINITION. The levels that the device drives on its output balls, which follow from its state (R39, R453, R491). -/

namespace Sys2Proof.Machine

/-- How a ball stands. -/
inductive Drive
  /-- Not driven: an input, or high impedance. -/
  | open
  | low
  | high
  /-- A transmitter in electrical idle. -/
  | idle
  /-- The block that owns the ball drives it by its protocol. -/
  | active
  /-- The boundary register drives it (R445). -/
  | boundary
deriving DecidableEq, Repr

/-- A driven level. -/
def Drive.level (b : Bool) : Drive := if b then .high else .low

/-- An open-drain output: low while asserted. -/
def Drive.openDrain (asserted : Bool) : Drive := if asserted then .low else .open

/-- The signals of Table 2-5 that the device can drive. -/
inductive Signal
  | peTx (p : Port) | peClkreqN (p : Port) | twTx
  | ddrData (c : Nat) | ddrCa (c : Nat) | ddrPar (c : Nat) | ddrCsN (c : Nat) | ddrCkT (c : Nat) | ddrCkC (c : Nat) | ddrResetN (c : Nat) | ddrSideband (c : Nat)
  | xsSck | xsCsN | xsDq | xsResetN
  | tdo | loopOut (n : Nat) | tmpAlarmN | ready | alarmN | faultN | mgBus | mgAlertN | avsBus | gpio (n : Nat)
deriving DecidableEq, Repr

/-- READY. -/
def State.ballReady (s : State) : Bool := s.flag R.GLB_STATUS_READY

/-- ALARM_N: low while asserted. -/
def State.ballAlarmN (s : State) : Bool := !s.flag R.GLB_STATUS_ALARM

/-- GPIO2 in its TWIN function: the three cases of R491. -/
def State.peerFaultOut (s : State) : Bool :=
  if s.boot.applied then (match s.tmp.inForce with | some k => decide (2 ≤ k) | none => false) || !s.flag R.GLB_STATUS_READY
  else true

/-- GPIO4 to GPIO7 in their STATUS function (Table 2-8). -/
def State.statusBall (s : State) (n : Nat) : Bool :=
  if n = 4 then s.flag R.GLB_STATUS_READY
  else if n = 5 then s.flag R.GLB_STATUS_ALARM
  else if n = 6 then s.flag R.GLB_STATUS_TWIN_UP && s.twn.linkUp
  else s.pins.cmdPulse

/-- What ball GPIO[n] drives; `none` where it is an input. (DESIGN CHOICE, log entry 50) -/
def State.gpioDrive (s : State) (n : Nat) : Option Bool :=
  let f := s.cfg.gpioFunc.getD n 0
  if s.recovery then none
  else if s.cfg.sideband ∧ n < 4 then
    if n = 0 then some s.pins.beat else if n = 2 then some s.peerFaultOut else none
  else if s.boot.applied = false then none
  else if f = 3 then some (Nat.land s.alarmSet (s.cfg.alarmMask.getD n 0) == 0)
  else if f = 4 ∨ f = 5 then
    (if (s.rd R.WLD_GPIO_OE_GPIO).testBit n then some ((s.rd R.WLD_GPIO_OUT_GPIO).testBit n) else none)
  else if 4 ≤ n ∧ n < 8 then some (s.statusBall n)
  else none

/-- TMP_ALARM_N is asserted while any sticky flag is set (R32, R452). -/
def State.ballTmpAlarm (s : State) : Bool := s.rd R.TMP_FLAGS_SRC != 0

/-- TMP_LOOP_OUT[n]: a loop that is not enabled drives its output low (R451). -/
def State.ballLoop (s : State) (n : Nat) : Bool := s.loopOn n && s.loopBit n

/-- A port's transmitters: idle until its link trains. -/
def State.portActive (s : State) (p : Port) : Bool := (s.port p).training || s.flag (R.PE_LINK_DL_UP.port p)

/-- A DDR5 channel drives its balls from its training on, while its domains are powered. -/
def State.chanActive (s : State) (c : Nat) : Bool := s.rd (R.MEM_STATUS_STATE.mem c) != 0 && s.domAnswers (18 + 4 * c)

/-- A ball of the configuration flash: released in the recovery state (R81), at its reset state before the start (R32). -/
def State.flashBall (s : State) (atReset : Drive) : Drive :=
  if s.recovery then .open else if s.boot.alive && s.domAnswers 26 then .active else atReset

/-- Whether the boundary register covers a signal: every CMOS18, OD18, I3C18 and DDR5 ball, not the SERDES balls nor those of the backup group (R444). -/
def Signal.scanned : Signal → Bool
  | .peTx _ | .twTx | .tdo | .loopOut _ | .tmpAlarmN => false
  | _ => true

/-- How a signal stands: its reset state until the block that owns it configures it (R32, Table 2-5). The management bus and CLKREQ_N have no use in the spec and stay high impedance. (DESIGN CHOICE, log entry 71) -/
def State.drives (s : State) : Signal → Drive
  | .peTx p => if s.portActive p then .active else .idle
  | .peClkreqN _ | .mgBus | .mgAlertN | .avsBus | .tdo => .open
  | .twTx => if s.twn.linkUp then .active else .idle
  | .ddrData c | .ddrSideband c => if s.chanActive c then .active else .open
  | .ddrCa c | .ddrPar c | .ddrCkT c | .ddrResetN c => if s.chanActive c then .active else .low
  | .ddrCsN c | .ddrCkC c => if s.chanActive c then .active else .high
  | .xsSck | .xsResetN => s.flashBall .low
  | .xsCsN => s.flashBall .high
  | .xsDq => s.flashBall .open
  | .loopOut n => .level (s.ballLoop n)
  | .tmpAlarmN => .openDrain s.ballTmpAlarm
  | .ready => .level s.ballReady
  | .alarmN => .openDrain (!s.ballAlarmN)
  | .faultN => .openDrain s.recovery
  | .gpio n => match s.gpioDrive n with | some b => .level b | none => .open

/-- How a signal stands, EXTEST included (R445). -/
def State.ball (s : State) (x : Signal) : Drive := if s.tap.extest && x.scanned then .boundary else s.drives x

end Sys2Proof.Machine
end

