-- ==== Sys2Proof/WellFormed.lean ====
section
/-! DEFINITION. Which commands can arrive at all: the ranges of their operands. -/

namespace Sys2Proof

/-- A requester as it can stand: its pair, its world by its level and pair (R178, R179), its function number. -/
def Requester.wf : Requester → Bool
  | .core p w l => decide (p < 4) && w == (if l = .m ∨ p < 2 then World.secure else .normal)
  | .host _ n => decide (n ≤ 128)
  | .debug _ => true

/-- VFs are numbered 1 to 128 (R97). -/
def Fn.wf : Fn → Bool
  | .pf _ => true
  | .vf _ n => decide (1 ≤ n) && decide (n ≤ 128)
  | .nw => true

/-- An initiator of an access to DDR5. -/
def Initiator.wf : Initiator → Bool
  | .requester who => who.wf
  | .command _ _ => true
  | .soade => true
  | .test => true
  | .scrub => true

/-- A request that can be made at an address: writes name words, a read at least one byte (R98). -/
def RegRequest.wf (addr : Nat) : RegRequest → Bool
  | .write _ | .write2 _ _ => decide (addr % 4 = 0)
  | .writeLong words => decide (addr % 4 = 0) && decide (2 < words.length)
  | .read len => decide (0 < len)

/-- Whether a command is well formed. -/
def Instr.wf : Instr → Bool
  | .porNFall => true
  | .porNRise => true
  | .pwrgdRise => true
  | .pwrgdFall => true
  | .wrstNPulse => true
  | .perstNAssert _ => true
  | .perstNRise _ => true
  | .imageCopyReadDone _ => true
  | .bootKatDone _ _ => true
  | .readyRise => true
  | .readyTimeout => true
  | .entropyStartTimeout => true
  | .bootReset who _ => who.wf
  | .fwReadyWrite who _ => who.wf
  | .bootPtGo who _ => who.wf
  | .ptCommandDone _ _ => true
  | .registerWrite who addr value _ => who.wf && value.wf addr
  | .evtClearWrite who off _ => who.wf && decide (off % 4 = 0)
  | .bitAliasWrite who off _ _ => who.wf && decide (off % 4 = 0) && decide (off < 0x100000)
  | .guardValueWrite who off _ => who.wf && decide (off % 4 = 0)
  | .guardTimeout off => decide (off % 4 = 0)
  | .wideSelWrite who _ => who.wf
  | .wideSnapshotDone _ => true
  | .pwrDomReqWrite who _ => who.wf
  | .domainClaimsZero domain => decide (domain < 60)
  | .domainTransitionDone domain => decide (domain < 60)
  | .idleBaskTimeout domain => decide (domain < 60)
  | .baskingWake domain => decide (domain < 60)
  | .domainSupplyLost _ => true
  | .domainSupplyReturned _ => true
  | .devicePowerFail _ => true
  | .powerManagerTick _ _ _ => true
  | .capLimitStep => true
  | .pwrCapWrite who _ => who.wf
  | .rateWindowEnd _ => true
  | .avsAlert _ => true
  | .avsTimeout => true
  | .configRequest fn off _ => fn.wf && decide (off % 4 = 0) && decide (off < 4096)
  | .vfEnableSet _ numVfs => decide (1 ≤ numVfs) && decide (numVfs ≤ 128)
  | .vfEnableClear _ => true
  | .vfFlr _ vf => decide (1 ≤ vf) && decide (vf ≤ 128)
  | .pfFlr _ => true
  | .functionResetDone fn => fn.wf
  | .pfD3hotEntry _ => true
  | .pfD0Return _ => true
  | .dlDown _ => true
  | .dlUp _ _ _ _ => true
  | .l1Exit _ => true
  | .msixUnmask fn vector => fn.wf && decide (vector < 64)
  | .eventSourceAssert source => decide (source < 512)
  | .sqTailDoorbell fn qp _ => fn.wf && decide (qp < 64)
  | .cqHeadDoorbell fn qp _ => fn.wf && decide (qp < 64)
  | .qzEnable fn qp => fn.wf && decide (qp < 64)
  | .qzDisable fn qp => fn.wf && decide (qp < 64)
  | .sqEntryFetchDone fn qp entry => fn.wf && decide (qp < 64) && (entry.all fun e => decide (e.length = 64))
  | .sgSegmentArrived _ _ => true
  | .objectBodyArrived _ _ => true
  | .unitGrant pool _ => decide (pool < 5)
  | .inputFetchDone _ _ => true
  | .engineDone _ => true
  | .coalTimeExpiry fn qp => fn.wf && decide (qp < 64)
  | .hello fn qp entry _ => fn.wf && decide (qp < 64) && decide (entry.length = 64)
  | .getInfo fn qp entry _ => fn.wf && decide (qp < 64) && decide (entry.length = 64)
  | .abortCommand fn qp entry _ => fn.wf && decide (qp < 64) && decide (entry.length = 64)
  | .abortContext fn qp entry _ => fn.wf && decide (qp < 64) && decide (entry.length = 64)
  | .queueCreate fn qp entry _ => fn.wf && decide (qp < 64) && decide (entry.length = 64)
  | .queueDelete fn qp entry _ => fn.wf && decide (qp < 64) && decide (entry.length = 64)
  | .ctxExport fn qp entry _ => fn.wf && decide (qp < 64) && decide (entry.length = 64)
  | .ctxImport fn qp entry _ => fn.wf && decide (qp < 64) && decide (entry.length = 64)
  | .keyGenerate fn qp entry _ => fn.wf && decide (qp < 64) && decide (entry.length = 64)
  | .keyImportWrapped fn qp entry _ => fn.wf && decide (qp < 64) && decide (entry.length = 64)
  | .keyExportWrapped fn qp entry _ => fn.wf && decide (qp < 64) && decide (entry.length = 64)
  | .keyDestroy fn qp entry _ => fn.wf && decide (qp < 64) && decide (entry.length = 64)
  | .keyDerive fn qp entry _ => fn.wf && decide (qp < 64) && decide (entry.length = 64)
  | .keyAttest fn qp entry _ => fn.wf && decide (qp < 64) && decide (entry.length = 64)
  | .kemEncaps fn qp entry _ => fn.wf && decide (qp < 64) && decide (entry.length = 64)
  | .kemDecaps fn qp entry _ => fn.wf && decide (qp < 64) && decide (entry.length = 64)
  | .keyAgree fn qp entry _ => fn.wf && decide (qp < 64) && decide (entry.length = 64)
  | .sign fn qp entry _ => fn.wf && decide (qp < 64) && decide (entry.length = 64)
  | .verify fn qp entry _ => fn.wf && decide (qp < 64) && decide (entry.length = 64)
  | .hashInit fn qp entry _ => fn.wf && decide (qp < 64) && decide (entry.length = 64)
  | .hashUpdate fn qp entry _ => fn.wf && decide (qp < 64) && decide (entry.length = 64)
  | .hashFinal fn qp entry _ => fn.wf && decide (qp < 64) && decide (entry.length = 64)
  | .hashVerify fn qp entry _ => fn.wf && decide (qp < 64) && decide (entry.length = 64)
  | .macInit fn qp entry _ => fn.wf && decide (qp < 64) && decide (entry.length = 64)
  | .macUpdate fn qp entry _ => fn.wf && decide (qp < 64) && decide (entry.length = 64)
  | .macFinal fn qp entry _ => fn.wf && decide (qp < 64) && decide (entry.length = 64)
  | .macVerify fn qp entry _ => fn.wf && decide (qp < 64) && decide (entry.length = 64)
  | .cipher fn qp entry _ => fn.wf && decide (qp < 64) && decide (entry.length = 64)
  | .aeadInit fn qp entry _ => fn.wf && decide (qp < 64) && decide (entry.length = 64)
  | .aeadUpdate fn qp entry _ => fn.wf && decide (qp < 64) && decide (entry.length = 64)
  | .aeadFinal fn qp entry _ => fn.wf && decide (qp < 64) && decide (entry.length = 64)
  | .random fn qp entry _ => fn.wf && decide (qp < 64) && decide (entry.length = 64)
  | .ownerLoad fn qp entry _ => fn.wf && decide (qp < 64) && decide (entry.length = 64)
  | .ownerCreate fn qp entry _ => fn.wf && decide (qp < 64) && decide (entry.length = 64)
  | .ownerRedefine fn qp entry _ => fn.wf && decide (qp < 64) && decide (entry.length = 64)
  | .ownerDestroy fn qp entry _ => fn.wf && decide (qp < 64) && decide (entry.length = 64)
  | .ownerReissue fn qp entry _ => fn.wf && decide (qp < 64) && decide (entry.length = 64)
  | .quorumChallenge fn qp entry _ => fn.wf && decide (qp < 64) && decide (entry.length = 64)
  | .quorumApprove fn qp entry _ => fn.wf && decide (qp < 64) && decide (entry.length = 64)
  | .migrationLogStart fn qp entry _ => fn.wf && decide (qp < 64) && decide (entry.length = 64)
  | .migrationLogStop fn qp entry _ => fn.wf && decide (qp < 64) && decide (entry.length = 64)
  | .vfCreate fn qp entry _ => fn.wf && decide (qp < 64) && decide (entry.length = 64)
  | .vfDestroy fn qp entry _ => fn.wf && decide (qp < 64) && decide (entry.length = 64)
  | .approvalWindowExpiry _ => true
  | .controlHandover _ => true
  | .dspCqEnable who _ => who.wf
  | .dspCqDisable who _ => who.wf
  | .dspCqRtailWrite who _ _ => who.wf
  | .add _ _ _ _ => true
  | .sub _ _ _ _ => true
  | .and _ _ _ _ => true
  | .or _ _ _ _ => true
  | .xor _ _ _ _ => true
  | .andn _ _ _ _ => true
  | .sll _ _ _ _ => true
  | .srl _ _ _ _ => true
  | .sra _ _ _ _ => true
  | .slt _ _ _ _ => true
  | .sltu _ _ _ _ => true
  | .mul _ _ _ _ => true
  | .mulh _ _ _ _ => true
  | .mulhu _ _ _ _ => true
  | .div _ _ _ _ => true
  | .divu _ _ _ _ => true
  | .rem _ _ _ _ => true
  | .remu _ _ _ _ => true
  | .addi _ _ _ _ => true
  | .andi _ _ _ _ => true
  | .ori _ _ _ _ => true
  | .xori _ _ _ _ => true
  | .slti _ _ _ _ => true
  | .sltiu _ _ _ _ => true
  | .lui _ _ _ => true
  | .shi _ _ _ _ _ => true
  | .orhi _ _ _ _ => true
  | .orti _ _ _ _ => true
  | .ld _ _ _ _ => true
  | .lw _ _ _ _ => true
  | .lwu _ _ _ _ => true
  | .lh _ _ _ _ => true
  | .lhu _ _ _ _ => true
  | .lb _ _ _ _ => true
  | .lbu _ _ _ _ => true
  | .sd _ _ _ _ => true
  | .sw _ _ _ _ => true
  | .sh _ _ _ _ => true
  | .sb _ _ _ _ => true
  | .lr _ _ _ => true
  | .sc _ _ _ _ => true
  | .amoSwap _ _ _ _ => true
  | .amoAdd _ _ _ _ => true
  | .amoAnd _ _ _ _ => true
  | .amoOr _ _ _ _ => true
  | .amoXor _ _ _ _ => true
  | .amoMax _ _ _ _ => true
  | .amoMin _ _ _ _ => true
  | .amoMaxu _ _ _ _ => true
  | .amoMinu _ _ _ _ => true
  | .beq _ _ _ _ => true
  | .bne _ _ _ _ => true
  | .blt _ _ _ _ => true
  | .bge _ _ _ _ => true
  | .bltu _ _ _ _ => true
  | .bgeu _ _ _ _ => true
  | .jal _ _ => true
  | .jalr _ _ _ _ => true
  | .srd _ _ _ => true
  | .swr _ _ _ => true
  | .kcall _ _ => true
  | .wcall _ _ => true
  | .kret _ => true
  | .wret _ => true
  | .fence _ _ => true
  | .wfi _ => true
  | .brk _ _ => true
  | .cacheClean _ _ _ => true
  | .cacheCleanInvalidate _ _ _ => true
  | .cacheInvalidateIline _ _ _ => true
  | .illegalInstruction _ _ => true
  | .wfiWake _ => true
  | .externalInterrupt _ => true
  | .timerInterrupt _ => true
  | .storeErrorResponse _ => true
  | .ccsNstartWrite who _ => who.wf
  | .ccsNreset who _ => who.wf
  | .nqRequest _ => true
  | .nqRelease _ => true
  | .monitorVersion _ => true
  | .wldNqBind who n _ => who.wf && decide (n < 64)
  | .wldNqUnbind who n _ => who.wf && decide (n < 64)
  | .mbxDataWrite who _ _ _ => who.wf
  | .mbxSend who _ _ => who.wf
  | .mbxAck who _ _ => who.wf
  | .mbxWake who _ => who.wf
  | .actUpdateBegin who _ => who.wf
  | .actUpdateEnd who _ => who.wf
  | .actLock who _ => who.wf
  | .actHoldTimeout _ => true
  | .debugAccess _ _ _ => true
  | .debugHaltRequest _ => true
  | .debugStep _ => true
  | .debugEnableLeave _ => true
  | .ddrTrainingDone _ _ => true
  | .zeroFillBlock _ _ => true
  | .fillDone _ => true
  | .patrolScrubLine _ _ => true
  | .scrubPeriodEnd _ => true
  | .ddrLineRead who _ _ => who.wf
  | .ddrPartialWrite who off data _ => who.wf && !data.isEmpty && decide (off % 64 + data.length ≤ 64)
  | .ddrLockRelease _ => true
  | .ddrAlert _ _ accesses => accesses.all fun x => x.who.wf
  | .moltPeriod _ _ => true
  | .deviceKeyRederived _ => true
  | .entQuadrantJoined _ => true
  | .entBalanceWindowEnd _ _ _ => true
  | .entQuadrantFail _ cell _ => decide (cell < 512)
  | .entBlockRelease _ => true
  | .entWordGrant => true
  | .entShareWindowEnd => true
  | .entStarved => true
  | .entCaptureGo who _ => who.wf
  | .entCaptureDone _ _ => true
  | .selfTestRotation _ => true
  | .selfTestEntry _ _ => true
  | .selfTestRunDone _ _ _ => true
  | .engineFault _ _ _ _ => true
  | .regrowthDone tile _ => decide (tile < 18)
  | .unitClearDone _ _ _ => true
  | .alarmRaise source => decide (source < 24)
  | .zeroizationDone => true
  | .killWordProgrammed => true
  | .tamperLoopSample _ _ => true
  | .xtalStop => true
  | .backupDomainReset => true
  | .operatingHourTick => true
  | .tmpFlagClr who _ => who.wf
  | .tmpResume who _ => who.wf
  | .debugIntrusionLevel => true
  | .recordStore => true
  | .evrRdSelWrite who _ => who.wf
  | .evrRdCopyDone _ => true
  | .evrExpGo who _ => who.wf
  | .evrExpDone _ _ => true
  | .evrClear who _ => who.wf
  | .evrClearingDone => true
  | .lcTargetWrite who _ => who.wf
  | .lcReq _ => true
  | .lcTransitionDone _ => true
  | .lcRepair word _ => decide (1 ≤ word) && decide (word ≤ 18)
  | .tapReset => true
  | .extest _ => true
  | .samplePreload _ => true
  | .idcode => true
  | .lcStatus => true
  | .dbgAccess => true
  | .testMode _ => true
  | .bypass _ => true
  | .twinLinkTrained _ _ => true
  | .twinRetrainTimer _ => true
  | .twinLinkDown => true
  | .soadeHello _ _ _ _ _ _ => true
  | .pairKem _ _ _ => true
  | .pairAuth _ _ _ _ _ => true
  | .heartbeat _ _ => true
  | .heartbeatSend => true
  | .heartbeatMiss _ => true
  | .close _ _ => true
  | .commit _ _ => true
  | .ack _ _ => true
  | .resyncData _ _ => true
  | .resyncEnd _ _ => true
  | .journal _ _ => true
  | .keyReq _ _ => true
  | .keyResp _ _ => true
  | .twnPair who _ => who.wf
  | .ltsTestEnter who _ => who.wf
  | .ltsTestExit who _ => who.wf
  | .ltsChkStart who _ => who.wf
  | .ltsEyeGo who _ => who.wf
  | .ltsEyeDone _ _ => true
  | .alarmConditionEnd source => decide (source < 24)
  | .peerFaultInHigh => true
  | .ltsCheckerAligned lane => decide (lane < 200)
  | .ltsCheckerSyncLost lane => decide (lane < 200)
  | .linkL1Entry _ => true
  | .linkSpeedChange _ _ _ => true
  | .twPresentNChange _ => true
  | .statusCommandPulseEnd => true

end Sys2Proof
end

