-- ==== Sys2Proof/Tests/Slice0.lean ====
section
/-! SUPPORT. The author's tests: ill-formed commands, a witness for the hypotheses of each statement, single commands. -/

namespace Sys2Proof.Tests

open Sys2Proof Sys2Proof.Machine

set_option Elab.async false

/-- A state with some register fields written. -/
def put (s : State) (l : List (Fld × Nat)) : State := l.foldl (fun s x => s.wr x.1 x.2) s

/-- A device that has started. -/
def dev : State :=
  { State.reset with pins := { State.reset.pins with porN := true }
                     boot := { State.reset.boot with alive := true, keysDrawn := true, applied := true, katDone := true, cfgOpen := true } }

/-- A secure core at level K, a normal one at level K, the first function of port A. -/
def sec : Requester := .core 0 .secure .k
def nor : Requester := .core 2 .normal .k
def pfa : Requester := .host .a 0

/-- A state in which the value half of a guarded write waits. -/
def grd (s : State) (off v : Nat) (who : Requester) : State := { s with bus := { s.bus with guards := [{ off := off, val := v, who := who }] } }

/-- The complement of a value. -/
def co (v : Nat) : Word32 := BitVec.ofNat 32 (2 ^ 32 - 1 - v)

/-- A state with port A's link up and its PF in service. -/
def linked (s : State) : State := { put s [(R.PE_LINK_DL_UP.port .a, 1)] with pins := { s.pins with perstNA := true } }

/-- An owner with every policy bit and family, its key-encryption key in slot 20. -/
def own1 : Owner := { defn := { policy := 0xFFFF, algAllow := 0xFFFF, quorum := 1, salt := zeros 32 }, kekSlot := some 20 }

/-- A met approval of an action of owner 5. -/
def appr (action : Nat) (digest : List Byte) : Approval :=
  { action := action, owner := 5, digest := digest, challenge := [], counted := [0], quorum := 1, windowS := 100 }


/-! Ill-formed commands: one for each check, which refuses it. -/

theorem smoke_requester :
    (Instr.fwReadyWrite (.core 4 .secure .m) 1).wf = false ∧ (Instr.fwReadyWrite (.core 2 .secure .k) 1).wf = false ∧
    (Instr.fwReadyWrite (.core 0 .normal .k) 1).wf = false ∧ (Instr.fwReadyWrite (.core 2 .normal .m) 1).wf = false ∧
    (Instr.fwReadyWrite (.host .a 129) 1).wf = false ∧ (Instr.fwReadyWrite (.core 2 .secure .m) 1).wf = true := by decide

theorem smoke_offset :
    (Instr.registerWrite sec 0x10002 (.write 0) 0xF).wf = false ∧ (Instr.registerWrite sec 0x10002 (.write2 0 0) 0xF).wf = false ∧ (Instr.registerWrite pfa 0x10000 (.writeLong [0, 0]) 0xF).wf = false ∧
    (Instr.registerWrite sec 0x10002 (.read 0) 0xF).wf = false ∧ (Instr.registerWrite sec 0x10002 (.read 1) 0xF).wf = true ∧ (Instr.evtClearWrite sec 0x10015 0).wf = false ∧ (Instr.bitAliasWrite sec 0x20025 0 1).wf = false ∧
    (Instr.bitAliasWrite sec 0x100000 0 1).wf = false ∧ (Instr.guardValueWrite sec 0x10009 0).wf = false ∧ (Instr.guardTimeout 0x10009).wf = false ∧
    (Instr.configRequest (.pf .a) 2 none).wf = false ∧ (Instr.configRequest (.pf .a) 4096 none).wf = false := by decide

theorem smoke_function :
    (Instr.functionResetDone (.vf .a 0)).wf = false ∧ (Instr.functionResetDone (.vf .a 129)).wf = false ∧ (Instr.vfFlr .a 0).wf = false ∧ (Instr.vfFlr .b 129).wf = false ∧
    (Instr.vfEnableSet .a 0).wf = false ∧ (Instr.vfEnableSet .a 129).wf = false ∧ (Instr.msixUnmask (.pf .a) 64).wf = false ∧
    (Instr.sqTailDoorbell .nw 64 0).wf = false ∧ (Instr.qzEnable .nw 64).wf = false ∧ (Instr.coalTimeExpiry .nw 64).wf = false := by decide

theorem smoke_entry :
    (Instr.hello (.pf .a) 0 (zeros 63) {}).wf = false ∧ (Instr.sign (.pf .a) 64 (zeros 64) {}).wf = false ∧ (Instr.random (.vf .b 0) 0 (zeros 64) {}).wf = false ∧
    (Instr.sqEntryFetchDone (.pf .a) 0 (some (zeros 63))).wf = false ∧ (Instr.hello (.pf .a) 0 (zeros 64) {}).wf = true := by decide

theorem smoke_numbers :
    (Instr.domainClaimsZero 60).wf = false ∧ (Instr.domainTransitionDone 60).wf = false ∧ (Instr.idleBaskTimeout 60).wf = false ∧ (Instr.baskingWake 60).wf = false ∧
    (Instr.eventSourceAssert 512).wf = false ∧ (Instr.unitGrant 5 0).wf = false ∧ (Instr.wldNqBind sec 64 0).wf = false ∧ (Instr.wldNqUnbind sec 64 0).wf = false ∧
    (Instr.entQuadrantFail 0 512 .trim).wf = false ∧ (Instr.regrowthDone 18 none).wf = false ∧ (Instr.alarmRaise 24).wf = false ∧ (Instr.alarmConditionEnd 24).wf = false ∧
    (Instr.lcRepair 0 true).wf = false ∧ (Instr.lcRepair 19 true).wf = false ∧ (Instr.ltsCheckerAligned 200).wf = false ∧ (Instr.ltsCheckerSyncLost 200).wf = false := by decide

theorem smoke_memory :
    (Instr.ddrPartialWrite (.requester sec) 0 [] .none).wf = false ∧ (Instr.ddrPartialWrite (.requester sec) 60 (zeros 5) .none).wf = false ∧
    (Instr.ddrLineRead (.requester (.core 4 .secure .m)) 0 .none).wf = false := by decide

/-! The statements about the core pairs. -/

/-- Pair 0 runs an instruction that its instruction cache holds; its data cache holds the line 0x10000040. -/
def cpu (c : Core) : State :=
  dev.setCore 0 { c with
    run := .running, pc := 0x10000000
    icache := [{ addr := 0x10000000, world := .secure, dirty := false, data := zeros 64 }]
    dcache := [{ addr := 0x10000040, world := .secure, dirty := false, data := zeros 64 }] }

/-- The instruction of pair 0. -/
def r0 : Run := { pair := 0 }

theorem witness_runs : ∀ c ∈ [({} : Core), { level := .k }, { level := .u }], (cpu c).runs r0 := by
  unfold State.runs; decide +kernel

theorem witness_Division : let x := cpu { g := [(1, BitVec.ofNat 64 (2 ^ 63)), (2, BitVec.allOnes 64), (3, 1)] }
    x.runs r0 ∧ (x.atInstr r0).gr 0 3 ≠ 0 ∧ (x.atInstr r0).gr 0 4 = 0 ∧ (x.atInstr r0).gr 0 1 = BitVec.ofNat 64 (2 ^ 63) ∧
      (x.atInstr r0).gr 0 2 = BitVec.allOnes 64 := by
  unfold State.runs; decide +kernel

/-- Addresses in g1 to g5: a line that is held, its second word, half word and byte; a register. -/
def mem0 : State := cpu { g := [(1, 0x10000040), (2, 0x10000044), (3, 0x10000042), (4, 0x10000041), (5, 0x40000000), (6, 0x10000080)] }

theorem witness_Loads : mem0.runs r0 ∧
    (∀ a ∈ ([1, 2, 3, 4] : List Reg), (mem0.atInstr r0).hits 0 ((mem0.atInstr r0).gr 0 a).toNat = true) ∧
    ((mem0.atInstr r0).gr 0 1).toNat % 8 = 0 ∧ ((mem0.atInstr r0).gr 0 2).toNat % 8 = 4 ∧ ((mem0.atInstr r0).gr 0 3).toNat % 4 = 2 ∧
    ((mem0.atInstr r0).gr 0 4).toNat % 8 = 1 ∧
    (∀ x ∈ [(0x40000000, 4), (0x10000080, 8), (0x10000080, 4), (0x10000080, 2), (0x10000080, 1)],
      (mem0.atInstr r0).wouldHold 0 x.1 = false ∧ (((mem0.atInstr r0).pmuCount 0 4).loadBytes 0 x.1 x.2).1.isSome = true ∧
        (((mem0.atInstr r0).pmuCount 0 4).loadBytes 0 x.1 x.2).2.tmp.due = []) := by
  unfold State.runs; decide +kernel

theorem witness_MisalignedTraps : mem0.runs r0 ∧ ((mem0.atInstr r0).gr 0 2 + (0 : BitVec 16).signExtend 64).toNat % 8 ≠ 0 ∧
    ((mem0.atInstr r0).gr 0 3 + (0 : BitVec 16).signExtend 64).toNat % 4 ≠ 0 ∧ ((mem0.atInstr r0).gr 0 4 + (0 : BitVec 16).signExtend 64).toNat % 2 ≠ 0 := by
  unfold State.runs; decide +kernel

theorem witness_Stores : mem0.runs r0 ∧ (mem0.atInstr r0).hits 0 0x10000047 = true ∧ (mem0.atInstr r0).noSequence 0 = true ∧ memType 0x40000000 = .device ∧
    (((mem0.atInstr r0).pmuCount 0 5).pmuCount 0 6 |>.storeReg ((mem0.atInstr r0).reqOf 0) 0x40020024 4 1).tmp.due = [] ∧
    (∀ x ∈ [(0x10000080, 8), (0x10000084, 4), (0x10000086, 2), (0x10000087, 1)],
      let s3 := ((mem0.atInstr r0).pmuCount 0 5).interleaveAt ((mem0.atInstr r0).reqOf 0) x.1
      s3.wouldHold 0 x.1 = false ∧ (s3.storeMem 0 x.1 (leBytes x.2 1)).tmp.due = []) := by
  unfold State.runs; decide +kernel

theorem witness_ReservedPairs : let x := cpu { g := [(1, 0x10000078)], resv := some (0x10000078 / 64) }
    x.runs r0 ∧ ((x.atInstr r0).gr 0 1).toNat % 8 = 0 ∧ atomicOk ((x.atInstr r0).gr 0 1).toNat = true ∧
      (x.atInstr r0).hits 0 ((x.atInstr r0).gr 0 1).toNat = true ∧ (x.atInstr r0).noSequence 0 = true ∧ ((x.atInstr r0).core 0).resv = some (((x.atInstr r0).gr 0 1).toNat / 64) ∧
      (mem0.runs r0 ∧ ((mem0.atInstr r0).core 0).resv ≠ some (((mem0.atInstr r0).gr 0 1).toNat / 64)) := by
  unfold State.runs; decide +kernel

theorem witness_AtomicOperations : mem0.runs r0 ∧ ((mem0.atInstr r0).gr 0 1).toNat % 8 = 0 ∧
    atomicOk ((mem0.atInstr r0).gr 0 1).toNat = true ∧ (mem0.atInstr r0).hits 0 ((mem0.atInstr r0).gr 0 1).toNat = true ∧ (mem0.atInstr r0).noSequence 0 = true := by
  unfold State.runs; decide +kernel

theorem witness_BranchesAndJumps : mem0.runs r0 ∧ ((mem0.atInstr r0).gr 0 1 + (0 : BitVec 16).signExtend 64).toNat % 4 = 0 ∧
    ((mem0.atInstr r0).gr 0 1 + (2 : BitVec 16).signExtend 64).toNat % 4 ≠ 0 := by
  unfold State.runs; decide +kernel

theorem witness_SystemRegisters : let x := cpu { level := .m, mxbase := 1 }
    x.runs r0 ∧ ((x.atInstr r0).core 0).level = .m ∧ ((x.atInstr r0).core 0).mxbase.getLsbD 0 = true ∧
      ((x.atInstr r0).sysRead 0 0x401).isSome = true ∧ (x.atInstr r0).sysRead 0 0x407 = none ∧ (x.atInstr r0).sysWrite 0 0x402 1 = none ∧
      ∀ n ∈ [0x401, 0x405, 0x406, 0x801, 0x805, 0x410, 0x417, 0x010, 0x013, 0x404, 0x400, 0x430, 0x804], ((x.atInstr r0).sysWrite 0 n 5).isSome = true := by
  unfold State.runs; decide +kernel

theorem witness_CallsAndReturns : ∀ l ∈ [Level.u, .k, .m], (cpu { level := l, kepc := 8, mepc := 12, mplev := .k }).runs r0 ∧
    (((cpu { level := l, kepc := 8, mepc := 12, mplev := .k }).atInstr r0).core 0).level = l ∧ (8 : Word64).toNat % 4 = 0 ∧ (12 : Word64).toNat % 4 = 0 := by
  unfold State.runs; decide +kernel

theorem witness_TrapInstructions : (cpu { level := .k }).runs r0 ∧ (cpu { level := .k }).hccLegal 0 0 = true ∧ (cpu { level := .k }).hccLegal 0 0xFC000000 = false ∧
    (((cpu { level := .k }).atInstr r0).core 0).level ≠ .u ∧ (((cpu { level := .k }).atInstr r0).core 0).level ≠ .m ∧
    (cpu { level := .u }).runs r0 ∧ (((cpu { level := .u }).atInstr r0).core 0).level ≠ .k := by
  unfold State.runs; decide +kernel

theorem witness_FenceCacheWait : mem0.runs r0 ∧ mem0.accessesOpen 0 = false ∧ (mem0.atInstr r0).hits 0 ((mem0.atInstr r0).cacheAddr 0 6 0).toNat = false ∧
    memType ((mem0.atInstr r0).cacheAddr 0 6 0).toNat = .cached true ∧
    (cacheHit ((mem0.atInstr r0).core 0).dcache ((mem0.atInstr r0).worldOfPair 0) ((mem0.atInstr r0).cacheAddr 0 1 0).toNat).map CacheLine.dirty = some false ∧
    ((mem0.atInstr r0).core 0).run = .running ∧ ((mem0.atInstr r0).core 0).haltReq = false := by
  unfold State.runs; decide +kernel

/-- The data cache of pair 0 holds a dirty line, in SRAM and in an address that nothing answers. -/
def dirty (a : Nat) : State :=
  (cpu { level := .m }).setCore 0 { ((cpu { level := .m, g := [(1, BitVec.ofNat 64 a)] }).core 0) with dcache := [{ addr := a, world := .secure, dirty := true, data := zeros 64 }] }

theorem witness_FenceCacheWait_dirty : ∀ x ∈ [(0x10000040, true), (0x2000000040, false)], let s := (dirty x.1).atInstr r0
    (dirty x.1).runs r0 ∧ (s.core 0).level = .m ∧
    (cacheHit (s.core 0).dcache (s.worldOfPair 0) (s.cacheAddr 0 1 0).toNat).map (fun l => (l.dirty, s.writeBackOk 0 l)) = some (true, x.2) := by
  unfold State.runs; decide +kernel

/-- Pair 0 at U with interrupts enabled; source 35 and the timer as given. -/
def irq (tie : Bool) (run : RunState) : State :=
  (put dev [(R.BOOT_EVT_PWRGD_LOW, 1), (R.GLB_GUARD_EVT_GUARD_FAIL.inst 0, 1)]).setCore 0
    { run := run, level := .u, ie := true, tie := tie, tcmp := 0, ien := if tie then [] else [(0, BitVec.allOnes 64)] }

theorem witness_InterruptsAndWake :
    ((irq false .running).canInterrupt 0 = true ∧ ((irq false .running).ifirst 0).isSome = true ∧ ((irq false .running).core 0).storeErrs = []) ∧
    ((irq true .running).canInterrupt 0 = true ∧ (irq true .running).timerUp 0 = true ∧ ((irq true .running).ifirst 0).isNone = true ∧ ((irq true .running).core 0).storeErrs = []) ∧
    (((irq true .wfi).core 0).run = .wfi ∧ (irq true .wfi).wakes 0 = true ∧ (irq true .wfi).domAnswers 30 = true) ∧
    (∀ l ∈ [Level.u, .m], let x := (irq false .running).setCore 0 { ((irq false .running).core 0) with storeErrs := [(0x40000000, l)] }
      (x.core 0).storeErrs = [(0x40000000, l)] ∧ (x.core 0).run ≠ .fenced ∧ (x.core 0).run ≠ .reset ∧ x.waitsAtTable 0 = false) := by
  decide +kernel


/-! The statements about chapters 03 and 09. -/

/-- The slot of a device key. -/
def devSlot (n : Nat) : Slot := { shareA := zeros 128, shareB := zeros 128, attr := { secretLen := 32 }, codeA := 0, codeB := 0, holder := .device n }

/-- The DDR5 scrambling key is in its slot. -/
def keyed : State := { dev with keys := { slots := [(3, some (devSlot 3))] } }

theorem witness_PowerManagerRows :
    dev.boot.alive = true ∧
    (let s := put dev [(R.PWR_VCORE_AVS_EN, 1), (R.PWR_CAP_CAP, 55), (R.PWR_VCORE_SETPOINT, 551)]
     s.rd R.PWR_VCORE_AVS_EN = 1 ∧ 100 * min s.cfg.capW (s.rd R.PWR_CAP_CAP) < 5501 ∧ 550 < s.rd R.PWR_VCORE_SETPOINT ∧ s.rd R.PWR_VCORE_SETPOINT < 1024) ∧
    ((grd dev 0x10008 9 sec).passesGuarded sec 0x10008 (co 9) 9 ∧ (grd dev 0x10008 9 sec).cfg.capW < 64 ∧ 10 ≤ (grd dev 0x10008 9 sec).cfg.capW) ∧
    (let s : State := { put dev [(R.PWR_VCORE_SETPOINT, 550)] with pwr := { overCap := true } }
     s.pwr.overCap = true ∧ s.rd R.PWR_VCORE_SETPOINT = 550) ∧
    (dev.pwr.overCap = false ∧ (put dev [(R.PWR_CAP_CAP, 55)]).rd R.PWR_POWER_TOTAL + 200 ≤ (put dev [(R.PWR_CAP_CAP, 55)]).capNow) ∧
    (dev.ddrKeyGone = true ∧ keyed.ddrKeyGone = false ∧ keyed.cfg.dbPresent = true ∧ keyed.rd (domState 18) ≠ 3 ∧ dev.rd (domState 22) ≠ 3 ∧ dev.rd (domState 13) ≠ 3 ∧ dev.dsp.inflight = [] ∧ (dev.chan 0).heldFill = [] ∧ (dev.chan 1).locks = []) ∧
    (∀ d ∈ [18, 22], (put keyed [(domState d, 3)]).rd (domState d) = 3 ∧ (put keyed [(domState d, 3)]).ddrKeyGone = false) := by
  unfold State.passesGuarded; decide +kernel

theorem witness_DomainRows :
    (let s := put dev [(R.PWR_DOM_STAT_IDLE_BASK.ix 57, 1)]
     s.rd (R.PWR_DOM_STAT_IDLE_BASK.ix 57) = 1 ∧ s.rd (domState 57) = 0 ∧ s.claimsOn 57 = 0 ∧ tblGet 0 s.pwr.moving 57 = 0) ∧
    (put dev [(domState 30, 1)]).rd (domState 30) = 1 ∧
    (let s := put keyed [(domState 22, 2), (R.PWR_DOM_STAT_PENDING.ix 22, 0)]
     s.rd (R.PWR_DOM_STAT_PENDING.ix (domHead 25)) = 0 ∧ tblGet 0 s.pwr.moving 22 = 0 ∧ s.claimsOn 22 = 0 ∧ s.rd (domState 22) = 2 ∧ s.ddrKeyGone = false ∧
       domHead 22 = 18 + 4 * 1) ∧
    (∀ x ∈ [(3, 2), (57, 1), (30, 0)], let s := put dev [(R.PWR_DOM_STAT_PENDING.ix (domHead x.1), x.2)]
      s.rd (R.PWR_DOM_STAT_PENDING.ix (domHead x.1)) = x.2 ∧ tblGet 0 s.pwr.moving (domHead x.1) = 0 ∧ s.claimsOn (domHead x.1) = 0) ∧
    (dev.passes sec 0x10020 = true ∧ 60 ≤ (60 : Word32).toNat % 64) ∧
    (let s := put dev [(R.PWR_DOM_STAT_WORLD.ix 22, 2), (R.PWR_DOM_STAT_PENDING.ix 22, 3)]
     s.passes sec 0x10020 = true ∧ (22 : Word32).toNat % 64 = 22 ∧ (22 : Word32).toNat / 256 % 4 = 0 ∧ domHead 22 = 22 ∧ s.rd (domState 22) = 0 ∧
       s.rd (R.PWR_DOM_STAT_WORLD.ix 22) = 2 ∧ s.rd (R.PWR_DOM_STAT_PENDING.ix 22) = 3 ∧ s.cfg.dbPresent = true) ∧
    (∀ x ∈ [(57, 1), (30, 0)], let s : State := { put dev [(R.PWR_DOM_STAT_PENDING.ix x.1, x.2)] with pwr := { moving := [(x.1, x.2 + 1)] } }
      domGroup x.1 = [x.1] ∧ s.rd (domState x.1) < 2 ∧ tblGet 0 s.pwr.moving x.1 = x.2 + 1 ∧ s.rd (R.PWR_DOM_STAT_PENDING.ix x.1) = x.2 ∧
        domHead (s.rd (R.PWR_DOM_REQ_DOMAIN.inst (s.pendWorld x.1).num)) = 0) := by
  decide +kernel

/-- Pair 0 runs, and port B's link is up. -/
def mail : State := (put dev [(R.PE_LINK_DL_UP.port .b, 1)]).setCore 0 { run := .running }

theorem witness_MailboxRows :
    (∀ x ∈ [(0, sec, sec), (31, sec, Requester.host .b 0)], let m := x.1
      mail.passes x.2.1 (mbxOff m (4 * 15)) = true ∧ mail.passes x.2.1 (mbxOff m 0x48) = true ∧
      mail.passes x.2.2 (mbxOff m 0x4C) = true ∧ mail.rd (R.MBX_HDR1_FULL.mbx m) = 0 ∧ (64 : Word32).toNat % 128 ≤ 64 ∧
      (let s := put mail [(R.MBX_HDR1_FULL.mbx m, 1), (R.MBX_HDR0_MSEQ.mbx m, 1)]
       s.passes x.2.1 (mbxOff m 0) = true ∧ s.passes x.2.2 (mbxOff m 0x4C) = true ∧ s.rd (R.MBX_HDR1_FULL.mbx m) = 1 ∧
         s.rd (R.MBX_HDR0_MSEQ.mbx m) = (0x10000 : Word32).toNat / 65536 ∧ s.rd (R.MBX_HDR0_MSEQ.mbx m) ≠ (0x20000 : Word32).toNat / 65536)) ∧
    (∀ p ∈ [0, 1], let s := put dev [(domState (30 + p), 1), (R.PWR_DOM_STAT_PENDING.ix (30 + p), 3)]
      s.passes sec 0xA1000 = true ∧ s.rd (domState (30 + p)) = 1 ∧ s.rd (R.PWR_DOM_STAT_PENDING.ix (30 + p)) = 3) := by
  decide +kernel

/-- Pair 2 at M, in service `imm` of the monitor, with g1 to g3. -/
def service (imm : Nat) (g : Tbl Word64) : State :=
  ({ put dev [(R.WLD_NQ_BIND_BOUND.ix 63, 1)] with
      keys := { owners := [(5, some own1)] }, cfg := { dev.cfg with eventWorld := [(258, 2), (259, 2), (260, 1), (261, 2)] } } : State).setCore 2
    { run := .running, level := .m, mcause := causeWord 9 imm, g := g }

theorem witness_NormalWorldServices :
    (let s : State := { dev with keys := { owners := [(5, some own1)] } }
     let v : Word32 := BitVec.ofNat 32 (5 + 255 * 2 ^ 10 + 8 * 2 ^ 18 + 2 ^ 28)
     s.passes sec (0x90400 + 4 * 63) = true ∧ v.toNat.testBit 28 = true ∧ s.rd (R.WLD_NQ_BIND_BOUND.ix 63) = 0 ∧ 8 ≤ bits v.toNat 18 10 ∧
       s.poolQpUsed (bits v.toNat 18 10) = false ∧ (s.ownerAt (bits v.toNat 0 10)).isSome = true ∧ bits v.toNat 10 8 ≠ 0) ∧
    (let s := put dev [(R.WLD_NQ_BIND_BOUND.ix 0, 1)]
     s.passes sec 0x90400 = true ∧ (0 : Word32).toNat.testBit 28 = false ∧ s.rd (R.WLD_NQ_BIND_BOUND.ix 0) = 1 ∧ s.qpBusy .nw 0 = false) ∧
    (service 0 []).serving216 2 0 = true ∧
    (let s := service 1 [(1, 5), (2, 16), (3, 255)]
     s.serving216 2 1 = true ∧ (s.gr 2 2).toNat = 16 ∧ (s.gr 2 3).toNat = 255 ∧ s.admitsNormal (s.gr 2 1).toNat = true ∧ s.freeRuns 16 ≠ [] ∧ 16 ≤ s.freePoolQps.length) ∧
    (let s := service 2 [(1, 63)]
     s.serving216 2 2 = true ∧ (s.gr 2 1).toNat = 63 ∧ s.rd (R.WLD_NQ_BIND_BOUND.ix 63) = 1 ∧ s.calm) ∧
    (service 7 []).servingUnknown 2 = true := by
  unfold State.calm; decide +kernel

theorem witness_PairStarts : ∀ p ∈ [2, 3],
    let s : State := { dev with boot := { dev.boot with normalEntry := some 0x10010000 } }
    let t := (grd s 0x140018 (2 ^ p) sec).setCore p { run := .running, nstarted := true }
    s.boot.normalEntry = some 0x10010000 ∧ s.rd (domState (30 + p)) = 0 ∧ s.passes sec 0x140010 = true ∧ (s.core p).run = .reset ∧ (s.core p).nstarted = false ∧
      t.passesGuarded sec 0x140018 (co (2 ^ p)) (2 ^ p) ∧ (t.core p).nstarted = true ∧ (t.core p).run ≠ .fenced := by
  unfold State.passesGuarded; decide +kernel


/-! The statements about the register space, the access table and the recorder. -/

theorem witness_RegisterWrites :
    dev.passes sec 0x20024 = true ∧ dev.passes sec 0x130020 = true ∧ dev.rd R.LTS_USER_PATTERN < 2 ^ 64 ∧ (0xE : BitVec 4) ≠ 0xF ∧ dev.tableHolds sec = false ∧ dev.bus.guards = [] ∧
      dev.beatRefusal (classOf sec) .write .secure (regBase + 0x20024) = none ∧
    (let s := linked dev
     s.reaches pfa = true ∧ s.inL1 pfa = false ∧ s.rd R.ACT_CTRL_UPDATE = 0 ∧ s.bus.guards = [] ∧ s.beatRefusal (classOf pfa) .write (worldOf pfa) (regBase + 0x100) = none ∧
       s.wordRefusal pfa (regBase + 0x100) = none ∧ (s.loadWord pfa (regBase + 0x100)).isSome = true ∧ (s.wordRefusal pfa (regBase + 0x20008)).isSome = true) ∧
    (let s := (linked dev).setPort .a { pfReset := true }
     s.reaches pfa = false ∧ s.rd (R.PE_LINK_DL_UP.port .a) = 1) := by
  decide +kernel

theorem witness_EventClear :
    ∀ x ∈ [(0x10014, sec), (0xC, sec), (0x18, sec), (0x40010, sec), (0x50004, sec)], isEvt x.1 = true ∧
      (let s := put dev [(seqAt 0 x.1, 1)]
       s.passes x.2 x.1 = true ∧ let b := if isBanked x.1 then (bankOf x.2).getD 0 else 0
       (0x10004 : Word32).toNat / 65536 = s.rd (seqAt b x.1) ∧ (0x20004 : Word32).toNat / 65536 ≠ s.rd (seqAt b x.1)) := by
  decide +kernel

theorem witness_GuardedWrites :
    (∀ off ∈ guardedRegs.filter (· < 0x80000), dev.passes (.core 0 .secure .m) off = true ∧ ∀ g ∈ dev.bus.guards, g.off ≠ off) ∧
    (dev.passes (.core 0 .secure .m) 0x80000 = true ∧ dev.passes (.core 0 .secure .m) 0x140018 = true) ∧
    (let s := grd dev 0x140018 4 sec
     s.rd (R.GLB_GUARD_EVT_GUARD_FAIL.inst 0) = 0 ∧ s.bus.failTimes.length < 15 ∧ s.bus.guards.map GuardPend.off = [0x140018]) ∧
    (let s := grd dev 0x10008 9 sec
     s.passes sec 0x1000C = true ∧ s.bus.guards.map GuardPend.off = [0x10008] ∧ (0 : Word32).toNat + 9 ≠ 2 ^ 32 - 1) ∧
    (dev.tableHolds sec = false ∧ dev.bus.guards = [] ∧ dev.bus.failTimes = [] ∧
      ∀ x ∈ [(0x20024, 0), (0x20024, 31), (0x10008, 0), (0x10000, 31)], dev.beatRefusal (classOf sec) .write .secure (aliasAddr x.1 x.2) = none) := by
  decide +kernel

theorem witness_WideValues :
    dev.passes sec 0x100 = true ∧ dev.passes pfa 0x100 = false ∧ (linked dev).passes pfa 0x100 = true ∧
    (∀ x ∈ [(0, 0x40 / 4), (3, 2 ^ 20 - 1)], let s : State := { put dev [(R.GLB_WIDE_SEL_OFFSET.inst x.1, x.2)] with bus := { wideReq := [(x.1, some sec)] } }
      tblGet none s.bus.wideReq x.1 = some sec ∧ s.tableHolds sec = false ∧ s.rd (R.GLB_WIDE_SEL_OFFSET.inst x.1) < 2 ^ 20) := by
  decide +kernel

theorem witness_TableUpdates : let m : Requester := .core 0 .secure .m
    (∀ x ∈ [(1, 0, 0), (1, 1, 0), (0, 0, 1), (2, 0, 0)], let s := grd (put dev [(R.ACT_CTRL_LOCK, x.2.1), (R.ACT_CTRL_UPDATE, x.2.2)]) 0x80000 x.1 m
      s.passesGuarded m 0x80000 (co x.1) x.1 ∧ s.rd R.ACT_CTRL_LOCK = x.2.1 ∧ s.rd R.ACT_CTRL_UPDATE = x.2.2 ∧ s.act.held = [] ∧ s.calm) ∧
    (grd (put dev [(R.ACT_CTRL_UPDATE, 1)]) 0x80000 0 m).emptyEntries = [] := by
  unfold State.passesGuarded State.calm; decide +kernel

theorem witness_RefusedAccesses :
    (∀ o ∈ [HeldBy.mem nor, .bus nor], let a : HeldAccess := { cls := 6, world := .normal, origin := o, addr := 0x10000000, kind := .write, data := [1], len := 1 }
     let s : State := { put dev [(R.ACT_CTRL_UPDATE, 1)] with act := { held := [a] } }
     s.rd R.ACT_CTRL_UPDATE = 1 ∧ s.act.held[0]? = some a ∧ (a.origin = .mem (.core 2 .normal .k) ∨ a.origin = .bus (.core 2 .normal .k)) ∧ a.kind = .write ∧ s.calm ∧ s.rd R.ACT_EVT_VIOLATION = 0) ∧
    (Level.k ≠ .m ∧ dev.rd R.ACT_CTRL_UPDATE = 0 ∧ dev.bus.guards = [] ∧ dev.beatRefusal (classOf nor) .write .normal 0x40010008 = none ∧
      dev.rd R.ACT_EVT_VIOLATION = 0) := by
  unfold State.calm; decide +kernel

theorem witness_EventDelivery :
    (∀ src ∈ [0, 511], (∀ p ∈ [Port.a, .b], dev.rd ((R.PE_EVMAP_ENABLE.port p).ix src) = 0) ∧ src ∈ ({ dev with edges := [src] } : State).edges) ∧
    (∀ v ∈ [0, 63], (linked dev).fnExists (.pf .a) = true ∧ v < (linked dev).vectors (.pf .a) ∧ (linked dev).heldFn (.pf .a) = false) ∧
    (let s := put (linked dev) [((R.PE_EVMAP_ENABLE.port .a).ix 2, 1)] |>.setFnSt (.pf .a) { unmasked := 1 }
     mappable 2 = true ∧ s.rd ((R.PE_EVMAP_ENABLE.port .a).ix 2) = 1 ∧ s.rd ((R.PE_EVMAP_ENABLE.port .b).ix 2) = 0 ∧ s.heldFn (.pf .a) = false ∧
       (s.fnSt (.pf .a)).unmasked.testBit (s.rd ((R.PE_EVMAP_VECTOR.port .a).ix 2)) = true) := by
  decide +kernel

/-- An event record. -/
def rec0 : Rec := { kind := 2, source := 33, sev := 1, seq := 7, time := 0, hours := 0, cycles := 1, arg := 0, snaps := [0, 0, 0, 0], snapErr := 0 }

theorem witness_RecordRows :
    (let s : State := { dev with evr := { queue := [rec0] } }
     s.boot.applied = true ∧ s.evr.queue = [rec0] ∧ s.evr.clearing = none ∧ s.emptySlots.length ≠ 0) ∧
    dev.passes sec 0x50040 = true ∧
    (∀ b ∈ [0, 3], let s : State := { put dev [(R.EVR_RD_SEL_SLOT.inst b, 2047)] with evr := { rdReq := [b] } }
      b ∈ s.evr.rdReq ∧ s.rd (R.EVR_RD_SEL_SLOT.inst b) < 2048) ∧
    ((linked dev).passes pfa 0x5010C = true ∧ (BitVec.ofNat 32 (2 ^ 31)).toNat.testBit 31 = true ∧ (linked dev).rd (R.EVR_EXP_STAT_BUSY.inst 2) = 0) ∧
    ((put dev [(R.EVR_EXP_STAT_BUSY.inst 3, 1)]).rd (R.EVR_EXP_STAT_BUSY.inst 3) = 1 ∧ (dev.port .b).d3 = false) ∧
    (let s := grd dev 0x50024 1 sec
     s.passesGuarded sec 0x50024 (co 1) 1 ∧ s.clearCheck 1 ≠ 0 ∧ s.clearCheck 1 < 4) := by
  unfold State.passesGuarded; decide +kernel

/-- Records up to 7 are to be cleared. -/
def clr0 : State := put dev [(R.EVR_NEXT_SEQ_SEQ, 8), (R.EVR_CLR_UPTO_UPTO, 7)]

/-- A clearing that an approval allows: its digest is the one that EVR_CLEAR computes, whatever that is. -/
def clr : State :=
  { grd clr0 0x50024 1 sec with
    keys := { approvals := [(1, some (appr 7 (clr0.clearDigest 5)))] } }

theorem witness_RecordRows_clear : clr.passesGuarded sec 0x50024 (co 1) 1 ∧ clr.clearCheck 1 = 0 ∧ clr.clearCheck 2 = 1 := by
  have hd : clr.clearDigest 5 = clr0.clearDigest 5 := by
    simp only [State.clearDigest, show clr.rd R.EVR_CLR_UPTO_UPTO = 7 by decide +kernel, show clr0.rd R.EVR_CLR_UPTO_UPTO = 7 by decide +kernel]
  have ha : clr.approvalAt 1 = some (appr 7 (clr.clearDigest 5)) := by rw [hd]; rfl
  refine ⟨?_, ?_, ?_⟩
  · unfold State.passesGuarded; decide +kernel
  · have h1 : clr.evr.clearing.isSome = false := by decide +kernel
    have h2 : ¬clr.rd R.EVR_NEXT_SEQ_SEQ ≤ clr.rd R.EVR_CLR_UPTO_UPTO := by decide +kernel
    have hm : (appr 7 (clr.clearDigest 5)).met = true := rfl
    simp only [State.clearCheck, h1, ha, h2]
    simp [appr] at hm ⊢
    simp [hm]
  · decide +kernel


/-! The statements about balls, the start, the life cycle, the test access port and tamper. -/

theorem witness_PowerOnResets : dev.pins.porN = true ∧ dev.lc.busy = none ∧ dev.tmp.killing = false := by decide +kernel

/-- POR_N low, the backup domain valid, the kill word set: a start that finds SCRAP. -/
def off1 : State := { State.reset with tmp := { State.reset.tmp with marker := true }, lc := { State.reset.lc with kill := [BitVec.allOnes 128, 0, 0] } }

/-- A transition that is being programmed. -/
def inTransition (s : State) : State := { s with lc := { s.lc with busy := some { target := 17, tap := false } } }

theorem witness_ResetStarts :
    (off1.pins.porN = false ∧ (inTransition off1).pins.porN = false ∧ (inTransition off1).lc.busy.isSome = true ∧
      ({ off1 with pins := { off1.pins with pwrgd := false } } : State).pins.pwrgd = false) ∧
    (off1.pins.pwrgd = true ∧ off1.lc.busy = none ∧ off1.quiet ∧ (lcDecode off1.lc).1 = 19) ∧
    (let s : State := { off1 with pins := { off1.pins with pwrgd := false }, boot := { off1.boot with held := true } }
     s.pins.pwrgd = false ∧ s.boot.held = true ∧ s.lc.busy = none ∧ s.quiet) ∧
    (dev.pins.pwrgd = true ∧ dev.boot.alive = true ∧ dev.pins.porN = true ∧ dev.boot.held = false ∧ (inTransition dev).lc.busy.isSome = true) ∧
    (let s : State := { dev with tmp := off1.tmp, lc := off1.lc }
     s.quiet ∧ s.lc.busy = none ∧ (lcDecode s.lc).1 ≠ 20 ∧ (∀ v ∈ [0x5A, 0], (grd s 0x20008 v sec).passesGuarded sec 0x20008 (co v) v ∧
       (grd s 0x20008 v sec).quiet) ∧ (grd (inTransition s) 0x20008 0x5A sec).passesGuarded sec 0x20008 (co 0x5A) 0x5A) := by
  unfold State.quiet State.passesGuarded; decide +kernel

theorem witness_StartRows :
    (dev.passes sec 0x20010 = true ∧ (1 : Word32).toNat.testBit 0 = true) ∧
    (let s := (put dev [(R.BOOT_CTRL_FW_READY, 1), (R.MEM_STATUS_STATE.mem 0, 3), (R.MEM_FILL_DONE.mem 0, 1)])
     s.boot.katDone = true ∧ s.rd R.BOOT_CTRL_FW_READY = 1 ∧ s.step12 = true ∧ s.rd R.GLB_STATUS_READY = 0) ∧
    (dev.boot.alive = true ∧ dev.rd R.GLB_STATUS_READY = 0 ∧ dev.boot.limit = false) ∧
    (let s : State := { dev with boot := { dev.boot with keysDrawn := false } }
     s.boot.alive = true ∧ s.rd R.GLB_STATUS_RECOVERY = 0 ∧ s.boot.keysDrawn = false ∧ s.rd R.ENT_STATUS_READY = 0) ∧
    (let s := put dev [(R.GLB_STATUS_READY, 1), (R.BOOT_PT_CMD_LEN, 256)]
     s.passes sec 0x20028 = true ∧ s.rd R.GLB_STATUS_READY = 1 ∧ s.domAnswers 26 = true ∧ s.rd R.BOOT_PT_STAT_BUSY = 0 ∧ s.rd R.BOOT_PT_CMD_LEN ≤ 256 ∧
       s.rd R.BOOT_STATUS_XSPI_SINGLE = 0) ∧
    ({ dev with boot := { dev.boot with ptCmd := some (1, 2, 3, true) } } : State).boot.ptCmd = some (1, 2, 3, true) ∧
    ({ dev with pins := { dev.pins with cmdPulse := true } } : State).pins.cmdPulse = true := by
  decide +kernel

/-- A copy of the image that holds nothing. -/
def img (copyB single readOk : Bool) : ImageRead := { copyB := copyB, sfdpOk := true, size := 0x1000000, single := single, readOk := readOk, bytes := zeros 256 }

/-- The device reads copy A; copy B. -/
def copyA : State := { dev with boot := { dev.boot with applied := false, katDone := false } }
def copyB : State := put copyA [(R.BOOT_STATUS_A_RESULT, 2)]

theorem witness_ImageAndTests :
    (∀ x ∈ [(true, true), (false, true)], copyA.expects (img false x.1 x.2) = true ∧ copyA.tap.extest = false ∧ copyA.copyResult (img false x.1 x.2) ≠ 1 ∧
      copyA.copyResult (img false x.1 x.2) ≠ 4 ∧ copyA.copyResult (img false x.1 x.2) ≠ 5 ∧ copyA.copyResult (img false x.1 x.2) < 16) ∧
    (copyB.expects (img true true true) = true ∧ copyB.copyResult (img true true true) ≠ 1 ∧ (headerBad (img true true true) && copyB.boot.headerBadA) = false) ∧
    (let s : State := { copyB with boot := { copyB.boot with headerBadA := true } }
     s.expects (img true false true) = true ∧ s.copyResult (img true false true) ≠ 1 ∧ (headerBad (img true false true) && s.boot.headerBadA) = true) ∧
    ({ dev with boot := { dev.boot with katDone := false } } : State).boot.applied = true ∧ katFails (1, 8, { test := 1, sub := 0 }) = true := by
  decide +kernel

/-- The state DEV, with the rails in range for 10 ms. -/
def lcDev : State := { put dev [(R.LC_STATE_STATE, 16)] with time := 1000000, pins := { dev.pins with trstN := true } }

theorem witness_LifeCycleRows :
    (∀ x ∈ [(18, 1), (17, 0), (19, 0)], let s := grd lcDev 0x30004 x.1 sec
      let s0 := (s.dropGuard 0x30004).wr R.LC_TARGET_TARGET (x.1 % 32)
      s.passesGuarded sec 0x30004 (co x.1) x.1 ∧ s0.lcCheck false (x.1 % 32) s0.lcToken = x.2) ∧
    lcDev.tmp.inForce = none ∧ dev.lc.busy = none ∧ ({ lcDev with pins := { lcDev.pins with trstN := true } } : State).pins.trstN = true ∧
    (∀ x ∈ [(16, 17, 1), (16, 18, 1), (1, 9, 0), (0, 1, 0)], (put lcDev [(R.LC_STATE_STATE, x.1)] |>.tapSelect 0x10).lcCheck true x.2.1 (leBytes 16 0) = x.2.2) ∧
    ((inTransition dev).lc.busy = some { target := 17, tap := false } ∧ (inTransition dev).boot.held = false ∧ (inTransition dev).boot.heldWarm = false) ∧
    (let full : OtpCopy := { own := BitVec.allOnes 64 }
     let w : OtpWord := { c0 := full, c1 := full, c2 := { own := 1 } }
     let s : State := { put lcDev [(R.GLB_STATUS_READY, 1)] with lc := { words := [(18, w)] } }
     s.lc.busy = none ∧ s.reserveOk = true ∧ s.rd R.GLB_STATUS_READY = 1 ∧ highestWord s.lc.words 18 = 18 ∧ wordSet (tblGet {} s.lc.words 18) = true ∧
       (copyShort (tblGet {} s.lc.words 18).c0 || copyShort (tblGet {} s.lc.words 18).c1 || copyShort (tblGet {} s.lc.words 18).c2) = true) ∧
    ({ dev with tmp := { dev.tmp with killing := true } } : State).tmp.killing = true := by
  unfold State.passesGuarded; decide +kernel

theorem witness_TapInstructions : ({ dev with pins := { dev.pins with trstN := false } } : State).pins.trstN = false ∧ ({ dev with pins := { dev.pins with trstN := true } } : State).pins.trstN = true ∧ (put dev [(R.LC_STATE_STATE, 1)]).testState = true ∧ (put dev [(R.LC_STATE_STATE, 17)]).testState = false := by
  decide +kernel

/-- The debug port is open; pair 0 as given; the enables in effect or not. -/
def dbg (en : Nat) (c : Core) : State :=
  { (put dev [(R.LC_STATE_STATE, 16), (R.WLD_DBG_SET, en)]).setCore 0 c with tap := { ir := 0x20 } }

theorem witness_DebugRows :
    (∀ en ∈ [0, 15], let s := dbg en { run := .running, level := .k }
      s.dbgPort = true ∧ (s.core 0).run = .running ∧ s.waitsAtTable 0 = false ∧ s.ctrlOn (s.worldOfPair 0) = (en == 15)) ∧
    (let s := dbg 15 { run := .halted, level := .k }
     s.dbgPort = true ∧ (s.core 0).run = .halted ∧ (s.core 0).run ≠ .fenced ∧ s.ctrlOn (s.worldOfPair 0) = true ∧ s.worldOfPair 0 = .secure ∧ s.ctrlOn .secure = true) ∧
    (let s := dbg 0 { run := .halted, level := .k, haltWorld := some .secure }
     (s.core 0).run = .halted ∧ (s.core 0).haltWorld = some .secure ∧ s.ctrlOn .secure = false ∧ s.dbgPort = true) := by
  decide +kernel

/-- The backup domain on VBAT alone. -/
def vbat : State := { State.reset with tmp := { State.reset.tmp with marker := true, mainPower := false } }

theorem witness_BackupAndTamper :
    (∀ src ∈ [0, 23], ((put dev [(R.TMP_COND_SRC, 2 ^ src)]).rd R.TMP_COND_SRC).testBit src = true) ∧ vbat.tmp.mainPower = false ∧
    (dev.pins.porN = true ∧ dev.pins.pwrgd = true) ∧ (put dev [(R.TMP_BKP_STATUS_LOOP_EN, 0)]).loopOn 3 = false ∧
    (∀ n ∈ [0, 3], vbat.loopOn n = true ∧ (!vbat.loopBit n) ≠ vbat.loopBit n ∧ (vbat.rd R.TMP_COND_SRC).testBit n = false) ∧
    ({ dev with tmp := { dev.tmp with zeroing := true } } : State).tmp.zeroing = true ∧
    ((put dev [(R.LC_STATE_STATE, 8)]).testState = true ∧ State.reset.boot.alive = false) ∧
    (∀ v ∈ [0xA5, 0xA4], (grd dev 0x40030 v sec).passesGuarded sec 0x40030 (co v) v) ∧ (grd dev 0x40030 0xA5 sec).resumeCheck = 0 ∧
    (let s : State := { grd dev 0x40030 0xA5 sec with tmp := { dev.tmp with purged := true } }
     s.passesGuarded sec 0x40030 (co 0xA5) 0xA5 ∧ s.resumeCheck ≠ 0 ∧ s.resumeCheck < 4) ∧
    ((grd dev 0x40028 1 sec).passesGuarded sec 0x40028 (co 1) 1 ∧ (grd dev 0x40028 1 sec).clearable 1 = 0) ∧
    (∀ src ∈ [0, 23], let s := grd (put dev [(R.TMP_FLAGS_SRC, 2 ^ src), (R.TMP_ACTED_SRC, 2 ^ src)]) 0x40028 (2 ^ src) sec
      s.passesGuarded sec 0x40028 (co (2 ^ src)) (2 ^ src) ∧ s.clearable (2 ^ src) = 2 ^ src) := by
  unfold State.passesGuarded; decide +kernel

theorem witness_AlarmRaised :
    (∀ src ∈ [0, 23], (dev.rd R.TMP_COND_SRC).testBit src = false) ∧ (put dev [(R.TMP_RESP_CODE.ix 2, 0), (R.LC_STATE_STATE, 17)]).respCode 23 ≤ 1 ∧
    (∀ src ∈ [3, 12], backupSource src = true ∧ (vbat.rd R.TMP_COND_SRC).testBit src = false) ∧ vbat.tmp.mainPower = false ∧
    (dev.boot.alive = true ∧ dev.tmp.mainPower = true ∧ dev.tmp.inForce = none) ∧
    (∀ src ∈ [0, 23], (put dev [(R.TMP_RESP_CODE.ix 0, 0), (R.TMP_RESP_CODE.ix 2, 0)]).respCode src ≤ 1) ∧
    (∀ c ∈ [4, 5], (put dev [(R.TMP_RESP_CODE.ix 0, c)]).respCode 0 = c) ∧ (put dev [(R.LC_STATE_STATE, 17)]).testState = false := by
  decide +kernel


/-! The statements about PCI Express and the queue pairs. -/

/-- Port A's link is up; its VF Enable covers VF 1 and VF 2, of which VF 1 is in state `st` with two queue pairs. -/
def vfs (st : Nat) : State :=
  let s := put (linked dev) [(R.VFS_STATE_STATE.vf .a 1, st), (R.VFS_RES_QP_COUNT.vf .a 1, 2), (R.VFS_RES_VEC_COUNT.vf .a 1, 1), (R.VFS_OWNER_OWNER.vf .a 1, 5)]
  (s.setPort .a { s.portA with vfEnable := true, numVfs := 2 }).setVf .a 1 { vectors := 1 }

/-- A queue pair in service. -/
def qp0 : Qp := { enabled := true, sqAddr := 0x10000000000, cqAddr := 0x20000000000, sqLog2 := 4, cqLog2 := 4, sqTail := 1, cqTail := 1 }

/-- A queue pair of a function, in service. -/
def withQp (s : State) (f : Fn) (q : Nat) (x : Qp := qp0) : State := s.setQp f q x

theorem witness_ConfigurationRequests : ∀ x ∈ [(Fn.pf .a, 0), (.pf .a, 4092), (.vf .a 2, 0)],
    (vfs 1).fnExists x.1 = true ∧ x.2 % 4 = 0 ∧ x.2 < 4096 ∧ (vfs 1).boot.cfgOpen = true ∧
      ({ vfs 1 with boot := { (vfs 1).boot with cfgOpen := false } } : State).fnExists x.1 = true := by
  decide +kernel

theorem witness_PortRows :
    (let s := linked dev
     s.pfAlive .a = true ∧ s.boot.cfgOpen = true ∧ s.rd R.GLB_STATUS_RECOVERY = 0 ∧ s.portA.vfEnable = false ∧ s.portA.resetKind = 0 ∧ 64 ≤ s.maxVf .a ∧
      s.rd (R.PE_LINK_DL_UP.port .a) = 1 ∧ s.rd (R.PE_LINK_L1.port .a) = 0 ∧ linkFits 5 4 = true ∧ s.rd (R.PE_LINK_SPEED.port .a) ≠ 5 ∧ s.portA.d3 = false ∧
      s.pins.perstNA = true) ∧
    ((vfs 1).portA.vfEnable = true ∧ (vfs 1).portA.resetKind = 0 ∧ 1 ∈ (vfs 1).vfsOf .a) ∧
    (∀ st ∈ [0, 1], (vfs st).vfExists .a 1 = true ∧ (vfs st).rd (R.VFS_STATE_STATE.vf .a 1) = st) ∧
    (∀ k ∈ [1, 4], ((linked dev).setPort .a { resetKind := k }).portA.resetKind ≠ 0) ∧
    (∀ st ∈ [2, 3], (vfs st).portA.resetKind = 0 ∧ (vfs st).dsp.inflight = [] ∧ (vfs st).rd (R.VFS_STATE_STATE.vf .a 1) = st) ∧
    (dev.pins.perstNB = false ∧ dev.boot.alive = true ∧ (dev.setPort .b { training := true }).portB.training = true) ∧
    ((linked dev).setPort .a { d3 := true, held := [.msix (.pf .a) 0] }).portA.d3 = true := by
  decide +kernel

/-- The normal-world queue pair 0 is bound. -/
def bound : State := put dev [(R.WLD_SRAM_WM_WM, 0x60), (R.WLD_NQ_BIND_BOUND.ix 0, 1), (R.WLD_NQ_BIND_POOL_QP.ix 0, 8)]

theorem witness_QueuePairRows :
    (∀ x ∈ [(linked dev, Fn.pf .a, 0), (linked dev, .pf .a, 3), (vfs 1, .vf .a 1, 1), (bound, .nw, 63)], let s := withQp x.1 x.2.1 x.2.2
      x.2.2 < doorbells x.2.1 ∧ (x.2.1 ≠ .nw → s.rd (R.PE_LINK_L1.port x.2.1.port) = 0) ∧ s.doorbellDrop x.2.1 x.2.2 = none ∧
      s.passes (fnRequester x.2.1) (doorbellOff x.2.1 x.2.2 true) = true ∧ s.passes (fnRequester x.2.1) (doorbellOff x.2.1 x.2.2 false) = true ∧
      (s.qp x.2.1 x.2.2).enabled = true ∧ (x.1.qp x.2.1 x.2.2).enabled = false ∧
      (∀ i ∈ [0, 15], i % 4096 < 2 ^ (s.qp x.2.1 x.2.2).sqLog2) ∧ 2 ^ (s.qp x.2.1 x.2.2).sqLog2 ≤ 16 ∧
      (∀ i ∈ [0, 1], (i + 2 ^ qp0.cqLog2 - qp0.cqHead) % 2 ^ qp0.cqLog2 ≤ (qp0.cqTail + 2 ^ qp0.cqLog2 - qp0.cqHead) % 2 ^ qp0.cqLog2)) ∧
    (let s := ((put (withQp (linked dev) (.pf .a) 0) [(R.PE_LINK_L1.port .a, 1)]).setPort .a { l1Held := [busWrite pfa (regBase + doorbellOff (.pf .a) 0 true) 2] })
     s.rd (R.PE_LINK_L1.port .a) = 1 ∧ s.reaches pfa = true ∧ (s.qp (.pf .a) 0).enabled = true ∧ (2 : Word32).toNat % 4096 < 2 ^ (s.qp (.pf .a) 0).sqLog2 ∧
       (s.wr (R.PE_LINK_L1.port .a) 0).passes (fnRequester (.pf .a)) (doorbellOff (.pf .a) 0 true) = true ∧
       s.portA.l1Held = [busWrite (fnRequester (.pf .a)) (regBase + doorbellOff (.pf .a) 0 true) (2 : Word32).toNat]) ∧
    (∀ x ∈ [(linked dev, Fn.pf .a, 3), (vfs 1, .vf .a 1, 0), (bound, .nw, 0)],
      let s := put x.1 ([(R.QZ_CFG_SQ_LOG2.qz x.2.1 x.2.2, 4), (R.QZ_CFG_CQ_LOG2.qz x.2.1 x.2.2, 12), (R.QZ_CFG_COAL_COUNT.qz x.2.1 x.2.2, 1)] ++
        if x.2.1 = .nw then [(R.QZ_SQ_ADDR_LO_ADDR.qz x.2.1 x.2.2, 0x10600), (R.QZ_CQ_ADDR_LO_ADDR.qz x.2.1 x.2.2, 0x10640)] else [])
      hasQz x.2.1 x.2.2 = true ∧ s.passes (fnRequester x.2.1) (qzBase x.2.1 x.2.2 + 0x14) = true ∧ s.qzReached x.2.1 x.2.2 = true ∧
      s.rd (R.QZ_CTRL_ENABLE.qz x.2.1 x.2.2) = 0 ∧ (s.qp x.2.1 x.2.2).enabled = false ∧ s.qzCheck x.2.1 x.2.2 = 0 ∧ x.1.qzCheck x.2.1 x.2.2 ≠ 0) ∧
    (let s := withQp (linked dev) (.pf .a) 0
     s.qzReached (.pf .a) 0 = true ∧ s.passes (fnRequester (.pf .a)) (qzBase (.pf .a) 0 + 0x14) = true ∧ s.qpBusy (.pf .a) 0 = false) ∧
    (let s := withQp ((linked dev).setFnSt (.pf .a) { unmasked := 1 }) (.pf .a) 0 { qp0 with unsignalled := 1, coalTime := 10, coalCount := 2 }
     (s.qp (.pf .a) 0).enabled = true ∧ 0 < (s.qp (.pf .a) 0).unsignalled ∧ 0 < (s.qp (.pf .a) 0).coalTime ∧ s.heldFn (.pf .a) = false ∧ (s.fnSt (.pf .a)).unmasked.testBit (s.qp (.pf .a) 0).vector = true) := by
  decide +kernel

/-! The statements about the commands of the Evolin protocol. -/

/-- The handles of owner 5's key and context of an index. -/
def hk (cls i : Nat) : Nat := handleOf 5 cls 1 i
def hc (i : Nat) : Nat := handleOf 5 0x3F 1 i

/-- The attributes of a key of owner 5. -/
def attr5 (i alg cls usage plain : Nat) : Attr := { alg := alg, usage := usage, owner := 5, cls := cls, gen := 1, index := i, secretLen := plain, kflags := 1 }

/-- A key of owner 5, in slot 100 + `i`, and its slot. -/
def key5 (i alg cls usage : Nat) (plain : Nat := 32) : Nat × Option Key := (keyId 5 i, some { attr := attr5 i alg cls usage plain, loc := .slot (100 + i) })
def slot5 (i alg cls usage : Nat) (plain : Nat := 32) : Nat × Option Slot := (100 + i, some (mkSlot (zeros 128) (zeros plain) (attr5 i alg cls usage plain) (100 + i) (.key 5 i)))

/-- A context of VF 1. -/
def ctx5 (kind alg : Nat) : Ctx := { fn := .vf .a 1, owner := 5, kind := kind, alg := alg, gen := 1, count := 0, absorbed := [], key := zeros 32, iv := zeros 12, tagLen := 16 }

/-- A service in operation: PF and VF 1 of port A with a queue pair each that has one entry to fetch, VF 2 unprovisioned, owner 5 with seven keys, VF 1 with three contexts, one control queue, every unit idle. -/
def srv : State :=
  let s := put (vfs 1) ([(R.GLB_STATUS_READY, 1), (R.ENT_STATUS_READY, 1), (R.DSP_CQ_CFG_ENABLE.ix 0, 1), (R.CCS_PAIR_SELFTEST_OK.ix 0, 1),
    (R.DSP_CQ_CFG_LOG2.ix 0, 4), (R.DSP_CQ_HBASE_ADDR.ix 0, 0x200000), (R.DSP_CQ_RBASE_ADDR.ix 0, 0x804000), (R.WLD_SRAM_WM_WM, 0x60),
    (R.MEM_STATUS_STATE.mem 0, 3), (R.MEM_FILL_DONE.mem 0, 1), (R.MEM_CFG_CAP_GIB.mem 0, 8),
    (R.VFS_SLOTS_LIMIT.vf .a 1, 100), (R.VFS_OBJ_LIMIT_LIMIT.vf .a 1, 100), (R.MEM_OBJ_CAP_CAP, 100), (R.WLD_DDR_WM_WM, 4)] ++
    ([Pool.lattice, .hash, .bignum, .code, .sym].flatMap fun p => (poolCapacity p, 2) :: ((List.range (poolSize p)).map fun u => (unitState p u, 1))))
  let s := (s.setFnSt (.pf .a) { version := 0x103, granted := 0x7F, unmasked := 1 }).setFnSt (.vf .a 1) { version := 0x103, granted := 0x7F, unmasked := 1 }
  let s := withQp (withQp s (.pf .a) 0) (.vf .a 1) 0
  { s.setCore 0 { run := .running } with
    keys := { owners := [(5, some { own1 with defn := { own1.defn with policy := 0xFFF2 } })], approvals := [(1, some (appr 4 []))]
              keys := [key5 1 0x0101 2 uDecaps, key5 2 0x0201 2 uSign, key5 3 0x0902 1 (31 + uMac + uUnwrap), key5 4 0x0C01 0xC uDerive,
                       key5 5 0x0703 8 uAgree, key5 6 0x0B01 0xC uMac, key5 7 0x0101 3 uEncaps 800]
              slots := [slot5 1 0x0101 2 uDecaps, slot5 2 0x0201 2 uSign, slot5 3 0x0902 1 (31 + uMac + uUnwrap), slot5 4 0x0C01 0xC uDerive,
                        slot5 5 0x0703 8 uAgree, slot5 6 0x0B01 0xC uMac, slot5 7 0x0101 3 uEncaps 800] }
    dsp := { ctxs := [(1, some (ctx5 1 0x0A01)), (2, some (ctx5 2 0x0B01)), (3, some (ctx5 3 0x0902))] } }

/-- A submission entry with direct buffers. -/
def ent (op plen : Nat) (key : Nat := 0) (inLen outLen : Nat := 0) (params : List Byte := []) : List Byte :=
  fit 64 (leBytes 1 op ++ leBytes 1 plen ++ leBytes 2 7 ++ leBytes 2 3 ++ zeros 2 ++ leBytes 8 key ++ leBytes 8 0x10000 ++ leBytes 4 inLen ++ leBytes 4 outLen ++
    leBytes 8 0x20000 ++ fit 24 params)

/-- What host memory holds. -/
def hd (n : Nat) : HostData := { input := some (zeros n) }

/-- The turn to be fetched from has come to a function. -/
def turn (s : State) (fn : Fn) : State := { s with dsp := { s.dsp with fetchFn := tblPut 0 [] fn.port.num fn.id } }

/-- What CommandsComplete asks of a control-plane command besides: a queue takes it, and nothing stands in the way of its handover. -/
def handed (c : Cmd) (u : State) : Bool :=
  controlOp c.opcode == false ||
    (u.pickQueue == some 0 && u.handoverAhead c == false && u.cmd c.id == some c && u.takesHandover c 0 &&
      (c.opcode != 0x15 || (u.rd (poolCapacity .lattice) == 0 && u.rd (poolCapacity .bignum) == 0 && u.eng.regrowth.isNone)))

/-- It does so. -/
theorem handed_serves {c : Cmd} {u : State} (h : handed c u = true) (hc : controlOp c.opcode = true) :
    let d : Cmd := { c with stage := .handed 0 (u.dsp.nextTag % 65536) }
    u.pickQueue = some 0 ∧ u.handoverAhead c = false ∧ (u.handOver c 0).cmd c.id = some d ∧ (u.handOver c 0).rd R.ACT_CTRL_UPDATE = 0 ∧
      (u.handOver c 0).servable d = true := by
  simp only [handed, hc, Bool.or_eq_true, Bool.and_eq_true, beq_iff_eq, bne_iff_ne, false_or, Option.isNone_iff_eq_none,
    Bool.true_eq_false] at h
  obtain ⟨⟨⟨⟨h1, h2⟩, h3⟩, h4⟩, h5⟩ := h
  obtain ⟨k1, k2, k3⟩ := State.handOver_takes h4 h3
  refine ⟨h1, h2, k1, (k2 (by decide)).1, ?_⟩
  unfold State.servable
  rcases h5 with h5 | ⟨⟨h5, h6⟩, h7⟩
  · simp [show ({ c with stage := .handed 0 (u.dsp.nextTag % 65536) } : Cmd).opcode = c.opcode from rfl, h5]
  · simp only [State.unitReady, State.poolGone, (k2 (by decide)).2, k3, h5, h6, h7]
    simp

/-- The premises of CommandsComplete hold of one entry. -/
def comesTo (s : State) (fn : Fn) (op plen : Nat) (key inLen outLen : Nat) (params : List Byte) (mode : Nat) : Bool :=
  let e := ent op plen key inLen outLen params
  let h : HostData := { input := some (fit inLen (zeros 5 ++ leBytes 1 mode)) }
  match (turn s fn).arrives fn 0 e h with
  | some (c, u) => handed c u && leAt e 0 1 == op && leAt (h.input.getD []) 5 1 == mode
  | none => false

/-- The same of the service in operation. -/
def comes (fn : Fn) (op plen : Nat) (key inLen outLen : Nat) (params : List Byte) (mode : Nat := 0) : Bool :=
  comesTo srv fn op plen key inLen outLen params mode

/-- A service whose lattice engines and Tallow tiles are all gone. -/
def spent : State := put srv [(poolCapacity .lattice, 0), (poolCapacity .bignum, 0)]

def vf1 : Fn := .vf .a 1

theorem witness_commands_general :
    [comes (.pf .a) 0x02 0 0 0 64 [] , comes vf1 0x04 24 0 0 0 ([1, 4, 4, 0, 1, 0, 0, 0] ++ leBytes 8 4096 ++ leBytes 8 8192) ,
    comes vf1 0x06 0 (hc 1) 0 556 [] , comes vf1 0x07 0 0 556 0 [] , comes vf1 0x03 4 0 0 0 [0, 0, 9, 0] , comes vf1 0x03 4 (hc 1) 0 0 [0, 1, 0, 0] ,
    comes vf1 0x60 0 0 0 32 [] , comes (.pf .a) 0x7D 16 0 0 0 ([1, 1, 9] ++ zeros 5 ++ leBytes 8 4096) , comes (.pf .a) 0x7D 16 0 0 0 [1] ,
    comes (.pf .a) 0x7F 24 0 0 0 [2, 1, 1, 1, 5]].all id = true := by
  decide +kernel

theorem witness_commands_keys :
    [comes vf1 0x10 8 0 0 0 [1, 0xC, 64, 0, 0, 0, 32, 0] , comes vf1 0x11 8 0 100 0 [] , comes vf1 0x12 12 (hk 1 3) 0 200 [] ,
    comes vf1 0x13 0 (hk 1 3) 0 0 [] , comes vf1 0x14 12 (hk 0xC 4) 0 0 [1, 0, 1, 0xC, 64, 0, 0, 0, 32, 0, 0, 0] , comesTo spent vf1 0x15 0 (hk 2 2) 32 3565 [] 0].all id = true := by
  decide +kernel

theorem witness_commands_asymmetric :
    [comes vf1 0x20 12 (hk 3 7) 0 800 [] , comes vf1 0x21 12 (hk 2 1) 768 32 [] , comes vf1 0x22 12 (hk 8 5) 32 32 [] , comes vf1 0x30 8 (hk 2 2) 10 2420 [] ,
    comes vf1 0x31 16 0 4000 0 (zeros 8 ++ leBytes 2 2420 ++ leBytes 2 0x0201 ++ leBytes 4 1312)].all id = true := by
  decide +kernel

theorem witness_commands_contexts :
    [comes vf1 0x40 4 0 0 0 [1, 0xA] , comes vf1 0x41 0 (hc 1) 3 0 [] , comes vf1 0x42 8 (hc 1) 3 32 (leBytes 8 3) ,
    comes vf1 0x43 12 (hc 1) 35 0 (leBytes 8 3 ++ leBytes 2 32) , comes vf1 0x48 8 (hk 0xC 6) 0 0 [1, 0xB] , comes vf1 0x49 0 (hc 2) 3 0 [] ,
    comes vf1 0x4A 8 (hc 2) 3 32 (leBytes 8 3) , comes vf1 0x4B 12 (hc 2) 35 0 (leBytes 8 3 ++ leBytes 2 32) , comes vf1 0x50 24 (hk 1 3) 16 16 [0, 2] ,
    comes vf1 0x51 24 (hk 1 3) 0 0 [0, 16, 0] , comes vf1 0x52 0 (hc 3) 16 16 [] , comes vf1 0x53 8 (hc 3) 32 16 (leBytes 8 16)].all id = true := by
  decide +kernel

theorem witness_commands_owners :
    [comes (.pf .a) 0x70 0 0 100 0 [] , comes (.pf .a) 0x71 4 0 100 100 [9, 0] , comes (.pf .a) 0x71 4 0 100 100 [5, 0] 1 , comes (.pf .a) 0x71 4 0 100 100 [5, 0] 2 ,
    comes (.pf .a) 0x71 4 0 100 100 [5, 0] 3 , comes (.pf .a) 0x72 8 0 32 32 [5, 0, 4, 0] , comes (.pf .a) 0x73 4 0 100 0 [1, 0]].all id = true := by
  decide +kernel

/-- The command of an entry at its engine, and the state it is carried out in. -/
def atEngine (s : State) (fn : Fn) (e : List Byte) : Option (Cmd × State) := (turn s fn).arrives fn 0 e {}

theorem witness_HelloDeleteDestroy :
    ((atEngine srv vf1 (ent 1 24 0 0 64 [1, 0, 1, 3])).map fun x =>
      (leAt x.1.entry 0 1, x.1.helloVersion, x.1.outLen, (x.2.fnWrite vf1 12 x.1.outAddr [] .output).1)) = some (1, some 0x103, 64, true) ∧
    (∀ x ∈ [(srv, false), (withQp srv vf1 1, true)], (atEngine x.1 vf1 (ent 5 4 0 0 0 [1])).map (fun y =>
      (leAt y.1.entry 0 1, y.1.engineDone, (y.2.qp vf1 (y.1.par 0 1)).enabled, y.2.qpBusy vf1 (y.1.par 0 1))) = some (5, false, x.2, false)) ∧
    (∀ x ∈ [(1, 1), (2, 0)], let c : Cmd := { id := 0, fn := .pf .a, qp := 0, entry := ent 0x7E 4 0 0 0 [x.1], stage := .engine }
      c.opcode = 0x7E ∧ srv.noVf c (c.par 0 1) = false ∧ srv.rd (R.VFS_STATE_STATE.vf c.fn.port (c.par 0 1)) = x.2) := by
  decide +kernel

/-- A command of the PF of port A that has been fetched. -/
def cmd0 (op : Nat) (stage : Stage) : Cmd := { id := 0, fn := .pf .a, qp := 0, entry := ent op 0, stage := stage }

theorem witness_Completion :
    (let s := withQp ((linked dev).setFnSt (.pf .a) { unmasked := 1 }) (.pf .a) 0 { qp0 with reserved := 1 }
     let c := cmd0 2 .engine
     c.entry ≠ [] ∧ (s.qp c.fn c.qp).error = false ∧ 0 < (s.qp c.fn c.qp).reserved ∧ (s.qp c.fn c.qp).deleting = false ∧ s.portA.d3 = false ∧ c.opcode ≠ 1 ∧
      (s.qp c.fn c.qp).coalCount ≤ (s.qp c.fn c.qp).unsignalled + 1 ∧ (s.fnSt c.fn).unmasked.testBit (s.qp c.fn c.qp).vector = true ∧
      (writePieces c.fn 12 [(0x20000, 64)] (zeros 64) s).1 = true) ∧
    (let s : State := { put dev [(R.TWN_STATUS_STATE, 4)] with twn := { authed := true, linkUp := true } }
     s.rd R.TWN_STATUS_STATE = 4 ∧ s.twn.authed = true ∧ s.twn.linkUp = true) ∧
    ((put dev [(R.TWN_STATUS_STATE, 6)]).rd R.TWN_STATUS_STATE = 6 ∧ dev.twn.journal.length < 1048576) := by
  decide +kernel

/-- A command of VF 1 on its context of an index. -/
def onCtx (op i : Nat) : Cmd := { id := 0, fn := vf1, qp := 0, entry := ent op 0 (hc i), stage := .engine }

/-- The service with its keyed contexts parked. -/
def parked : State := { srv with dsp := { srv.dsp with ctxs := [(1, some (ctx5 1 0x0A01)), (2, some (srv.parkCtx (ctx5 2 0x0B01)).1), (3, some (srv.parkCtx (ctx5 3 0x0902)).1)] } }

theorem witness_CommandEffects :
    (∀ op ∈ [0x41, 0x42, 0x43], (onCtx op 1).opcode = op ∧ srv.ctxOf (onCtx op 1) = .inl (ctx5 1 0x0A01)) ∧
    (∀ op ∈ [0x49, 0x4A, 0x4B], (onCtx op 2).opcode = op ∧ parked.ctxOf (onCtx op 2) = .inl (ctx5 2 0x0B01)) ∧
    (∀ op ∈ [0x52, 0x53], (onCtx op 3).opcode = op ∧ parked.ctxOf (onCtx op 3) = .inl (ctx5 3 0x0902)) ∧
    (∀ op ∈ [2, 4, 0x13, 0x60, 0x7D], (cmd0 op .engine).opcode = op ∧ (cmd0 op .engine).par 1 1 = 0 ∧ (cmd0 op .engine).qp < 64) := by
  have open' : ∀ op i (x : Ctx), parked.findCtx vf1 0 (hc i) = .inl (srv.parkCtx x).1 → x.keyed = true → x.wrapIv = [] ∧ x.wrapped = [] ∧ x.wrapTag = [] →
      x.key.length < 65536 → x.iv.length < 65536 → x.custom.length < 65536 → (onCtx op i).key = hc i → parked.ctxOf (onCtx op i) = .inl x := by
    intro op i x h hx hw hk hi hc he
    unfold State.ctxOf
    rw [he, show (onCtx op i).fn = vf1 from rfl, show (onCtx op i).qp = 0 from rfl, h]
    simp only [State.unpark_park (s := srv) (t := parked) hx hw hk hi hc rfl]
  refine ⟨by decide +kernel, ?_, ?_, by decide +kernel⟩
  · intro op h
    exact ⟨by revert op; decide +kernel, open' op 2 _ rfl rfl ⟨rfl, rfl, rfl⟩ (by decide) (by decide) (by decide) (by revert op; decide +kernel)⟩
  · intro op h
    exact ⟨by revert op; decide +kernel, open' op 3 _ rfl rfl ⟨rfl, rfl, rfl⟩ (by decide) (by decide) (by decide) (by revert op; decide +kernel)⟩

/-- A context of another boot, whose tag does not authenticate. -/
def foreignCtx : Ctx := { ctx5 2 0x0B01 with key := [], iv := [], wrapTag := zeros 17 }

theorem witness_CommandEffects_foreign :
    let s : State := { srv with dsp := { srv.dsp with ctxs := [(2, some foreignCtx)] } }
    s.findCtx vf1 0 (hc 2) = .inl foreignCtx ∧ s.unparkCtx foreignCtx = none ∧ ctxOp 0x49 = true := by
  refine ⟨rfl, ?_, rfl⟩
  unfold State.unparkCtx
  have h : ∀ k n a c, gcmOk k n a c (zeros 17) = false := by
    intro k n a c
    simp only [gcmOk, beq_eq_false_iff_ne]
    intro h
    have := congrArg List.length h
    simp [gcmTagOf, xorBytes, aesEnc_length, zeros] at this
    omega
  simp only [show foreignCtx.wrapTag = zeros 17 from rfl, h]
  rfl

/-- The state in which the dispatcher may fetch one entry of the PF. -/
def fetch0 : State := withQp ((put (linked dev) [(R.GLB_STATUS_READY, 1)]).setFnSt (.pf .a) { version := 0x103, granted := 0x7F }) (.pf .a) 0

/-- The entry of a command whose input lies in a list. -/
def listEnt : List Byte := fit 64 (leBytes 1 0x73 ++ leBytes 1 4 ++ leBytes 2 7 ++ zeros 12 ++ leBytes 8 0x10000 ++ leBytes 4 100 ++ zeros 12 ++ [1, 0])

/-- A segment that leads to another. -/
def seg0 : SgSegment := { addr := 0x10000, entries := [{ addr := 0x11000, len := 0, flags := 1 }] }

theorem witness_CommandStages :
    (fetch0.mayFetch (.pf .a) 0 = true ∧ fetch0.dsp.inflight = [] ∧ fetch0.eng.heldFor = [] ∧ fetch0.rd R.ACT_CTRL_UPDATE = 0) ∧
    (let s := put fetch0 [(R.DSP_CQ_CFG_ENABLE.ix 0, 1), (R.CCS_PAIR_SELFTEST_OK.ix 0, 1), (R.ENT_STATUS_READY, 1)] |>.setCore 0 { run := .running }
     let c : Cmd := { id := s.dsp.nextId, fn := .pf .a, qp := 0, entry := listEnt, stage := .held }
     let s1 := s.takeEntry (.pf .a) 0
     let s2 : State := { s1 with dsp := { s1.dsp with inflight := [c] } }
     listEnt.length = 64 ∧ s2.checkOpcode c = 0 ∧ s2.checkService c = 0 ∧ c.random = false ∧
      (s2.setCmd { c with stage := .lists }).checkFields { c with stage := .lists } = none ∧ ({ c with stage := .lists } : Cmd).walk = .inl (.more 0x10000) ∧
      (let c : Cmd := { c with stage := .lists }
       let s3 : State := { s1 with dsp := { s1.dsp with inflight := [c] } }
       let d : Cmd := { c with inSegs := c.inSegs ++ [seg0] }
       c.wants = some seg0.addr ∧ c.wantsIn = true ∧ s3.tmp.due = [] ∧ c.whole = false ∧ ((s3.setCmd d).fnReads c.fn (segReads [seg0])).checkFields d = none ∧ d.walk = .inl (.more 0x11000))) ∧
    (let c : Cmd := { cmd0 0x13 .body with fn := vf1, entry := ent 0x13 0 (hk 1 9) }
     let s : State := { srv with dsp := { srv.dsp with inflight := [c] } }
     s.cmd c.id = some c ∧ c.bodyOk = none ∧ s.rd R.ACT_CTRL_UPDATE = 0 ∧
      (let d : Cmd := { c with bodyOk := some [.flips 1] }
       (s.setCmd d).goesOn d = true ∧ ((s.setCmd d).stageBody d).2 = false)) ∧
    (let c : Cmd := { cmd0 0x40 .waiting with fn := vf1, pool := 2, entry := ent 0x40 4 0 0 0 [1, 0xA] }
     let s : State := { put srv [(R.VFS_RES_WEIGHT.vf .a 1, 1)] with dsp := { inflight := [c] } }
     (s.nextGrant (poolOf 1)).isSome = true) ∧
    (let c : Cmd := { cmd0 0x40 .input with fn := vf1, unit := some (1, 4), entry := ent 0x40 4 0 3 0 [1, 0xA] }
     let s : State := { srv with dsp := { inflight := [c] } }
     s.dsp.inflight = [c] ∧ c.data = none ∧ c.inLen ≠ 0 ∧ c.fn ≠ .nw ∧ c.digest = none ∧ c.unit.isSome = true ∧ c.whole = false ∧ c.engineDone = false ∧
      controlOp c.opcode = false ∧ c.opcode ∉ [1, 5, 0x60]) ∧
    (let c : Cmd := { cmd0 0x40 .engine with fn := vf1, unit := some (1, 4), entry := ent 0x40 4 0 3 0 [1, 0xA] }
     let s : State := { srv with dsp := { inflight := [c] } }
     s.cmd c.id = some c ∧ c.preHash = false ∧ s.clearing c = false ∧ c.opcode ∉ [1, 5, 0x60] ∧ (s.setCmd { c with engineDone := true }).goesOn { c with engineDone := true } = true) := by
  decide +kernel

/-- Control queue 0 is configured in secure SRAM, a command waits to be handed to it. -/
def cq (enable : Nat) : State :=
  let s := put srv [(R.WLD_SRAM_WM_WM, 0x60), (R.DSP_CQ_CFG_ENABLE.ix 0, enable), (R.DSP_CQ_CFG_LOG2.ix 0, 4)]
  { s with dsp := {} }

theorem witness_ControlQueues :
    (let c := cmd0 0x70 .engine
     let s : State := { srv with dsp := { srv.dsp with inflight := [c] } }
     s.cmd c.id = some c ∧ s.pickQueue = some 0 ∧ c.waitsHandover = true ∧ s.rd R.ACT_CTRL_UPDATE = 0 ∧ s.handoverAhead c = false ∧ s.rd (R.DSP_CQ_CFG_LOG2.ix 0) ≤ 10 ∧
       s.takesHandover c 0 = true) ∧
    ((cq 0).calm ∧ (cq 0).passes sec 0xC0108 = true ∧ (cq 0).passes sec 0xC0128 = true ∧ (cq 0).passes sec 0xC0114 = true ∧ (cq 0).passes sec 0xC0134 = true ∧
      (cq 0).rd (R.DSP_CQ_CFG_ENABLE.ix 0) = 0) ∧
    ((cq 1).rd (R.DSP_CQ_CFG_ENABLE.ix 0) = 1 ∧ (cq 1).ringSize 0 = 16 ∧ (cq 1).passes sec 0xC0114 = true ∧ (cq 1).rd (R.DSP_CQ_RHEAD_HEAD.ix 0) = 0 ∧ (cq 1).calm) ∧
    (let c : Cmd := { cmd0 0x13 (.handed 0 7) with id := 3 }
     let s : State := { srv with dsp := { srv.dsp with inflight := [c] } }
     let e := leBytes 2 7 ++ zeros 30
     (s.dsp.inflight.find? fun x => x.stage == .handed 0 (leAt e 0 2)) = some c ∧ leAt e 0x1C 4 ≤ c.outLen ∧ s.dmaIn 13 .secure (ddrBase + leAt e 0x18 4) (leAt e 0x1C 4) = ([], true, s)) ∧
    (srv.approvalAt 1).isSome = true := by
  unfold State.calm; decide +kernel

/-! The statements about DDR5, the key store, Spawn and the engines. -/

/-- Channel DA of `gib` GiB in a state, its zero-fill in progress. -/
def ddr (st gib : Nat) : State := put dev [(R.MEM_STATUS_STATE.mem 0, st), (R.MEM_CFG_CAP_GIB.mem 0, gib), (R.WLD_DDR_WM_WM, 4)]

theorem witness_MemoryChannels :
    ((ddr 1 0).rd (R.MEM_STATUS_STATE.mem 0) = 1 ∧ trainingFits 4 8 = true ∧ trainingFits 0 128 = true) ∧
    ((ddr 2 8).rd (R.MEM_STATUS_STATE.mem 0) = 2 ∧ ((ddr 2 8).chan 0).sweep < (ddr 2 8).chanBlocks 0 ∧ ((ddr 2 8).chan 0).ooo = [] ∧ ((ddr 2 8).chan 0).heldFill = [] ∧
      (ddr 2 8).tmp.due = []) ∧
    (∀ x ∈ [(0, false), (1023, false), (5, true)], let s := (ddr 3 8).setChan 0 { sweep := 1, scrubLine := x.1, passDone := x.2, errs := [(7, some .foreign)] }
      s.chanUp 0 = true ∧ s.filledLines 0 = 1024 ∧ (s.chan 0).passDone = x.2 ∧ tblGet none (s.chan 0).locks x.1 = none ∧ s.tmp.due = [] ∧
      s.lineOf (ddrBase + s.lineAddr 0 x.1) = some (0, x.1) ∧ (s.befall 0 x.1 .none).lineRead 0 x.1 = .good ∧
      (s.befall 0 x.1 (.device 4 1)).lineRead 0 x.1 = .corrected 4 ∧ (s.chan 0).replays < 3) ∧
    (let s := put ((ddr 3 8).setChan 0 { replays := 3 }) [(R.TMP_RESP_CODE.ix 1, 0)]
     s.chanUp 0 = true ∧ 3 ≤ (s.chan 0).replays ∧ s.lineOf (ddrBase + 0x40) = some (0, 1) ∧ s.tmp.due = [] ∧ s.respCode 15 ≤ 1) := by
  decide +kernel

/-- Channel DA is filled; its line 1 as given. -/
def filled (e : Option LineErr) : State := (put (ddr 3 8) [(R.MEM_FILL_DONE.mem 0, 1), (R.TMP_RESP_CODE.ix 1, 0)]).setErr 0 1 e

theorem witness_MemoryChannels_lines :
    (∀ off ∈ [0x40, 0x48], ∀ x ∈ [((none : Option LineErr), LineEvent.none, LineRead.good), (none, .device 9 1, .parity), (none, .device 2 7, .corrected 2), (some .foreign, .none, .uncorrectable)],
      let u := befallFrom (ddrBase + off) [x.2.1] (filled x.1)
      u.tableHolds sec = false ∧ u.tmp.due = [] ∧ u.lineOf (ddrBase + off) = some (0, 1) ∧ u.chanUp 0 = true ∧ u.lineRefusal { who := .requester sec, off := off, data := [] } = none ∧
        u.lineRefusal { who := .requester sec, off := off, data := zeros (64 - off % 64) } = none ∧ tblGet none (u.chan 0).locks 1 = none ∧ u.lineFilled 0 64 = true ∧
        u.lineRead 0 1 = x.2.2 ∧ u.tap.extest = false ∧ (filled x.1).respCode 15 ≤ 1) ∧
    (∀ ws ∈ [[], [{ who := .requester sec, off := 0x48, data := [] }]], let s := (filled none).setChan 0 { locks := [(1, some { waiting := ws })] }
      tblGet none (s.chan 0).locks 1 = some { waiting := ws } ∧ s.lineOf (ddrBase + 0x48) = some (0, 1) ∧ s.chanUp 0 = true ∧ s.tmp.due = [] ∧
        s.lineRead 0 1 = .good ∧ s.lineFilled 0 64 = true ∧ s.lineRefusal { who := .requester sec, off := 0x48, data := [] } = none ∧ s.tableHolds sec = false) := by
  decide +kernel

/-- One slot is occupied, by an all-zero secret. -/
def slot0 (p : Nat) : Slot := mkSlot (zeros 128) (zeros 32) { secretLen := 32 } p (.key 5 0)

theorem witness_KeyStoreRows :
    (let s : State := { put dev [(R.ENT_STATUS_READY, 1)] with keys := { slots := [(20, some (slot0 20))] } }
     s.boot.keysDrawn = true ∧ s.rd R.ENT_STATUS_READY = 1 ∧ s.tmp.zeroing = false ∧ s.keys.slots = [(20, some (slot0 20))] ∧ (slot0 20).failing 20 = 0 ∧
       (slot0 20).shareA.length = 128 ∧ (slot0 20).shareB.length = 128) ∧
    (let s : State := { dev with keys := { rederive := [.kek 5], owners := [(5, some own1)], regrown := [4100] } }
     s.ownerAt 5 = some own1 ∧ (({ s with keys := { s.keys with rederive := s.keys.rederive.filter (· != .kek 5) } } : State).restoreSlot).1 = some 4100) := by
  decide +kernel

/-- With every shared slot fenced, none is free. -/
theorem freeSlots_fenced (s : State) (l : List Nat) (hl : (List.range 4096).drop 16 = l) (hf : s.keys.fenced = l) (hr : s.keys.regrown = []) : s.freeSlots = [] := by
  unfold State.freeSlots
  rw [hr, List.append_nil, hl, hf, List.filter_eq_nil_iff]
  intro q hq
  simp [hq]

theorem restoreSlot_fenced (s : State) (l : List Nat) (hl : (List.range 4096).drop 16 = l) (hf : s.keys.fenced = l) (hr : s.keys.regrown = []) :
    s.restoreSlot.1 = none := by
  unfold State.restoreSlot State.pickSlot
  rw [freeSlots_fenced s l hl hf hr, hr]
  rfl

/-- Every slot of a list is fenced, one key waits. -/
def fencedAll (l : List Nat) (r : List DeviceKey) : State := { dev with keys := { rederive := r, fenced := l } }

theorem witness_KeyStoreRows_full : ∃ l, (fencedAll l [.kek 5]).keys.rederive.contains (.kek 5) = true ∧ (fencedAll l []).restoreSlot.1 = none :=
  have ⟨l, hl⟩ : ∃ l, (List.range 4096).drop 16 = l := Exists.intro _ (Eq.refl _)
  ⟨l, rfl, restoreSlot_fenced (fencedAll l []) l hl rfl rfl⟩

/-- Quadrant 3 in a state, `n` quadrants in service. -/
def spawn (st n ready : Nat) : State := put dev [(R.ENT_QSTAT_STATE.ix 3, st), (R.ENT_STATUS_IN_SERVICE, n), (R.ENT_STATUS_READY, ready)]

theorem witness_SpawnRows :
    (let s : State := { spawn 1 1 1 with boot := { dev.boot with katDone := false } }
     s.quad 3 = 1 ∧ s.rd R.ENT_STATUS_READY = 1 ∧ s.boot.katDone = false ∧ s.calm) ∧
    (let s : State := { spawn 1 0 0 with boot := { dev.boot with katDone := false, keysDrawn := false } }
     s.quad 3 = 1 ∧ s.rd R.ENT_STATUS_READY = 0 ∧ s.rd R.ENT_STATUS_FAILED = 0 ∧ s.boot.katDone = false ∧ s.boot.alive = true ∧ s.boot.keysDrawn = false ∧ s.rd R.GLB_STATUS_RECOVERY = 0 ∧ s.calm ∧
       s.keys.fenced = [] ∧ s.keys.reservedMap = []) ∧
    (∀ st ∈ [1, 3], 1 ≤ (spawn st 1 1).quad 3 ∧ (spawn st 1 1).quad 3 ≤ 3 ∧ tblGet 0 (spawn st 1 1).ent.acquired 3 < 10 ∧ (spawn st 1 1).calm ∧
      (∀ n ∈ [1748, 2348], (List.replicate 512 n).length = 512 ∧ (spawn st 1 1).windowFails 3 0 (List.replicate 512 n) = none) ∧
      (List.replicate 512 1747)[511]? = some 1747 ∧ (List.replicate 512 2349)[0]? = some 2349) ∧
    (∀ n ∈ [1, 2, 4], let s : State := { spawn 2 n 1 with boot := { dev.boot with katDone := false } }
      s.quad 3 = 2 ∧ s.rd R.ENT_STATUS_IN_SERVICE = n ∧ s.rd R.ENT_FAIL_INFO_TEST = 0 ∧ s.boot.katDone = false ∧ s.respCode 14 ≤ 1 ∧ s.calm ∧
        ([HealthFail.repetition 101, .proportion 756, .proportion 1024, .balance 0].all (s.healthFails 3 511)) = true) := by
  unfold State.calm; decide +kernel

theorem witness_SpawnRows_words :
    (let c : Cmd := { cmd0 0x60 .drawing with entry := ent 0x60 0 0 0 64 }
     let s : State := { spawn 2 1 1 with dsp := { inflight := [c] } }
     s.rd R.ENT_STATUS_READY = 1 ∧ s.dsp.inflight = [c] ∧ c.stage = .drawing ∧ c.fn ≠ .nw ∧ c.drawn.length + 32 < c.outLen ∧ dev.time % 1000 = 0) ∧
    (∀ len ∈ [0, 4], let s := put (spawn 2 2 1) [(R.ENT_QSTAT_STATE.ix 0, 2), (R.LC_STATE_STATE, 16), (R.WLD_SRAM_WM_WM, 0x60), (R.ENT_CAP_ADDR_ADDR, 0x400000), (R.ENT_CAP_LEN_LEN_KIB, len)]
      let v : Word32 := 0x80000003
      s.passes sec 0x60020 = true ∧ v.toNat.testBit 31 = true ∧ v.toNat % 4 = 3 ∧ s.rd R.ENT_CAP_STAT_BUSY = 0 ∧
        (s.captureCheck 3 (s.rd R.ENT_CAP_ADDR_ADDR * 64) (s.rd R.ENT_CAP_LEN_LEN_KIB * 1024) = 0 ↔ len = 4)) ∧
    (∀ x ∈ [(3, false), (4, true)], let s : State := { put (spawn x.1 1 1) [(R.WLD_SRAM_WM_WM, 0x60)] with ent := { capture := some (3, 0, 0, 0x10000000, 64) } }
     let data := captureData 0 0 [1]
     s.ent.capture = some (3, 0, 0, 0x10000000, 64) ∧ s.rd R.ACT_CTRL_UPDATE = 0 ∧ x.2 = decide (s.quad 3 = 4) ∧ data.length = 64 ∧
       (({ s with ent := { s.ent with capture := none } } : State).dmaOut 12 .secure 0x10000000 data).2.tmp.due = []) := by
  decide +kernel

theorem witness_SpawnRows_failed :
    let s : State := { put (spawn 1 0 0) [(R.ENT_STATUS_FAILED, 1)] with boot := { dev.boot with katDone := false } }
    s.quad 3 = 1 ∧ s.rd R.ENT_STATUS_READY = 0 ∧ s.rd R.ENT_STATUS_FAILED = 1 ∧ s.boot.katDone = false ∧ s.calm := by
  unfold State.calm; decide +kernel

/-- Every unit of every pool serves but the one in the self-test role, unit 0. -/
def units : State :=
  put dev ([Pool.lattice, .hash, .bignum, .code, .sym].flatMap fun p =>
    (poolTesting p, 0) :: ((List.range (poolSize p)).map fun u => (unitState p u, if u = 0 then 3 else 1)))

theorem witness_UnitRows : ∀ p ∈ [Pool.lattice, .hash, .bignum, .code, .sym],
    (let s : State := { units with eng := { passed := [unitKey p 0] } }
     s.boot.katDone = true ∧ s.rd (poolSuspended p) = 0 ∧ (∀ k, k < poolSize p → s.rd (unitSelected p k) = 0) ∧ s.tester p = some 0 ∧
      s.eng.passed.contains (unitKey p 0) = true ∧ s.nextServing p 0 = some 1) ∧
    (units.tester p = some 0 ∧ units.eng.passed.contains (unitKey p 0) = false ∧ units.rd (unitState p 0) = 3 ∧ units.isTesting p 0 = true ∧ units.eng.regrowth = none ∧ units.respCode 20 ≤ 1) ∧
    (let s := put units [(unitSelected p 1, 1)]
     s.rd (unitSelected p 1) = 1 ∧ s.unitBusy p 1 = false ∧ s.rd (unitState p 1) = 1) ∧
    (let u := poolSize p - 1
     units.rd (unitState p u) ≠ 0 ∧ units.rd (unitState p u) ≠ 5) ∧
    (∀ st ∈ [5, 6], let s : State := { put units [(unitState p 1, st)] with eng := { afterClear := [(unitKey p 1, 2)] } }
      tblGet 0 s.eng.afterClear (unitKey p 1) ≠ 0 ∧ tblGet 0 s.eng.afterClear (unitKey p 1) ≠ 100 ∧ s.rd (unitState p 1) = st) := by
  decide +kernel

theorem witness_UnitRows_verdicts : units.calm ∧ (∀ p ∈ [Pool.lattice, .hash, .bignum, .code, .sym], units.verdict p none = true ∧
    (∀ f ∈ [({ test := 1, sub := 0 } : TestFail), { test := 2, sub := 1 }], units.verdict p (some f) = true) ∧
    serviceCause p (match p with | .lattice => 9 | .code => 6 | _ => 12) = true ∧ (put units [(R.ENT_STATUS_FAILED, 1)]).rd (unitState p 0) = 3 ∧
    (put units [(R.ENT_STATUS_FAILED, 1)]).rd R.ENT_STATUS_FAILED = 1) := by
  unfold State.calm; decide +kernel

theorem witness_UnitRows_regrowth : let s : State := { units with eng := { regrowth := some (17, false) } }
    s.eng.regrowth = some (17, false) ∧ 17 < poolSize .lattice ∧ s.calm ∧ s.verdict .lattice none = true ∧ s.verdict .lattice (some { test := 1, sub := 0 }) = true ∧ s.respCode 20 ≤ 1 := by
  unfold State.calm
  decide +kernel

/-! The statements about the Soade link, the twin and the link tests. -/

/-- The image holds a TWIN section with versions 1.0 to 1.2; the link is up, the session is in state `st`. -/
def twin (st : Nat) (authed : Bool) : State :=
  { put dev [(R.TWN_STATUS_STATE, st), (R.TWN_STATUS_VER_MAJOR, 1), (R.TWN_STATUS_VER_MINOR, 2)] with
    cfg := { State.reset.cfg with twinVers := [1, 0, 1, 2] }
    pins := { dev.pins with twPresentN := false }
    twn := { linkUp := true, authed := authed, keyed := authed } }

/-- A frame with the sequence number that is expected. -/
def hdr0 : FrameHdr := { seq := 0 }

theorem witness_FrameChecks : (twin 4 true).inOrder hdr0 ∧ (twin 4 true).twn.linkUp = true ∧ (twin 4 true).twn.recvSeq < ({ seq := 1 } : FrameHdr).seq := by
  unfold State.inOrder; decide +kernel

theorem witness_TwinLinkRows :
    ((twin 5 false).byParity = true ∧ (twin 5 false).pins.twPresentN = false ∧ (twin 5 false).domOn 13 = true ∧ (twin 5 false).inTest 2 = false ∧ (twin 5 false).twn.authed = false ∧
      (twin 5 false).dsp.inflight = []) ∧
    ({ twin 6 false with pins := { (twin 6 false).pins with twRole := true } } : State).lead = true ∧
    ({ twin 1 false with twn := { kept := some (1, 2, []) } } : State).takesPart = true ∧
    ((twin 4 true).twn.authed = true ∧ (twin 4 true).cfg.sideband = false ∧ (twin 4 true).inOrder hdr0) ∧
    (let s : State := { twin 4 true with cfg := { (twin 4 true).cfg with sideband := true } }
     s.cfg.sideband = true ∧ s.boot.applied = true ∧ s.rd R.GLB_STATUS_RECOVERY = 0 ∧ s.twn.authed = true ∧ s.pins.peerFaultIn = false) ∧
    (∀ v ∈ [1, 1 + 2 ^ 17], let s : State := { grd (twin 1 false) 0x120008 v sec with keys := { approvals := [(1, some (appr 8 []))] } }
      s.passesGuarded sec 0x120008 (co v) v ∧ s.rd R.TWN_PAIR_STATUS_BUSY = 0 ∧ s.byParity = true ∧ v.testBit 16 = false ∧ s.approvalAt (v % 65536) = some (appr 8 []) ∧
        s.pairApproval (v % 65536) = 0) ∧
    (let s := grd (put (twin 2 false) [(R.TWN_PAIR_STATUS_BUSY, 1)]) 0x120008 1 sec
     s.passesGuarded sec 0x120008 (co 1) 1 ∧ s.rd R.TWN_PAIR_STATUS_BUSY = 1) := by
  unfold State.passesGuarded State.inOrder; decide +kernel

theorem witness_Handshake :
    (twin 2 false).inOrder hdr0 ∧ (twin 2 false).dsp.inflight = [] ∧
    (((twin 2 false).received hdr0).chooseVersion 0x200 0x201 = none ∧ ((twin 2 false).received hdr0).chooseVersion 0x100 0x1FF = some 0x102 ∧
      (twin 2 false).takesPart = false) ∧
    (let s : State := { twin 2 false with twn := { linkUp := true, peerSerial := some 7 }, keys := { slots := [(0, some (devSlot 0)), (1, some (devSlot 1))] } }
     s.inOrder hdr0 ∧ s.calm ∧ s.twn.peerSerial.isSome = true ∧ s.twn.keyed = false ∧ s.rd R.TWN_STATUS_STATE = 2 ∧ s.keys.reservedMap = [] ∧ (∀ n ∈ [5, 6, 7], s.keys.fenced.contains n = false) ∧ (s.deviceKey 0).isSome = true ∧
       (s.deviceKey 1).isSome = true) := by
  unfold State.inOrder State.calm; decide +kernel

/-- A session that is keyed, with the peer that a kept pairing names. -/
def keyedWith (hash : List Byte) : State := { twin 2 false with twn := { linkUp := true, keyed := true, peerSerial := some 7, kept := some (1, 7, hash) } }

theorem witness_Handshake_auth (im ip : List Byte) :
    (keyedWith (sha384 (im ++ ip))).inOrder hdr0 ∧ ((keyedWith (sha384 (im ++ ip))).received hdr0).peerAccepted (sha384 (im ++ ip)) = true ∧
    ((({ twin 2 false with twn := { linkUp := true, keyed := true } } : State)).received hdr0).peerAccepted (sha384 (im ++ ip)) = false := by
  refine ⟨⟨rfl, rfl, rfl, rfl, rfl⟩, ?_, rfl⟩
  simp [State.peerAccepted, State.received, State.takeAck, keyedWith, hdr0]

/-- A command that waits for `n` acknowledgements. -/
def waits (n : Nat) : Cmd := { cmd0 0x13 (.commit 1) with changes := List.replicate n (.approval 1) }

/-- The secure firmware area lies in DDR5, and nothing there is refused the twin. -/
theorem witness_TwinSession_resync : let s := put (twin 3 true) [(R.WLD_DDR_WM_WM, 1)]
    s.rd R.TWN_STATUS_STATE = 3 ∧ s.rd R.TWN_STATUS_MODE ≠ 1 ∧ s.inOrder hdr0 ∧
      ∀ a, ddrBase ≤ a → a < ddrBase + 0x40000000 → s.beatRefusal 2 .write .secure a = none := by
  refine ⟨by decide +kernel, by decide +kernel, ⟨rfl, rfl, rfl, rfl, rfl⟩, fun a h0 h1 => ?_⟩
  exact State.beatRefusal_open (.inl rfl) (by decide +kernel) (.inl (State.areaOf_staging (by decide +kernel) h0 h1))

theorem witness_TwinSession :
    ((twin 4 true).inOrder hdr0 ∧ (twin 4 true).twn.authed = true ∧ (twin 4 true).twinRestores = true) ∧
    (srv.keyAt 5 3).isSome = true ∧
    (∀ n ∈ [1, 2], let s : State := { twin 4 true with dsp := { inflight := [waits n] } }
      s.commits = [waits n] ∧ (waits n).changes.length = n) ∧
    ((twin 3 true).rd R.TWN_STATUS_STATE = 3 ∧ (twin 3 true).rd R.TWN_STATUS_MODE ≠ 1 ∧ (twin 3 true).inOrder hdr0 ∧ (twin 3 true).twn.sentEnd = false) ∧
    (put (twin 4 true) [(R.CCS_PAIR_SELFTEST_OK.ix 0, 1)]).secureServing = true ∧
    (let k : Key := { attr := attr5 1 0x0101 2 uDecaps 32, loc := .defective }
     let s : State := { twin 4 true with keys := { keys := [(keyId 5 1, some k)] } }
     let s1 := s.received hdr0
     s.keyAt 5 1 = some k ∧ k.loc = .defective ∧ (!false && goesToSlot 2 32 false && !s1.freeSlots.isEmpty) = true ∧
       ((s1.uncount k.counted k.obj.isSome).placeAt k.attr (zeros 32) true k.counted).1 = (0, 0)) := by
  unfold State.inOrder; decide +kernel

theorem witness_LinkTestRows :
    (∀ k ∈ [0, 2, 4], dev.passes sec (0x130000 + 4 * k) = true ∧ dev.inTest k = false ∧ dev.testCheck k = 0) ∧
    (dev.testCheck 3 ≠ 0 ∧ dev.passes sec 0x13000C = true) ∧
    (let s := put dev [(R.LTS_CTRL_STATE.ix 0, 1), (R.LTS_CTRL_TEST.ix 0, 1), (R.LTS_CTRL_CHK.ix 0, 1)]
     s.inTest 0 = true ∧ s.passes sec 0x130000 = true ∧ (s.word 0 0x130000).testBit 0 = true ∧ (∀ l ∈ [0, 3], s.checking l = true ∧ s.rd (R.LTS_LANE_SYNC.ix l) = 0) ∧ s.checking 4 = false ∧
      (put s [(R.LTS_LANE_SYNC.ix 3, 1)]).eyeEligible 3 = true ∧ s.eyeEligible 3 = false ∧ s.passes sec 0x132000 = true ∧ s.rd R.LTS_EYE_RES_BUSY = 0 ∧
      (0x80000003 : Word32).toNat.testBit 31 = true ∧ (0x80000003 : Word32).toNat % 256 = 3) ∧
    ((put dev [(R.LTS_EYE_RES_BUSY, 1)]).rd R.LTS_EYE_RES_BUSY = 1 ∧ dev.eyeBits = 2 ^ 20 ∧ (put dev [(R.LTS_EYE_CTRL_DWELL, 41)]).eyeBits = 2 ^ 40) := by
  decide +kernel

/-! The machine. -/

theorem witness_IdleStep : dev.pending = [] ∧ dev.calm ∧ dev.pins.porN = true ∧ State.reset.pins.porN = false := by unfold State.calm; decide +kernel

theorem witness_StepKeepsCanonical : State.reset.canon = true ∧ dev.canon = true ∧ srv.canon = true := by decide +kernel

theorem witness_StepKeepsCanonical_step : ∃ t, step dev = .next t := by
  exact ⟨_, rfl⟩

/-! Single commands, their results from the spec's examples. -/

/-- What a command leaves, read through `f`. -/
def after {α : Type} (i : Instr) (s : State) (f : State → α) : Option α :=
  match exec i s with
  | .next t => some (f t)
  | _ => none

/-- Example 5-1: PWR_EVT reads 0x002B_0015. -/
def ex51 : State := put dev [(R.PWR_EVT_DOMAIN_LOST, 1), (R.PWR_EVT_GATE_DONE, 1), (R.PWR_EVT_CAP_ACTIVE, 1), (R.PWR_EVT_GATE_DONE.seq, 0x2B)]

theorem test_evt_clear_stale : ex51.word 0 0x10014 = 0x2B0015 ∧ after (.evtClearWrite sec 0x10014 0x002A0005) ex51 (·.word 0 0x10014) = some 0x2B0015 := by
  decide +kernel

theorem test_evt_clear_current : after (.evtClearWrite sec 0x10014 0x002B0015) ex51 (·.word 0 0x10014) = some 0x2B0000 := by decide +kernel

/-- Example 7-2: the SIGN entry. -/
def ex72 : List Byte :=
  [0x30, 0x08, 0x51, 0x00, 0x02, 0x00, 0x00, 0x00, 0x34, 0x12, 0x00, 0x00, 0x07, 0x00, 0x82, 0x0A,
   0x00, 0x00, 0x20, 0x4A, 0x10, 0x00, 0x00, 0x00, 0x05, 0x10, 0x00, 0x00, 0xED, 0x0C, 0x00, 0x00,
   0x00, 0x00, 0x21, 0x4A, 0x10, 0x00, 0x00, 0x00, 0x00, 0x00, 0x05] ++ zeros 21

theorem test_sign_entry :
    let c : Cmd := { id := 0, fn := .vf .a 1, qp := 2, entry := ex72, stage := .lists,
                     inSegs := [{ addr := 0x104A200000, entries := [{ addr := 0x104A220000, len := 5, flags := 0 }, { addr := 0x104A300000, len := 4096, flags := 2 }] }] }
    dev.checkFields c = none ∧ c.walk = .inr (4101, 3309) ∧ c.cid = 0x51 ∧ c.key = handleOf 42 2 7 0x1234 ∧ c.par 2 1 = 5 := by
  decide +kernel

theorem test_sign_completion :
    completionBytes 0x51 0 2 0x19 0 0 0 3309 true = [0x51, 0x00, 0x00, 0x02, 0x19] ++ zeros 19 ++ [0xED, 0x0C, 0, 0, 0, 0, 0, 1] := by decide +kernel

/-- Example 8-1: the complement of PWR_CAP follows its value, 40. -/
theorem test_pwr_cap : after (.pwrCapWrite sec 0xFFFFFFD7) (grd dev 0x10008 40 sec) (fun t => (t.rd R.PWR_CAP_CAP, t.rd (R.GLB_GUARD_EVT_GUARD_FAIL.inst 0))) = some (40, 0) := by
  decide +kernel

theorem test_pwr_cap_wrong : after (.pwrCapWrite sec 0xFFFFFFD8) (grd dev 0x10008 40 sec) (fun t => (t.rd R.PWR_CAP_CAP, t.rd R.GLB_GUARD_INFO_CAUSE)) = some (dev.rd R.PWR_CAP_CAP, 1) := by
  decide +kernel

/-- Example 10-1: an input that straddles the SRAM watermark. -/
theorem test_straddle : let s := put dev [(R.WLD_SRAM_WM_WM, 80)]
    let x := s.nwRead [(0x104FFF80, 256)]
    x.2.1 = false ∧ x.1.take 128 = zeros 128 ∧ x.2.2.word 0 0x80010 = 0x21C := by
  decide +kernel

/-- Example 8-1: ADDI sign-extends its immediate. -/
theorem test_addi : after (.addi r0 3 31 (-41)) (cpu {}) (fun t => (t.gr 0 3).toNat % 2 ^ 32) = some 0xFFFFFFD7 := by decide +kernel

/-- Example 8-1: LUI sets bits 31 to 16. -/
theorem test_lui : after (.lui r0 1 0x4001) (cpu {}) (fun t => (t.gr 0 1).toNat) = some 0x40010000 := by decide +kernel

/-- PRBS7 of ITU-T O.150 from all ones begins FE 04 18 (R501). -/
theorem test_prbs7 : (List.range 24).map (prbsBit 7 6 127) =
    [true, true, true, true, true, true, true, false, false, false, false, false, false, true, false, false,
     false, false, false, true, true, false, false, false] := by decide

/-- A HELLO frame has a header of 24 bytes with TYPE 1 and LEN 32 (Table 21-4). -/
theorem test_frame_header : (frameHeader 1 32 5 7 1).length = 24 ∧ (frameHeader 1 32 5 7 1).take 4 = [1, 1, 32, 0] := by decide

end Sys2Proof.Tests
end

section
/-! The event registers: what a write to one clears, and what it leaves as it is (R104, R105, R135). -/

namespace Sys2Proof.Machine

/-! Keys of register fields. -/

/-- The register file alone decides what a field reads as. -/
theorem State.rd_of_regs {s t : State} (h : t.regs = s.regs) (f : Fld) : t.rd f = s.rd f := by
  simp [State.rd, h]

/-- Fields at different bits of a word never share a key, whatever their words are. -/
theorem Fld.key_ne_of_lsb {f g : Fld} (hf : f.lsb < 64) (hg : g.lsb < 64) (h : f.lsb ≠ g.lsb) : f.key ≠ g.key := by
  unfold Fld.key
  omega

/-- Fields at different offsets never share a key, whatever their banks are. -/
theorem Fld.key_ne_of_off {f g : Fld} (hf : f.lsb < 64) (hg : g.lsb < 64) (hfo : f.off < 0x1000000) (hgo : g.off < 0x1000000)
    (h : f.off ≠ g.off) : f.key ≠ g.key := by
  unfold Fld.key
  omega

/-! The fields of a word. -/

/-- The row that a word is found in is one of the table. -/
theorem rowAt_mem {off : Nat} {rows : List RegRow} {x : RegRow × Nat} (h : rowAt off rows = some x) : x.1 ∈ rows := by
  induction rows with
  | nil => cases h
  | cons r t ih =>
    simp only [rowAt] at h
    split_ifs at h
    · cases h; exact List.mem_cons_self ..
    · exact List.mem_cons_of_mem _ (ih h)
    · cases h; exact List.mem_cons_self ..
    · exact List.mem_cons_of_mem _ (ih h)

/-- No two fields of one register begin at the same bit. -/
def lsbsDistinct (flds : List Fld) : Prop := (flds.map Fld.lsb).Nodup

/-- The fields of a word begin at the bits that the fields of its row begin at. -/
theorem fieldsIn_lsbsDistinct {rows : List RegRow} (h : ∀ r ∈ rows, lsbsDistinct r.flds) (off add : Nat) :
    lsbsDistinct (fieldsIn rows off add) := by
  unfold fieldsIn
  split
  · exact List.nodup_nil
  · next r i hr =>
    have hmap : (r.flds.map fun f => (f.ix i).add add).map Fld.lsb = r.flds.map Fld.lsb := by
      rw [List.map_map]; rfl
    rw [lsbsDistinct, hmap]
    exact h r (rowAt_mem hr)

/-- The fields of any word of the register space begin at different bits. -/
theorem regFields_lsbsDistinct (off : Nat) : lsbsDistinct (regFields off) := by
  unfold regFields fieldsQz
  dsimp only
  split_ifs
  all_goals
    apply fieldsIn_lsbsDistinct
    unfold lsbsDistinct
    decide +kernel

/-- Neither a guarded register nor the word that takes its complement is an event register. -/
theorem guardedRegs_not_isEvt : ∀ g ∈ guardedRegs, isEvt g = false ∧ isEvt (g + 4) = false := by
  decide +kernel

/-! Clearing event bits. -/

@[simp] theorem clearEvts_mem (bank mask : Nat) (fs : List Fld) (s : State) : (clearEvts bank mask fs s).mem = s.mem := by
  induction fs generalizing s with
  | nil => rfl
  | cons f fs ih =>
    rw [clearEvts, ih]
    split <;> rfl

@[simp] theorem clearEvts_cores (bank mask : Nat) (fs : List Fld) (s : State) : (clearEvts bank mask fs s).cores = s.cores := by
  induction fs generalizing s with
  | nil => rfl
  | cons f fs ih =>
    rw [clearEvts, ih]
    split <;> rfl

/-- A field that is no event bit of the register keeps its value. -/
theorem rd_clearEvts_other {bank mask : Nat} {g : Fld} {fs : List Fld} {s : State}
    (h : ∀ f ∈ fs, f.lsb < 16 → g.key ≠ (f.inst bank).key) : (clearEvts bank mask fs s).rd g = s.rd g := by
  induction fs generalizing s with
  | nil => rfl
  | cons f fs ih =>
    rw [clearEvts, ih fun f' hf' => h f' (List.mem_cons_of_mem _ hf')]
    split
    · next hlsb => exact State.rd_wr_other _ _ (h f (List.mem_cons_self ..) hlsb)
    · rfl

/-- An event field keeps the bits that the mask does not name. -/
theorem rd_clearEvts_named {bank mask : Nat} {f : Fld} {fs : List Fld} {s : State} (hd : lsbsDistinct fs) (hf : f ∈ fs) (hlsb : f.lsb < 16) :
    (clearEvts bank mask fs s).rd (f.inst bank) =
      (s.rd (f.inst bank) - Nat.land (s.rd (f.inst bank)) (mask / 2 ^ f.lsb)) % 2 ^ f.width := by
  induction fs generalizing s with
  | nil => cases hf
  | cons g fs ih =>
    obtain ⟨hg, hfs⟩ := List.nodup_cons.mp hd
    have hne : ∀ f' ∈ fs, f'.lsb ≠ g.lsb := fun f' hf' he => hg (he ▸ List.mem_map_of_mem hf')
    rw [clearEvts]
    rcases List.mem_cons.mp hf with rfl | hf
    · rw [if_pos hlsb, rd_clearEvts_other, State.rd_wr_same]
      · rfl
      · exact fun f' hf' h16 => Fld.key_ne_of_lsb (show f.lsb < 64 by omega) (show f'.lsb < 64 by omega) (hne f' hf').symm
    · rw [ih hfs hf]
      split
      · rw [State.rd_wr_other]
        exact Fld.key_ne_of_lsb (show f.lsb < 64 by omega) (show g.lsb < 64 by omega) (hne f hf)
      · rfl

/-- SEQ of the register keeps its value (R105). -/
theorem rd_clearEvts_seqAt (bank mask off : Nat) (fs : List Fld) (s : State) :
    (clearEvts bank mask fs s).rd (seqAt bank off) = s.rd (seqAt bank off) :=
  rd_clearEvts_other fun f _ h => Fld.key_ne_of_lsb (show 16 < 64 by omega) (show f.lsb < 64 by omega) (show 16 ≠ f.lsb by omega)

/-- Clearing event bits changes no other register. -/
theorem clearEvts_keepsRegs (bank mask : Nat) (fs : List Fld) (s : State) :
    s.keepsRegs (clearEvts bank mask fs s) ((fs.filter fun f => f.lsb < 16).map fun f => f.inst bank) := by
  intro g hg
  refine rd_clearEvts_other fun f hf hlsb hkey => hg ?_
  rw [hkey]
  exact List.mem_map_of_mem (List.mem_map_of_mem (List.mem_filter.mpr ⟨hf, decide_eq_true hlsb⟩))

/-! What a clearing does besides: each of these effects is on a word other than the event register. -/

/-- The event registers whose clearing writes a register field: GLB_GUARD_EVT, ACT_EVT, TMP_AEVT0 and TMP_AEVT1. -/
def clearsMore : List Nat := [0x18, 0x8000C, 0x40010, 0x40014]

/-- The fields of `clearsMore` lie at their register's offset. -/
theorem regFields_off_of_clearsMore : ∀ off ∈ clearsMore, ∀ f ∈ regFields off, f.off = off := by
  decide +kernel

/-- A bit of GLB_STATUS either has its value already, or takes it with GLB_EVT.STATUS. -/
theorem State.setStatus_or (s : State) (f : Fld) (v : Nat) (P : State → Prop) (hsame : P s)
    (hset : P ((s.wr f v).setEvtAll R.GLB_EVT_STATUS)) : P (s.setStatus f v) := by
  rw [State.setStatus]
  split
  · exact hsame
  · exact hset

/-- What a clearing can do besides: nothing, empty a counter, free a channel's capture, or bring GLB_STATUS.ALARM up to date. -/
theorem State.cleared_or (s : State) (bank off mask : Nat) (P : State → Prop) (hsame : P s)
    (hguard : off = 0x18 → P (s.wr R.GLB_GUARD_COUNT_COUNT 0)) (hviol : off = 0x8000C → P (s.wr R.ACT_VIOL_COUNT_COUNT 0))
    (hmem : ∀ c v, P (s.setChan c v)) (halarm : off = 0x40010 ∨ off = 0x40014 → P s.alarmLevel) :
    P (s.cleared bank off mask) := by
  rw [State.cleared]
  split
  · next h => exact hguard h.1
  split
  · next h => exact hviol h.1
  split
  · exact hmem ..
  split
  · next h => exact halarm h
  · exact hsame

/-- A field of the alarm event registers keeps its value when GLB_STATUS.ALARM follows them. -/
theorem State.rd_alarmLevel (s : State) {g : Fld} (hl : g.lsb < 64) (ho : g.off = 0x40010 ∨ g.off = 0x40014) :
    s.alarmLevel.rd g = s.rd g := by
  have hne : ∀ f : Fld, f.lsb < 64 → f.off < 0x40010 → g.key ≠ f.key := fun f hf hfo =>
    Fld.key_ne_of_off hl hf (by omega) (by omega) (by omega)
  have hset : ∀ (u : State) (k : Nat), (u.setEvt (R.GLB_EVT_STATUS.inst k)).rd g = u.rd g := fun u k =>
    (u.setEvt_frame (R.GLB_EVT_STATUS.inst k) 0).2 g (by
      simp only [List.map_cons, List.map_nil, List.mem_cons, List.not_mem_nil, or_false, not_or]
      exact ⟨hne (R.GLB_EVT_STATUS.inst k) (show 1 < 64 by omega) (show 0xC < 0x40010 by omega),
        hne (R.GLB_EVT_STATUS.inst k).seq (show 16 < 64 by omega) (show 0xC < 0x40010 by omega)⟩)
  rw [State.alarmLevel]
  refine s.setStatus_or _ _ (fun t => t.rd g = s.rd g) rfl ?_
  rw [State.setEvtAll, hset, hset, hset, hset, State.rd_wr_other _ _ (hne R.GLB_STATUS_ALARM (by decide) (by decide))]

@[simp] theorem State.alarmLevel_mem (s : State) : s.alarmLevel.mem = s.mem := by
  rw [State.alarmLevel]
  exact s.setStatus_or _ _ (fun t => t.mem = s.mem) rfl (by simp [State.setEvtAll])

@[simp] theorem State.alarmLevel_cores (s : State) : s.alarmLevel.cores = s.cores := by
  rw [State.alarmLevel]
  exact s.setStatus_or _ _ (fun t => t.cores = s.cores) rfl (by simp [State.setEvtAll])

@[simp] theorem State.cleared_mem (s : State) (bank off mask : Nat) : (s.cleared bank off mask).mem = s.mem :=
  s.cleared_or bank off mask (fun t => t.mem = s.mem) rfl (fun _ => rfl) (fun _ => rfl) (fun _ _ => rfl) fun _ => s.alarmLevel_mem

@[simp] theorem State.cleared_cores (s : State) (bank off mask : Nat) : (s.cleared bank off mask).cores = s.cores :=
  s.cleared_or bank off mask (fun t => t.cores = s.cores) rfl (fun _ => rfl) (fun _ => rfl) (fun _ _ => rfl) fun _ => s.alarmLevel_cores

/-- Outside `clearsMore` a clearing writes no register besides. -/
theorem State.cleared_regs (s : State) {bank off mask : Nat} (h : off ∉ clearsMore) : (s.cleared bank off mask).regs = s.regs := by
  simp only [clearsMore, List.mem_cons, List.not_mem_nil, or_false, not_or] at h
  obtain ⟨h18, h8000C, h40010, h40014⟩ := h
  exact s.cleared_or bank off mask (fun t => t.regs = s.regs) rfl (absurd · h18) (absurd · h8000C) (fun _ _ => rfl)
    fun h => (h.elim h40010 h40014).elim

/-- A field of the event register itself keeps its value. -/
theorem State.rd_cleared (s : State) {g : Fld} {bank off mask : Nat} (hl : g.lsb < 64) (ho : off ∈ clearsMore → g.off = off) :
    (s.cleared bank off mask).rd g = s.rd g := by
  by_cases hoff : off ∈ clearsMore
  · specialize ho hoff
    refine s.cleared_or bank off mask (fun t => t.rd g = s.rd g) rfl (fun h => ?_) (fun h => ?_) (fun _ _ => rfl)
      fun h => s.rd_alarmLevel hl (ho ▸ h)
    all_goals exact State.rd_wr_other _ _ (Fld.key_ne_of_off hl (by decide) (by omega) (by decide) (by rw [ho, h]; decide))
  · exact State.rd_of_regs (s.cleared_regs hoff) g

/-! The messages of a source (R135): they leave registers, memory and cores as they are. -/

/-- What sending messages leaves unchanged. -/
structure State.SameStore (s t : State) : Prop where
  regs : t.regs = s.regs
  mem : t.mem = s.mem
  cores : t.cores = s.cores

theorem State.SameStore.refl (s : State) : s.SameStore s := ⟨rfl, rfl, rfl⟩

theorem State.SameStore.trans {s t u : State} (h : s.SameStore t) (k : t.SameStore u) : s.SameStore u :=
  ⟨k.regs.trans h.regs, k.mem.trans h.mem, k.cores.trans h.cores⟩

theorem State.sameStore_foldl {α : Type} {f : State → α → State} (h : ∀ (s : State) (a : α), s.SameStore (f s a)) (l : List α) (s : State) :
    s.SameStore (l.foldl f s) := by
  induction l generalizing s with
  | nil => exact .refl s
  | cons a l ih => exact (h s a).trans (ih (f s a))

theorem State.sameStore_setPort (s : State) (p : Port) (v : PortSt) : s.SameStore (s.setPort p v) := by
  cases p <;> exact ⟨rfl, rfl, rfl⟩

theorem State.sameStore_send (s : State) (f : Fn) (o : Out) : s.SameStore (s.send f o) := by
  unfold State.send
  split
  · exact s.sameStore_setPort ..
  · exact ⟨rfl, rfl, rfl⟩

theorem State.sameStore_vector (s : State) (f : Fn) (v : Nat) : s.SameStore (s.vector f v) := by
  unfold State.vector
  split_ifs
  · exact .refl s
  · exact s.sameStore_send ..
  · exact ⟨rfl, rfl, rfl⟩

theorem State.sameStore_routeMsg (s : State) (p : Port) (n : Nat) : s.SameStore (s.routeMsg p n) := by
  unfold State.routeMsg
  split
  · exact s.sameStore_vector ..
  · exact .refl s

theorem State.sameStore_sourceMsgs (s : State) (bank n : Nat) : s.SameStore (s.sourceMsgs bank n) := by
  unfold State.sourceMsgs
  split_ifs
  · exact s.sameStore_routeMsg ..
  · exact s.sameStore_routeMsg ..
  · exact .refl s
  · exact (s.sameStore_routeMsg ..).trans (State.sameStore_routeMsg ..)

/-- The messages of a register that stays asserted: of its source, of source 40, of its queue pair's function. -/
theorem State.sameStore_stillAsserted (s : State) (bank off : Nat) : s.SameStore (s.stillAsserted bank off) := by
  unfold State.stillAsserted
  extract_lets b s1 s2
  have hsource : s.SameStore s1 := by
    unfold s1
    split
    · exact s.sameStore_sourceMsgs ..
    · exact .refl s
  have hlost : s.SameStore s2 := by
    unfold s2
    split
    · exact hsource.trans (s1.sameStore_sourceMsgs ..)
    · exact hsource
  split
  · exact .refl s
  split
  · exact State.sameStore_foldl (fun s _ => s.sameStore_sourceMsgs ..) _ s
  split
  · exact hlost.trans (s2.sameStore_vector ..)
  · exact hlost

/-! A write to an event register. -/

/-- With another SEQ than the present one a write clears nothing (R105). -/
theorem State.evtWrite_stale (s : State) {bank off val : Nat} (h : bits val 16 16 ≠ s.rd (seqAt bank off)) :
    s.evtWrite bank off val = s.stillAsserted bank off := by
  simp only [State.evtWrite, if_neg h]

/-- With the present SEQ a write clears the bits it names (R105). -/
theorem State.evtWrite_current (s : State) {bank off val : Nat} (h : bits val 16 16 = s.rd (seqAt bank off)) :
    s.evtWrite bank off val =
      ((clearEvts bank (bits val 0 16) (regFields off) s).cleared bank off (bits val 0 16)).stillAsserted bank off := by
  simp only [State.evtWrite, if_pos h]

/-- A write to an event register that meets no obstacle clears event bits, unless the device ignores the requester there (R97, R105, R115). -/
theorem execEvtClearWrite_of_passes {s : State} {who : Requester} {off : Nat} (hevt : isEvt off = true) (hp : s.passes who off = true)
    (v : Word32) : execEvtClearWrite who off v s =
      .next (if s.ignores who off then s else s.evtWrite (if isBanked off then (bankOf who).getD 0 else 0) off v.toNat) := by
  have hvalue : guardedRegs.contains off = false := by
    by_contra h
    have := (guardedRegs_not_isEvt off (by simpa using h)).1
    simp [hevt] at this
  have hcompl : ¬(4 ≤ off ∧ guardedRegs.contains (off - 4) = true) := by
    rintro ⟨h4, h⟩
    have := (guardedRegs_not_isEvt (off - 4) (by simpa using h)).2
    rw [Nat.sub_add_cancel h4] at this
    simp [hevt] at this
  rw [execEvtClearWrite, State.writeReg, State.gated_of_passes hp, State.regEffect]
  simp only [hvalue, hcompl, hevt, Bool.false_eq_true, if_false, if_true]

/-- Settles O23: a stale write only sends messages, and a current one clears field by field, with effects besides that lie outside the register. -/
theorem eventClear : Obligations.EventClear := by
  unfold Obligations.EventClear
  intro s who v off hevt hp bank mask cleared
  have hexec : exec (.evtClearWrite who off v) s = .next (if s.ignores who off then s else s.evtWrite bank off v.toNat) :=
    execEvtClearWrite_of_passes hevt hp v
  have hseq : bits v.toNat 16 16 = v.toNat / 65536 := by
    have := v.isLt
    simp only [bits]
    omega
  have hmask : bits v.toNat 0 16 = mask := by simp [bits, mask]
  refine ⟨fun hi => ?_, fun hi hstale => ?_, fun hi hcur => ?_⟩
  · rw [hexec, hi, if_pos rfl]
  · have hsend := s.sameStore_stillAsserted bank off
    rw [hexec, hi, if_neg Bool.false_ne_true, s.evtWrite_stale (hseq ▸ hstale)]
    exact ⟨_, rfl, hsend.regs, hsend.mem⟩
  · rw [hexec, hi, if_neg Bool.false_ne_true, s.evtWrite_current (hseq.trans hcur), hmask]
    have hsend := State.sameStore_stillAsserted ((clearEvts bank mask (regFields off) s).cleared bank off mask) bank off
    refine ⟨_, rfl, ?_, fun f hf => ?_, fun hoff f hf => ?_, ?_, ?_⟩
    · rw [State.rd_of_regs hsend.regs, State.rd_cleared _ (off := off) (g := seqAt bank off) (show 16 < 64 by omega) fun _ => rfl]
      exact rd_clearEvts_seqAt ..
    · obtain ⟨hmem, h16⟩ := List.mem_filter.mp hf
      have hlsb : f.lsb < 16 := of_decide_eq_true h16
      rw [State.rd_of_regs hsend.regs,
        State.rd_cleared _ (g := f.inst bank) (show f.lsb < 64 by omega) fun h => regFields_off_of_clearsMore off h f hmem]
      exact rd_clearEvts_named (regFields_lsbsDistinct off) hmem hlsb
    · rw [State.rd_of_regs hsend.regs, State.rd_of_regs (State.cleared_regs _ hoff)]
      exact clearEvts_keepsRegs bank mask (regFields off) s f hf
    · rw [hsend.mem, State.cleared_mem, clearEvts_mem]
    · rw [hsend.cores, State.cleared_cores, clearEvts_cores]

end Sys2Proof.Machine
end

section
/-! Synchronous exceptions: what a pair shows once it has taken one (R190, Table 8-4). -/

namespace Sys2Proof.Machine

theorem State.frame_trans {s t u : State} (h : { t with cores := s.cores } = s) (k : { u with cores := t.cores } = t) :
    { u with cores := s.cores } = s := by
  rw [← h, ← k]

/-- Counting before an exception changes nothing that the exception shows. -/
theorem State.Counts.tookTrap {s t u : State} {p code imm : Nat} {epc eaddr : Word64} (h : s.Counts t p)
    (k : t.tookTrap u p code imm epc eaddr) : s.tookTrap u p code imm epc eaddr := by
  obtain ⟨hgr, hresv, hothers, hframe, hm, hk⟩ := k
  have hrest := h.rest
  simp only [Core.rest, Core.mk.injEq] at hrest
  refine ⟨fun a => (hgr a).trans (h.gr a), hresv, fun q hq => (hothers q hq).trans (h.others q hq), State.frame_trans h.frame hframe, ?_, ?_⟩
  · simpa [mvec, hrest] using hm
  · simpa [hrest] using hk

/-- Counting after an exception changes nothing that the exception shows. -/
theorem State.tookTrap.counts {s t u : State} {p code imm : Nat} {epc eaddr : Word64} (h : s.tookTrap t p code imm epc eaddr)
    (k : t.Counts u p) : s.tookTrap u p code imm epc eaddr := by
  obtain ⟨hgr, hresv, hothers, hframe, hm, hk⟩ := h
  have hrest := k.rest
  simp only [Core.rest, Core.mk.injEq] at hrest
  refine ⟨fun a => (k.gr a).trans (hgr a), ?_, fun q hq => (k.others q hq).trans (hothers q hq), State.frame_trans hframe k.frame, ?_, ?_⟩
  · simpa [hrest] using hresv
  · simpa [hrest, k.pc] using hm
  · simpa [hrest, k.pc] using hk

/-- What is raised in M is taken at M. -/
theorem State.tookTrap_takeAtM (s : State) (p code imm : Nat) (epc eaddr : Word64) (hl : (s.core p).level = .m) :
    s.tookTrap (s.takeAtM p code imm 0 epc eaddr) p code imm epc eaddr := by
  have hcount := s.counts_pmuCount p 8
  refine hcount.tookTrap ⟨fun a => ?_, ?_, fun q hq => State.core_setCore_other _ _ hq, rfl, ?_, ?_⟩
  · simp [State.takeAtM, State.gr]
  · simp [State.takeAtM]
  · simp [State.takeAtM, hcount.level, hl]
  · simp [hcount.level, hl]

/-- What is raised below M is taken at K, at the vector of the level left. -/
theorem State.tookTrap_takeAtK (s : State) (p code imm off : Nat) (epc eaddr : Word64) (hl : (s.core p).level ≠ .m)
    (hoff : BitVec.ofNat 64 off = if (s.core p).level = .k then 0x80 else 0) :
    s.tookTrap (s.takeAtK p code imm off epc eaddr) p code imm epc eaddr := by
  have hcount := s.counts_pmuCount p 8
  refine hcount.tookTrap ⟨fun a => ?_, ?_, fun q hq => State.core_setCore_other _ _ hq, rfl, ?_, ?_⟩
  · simp [State.takeAtK, State.gr]
  · simp [State.takeAtK]
  · simp [hcount.level, hl]
  · simp [State.takeAtK, hcount.level, hoff]

theorem State.tookTrap_trap (s : State) (p code imm : Nat) (epc eaddr : Word64) :
    s.tookTrap (s.trap p code imm epc eaddr) p code imm epc eaddr := by
  unfold State.trap
  split
  next hl => exact s.tookTrap_takeAtM p code imm epc eaddr hl
  next hl => exact s.tookTrap_takeAtK p code imm 0x80 epc eaddr (by simp [hl]) (by simp [hl])
  next hl => exact s.tookTrap_takeAtK p code imm 0 epc eaddr (by simp [hl]) (by simp [hl])

theorem State.trap_tmp (s : State) (p code imm : Nat) (epc eaddr : Word64) : (s.trap p code imm epc eaddr).tmp = s.tmp := by
  obtain ⟨-, -, -, hframe, -⟩ := s.tookTrap_trap p code imm epc eaddr
  have := congrArg State.tmp hframe
  exact this

/-- Taking an exception, then ending the instruction, is taking the exception. -/
theorem State.tookTrap_of_end (s : State) (p code imm : Nat) (epc eaddr : Word64) (l : Level) (b : Bool) (hd : s.tmp.due = []) :
    s.tookTrap ((s.trap p code imm epc eaddr).endInstr p l b) p code imm epc eaddr :=
  (s.tookTrap_trap p code imm epc eaddr).counts (State.counts_endInstr _ p l b (by rw [State.trap_tmp]; exact hd))

end Sys2Proof.Machine
end

section
/-! The system registers: which numbers a level reaches, and what a register reads after it was written (R198, Tables 8-6 to 8-8). -/

namespace Sys2Proof.Machine

/-! The level that a number needs. -/

theorem Level.num_le_two (l : Level) : l.num ≤ 2 := by
  cases l <;> decide

theorem Level.num_eq_zero (l : Level) : l.num = 0 ↔ l = .u := by
  cases l <;> decide

/-- Below the reserved group the level needed is SR[11:10]. -/
theorem sysLevel_eq_some {n : Nat} (h : n / 0x400 ≤ 2) : sysLevel n = some (n / 0x400) := by
  rw [sysLevel, Nat.mod_eq_of_lt (by omega), if_neg (by omega)]

theorem sysLevel_eq_none {n : Nat} (h : n / 0x400 = 3) : sysLevel n = none := by
  simp [sysLevel, h]

/-- A number whose SR[11:10] is above the reader's level, or reserved, has no value. -/
theorem State.sysReadAt_eq_none (s : State) (p : Nat) {lvl n : Nat} (hn : n < 0x1000) (h : lvl < n / 0x400) : s.sysReadAt p lvl n = none := by
  rcases (by omega : n / 0x400 ≤ 2 ∨ n / 0x400 = 3) with h2 | h3
  · simp [State.sysReadAt, sysLevel_eq_some h2, h]
  · simp [State.sysReadAt, sysLevel_eq_none h3]

theorem State.sysWriteAt_eq_none (s : State) (p : Nat) {lvl n : Nat} (v : Word64) (hn : n < 0x1000) (h : lvl < n / 0x400) :
    s.sysWriteAt p lvl n v = none := by
  rcases (by omega : n / 0x400 ≤ 2 ∨ n / 0x400 = 3) with h2 | h3
  · simp [State.sysWriteAt, sysLevel_eq_some h2, h]
  · simp [State.sysWriteAt, sysLevel_eq_none h3]

/-! The counters, which Table 8-6 gives rules of their own at U. -/

theorem sysLevel_of_counter {n : Nat} (h : sysCounter n) : sysLevel n = some 0 := by
  have hzero : n / 0x400 = 0 := by have := h.2; omega
  rw [sysLevel_eq_some (by omega), hzero]

theorem sysListed_of_counter {n : Nat} (h : sysCounter n) : sysListed n := .inr (.inl h)

theorem not_sysReadOnly_of_counter {n : Nat} (h : sysCounter n) : ¬ sysReadOnly n := by
  obtain ⟨hlo, hhi⟩ := h
  simp only [sysReadOnly, List.mem_cons, List.not_mem_nil, or_false]
  omega

theorem State.sysReadAt_of_counter (s : State) (p lvl : Nat) {n : Nat} (hc : sysCounter n) :
    s.sysReadAt p lvl n =
      if lvl = 0 ∧ (s.core p).pmuCtl.getLsbD 4 = false then none else some (tblGet 0 (s.core p).pmc (n - 0x010)) := by
  obtain ⟨hlo, hhi⟩ := hc
  have h0 : n ≠ 0 := by omega
  have h1 : n ≠ 1 := by omega
  simp only [State.sysReadAt, sysLevel_of_counter ⟨hlo, hhi⟩, Nat.not_lt_zero, decide_false, Bool.false_eq_true, h0, h1, hlo, hhi,
    and_self, if_true, if_false]

theorem State.sysWriteAt_of_counter (s : State) (p lvl : Nat) {n : Nat} (v : Word64) (hc : sysCounter n) :
    s.sysWriteAt p lvl n v =
      if lvl = 0 then none else some (s.setCore p { s.core p with pmc := tblPut 0 (s.core p).pmc (n - 0x010) v }) := by
  obtain ⟨hlo, hhi⟩ := hc
  simp only [State.sysWriteAt, sysLevel_of_counter ⟨hlo, hhi⟩, Nat.not_lt_zero, decide_false, Bool.false_eq_true, hlo, hhi,
    and_self, if_true, if_false]

/-! Which of the other numbers answer, at a level that reaches them: those of the rows of the table. -/

/-- A row of the table before other rows: the whole answers where the row is the one meant or another row answers. -/
theorem isSome_ite_some_iff {α : Type} {c : Prop} [Decidable c] {a : α} {o : Option α} :
    (if c then some a else o).isSome = true ↔ c ∨ o.isSome = true := by
  by_cases h : c <;> simp [h]

theorem State.sysReadAt_isSome_iff_listed (s : State) (p : Nat) {lvl n : Nat} (hl : lvl ≤ 2) (h : n / 0x400 ≤ lvl) (hc : ¬ sysCounter n) :
    (s.sysReadAt p lvl n).isSome = true ↔ sysListed n := by
  have hno : ¬ (0x010 ≤ n ∧ n ≤ 0x013) := hc
  simp only [State.sysReadAt, sysLevel_eq_some (h.trans hl), Nat.not_lt.mpr h, hno, decide_false, Bool.false_eq_true, if_false,
    isSome_ite_some_iff, Option.isSome_none, or_false, false_or, sysListed, List.mem_cons, List.not_mem_nil]
  omega

theorem State.sysWriteAt_isSome_iff_listed (s : State) (p : Nat) {lvl n : Nat} (v : Word64) (hl : lvl ≤ 2) (h : n / 0x400 ≤ lvl)
    (hc : ¬ sysCounter n) : (s.sysWriteAt p lvl n v).isSome = true ↔ sysListed n ∧ ¬ sysReadOnly n := by
  have hno : ¬ (0x010 ≤ n ∧ n ≤ 0x013) := hc
  simp only [State.sysWriteAt, sysLevel_eq_some (h.trans hl), Nat.not_lt.mpr h, hno, decide_false, Bool.false_eq_true, if_false,
    isSome_ite_some_iff, Option.isSome_none, or_false, false_or, sysListed, sysReadOnly, List.mem_cons, List.not_mem_nil]
  omega

/-- R198 for a read at the present level of the pair. -/
theorem State.sysRead_isSome (s : State) (p : Nat) {n : Nat} (hn : n < 0x1000) :
    (s.sysRead p n).isSome = true ↔
      n / 0x400 ≤ (s.core p).level.num ∧ sysListed n ∧ (sysCounter n → (s.core p).level = .u → (s.core p).pmuCtl.getLsbD 4 = true) := by
  unfold State.sysRead
  by_cases hlvl : n / 0x400 ≤ (s.core p).level.num
  · by_cases hc : sysCounter n
    · simp [s.sysReadAt_of_counter p _ hc, hlvl, hc, sysListed_of_counter hc, Level.num_eq_zero]
    · simp [s.sysReadAt_isSome_iff_listed p (Level.num_le_two _) hlvl hc, hlvl, hc]
  · simp [s.sysReadAt_eq_none p hn (Nat.lt_of_not_le hlvl), hlvl]

/-- R198 for a write at the present level of the pair. -/
theorem State.sysWrite_isSome (s : State) (p : Nat) {n : Nat} (v : Word64) (hn : n < 0x1000) :
    (s.sysWrite p n v).isSome = true ↔
      n / 0x400 ≤ (s.core p).level.num ∧ sysListed n ∧ ¬ sysReadOnly n ∧ (sysCounter n → (s.core p).level ≠ .u) := by
  unfold State.sysWrite
  by_cases hlvl : n / 0x400 ≤ (s.core p).level.num
  · by_cases hc : sysCounter n
    · simp [s.sysWriteAt_of_counter p _ v hc, hlvl, hc, sysListed_of_counter hc, not_sysReadOnly_of_counter hc, Level.num_eq_zero]
    · simp [s.sysWriteAt_isSome_iff_listed p v (Level.num_le_two _) hlvl hc, hlvl, hc]
  · simp [s.sysWriteAt_eq_none p v hn (Nat.lt_of_not_le hlvl), hlvl]

/-! What a write leaves as it is. -/

theorem forall_mem_ite_iff {α : Type} {c : Prop} [Decidable c] {o₁ o₂ : Option α} {P : α → Prop} :
    (∀ t ∈ (if c then o₁ else o₂), P t) ↔ (c → ∀ t ∈ o₁, P t) ∧ (¬ c → ∀ t ∈ o₂, P t) := by
  by_cases h : c <;> simp [h]

/-- Every row of the table keeps the PC of the pair and fires no alarm. -/
theorem State.sysWriteAt_keeps (s : State) (p lvl n : Nat) (v : Word64) :
    ∀ t ∈ s.sysWriteAt p lvl n v, (t.core p).pc = (s.core p).pc ∧ t.tmp = s.tmp := by
  simp only [State.sysWriteAt, forall_mem_ite_iff, Option.mem_some_iff, forall_eq', State.core_setCore_same, State.setCore_tmp,
    State.wr_core, State.wr_tmp, and_self, implies_true, Option.not_mem_none, false_implies]

/-! What a register reads after it was written, at M, which reaches every number. -/

/-- The four fields of KSTATUS are the four lowest bits written (Table 8-7). -/
theorem kstatus_of_bits (c : Core) (v : Word64) :
    kstatus { c with ie := v.getLsbD 0, pie := v.getLsbD 1, plev := if v.getLsbD 2 then .k else .u, tie := v.getLsbD 3 } = v &&& 0xF := by
  have hbit (i : Nat) : (v.getLsbD i).toNat = v.toNat / 2 ^ i % 2 := Nat.toNat_testBit ..
  have hplev : (if (if v.getLsbD 2 then Level.k else .u) = .k then 1 else 0) = (v.getLsbD 2).toNat := by
    cases v.getLsbD 2 <;> rfl
  apply BitVec.eq_of_toNat_eq
  simp only [kstatus, hplev, hbit, BitVec.toNat_ofNat, BitVec.toNat_and]
  rw [show (15 : Word64).toNat = 2 ^ 4 - 1 from rfl, Nat.and_two_pow_sub_one_eq_mod]
  omega

section
variable {s t : State} {p n : Nat} {v : Word64} (hm : (s.core p).level = .m)
include hm

/-- KEPC, KSCRATCH, TCMP, MEPC and MSCRATCH hold the word written. -/
theorem State.sysRead_written_word (hn : n = 0x401 ∨ n = 0x405 ∨ n = 0x406 ∨ n = 0x801 ∨ n = 0x805)
    (h : s.sysWrite p n v = some t) : t.sysRead p n = some v := by
  rcases hn with rfl | rfl | rfl | rfl | rfl
  all_goals
    simp [State.sysWrite, State.sysWriteAt, sysLevel, hm, Level.num] at h
    simp [← h, State.sysRead, State.sysReadAt, sysLevel, Level.num]

/-- An enable word of interrupts holds the word written. -/
theorem State.sysRead_written_ien (hn : 0x410 ≤ n ∧ n ≤ 0x417) (h : s.sysWrite p n v = some t) : t.sysRead p n = some v := by
  have hlevel : sysLevel n = some 1 := by
    have hone : n / 0x400 = 1 := by omega
    rw [sysLevel_eq_some (by omega), hone]
  obtain rfl : s.setCore p { s.core p with ien := tblPut 0 (s.core p).ien (n - 0x410) v } = t := by
    simp only [State.sysWrite, State.sysWriteAt, hlevel, hm, Level.num] at h
    simpa (disch := omega) [if_neg, if_pos, hm] using h
  simp only [State.sysRead, State.sysReadAt, hlevel, State.core_setCore_same, hm, Level.num]
  simp (disch := omega) [if_neg, if_pos]

/-- A counter holds the word written. -/
theorem State.sysRead_written_counter (hn : sysCounter n) (h : s.sysWrite p n v = some t) : t.sysRead p n = some v := by
  obtain rfl : s.setCore p { s.core p with pmc := tblPut 0 (s.core p).pmc (n - 0x010) v } = t := by
    simpa [State.sysWrite, s.sysWriteAt_of_counter p _ v hn, hm, Level.num] using h
  simp [State.sysRead, State.sysReadAt_of_counter _ p _ hn, hm, Level.num]

/-- The nine lowest bits of KXBASE read as zero. -/
theorem State.sysRead_written_kxbase (h : s.sysWrite p 0x404 v = some t) : t.sysRead p 0x404 = some (v &&& ~~~0x1FF) := by
  obtain rfl : s.setCore p { s.core p with kxbase := v &&& ~~~(BitVec.ofNat 64 0x1FF) } = t := by
    simpa [State.sysWrite, State.sysWriteAt, sysLevel, hm, Level.num] using h
  simp [State.sysRead, State.sysReadAt, sysLevel, hm, Level.num]

/-- PMU_CTL keeps the five lowest bits written. -/
theorem State.sysRead_written_pmuCtl (h : s.sysWrite p 0x430 v = some t) : t.sysRead p 0x430 = some (v &&& 0x1F) := by
  obtain rfl : s.setCore p { s.core p with pmuCtl := lowBits v 5 } = t := by
    simpa [State.sysWrite, State.sysWriteAt, sysLevel, hm, Level.num] using h
  simp [State.sysRead, State.sysReadAt, sysLevel, hm, Level.num, lowBits]

/-- KSTATUS keeps its four fields. -/
theorem State.sysRead_written_kstatus (h : s.sysWrite p 0x400 v = some t) : t.sysRead p 0x400 = some (v &&& 0xF) := by
  obtain rfl : s.setCore p { s.core p with
      ie := v.getLsbD 0, pie := v.getLsbD 1, plev := if v.getLsbD 2 then .k else .u, tie := v.getLsbD 3 } = t := by
    simpa [State.sysWrite, State.sysWriteAt, sysLevel, hm, Level.num] using h
  rw [← kstatus_of_bits (s.core p) v]
  simp [State.sysRead, State.sysReadAt, sysLevel, hm, Level.num]

/-- A locked MXBASE reads as before. -/
theorem State.sysRead_written_mxbase (hlock : (s.core p).mxbase.getLsbD 0 = true) (h : s.sysWrite p 0x804 v = some t) :
    t.sysRead p 0x804 = s.sysRead p 0x804 := by
  obtain rfl : s.setCore p { s.core p with mxbase := mxbaseWrite (s.core p) v } = t := by
    simpa [State.sysWrite, State.sysWriteAt, sysLevel, hm, Level.num] using h
  simp [State.sysRead, State.sysReadAt, sysLevel, hm, Level.num, mxbaseWrite, hlock]

end

end Sys2Proof.Machine
end

section
/-! SRD and SWR, the instructions that move a system register (R198). -/

namespace Sys2Proof.Machine

theorem State.runs.due {s : State} {r : Run} (h : s.runs r) : (s.atInstr r).tmp.due = [] := by
  obtain ⟨-, -, -, -, -, hdue⟩ := h
  exact hdue

section
variable {s : State} {r : Run} (h : s.runs r) (d : Reg) (sr : BitVec 12)
include h

theorem execSrd_of_some {v : Word64} (hv : (s.atInstr r).sysRead r.pair.val sr.toNat = some v) :
    ∃ t, execSrd r d sr s = .next t ∧ (s.atInstr r).retires t r.pair.val [d] v (((s.atInstr r).core r.pair.val).pc + 4) := by
  refine ⟨_, by rw [execSrd, State.runInstr_of_runs h], ?_⟩
  simp only [hv, State.pcNext_setGr]
  exact State.retires_of_end _ _ _ _ _ _ _ _ h.due (.refl _ _)

theorem execSrd_of_none (hv : (s.atInstr r).sysRead r.pair.val sr.toNat = none) :
    ∃ t, execSrd r d sr s = .next t ∧ (s.atInstr r).tookTrap t r.pair.val 2 0 ((s.atInstr r).core r.pair.val).pc
      (BitVec.ofNat 64 (0x30 * 2 ^ 26 + d.val * 2 ^ 21 + sr.toNat)) := by
  refine ⟨_, by rw [execSrd, State.runInstr_of_runs h], ?_⟩
  simp only [hv]
  exact State.tookTrap_of_end _ _ _ _ _ _ _ _ h.due

theorem execSwr_of_some {s2 : State} (hv : (s.atInstr r).sysWrite r.pair.val sr.toNat ((s.atInstr r).gr r.pair.val d) = some s2) :
    ∃ t, execSwr r d sr s = .next t ∧ s2.retires t r.pair.val [] 0 (((s.atInstr r).core r.pair.val).pc + 4) := by
  obtain ⟨hpc, htmp⟩ := State.sysWriteAt_keeps _ _ _ _ _ s2 hv
  refine ⟨_, by rw [execSwr, State.runInstr_of_runs h], ?_⟩
  simp only [hv]
  rw [State.pcNext, hpc]
  exact State.retires_of_jump _ _ _ _ _ _ (htmp ▸ h.due) (.refl _ _)

theorem execSwr_of_none (hv : (s.atInstr r).sysWrite r.pair.val sr.toNat ((s.atInstr r).gr r.pair.val d) = none) :
    ∃ t, execSwr r d sr s = .next t ∧ (s.atInstr r).tookTrap t r.pair.val 2 0 ((s.atInstr r).core r.pair.val).pc
      (BitVec.ofNat 64 (0x31 * 2 ^ 26 + d.val * 2 ^ 21 + sr.toNat)) := by
  refine ⟨_, by rw [execSwr, State.runInstr_of_runs h], ?_⟩
  simp only [hv]
  exact State.tookTrap_of_end _ _ _ _ _ _ _ _ h.due

end

/-- Settles O12: what SRD and SWR do where the register answers and where it does not, which numbers answer, and what is read back, row by row. -/
theorem systemRegisters : Obligations.SystemRegisters := by
  unfold Obligations.SystemRegisters
  refine ⟨fun r d sr s h => ⟨?_, ?_, ?_, ?_, ?_, ?_⟩, fun s t p v hm => ⟨fun n hn h => ?_, ?_, ?_, ?_, ?_⟩⟩
  · exact fun v => execSrd_of_some h d sr
  · exact fun s2 => execSwr_of_some h d sr
  · exact execSrd_of_none h d sr
  · exact execSwr_of_none h d sr
  · exact State.sysRead_isSome _ _ sr.isLt
  · exact fun v => State.sysWrite_isSome _ _ v sr.isLt
  · rcases (by omega : (n = 0x401 ∨ n = 0x405 ∨ n = 0x406 ∨ n = 0x801 ∨ n = 0x805) ∨ (0x410 ≤ n ∧ n ≤ 0x417) ∨ (0x010 ≤ n ∧ n ≤ 0x013))
      with hword | hien | hcounter
    · exact State.sysRead_written_word hm hword h
    · exact State.sysRead_written_ien hm hien h
    · exact State.sysRead_written_counter hm hcounter h
  · exact State.sysRead_written_kxbase hm
  · exact State.sysRead_written_kstatus hm
  · exact State.sysRead_written_pmuCtl hm
  · exact State.sysRead_written_mxbase hm

end Sys2Proof.Machine
end

section
/-! The register fields of a mailbox: what a read gives after a write or an event in the same mailbox. -/

namespace Sys2Proof.Machine

theorem Fld.mbx_key (f : Fld) (m : Nat) : (f.mbx m).key = f.key + 0x2000 * m := by
  simp only [Fld.key, Fld.mbx, Fld.add]
  omega

/-- Payload word `k` of mailbox `m` is payload word `k` of mailbox 0, moved to the window of `m`. -/
theorem Fld.mbx_ix (f : Fld) (m k : Nat) : (f.mbx m).ix k = (f.ix k).mbx m := by
  simp only [Fld.mbx, Fld.add, Fld.ix, Nat.add_right_comm]

variable (s : State) (m : Nat) {f g : Fld}

theorem State.rd_wr_mbx_other (v : Nat) (h : g.key ≠ f.key) : (s.wr (f.mbx m) v).rd (g.mbx m) = s.rd (g.mbx m) :=
  s.rd_wr_other v (by simp only [Fld.mbx_key]; omega)

/-- An event leaves every field but its own and SEQ of its register. -/
theorem State.rd_setEvt_other (b : Nat) (h : g.key ≠ f.key) (hseq : g.key ≠ f.seq.key) : (s.setEvt f b).rd g = s.rd g :=
  (s.setEvt_frame f b).2 g (by simp [h, hseq])

theorem Fld.mbx_seq (f : Fld) (m : Nat) : (f.mbx m).seq = f.seq.mbx m := rfl

theorem State.rd_setEvt_mbx_other (b : Nat) (h : g.key ≠ f.key) (hseq : g.key ≠ f.seq.key) :
    (s.setEvt (f.mbx m) b).rd (g.mbx m) = s.rd (g.mbx m) := by
  refine s.rd_setEvt_other b ?_ ?_
  · simp only [Fld.mbx_key]; omega
  · simp only [Fld.mbx_seq, Fld.mbx_key]; omega

/-- An event field of one bit reads 1 after its event. -/
theorem State.rd_setEvt_same (hw : f.width = 1) (h : f.key ≠ f.seq.key) : (s.setEvt f).rd f = 1 := by
  have hbit : bitSet (s.rd f) 0 % 2 = 1 := by
    unfold bitSet
    split
    next hset => simpa [Nat.testBit_zero] using hset
    next hclear =>
      have : s.rd f % 2 ≠ 1 := by simpa [Nat.testBit_zero] using hclear
      omega
  show ((s.wr f _).wr f.seq _).rd f = 1
  rw [State.rd_wr_other _ _ h, State.rd_wr_same, hw]
  exact hbit

theorem State.rd_setEvt_mbx_same (hw : f.width = 1) (h : f.key ≠ f.seq.key) : (s.setEvt (f.mbx m)).rd (f.mbx m) = 1 := by
  refine s.rd_setEvt_same hw ?_
  simp only [Fld.mbx_seq, Fld.mbx_key]
  omega

@[simp] theorem State.setEvt_mbx (b : Nat) : (s.setEvt f b).mbx = s.mbx := rfl

theorem State.flag_eq_false (h : s.rd f = 0) : s.flag f = false := by simp [State.flag, h]

theorem State.flag_eq_true (h : s.rd f = 1) : s.flag f = true := by simp [State.flag, h]

/-! Where the payload words lie: below the header. -/

/-- The lowest key of the header words of mailbox 0, MBX_HDR0 and up. -/
def mbxHeaderKey : Nat := 0xA0040 * 64

theorem mbxData_key_lt {k : Nat} (hk : k < 16) : (R.MBX_DATA_DATA.ix k).key < mbxHeaderKey := by
  show (0 * 0x1000000 + (0xA0000 + 4 * k)) * 64 + 0 < 0xA0040 * 64
  omega

theorem mbxData_key_inj {k j : Nat} (h : (R.MBX_DATA_DATA.ix k).key = (R.MBX_DATA_DATA.ix j).key) : k = j := by
  have : (0 * 0x1000000 + (0xA0000 + 4 * k)) * 64 + 0 = (0 * 0x1000000 + (0xA0000 + 4 * j)) * 64 + 0 := h
  omega

/-- A payload word is none of the header fields. -/
theorem mbxData_key_notMem {k : Nat} (hk : k < 16) {l : List Fld} (hl : ∀ f ∈ l, mbxHeaderKey ≤ f.key) :
    (R.MBX_DATA_DATA.ix k).key ∉ l.map Fld.key := by
  intro h
  obtain ⟨f, hf, hkey⟩ := List.mem_map.mp h
  exact Nat.ne_of_gt ((mbxData_key_lt hk).trans_le (hl f hf)) hkey

end Sys2Proof.Machine
end

section
/-! Writes to a mailbox, each operation once: payload, message, acknowledgement (R226 to R228). -/

namespace Sys2Proof.Machine

/-- What the device remembers of the writers of a mailbox is set. -/
def State.setMbx (s : State) (m : Nat) (h : MbxHidden) : State := { s with mbx := tblPut {} s.mbx m h }

section
variable (s : State) (m : Nat) (h : MbxHidden)

@[simp] theorem State.setMbx_rd (f : Fld) : (s.setMbx m h).rd f = s.rd f := rfl
@[simp] theorem State.setMbx_mem : (s.setMbx m h).mem = s.mem := rfl
@[simp] theorem State.setMbx_same : tblGet {} (s.setMbx m h).mbx m = h := tblGet_put_same ..

end

theorem sameSource_self (who : Requester) : sameSource who who = true := by
  cases who <;> simp [sameSource]

/-! A payload word. -/

section
variable (s : State) (m : Nat)

/-- COLLISION in the header, with its event (R227). -/
def State.mbxCollided (s : State) (m : Nat) : State := (s.wr (R.MBX_HDR1_COLLISION.mbx m) 1).setEvt (R.MBX_RXEVT_COLLISION.mbx m)

theorem State.rd_mbxCollided_header : (s.mbxCollided m).rd (R.MBX_HDR1_COLLISION.mbx m) = 1 := by
  rw [State.mbxCollided, State.rd_setEvt_mbx_other _ _ _ (by decide) (by decide), State.rd_wr_same]
  rfl

theorem State.rd_mbxCollided_event : (s.mbxCollided m).rd (R.MBX_RXEVT_COLLISION.mbx m) = 1 :=
  State.rd_setEvt_mbx_same _ _ rfl (by decide)

theorem State.rd_mbxCollided_other {g : Fld}
    (h : g.key ∉ [R.MBX_HDR1_COLLISION, R.MBX_RXEVT_COLLISION, R.MBX_RXEVT_COLLISION.seq].map Fld.key) :
    (s.mbxCollided m).rd (g.mbx m) = s.rd (g.mbx m) := by
  simp only [List.map_cons, List.map_nil, List.mem_cons, List.not_mem_nil, or_false, not_or] at h
  obtain ⟨hheader, hevt, hseq⟩ := h
  rw [State.mbxCollided, State.rd_setEvt_mbx_other _ _ _ hevt hseq, State.rd_wr_mbx_other _ _ _ hheader]

end

/-- The writers of a payload since the last message, once `who` has written. -/
def State.mbxWriters (s : State) (who : Requester) (m : Nat) : List Requester :=
  let ws := (tblGet {} s.mbx m).writers
  if ws.any (sameSource who) then ws else ws ++ [who]

theorem State.any_mbxWriters (s : State) (who : Requester) (m : Nat) : (s.mbxWriters who m).any (sameSource who) = true := by
  unfold State.mbxWriters
  dsimp only
  split
  next h => exact h
  next => simp [sameSource_self]

section
variable {s : State} {m w : Nat} (who : Requester) (val : Nat)

/-- The write that a payload word takes before COLLISION is looked at. -/
def State.mbxStored (s : State) (who : Requester) (m w val : Nat) : State :=
  (s.setMbx m { writers := s.mbxWriters who m }).wr ((R.MBX_DATA_DATA.mbx m).ix w) val

theorem State.mbxData_eq : s.mbxData who m w val = (s.mbxStored who m w val).collide m := rfl

/-- A payload word lies outside the header, so that FULL is as before. -/
theorem State.rd_mbxStored_full (hw : w < 16) : (s.mbxStored who m w val).rd (R.MBX_HDR1_FULL.mbx m) = s.rd (R.MBX_HDR1_FULL.mbx m) := by
  rw [State.mbxStored, Fld.mbx_ix, State.rd_wr_mbx_other _ _ _ (Nat.ne_of_gt ((mbxData_key_lt hw).trans_le (by decide))), State.setMbx_rd]

/-- A payload word takes the whole of the word written. -/
theorem State.rd_mbxStored_toNat (v : Word32) : (s.mbxStored who m w v.toNat).rd ((R.MBX_DATA_DATA.mbx m).ix w) = v.toNat :=
  (State.rd_wr_same ..).trans (Nat.mod_eq_of_lt v.isLt)

theorem State.mbxStored_keepsRegs : s.keepsRegs (s.mbxStored who m w val) [(R.MBX_DATA_DATA.mbx m).ix w] := by
  intro f hf
  rw [State.mbxStored, State.rd_wr_other _ _ (by simpa using hf), State.setMbx_rd]

theorem State.any_writers_mbxStored : (tblGet {} (s.mbxStored who m w val).mbx m).writers.any (sameSource who) = true := by
  rw [State.mbxStored, State.wr_mbx, State.setMbx_same]
  exact s.any_mbxWriters who m

/-- Into an empty mailbox a payload word is stored, and nothing besides (R226). -/
theorem State.mbxData_of_empty (hw : w < 16) (h : s.rd (R.MBX_HDR1_FULL.mbx m) = 0) :
    s.mbxData who m w val = s.mbxStored who m w val := by
  rw [State.mbxData_eq, State.collide, State.flag_eq_false _ ((State.rd_mbxStored_full who val hw).trans h), if_neg Bool.false_ne_true]

/-- Into a full mailbox it is stored with COLLISION in the header and in RXEVT (R227). -/
theorem State.mbxData_of_full (hw : w < 16) (h : s.rd (R.MBX_HDR1_FULL.mbx m) = 1) : s.mbxData who m w val =
    (s.mbxStored who m w val).mbxCollided m := by
  rw [State.mbxData_eq, State.collide, State.flag_eq_true _ ((State.rd_mbxStored_full who val hw).trans h), if_pos rfl]
  rfl

end

/-! A message. -/

theorem stampLevel_lt (who : Requester) : stampLevel who < 4 := by
  unfold stampLevel
  split
  next l _ => exact Nat.lt_succ_of_le ((Level.num_le_two l).trans (by decide))
  next => decide

theorem World.num_lt (w : World) : w.num < 2 := by
  cases w <;> decide

theorem stampWorld_lt (who : Requester) : stampWorld who < 2 := by
  cases who
  case core p w l => exact World.num_lt w
  case host p v => exact Nat.one_lt_two
  case debug w => exact World.num_lt w

section
variable (s : State) (who : Requester) (m val : Nat)

/-- The header that a message is stamped with: its number, length and tag, and its sender's class, level and world (R226). -/
def State.mbxStamp (s : State) (who : Requester) (m val : Nat) : State :=
  (((((s.wrapAdd (R.MBX_HDR0_MSEQ.mbx m) 1).wr (R.MBX_HDR0_LEN.mbx m) (bits val 0 7)).wr (R.MBX_HDR0_TAG.mbx m) (bits val 8 8)).wr
    (R.MBX_HDR1_CLASS.mbx m) (classOf who)).wr (R.MBX_HDR1_LEVEL.mbx m) (stampLevel who)).wr (R.MBX_HDR1_WORLD.mbx m) (stampWorld who)

theorem State.rd_mbxStamp_other {g : Fld} (h : g.key ∉
    [R.MBX_HDR0_MSEQ, R.MBX_HDR0_LEN, R.MBX_HDR0_TAG, R.MBX_HDR1_CLASS, R.MBX_HDR1_LEVEL, R.MBX_HDR1_WORLD].map Fld.key) :
    (s.mbxStamp who m val).rd (g.mbx m) = s.rd (g.mbx m) := by
  simp only [List.map_cons, List.map_nil, List.mem_cons, List.not_mem_nil, or_false, not_or] at h
  obtain ⟨hmseq, hlen, htag, hclass, hlevel, hworld⟩ := h
  rw [State.mbxStamp, State.wrapAdd, State.rd_wr_mbx_other _ _ _ hworld, State.rd_wr_mbx_other _ _ _ hlevel, State.rd_wr_mbx_other _ _ _ hclass,
    State.rd_wr_mbx_other _ _ _ htag, State.rd_wr_mbx_other _ _ _ hlen, State.rd_wr_mbx_other _ _ _ hmseq]

/-- What each field of the stamp reads (R226). -/
theorem State.rd_mbxStamp :
    let t := s.mbxStamp who m val
    t.rd (R.MBX_HDR0_MSEQ.mbx m) = (s.rd (R.MBX_HDR0_MSEQ.mbx m) + 1) % 65536 ∧ t.rd (R.MBX_HDR0_LEN.mbx m) = bits val 0 7 ∧
      t.rd (R.MBX_HDR0_TAG.mbx m) = bits val 8 8 ∧ t.rd (R.MBX_HDR1_CLASS.mbx m) = classOf who % 16 ∧
      t.rd (R.MBX_HDR1_LEVEL.mbx m) = stampLevel who ∧ t.rd (R.MBX_HDR1_WORLD.mbx m) = stampWorld who := by
  simp (disch := decide) only [State.mbxStamp, State.wrapAdd, State.rd_wr_mbx_other, State.rd_wr_same]
  exact ⟨rfl, Nat.mod_mod .., Nat.mod_mod .., rfl, Nat.mod_eq_of_lt (stampLevel_lt who), Nat.mod_eq_of_lt (stampWorld_lt who)⟩

/-- MIXED where another than the sender has written a payload word. -/
def State.mbxMixed (s : State) (m : Nat) (mixed : Bool) : State := if mixed then s.wr (R.MBX_HDR1_MIXED.mbx m) 1 else s

theorem State.rd_mbxMixed_other {g : Fld} (mixed : Bool) (h : g.key ≠ R.MBX_HDR1_MIXED.key) :
    (s.mbxMixed m mixed).rd (g.mbx m) = s.rd (g.mbx m) := by
  unfold State.mbxMixed
  split
  · exact s.rd_wr_mbx_other m 1 h
  · rfl

@[simp] theorem State.mbxMixed_mem (mixed : Bool) : (s.mbxMixed m mixed).mem = s.mem := by
  unfold State.mbxMixed
  split <;> rfl

/-- Whether another than the sender has written a payload word of the message. -/
def State.mbxOthers (s : State) (who : Requester) (m : Nat) : Bool := (tblGet {} s.mbx m).writers.any fun w => !sameSource who w

/-- A message that fits, in a mailbox that was empty: stamped, FULL, and RECEIVED (R226, R227). -/
def State.mbxPosted (s : State) (who : Requester) (m val : Nat) : State :=
  ((((s.mbxStamp who m val).mbxMixed m (s.mbxOthers who m)).setMbx m {}).wr (R.MBX_HDR1_FULL.mbx m) 1).setEvt (R.MBX_RXEVT_RECEIVED.mbx m)

theorem State.mbxSend_of_empty (hlen : bits val 0 7 ≤ 64) (hempty : s.rd (R.MBX_HDR1_FULL.mbx m) = 0) :
    s.mbxSend who m val = s.mbxPosted who m val := by
  simp only [State.mbxSend, State.flag_eq_false _ hempty, if_neg (Nat.not_lt.mpr hlen), Bool.false_eq_true, if_false]
  rfl

/-- Posting writes nothing over the stamp. -/
theorem State.rd_mbxPosted {g : Fld}
    (h : g.key ∉ [R.MBX_HDR1_MIXED, R.MBX_HDR1_FULL, R.MBX_RXEVT_RECEIVED, R.MBX_RXEVT_RECEIVED.seq].map Fld.key) :
    (s.mbxPosted who m val).rd (g.mbx m) = (s.mbxStamp who m val).rd (g.mbx m) := by
  simp only [List.map_cons, List.map_nil, List.mem_cons, List.not_mem_nil, or_false, not_or] at h
  obtain ⟨hmixed, hfull, hevt, hseq⟩ := h
  rw [State.mbxPosted, State.rd_setEvt_mbx_other _ _ _ hevt hseq, State.rd_wr_mbx_other _ _ _ hfull, State.setMbx_rd,
    State.rd_mbxMixed_other _ _ _ hmixed]

theorem State.rd_mbxPosted_full : (s.mbxPosted who m val).rd (R.MBX_HDR1_FULL.mbx m) = 1 := by
  rw [State.mbxPosted, State.rd_setEvt_mbx_other _ _ _ (by decide) (by decide), State.rd_wr_same]
  rfl

theorem State.rd_mbxPosted_event : (s.mbxPosted who m val).rd (R.MBX_RXEVT_RECEIVED.mbx m) = 1 :=
  State.rd_setEvt_mbx_same _ _ rfl (by decide)

theorem State.mbxPosted_mem : (s.mbxPosted who m val).mem = s.mem := by
  rw [State.mbxPosted, State.setEvt_mem, State.wr_mem, State.setMbx_mem, State.mbxMixed_mem]
  rfl

/-- The next message begins with no writer. -/
theorem State.mbxPosted_writers : tblGet {} (s.mbxPosted who m val).mbx m = {} := by
  rw [State.mbxPosted, State.setEvt_mbx, State.wr_mbx, State.setMbx_same]

end

/-! An acknowledgement. -/

section
variable (s : State) (m : Nat)

@[simp] theorem State.mbxZero_mem (n : Nat) : (s.mbxZero m n).mem = s.mem := by
  induction n with
  | zero => rfl
  | succ n ih => exact ih

/-- Zeroing the payload leaves the header. -/
theorem State.rd_mbxZero_header {g : Fld} {n : Nat} (hn : n ≤ 16) (hg : mbxHeaderKey ≤ g.key) :
    (s.mbxZero m n).rd (g.mbx m) = s.rd (g.mbx m) := by
  induction n with
  | zero => rfl
  | succ n ih =>
    rw [State.mbxZero, Fld.mbx_ix, State.rd_wr_mbx_other _ _ _ (Nat.ne_of_gt ((mbxData_key_lt hn).trans_le hg))]
    exact ih (Nat.le_of_succ_le hn)

theorem State.rd_mbxZero_data {k n : Nat} (hk : k < n) : (s.mbxZero m n).rd ((R.MBX_DATA_DATA.ix k).mbx m) = 0 := by
  induction n with
  | zero => cases hk
  | succ n ih =>
    rw [State.mbxZero, Fld.mbx_ix]
    rcases Nat.lt_succ_iff_lt_or_eq.mp hk with hlt | rfl
    · rw [State.rd_wr_mbx_other _ _ _ fun h => Nat.ne_of_lt hlt (mbxData_key_inj h)]
      exact ih hlt
    · rw [State.rd_wr_same]
      rfl

/-- The mailbox is empty: payload and flags are zero, and EMPTIED is set (R228). -/
def State.mbxEmptied (s : State) (m : Nat) : State :=
  (((((s.mbxZero m 16).wr (R.MBX_HDR1_FULL.mbx m) 0).wr (R.MBX_HDR1_COLLISION.mbx m) 0).wr (R.MBX_HDR1_MIXED.mbx m) 0).setMbx m {}).setEvt
    (R.MBX_TXEVT_EMPTIED.mbx m)

theorem State.rd_mbxEmptied_flags :
    let t := s.mbxEmptied m
    t.rd (R.MBX_HDR1_FULL.mbx m) = 0 ∧ t.rd (R.MBX_HDR1_COLLISION.mbx m) = 0 ∧ t.rd (R.MBX_HDR1_MIXED.mbx m) = 0 := by
  simp (disch := decide) only [State.mbxEmptied, State.rd_setEvt_mbx_other, State.setMbx_rd, State.rd_wr_mbx_other, State.rd_wr_same]
  exact ⟨rfl, rfl, rfl⟩

theorem State.rd_mbxEmptied_event : (s.mbxEmptied m).rd (R.MBX_TXEVT_EMPTIED.mbx m) = 1 :=
  State.rd_setEvt_mbx_same _ _ rfl (by decide)

theorem State.rd_mbxEmptied_other {g : Fld}
    (h : g.key ∉ [R.MBX_HDR1_FULL, R.MBX_HDR1_COLLISION, R.MBX_HDR1_MIXED, R.MBX_TXEVT_EMPTIED, R.MBX_TXEVT_EMPTIED.seq].map Fld.key) :
    (s.mbxEmptied m).rd (g.mbx m) = (s.mbxZero m 16).rd (g.mbx m) := by
  simp only [List.map_cons, List.map_nil, List.mem_cons, List.not_mem_nil, or_false, not_or] at h
  obtain ⟨hfull, hcollision, hmixed, hevt, hseq⟩ := h
  rw [State.mbxEmptied, State.rd_setEvt_mbx_other _ _ _ hevt hseq, State.setMbx_rd, State.rd_wr_mbx_other _ _ _ hmixed,
    State.rd_wr_mbx_other _ _ _ hcollision, State.rd_wr_mbx_other _ _ _ hfull]

theorem State.mbxEmptied_mem : (s.mbxEmptied m).mem = s.mem := by
  simp only [State.mbxEmptied, State.setEvt_mem, State.setMbx_mem, State.wr_mem, State.mbxZero_mem]

/-- An acknowledgement of the posted message empties the mailbox (R228). -/
theorem State.mbxAck_of_current {val : Nat} (hfull : s.rd (R.MBX_HDR1_FULL.mbx m) = 1) (hseq : s.rd (R.MBX_HDR0_MSEQ.mbx m) = bits val 16 16) :
    s.mbxAck m val = s.mbxEmptied m := by
  simp only [State.mbxAck, s.flag_eq_true hfull, hseq, BEq.rfl, Bool.and_self, if_true]
  rfl

/-- Any other acknowledgement changes nothing (R228). -/
theorem State.mbxAck_of_stale {val : Nat} (h : s.rd (R.MBX_HDR1_FULL.mbx m) = 0 ∨ s.rd (R.MBX_HDR0_MSEQ.mbx m) ≠ bits val 16 16) :
    s.mbxAck m val = s := by
  have hcond : (s.flag (R.MBX_HDR1_FULL.mbx m) && s.rd (R.MBX_HDR0_MSEQ.mbx m) == bits val 16 16) = false := by
    rcases h with hempty | hne
    · rw [s.flag_eq_false hempty, Bool.false_and]
    · rw [beq_false_of_ne hne, Bool.and_false]
  rw [State.mbxAck, hcond, if_neg Bool.false_ne_true]

end

/-! MBX_WAKE. -/

/-- Bits 0 and 8 of MBX_WAKE name one mailbox each, of pair 0 and of pair 1 (Table 9-5). -/
theorem State.mbxWake_secure (s : State) (w : World) (p : Fin 2) :
    s.mbxWake w (if p = 0 then 1 else 256 : Word32).toNat = s.wakePair w p.val := by
  have hpairs : (((List.range 28).filter fun m => (if p = 0 then 1 else 256 : Word32).toNat.testBit m).map mbxPair).dedup = [p.val] := by
    revert p; decide
  rw [State.mbxWake, hpairs]
  rfl

section
variable (s : State) (d : Nat) (w : World)

/-- A request of a world for ON is pending on a domain (R60). -/
def State.pendsOn (s : State) (d : Nat) (w : World) : State :=
  (s.wr (R.PWR_DOM_STAT_PENDING.ix d) 0).wr (R.PWR_DOM_STAT_PEND_WORLD.ix d) w.num

theorem State.rd_pendsOn_pending : (s.pendsOn d w).rd (R.PWR_DOM_STAT_PENDING.ix d) = 0 :=
  (State.rd_wr_other _ _ (Fld.key_ne_of_lsb (by decide : 4 < 64) (by decide : 6 < 64) (by decide : 4 ≠ 6))).trans (State.rd_wr_same ..)

theorem State.rd_pendsOn_world : (s.pendsOn d w).rd (R.PWR_DOM_STAT_PEND_WORLD.ix d) = w.num :=
  (State.rd_wr_same ..).trans (Nat.mod_eq_of_lt (World.num_lt w))

theorem State.pendsOn_keepsRegs : s.keepsRegs (s.pendsOn d w) [R.PWR_DOM_STAT_PENDING.ix d, R.PWR_DOM_STAT_PEND_WORLD.ix d] := by
  intro f hf
  simp only [List.map_cons, List.map_nil, List.mem_cons, List.not_mem_nil, or_false, not_or] at hf
  obtain ⟨hpending, hworld⟩ := hf
  exact (State.rd_wr_other _ _ hworld).trans (State.rd_wr_other _ _ hpending)

/-- STATE lies at another bit than the request of its domain. -/
theorem State.rd_pendsOn_state : (s.pendsOn d w).rd (domState d) = s.rd (domState d) := by
  refine s.pendsOn_keepsRegs d w _ ?_
  simp only [List.map_cons, List.map_nil, List.mem_cons, List.not_mem_nil, or_false, not_or]
  exact ⟨Fld.key_ne_of_lsb (by decide : 0 < 64) (by decide : 4 < 64) (by decide : 0 ≠ 4),
    Fld.key_ne_of_lsb (by decide : 0 < 64) (by decide : 6 < 64) (by decide : 0 ≠ 6)⟩

/-- A domain's transition to ON is under way, by a request of a world that is pending (R231). -/
def State.startsOn (s : State) (d : Nat) (w : World) : State :=
  { s.pendsOn d w with pwr := { s.pwr with moving := tblPut 0 s.pwr.moving d 1 } }

theorem State.startsOn_moving : tblGet 0 (s.startsOn d w).pwr.moving d = 1 :=
  tblGet_put_same 0 s.pwr.moving d 1

@[simp] theorem State.startsOn_mem : (s.startsOn d w).mem = s.mem := rfl

end

/-- Out of any state but OFF a transition starts, and nothing besides. -/
theorem State.startMove_of_powered (s : State) {d : Nat} (target : Nat) (h : s.rd (domState d) ≠ 2) :
    s.startMove d target = { s with pwr := { s.pwr with moving := tblPut 0 s.pwr.moving d (target + 1) } } := by
  simp only [State.startMove, h, and_false, if_false]

/-- A wake of a secure pair whose domain basks and awaits nothing starts it towards ON (R231). -/
theorem State.wakePair_of_basking (s : State) (w : World) (p : Fin 2) (hst : s.rd (domState (30 + p.val)) = 1)
    (hpend : s.rd (R.PWR_DOM_STAT_PENDING.ix (30 + p.val)) = 3) : s.wakePair w p.val = s.startsOn (30 + p.val) w := by
  have hgroup : ∀ q : Fin 2, domGroup (30 + q.val) = [30 + q.val] := by decide
  have hpends : (s.supersede (30 + p.val)).setPending (30 + p.val) 0 w = s.pendsOn (30 + p.val) w := by
    rw [State.supersede, if_pos hpend, State.setPending, hgroup]
    rfl
  rw [State.wakePair, if_pos ⟨.inl hst, .inl p.isLt⟩, hpends, State.startMove_of_powered]
  · rfl
  · rw [State.rd_pendsOn_state, hst]
    decide

end Sys2Proof.Machine
end

section
/-! The commands of the mailboxes (R226 to R228, R231). -/

namespace Sys2Proof.Machine

section
variable {s : State} {who : Requester} {m : Fin 32} {v : Word32}

theorem execMbxDataWrite_of_passes {w : Fin 16} (hp : s.passes who (mbxOff m.val (4 * w.val)) = true) :
    execMbxDataWrite who m w v s = .next (s.mbxData who m.val w.val v.toNat) := by
  rw [execMbxDataWrite, State.gated_of_passes hp]

theorem execMbxSend_of_passes (hp : s.passes who (mbxOff m.val 0x48) = true) :
    execMbxSend who m v s = .next (s.mbxSend who m.val v.toNat) := by
  rw [execMbxSend, State.gated_of_passes hp]

theorem execMbxAck_of_passes (hp : s.passes who (mbxOff m.val 0x4C) = true) :
    execMbxAck who m v s = .next (s.mbxAck m.val v.toNat) := by
  rw [execMbxAck, State.gated_of_passes hp]

theorem execMbxWake_of_passes (hp : s.passes who 0xA1000 = true) :
    execMbxWake who v s = .next (s.mbxWake (worldOf who) v.toNat) := by
  rw [execMbxWake, State.gated_of_passes hp]

/-- The MSEQ that an acknowledgement names is the upper half of its word. -/
theorem bits_upper_half (v : Word32) : bits v.toNat 16 16 = v.toNat / 65536 := by
  have := v.isLt
  simp only [bits]
  omega

end

/-- Settles O19: each write is the operation it names, whose fields are read one by one; an acknowledgement that does not name the posted message is no operation. -/
theorem mailboxRows : Obligations.MailboxRows := by
  unfold Obligations.MailboxRows
  dsimp only
  refine ⟨fun s who m w v => ⟨fun hp hempty => ?stored, fun hp hfull => ?collided, fun hp hlen hempty => ?posted, fun hp hfull hseq => ?emptied⟩,
    fun s who m v hp hstale => ?stale, fun s who p hp hst hpend => ?woken⟩
  case stored =>
    refine ⟨_, execMbxDataWrite_of_passes hp, ?_⟩
    rw [State.mbxData_of_empty _ _ w.isLt hempty]
    exact ⟨State.rd_mbxStored_toNat .., State.mbxStored_keepsRegs _ _, rfl, rfl, State.any_writers_mbxStored ..⟩
  case collided =>
    refine ⟨_, execMbxDataWrite_of_passes hp, ?_⟩
    rw [State.mbxData_of_full _ _ w.isLt hfull]
    refine ⟨?_, State.rd_mbxCollided_header .., State.rd_mbxCollided_event .., rfl⟩
    rw [Fld.mbx_ix, State.rd_mbxCollided_other _ _ (mbxData_key_notMem w.isLt (by decide)), ← Fld.mbx_ix]
    exact State.rd_mbxStored_toNat ..
  case posted =>
    refine ⟨_, execMbxSend_of_passes hp, ?_⟩
    rw [State.mbxSend_of_empty _ _ _ _ (by simpa [bits] using hlen) hempty]
    obtain ⟨hmseq, hlen, htag, hclass, hlevel, hworld⟩ := s.rd_mbxStamp who m.val v.toNat
    refine ⟨?_, ?_, ?_, State.rd_mbxPosted_full .., ?_, ?_, ?_, State.rd_mbxPosted_event .., fun k hk => ?payload, State.mbxPosted_mem ..,
      State.mbxPosted_writers ..⟩
    case payload =>
      rw [Fld.mbx_ix, State.rd_mbxPosted _ _ _ _ (mbxData_key_notMem hk (by decide)),
        State.rd_mbxStamp_other _ _ _ _ (mbxData_key_notMem hk (by decide))]
    all_goals rw [State.rd_mbxPosted _ _ _ _ (by decide)]
    · exact hmseq
    · simpa [bits] using hlen
    · exact htag
    · exact hclass
    · exact hlevel
    · exact hworld
  case emptied =>
    refine ⟨_, execMbxAck_of_passes hp, ?_⟩
    rw [State.mbxAck_of_current _ _ hfull (hseq.trans (bits_upper_half v).symm)]
    obtain ⟨hfull, hcollision, hmixed⟩ := s.rd_mbxEmptied_flags m.val
    refine ⟨hfull, hcollision, hmixed, fun k hk => ?_, State.rd_mbxEmptied_event .., ?_, State.mbxEmptied_mem ..⟩
    · rw [Fld.mbx_ix, State.rd_mbxEmptied_other _ _ (mbxData_key_notMem hk (by decide)), State.rd_mbxZero_data _ _ hk]
    · rw [State.rd_mbxEmptied_other _ _ (by decide), State.rd_mbxZero_header _ _ le_rfl (by decide)]
  case stale =>
    exact (execMbxAck_of_passes hp).trans (congrArg _ (s.mbxAck_of_stale m.val (by rwa [bits_upper_half])))
  case woken =>
    refine ⟨_, execMbxWake_of_passes hp, ?_⟩
    rw [State.mbxWake_secure, State.wakePair_of_basking _ _ _ hst hpend]
    exact ⟨State.startsOn_moving .., State.rd_pendsOn_pending .., State.rd_pendsOn_world .., State.startsOn_mem .., State.pendsOn_keepsRegs _ _ _⟩

end Sys2Proof.Machine
end

section
/-! Register and immediate arithmetic: what each instruction computes (Table 8-2, OP 0x00 and the immediate forms). -/

namespace Sys2Proof.Machine

/-- What is an `alu` instruction retires with the value that it computes. -/
theorem State.alu_retires {s : State} {r : Run} (h : s.runs r) {e : Host.Outcome State Fault Refusal} {d : Reg} {f : State → Nat → Word64}
    (he : e = s.alu r d f) {v : Word64} (hv : f (s.atInstr r) r.pair.val = v) :
    ∃ t, e = .next t ∧ (s.atInstr r).retires t r.pair.val [d] v (((s.atInstr r).core r.pair.val).pc + 4) := by
  rw [he, ← hv]
  exact State.alu_of_runs h d f

theorem flagWord_slt (x y : Word64) : flagWord (x.slt y) = if x.toInt < y.toInt then 1 else 0 := by
  simp [flagWord, BitVec.slt]

theorem flagWord_ult (x y : Word64) : flagWord (x.ult y) = if x.toNat < y.toNat then 1 else 0 := by
  simp [flagWord, BitVec.ult]

theorem mul_eq_ofNat (x y : Word64) : x * y = BitVec.ofNat 64 (x.toNat * y.toNat) := by
  apply BitVec.eq_of_toNat_eq
  simp [BitVec.toNat_mul]

/-- The sign of an immediate is the sign of the word it is extended to. -/
theorem toInt_sext (imm : BitVec 16) : (sext imm).toInt = imm.toInt :=
  BitVec.toInt_signExtend_of_le (by decide)

/-- LUI's word: the immediate extended, then moved into the upper half of 32 bits. -/
theorem luiValue_eq (imm : BitVec 16) : luiValue imm = imm.signExtend 64 <<< 16 := by
  unfold luiValue sext
  apply BitVec.eq_of_getLsbD_eq
  intro i hi
  simp only [BitVec.getLsbD_signExtend, BitVec.getLsbD_shiftLeft, BitVec.getLsbD_append, BitVec.msb_append, hi]
  grind

/-- Settles O3: each instruction is `alu` of its operation. -/
theorem registerArithmetic : Obligations.RegisterArithmetic := by
  unfold Obligations.RegisterArithmetic
  intro r d a b s h p s1 x y next
  refine ⟨?_, ?_, ?_, ?_, ?_, ?_, ?_, ?_, ?_, ?_, ?_, ?_, ?_, ?_⟩
  · exact State.alu_retires (e := execAdd r d a b s) h rfl rfl
  · exact State.alu_retires (e := execSub r d a b s) h rfl rfl
  · exact State.alu_retires (e := execAnd r d a b s) h rfl rfl
  · exact State.alu_retires (e := execOr r d a b s) h rfl rfl
  · exact State.alu_retires (e := execXor r d a b s) h rfl rfl
  · exact State.alu_retires (e := execAndn r d a b s) h rfl rfl
  · exact State.alu_retires (e := execSll r d a b s) h rfl rfl
  · exact State.alu_retires (e := execSrl r d a b s) h rfl rfl
  · exact State.alu_retires (e := execSra r d a b s) h rfl rfl
  · exact State.alu_retires (e := execSlt r d a b s) h rfl (flagWord_slt x y)
  · exact State.alu_retires (e := execSltu r d a b s) h rfl (flagWord_ult x y)
  · exact State.alu_retires (e := execMul r d a b s) h rfl (mul_eq_ofNat x y)
  · exact State.alu_retires (e := execMulh r d a b s) h rfl rfl
  · exact State.alu_retires (e := execMulhu r d a b s) h rfl rfl

/-- Settles O4: each instruction is `alu` of its operation on the extended immediate. -/
theorem immediateArithmetic : Obligations.ImmediateArithmetic := by
  unfold Obligations.ImmediateArithmetic
  intro r d a imm n s h p s1 x se ze next
  refine ⟨?_, ?_, ?_, ?_, ?_, ?_, ?_, ?_, ?_, ?_, ?_, ?_⟩
  · exact State.alu_retires (e := execAddi r d a imm s) h rfl rfl
  · exact State.alu_retires (e := execAndi r d a imm s) h rfl rfl
  · exact State.alu_retires (e := execOri r d a imm s) h rfl rfl
  · exact State.alu_retires (e := execXori r d a imm s) h rfl rfl
  · exact State.alu_retires (e := execSlti r d a imm s) h rfl (by rw [← toInt_sext imm]; exact flagWord_slt x se)
  · exact State.alu_retires (e := execSltiu r d a imm s) h rfl (flagWord_ult x se)
  · exact State.alu_retires (e := execLui r d imm s) h rfl (luiValue_eq imm)
  · exact State.alu_retires (e := execOrhi r d a imm s) h rfl rfl
  · exact State.alu_retires (e := execOrti r d a imm s) h rfl rfl
  · exact State.alu_retires (e := execShi r d a .sll n s) h rfl rfl
  · exact State.alu_retires (e := execShi r d a .srl n s) h rfl rfl
  · exact State.alu_retires (e := execShi r d a .sra n s) h rfl rfl

end Sys2Proof.Machine
end

section
/-! How an instruction ends: it retires with a register, retires at a new PC, or takes an exception (chapter 08). -/

namespace Sys2Proof.Machine

section
variable {s s2 : State} {r : Run} (h : s.runs r) {e : Host.Outcome State Fault Refusal} {f : State → Nat → Bool × State}
  (he : e = s.runInstr r f) {b : Bool} {pc : Word64}
include h he

/-- What an instruction leaves, it leaves to the end of the instruction. -/
theorem State.ends_of_runs {p : Nat} (hp : r.pair.val = p) (hf : f (s.atInstr r) p = (b, s2)) :
    e = .next (s2.endInstr p (s.core p).level b) := by
  subst hp
  rw [he, State.runInstr_of_runs h, hf]

/-- An instruction that writes D and the PC retires. -/
theorem State.run_retires {d : Reg} {v : Word64} (hf : f (s.atInstr r) r.pair.val = (b, (s2.setGr r.pair.val d v).setPc r.pair.val pc))
    (hs : (s.atInstr r).Counts s2 r.pair.val) : ∃ t, e = .next t ∧ (s.atInstr r).retires t r.pair.val [d] v pc :=
  ⟨_, State.ends_of_runs h he rfl hf, State.retires_of_end _ _ _ _ _ _ _ _ (by rw [hs.due]; exact h.due) hs⟩

/-- An instruction that writes the PC alone retires without a destination. -/
theorem State.run_jumps (hf : f (s.atInstr r) r.pair.val = (b, s2.setPc r.pair.val pc)) (hs : (s.atInstr r).Counts s2 r.pair.val) :
    ∃ t, e = .next t ∧ (s.atInstr r).retires t r.pair.val [] 0 pc :=
  ⟨_, State.ends_of_runs h he rfl hf, State.retires_of_jump _ _ _ _ _ _ (by rw [hs.due]; exact h.due) hs⟩

/-- An instruction that takes an exception has taken it. -/
theorem State.run_traps {code imm : Nat} {epc eaddr : Word64}
    (hf : f (s.atInstr r) r.pair.val = (b, (s.atInstr r).trap r.pair.val code imm epc eaddr)) :
    ∃ t, e = .next t ∧ (s.atInstr r).tookTrap t r.pair.val code imm epc eaddr :=
  ⟨_, State.ends_of_runs h he rfl hf, State.tookTrap_of_end _ _ _ _ _ _ _ _ h.due⟩

end

end Sys2Proof.Machine
end

section
/-! Division (Table 8-2). -/

namespace Sys2Proof.Machine

section
variable {s : State} {r : Run} (h : s.runs r) {e : Host.Outcome State Fault Refusal} {d a b : Reg} {bad : Word64 → Word64 → Bool}
  {f : Word64 → Word64 → Word64} (he : e = s.divide r d a b bad f)
include h he

theorem State.divide_retires {v : Word64} (hbad : bad ((s.atInstr r).gr r.pair.val a) ((s.atInstr r).gr r.pair.val b) = false)
    (hv : f ((s.atInstr r).gr r.pair.val a) ((s.atInstr r).gr r.pair.val b) = v) :
    ∃ t, e = .next t ∧ (s.atInstr r).retires t r.pair.val [d] v (((s.atInstr r).core r.pair.val).pc + 4) :=
  State.run_retires h he (by simp only [hbad, hv, Bool.false_eq_true, if_false, State.pcNext_setGr]; rfl) (.refl _ _)

theorem State.divide_traps (hbad : bad ((s.atInstr r).gr r.pair.val a) ((s.atInstr r).gr r.pair.val b) = true) :
    ∃ t, e = .next t ∧ (s.atInstr r).tookTrap t r.pair.val 7 0 ((s.atInstr r).core r.pair.val).pc 0 :=
  State.run_traps h he (by simp only [hbad, if_true]; rfl)

end

/-- A signed division traps where the divisor is zero or the quotient does not fit. -/
theorem divTraps_eq_false (x y : Word64) : divTraps x y = false ↔ y ≠ 0 ∧ ¬(x = BitVec.ofNat 64 (2 ^ 63) ∧ y = BitVec.allOnes 64) := by
  simp [divTraps, minWord]

theorem udiv_eq_ofNat (x y : Word64) : x / y = BitVec.ofNat 64 (x.toNat / y.toNat) := by
  apply BitVec.eq_of_toNat_eq
  rw [BitVec.toNat_udiv, BitVec.toNat_ofNat, Nat.mod_eq_of_lt]
  exact Nat.lt_of_le_of_lt (Nat.div_le_self ..) x.isLt

theorem umod_eq_ofNat (x y : Word64) : x % y = BitVec.ofNat 64 (x.toNat % y.toNat) := by
  apply BitVec.eq_of_toNat_eq
  rw [BitVec.toNat_umod, BitVec.toNat_ofNat]
  exact (Nat.mod_eq_of_lt (Nat.lt_of_le_of_lt (Nat.mod_le ..) x.isLt)).symm

/-- Settles O5: a division retires where its test finds nothing, and takes the exception where it does. -/
theorem division : Obligations.Division := by
  unfold Obligations.Division
  intro r d a b s h p s1 x y pc fits
  have hbad : ¬fits → divTraps x y = true := fun hf => by
    by_contra hn
    exact hf ((divTraps_eq_false x y).mp (by simpa using hn))
  refine ⟨fun hy => ⟨?_, ?_⟩, fun hy => ⟨?_, ?_⟩, fun hf => ⟨?_, ?_⟩, fun hf => ⟨?_, ?_⟩⟩
  · exact State.divide_retires (e := execDivu r d a b s) h rfl (by simpa using hy) (udiv_eq_ofNat x y)
  · exact State.divide_retires (e := execRemu r d a b s) h rfl (by simpa using hy) (umod_eq_ofNat x y)
  · exact State.divide_traps (e := execDivu r d a b s) h rfl (by simpa using hy)
  · exact State.divide_traps (e := execRemu r d a b s) h rfl (by simpa using hy)
  · exact State.divide_retires (e := execDiv r d a b s) h rfl ((divTraps_eq_false x y).mpr hf) rfl
  · exact State.divide_retires (e := execRem r d a b s) h rfl ((divTraps_eq_false x y).mpr hf) rfl
  · exact State.divide_traps (e := execDiv r d a b s) h rfl (hbad hf)
  · exact State.divide_traps (e := execRem r d a b s) h rfl (hbad hf)

end Sys2Proof.Machine
end

section
/-! Branches and jumps (Table 8-2). -/

namespace Sys2Proof.Machine

theorem branchTo_eq (pc off : Word64) : branchTo pc off = pc + 4 * off := by
  have : off <<< 2 = 4 * off := by
    rw [BitVec.shiftLeft_eq_mul_twoPow, BitVec.mul_comm]; rfl
  rw [branchTo, this]

theorem not_slt_iff (x y : Word64) : (!x.slt y) = true ↔ y.toInt ≤ x.toInt := by
  simp [BitVec.slt]

theorem ult_iff (x y : Word64) : x.ult y = true ↔ x.toNat < y.toNat := by
  simp [BitVec.ult]

theorem not_ult_iff (x y : Word64) : (!x.ult y) = true ↔ y.toNat ≤ x.toNat := by
  simp [BitVec.ult]

section
variable {s : State} {r : Run} (h : s.runs r) {e : Host.Outcome State Fault Refusal} {d a : Reg}
include h

/-- A branch goes where its condition sends it. -/
theorem State.branch_retires {imm : BitVec 16} {cond : Word64 → Word64 → Bool} (he : e = s.runInstr r fun s p => s.branch p d a imm cond)
    {c : Prop} [Decidable c] (hc : cond ((s.atInstr r).gr r.pair.val d) ((s.atInstr r).gr r.pair.val a) = true ↔ c) :
    ∃ t, e = .next t ∧ (s.atInstr r).retires t r.pair.val [] 0
      (if c then ((s.atInstr r).core r.pair.val).pc + 4 * imm.signExtend 64 else ((s.atInstr r).core r.pair.val).pc + 4) := by
  by_cases hcond : cond ((s.atInstr r).gr r.pair.val d) ((s.atInstr r).gr r.pair.val a) = true
  · rw [if_pos (hc.mp hcond)]
    exact State.run_jumps h he (by simp only [State.branch, hcond, if_true, branchTo_eq]; rfl) (State.counts_pmuCount ..)
  · rw [if_neg (fun hx => hcond (hc.mpr hx))]
    exact State.run_jumps h he (by simp only [State.branch, hcond]; rfl) (.refl _ _)

/-- A jump that links writes the next PC and goes to its target. -/
theorem State.jumpLink_retires {f : State → Nat → Bool × State} {target : Word64} (he : e = s.runInstr r f)
    (hf : f (s.atInstr r) r.pair.val = (s.atInstr r).jumpLink r.pair.val d target) :
    ∃ t, e = .next t ∧ (s.atInstr r).retires t r.pair.val [d] (((s.atInstr r).core r.pair.val).pc + 4) target :=
  State.run_retires h he hf (State.counts_pmuCount ..)

end

/-- Settles O11: branches by their condition, jumps by their target. -/
theorem branchesAndJumps : Obligations.BranchesAndJumps := by
  unfold Obligations.BranchesAndJumps
  intro r d a imm off s h p s1 x y pc go target
  refine ⟨?_, ?_, ?_, ?_, ?_, ?_, ?_, fun ht => ?_, fun ht => ?_⟩
  · exact State.branch_retires (e := execBeq r d a imm s) h rfl beq_iff_eq
  · exact State.branch_retires (e := execBne r d a imm s) h rfl bne_iff_ne
  · exact State.branch_retires (e := execBlt r d a imm s) h rfl BitVec.slt_iff_toInt_lt
  · exact State.branch_retires (e := execBge r d a imm s) h rfl (not_slt_iff ..)
  · exact State.branch_retires (e := execBltu r d a imm s) h rfl (ult_iff ..)
  · exact State.branch_retires (e := execBgeu r d a imm s) h rfl (not_ult_iff ..)
  · exact State.jumpLink_retires (e := execJal r off s) h rfl (by rw [branchTo_eq]; rfl)
  · exact State.jumpLink_retires (e := execJalr r d a imm s) h rfl (if_neg (not_not_intro ht))
  · exact State.run_traps (e := execJalr r d a imm s) h rfl (if_pos ht)

end Sys2Proof.Machine
end

section
/-! Calls, returns and the instructions that trap (R190, R193, Table 8-4). -/

namespace Sys2Proof.Machine

/-- What of a pair lies in its rest is the same where the rest is. -/
theorem Core.of_rest {α : Type} {c d : Core} (h : c.rest = d.rest) (f : Core → α) (hf : ∀ c : Core, f c.rest = f c := by intro _; rfl) :
    f c = f d := by
  rw [← hf c, h, hf]

/-- What is left of a pair once an instruction has set its core to `c`: registers, the rest, the PC, the other pairs and parts of the device. -/
structure State.LeavesCore (s t : State) (p : Nat) (c : Core) : Prop where
  gr : ∀ g : Reg, t.gr p g = if g = 31 then 0 else tblGet 0 c.g g.val
  rest : (t.core p).rest = c.rest
  pc : (t.core p).pc = c.pc
  others : ∀ q, q ≠ p → t.core q = s.core q
  frame : { t with cores := s.cores } = s

/-- Where the registers were not touched they read as before. -/
theorem State.LeavesCore.gr_same {s t : State} {p : Nat} {c : Core} (h : s.LeavesCore t p c) (hg : c.g = (s.core p).g) (g : Reg) :
    t.gr p g = s.gr p g := by
  rw [h.gr, hg]; rfl

/-- An instruction that sets the core of its pair leaves that core. -/
theorem State.run_setsCore {s s2 : State} {r : Run} (h : s.runs r) {e : Host.Outcome State Fault Refusal} {f : State → Nat → Bool × State}
    (he : e = s.runInstr r f) {b : Bool} {c : Core} (hf : f (s.atInstr r) r.pair.val = (b, s2.setCore r.pair.val c))
    (hs : (s.atInstr r).Counts s2 r.pair.val) : ∃ t, e = .next t ∧ (s.atInstr r).LeavesCore t r.pair.val c := by
  have hend := State.counts_endInstr (s2.setCore r.pair.val c) r.pair.val (s.core r.pair.val).level b
    (by rw [State.setCore_tmp, hs.due]; exact h.due)
  refine ⟨_, State.ends_of_runs h he rfl hf, fun g => ?_, ?_, ?_, fun q hq => ?_, ?_⟩
  · rw [hend.gr]; simp [State.gr]
  · rw [hend.rest, State.core_setCore_same]
  · rw [hend.pc, State.core_setCore_same]
  · rw [hend.others q hq, State.core_setCore_other _ _ hq, hs.others q hq]
  · exact State.frame_trans hs.frame (State.frame_trans (t := s2.setCore r.pair.val c) rfl hend.frame)

/-- A saved PC that is a multiple of 4 is gone back to as it is. -/
theorem pcOf_of_aligned {v : Word64} (h : v.toNat % 4 = 0) : pcOf v = v := by
  have h0 : v &&& 3#64 = 0 := by
    apply BitVec.eq_of_toNat_eq
    rw [BitVec.toNat_and, show (3#64 : Word64).toNat = 2 ^ 2 - 1 from rfl, Nat.and_two_pow_sub_one_eq_mod]
    exact h
  have hsplit : v = v &&& ~~~3#64 ||| v &&& 3#64 := by
    rw [← BitVec.and_or_distrib_left, BitVec.or_comm, BitVec.or_not_self, BitVec.and_allOnes]
  rw [pcOf]
  conv_rhs => rw [hsplit, h0]
  exact BitVec.or_zero.symm

/-- Settles O13: a call enters through `takeAtK` or `takeAtM`, a return sets level and PC from what was saved. -/
theorem callsAndReturns : Obligations.CallsAndReturns := by
  unfold Obligations.CallsAndReturns
  intro r imm s h p s1 c kept
  have hcount := State.counts_pmuCount s1 p 8
  have hie : ((s1.pmuCount p 8).core p).ie = c.ie := Core.of_rest hcount.rest Core.ie
  have hkxbase : ((s1.pmuCount p 8).core p).kxbase = c.kxbase := Core.of_rest hcount.rest Core.kxbase
  have hmxbase : ((s1.pmuCount p 8).core p).mxbase = c.mxbase := Core.of_rest hcount.rest Core.mxbase
  refine ⟨fun hl => ?_, fun hl => ?_, fun hl => ?_, fun hl => ?_⟩
  · obtain ⟨t, ht, hc⟩ := State.run_setsCore (e := execKcall r imm s) h rfl (by rw [if_pos hl]; rfl) hcount
    exact ⟨t, ht, ⟨hc.gr_same hcount.g, Core.of_rest hc.rest Core.resv, hc.others, hc.frame⟩, Core.of_rest hc.rest Core.level,
      Core.of_rest hc.rest Core.kepc, Core.of_rest hc.rest Core.kcause, Core.of_rest hc.rest Core.keaddr,
      (Core.of_rest hc.rest Core.plev).trans (hcount.level.trans hl), (Core.of_rest hc.rest Core.pie).trans hie,
      Core.of_rest hc.rest Core.ie, hc.pc.trans (congrArg (· + 0x180#64) hkxbase)⟩
  · obtain ⟨t, ht, hc⟩ := State.run_setsCore (e := execWcall r imm s) h rfl (by rw [if_pos hl]; rfl) hcount
    exact ⟨t, ht, ⟨hc.gr_same hcount.g, Core.of_rest hc.rest Core.resv, hc.others, hc.frame⟩, Core.of_rest hc.rest Core.level,
      Core.of_rest hc.rest Core.mepc, Core.of_rest hc.rest Core.mcause, Core.of_rest hc.rest Core.meaddr,
      (Core.of_rest hc.rest Core.mplev).trans (hcount.level.trans hl), (Core.of_rest hc.rest Core.ie).trans hie,
      hc.pc.trans (congrArg (fun x => (x &&& BitVec.ofNat 64 0xFFFFFFFE00) + 0x80#64) hmxbase), if_pos (Core.of_rest hc.rest Core.level)⟩
  · obtain ⟨t, ht, hc⟩ := State.run_setsCore (e := execKret r s) h rfl (if_pos hl) (.refl _ _)
    exact ⟨t, ht, ⟨hc.gr_same rfl, Core.of_rest hc.rest Core.resv, hc.others, hc.frame⟩, Core.of_rest hc.rest Core.level,
      Core.of_rest hc.rest Core.ie, fun ha => hc.pc.trans (pcOf_of_aligned ha)⟩
  · obtain ⟨t, ht, hc⟩ := State.run_setsCore (e := execWret r s) h rfl (if_pos hl) (.refl _ _)
    have hlevel : (t.core p).level = c.mplev := Core.of_rest hc.rest Core.level
    exact ⟨t, ht, ⟨hc.gr_same rfl, Core.of_rest hc.rest Core.resv, hc.others, hc.frame⟩, hlevel,
      fun ha => hc.pc.trans (pcOf_of_aligned ha), fun hm => if_neg (hlevel ▸ hm)⟩

/-- Settles O14: each takes `trap` with its code. -/
theorem trapInstructions : Obligations.TrapInstructions := by
  unfold Obligations.TrapInstructions
  intro r imm w s h p s1 pc lvl
  refine ⟨?_, fun hw => ?_, fun hl => ?_, fun hl => ⟨?_, ?_⟩, fun hl => ?_⟩
  · exact State.run_traps (e := execBrk r imm s) h rfl rfl
  · exact State.run_traps (e := execIllegalInstruction r w s) h (if_neg (by simp [hw, p])) rfl
  · exact State.run_traps (e := execKcall r imm s) h rfl (if_neg hl)
  · exact State.run_traps (e := execWcall r imm s) h rfl (if_neg hl)
  · exact State.run_traps (e := execKret r s) h rfl (if_neg hl)
  · exact State.run_traps (e := execWret r s) h rfl (if_neg hl)

end Sys2Proof.Machine
end

section
/-! Misaligned loads and stores (Table 8-4). -/

namespace Sys2Proof.Machine

section
variable {s : State} {r : Run} (h : s.runs r) {e : Host.Outcome State Fault Refusal} {a : State → Nat → Word64}
include h

theorem State.load_misaligned {d : Reg} {n : Nat} {ext : Nat → Word64} (he : e = s.runInstr r fun s p => s.load p d (a s p) n ext)
    (hx : (a (s.atInstr r) r.pair.val).toNat % n ≠ 0) :
    ∃ t, e = .next t ∧ (s.atInstr r).tookTrap t r.pair.val 3 0 ((s.atInstr r).core r.pair.val).pc (a (s.atInstr r) r.pair.val) :=
  State.run_traps h he (if_pos hx)

theorem State.store_misaligned {l : State → Nat → List Byte} (he : e = s.runInstr r fun s p => s.store p (a s p) (l s p))
    (hx : (a (s.atInstr r) r.pair.val).toNat % (l (s.atInstr r) r.pair.val).length ≠ 0) :
    ∃ t, e = .next t ∧ (s.atInstr r).tookTrap t r.pair.val 3 0 ((s.atInstr r).core r.pair.val).pc (a (s.atInstr r) r.pair.val) :=
  State.run_traps h he (if_pos hx)

end

/-- Settles O7: the alignment check comes first. -/
theorem misalignedTraps : Obligations.MisalignedTraps := by
  unfold Obligations.MisalignedTraps
  intro r d a imm s h p s1 x pc
  refine ⟨fun hx => ⟨?_, ?_⟩, fun hx => ⟨?_, ?_, ?_⟩, fun hx => ⟨?_, ?_, ?_⟩⟩
  · exact State.load_misaligned (e := execLd r d a imm s) h rfl hx
  · exact State.store_misaligned (e := execSd r d a imm s) h rfl hx
  · exact State.load_misaligned (e := execLw r d a imm s) h rfl hx
  · exact State.load_misaligned (e := execLwu r d a imm s) h rfl hx
  · exact State.store_misaligned (e := execSw r d a imm s) h rfl hx
  · exact State.load_misaligned (e := execLh r d a imm s) h rfl hx
  · exact State.load_misaligned (e := execLhu r d a imm s) h rfl hx
  · exact State.store_misaligned (e := execSh r d a imm s) h rfl hx

end Sys2Proof.Machine
end

section
/-! What an access to memory leaves as it is: the parts of the state it cannot reach, and what a pair keeps while others write. -/

namespace Sys2Proof.Machine

/-! Accesses reach registers, events, channels and the alarms to be decided, and nothing else unless they write. -/

/-- The state without what the checks of an access reach: register fields, events to deliver, channels, alarms to be decided. -/
def State.still (s : State) : State := { s with regs := [], edges := [], ddr := [], tmp := {} }

theorem State.mem_of_still {s t : State} (h : t.still = s.still) : t.mem = s.mem := (congrArg State.mem h :)
theorem State.cores_of_still {s t : State} (h : t.still = s.still) : t.cores = s.cores := (congrArg State.cores h :)

@[simp] theorem State.wr_still (s : State) (f : Fld) (v : Nat) : (s.wr f v).still = s.still := rfl
@[simp] theorem State.setEvt_still (s : State) (f : Fld) (b : Nat) : (s.setEvt f b).still = s.still := rfl
@[simp] theorem State.satAdd_still (s : State) (f : Fld) (n : Nat) : (s.satAdd f n).still = s.still := rfl
@[simp] theorem State.setChan_still (s : State) (c : Nat) (v : Ddr) : (s.setChan c v).still = s.still := rfl
@[simp] theorem State.fireMem_still (s : State) : s.fireMem.still = s.still := rfl
@[simp] theorem State.cleanLine_still (s : State) (c l : Nat) : (s.cleanLine c l).still = s.still := rfl
@[simp] theorem State.sweepTo_still (s : State) (c n : Nat) : (s.sweepTo c n).still = s.still := rfl

@[simp] theorem State.fillBlock_still (s : State) (c b : Nat) : (s.fillBlock c b).still = s.still := by
  unfold State.fillBlock; dsimp only; split <;> simp

@[simp] theorem State.wake_still (s : State) (d : Nat) : (s.wake d).still = s.still := by
  unfold State.wake; split <;> simp

@[simp] theorem State.wakeMem_still (s : State) (a : Nat) : (s.wakeMem a).still = s.still := by
  unfold State.wakeMem; split <;> simp

@[simp] theorem State.awaitFill_still (s : State) (a : Nat) : (s.awaitFill a).still = s.still := by
  unfold State.awaitFill
  split
  · split <;> simp
  · rfl

@[simp] theorem State.captureErr_still (s : State) (c l kind pos : Nat) (scrub : Bool) :
    (s.captureErr c l kind pos scrub).still = s.still := by
  unfold State.captureErr; dsimp only; split <;> simp

@[simp] theorem State.corrected_still (s : State) (c l kind pos : Nat) (scrub : Bool) : (s.corrected c l kind pos scrub).still = s.still := by
  simp [State.corrected]

@[simp] theorem State.uncorrectable_still (s : State) (c l : Nat) (scrub : Bool) : (s.uncorrectable c l scrub).still = s.still := by
  simp [State.uncorrectable]

@[simp] theorem State.checkLine_still (s : State) (c l : Nat) (scrub : Bool) : (s.checkLine c l scrub).still = s.still := by
  unfold State.checkLine; split <;> simp

@[simp] theorem State.rmwFail_still (s : State) (c l : Nat) : (s.rmwFail c l).still = s.still := by
  simp [State.rmwFail]

@[simp] theorem State.violation_still (s : State) (cls : Nat) (w : World) (k : AccKind) (src e a : Nat) :
    (s.violation cls w k src e a).still = s.still := by
  unfold State.violation; dsimp only; split <;> simp

@[simp] theorem State.noteRefusal_still (s : State) (cls : Nat) (w : World) (k : AccKind) (r : Option (Nat × Nat × Nat)) :
    (s.noteRefusal cls w k r).still = s.still := by
  unfold State.noteRefusal; split <;> simp

/-- A sequence of changes that each keep a view of the state keeps it. -/
theorem foldl_keeps {α β σ : Type} (view : σ → β) (f : σ → α → σ) (h : ∀ s a, view (f s a) = view s) (l : List α) (s : σ) :
    view (l.foldl f s) = view s := by
  induction l generalizing s with
  | nil => rfl
  | cons a l ih => rw [List.foldl_cons, ih, h]

/-! With no line locked nothing is served ahead of an access. -/

/-- The locks of every channel. -/
def State.lockView (s : State) : Nat → Tbl (Option LineLock) := fun c => (s.chan c).locks

theorem State.chan_setChan_other (s : State) {c d : Nat} (v : Ddr) (h : d ≠ c) : (s.setChan c v).chan d = s.chan d := by
  simp only [State.chan, State.setChan]
  exact tblGet_put_other _ _ _ _ h

theorem State.setChan_lockView (s : State) (c : Nat) (v : Ddr) (h : v.locks = (s.chan c).locks) : (s.setChan c v).lockView = s.lockView := by
  funext d
  by_cases hd : d = c
  · subst hd; simp [State.lockView, h]
  · simp [State.lockView, State.chan_setChan_other _ _ hd]

@[simp] theorem State.wr_lockView (s : State) (f : Fld) (v : Nat) : (s.wr f v).lockView = s.lockView := rfl

@[simp] theorem State.fillBlock_lockView (s : State) (c b : Nat) : (s.fillBlock c b).lockView = s.lockView := by
  unfold State.fillBlock
  dsimp only
  split
  · rw [State.wr_lockView]; exact s.setChan_lockView c _ rfl
  · unfold State.sweepTo; rw [State.wr_lockView, State.wr_lockView]; exact s.setChan_lockView c _ rfl

@[simp] theorem State.wakeMem_lockView (s : State) (a : Nat) : (s.wakeMem a).lockView = s.lockView := by
  unfold State.wakeMem State.wake
  split
  · split <;> rfl
  · rfl

@[simp] theorem State.awaitFill_lockView (s : State) (a : Nat) : (s.awaitFill a).lockView = s.lockView := by
  unfold State.awaitFill
  split
  · split <;> simp
  · rfl

theorem State.lineOf_chan {s : State} {a c l : Nat} (h : s.lineOf a = some (c, l)) : c = 0 ∨ c = 1 := by
  unfold State.lineOf State.chanOf at h
  split_ifs at h <;> simp_all

theorem State.linesOf_chan {s : State} {bs : List (Nat × Nat)} {x : Nat × Nat} (h : x ∈ s.linesOf bs) : x.1 = 0 ∨ x.1 = 1 := by
  rw [State.linesOf, List.mem_dedup, List.mem_filterMap] at h
  obtain ⟨b, _, hb⟩ := h
  exact State.lineOf_chan (l := x.2) hb

theorem State.yieldLock_of_none {s : State} {c l : Nat} (h : tblGet none (s.chan c).locks l = none) : s.yieldLock c l = s := by
  unfold State.yieldLock; rw [h]

/-- Where no line is locked an access waits for nothing that writes memory. -/
theorem State.awaitLines_still {s : State} (h : s.linesFree) (bs : List (Nat × Nat)) : (s.awaitLines bs).still = s.still := by
  unfold State.awaitLines
  generalize hu : bs.foldl (fun s b => (s.wakeMem b.1).awaitFill b.1) s = u
  have hstill : u.still = s.still := by
    rw [← hu]; exact foldl_keeps State.still _ (by simp) bs s
  have hlocks : u.lockView = s.lockView := by
    rw [← hu]; exact foldl_keeps State.lockView _ (by simp) bs s
  obtain ⟨h0, h1⟩ := h
  have hnone : ∀ x ∈ u.linesOf bs, u.yieldLock x.1 x.2 = u := fun x hx => by
    have hx1 : (u.chan x.1).locks = [] := by
      have := congrFun hlocks x.1
      rcases State.linesOf_chan hx with he | he <;> simp_all [State.lockView]
    exact State.yieldLock_of_none (by rw [hx1]; rfl)
  rw [← hstill]
  dsimp only
  rw [State.foldl_same _ _ hnone]

/-- With no line locked, a read leaves everything but registers, events, channels and alarms. -/
theorem State.readMem_still {s : State} (h : s.linesFree) (cls : Nat) (w : World) (k : AccKind) (a n : Nat) :
    (s.readMem cls w k a n).2.2.still = s.still := by
  simp only [State.readMem, State.noteRefusal_still]
  rw [foldl_keeps State.still _ (by simp), State.awaitLines_still h]

/-! What a pair keeps while others write: all but its reservation and its data cache. -/

/-- A pair without what the writes of others take away. -/
def Core.own (c : Core) : Core := { c with resv := none, dcache := [] }

/-- What the pairs keep while others write. -/
def State.owned (s : State) : Nat → Core := fun p => (s.core p).own

theorem State.owned_of_cores {s t : State} (h : t.cores = s.cores) : t.owned = s.owned := by
  funext p; simp only [State.owned, State.core, h]

theorem core_snoopAll (cs : Tbl Core) (a n p : Nat) : tblGet {} (snoopAll cs a n) p = (tblGet {} cs p).snoop a n := by
  induction cs with
  | nil => rfl
  | cons e t ih =>
    simp only [snoopAll, List.map_cons, tblGet] at ih ⊢
    split
    · rfl
    · exact ih

@[simp] theorem State.setBytes_core (s : State) (a p : Nat) (l : List Byte) : (s.setBytes a l).core p = (s.core p).snoop a l.length :=
  core_snoopAll ..

@[simp] theorem State.setBytes_owned (s : State) (a : Nat) (l : List Byte) : (s.setBytes a l).owned = s.owned := by
  funext p; simp [State.owned, Core.own, Core.snoop]

/-- The checks of an access reach no pair. -/
theorem State.owned_of_still {s t : State} (h : t.still = s.still) : t.owned = s.owned := State.owned_of_cores (State.cores_of_still h)

@[simp] theorem State.serveLine_owned (s : State) (x : LineAccess) : (s.serveLine x).2.owned = s.owned := by
  unfold State.serveLine
  split
  · rfl
  next c l _ =>
    dsimp only
    have hcheck : ∀ b, (s.checkLine c l b).owned = s.owned := fun b => State.owned_of_still (by simp)
    have hclean : (s.cleanLine c l).owned = s.owned := State.owned_of_still (by simp)
    have hfail : (s.rmwFail c l).owned = s.owned := State.owned_of_still (by simp)
    split_ifs <;> simp [hcheck, hclean, hfail]

@[simp] theorem State.yieldLock_owned (s : State) (c l : Nat) : (s.yieldLock c l).owned = s.owned := by
  unfold State.yieldLock
  split
  · rfl
  next k _ =>
    exact (foldl_keeps (fun r : List LineDone × State => r.2.owned) _ (fun r x => State.serveLine_owned r.2 x) k.waiting (k.served, s))

@[simp] theorem State.awaitLines_owned (s : State) (bs : List (Nat × Nat)) : (s.awaitLines bs).owned = s.owned := by
  unfold State.awaitLines
  dsimp only
  rw [foldl_keeps State.owned _ (by simp)]
  exact State.owned_of_still (foldl_keeps State.still _ (by simp) bs s)

@[simp] theorem State.readMem_owned (s : State) (cls : Nat) (w : World) (k : AccKind) (a n : Nat) :
    (s.readMem cls w k a n).2.2.owned = s.owned := by
  rw [← s.awaitLines_owned (s.openBeats cls k w (beats a n))]
  apply State.owned_of_still
  simp only [State.readMem, State.noteRefusal_still]
  exact foldl_keeps State.still _ (by simp) _ _

end Sys2Proof.Machine
end

section
/-! The instruction fetch (R182, R184). -/

namespace Sys2Proof.Machine

@[simp] theorem State.freeNat_core (s : State) (n p : Nat) : (s.freeNat n).2.core p = s.core p := rfl

/-- What a fetch leaves: registers, PC and level of its pair, and what `P` sees of memory where the reads of lines keep it. -/
structure State.FetchKeeps {α : Type} (s t : State) (p : Nat) (P : Tbl Byte → α) : Prop where
  gr : ∀ a : Reg, t.gr p a = s.gr p a
  pc : (t.core p).pc = (s.core p).pc
  level : (t.core p).level = (s.core p).level
  mem : P t.mem = P s.mem

theorem State.FetchKeeps.refl {α : Type} (s : State) (p : Nat) (P : Tbl Byte → α) : s.FetchKeeps s p P := ⟨fun _ => rfl, rfl, rfl, rfl⟩

theorem State.FetchKeeps.of_core {α : Type} {s t : State} {p : Nat} {P : Tbl Byte → α} (hg : (t.core p).g = (s.core p).g)
    (hpc : (t.core p).pc = (s.core p).pc) (hlevel : (t.core p).level = (s.core p).level) (hmem : P t.mem = P s.mem) : s.FetchKeeps t p P :=
  ⟨fun a => by rw [State.gr, State.gr, hg], hpc, hlevel, hmem⟩

theorem State.fetchAt_keeps {α : Type} (s : State) (p : Nat) (P : Tbl Byte → α)
    (hread : ∀ c w k a n, P (s.readMem c w k a n).2.2.mem = P s.mem) : s.FetchKeeps (s.fetchAt p).2 p P := by
  unfold State.fetchAt
  dsimp only
  split
  · exact .refl s p P
  split
  · split
    · exact .refl s p P
    · generalize hr : s.readMem (pairClass p (s.worldOfPair p)) (s.worldOfPair p) .fetch ((s.core p).pc.toNat / 64 * 64) 64 = r
      have hown : (r.2.2.core p).own = (s.core p).own := by
        rw [← hr]; exact congrFun (State.readMem_owned ..) p
      have hmem : P r.2.2.mem = P s.mem := by rw [← hr]; exact hread ..
      obtain ⟨data, ok, s1⟩ := r
      have hc := State.counts_pmuCount s1 p 2
      have hg : ((s1.pmuCount p 2).core p).g = (s.core p).g := hc.g.trans (congrArg (fun c => c.g) hown :)
      have hpc : ((s1.pmuCount p 2).core p).pc = (s.core p).pc := hc.pc.trans (congrArg (fun c => c.pc) hown :)
      have hlevel : ((s1.pmuCount p 2).core p).level = (s.core p).level := hc.level.trans (congrArg (fun c => c.level) hown :)
      have hm : P (s1.pmuCount p 2).mem = P s.mem := by rw [hc.mem]; exact hmem
      cases ok
      · exact .of_core hg hpc hlevel hm
      · simp only [Bool.not_true, Bool.false_eq_true, if_false]
        split <;> exact .of_core (by simpa using hg) (by simpa using hpc) (by simpa using hlevel) hm
  · exact .refl s p P

/-- Settles O2: a fetch at most reads a line; where no line is locked the read serves nobody ahead of itself. -/
theorem fetchKeepsProgram : Obligations.FetchKeepsProgram := by
  unfold Obligations.FetchKeepsProgram
  intro s p t
  have hk := s.fetchAt_keeps p.val (fun _ => ()) fun _ _ _ _ _ => rfl
  refine ⟨hk.gr, hk.pc, hk.level, fun hfree x => ?_⟩
  have hmem : t.mem = s.mem := (s.fetchAt_keeps p.val id fun _ _ _ _ _ => State.mem_of_still (State.readMem_still hfree ..)).mem
  rw [State.byte, State.byte, hmem]

end Sys2Proof.Machine
end

section
/-! Loads, stores and atomic operations of a pair on lines that its data cache holds (Table 8-2, R188, R189, R192). -/

namespace Sys2Proof.Machine

/-! Bytes of memory. -/

/-- What memory holds after bytes were stored: those bytes where they lie, elsewhere what it held. -/
theorem tblGet_memPut (m : Tbl Byte) (a x : Nat) (l : List Byte) :
    tblGet 0 (memPut m a l) x = if a ≤ x then l.getD (x - a) (tblGet 0 m x) else tblGet 0 m x := by
  induction l generalizing m a with
  | nil => simp [memPut]
  | cons b t ih =>
    rw [memPut, ih]
    rcases Nat.lt_trichotomy x a with h | h | h
    · rw [if_neg (by omega), if_neg (by omega), tblGet_put_other _ _ _ _ (by omega)]
    · subst h
      rw [if_neg (by omega), if_pos (Nat.le_refl _), tblGet_put_same]
      simp
    · rw [if_pos (by omega), if_pos (by omega), tblGet_put_other _ _ _ _ (by omega), show x - a = (x - (a + 1)) + 1 by omega, List.getD_cons_succ]

theorem leBytes_length (n v : Nat) : (leBytes n v).length = n := by
  induction n generalizing v with
  | zero => rfl
  | succ n ih => simp [leBytes, ih]

theorem leBytes_getD (n v i : Nat) (d : Byte) (h : i < n) : (leBytes n v).getD i d = BitVec.ofNat 8 (v / 256 ^ i) := by
  induction n generalizing v i with
  | zero => omega
  | succ n ih =>
    cases i with
    | zero => simp [leBytes]
    | succ i =>
      rw [leBytes, List.getD_cons_succ, ih _ _ (by omega), Nat.pow_succ', Nat.div_div_eq_div_mul]

theorem State.byte_of_mem {s t : State} (h : t.mem = s.mem) (x : Nat) : t.byte x = s.byte x := by
  rw [State.byte, State.byte, h]

/-! An instruction ends. -/

/-- An instruction that writes D and the PC, whatever it did before, retires from the state before those writes. -/
theorem State.run_retires_from {s u : State} {r : Run} (h : s.runs r) {e : Host.Outcome State Fault Refusal} {f : State → Nat → Bool × State}
    (he : e = s.runInstr r f) {b : Bool} {d : Reg} {v : Word64}
    (hf : f (s.atInstr r) r.pair.val = (b, (u.setGr r.pair.val d v).pcNext r.pair.val)) (hd : u.tmp.due = []) :
    ∃ t, e = .next t ∧ u.retires t r.pair.val [d] v ((u.core r.pair.val).pc + 4) :=
  ⟨_, State.ends_of_runs h he rfl (hf.trans (by rw [State.pcNext_setGr])), State.retires_of_end _ _ _ _ _ _ _ _ hd (.refl _ _)⟩

/-- The same without a destination. -/
theorem State.run_passes_from {s u : State} {r : Run} (h : s.runs r) {e : Host.Outcome State Fault Refusal} {f : State → Nat → Bool × State}
    (he : e = s.runInstr r f) {b : Bool} (hf : f (s.atInstr r) r.pair.val = (b, u.pcNext r.pair.val)) (hd : u.tmp.due = []) :
    ∃ t, e = .next t ∧ u.retires t r.pair.val [] 0 ((u.core r.pair.val).pc + 4) :=
  ⟨_, State.ends_of_runs h he rfl hf, State.retires_of_jump _ _ _ _ _ _ hd (.refl _ _)⟩

theorem State.Counts.retires {s t u : State} {p : Nat} {d : List Reg} {v pc : Word64} (h : s.Counts t p) (k : t.retires u p d v pc) :
    s.retires u p d v pc := by
  obtain ⟨hgr, hpc, hrest, hothers, hframe⟩ := k
  exact ⟨fun a => by rw [hgr, h.gr], hpc, hrest.trans h.rest, fun q hq => (hothers q hq).trans (h.others q hq), State.frame_trans h.frame hframe⟩

theorem State.retires.mem {s t : State} {p : Nat} {d : List Reg} {v pc : Word64} (h : s.retires t p d v pc) : t.mem = s.mem := by
  obtain ⟨-, -, -, -, hframe⟩ := h
  exact (congrArg State.mem hframe :)

theorem State.retires.regs {s t : State} {p : Nat} {d : List Reg} {v pc : Word64} (h : s.retires t p d v pc) : t.regs = s.regs := by
  obtain ⟨-, -, -, -, hframe⟩ := h
  exact (congrArg State.regs hframe :)

theorem State.retires.resv {s t : State} {p : Nat} {d : List Reg} {v pc : Word64} (h : s.retires t p d v pc) :
    (t.core p).resv = (s.core p).resv := by
  obtain ⟨-, -, hrest, -, -⟩ := h
  exact Core.of_rest hrest Core.resv

/-! A line that the pair holds. -/

theorem State.hits_iff (s : State) (p a : Nat) :
    s.hits p a = true ↔ (∃ b, memType a = .cached b) ∧ ∃ x, cacheHit (s.core p).dcache (s.worldOfPair p) a = some x := by
  unfold State.hits
  rw [Bool.and_eq_true, Option.isSome_iff_exists]
  cases memType a <;> simp

theorem State.not_wouldHold_of_hits {s : State} {p a : Nat} (h : s.hits p a = true) : s.wouldHold p a = false := by
  obtain ⟨⟨b, hb⟩, x, hx⟩ := (s.hits_iff p a).mp h
  simp [State.wouldHold, State.leavesPair, hb, hx]

theorem State.Counts.world {s t : State} {p : Nat} (h : s.Counts t p) : t.worldOfPair p = s.worldOfPair p := by
  rw [State.worldOfPair, State.worldOfPair, h.level]

theorem State.Counts.hits {s t : State} {p : Nat} (h : s.Counts t p) (a : Nat) : t.hits p a = s.hits p a := by
  rw [State.hits, State.hits, h.world, show (t.core p).dcache = (s.core p).dcache from Core.of_rest h.rest Core.dcache]

theorem State.cachedLoad_of_hits {s : State} {p a : Nat} (h : s.hits p a = true) (n : Nat) : s.cachedLoad p a n = (some (s.bytes a n), s) := by
  obtain ⟨-, x, hx⟩ := (s.hits_iff p a).mp h
  simp only [State.cachedLoad, hx]

theorem State.loadBytes_of_hits {s : State} {p a : Nat} (h : s.hits p a = true) (n : Nat) : s.loadBytes p a n = (some (s.bytes a n), s) := by
  obtain ⟨⟨b, hb⟩, -⟩ := (s.hits_iff p a).mp h
  simp only [State.loadBytes, hb, State.cachedLoad_of_hits h]

theorem State.bytes_of_mem {s t : State} (h : t.mem = s.mem) (a n : Nat) : t.bytes a n = s.bytes a n := by
  induction n generalizing a with
  | zero => rfl
  | succ n ih => rw [State.bytes, State.bytes, ih, State.byte_of_mem h]

theorem State.lineToWrite_of_hits {s : State} {p a : Nat} (h : s.hits p a = true) : ∃ x, s.lineToWrite p a = (some x, s) := by
  obtain ⟨-, x, hx⟩ := (s.hits_iff p a).mp h
  exact ⟨x, by simp only [State.lineToWrite, hx]⟩

theorem State.storeMem_of_hits {s : State} {p a : Nat} (h : s.hits p a = true) (l : List Byte) : ∃ x, s.storeMem p a l = s.storeHit p x a l := by
  obtain ⟨⟨b, hb⟩, -⟩ := (s.hits_iff p a).mp h
  obtain ⟨x, hx⟩ := State.lineToWrite_of_hits h
  exact ⟨x, by simp only [State.storeMem, hb, hx]⟩

/-- A pair with no guarded sequence open breaks none with a write. -/
theorem State.interleaveAt_of_noSequence {s : State} {p : Nat} (h : s.noSequence p = true) (a : Nat) : s.interleaveAt (s.reqOf p) a = s := by
  refine State.interleave_of_all ?_
  rw [List.all_eq_true]
  intro g hg
  rw [List.all_eq_true.mp h g hg, Bool.true_or]

theorem State.Counts.noSequence {s t : State} {p : Nat} (h : s.Counts t p) : t.noSequence p = s.noSequence p := by
  have hbus : t.bus = s.bus := (congrArg State.bus h.frame :)
  simp only [State.noSequence, State.reqOf, hbus, h.world, h.level]

/-- What a store into a held line leaves: the bytes stored, the pair's registers, PC and reservation on other lines, registers of the device. -/
theorem State.storeHit_mem (s : State) (p a : Nat) (x : CacheLine) (l : List Byte) : (s.storeHit p x a l).mem = memPut s.mem a l := rfl

theorem State.storeHit_byte (s : State) (p a n v : Nat) (x : CacheLine) {i : Nat} (hi : i < n) :
    (s.storeHit p x a (leBytes n v)).byte (a + i) = if a + i < 0x40000 then s.byte (a + i) else BitVec.ofNat 8 (v / 256 ^ i) := by
  simp only [State.byte, State.storeHit_mem, tblGet_memPut, Nat.le_add_right, if_true, Nat.add_sub_cancel_left, leBytes_getD n v i _ hi]
  split <;> rfl

theorem State.storeHit_keepsBytes (s : State) (p a n v : Nat) (x : CacheLine) : s.keepsBytes (s.storeHit p x a (leBytes n v)) a n := by
  intro y hy
  simp only [State.byte, State.storeHit_mem, tblGet_memPut]
  have : a ≤ y → (leBytes n v).getD (y - a) (tblGet 0 s.mem y) = tblGet 0 s.mem y := fun h => by
    rw [List.getD_eq_default _ _ (by rw [leBytes_length]; omega)]
  split_ifs with h1 h2
  · rfl
  · exact this h2
  · rfl

theorem State.storeHit_core (s : State) (p a : Nat) (x : CacheLine) (l : List Byte) :
    ((s.storeHit p x a l).core p).g = (s.core p).g ∧ ((s.storeHit p x a l).core p).pc = (s.core p).pc ∧
      ((s.core p).resv = none → ((s.storeHit p x a l).core p).resv = none) := by
  simp only [State.storeHit, State.core_setCore_same, State.setBytes_core, Core.snoop, true_and]
  intro h
  rw [h]

theorem State.storeHit_gr (s : State) (p a : Nat) (x : CacheLine) (l : List Byte) (g : Reg) : (s.storeHit p x a l).gr p g = s.gr p g := by
  rw [State.gr, State.gr, (s.storeHit_core p a x l).1]

/-! Loads. -/

section
variable {s : State} {r : Run} (h : s.runs r) {e : Host.Outcome State Fault Refusal} {d a : Reg} {imm : BitVec 16} {n : Nat}
  {ext : Nat → Word64} (he : e = s.runInstr r fun s p => s.load p d (s.addrOf p a imm) n ext)
  (hx : ((s.atInstr r).addrOf r.pair.val a imm).toNat % n = 0)
include h he hx

/-- A load whose access obtains bytes retires with them. -/
theorem State.load_retires_from {l : List Byte} {s3 : State} (hw : (s.atInstr r).wouldHold r.pair.val ((s.atInstr r).addrOf r.pair.val a imm).toNat = false)
    (hl : ((s.atInstr r).pmuCount r.pair.val 4).loadBytes r.pair.val ((s.atInstr r).addrOf r.pair.val a imm).toNat n = (some l, s3)) (hd : s3.tmp.due = []) :
    ∃ t, e = .next t ∧ s3.retires t r.pair.val [d] (ext (leNat l)) ((s3.core r.pair.val).pc + 4) :=
  State.run_retires_from (b := true) h he (by simp only [State.load, hx, hw, hl, ne_eq, not_true_eq_false, Bool.false_eq_true, if_false]) hd

/-- A load that hits retires with what memory holds. -/
theorem State.load_retires_of_hits (hit : (s.atInstr r).hits r.pair.val ((s.atInstr r).addrOf r.pair.val a imm).toNat = true) :
    ∃ t, e = .next t ∧ (s.atInstr r).retires t r.pair.val [d] (ext (leNat ((s.atInstr r).bytes ((s.atInstr r).addrOf r.pair.val a imm).toNat n)))
      (((s.atInstr r).core r.pair.val).pc + 4) := by
  have hc := State.counts_pmuCount (s.atInstr r) r.pair.val 4
  obtain ⟨t, ht, hr⟩ := State.load_retires_from h he hx (State.not_wouldHold_of_hits hit)
    (State.loadBytes_of_hits (by rw [hc.hits]; exact hit) n) (by rw [hc.due]; exact h.due)
  rw [hc.pc, State.bytes_of_mem hc.mem] at hr
  exact ⟨t, ht, hc.retires hr⟩

end

/-- Settles O6: a load retires with the bytes its access obtains; a hit obtains what memory holds. -/
theorem loads : Obligations.Loads := by
  unfold Obligations.Loads
  constructor
  · intro r d a imm s h p s1 x v next hit
    refine ⟨fun hx => ?_, fun hx => ⟨?_, ?_⟩, fun hx => ⟨?_, ?_⟩, ?_, ?_⟩
    · exact State.load_retires_of_hits (e := execLd r d a imm s) (ext := zextNat) h rfl hx hit
    · exact State.load_retires_of_hits (e := execLw r d a imm s) (ext := sextNat 32) h rfl hx hit
    · exact State.load_retires_of_hits (e := execLwu r d a imm s) (ext := zextNat) h rfl hx hit
    · exact State.load_retires_of_hits (e := execLh r d a imm s) (ext := sextNat 16) h rfl hx hit
    · exact State.load_retires_of_hits (e := execLhu r d a imm s) (ext := zextNat) h rfl hx hit
    · exact State.load_retires_of_hits (e := execLb r d a imm s) (ext := sextNat 8) h rfl (Nat.mod_one _) hit
    · exact State.load_retires_of_hits (e := execLbu r d a imm s) (ext := zextNat) h rfl (Nat.mod_one _) hit
  · intro r d a imm s l s3 h p s1 x hw hd got next
    refine ⟨fun hx hg => ?_, fun hx hg => ⟨?_, ?_⟩, fun hx hg => ⟨?_, ?_⟩, fun hg => ⟨?_, ?_⟩⟩
    · exact State.load_retires_from (e := execLd r d a imm s) (ext := zextNat) h rfl hx hw hg hd
    · exact State.load_retires_from (e := execLw r d a imm s) (ext := sextNat 32) h rfl hx hw hg hd
    · exact State.load_retires_from (e := execLwu r d a imm s) (ext := zextNat) h rfl hx hw hg hd
    · exact State.load_retires_from (e := execLh r d a imm s) (ext := sextNat 16) h rfl hx hw hg hd
    · exact State.load_retires_from (e := execLhu r d a imm s) (ext := zextNat) h rfl hx hw hg hd
    · exact State.load_retires_from (e := execLb r d a imm s) (ext := sextNat 8) h rfl (Nat.mod_one _) hw hg hd
    · exact State.load_retires_from (e := execLbu r d a imm s) (ext := zextNat) h rfl (Nat.mod_one _) hw hg hd

end Sys2Proof.Machine
end

section
/-! Stores of a pair (Table 8-2, R192). -/

namespace Sys2Proof.Machine

/-- A store of a pair once it is counted and its address has broken the sequences that it breaks. -/
def State.storeAccess (s : State) (p x : Nat) : State :=
  (if memType x = .uncached then (s.pmuCount p 5).pmuCount p 6 else s.pmuCount p 5).interleaveAt ((s.pmuCount p 5).reqOf p) x

/-- A store of a pair whose access has been sent (R192). -/
def State.postedStore (s : State) (p x n : Nat) (l : List Byte) : State :=
  if memType x = .device then ((s.pmuCount p 5).pmuCount p 6).storeReg ((s.pmuCount p 5).reqOf p) x n (leNat l)
  else (s.storeAccess p x).storeMem p x l

/-- An aligned store that does not wait at the table is posted. -/
theorem State.store_eq_posted {s : State} {p n : Nat} {a : Word64} {l : List Byte} (hl : l.length = n) (hx : a.toNat % n = 0)
    (hw : memType a.toNat = .device ∨ (s.storeAccess p a.toNat).wouldHold p a.toNat = false) :
    s.store p a l = (true, (s.postedStore p a.toNat n l).pcNext p) := by
  subst hl
  unfold State.store State.postedStore
  simp only [hx, ne_eq, not_true_eq_false, if_false]
  unfold State.storeAccess at hw ⊢
  cases hm : memType a.toNat with
  | device => rfl
  | uncached =>
    rw [hm] at hw
    have hw := hw.resolve_left (by simp)
    simp only [if_true] at hw
    simp only [reduceCtorEq, if_true, if_false, hw, Bool.false_eq_true]
  | cached b =>
    rw [hm] at hw
    have hw := hw.resolve_left (by simp)
    simp only [reduceCtorEq, if_false] at hw
    simp only [reduceCtorEq, if_false, hw, Bool.false_eq_true]

/-- A hit with no sequence open goes straight into the line. -/
theorem State.storeAccess_of_hits {s : State} {p x : Nat} (hit : s.hits p x = true) (hn : s.noSequence p = true) :
    s.storeAccess p x = s.pmuCount p 5 := by
  obtain ⟨⟨b, hb⟩, -⟩ := (s.hits_iff p x).mp hit
  have hc := State.counts_pmuCount s p 5
  simp only [State.storeAccess, hb, reduceCtorEq, if_false]
  exact State.interleaveAt_of_noSequence (by rw [hc.noSequence]; exact hn) x

theorem State.postedStore_of_hits {s : State} {p x : Nat} (hit : s.hits p x = true) (hn : s.noSequence p = true) (n : Nat) (l : List Byte) :
    ∃ y, s.postedStore p x n l = (s.pmuCount p 5).storeHit p y x l := by
  obtain ⟨⟨b, hb⟩, -⟩ := (s.hits_iff p x).mp hit
  have hc := State.counts_pmuCount s p 5
  simp only [State.postedStore, hb, reduceCtorEq, if_false, State.storeAccess_of_hits hit hn]
  exact State.storeMem_of_hits (by rw [hc.hits]; exact hit) l

section
variable {s : State} {r : Run} (h : s.runs r) {e : Host.Outcome State Fault Refusal} {d a : Reg} {imm : BitVec 16} {n : Nat}
  (he : e = s.runInstr r fun s p => s.store p (s.addrOf p a imm) (leBytes n (s.gr p d).toNat))
  (hx : ((s.atInstr r).addrOf r.pair.val a imm).toNat % n = 0)
include h he hx

/-- A posted store retires. -/
theorem State.store_retires (hw : memType ((s.atInstr r).addrOf r.pair.val a imm).toNat = .device ∨
      ((s.atInstr r).storeAccess r.pair.val ((s.atInstr r).addrOf r.pair.val a imm).toNat).wouldHold r.pair.val
        ((s.atInstr r).addrOf r.pair.val a imm).toNat = false)
    {u : State} (hu : (s.atInstr r).postedStore r.pair.val ((s.atInstr r).addrOf r.pair.val a imm).toNat n
      (leBytes n ((s.atInstr r).gr r.pair.val d).toNat) = u) (hd : u.tmp.due = []) :
    ∃ t, e = .next t ∧ u.retires t r.pair.val [] 0 ((u.core r.pair.val).pc + 4) :=
  State.run_passes_from (b := true) h he (by rw [← hu]; exact State.store_eq_posted (leBytes_length ..) hx hw) hd

/-- A store that hits changes its bytes and no others. -/
theorem State.store_of_hits (hit : (s.atInstr r).hits r.pair.val ((s.atInstr r).addrOf r.pair.val a imm).toNat = true)
    (hn : (s.atInstr r).noSequence r.pair.val = true) :
    ∃ t, e = .next t ∧
      (∀ i, i < n → t.byte (((s.atInstr r).addrOf r.pair.val a imm).toNat + i) =
        if ((s.atInstr r).addrOf r.pair.val a imm).toNat + i < 0x40000 then (s.atInstr r).byte (((s.atInstr r).addrOf r.pair.val a imm).toNat + i)
        else BitVec.ofNat 8 (((s.atInstr r).gr r.pair.val d).toNat / 256 ^ i)) ∧
      (s.atInstr r).keepsBytes t ((s.atInstr r).addrOf r.pair.val a imm).toNat n ∧
      (∀ g : Reg, t.gr r.pair.val g = (s.atInstr r).gr r.pair.val g) ∧ (t.core r.pair.val).pc = ((s.atInstr r).core r.pair.val).pc + 4 ∧
      t.regs = (s.atInstr r).regs := by
  have hc := State.counts_pmuCount (s.atInstr r) r.pair.val 5
  have hw : ((s.atInstr r).storeAccess r.pair.val ((s.atInstr r).addrOf r.pair.val a imm).toNat).wouldHold r.pair.val
      ((s.atInstr r).addrOf r.pair.val a imm).toNat = false := by
    rw [State.storeAccess_of_hits hit hn]
    exact State.not_wouldHold_of_hits (by rw [hc.hits]; exact hit)
  obtain ⟨y, hy⟩ := State.postedStore_of_hits hit hn n (leBytes n ((s.atInstr r).gr r.pair.val d).toNat)
  obtain ⟨t, ht, hr⟩ := State.store_retires h he hx (.inr hw) hy (hc.due ▸ h.due)
  refine ⟨t, ht, fun i hi => ?_, fun z hz => ?_, fun g => ?_, ?_, ?_⟩
  · rw [State.byte_of_mem hr.mem, State.storeHit_byte _ _ _ _ _ _ hi, State.byte_of_mem hc.mem]
  · rw [State.byte_of_mem hr.mem, State.storeHit_keepsBytes _ _ _ _ _ _ _ hz, State.byte_of_mem hc.mem]
  · have := hr.1 g
    simp only [List.not_mem_nil, false_and, if_false] at this
    rw [this, State.storeHit_gr, hc.gr]
  · obtain ⟨-, hpc, -⟩ := hr
    rw [hpc, (State.storeHit_core ..).2.1, hc.pc]
  · rw [hr.regs]
    exact (congrArg State.regs hc.frame :)

end

/-- Settles O8: an aligned store is posted, and a hit puts its bytes into the line. -/
theorem stores : Obligations.Stores := by
  unfold Obligations.Stores
  constructor
  · intro r d a imm s h p s1 x done hit hn
    refine ⟨fun hx => ?_, fun hx => ?_, fun hx => ?_, ?_⟩
    · exact State.store_of_hits (e := execSd r d a imm s) (n := 8) h rfl hx hit hn
    · exact State.store_of_hits (e := execSw r d a imm s) (n := 4) h rfl hx hit hn
    · exact State.store_of_hits (e := execSh r d a imm s) (n := 2) h rfl hx hit hn
    · exact State.store_of_hits (e := execSb r d a imm s) (n := 1) h rfl (Nat.mod_one _) hit hn
  · intro r d a imm s h p s1 x l s2 s3 posted done free hw
    refine ⟨fun hx hd => ?_, fun hx hd => ?_, fun hx hd => ?_, fun hd => ?_⟩
    · exact State.store_retires (e := execSd r d a imm s) (n := 8) h rfl hx hw rfl hd
    · exact State.store_retires (e := execSw r d a imm s) (n := 4) h rfl hx hw rfl hd
    · exact State.store_retires (e := execSh r d a imm s) (n := 2) h rfl hx hw rfl hd
    · exact State.store_retires (e := execSb r d a imm s) (n := 1) h rfl (Nat.mod_one _) hw rfl hd

end Sys2Proof.Machine
end

section
/-! LR, SC and the AMO instructions on a line that the pair holds (R189). -/

namespace Sys2Proof.Machine

/-- Atomic operations are made on memory above the boot ROM. -/
theorem rom_le_of_atomicOk {x : Nat} (h : atomicOk x = true) : 0x40000 ≤ x := by
  by_contra hx
  simp [atomicOk, memType, show x < 0x40000 by omega] at h

/-- Changing the reservation of a pair changes neither its lines nor its world. -/
theorem State.hits_setCore_resv (s : State) (p a : Nat) (v : Option Nat) :
    (s.setCore p { s.core p with resv := v }).hits p a = s.hits p a := by
  simp [State.hits, State.worldOfPair]

theorem State.noSequence_setCore_resv (s : State) (p : Nat) (v : Option Nat) :
    (s.setCore p { s.core p with resv := v }).noSequence p = s.noSequence p := by
  simp only [State.noSequence, State.reqOf, State.worldOfPair, State.core_setCore_same]
  rfl

section
variable {s : State} {p : Nat} {d : Reg} {a b : Word64} (hx : a.toNat % 8 = 0) (hok : atomicOk a.toNat = true)
include hx hok

/-- LR of a held line reads it and reserves it. -/
theorem State.loadReserve_of_hits (hit : s.hits p a.toNat = true) :
    s.loadReserve p d a = (true, (((s.pmuCount p 4).setCore p { (s.pmuCount p 4).core p with resv := some (a.toNat / 64) }).setGr p d
      (zextNat (leNat (s.bytes a.toNat 8)))).pcNext p) := by
  have hc := State.counts_pmuCount s p 4
  have hload : (s.pmuCount p 4).cachedLoad p a.toNat 8 = (some (s.bytes a.toNat 8), s.pmuCount p 4) := by
    rw [State.cachedLoad_of_hits (by rw [hc.hits]; exact hit), State.bytes_of_mem hc.mem]
  simp [State.loadReserve, hx, hok, State.not_wouldHold_of_hits hit, hload]

/-- SC with the reservation of a held line stores into it. -/
theorem State.storeCond_of_hits (hit : s.hits p a.toNat = true) (hn : s.noSequence p = true) (hr : (s.core p).resv = some (a.toNat / 64)) :
    ∃ y, s.storeCond p d a b = (true, ((((s.pmuCount p 5).setCore p { (s.pmuCount p 5).core p with resv := none }).storeHit p y a.toNat
      (leBytes 8 b.toNat)).setGr p d 0).pcNext p) := by
  have hc := State.counts_pmuCount s p 5
  obtain ⟨y, hy⟩ := State.storeMem_of_hits (s := (s.pmuCount p 5).setCore p { (s.pmuCount p 5).core p with resv := none })
    (by rw [State.hits_setCore_resv, hc.hits]; exact hit) (leBytes 8 b.toNat)
  refine ⟨y, ?_⟩
  simp only [State.storeCond, hx, hok, hr, State.not_wouldHold_of_hits hit]
  rw [State.interleaveAt_of_noSequence (by rw [State.noSequence_setCore_resv, hc.noSequence]; exact hn), hy]
  simp

/-- SC without the reservation stores nothing. -/
theorem State.storeCond_of_lost (hr : (s.core p).resv ≠ some (a.toNat / 64)) :
    s.storeCond p d a b = (true, ((s.setCore p { s.core p with resv := none }).setGr p d 1).pcNext p) := by
  simp [State.storeCond, hx, hok, hr]

/-- An AMO on a held line reads it and stores the result of its operation into it. -/
theorem State.amo_of_hits (hit : s.hits p a.toNat = true) (hn : s.noSequence p = true) (k : Amo) :
    ∃ y, s.amo p k d a b = (true, ((((s.pmuCount p 4).pmuCount p 5).storeHit p y a.toNat
      (leBytes 8 (amoOp k (zextNat (leNat (s.bytes a.toNat 8))) b).toNat)).setGr p d (zextNat (leNat (s.bytes a.toNat 8)))).pcNext p) := by
  have hc := (State.counts_pmuCount s p 4).trans (State.counts_pmuCount _ p 5)
  obtain ⟨y, hy⟩ := State.lineToWrite_of_hits (s := (s.pmuCount p 4).pmuCount p 5) (by rw [hc.hits]; exact hit)
  refine ⟨y, ?_⟩
  simp only [State.amo, hx, hok, State.not_wouldHold_of_hits hit, hy, State.bytes_of_mem hc.mem]
  rw [State.interleaveAt_of_noSequence (by rw [hc.noSequence]; exact hn)]
  simp

end

/-- What a store into a held line shows once its instruction has retired. -/
theorem State.shown_of_storeHit {s u t : State} {p a v : Nat} {y : CacheLine} {d : Reg} {w : Word64}
    (hr : (u.storeHit p y a (leBytes 8 v)).retires t p [d] w (((u.storeHit p y a (leBytes 8 v)).core p).pc + 4)) (ha : 0x40000 ≤ a)
    (hg : (u.core p).g = (s.core p).g) (hpc : (u.core p).pc = (s.core p).pc) (hmem : u.mem = s.mem) :
    (t.core p).pc = (s.core p).pc + 4 ∧ (∀ g : Reg, t.gr p g = if g = d ∧ g ≠ 31 then w else s.gr p g) ∧
      (∀ i, i < 8 → t.byte (a + i) = BitVec.ofNat 8 (v / 256 ^ i)) ∧ s.keepsBytes t a 8 := by
  have hm := hr.mem
  obtain ⟨hgr, htpc, -⟩ := hr
  refine ⟨?_, fun g => ?_, fun i hi => ?_, fun z hz => ?_⟩
  · rw [htpc, (State.storeHit_core ..).2.1, hpc]
  · rw [hgr, State.storeHit_gr, State.gr, hg]
    simp only [List.mem_singleton]
    rfl
  · rw [State.byte_of_mem hm, State.storeHit_byte _ _ _ _ _ _ hi, if_neg (by omega)]
  · rw [State.byte_of_mem hm, State.storeHit_keepsBytes _ _ _ _ _ _ _ hz, State.byte_of_mem hmem]

/-- Settles O9: LR reads and reserves a held line; SC stores with the reservation and not without it. -/
theorem reservedPairs : Obligations.ReservedPairs := by
  unfold Obligations.ReservedPairs
  intro r d a b s h p s1 x next hx hok
  refine ⟨fun hit => ?_, fun hit hn hr => ?_, fun hr => ?_⟩
  · have hc := State.counts_pmuCount s1 p 4
    obtain ⟨t, ht, hret⟩ := State.run_retires_from (e := execLr r d a s) h rfl (State.loadReserve_of_hits hx hok hit) (hc.due ▸ h.due)
    have hmem := hret.mem
    have hresv := hret.resv
    obtain ⟨hgr, hpc, -⟩ := hret
    refine ⟨t, ht, ?_, ?_, fun g => ?_, ?_⟩
    · rw [hresv, State.core_setCore_same]
    · rw [hpc, State.core_setCore_same, hc.pc]
    · rw [hgr, ← hc.gr g]
      simp only [List.mem_singleton, State.gr, State.core_setCore_same, zextNat]
      rfl
    · rw [hmem]; exact hc.mem
  · have hc := State.counts_pmuCount s1 p 5
    obtain ⟨y, hy⟩ := State.storeCond_of_hits hx hok hit hn hr
    obtain ⟨t, ht, hret⟩ := State.run_retires_from (e := execSc r d a b s) h rfl hy (hc.due ▸ h.due)
    have hresv := hret.resv
    obtain ⟨hpc, hgr, hbytes, hkeeps⟩ := State.shown_of_storeHit (s := s1) hret (rom_le_of_atomicOk hok)
      (by rw [State.core_setCore_same]; exact hc.g) (by rw [State.core_setCore_same]; exact hc.pc) hc.mem
    exact ⟨t, ht, hresv.trans ((State.storeHit_core ..).2.2 (by rw [State.core_setCore_same])), hpc, hgr, hbytes, hkeeps⟩
  · obtain ⟨t, ht, hret⟩ := State.run_retires_from (e := execSc r d a b s) h rfl (State.storeCond_of_lost hx hok hr) h.due
    have hmem := hret.mem
    have hresv := hret.resv
    obtain ⟨hgr, hpc, -⟩ := hret
    refine ⟨t, ht, ?_, ?_, fun g => ?_, hmem⟩
    · rw [hresv, State.core_setCore_same]
    · rw [hpc, State.core_setCore_same]
    · rw [hgr]
      simp only [List.mem_singleton, State.gr, State.core_setCore_same]
      rfl

/-- Settles O10: each AMO is `amo` of its operation, on a held line. -/
theorem atomicOperations : Obligations.AtomicOperations := by
  unfold Obligations.AtomicOperations
  intro r d a b s h p s1 x old y done hx hok hit hn
  have hall : ∀ (k : Amo) (e : Host.Outcome State Fault Refusal), (e = s.runInstr r fun s p => s.amo p k d (s.gr p a) (s.gr p b)) →
      ∃ t, e = .next t ∧ done t (amoOp k old y) := fun k e he => by
    have hc := (State.counts_pmuCount s1 p 4).trans (State.counts_pmuCount _ p 5)
    obtain ⟨z, hz⟩ := State.amo_of_hits hx hok hit hn k
    obtain ⟨t, ht, hret⟩ := State.run_retires_from h he hz (hc.due ▸ h.due)
    obtain ⟨hpc, hgr, hbytes, hkeeps⟩ := State.shown_of_storeHit hret (rom_le_of_atomicOk hok) hc.g hc.pc hc.mem
    exact ⟨t, ht, hgr, hpc, hbytes, hkeeps⟩
  refine ⟨?_, ?_, ?_, ?_, ?_, ?_, ?_, ?_, ?_⟩
  · exact hall .swap (execAmoSwap r d a b s) rfl
  · exact hall .add (execAmoAdd r d a b s) rfl
  · exact hall .and (execAmoAnd r d a b s) rfl
  · exact hall .or (execAmoOr r d a b s) rfl
  · exact hall .xor (execAmoXor r d a b s) rfl
  · have := hall .max (execAmoMax r d a b s) rfl
    simp only [amoOp, BitVec.slt_iff_toInt_lt] at this
    exact this
  · have := hall .min (execAmoMin r d a b s) rfl
    simp only [amoOp, BitVec.slt_iff_toInt_lt] at this
    exact this
  · have := hall .maxu (execAmoMaxu r d a b s) rfl
    simp only [amoOp, ult_iff] at this
    exact this
  · have := hall .minu (execAmoMinu r d a b s) rfl
    simp only [amoOp, ult_iff] at this
    exact this

end Sys2Proof.Machine
end

section
/-! FENCE, the CACHE operations and WFI (R186, R188, R197, R208, R240). -/

namespace Sys2Proof.Machine

/-! The data cache. -/

/-- The line that a world hits is the line of the address. -/
theorem cacheHit_spec {l : List CacheLine} {w : World} {a : Nat} {x : CacheLine} (h : cacheHit l w a = some x) :
    (x.addr == a / 64 * 64 && !(w == .normal && x.world == .secure)) = true :=
  List.find?_some (p := fun x : CacheLine => x.addr == a / 64 * 64 && !(w == .normal && x.world == .secure)) h

/-- A line put in front is hit where the one that it stands for was. -/
theorem cacheHit_cons {l : List CacheLine} {w : World} {a : Nat} {x y : CacheLine} (h : cacheHit l w a = some x) (haddr : y.addr = x.addr)
    (hworld : y.world = x.world) (t : List CacheLine) : cacheHit (y :: t) w a = some y := by
  have hx := cacheHit_spec h
  rw [← haddr, ← hworld] at hx
  rw [cacheHit, List.find?_cons, hx]

/-- A line that left the cache is not hit. -/
theorem cacheHit_cacheDrop (l : List CacheLine) (w : World) (a : Nat) : cacheHit (cacheDrop l a) w a = none := by
  rw [cacheHit, List.find?_eq_none]
  intro x hx
  rw [cacheDrop, List.mem_filter] at hx
  have : (x.addr == a / 64 * 64) = false := by simpa using hx.2
  simp [this]

/-! Writing back. -/

theorem State.violation_tmp (s : State) (cls : Nat) (w : World) (k : AccKind) (src e a : Nat) : (s.violation cls w k src e a).tmp = s.tmp := by
  unfold State.violation; dsimp only; split <;> rfl

theorem State.noteRefusal_tmp (s : State) (cls : Nat) (w : World) (k : AccKind) (r : Option (Nat × Nat × Nat)) :
    (s.noteRefusal cls w k r).tmp = s.tmp := by
  unfold State.noteRefusal
  split
  · exact s.violation_tmp ..
  · rfl

/-- A write-back that is carried out writes its line anew, and changes nothing else. -/
theorem State.writeBack_of_ok {s : State} {p : Nat} {x : CacheLine} (h : s.writeBackOk p x = true) : ∃ d, s.writeBack p x = { s with ddr := d } := by
  rw [State.writeBackOk, Bool.and_eq_true, Option.isNone_iff_eq_none] at h
  unfold State.writeBack
  simp only [h.1, h.2, if_true]
  split
  · exact ⟨s.ddr, rfl⟩
  · split
    · exact ⟨_, rfl⟩
    · exact ⟨s.ddr, rfl⟩

/-- What a refused write-back leaves: the line's stored bytes are seen again, its pair has an imprecise store error. -/
structure State.LostLine (s t : State) (p : Nat) (x : CacheLine) : Prop where
  core : t.core p = { s.core p with storeErrs := (s.core p).storeErrs ++ [(x.addr, (s.core p).level)] }
  mem : t.mem = memPut s.mem x.addr x.data
  tmp : t.tmp = s.tmp

theorem State.LostLine.of_error {s u : State} {p : Nat} {x : CacheLine} (hcores : u.cores = s.cores) (hmem : u.mem = memPut s.mem x.addr x.data)
    (htmp : u.tmp = s.tmp) : s.LostLine (u.errorWrite (s.reqOf p) x.addr) p x := by
  have hcore : u.core p = s.core p := by rw [State.core, State.core, hcores]
  exact ⟨by simp [State.reqOf, State.errorWrite, hcore], hmem, htmp⟩

theorem State.writeBack_of_refused {s : State} {p : Nat} {x : CacheLine} (hd : x.dirty = true) (h : s.writeBackOk p x = false) :
    s.LostLine (s.writeBack p x) p x := by
  have hrev : s.revertLine x = { s with mem := memPut s.mem x.addr x.data } := by simp [State.revertLine, hd]
  rw [State.writeBackOk] at h
  unfold State.writeBack
  simp only [hd, Bool.not_true, Bool.false_eq_true, if_false, hrev]
  generalize s.firstRefusal (pairClass p x.world) .write x.world (beats x.addr 64) = r at h
  cases r with
  | none =>
    simp only [Option.isNone_none, Bool.true_and] at h
    simp only [h, Bool.false_eq_true, if_false]
    exact .of_error rfl rfl rfl
  | some r =>
    refine .of_error ?_ ?_ (State.noteRefusal_tmp ..)
    · exact (State.cores_of_still (State.noteRefusal_still ..)).trans rfl
    · exact (State.mem_of_still (State.noteRefusal_still ..)).trans rfl

/-! The CACHE forms. -/

section
variable {s : State} {p a : Nat} {f : State → CacheLine → State}

theorem State.cacheOp_of_miss (h : cacheHit (s.core p).dcache (s.worldOfPair p) a = none) : s.cacheOp p a f = (true, s.pcNext p) := by
  simp only [State.cacheOp, h]

theorem State.cacheOp_of_hit {x : CacheLine} (h : cacheHit (s.core p).dcache (s.worldOfPair p) a = some x)
    (hgo : x.dirty = true → s.flag R.ACT_CTRL_UPDATE = false ∨ (s.core p).level = .m) : s.cacheOp p a f = (true, (f s x).pcNext p) := by
  simp only [State.cacheOp, h]
  refine if_neg ?_
  rintro ⟨hd, hu, hl⟩
  rcases hgo hd with h | h
  · simp [h] at hu
  · exact hl h

end

section
variable {s : State} {r : Run} (h : s.runs r) {e : Host.Outcome State Fault Refusal} {f : State → Nat → Bool × State}
  (he : e = s.runInstr r f) {u : State} (hf : f (s.atInstr r) r.pair.val = (true, u.pcNext r.pair.val)) (hd : u.tmp = (s.atInstr r).tmp)
include h he hf hd

/-- What an instruction shows that has changed its pair beside its registers and PC. -/
theorem State.run_shows (hg : (u.core r.pair.val).g = ((s.atInstr r).core r.pair.val).g)
    (hpc : (u.core r.pair.val).pc = ((s.atInstr r).core r.pair.val).pc) :
    ∃ t, e = .next t ∧ ((t.core r.pair.val).pc = ((s.atInstr r).core r.pair.val).pc + 4 ∧ ∀ g : Reg, t.gr r.pair.val g = (s.atInstr r).gr r.pair.val g) ∧
      t.mem = u.mem ∧ (t.core r.pair.val).rest = (u.core r.pair.val).rest := by
  obtain ⟨t, ht, hret⟩ := State.run_passes_from h he hf (by rw [hd]; exact h.due)
  have hmem := hret.mem
  obtain ⟨hgr, htpc, hrest, -⟩ := hret
  refine ⟨t, ht, ⟨by rw [htpc, hpc], fun g => ?_⟩, hmem, hrest⟩
  rw [hgr]
  simp only [List.not_mem_nil, false_and, if_false, State.gr, hg]

end

/-- What CLEAN of a dirty line leaves of its pair. -/
theorem State.cleanCache_of_ok {s : State} {p : Nat} {x : CacheLine} (hd : x.dirty = true) (h : s.writeBackOk p x = true) :
    ∃ d, s.cleanCache p x =
      ({ s with ddr := d } : State).setCore p { s.core p with dcache := { x with dirty := false, data := [] } :: cacheDrop (s.core p).dcache x.addr } := by
  obtain ⟨d, hw⟩ := State.writeBack_of_ok h
  exact ⟨d, by simp only [State.cleanCache, hw, h, hd]; rfl⟩

theorem State.evict_of_ok {s : State} {p : Nat} {x : CacheLine} (h : s.writeBackOk p x = true) :
    ∃ d, s.evict p x = ({ s with ddr := d } : State).setCore p { s.core p with
      dcache := cacheDrop (s.core p).dcache x.addr, resv := if (s.core p).resv = some (x.addr / 64) then none else (s.core p).resv } := by
  obtain ⟨d, hw⟩ := State.writeBack_of_ok h
  exact ⟨d, by simp only [State.evict, hw]; rfl⟩

/-- A line whose write-back is refused leaves the cache by CLEAN as it does when it is evicted. -/
theorem State.cleanCache_of_refused {s : State} {p : Nat} {x : CacheLine} (hd : x.dirty = true) (h : s.writeBackOk p x = false) :
    s.cleanCache p x = s.evict p x := by
  simp [State.cleanCache, State.evict, h, hd]

theorem State.evict_of_refused {s : State} {p : Nat} {x : CacheLine} (hd : x.dirty = true) (h : s.writeBackOk p x = false) :
    ((s.evict p x).core p).g = (s.core p).g ∧ ((s.evict p x).core p).pc = (s.core p).pc ∧ (s.evict p x).tmp = s.tmp ∧
      (s.evict p x).mem = memPut s.mem x.addr x.data ∧ ((s.evict p x).core p).dcache = cacheDrop (s.core p).dcache x.addr ∧
      ((s.evict p x).core p).storeErrs = (s.core p).storeErrs ++ [(x.addr, (s.core p).level)] := by
  have hw := State.writeBack_of_refused hd h
  simp [State.evict, hw.core, hw.mem, hw.tmp]

theorem State.cleanCache_of_clean {s : State} {p : Nat} {x : CacheLine} (hd : x.dirty = false) : s.cleanCache p x = s := by
  simp [State.cleanCache, State.writeBack, hd]

theorem State.evict_of_clean {s : State} {p : Nat} {x : CacheLine} (hd : x.dirty = false) :
    s.evict p x = s.setCore p { s.core p with
      dcache := cacheDrop (s.core p).dcache x.addr, resv := if (s.core p).resv = some (x.addr / 64) then none else (s.core p).resv } := by
  simp [State.evict, State.writeBack, hd]

/-! WFI. -/

/-- The end of an instruction leaves the run state of a pair that is not halted and that nothing asks to halt. -/
theorem State.endInstr_run {s : State} {p : Nat} (l : Level) (b : Bool) (hd : s.tmp.due = []) (hrun : (s.core p).run ≠ .halted)
    (hreq : (s.core p).haltReq = false) : ((s.endInstr p l b).core p).run = (s.core p).run := by
  unfold State.endInstr
  dsimp only
  have hpmu : ((if b && l != .m then s.pmuAt p 1 else s).core p).run = (s.core p).run ∧
      ((if b && l != .m then s.pmuAt p 1 else s).core p).haltReq = (s.core p).haltReq ∧ (if b && l != .m then s.pmuAt p 1 else s).tmp = s.tmp := by
    split
    · obtain ⟨m, h | h⟩ := s.pmuAt_eq p 1 <;> simp [h]
    · simp
  generalize (if b && l != .m then s.pmuAt p 1 else s) = s1 at hpmu ⊢
  obtain ⟨h1, h2, h3⟩ := hpmu
  have hstay : (s1.setCore p { s1.core p with stepping := false }).boundary p = s1.setCore p { s1.core p with stepping := false } := by
    simp [State.boundary, h1, h2, hrun, hreq]
  rw [hstay, State.settle_of_none (by rw [State.setCore_tmp, h3]; exact hd), State.core_setCore_same, h1]

theorem execWfi_waits {s : State} {r : Run} (h : s.runs r) (hrun : ((s.atInstr r).core r.pair.val).run = .running)
    (hreq : ((s.atInstr r).core r.pair.val).haltReq = false) :
    ∃ t, execWfi r s = .next t ∧ (t.core r.pair.val).run = (if (s.atInstr r).wakes r.pair.val then .running else .wfi) ∧
      (t.core r.pair.val).pc = ((s.atInstr r).core r.pair.val).pc + 4 ∧ ∀ g : Reg, t.gr r.pair.val g = (s.atInstr r).gr r.pair.val g := by
  generalize hs1 : s.atInstr r = s1 at *
  generalize hp : r.pair.val = p at *
  have hdue : s1.tmp.due = [] := hs1 ▸ h.due
  have hstart : ((s1.pcNext p).core p).run = .running := by simp [State.pcNext, State.setPc, hrun]
  have hends : ∀ u : State, (u.core p).run ≠ .halted → (u.core p).haltReq = false → u.tmp = s1.tmp → (u.core p).pc = (s1.core p).pc + 4 →
      (u.core p).g = (s1.core p).g → ∀ b l, ((u.endInstr p l b).core p).run = (u.core p).run ∧ ((u.endInstr p l b).core p).pc = (s1.core p).pc + 4 ∧
        ∀ g : Reg, (u.endInstr p l b).gr p g = s1.gr p g := fun u h1 h2 h3 h4 h5 b l => by
    have hc := State.counts_endInstr u p l b (h3 ▸ hdue)
    exact ⟨State.endInstr_run l b (h3 ▸ hdue) h1 h2, hc.pc.trans h4, fun g => by rw [hc.gr, State.gr, h5]; rfl⟩
  refine ⟨_, State.ends_of_runs h rfl hp (by rw [hs1]), ?_⟩
  simp only [hstart, bne_self_eq_false, Bool.or_false]
  by_cases hw : s1.wakes p = true
  · simp only [hw, if_true]
    obtain ⟨h1, h2⟩ := hends (s1.pcNext p) (by rw [hstart]; decide) (by simp [State.pcNext, State.setPc, hreq]) rfl
      (by simp [State.pcNext, State.setPc]) (by simp [State.pcNext, State.setPc]) true (s.core p).level
    exact ⟨h1.trans hstart, h2⟩
  · simp only [hw, Bool.false_eq_true, if_false]
    obtain ⟨h1, h2⟩ := hends ((s1.pcNext p).setCore p { (s1.pcNext p).core p with run := .wfi }) (by simp)
      (by simp [State.pcNext, State.setPc, hreq]) rfl (by simp [State.pcNext, State.setPc]) (by simp [State.pcNext, State.setPc]) true
      (s.core p).level
    exact ⟨h1.trans (by rw [State.core_setCore_same]), h2⟩

/-! Each form of CACHE, by what becomes of its line. -/

section
variable {s : State} {r : Run} (h : s.runs r) {e : Host.Outcome State Fault Refusal} {a : Reg} {off : BitVec 14} {f : State → Nat → CacheLine → State}
  (he : e = s.runInstr r fun s p => s.cacheOp p (s.cacheAddr p a off).toNat fun s x => f s p x) {l : CacheLine}
include h he

theorem State.cacheOp_retires_of_miss (hmiss : cacheHit ((s.atInstr r).core r.pair.val).dcache ((s.atInstr r).worldOfPair r.pair.val)
      ((s.atInstr r).cacheAddr r.pair.val a off).toNat = none) :
    ∃ t, e = .next t ∧ (s.atInstr r).retires t r.pair.val [] 0 (((s.atInstr r).core r.pair.val).pc + 4) :=
  State.run_passes_from h he (State.cacheOp_of_miss hmiss) h.due

theorem State.cacheOp_retires_of_same (hit : cacheHit ((s.atInstr r).core r.pair.val).dcache ((s.atInstr r).worldOfPair r.pair.val)
      ((s.atInstr r).cacheAddr r.pair.val a off).toNat = some l) (hd : l.dirty = false) (hf : f (s.atInstr r) r.pair.val l = s.atInstr r) :
    ∃ t, e = .next t ∧ (s.atInstr r).retires t r.pair.val [] 0 (((s.atInstr r).core r.pair.val).pc + 4) :=
  State.run_passes_from h he ((State.cacheOp_of_hit hit fun hx => absurd hx (by simp [hd])).trans (by rw [hf])) h.due

theorem State.cacheOp_shows {u : State} (hit : cacheHit ((s.atInstr r).core r.pair.val).dcache ((s.atInstr r).worldOfPair r.pair.val)
      ((s.atInstr r).cacheAddr r.pair.val a off).toNat = some l)
    (hgo : l.dirty = true → (s.atInstr r).flag R.ACT_CTRL_UPDATE = false ∨ ((s.atInstr r).core r.pair.val).level = .m)
    (hf : f (s.atInstr r) r.pair.val l = u) (hd : u.tmp = (s.atInstr r).tmp) (hg : (u.core r.pair.val).g = ((s.atInstr r).core r.pair.val).g)
    (hpc : (u.core r.pair.val).pc = ((s.atInstr r).core r.pair.val).pc) :
    ∃ t, e = .next t ∧ ((t.core r.pair.val).pc = ((s.atInstr r).core r.pair.val).pc + 4 ∧ ∀ g : Reg, t.gr r.pair.val g = (s.atInstr r).gr r.pair.val g) ∧
      t.mem = u.mem ∧ (t.core r.pair.val).rest = (u.core r.pair.val).rest :=
  State.run_shows h he ((State.cacheOp_of_hit hit hgo).trans (by rw [hf])) hd hg hpc

end

/-- Settles O15: each form by what becomes of its line; FENCE and WFI change the pair alone. -/
theorem fenceCacheWait : Obligations.FenceCacheWait := by
  unfold Obligations.FenceCacheWait
  intro r a off s h p s1 x next
  refine ⟨fun hopen => ⟨?_, ?_⟩, fun hmiss => ⟨?_, ?_⟩, ?_, fun l hit hd => ⟨?_, ?_⟩, ?_, fun hrun hreq => execWfi_waits h hrun hreq⟩
  · exact State.run_passes_from (e := execFence r false s) h (if_neg (fun hx => by simp [hopen, p] at hx)) rfl h.due
  · obtain ⟨t, ht, hwent, hmem, hrest⟩ := State.run_shows (e := execFence r true s) (u := s1.setCore p { s1.core p with icache := [] }) h
      (if_neg (fun hx => by simp [hopen, p] at hx)) rfl rfl (by rw [State.core_setCore_same]) (by rw [State.core_setCore_same])
    exact ⟨t, ht, (Core.of_rest hrest Core.icache).trans (by rw [State.core_setCore_same]), hwent.1, hmem, hwent.2⟩
  · exact State.cacheOp_retires_of_miss (e := execCacheClean r a off s) h rfl hmiss
  · exact State.cacheOp_retires_of_miss (e := execCacheCleanInvalidate r a off s) h rfl hmiss
  · intro l hit hd hgo went
    refine ⟨fun hok => ⟨?_, ?_⟩, fun hno => ?_⟩
    · obtain ⟨d, hc⟩ := State.cleanCache_of_ok hd hok
      obtain ⟨t, ht, hwent, hmem, hrest⟩ := State.cacheOp_shows (e := execCacheClean r a off s) h rfl hit (fun _ => hgo) hc rfl
        (by rw [State.core_setCore_same]) (by rw [State.core_setCore_same])
      refine ⟨t, ht, hwent, hmem, ?_⟩
      rw [show (t.core p).dcache = _ from Core.of_rest hrest Core.dcache, State.core_setCore_same]
      exact cacheHit_cons (y := { l with dirty := false, data := [] }) hit rfl rfl _
    · obtain ⟨d, hc⟩ := State.evict_of_ok hok
      obtain ⟨t, ht, hwent, hmem, hrest⟩ := State.cacheOp_shows (e := execCacheCleanInvalidate r a off s) h rfl hit (fun _ => hgo) hc rfl
        (by rw [State.core_setCore_same]) (by rw [State.core_setCore_same])
      exact ⟨t, ht, hwent, hmem, (Core.of_rest hrest Core.dcache).trans (by rw [State.core_setCore_same])⟩
    · intro lost
      obtain ⟨hg, hpc, htmp, hmem, hdc, herr⟩ := State.evict_of_refused hd hno
      constructor
      · obtain ⟨t, ht, hwent, hm, hrest⟩ := State.cacheOp_shows (e := execCacheClean r a off s) h rfl hit (fun _ => hgo)
          (State.cleanCache_of_refused hd hno) htmp hg hpc
        exact ⟨t, ht, hwent, hm.trans hmem, (Core.of_rest hrest Core.dcache).trans hdc, (Core.of_rest hrest Core.storeErrs).trans herr⟩
      · obtain ⟨t, ht, hwent, hm, hrest⟩ := State.cacheOp_shows (e := execCacheCleanInvalidate r a off s) h rfl hit (fun _ => hgo)
          rfl htmp hg hpc
        exact ⟨t, ht, hwent, hm.trans hmem, (Core.of_rest hrest Core.dcache).trans hdc, (Core.of_rest hrest Core.storeErrs).trans herr⟩
  · exact State.cacheOp_retires_of_same (e := execCacheClean r a off s) h rfl hit hd (State.cleanCache_of_clean hd)
  · obtain ⟨t, ht, hwent, hmem, hrest⟩ := State.cacheOp_shows (e := execCacheCleanInvalidate r a off s) h rfl hit
      (fun hx => absurd hx (by simp [hd])) (State.evict_of_clean hd) rfl (by rw [State.core_setCore_same]) (by rw [State.core_setCore_same])
    exact ⟨t, ht, (Core.of_rest hrest Core.dcache).trans (by rw [State.core_setCore_same]), hwent.1, hmem⟩
  · obtain ⟨t, ht, hwent, hmem, hrest⟩ := State.run_shows (e := execCacheInvalidateIline r a off s) h rfl rfl rfl
      (by rw [State.core_setCore_same]) (by rw [State.core_setCore_same])
    refine ⟨t, ht, hwent.1, hmem, ?_⟩
    rw [show (t.core p).icache = _ from Core.of_rest hrest Core.icache, State.core_setCore_same]
    dsimp only
    split
    · exact cacheHit_cacheDrop ..
    next hno => exact Option.not_isSome_iff_eq_none.mp hno

end Sys2Proof.Machine
end

section
/-! Interrupts, the wake from WFI, store errors taken (R192, R194 to R197). -/

namespace Sys2Proof.Machine

/-- Counting an event changes the counters of its pair, and no field of it besides. -/
theorem State.pmuCount_core (s : State) (p ev : Nat) : ∃ m, (s.pmuCount p ev).core p = { s.core p with pmc := m } := by
  unfold State.pmuCount
  split
  · exact ⟨_, rfl⟩
  · obtain ⟨m, h | h⟩ := s.pmuAt_eq p ev <;> rw [h]
    · exact ⟨_, rfl⟩
    · exact ⟨m, s.core_setCore_same p _⟩

/-- The pair as an exception taken at K leaves it, and what it leaves of the state (R190). -/
theorem State.takeAtK_core (s : State) (p code imm off : Nat) (epc eaddr : Word64) :
    ∃ m, (s.takeAtK p code imm off epc eaddr).core p = { s.core p with
      pmc := m, kepc := epc, kcause := causeWord code imm, keaddr := eaddr, plev := (s.core p).level, pie := (s.core p).ie, ie := false,
      level := .k, pc := (s.core p).kxbase + BitVec.ofNat 64 off, resv := none,
      run := if (s.core p).run = .wfi then .running else (s.core p).run } := by
  obtain ⟨m, hm⟩ := s.pmuCount_core p 8
  exact ⟨m, by simp only [State.takeAtK, State.core_setCore_same, hm]⟩

theorem State.takeAtM_core (s : State) (p code imm off : Nat) (epc eaddr : Word64) :
    ∃ m, (s.takeAtM p code imm off epc eaddr).core p = { s.core p with
      pmc := m, mepc := epc, mcause := causeWord code imm, meaddr := eaddr, mplev := (s.core p).level,
      level := .m, pc := mvec (s.core p) + BitVec.ofNat 64 off, resv := none,
      run := if (s.core p).run = .wfi then .running else (s.core p).run } := by
  obtain ⟨m, hm⟩ := s.pmuCount_core p 8
  exact ⟨m, by simp only [State.takeAtM, State.core_setCore_same, hm]; rfl⟩

theorem State.takeAtK_mem (s : State) (p code imm off : Nat) (epc eaddr : Word64) : (s.takeAtK p code imm off epc eaddr).mem = s.mem :=
  (s.counts_pmuCount p 8).mem

theorem State.wakeDomain_core (s : State) (p q : Nat) : (s.wakeDomain p).core q = s.core q := by
  unfold State.wakeDomain; split <;> rfl

theorem State.wakeDomain_mem (s : State) (p : Nat) : (s.wakeDomain p).mem = s.mem := by
  unfold State.wakeDomain; split <;> rfl

/-- A domain that answers is ON once it is woken. -/
theorem State.wakeDomain_domOn {s : State} {p : Nat} (h : s.domAnswers (30 + p) = true) : (s.wakeDomain p).domOn (30 + p) = true := by
  unfold State.wakeDomain
  simp only [State.domAnswers, decide_eq_true_eq] at h
  split
  · simp [State.domOn]
  · simp only [State.domOn, beq_iff_eq]; omega

theorem State.canInterrupt_run {s : State} {p : Nat} (h : s.canInterrupt p = true) : (s.core p).run = .running ∨ (s.core p).run = .wfi := by
  simp only [State.canInterrupt, Bool.and_eq_true, Bool.or_eq_true, beq_iff_eq] at h
  obtain ⟨⟨⟨_, hrun⟩, _⟩, _⟩ := h
  exact hrun

/-- The entry of an interrupt (R196). -/
theorem State.entered_of_interrupt {s : State} {p : Nat} (code : Nat) (h : s.canInterrupt p = true) :
    let t := (s.wakeDomain p).takeAtK p code 0 0x100 (s.core p).pc 0
    (t.core p).kcause = causeWord code 0 ∧ (t.core p).kepc = (s.core p).pc ∧ (t.core p).keaddr = 0 ∧
      (t.core p).plev = (s.core p).level ∧ (t.core p).pie = (s.core p).ie ∧ (t.core p).ie = false ∧ (t.core p).level = .k ∧
      (t.core p).run = .running ∧ (t.core p).pc = (s.core p).kxbase + 0x100 ∧ (∀ g : Reg, t.gr p g = s.gr p g) ∧ t.mem = s.mem := by
  intro t
  obtain ⟨m, hm⟩ := (s.wakeDomain p).takeAtK_core p code 0 0x100 (s.core p).pc 0
  rw [State.wakeDomain_core] at hm
  have hrun : (if (s.core p).run = .wfi then RunState.running else (s.core p).run) = .running := by
    rcases State.canInterrupt_run h with h | h <;> simp [h]
  rw [hrun] at hm
  have hmem : t.mem = s.mem := (State.takeAtK_mem ..).trans (s.wakeDomain_mem p)
  simp only [t, State.gr, hm, implies_true, true_and]
  exact ⟨rfl, hmem⟩

theorem higherLevel_eq_m (a b : Level) : higherLevel a b = .m ↔ a = .m ∨ b = .m := by
  cases a <;> cases b <;> decide

/-- Settles O16: interrupts enter at K; a wake sets the run state; a store error is taken at the higher of two levels. -/
theorem interruptsAndWake : Obligations.InterruptsAndWake := by
  unfold Obligations.InterruptsAndWake
  intro pair s p c entered
  refine ⟨fun hc hi he => ?_, fun hc ht hi he => ?_, fun hrun hw hd => ?_, fun a l rest herr hf hr ht => ?_⟩
  · refine ⟨_, show execExternalInterrupt pair s = _ from if_pos ?_, State.entered_of_interrupt 16 hc⟩
    simp only [Bool.and_eq_true, List.isEmpty_iff]
    exact ⟨⟨hc, hi⟩, he⟩
  · refine ⟨_, show execTimerInterrupt pair s = _ from if_pos ?_, State.entered_of_interrupt 17 hc⟩
    simp only [Bool.and_eq_true, List.isEmpty_iff]
    exact ⟨⟨⟨hc, ht⟩, hi⟩, he⟩
  · refine ⟨_, show execWfiWake pair s = _ from if_pos ⟨hrun, hw, hd⟩, ?_, ?_, ?_, s.wakeDomain_mem p⟩
    · rw [State.core_setCore_same]
    · rw [State.core_setCore_same]
    · exact State.wakeDomain_domOn hd
  · have hgo : ¬((s.core p).storeErrs.isEmpty || (s.core p).run == .fenced || (s.core p).run == .reset || s.waitsAtTable p) = true := by
      simp [show (s.core p).storeErrs = _ from herr, show (s.core p).run ≠ .fenced from hf, show (s.core p).run ≠ .reset from hr, ht]
    refine ⟨_, show execStoreErrorResponse pair s = _ from if_neg hgo, ?_⟩
    have hdef : s.takeStoreErr p = if higherLevel c.level l = .m then
        (s.setCore p { c with storeErrs := rest }).takeAtM p 6 0 0 c.pc (BitVec.ofNat 64 a)
        else (s.setCore p { c with storeErrs := rest }).takeAtK p 6 0 (if c.level = .u then 0 else 0x80) c.pc (BitVec.ofNat 64 a) := by
      unfold State.takeStoreErr
      simp only [show (s.core p).storeErrs = _ from herr]
      rfl
    change (State.core (s.takeStoreErr p) p).storeErrs = rest ∧ _
    by_cases hm : c.level = .m ∨ l = .m
    · rw [hdef, if_pos ((higherLevel_eq_m ..).mpr hm), if_pos hm]
      obtain ⟨m, hcore⟩ := (s.setCore p { c with storeErrs := rest }).takeAtM_core p 6 0 0 c.pc (BitVec.ofNat 64 a)
      rw [State.core_setCore_same] at hcore
      rw [hcore]
      exact ⟨rfl, fun g => by rw [State.gr, hcore]; rfl, rfl, rfl, rfl, rfl⟩
    · rw [hdef, if_neg (fun hx => hm ((higherLevel_eq_m ..).mp hx)), if_neg hm]
      obtain ⟨m, hcore⟩ := (s.setCore p { c with storeErrs := rest }).takeAtK_core p 6 0 (if c.level = .u then 0 else 0x80) c.pc (BitVec.ofNat 64 a)
      rw [State.core_setCore_same] at hcore
      rw [hcore]
      exact ⟨rfl, fun g => by rw [State.gr, hcore]; rfl, rfl, rfl, rfl, rfl⟩

end Sys2Proof.Machine
end

section
/-! The machine: one step, the reset state (R5, R32, log entries 1 and 4). -/

namespace Sys2Proof.Machine

/-- Settles O1: by the definition of `step`. -/
theorem stepRunsFront : Obligations.StepRunsFront := fun _ _ => rfl

/-- Settles O59: nothing is listed in the reset state. -/
theorem resetCanonical : Obligations.ResetCanonical := by
  unfold Obligations.ResetCanonical
  decide

/-- Settles O30: an empty table reads as the reset value everywhere. -/
theorem resetState : Obligations.ResetState := by
  unfold Obligations.ResetState
  refine ⟨fun f => rfl, fun p g => ?_, fun f q => rfl, rfl, rfl, fun a ha => ?_⟩
  · unfold State.gr
    split <;> rfl
  · exact if_neg (by omega)

end Sys2Proof.Machine
end

section
/-! One period of SYS_REFCLK (log entry 1). -/

namespace Sys2Proof.Machine

/-- What the counters of a period leave as it is: time, memory, what was sent, what waits. -/
def State.idleView (s : State) : Nat × List Instr × Tbl Byte × List Out × List Cmd × List Nat :=
  (s.time, s.pending, s.mem, s.out, s.dsp.inflight, s.tmp.due)

theorem State.wr_idleView (s : State) (f : Fld) (v : Nat) : (s.wr f v).idleView = s.idleView := rfl

theorem State.tickXtal_idleView (s : State) : s.tickXtal.idleView = s.idleView := by
  unfold State.tickXtal State.wrapAdd
  dsimp only
  split
  · rfl
  · split
    · simp only [State.wr_idleView]
      simp only [State.idleView]
    · simp only [State.idleView]

theorem State.bitErrors_idleView (s : State) (lane least : Nat) : (s.bitErrors lane least).idleView = s.idleView := by
  unfold State.bitErrors State.satAdd
  exact (State.wr_idleView ..).trans rfl

theorem State.Counts.idleView {s t : State} {p : Nat} (h : s.Counts t p) : t.idleView = s.idleView :=
  (congrArg State.idleView h.frame :)

theorem State.tickPair_idleView (s : State) (p : Nat) : (s.tickPair p).idleView = s.idleView := by
  unfold State.tickPair
  split
  · dsimp only
    rw [(State.counts_pmuCount _ p 9).idleView]
    split
    · exact (s.counts_pmuCount p 10).idleView
    · rfl
  · rfl

theorem State.countBitErrors_idleView (s : State) : s.countBitErrors.idleView = s.idleView :=
  foldl_keeps State.idleView _ (fun s l => s.bitErrors_idleView l 0) _ s

/-- With no command in flight and no alarm to decide, nothing goes on that waits. -/
theorem State.pump_of_calm {s : State} (h : s.calm) : s.pump = s := by
  obtain ⟨hflight, hdue⟩ := h
  rw [State.pump, hflight]
  exact State.settle_of_none hdue

theorem State.calm_of_idleView {s t : State} (h : t.idleView = s.idleView) (hs : s.calm) : t.calm := by
  simp only [State.idleView, Prod.mk.injEq] at h
  obtain ⟨-, -, -, -, hflight, hdue⟩ := h
  exact ⟨hflight.trans hs.1, hdue.trans hs.2⟩

theorem State.calm_tickTime {s : State} (h : s.calm) : s.tickTime.calm := by
  unfold State.tickTime; split <;> exact h

/-- Settles O58: TIME counts, and the other counters of a period leave the rest of it as it is. -/
theorem idleStep : Obligations.IdleStep := by
  unfold Obligations.IdleStep
  intro s hp hc
  generalize hu : ([2, 3].foldl State.tickPair s.tickTime.tickXtal).countBitErrors = u
  have hview : u.idleView = s.tickTime.idleView := by
    rw [← hu, State.countBitErrors_idleView, foldl_keeps State.idleView _ State.tickPair_idleView, State.tickXtal_idleView]
  have hstep : step s = .next u := by
    rw [step, hp, State.tick, hu, State.pump_of_calm (State.calm_of_idleView hview (State.calm_tickTime hc))]
  simp only [State.idleView, Prod.mk.injEq] at hview
  obtain ⟨htime, hpending, hmem, hout, -⟩ := hview
  refine ⟨u, hstep, ?_, ?_, ?_, ?_⟩
  · rw [htime, State.tickTime]; split <;> rfl
  · rw [hpending, State.tickTime]; split <;> exact hp
  · rw [hmem, State.tickTime]; split <;> rfl
  · rw [hout, State.tickTime]; split <;> rfl

end Sys2Proof.Machine
end

section
namespace Sys2Proof.Machine

/-! ## The rules of canonical form

What a function of the model keeps of the canonical form is proved along the function's own definition, with one rule for each shape of an
expression: a branch, a record update, a write, a fold, the parts of a pair or of an optional result. -/

/-- What an instruction answers is in canonical form, where it answers a state. -/
def OutcomeCanon (o : Host.Outcome State Fault Refusal) : Prop := ∀ t, o = .next t → t.canon = true

theorem OutcomeCanon.next {s : State} (h : s.canon = true) : OutcomeCanon (.next s) := fun _ e => by cases e; exact h

theorem canon_ite {c : Prop} [Decidable c] {s t : State} (hs : s.canon = true) (ht : t.canon = true) : (if c then s else t).canon = true := by
  split
  · exact hs
  · exact ht

theorem canon_ite_snd {α : Type} {c : Prop} [Decidable c] {x y : α × State} (hx : x.2.canon = true) (hy : y.2.canon = true) :
    (if c then x else y).2.canon = true := by
  split
  · exact hx
  · exact hy

theorem canon_ite_thd {α β : Type} {c : Prop} [Decidable c] {x y : α × β × State} (hx : x.2.2.canon = true) (hy : y.2.2.canon = true) :
    (if c then x else y).2.2.canon = true := by
  split
  · exact hx
  · exact hy

/-- An update that touches neither memory nor the register file. -/
theorem canon_with {s : State} {pending time freeCtr out edges bus pins cfg boot pwr evr tmp portA portB vfs fns qps dsp keys cores mbx act ddr ent eng lc tap twn
    lts} (h : s.canon = true) : State.canon ⟨pending, s.regs, s.mem, time, freeCtr, out, edges, bus, pins, cfg, boot, pwr, evr, tmp, portA, portB, vfs, fns, qps,
      dsp, keys, cores, mbx, act, ddr, ent, eng, lc, tap, twn, lts⟩ = true := h

/-- An update of memory and of the register file that keeps the form of each. -/
theorem canon_mk {pending regs mem time freeCtr out edges bus pins cfg boot pwr evr tmp portA portB vfs fns qps dsp keys cores mbx act ddr ent eng lc tap twn lts}
    (hm : Memory.wf mem = true) (hr : Regs.wf regs = true) : State.canon ⟨pending, regs, mem, time, freeCtr, out, edges, bus, pins, cfg, boot, pwr, evr, tmp,
      portA, portB, vfs, fns, qps, dsp, keys, cores, mbx, act, ddr, ent, eng, lc, tap, twn, lts⟩ = true :=
  Bool.and_eq_true_iff.mpr ⟨hm, hr⟩

theorem canon_fold {α : Type} {f : State → α → State} {l : List α} {s : State} (h : s.canon = true)
    (hf : ∀ s a, s.canon = true → (f s a).canon = true) : (l.foldl f s).canon = true := State.foldl_canon f hf l h

/-- A fold that carries a state and something else. -/
theorem canon_fold_snd {α β : Type} {f : β × State → α → β × State} {l : List α} {x : β × State} (h : x.2.canon = true)
    (hf : ∀ (x : β × State) a, x.2.canon = true → (f x a).2.canon = true) : (l.foldl f x).2.canon = true := by
  induction l generalizing x with
  | nil => exact h
  | cons a t ih => exact ih (hf x a h)

theorem canon_of_snd {α : Type} {p : α × State} {a : α} {t : State} (e : p = (a, t)) (h : p.2.canon = true) : t.canon = true := by rw [e] at h; exact h
theorem canon_of_fst {α : Type} {p : State × α} {a : α} {t : State} (e : p = (t, a)) (h : p.1.canon = true) : t.canon = true := by rw [e] at h; exact h
theorem canon_of_thd {α β : Type} {p : α × β × State} {a : α} {b : β} {t : State} (e : p = (a, b, t)) (h : p.2.2.canon = true) : t.canon = true := by
  rw [e] at h; exact h

theorem canon_of_fourth {α β γ : Type} {p : α × β × γ × State} {a : α} {b : β} {c : γ} {t : State} (e : p = (a, b, c, t)) (h : p.2.2.2.canon = true) :
    t.canon = true := by
  rw [e] at h; exact h

theorem forall_mem_some {α : Type} {P : α → Prop} {x : α} (h : P x) : ∀ t ∈ some x, P t := fun _ e => Option.some.inj e ▸ h
theorem forall_mem_ite {α : Type} {P : α → Prop} {c : Prop} [Decidable c] {x y : Option α} (hx : ∀ t ∈ x, P t) (hy : ∀ t ∈ y, P t) :
    ∀ t ∈ (if c then x else y), P t := by
  split
  · exact hx
  · exact hy

theorem forall_mem_none {α : Type} {P : α → Prop} : ∀ t ∈ (none : Option α), P t := fun _ e => by cases e

end Sys2Proof.Machine
end

section
namespace Sys2Proof.Machine
open State

/-! ## What each function of the model keeps of the canonical form

One lemma per function, in the order of the definitions, each proved from the lemmas of the functions it calls; the headings name the files of
the model. `step_canon`, the last, is the invariant. -/

/-! Sys2Proof/Machine/Ops.lean -/

theorem State.noEvent_canon {s : State} (hs : s.canon = true) : OutcomeCanon s.noEvent := OutcomeCanon.next hs

theorem State.setEvt_canon {s : State} {f : Fld} {bit : Nat} (hs : s.canon = true) : (s.setEvt f bit).canon = true :=
  canon_with (wr_canon _ _ (wr_canon _ _ hs))

theorem State.setEvtAll_canon {s : State} {f : Fld} (hs : s.canon = true) : (s.setEvtAll f).canon = true :=
  setEvt_canon (setEvt_canon (setEvt_canon (setEvt_canon hs)))

theorem State.setStatus_canon {s : State} {f : Fld} {v : Nat} (hs : s.canon = true) : (s.setStatus f v).canon = true :=
  canon_ite hs (setEvtAll_canon (wr_canon _ _ hs))

theorem State.countHost_canon {s : State} {n : Nat} (hs : s.canon = true) : (s.countHost n).canon = true := wr_canon _ _ (canon_with hs)

theorem State.drawHost_canon {s : State} {n : Nat} (hs : s.canon = true) : (s.drawHost n).2.canon = true := countHost_canon hs

theorem State.countDraw_canon {s : State} {n : Nat} (hs : s.canon = true) : (s.countDraw n).canon = true := countHost_canon (canon_with hs)

theorem State.draw_canon {s : State} {n : Nat} (hs : s.canon = true) : (s.draw n).2.canon = true := countDraw_canon hs

theorem State.free_canon {s : State} {n : Nat} (hs : s.canon = true) : (s.free n).2.canon = true := canon_with hs

theorem State.freeNat_canon {s : State} {n : Nat} (hs : s.canon = true) : (s.freeNat n).2.canon = true := by
  unfold State.freeNat
  split
  rename_i x b s1 e
  exact canon_of_snd e (free_canon hs)

theorem State.setPort_canon {s : State} {p : Port} {v : PortSt} (hs : s.canon = true) : (s.setPort p v).canon = true := by
  unfold State.setPort
  split
  · exact canon_with hs
  · exact canon_with hs

theorem State.setFnSt_canon {s : State} {f : Fn} {v : FnSt} (hs : s.canon = true) : (s.setFnSt f v).canon = true := canon_with hs

theorem State.setVf_canon {s : State} {p : Port} {n : Nat} {v : Vf} (hs : s.canon = true) : (s.setVf p n v).canon = true := canon_with hs

theorem State.setQp_canon {s : State} {f : Fn} {q : Nat} {v : Qp} (hs : s.canon = true) : (s.setQp f q v).canon = true := canon_with hs

theorem State.aerLog_canon {s : State} {f : Fn} {b : Nat} (hs : s.canon = true) : (s.aerLog f b).canon = true :=
  canon_ite hs (setEvt_canon (setFnSt_canon hs))

theorem State.setChan_canon {s : State} {c : Nat} {v : Ddr} (hs : s.canon = true) : (s.setChan c v).canon = true := canon_with hs

theorem State.wake_canon {s : State} {d : Nat} (hs : s.canon = true) : (s.wake d).canon = true := canon_ite (wr_canon _ _ hs) hs

theorem State.addClaim_canon {s : State} {d : Nat} (hs : s.canon = true) : (s.addClaim d).canon = true := wr_canon _ _ (canon_with hs)

theorem State.dropClaim_canon {s : State} {d : Nat} (hs : s.canon = true) : (s.dropClaim d).canon = true := wr_canon _ _ (canon_with hs)

theorem State.dropSync_canon {s : State} {k : Nat} (hs : s.canon = true) : (s.dropSync k).canon = true := canon_fold hs (fun _ _ h => wr_canon _ _ h)

theorem State.endEye_canon {s : State} {result errors : Nat} (hs : s.canon = true) : (s.endEye result errors).canon = true :=
  wr_canon _ _ (canon_with (wr_canon _ _ (wr_canon _ _ (wr_canon _ _ hs))))

theorem State.stopEye_canon {s : State} {k : Nat} (hs : s.canon = true) : (s.stopEye k).canon = true := by
  unfold State.stopEye
  split
  · split
    · split
      rename_i x n s1 e
      have hx : s1.canon = true := canon_of_snd e (freeNat_canon hs)
      exact endEye_canon hx
    · exact hs
  · exact hs

theorem State.leaveTest_canon {s : State} {k : Nat} (hs : s.canon = true) : (s.leaveTest k).canon = true :=
  canon_ite (stopEye_canon (dropSync_canon (wr_canon _ _ (wr_canon _ _ (wr_canon _ _ (wr_canon _ _ hs)))))) hs

theorem State.hold_canon {s : State} {a : HeldAccess} (hs : s.canon = true) : (s.hold a).canon = true := canon_with hs

theorem State.holdL1_canon {s : State} {who : Requester} {a : HeldAccess} (hs : s.canon = true) : (s.holdL1 who a).canon = true := by
  unfold State.holdL1
  split
  · exact setPort_canon hs
  · exact hs

/-! Sys2Proof/Machine/RegMap.lean -/

theorem State.wakeWord_canon {s : State} {off : Nat} (hs : s.canon = true) : (s.wakeWord off).canon = true := by
  unfold State.wakeWord
  split
  · exact wake_canon hs
  · exact hs

/-! Sys2Proof/Machine/Recorder.lean -/

theorem State.dropRecord_canon {s : State} (hs : s.canon = true) : s.dropRecord.canon = true := setEvt_canon (satAdd_canon _ _ hs)

theorem State.enqueueRec_canon {s : State} {r : Rec} (hs : s.canon = true) : (s.enqueueRec r).canon = true :=
  canon_ite (canon_with hs) (canon_ite (dropRecord_canon (canon_with hs)) (dropRecord_canon hs))

theorem State.decideRecord_canon {s : State} {kind source : Nat} {sev arg : Nat} (hs : s.canon = true) : (s.decideRecord kind source sev arg).canon =
    true :=
  canon_ite (satAdd_canon _ _ hs) (enqueueRec_canon (wrapAdd_canon _ _ hs))

theorem State.putRec_canon {s : State} {slot : Nat} {r : Rec} (hs : s.canon = true) : (s.putRec slot r).canon = true := canon_with hs

theorem State.storeRec_canon {s : State} {r : Rec} (hs : s.canon = true) : (s.storeRec r).canon = true := by
  unfold State.storeRec
  split
  · split
    rename_i x n s1 e
    have hx : s1.canon = true := canon_of_snd e (freeNat_canon hs)
    exact canon_ite (setEvt_canon (setEvt_canon (putRec_canon hx))) (setEvt_canon (putRec_canon hx))
  · split
    · exact canon_ite (setEvt_canon (setEvt_canon (satAdd_canon _ _ (putRec_canon hs)))) (dropRecord_canon hs)
    · exact dropRecord_canon hs

theorem State.recordInternal_canon {s : State} {source detail : Nat} {cid vf port : Nat} (hs : s.canon = true) : (s.recordInternal source detail cid
    vf port).canon = true :=
  decideRecord_canon hs

/-! Sys2Proof/Machine/Access.lean -/

theorem State.violation_canon {s : State} {cls : Nat} {world : World} {kind : AccKind} {source entry a : Nat} (hs : s.canon = true) : (s.violation
    cls world kind source entry a).canon = true :=
  setEvt_canon (canon_ite (satAdd_canon _ _ hs) (wr_canon _ _ (wr_canon _ _ (wr_canon _ _ (wr_canon _ _ (wr_canon _ _ (wr_canon _ _ hs)))))))

theorem State.sweepTo_canon {s : State} {c n : Nat} (hs : s.canon = true) : (s.sweepTo c n).canon = true :=
  wr_canon _ _ (wr_canon _ _ (setChan_canon hs))

theorem State.fillBlock_canon {s : State} {c b : Nat} (hs : s.canon = true) : (s.fillBlock c b).canon = true :=
  canon_ite (wr_canon _ _ (setChan_canon hs)) (sweepTo_canon hs)

theorem State.wakeMem_canon {s : State} {a : Nat} (hs : s.canon = true) : (s.wakeMem a).canon = true := by
  unfold State.wakeMem
  split
  · exact wake_canon hs
  · exact hs

theorem State.awaitFill_canon {s : State} {a : Nat} (hs : s.canon = true) : (s.awaitFill a).canon = true := by
  unfold State.awaitFill
  split
  · exact canon_ite (fillBlock_canon hs) hs
  · exact hs

theorem State.captureErr_canon {s : State} {c l : Nat} {kind pos : Nat} {scrub : Bool} (hs : s.canon = true) : (s.captureErr c l kind pos
    scrub).canon = true :=
  canon_ite hs (wr_canon _ _ (wr_canon _ _ (wr_canon _ _ (wr_canon _ _ (wr_canon _ _ (setChan_canon hs))))))

theorem State.setErr_canon {s : State} {c l : Nat} {e : Option LineErr} (hs : s.canon = true) : (s.setErr c l e).canon = true := setChan_canon hs

theorem State.cleanLine_canon {s : State} {c l : Nat} (hs : s.canon = true) : (s.cleanLine c l).canon = true := setErr_canon hs

theorem State.befall_canon {s : State} {c l : Nat} {e : LineEvent} (hs : s.canon = true) : (s.befall c l e).canon = true := by
  cases e with
  | none => exact hs
  | flips x => exact setErr_canon hs
  | device n x => exact setErr_canon hs
  | moved off => exact canon_ite hs (setErr_canon hs)
  | altered => exact setErr_canon hs
  | earlierBoot => exact setErr_canon hs
  | replayed data =>
    have hr : (s.setErr c l none).canon = true := setErr_canon hs
    exact canon_mk (Memory.wf_put _ _ (canon_mem hr)) (canon_regs hr)

theorem befallFrom_canon {a : Nat} {l : List LineEvent} {s : State} (hs : s.canon = true) : (befallFrom a l s).canon = true := by
  induction l generalizing a s with
  | nil => exact hs
  | cons e t ih =>
    refine ih ?_
    split
    · exact befall_canon hs
    · exact hs

theorem State.corrected_canon {s : State} {c l : Nat} {kind pos : Nat} {scrub : Bool} (hs : s.canon = true) : (s.corrected c l kind pos scrub).canon
    = true :=
  setEvt_canon (satAdd_canon _ _ (captureErr_canon (cleanLine_canon hs)))

theorem State.fireMem_canon {s : State} (hs : s.canon = true) : s.fireMem.canon = true := canon_with hs

theorem State.uncorrectable_canon {s : State} {c l : Nat} {scrub : Bool} (hs : s.canon = true) : (s.uncorrectable c l scrub).canon = true :=
  fireMem_canon (setEvt_canon (satAdd_canon _ _ (captureErr_canon hs)))

theorem State.checkLine_canon {s : State} {c l : Nat} {scrub : Bool} (hs : s.canon = true) : (s.checkLine c l scrub).canon = true := by
  unfold State.checkLine
  split
  · exact hs
  · exact corrected_canon hs
  · exact corrected_canon hs
  · exact uncorrectable_canon hs

theorem State.rmwFail_canon {s : State} {c l : Nat} (hs : s.canon = true) : (s.rmwFail c l).canon = true := setEvt_canon (uncorrectable_canon hs)

theorem State.noteRefusal_canon {s : State} {cls : Nat} {world : World} {kind : AccKind} {r : Option (Nat × Nat × Nat)} (hs : s.canon = true) :
    (s.noteRefusal cls world kind r).canon = true := by
  unfold State.noteRefusal
  split
  · exact violation_canon hs
  · exact hs

theorem State.serveLine_canon {s : State} {x : LineAccess} (hs : s.canon = true) : (s.serveLine x).2.canon = true := by
  unfold State.serveLine
  split
  · exact hs
  · extract_lets a bad
    exact canon_ite_snd hs (canon_ite_snd (checkLine_canon hs) (canon_ite_snd (canon_ite hs (setBytes_canon _ _ (cleanLine_canon hs))) (canon_ite_snd
      (rmwFail_canon hs) (setBytes_canon _ _ (checkLine_canon hs)))))

theorem State.yieldLock_canon {s : State} {c l : Nat} (hs : s.canon = true) : (s.yieldLock c l).canon = true := by
  unfold State.yieldLock
  split
  · exact hs
  · exact setChan_canon (canon_fold_snd hs fun _ _ h => serveLine_canon h)

theorem State.awaitLines_canon {s : State} {bs : List (Nat × Nat)} (hs : s.canon = true) : (s.awaitLines bs).canon = true :=
  canon_fold (canon_fold hs (fun _ _ h => awaitFill_canon (wakeMem_canon h))) (fun _ _ h => yieldLock_canon h)

theorem State.readMem_canon {s : State} {cls : Nat} {world : World} {kind : AccKind} {a len : Nat} (hs : s.canon = true) : (s.readMem cls world kind
    a len).2.2.canon = true := by
  unfold State.readMem
  extract_lets bs r up s1 data s'
  have hs1 : s1.canon = true := awaitLines_canon hs
  have hs' : s'.canon = true := canon_fold hs1 (fun _ _ h => checkLine_canon h)
  exact noteRefusal_canon hs'

theorem putBeats_canon {skip : Nat × Nat → Bool} {l1 : List (Nat × Nat)} {l : List Byte} {s : State} (hs : s.canon = true) : (putBeats skip l1 l
    s).canon = true := by
  induction l1 generalizing skip l s with
  | nil =>
    unfold putBeats
    exact hs
  | cons x l1 ih =>
    unfold putBeats
    exact ih (canon_ite hs (setBytes_canon _ _ hs))

theorem State.writeMem_canon {s : State} {cls : Nat} {world : World} {a : Nat} {l : List Byte} (hs : s.canon = true) : (s.writeMem cls world a
    l).2.canon = true := by
  unfold State.writeMem
  extract_lets bs r up s1
  have hs1 : s1.canon = true := awaitLines_canon hs
  split
  extract_lets s2 drop lost s'
  have hs2 : s2.canon = true := canon_ite hs1 (canon_fold hs1 (fun _ _ h => cleanLine_canon h))
  have hs' : s'.canon = true := canon_fold hs2 (fun _ _ h => canon_ite (rmwFail_canon h) (checkLine_canon h))
  exact noteRefusal_canon (putBeats_canon hs')

theorem readAccesses_canon {cls : Nat} {world : World} {l : List (Nat × Nat)} {s : State} (hs : s.canon = true) : (readAccesses cls world l
    s).2.2.canon = true := by
  induction l generalizing cls world s with
  | nil =>
    unfold readAccesses
    exact hs
  | cons x l ih =>
    unfold readAccesses
    split
    · rename_i x1 d s1 e
      have hx : s1.canon = true := canon_of_thd e (readMem_canon hs)
      exact ih hx
    · rename_i x1 d s1 e
      exact canon_of_thd e (readMem_canon hs)

theorem State.dmaIn_canon {s : State} {cls : Nat} {world : World} {a len : Nat} (hs : s.canon = true) : (s.dmaIn cls world a len).2.2.canon = true :=
  readAccesses_canon hs

theorem writeAccesses_canon {cls : Nat} {world : World} {l1 : List (Nat × Nat)} {l : List Byte} {s : State} (hs : s.canon = true) : (writeAccesses
    cls world l1 l s).2.canon = true := by
  induction l1 generalizing cls world l s with
  | nil =>
    unfold writeAccesses
    exact hs
  | cons x l1 ih =>
    unfold writeAccesses
    split
    · rename_i x1 s1 e
      have hx : s1.canon = true := canon_of_snd e (writeMem_canon hs)
      exact ih hx
    · rename_i x1 s1 e
      exact canon_of_snd e (writeMem_canon hs)

theorem State.dmaOut_canon {s : State} {cls : Nat} {world : World} {a : Nat} {l : List Byte} (hs : s.canon = true) : (s.dmaOut cls world a l).2.canon
    = true :=
  writeAccesses_canon hs

/-! Sys2Proof/Machine/Queues.lean -/

theorem State.send_canon {s : State} {f : Fn} {o : Out} (hs : s.canon = true) : (s.send f o).canon = true :=
  canon_ite (setPort_canon hs) (emit_canon _ hs)

theorem State.fnRead_canon {s : State} {f : Fn} {addr len : Nat} (hs : s.canon = true) : (s.fnRead f addr len).canon = true :=
  canon_ite hs (emit_canon _ hs)

theorem State.vector_canon {s : State} {f : Fn} {v : Nat} (hs : s.canon = true) : (s.vector f v).canon = true :=
  canon_ite hs (canon_ite (send_canon hs) (setFnSt_canon hs))

theorem State.migOverflow_canon {s : State} {p : Port} {n : Nat} (hs : s.canon = true) : (s.migOverflow p n).canon = true :=
  canon_ite (setEvt_canon (wr_canon _ _ (wr_canon _ _ hs))) (vector_canon (setEvt_canon (wr_canon _ _ (wr_canon _ _ hs))))

theorem State.logPage_canon {s : State} {p : Port} {n page : Nat} (hs : s.canon = true) : (s.logPage p n page).canon = true :=
  canon_ite (canon_ite (migOverflow_canon hs) (setVf_canon (send_canon hs))) hs

theorem State.logPages_canon {s : State} {p : Port} {n page n1 : Nat} (hs : s.canon = true) : (s.logPages p n page n1).canon = true := by
  induction n1 generalizing s p n page with
  | zero =>
    unfold State.logPages
    exact hs
  | succ n1 ih =>
    unfold State.logPages
    exact ih (logPage_canon hs)

theorem State.fnWrite_canon {s : State} {f : Fn} {cls addr : Nat} {data : List Byte} {kind : WriteKind} (hs : s.canon = true) : (s.fnWrite f cls addr
    data kind).2.canon = true := by
  unfold State.fnWrite
  split
  · exact canon_ite_snd (hold_canon hs) (dmaOut_canon hs)
  · exact send_canon hs
  · exact logPages_canon (send_canon hs)

theorem State.queueError_canon {s : State} {f : Fn} {q : Nat} (hs : s.canon = true) : (s.queueError f q).canon = true :=
  canon_ite hs (vector_canon (setEvt_canon (wr_canon _ _ (setQp_canon hs))))

theorem State.writeCompletion_canon {s : State} {f : Fn} {q cid : Nat} {status detail : Nat} {result aux written : Nat} (hs : s.canon = true) :
    (s.writeCompletion f q cid status detail result aux written).canon = true := by
  unfold State.writeCompletion
  extract_lets qp able qp1 size data next full was s1 s2 s3 x s4 s5
  have hs1 : s1.canon = true := fnWrite_canon hs
  have hs2 : s2.canon = true := setQp_canon hs1
  have hs3 : s3.canon = true := wrapAdd_canon _ _ hs2
  have hs4 : s4.canon = true := canon_ite (canon_with hs3) hs3
  have hs5 : s5.canon = true := canon_ite (vector_canon hs4) hs4
  exact canon_ite (setQp_canon hs) (canon_ite (canon_with hs5) hs5)

theorem State.portClaim_canon {s : State} {p : Port} (hs : s.canon = true) : (s.portClaim p).canon = true :=
  canon_ite (canon_ite (addClaim_canon hs) hs) (canon_ite hs (dropClaim_canon hs))

theorem State.nqRelease_canon {s : State} {n : Nat} (hs : s.canon = true) : (s.nqRelease n).canon = true := wr_canon _ _ hs

theorem State.disableQp_canon {s : State} {f : Fn} {q : Nat} (hs : s.canon = true) : (s.disableQp f q).canon = true := by
  unfold State.disableQp
  extract_lets unbind s1 e s2 s3 s4
  have hs1 : s1.canon = true := setQp_canon hs
  have hs2 : s2.canon = true := wr_canon _ _ hs1
  have hs3 : s3.canon = true := canon_ite (wr_canon _ _ (wr_canon _ _ hs2)) hs2
  have hs4 : s4.canon = true := canon_ite hs3 (portClaim_canon hs3)
  exact canon_ite (nqRelease_canon hs4) hs4

theorem State.finishDelete_canon {s : State} {f : Fn} {q : Nat} (hs : s.canon = true) : (s.finishDelete f q).canon = true :=
  canon_ite (disableQp_canon hs) hs

/-! Sys2Proof/Machine/KeyOps.lean -/

theorem State.setKey_canon {s : State} {owner index : Nat} {k : Option Key} (hs : s.canon = true) : (s.setKey owner index k).canon = true :=
  canon_with hs

theorem State.setOwner_canon {s : State} {o : Nat} {v : Option Owner} (hs : s.canon = true) : (s.setOwner o v).canon = true := canon_with hs

theorem State.setSlot_canon {s : State} {p : Nat} {v : Option Slot} (hs : s.canon = true) : (s.setSlot p v).canon = true := canon_with hs

theorem State.pickSlot_canon {s : State} (hs : s.canon = true) : s.pickSlot.2.canon = true := by
  unfold State.pickSlot
  split
  · exact hs
  · split
    rename_i x n s1 e
    exact canon_of_snd e (freeNat_canon hs)

theorem State.fillSlot_canon {s : State} {p : Nat} {secret : List Byte} {a : Attr} {h : Holder} {share : List Byte} (hs : s.canon = true) :
    (s.fillSlot p secret a h share).canon = true := by
  unfold State.fillSlot
  split
  · split
    rename_i x b s1 e
    have hx : s1.canon = true := canon_of_snd e (draw_canon hs)
    exact setSlot_canon hx
  · exact setSlot_canon hs

theorem State.fillDevice_canon {s : State} {n : Nat} {secret : List Byte} (hs : s.canon = true) : (s.fillDevice n secret).canon = true :=
  canon_ite hs (fillSlot_canon hs)

theorem State.useGen_canon {s : State} {owner index gen : Nat} (hs : s.canon = true) : (s.useGen owner index gen).canon = true := canon_with hs

theorem writeCells_canon {base : Nat} {l1 : List Nat} {l : List Byte} {s : State} (hs : s.canon = true) : (writeCells base l1 l s).2.canon = true :=
    by
  induction l1 generalizing base l s with
  | nil =>
    unfold writeCells
    exact hs
  | cons x l1 ih =>
    unfold writeCells
    split
    · rename_i x1 s1 e
      have hx : s1.canon = true := canon_of_snd e (writeMem_canon hs)
      exact ih hx
    · rename_i x1 s1 e
      exact canon_of_snd e (writeMem_canon hs)

theorem State.wipeCells_canon {s : State} {cells : List Nat} (hs : s.canon = true) : (s.wipeCells cells).canon = true :=
  canon_fold hs (fun _ _ h => writeMem_canon h)

theorem State.readObject_canon {s : State} {a : Attr} {o : Obj} (hs : s.canon = true) : (s.readObject a o).2.canon = true := by
  unfold State.readObject
  extract_lets ps key head
  split
  · rename_i x fst s' e
    exact canon_of_thd e (readAccesses_canon hs)
  · rename_i x c s' e
    have hx : s'.canon = true := canon_of_thd e (readAccesses_canon hs)
    exact canon_ite_snd hx hx

theorem State.clearSlot_canon {s : State} {p : Nat} (hs : s.canon = true) : (s.clearSlot p).canon = true := setSlot_canon hs

theorem State.uncount_canon {s : State} {f : Option Fn} {isObj : Bool} (hs : s.canon = true) : (s.uncount f isObj).canon = true := by
  unfold State.uncount
  split
  · exact wr_canon _ _ hs
  · exact hs

theorem State.dropResident_canon {s : State} {h : Nat} (hs : s.canon = true) : (s.dropResident h).canon = true :=
  canon_fold hs (fun _ _ h1 => canon_ite (canon_with (wr_canon _ _ (wr_canon _ _ (canon_ite (canon_with (wr_canon _ _ (wr_canon _ _ h1))) h1))))
    (canon_ite (canon_with (wr_canon _ _ (wr_canon _ _ h1))) h1))

theorem State.destroyKey_canon {s : State} {owner index : Nat} {by' : Option Fn} (hs : s.canon = true) : (s.destroyKey owner index by').canon = true
    := by
  unfold State.destroyKey
  split
  · exact hs
  · extract_lets s1 s2
    have hs1 : s1.canon = true := by
      unfold s1
      split
      · exact clearSlot_canon hs
      · exact wipeCells_canon hs
      · exact hs
    have hs2 : s2.canon = true := uncount_canon hs1
    exact setKey_canon (canon_ite (dropResident_canon hs2) hs2)

theorem State.endApproval_canon {s : State} {id : Nat} (hs : s.canon = true) : (s.endApproval id).canon = true := by
  unfold State.endApproval
  split
  · exact hs
  · exact canon_with hs

theorem State.cancelApprovals_canon {s : State} {pred : Approval → Bool} (hs : s.canon = true) : (s.cancelApprovals pred).canon = true :=
  canon_fold hs (fun _ _ h => endApproval_canon h)

theorem State.dropCtx_canon {s : State} {i : Nat} (hs : s.canon = true) : (s.dropCtx i).canon = true := canon_with hs

theorem State.dropCtxs_canon {s : State} {pred : Ctx → Bool} (hs : s.canon = true) : (s.dropCtxs pred).canon = true := canon_with hs

theorem State.zeroize_canon {s : State} (hs : s.canon = true) : s.zeroize.canon = true := by
  unfold State.zeroize
  extract_lets s1 x x1 s2 stop
  have hs1 : s1.canon = true := cancelApprovals_canon hs
  have hs2 : s2.canon = true := canon_with hs1
  exact wr_canon _ _ (canon_ite (canon_ite hs2 (wr_canon _ _ hs2)) (wr_canon _ _ (canon_ite hs2 (wr_canon _ _ hs2))))

theorem State.refreshVf_canon {s : State} {w : Nat} (hs : s.canon = true) : (s.refreshVf w).canon = true :=
  canon_ite hs (vector_canon (wr_canon _ _ hs))

theorem State.refreshSuspended_canon {s : State} (hs : s.canon = true) : s.refreshSuspended.canon = true :=
  canon_fold hs (fun _ _ h => refreshVf_canon h)

/-! Sys2Proof/Machine/Commands.lean -/

theorem writePieces_canon {f : Fn} {cls : Nat} {l1 : List (Nat × Nat)} {l : List Byte} {s : State} (hs : s.canon = true) : (writePieces f cls l1 l
    s).2.canon = true := by
  induction l1 generalizing f cls l s with
  | nil =>
    unfold writePieces
    exact hs
  | cons x l1 ih =>
    unfold writePieces
    split
    · exact hs
    · split
      · rename_i x1 s1 e
        have hx : s1.canon = true := canon_of_snd e (fnWrite_canon hs)
        exact ih hx
      · rename_i x1 s1 e
        exact canon_of_snd e (fnWrite_canon hs)

theorem State.setCmd_canon {s : State} {c : Cmd} (hs : s.canon = true) : (s.setCmd c).canon = true := canon_with hs

theorem State.unhold_canon {s : State} {id : Nat} (hs : s.canon = true) : (s.unhold id).canon = true :=
  canon_fold hs (fun _ _ h => wr_canon _ _ (canon_with h))

theorem State.dropCmd_canon {s : State} {id : Nat} (hs : s.canon = true) : (s.dropCmd id).canon = true := canon_with (unhold_canon hs)

theorem State.endResidency_canon {s : State} {p : Pool} {u : Nat} (hs : s.canon = true) : (s.endResidency p u).canon = true := by
  unfold State.endResidency
  split
  · exact canon_with (wr_canon _ _ (wr_canon _ _ (wr_canon _ _ (wr_canon _ _ hs))))
  · exact hs

theorem State.clearUnit_canon {s : State} {p : Pool} {u : Nat} (hs : s.canon = true) : (s.clearUnit p u).canon = true := by
  unfold State.clearUnit
  extract_lets x s1 s2
  have hs1 : s1.canon = true := canon_with hs
  have hs2 : s2.canon = true := endResidency_canon (wr_canon _ _ hs1)
  split
  · rename_i p
    exact canon_fold hs2 (fun _ _ h => wr_canon _ _ h)
  · exact wr_canon _ _ hs2

theorem State.idleFields_canon {s : State} {p : Pool} {u l : Nat} (hs : s.canon = true) : (s.idleFields p u l).canon = true := by
  unfold State.idleFields
  split
  · exact hs
  · exact wr_canon _ _ (wr_canon _ _ (wr_canon _ _ hs))
  · exact wr_canon _ _ hs
  · exact wr_canon _ _ hs
  · exact wr_canon _ _ hs

theorem State.releaseLane_canon {s : State} {p : Pool} {u l : Nat} {keep : Bool} (hs : s.canon = true) : (s.releaseLane p u l keep).canon = true := by
  unfold State.releaseLane
  extract_lets tile x s1 s2 s3 s4
  have hs1 : s1.canon = true := canon_with hs
  have hs2 : s2.canon = true := dropClaim_canon hs1
  have hs3 : s3.canon = true := canon_ite (canon_fold hs2 (fun _ _ h => idleFields_canon h)) (idleFields_canon hs2)
  have hs4 : s4.canon = true := canon_ite (wr_canon _ _ (wr_canon _ _ hs3)) (wr_canon _ _ hs3)
  split
  · rename_i p
    exact canon_ite hs4 (canon_ite (clearUnit_canon hs4) (wr_canon _ _ hs4))
  · exact canon_ite (canon_ite (wr_canon _ _ hs3) hs3) (canon_ite hs3 (clearUnit_canon hs3))

theorem State.releaseExtra_canon {s : State} {c : Cmd} {keep : Bool} (hs : s.canon = true) : (s.releaseExtra c keep).canon = true := by
  unfold State.releaseExtra
  split
  · exact canon_ite (releaseLane_canon hs) hs
  · exact hs

theorem State.releaseUnit_canon {s : State} {c : Cmd} {keep : Bool} (hs : s.canon = true) : (s.releaseUnit c keep).canon = true := by
  unfold State.releaseUnit
  extract_lets s1
  have hs1 : s1.canon = true := releaseExtra_canon hs
  split
  · exact canon_ite (releaseLane_canon hs1) hs1
  · exact hs1

theorem State.complete_canon {s : State} {c : Cmd} {r : Res} (hs : s.canon = true) : (s.complete c r).canon = true := by
  unfold State.complete
  extract_lets p s1 s2 s3 s4 s5
  have hs1 : s1.canon = true := releaseUnit_canon hs
  have hs2 : s2.canon = true := dropCmd_canon hs1
  have hs3 : s3.canon = true := writeCompletion_canon hs2
  have hs4 : s4.canon = true := canon_ite (recordInternal_canon hs3) hs3
  have hs5 : s5.canon = true := canon_ite (decideRecord_canon hs4) hs4
  exact finishDelete_canon hs5

theorem State.xtsPart_canon {s : State} {c : Cmd} (hs : s.canon = true) : (s.xtsPart c).2.2.canon = true := by
  unfold State.xtsPart
  split
  · split
    rename_i x n s1 e
    have hx : s1.canon = true := canon_of_snd e (freeNat_canon hs)
    extract_lets units
    exact hx
  · exact hs

theorem State.helloEnd_canon {s : State} {c : Cmd} {status detail : Nat} {v granted : Nat} (hs : s.canon = true) : (s.helloEnd c status detail v
    granted).canon = true := by
  unfold State.helloEnd
  extract_lets x s1
  have hs1 : s1.canon = true := setFnSt_canon hs
  split
  · exact complete_canon hs1
  · split
    rename_i x1 ok s2 e
    have hx : s2.canon = true := canon_of_snd e (fnWrite_canon hs1)
    exact complete_canon hx

theorem State.stopCmd_canon {s : State} {c : Cmd} {status detail : Nat} (hs : s.canon = true) : (s.stopCmd c status detail).canon = true := by
  unfold State.stopCmd
  split
  · exact helloEnd_canon hs
  · split
    · split
      rename_i x d n s1 e
      have hx : s1.canon = true := canon_of_thd e (xtsPart_canon hs)
      exact complete_canon (writePieces_canon hx)
    · exact complete_canon hs

theorem State.dropCmdCtx_canon {s : State} {c : Cmd} (hs : s.canon = true) : (s.dropCmdCtx c).canon = true := by
  unfold State.dropCmdCtx
  split
  · split
    · exact canon_ite (dropCtx_canon hs) hs
    · exact hs
  · exact hs

theorem State.abortCmd_canon {s : State} {c : Cmd} {status : Nat} (hs : s.canon = true) : (s.abortCmd c status).canon = true :=
  stopCmd_canon (canon_ite (dropCmdCtx_canon hs) hs)

theorem State.abortSuspended_canon {s : State} (hs : s.canon = true) : s.abortSuspended.canon = true := canon_fold hs (fun _ _ h => abortCmd_canon h)

theorem State.discardCmd_canon {s : State} {c : Cmd} (hs : s.canon = true) : (s.discardCmd c).canon = true :=
  setQp_canon (dropCmd_canon (releaseUnit_canon hs))

/-! Sys2Proof/Machine/Alarms.lean -/

theorem State.alarmLevel_canon {s : State} (hs : s.canon = true) : s.alarmLevel.canon = true := setStatus_canon hs

theorem State.flagSource_canon {s : State} {acted : Bool} {src : Nat} (hs : s.canon = true) : (s.flagSource acted src).canon = true :=
  setEvt_canon (wr_canon _ _ (canon_ite hs (wr_canon _ _ (wr_canon _ _ hs))))

theorem State.sendFrame_canon {s : State} {purge : Bool} {p : TwinPayload} (hs : s.canon = true) : (s.sendFrame purge p).canon = true := canon_with hs

theorem State.sendClose_canon {s : State} {purge : Bool} {reason : Option Nat} (hs : s.canon = true) : (s.sendClose purge reason).canon = true := by
  unfold State.sendClose
  split
  · exact sendFrame_canon hs
  · split
    rename_i x n s1 e
    have hx : s1.canon = true := canon_of_snd e (freeNat_canon hs)
    exact sendFrame_canon hx

theorem State.journalAdd_canon {s : State} {r : ChangeRec} (hs : s.canon = true) : (s.journalAdd r).canon = true :=
  canon_ite (canon_with hs) (setEvt_canon (wr_canon _ _ hs))

theorem State.endCommit_canon {s : State} {c : Cmd} (hs : s.canon = true) : (s.endCommit c).canon = true :=
  complete_canon (canon_fold hs (fun _ _ h => journalAdd_canon h))

theorem State.peerGone_canon {s : State} {lost : Bool} (hs : s.canon = true) : (s.peerGone lost).canon = true := by
  unfold State.peerGone
  extract_lets s1 was x s2 s3
  have hs1 : s1.canon = true := canon_fold hs (fun _ _ h => endCommit_canon h)
  have hs2 : s2.canon = true := canon_with hs1
  have hs3 : s3.canon = true := setStatus_canon hs2
  exact canon_ite (canon_ite (setEvt_canon (wr_canon _ _ hs3)) (setEvt_canon (wr_canon _ _ hs3))) (canon_ite (wr_canon _ _ hs3) hs3)

theorem State.twinDown_canon {s : State} (hs : s.canon = true) : s.twinDown.canon = true :=
  canon_ite (wr_canon _ _ (wr_canon _ _ (canon_with hs))) (peerGone_canon (wr_canon _ _ (wr_canon _ _ (canon_with hs))))

theorem State.respond_canon {s : State} {k : Nat} (hs : s.canon = true) : (s.respond k).canon = true := by
  unfold State.respond
  split
  · exact alarmLevel_canon hs
  · exact canon_ite (abortSuspended_canon (refreshSuspended_canon (setStatus_canon hs))) (canon_ite (canon_ite (canon_ite (sendClose_canon hs) hs)
    (canon_with (zeroize_canon (canon_ite (sendClose_canon hs) hs)))) (canon_ite (canon_with hs) (canon_ite (canon_with hs) hs)))

theorem State.respondAll_canon {s : State} {lo n : Nat} (hs : s.canon = true) : (s.respondAll lo n).canon = true := by
  induction n generalizing s lo with
  | zero =>
    unfold State.respondAll
    exact hs
  | succ n ih =>
    unfold State.respondAll
    exact ih (respond_canon hs)

theorem State.execCode_canon {s : State} {srcs c : Nat} (hs : s.canon = true) : (s.execCode srcs c).canon = true :=
  canon_ite hs (setStatus_canon (wr_canon _ _ (canon_ite (alarmLevel_canon (respondAll_canon (canon_with hs))) (respondAll_canon (canon_with hs)))))

theorem State.alarmRecord_canon {s : State} {srcs code : Nat} {atStart : Bool} (hs : s.canon = true) : (s.alarmRecord srcs code atStart).canon = true
    :=
  canon_ite (canon_with hs) (decideRecord_canon hs)

theorem State.raiseAlarms_canon {s : State} {l : List Nat} {atStart : Bool} (hs : s.canon = true) : (s.raiseAlarms l atStart).canon = true :=
  canon_ite hs (alarmRecord_canon (execCode_canon (canon_fold hs (fun _ _ h => flagSource_canon h))))

theorem State.endCond_canon {s : State} {src : Nat} (hs : s.canon = true) : (s.endCond src).canon = true := wr_canon _ _ hs

theorem State.writeCapacity_canon {s : State} (hs : s.canon = true) : s.writeCapacity.canon = true :=
  wr_canon _ _ (wr_canon _ _ (wr_canon _ _ (wr_canon _ _ (wr_canon _ _ (wr_canon _ _ (wr_canon _ _ (wr_canon _ _ (wr_canon _ _ (wr_canon _ _
    (wr_canon _ _ (wr_canon _ _ (wr_canon _ _ hs))))))))))))

theorem State.recapacity_canon {s : State} {before : List Nat} (hs : s.canon = true) : (s.recapacity before).canon = true :=
  canon_ite (decideRecord_canon (raiseAlarms_canon (setEvtAll_canon (writeCapacity_canon hs)))) (setEvtAll_canon (writeCapacity_canon hs))

theorem State.requestKey_canon {s : State} {k : Key} (hs : s.canon = true) : (s.requestKey k).canon = true := canon_ite (sendFrame_canon hs) hs

theorem State.moveReserved_canon {s : State} {n : Nat} (hs : s.canon = true) : (s.moveReserved n).canon = true := by
  unfold State.moveReserved
  split
  · exact hs
  · exact canon_with hs

theorem State.regrowSlot_canon {s : State} (hs : s.canon = true) : s.regrowSlot.canon = true := by
  unfold State.regrowSlot
  extract_lets left x
  split
  · exact canon_ite (wr_canon _ _ hs) (canon_ite (setEvt_canon (setEvt_canon (wr_canon _ _ (canon_with hs)))) (setEvt_canon (wr_canon _ _ (canon_with
    hs))))
  · exact wr_canon _ _ hs

theorem State.loseHolder_canon {s : State} {h : Holder} (hs : s.canon = true) : (s.loseHolder h).canon = true := by
  unfold State.loseHolder
  split
  · split
    · exact requestKey_canon (setKey_canon hs)
    · exact hs
  · split
    · exact canon_ite (canon_with (setOwner_canon hs)) (canon_with (setOwner_canon hs))
    · exact canon_ite (canon_with hs) (canon_with hs)
  · split
    · exact canon_ite (canon_ite hs (wr_canon _ _ hs)) (wr_canon _ _ (canon_ite hs (wr_canon _ _ hs)))
    · exact canon_ite (twinDown_canon (moveReserved_canon hs)) (canon_ite (canon_with (canon_ite (dropCtxs_canon (canon_with hs)) hs)) (canon_with
      (canon_ite (dropCtxs_canon (canon_with hs)) hs)))

theorem State.defectSlot_canon {s : State} {p share : Nat} {atUse : Bool} (hs : s.canon = true) : (s.defectSlot p share atUse).canon = true := by
  unfold State.defectSlot
  split
  · exact hs
  · exact recapacity_canon (raiseAlarms_canon (loseHolder_canon (setEvt_canon (regrowSlot_canon (canon_ite (canon_with (clearSlot_canon hs))
    (wr_canon _ _ (wr_canon _ _ (wr_canon _ _ (wr_canon _ _ (canon_with (clearSlot_canon hs)))))))))))

theorem State.settle_canon {s : State} (hs : s.canon = true) : s.settle.canon = true := canon_ite hs (raiseAlarms_canon (canon_with hs))

/-! Sys2Proof/Machine/Gate.lean -/

theorem State.errorWrite_canon {s : State} {who : Requester} {addr : Nat} (hs : s.canon = true) : (s.errorWrite who addr).canon = true := by
  unfold State.errorWrite
  split
  · exact setCore_canon _ _ hs
  · exact aerLog_canon hs
  · exact canon_with hs

theorem State.errorRead_canon {s : State} {who : Requester} (hs : s.canon = true) : (s.errorRead who).canon = true := by
  unfold State.errorRead
  split
  · exact hs
  · exact emit_canon _ (aerLog_canon hs)
  · exact emit_canon _ (canon_with hs)

theorem State.debugViol_canon {s : State} {world : World} {kind : AccKind} {a : Nat} (hs : s.canon = true) : (s.debugViol world kind a).canon = true
    :=
  decideRecord_canon (setEvt_canon hs)

theorem State.guardFail_canon {s : State} {off cls cause : Nat} (hs : s.canon = true) : (s.guardFail off cls cause).canon = true := by
  unfold State.guardFail
  extract_lets s1 s2 recent x s3
  have hs1 : s1.canon = true := canon_ite (satAdd_canon _ _ hs) (wr_canon _ _ (wr_canon _ _ (wr_canon _ _ hs)))
  have hs2 : s2.canon = true := setEvtAll_canon hs1
  have hs3 : s3.canon = true := canon_with hs2
  exact canon_ite (raiseAlarms_canon hs3) hs3

theorem State.dropGuard_canon {s : State} {off : Nat} (hs : s.canon = true) : (s.dropGuard off).canon = true := canon_with hs

theorem State.interleave_canon {s : State} {who : Requester} {off : Nat} (hs : s.canon = true) : (s.interleave who off).canon = true :=
  canon_fold hs (fun _ _ h => guardFail_canon (dropGuard_canon h))

theorem State.guardValue_canon {s : State} {who : Requester} {off val : Nat} (hs : s.canon = true) : (s.guardValue who off val).canon = true := by
  unfold State.guardValue
  split
  · exact guardFail_canon hs
  · exact canon_with hs

theorem State.guardComplement_canon {s : State} {who : Requester} {off compl : Nat} {f : Nat → State → State} (hs : s.canon = true) (hf : ∀ (i : Nat)
    (t : State), t.canon = true → (f i t).canon = true) : (s.guardComplement who off compl f).canon = true := by
  unfold State.guardComplement
  split
  · exact canon_ite (hf _ _ (dropGuard_canon hs)) (guardFail_canon (dropGuard_canon hs))
  · exact guardFail_canon hs

theorem State.refuseWrite_canon {s : State} {who : Requester} {off src entry : Nat} (hs : s.canon = true) : (s.refuseWrite who off src entry).canon =
    true := by
  unfold State.refuseWrite
  extract_lets s1 s2
  have hs1 : s1.canon = true := violation_canon hs
  have hs2 : s2.canon = true := by
    unfold s2
    split
    · rename_i who w
      exact debugViol_canon hs1
    · exact hs1
  exact errorWrite_canon hs2

theorem State.interleaveAt_canon {s : State} {who : Requester} {a : Nat} (hs : s.canon = true) : (s.interleaveAt who a).canon = true :=
  interleave_canon hs

theorem State.parked_canon {s : State} {who : Requester} {a : HeldAccess} (hs : s.canon = true) : ∀ t ∈ s.parked who a, t.canon = true := by
  unfold State.parked
  split
  · exact forall_mem_some (holdL1_canon hs)
  · split
    · exact forall_mem_some (hold_canon hs)
    · exact forall_mem_none

theorem State.gated_canon {s : State} {who : Requester} {off val : Nat} {f : State → State} (hs : s.canon = true) (hf : ∀ t : State, t.canon = true →
    (f t).canon = true) : (s.gated who off val f).canon = true := by
  unfold State.gated
  split
  · exact hs
  · split
    · rename_i x s1 e
      exact parked_canon hs _ e
    · rename_i x e
      extract_lets s1
      have hs1 : s1.canon = true := interleave_canon hs
      split
      · exact errorWrite_canon hs1
      · split
        · exact refuseWrite_canon hs1
        · exact canon_ite (hf _ (wakeWord_canon hs1)) (errorWrite_canon hs1)

theorem State.writeGuardValue_canon {s : State} {who : Requester} {off val : Nat} (hs : s.canon = true) : (s.writeGuardValue who off val).canon =
    true :=
  gated_canon hs (fun _ h => guardValue_canon h)

theorem State.writeGuarded_canon {s : State} {who : Requester} {off compl : Nat} {f : Nat → State → State} (hs : s.canon = true) (hf : ∀ (i : Nat) (t
    : State), t.canon = true → (f i t).canon = true) : (s.writeGuarded who off compl f).canon = true :=
  gated_canon hs (fun _ h => guardComplement_canon h hf)

/-! Sys2Proof/Machine/Evr.lean -/

theorem execRecordStore_canon {s : State} (hs : s.canon = true) : OutcomeCanon (execRecordStore s) := by
  unfold execRecordStore
  split
  · exact OutcomeCanon.next (storeRec_canon (canon_with hs))
  · exact noEvent_canon hs

theorem State.rdSel_canon {s : State} {b slot : Nat} (hs : s.canon = true) : (s.rdSel b slot).canon = true :=
  canon_with (wr_canon _ _ (wr_canon _ _ hs))

theorem execEvrRdSelWrite_canon {who : Requester} {value : Word32} {s : State} (hs : s.canon = true) : OutcomeCanon (execEvrRdSelWrite who value s) :=
  OutcomeCanon.next (gated_canon hs (fun _ h => rdSel_canon h))

theorem putWords_canon {f : Fld} {b : Nat} {l : List Byte} {n : Nat} {s : State} (hs : s.canon = true) : (putWords f b l n s).canon = true := by
  induction n generalizing f b l s with
  | zero =>
    unfold putWords
    exact hs
  | succ n ih =>
    unfold putWords
    exact wr_canon _ _ (ih hs)

theorem execEvrRdCopyDone_canon {bank : Fin 4} {s : State} (hs : s.canon = true) : OutcomeCanon (execEvrRdCopyDone bank s) := by
  unfold execEvrRdCopyDone
  extract_lets b slot s1 s2 x
  have hs1 : s1.canon = true := putWords_canon hs
  have hs2 : s2.canon = true := wr_canon _ _ (wr_canon _ _ hs1)
  split
  · exact OutcomeCanon.next (canon_with hs2)
  · exact noEvent_canon hs

theorem State.expCtrl_canon {s : State} {b val : Nat} (hs : s.canon = true) : (s.expCtrl b val).canon = true :=
  canon_ite hs (canon_ite (wr_canon _ _ (wr_canon _ _ (wr_canon _ _ (wr_canon _ _ hs)))) (wr_canon _ _ hs))

theorem execEvrExpGo_canon {who : Requester} {value : Word32} {s : State} (hs : s.canon = true) : OutcomeCanon (execEvrExpGo who value s) :=
  OutcomeCanon.next (gated_canon hs (fun _ h => expCtrl_canon h))

theorem exportRecs_canon {p : Port} {n : Nat} {l : List Rec} {s : State} (hs : s.canon = true) : (exportRecs p n l s).canon = true := by
  induction l generalizing p n s with
  | nil =>
    unfold exportRecs
    exact hs
  | cons x l ih =>
    unfold exportRecs
    exact ih (send_canon hs)

theorem State.expEnd_canon {s : State} {p : Port} {result n : Nat} (hs : s.canon = true) : (s.expEnd p result n).canon = true := by
  unfold State.expEnd
  extract_lets b l a s1 s2 s3
  have hs1 : s1.canon = true := exportRecs_canon hs
  have hs2 : s2.canon = true := wr_canon _ _ (wr_canon _ _ (wr_canon _ _ hs1))
  have hs3 : s3.canon = true := by
    unfold s3
    split
    · exact wr_canon _ _ hs2
    · exact hs2
  exact setEvt_canon hs3

theorem execEvrExpDone_canon {port : Port} {dmaError : Bool} {s : State} (hs : s.canon = true) : OutcomeCanon (execEvrExpDone port dmaError s) := by
  unfold execEvrExpDone
  extract_lets b total
  split
  · split
    · split
      rename_i x n s1 e
      have hx : s1.canon = true := canon_of_snd e (freeNat_canon hs)
      exact OutcomeCanon.next (expEnd_canon hx)
    · exact OutcomeCanon.next (expEnd_canon hs)
  · exact noEvent_canon hs

theorem State.clearWrite_canon {s : State} {val : Nat} (hs : s.canon = true) : (s.clearWrite val).canon = true :=
  canon_ite (setEvt_canon (wr_canon _ _ (wr_canon _ _ (endApproval_canon hs)))) (canon_with (storeRec_canon (wrapAdd_canon _ _ (wr_canon _ _
    (wr_canon _ _ (endApproval_canon hs))))))

theorem execEvrClear_canon {who : Requester} {complement : Word32} {s : State} (hs : s.canon = true) : OutcomeCanon (execEvrClear who complement s) :=
  OutcomeCanon.next (writeGuarded_canon hs (fun _ _ h => clearWrite_canon h))

theorem execEvrClearingDone_canon {s : State} (hs : s.canon = true) : OutcomeCanon (execEvrClearingDone s) := by
  unfold execEvrClearingDone
  split
  · exact noEvent_canon hs
  · exact OutcomeCanon.next (setEvt_canon (canon_with (wr_canon _ _ hs)))

theorem State.expReset_canon {s : State} {p : Port} (hs : s.canon = true) : (s.expReset p).canon = true := by
  unfold State.expReset
  split
  · split
    rename_i x n s1 e
    have hx : s1.canon = true := canon_of_snd e (freeNat_canon hs)
    exact expEnd_canon hx
  · exact hs

/-! Sys2Proof/Machine/Power.lean -/

theorem State.domResult_canon {s : State} {w : World} {r : Nat} (hs : s.canon = true) : (s.domResult w r).canon = true := wr_canon _ _ hs

theorem State.pendResult_canon {s : State} {d r : Nat} (hs : s.canon = true) : (s.pendResult d r).canon = true := canon_ite (domResult_canon hs) hs

theorem State.setPending_canon {s : State} {d target : Nat} {w : World} (hs : s.canon = true) : (s.setPending d target w).canon = true :=
  canon_fold hs (fun _ _ h => wr_canon _ _ (wr_canon _ _ h))

theorem State.supersede_canon {s : State} {d : Nat} (hs : s.canon = true) : (s.supersede d).canon = true :=
  canon_ite hs (canon_with (setEvt_canon (setPending_canon (pendResult_canon hs))))

theorem State.trainChannel_canon {s : State} {c : Nat} (hs : s.canon = true) : (s.trainChannel c).canon = true := wr_canon _ _ (setChan_canon hs)

theorem State.powerChannel_canon {s : State} {c : Nat} (hs : s.canon = true) : (s.powerChannel c).canon = true :=
  trainChannel_canon (clearRegs_canon _ _ hs)

theorem State.startMove_canon {s : State} {d target : Nat} (hs : s.canon = true) : (s.startMove d target).canon = true :=
  canon_with (canon_ite (canon_ite (powerChannel_canon hs) (canon_ite (powerChannel_canon hs) hs)) hs)

theorem State.acceptRequest_canon {s : State} {w : World} {d target : Nat} (hs : s.canon = true) : (s.acceptRequest w d target).canon = true :=
  canon_ite (setEvt_canon (domResult_canon (supersede_canon hs))) (canon_ite (startMove_canon (domResult_canon (setPending_canon (supersede_canon
    hs)))) (domResult_canon (setPending_canon (supersede_canon hs))))

theorem State.domRequest_canon {s : State} {w : World} {own : Option Nat} {dom target : Nat} (hs : s.canon = true) : (s.domRequest w own dom
    target).canon = true :=
  canon_ite (domResult_canon hs) (canon_ite (domResult_canon hs) (canon_ite (domResult_canon hs) (canon_ite (domResult_canon hs) (acceptRequest_canon
    hs))))

theorem State.domReqWrite_canon {s : State} {who : Requester} {val : Nat} (hs : s.canon = true) : (s.domReqWrite who val).canon = true :=
  domRequest_canon (wr_canon _ _ (wr_canon _ _ hs))

theorem execPwrDomReqWrite_canon {who : Requester} {value : Word32} {s : State} (hs : s.canon = true) : OutcomeCanon (execPwrDomReqWrite who value s)
    :=
  OutcomeCanon.next (gated_canon hs (fun _ h => domReqWrite_canon h))

theorem execDomainClaimsZero_canon {domain : Nat} {s : State} (hs : s.canon = true) : OutcomeCanon (execDomainClaimsZero domain s) := by
  unfold execDomainClaimsZero
  extract_lets d p
  split
  · exact OutcomeCanon.next (startMove_canon hs)
  · exact noEvent_canon hs

theorem execIdleBaskTimeout_canon {domain : Nat} {s : State} (hs : s.canon = true) : OutcomeCanon (execIdleBaskTimeout domain s) := by
  unfold execIdleBaskTimeout
  split
  · exact OutcomeCanon.next (wr_canon _ _ hs)
  · exact noEvent_canon hs

theorem execBaskingWake_canon {domain : Nat} {s : State} (hs : s.canon = true) : OutcomeCanon (execBaskingWake domain s) := by
  unfold execBaskingWake
  split
  · exact OutcomeCanon.next (wake_canon hs)
  · exact noEvent_canon hs

theorem State.setpoint_canon {s : State} {mv : Nat} (hs : s.canon = true) : (s.setpoint mv).canon = true := emit_canon _ (wr_canon _ _ hs)

theorem State.readRegulator_canon {s : State} (hs : s.canon = true) : s.readRegulator.canon = true := emit_canon _ (emit_canon _ (emit_canon _ hs))

theorem State.powerTick_canon {s : State} {total temp measured : Nat} (hs : s.canon = true) : (s.powerTick total temp measured).canon = true := by
  unfold State.powerTick
  extract_lets avs s1 s2 excess was x s3 sp s4
  have hs1 : s1.canon = true := wr_canon _ _ (wr_canon _ _ hs)
  have hs2 : s2.canon = true := canon_ite (wr_canon _ _ (readRegulator_canon hs1)) hs1
  have hs3 : s3.canon = true := canon_with hs2
  have hs4 : s4.canon = true := canon_ite hs3 (setEvt_canon hs3)
  exact canon_ite hs3 (canon_ite (canon_ite (setpoint_canon hs4) hs4) (canon_ite (setpoint_canon hs3) (canon_ite (setpoint_canon hs3) hs3)))

theorem execPowerManagerTick_canon {total temp measured : Nat} {s : State} (hs : s.canon = true) : OutcomeCanon (execPowerManagerTick total temp
    measured s) := by
  unfold execPowerManagerTick
  split
  · exact OutcomeCanon.next (powerTick_canon hs)
  · exact noEvent_canon hs

theorem State.halveLimit_canon {s : State} {p : Pool} (hs : s.canon = true) : (s.halveLimit p).canon = true := canon_ite hs (canon_with hs)

theorem State.raiseLimit_canon {s : State} {p : Pool} (hs : s.canon = true) : (s.raiseLimit p).canon = true := canon_ite hs (canon_with hs)

theorem execCapLimitStep_canon {s : State} (hs : s.canon = true) : OutcomeCanon (execCapLimitStep s) := by
  unfold execCapLimitStep
  split
  · exact OutcomeCanon.next (canon_fold hs (fun _ _ h => halveLimit_canon h))
  · split
    · exact OutcomeCanon.next (canon_fold hs (fun _ _ h => raiseLimit_canon h))
    · exact noEvent_canon hs

theorem State.capWrite_canon {v : Nat} {s : State} (hs : s.canon = true) : (State.capWrite v s).canon = true := wr_canon _ _ hs

theorem execPwrCapWrite_canon {who : Requester} {complement : Word32} {s : State} (hs : s.canon = true) : OutcomeCanon (execPwrCapWrite who
    complement s) :=
  OutcomeCanon.next (writeGuarded_canon hs (fun _ _ h => capWrite_canon h))

theorem execRateWindowEnd_canon {rate : Nat} {s : State} (hs : s.canon = true) : OutcomeCanon (execRateWindowEnd rate s) :=
  OutcomeCanon.next (wr_canon _ _ hs)

theorem State.avsFault_canon {s : State} (hs : s.canon = true) : s.avsFault.canon = true := wr_canon _ _ (wr_canon _ _ (setEvt_canon hs))

theorem State.startAvs_canon {s : State} (hs : s.canon = true) : s.startAvs.canon = true :=
  canon_ite (wr_canon _ _ (emit_canon _ hs)) (setEvt_canon (emit_canon _ hs))

theorem execAvsAlert_canon {statusWord : BitVec 16} {s : State} (hs : s.canon = true) : OutcomeCanon (execAvsAlert statusWord s) := by
  unfold execAvsAlert
  split
  · exact OutcomeCanon.next (canon_ite (emit_canon _ hs) (avsFault_canon (emit_canon _ hs)))
  · exact OutcomeCanon.next hs

theorem execAvsTimeout_canon {s : State} (hs : s.canon = true) : OutcomeCanon (execAvsTimeout s) := by
  unfold execAvsTimeout
  split
  · exact OutcomeCanon.next (avsFault_canon hs)
  · exact noEvent_canon hs

/-! Sys2Proof/Machine/Worlds.lean -/

theorem State.collide_canon {s : State} {m : Nat} (hs : s.canon = true) : (s.collide m).canon = true := canon_ite (setEvt_canon (wr_canon _ _ hs)) hs

theorem State.mbxData_canon {s : State} {who : Requester} {m w val : Nat} (hs : s.canon = true) : (s.mbxData who m w val).canon = true :=
  collide_canon (wr_canon _ _ (canon_with hs))

theorem execMbxDataWrite_canon {who : Requester} {mbx : Fin 32} {word : Fin 16} {value : Word32} {s : State} (hs : s.canon = true) : OutcomeCanon
    (execMbxDataWrite who mbx word value s) :=
  OutcomeCanon.next (gated_canon hs (fun _ h => mbxData_canon h))

theorem State.mbxSend_canon {s : State} {who : Requester} {m val : Nat} (hs : s.canon = true) : (s.mbxSend who m val).canon = true := by
  unfold State.mbxSend
  extract_lets len full mixed s1 s2 s3 s4 s5
  have hs1 : s1.canon = true := wrapAdd_canon _ _ hs
  have hs2 : s2.canon = true := wr_canon _ _ (wr_canon _ _ hs1)
  have hs3 : s3.canon = true := wr_canon _ _ (wr_canon _ _ (wr_canon _ _ hs2))
  have hs4 : s4.canon = true := canon_ite (wr_canon _ _ hs3) hs3
  have hs5 : s5.canon = true := canon_with hs4
  exact canon_ite (errorWrite_canon hs) (canon_ite (collide_canon hs5) (setEvt_canon (wr_canon _ _ hs5)))

theorem execMbxSend_canon {who : Requester} {mbx : Fin 32} {value : Word32} {s : State} (hs : s.canon = true) : OutcomeCanon (execMbxSend who mbx
    value s) :=
  OutcomeCanon.next (gated_canon hs (fun _ h => mbxSend_canon h))

theorem State.mbxZero_canon {s : State} {m n : Nat} (hs : s.canon = true) : (s.mbxZero m n).canon = true := by
  induction n generalizing s m with
  | zero =>
    unfold State.mbxZero
    exact hs
  | succ n ih =>
    unfold State.mbxZero
    exact wr_canon _ _ (ih hs)

theorem State.mbxAck_canon {s : State} {m val : Nat} (hs : s.canon = true) : (s.mbxAck m val).canon = true :=
  canon_ite (setEvt_canon (canon_with (wr_canon _ _ (wr_canon _ _ (wr_canon _ _ (mbxZero_canon hs)))))) hs

theorem execMbxAck_canon {who : Requester} {mbx : Fin 32} {value : Word32} {s : State} (hs : s.canon = true) : OutcomeCanon (execMbxAck who mbx value
    s) :=
  OutcomeCanon.next (gated_canon hs (fun _ h => mbxAck_canon h))

theorem State.wakePair_canon {s : State} {w : World} {p : Nat} (hs : s.canon = true) : (s.wakePair w p).canon = true :=
  canon_ite (startMove_canon (setPending_canon (supersede_canon hs))) hs

theorem State.mbxWake_canon {s : State} {w : World} {val : Nat} (hs : s.canon = true) : (s.mbxWake w val).canon = true :=
  canon_fold hs (fun _ _ h => wakePair_canon h)

theorem execMbxWake_canon {who : Requester} {value : Word32} {s : State} (hs : s.canon = true) : OutcomeCanon (execMbxWake who value s) :=
  OutcomeCanon.next (gated_canon hs (fun _ h => mbxWake_canon h))

theorem State.emptyMbx_canon {s : State} {lo n : Nat} (hs : s.canon = true) : (s.emptyMbx lo n).canon = true := canon_with (clearRegs_canon _ _ hs)

theorem State.emptyPairMbx_canon {s : State} {p : Nat} (hs : s.canon = true) : (s.emptyPairMbx p).canon = true :=
  canon_ite (emptyMbx_canon hs) (canon_ite (emptyMbx_canon hs) (canon_ite (emptyMbx_canon hs) (emptyMbx_canon hs)))

theorem State.nqBind_canon {s : State} {n val : Nat} (hs : s.canon = true) : (s.nqBind n val).canon = true :=
  canon_ite (canon_ite (wr_canon _ _ hs) (wr_canon _ _ (wr_canon _ _ (wr_canon _ _ (wr_canon _ _ (wr_canon _ _ hs)))))) (canon_ite
    (finishDelete_canon (setQp_canon (wr_canon _ _ hs))) (wr_canon _ _ hs))

theorem execWldNqBind_canon {who : Requester} {n : Nat} {value : Word32} {s : State} (hs : s.canon = true) : OutcomeCanon (execWldNqBind who n value
    s) :=
  OutcomeCanon.next (gated_canon hs (fun _ h => canon_ite (nqBind_canon h) h))

theorem execWldNqUnbind_canon {who : Requester} {n : Nat} {value : Word32} {s : State} (hs : s.canon = true) : OutcomeCanon (execWldNqUnbind who n
    value s) :=
  OutcomeCanon.next (gated_canon hs (fun _ h => canon_ite (nqBind_canon h) h))

/-! Sys2Proof/Machine/Functions.lean -/

theorem State.dropHeld_canon {s : State} {pred : Fn → Bool} {p : Port} (hs : s.canon = true) : (s.dropHeld pred p).canon = true := setPort_canon hs

theorem State.stopFns_canon {s : State} {pred : Fn → Bool} (hs : s.canon = true) : (s.stopFns pred).canon = true :=
  canon_fold (dropHeld_canon (dropHeld_canon (canon_fold (dropCtxs_canon (canon_fold hs (fun _ _ h => discardCmd_canon h))) (fun _ _ h =>
    disableQp_canon h)))) (fun _ _ h => setFnSt_canon h)

theorem State.releaseVf_canon {s : State} {p : Port} {n : Nat} (hs : s.canon = true) : (s.releaseVf p n).canon = true :=
  canon_with (clearRegs_canon _ _ hs)

theorem State.startTeardown_canon {s : State} {p : Port} {n : Nat} (hs : s.canon = true) : (s.startTeardown p n).canon = true :=
  wr_canon _ _ (stopFns_canon hs)

theorem State.endDestroys_canon {s : State} {p : Port} {n : Nat} (hs : s.canon = true) : (s.endDestroys p n).canon = true :=
  canon_fold hs (fun _ _ h => complete_canon h)

theorem State.linkOff_canon {s : State} {p : Port} (hs : s.canon = true) : (s.linkOff p).canon = true :=
  setPort_canon (wr_canon _ _ (wr_canon _ _ (wr_canon _ _ (wr_canon _ _ (wr_canon _ _ (leaveTest_canon hs))))))

theorem State.dropVfEnable_canon {s : State} {p : Port} (hs : s.canon = true) : (s.dropVfEnable p).canon = true :=
  canon_ite (setEvt_canon (setPort_canon hs)) (setPort_canon hs)

theorem State.teardownAll_canon {s : State} {p : Port} (hs : s.canon = true) : (s.teardownAll p).canon = true :=
  canon_fold (stopFns_canon hs) (fun _ _ h => wr_canon _ _ h)

theorem State.emptyPortMbx_canon {s : State} {p : Port} (hs : s.canon = true) : (s.emptyPortMbx p).canon = true := emptyMbx_canon hs

theorem State.resetPort_canon {s : State} {p : Port} {kind : Nat} (hs : s.canon = true) : (s.resetPort p kind).canon = true :=
  setPort_canon (emptyPortMbx_canon (dropVfEnable_canon (teardownAll_canon (stopFns_canon (expReset_canon hs)))))

theorem State.clearPortRegs_canon {s : State} {p : Port} (hs : s.canon = true) : (s.clearPortRegs p).canon = true :=
  clearRegs_canon _ _ (clearRegs_canon _ _ (clearRegs_canon _ _ hs))

theorem State.assertPerst_canon {s : State} {p : Port} (hs : s.canon = true) : (s.assertPerst p).canon = true :=
  canon_fold (clearPortRegs_canon (canon_with (linkOff_canon (resetPort_canon hs)))) (fun _ _ h => wr_canon _ _ h)

theorem State.linkDown_canon {s : State} {p : Port} (hs : s.canon = true) : (s.linkDown p).canon = true :=
  setEvt_canon (linkOff_canon (resetPort_canon hs))

theorem State.portResetDone_canon {s : State} {p : Port} (hs : s.canon = true) : (s.portResetDone p).canon = true :=
  canon_ite (setEvt_canon (setPort_canon (canon_fold hs (fun _ _ h => endDestroys_canon (releaseVf_canon h))))) (setPort_canon (canon_fold hs (fun _
    _ h => endDestroys_canon (releaseVf_canon h))))

theorem State.vfResetDone_canon {s : State} {p : Port} {n : Nat} (hs : s.canon = true) : (s.vfResetDone p n).canon = true :=
  canon_ite (canon_ite (startTeardown_canon (refreshVf_canon (setEvt_canon (wr_canon _ _ hs)))) (refreshVf_canon (setEvt_canon (wr_canon _ _ hs))))
    (endDestroys_canon (releaseVf_canon hs))

theorem execFunctionResetDone_canon {fn : Fn} {s : State} (hs : s.canon = true) : OutcomeCanon (execFunctionResetDone fn s) := by
  unfold execFunctionResetDone
  split
  · split
    · exact noEvent_canon hs
    · exact OutcomeCanon.next (portResetDone_canon hs)
  · split
    · exact OutcomeCanon.next (vfResetDone_canon hs)
    · exact noEvent_canon hs
  · exact noEvent_canon hs

theorem State.vfFlr_canon {s : State} {p : Port} {n : Nat} (hs : s.canon = true) : (s.vfFlr p n).canon = true :=
  canon_ite (wr_canon _ _ (stopFns_canon hs)) (canon_ite (setEvt_canon (stopFns_canon hs)) (stopFns_canon hs))

theorem execVfFlr_canon {port : Port} {vf : Nat} {s : State} (hs : s.canon = true) : OutcomeCanon (execVfFlr port vf s) := by
  unfold execVfFlr
  split
  · exact OutcomeCanon.next (vfFlr_canon hs)
  · exact noEvent_canon hs

theorem execPfFlr_canon {port : Port} {s : State} (hs : s.canon = true) : OutcomeCanon (execPfFlr port s) := by
  unfold execPfFlr
  split
  · exact OutcomeCanon.next (resetPort_canon hs)
  · exact noEvent_canon hs

theorem State.clearVfEnable_canon {s : State} {p : Port} (hs : s.canon = true) : (s.clearVfEnable p).canon = true :=
  canon_ite (setPort_canon (dropVfEnable_canon (teardownAll_canon hs))) hs

theorem execVfEnableClear_canon {port : Port} {s : State} (hs : s.canon = true) : OutcomeCanon (execVfEnableClear port s) :=
  OutcomeCanon.next (clearVfEnable_canon hs)

theorem State.setVfEnable_canon {s : State} {p : Port} {numVfs : Nat} (hs : s.canon = true) : (s.setVfEnable p numVfs).canon = true :=
  canon_ite (setEvt_canon (setPort_canon hs)) hs

theorem execVfEnableSet_canon {port : Port} {numVfs : Nat} {s : State} (hs : s.canon = true) : OutcomeCanon (execVfEnableSet port numVfs s) :=
  OutcomeCanon.next (setVfEnable_canon hs)

theorem State.enterD3_canon {s : State} {p : Port} (hs : s.canon = true) : (s.enterD3 p).canon = true := canon_ite (setPort_canon hs) hs

theorem execPfD3hotEntry_canon {port : Port} {s : State} (hs : s.canon = true) : OutcomeCanon (execPfD3hotEntry port s) :=
  OutcomeCanon.next (enterD3_canon hs)

theorem State.returnD0_canon {s : State} {p : Port} (hs : s.canon = true) : (s.returnD0 p).canon = true :=
  canon_fold (setPort_canon hs) (fun _ _ h => emit_canon _ h)

theorem execPfD0Return_canon {port : Port} {s : State} (hs : s.canon = true) : OutcomeCanon (execPfD0Return port s) :=
  OutcomeCanon.next (returnD0_canon hs)

theorem execPerstNAssert_canon {port : Port} {s : State} (hs : s.canon = true) : OutcomeCanon (execPerstNAssert port s) := by
  unfold execPerstNAssert
  split
  · split
    · exact OutcomeCanon.next (assertPerst_canon (canon_with hs))
    · exact noEvent_canon hs
  · split
    · exact OutcomeCanon.next (assertPerst_canon (canon_with hs))
    · exact noEvent_canon hs

theorem State.trainPort_canon {s : State} {p : Port} (hs : s.canon = true) : (s.trainPort p).canon = true := canon_ite (setPort_canon hs) hs

theorem State.risePerst_canon {s : State} {p : Port} (hs : s.canon = true) : (s.risePerst p).canon = true :=
  canon_ite (trainPort_canon (setEvt_canon (clearPortRegs_canon hs))) hs

theorem execPerstNRise_canon {port : Port} {s : State} (hs : s.canon = true) : OutcomeCanon (execPerstNRise port s) := by
  unfold execPerstNRise
  split
  · split
    · exact noEvent_canon hs
    · exact OutcomeCanon.next (risePerst_canon (canon_with hs))
  · split
    · exact noEvent_canon hs
    · exact OutcomeCanon.next (risePerst_canon (canon_with hs))

theorem execDlDown_canon {port : Port} {s : State} (hs : s.canon = true) : OutcomeCanon (execDlDown port s) := by
  unfold execDlDown
  split
  · exact OutcomeCanon.next (trainPort_canon (linkDown_canon hs))
  · exact noEvent_canon hs

theorem execDlUp_canon {port : Port} {speed width : Nat} {reversed : Bool} {s : State} (hs : s.canon = true) : OutcomeCanon (execDlUp port speed
    width reversed s) := by
  unfold execDlUp
  split
  · exact OutcomeCanon.next (setEvt_canon (wr_canon _ _ (wr_canon _ _ (wr_canon _ _ (wr_canon _ _ (setPort_canon hs))))))
  · exact noEvent_canon hs

theorem execLinkL1Entry_canon {port : Port} {s : State} (hs : s.canon = true) : OutcomeCanon (execLinkL1Entry port s) := by
  unfold execLinkL1Entry
  split
  · exact OutcomeCanon.next (wr_canon _ _ hs)
  · exact noEvent_canon hs

theorem State.retrained_canon {s : State} {p : Port} {speed width : Nat} (hs : s.canon = true) : (s.retrained p speed width).canon = true :=
  canon_ite (wr_canon _ _ (wr_canon _ _ hs)) (setEvt_canon (wr_canon _ _ (wr_canon _ _ hs)))

theorem execLinkSpeedChange_canon {port : Port} {speed width : Nat} {s : State} (hs : s.canon = true) : OutcomeCanon (execLinkSpeedChange port speed
    width s) := by
  unfold execLinkSpeedChange
  split
  · exact OutcomeCanon.next (retrained_canon hs)
  · exact noEvent_canon hs

/-! Sys2Proof/Machine/Cores.lean -/

theorem State.setGr_canon {s : State} {p : Nat} {d : Reg} {v : Word64} (hs : s.canon = true) : (s.setGr p d v).canon = true :=
  canon_ite hs (setCore_canon _ _ hs)

theorem State.setPc_canon {s : State} {p : Nat} {pc : Word64} (hs : s.canon = true) : (s.setPc p pc).canon = true := setCore_canon _ _ hs

theorem State.pmuAt_canon {s : State} {p ev : Nat} (hs : s.canon = true) : (s.pmuAt p ev).canon = true := canon_ite hs (setCore_canon _ _ hs)

theorem State.pmuCount_canon {s : State} {p ev : Nat} (hs : s.canon = true) : (s.pmuCount p ev).canon = true := canon_ite hs (pmuAt_canon hs)

theorem State.takeAtK_canon {s : State} {p code : Nat} {imm off : Nat} {epc eaddr : Word64} (hs : s.canon = true) : (s.takeAtK p code imm off epc
    eaddr).canon = true :=
  setCore_canon _ _ (pmuCount_canon hs)

theorem State.takeAtM_canon {s : State} {p code : Nat} {imm off : Nat} {epc eaddr : Word64} (hs : s.canon = true) : (s.takeAtM p code imm off epc
    eaddr).canon = true :=
  setCore_canon _ _ (pmuCount_canon hs)

theorem State.trap_canon {s : State} {p code imm : Nat} {epc eaddr : Word64} (hs : s.canon = true) : (s.trap p code imm epc eaddr).canon = true := by
  unfold State.trap
  split
  · exact takeAtM_canon hs
  · exact takeAtK_canon hs
  · exact takeAtK_canon hs

theorem State.fault_canon {s : State} {p code : Nat} {eaddr : Word64} (hs : s.canon = true) : (s.fault p code eaddr).canon = true := trap_canon hs

theorem State.addrFault_canon {s : State} {p : Nat} {target : Word64} (hs : s.canon = true) : (s.addrFault p target).canon = true := trap_canon hs

theorem State.illegal_canon {s : State} {p word : Nat} (hs : s.canon = true) : (s.illegal p word).canon = true := fault_canon hs

theorem State.storeHit_canon {s : State} {p : Nat} {x : CacheLine} {a : Nat} {l : List Byte} (hs : s.canon = true) : (s.storeHit p x a l).canon =
    true :=
  setCore_canon _ _ (setBytes_canon _ _ hs)

theorem State.writeBack_canon {s : State} {p : Nat} {x : CacheLine} (hs : s.canon = true) : (s.writeBack p x).canon = true := by
  unfold State.writeBack
  split
  · exact hs
  · extract_lets bs cls
    split
    · split
      · split
        · exact cleanLine_canon hs
        · exact hs
      · exact errorWrite_canon (revertLine_canon _ hs)
    · exact errorWrite_canon (noteRefusal_canon (revertLine_canon _ hs))

theorem State.evict_canon {s : State} {p : Nat} {x : CacheLine} (hs : s.canon = true) : (s.evict p x).canon = true :=
  setCore_canon _ _ (writeBack_canon hs)

theorem State.makeRoom_canon {s : State} {p a : Nat} (hs : s.canon = true) : (s.makeRoom p a).canon = true := by
  unfold State.makeRoom
  extract_lets set
  split
  · exact hs
  · split
    rename_i x n s1 e
    have hx : s1.canon = true := canon_of_snd e (freeNat_canon hs)
    split
    · exact evict_canon hx
    · exact hx

theorem State.fillData_canon {s : State} {p : Nat} {w : World} {a : Nat} (hs : s.canon = true) : (s.fillData p w a).2.canon = true := by
  unfold State.fillData
  extract_lets s1
  have hs1 : s1.canon = true := by
    unfold s1
    split
    · exact evict_canon hs
    · exact hs
  split
  rename_i x d' ok s2 e
  have hx : s2.canon = true := canon_of_thd e (readMem_canon hs1)
  extract_lets s3 s4 c
  have hs3 : s3.canon = true := pmuCount_canon hx
  have hs4 : s4.canon = true := makeRoom_canon hs3
  exact canon_ite_snd hs3 (setCore_canon _ _ hs4)

theorem State.dropCaches_canon {s : State} {p : Nat} (hs : s.canon = true) : (s.dropCaches p).canon = true :=
  setCore_canon _ _ (canon_fold (canon_with hs) (fun _ _ h => revertLine_canon _ h))

theorem State.fetchAt_canon {s : State} {p : Nat} (hs : s.canon = true) : (s.fetchAt p).2.canon = true := by
  unfold State.fetchAt
  extract_lets c a w
  split
  · exact hs
  · split
    · split
      · exact hs
      · split
        rename_i x d' ok s1 e
        have hx : s1.canon = true := canon_of_thd e (readMem_canon hs)
        extract_lets s2 set
        have hs2 : s2.canon = true := pmuCount_canon hx
        split
        · exact hs2
        · split
          rename_i x1 n s3 e1
          have hx1 : s3.canon = true := canon_of_snd e1 (canon_ite_snd hs2 (freeNat_canon hs2))
          extract_lets c1 l l1
          exact setCore_canon _ _ hx1
    · exact hs

theorem State.startNormal_canon {s : State} {p entry : Nat} (hs : s.canon = true) : (s.startNormal p entry).canon = true :=
  setCore_canon _ _ (dropCaches_canon hs)

theorem State.startSecure_canon {s : State} {p entry : Nat} (hs : s.canon = true) : (s.startSecure p entry).canon = true :=
  setCore_canon _ _ (dropCaches_canon hs)

theorem State.release_canon {s : State} {p e : Nat} (hs : s.canon = true) : (s.release p e).canon = true :=
  canon_ite hs (canon_ite (startNormal_canon hs) (setCore_canon _ _ hs))

theorem State.nstart_canon {s : State} {val : Nat} (hs : s.canon = true) : (s.nstart val).canon = true := by
  unfold State.nstart
  extract_lets s1
  have hs1 : s1.canon = true := wr_canon _ _ hs
  refine canon_fold hs1 ?_
  intro s2 a1 h
  split
  · exact canon_ite (release_canon h) h
  · exact h

theorem execCcsNstartWrite_canon {who : Requester} {value : Word32} {s : State} (hs : s.canon = true) : OutcomeCanon (execCcsNstartWrite who value s)
    :=
  OutcomeCanon.next (gated_canon hs (fun _ h => nstart_canon h))

theorem State.nreset_canon {s : State} {val : Nat} (hs : s.canon = true) : (s.nreset val).canon = true := by
  unfold State.nreset
  extract_lets s1
  have hs1 : s1.canon = true := wr_canon _ _ hs
  refine canon_fold hs1 ?_
  intro s2 a1 h
  split
  · exact canon_ite (setEvt_canon (startNormal_canon h)) h
  · exact h

theorem execCcsNreset_canon {who : Requester} {complement : Word32} {s : State} (hs : s.canon = true) : OutcomeCanon (execCcsNreset who complement s)
    :=
  OutcomeCanon.next (writeGuarded_canon hs (fun _ _ h => nreset_canon h))

theorem State.loseQueue_canon {s : State} {p : Nat} (hs : s.canon = true) : (s.loseQueue p).canon = true :=
  canon_ite (canon_fold (wr_canon _ _ hs) (fun _ _ h => setEvt_canon (complete_canon h))) (canon_fold (canon_fold (wr_canon _ _ hs) (fun _ _ h =>
    setEvt_canon (complete_canon h))) (fun _ _ h => complete_canon h))

theorem State.fencePair_canon {s : State} {p : Nat} (hs : s.canon = true) : (s.fencePair p).canon = true :=
  canon_ite (loseQueue_canon (setEvt_canon (setCore_canon _ _ (dropCaches_canon hs)))) (setEvt_canon (setCore_canon _ _ (dropCaches_canon hs)))

theorem State.lockstepFail_canon {s : State} {p kind : Nat} (hs : s.canon = true) : (s.lockstepFail p kind).canon = true :=
  recapacity_canon (raiseAlarms_canon (fencePair_canon (wr_canon _ _ (canon_ite (satAdd_canon _ _ hs) (wr_canon _ _ (wr_canon _ _ (wr_canon _ _
    (wr_canon _ _ hs))))))))

theorem State.wakeDomain_canon {s : State} {p : Nat} (hs : s.canon = true) : (s.wakeDomain p).canon = true := canon_ite (wr_canon _ _ hs) hs

theorem execWfiWake_canon {pair : Fin 4} {s : State} (hs : s.canon = true) : OutcomeCanon (execWfiWake pair s) := by
  unfold execWfiWake
  extract_lets p x
  split
  · exact OutcomeCanon.next (setCore_canon _ _ (wakeDomain_canon hs))
  · exact noEvent_canon hs

theorem State.takeExternal_canon {s : State} {p : Nat} (hs : s.canon = true) : (s.takeExternal p).canon = true := takeAtK_canon (wakeDomain_canon hs)

theorem State.takeTimer_canon {s : State} {p : Nat} (hs : s.canon = true) : (s.takeTimer p).canon = true := takeAtK_canon (wakeDomain_canon hs)

theorem execExternalInterrupt_canon {pair : Fin 4} {s : State} (hs : s.canon = true) : OutcomeCanon (execExternalInterrupt pair s) := by
  unfold execExternalInterrupt
  extract_lets p
  split
  · exact OutcomeCanon.next (takeExternal_canon hs)
  · exact noEvent_canon hs

theorem execTimerInterrupt_canon {pair : Fin 4} {s : State} (hs : s.canon = true) : OutcomeCanon (execTimerInterrupt pair s) := by
  unfold execTimerInterrupt
  extract_lets p
  split
  · exact OutcomeCanon.next (takeTimer_canon hs)
  · exact noEvent_canon hs

theorem State.takeStoreErr_canon {s : State} {p : Nat} (hs : s.canon = true) : (s.takeStoreErr p).canon = true := by
  unfold State.takeStoreErr
  extract_lets c
  split
  · exact hs
  · exact canon_ite (takeAtM_canon (setCore_canon _ _ hs)) (takeAtK_canon (setCore_canon _ _ hs))

theorem execStoreErrorResponse_canon {pair : Fin 4} {s : State} (hs : s.canon = true) : OutcomeCanon (execStoreErrorResponse pair s) := by
  unfold execStoreErrorResponse
  extract_lets p c
  split
  · exact noEvent_canon hs
  · exact OutcomeCanon.next (takeStoreErr_canon hs)

theorem State.boundaryTakes_canon {s : State} {p : Nat} (hs : s.canon = true) : ∀ t ∈ s.boundaryTakes p, t.canon = true := by
  unfold State.boundaryTakes
  split
  · exact forall_mem_some (takeStoreErr_canon hs)
  · split
    · exact forall_mem_some (takeExternal_canon hs)
    · split
      · exact forall_mem_some (takeTimer_canon hs)
      · exact forall_mem_none

theorem State.boundary_canon {s : State} {p : Nat} (hs : s.canon = true) : (s.boundary p).canon = true :=
  canon_ite (setCore_canon _ _ hs) (canon_ite (setCore_canon _ _ hs) hs)

theorem execDebugHaltRequest_canon {pair : Fin 4} {s : State} (hs : s.canon = true) : OutcomeCanon (execDebugHaltRequest pair s) := by
  unfold execDebugHaltRequest
  extract_lets p c
  split
  · exact noEvent_canon hs
  · split
    · exact OutcomeCanon.next hs
    · exact OutcomeCanon.next (boundary_canon (setCore_canon _ _ hs))

theorem execDebugStep_canon {pair : Fin 4} {s : State} (hs : s.canon = true) : OutcomeCanon (execDebugStep pair s) := by
  unfold execDebugStep
  extract_lets p c
  split
  · exact OutcomeCanon.next (setCore_canon _ _ hs)
  · exact noEvent_canon hs

theorem execDebugEnableLeave_canon {pair : Fin 4} {s : State} (hs : s.canon = true) : OutcomeCanon (execDebugEnableLeave pair s) := by
  unfold execDebugEnableLeave
  extract_lets p c
  split
  · split
    · exact noEvent_canon hs
    · exact OutcomeCanon.next (setCore_canon _ _ hs)
  · exact noEvent_canon hs

/-! Sys2Proof/Machine/Tamper.lean -/

theorem State.backupRaise_canon {s : State} {src : Nat} (hs : s.canon = true) : (s.backupRaise src).canon = true :=
  canon_ite (wr_canon _ _ (canon_ite hs (wr_canon _ _ (wr_canon _ _ hs)))) (canon_with (wr_canon _ _ (canon_ite hs (wr_canon _ _ (wr_canon _ _ hs)))))

theorem State.condition_canon {s : State} {src : Nat} (hs : s.canon = true) : (s.condition src).canon = true :=
  canon_ite hs (canon_ite (raiseAlarms_canon (wr_canon _ _ hs)) (canon_ite (backupRaise_canon (wr_canon _ _ hs)) (wr_canon _ _ hs)))

theorem State.testBallHigh_canon {s : State} (hs : s.canon = true) : s.testBallHigh.canon = true :=
  canon_ite (canon_with hs) (condition_canon (canon_with hs))

theorem execAlarmRaise_canon {source : Nat} {s : State} (hs : s.canon = true) : OutcomeCanon (execAlarmRaise source s) := by
  unfold execAlarmRaise
  split
  · exact OutcomeCanon.next (testBallHigh_canon hs)
  · split
    · exact noEvent_canon hs
    · split
      · exact OutcomeCanon.next (raiseAlarms_canon hs)
      · exact OutcomeCanon.next (condition_canon hs)

theorem execAlarmConditionEnd_canon {source : Nat} {s : State} (hs : s.canon = true) : OutcomeCanon (execAlarmConditionEnd source s) := by
  unfold execAlarmConditionEnd
  extract_lets x s1 s2 x1
  have hs1 : s1.canon = true := canon_ite (canon_with hs) hs
  have hs2 : s2.canon = true := endCond_canon hs1
  split
  · exact OutcomeCanon.next (canon_ite (canon_with hs2) hs2)
  · exact noEvent_canon hs1

theorem execZeroizationDone_canon {s : State} (hs : s.canon = true) : OutcomeCanon (execZeroizationDone s) := by
  unfold execZeroizationDone
  split
  · exact OutcomeCanon.next (canon_with hs)
  · exact noEvent_canon hs

theorem execKillWordProgrammed_canon {s : State} (hs : s.canon = true) : OutcomeCanon (execKillWordProgrammed s) := by
  unfold execKillWordProgrammed
  split
  · exact OutcomeCanon.next (canon_with (wr_canon _ _ (wr_canon _ _ hs)))
  · exact noEvent_canon hs

theorem State.loopSample_canon {s : State} {n : Nat} {level : Bool} (hs : s.canon = true) : (s.loopSample n level).canon = true :=
  canon_with (canon_ite hs (canon_ite (endCond_canon hs) (condition_canon hs)))

theorem execTamperLoopSample_canon {loop : Fin 4} {level : Bool} {s : State} (hs : s.canon = true) : OutcomeCanon (execTamperLoopSample loop level s)
    :=
  OutcomeCanon.next (loopSample_canon hs)

theorem execXtalStop_canon {s : State} (hs : s.canon = true) : OutcomeCanon (execXtalStop s) :=
  OutcomeCanon.next (canon_ite (raiseAlarms_canon (wr_canon _ _ (wr_canon _ _ hs))) (canon_fold (wr_canon _ _ (wr_canon _ _ hs)) (fun _ _ h =>
    backupRaise_canon h)))

theorem execBackupDomainReset_canon {s : State} (hs : s.canon = true) : OutcomeCanon (execBackupDomainReset s) := by
  unfold execBackupDomainReset
  split
  · exact noEvent_canon hs
  · exact OutcomeCanon.next (canon_with (clearRegs_canon _ _ hs))

theorem execOperatingHourTick_canon {s : State} (hs : s.canon = true) : OutcomeCanon (execOperatingHourTick s) := by
  unfold execOperatingHourTick
  split
  · exact OutcomeCanon.next (canon_with (satAdd_canon _ _ hs))
  · exact noEvent_canon hs

theorem State.clearFlag_canon {s : State} {i : Nat} (hs : s.canon = true) : (s.clearFlag i).canon = true :=
  wr_canon _ _ (wr_canon _ _ (wr_canon _ _ hs))

theorem State.flagClr_canon {s : State} {val : Nat} (hs : s.canon = true) : (s.flagClr val).canon = true :=
  canon_ite hs (decideRecord_canon (wr_canon _ _ (canon_fold hs (fun _ _ h => clearFlag_canon h))))

theorem execTmpFlagClr_canon {who : Requester} {complement : Word32} {s : State} (hs : s.canon = true) : OutcomeCanon (execTmpFlagClr who complement
    s) :=
  OutcomeCanon.next (writeGuarded_canon hs (fun _ _ h => flagClr_canon h))

theorem State.resume_canon {s : State} {val : Nat} (hs : s.canon = true) : (s.resume val).canon = true :=
  canon_ite hs (canon_ite (wr_canon _ _ hs) (refreshSuspended_canon (setStatus_canon (canon_with (wr_canon _ _ hs)))))

theorem execTmpResume_canon {who : Requester} {complement : Word32} {s : State} (hs : s.canon = true) : OutcomeCanon (execTmpResume who complement s)
    :=
  OutcomeCanon.next (writeGuarded_canon hs (fun _ _ h => resume_canon h))

theorem execDebugIntrusionLevel_canon {s : State} (hs : s.canon = true) : OutcomeCanon (execDebugIntrusionLevel s) :=
  OutcomeCanon.next (testBallHigh_canon hs)

/-! Sys2Proof/Machine/LifeCycle.lean -/

theorem State.readOtp_canon {s : State} (hs : s.canon = true) : s.readOtp.canon = true :=
  wr_canon _ _ (wr_canon _ _ (wr_canon _ _ (wr_canon _ _ (wr_canon _ _ hs))))

theorem State.clearToken_canon {s : State} (hs : s.canon = true) : s.clearToken.canon = true := canon_fold hs (fun _ _ h => wr_canon _ _ h)

theorem State.lcRefuse_canon {s : State} {tap : Bool} {target r : Nat} (hs : s.canon = true) : (s.lcRefuse tap target r).canon = true :=
  canon_ite (decideRecord_canon (setEvt_canon (satAdd_canon _ _ (clearToken_canon (setEvt_canon (wr_canon _ _ hs)))))) (clearToken_canon
    (setEvt_canon (wr_canon _ _ hs)))

theorem State.resumeHalted_canon {s : State} {p : Nat} (hs : s.canon = true) : (s.resumeHalted p).canon = true := canon_ite (setCore_canon _ _ hs) hs

theorem State.lcStart_canon {s : State} {tap : Bool} {target : Nat} (hs : s.canon = true) : (s.lcStart tap target).canon = true := by
  unfold State.lcStart
  extract_lets s1 s2 x x1 s3 s4 x2 x3
  have hs1 : s1.canon = true := wr_canon _ _ hs
  have hs2 : s2.canon = true := canon_fold hs1 (fun _ _ h => resumeHalted_canon h)
  have hs3 : s3.canon = true := canon_with hs2
  have hs4 : s4.canon = true := execCode_canon hs3
  exact canon_ite (canon_with hs4) (canon_ite (execCode_canon hs3) hs3)

theorem State.lcRequest_canon {s : State} {tap : Bool} {target : Nat} {token : List Byte} (hs : s.canon = true) : (s.lcRequest tap target
    token).canon = true :=
  canon_ite (lcStart_canon (wr_canon _ _ hs)) (lcRefuse_canon (wr_canon _ _ hs))

theorem State.lcTarget_canon {s : State} {v : Nat} (hs : s.canon = true) : (s.lcTarget v).canon = true := lcRequest_canon (wr_canon _ _ hs)

theorem execLcTargetWrite_canon {who : Requester} {complement : Word32} {s : State} (hs : s.canon = true) : OutcomeCanon (execLcTargetWrite who
    complement s) :=
  OutcomeCanon.next (writeGuarded_canon hs (fun _ _ h => lcTarget_canon h))

theorem State.lcEnd_canon {s : State} {target : Nat} {fail : Option (Nat × BitVec 64)} (hs : s.canon = true) : (s.lcEnd target fail).canon = true :=
    by
  unfold State.lcEnd
  extract_lets s1 s2 s3 x s4
  have hs1 : s1.canon = true := canon_with hs
  have hs2 : s2.canon = true := wr_canon _ _ (clearToken_canon hs1)
  have hs3 : s3.canon = true := wr_canon _ _ hs2
  have hs4 : s4.canon = true := canon_with hs3
  split
  · rename_i fail
    exact setEvt_canon (wr_canon _ _ hs4)
  · rename_i fail val
    exact wr_canon _ _ hs4

theorem execLcRepair_canon {word : Nat} {failed : Bool} {s : State} (hs : s.canon = true) : OutcomeCanon (execLcRepair word failed s) := by
  unfold execLcRepair
  extract_lets w x s1
  have hs1 : s1.canon = true := canon_with hs
  split
  · split
    · split
      rename_i x1 n s2 e
      have hx : s2.canon = true := canon_of_snd e (freeNat_canon hs)
      exact OutcomeCanon.next (setEvt_canon (canon_with hx))
    · exact OutcomeCanon.next (setEvt_canon hs1)
  · exact noEvent_canon hs

theorem State.lcCut_canon {s : State} (hs : s.canon = true) : s.lcCut.canon = true := by
  unfold State.lcCut
  split
  · exact hs
  · split
    rename_i x n s1 e
    have hx : s1.canon = true := canon_of_snd e (freeNat_canon hs)
    split
    rename_i x1 n1 s2 e1
    have hx1 : s2.canon = true := canon_of_snd e1 (freeNat_canon hx)
    exact canon_with hx1

theorem State.atTap_canon {s : State} {f : State → State} (hs : s.canon = true) (hf : ∀ t : State, t.canon = true → (f t).canon = true) :
    OutcomeCanon (s.atTap f) := by
  unfold State.atTap
  split
  · exact OutcomeCanon.next (hf _ hs)
  · exact noEvent_canon hs

theorem State.tapSelect_canon {s : State} {ir : Nat} (hs : s.canon = true) : (s.tapSelect ir).canon = true := canon_with hs

theorem execLcReq_canon {dr : BitVec 136} {s : State} (hs : s.canon = true) : OutcomeCanon (execLcReq dr s) :=
  atTap_canon hs (fun _ h => lcRequest_canon (tapSelect_canon h))

theorem execTapReset_canon {s : State} (hs : s.canon = true) : OutcomeCanon (execTapReset s) := by
  unfold execTapReset
  split
  rename_i x n s1 e
  have hx : s1.canon = true := canon_of_snd e (freeNat_canon hs)
  exact OutcomeCanon.next (tapSelect_canon (canon_with hx))

theorem execExtest_canon {dr : Nat} {s : State} (hs : s.canon = true) : OutcomeCanon (execExtest dr s) :=
  atTap_canon hs (fun _ h => canon_with (tapSelect_canon h))

theorem execSamplePreload_canon {dr : Nat} {s : State} (hs : s.canon = true) : OutcomeCanon (execSamplePreload dr s) := by
  unfold execSamplePreload
  refine atTap_canon hs ?_
  intro t1 h
  split
  rename_i x n s1 e
  have hx : s1.canon = true := canon_of_snd e (freeNat_canon (tapSelect_canon h))
  exact emit_canon _ (canon_with hx)

theorem execIdcode_canon {s : State} (hs : s.canon = true) : OutcomeCanon (execIdcode s) :=
  atTap_canon hs (fun _ h => emit_canon _ (tapSelect_canon h))

theorem execLcStatus_canon {s : State} (hs : s.canon = true) : OutcomeCanon (execLcStatus s) :=
  atTap_canon hs (fun _ h => emit_canon _ (tapSelect_canon h))

theorem execDbgAccess_canon {s : State} (hs : s.canon = true) : OutcomeCanon (execDbgAccess s) := atTap_canon hs (fun _ h => tapSelect_canon h)

theorem execTestMode_canon {dr : Nat} {s : State} (hs : s.canon = true) : OutcomeCanon (execTestMode dr s) :=
  atTap_canon hs (fun _ h => canon_ite (canon_with (tapSelect_canon h)) (decideRecord_canon (emit_canon _ (tapSelect_canon h))))

theorem execBypass_canon {_dr : Nat} {s : State} (hs : s.canon = true) : OutcomeCanon (execBypass _dr s) :=
  atTap_canon hs (fun _ h => emit_canon _ (tapSelect_canon h))

/-! Sys2Proof/Machine/Image.lean -/

theorem State.loadEntries_canon {s : State} {p : List Byte} (hs : s.canon = true) : (s.loadEntries p).canon = true :=
  canon_fold hs (fun _ _ h => wr_canon _ _ (wr_canon _ _ (wr_canon _ _ (wr_canon _ _ (wr_canon _ _ (wr_canon _ _ (wr_canon _ _ h)))))))

theorem State.codeRegion_canon {s : State} {base last en : Fld} {p : List Byte} {restricted : Bool} (hs : s.canon = true) : (s.codeRegion base last
    en p restricted).canon = true :=
  wr_canon _ _ (wr_canon _ _ (wr_canon _ _ hs))

theorem State.latchTamper_canon {s : State} {p : List Byte} (hs : s.canon = true) : (s.latchTamper p).canon = true :=
  wr_canon _ _ (wr_canon _ _ (wr_canon _ _ (wr_canon _ _ (wr_canon _ _ hs))))

theorem State.applyImage_canon {s : State} {b : List Byte} (hs : s.canon = true) : (s.applyImage b).canon = true := by
  unfold State.applyImage
  extract_lets s1 s2 s3 s4 s5 s6 s7 s8 s9 s10 s11 x s12 s13
  have hs1 : s1.canon = true := canon_with hs
  have hs2 : s2.canon = true := by
    unfold s2
    split
    · exact codeRegion_canon (loadFw_canon _ hs1)
    · exact hs1
  have hs3 : s3.canon = true := by
    unfold s3
    split
    · exact codeRegion_canon (loadFw_canon _ hs2)
    · exact hs2
  have hs4 : s4.canon = true := by
    unfold s4
    split
    · exact canon_fold hs3 (fun _ _ h => wr_canon _ _ h)
    · exact hs3
  have hs5 : s5.canon = true := by
    unfold s5
    split
    · exact loadEntries_canon hs4
    · exact hs4
  have hs6 : s6.canon = true := wr_canon _ _ (wr_canon _ _ hs5)
  have hs7 : s7.canon = true := latchTamper_canon hs6
  have hs8 : s8.canon = true := canon_fold hs7 (fun _ _ h => wr_canon _ _ h)
  have hs9 : s9.canon = true := canon_ite (startAvs_canon hs8) (wr_canon _ _ hs8)
  have hs10 : s10.canon = true := wr_canon _ _ (wr_canon _ _ hs9)
  have hs11 : s11.canon = true := wr_canon _ _ (wr_canon _ _ hs10)
  have hs12 : s12.canon = true := canon_with hs11
  have hs13 : s13.canon = true := canon_with hs12
  exact canon_ite (trainChannel_canon hs13) (canon_fold hs13 (fun _ _ h => wr_canon _ _ h))

/-! Sys2Proof/Machine/Roles.lean -/

theorem State.captureFault_canon {s : State} {p : Pool} {u : Nat} {inService : Bool} {f : UnitFault} (hs : s.canon = true) : (s.captureFault p u
    inService f).canon = true := by
  unfold State.captureFault
  split
  · exact hs
  · split
    extract_lets s1
    have hs1 : s1.canon = true := wr_canon _ _ (wr_canon _ _ (wr_canon _ _ (wr_canon _ _ hs)))
    split
    · rename_i p e e1
      exact wr_canon _ _ hs1
    · rename_i p e e1
      exact wr_canon _ _ hs1
    · exact hs1

theorem State.forgetOwner_canon {s : State} {p : Pool} {u : Nat} (hs : s.canon = true) : (s.forgetOwner p u).canon = true := by
  unfold State.forgetOwner
  split
  · exact canon_fold hs (fun _ _ h => wr_canon _ _ h)
  · exact wr_canon _ _ hs

theorem State.markFenced_canon {s : State} {p : Pool} {u : Nat} {inService : Bool} {f : UnitFault} (hs : s.canon = true) : (s.markFenced p u
    inService f).canon = true := by
  unfold State.markFenced
  extract_lets s1 s2 s3 x s4
  have hs1 : s1.canon = true := forgetOwner_canon (endResidency_canon (captureFault_canon hs))
  have hs2 : s2.canon = true := canon_ite (unhold_canon hs1) hs1
  have hs3 : s3.canon = true := wr_canon _ _ (wr_canon _ _ (wr_canon _ _ hs2))
  have hs4 : s4.canon = true := canon_with hs3
  exact setEvt_canon (setEvt_canon hs4)

theorem State.selectNext_canon {s : State} {p : Pool} (hs : s.canon = true) : (s.selectNext p).canon = true := by
  unfold State.selectNext
  extract_lets prev
  split
  · exact wr_canon _ _ hs
  · exact hs

theorem State.reassign_canon {s : State} {p : Pool} {wasTesting wasSpare wasServing : Bool} (hs : s.canon = true) : (s.reassign p wasTesting wasSpare
    wasServing).canon = true := by
  unfold State.reassign
  extract_lets spare s1 x
  have hs1 : s1.canon = true := wr_canon _ _ (wr_canon _ _ hs)
  split
  · exact canon_ite (setEvt_canon (wr_canon _ _ (wr_canon _ _ (wr_canon _ _ (wr_canon _ _ hs))))) (canon_ite (wr_canon _ _ (wr_canon _ _ (wr_canon _
    _ (wr_canon _ _ hs)))) (wr_canon _ _ (wr_canon _ _ hs)))
  · exact canon_ite (setEvt_canon hs) (canon_ite (canon_with hs1) (canon_ite (selectNext_canon hs) hs))

theorem State.fenceUnit_canon {s : State} {p : Pool} {u : Nat} {inService : Bool} {f : UnitFault} (hs : s.canon = true) : (s.fenceUnit p u inService
    f).canon = true :=
  recapacity_canon (reassign_canon (canon_ite (wr_canon _ _ (canon_ite (wr_canon _ _ (markFenced_canon hs)) (markFenced_canon hs))) (canon_ite
    (wr_canon _ _ (markFenced_canon hs)) (markFenced_canon hs))))

theorem State.failAtStart_canon {s : State} {p : Pool} {u : Nat} {f : TestFail} (hs : s.canon = true) : (s.failAtStart p u f).canon = true :=
  markFenced_canon hs

theorem State.serveUnit_canon {s : State} {p : Pool} {u : Nat} (hs : s.canon = true) : (s.serveUnit p u).canon = true :=
  canon_ite hs (wr_canon _ _ hs)

theorem State.assignRoles_canon {s : State} {p : Pool} (hs : s.canon = true) : (s.assignRoles p).canon = true := by
  unfold State.assignRoles
  split
  · exact hs
  · exact wr_canon _ _ (serveUnit_canon hs)
  · extract_lets s1 x s2 s3
    have hs1 : s1.canon = true := wr_canon _ _ (canon_ite hs (wr_canon _ _ hs))
    have hs2 : s2.canon = true := canon_with hs1
    have hs3 : s3.canon = true := canon_fold hs2 (fun _ _ h => serveUnit_canon h)
    split
    · rename_i p e
      split
      · exact wr_canon _ _ (wr_canon _ _ hs3)
      · exact hs3
    · exact canon_fold hs2 (fun _ _ h => serveUnit_canon h)

/-! Sys2Proof/Machine/Place.lean -/

theorem State.drawNonce_canon {s : State} (hs : s.canon = true) : s.drawNonce.2.canon = true := by
  unfold State.drawNonce
  split
  rename_i x b s1 e
  exact canon_of_snd e (draw_canon hs)

theorem State.clockNonce_canon {s : State} (hs : s.canon = true) : s.clockNonce.2.canon = true := by
  unfold State.clockNonce
  extract_lets t n x
  exact canon_with hs

theorem State.putObject_canon {s : State} {a : Attr} {stored nonce : List Byte} {counted : Option Fn} (hs : s.canon = true) : (s.putObject a stored
    nonce counted).2.canon = true := by
  unfold State.putObject
  extract_lets key head cells o
  split
  · rename_i x s1 e
    exact canon_of_snd e (writeCells_canon hs)
  · rename_i x s1 e
    have hx : s1.canon = true := canon_of_snd e (writeCells_canon hs)
    extract_lets s2
    have hs2 : s2.canon = true := by
      unfold s2
      split
      · rename_i f p n
        exact wr_canon _ _ hx
      · exact hx
    exact useGen_canon (setKey_canon hs2)

theorem State.putSlot_canon {s : State} {p : Nat} {a : Attr} {stored : List Byte} {counted : Option Fn} {share : List Byte} (hs : s.canon = true) :
    (s.putSlot p a stored counted share).canon = true := by
  unfold State.putSlot
  extract_lets s1 s2
  have hs1 : s1.canon = true := fillSlot_canon hs
  have hs2 : s2.canon = true := by
    unfold s2
    split
    · rename_i f p1 n
      exact wr_canon _ _ hs1
    · exact hs1
  exact useGen_canon (setKey_canon hs2)

theorem State.placeAt_canon {s : State} {a : Attr} {stored : List Byte} {slot : Bool} {counted : Option Fn} {share : List Byte} (hs : s.canon = true)
    : (s.placeAt a stored slot counted share).2.canon = true := by
  unfold State.placeAt
  split
  · split
    · rename_i x p s1 e
      have hx : s1.canon = true := canon_of_snd e (pickSlot_canon hs)
      exact putSlot_canon hx
    · rename_i x snd e
      have hx : snd.canon = true := canon_of_snd e (pickSlot_canon hs)
      exact hs
  · split
    · exact hs
    · split
      · split
        rename_i x b s1 e
        have hx : s1.canon = true := canon_of_snd e (canon_ite_snd (clockNonce_canon hs) (drawNonce_canon hs))
        exact putObject_canon hx
      · exact hs

theorem State.unplace_canon {s : State} {a : Attr} {counted : Option Fn} {lastGen : Tbl Nat} (hs : s.canon = true) : (s.unplace a counted
    lastGen).canon = true :=
  canon_with (destroyKey_canon hs)

theorem State.destroyOwner_canon {s : State} {o : Nat} {by' : Option Fn} (hs : s.canon = true) : (s.destroyOwner o by').canon = true := by
  unfold State.destroyOwner
  split
  · exact hs
  · extract_lets s1 s2 x s3
    have hs1 : s1.canon = true := canon_fold hs (fun _ _ h => destroyKey_canon h)
    have hs2 : s2.canon = true := by
      unfold s2
      split
      · exact clearSlot_canon hs1
      · exact hs1
    have hs3 : s3.canon = true := canon_with hs2
    exact refreshSuspended_canon (setEvt_canon (cancelApprovals_canon (setOwner_canon hs3)))

theorem State.loadOwner_canon {s : State} {o : Nat} {d : OwnerDef} (hs : s.canon = true) : ∀ t ∈ s.loadOwner o d, t.canon = true := by
  unfold State.loadOwner
  split
  · rename_i x snd e
    have hx : snd.canon = true := canon_of_snd e (pickSlot_canon hs)
    exact forall_mem_none
  · rename_i x p s1 e
    have hx : s1.canon = true := canon_of_snd e (pickSlot_canon hs)
    exact forall_mem_some (refreshSuspended_canon (setEvt_canon (setOwner_canon (fillSlot_canon hx))))

theorem State.redefineOwner_canon {s : State} {o : Nat} {d : OwnerDef} (hs : s.canon = true) : (s.redefineOwner o d).canon = true := by
  unfold State.redefineOwner
  split
  · exact hs
  · exact refreshSuspended_canon (setEvt_canon (cancelApprovals_canon (setOwner_canon hs)))

theorem State.destroyAll_canon {s : State} (hs : s.canon = true) : s.destroyAll.canon = true := canon_fold hs (fun _ _ h => destroyOwner_canon h)

/-! Sys2Proof/Machine/Twin.lean -/

theorem State.pairEnd_canon {s : State} {r : Nat} (hs : s.canon = true) : (s.pairEnd r).canon = true :=
  canon_ite (setEvt_canon (canon_with (wr_canon _ _ (wr_canon _ _ hs)))) (canon_with (wr_canon _ _ (wr_canon _ _ hs)))

theorem State.closeSession_canon {s : State} (hs : s.canon = true) : s.closeSession.canon = true := peerGone_canon (setEvt_canon hs)

theorem State.closeWith_canon {s : State} {reason : Option Nat} (hs : s.canon = true) : (s.closeWith reason).canon = true :=
  closeSession_canon (sendClose_canon hs)

theorem State.twinAuthFail_canon {s : State} (hs : s.canon = true) : s.twinAuthFail.canon = true :=
  closeWith_canon (canon_ite (pairEnd_canon (raiseAlarms_canon hs)) (raiseAlarms_canon hs))

theorem State.retrain_canon {s : State} (hs : s.canon = true) : s.retrain.canon = true := canon_with (satAdd_canon _ _ hs)

theorem State.replay_canon {s : State} (hs : s.canon = true) : s.replay.canon = true :=
  canon_ite (canon_fold (canon_with (satAdd_canon _ _ hs)) (fun _ _ h => emit_canon _ h)) (retrain_canon hs)

theorem State.takeAck_canon {s : State} {h : FrameHdr} (hs : s.canon = true) : (s.takeAck h).canon = true :=
  canon_ite (replay_canon (canon_with hs)) (canon_with hs)

theorem State.recvFrame_canon {s : State} {h : FrameHdr} {tagged : Bool} {f : State → State} (hs : s.canon = true) (hf : ∀ t : State, t.canon = true
    → (f t).canon = true) : OutcomeCanon (s.recvFrame h tagged f) := by
  unfold State.recvFrame
  split
  · exact noEvent_canon hs
  · split
    · exact OutcomeCanon.next (canon_with hs)
    · split
      · exact OutcomeCanon.next (twinAuthFail_canon hs)
      · extract_lets s1 x
        have hs1 : s1.canon = true := takeAck_canon hs
        split
        · exact OutcomeCanon.next (hf _ (canon_with hs1))
        · split
          · exact OutcomeCanon.next (twinAuthFail_canon hs1)
          · exact OutcomeCanon.next (canon_with hs1)

theorem State.sendNoted_canon {s : State} {type : Nat} {bytes : List Byte} {p : TwinPayload} (hs : s.canon = true) : (s.sendNoted type bytes p).canon
    = true :=
  sendFrame_canon (canon_with hs)

theorem State.noteGot_canon {s : State} {type : Nat} {h : FrameHdr} {bytes : List Byte} (hs : s.canon = true) : (s.noteGot type h bytes).canon = true
    :=
  canon_with hs

theorem State.linkTrained_canon {s : State} {speed width : Nat} (hs : s.canon = true) : (s.linkTrained speed width).canon = true :=
  sendNoted_canon (canon_ite (wr_canon _ _ (wr_canon _ _ (wr_canon _ _ (canon_with (canon_ite (peerGone_canon hs) hs))))) (wr_canon _ _ (wr_canon _ _
    (canon_with (canon_ite (peerGone_canon hs) hs)))))

theorem execTwinLinkTrained_canon {speed width : Nat} {s : State} (hs : s.canon = true) : OutcomeCanon (execTwinLinkTrained speed width s) := by
  unfold execTwinLinkTrained
  split
  · exact OutcomeCanon.next (linkTrained_canon hs)
  · exact noEvent_canon hs

theorem execTwinRetrainTimer_canon {trained : Bool} {s : State} (hs : s.canon = true) : OutcomeCanon (execTwinRetrainTimer trained s) := by
  unfold execTwinRetrainTimer
  extract_lets st s1 x
  have hs1 : s1.canon = true := satAdd_canon _ _ hs
  split
  · exact OutcomeCanon.next (canon_with hs1)
  · exact noEvent_canon hs

theorem execTwinLinkDown_canon {s : State} (hs : s.canon = true) : OutcomeCanon (execTwinLinkDown s) := by
  unfold execTwinLinkDown
  split
  · exact OutcomeCanon.next (twinDown_canon hs)
  · exact noEvent_canon hs

theorem State.sendKem_canon {s : State} (hs : s.canon = true) : s.sendKem.canon = true := by
  unfold State.sendKem
  split
  rename_i x b s1 e
  have hx : s1.canon = true := canon_of_snd e (draw_canon hs)
  exact sendNoted_canon (canon_with hx)

theorem State.gotHello_canon {s : State} {h : FrameHdr} {minMajor minMinor : Nat} {maxMajor maxMinor serial : Nat} (hs : s.canon = true) :
    (s.gotHello h minMajor minMinor maxMajor maxMinor serial).canon = true := by
  unfold State.gotHello
  extract_lets s1 x s2 s3
  have hs1 : s1.canon = true := noteGot_canon hs
  have hs2 : s2.canon = true := canon_with hs1
  have hs3 : s3.canon = true := pairEnd_canon hs2
  split
  · exact canon_ite (wr_canon _ _ hs3) hs3
  · exact canon_ite (closeWith_canon (wr_canon _ _ (wr_canon _ _ hs2))) (canon_ite (sendKem_canon (wr_canon _ _ (wr_canon _ _ hs2))) (wr_canon _ _
    (wr_canon _ _ hs2)))

theorem execSoadeHello_canon {hdr : FrameHdr} {minMajor minMinor : Nat} {maxMajor maxMinor serial : Nat} {s : State} (hs : s.canon = true) :
    OutcomeCanon (execSoadeHello hdr minMajor minMinor maxMajor maxMinor serial s) :=
  recvFrame_canon hs (fun _ h => gotHello_canon h)

theorem State.sendThree_canon {s : State} {b : List Byte} (hs : s.canon = true) : (s.sendThree b).canon = true :=
  sendFrame_canon (sendFrame_canon (sendFrame_canon hs))

theorem State.sendAuth_canon {s : State} (hs : s.canon = true) : s.sendAuth.canon = true := by
  unfold State.sendAuth
  split
  · split
    rename_i x b s1 e
    have hx : s1.canon = true := canon_of_snd e (draw_canon hs)
    split
    rename_i x1 b1 s2 e1
    have hx1 : s2.canon = true := canon_of_snd e1 (draw_canon hx)
    exact sendThree_canon hx1
  · exact closeWith_canon (canon_ite (pairEnd_canon hs) hs)

theorem State.deriveSession_canon {s : State} {shared : List Byte} (hs : s.canon = true) : (s.deriveSession shared).canon = true :=
  canon_ite (closeWith_canon (canon_ite (pairEnd_canon hs) hs)) (sendAuth_canon (canon_with (fillDevice_canon (fillDevice_canon (fillDevice_canon
    hs)))))

theorem State.gotKem_canon {s : State} {h : FrameHdr} {x25519 kem : List Byte} (hs : s.canon = true) : (s.gotKem h x25519 kem).canon = true := by
  unfold State.gotKem
  extract_lets s1
  have hs1 : s1.canon = true := noteGot_canon hs
  split
  · exact deriveSession_canon hs1
  · split
    rename_i x b s2 e
    have hx : s2.canon = true := canon_of_snd e (draw_canon hs1)
    exact deriveSession_canon (sendNoted_canon (canon_with hx))

theorem execPairKem_canon {hdr : FrameHdr} {x25519 kem : List Byte} {s : State} (hs : s.canon = true) : OutcomeCanon (execPairKem hdr x25519 kem s)
    := by
  unfold execPairKem
  split
  · exact noEvent_canon hs
  · exact recvFrame_canon hs (fun _ h => gotKem_canon h)

theorem putBlob_canon {l : List Byte} {n : Nat} {s : State} (hs : s.canon = true) : (putBlob l n s).canon = true := by
  induction n generalizing l s with
  | zero =>
    unfold putBlob
    exact hs
  | succ n ih =>
    unfold putBlob
    exact wr_canon _ _ (ih hs)

theorem State.writeBlob_canon {s : State} {peer pairId : Nat} {hash : List Byte} (hs : s.canon = true) : (s.writeBlob peer pairId hash).canon = true
    := by
  unfold State.writeBlob
  split
  rename_i x b s1 e
  have hx : s1.canon = true := canon_of_snd e (draw_canon hs)
  exact setEvt_canon (putBlob_canon hx)

theorem State.sendResync_canon {s : State} {journalMode : Bool} (hs : s.canon = true) : (s.sendResync journalMode).canon = true :=
  canon_with (sendFrame_canon (sendFrame_canon (wr_canon _ _ hs)))

theorem State.startResync_canon {s : State} {first : Bool} (hs : s.canon = true) : (s.startResync first).canon = true :=
  sendResync_canon (wr_canon _ _ hs)

theorem State.paired_canon {s : State} {hash : List Byte} (hs : s.canon = true) : (s.paired hash).canon = true := by
  unfold State.paired
  extract_lets serial first
  split
  rename_i x b s1 e
  have hx : s1.canon = true := canon_of_snd e (canon_ite_snd (draw_canon hs) (free_canon hs))
  exact startResync_canon (canon_ite (destroyAll_canon (setEvt_canon (canon_with (pairEnd_canon (canon_ite (writeBlob_canon hx) hx))))) (setEvt_canon
    (canon_with (pairEnd_canon (canon_ite (writeBlob_canon hx) hx)))))

theorem State.gotAuth_canon {s : State} {idMldsa idP384 : List Byte} {sigMldsa sigP384 : List Byte} (hs : s.canon = true) : (s.gotAuth idMldsa idP384
    sigMldsa sigP384).canon = true := by
  unfold State.gotAuth
  extract_lets hash x s1
  have hs1 : s1.canon = true := canon_with hs
  split
  · exact closeWith_canon (pairEnd_canon hs1)
  · split
    · exact twinAuthFail_canon hs1
    · split
      · split
        rename_i x1 n s2 e
        have hx : s2.canon = true := canon_of_snd e (freeNat_canon hs1)
        exact canon_ite (closeWith_canon (pairEnd_canon hx)) (paired_canon hx)
      · exact paired_canon hs1

theorem execPairAuth_canon {hdr : FrameHdr} {idMldsa idP384 : List Byte} {sigMldsa sigP384 : List Byte} {s : State} (hs : s.canon = true) :
    OutcomeCanon (execPairAuth hdr idMldsa idP384 sigMldsa sigP384 s) := by
  unfold execPairAuth
  split
  · exact recvFrame_canon hs (fun _ h => gotAuth_canon h)
  · exact noEvent_canon hs

theorem State.beginPair_canon {s : State} (hs : s.canon = true) : s.beginPair.canon = true :=
  canon_with (wr_canon _ _ (wr_canon _ _ (wr_canon _ _ hs)))

theorem State.pairWrite_canon {s : State} {val : Nat} (hs : s.canon = true) : (s.pairWrite val).canon = true := by
  unfold State.pairWrite
  extract_lets id r a blob s1 s2 fail b
  have hs2 : s2.canon = true := endApproval_canon (wr_canon _ _ (wr_canon _ _ (wr_canon _ _ hs)))
  have hfail (r : Nat) : (fail s2 r).canon = true := setEvt_canon (wr_canon _ _ hs2)
  refine canon_ite (hfail 7) (canon_ite (hfail 1) (canon_ite (canon_ite (hfail 4) (beginPair_canon (canon_with hs2))) ?_))
  clear_value a
  cases a with
  | none => exact hfail 2
  | some a => exact canon_ite (hfail 2) (beginPair_canon (canon_with hs2))

theorem execTwnPair_canon {who : Requester} {complement : Word32} {s : State} (hs : s.canon = true) : OutcomeCanon (execTwnPair who complement s) :=
  OutcomeCanon.next (writeGuarded_canon hs (fun _ _ h => pairWrite_canon h))

theorem execHeartbeat_canon {hdr : FrameHdr} {cseq : Nat} {s : State} (hs : s.canon = true) : OutcomeCanon (execHeartbeat hdr cseq s) :=
  recvFrame_canon hs (fun _ h => h)

theorem execHeartbeatSend_canon {s : State} (hs : s.canon = true) : OutcomeCanon (execHeartbeatSend s) := by
  unfold execHeartbeatSend
  extract_lets side link s1 x
  have hs1 : s1.canon = true := canon_ite (sendFrame_canon hs) hs
  split
  · exact OutcomeCanon.next (canon_ite (canon_with hs1) hs1)
  · exact noEvent_canon hs

theorem execHeartbeatMiss_canon {sidebandToggles : Bool} {s : State} (hs : s.canon = true) : OutcomeCanon (execHeartbeatMiss sidebandToggles s) := by
  unfold execHeartbeatMiss
  split
  · exact OutcomeCanon.next (peerGone_canon hs)
  · exact noEvent_canon hs

theorem execPeerFaultInHigh_canon {s : State} (hs : s.canon = true) : OutcomeCanon (execPeerFaultInHigh s) := by
  unfold execPeerFaultInHigh
  extract_lets x s1
  have hs1 : s1.canon = true := canon_with hs
  split
  · exact OutcomeCanon.next hs1
  · split
    · exact OutcomeCanon.next (peerGone_canon hs1)
    · split
      · exact OutcomeCanon.next (setEvt_canon (wr_canon _ _ hs1))
      · exact OutcomeCanon.next hs1

theorem execTwPresentNChange_canon {high : Bool} {s : State} (hs : s.canon = true) : OutcomeCanon (execTwPresentNChange high s) :=
  OutcomeCanon.next (canon_ite (twinDown_canon (canon_with hs)) (canon_with hs))

theorem execClose_canon {hdr : FrameHdr} {reason : Nat} {s : State} (hs : s.canon = true) : OutcomeCanon (execClose hdr reason s) :=
  recvFrame_canon hs (fun _ h => closeSession_canon h)

theorem State.applyKey_canon {s : State} {a : Attr} {stored : List Byte} {object : Bool} (hs : s.canon = true) : (s.applyKey a stored
    object).2.2.canon = true := by
  unfold State.applyKey
  extract_lets last s1 slot
  have hs1 : s1.canon = true := destroyKey_canon hs
  split
  · split
    · exact hs
    · split
      · rename_i x snd s2 e
        exact canon_of_snd e (placeAt_canon hs1)
      · rename_i x fst s2 e e1
        exact canon_of_snd e1 (placeAt_canon hs1)
  · exact canon_ite_thd hs hs

theorem State.applyDestroy_canon {s : State} {owner index gen : Nat} (hs : s.canon = true) : (s.applyDestroy owner index gen).2.2.canon = true := by
  unfold State.applyDestroy
  split
  · exact hs
  · exact canon_ite_thd (destroyKey_canon hs) hs

theorem State.applyLoad_canon {s : State} {id : Nat} {d : OwnerDef} {conflict : Bool} (hs : s.canon = true) : (s.applyLoad id d conflict).2.2.canon =
    true := by
  unfold State.applyLoad
  split
  · rename_i x s1 e
    exact loadOwner_canon hs _ e
  · rename_i x e
    exact hs

theorem State.applyOwner_canon {s : State} {id : Nat} {d : OwnerDef} (hs : s.canon = true) : (s.applyOwner id d).2.2.canon = true := by
  unfold State.applyOwner
  split
  · exact canon_ite_thd hs (applyLoad_canon hs)
  · exact canon_ite_thd hs (canon_ite_thd (canon_ite_thd hs (applyLoad_canon (destroyOwner_canon hs))) (canon_ite_thd (redefineOwner_canon hs)
    (canon_ite_thd (canon_ite_thd hs (redefineOwner_canon hs)) hs)))

theorem State.applyOwnerDestroy_canon {s : State} {id policySeq : Nat} (hs : s.canon = true) : (s.applyOwnerDestroy id policySeq).2.2.canon = true :=
    by
  unfold State.applyOwnerDestroy
  split
  · exact hs
  · exact canon_ite_thd (destroyOwner_canon hs) hs

theorem State.applyRec_canon {s : State} {r : ChangeRec} (hs : s.canon = true) : (s.applyRec r).2.canon = true := by
  unfold State.applyRec
  extract_lets x
  have hx : x.2.2.canon = true := by
    unfold x
    split
    · rename_i x1 a a1 a2
      exact applyKey_canon hs
    · rename_i x1 a a1 a2
      exact applyDestroy_canon hs
    · rename_i x1 a a1 a2
      exact canon_ite (useGen_canon hs) hs
    · rename_i x1 a a1
      exact applyOwner_canon hs
    · rename_i x1 a a1
      exact applyOwnerDestroy_canon hs
    · rename_i x1 a
      exact hs
  exact canon_ite (setEvt_canon hx) hx

theorem State.applyAll_canon {s : State} {l : List ChangeRec} (hs : s.canon = true) : (s.applyAll l).canon = true :=
  canon_fold hs (fun _ _ h => applyRec_canon h)

theorem State.countCommit_canon {s : State} (hs : s.canon = true) : s.countCommit.canon = true := wrapAdd_canon _ _ hs

theorem State.gotCommit_canon {s : State} {r : ChangeRec} (hs : s.canon = true) : (s.gotCommit r).canon = true :=
  sendFrame_canon (countCommit_canon (applyRec_canon hs))

theorem execCommit_canon {hdr : FrameHdr} {rec : ChangeRec} {s : State} (hs : s.canon = true) : OutcomeCanon (execCommit hdr rec s) := by
  unfold execCommit
  split
  · exact recvFrame_canon hs (fun _ h => gotCommit_canon h)
  · exact noEvent_canon hs

theorem State.gotAck_canon {s : State} {status : Nat} (hs : s.canon = true) : (s.gotAck status).canon = true := by
  unfold State.gotAck
  split
  · exact hs
  · exact canon_ite (complete_canon (setEvt_canon hs)) (canon_ite (setCmd_canon (canon_ite (setEvt_canon hs) hs)) (complete_canon (canon_ite
    (setEvt_canon hs) hs)))

theorem execAck_canon {hdr : FrameHdr} {status : Nat} {s : State} (hs : s.canon = true) : OutcomeCanon (execAck hdr status s) := by
  unfold execAck
  split
  · exact recvFrame_canon hs (fun _ h => gotAck_canon h)
  · exact noEvent_canon hs

theorem State.resyncDone_canon {s : State} (hs : s.canon = true) : s.resyncDone.canon = true :=
  canon_ite (setEvt_canon (setStatus_canon (wr_canon _ _ (wr_canon _ _ (canon_with hs))))) hs

theorem State.buffered_canon {s : State} {f : State → State} (hs : s.canon = true) (hf : ∀ t : State, t.canon = true → (f t).canon = true) :
    (s.buffered f).canon = true := by
  unfold State.buffered
  split
  rename_i x n s1 e
  have hx : s1.canon = true := canon_of_snd e (freeNat_canon hs)
  extract_lets a
  split
  · exact closeWith_canon (violation_canon hx)
  · exact hf _ hx

theorem State.gotResync_canon {s : State} {l : List ChangeRec} (hs : s.canon = true) : (s.gotResync l).canon = true :=
  buffered_canon (canon_ite (sendResync_canon hs) hs) (fun _ h => applyAll_canon h)

theorem execResyncData_canon {hdr : FrameHdr} {recs : List ChangeRec} {s : State} (hs : s.canon = true) : OutcomeCanon (execResyncData hdr recs s) :=
    by
  unfold execResyncData
  split
  · exact recvFrame_canon hs (fun _ h => gotResync_canon h)
  · exact noEvent_canon hs

theorem execJournal_canon {hdr : FrameHdr} {recs : List ChangeRec} {s : State} (hs : s.canon = true) : OutcomeCanon (execJournal hdr recs s) := by
  unfold execJournal
  split
  · exact recvFrame_canon hs (fun _ h => buffered_canon h (fun _ h1 => applyAll_canon h1))
  · exact noEvent_canon hs

theorem execResyncEnd_canon {hdr : FrameHdr} {count : Nat} {s : State} (hs : s.canon = true) : OutcomeCanon (execResyncEnd hdr count s) := by
  unfold execResyncEnd
  split
  · exact recvFrame_canon hs (fun _ h => resyncDone_canon (canon_with h))
  · exact noEvent_canon hs

theorem execKeyReq_canon {hdr : FrameHdr} {handle : Nat} {s : State} (hs : s.canon = true) : OutcomeCanon (execKeyReq hdr handle s) := by
  unfold execKeyReq
  split
  · exact recvFrame_canon hs (fun _ h => canon_ite (sendFrame_canon h) h)
  · exact noEvent_canon hs

theorem State.restoreKey_canon {s : State} {a : Attr} {stored : List Byte} {object : Bool} (hs : s.canon = true) : (s.restoreKey a stored
    object).canon = true := by
  unfold State.restoreKey
  split
  · split
    · extract_lets slot
      split
      · rename_i x snd s1 e
        have hx : s1.canon = true := canon_of_snd e (placeAt_canon (uncount_canon hs))
        exact setEvt_canon hx
      · rename_i x fst s1 e e1
        have hx : s1.canon = true := canon_of_snd e1 (placeAt_canon (uncount_canon hs))
        exact hs
    · exact hs
  · exact hs

theorem execKeyResp_canon {hdr : FrameHdr} {rec : Option ChangeRec} {s : State} (hs : s.canon = true) : OutcomeCanon (execKeyResp hdr rec s) := by
  unfold execKeyResp
  split
  · refine recvFrame_canon hs ?_
    intro t1 h
    split
    · exact restoreKey_canon h
    · exact h
  · exact noEvent_canon hs

/-! Sys2Proof/Machine/Reset.lean -/

theorem State.enterRecovery_canon {s : State} {cause : Nat} (hs : s.canon = true) : (s.enterRecovery cause).canon = true :=
  setStatus_canon (canon_with (wr_canon _ _ (wr_canon _ _ (wr_canon _ _ (wr_canon _ _ hs)))))

theorem State.startStep3_canon {s : State} (hs : s.canon = true) : s.startStep3.canon = true :=
  raiseAlarms_canon (setCore_canon _ _ (trainPort_canon (trainPort_canon (canon_fold (canon_with hs) (fun _ _ h => wr_canon _ _ h)))))

theorem State.startStep4_canon {s : State} (hs : s.canon = true) : s.startStep4.canon = true := by
  unfold State.startStep4
  extract_lets lost s1 x s2 late s3 s4
  have hs1 : s1.canon = true := wr_canon _ _ hs
  have hs2 : s2.canon = true := canon_ite (raiseAlarms_canon (canon_with hs1)) hs1
  have hs3 : s3.canon = true := readOtp_canon (raiseAlarms_canon hs2)
  have hs4 : s4.canon = true := canon_ite (raiseAlarms_canon (wr_canon _ _ hs3)) hs3
  exact canon_ite (raiseAlarms_canon hs4) hs4

theorem State.startSnoop_canon {s : State} (hs : s.canon = true) : s.startSnoop.canon = true := by
  unfold State.startSnoop
  split
  · exact canon_with (wr_canon _ _ hs)
  · exact hs

theorem State.start_canon {s : State} (hs : s.canon = true) : s.start.canon = true :=
  canon_ite (enterRecovery_canon (startStep4_canon (startStep3_canon hs))) (wr_canon _ _ (startSnoop_canon (startStep4_canon (startStep3_canon hs))))

theorem State.startPor_canon {s : State} (hs : s.canon = true) : s.startPor.canon = true := start_canon (satAdd_canon _ _ (canon_with hs))

theorem State.warmReset_canon {s : State} (hs : s.canon = true) : s.warmReset.canon = true :=
  canon_ite (canon_with (resetGroup_canon _ hs)) (start_canon (resetGroup_canon _ hs))

theorem State.startStep7_canon {s : State} (hs : s.canon = true) : s.startStep7.canon = true := by
  unfold State.startStep7
  split
  · exact hs
  · split
    rename_i x b s1 e
    have hx : s1.canon = true := canon_of_snd e (draw_canon hs)
    extract_lets s2
    have hs2 : s2.canon = true := fillDevice_canon hx
    split
    rename_i x1 b1 s3 e1
    have hx1 : s3.canon = true := canon_of_snd e1 (draw_canon hs2)
    extract_lets s4
    have hs4 : s4.canon = true := fillDevice_canon hx1
    split
    rename_i x2 b2 s5 e2
    have hx2 : s5.canon = true := canon_of_snd e2 (draw_canon hs4)
    extract_lets x3 x4 s6 s7
    have hs6 : s6.canon = true := canon_with hx2
    have hs7 : s7.canon = true := by
      unfold s7
      split
      · split
        rename_i x5 b3 s8 e3
        have hx3 : s8.canon = true := canon_of_snd e3 (draw_canon hs6)
        exact canon_with hx3
      · exact hs6
    split
    rename_i x5 b3 s8 e3
    have hx3 : s8.canon = true := canon_of_snd e3 (draw_canon hs7)
    exact wr_canon _ _ (trainChannel_canon (canon_with hx3))

theorem State.singleMode_canon {s : State} (hs : s.canon = true) : s.singleMode.canon = true := canon_ite hs (setEvt_canon (wr_canon _ _ hs))

theorem State.copyBad_canon {s : State} {b : Bool} {r : Nat} (hs : s.canon = true) : (s.copyBad b r).canon = true :=
  canon_ite (raiseAlarms_canon (canon_with (clearSram_canon (setEvt_canon hs)))) (clearSram_canon (setEvt_canon hs))

theorem State.useCopy_canon {s : State} {img : ImageRead} (hs : s.canon = true) : (s.useCopy img).canon = true :=
  canon_ite (wr_canon _ _ (applyImage_canon (wr_canon _ _ (wr_canon _ _ hs)))) (assertPerst_canon (wr_canon _ _ (applyImage_canon (wr_canon _ _
    (wr_canon _ _ hs)))))

theorem State.bothBad_canon {s : State} {again : Bool} (hs : s.canon = true) : (s.bothBad again).canon = true :=
  canon_ite (singleMode_canon (wr_canon _ _ (wr_canon _ _ hs))) (enterRecovery_canon hs)

theorem State.copyRead_canon {s : State} {img : ImageRead} (hs : s.canon = true) : (s.copyRead img).canon = true := by
  unfold State.copyRead
  extract_lets r s1 again s2 s3 x s4
  have hs1 : s1.canon = true := canon_ite (singleMode_canon hs) hs
  have hs2 : s2.canon = true := wr_canon _ _ hs1
  have hs3 : s3.canon = true := wr_canon _ _ hs1
  have hs4 : s4.canon = true := canon_with hs3
  exact canon_ite (canon_ite (useCopy_canon hs2) (bothBad_canon (copyBad_canon hs2))) (canon_ite (useCopy_canon hs4) (copyBad_canon hs4))

theorem State.deviceKeys_canon {s : State} (hs : s.canon = true) : s.deviceKeys.canon = true :=
  canon_ite hs (canon_fold hs (fun _ _ h => fillDevice_canon h))

theorem State.pairTest_canon {s : State} {failed : List Nat} {p : Nat} (hs : s.canon = true) : (s.pairTest failed p).canon = true :=
  canon_ite (setEvt_canon (setEvt_canon (setCore_canon _ _ hs))) (wr_canon _ _ hs)

theorem State.startPairs_canon {s : State} (hs : s.canon = true) : s.startPairs.canon = true :=
  canon_fold hs (fun _ _ h => canon_ite h (startSecure_canon h))

theorem State.katDone_canon {s : State} {units : List (Nat × Nat × TestFail)} {pairs : List Nat} (hs : s.canon = true) : (s.katDone units
    pairs).canon = true := by
  unfold State.katDone
  extract_lets s1 s2 s3 s4 s5 x s6
  have hs1 : s1.canon = true := deviceKeys_canon hs
  have hs2 : s2.canon = true := canon_fold hs1 (fun _ _ h => failAtStart_canon h)
  have hs3 : s3.canon = true := canon_fold hs2 (fun _ _ h => assignRoles_canon h)
  have hs4 : s4.canon = true := wr_canon _ _ (wr_canon _ _ hs3)
  have hs5 : s5.canon = true := canon_fold hs4 (fun _ _ h => pairTest_canon h)
  have hs6 : s6.canon = true := canon_with hs5
  exact wr_canon _ _ (startPairs_canon (recapacity_canon hs6))

theorem State.readyUp_canon {s : State} (hs : s.canon = true) : s.readyUp.canon = true := by
  unfold State.readyUp
  extract_lets s1 s2 x
  have hs1 : s1.canon = true := wr_canon _ _ (wr_canon _ _ hs)
  have hs2 : s2.canon = true := by
    unfold s2
    split
    · exact canon_ite (wr_canon _ _ hs1) hs1
    · exact hs1
  exact setStatus_canon (canon_with hs2)

/-! Sys2Proof/Machine/Boot.lean -/

theorem execPorNFall_canon {s : State} (hs : s.canon = true) : OutcomeCanon (execPorNFall s) := by
  unfold execPorNFall
  split
  · exact OutcomeCanon.next (resetGroup_canon _ (canon_with hs))
  · exact noEvent_canon hs

theorem State.porRise_canon {s : State} (hs : s.canon = true) : s.porRise.canon = true :=
  canon_ite (canon_with (canon_with hs)) (startPor_canon (canon_with hs))

theorem execPorNRise_canon {s : State} (hs : s.canon = true) : OutcomeCanon (execPorNRise s) := by
  unfold execPorNRise
  split
  · exact noEvent_canon hs
  · exact OutcomeCanon.next (porRise_canon hs)

theorem execPwrgdRise_canon {s : State} (hs : s.canon = true) : OutcomeCanon (execPwrgdRise s) := by
  unfold execPwrgdRise
  split
  · exact noEvent_canon hs
  · exact OutcomeCanon.next (canon_ite (startPor_canon (canon_with hs)) (canon_with hs))

theorem execPwrgdFall_canon {s : State} (hs : s.canon = true) : OutcomeCanon (execPwrgdFall s) := by
  unfold execPwrgdFall
  split
  · exact OutcomeCanon.next (canon_ite (setEvt_canon (canon_with hs)) (canon_with hs))
  · exact noEvent_canon hs

theorem execWrstNPulse_canon {s : State} (hs : s.canon = true) : OutcomeCanon (execWrstNPulse s) :=
  OutcomeCanon.next (canon_ite (warmReset_canon hs) hs)

theorem execBootReset_canon {who : Requester} {complement : Word32} {s : State} (hs : s.canon = true) : OutcomeCanon (execBootReset who complement s)
    :=
  OutcomeCanon.next (writeGuarded_canon hs (fun _ _ h => canon_ite (warmReset_canon h) h))

theorem execImageCopyReadDone_canon {img : ImageRead} {s : State} (hs : s.canon = true) : OutcomeCanon (execImageCopyReadDone img s) := by
  unfold execImageCopyReadDone
  split
  · exact OutcomeCanon.next (copyRead_canon hs)
  · exact noEvent_canon hs

theorem execBootKatDone_canon {failedUnits : List (Nat × Nat × TestFail)} {failedPairs : List Nat} {s : State} (hs : s.canon = true) : OutcomeCanon
    (execBootKatDone failedUnits failedPairs s) := by
  unfold execBootKatDone
  split
  · exact OutcomeCanon.next (katDone_canon hs)
  · exact noEvent_canon hs

theorem execReadyRise_canon {s : State} (hs : s.canon = true) : OutcomeCanon (execReadyRise s) := by
  unfold execReadyRise
  split
  · exact OutcomeCanon.next (readyUp_canon hs)
  · exact noEvent_canon hs

theorem execReadyTimeout_canon {s : State} (hs : s.canon = true) : OutcomeCanon (execReadyTimeout s) := by
  unfold execReadyTimeout
  split
  · exact OutcomeCanon.next (canon_with hs)
  · exact noEvent_canon hs

theorem execEntropyStartTimeout_canon {s : State} (hs : s.canon = true) : OutcomeCanon (execEntropyStartTimeout s) := by
  unfold execEntropyStartTimeout
  split
  · exact OutcomeCanon.next (canon_ite (raiseAlarms_canon hs) (enterRecovery_canon (raiseAlarms_canon hs)))
  · exact noEvent_canon hs

theorem State.fwReady_canon {s : State} {val : Nat} (hs : s.canon = true) : (s.fwReady val).canon = true := canon_ite (wr_canon _ _ hs) hs

theorem execFwReadyWrite_canon {who : Requester} {value : Word32} {s : State} (hs : s.canon = true) : OutcomeCanon (execFwReadyWrite who value s) :=
  OutcomeCanon.next (gated_canon hs (fun _ h => fwReady_canon h))

theorem State.ptGo_canon {s : State} {who : Requester} {val : Nat} (hs : s.canon = true) : (s.ptGo who val).canon = true :=
  canon_ite (errorWrite_canon hs) (canon_ite hs (canon_ite (setEvt_canon (wr_canon _ _ hs)) (emit_canon _ (canon_with (wr_canon _ _ (wr_canon _ _
    hs))))))

theorem execBootPtGo_canon {who : Requester} {value : Word32} {s : State} (hs : s.canon = true) : OutcomeCanon (execBootPtGo who value s) :=
  OutcomeCanon.next (gated_canon hs (fun _ h => ptGo_canon h))

theorem putPtBuf_canon {l : List Byte} {n : Nat} {s : State} (hs : s.canon = true) : (putPtBuf l n s).canon = true := by
  induction n generalizing l s with
  | zero =>
    unfold putPtBuf
    exact hs
  | succ n ih =>
    unfold putPtBuf
    exact wr_canon _ _ (ih hs)

theorem execPtCommandDone_canon {result : Nat} {data : List Byte} {s : State} (hs : s.canon = true) : OutcomeCanon (execPtCommandDone result data s)
    := by
  unfold execPtCommandDone
  split
  · split
    · exact OutcomeCanon.next (setEvt_canon (wr_canon _ _ (wr_canon _ _ (canon_with (canon_ite (putPtBuf_canon hs) hs)))))
    · exact noEvent_canon hs
  · exact noEvent_canon hs

theorem State.releaseHeld_canon {s : State} (hs : s.canon = true) : s.releaseHeld.canon = true :=
  canon_ite (start_canon (wr_canon _ _ (clearRegs_canon _ _ hs))) (canon_ite (startPor_canon (wr_canon _ _ (clearRegs_canon _ _ hs))) hs)

theorem execLcTransitionDone_canon {failed : Option (Nat × BitVec 64)} {s : State} (hs : s.canon = true) : OutcomeCanon (execLcTransitionDone failed
    s) := by
  unfold execLcTransitionDone
  split
  · exact OutcomeCanon.next (releaseHeld_canon (lcEnd_canon hs))
  · exact noEvent_canon hs

theorem State.killCut_canon {s : State} (hs : s.canon = true) : s.killCut.canon = true := by
  unfold State.killCut
  split
  · split
    rename_i x n s1 e
    have hx : s1.canon = true := canon_of_snd e (freeNat_canon hs)
    split
    rename_i x1 n1 s2 e1
    have hx1 : s2.canon = true := canon_of_snd e1 (freeNat_canon hx)
    exact canon_with hx1
  · exact hs

theorem execDevicePowerFail_canon {vbat : Bool} {s : State} (hs : s.canon = true) : OutcomeCanon (execDevicePowerFail vbat s) :=
  OutcomeCanon.next (resetGroup_canon _ (canon_with (killCut_canon (lcCut_canon hs))))

theorem execStatusCommandPulseEnd_canon {s : State} (hs : s.canon = true) : OutcomeCanon (execStatusCommandPulseEnd s) := by
  unfold execStatusCommandPulseEnd
  split
  · exact OutcomeCanon.next (canon_with hs)
  · exact noEvent_canon hs

/-! Sys2Proof/Machine/CoreMem.lean -/

theorem State.holdAccess_canon {s : State} {p : Nat} {kind : AccKind} {a : Nat} {data : List Byte} (hs : s.canon = true) : (s.holdAccess p kind a
    data).canon = true :=
  hold_canon hs

theorem State.cachedLoad_canon {s : State} {p a n : Nat} (hs : s.canon = true) : (s.cachedLoad p a n).2.canon = true := by
  unfold State.cachedLoad
  extract_lets w
  split
  · exact hs
  · split
    · rename_i x s1 e
      exact canon_of_snd e (fillData_canon hs)
    · rename_i x s1 e
      exact canon_of_snd e (fillData_canon hs)

theorem State.refuseCore_canon {s : State} {p a : Nat} {src e : Nat} (hs : s.canon = true) : (s.refuseCore p a src e).canon = true :=
  violation_canon hs

theorem State.lineToWrite_canon {s : State} {p a : Nat} (hs : s.canon = true) : (s.lineToWrite p a).2.canon = true := by
  unfold State.lineToWrite
  extract_lets w
  split
  · exact hs
  · split
    · rename_i x s1 e
      exact canon_of_snd e (fillData_canon hs)
    · rename_i x s1 e
      have hx : s1.canon = true := canon_of_snd e (fillData_canon hs)
      split
      · exact refuseCore_canon hx
      · exact hx

theorem State.storeMem_canon {s : State} {p a : Nat} {l : List Byte} (hs : s.canon = true) : (s.storeMem p a l).canon = true := by
  unfold State.storeMem
  split
  · split
    · rename_i x x1 s1 e
      have hx : s1.canon = true := canon_of_snd e (lineToWrite_canon hs)
      exact storeHit_canon hx
    · rename_i x s1 e
      have hx : s1.canon = true := canon_of_snd e (lineToWrite_canon hs)
      exact errorWrite_canon hx
  · split
    rename_i x ok s1 e
    have hx : s1.canon = true := canon_of_snd e (writeMem_canon hs)
    exact canon_ite hx (errorWrite_canon hx)

theorem State.uncachedLoad_canon {s : State} {p a n : Nat} (hs : s.canon = true) : (s.uncachedLoad p a n).2.canon = true := by
  unfold State.uncachedLoad
  extract_lets w
  split
  rename_i x d' ok s1 e
  exact canon_of_thd e (readMem_canon hs)

theorem State.cleanCache_canon {s : State} {p : Nat} {x : CacheLine} (hs : s.canon = true) : (s.cleanCache p x).canon = true :=
  canon_ite (writeBack_canon hs) (canon_ite (setCore_canon _ _ (writeBack_canon hs)) (setCore_canon _ _ (writeBack_canon hs)))

/-! Sys2Proof/Machine/Pcie.lean -/

theorem State.cfgStore_canon {s : State} {f : Fn} {off v : Nat} (hs : s.canon = true) : (s.cfgStore f off v).canon = true :=
  canon_ite hs (setFnSt_canon hs)

theorem State.cfgWrite_canon {s : State} {f : Fn} {off v : Nat} (hs : s.canon = true) : (s.cfgWrite f off v).canon = true := by
  unfold State.cfgWrite
  split
  · exact setFnSt_canon hs
  · extract_lets s1
    have hs1 : s1.canon = true := cfgStore_canon hs
    split
    · exact canon_ite (canon_ite (enterD3_canon hs1) (canon_ite (returnD0_canon hs1) hs1)) (canon_ite (resetPort_canon hs1) (canon_ite (canon_ite
      (setVfEnable_canon hs1) (clearVfEnable_canon hs1)) hs1))
    · exact canon_ite (vfFlr_canon hs1) hs1
    · exact hs1

theorem execConfigRequest_canon {fn : Fn} {off : Nat} {write : Option Word32} {s : State} (hs : s.canon = true) : OutcomeCanon (execConfigRequest fn
    off write s) := by
  unfold execConfigRequest
  split
  · exact noEvent_canon hs
  · split
    · exact OutcomeCanon.next (emit_canon _ hs)
    · split
      · exact OutcomeCanon.next (cfgWrite_canon (emit_canon _ hs))
      · exact OutcomeCanon.next (emit_canon _ hs)

theorem State.routeMsg_canon {s : State} {p : Port} {n : Nat} (hs : s.canon = true) : (s.routeMsg p n).canon = true := canon_ite (vector_canon hs) hs

theorem State.sourceMsgs_canon {s : State} {bank n : Nat} (hs : s.canon = true) : (s.sourceMsgs bank n).canon = true :=
  canon_ite (canon_ite (routeMsg_canon hs) (canon_ite (routeMsg_canon hs) hs)) (routeMsg_canon (routeMsg_canon hs))

theorem State.sourceRecord_canon {s : State} {bank n : Nat} (hs : s.canon = true) : (s.sourceRecord bank n).canon = true :=
  canon_ite hs (decideRecord_canon hs)

theorem execEventSourceAssert_canon {source : Nat} {s : State} (hs : s.canon = true) : OutcomeCanon (execEventSourceAssert source s) := by
  unfold execEventSourceAssert
  split
  · exact noEvent_canon hs
  · exact OutcomeCanon.next (sourceMsgs_canon (sourceRecord_canon (canon_with hs)))

theorem State.unmask_canon {s : State} {f : Fn} {v : Nat} (hs : s.canon = true) : (s.unmask f v).canon = true :=
  canon_ite (send_canon (setFnSt_canon hs)) (setFnSt_canon hs)

theorem execMsixUnmask_canon {fn : Fn} {vector : Nat} {s : State} (hs : s.canon = true) : OutcomeCanon (execMsixUnmask fn vector s) := by
  unfold execMsixUnmask
  split
  · exact OutcomeCanon.next (unmask_canon hs)
  · exact noEvent_canon hs

theorem State.qzEvent_canon {s : State} {f : Fld} {fn : Fn} (hs : s.canon = true) : (s.qzEvent f fn).canon = true :=
  canon_ite (setEvt_canon hs) (vector_canon (setEvt_canon hs))

theorem State.doorbellDrop_canon {s : State} {f : Fn} {q : Nat} (hs : s.canon = true) : ∀ t ∈ s.doorbellDrop f q, t.canon = true := by
  unfold State.doorbellDrop
  split
  · extract_lets st
    split
    · exact forall_mem_some hs
    · split
      · exact forall_mem_some (setEvt_canon hs)
      · exact forall_mem_none
  · split
    · exact forall_mem_some hs
    · exact forall_mem_none
  · split
    · exact forall_mem_some hs
    · exact forall_mem_none

theorem State.sqTail_canon {s : State} {f : Fn} {q val : Nat} (hs : s.canon = true) : (s.sqTail f q val).canon = true := by
  unfold State.sqTail
  split
  · rename_i x s1 e
    exact doorbellDrop_canon hs _ e
  · rename_i x e
    exact canon_ite (qzEvent_canon hs) (canon_ite (queueError_canon hs) (setQp_canon hs))

theorem State.cqHead_canon {s : State} {f : Fn} {q val : Nat} (hs : s.canon = true) : (s.cqHead f q val).canon = true := by
  unfold State.cqHead
  split
  · rename_i x s1 e
    exact doorbellDrop_canon hs _ e
  · rename_i x e
    exact canon_ite (qzEvent_canon hs) (canon_ite (queueError_canon hs) (setQp_canon hs))

theorem State.doorbell_canon {s : State} {f : Fn} {q val : Nat} {sq : Bool} (hs : s.canon = true) : (s.doorbell f q val sq).canon = true :=
  canon_ite (sqTail_canon hs) (cqHead_canon hs)

theorem State.ringDoorbell_canon {s : State} {f : Fn} {q val : Nat} {sq : Bool} (hs : s.canon = true) : (s.ringDoorbell f q val sq).canon = true :=
  gated_canon hs (fun _ h => doorbell_canon h)

theorem execSqTailDoorbell_canon {fn : Fn} {qp : Nat} {value : Word32} {s : State} (hs : s.canon = true) : OutcomeCanon (execSqTailDoorbell fn qp
    value s) := by
  unfold execSqTailDoorbell
  split
  · exact OutcomeCanon.next (ringDoorbell_canon hs)
  · exact noEvent_canon hs

theorem execCqHeadDoorbell_canon {fn : Fn} {qp : Nat} {value : Word32} {s : State} (hs : s.canon = true) : OutcomeCanon (execCqHeadDoorbell fn qp
    value s) := by
  unfold execCqHeadDoorbell
  split
  · exact OutcomeCanon.next (ringDoorbell_canon hs)
  · exact noEvent_canon hs

theorem State.qzEnable_canon {s : State} {f : Fn} {q : Nat} (hs : s.canon = true) : (s.qzEnable f q).canon = true :=
  canon_ite hs (canon_ite (wr_canon _ _ hs) (canon_ite (wr_canon _ _ (wr_canon _ _ (setQp_canon (wr_canon _ _ hs)))) (portClaim_canon (wr_canon _ _
    (wr_canon _ _ (setQp_canon (wr_canon _ _ hs)))))))

theorem State.deleteQp_canon {s : State} {f : Fn} {q : Nat} (hs : s.canon = true) : (s.deleteQp f q).canon = true :=
  canon_ite (finishDelete_canon (setQp_canon hs)) hs

theorem State.qzDisable_canon {s : State} {f : Fn} {q : Nat} (hs : s.canon = true) : (s.qzDisable f q).canon = true :=
  deleteQp_canon (wr_canon _ _ hs)

theorem State.qzCtrl_canon {s : State} {f : Fn} {q val : Nat} (hs : s.canon = true) : (s.qzCtrl f q val).canon = true :=
  canon_ite hs (canon_ite (qzEnable_canon hs) (qzDisable_canon hs))

theorem State.writeQzCtrl_canon {s : State} {f : Fn} {q val : Nat} (hs : s.canon = true) : (s.writeQzCtrl f q val).canon = true :=
  gated_canon hs (fun _ h => qzCtrl_canon h)

theorem execQzEnable_canon {fn : Fn} {qp : Nat} {s : State} (hs : s.canon = true) : OutcomeCanon (execQzEnable fn qp s) := by
  unfold execQzEnable
  split
  · exact OutcomeCanon.next (writeQzCtrl_canon hs)
  · exact noEvent_canon hs

theorem execQzDisable_canon {fn : Fn} {qp : Nat} {s : State} (hs : s.canon = true) : OutcomeCanon (execQzDisable fn qp s) := by
  unfold execQzDisable
  split
  · exact OutcomeCanon.next (writeQzCtrl_canon hs)
  · exact noEvent_canon hs

theorem execCoalTimeExpiry_canon {fn : Fn} {qp : Nat} {s : State} (hs : s.canon = true) : OutcomeCanon (execCoalTimeExpiry fn qp s) := by
  unfold execCoalTimeExpiry
  extract_lets x
  split
  · exact OutcomeCanon.next (vector_canon (setQp_canon hs))
  · exact noEvent_canon hs

/-! Sys2Proof/Machine/Lists.lean -/

theorem State.nwSegment_canon {s : State} {addr : Nat} (hs : s.canon = true) : (s.nwSegment addr).2.canon = true := by
  unfold State.nwSegment
  extract_lets room es
  split
  rename_i x d' ok s1 e
  exact canon_of_thd e (dmaIn_canon hs)

theorem State.nwList_canon {s : State} {addr n : Nat} {l : List SgSegment} (hs : s.canon = true) : (s.nwList addr n l).2.canon = true := by
  induction n generalizing s addr l with
  | zero =>
    unfold State.nwList
    exact hs
  | succ n ih =>
    unfold State.nwList
    split
    · exact hs
    · split
      rename_i x g s1 e
      have hx : s1.canon = true := canon_of_snd e (nwSegment_canon hs)
      extract_lets acc
      split
      · exact ih hx
      · exact hx

theorem State.nwRead_canon {s : State} {l : List (Nat × Nat)} (hs : s.canon = true) : (s.nwRead l).2.2.canon = true := by
  induction l generalizing s with
  | nil =>
    unfold State.nwRead
    exact hs
  | cons x l ih =>
    unfold State.nwRead
    split
    · rename_i x1 d s1 e
      have hx : s1.canon = true := canon_of_thd e (dmaIn_canon hs)
      exact ih hx
    · rename_i x1 d s1 e
      exact canon_of_thd e (dmaIn_canon hs)

theorem State.nwEntry_canon {s : State} {a : Nat} (hs : s.canon = true) : (s.nwEntry a).2.canon = true := by
  unfold State.nwEntry
  split
  rename_i x d' ok s1 e
  exact canon_of_thd e (dmaIn_canon hs)

theorem State.nwLists_canon {s : State} {c : Cmd} (hs : s.canon = true) : (s.nwLists c).2.canon = true := by
  unfold State.nwLists
  split
  rename_i x i s1 e
  have hx : s1.canon = true := canon_of_snd e (canon_ite_snd hs (nwList_canon hs))
  extract_lets c1
  split
  · split
    rename_i x1 i1 s2 e1
    exact canon_of_snd e1 (canon_ite_snd hx (nwList_canon hx))
  · exact hx

/-! Sys2Proof/Machine/Resolve.lean -/

theorem State.slotSound_canon {s : State} {p : Nat} (hs : s.canon = true) : (s.slotSound p).2.canon = true := by
  unfold State.slotSound
  split
  · exact hs
  · exact canon_ite_snd hs (defectSlot_canon hs)

theorem State.findObject_canon {s : State} {k : Key} {o : Obj} (hs : s.canon = true) : (s.findObject k o).2.canon = true := by
  unfold State.findObject
  extract_lets owner s1
  have hs1 : s1.canon = true := by
    unfold s1
    split
    · split
      · exact slotSound_canon hs
      · exact hs
    · exact hs
  split
  · exact hs1
  · exact canon_ite_snd hs1 hs1

theorem State.findKey_canon {s : State} {owner : Option Nat} {h : Nat} (hs : s.canon = true) : (s.findKey owner h).2.canon = true := by
  unfold State.findKey
  split
  · exact hs
  · split
    · exact hs
    · split
      · exact hs
      · split
        · exact hs
        · split
          · exact hs
          · split
            · extract_lets r
              exact slotSound_canon hs
            · exact findObject_canon hs
            · exact hs

theorem State.useApproval_canon {s : State} {id action owner : Nat} (hs : s.canon = true) : (s.useApproval id action owner).2.canon = true := by
  unfold State.useApproval
  split
  · exact hs
  · exact canon_ite_snd hs (endApproval_canon hs)

theorem State.checkPolicy_canon {s : State} {c : Cmd} (hs : s.canon = true) : (s.checkPolicy c).2.canon = true := by
  unfold State.checkPolicy
  refine canon_ite_snd hs (canon_ite_snd hs (canon_ite_snd hs ?_))
  extract_lets r
  have hr : r.2.canon = true := canon_ite_snd (useApproval_canon hs) hs
  clear_value r
  obtain ⟨_ | d, s1⟩ := r
  · exact hr
  · dsimp only
    split
    · exact canon_ite_snd hr (canon_ite_snd hr hr)
    · exact canon_ite (setEvt_canon hr) hr
    · exact hr

/-! Sys2Proof/Machine/Units.lean -/

theorem State.holdTile_canon {s : State} {c : Cmd} (hs : s.canon = true) : (s.holdTile c).canon = true := by
  unfold State.holdTile
  split
  · exact hs
  · extract_lets cand x
    split
    · exact wr_canon _ _ (canon_with hs)
    · exact hs

theorem State.startLane_canon {s : State} {u l mode : Nat} {masked snoop : Bool} {owner : Nat} (hs : s.canon = true) : (s.startLane u l mode masked
    snoop owner).canon = true :=
  wr_canon _ _ (wr_canon _ _ (wr_canon _ _ (wr_canon _ _ hs)))

theorem State.loadResident_canon {s : State} {c : Cmd} {u : Nat} (hs : s.canon = true) : (s.loadResident c u).canon = true :=
  canon_with (canon_ite (wr_canon _ _ (wr_canon _ _ hs)) (wr_canon _ _ (wr_canon _ _ hs)))

theorem State.takeResident_canon {s : State} {c : Cmd} {u : Nat} (hs : s.canon = true) : (s.takeResident c u).canon = true :=
  canon_ite (wr_canon _ _ (endResidency_canon (canon_ite (wrapAdd_canon _ _ hs) hs))) (canon_ite (canon_ite (wrapAdd_canon _ _ hs) hs)
    (loadResident_canon (canon_ite (wrapAdd_canon _ _ hs) hs)))

theorem State.clearFirst_canon {s : State} {c : Cmd} {p : Pool} {u : Nat} (hs : s.canon = true) : (s.clearFirst c p u).canon = true :=
  canon_ite hs (wr_canon _ _ (canon_with hs))

theorem State.startUnit_canon {s : State} {c : Cmd} {p : Pool} {tile : Bool} {u l : Nat} (hs : s.canon = true) : (s.startUnit c p tile u l).canon =
    true := by
  unfold State.startUnit
  extract_lets owner switch s1 first
  have hs1 : s1.canon = true := canon_ite (endResidency_canon hs) hs
  have hfirst (t : State) (ht : t.canon = true) : (first t).canon = true := canon_ite (clearFirst_canon ht) ht
  cases p with
  | hash =>
    refine canon_ite (hfirst _ (wr_canon _ _ (wr_canon _ _ (canon_fold (unhold_canon ?_) fun _ _ h => startLane_canon h)))) ?_
    · exact canon_ite_snd (freeNat_canon hs1) hs1
    · exact wr_canon _ _ (startLane_canon hs1)
  | lattice => exact hfirst _ (wr_canon _ _ (wr_canon _ _ hs1))
  | bignum => exact hfirst _ (wr_canon _ _ (wr_canon _ _ (wr_canon _ _ hs1)))
  | code => exact hfirst _ (takeResident_canon (wr_canon _ _ (wr_canon _ _ hs1)))
  | sym => exact hfirst _ (wr_canon _ _ (wr_canon _ _ (wr_canon _ _ hs1)))

theorem State.bindUnit_canon {s : State} {p : Pool} {u l id : Nat} (hs : s.canon = true) : (s.bindUnit p u l id).canon = true :=
  wake_canon (addClaim_canon (canon_with hs))

theorem State.grantUnit_canon {s : State} {c : Cmd} {p : Pool} {tile : Bool} {ul : Nat} (hs : s.canon = true) : (s.grantUnit c p tile ul).2.canon =
    true := by
  unfold State.grantUnit
  extract_lets s1
  have hs1 : s1.canon = true := bindUnit_canon hs
  exact startUnit_canon hs1

theorem State.grantLane_canon {s : State} {c : Cmd} (hs : s.canon = true) : ∀ t ∈ s.grantLane c, t.2.canon = true := by
  unfold State.grantLane
  split
  · exact forall_mem_some hs
  · split
    · exact forall_mem_none
    · exact forall_mem_some (wr_canon _ _ (startLane_canon (bindUnit_canon hs)))

theorem State.nextWaiter_canon {s : State} {p : Pool} {skip : List Nat} (hs : s.canon = true) : ∀ t ∈ s.nextWaiter p skip, t.2.canon = true := by
  unfold State.nextWaiter
  extract_lets w left fresh last grants cand after best x
  split
  · exact forall_mem_none
  · exact forall_mem_some (canon_with hs)

/-! Sys2Proof/Machine/Engines.lean -/

theorem ran_canon {s : State} {status : Nat} {clear : Bool} (hs : s.canon = true) : (ran s status clear).2.2.canon = true := hs

theorem ranOut_canon {s : State} {out : List Byte} {result aux : Nat} (hs : s.canon = true) : (ranOut s out result aux).2.2.canon = true := hs

theorem State.mask_canon {s : State} {n : Nat} (hs : s.canon = true) : (s.mask n).canon = true := countDraw_canon hs

theorem State.maskFree_canon {s : State} (hs : s.canon = true) : s.maskFree.canon = true := by
  unfold State.maskFree
  split
  rename_i x n s1 e
  have hx : s1.canon = true := canon_of_snd e (freeNat_canon hs)
  exact wrapAdd_canon _ _ hx

theorem State.drawShares_canon {s : State} {n : Nat} (hs : s.canon = true) : (s.drawShares n).2.2.canon = true := by
  unfold State.drawShares
  split
  rename_i x b s1 e
  have hx : s1.canon = true := canon_of_snd e (draw_canon hs)
  split
  rename_i x1 b1 s2 e1
  exact canon_of_snd e1 (draw_canon hx)

theorem State.sampled_canon {s : State} {ops : List (List Byte)} (hs : s.canon = true) : (s.sampled ops).canon = true :=
  canon_ite hs (setEvt_canon hs)

theorem State.countHashed_canon {s : State} {n : Nat} (hs : s.canon = true) : (s.countHashed n).canon = true := wrapAdd_canon _ _ hs

theorem State.placeNew_canon {s : State} {c : Cmd} {a : Attr} {stored : List Byte} {slot : Bool} {share : List Byte} (hs : s.canon = true) :
    (s.placeNew c a stored slot share).2.canon = true := by
  unfold State.placeNew
  split
  · exact placeAt_canon hs
  · exact hs

theorem State.newKey_canon {s : State} {c : Cmd} {a usage : Nat} {kflags origin cls : Nat} {stored share : List Byte} (hs : s.canon = true) :
    (s.newKey c a usage kflags origin cls stored share).2.2.2.canon = true := by
  unfold State.newKey
  extract_lets slot at'
  split
  rename_i x e s1 e1
  exact canon_of_snd e1 (placeNew_canon hs)

theorem ranFail_canon {s : State} {e : Nat × Nat} (hs : s.canon = true) : (ranFail s e).2.2.canon = true := hs

theorem State.keyed_canon {s : State} {c : Cmd} {a usage : Nat} {kflags origin cls : Nat} {stored share out : List Byte} (hs : s.canon = true) :
    (s.keyed c a usage kflags origin cls stored share out).2.2.canon = true := by
  unfold State.keyed
  split
  · rename_i x snd at' obj s1 e
    exact canon_of_fourth e (newKey_canon hs)
  · rename_i x e fst fst1 s1 e1 e2
    have hx : s1.canon = true := canon_of_fourth e2 (newKey_canon hs)
    exact ranFail_canon hx

theorem State.genSecret_canon {s : State} {a keyLen : Nat} (hs : s.canon = true) : (s.genSecret a keyLen).2.canon = true := by
  unfold State.genSecret
  extract_lets n id m
  split
  · split
    rename_i x sh k s1 e
    have hx : s1.canon = true := canon_of_thd e (drawShares_canon hs)
    exact sampled_canon (mask_canon hx)
  · split
    rename_i x sh k s1 e
    have hx : s1.canon = true := canon_of_thd e (drawShares_canon hs)
    exact sampled_canon (mask_canon hx)
  · split
    rename_i x sh k s1 e
    have hx : s1.canon = true := canon_of_thd e (drawShares_canon hs)
    exact maskFree_canon hx
  · split
    rename_i x sh k s1 e
    have hx : s1.canon = true := canon_of_thd e (drawShares_canon hs)
    split
    · exact mask_canon hx
    · exact setEvt_canon (mask_canon hx)
  · split
    rename_i x sh k s1 e
    have hx : s1.canon = true := canon_of_thd e (drawShares_canon hs)
    exact mask_canon hx
  · split
    rename_i x sh k s1 e
    have hx : s1.canon = true := canon_of_thd e (drawShares_canon hs)
    extract_lets s2
    have hs2 : s2.canon = true := mask_canon hx
    exact canon_ite (maskFree_canon hs2) hs2
  · split
    rename_i x sh k s1 e
    have hx : s1.canon = true := canon_of_thd e (drawShares_canon hs)
    extract_lets s2
    have hs2 : s2.canon = true := maskFree_canon hx
    exact canon_ite_snd hs2 (setEvt_canon hs2)
  · split
    rename_i x sh k s1 e
    exact canon_of_thd e (drawShares_canon hs)

theorem State.opGenerate_canon {s : State} {c : Cmd} (hs : s.canon = true) : (s.opGenerate c).2.2.canon = true := by
  unfold State.opGenerate
  extract_lets a kflags
  split
  · rename_i x s1 e
    have hx : s1.canon = true := canon_of_snd e (genSecret_canon hs)
    exact ran_canon hx
  · rename_i x share stored s1 e
    have hx : s1.canon = true := canon_of_snd e (genSecret_canon hs)
    extract_lets last pub out
    split
    · rename_i x1 snd at' obj s2 e1
      have hx1 : s2.canon = true := canon_of_fourth e1 (newKey_canon hx)
      split
      · split
        · rename_i x2 snd1 at'1 obj1 s3 e2
          exact canon_of_fourth e2 (newKey_canon hx1)
        · rename_i x2 e2 fst fst1 s3 e3 e4
          have hx2 : s3.canon = true := canon_of_fourth e4 (newKey_canon hx1)
          exact ranFail_canon (unplace_canon hx2)
      · exact hx1
    · rename_i x1 e1 fst fst1 s2 e2 e3
      have hx1 : s2.canon = true := canon_of_fourth e3 (newKey_canon hx)
      exact ranFail_canon hx1

theorem State.rejectInput_canon {s : State} (hs : s.canon = true) : s.rejectInput.2.2.canon = true := ran_canon (wrapAdd_canon _ _ (setEvt_canon hs))

theorem State.deliver_canon {s : State} {c : Cmd} {origin : Nat} {out secret : List Byte} (hs : s.canon = true) : (s.deliver c origin out
    secret).2.2.canon = true := by
  unfold State.deliver
  split
  · exact ranOut_canon hs
  · extract_lets a k
    exact keyed_canon hs

theorem State.opEncaps_canon {s : State} {c : Cmd} {d : List Byte} (hs : s.canon = true) : (s.opEncaps c d).2.2.canon = true := by
  unfold State.opEncaps
  extract_lets a pk id small
  split
  · exact ran_canon hs
  · split
    · split
      · exact ran_canon hs
      · split
        rename_i x sh k s1 e
        have hx : s1.canon = true := canon_of_thd e (drawShares_canon hs)
        extract_lets s2
        have hs2 : s2.canon = true := sampled_canon (mask_canon hx)
        split
        exact deliver_canon hs2
    · split
      rename_i x b s1 e
      have hx : s1.canon = true := canon_of_snd e (draw_canon hs)
      split
      · exact ran_canon (setEvt_canon (mask_canon hx))
      · extract_lets s2
        have hs2 : s2.canon = true := mask_canon hx
        split
        exact deliver_canon hs2

theorem State.opDecaps_canon {s : State} {c : Cmd} {d : List Byte} (hs : s.canon = true) : (s.opDecaps c d).2.2.canon = true := by
  unfold State.opDecaps
  extract_lets a id
  exact canon_ite_thd (ran_canon hs) (canon_ite_thd (deliver_canon (sampled_canon (mask_canon hs))) (deliver_canon (mask_canon hs)))

theorem State.opAgree_canon {s : State} {c : Cmd} {d : List Byte} (hs : s.canon = true) : (s.opAgree c d).2.2.canon = true := by
  unfold State.opAgree
  extract_lets a id s1 z
  have hs1 : s1.canon = true := mask_canon hs
  exact canon_ite_thd (ran_canon hs) (canon_ite_thd (rejectInput_canon hs) (canon_ite_thd (ran_canon hs1) (deliver_canon hs1)))

theorem State.signRandom_canon {s : State} {c : Cmd} (hs : s.canon = true) : (s.signRandom c).2.canon = true := by
  unfold State.signRandom
  extract_lets a det n
  split
  · split
    rename_i x b s1 e
    have hx : s1.canon = true := canon_of_snd e (canon_ite_snd hs (draw_canon hs))
    exact mask_canon hx
  · split
    rename_i x b s1 e
    have hx : s1.canon = true := canon_of_snd e (canon_ite_snd hs (draw_canon hs))
    exact maskFree_canon hx
  · exact canon_ite_snd (maskFree_canon (mask_canon hs)) (draw_canon hs)
  · exact maskFree_canon (mask_canon hs)
  · split
    rename_i x b s1 e
    have hx : s1.canon = true := canon_of_snd e (draw_canon hs)
    exact mask_canon hx

theorem State.ecdsaSign_canon {c : Cmd} {ctx msg : List Byte} {n : Nat} {l : List Byte × State} (hl : l.2.canon = true) : (State.ecdsaSign c ctx msg
    n l).2.canon = true := by
  induction n generalizing c ctx msg l with
  | zero =>
    unfold State.ecdsaSign
    exact hl
  | succ n ih =>
    unfold State.ecdsaSign
    extract_lets l1
    exact canon_ite_snd (ih (signRandom_canon hl)) hl

theorem State.countSigned_canon {s : State} {c : Cmd} {m : List Byte} {passes : Nat} (hs : s.canon = true) : (s.countSigned c m passes).canon = true
    :=
  canon_ite (countHashed_canon hs) (canon_ite (countHashed_canon hs) hs)

theorem State.opSign_canon {s : State} {c : Cmd} {d : List Byte} (hs : s.canon = true) : (s.opSign c d).2.2.canon = true := by
  unfold State.opSign
  extract_lets a ctx m msg each
  split
  · exact ran_canon hs
  · split
    rename_i x b s1 e
    have hx : s1.canon = true := canon_of_snd e (signRandom_canon hs)
    extract_lets ops sig s2 s3
    have hs2 : s2.canon = true := sampled_canon hx
    have hs3 : s3.canon = true := countSigned_canon hx
    split
    · split
      · exact ranOut_canon (wrapAdd_canon _ _ (wrapAdd_canon _ _ (mask_canon hs2)))
      · exact ran_canon (setEvt_canon (wrapAdd_canon _ _ (mask_canon hs2)))
    · split
      rename_i x1 b1 s4 e1
      have hx1 : s4.canon = true := canon_of_snd e1 (canon_ite_snd (ecdsaSign_canon hs3) hs3)
      exact ranOut_canon hx1

theorem State.opVerify_canon {s : State} {c : Cmd} {d : List Byte} (hs : s.canon = true) : (s.opVerify c d).2.2.canon = true := by
  unfold State.opVerify
  extract_lets a pk r sig ctx m msg s1
  have hs1 : s1.canon = true := countSigned_canon hs
  exact canon_ite_thd (ran_canon hs) (canon_ite_thd (ran_canon hs) (canon_ite_thd (ran_canon hs) (canon_ite_thd (rejectInput_canon hs) (canon_ite_thd
    (ran_canon hs1) (ran_canon hs1)))))

theorem State.opDerive_canon {s : State} {c : Cmd} {d : List Byte} (hs : s.canon = true) : (s.opDerive c d).2.2.canon = true := by
  unfold State.opDerive
  extract_lets a n s1
  have hs1 : s1.canon = true := countHashed_canon (maskFree_canon hs)
  exact keyed_canon hs1

/-! Sys2Proof/Machine/Streams.lean -/

theorem State.parkCtx_canon {s : State} {x : Ctx} (hs : s.canon = true) : (s.parkCtx x).2.canon = true := by
  unfold State.parkCtx
  split
  · split
    rename_i x1 b s1 e
    exact canon_of_snd e (free_canon hs)
  · exact hs

theorem State.putCtx_canon {s : State} {x : Ctx} (hs : s.canon = true) : (s.putCtx x).2.canon = true := by
  unfold State.putCtx
  split
  rename_i x1 n s1 e
  have hx : s1.canon = true := canon_of_snd e (freeNat_canon hs)
  extract_lets l i g
  split
  rename_i x2 x3 s2 e1
  have hx1 : s2.canon = true := canon_of_snd e1 (parkCtx_canon hx)
  exact canon_with hx1

theorem State.openCtx_canon {s : State} {c : Cmd} {x : Ctx} {out : List Byte} (hs : s.canon = true) : (s.openCtx c x out).2.2.canon = true := by
  unfold State.openCtx
  split
  · split
    rename_i x1 n s1 e
    have hx : s1.canon = true := canon_of_snd e (putCtx_canon hs)
    exact ranOut_canon hx
  · exact ran_canon (canon_ite (setEvt_canon hs) hs)

theorem State.growCtx_canon {s : State} {c : Cmd} {x : Ctx} {d : List Byte} (hs : s.canon = true) : (s.growCtx c x d).canon = true := by
  unfold State.growCtx
  split
  rename_i x1 x2 s1 e
  have hx : s1.canon = true := canon_of_snd e (parkCtx_canon hs)
  exact canon_with hx

theorem State.compared_canon {s : State} {got want : List Byte} {status : Nat} (hs : s.canon = true) : (s.compared got want status).2.2.canon = true
    :=
  ran_canon hs

theorem State.opHash_canon {s : State} {c : Cmd} {d : List Byte} (hs : s.canon = true) : (s.opHash c d).2.2.canon = true := by
  unfold State.opHash
  split
  · extract_lets s1 p x x1
    have hs1 : s1.canon = true := countHashed_canon hs
    exact canon_ite_thd (ranOut_canon hs1) (openCtx_canon hs1)
  · split
    · exact ran_canon hs
    · extract_lets s1 s2 n
      have hs1 : s1.canon = true := countHashed_canon hs
      have hs2 : s2.canon = true := dropCtx_canon hs1
      exact canon_ite_thd (ran_canon (growCtx_canon hs1)) (canon_ite_thd (ranOut_canon hs2) (compared_canon hs2))

theorem State.macMasks_canon {s : State} {x : Ctx} {n : Nat} {first last : Bool} (hs : s.canon = true) : (s.macMasks x n first last).canon = true :=
  canon_ite (mask_canon hs) (canon_ite (mask_canon hs) (mask_canon hs))

theorem State.countMac_canon {s : State} {a n : Nat} (hs : s.canon = true) : (s.countMac a n).canon = true := wrapAdd_canon _ _ hs

theorem State.opMac_canon {s : State} {c : Cmd} {d : List Byte} (hs : s.canon = true) : (s.opMac c d).2.2.canon = true := by
  unfold State.opMac
  split
  · extract_lets a p x x1 s1 x2
    have hs1 : s1.canon = true := countMac_canon (macMasks_canon hs)
    exact canon_ite_thd (ranOut_canon hs1) (openCtx_canon hs1)
  · split
    · exact ran_canon hs
    · extract_lets s1 n s2
      have hs1 : s1.canon = true := countMac_canon hs
      have hs2 : s2.canon = true := dropCtx_canon (macMasks_canon hs1)
      exact canon_ite_thd (ran_canon (growCtx_canon (macMasks_canon hs1))) (canon_ite_thd (ranOut_canon hs2) (compared_canon hs2))

theorem State.opAes_canon {s : State} {c : Cmd} {d : List Byte} (hs : s.canon = true) : (s.opAes c d).2.2.canon = true := by
  unfold State.opAes
  extract_lets m enc s1
  have hs1 : s1.canon = true := wrapAdd_canon _ _ (canon_ite (mask_canon hs) (mask_canon hs))
  split
  · exact ranOut_canon hs1
  · split
    · split
      · exact ranOut_canon hs1
      · split
        · exact ranOut_canon hs1
        · exact ran_canon hs1
    · split
      · split
        · exact ranOut_canon hs1
        · split
          · exact ranOut_canon hs1
          · exact ran_canon hs1
      · split
        · split
          · exact ranOut_canon hs1
          · split
            · exact ranOut_canon hs1
            · exact ran_canon hs1
        · exact ranOut_canon hs1

theorem State.opOaep_canon {s : State} {c : Cmd} {d : List Byte} (hs : s.canon = true) : (s.opOaep c d).2.2.canon = true := by
  unfold State.opOaep
  extract_lets a h label m fields s1
  have hs1 : s1.canon = true := mask_canon hs
  split
  · split
    · exact rejectInput_canon hs
    · split
      · exact ran_canon hs
      · split
        rename_i x b s2 e
        have hx : s2.canon = true := canon_of_snd e (draw_canon hs)
        exact ranOut_canon hx
  · exact canon_ite_thd (ran_canon hs) (canon_ite_thd (rejectInput_canon hs) (canon_ite_thd (ranOut_canon hs1) (ran_canon hs1)))

theorem State.opCipher_canon {s : State} {c : Cmd} {d : List Byte} (hs : s.canon = true) : (s.opCipher c d).2.2.canon = true :=
  canon_ite_thd (opOaep_canon hs) (opAes_canon hs)

theorem State.aeadCount_canon {s : State} {c : Cmd} {x : Ctx} {first last : Bool} (hs : s.canon = true) : (s.aeadCount c x first last).canon = true :=
  wrapAdd_canon _ _ (mask_canon hs)

theorem State.aeadEnd_canon {s : State} {x : Ctx} {iv d : List Byte} (hs : s.canon = true) : (s.aeadEnd x iv d).2.2.canon = true := by
  unfold State.aeadEnd
  split
  · exact ranOut_canon hs
  · extract_lets n
    exact canon_ite_thd (ranOut_canon hs) (ran_canon hs)

theorem State.opAead_canon {s : State} {c : Cmd} {d : List Byte} (hs : s.canon = true) : (s.opAead c d).2.2.canon = true := by
  unfold State.opAead
  split
  · split
    rename_i x b s1 e
    have hx : s1.canon = true := canon_of_snd e (canon_ite_snd (draw_canon hs) hs)
    extract_lets shown x1 x2 s2
    have hs2 : s2.canon = true := aeadCount_canon hx
    exact canon_ite_thd (aeadEnd_canon hs2) (openCtx_canon hs2)
  · split
    · exact ran_canon hs
    · extract_lets s1
      have hs1 : s1.canon = true := aeadCount_canon hs
      exact canon_ite_thd (ranOut_canon (growCtx_canon hs1)) (aeadEnd_canon (dropCtx_canon hs1))

theorem State.opCtxExport_canon {s : State} {c : Cmd} (hs : s.canon = true) : (s.opCtxExport c).2.2.canon = true := by
  unfold State.opCtxExport
  split
  · exact ran_canon hs
  · split
    rename_i x b s1 e
    have hx : s1.canon = true := canon_of_snd e (draw_canon hs)
    split
    rename_i x1 b1 s2 e1
    have hx1 : s2.canon = true := canon_of_snd e1 (free_canon hx)
    extract_lets head s3 tag x2
    have hs3 : s3.canon = true := dropCtx_canon hx1
    exact ranOut_canon (canon_with hs3)

theorem State.opCtxImport_canon {s : State} {c : Cmd} {d : List Byte} (hs : s.canon = true) : (s.opCtxImport c d).2.2.canon = true := by
  unfold State.opCtxImport
  split
  · exact ran_canon hs
  · split
    · exact ran_canon hs
    · extract_lets iv body
      split
      · exact ran_canon hs
      · split
        · exact ran_canon hs
        · exact openCtx_canon hs

/-! Sys2Proof/Machine/Control.lean -/

theorem State.admitKey_canon {s : State} {c : Cmd} {a : Attr} {stored : List Byte} {cache : Bool} (hs : s.canon = true) : (s.admitKey c a stored
    cache).2.2.canon = true := by
  unfold State.admitKey
  extract_lets slot
  split
  · rename_i x snd s1 e
    exact canon_of_snd e (placeNew_canon hs)
  · rename_i x fst s1 e e1
    have hx : s1.canon = true := canon_of_snd e1 (placeNew_canon hs)
    exact ranFail_canon hx

theorem State.opImportObject_canon {s : State} {c : Cmd} {d : List Byte} (hs : s.canon = true) : (s.opImportObject c d).2.2.canon = true := by
  unfold State.opImportObject
  extract_lets o at0 stored cache i
  split
  · exact ran_canon hs
  · split
    · split
      rename_i x r ch s' e
      have hx : s'.canon = true := canon_of_thd e (admitKey_canon (destroyKey_canon hs))
      exact canon_ite_thd (setEvt_canon hx) hs
    · exact canon_ite_thd (admitKey_canon hs) (admitKey_canon hs)

theorem State.admitPlain_canon {s : State} {c : Cmd} {cls : Nat} {stored : List Byte} {ok : Bool} (hs : s.canon = true) : (s.admitPlain c cls stored
    ok).2.2.canon = true := by
  unfold State.admitPlain
  extract_lets a
  exact canon_ite_thd (ran_canon hs) (canon_ite_thd (canon_ite_thd (rejectInput_canon hs) (ran_canon hs)) (admitKey_canon hs))

theorem State.opImport_canon {s : State} {c : Cmd} {d : List Byte} (hs : s.canon = true) : (s.opImport c d).2.2.canon = true := by
  unfold State.opImport
  extract_lets a s1
  have hs1 : s1.canon = true := wrapAdd_canon _ _ (mask_canon hs)
  split
  · exact opImportObject_canon hs
  · split
    · exact admitPlain_canon hs
    · split
      · exact ran_canon hs1
      · exact admitPlain_canon hs1

theorem State.opExport_canon {s : State} {c : Cmd} (hs : s.canon = true) : (s.opExport c).2.2.canon = true := by
  unfold State.opExport
  split
  · split
    rename_i x b s1 e
    have hx : s1.canon = true := canon_of_snd e (drawNonce_canon hs)
    exact ranOut_canon hx
  · split
    · exact ranOut_canon hs
    · extract_lets key
      exact ranOut_canon (wrapAdd_canon _ _ (mask_canon hs))

theorem State.opDestroy_canon {s : State} {c : Cmd} (hs : s.canon = true) : (s.opDestroy c).2.2.canon = true := destroyKey_canon hs

theorem State.runInternal_canon {s : State} {c : Cmd} {p : Pool} (hs : s.canon = true) : (s.runInternal c p).canon = true := by
  unfold State.runInternal
  split
  · split
    rename_i x x1 s1 e
    have hx : s1.canon = true := canon_of_snd e (grantUnit_canon hs)
    exact releaseUnit_canon hx
  · exact hs

theorem State.opAttest_canon {s : State} {c : Cmd} {d : List Byte} (hs : s.canon = true) : (s.opAttest c d).2.2.canon = true := by
  unfold State.opAttest
  split
  · refine canon_ite_thd hs ?_
    extract_lets m s1
    split
    rename_i r s2 e
    have hx : s2.canon = true := canon_of_snd e (draw_canon (runInternal_canon hs))
    extract_lets ops s3
    have hs3 : s3.canon = true := sampled_canon (mask_canon hx)
    split
    · exact setEvt_canon (wrapAdd_canon _ _ (mask_canon hs3))
    · rename_i t _
      extract_lets s4
      have hs4 : s4.canon = true := wrapAdd_canon _ _ (wrapAdd_canon _ _ (mask_canon hs3))
      refine canon_ite_thd hs4 ?_
      split
      rename_i k s5 e
      exact canon_of_snd e (draw_canon (runInternal_canon hs4))
  · exact hs

theorem State.issueBlob_canon {s : State} {o : Nat} {d : OwnerDef} (hs : s.canon = true) : (s.issueBlob o d).2.canon = true := by
  unfold State.issueBlob
  split
  rename_i x b s1 e
  exact canon_of_snd e (draw_canon hs)

theorem State.opOwnerLoad_canon {s : State} {d : List Byte} (hs : s.canon = true) : (s.opOwnerLoad d).2.2.canon = true := by
  unfold State.opOwnerLoad
  extract_lets n o seq body defn
  split
  · exact hs
  · split
    · exact ran_canon hs
    · split
      · exact canon_ite_thd (ranOut_canon hs) (ran_canon hs)
      · split
        · exact ran_canon hs
        · split
          · rename_i x s1 e
            exact loadOwner_canon hs _ e
          · rename_i x e
            exact ran_canon hs

theorem State.createOwner_canon {s : State} {c : Cmd} {a : Approval} {d : List Byte} (hs : s.canon = true) : (s.createOwner c a d).2.2.canon = true
    := by
  unfold State.createOwner
  extract_lets defn
  split
  · exact hs
  · split
    · exact ran_canon hs
    · split
      · exact ran_canon hs
      · split
        · exact ran_canon hs
        · split
          rename_i x b s1 e
          have hx : s1.canon = true := canon_of_snd e (draw_canon hs)
          extract_lets defn1
          split
          · rename_i x1 e1
            exact ran_canon hx
          · rename_i x1 s2 e1
            have hx1 : s2.canon = true := loadOwner_canon hx _ e1
            split
            rename_i x2 b1 s3 e2
            exact canon_of_snd e2 (issueBlob_canon hx1)

theorem State.redefine_canon {s : State} {o : Nat} {d : List Byte} (hs : s.canon = true) : (s.redefine o d).2.2.canon = true := by
  unfold State.redefine
  split
  · exact ran_canon hs
  · extract_lets defn s1
    have hs1 : s1.canon = true := redefineOwner_canon hs
    split
    rename_i x b s2 e
    exact canon_of_snd e (issueBlob_canon hs1)

theorem State.removeOwner_canon {s : State} {c : Cmd} {o : Nat} (hs : s.canon = true) : (s.removeOwner c o).2.2.canon = true := by
  unfold State.removeOwner
  extract_lets seq
  exact destroyOwner_canon hs

theorem State.reissue_canon {s : State} {o : Nat} (hs : s.canon = true) : (s.reissue o).2.2.canon = true := by
  unfold State.reissue
  split
  · exact ran_canon hs
  · split
    rename_i x b s1 e
    have hx : s1.canon = true := canon_of_snd e (issueBlob_canon hs)
    exact ranOut_canon hx

theorem State.ownerModes_canon {s : State} {c : Cmd} {d : List Byte} (hs : s.canon = true) : (s.ownerModes c d).2.2.canon = true := by
  unfold State.ownerModes
  extract_lets mode o custs input s1
  have hs1 : s1.canon = true := endApproval_canon hs
  split
  · exact hs
  · split
    · exact hs
    · split
      · exact hs
      · split
        · exact reissue_canon hs
        · split
          · exact ran_canon hs
          · exact canon_ite_thd (ran_canon hs) (canon_ite_thd (ran_canon hs1) (canon_ite_thd (createOwner_canon hs1) (canon_ite_thd (redefine_canon
            hs1) (removeOwner_canon hs1))))

theorem State.opOwnerCreate_canon {s : State} {c : Cmd} {d : List Byte} (hs : s.canon = true) : (s.opOwnerCreate c d).2.2.canon = true := by
  unfold State.opOwnerCreate
  split
  · exact ownerModes_canon hs
  · exact hs

theorem State.opChallenge_canon {s : State} {c : Cmd} {d : List Byte} (hs : s.canon = true) : (s.opChallenge c d).2.2.canon = true := by
  unfold State.opChallenge
  extract_lets o act id digest
  split
  split
  rename_i x b s1 e
  have hx : s1.canon = true := canon_of_snd e (draw_canon hs)
  extract_lets chal a x1
  exact ranOut_canon (canon_with hx)

theorem State.opApprove_canon {s : State} {c : Cmd} {d : List Byte} (hs : s.canon = true) : (s.opApprove c d).2.2.canon = true := by
  unfold State.opApprove
  extract_lets id x
  split
  · exact ran_canon hs
  · extract_lets custs
    split
    · exact hs
    · split
      · exact hs
      · extract_lets a s1 r
        exact canon_with hs

theorem State.opVfCreate_canon {s : State} {c : Cmd} (hs : s.canon = true) : (s.opVfCreate c).2.2.canon = true := by
  unfold State.opVfCreate
  extract_lets p n x s1 s2 s3
  have hs1 : s1.canon = true := setVf_canon hs
  have hs2 : s2.canon = true := wr_canon _ _ (wr_canon _ _ (wr_canon _ _ (wr_canon _ _ hs1)))
  have hs3 : s3.canon = true := wr_canon _ _ (wr_canon _ _ (wr_canon _ _ (wr_canon _ _ hs2)))
  exact canon_ite_thd hs (canon_ite_thd (ran_canon hs) (canon_ite_thd (ran_canon hs) (ran_canon (refreshVf_canon (wr_canon _ _ hs3)))))

theorem State.opMigration_canon {s : State} {c : Cmd} (hs : s.canon = true) : (s.opMigration c).2.2.canon = true := by
  unfold State.opMigration
  extract_lets p n x s1 s2 was s3
  have hs1 : s1.canon = true := setVf_canon hs
  have hs2 : s2.canon = true := wr_canon _ _ hs1
  have hs3 : s3.canon = true := wr_canon _ _ (wr_canon _ _ hs2)
  exact canon_ite_thd (ran_canon (wr_canon _ _ hs)) (ran_canon (canon_ite (vector_canon hs3) hs3))

theorem State.opVfDestroy_canon {s : State} {c : Cmd} (hs : s.canon = true) : (s.opVfDestroy c).1.2.2.canon = true := by
  unfold State.opVfDestroy
  extract_lets p n st
  split
  · exact hs
  · split
    · exact hs
    · split
      · exact hs
      · exact canon_ite (startTeardown_canon hs) hs

theorem State.opControl_canon {s : State} {c : Cmd} {d : List Byte} (hs : s.canon = true) : (s.opControl c d).2.2.canon = true := by
  unfold State.opControl
  extract_lets op
  exact canon_ite_thd (opImport_canon hs) (canon_ite_thd (opExport_canon hs) (canon_ite_thd (opDestroy_canon hs) (canon_ite_thd (opAttest_canon hs)
    (canon_ite_thd (opOwnerLoad_canon hs) (canon_ite_thd (opOwnerCreate_canon hs) (canon_ite_thd (opChallenge_canon hs) (canon_ite_thd
    (opApprove_canon hs) (canon_ite_thd (opMigration_canon hs) (opVfCreate_canon hs)))))))))

/-! Sys2Proof/Machine/Ends.lean -/

theorem State.hello_canon {s : State} {c : Cmd} (hs : s.canon = true) : (s.hello c).canon = true := by
  unfold State.hello
  split
  · exact helloEnd_canon hs
  · exact helloEnd_canon hs

theorem State.failEarly_canon {s : State} {c : Cmd} {status detail : Nat} (hs : s.canon = true) : (s.failEarly c status detail).canon = true :=
  canon_ite (helloEnd_canon hs) (complete_canon (canon_ite (dropCmdCtx_canon hs) hs))

theorem State.failLate_canon {s : State} {c : Cmd} {status detail : Nat} (hs : s.canon = true) : (s.failLate c status detail).canon = true :=
  stopCmd_canon (dropCmdCtx_canon hs)

theorem State.aerOf_canon {s : State} {f : Fn} (hs : s.canon = true) : (s.aerOf f).canon = true := by
  unfold State.aerOf
  split
  · exact hs
  · split
    rename_i x n s1 e
    have hx : s1.canon = true := canon_of_snd e (freeNat_canon hs)
    exact aerLog_canon hx

theorem State.failLost_canon {s : State} {c : Cmd} (hs : s.canon = true) : (s.failLost c).canon = true := by
  unfold State.failLost
  split
  rename_i x n s1 e
  have hx : s1.canon = true := canon_of_snd e (freeNat_canon hs)
  exact failEarly_canon hx

theorem State.sendCommits_canon {s : State} {l : List ChangeRec} (hs : s.canon = true) : (s.sendCommits l).canon = true := by
  induction l generalizing s with
  | nil =>
    unfold State.sendCommits
    exact hs
  | cons x l ih =>
    unfold State.sendCommits
    exact ih (sendFrame_canon (countCommit_canon hs))

theorem State.commitStep_canon {s : State} {c : Cmd} {r : Res} {ch : List ChangeRec} (hs : s.canon = true) : (s.commitStep c r ch).canon = true :=
  canon_ite (complete_canon hs) (canon_ite (setCmd_canon (sendCommits_canon hs)) (canon_ite (complete_canon (canon_fold hs (fun _ _ h =>
    journalAdd_canon h))) (complete_canon hs)))

theorem State.finish_canon {pre : State} {c : Cmd} {x : Ran} (hpre : pre.canon = true) (hx : x.2.2.canon = true) : (pre.finish c x).canon = true := by
  unfold State.finish
  split
  rename_i x r ch s'
  split
  · exact complete_canon (dropCmdCtx_canon hx)
  · split
    · rename_i x1 s e
      have hx1 : s.canon = true := canon_of_snd e (writePieces_canon hx)
      exact commitStep_canon hx1
    · rename_i x1 s e
      have hx1 : s.canon = true := canon_of_snd e (writePieces_canon hx)
      exact complete_canon (dropCmdCtx_canon (writePieces_canon (canon_with hpre)))

theorem State.opQueueCreate_canon {s : State} {c : Cmd} (hs : s.canon = true) : (s.opQueueCreate c).2.2.canon = true := by
  unfold State.opQueueCreate
  extract_lets q s1
  have hs1 : s1.canon = true := setQp_canon hs
  exact ran_canon (portClaim_canon hs1)

theorem State.abortByCid_canon {s : State} {c : Cmd} (hs : s.canon = true) : (s.abortByCid c).2.2.canon = true := by
  unfold State.abortByCid
  split
  · exact ranOut_canon hs
  · exact canon_ite_thd (ranOut_canon hs) (canon_ite_thd (ranOut_canon (abortCmd_canon hs)) (ranOut_canon hs))

theorem State.abortContext_canon {s : State} {c : Cmd} (hs : s.canon = true) : (s.abortContext c).2.2.canon = true := by
  unfold State.abortContext
  split
  · exact canon_ite_thd (ran_canon hs) (ranOut_canon hs)
  · extract_lets users
    exact ranOut_canon (dropCtx_canon (canon_fold hs (fun _ _ h => abortCmd_canon h)))

theorem State.opAbort_canon {s : State} {c : Cmd} (hs : s.canon = true) : (s.opAbort c).2.2.canon = true :=
  canon_ite_thd (abortByCid_canon hs) (abortContext_canon hs)

theorem State.opRandom_canon {s : State} {c : Cmd} (hs : s.canon = true) : (s.opRandom c).2.2.canon = true := by
  unfold State.opRandom
  split
  rename_i x b s1 e
  have hx : s1.canon = true := canon_of_snd e (drawHost_canon hs)
  exact ranOut_canon hx

theorem State.runOp_canon {s : State} {c : Cmd} {d : List Byte} (hs : s.canon = true) : (s.runOp c d).2.2.canon = true := by
  unfold State.runOp
  extract_lets op
  exact canon_ite_thd (ranOut_canon hs) (canon_ite_thd (opAbort_canon hs) (canon_ite_thd (opQueueCreate_canon hs) (canon_ite_thd (opCtxExport_canon
    hs) (canon_ite_thd (opCtxImport_canon hs) (canon_ite_thd (opGenerate_canon hs) (canon_ite_thd (opDerive_canon hs) (canon_ite_thd (opEncaps_canon
    hs) (canon_ite_thd (opDecaps_canon hs) (canon_ite_thd (opAgree_canon hs) (canon_ite_thd (opSign_canon hs) (canon_ite_thd (opVerify_canon hs)
    (canon_ite_thd (opHash_canon hs) (canon_ite_thd (opMac_canon hs) (canon_ite_thd (opCipher_canon hs) (canon_ite_thd (opAead_canon hs)
    (canon_ite_thd (opRandom_canon hs) (opControl_canon hs)))))))))))))))))

/-! Sys2Proof/Machine/Handover.lean -/

theorem State.vfDestroyed_canon {s : State} {c : Cmd} {r : Res} {wait : Bool} (hs : s.canon = true) : (s.vfDestroyed c r wait).canon = true :=
  canon_ite (setCmd_canon hs) (complete_canon hs)

theorem State.handOver_canon {s : State} {c : Cmd} {p : Nat} (hs : s.canon = true) : (s.handOver c p).canon = true := by
  unfold State.handOver
  split
  rename_i x n s1 e
  have hx : s1.canon = true := canon_of_snd e (freeNat_canon hs)
  extract_lets stage tag tail was
  split
  · rename_i x1 s2 e1
    have hx1 : s2.canon = true := canon_of_snd e1 (dmaOut_canon hx)
    exact failLate_canon hx1
  · rename_i x1 s2 e1
    have hx1 : s2.canon = true := canon_of_snd e1 (dmaOut_canon hx)
    split
    · rename_i x2 s3 e2
      have hx2 : s3.canon = true := canon_of_snd e2 (dmaOut_canon hx1)
      exact failLate_canon hx2
    · rename_i x2 s3 e2
      have hx2 : s3.canon = true := canon_of_snd e2 (dmaOut_canon hx1)
      exact canon_ite (canon_with (setCmd_canon (wr_canon _ _ hx2))) (canon_with (canon_with (setCmd_canon (wr_canon _ _ hx2))))

theorem State.returned_canon {s : State} {c : Cmd} {r : Res} (hs : s.canon = true) : (s.returned c r).canon = true := by
  unfold State.returned
  split
  · have h : (s.opVfDestroy c).1.2.2.canon = true := opVfDestroy_canon hs
    exact canon_ite (vfDestroyed_canon h) (complete_canon hs)
  · exact canon_ite (finish_canon hs (opControl_canon hs)) (finish_canon hs hs)

theorem State.takeReturn_canon {s : State} {p : Nat} {e : List Byte} (hs : s.canon = true) : (s.takeReturn p e).canon = true := by
  unfold State.takeReturn
  split
  · exact setEvt_canon hs
  · extract_lets n
    split
    · exact complete_canon hs
    · split
      · rename_i x fst s' e1
        have hx : s'.canon = true := canon_of_thd e1 (dmaIn_canon hs)
        exact failLate_canon hx
      · rename_i x c s' e1
        have hx : s'.canon = true := canon_of_thd e1 (dmaIn_canon hs)
        exact returned_canon hx

theorem State.takeReturns_canon {s : State} {p tail n : Nat} (hs : s.canon = true) : (s.takeReturns p tail n).canon = true := by
  induction n generalizing s p tail with
  | zero =>
    unfold State.takeReturns
    exact hs
  | succ n ih =>
    unfold State.takeReturns
    extract_lets head
    split
    · exact hs
    · split
      rename_i x d' ok s1 e
      have hx : s1.canon = true := canon_of_thd e (dmaIn_canon hs)
      exact ih (canon_ite (takeReturn_canon (wr_canon _ _ hx)) (setEvt_canon (wr_canon _ _ hx)))

theorem State.readReturns_canon {s : State} {p : Nat} (hs : s.canon = true) : (s.readReturns p).canon = true :=
  canon_ite hs (canon_ite (canon_ite hs (hold_canon hs)) (takeReturns_canon hs))

theorem State.serve_canon {s : State} {c : Cmd} {p tag : Nat} (hs : s.canon = true) : (s.serve c p tag).canon = true := by
  unfold State.serve
  split
  rename_i x n s1 e
  have hx : s1.canon = true := canon_of_snd e (freeNat_canon hs)
  exact readReturns_canon (wr_canon _ _ (dmaOut_canon (dmaOut_canon (wr_canon _ _ hx))))

/-! Sys2Proof/Machine/Pipeline.lean -/

theorem State.grantNext_canon {s : State} {c : Cmd} {p : Pool} {tile : Bool} (hs : s.canon = true) : ∀ t ∈ s.grantNext c p tile, t.2.canon = true :=
    by
  unfold State.grantNext
  split
  · intro t ht
    obtain ⟨ul, _, rfl⟩ := Option.map_eq_some_iff.mp ht
    exact grantUnit_canon hs
  · exact grantLane_canon hs

theorem State.reserve_canon {s : State} {c : Cmd} (hs : s.canon = true) : (s.reserve c).1.canon = true := by
  unfold State.reserve
  split
  · exact setCmd_canon hs
  · split
    · exact canon_ite (failEarly_canon hs) (failLate_canon hs)
    · split
      · exact hs
      · extract_lets others c1 s1 s2
        have hs1 : s1.canon = true := setCmd_canon hs
        have hs2 : s2.canon = true := canon_ite (holdTile_canon hs1) hs1
        split
        · exact hs2
        · split
          · rename_i x c2 s3 e
            have hx : s3.canon = true := grantNext_canon hs2 _ e
            exact setCmd_canon hx
          · rename_i x e
            exact hs2

theorem State.entryError_canon {s : State} {c : Cmd} (hs : s.canon = true) : (s.entryError c).canon = true := complete_canon (aerOf_canon hs)

theorem State.stageEntry_canon {s : State} {c : Cmd} {a : Nat} (hs : s.canon = true) : (s.stageEntry c a).1.canon = true := by
  unfold State.stageEntry
  split
  · rename_i x e s1 e1
    have hx : s1.canon = true := canon_of_snd e1 (nwEntry_canon hs)
    exact setCmd_canon hx
  · rename_i x s1 e
    have hx : s1.canon = true := canon_of_snd e (nwEntry_canon hs)
    exact entryError_canon hx

theorem State.stageCheck_canon {s : State} {c : Cmd} (hs : s.canon = true) : (s.stageCheck c).1.canon = true := by
  unfold State.stageCheck
  split
  · split
    · exact setCmd_canon hs
    · exact failEarly_canon hs
  · exact failEarly_canon hs

theorem State.fnReads_canon {s : State} {f : Fn} {l : List (Nat × Nat)} (hs : s.canon = true) : (s.fnReads f l).canon = true :=
  canon_fold hs (fun _ _ h => fnRead_canon h)

theorem State.stageHeld_canon {s : State} {c : Cmd} (hs : s.canon = true) : (s.stageHeld c).1.canon = true := by
  unfold State.stageHeld
  split
  · split
    · exact failEarly_canon hs
    · exact hs
  · exact setCmd_canon hs

theorem State.stageLists_canon {s : State} {c : Cmd} (hs : s.canon = true) : (s.stageLists c).1.canon = true := by
  unfold State.stageLists
  split
  · exact failEarly_canon hs
  · split
    rename_i x x1 s1 e
    have hx : s1.canon = true := canon_of_snd e (canon_ite_snd (nwLists_canon hs) hs)
    extract_lets s2
    have hs2 : s2.canon = true := canon_ite (fnReads_canon hx) hx
    split
    · exact failEarly_canon hs2
    · exact failEarly_canon (aerOf_canon hs2)
    · exact hs2
    · split
      · exact failEarly_canon hs2
      · split
        · exact failEarly_canon hs2
        · split
          · exact failEarly_canon (dropCmdCtx_canon hs2)
          · exact setCmd_canon hs2

theorem befallLines_canon {l1 : List Nat} {l : List LineEvent} {s : State} (hs : s.canon = true) : (befallLines l1 l s).canon = true := by
  induction l1 generalizing l s with
  | nil => exact hs
  | cons a t ih =>
    cases l with
    | nil => exact hs
    | cons e ev => exact ih (befallFrom_canon hs)

theorem State.holdCmd_canon {s : State} {a : HeldAccess} (hs : s.canon = true) : (s.holdCmd a).canon = true := canon_ite hs (hold_canon hs)

theorem State.takeFound_canon {s : State} {c : Cmd} {x : Found} {f : Attr × List Byte → Cmd} (hs : s.canon = true) : (s.takeFound c x f).1.canon =
    true := by
  unfold State.takeFound
  split
  · exact setCmd_canon hs
  · exact setCmd_canon hs
  · exact failEarly_canon hs
  · split
    · exact setCmd_canon hs
    · extract_lets c1
      split
      · exact failLost_canon hs
      · split
        · exact holdCmd_canon (setCmd_canon hs)
        · split
          · exact setCmd_canon hs
          · split
            · rename_i x v s1 e
              have hx : s1.canon = true := canon_of_snd e (readObject_canon (befallLines_canon hs))
              exact setCmd_canon hx
            · rename_i x st detail s1 e
              have hx : s1.canon = true := canon_of_snd e (readObject_canon (befallLines_canon hs))
              exact failEarly_canon hx

theorem State.stagePolicy_canon {s : State} {c : Cmd} (hs : s.canon = true) : (s.stagePolicy c).1.canon = true := by
  unfold State.stagePolicy
  split
  · rename_i x st detail s1 e
    have hx : s1.canon = true := canon_of_snd e (checkPolicy_canon hs)
    exact failEarly_canon hx
  · rename_i x digest s1 e
    have hx : s1.canon = true := canon_of_snd e (checkPolicy_canon hs)
    exact setCmd_canon hx

theorem State.stageBody_canon {s : State} {c : Cmd} (hs : s.canon = true) : (s.stageBody c).1.canon = true := by
  unfold State.stageBody
  split
  · split
    · exact takeFound_canon hs
    · split
      · exact takeFound_canon hs
      · split
        · split
          rename_i x x1 s1 e
          have hx : s1.canon = true := canon_of_snd e (findKey_canon hs)
          exact takeFound_canon hx
        · split
          · split
            rename_i x x1 s1 e
            have hx : s1.canon = true := canon_of_snd e (findKey_canon hs)
            exact takeFound_canon hx
          · split
            · exact setCmd_canon hs
            · exact stagePolicy_canon hs
  · exact failEarly_canon hs

theorem State.stageWaiting_canon {s : State} {c : Cmd} (hs : s.canon = true) : (s.stageWaiting c).1.canon = true := by
  unfold State.stageWaiting
  split
  · exact hs
  · split
    · split
      · split
        · exact failEarly_canon (dropCmdCtx_canon hs)
        · split
          · rename_i x st detail s1 e
            have hx : s1.canon = true := canon_of_snd e (checkPolicy_canon hs)
            exact failEarly_canon hx
          · rename_i x digest s1 e
            have hx : s1.canon = true := canon_of_snd e (checkPolicy_canon hs)
            exact reserve_canon hx
      · exact failEarly_canon hs
    · exact reserve_canon hs

theorem State.stageInput_canon {s : State} {c : Cmd} (hs : s.canon = true) : (s.stageInput c).1.canon = true := by
  unfold State.stageInput
  split
  · exact failLate_canon (aerOf_canon hs)
  · extract_lets s1 s2
    have hs1 : s1.canon = true := canon_ite (fnReads_canon hs) hs
    have hs2 : s2.canon = true := canon_ite (countHashed_canon hs1) hs1
    split
    · exact failLate_canon hs2
    · exact setCmd_canon hs2
  · split
    · split
      rename_i x d' ok s1 e
      have hx : s1.canon = true := canon_of_thd e (nwRead_canon hs)
      exact setCmd_canon hx
    · exact hs

theorem State.stageControl_canon {s : State} {c : Cmd} (hs : s.canon = true) : (s.stageControl c).1.canon = true := by
  unfold State.stageControl
  split
  · exact failLate_canon hs
  · split
    · exact canon_ite hs (setCmd_canon (setEvt_canon hs))
    · split
      · exact handOver_canon hs
      · exact hs

theorem State.stageHanded_canon {s : State} {c : Cmd} {p tag : Nat} (hs : s.canon = true) : (s.stageHanded c p tag).1.canon = true := by
  unfold State.stageHanded
  split
  · dsimp only
    exact serve_canon hs
  · exact hs

theorem State.stageDelete_canon {s : State} {c : Cmd} (hs : s.canon = true) : (s.stageDelete c).1.canon = true := by
  unfold State.stageDelete
  extract_lets q x s1
  have hs1 : s1.canon = true := setQp_canon hs
  split
  · split
    · exact hs
    · exact complete_canon hs
  · split
    · exact complete_canon hs
    · exact setCmd_canon (finishDelete_canon hs1)

theorem State.stageEngine_canon {s : State} {c : Cmd} (hs : s.canon = true) : (s.stageEngine c).1.canon = true := by
  unfold State.stageEngine
  split
  · exact stageControl_canon hs
  · split
    · exact hello_canon hs
    · split
      · exact stageDelete_canon hs
      · split
        · exact setCmd_canon hs
        · split
          · exact hs
          · split
            · extract_lets s1
              have hs1 : s1.canon = true := releaseUnit_canon (countHashed_canon hs)
              exact setCmd_canon hs1
            · exact finish_canon hs (runOp_canon hs)

theorem State.stageDrawing_canon {s : State} {c : Cmd} (hs : s.canon = true) : (s.stageDrawing c).1.canon = true := by
  unfold State.stageDrawing
  split
  · exact finish_canon hs (ranOut_canon hs)
  · exact hs

theorem State.stageDo_canon {s : State} {c : Cmd} (hs : s.canon = true) : (s.stageDo c).1.canon = true := by
  unfold State.stageDo
  split
  · exact stageEntry_canon hs
  · exact stageCheck_canon hs
  · exact stageHeld_canon hs
  · exact stageLists_canon hs
  · exact stageBody_canon hs
  · exact stageBody_canon hs
  · exact stageWaiting_canon hs
  · exact stageInput_canon hs
  · exact stageEngine_canon hs
  · exact stageDrawing_canon hs
  · exact stageHanded_canon hs
  · exact hs
  · exact hs
  · exact hs

theorem State.stageStep_canon {s : State} {c : Cmd} (hs : s.canon = true) : (s.stageStep c).1.canon = true := by
  unfold State.stageStep
  split
  · exact hs
  · split
    · exact holdCmd_canon hs
    · exact stageDo_canon hs

theorem State.advance_canon {s : State} {id n : Nat} (hs : s.canon = true) : (s.advance id n).canon = true := by
  induction n generalizing s id with
  | zero =>
    unfold State.advance
    exact hs
  | succ n ih =>
    unfold State.advance
    split
    · exact hs
    · split
      · rename_i x s1 e
        have hx : s1.canon = true := canon_of_fst e (stageStep_canon hs)
        exact ih hx
      · rename_i x s1 e
        exact canon_of_fst e (stageStep_canon hs)

theorem State.pump_canon {s : State} (hs : s.canon = true) : s.pump.canon = true := settle_canon (canon_fold hs (fun _ _ h => advance_canon h))

theorem State.takeEntry_canon {s : State} {f : Fn} {q : Nat} (hs : s.canon = true) : (s.takeEntry f q).canon = true :=
  canon_with (setQp_canon (fnRead_canon hs))

theorem State.begin_canon {s : State} {c : Cmd} (hs : s.canon = true) : (s.begin c).canon = true := advance_canon (canon_with hs)

theorem State.unreadable_canon {s : State} {f : Fn} {q : Nat} (hs : s.canon = true) : (s.unreadable f q).canon = true :=
  entryError_canon (canon_with (takeEntry_canon hs))

theorem State.whole_canon {s : State} {ops : List Byte → List Byte → Bool} {f : Fn} {q : Nat} {e : List Byte} {h : HostData} (hs : s.canon = true) :
    OutcomeCanon (s.whole ops f q e h) := by
  unfold State.whole
  split
  · exact OutcomeCanon.next (pump_canon (begin_canon (takeEntry_canon hs)))
  · exact noEvent_canon hs

theorem State.opRow_canon {s : State} {op : Nat} {f : Fn} {q : Nat} {e : List Byte} {h : HostData} (hs : s.canon = true) : OutcomeCanon (s.opRow op f
    q e h) :=
  whole_canon hs

/-! Sys2Proof/Machine/Entropy.lean -/

theorem State.entReady_canon {s : State} (hs : s.canon = true) : s.entReady.canon = true :=
  startStep7_canon (setStatus_canon (setEvt_canon (wr_canon _ _ hs)))

theorem State.entCapacity_canon {s : State} {before : List Nat} (hs : s.canon = true) : (s.entCapacity before).canon = true :=
  canon_ite (recapacity_canon hs) hs

theorem State.joinQuad_canon {s : State} {q : Nat} (hs : s.canon = true) : (s.joinQuad q).canon = true := by
  unfold State.joinQuad
  extract_lets before fresh s1 x s2 s3
  have hs1 : s1.canon = true := setEvt_canon (wr_canon _ _ (wr_canon _ _ hs))
  have hs2 : s2.canon = true := canon_ite (canon_with hs1) hs1
  have hs3 : s3.canon = true := canon_ite (entCapacity_canon hs2) hs2
  exact canon_ite hs3 (entReady_canon hs3)

theorem execEntQuadrantJoined_canon {quadrant : Fin 4} {s : State} (hs : s.canon = true) : OutcomeCanon (execEntQuadrantJoined quadrant s) := by
  unfold execEntQuadrantJoined
  split
  · exact OutcomeCanon.next (pump_canon (joinQuad_canon hs))
  · exact noEvent_canon hs

theorem State.trimCells_canon {s : State} {q lo : Nat} {hi n : Nat} {l : List Nat} (hs : s.canon = true) : (s.trimCells q lo hi n l).canon = true :=
    by
  induction l generalizing s q lo hi n with
  | nil =>
    unfold State.trimCells
    exact hs
  | cons x l ih =>
    unfold State.trimCells
    exact ih (canon_with hs)

theorem State.captureEnt_canon {s : State} {q cell test : Nat} {startup : Bool} (hs : s.canon = true) : (s.captureEnt q cell test startup).canon =
    true :=
  canon_ite hs (wr_canon _ _ (wr_canon _ _ (wr_canon _ _ (wr_canon _ _ hs))))

theorem State.entropyLost_canon {s : State} (hs : s.canon = true) : s.entropyLost.canon = true := canon_fold hs (fun _ _ h => abortCmd_canon h)

theorem State.allFailed_canon {s : State} (hs : s.canon = true) : s.allFailed.canon = true :=
  wr_canon _ _ (entropyLost_canon (raiseAlarms_canon (setEvt_canon (setStatus_canon (wr_canon _ _ (wr_canon _ _ hs))))))

theorem State.failQuad_canon {s : State} {q cell test : Nat} (hs : s.canon = true) : (s.failQuad q cell test).canon = true := by
  unfold State.failQuad
  extract_lets before was counted s1 s2 x s3 s4 s5
  have hs1 : s1.canon = true := captureEnt_canon hs
  have hs2 : s2.canon = true := setEvt_canon (wr_canon _ _ (wr_canon _ _ hs1))
  have hs3 : s3.canon = true := canon_with hs2
  have hs4 : s4.canon = true := canon_ite (wr_canon _ _ hs3) hs3
  have hs5 : s5.canon = true := canon_ite (entCapacity_canon hs4) hs4
  exact canon_ite (allFailed_canon hs5) (canon_ite (wr_canon _ _ hs5) hs5)

theorem execEntBalanceWindowEnd_canon {quadrant : Fin 4} {startup : Bool} {ones : List Nat} {s : State} (hs : s.canon = true) : OutcomeCanon
    (execEntBalanceWindowEnd quadrant startup ones s) := by
  unfold execEntBalanceWindowEnd
  extract_lets q n x s1
  have hs1 : s1.canon = true := canon_with hs
  split
  · exact noEvent_canon hs
  · split
    · split
      · exact OutcomeCanon.next (trimCells_canon hs1)
      · exact noEvent_canon hs
    · split
      · exact OutcomeCanon.next (pump_canon (failQuad_canon hs))
      · exact OutcomeCanon.next (trimCells_canon hs)

theorem execEntQuadrantFail_canon {quadrant : Fin 4} {cell : Nat} {fail : HealthFail} {s : State} (hs : s.canon = true) : OutcomeCanon
    (execEntQuadrantFail quadrant cell fail s) := by
  unfold execEntQuadrantFail
  extract_lets q
  split
  · exact OutcomeCanon.next (pump_canon (failQuad_canon hs))
  · exact noEvent_canon hs

theorem execEntBlockRelease_canon {quadrant : Fin 4} {s : State} (hs : s.canon = true) : OutcomeCanon (execEntBlockRelease quadrant s) := by
  unfold execEntBlockRelease
  split
  · split
    rename_i x n s1 e
    have hx : s1.canon = true := canon_of_snd e (freeNat_canon hs)
    exact OutcomeCanon.next (wr_canon _ _ hx)
  · exact noEvent_canon hs

theorem State.grantWord_canon {s : State} {c : Cmd} (hs : s.canon = true) : (s.grantWord c).canon = true := by
  unfold State.grantWord
  split
  rename_i x b s1 e
  have hx : s1.canon = true := canon_of_snd e (drawHost_canon hs)
  exact setCmd_canon (canon_with hx)

theorem execEntWordGrant_canon {s : State} (hs : s.canon = true) : OutcomeCanon (execEntWordGrant s) := by
  unfold execEntWordGrant
  split
  · exact noEvent_canon hs
  · split
    · exact OutcomeCanon.next (pump_canon (grantWord_canon hs))
    · exact OutcomeCanon.next (pump_canon (grantWord_canon hs))
    · exact noEvent_canon hs

theorem execEntShareWindowEnd_canon {s : State} (hs : s.canon = true) : OutcomeCanon (execEntShareWindowEnd s) := by
  unfold execEntShareWindowEnd
  split
  · exact OutcomeCanon.next (canon_with hs)
  · exact noEvent_canon hs

theorem execEntStarved_canon {s : State} (hs : s.canon = true) : OutcomeCanon (execEntStarved s) := by
  unfold execEntStarved
  split
  · exact OutcomeCanon.next (setEvt_canon hs)
  · exact noEvent_canon hs

theorem State.startCapture_canon {s : State} {q dest len : Nat} (hs : s.canon = true) : (s.startCapture q dest len).canon = true :=
  canon_with (wr_canon _ _ (wr_canon _ _ (canon_ite (wr_canon _ _ hs) hs)))

theorem State.capCtrl_canon {s : State} {val : Nat} (hs : s.canon = true) : (s.capCtrl val).canon = true :=
  canon_ite (wr_canon _ _ (wr_canon _ _ (wr_canon _ _ hs))) (canon_ite (startCapture_canon (wr_canon _ _ (wr_canon _ _ (wr_canon _ _ (wr_canon _ _
    hs))))) (wr_canon _ _ (wr_canon _ _ (wr_canon _ _ (wr_canon _ _ hs)))))

theorem execEntCaptureGo_canon {who : Requester} {value : Word32} {s : State} (hs : s.canon = true) : OutcomeCanon (execEntCaptureGo who value s) :=
  OutcomeCanon.next (gated_canon hs (fun _ h => capCtrl_canon h))

theorem State.restartQuad_canon {s : State} {q : Nat} (hs : s.canon = true) : (s.restartQuad q).canon = true := wr_canon _ _ (canon_with hs)

theorem State.captureWrite_canon {s : State} {dest : Nat} {l : List Byte} (hs : s.canon = true) : (s.captureWrite dest l).canon = true :=
  canon_ite (hold_canon hs) (dmaOut_canon hs)

theorem execEntCaptureDone_canon {failed : Bool} {groups : List (BitVec 512)} {s : State} (hs : s.canon = true) : OutcomeCanon (execEntCaptureDone
    failed groups s) := by
  unfold execEntCaptureDone
  split
  · exact noEvent_canon hs
  · extract_lets data
    split
    · exact noEvent_canon hs
    · split
      rename_i x b s1 e
      have hx : s1.canon = true := canon_of_snd e (canon_ite_snd (free_canon hs) hs)
      exact OutcomeCanon.next (settle_canon (canon_ite (setEvt_canon (wr_canon _ _ (wr_canon _ _ (captureWrite_canon (canon_with hx)))))
        (restartQuad_canon (setEvt_canon (wr_canon _ _ (wr_canon _ _ (captureWrite_canon (canon_with hx))))))))

/-! Sys2Proof/Machine/Evolin.lean -/

theorem execHello_canon {fn : Fn} {qp : Nat} {entry : List Byte} {host : HostData} {s : State} (hs : s.canon = true) : OutcomeCanon (execHello fn qp
    entry host s) :=
  opRow_canon hs

theorem execGetInfo_canon {fn : Fn} {qp : Nat} {entry : List Byte} {host : HostData} {s : State} (hs : s.canon = true) : OutcomeCanon (execGetInfo fn
    qp entry host s) :=
  opRow_canon hs

theorem execQueueCreate_canon {fn : Fn} {qp : Nat} {entry : List Byte} {host : HostData} {s : State} (hs : s.canon = true) : OutcomeCanon
    (execQueueCreate fn qp entry host s) :=
  opRow_canon hs

theorem execQueueDelete_canon {fn : Fn} {qp : Nat} {entry : List Byte} {host : HostData} {s : State} (hs : s.canon = true) : OutcomeCanon
    (execQueueDelete fn qp entry host s) :=
  opRow_canon hs

theorem execCtxExport_canon {fn : Fn} {qp : Nat} {entry : List Byte} {host : HostData} {s : State} (hs : s.canon = true) : OutcomeCanon
    (execCtxExport fn qp entry host s) :=
  opRow_canon hs

theorem execCtxImport_canon {fn : Fn} {qp : Nat} {entry : List Byte} {host : HostData} {s : State} (hs : s.canon = true) : OutcomeCanon
    (execCtxImport fn qp entry host s) :=
  opRow_canon hs

theorem execKeyGenerate_canon {fn : Fn} {qp : Nat} {entry : List Byte} {host : HostData} {s : State} (hs : s.canon = true) : OutcomeCanon
    (execKeyGenerate fn qp entry host s) :=
  opRow_canon hs

theorem execKeyImportWrapped_canon {fn : Fn} {qp : Nat} {entry : List Byte} {host : HostData} {s : State} (hs : s.canon = true) : OutcomeCanon
    (execKeyImportWrapped fn qp entry host s) :=
  opRow_canon hs

theorem execKeyExportWrapped_canon {fn : Fn} {qp : Nat} {entry : List Byte} {host : HostData} {s : State} (hs : s.canon = true) : OutcomeCanon
    (execKeyExportWrapped fn qp entry host s) :=
  opRow_canon hs

theorem execKeyDestroy_canon {fn : Fn} {qp : Nat} {entry : List Byte} {host : HostData} {s : State} (hs : s.canon = true) : OutcomeCanon
    (execKeyDestroy fn qp entry host s) :=
  opRow_canon hs

theorem execKeyDerive_canon {fn : Fn} {qp : Nat} {entry : List Byte} {host : HostData} {s : State} (hs : s.canon = true) : OutcomeCanon
    (execKeyDerive fn qp entry host s) :=
  opRow_canon hs

theorem execKeyAttest_canon {fn : Fn} {qp : Nat} {entry : List Byte} {host : HostData} {s : State} (hs : s.canon = true) : OutcomeCanon
    (execKeyAttest fn qp entry host s) :=
  opRow_canon hs

theorem execKemEncaps_canon {fn : Fn} {qp : Nat} {entry : List Byte} {host : HostData} {s : State} (hs : s.canon = true) : OutcomeCanon
    (execKemEncaps fn qp entry host s) :=
  opRow_canon hs

theorem execKemDecaps_canon {fn : Fn} {qp : Nat} {entry : List Byte} {host : HostData} {s : State} (hs : s.canon = true) : OutcomeCanon
    (execKemDecaps fn qp entry host s) :=
  opRow_canon hs

theorem execKeyAgree_canon {fn : Fn} {qp : Nat} {entry : List Byte} {host : HostData} {s : State} (hs : s.canon = true) : OutcomeCanon (execKeyAgree
    fn qp entry host s) :=
  opRow_canon hs

theorem execSign_canon {fn : Fn} {qp : Nat} {entry : List Byte} {host : HostData} {s : State} (hs : s.canon = true) : OutcomeCanon (execSign fn qp
    entry host s) :=
  opRow_canon hs

theorem execVerify_canon {fn : Fn} {qp : Nat} {entry : List Byte} {host : HostData} {s : State} (hs : s.canon = true) : OutcomeCanon (execVerify fn
    qp entry host s) :=
  opRow_canon hs

theorem execHashInit_canon {fn : Fn} {qp : Nat} {entry : List Byte} {host : HostData} {s : State} (hs : s.canon = true) : OutcomeCanon (execHashInit
    fn qp entry host s) :=
  opRow_canon hs

theorem execHashUpdate_canon {fn : Fn} {qp : Nat} {entry : List Byte} {host : HostData} {s : State} (hs : s.canon = true) : OutcomeCanon
    (execHashUpdate fn qp entry host s) :=
  opRow_canon hs

theorem execHashFinal_canon {fn : Fn} {qp : Nat} {entry : List Byte} {host : HostData} {s : State} (hs : s.canon = true) : OutcomeCanon
    (execHashFinal fn qp entry host s) :=
  opRow_canon hs

theorem execHashVerify_canon {fn : Fn} {qp : Nat} {entry : List Byte} {host : HostData} {s : State} (hs : s.canon = true) : OutcomeCanon
    (execHashVerify fn qp entry host s) :=
  opRow_canon hs

theorem execMacInit_canon {fn : Fn} {qp : Nat} {entry : List Byte} {host : HostData} {s : State} (hs : s.canon = true) : OutcomeCanon (execMacInit fn
    qp entry host s) :=
  opRow_canon hs

theorem execMacUpdate_canon {fn : Fn} {qp : Nat} {entry : List Byte} {host : HostData} {s : State} (hs : s.canon = true) : OutcomeCanon
    (execMacUpdate fn qp entry host s) :=
  opRow_canon hs

theorem execMacFinal_canon {fn : Fn} {qp : Nat} {entry : List Byte} {host : HostData} {s : State} (hs : s.canon = true) : OutcomeCanon (execMacFinal
    fn qp entry host s) :=
  opRow_canon hs

theorem execMacVerify_canon {fn : Fn} {qp : Nat} {entry : List Byte} {host : HostData} {s : State} (hs : s.canon = true) : OutcomeCanon
    (execMacVerify fn qp entry host s) :=
  opRow_canon hs

theorem execCipher_canon {fn : Fn} {qp : Nat} {entry : List Byte} {host : HostData} {s : State} (hs : s.canon = true) : OutcomeCanon (execCipher fn
    qp entry host s) :=
  opRow_canon hs

theorem execAeadInit_canon {fn : Fn} {qp : Nat} {entry : List Byte} {host : HostData} {s : State} (hs : s.canon = true) : OutcomeCanon (execAeadInit
    fn qp entry host s) :=
  opRow_canon hs

theorem execAeadUpdate_canon {fn : Fn} {qp : Nat} {entry : List Byte} {host : HostData} {s : State} (hs : s.canon = true) : OutcomeCanon
    (execAeadUpdate fn qp entry host s) :=
  opRow_canon hs

theorem execAeadFinal_canon {fn : Fn} {qp : Nat} {entry : List Byte} {host : HostData} {s : State} (hs : s.canon = true) : OutcomeCanon
    (execAeadFinal fn qp entry host s) :=
  opRow_canon hs

theorem execRandom_canon {fn : Fn} {qp : Nat} {entry : List Byte} {host : HostData} {s : State} (hs : s.canon = true) : OutcomeCanon (execRandom fn
    qp entry host s) :=
  opRow_canon hs

theorem execOwnerLoad_canon {fn : Fn} {qp : Nat} {entry : List Byte} {host : HostData} {s : State} (hs : s.canon = true) : OutcomeCanon
    (execOwnerLoad fn qp entry host s) :=
  opRow_canon hs

theorem execQuorumChallenge_canon {fn : Fn} {qp : Nat} {entry : List Byte} {host : HostData} {s : State} (hs : s.canon = true) : OutcomeCanon
    (execQuorumChallenge fn qp entry host s) :=
  opRow_canon hs

theorem execQuorumApprove_canon {fn : Fn} {qp : Nat} {entry : List Byte} {host : HostData} {s : State} (hs : s.canon = true) : OutcomeCanon
    (execQuorumApprove fn qp entry host s) :=
  opRow_canon hs

theorem execVfCreate_canon {fn : Fn} {qp : Nat} {entry : List Byte} {host : HostData} {s : State} (hs : s.canon = true) : OutcomeCanon (execVfCreate
    fn qp entry host s) :=
  opRow_canon hs

theorem execVfDestroy_canon {fn : Fn} {qp : Nat} {entry : List Byte} {host : HostData} {s : State} (hs : s.canon = true) : OutcomeCanon
    (execVfDestroy fn qp entry host s) :=
  opRow_canon hs

theorem execAbortCommand_canon {fn : Fn} {qp : Nat} {entry : List Byte} {host : HostData} {s : State} (hs : s.canon = true) : OutcomeCanon
    (execAbortCommand fn qp entry host s) :=
  whole_canon hs

theorem execAbortContext_canon {fn : Fn} {qp : Nat} {entry : List Byte} {host : HostData} {s : State} (hs : s.canon = true) : OutcomeCanon
    (execAbortContext fn qp entry host s) :=
  whole_canon hs

theorem execOwnerCreate_canon {fn : Fn} {qp : Nat} {entry : List Byte} {host : HostData} {s : State} (hs : s.canon = true) : OutcomeCanon
    (execOwnerCreate fn qp entry host s) :=
  whole_canon hs

theorem execOwnerRedefine_canon {fn : Fn} {qp : Nat} {entry : List Byte} {host : HostData} {s : State} (hs : s.canon = true) : OutcomeCanon
    (execOwnerRedefine fn qp entry host s) :=
  whole_canon hs

theorem execOwnerDestroy_canon {fn : Fn} {qp : Nat} {entry : List Byte} {host : HostData} {s : State} (hs : s.canon = true) : OutcomeCanon
    (execOwnerDestroy fn qp entry host s) :=
  whole_canon hs

theorem execOwnerReissue_canon {fn : Fn} {qp : Nat} {entry : List Byte} {host : HostData} {s : State} (hs : s.canon = true) : OutcomeCanon
    (execOwnerReissue fn qp entry host s) :=
  whole_canon hs

theorem execMigrationLogStart_canon {fn : Fn} {qp : Nat} {entry : List Byte} {host : HostData} {s : State} (hs : s.canon = true) : OutcomeCanon
    (execMigrationLogStart fn qp entry host s) :=
  whole_canon hs

theorem execMigrationLogStop_canon {fn : Fn} {qp : Nat} {entry : List Byte} {host : HostData} {s : State} (hs : s.canon = true) : OutcomeCanon
    (execMigrationLogStop fn qp entry host s) :=
  whole_canon hs

theorem execSqEntryFetchDone_canon {fn : Fn} {qp : Nat} {entry : Option (List Byte)} {s : State} (hs : s.canon = true) : OutcomeCanon
    (execSqEntryFetchDone fn qp entry s) := by
  unfold execSqEntryFetchDone
  split
  · exact noEvent_canon hs
  · split
    · exact OutcomeCanon.next (pump_canon (unreadable_canon hs))
    · exact OutcomeCanon.next (pump_canon (unreadable_canon hs))
    · exact OutcomeCanon.next (pump_canon (begin_canon (takeEntry_canon hs)))

theorem execSgSegmentArrived_canon {cmd : Nat} {seg : SgSegment} {s : State} (hs : s.canon = true) : OutcomeCanon (execSgSegmentArrived cmd seg s) :=
    by
  unfold execSgSegmentArrived
  split
  · split
    · exact OutcomeCanon.next (pump_canon (advance_canon (fnReads_canon (setCmd_canon hs))))
    · exact noEvent_canon hs
  · exact noEvent_canon hs

theorem execObjectBodyArrived_canon {cmd : Nat} {events : List LineEvent} {s : State} (hs : s.canon = true) : OutcomeCanon (execObjectBodyArrived cmd
    events s) := by
  unfold execObjectBodyArrived
  split
  · split
    · exact OutcomeCanon.next (pump_canon (advance_canon (setCmd_canon hs)))
    · exact noEvent_canon hs
  · exact noEvent_canon hs

theorem State.tryGrant_canon {s : State} {p : Pool} {c : Cmd} (hs : s.canon = true) : ∀ t ∈ s.tryGrant p c, t.2.2.canon = true := by
  unfold State.tryGrant
  split
  · exact forall_mem_none
  · extract_lets ul
    split
    · rename_i ul1 x ul2 c1 s1 e e1
      have hx : s1.canon = true := grantNext_canon hs _ e1
      exact forall_mem_some hx
    · rename_i ul1 x e
      exact forall_mem_none

theorem State.grantFrom_canon {s : State} {p : Pool} {n : Nat} {l : List Nat} (hs : s.canon = true) : ∀ t ∈ s.grantFrom p n l, t.2.2.canon = true :=
    by
  induction n generalizing s l with
  | zero => exact forall_mem_none
  | succ n ih =>
    unfold State.grantFrom
    split
    · exact forall_mem_none
    · rename_i c s' e
      have hx : s'.canon = true := nextWaiter_canon hs _ e
      split
      · rename_i g e
        exact forall_mem_some (tryGrant_canon hx _ e)
      · exact ih hs

theorem State.nextGrant_canon {s : State} {p : Pool} (hs : s.canon = true) : ∀ t ∈ s.nextGrant p, t.2.2.canon = true := grantFrom_canon hs

theorem execUnitGrant_canon {pool unit : Nat} {s : State} (hs : s.canon = true) : OutcomeCanon (execUnitGrant pool unit s) := by
  unfold execUnitGrant
  split
  · exact noEvent_canon hs
  · split
    · rename_i x u c s1 e
      have hx : s1.canon = true := nextGrant_canon hs _ e
      split
      · exact OutcomeCanon.next (pump_canon (advance_canon (setCmd_canon hx)))
      · exact noEvent_canon hx
    · rename_i x e
      exact noEvent_canon hs

theorem execInputFetchDone_canon {cmd : Nat} {data : Option (List Byte)} {s : State} (hs : s.canon = true) : OutcomeCanon (execInputFetchDone cmd
    data s) := by
  unfold execInputFetchDone
  split
  · split
    · exact OutcomeCanon.next (pump_canon (advance_canon (fnReads_canon (setCmd_canon hs))))
    · exact noEvent_canon hs
  · exact noEvent_canon hs

theorem execEngineDone_canon {cmd : Nat} {s : State} (hs : s.canon = true) : OutcomeCanon (execEngineDone cmd s) := by
  unfold execEngineDone
  split
  · split
    · exact OutcomeCanon.next (pump_canon (advance_canon (setCmd_canon hs)))
    · exact noEvent_canon hs
  · exact noEvent_canon hs

theorem execControlHandover_canon {cmd : Nat} {s : State} (hs : s.canon = true) : OutcomeCanon (execControlHandover cmd s) := by
  unfold execControlHandover
  split
  · split
    · exact OutcomeCanon.next (pump_canon (handOver_canon hs))
    · exact noEvent_canon hs
  · exact noEvent_canon hs

theorem State.cqEnable_canon {s : State} {p : Nat} (hs : s.canon = true) : (s.cqEnable p).canon = true :=
  canon_ite hs (canon_ite (wr_canon _ _ (wr_canon _ _ hs)) (wr_canon _ _ hs))

theorem State.cqDisable_canon {s : State} {p : Nat} (hs : s.canon = true) : (s.cqDisable p).canon = true := canon_ite hs (wr_canon _ _ hs)

theorem execDspCqEnable_canon {who : Requester} {queue : Fin 2} {s : State} (hs : s.canon = true) : OutcomeCanon (execDspCqEnable who queue s) :=
  OutcomeCanon.next (gated_canon hs (fun _ h => pump_canon (cqEnable_canon h)))

theorem execDspCqDisable_canon {who : Requester} {queue : Fin 2} {s : State} (hs : s.canon = true) : OutcomeCanon (execDspCqDisable who queue s) :=
  OutcomeCanon.next (gated_canon hs (fun _ h => pump_canon (cqDisable_canon h)))

theorem State.cqRtail_canon {s : State} {p val : Nat} (hs : s.canon = true) : (s.cqRtail p val).canon = true :=
  canon_ite (wr_canon _ _ hs) (canon_ite (setEvt_canon hs) (pump_canon (readReturns_canon (wr_canon _ _ hs))))

theorem execDspCqRtailWrite_canon {who : Requester} {queue : Fin 2} {value : Word32} {s : State} (hs : s.canon = true) : OutcomeCanon
    (execDspCqRtailWrite who queue value s) :=
  OutcomeCanon.next (gated_canon hs (fun _ h => cqRtail_canon h))

/-! Sys2Proof/Machine/Keys.lean -/

theorem State.remask_canon {s : State} {p : Nat} {sl : Slot} (hs : s.canon = true) : (s.remask p sl).canon = true := by
  unfold State.remask
  split
  rename_i x b s1 e
  have hx : s1.canon = true := canon_of_snd e (draw_canon hs)
  exact setSlot_canon hx

theorem State.moltSlot_canon {s : State} {bad : List (Nat × Nat)} {p : Nat} (hs : s.canon = true) : (s.moltSlot bad p).canon = true := by
  unfold State.moltSlot
  split
  · exact hs
  · exact canon_ite (remask_canon hs) (defectSlot_canon hs)

theorem moltPass_canon {bad : List (Nat × Nat)} {l : List Nat} {s : State} (hs : s.canon = true) : (moltPass bad l s).2.canon = true := by
  induction l generalizing bad s with
  | nil =>
    unfold moltPass
    exact hs
  | cons x l ih =>
    unfold moltPass
    extract_lets s1
    have hs1 : s1.canon = true := moltSlot_canon hs
    exact canon_ite_snd hs1 (ih hs1)

theorem execMoltPeriod_canon {bad : List (Nat × Nat)} {late : Bool} {s : State} (hs : s.canon = true) : OutcomeCanon (execMoltPeriod bad late s) := by
  unfold execMoltPeriod
  split
  · split
    · rename_i x s1 e
      have hx : s1.canon = true := canon_of_snd e (moltPass_canon hs)
      exact OutcomeCanon.next (pump_canon (wr_canon _ _ (wrapAdd_canon _ _ (canon_ite (setEvt_canon hx) hx))))
    · rename_i x s1 e
      have hx : s1.canon = true := canon_of_snd e (moltPass_canon hs)
      exact OutcomeCanon.next (pump_canon (wr_canon _ _ hx))
  · exact noEvent_canon hs

theorem State.restoreSlot_canon {s : State} (hs : s.canon = true) : s.restoreSlot.2.canon = true := by
  unfold State.restoreSlot
  split
  · exact hs
  · exact pickSlot_canon hs

theorem State.restoreDevice_canon {s : State} {k : DeviceKey} {p : Nat} (hs : s.canon = true) : (s.restoreDevice k p).canon = true := by
  unfold State.restoreDevice
  split
  · extract_lets s1
    have hs1 : s1.canon = true := fillSlot_canon hs
    refine setEvt_canon ?_
    split
    · exact setOwner_canon hs1
    · exact hs1
  · extract_lets x s1
    have hs1 : s1.canon = true := canon_with hs
    split
    · split
      rename_i x1 b s2 e
      have hx : s2.canon = true := canon_of_snd e (draw_canon hs1)
      exact canon_with (fillDevice_canon hx)
    · exact setEvt_canon (fillDevice_canon hs1)

theorem execDeviceKeyRederived_canon {key : DeviceKey} {s : State} (hs : s.canon = true) : OutcomeCanon (execDeviceKeyRederived key s) := by
  unfold execDeviceKeyRederived
  split
  · extract_lets x s1
    have hs1 : s1.canon = true := canon_with hs
    split
    · rename_i x1 p s2 e
      have hx : s2.canon = true := canon_of_snd e (restoreSlot_canon hs1)
      exact OutcomeCanon.next (pump_canon (restoreDevice_canon hx))
    · rename_i x1 snd e
      have hx : snd.canon = true := canon_of_snd e (restoreSlot_canon hs1)
      exact OutcomeCanon.next (pump_canon (canon_with hx))
  · exact noEvent_canon hs

theorem execApprovalWindowExpiry_canon {id : Nat} {s : State} (hs : s.canon = true) : OutcomeCanon (execApprovalWindowExpiry id s) := by
  unfold execApprovalWindowExpiry
  split
  · exact OutcomeCanon.next (endApproval_canon hs)
  · exact noEvent_canon hs

/-! Sys2Proof/Machine/Memory.lean -/

theorem State.dmaError_canon {s : State} {c : Cmd} (hs : s.canon = true) : (s.dmaError c).canon = true := by
  unfold State.dmaError
  split
  · exact entryError_canon hs
  · exact failEarly_canon hs
  · exact failEarly_canon hs
  · exact failEarly_canon hs
  · exact failEarly_canon hs
  · exact failEarly_canon hs
  · exact hs
  · exact hs
  · exact hs
  · exact failLate_canon hs

theorem State.bodyError_canon {s : State} {c : Cmd} {off : Nat} {why : LineFault} (hs : s.canon = true) : (s.bodyError c off why).canon = true := by
  unfold State.bodyError
  split
  · exact dmaError_canon hs
  · exact failEarly_canon hs
  · split
    · exact failLost_canon hs
    · exact failEarly_canon hs
    · exact dmaError_canon hs

theorem State.initError_canon {s : State} {x : LineAccess} {why : LineFault} (hs : s.canon = true) : (s.initError x why).canon = true := by
  unfold State.initError
  split
  · split
    · exact errorWrite_canon hs
    · split
      · exact emit_canon _ hs
      · exact errorRead_canon hs
  · split
    · exact canon_ite (bodyError_canon hs) (dmaError_canon hs)
    · exact hs
  · exact closeWith_canon hs
  · exact hs
  · exact hs

theorem State.reportModule_canon {s : State} {c : Nat} {present wide twoRanks : Bool} {rate gib : Nat} (hs : s.canon = true) : (s.reportModule c
    present wide twoRanks rate gib).canon = true :=
  wr_canon _ _ (wr_canon _ _ (wr_canon _ _ (wr_canon _ _ (wr_canon _ _ hs))))

theorem State.trainFail_canon {s : State} {c cause : Nat} (hs : s.canon = true) : (s.trainFail c cause).canon = true :=
  canon_ite (setEvt_canon (canon_fold (wr_canon _ _ (canon_with (supersede_canon (setEvt_canon (wr_canon _ _ hs))))) (fun _ _ h => wr_canon _ _ h)))
    (setEvt_canon (wr_canon _ _ hs))

theorem State.trained_canon {s : State} {c : Nat} (hs : s.canon = true) : (s.trained c).canon = true :=
  setChan_canon (wr_canon _ _ (wr_canon _ _ (wr_canon _ _ (wr_canon _ _ (wr_canon _ _ hs)))))

theorem execDdrTrainingDone_canon {channel : Fin 2} {result : Training} {s : State} (hs : s.canon = true) : OutcomeCanon (execDdrTrainingDone channel
    result s) := by
  unfold execDdrTrainingDone
  extract_lets c
  split
  · exact noEvent_canon hs
  · split
    · exact OutcomeCanon.next (trainFail_canon (reportModule_canon hs))
    · split
      · exact OutcomeCanon.next (trainFail_canon (reportModule_canon hs))
      · split
        · exact OutcomeCanon.next (trained_canon (reportModule_canon hs))
        · exact OutcomeCanon.next (trainFail_canon (reportModule_canon hs))

theorem State.lineAnswer_canon {s : State} {x : LineAccess} {a : Option (List Byte)} (hs : s.canon = true) : (s.lineAnswer x a).canon = true := by
  unfold State.lineAnswer
  split
  · exact initError_canon hs
  · split
    · exact canon_ite (emit_canon _ hs) hs
    · exact hs

theorem State.holdLine_canon {s : State} {c l : Nat} {x : LineAccess} (hs : s.canon = true) : ∀ t ∈ s.holdLine c l x, t.canon = true := by
  unfold State.holdLine
  extract_lets ch
  split
  · exact forall_mem_some (setChan_canon hs)
  · split
    · exact forall_mem_none
    · exact forall_mem_some (setChan_canon hs)

theorem State.lockFor_canon {s : State} {c l : Nat} {x : LineAccess} (hs : s.canon = true) : (s.lockFor c l x).canon = true :=
  canon_ite (setChan_canon hs) hs

theorem State.channelAccess_canon {s : State} {x : LineAccess} (hs : s.canon = true) : (s.channelAccess x).canon = true := by
  unfold State.channelAccess
  split
  · exact lineAnswer_canon hs
  · split
    · exact lineAnswer_canon hs
    · split
      · rename_i x1 s1 e
        exact holdLine_canon hs _ e
      · rename_i x1 e
        split
        rename_i x2 a s1 e1
        have hx : s1.canon = true := canon_of_snd e1 (serveLine_canon (lockFor_canon hs))
        exact lineAnswer_canon hx

theorem State.refuseLine_canon {s : State} {x : LineAccess} {src e : Nat} (hs : s.canon = true) : (s.refuseLine x src e).canon = true := by
  unfold State.refuseLine
  extract_lets k a s1
  have hs1 : s1.canon = true := violation_canon hs
  refine initError_canon ?_
  split
  · exact debugViol_canon hs1
  · exact hs1

theorem State.lineAccess_canon {s : State} {x : LineAccess} (hs : s.canon = true) : (s.lineAccess x).canon = true := by
  unfold State.lineAccess
  split
  · exact refuseLine_canon hs
  · exact channelAccess_canon hs

theorem State.lineArrives_canon {s : State} {x : LineAccess} {event : LineEvent} (hs : s.canon = true) : (s.lineArrives x event).canon = true :=
  settle_canon (canon_ite (hold_canon (befallFrom_canon hs)) (lineAccess_canon (befallFrom_canon hs)))

theorem execDdrLineRead_canon {who : Initiator} {off : Nat} {event : LineEvent} {s : State} (hs : s.canon = true) : OutcomeCanon (execDdrLineRead who
    off event s) :=
  OutcomeCanon.next (lineArrives_canon hs)

theorem execDdrPartialWrite_canon {who : Initiator} {off : Nat} {data : List Byte} {event : LineEvent} {s : State} (hs : s.canon = true) :
    OutcomeCanon (execDdrPartialWrite who off data event s) := by
  unfold execDdrPartialWrite
  split
  · exact noEvent_canon hs
  · exact OutcomeCanon.next (lineArrives_canon hs)

theorem State.unlockLine_canon {s : State} {c l : Nat} {k : LineLock} (hs : s.canon = true) : (s.unlockLine c l k).canon = true :=
  canon_fold (canon_fold (setChan_canon hs) (fun _ _ h => lineAnswer_canon h)) (fun _ _ h => channelAccess_canon h)

theorem execDdrLockRelease_canon {off : Nat} {s : State} (hs : s.canon = true) : OutcomeCanon (execDdrLockRelease off s) := by
  unfold execDdrLockRelease
  split
  · exact noEvent_canon hs
  · split
    · exact noEvent_canon hs
    · exact OutcomeCanon.next (settle_canon (unlockLine_canon hs))

theorem State.releaseFilled_canon {s : State} {c : Nat} (hs : s.canon = true) : (s.releaseFilled c).canon = true := by
  unfold State.releaseFilled
  extract_lets ch
  split
  exact settle_canon (canon_fold (setChan_canon hs) (fun _ _ h => channelAccess_canon h))

theorem execZeroFillBlock_canon {channel : Fin 2} {block : Nat} {s : State} (hs : s.canon = true) : OutcomeCanon (execZeroFillBlock channel block s)
    := by
  unfold execZeroFillBlock
  extract_lets c ch
  split
  · exact noEvent_canon hs
  · split
    · exact OutcomeCanon.next (releaseFilled_canon (sweepTo_canon hs))
    · split
      · exact OutcomeCanon.next (releaseFilled_canon (fillBlock_canon hs))
      · exact noEvent_canon hs

theorem execFillDone_canon {channel : Fin 2} {s : State} (hs : s.canon = true) : OutcomeCanon (execFillDone channel s) := by
  unfold execFillDone
  extract_lets c s1 s2
  have hs1 : s1.canon = true := sweepTo_canon hs
  have hs2 : s2.canon = true := wr_canon _ _ (wr_canon _ _ hs1)
  split
  · exact OutcomeCanon.next (releaseFilled_canon (setEvt_canon hs2))
  · exact noEvent_canon hs

theorem State.scrubOn_canon {s : State} {c : Nat} (hs : s.canon = true) : (s.scrubOn c).canon = true :=
  canon_ite (wr_canon _ _ (setChan_canon hs)) (setEvt_canon (satAdd_canon _ _ (wr_canon _ _ (setChan_canon hs))))

theorem execPatrolScrubLine_canon {channel : Fin 2} {event : LineEvent} {s : State} (hs : s.canon = true) : OutcomeCanon (execPatrolScrubLine channel
    event s) := by
  unfold execPatrolScrubLine
  extract_lets c ch l s1
  have hs1 : s1.canon = true := channelAccess_canon (befall_canon hs)
  split
  · exact noEvent_canon hs
  · exact OutcomeCanon.next (settle_canon (scrubOn_canon hs1))

theorem execScrubPeriodEnd_canon {channel : Fin 2} {s : State} (hs : s.canon = true) : OutcomeCanon (execScrubPeriodEnd channel s) := by
  unfold execScrubPeriodEnd
  extract_lets c x
  split
  · exact noEvent_canon hs
  · split
    · exact OutcomeCanon.next (setChan_canon hs)
    · exact OutcomeCanon.next (setEvt_canon hs)

theorem State.alertFail_canon {s : State} {c : Nat} {x : LineAccess} (hs : s.canon = true) : (s.alertFail c x).canon = true := by
  unfold State.alertFail
  split
  · exact hs
  · exact canon_ite hs (initError_canon (canon_ite (uncorrectable_canon hs) (rmwFail_canon hs)))

theorem execDdrAlert_canon {channel : Fin 2} {again : Bool} {accesses : List LineAccess} {s : State} (hs : s.canon = true) : OutcomeCanon
    (execDdrAlert channel again accesses s) := by
  unfold execDdrAlert
  extract_lets c ch s1
  have hs1 : s1.canon = true := setChan_canon hs
  split
  · exact noEvent_canon hs
  · split
    · exact OutcomeCanon.next (setEvt_canon hs1)
    · exact OutcomeCanon.next (settle_canon (canon_fold (setChan_canon hs) (fun _ _ h => alertFail_canon h)))

/-! Sys2Proof/Machine/Domains.lean -/

theorem State.setDom_canon {s : State} {d st : Nat} (hs : s.canon = true) : (s.setDom d st).canon = true :=
  canon_fold hs (fun _ _ h => wr_canon _ _ h)

theorem State.loseChannel_canon {s : State} {c : Nat} (hs : s.canon = true) : (s.loseChannel c).canon = true := by
  have hl : ((s.dsp.inflight.filter (s.needsChan c)).foldl State.failLost s).canon = true := canon_fold hs fun _ _ h => failLost_canon h
  exact canon_fold (setChan_canon (canon_mk (Memory.wf_filter _ (canon_mem hl)) (canon_regs hl))) fun _ _ h => initError_canon h

theorem State.unitOff_canon {s : State} {p : Pool} {u : Nat} (hs : s.canon = true) : (s.unitOff p u).canon = true :=
  canon_ite (canon_with (forgetOwner_canon (endResidency_canon hs))) (wr_canon _ _ (canon_with (forgetOwner_canon (endResidency_canon hs))))

theorem State.unitOn_canon {s : State} {p : Pool} {u : Nat} (hs : s.canon = true) : (s.unitOn p u).canon = true :=
  canon_ite (canon_with (canon_with (wr_canon _ _ (wr_canon _ _ (wr_canon _ _ (clearRegs_canon _ _ hs)))))) (canon_with (wr_canon _ _ (wr_canon _ _
    (wr_canon _ _ (clearRegs_canon _ _ hs)))))

theorem State.exitTest_canon {s : State} {k : Nat} (hs : s.canon = true) : (s.exitTest k).canon = true :=
  canon_ite (canon_ite (trainPort_canon (leaveTest_canon hs)) (canon_ite (trainPort_canon (leaveTest_canon hs)) (canon_ite (leaveTest_canon hs)
    (trainChannel_canon (leaveTest_canon hs))))) hs

theorem State.domainOff_canon {s : State} {d : Nat} (hs : s.canon = true) : (s.domainOff d).canon = true := by
  unfold State.domainOff
  extract_lets s1 p x s2 c
  have hs1 : s1.canon = true := setDom_canon hs
  have hs2 : s2.canon = true := dropCaches_canon hs1
  split
  · exact canon_ite (linkDown_canon hs1) (linkOff_canon hs1)
  · split
    · exact twinDown_canon (leaveTest_canon hs1)
    · exact canon_ite (canon_fold hs1 (fun _ _ h => exitTest_canon h)) (canon_ite (loseChannel_canon (leaveTest_canon hs1)) (canon_ite (canon_with
      hs1) (canon_ite (setCore_canon _ _ hs2) (canon_fold hs1 (fun _ _ h => unitOff_canon h)))))

theorem State.restartPair_canon {s : State} {p : Nat} (hs : s.canon = true) : (s.restartPair p).canon = true := by
  unfold State.restartPair
  extract_lets s1
  have hs1 : s1.canon = true := emptyPairMbx_canon hs
  split
  · exact canon_ite (setEvt_canon (startNormal_canon hs1)) hs1
  · exact hs1

theorem State.domainOn_canon {s : State} {d : Nat} (hs : s.canon = true) : (s.domainOn d).canon = true := by
  unfold State.domainOn
  extract_lets lost s1 p
  have hs1 : s1.canon = true := setDom_canon hs
  split
  · exact trainPort_canon (clearPortRegs_canon hs1)
  · split
    · exact clearRegs_canon _ _ (clearRegs_canon _ _ (clearRegs_canon _ _ hs1))
    · exact canon_ite (canon_ite (powerChannel_canon hs1) hs1) (canon_ite (clearRegs_canon _ _ hs1) (canon_ite (restartPair_canon hs1) (canon_ite
      (clearRegs_canon _ _ hs1) (canon_fold hs1 (fun _ _ h => unitOn_canon h)))))

theorem State.reachState_canon {s : State} {d target : Nat} (hs : s.canon = true) : (s.reachState d target).canon = true :=
  canon_ite (canon_ite hs (domainOff_canon hs)) (canon_ite (domainOn_canon hs) (setDom_canon hs))

theorem execDomainTransitionDone_canon {domain : Nat} {s : State} (hs : s.canon = true) : OutcomeCanon (execDomainTransitionDone domain s) := by
  unfold execDomainTransitionDone
  extract_lets d x s1
  have hs1 : s1.canon = true := canon_with hs
  split
  · exact noEvent_canon hs
  · split
    · exact noEvent_canon hs
    · exact OutcomeCanon.next (canon_ite (setEvt_canon (setPending_canon (pendResult_canon (reachState_canon hs1)))) (reachState_canon hs1))

theorem State.groupLost_canon {s : State} {d : Nat} (hs : s.canon = true) : (s.groupLost d).canon = true := by
  unfold State.groupLost
  extract_lets s1 x s2 p c s3 s4
  have hs1 : s1.canon = true := supersede_canon hs
  have hs2 : s2.canon = true := canon_with hs1
  have hs3 : s3.canon = true := leaveTest_canon hs2
  have hs4 : s4.canon = true := canon_ite (canon_ite (linkDown_canon hs2) (linkOff_canon hs2)) (canon_ite (twinDown_canon (leaveTest_canon hs2))
    (loseChannel_canon (wr_canon _ _ hs3)))
  exact setEvt_canon (setDom_canon hs4)

theorem execDomainSupplyLost_canon {rail : Rail} {s : State} (hs : s.canon = true) : OutcomeCanon (execDomainSupplyLost rail s) := by
  unfold execDomainSupplyLost
  extract_lets l
  split
  · exact noEvent_canon hs
  · exact OutcomeCanon.next (canon_fold hs (fun _ _ h => groupLost_canon h))

theorem execDomainSupplyReturned_canon {rail : Rail} {s : State} (hs : s.canon = true) : OutcomeCanon (execDomainSupplyReturned rail s) := by
  unfold execDomainSupplyReturned
  extract_lets l
  split
  · exact noEvent_canon hs
  · exact OutcomeCanon.next (canon_fold hs (fun _ _ h => setEvt_canon (domainOn_canon h)))

/-! Sys2Proof/Machine/LinkTest.lean -/

theorem State.enterTest_canon {s : State} {k : Nat} (hs : s.canon = true) : (s.enterTest k).canon = true :=
  wr_canon _ _ (wr_canon _ _ (canon_ite (trainPort_canon (linkDown_canon hs)) (canon_ite (trainPort_canon (linkDown_canon hs)) (canon_ite
    (twinDown_canon hs) (loseChannel_canon (wr_canon _ _ hs))))))

theorem State.testBitWrite_canon {s : State} {k : Nat} {test : Bool} (hs : s.canon = true) : (s.testBitWrite k test).canon = true :=
  canon_ite (canon_ite (enterTest_canon (wr_canon _ _ hs)) (wr_canon _ _ hs)) (canon_ite (wr_canon _ _ (exitTest_canon hs)) hs)

theorem State.zeroErrors_canon {s : State} {k : Nat} (hs : s.canon = true) : (s.zeroErrors k).canon = true :=
  canon_fold hs (fun _ _ h => wr_canon _ _ h)

theorem State.runBits_canon {s : State} {k : Nat} {gen chk : Bool} (hs : s.canon = true) : (s.runBits k gen chk).canon = true :=
  canon_ite hs (wr_canon _ _ (canon_ite (zeroErrors_canon (wr_canon _ _ hs)) (stopEye_canon (dropSync_canon (wr_canon _ _ hs)))))

theorem State.ltsCtrl_canon {s : State} {k val : Nat} (hs : s.canon = true) : (s.ltsCtrl k val).canon = true :=
  runBits_canon (testBitWrite_canon (wr_canon _ _ (wr_canon _ _ hs)))

theorem execLtsTestEnter_canon {who : Requester} {link : Fin 5} {s : State} (hs : s.canon = true) : OutcomeCanon (execLtsTestEnter who link s) :=
  OutcomeCanon.next (gated_canon hs (fun _ h => ltsCtrl_canon h))

theorem execLtsTestExit_canon {who : Requester} {link : Fin 5} {s : State} (hs : s.canon = true) : OutcomeCanon (execLtsTestExit who link s) :=
  OutcomeCanon.next (gated_canon hs (fun _ h => ltsCtrl_canon h))

theorem execLtsChkStart_canon {who : Requester} {link : Fin 5} {s : State} (hs : s.canon = true) : OutcomeCanon (execLtsChkStart who link s) :=
  OutcomeCanon.next (gated_canon hs (fun _ h => ltsCtrl_canon h))

theorem execLtsCheckerAligned_canon {lane : Nat} {s : State} (hs : s.canon = true) : OutcomeCanon (execLtsCheckerAligned lane s) := by
  unfold execLtsCheckerAligned
  split
  · exact OutcomeCanon.next (wr_canon _ _ hs)
  · exact noEvent_canon hs

theorem State.bitErrors_canon {s : State} {lane least : Nat} (hs : s.canon = true) : (s.bitErrors lane least).canon = true := by
  unfold State.bitErrors
  split
  rename_i x n s1 e
  have hx : s1.canon = true := canon_of_snd e (freeNat_canon hs)
  exact satAdd_canon _ _ hx

theorem execLtsCheckerSyncLost_canon {lane : Nat} {s : State} (hs : s.canon = true) : OutcomeCanon (execLtsCheckerSyncLost lane s) := by
  unfold execLtsCheckerSyncLost
  split
  · extract_lets s1
    have hs1 : s1.canon = true := bitErrors_canon (wr_canon _ _ hs)
    split
    · split
      rename_i x n s2 e
      have hx : s2.canon = true := canon_of_snd e (freeNat_canon hs1)
      exact OutcomeCanon.next (endEye_canon hx)
    · exact OutcomeCanon.next hs1
  · exact noEvent_canon hs

theorem State.countBitErrors_canon {s : State} (hs : s.canon = true) : s.countBitErrors.canon = true := canon_fold hs (fun _ _ h => bitErrors_canon h)

theorem State.eyeCtrl_canon {s : State} {val : Nat} (hs : s.canon = true) : (s.eyeCtrl val).canon = true := by
  unfold State.eyeCtrl
  extract_lets s1 s2 x
  have hs1 : s1.canon = true := wr_canon _ _ (wr_canon _ _ (wr_canon _ _ (wr_canon _ _ hs)))
  have hs2 : s2.canon = true := wr_canon _ _ (wr_canon _ _ hs1)
  exact canon_ite hs1 (canon_ite (canon_with hs2) (endEye_canon hs1))

theorem execLtsEyeGo_canon {who : Requester} {value : Word32} {s : State} (hs : s.canon = true) : OutcomeCanon (execLtsEyeGo who value s) :=
  OutcomeCanon.next (gated_canon hs (fun _ h => eyeCtrl_canon h))

theorem execLtsEyeDone_canon {result errors : Nat} {s : State} (hs : s.canon = true) : OutcomeCanon (execLtsEyeDone result errors s) := by
  unfold execLtsEyeDone
  split
  · exact OutcomeCanon.next (endEye_canon hs)
  · exact noEvent_canon hs

/-! Sys2Proof/Machine/Bus.lean -/

theorem clearEvts_canon {bank mask : Nat} {l : List Fld} {s : State} (hs : s.canon = true) : (clearEvts bank mask l s).canon = true := by
  induction l generalizing bank mask s with
  | nil =>
    unfold clearEvts
    exact hs
  | cons x l ih =>
    unfold clearEvts
    exact ih (canon_ite (wr_canon _ _ hs) hs)

theorem State.cleared_canon {s : State} {bank off mask : Nat} (hs : s.canon = true) : (s.cleared bank off mask).canon = true :=
  canon_ite (wr_canon _ _ hs) (canon_ite (wr_canon _ _ hs) (canon_ite (setChan_canon hs) (canon_ite (alarmLevel_canon hs) hs)))

theorem State.stillAsserted_canon {s : State} {bank off : Nat} (hs : s.canon = true) : (s.stillAsserted bank off).canon = true := by
  unfold State.stillAsserted
  extract_lets b s1 s2
  have hs1 : s1.canon = true := by
    unfold s1
    split
    · exact sourceMsgs_canon hs
    · exact hs
  have hs2 : s2.canon = true := canon_ite (sourceMsgs_canon hs1) hs1
  split
  · exact hs
  · split
    · exact canon_fold hs (fun _ _ h => sourceMsgs_canon h)
    · split
      · exact vector_canon hs2
      · exact hs2

theorem State.evtWrite_canon {s : State} {bank off val : Nat} (hs : s.canon = true) : (s.evtWrite bank off val).canon = true :=
  stillAsserted_canon (canon_ite (cleared_canon (clearEvts_canon hs)) hs)

theorem State.entryViolation_canon {s : State} {i : Nat} (hs : s.canon = true) : (s.entryViolation i).canon = true := by
  unfold State.entryViolation
  split
  rename_i x n s1 e
  have hx : s1.canon = true := canon_of_snd e (freeNat_canon hs)
  exact violation_canon hx

theorem putFields_canon {bank val : Nat} {locked : Bool} {l : List Fld} {s : State} (hs : s.canon = true) : (putFields bank val locked l s).canon =
    true := by
  induction l generalizing bank val locked s with
  | nil =>
    unfold putFields
    exact hs
  | cons x l ih =>
    unfold putFields
    exact ih (canon_ite (wr_canon _ _ hs) hs)

theorem State.plainWrite_canon {s : State} {bank off val : Nat} (hs : s.canon = true) : (s.plainWrite bank off val).canon = true := putFields_canon hs

theorem State.gpioWrite_canon {s : State} {who : Requester} {f : Fld} {val : Nat} (hs : s.canon = true) : (s.gpioWrite who f val).canon = true :=
  wr_canon _ _ hs

theorem State.userWrite_canon {s : State} {hi : Bool} {val : Nat} (hs : s.canon = true) : (s.userWrite hi val).canon = true := wr_canon _ _ hs

theorem State.cqCfgWrite_canon {s : State} {q val : Nat} (hs : s.canon = true) : (s.cqCfgWrite q val).canon = true :=
  pump_canon (canon_ite (canon_ite (canon_ite hs (wr_canon _ _ hs)) (cqEnable_canon (canon_ite hs (wr_canon _ _ hs)))) (cqDisable_canon (canon_ite hs
    (wr_canon _ _ hs))))

theorem State.entWrite_canon {s : State} {who : Requester} {off val : Nat} (hs : s.canon = true) : (s.entWrite who off val).canon = true :=
  canon_ite (plainWrite_canon hs) (errorWrite_canon hs)

theorem State.wideSel_canon {s : State} {who : Requester} {bank val : Nat} (hs : s.canon = true) : (s.wideSel who bank val).canon = true :=
  canon_with (wr_canon _ _ (wr_canon _ _ hs))

theorem State.migHead_canon {s : State} {p : Port} {n val : Nat} (hs : s.canon = true) : (s.migHead p n val).canon = true :=
  canon_ite (wr_canon _ _ hs) hs

theorem State.evMapWrite_canon {s : State} {p : Port} {n val : Nat} (hs : s.canon = true) : (s.evMapWrite p n val).canon = true :=
  canon_ite (wr_canon _ _ (wr_canon _ _ hs)) hs

theorem State.qzWrite_canon {s : State} {f : Fn} {q x : Nat} {off val : Nat} (hs : s.canon = true) : (s.qzWrite f q x off val).canon = true :=
  canon_ite (qzCtrl_canon hs) (canon_ite (plainWrite_canon hs) hs)

theorem State.mbxWrite_canon {s : State} {who : Requester} {off val : Nat} (hs : s.canon = true) : (s.mbxWrite who off val).canon = true :=
  canon_ite (mbxData_canon hs) (canon_ite (mbxSend_canon hs) (canon_ite (mbxAck_canon hs) hs))

theorem State.portWrite_canon {s : State} {off val : Nat} (hs : s.canon = true) : (s.portWrite off val).canon = true :=
  canon_ite (migHead_canon hs) (canon_ite (evMapWrite_canon hs) hs)

theorem State.lowWrite_canon {s : State} {who : Requester} {bank off val : Nat} (hs : s.canon = true) : (s.lowWrite who bank off val).canon = true :=
  canon_ite (wideSel_canon hs) (canon_ite (domReqWrite_canon hs) (canon_ite (fwReady_canon hs) (canon_ite (ptGo_canon hs) (canon_ite (rdSel_canon hs)
    (canon_ite (canon_ite hs (plainWrite_canon hs)) (canon_ite (expCtrl_canon hs) (canon_ite (capCtrl_canon hs) (canon_ite (entWrite_canon hs)
    (canon_ite (gpioWrite_canon hs) (canon_ite (gpioWrite_canon hs) (canon_ite (nqBind_canon hs) (canon_ite (mbxWrite_canon hs) (canon_ite
    (mbxWake_canon hs) (canon_ite (cqCfgWrite_canon hs) (canon_ite (cqRtail_canon hs) (plainWrite_canon hs))))))))))))))))

theorem State.valueWrite_canon {s : State} {who : Requester} {bank off val : Nat} (hs : s.canon = true) : (s.valueWrite who bank off val).canon =
    true := by
  unfold State.valueWrite
  split
  · exact qzWrite_canon hs
  · exact doorbell_canon hs
  · exact canon_ite (lowWrite_canon hs) (canon_ite (portWrite_canon hs) (canon_ite (ltsCtrl_canon hs) (canon_ite (userWrite_canon hs) (canon_ite
    (eyeCtrl_canon hs) (canon_ite (nstart_canon hs) (plainWrite_canon hs))))))

theorem State.bitEffect_canon {s : State} {who : Requester} {bank off : Nat} {bit val : Nat} (hs : s.canon = true) : (s.bitEffect who bank off bit
    val).canon = true := by
  unfold State.bitEffect
  split
  · exact hs
  · split
    · exact hs
    · split
      · exact valueWrite_canon hs
      · exact canon_ite hs (valueWrite_canon hs)
      · exact guardFail_canon hs
      · exact hs

theorem State.bitWrite_canon {s : State} {who : Requester} {off bit val : Nat} (hs : s.canon = true) : (s.bitWrite who off bit val).canon = true := by
  unfold State.bitWrite
  split
  · exact hs
  · split
    · rename_i x s1 e
      exact parked_canon hs _ e
    · rename_i x e
      extract_lets s1
      have hs1 : s1.canon = true := interleaveAt_canon hs
      split
      · exact refuseWrite_canon hs1
      · exact canon_ite (refuseWrite_canon hs1) (canon_ite (bitEffect_canon (wakeWord_canon hs1)) (errorWrite_canon hs1))

theorem State.guardedEffect_canon {off v : Nat} {s : State} (hs : s.canon = true) : (State.guardedEffect off v s).canon = true := by
  unfold State.guardedEffect
  split
  · exact capWrite_canon hs
  · exact canon_ite (canon_ite (warmReset_canon hs) hs) (canon_ite (lcTarget_canon hs) (canon_ite (flagClr_canon hs) (canon_ite (resume_canon hs)
    (canon_ite (clearWrite_canon hs) (canon_ite (pairWrite_canon hs) (canon_ite (nreset_canon hs) hs))))))

theorem State.regEffect_canon {s : State} {who : Requester} {off val : Nat} {act : Nat → State → State} (hs : s.canon = true) (hact : ∀ (i : Nat) (t
    : State), t.canon = true → (act i t).canon = true) : (s.regEffect who off val act).canon = true := by
  unfold State.regEffect
  extract_lets bank
  split
  · exact guardValue_canon hs
  · split
    · refine guardComplement_canon hs ?_
      intro i1 t1 h
      split
      · exact hact _ _ h
      · exact guardedEffect_canon h
    · exact canon_ite hs (canon_ite (evtWrite_canon hs) (valueWrite_canon hs))

theorem State.writeAt_canon {s : State} {act : Nat → State → State} {who : Requester} {a n val : Nat} (hs : s.canon = true) (hact : ∀ (i : Nat) (t :
    State), t.canon = true → (act i t).canon = true) : (s.writeAt act who a n val).canon = true := by
  unfold State.writeAt
  split
  · exact canon_ite (bitWrite_canon hs) (gated_canon hs (fun _ h => regEffect_canon h hact))
  · split
    · exact hs
    · split
      · rename_i x s1 e
        exact parked_canon hs _ e
      · rename_i x e
        extract_lets s1
        have hs1 : s1.canon = true := interleaveAt_canon hs
        split
        · exact refuseWrite_canon hs1
        · exact errorWrite_canon hs1

theorem State.noteRead_canon {s : State} {who : Requester} {a src e : Nat} (hs : s.canon = true) : (s.noteRead who a src e).canon = true := by
  unfold State.noteRead
  extract_lets s1
  have hs1 : s1.canon = true := violation_canon hs
  split
  · rename_i who w
    exact debugViol_canon hs1
  · exact hs1

theorem State.readWord_canon {s : State} {who : Requester} {a : Nat} (hs : s.canon = true) : (s.readWord who a).2.canon = true := by
  unfold State.readWord
  split
  · exact noteRead_canon hs
  · split
    · exact wakeWord_canon hs
    · exact hs

theorem State.readAt_canon {s : State} {who : Requester} {a n : Nat} (hs : s.canon = true) : (s.readAt who a n).2.canon = true := by
  unfold State.readAt
  extract_lets x y
  split
  · exact hs
  · split
    · rename_i x1 snd e
      exact canon_of_snd e (readWord_canon hs)
    · rename_i x1 p s1 e
      have hx : s1.canon = true := canon_of_snd e (readWord_canon hs)
      split
      · exact hx
      · split
        · exact hx
        · split
          · rename_i x2 p1 s2 e1
            exact canon_of_snd e1 (readWord_canon hx)
          · rename_i x2 snd e1
            exact canon_of_snd e1 (readWord_canon hx)

theorem State.answerRead_canon {s : State} {who : Requester} {a n : Nat} (hs : s.canon = true) : (s.answerRead who a n).canon = true := by
  unfold State.answerRead
  split
  · rename_i x p s1 e
    have hx : s1.canon = true := canon_of_snd e (readAt_canon hs)
    exact emit_canon _ hx
  · rename_i x snd e
    have hx : snd.canon = true := canon_of_snd e (readAt_canon hs)
    exact errorRead_canon hx

theorem State.msixWrite_canon {s : State} {f : Fn} {off val : Nat} (hs : s.canon = true) : (s.msixWrite f off val).canon = true :=
  canon_ite hs (canon_ite (setFnSt_canon hs) (canon_ite (setFnSt_canon (setFnSt_canon hs)) (canon_ite (setFnSt_canon hs) (unmask_canon (setFnSt_canon
    hs)))))

theorem State.bar4Write_canon {s : State} {who : Requester} {off val : Nat} {whole : Bool} (hs : s.canon = true) : (s.bar4Write who off val
    whole).canon = true := by
  unfold State.bar4Write
  split
  · exact canon_ite hs (canon_ite (holdL1_canon hs) (canon_ite (msixWrite_canon (interleaveAt_canon hs)) (interleaveAt_canon hs)))
  · exact hs

theorem State.bar4Read_canon {s : State} {who : Requester} {off n : Nat} (hs : s.canon = true) : (s.bar4Read who off n).canon = true := by
  unfold State.bar4Read
  split
  · exact canon_ite (holdL1_canon hs) (emit_canon _ hs)
  · exact hs

theorem State.writeWord_canon {s : State} {act : Nat → State → State} {who : Requester} {at' : Lands} {n val : Nat} (hs : s.canon = true) (hact : ∀
    (i : Nat) (t : State), t.canon = true → (act i t).canon = true) : (s.writeWord act who at' n val).canon = true := by
  unfold State.writeWord
  split
  · exact writeAt_canon hs hact
  · exact bar4Write_canon hs
  · exact bar4Write_canon hs

theorem putBar4_canon {who : Requester} {n : Nat} {l : List Word32} {s : State} (hs : s.canon = true) : (putBar4 who n l s).canon = true := by
  induction l generalizing who n s with
  | nil =>
    unfold putBar4
    exact hs
  | cons x l ih =>
    unfold putBar4
    exact ih (bar4Write_canon hs)

theorem State.unanswered_canon {s : State} {who : Requester} (hs : s.canon = true) : (s.unanswered who).canon = true := by
  unfold State.unanswered
  split
  · exact canon_ite (emit_canon _ hs) hs
  · exact hs

theorem State.readFrom_canon {s : State} {who : Requester} {at' : Lands} {n : Nat} (hs : s.canon = true) : (s.readFrom who at' n).canon = true := by
  unfold State.readFrom
  split
  · exact unanswered_canon hs
  · split
    · split
      · rename_i x s1 e
        exact parked_canon hs _ e
      · rename_i x e
        exact answerRead_canon hs
    · exact bar4Read_canon hs
    · exact bar4Read_canon hs

theorem State.request_canon {s : State} {act : Nat → State → State} {who : Requester} {addr : Nat} {r : RegRequest} {en : BitVec 4} (hs : s.canon =
    true) (hact : ∀ (i : Nat) (t : State), t.canon = true → (act i t).canon = true) : (s.request act who addr r en).canon = true := by
  cases r with
  | write v => exact writeWord_canon hs hact
  | write2 lo hi =>
    cases who with
    | host _ _ => exact writeWord_canon (writeWord_canon hs hact) hact
    | _ => exact writeWord_canon hs hact
  | writeLong ws =>
    simp only [State.request]
    split
    · exact putBar4_canon hs
    · exact writeWord_canon hs hact
  | read n => exact readFrom_canon hs

theorem State.debugRefused_canon {s : State} {w : World} {k : AccKind} {a src e : Nat} (hs : s.canon = true) : (s.debugRefused w k a src e).canon =
    true := by
  unfold State.debugRefused
  extract_lets s1
  have hs1 : s1.canon = true := debugViol_canon (violation_canon hs)
  split
  · rename_i k
    exact errorWrite_canon hs1
  · exact errorRead_canon hs1

theorem State.debugMem_canon {s : State} {w : World} {a len : Nat} {write : Option (List Byte)} (hs : s.canon = true) : (s.debugMem w a len
    write).canon = true := by
  unfold State.debugMem
  extract_lets kind s1
  have hs1 : s1.canon = true := by
    unfold s1
    split
    · exact debugViol_canon hs
    · exact hs
  split
  · exact debugRefused_canon hs
  · split
    · rename_i x a1
      split
      rename_i x1 ok s2 e
      have hx : s2.canon = true := canon_of_snd e (writeMem_canon hs1)
      exact canon_ite hx (errorWrite_canon hx)
    · rename_i x
      split
      rename_i x1 d' ok s2 e
      have hx : s2.canon = true := canon_of_thd e (readMem_canon hs1)
      exact emit_canon _ (canon_ite hx (errorWrite_canon hx))

theorem State.releaseBus_canon {s : State} {who : Requester} {a : HeldAccess} {act : Nat → State → State} (hs : s.canon = true) (hact : ∀ (i : Nat)
    (t : State), t.canon = true → (act i t).canon = true) : (s.releaseBus who a act).canon = true := by
  unfold State.releaseBus
  extract_lets open' t
  split
  · exact debugRefused_canon hs
  · split
    · exact writeWord_canon hs hact
    · exact readFrom_canon hs

theorem State.releaseMem_canon {s : State} {who : Requester} {a : HeldAccess} (hs : s.canon = true) : (s.releaseMem who a).canon = true := by
  unfold State.releaseMem
  split
  · exact debugMem_canon hs
  · exact debugMem_canon hs
  · exact canon_ite hs (storeMem_canon hs)
  · exact hs

theorem State.releaseAccess_canon {s : State} {a : HeldAccess} {act : Nat → State → State} (hs : s.canon = true) (hact : ∀ (i : Nat) (t : State),
    t.canon = true → (act i t).canon = true) : (s.releaseAccess a act).canon = true := by
  unfold State.releaseAccess
  split
  · exact releaseBus_canon hs hact
  · exact releaseMem_canon hs
  · exact advance_canon hs
  · exact readReturns_canon hs
  · exact dmaOut_canon hs
  · exact lineAccess_canon hs

theorem State.updateEnd_canon {s : State} (hs : s.canon = true) : s.updateEnd.canon = true :=
  pump_canon (canon_fold (canon_with (setEvt_canon (canon_fold (wr_canon _ _ hs) (fun _ _ h => entryViolation_canon h)))) (fun _ _ h =>
    releaseAccess_canon h (fun _ _ h1 => h1)))

theorem State.actCtrl_canon {v : Nat} {s : State} (hs : s.canon = true) : (State.actCtrl v s).canon = true :=
  canon_ite (canon_ite (canon_ite (wr_canon _ _ hs) hs) (wr_canon _ _ (canon_ite (wr_canon _ _ hs) hs))) (canon_ite (updateEnd_canon (canon_ite
    (wr_canon _ _ hs) hs)) (canon_ite (wr_canon _ _ hs) hs))

theorem State.writeReg_canon {s : State} {who : Requester} {off val : Nat} (hs : s.canon = true) : (s.writeReg who off val).canon = true :=
  gated_canon hs (fun _ h => regEffect_canon h (fun _ _ h1 => actCtrl_canon h1))

theorem State.storeReg_canon {s : State} {who : Requester} {a n val : Nat} (hs : s.canon = true) : (s.storeReg who a n val).canon = true :=
  writeAt_canon hs (fun _ _ h => actCtrl_canon h)

theorem execRegisterWrite_canon {who : Requester} {addr : Nat} {value : RegRequest} {enables : BitVec 4} {s : State} (hs : s.canon = true) :
    OutcomeCanon (execRegisterWrite who addr value enables s) := by
  unfold execRegisterWrite
  split
  · split
    · exact noEvent_canon hs
    · split
      · exact OutcomeCanon.next (debugRefused_canon hs)
      · exact OutcomeCanon.next (request_canon hs (fun _ _ h => actCtrl_canon h))
  · exact OutcomeCanon.next (request_canon hs (fun _ _ h => actCtrl_canon h))

theorem execEvtClearWrite_canon {who : Requester} {off : Nat} {value : Word32} {s : State} (hs : s.canon = true) : OutcomeCanon (execEvtClearWrite
    who off value s) :=
  OutcomeCanon.next (writeReg_canon hs)

theorem execBitAliasWrite_canon {who : Requester} {off : Nat} {bit : Fin 32} {value : Word32} {s : State} (hs : s.canon = true) : OutcomeCanon
    (execBitAliasWrite who off bit value s) :=
  OutcomeCanon.next (storeReg_canon hs)

theorem execGuardValueWrite_canon {who : Requester} {off : Nat} {value : Word32} {s : State} (hs : s.canon = true) : OutcomeCanon
    (execGuardValueWrite who off value s) := by
  unfold execGuardValueWrite
  split
  · exact OutcomeCanon.next (writeGuardValue_canon hs)
  · exact OutcomeCanon.next (writeReg_canon hs)

theorem execGuardTimeout_canon {off : Nat} {s : State} (hs : s.canon = true) : OutcomeCanon (execGuardTimeout off s) := by
  unfold execGuardTimeout
  split
  · exact OutcomeCanon.next (guardFail_canon (dropGuard_canon hs))
  · exact noEvent_canon hs

theorem execWideSelWrite_canon {who : Requester} {value : Word32} {s : State} (hs : s.canon = true) : OutcomeCanon (execWideSelWrite who value s) :=
  OutcomeCanon.next (gated_canon hs (fun _ h => wideSel_canon h))

theorem putWide_canon {bank v n : Nat} {s : State} (hs : s.canon = true) : (putWide bank v n s).canon = true := by
  induction n generalizing bank v s with
  | zero =>
    unfold putWide
    exact hs
  | succ n ih =>
    unfold putWide
    exact wr_canon _ _ (ih hs)

theorem execWideSnapshotDone_canon {bank : Fin 4} {s : State} (hs : s.canon = true) : OutcomeCanon (execWideSnapshotDone bank s) := by
  unfold execWideSnapshotDone
  extract_lets b sel
  split
  · exact noEvent_canon hs
  · split
    · exact noEvent_canon hs
    · exact OutcomeCanon.next (canon_with (wr_canon _ _ (wr_canon _ _ (wr_canon _ _ (putWide_canon hs)))))

theorem execActUpdateBegin_canon {who : Requester} {complement : Word32} {s : State} (hs : s.canon = true) : OutcomeCanon (execActUpdateBegin who
    complement s) :=
  OutcomeCanon.next (writeGuarded_canon hs (fun _ _ h => actCtrl_canon h))

theorem execActUpdateEnd_canon {who : Requester} {complement : Word32} {s : State} (hs : s.canon = true) : OutcomeCanon (execActUpdateEnd who
    complement s) :=
  OutcomeCanon.next (writeGuarded_canon hs (fun _ _ h => actCtrl_canon h))

theorem execActLock_canon {who : Requester} {complement : Word32} {s : State} (hs : s.canon = true) : OutcomeCanon (execActLock who complement s) :=
  OutcomeCanon.next (writeGuarded_canon hs (fun _ _ h => actCtrl_canon h))

theorem State.heldError_canon {s : State} {who : Requester} {k : AccKind} {a : Nat} (hs : s.canon = true) : (s.heldError who k a).canon = true := by
  unfold State.heldError
  split
  · exact errorWrite_canon hs
  · exact addrFault_canon hs
  · exact fault_canon hs
  · exact errorRead_canon hs

theorem State.returnLost_canon {s : State} {q : Nat} (hs : s.canon = true) : (s.returnLost q).canon = true :=
  readReturns_canon (setEvt_canon (wr_canon _ _ hs))

theorem State.heldFails_canon {s : State} {a : HeldAccess} (hs : s.canon = true) : (s.heldFails a).canon = true := by
  unfold State.heldFails
  split
  · exact heldError_canon hs
  · exact heldError_canon hs
  · split
    · exact dmaError_canon hs
    · exact hs
  · exact returnLost_canon hs
  · exact hs
  · exact initError_canon hs

theorem State.holdViolation_canon {s : State} {a : HeldAccess} (hs : s.canon = true) : (s.holdViolation a).canon = true :=
  setEvt_canon (violation_canon hs)

theorem execActHoldTimeout_canon {index : Nat} {s : State} (hs : s.canon = true) : OutcomeCanon (execActHoldTimeout index s) := by
  unfold execActHoldTimeout
  split
  · exact OutcomeCanon.next (pump_canon (heldFails_canon (holdViolation_canon (canon_with hs))))
  · exact noEvent_canon hs

theorem execL1Exit_canon {port : Port} {s : State} (hs : s.canon = true) : OutcomeCanon (execL1Exit port s) := by
  unfold execL1Exit
  split
  · exact OutcomeCanon.next (canon_fold (setPort_canon (wr_canon _ _ hs)) (fun _ _ h => releaseAccess_canon h (fun _ _ h1 => actCtrl_canon h1)))
  · exact noEvent_canon hs

/-! Sys2Proof/Machine/SysRegs.lean -/

theorem State.sysWriteAt_canon {s : State} {p lvl n : Nat} {v : Word64} (hs : s.canon = true) : ∀ t ∈ s.sysWriteAt p lvl n v, t.canon = true := by
  have hc (d : Core) : ∀ t ∈ some (s.setCore p d), t.canon = true := forall_mem_some (setCore_canon p d hs)
  unfold State.sysWriteAt
  exact forall_mem_ite forall_mem_none (forall_mem_ite (forall_mem_ite forall_mem_none (hc _)) (forall_mem_ite (hc _) (forall_mem_ite (hc _)
    (forall_mem_ite (hc _) (forall_mem_ite (hc _) (forall_mem_ite (hc _) (forall_mem_ite (hc _) (forall_mem_ite (hc _) (forall_mem_ite (hc _)
    (forall_mem_ite (hc _) (forall_mem_ite (hc _) (forall_mem_ite (hc _) (forall_mem_ite (hc _) (forall_mem_ite (forall_mem_some (wr_canon _ _ hs))
    forall_mem_none))))))))))))))

theorem State.sysWrite_canon {s : State} {p n : Nat} {v : Word64} (hs : s.canon = true) : ∀ t ∈ s.sysWrite p n v, t.canon = true :=
  sysWriteAt_canon hs

/-! Sys2Proof/Machine/Debug.lean -/

theorem State.debugDo_canon {s : State} {w : World} {a len : Nat} {write : Option (List Byte)} (hs : s.canon = true) : (s.debugDo w a len
    write).canon = true := by
  unfold State.debugDo
  extract_lets kind
  split
  · exact debugRefused_canon hs
  · split
    · split
      · exact storeReg_canon hs
      · exact readFrom_canon hs
    · exact canon_ite (hold_canon hs) (debugMem_canon hs)

theorem State.debugCoreRefused_canon {s : State} {w : World} {write : Bool} (hs : s.canon = true) : (s.debugCoreRefused w write).canon = true := by
  unfold State.debugCoreRefused
  split
  rename_i x n s1 e
  have hx : s1.canon = true := canon_of_snd e (freeNat_canon hs)
  exact debugRefused_canon hx

theorem State.debugCore_canon {s : State} {w : World} {p : Nat} {write : Option (List Byte)} {get : State → Option Word64} {put : State → Word64 →
    Option State} (hs : s.canon = true) (hput : ∀ (t : State) (v : Word64), t.canon = true → ∀ u ∈ put t v, u.canon = true) : (s.debugCore w p write
    get put).canon = true := by
  unfold State.debugCore
  split
  · exact debugCoreRefused_canon hs
  · split
    · split
      · rename_i x s1 e
        have hx : s1.canon = true := hput _ _ hs _ e
        exact hput _ _ hs _ e
      · rename_i x e
        exact errorWrite_canon hs
    · split
      · exact emit_canon _ hs
      · exact errorRead_canon hs

theorem State.debugSample_canon {s : State} {w : World} {p : Nat} (hs : s.canon = true) : (s.debugSample w p).canon = true :=
  canon_ite (debugCoreRefused_canon hs) (emit_canon _ (emit_canon _ (emit_canon _ hs)))

theorem execDebugAccess_canon {world : World} {target : DebugTarget} {write : Option (List Byte)} {s : State} (hs : s.canon = true) : OutcomeCanon
    (execDebugAccess world target write s) := by
  unfold execDebugAccess
  split
  · exact noEvent_canon hs
  · cases target with
    | memory addr len =>
      dsimp only
      split
      · exact .next (settle_canon (debugDo_canon hs))
      · exact noEvent_canon hs
    | general p g => exact .next (debugCore_canon hs fun _ _ h => forall_mem_some (setGr_canon h))
    | system p n => exact .next (debugCore_canon hs fun _ _ h => sysWriteAt_canon h)
    | sample p =>
      dsimp only
      split
      · exact noEvent_canon hs
      · exact .next (debugSample_canon hs)

/-! Sys2Proof/Machine/Hcc.lean -/

theorem State.pcNext_canon {s : State} {p : Nat} (hs : s.canon = true) : (s.pcNext p).canon = true := setPc_canon hs

theorem State.endInstr_canon {s : State} {p : Nat} {level : Level} {retired : Bool} (hs : s.canon = true) : (s.endInstr p level retired).canon = true
    :=
  settle_canon (boundary_canon (setCore_canon _ _ (canon_ite (pmuAt_canon hs) hs)))

theorem State.runInstr_canon {s : State} {r : Run} {f : State → Nat → Bool × State} (hs : s.canon = true) (hf : ∀ (t : State) (i : Nat), t.canon =
    true → (f t i).2.canon = true) : OutcomeCanon (s.runInstr r f) := by
  unfold State.runInstr
  extract_lets p level
  split
  · exact noEvent_canon hs
  · split
    · rename_i x s1 e
      have hx : s1.canon = true := boundaryTakes_canon hs _ e
      exact OutcomeCanon.next (endInstr_canon hx)
    · rename_i x e
      split
      · exact OutcomeCanon.next (holdAccess_canon hs)
      · split
        · exact OutcomeCanon.next (lockstepFail_canon hs)
        · split
          · rename_i x1 s1 e1
            have hx : s1.canon = true := canon_of_snd e1 (fetchAt_canon hs)
            exact OutcomeCanon.next (endInstr_canon (addrFault_canon hx))
          · rename_i x1 s1 e1
            have hx : s1.canon = true := canon_of_snd e1 (fetchAt_canon hs)
            split
            rename_i x2 ok s2 e2
            have hx1 : s2.canon = true := canon_of_snd e2 (hf _ _ hx)
            exact OutcomeCanon.next (endInstr_canon hx1)

theorem State.alu_canon {s : State} {r : Run} {d : Reg} {f : State → Nat → Word64} (hs : s.canon = true) : OutcomeCanon (s.alu r d f) :=
  runInstr_canon hs (fun _ _ h => pcNext_canon (setGr_canon h))

theorem State.divide_canon {s : State} {r : Run} {d a b : Reg} {bad : Word64 → Word64 → Bool} {f : Word64 → Word64 → Word64} (hs : s.canon = true) :
    OutcomeCanon (s.divide r d a b bad f) := by
  unfold State.divide
  refine runInstr_canon hs ?_
  intro t1 i1 h
  extract_lets x y
  exact canon_ite_snd (fault_canon h) (pcNext_canon (setGr_canon h))

theorem State.deviceLoad_canon {s : State} {p a n : Nat} (hs : s.canon = true) : (s.deviceLoad p a n).2.canon = true := by
  unfold State.deviceLoad
  split
  · rename_i x p1 s1 e
    exact canon_of_snd e (readAt_canon hs)
  · rename_i x snd e
    exact canon_of_snd e (readAt_canon hs)

theorem State.loadBytes_canon {s : State} {p a n : Nat} (hs : s.canon = true) : (s.loadBytes p a n).2.canon = true := by
  unfold State.loadBytes
  split
  · exact cachedLoad_canon hs
  · exact uncachedLoad_canon (pmuCount_canon hs)
  · exact deviceLoad_canon (pmuCount_canon hs)

theorem State.load_canon {s : State} {p : Nat} {d : Reg} {a : Word64} {n : Nat} {ext : Nat → Word64} (hs : s.canon = true) : (s.load p d a n
    ext).2.canon = true := by
  unfold State.load
  extract_lets x
  split
  · exact fault_canon hs
  · split
    · exact holdAccess_canon hs
    · split
      · rename_i x1 e s1 e1
        have hx : s1.canon = true := canon_of_snd e1 (loadBytes_canon (pmuCount_canon hs))
        exact pcNext_canon (setGr_canon hx)
      · rename_i x1 s1 e
        have hx : s1.canon = true := canon_of_snd e (loadBytes_canon (pmuCount_canon hs))
        exact fault_canon hx

theorem State.store_canon {s : State} {p : Nat} {a : Word64} {l : List Byte} (hs : s.canon = true) : (s.store p a l).2.canon = true := by
  unfold State.store
  extract_lets x s1
  have hs1 : s1.canon = true := pmuCount_canon hs
  split
  · exact fault_canon hs
  · split
    · exact pcNext_canon (storeReg_canon (pmuCount_canon hs1))
    · extract_lets s2
      have hs2 : s2.canon = true := interleaveAt_canon (canon_ite (pmuCount_canon hs1) hs1)
      exact canon_ite_snd (pcNext_canon (holdAccess_canon hs2)) (pcNext_canon (storeMem_canon hs2))

theorem State.loadReserve_canon {s : State} {p : Nat} {d : Reg} {a : Word64} (hs : s.canon = true) : (s.loadReserve p d a).2.canon = true := by
  unfold State.loadReserve
  extract_lets x
  split
  · exact fault_canon hs
  · split
    · exact fault_canon hs
    · split
      · exact holdAccess_canon hs
      · split
        · rename_i r s1 e
          have hx : s1.canon = true := canon_of_snd e (cachedLoad_canon (pmuCount_canon hs))
          exact fault_canon hx
        · rename_i r d1 s1 e
          have hx : s1.canon = true := canon_of_snd e (cachedLoad_canon (pmuCount_canon hs))
          extract_lets x1 s2
          have hs2 : s2.canon = true := setCore_canon _ _ hx
          exact pcNext_canon (setGr_canon hs2)

theorem State.storeCond_canon {s : State} {p : Nat} {d : Reg} {a b : Word64} (hs : s.canon = true) : (s.storeCond p d a b).2.canon = true := by
  unfold State.storeCond
  extract_lets x x1 s1 s2 x2 s3
  have hs1 : s1.canon = true := setCore_canon _ _ (pmuCount_canon hs)
  have hs2 : s2.canon = true := storeMem_canon (interleaveAt_canon hs1)
  have hs3 : s3.canon = true := setCore_canon _ _ hs
  exact canon_ite_snd (fault_canon hs) (canon_ite_snd (fault_canon hs) (canon_ite_snd (canon_ite_snd (holdAccess_canon hs) (pcNext_canon (setGr_canon
    hs2))) (pcNext_canon (setGr_canon hs3))))

theorem State.amo_canon {s : State} {p : Nat} {k : Amo} {d : Reg} {a b : Word64} (hs : s.canon = true) : (s.amo p k d a b).2.canon = true := by
  unfold State.amo
  extract_lets x
  split
  · exact fault_canon hs
  · split
    · exact fault_canon hs
    · split
      · exact holdAccess_canon hs
      · split
        · rename_i x1 s1 e
          have hx : s1.canon = true := canon_of_snd e (lineToWrite_canon (pmuCount_canon (pmuCount_canon hs)))
          exact fault_canon hx
        · rename_i x1 line s1 e
          have hx : s1.canon = true := canon_of_snd e (lineToWrite_canon (pmuCount_canon (pmuCount_canon hs)))
          extract_lets old s2
          have hs2 : s2.canon = true := storeHit_canon (interleaveAt_canon hx)
          exact pcNext_canon (setGr_canon hs2)

theorem State.branch_canon {s : State} {p : Nat} {d a : Reg} {imm : BitVec 16} {cond : Word64 → Word64 → Bool} (hs : s.canon = true) : (s.branch p d
    a imm cond).2.canon = true :=
  canon_ite_snd (setPc_canon (pmuCount_canon hs)) (pcNext_canon hs)

theorem State.jumpLink_canon {s : State} {p : Nat} {d : Reg} {t : Word64} (hs : s.canon = true) : (s.jumpLink p d t).2.canon = true :=
  setPc_canon (setGr_canon (pmuCount_canon hs))

theorem State.cacheOp_canon {s : State} {p a : Nat} {f : State → CacheLine → State} (hs : s.canon = true) (hf : ∀ (t : State) (x : CacheLine),
    t.canon = true → (f t x).canon = true) : (s.cacheOp p a f).2.canon = true := by
  unfold State.cacheOp
  split
  · exact pcNext_canon hs
  · exact canon_ite_snd (holdAccess_canon hs) (pcNext_canon (hf _ _ hs))

theorem execAdd_canon {r : Run} {d a b : Reg} {s : State} (hs : s.canon = true) : OutcomeCanon (execAdd r d a b s) := alu_canon hs

theorem execSub_canon {r : Run} {d a b : Reg} {s : State} (hs : s.canon = true) : OutcomeCanon (execSub r d a b s) := alu_canon hs

theorem execAnd_canon {r : Run} {d a b : Reg} {s : State} (hs : s.canon = true) : OutcomeCanon (execAnd r d a b s) := alu_canon hs

theorem execOr_canon {r : Run} {d a b : Reg} {s : State} (hs : s.canon = true) : OutcomeCanon (execOr r d a b s) := alu_canon hs

theorem execXor_canon {r : Run} {d a b : Reg} {s : State} (hs : s.canon = true) : OutcomeCanon (execXor r d a b s) := alu_canon hs

theorem execAndn_canon {r : Run} {d a b : Reg} {s : State} (hs : s.canon = true) : OutcomeCanon (execAndn r d a b s) := alu_canon hs

theorem execSll_canon {r : Run} {d a b : Reg} {s : State} (hs : s.canon = true) : OutcomeCanon (execSll r d a b s) := alu_canon hs

theorem execSrl_canon {r : Run} {d a b : Reg} {s : State} (hs : s.canon = true) : OutcomeCanon (execSrl r d a b s) := alu_canon hs

theorem execSra_canon {r : Run} {d a b : Reg} {s : State} (hs : s.canon = true) : OutcomeCanon (execSra r d a b s) := alu_canon hs

theorem execSlt_canon {r : Run} {d a b : Reg} {s : State} (hs : s.canon = true) : OutcomeCanon (execSlt r d a b s) := alu_canon hs

theorem execSltu_canon {r : Run} {d a b : Reg} {s : State} (hs : s.canon = true) : OutcomeCanon (execSltu r d a b s) := alu_canon hs

theorem execMul_canon {r : Run} {d a b : Reg} {s : State} (hs : s.canon = true) : OutcomeCanon (execMul r d a b s) := alu_canon hs

theorem execMulh_canon {r : Run} {d a b : Reg} {s : State} (hs : s.canon = true) : OutcomeCanon (execMulh r d a b s) := alu_canon hs

theorem execMulhu_canon {r : Run} {d a b : Reg} {s : State} (hs : s.canon = true) : OutcomeCanon (execMulhu r d a b s) := alu_canon hs

theorem execDiv_canon {r : Run} {d a b : Reg} {s : State} (hs : s.canon = true) : OutcomeCanon (execDiv r d a b s) := divide_canon hs

theorem execDivu_canon {r : Run} {d a b : Reg} {s : State} (hs : s.canon = true) : OutcomeCanon (execDivu r d a b s) := divide_canon hs

theorem execRem_canon {r : Run} {d a b : Reg} {s : State} (hs : s.canon = true) : OutcomeCanon (execRem r d a b s) := divide_canon hs

theorem execRemu_canon {r : Run} {d a b : Reg} {s : State} (hs : s.canon = true) : OutcomeCanon (execRemu r d a b s) := divide_canon hs

theorem execAddi_canon {r : Run} {d a : Reg} {imm : BitVec 16} {s : State} (hs : s.canon = true) : OutcomeCanon (execAddi r d a imm s) := alu_canon hs

theorem execAndi_canon {r : Run} {d a : Reg} {imm : BitVec 16} {s : State} (hs : s.canon = true) : OutcomeCanon (execAndi r d a imm s) := alu_canon hs

theorem execOri_canon {r : Run} {d a : Reg} {imm : BitVec 16} {s : State} (hs : s.canon = true) : OutcomeCanon (execOri r d a imm s) := alu_canon hs

theorem execXori_canon {r : Run} {d a : Reg} {imm : BitVec 16} {s : State} (hs : s.canon = true) : OutcomeCanon (execXori r d a imm s) := alu_canon hs

theorem execSlti_canon {r : Run} {d a : Reg} {imm : BitVec 16} {s : State} (hs : s.canon = true) : OutcomeCanon (execSlti r d a imm s) := alu_canon hs

theorem execSltiu_canon {r : Run} {d a : Reg} {imm : BitVec 16} {s : State} (hs : s.canon = true) : OutcomeCanon (execSltiu r d a imm s) :=
  alu_canon hs

theorem execOrhi_canon {r : Run} {d a : Reg} {imm : BitVec 16} {s : State} (hs : s.canon = true) : OutcomeCanon (execOrhi r d a imm s) := alu_canon hs

theorem execOrti_canon {r : Run} {d a : Reg} {imm : BitVec 16} {s : State} (hs : s.canon = true) : OutcomeCanon (execOrti r d a imm s) := alu_canon hs

theorem execLui_canon {r : Run} {d : Reg} {imm : BitVec 16} {s : State} (hs : s.canon = true) : OutcomeCanon (execLui r d imm s) := alu_canon hs

theorem execShi_canon {r : Run} {d a : Reg} {kind : Shift} {amount : BitVec 6} {s : State} (hs : s.canon = true) : OutcomeCanon (execShi r d a kind
    amount s) :=
  alu_canon hs

theorem execLd_canon {r : Run} {d a : Reg} {imm : BitVec 16} {s : State} (hs : s.canon = true) : OutcomeCanon (execLd r d a imm s) :=
  runInstr_canon hs (fun _ _ h => load_canon h)

theorem execLw_canon {r : Run} {d a : Reg} {imm : BitVec 16} {s : State} (hs : s.canon = true) : OutcomeCanon (execLw r d a imm s) :=
  runInstr_canon hs (fun _ _ h => load_canon h)

theorem execLwu_canon {r : Run} {d a : Reg} {imm : BitVec 16} {s : State} (hs : s.canon = true) : OutcomeCanon (execLwu r d a imm s) :=
  runInstr_canon hs (fun _ _ h => load_canon h)

theorem execLh_canon {r : Run} {d a : Reg} {imm : BitVec 16} {s : State} (hs : s.canon = true) : OutcomeCanon (execLh r d a imm s) :=
  runInstr_canon hs (fun _ _ h => load_canon h)

theorem execLhu_canon {r : Run} {d a : Reg} {imm : BitVec 16} {s : State} (hs : s.canon = true) : OutcomeCanon (execLhu r d a imm s) :=
  runInstr_canon hs (fun _ _ h => load_canon h)

theorem execLb_canon {r : Run} {d a : Reg} {imm : BitVec 16} {s : State} (hs : s.canon = true) : OutcomeCanon (execLb r d a imm s) :=
  runInstr_canon hs (fun _ _ h => load_canon h)

theorem execLbu_canon {r : Run} {d a : Reg} {imm : BitVec 16} {s : State} (hs : s.canon = true) : OutcomeCanon (execLbu r d a imm s) :=
  runInstr_canon hs (fun _ _ h => load_canon h)

theorem execSd_canon {r : Run} {d a : Reg} {imm : BitVec 16} {s : State} (hs : s.canon = true) : OutcomeCanon (execSd r d a imm s) :=
  runInstr_canon hs (fun _ _ h => store_canon h)

theorem execSw_canon {r : Run} {d a : Reg} {imm : BitVec 16} {s : State} (hs : s.canon = true) : OutcomeCanon (execSw r d a imm s) :=
  runInstr_canon hs (fun _ _ h => store_canon h)

theorem execSh_canon {r : Run} {d a : Reg} {imm : BitVec 16} {s : State} (hs : s.canon = true) : OutcomeCanon (execSh r d a imm s) :=
  runInstr_canon hs (fun _ _ h => store_canon h)

theorem execSb_canon {r : Run} {d a : Reg} {imm : BitVec 16} {s : State} (hs : s.canon = true) : OutcomeCanon (execSb r d a imm s) :=
  runInstr_canon hs (fun _ _ h => store_canon h)

theorem execLr_canon {r : Run} {d a : Reg} {s : State} (hs : s.canon = true) : OutcomeCanon (execLr r d a s) :=
  runInstr_canon hs (fun _ _ h => loadReserve_canon h)

theorem execSc_canon {r : Run} {d a b : Reg} {s : State} (hs : s.canon = true) : OutcomeCanon (execSc r d a b s) :=
  runInstr_canon hs (fun _ _ h => storeCond_canon h)

theorem execAmoSwap_canon {r : Run} {d a b : Reg} {s : State} (hs : s.canon = true) : OutcomeCanon (execAmoSwap r d a b s) :=
  runInstr_canon hs (fun _ _ h => amo_canon h)

theorem execAmoAdd_canon {r : Run} {d a b : Reg} {s : State} (hs : s.canon = true) : OutcomeCanon (execAmoAdd r d a b s) :=
  runInstr_canon hs (fun _ _ h => amo_canon h)

theorem execAmoAnd_canon {r : Run} {d a b : Reg} {s : State} (hs : s.canon = true) : OutcomeCanon (execAmoAnd r d a b s) :=
  runInstr_canon hs (fun _ _ h => amo_canon h)

theorem execAmoOr_canon {r : Run} {d a b : Reg} {s : State} (hs : s.canon = true) : OutcomeCanon (execAmoOr r d a b s) :=
  runInstr_canon hs (fun _ _ h => amo_canon h)

theorem execAmoXor_canon {r : Run} {d a b : Reg} {s : State} (hs : s.canon = true) : OutcomeCanon (execAmoXor r d a b s) :=
  runInstr_canon hs (fun _ _ h => amo_canon h)

theorem execAmoMax_canon {r : Run} {d a b : Reg} {s : State} (hs : s.canon = true) : OutcomeCanon (execAmoMax r d a b s) :=
  runInstr_canon hs (fun _ _ h => amo_canon h)

theorem execAmoMin_canon {r : Run} {d a b : Reg} {s : State} (hs : s.canon = true) : OutcomeCanon (execAmoMin r d a b s) :=
  runInstr_canon hs (fun _ _ h => amo_canon h)

theorem execAmoMaxu_canon {r : Run} {d a b : Reg} {s : State} (hs : s.canon = true) : OutcomeCanon (execAmoMaxu r d a b s) :=
  runInstr_canon hs (fun _ _ h => amo_canon h)

theorem execAmoMinu_canon {r : Run} {d a b : Reg} {s : State} (hs : s.canon = true) : OutcomeCanon (execAmoMinu r d a b s) :=
  runInstr_canon hs (fun _ _ h => amo_canon h)

theorem execBeq_canon {r : Run} {d a : Reg} {imm : BitVec 16} {s : State} (hs : s.canon = true) : OutcomeCanon (execBeq r d a imm s) :=
  runInstr_canon hs (fun _ _ h => branch_canon h)

theorem execBne_canon {r : Run} {d a : Reg} {imm : BitVec 16} {s : State} (hs : s.canon = true) : OutcomeCanon (execBne r d a imm s) :=
  runInstr_canon hs (fun _ _ h => branch_canon h)

theorem execBlt_canon {r : Run} {d a : Reg} {imm : BitVec 16} {s : State} (hs : s.canon = true) : OutcomeCanon (execBlt r d a imm s) :=
  runInstr_canon hs (fun _ _ h => branch_canon h)

theorem execBge_canon {r : Run} {d a : Reg} {imm : BitVec 16} {s : State} (hs : s.canon = true) : OutcomeCanon (execBge r d a imm s) :=
  runInstr_canon hs (fun _ _ h => branch_canon h)

theorem execBltu_canon {r : Run} {d a : Reg} {imm : BitVec 16} {s : State} (hs : s.canon = true) : OutcomeCanon (execBltu r d a imm s) :=
  runInstr_canon hs (fun _ _ h => branch_canon h)

theorem execBgeu_canon {r : Run} {d a : Reg} {imm : BitVec 16} {s : State} (hs : s.canon = true) : OutcomeCanon (execBgeu r d a imm s) :=
  runInstr_canon hs (fun _ _ h => branch_canon h)

theorem execJal_canon {r : Run} {off : BitVec 26} {s : State} (hs : s.canon = true) : OutcomeCanon (execJal r off s) :=
  runInstr_canon hs (fun _ _ h => jumpLink_canon h)

theorem execJalr_canon {r : Run} {d a : Reg} {imm : BitVec 16} {s : State} (hs : s.canon = true) : OutcomeCanon (execJalr r d a imm s) := by
  unfold execJalr
  refine runInstr_canon hs ?_
  intro t1 i1 h
  extract_lets t
  exact canon_ite_snd (addrFault_canon h) (jumpLink_canon h)

theorem execSrd_canon {r : Run} {d : Reg} {sr : BitVec 12} {s : State} (hs : s.canon = true) : OutcomeCanon (execSrd r d sr s) := by
  unfold execSrd
  refine runInstr_canon hs ?_
  intro t1 i1 h
  split
  · exact pcNext_canon (setGr_canon h)
  · exact illegal_canon h

theorem execSwr_canon {r : Run} {d : Reg} {sr : BitVec 12} {s : State} (hs : s.canon = true) : OutcomeCanon (execSwr r d sr s) := by
  unfold execSwr
  refine runInstr_canon hs ?_
  intro t1 i1 h
  split
  · rename_i x s1 e
    have hx : s1.canon = true := sysWrite_canon h _ e
    exact pcNext_canon hx
  · rename_i x e
    exact illegal_canon h

theorem execKcall_canon {r : Run} {imm : BitVec 16} {s : State} (hs : s.canon = true) : OutcomeCanon (execKcall r imm s) :=
  runInstr_canon hs (fun _ _ h => canon_ite_snd (takeAtK_canon h) (illegal_canon h))

theorem execWcall_canon {r : Run} {imm : BitVec 16} {s : State} (hs : s.canon = true) : OutcomeCanon (execWcall r imm s) :=
  runInstr_canon hs (fun _ _ h => canon_ite_snd (takeAtM_canon h) (illegal_canon h))

theorem execKret_canon {r : Run} {s : State} (hs : s.canon = true) : OutcomeCanon (execKret r s) := by
  unfold execKret
  refine runInstr_canon hs ?_
  intro t1 i1 h
  extract_lets c
  exact canon_ite_snd (setCore_canon _ _ h) (illegal_canon h)

theorem execWret_canon {r : Run} {s : State} (hs : s.canon = true) : OutcomeCanon (execWret r s) := by
  unfold execWret
  refine runInstr_canon hs ?_
  intro t1 i1 h
  extract_lets c
  exact canon_ite_snd (setCore_canon _ _ h) (illegal_canon h)

theorem execFence_canon {r : Run} {invalidate : Bool} {s : State} (hs : s.canon = true) : OutcomeCanon (execFence r invalidate s) := by
  unfold execFence
  split
  · exact noEvent_canon hs
  · exact runInstr_canon hs (fun _ _ h => pcNext_canon (canon_ite (setCore_canon _ _ h) h))

theorem execWfi_canon {r : Run} {s : State} (hs : s.canon = true) : OutcomeCanon (execWfi r s) := by
  unfold execWfi
  refine runInstr_canon hs ?_
  intro t1 i1 h
  extract_lets s' c
  have hs' : s'.canon = true := pcNext_canon h
  exact canon_ite hs' (setCore_canon _ _ hs')

theorem execBrk_canon {r : Run} {imm : BitVec 16} {s : State} (hs : s.canon = true) : OutcomeCanon (execBrk r imm s) :=
  runInstr_canon hs (fun _ _ h => trap_canon h)

theorem execCacheClean_canon {r : Run} {a : Reg} {off : BitVec 14} {s : State} (hs : s.canon = true) : OutcomeCanon (execCacheClean r a off s) :=
  runInstr_canon hs (fun _ _ h => cacheOp_canon h (fun _ _ h1 => cleanCache_canon h1))

theorem execCacheCleanInvalidate_canon {r : Run} {a : Reg} {off : BitVec 14} {s : State} (hs : s.canon = true) : OutcomeCanon
    (execCacheCleanInvalidate r a off s) :=
  runInstr_canon hs (fun _ _ h => cacheOp_canon h (fun _ _ h1 => evict_canon h1))

theorem execCacheInvalidateIline_canon {r : Run} {a : Reg} {off : BitVec 14} {s : State} (hs : s.canon = true) : OutcomeCanon
    (execCacheInvalidateIline r a off s) := by
  unfold execCacheInvalidateIline
  refine runInstr_canon hs ?_
  intro t1 i1 h
  extract_lets x c l
  exact pcNext_canon (setCore_canon _ _ h)

theorem execIllegalInstruction_canon {r : Run} {word : Word32} {s : State} (hs : s.canon = true) : OutcomeCanon (execIllegalInstruction r word s) :=
    by
  unfold execIllegalInstruction
  split
  · exact noEvent_canon hs
  · exact runInstr_canon hs (fun _ _ h => illegal_canon h)

theorem State.svcReturn_canon {s : State} {p status : Nat} {g2 g3 : Option Word64} (hs : s.canon = true) : (s.svcReturn p status g2 g3).canon = true
    := by
  unfold State.svcReturn
  split
  rename_i x n s1 e
  have hx : s1.canon = true := canon_of_snd e (freeNat_canon hs)
  split
  rename_i x1 n1 s2 e1
  have hx1 : s2.canon = true := canon_of_snd e1 (freeNat_canon hx)
  split
  rename_i x2 n2 s3 e2
  have hx2 : s3.canon = true := canon_of_snd e2 (freeNat_canon hx1)
  exact setGr_canon (setGr_canon (setGr_canon (setGr_canon hx2)))

theorem State.bindRun_canon {s : State} {owner weight : Nat} {n n1 : Nat} (hs : s.canon = true) : (s.bindRun owner weight n n1).canon = true := by
  induction n1 generalizing s owner weight n with
  | zero =>
    unfold State.bindRun
    exact hs
  | succ n1 ih =>
    unfold State.bindRun
    split
    rename_i x n2 s1 e
    have hx : s1.canon = true := canon_of_snd e (freeNat_canon hs)
    exact ih (nqBind_canon hx)

theorem State.svcRequest_canon {s : State} {p : Nat} (hs : s.canon = true) : (s.svcRequest p).canon = true := by
  unfold State.svcRequest
  extract_lets owner count weight runs
  split
  · exact svcReturn_canon hs
  · split
    · exact svcReturn_canon hs
    · split
      · exact svcReturn_canon hs
      · split
        rename_i x n s1 e
        have hx : s1.canon = true := canon_of_snd e (freeNat_canon hs)
        exact svcReturn_canon (bindRun_canon hx)

theorem State.service_canon {s : State} {p imm : Nat} {f : State → State} (hs : s.canon = true) (hf : ∀ t : State, t.canon = true → (f t).canon =
    true) : OutcomeCanon (s.service p imm f) := by
  unfold State.service
  split
  · exact OutcomeCanon.next (hf _ hs)
  · split
    · exact OutcomeCanon.next (svcReturn_canon hs)
    · exact noEvent_canon hs

theorem execNqRequest_canon {pair : Fin 4} {s : State} (hs : s.canon = true) : OutcomeCanon (execNqRequest pair s) :=
  service_canon hs (fun _ h => svcRequest_canon h)

theorem State.svcRelease_canon {s : State} {p : Nat} (hs : s.canon = true) : (s.svcRelease p).canon = true :=
  canon_ite (svcReturn_canon hs) (pump_canon (svcReturn_canon (nqBind_canon hs)))

theorem execNqRelease_canon {pair : Fin 4} {s : State} (hs : s.canon = true) : OutcomeCanon (execNqRelease pair s) :=
  service_canon hs (fun _ h => svcRelease_canon h)

theorem execMonitorVersion_canon {pair : Fin 4} {s : State} (hs : s.canon = true) : OutcomeCanon (execMonitorVersion pair s) :=
  service_canon hs (fun _ h => svcReturn_canon h)

/-! Sys2Proof/Machine/Rotation.lean -/

theorem State.returnUnit_canon {s : State} {p : Pool} {u : Nat} (hs : s.canon = true) : (s.returnUnit p u).canon = true :=
  wr_canon _ _ (canon_with hs)

theorem State.rotate_canon {s : State} {p : Pool} {t : Nat} (hs : s.canon = true) : (s.rotate p t).canon = true := by
  unfold State.rotate
  extract_lets next
  cases next with
  | none => exact hs
  | some u => exact setEvt_canon (wr_canon _ _ (wr_canon _ _ (returnUnit_canon hs)))

theorem execSelfTestRotation_canon {pool : Pool} {s : State} (hs : s.canon = true) : OutcomeCanon (execSelfTestRotation pool s) := by
  unfold execSelfTestRotation
  extract_lets p
  split
  · exact noEvent_canon hs
  · split
    · exact OutcomeCanon.next hs
    · split
      · exact OutcomeCanon.next (canon_ite (pump_canon (rotate_canon hs)) hs)
      · exact OutcomeCanon.next hs

theorem State.enterSelfTest_canon {s : State} {p : Pool} {u : Nat} (hs : s.canon = true) : (s.enterSelfTest p u).canon = true :=
  wr_canon _ _ (wr_canon _ _ (canon_with (wr_canon _ _ (forgetOwner_canon (endResidency_canon hs)))))

theorem execSelfTestEntry_canon {pool : Pool} {unit : Nat} {s : State} (hs : s.canon = true) : OutcomeCanon (execSelfTestEntry pool unit s) := by
  unfold execSelfTestEntry
  split
  · exact OutcomeCanon.next (enterSelfTest_canon hs)
  · exact noEvent_canon hs

theorem State.cycleSets_canon {s : State} {p : Pool} {u : Nat} (hs : s.canon = true) : (s.cycleSets p u).canon = true := by
  unfold State.cycleSets
  split
  · exact wr_canon _ _ (wr_canon _ _ hs)
  · exact wr_canon _ _ hs
  · exact wr_canon _ _ (wr_canon _ _ (wr_canon _ _ hs))
  · exact wr_canon _ _ hs
  · exact hs

theorem State.passUnit_canon {s : State} {p : Pool} {u : Nat} (hs : s.canon = true) : (s.passUnit p u).canon = true := by
  unfold State.passUnit
  extract_lets before s1 tester x s2
  have hs1 : s1.canon = true := setEvt_canon (wrapAdd_canon _ _ (cycleSets_canon hs))
  have hs2 : s2.canon = true := returnUnit_canon (canon_ite (wr_canon _ _ hs1) hs1)
  exact canon_ite (canon_with hs1) (canon_ite hs2 (recapacity_canon hs2))

theorem execSelfTestRunDone_canon {pool : Pool} {unit : Nat} {failed : Option TestFail} {s : State} (hs : s.canon = true) : OutcomeCanon
    (execSelfTestRunDone pool unit failed s) := by
  unfold execSelfTestRunDone
  split
  · split
    · exact OutcomeCanon.next (pump_canon (passUnit_canon hs))
    · exact OutcomeCanon.next (pump_canon (fenceUnit_canon hs))
  · exact noEvent_canon hs

theorem State.regrown_canon {s : State} {t : Nat} {testing : Bool} (hs : s.canon = true) : (s.regrown t testing).canon = true :=
  recapacity_canon (setEvt_canon (setEvt_canon (canon_ite (wr_canon _ _ (canon_with (setEvt_canon (wrapAdd_canon _ _ (canon_with hs))))) (wr_canon _
    _ (setEvt_canon (wrapAdd_canon _ _ (canon_with hs)))))))

theorem execRegrowthDone_canon {tile : Nat} {failed : Option TestFail} {s : State} (hs : s.canon = true) : OutcomeCanon (execRegrowthDone tile failed
    s) := by
  unfold execRegrowthDone
  split
  · split
    · exact noEvent_canon hs
    · split
      · exact OutcomeCanon.next (pump_canon (regrown_canon hs))
      · exact OutcomeCanon.next (pump_canon (recapacity_canon (reassign_canon (setEvt_canon (markFenced_canon (canon_with hs))))))
  · exact noEvent_canon hs

theorem State.cmpFault_canon {s : State} {p : Pool} {cause : Nat} (hs : s.canon = true) : (s.cmpFault p cause).canon = true := by
  unfold State.cmpFault
  split
  · exact canon_ite (setEvt_canon hs) hs
  · exact canon_ite (setEvt_canon hs) hs
  · exact hs

theorem State.faultCmd_canon {s : State} {p : Pool} {c : Cmd} (hs : s.canon = true) : (s.faultCmd p c).canon = true := by
  unfold State.faultCmd
  extract_lets part s1 c1 s2 s3
  have hs1 : s1.canon = true := releaseUnit_canon hs
  have hs2 : s2.canon = true := setEvt_canon hs1
  have hs3 : s3.canon = true := setEvt_canon (releaseUnit_canon hs)
  split
  · split
    · split
      · split
        rename_i x x1 s4 e
        have hx : s4.canon = true := canon_of_snd e (grantUnit_canon hs2)
        exact setCmd_canon hx
      · exact setCmd_canon hs2
    · exact setCmd_canon hs1
  · exact canon_ite (stopCmd_canon (dropCmdCtx_canon hs)) (setCmd_canon hs3)

theorem State.faultUnit_canon {s : State} {p : Pool} {u lane cause : Nat} (hs : s.canon = true) : (s.faultUnit p u lane cause).canon = true :=
  fenceUnit_canon (cmpFault_canon (canon_fold hs (fun _ _ h => faultCmd_canon h)))

theorem execEngineFault_canon {pool : Pool} {unit lane cause : Nat} {s : State} (hs : s.canon = true) : OutcomeCanon (execEngineFault pool unit lane
    cause s) := by
  unfold execEngineFault
  extract_lets st
  split
  · exact OutcomeCanon.next (pump_canon (faultUnit_canon hs))
  · exact noEvent_canon hs

theorem execUnitClearDone_canon {pool : Pool} {unit : Nat} {inTime : Bool} {s : State} (hs : s.canon = true) : OutcomeCanon (execUnitClearDone pool
    unit inTime s) := by
  unfold execUnitClearDone
  extract_lets k a fenced set s1
  have hs1 : s1.canon = true := canon_with hs
  split
  · exact noEvent_canon hs
  · split
    · exact OutcomeCanon.next (pump_canon (canon_ite hs1 (wr_canon _ _ hs1)))
    · split
      · exact OutcomeCanon.next (canon_with hs)
      · exact OutcomeCanon.next (pump_canon (canon_with (faultUnit_canon hs)))

/-! Sys2Proof/Machine/Dispatch.lean -/

theorem exec_canon {i : Instr} {s : State} (hs : s.canon = true) : OutcomeCanon (exec i s) := by
  unfold exec
  split
  · exact execPorNFall_canon hs
  · exact execPorNRise_canon hs
  · exact execPwrgdRise_canon hs
  · exact execPwrgdFall_canon hs
  · exact execWrstNPulse_canon hs
  · exact execPerstNAssert_canon hs
  · exact execPerstNRise_canon hs
  · exact execImageCopyReadDone_canon hs
  · exact execBootKatDone_canon hs
  · exact execReadyRise_canon hs
  · exact execReadyTimeout_canon hs
  · exact execEntropyStartTimeout_canon hs
  · exact execBootReset_canon hs
  · exact execFwReadyWrite_canon hs
  · exact execBootPtGo_canon hs
  · exact execPtCommandDone_canon hs
  · exact execRegisterWrite_canon hs
  · exact execEvtClearWrite_canon hs
  · exact execBitAliasWrite_canon hs
  · exact execGuardValueWrite_canon hs
  · exact execGuardTimeout_canon hs
  · exact execWideSelWrite_canon hs
  · exact execWideSnapshotDone_canon hs
  · exact execPwrDomReqWrite_canon hs
  · exact execDomainClaimsZero_canon hs
  · exact execDomainTransitionDone_canon hs
  · exact execIdleBaskTimeout_canon hs
  · exact execBaskingWake_canon hs
  · exact execDomainSupplyLost_canon hs
  · exact execDomainSupplyReturned_canon hs
  · exact execDevicePowerFail_canon hs
  · exact execPowerManagerTick_canon hs
  · exact execCapLimitStep_canon hs
  · exact execPwrCapWrite_canon hs
  · exact execRateWindowEnd_canon hs
  · exact execAvsAlert_canon hs
  · exact execAvsTimeout_canon hs
  · exact execConfigRequest_canon hs
  · exact execVfEnableSet_canon hs
  · exact execVfEnableClear_canon hs
  · exact execVfFlr_canon hs
  · exact execPfFlr_canon hs
  · exact execFunctionResetDone_canon hs
  · exact execPfD3hotEntry_canon hs
  · exact execPfD0Return_canon hs
  · exact execDlDown_canon hs
  · exact execDlUp_canon hs
  · exact execL1Exit_canon hs
  · exact execMsixUnmask_canon hs
  · exact execEventSourceAssert_canon hs
  · exact execSqTailDoorbell_canon hs
  · exact execCqHeadDoorbell_canon hs
  · exact execQzEnable_canon hs
  · exact execQzDisable_canon hs
  · exact execSqEntryFetchDone_canon hs
  · exact execSgSegmentArrived_canon hs
  · exact execObjectBodyArrived_canon hs
  · exact execUnitGrant_canon hs
  · exact execInputFetchDone_canon hs
  · exact execEngineDone_canon hs
  · exact execCoalTimeExpiry_canon hs
  · exact execHello_canon hs
  · exact execGetInfo_canon hs
  · exact execAbortCommand_canon hs
  · exact execAbortContext_canon hs
  · exact execQueueCreate_canon hs
  · exact execQueueDelete_canon hs
  · exact execCtxExport_canon hs
  · exact execCtxImport_canon hs
  · exact execKeyGenerate_canon hs
  · exact execKeyImportWrapped_canon hs
  · exact execKeyExportWrapped_canon hs
  · exact execKeyDestroy_canon hs
  · exact execKeyDerive_canon hs
  · exact execKeyAttest_canon hs
  · exact execKemEncaps_canon hs
  · exact execKemDecaps_canon hs
  · exact execKeyAgree_canon hs
  · exact execSign_canon hs
  · exact execVerify_canon hs
  · exact execHashInit_canon hs
  · exact execHashUpdate_canon hs
  · exact execHashFinal_canon hs
  · exact execHashVerify_canon hs
  · exact execMacInit_canon hs
  · exact execMacUpdate_canon hs
  · exact execMacFinal_canon hs
  · exact execMacVerify_canon hs
  · exact execCipher_canon hs
  · exact execAeadInit_canon hs
  · exact execAeadUpdate_canon hs
  · exact execAeadFinal_canon hs
  · exact execRandom_canon hs
  · exact execOwnerLoad_canon hs
  · exact execOwnerCreate_canon hs
  · exact execOwnerRedefine_canon hs
  · exact execOwnerDestroy_canon hs
  · exact execOwnerReissue_canon hs
  · exact execQuorumChallenge_canon hs
  · exact execQuorumApprove_canon hs
  · exact execMigrationLogStart_canon hs
  · exact execMigrationLogStop_canon hs
  · exact execVfCreate_canon hs
  · exact execVfDestroy_canon hs
  · exact execApprovalWindowExpiry_canon hs
  · exact execControlHandover_canon hs
  · exact execDspCqEnable_canon hs
  · exact execDspCqDisable_canon hs
  · exact execDspCqRtailWrite_canon hs
  · exact execAdd_canon hs
  · exact execSub_canon hs
  · exact execAnd_canon hs
  · exact execOr_canon hs
  · exact execXor_canon hs
  · exact execAndn_canon hs
  · exact execSll_canon hs
  · exact execSrl_canon hs
  · exact execSra_canon hs
  · exact execSlt_canon hs
  · exact execSltu_canon hs
  · exact execMul_canon hs
  · exact execMulh_canon hs
  · exact execMulhu_canon hs
  · exact execDiv_canon hs
  · exact execDivu_canon hs
  · exact execRem_canon hs
  · exact execRemu_canon hs
  · exact execAddi_canon hs
  · exact execAndi_canon hs
  · exact execOri_canon hs
  · exact execXori_canon hs
  · exact execSlti_canon hs
  · exact execSltiu_canon hs
  · exact execLui_canon hs
  · exact execShi_canon hs
  · exact execOrhi_canon hs
  · exact execOrti_canon hs
  · exact execLd_canon hs
  · exact execLw_canon hs
  · exact execLwu_canon hs
  · exact execLh_canon hs
  · exact execLhu_canon hs
  · exact execLb_canon hs
  · exact execLbu_canon hs
  · exact execSd_canon hs
  · exact execSw_canon hs
  · exact execSh_canon hs
  · exact execSb_canon hs
  · exact execLr_canon hs
  · exact execSc_canon hs
  · exact execAmoSwap_canon hs
  · exact execAmoAdd_canon hs
  · exact execAmoAnd_canon hs
  · exact execAmoOr_canon hs
  · exact execAmoXor_canon hs
  · exact execAmoMax_canon hs
  · exact execAmoMin_canon hs
  · exact execAmoMaxu_canon hs
  · exact execAmoMinu_canon hs
  · exact execBeq_canon hs
  · exact execBne_canon hs
  · exact execBlt_canon hs
  · exact execBge_canon hs
  · exact execBltu_canon hs
  · exact execBgeu_canon hs
  · exact execJal_canon hs
  · exact execJalr_canon hs
  · exact execSrd_canon hs
  · exact execSwr_canon hs
  · exact execKcall_canon hs
  · exact execWcall_canon hs
  · exact execKret_canon hs
  · exact execWret_canon hs
  · exact execFence_canon hs
  · exact execWfi_canon hs
  · exact execBrk_canon hs
  · exact execCacheClean_canon hs
  · exact execCacheCleanInvalidate_canon hs
  · exact execCacheInvalidateIline_canon hs
  · exact execIllegalInstruction_canon hs
  · exact execWfiWake_canon hs
  · exact execExternalInterrupt_canon hs
  · exact execTimerInterrupt_canon hs
  · exact execStoreErrorResponse_canon hs
  · exact execCcsNstartWrite_canon hs
  · exact execCcsNreset_canon hs
  · exact execNqRequest_canon hs
  · exact execNqRelease_canon hs
  · exact execMonitorVersion_canon hs
  · exact execWldNqBind_canon hs
  · exact execWldNqUnbind_canon hs
  · exact execMbxDataWrite_canon hs
  · exact execMbxSend_canon hs
  · exact execMbxAck_canon hs
  · exact execMbxWake_canon hs
  · exact execActUpdateBegin_canon hs
  · exact execActUpdateEnd_canon hs
  · exact execActLock_canon hs
  · exact execActHoldTimeout_canon hs
  · exact execDebugAccess_canon hs
  · exact execDebugHaltRequest_canon hs
  · exact execDebugStep_canon hs
  · exact execDebugEnableLeave_canon hs
  · exact execDdrTrainingDone_canon hs
  · exact execZeroFillBlock_canon hs
  · exact execFillDone_canon hs
  · exact execPatrolScrubLine_canon hs
  · exact execScrubPeriodEnd_canon hs
  · exact execDdrLineRead_canon hs
  · exact execDdrPartialWrite_canon hs
  · exact execDdrLockRelease_canon hs
  · exact execDdrAlert_canon hs
  · exact execMoltPeriod_canon hs
  · exact execDeviceKeyRederived_canon hs
  · exact execEntQuadrantJoined_canon hs
  · exact execEntBalanceWindowEnd_canon hs
  · exact execEntQuadrantFail_canon hs
  · exact execEntBlockRelease_canon hs
  · exact execEntWordGrant_canon hs
  · exact execEntShareWindowEnd_canon hs
  · exact execEntStarved_canon hs
  · exact execEntCaptureGo_canon hs
  · exact execEntCaptureDone_canon hs
  · exact execSelfTestRotation_canon hs
  · exact execSelfTestEntry_canon hs
  · exact execSelfTestRunDone_canon hs
  · exact execEngineFault_canon hs
  · exact execRegrowthDone_canon hs
  · exact execUnitClearDone_canon hs
  · exact execAlarmRaise_canon hs
  · exact execZeroizationDone_canon hs
  · exact execKillWordProgrammed_canon hs
  · exact execTamperLoopSample_canon hs
  · exact execXtalStop_canon hs
  · exact execBackupDomainReset_canon hs
  · exact execOperatingHourTick_canon hs
  · exact execTmpFlagClr_canon hs
  · exact execTmpResume_canon hs
  · exact execDebugIntrusionLevel_canon hs
  · exact execRecordStore_canon hs
  · exact execEvrRdSelWrite_canon hs
  · exact execEvrRdCopyDone_canon hs
  · exact execEvrExpGo_canon hs
  · exact execEvrExpDone_canon hs
  · exact execEvrClear_canon hs
  · exact execEvrClearingDone_canon hs
  · exact execLcTargetWrite_canon hs
  · exact execLcReq_canon hs
  · exact execLcTransitionDone_canon hs
  · exact execLcRepair_canon hs
  · exact execTapReset_canon hs
  · exact execExtest_canon hs
  · exact execSamplePreload_canon hs
  · exact execIdcode_canon hs
  · exact execLcStatus_canon hs
  · exact execDbgAccess_canon hs
  · exact execTestMode_canon hs
  · exact execBypass_canon hs
  · exact execTwinLinkTrained_canon hs
  · exact execTwinRetrainTimer_canon hs
  · exact execTwinLinkDown_canon hs
  · exact execSoadeHello_canon hs
  · exact execPairKem_canon hs
  · exact execPairAuth_canon hs
  · exact execHeartbeat_canon hs
  · exact execHeartbeatSend_canon hs
  · exact execHeartbeatMiss_canon hs
  · exact execClose_canon hs
  · exact execCommit_canon hs
  · exact execAck_canon hs
  · exact execResyncData_canon hs
  · exact execResyncEnd_canon hs
  · exact execJournal_canon hs
  · exact execKeyReq_canon hs
  · exact execKeyResp_canon hs
  · exact execTwnPair_canon hs
  · exact execLtsTestEnter_canon hs
  · exact execLtsTestExit_canon hs
  · exact execLtsChkStart_canon hs
  · exact execLtsEyeGo_canon hs
  · exact execLtsEyeDone_canon hs
  · exact execAlarmConditionEnd_canon hs
  · exact execPeerFaultInHigh_canon hs
  · exact execLtsCheckerAligned_canon hs
  · exact execLtsCheckerSyncLost_canon hs
  · exact execLinkL1Entry_canon hs
  · exact execLinkSpeedChange_canon hs
  · exact execTwPresentNChange_canon hs
  · exact execStatusCommandPulseEnd_canon hs

/-! Sys2Proof/Machine/Tick.lean -/

theorem State.tickTime_canon {s : State} (hs : s.canon = true) : s.tickTime.canon = true := canon_ite (canon_with hs) hs

theorem State.tickXtal_canon {s : State} (hs : s.canon = true) : s.tickXtal.canon = true :=
  canon_ite hs (canon_ite (wrapAdd_canon _ _ (canon_with hs)) (canon_with hs))

theorem State.tickPair_canon {s : State} {p : Nat} (hs : s.canon = true) : (s.tickPair p).canon = true :=
  canon_ite (pmuCount_canon (canon_ite (pmuCount_canon hs) hs)) hs

theorem State.tick_canon {s : State} (hs : s.canon = true) : s.tick.canon = true :=
  pump_canon (countBitErrors_canon (canon_fold (tickXtal_canon (tickTime_canon hs)) (fun _ _ h => tickPair_canon h)))

/-! Sys2Proof/Machine/Step.lean -/

theorem step_canon {s : State} (hs : s.canon = true) : OutcomeCanon (step s) := by
  unfold step
  split
  · exact OutcomeCanon.next (tick_canon hs)
  · exact exec_canon (canon_with hs)

/-- Settles O60: a step is built from the functions above, each of which keeps the form. -/
theorem stepKeepsCanonical : Obligations.StepKeepsCanonical := fun _ t hs e => step_canon hs t e

end Sys2Proof.Machine
end

section
/-! Footprints: which register fields an operation leaves as they are. -/

namespace Sys2Proof.Machine

theorem State.keepsRegs_refl (s : State) (l : List Fld) : s.keepsRegs s l := fun _ _ => rfl

theorem State.keepsRegs_of_regs {s t : State} (h : t.regs = s.regs) (l : List Fld) : s.keepsRegs t l := fun _ _ => by simp only [State.rd, h]

theorem State.keepsRegs.trans {s t u : State} {l m : List Fld} (h : s.keepsRegs t l) (h' : t.keepsRegs u m) (hl : l ⊆ m) : s.keepsRegs u m := fun f hf =>
  (h' f hf).trans (h f fun hm => hf (List.map_subset _ hl hm))

theorem State.keepsRegs_wr (s : State) {f : Fld} (v : Nat) {l : List Fld} (h : f.key ∈ l.map Fld.key) : s.keepsRegs (s.wr f v) l := by
  intro g hg
  refine State.rd_wr_other _ _ fun e => hg ?_
  rw [e]
  exact h

/-- An update that does not touch the register file. -/
@[simp] theorem State.rd_with {s : State} {f : Fld} {pending mem time freeCtr out edges bus pins cfg boot pwr evr tmp portA portB vfs fns qps dsp keys cores mbx act
    ddr ent eng lc tap twn lts} : State.rd ⟨pending, s.regs, mem, time, freeCtr, out, edges, bus, pins, cfg, boot, pwr, evr, tmp, portA, portB, vfs, fns, qps,
      dsp, keys, cores, mbx, act, ddr, ent, eng, lc, tap, twn, lts⟩ f = s.rd f := rfl

/-- The state but for its register file and its event recorder. -/
def State.unrecorded (s : State) : State := { s with regs := [], evr := {}, edges := [] }

theorem State.wr_unrecorded (s : State) (f : Fld) (v : Nat) : (s.wr f v).unrecorded = s.unrecorded := rfl

theorem State.enqueueRec_unrecorded (s : State) (r : Rec) : (s.enqueueRec r).unrecorded = s.unrecorded := by
  unfold State.enqueueRec
  dsimp only
  split
  · rfl
  · split <;> rfl

theorem State.decideRecord_unrecorded (s : State) (kind source sev arg : Nat) : (s.decideRecord kind source sev arg).unrecorded = s.unrecorded := by
  unfold State.decideRecord
  split
  · rfl
  · rw [State.enqueueRec_unrecorded]; rfl

end Sys2Proof.Machine
end

section
/-! The test access port (chapter 18). -/

namespace Sys2Proof.Machine

theorem State.atTap_high (s : State) (h : s.pins.trstN = true) (f : State → State) : s.atTap f = .next (f s) := if_pos h

theorem State.atTap_low (s : State) (h : s.pins.trstN = false) (f : State → State) : s.atTap f = .next s := if_neg (by simp [h])

/-- Settles O36, instruction by instruction: each is `State.atTap` of its own effect. -/
theorem tapInstructions : Obligations.TapInstructions := by
  unfold Obligations.TapInstructions
  intro s
  refine ⟨⟨_, rfl, rfl, rfl, rfl, rfl⟩, fun hlow => ?_, fun hhigh => ⟨?_, ?_, ?_⟩, fun dr => ⟨fun hlow => ?_, fun hhigh => ⟨?_, ?_, ?_, ?_, ?_⟩⟩⟩
  · simp only [List.mem_cons, List.not_mem_nil, or_false, forall_eq_or_imp, forall_eq]
    exact ⟨(s.atTap_low hlow _ : execIdcode s = _), (s.atTap_low hlow _ : execLcStatus s = _), (s.atTap_low hlow _ : execDbgAccess s = _)⟩
  · exact ⟨_, (s.atTap_high hhigh _ : execIdcode s = _), rfl, rfl, rfl, rfl⟩
  · exact ⟨_, (s.atTap_high hhigh _ : execLcStatus s = _), rfl, rfl, rfl, rfl⟩
  · exact ⟨_, (s.atTap_high hhigh _ : execDbgAccess s = _), rfl, rfl, rfl⟩
  · simp only [List.mem_cons, List.not_mem_nil, or_false, forall_eq_or_imp, forall_eq]
    exact ⟨(s.atTap_low hlow _ : execExtest dr s = _), (s.atTap_low hlow _ : execSamplePreload dr s = _), (s.atTap_low hlow _ : execBypass dr s = _),
      (s.atTap_low hlow _ : execTestMode dr s = _)⟩
  · exact ⟨_, (s.atTap_high hhigh _ : execExtest dr s = _), rfl, rfl, rfl, rfl⟩
  · exact ⟨_, (s.atTap_high hhigh _ : execSamplePreload dr s = _), rfl, rfl, rfl, rfl, rfl⟩
  · exact ⟨_, (s.atTap_high hhigh _ : execBypass dr s = _), rfl, rfl, rfl, rfl⟩
  · intro h
    exact ⟨_, (s.atTap_high hhigh _ : execTestMode dr s = _).trans (congrArg Host.Outcome.next (if_pos h)), rfl, rfl, rfl⟩
  · intro h
    refine ⟨_, (s.atTap_high hhigh _ : execTestMode dr s = _).trans (congrArg Host.Outcome.next (if_neg (ne_true_of_eq_false h))), ?_⟩
    have hrec := ((s.tapSelect 0x30).emit (.tdo 1 0)).decideRecord_unrecorded 4 36 2 (7 + 2 ^ 7)
    exact ⟨(congrArg (·.tap.testMode) hrec :), (congrArg State.out hrec :), (congrArg State.mem hrec :)⟩

end Sys2Proof.Machine
end

section
/-! The resets of a group (chapter 03). -/

namespace Sys2Proof.Machine

/-- A key that a filter over keys drops reads as its default. -/
theorem tblGet_filter_drop {α : Type} (d : α) (p : Nat → Bool) (t : Tbl α) {k : Nat} (h : p k = false) :
    tblGet d (t.filter fun e => p e.1) k = d := by
  induction t with
  | nil => rfl
  | cons e t ih =>
    rw [List.filter_cons]
    split
    · next hp =>
      rw [tblGet, if_neg fun hk => by simp [← hk, h] at hp]
      exact ih
    · exact ih

/-- A key that a filter over keys keeps reads as before. -/
theorem tblGet_filter_keep {α : Type} (d : α) (p : Nat → Bool) (t : Tbl α) {k : Nat} (h : p k = true) :
    tblGet d (t.filter fun e => p e.1) k = tblGet d t k := by
  induction t with
  | nil => rfl
  | cons e t ih =>
    rw [List.filter_cons]
    split
    · rw [tblGet, tblGet, ih]
    · next hp => rw [tblGet, if_neg fun hk => hp (by rw [← hk]; exact h), ih]

/-- What a reset of a group does not keep reads as reset. -/
theorem State.rd_resetGroup_reset (s : State) {por : Bool} {f : Fld} (h : keptField por f.key = false) : (s.resetGroup por).rd f = f.reset := by
  have hne : f.key ≠ R.TMP_COND_SRC.key := fun e => by rw [e] at h; revert h; cases por <;> decide
  unfold State.resetGroup
  rw [State.rd_wr_other _ _ hne]
  exact tblGet_filter_drop _ _ _ h

/-- What a reset of a group keeps, apart from the conditions that end with it, reads as before. -/
theorem State.rd_resetGroup_kept (s : State) {por : Bool} {f : Fld} (h : keptField por f.key = true) (hne : f.key ≠ R.TMP_COND_SRC.key) :
    (s.resetGroup por).rd f = s.rd f := by
  unfold State.resetGroup
  rw [State.rd_wr_other _ _ hne]
  exact tblGet_filter_keep _ _ _ h

/-- Settles O31: both resets end in `State.resetGroup`, which clears every group. -/
theorem powerOnResets : Obligations.PowerOnResets := by
  unfold Obligations.PowerOnResets
  intro s cleared
  have hcleared (u : State) (hpor : u.pins.porN = false) : cleared (u.resetGroup true) :=
    ⟨fun _ h => u.rd_resetGroup_reset h, rfl, rfl, rfl, rfl, rfl, rfl, rfl, rfl, hpor⟩
  refine ⟨fun h => ⟨_, (if_pos h : execPorNFall s = _), hcleared _ rfl, rfl, rfl, rfl⟩, fun vbat hbusy hkill => ?_⟩
  have hlc : s.lcCut = s := by simp only [State.lcCut, hbusy]
  have hk : s.killCut = s := by simp only [State.killCut, hkill, Bool.false_eq_true, if_false]
  refine ⟨_, (rfl : execDevicePowerFail vbat s = _), hcleared _ rfl, rfl, rfl, ?_⟩
  show s.lcCut.killCut.lc = s.lc
  rw [hlc, hk]

end Sys2Proof.Machine
end

section
/-! Event records, from outside the recorder (chapter 20). -/

namespace Sys2Proof.Machine

/-- The register fields that deciding a record may change. -/
def recordFields : List Fld :=
  [R.EVR_FILTERED_COUNT, R.EVR_NEXT_SEQ_SEQ, R.EVR_DROPPED_COUNT, R.EVR_EVT_DROPPED, R.EVR_EVT_DROPPED.seq]

theorem State.keepsRegs_setEvt (s : State) {f : Fld} (b : Nat) {l : List Fld} (h : f.key ∈ l.map Fld.key) (hseq : f.seq.key ∈ l.map Fld.key) :
    s.keepsRegs (s.setEvt f b) l :=
  ((s.keepsRegs_wr _ h).trans (State.keepsRegs_wr _ _ hseq) (List.Subset.refl l) :)

theorem State.enqueueRec_keepsRegs (s : State) (r : Rec) : s.keepsRegs (s.enqueueRec r) recordFields := by
  unfold State.enqueueRec
  dsimp only
  have hdrop (u : State) (hu : u.regs = s.regs) : s.keepsRegs u.dropRecord recordFields :=
    ((State.keepsRegs_of_regs hu recordFields).trans (State.keepsRegs_wr _ _ (by decide)) (List.Subset.refl _)).trans
      (State.keepsRegs_setEvt _ 0 (by decide) (by decide)) (List.Subset.refl _)
  split
  · exact State.keepsRegs_of_regs rfl _
  · split
    · exact hdrop _ rfl
    · exact hdrop s rfl

theorem State.decideRecord_keepsRegs (s : State) (kind source sev arg : Nat) : s.keepsRegs (s.decideRecord kind source sev arg) recordFields := by
  unfold State.decideRecord
  split
  · exact s.keepsRegs_wr _ (by decide)
  · exact (s.keepsRegs_wr _ (by decide)).trans (State.enqueueRec_keepsRegs _ _) (List.Subset.refl _)

/-- A field outside the recorder reads as before. -/
theorem State.rd_decideRecord (s : State) (kind source sev arg : Nat) {f : Fld} (h : f.key ∉ recordFields.map Fld.key) :
    (s.decideRecord kind source sev arg).rd f = s.rd f := s.decideRecord_keepsRegs kind source sev arg f h

end Sys2Proof.Machine
end

section
/-! The debug port (chapters 09 and 10). -/

namespace Sys2Proof.Machine

/-- A debug access that is refused is recorded, and changes neither memory nor a core. -/
theorem State.debugViol_shown (s : State) (w : World) (k : AccKind) (a : Nat) :
    (s.debugViol w k a).rd R.ACT_EVT_DEBUG_VIOL = 1 ∧ (s.debugViol w k a).unrecorded = s.unrecorded :=
  ⟨(State.rd_decideRecord _ _ _ _ _ (by decide)).trans (State.rd_setEvt_same _ rfl (by decide)), State.decideRecord_unrecorded ..⟩

theorem State.violation_unrecorded (s : State) (cls : Nat) (w : World) (k : AccKind) (source entry a : Nat) :
    (s.violation cls w k source entry a).unrecorded = s.unrecorded := by
  unfold State.violation
  split <;> rfl

theorem State.debugCoreRefused_shown (s : State) (w : World) :
    (s.debugCoreRefused w false).cores = s.cores ∧ (s.debugCoreRefused w false).mem = s.mem ∧ (s.debugCoreRefused w false).rd R.ACT_EVT_DEBUG_VIOL = 1 := by
  obtain ⟨hrd, hview⟩ := State.debugViol_shown ((s.freeNat 5).2.violation 11 w .read 2 0 (s.freeNat 5).1) w .read (s.freeNat 5).1
  rw [State.violation_unrecorded] at hview
  exact ⟨(congrArg State.cores hview :), (congrArg State.mem hview :), hrd⟩

theorem leNat_leBytes8 (v : Word64) : BitVec.ofNat 64 (leNat (leBytes 8 v.toNat)) = v := by
  have h : leNat (leBytes 8 v.toNat) = v.toNat := by
    simp only [leBytes, leNat, BitVec.toNat_ofNat]
    omega
  rw [h, BitVec.ofNat_toNat, BitVec.setWidth_eq]

theorem State.dbgEff_setCore (s : State) (p : Nat) (c : Core) : (s.setCore p c).dbgEff = s.dbgEff := rfl

theorem State.worldOfPair_setCore (s : State) (p : Nat) (c : Core) (h : c.level = (s.core p).level) : (s.setCore p c).worldOfPair p = s.worldOfPair p := by
  simp only [State.worldOfPair, State.core_setCore_same, h]

/-- At an instruction boundary a pair that is asked to halt halts, where the control enable of its world is in effect. -/
theorem State.boundary_asked (s : State) {p : Nat} {c : Core} (hask : c.haltReq = true) (hlevel : c.level = (s.core p).level) (hrun : c.run = .running)
    (hheld : s.waitsAtTable p = false) :
    (s.setCore p c).boundary p =
      if s.ctrlOn (s.worldOfPair p) then
        (s.setCore p c).setCore p { c with run := .halted, haltWorld := some (s.worldOfPair p), haltReq := false, stepping := false }
      else s.setCore p c := by
  have hctrl (w : World) : (s.setCore p c).ctrlOn w = s.ctrlOn w := rfl
  have hwaits : (s.setCore p c).waitsAtTable p = false := hheld
  unfold State.boundary
  simp only [State.core_setCore_same, s.worldOfPair_setCore p c hlevel, hctrl, hwaits, hrun, hask]
  cases s.ctrlOn (s.worldOfPair p) <;> simp

/-- A debug access to a core register under the enable of the pair's world. -/
theorem State.debugCore_open (s : State) {w : World} {p : Nat} (hctrl : s.ctrlOn w = true) (hw : s.worldOfPair p = w) (hrun : (s.core p).run ≠ .fenced)
    {write : Option (List Byte)} {get : State → Option Word64} {put : State → Word64 → Option State} :
    s.debugCore w p write get put = match write with
      | some l => (match put s (BitVec.ofNat 64 (leNat l)) with | some s => s | none => s.errorWrite (.debug w) 0)
      | none => (match get s with | some v => s.emit (.answer (.debug w) (some v.toNat)) | none => s.errorRead (.debug w)) :=
  if_neg (by simp [hctrl, hw, hrun])

theorem execDebugAccess_general {s : State} (hport : s.dbgPort = true) (w : World) (pair : Fin 4) (g : Reg) (write : Option (List Byte)) :
    execDebugAccess w (.general pair g) write s =
      .next (s.debugCore w pair.val write (fun s => some (s.gr pair.val g)) fun s v => some (s.setGr pair.val g v)) :=
  if_neg (by simp [hport])

/-- Settles O37, row by row. -/
theorem debugRows : Obligations.DebugRows := by
  unfold Obligations.DebugRows
  intro s pair p c
  refine ⟨fun hport hrun hheld => ?_, fun hport hrun hctrl => ?_, fun w hrun hw hctrl => ?_, fun w g hport hctrl hw hrun => ⟨?_, fun v => ?_⟩,
    fun w g hport hctrl => ?_⟩
  · have hexec : exec (.debugHaltRequest pair) s = .next ((s.setCore p { c with haltReq := true }).boundary p) := by
      show execDebugHaltRequest pair s = _
      unfold execDebugHaltRequest
      rw [if_neg (by simp [hport]), if_neg (show ¬(s.core pair.val).run = .fenced by rw [show (s.core pair.val).run = .running from hrun]; decide)]
    rw [s.boundary_asked (p := p) (c := { c with haltReq := true }) rfl rfl hrun hheld] at hexec
    refine ⟨_, hexec, ?_⟩
    split
    · next hon =>
      have hcore (u : State) (d : Core) : (u.setCore p d).core p = d := u.core_setCore_same p d
      exact ⟨fun _ => ⟨(congrArg Core.run (hcore _ _) :), (congrArg Core.haltWorld (hcore _ _) :)⟩, fun hoff => absurd hon (by simp [hoff]),
        (congrArg Core.pc (hcore _ _) :), rfl⟩
    · next hoff =>
      have hcore := s.core_setCore_same p { c with haltReq := true }
      exact ⟨fun hon => absurd hon hoff, fun _ => ⟨(congrArg Core.run hcore :).trans hrun, (congrArg Core.haltReq hcore :)⟩, (congrArg Core.pc hcore :), rfl⟩
  · have hcore := s.core_setCore_same p { c with stepping := true }
    exact ⟨_, (if_pos ⟨hport, hrun, hctrl⟩ : execDebugStep pair s = _), (congrArg Core.stepping hcore :), (congrArg Core.rest hcore :), rfl⟩
  · have hexec : exec (.debugEnableLeave pair) s = .next (s.setCore p { c with run := .running, haltWorld := none, stepping := false }) := by
      show execDebugEnableLeave pair s = _
      unfold execDebugEnableLeave
      simp only [show (s.core pair.val).run = .halted from hrun, show (s.core pair.val).haltWorld = some w from hw, hctrl, Bool.false_eq_true, if_false]
      rfl
    have hcore := s.core_setCore_same p { c with run := .running, haltWorld := none, stepping := false }
    exact ⟨_, hexec, (congrArg Core.run hcore :), (congrArg Core.haltWorld hcore :), (congrArg Core.pc hcore :), rfl⟩
  · exact ⟨_, execDebugAccess_general hport w pair g none, by rw [s.debugCore_open hctrl hw hrun]; exact ⟨rfl, rfl, rfl, rfl⟩⟩
  · refine ⟨_, execDebugAccess_general hport w pair g _, ?_⟩
    rw [s.debugCore_open hctrl hw hrun]
    simp only [leNat_leBytes8]
    exact ⟨fun a => State.gr_setGr .., State.setGr_regs .., State.setGr_mem ..⟩
  · refine ⟨_, execDebugAccess_general hport w pair g none, ?_⟩
    rw [show s.debugCore w pair.val none _ _ = s.debugCoreRefused w false from if_pos (by simp [hctrl])]
    obtain ⟨hcores, hmem, hviol⟩ := s.debugCoreRefused_shown w
    exact ⟨hcores, hviol, hmem⟩

end Sys2Proof.Machine
end

section
/-! ## What the functions of the model leave alone

`f_keepsX` says that `f` leaves the part X of the state as it was, in the form in which such lemmas chain: what the part held before may be any
state's. Each is proved from the lemmas of the functions it calls, in the order of the definitions. -/

namespace Sys2Proof.Machine
open State

/-! ### `State.cores` -/

theorem keepCores_with {s : State} {old : Tbl Core} {pending regs mem time freeCtr out edges bus pins cfg boot pwr evr tmp portA portB vfs
  fns qps dsp keys mbx act ddr ent eng lc tap twn lts} (h : s.cores = old) :
    State.cores ⟨pending, regs, mem, time, freeCtr, out, edges, bus, pins, cfg, boot, pwr, evr, tmp, portA, portB, vfs, fns, qps, dsp,
      keys, s.cores, mbx, act, ddr, ent, eng, lc, tap, twn, lts⟩ = old := h

theorem State.wr_keepsCores {s : State} {f : Fld} {v : Nat} {old : Tbl Core} (hs : s.cores = old) : (s.wr f v).cores = old := hs

theorem State.setEvt_keepsCores {s : State} {f : Fld} {bit : Nat} {old : Tbl Core} (hs : s.cores = old) : (s.setEvt f bit).cores = old :=
  keepCores_with (wr_keepsCores (wr_keepsCores hs))

theorem State.setEvtAll_keepsCores {s : State} {f : Fld} {old : Tbl Core} (hs : s.cores = old) : (s.setEvtAll f).cores = old :=
  setEvt_keepsCores (setEvt_keepsCores (setEvt_keepsCores (setEvt_keepsCores hs)))

/-! ### `State.out` -/

theorem keepOut_ite {old : List Out} {c : Prop} [Decidable c] {s t : State} (hs : s.out = old) (ht : t.out = old) : (if c then s else
  t).out = old := by
  split
  · exact hs
  · exact ht

theorem keepOut_with {s : State} {old : List Out} {pending regs mem time freeCtr edges bus pins cfg boot pwr evr tmp portA portB vfs fns
  qps dsp keys cores mbx act ddr ent eng lc tap twn lts} (h : s.out = old) :
    State.out ⟨pending, regs, mem, time, freeCtr, s.out, edges, bus, pins, cfg, boot, pwr, evr, tmp, portA, portB, vfs, fns, qps, dsp,
      keys, cores, mbx, act, ddr, ent, eng, lc, tap, twn, lts⟩ = old := h

theorem keepOut_fold {old : List Out} {α : Type} {f : State → α → State} {l : List α} {s : State} (h : s.out = old)
    (hf : ∀ s a, s.out = old → (f s a).out = old) : (l.foldl f s).out = old := by
  induction l generalizing s with
  | nil => exact h
  | cons a t ih => exact ih (hf s a h)

theorem State.wr_keepsOut {s : State} {f : Fld} {v : Nat} {old : List Out} (hs : s.out = old) : (s.wr f v).out = old := hs

theorem State.setEvt_keepsOut {s : State} {f : Fld} {bit : Nat} {old : List Out} (hs : s.out = old) : (s.setEvt f bit).out = old :=
  keepOut_with (wr_keepsOut (wr_keepsOut hs))

theorem State.setEvtAll_keepsOut {s : State} {f : Fld} {old : List Out} (hs : s.out = old) : (s.setEvtAll f).out = old :=
  setEvt_keepsOut (setEvt_keepsOut (setEvt_keepsOut (setEvt_keepsOut hs)))

theorem State.setStatus_keepsOut {s : State} {f : Fld} {v : Nat} {old : List Out} (hs : s.out = old) : (s.setStatus f v).out = old :=
  keepOut_ite hs (setEvtAll_keepsOut (wr_keepsOut hs))

theorem State.setChan_keepsOut {s : State} {c : Nat} {v : Ddr} {old : List Out} (hs : s.out = old) : (s.setChan c v).out = old := hs

theorem State.captureErr_keepsOut {s : State} {c l : Nat} {kind pos : Nat} {scrub : Bool} {old : List Out} (hs : s.out = old) :
    (s.captureErr c l kind pos scrub).out = old :=
  keepOut_ite hs (wr_keepsOut (wr_keepsOut (wr_keepsOut (wr_keepsOut (wr_keepsOut (setChan_keepsOut hs))))))

theorem State.unhold_keepsOut {s : State} {id : Nat} {old : List Out} (hs : s.out = old) : (s.unhold id).out = old :=
  keepOut_fold hs (fun _ _ h => wr_keepsOut h)

theorem State.dropCmd_keepsOut {s : State} {id : Nat} {old : List Out} (hs : s.out = old) : (s.dropCmd id).out = old :=
  keepOut_with (unhold_keepsOut hs)

/-! ### `State.tmp` -/

theorem keepTmp_ite {old : Tmp} {c : Prop} [Decidable c] {s t : State} (hs : s.tmp = old) (ht : t.tmp = old) : (if c then s else t).tmp =
  old := by
  split
  · exact hs
  · exact ht

theorem keepTmp_with {s : State} {old : Tmp} {pending regs mem time freeCtr out edges bus pins cfg boot pwr evr portA portB vfs fns qps dsp
  keys cores mbx act ddr ent eng lc tap twn lts} (h : s.tmp = old) :
    State.tmp ⟨pending, regs, mem, time, freeCtr, out, edges, bus, pins, cfg, boot, pwr, evr, s.tmp, portA, portB, vfs, fns, qps, dsp,
      keys, cores, mbx, act, ddr, ent, eng, lc, tap, twn, lts⟩ = old := h

theorem keepTmp_fold {old : Tmp} {α : Type} {f : State → α → State} {l : List α} {s : State} (h : s.tmp = old)
    (hf : ∀ s a, s.tmp = old → (f s a).tmp = old) : (l.foldl f s).tmp = old := by
  induction l generalizing s with
  | nil => exact h
  | cons a t ih => exact ih (hf s a h)

theorem keepTmp_of_snd {old : Tmp} {α : Type} {p : α × State} {a : α} {t : State} (e : p = (a, t)) (h : p.2.tmp = old) : t.tmp = old := by
  rw [e] at h; exact h

theorem State.wr_keepsTmp {s : State} {f : Fld} {v : Nat} {old : Tmp} (hs : s.tmp = old) : (s.wr f v).tmp = old := hs

theorem State.satAdd_keepsTmp {s : State} {f : Fld} {n : Nat} {old : Tmp} (hs : s.tmp = old) : (s.satAdd f n).tmp = old := wr_keepsTmp hs

theorem State.wrapAdd_keepsTmp {s : State} {f : Fld} {n : Nat} {old : Tmp} (hs : s.tmp = old) : (s.wrapAdd f n).tmp = old := wr_keepsTmp hs

theorem State.setEvt_keepsTmp {s : State} {f : Fld} {bit : Nat} {old : Tmp} (hs : s.tmp = old) : (s.setEvt f bit).tmp = old :=
  keepTmp_with (wr_keepsTmp (wr_keepsTmp hs))

theorem State.setEvtAll_keepsTmp {s : State} {f : Fld} {old : Tmp} (hs : s.tmp = old) : (s.setEvtAll f).tmp = old :=
  setEvt_keepsTmp (setEvt_keepsTmp (setEvt_keepsTmp (setEvt_keepsTmp hs)))

theorem State.setStatus_keepsTmp {s : State} {f : Fld} {v : Nat} {old : Tmp} (hs : s.tmp = old) : (s.setStatus f v).tmp = old :=
  keepTmp_ite hs (setEvtAll_keepsTmp (wr_keepsTmp hs))

theorem State.countHost_keepsTmp {s : State} {n : Nat} {old : Tmp} (hs : s.tmp = old) : (s.countHost n).tmp = old := wr_keepsTmp hs

theorem State.countDraw_keepsTmp {s : State} {n : Nat} {old : Tmp} (hs : s.tmp = old) : (s.countDraw n).tmp = old := countHost_keepsTmp hs

theorem State.draw_keepsTmp {s : State} {n : Nat} {old : Tmp} (hs : s.tmp = old) : (s.draw n).2.tmp = old := countDraw_keepsTmp hs

theorem State.free_keepsTmp {s : State} {n : Nat} {old : Tmp} (hs : s.tmp = old) : (s.free n).2.tmp = old := hs

theorem State.freeNat_keepsTmp {s : State} {n : Nat} {old : Tmp} (hs : s.tmp = old) : (s.freeNat n).2.tmp = old := by
  unfold State.freeNat
  split
  rename_i x b s1 e
  exact keepTmp_of_snd e (free_keepsTmp hs)

theorem State.setPort_keepsTmp {s : State} {p : Port} {v : PortSt} {old : Tmp} (hs : s.tmp = old) : (s.setPort p v).tmp = old := by
  unfold State.setPort
  split
  · exact hs
  · exact hs

theorem State.setFnSt_keepsTmp {s : State} {f : Fn} {v : FnSt} {old : Tmp} (hs : s.tmp = old) : (s.setFnSt f v).tmp = old := hs

theorem State.setQp_keepsTmp {s : State} {f : Fn} {q : Nat} {v : Qp} {old : Tmp} (hs : s.tmp = old) : (s.setQp f q v).tmp = old := hs

theorem State.aerLog_keepsTmp {s : State} {f : Fn} {b : Nat} {old : Tmp} (hs : s.tmp = old) : (s.aerLog f b).tmp = old :=
  keepTmp_ite hs (setEvt_keepsTmp (setFnSt_keepsTmp hs))

theorem State.setCore_keepsTmp {s : State} {p : Nat} {c : Core} {old : Tmp} (hs : s.tmp = old) : (s.setCore p c).tmp = old := hs

theorem State.setChan_keepsTmp {s : State} {c : Nat} {v : Ddr} {old : Tmp} (hs : s.tmp = old) : (s.setChan c v).tmp = old := hs

theorem State.wake_keepsTmp {s : State} {d : Nat} {old : Tmp} (hs : s.tmp = old) : (s.wake d).tmp = old := keepTmp_ite (wr_keepsTmp hs) hs

theorem State.addClaim_keepsTmp {s : State} {d : Nat} {old : Tmp} (hs : s.tmp = old) : (s.addClaim d).tmp = old := wr_keepsTmp hs

theorem State.dropClaim_keepsTmp {s : State} {d : Nat} {old : Tmp} (hs : s.tmp = old) : (s.dropClaim d).tmp = old := wr_keepsTmp hs

theorem State.emit_keepsTmp {s : State} {o : Out} {old : Tmp} (hs : s.tmp = old) : (s.emit o).tmp = old := hs

theorem State.dropRecord_keepsTmp {s : State} {old : Tmp} (hs : s.tmp = old) : s.dropRecord.tmp = old :=
  setEvt_keepsTmp (satAdd_keepsTmp hs)

theorem State.enqueueRec_keepsTmp {s : State} {r : Rec} {old : Tmp} (hs : s.tmp = old) : (s.enqueueRec r).tmp = old :=
  keepTmp_ite hs (keepTmp_ite (dropRecord_keepsTmp hs) (dropRecord_keepsTmp hs))

theorem State.decideRecord_keepsTmp {s : State} {kind source : Nat} {sev arg : Nat} {old : Tmp} (hs : s.tmp = old) : (s.decideRecord kind
    source sev arg).tmp = old :=
  keepTmp_ite (satAdd_keepsTmp hs) (enqueueRec_keepsTmp (wrapAdd_keepsTmp hs))

theorem State.violation_keepsTmp {s : State} {cls : Nat} {world : World} {kind : AccKind} {source entry a : Nat} {old : Tmp} (hs : s.tmp =
    old) : (s.violation cls world kind source entry a).tmp = old :=
  setEvt_keepsTmp (keepTmp_ite (satAdd_keepsTmp hs) (wr_keepsTmp (wr_keepsTmp (wr_keepsTmp (wr_keepsTmp (wr_keepsTmp (wr_keepsTmp hs)))))))

theorem State.sweepTo_keepsTmp {s : State} {c n : Nat} {old : Tmp} (hs : s.tmp = old) : (s.sweepTo c n).tmp = old :=
  wr_keepsTmp (wr_keepsTmp (setChan_keepsTmp hs))

theorem State.fillBlock_keepsTmp {s : State} {c b : Nat} {old : Tmp} (hs : s.tmp = old) : (s.fillBlock c b).tmp = old :=
  keepTmp_ite (wr_keepsTmp (setChan_keepsTmp hs)) (sweepTo_keepsTmp hs)

theorem State.wakeMem_keepsTmp {s : State} {a : Nat} {old : Tmp} (hs : s.tmp = old) : (s.wakeMem a).tmp = old := by
  unfold State.wakeMem
  split
  · exact wake_keepsTmp hs
  · exact hs

theorem State.awaitFill_keepsTmp {s : State} {a : Nat} {old : Tmp} (hs : s.tmp = old) : (s.awaitFill a).tmp = old := by
  unfold State.awaitFill
  split
  · exact keepTmp_ite (fillBlock_keepsTmp hs) hs
  · exact hs

theorem State.captureErr_keepsTmp {s : State} {c l : Nat} {kind pos : Nat} {scrub : Bool} {old : Tmp} (hs : s.tmp = old) : (s.captureErr c
    l kind pos scrub).tmp = old :=
  keepTmp_ite hs (wr_keepsTmp (wr_keepsTmp (wr_keepsTmp (wr_keepsTmp (wr_keepsTmp (setChan_keepsTmp hs))))))

theorem State.setErr_keepsTmp {s : State} {c l : Nat} {e : Option LineErr} {old : Tmp} (hs : s.tmp = old) : (s.setErr c l e).tmp = old :=
  setChan_keepsTmp hs

theorem State.cleanLine_keepsTmp {s : State} {c l : Nat} {old : Tmp} (hs : s.tmp = old) : (s.cleanLine c l).tmp = old := setErr_keepsTmp hs

theorem State.corrected_keepsTmp {s : State} {c l : Nat} {kind pos : Nat} {scrub : Bool} {old : Tmp} (hs : s.tmp = old) : (s.corrected c l
    kind pos scrub).tmp = old :=
  setEvt_keepsTmp (satAdd_keepsTmp (captureErr_keepsTmp (cleanLine_keepsTmp hs)))

theorem State.noteRefusal_keepsTmp {s : State} {cls : Nat} {world : World} {kind : AccKind} {r : Option (Nat × Nat × Nat)} {old : Tmp} (hs
    : s.tmp = old) : (s.noteRefusal cls world kind r).tmp = old := by
  unfold State.noteRefusal
  split
  · exact violation_keepsTmp hs
  · exact hs

theorem State.send_keepsTmp {s : State} {f : Fn} {o : Out} {old : Tmp} (hs : s.tmp = old) : (s.send f o).tmp = old :=
  keepTmp_ite (setPort_keepsTmp hs) (emit_keepsTmp hs)

theorem State.vector_keepsTmp {s : State} {f : Fn} {v : Nat} {old : Tmp} (hs : s.tmp = old) : (s.vector f v).tmp = old :=
  keepTmp_ite hs (keepTmp_ite (send_keepsTmp hs) (setFnSt_keepsTmp hs))

theorem State.portClaim_keepsTmp {s : State} {p : Port} {old : Tmp} (hs : s.tmp = old) : (s.portClaim p).tmp = old :=
  keepTmp_ite (keepTmp_ite (addClaim_keepsTmp hs) hs) (keepTmp_ite hs (dropClaim_keepsTmp hs))

theorem State.nqRelease_keepsTmp {s : State} {n : Nat} {old : Tmp} (hs : s.tmp = old) : (s.nqRelease n).tmp = old := wr_keepsTmp hs

theorem State.disableQp_keepsTmp {s : State} {f : Fn} {q : Nat} {old : Tmp} (hs : s.tmp = old) : (s.disableQp f q).tmp = old := by
  unfold State.disableQp
  extract_lets unbind s1 e s2 s3 s4
  have hs1 : s1.tmp = old := setQp_keepsTmp hs
  have hs2 : s2.tmp = old := wr_keepsTmp hs1
  have hs3 : s3.tmp = old := keepTmp_ite (wr_keepsTmp (wr_keepsTmp hs2)) hs2
  have hs4 : s4.tmp = old := keepTmp_ite hs3 (portClaim_keepsTmp hs3)
  exact keepTmp_ite (nqRelease_keepsTmp hs4) hs4

theorem State.finishDelete_keepsTmp {s : State} {f : Fn} {q : Nat} {old : Tmp} (hs : s.tmp = old) : (s.finishDelete f q).tmp = old :=
  keepTmp_ite (disableQp_keepsTmp hs) hs

theorem State.setOwner_keepsTmp {s : State} {o : Nat} {v : Option Owner} {old : Tmp} (hs : s.tmp = old) : (s.setOwner o v).tmp = old := hs

theorem State.setSlot_keepsTmp {s : State} {p : Nat} {v : Option Slot} {old : Tmp} (hs : s.tmp = old) : (s.setSlot p v).tmp = old := hs

theorem State.pickSlot_keepsTmp {s : State} {old : Tmp} (hs : s.tmp = old) : s.pickSlot.2.tmp = old := by
  unfold State.pickSlot
  split
  · exact hs
  · split
    rename_i x n s1 e
    exact keepTmp_of_snd e (freeNat_keepsTmp hs)

theorem State.fillSlot_keepsTmp {s : State} {p : Nat} {secret : List Byte} {a : Attr} {h : Holder} {share : List Byte} {old : Tmp} (hs :
    s.tmp = old) : (s.fillSlot p secret a h share).tmp = old := by
  unfold State.fillSlot
  split
  · split
    rename_i x b s1 e
    have hx : s1.tmp = old := keepTmp_of_snd e (draw_keepsTmp hs)
    exact setSlot_keepsTmp hx
  · exact setSlot_keepsTmp hs

theorem State.fillDevice_keepsTmp {s : State} {n : Nat} {secret : List Byte} {old : Tmp} (hs : s.tmp = old) : (s.fillDevice n secret).tmp =
    old :=
  keepTmp_ite hs (fillSlot_keepsTmp hs)

theorem State.endApproval_keepsTmp {s : State} {id : Nat} {old : Tmp} (hs : s.tmp = old) : (s.endApproval id).tmp = old := by
  unfold State.endApproval
  split
  · exact hs
  · exact hs

theorem State.cancelApprovals_keepsTmp {s : State} {pred : Approval → Bool} {old : Tmp} (hs : s.tmp = old) : (s.cancelApprovals pred).tmp =
    old :=
  keepTmp_fold hs (fun _ _ h => endApproval_keepsTmp h)

theorem State.refreshVf_keepsTmp {s : State} {w : Nat} {old : Tmp} (hs : s.tmp = old) : (s.refreshVf w).tmp = old :=
  keepTmp_ite hs (vector_keepsTmp (wr_keepsTmp hs))

theorem State.unhold_keepsTmp {s : State} {id : Nat} {old : Tmp} (hs : s.tmp = old) : (s.unhold id).tmp = old :=
  keepTmp_fold hs (fun _ _ h => wr_keepsTmp h)

theorem State.dropCmd_keepsTmp {s : State} {id : Nat} {old : Tmp} (hs : s.tmp = old) : (s.dropCmd id).tmp = old :=
  keepTmp_with (unhold_keepsTmp hs)

theorem State.endResidency_keepsTmp {s : State} {p : Pool} {u : Nat} {old : Tmp} (hs : s.tmp = old) : (s.endResidency p u).tmp = old := by
  unfold State.endResidency
  split
  · exact keepTmp_with (wr_keepsTmp (wr_keepsTmp (wr_keepsTmp (wr_keepsTmp hs))))
  · exact hs

theorem State.alarmLevel_keepsTmp {s : State} {old : Tmp} (hs : s.tmp = old) : s.alarmLevel.tmp = old := setStatus_keepsTmp hs

theorem State.flagSource_keepsTmp {s : State} {acted : Bool} {src : Nat} {old : Tmp} (hs : s.tmp = old) : (s.flagSource acted src).tmp =
    old :=
  setEvt_keepsTmp (wr_keepsTmp (keepTmp_ite hs (wr_keepsTmp (wr_keepsTmp hs))))

theorem State.sendFrame_keepsTmp {s : State} {purge : Bool} {p : TwinPayload} {old : Tmp} (hs : s.tmp = old) : (s.sendFrame purge p).tmp =
    old :=
  hs

theorem State.sendClose_keepsTmp {s : State} {purge : Bool} {reason : Option Nat} {old : Tmp} (hs : s.tmp = old) : (s.sendClose purge
    reason).tmp = old := by
  unfold State.sendClose
  split
  · exact sendFrame_keepsTmp hs
  · split
    rename_i x n s1 e
    have hx : s1.tmp = old := keepTmp_of_snd e (freeNat_keepsTmp hs)
    exact sendFrame_keepsTmp hx

theorem State.alarmRecord_keepsTmp {s : State} {srcs code : Nat} {atStart : Bool} {old : Tmp} (hs : s.tmp = old) : (s.alarmRecord srcs code
    atStart).tmp = old :=
  keepTmp_ite hs (decideRecord_keepsTmp hs)

theorem State.nqBind_keepsTmp {s : State} {n val : Nat} {old : Tmp} (hs : s.tmp = old) : (s.nqBind n val).tmp = old :=
  keepTmp_ite (keepTmp_ite (wr_keepsTmp hs) (wr_keepsTmp (wr_keepsTmp (wr_keepsTmp (wr_keepsTmp (wr_keepsTmp hs)))))) (keepTmp_ite
    (finishDelete_keepsTmp (setQp_keepsTmp (wr_keepsTmp hs))) (wr_keepsTmp hs))

theorem State.setGr_keepsTmp {s : State} {p : Nat} {d : Reg} {v : Word64} {old : Tmp} (hs : s.tmp = old) : (s.setGr p d v).tmp = old :=
  keepTmp_ite hs (setCore_keepsTmp hs)

theorem State.captureFault_keepsTmp {s : State} {p : Pool} {u : Nat} {inService : Bool} {f : UnitFault} {old : Tmp} (hs : s.tmp = old) :
    (s.captureFault p u inService f).tmp = old := by
  unfold State.captureFault
  split
  · exact hs
  · split
    extract_lets s1
    have hs1 : s1.tmp = old := wr_keepsTmp (wr_keepsTmp (wr_keepsTmp (wr_keepsTmp hs)))
    split
    · rename_i p e e1
      exact wr_keepsTmp hs1
    · rename_i p e e1
      exact wr_keepsTmp hs1
    · exact hs1

theorem State.forgetOwner_keepsTmp {s : State} {p : Pool} {u : Nat} {old : Tmp} (hs : s.tmp = old) : (s.forgetOwner p u).tmp = old := by
  unfold State.forgetOwner
  split
  · exact keepTmp_fold hs (fun _ _ h => wr_keepsTmp h)
  · exact wr_keepsTmp hs

theorem State.markFenced_keepsTmp {s : State} {p : Pool} {u : Nat} {inService : Bool} {f : UnitFault} {old : Tmp} (hs : s.tmp = old) :
    (s.markFenced p u inService f).tmp = old := by
  unfold State.markFenced
  extract_lets s1 s2 s3 x s4
  have hs1 : s1.tmp = old := forgetOwner_keepsTmp (endResidency_keepsTmp (captureFault_keepsTmp hs))
  have hs2 : s2.tmp = old := keepTmp_ite (unhold_keepsTmp hs1) hs1
  have hs3 : s3.tmp = old := wr_keepsTmp (wr_keepsTmp (wr_keepsTmp hs2))
  have hs4 : s4.tmp = old := hs3
  exact setEvt_keepsTmp (setEvt_keepsTmp hs4)

theorem State.selectNext_keepsTmp {s : State} {p : Pool} {old : Tmp} (hs : s.tmp = old) : (s.selectNext p).tmp = old := by
  unfold State.selectNext
  extract_lets prev
  split
  · exact wr_keepsTmp hs
  · exact hs

theorem State.reassign_keepsTmp {s : State} {p : Pool} {wasTesting wasSpare wasServing : Bool} {old : Tmp} (hs : s.tmp = old) : (s.reassign
    p wasTesting wasSpare wasServing).tmp = old := by
  unfold State.reassign
  extract_lets spare s1 x
  have hs1 : s1.tmp = old := wr_keepsTmp (wr_keepsTmp hs)
  split
  · exact keepTmp_ite (setEvt_keepsTmp (wr_keepsTmp (wr_keepsTmp (wr_keepsTmp (wr_keepsTmp hs))))) (keepTmp_ite (wr_keepsTmp (wr_keepsTmp
    (wr_keepsTmp (wr_keepsTmp hs)))) (wr_keepsTmp (wr_keepsTmp hs)))
  · exact keepTmp_ite (setEvt_keepsTmp hs) (keepTmp_ite hs1 (keepTmp_ite (selectNext_keepsTmp hs) hs))

theorem State.aerOf_keepsTmp {s : State} {f : Fn} {old : Tmp} (hs : s.tmp = old) : (s.aerOf f).tmp = old := by
  unfold State.aerOf
  split
  · exact hs
  · split
    rename_i x n s1 e
    have hx : s1.tmp = old := keepTmp_of_snd e (freeNat_keepsTmp hs)
    exact aerLog_keepsTmp hx

theorem State.captureEnt_keepsTmp {s : State} {q cell test : Nat} {startup : Bool} {old : Tmp} (hs : s.tmp = old) : (s.captureEnt q cell
    test startup).tmp = old :=
  keepTmp_ite hs (wr_keepsTmp (wr_keepsTmp (wr_keepsTmp (wr_keepsTmp hs))))

theorem State.remask_keepsTmp {s : State} {p : Nat} {sl : Slot} {old : Tmp} (hs : s.tmp = old) : (s.remask p sl).tmp = old := by
  unfold State.remask
  split
  rename_i x b s1 e
  have hx : s1.tmp = old := keepTmp_of_snd e (draw_keepsTmp hs)
  exact setSlot_keepsTmp hx

theorem State.restoreSlot_keepsTmp {s : State} {old : Tmp} (hs : s.tmp = old) : s.restoreSlot.2.tmp = old := by
  unfold State.restoreSlot
  split
  · exact hs
  · exact pickSlot_keepsTmp hs

theorem State.restoreDevice_keepsTmp {s : State} {k : DeviceKey} {p : Nat} {old : Tmp} (hs : s.tmp = old) : (s.restoreDevice k p).tmp = old
    := by
  unfold State.restoreDevice
  split
  · extract_lets s1
    have hs1 : s1.tmp = old := fillSlot_keepsTmp hs
    refine setEvt_keepsTmp ?_
    split
    · exact setOwner_keepsTmp hs1
    · exact hs1
  · extract_lets x s1
    have hs1 : s1.tmp = old := hs
    split
    · split
      rename_i x1 b s2 e
      have hx : s2.tmp = old := keepTmp_of_snd e (draw_keepsTmp hs1)
      exact keepTmp_with (fillDevice_keepsTmp hx)
    · exact setEvt_keepsTmp (fillDevice_keepsTmp hs1)

theorem State.svcReturn_keepsTmp {s : State} {p status : Nat} {g2 g3 : Option Word64} {old : Tmp} (hs : s.tmp = old) : (s.svcReturn p
    status g2 g3).tmp = old := by
  unfold State.svcReturn
  split
  rename_i x n s1 e
  have hx : s1.tmp = old := keepTmp_of_snd e (freeNat_keepsTmp hs)
  split
  rename_i x1 n1 s2 e1
  have hx1 : s2.tmp = old := keepTmp_of_snd e1 (freeNat_keepsTmp hx)
  split
  rename_i x2 n2 s3 e2
  have hx2 : s3.tmp = old := keepTmp_of_snd e2 (freeNat_keepsTmp hx1)
  exact setGr_keepsTmp (setGr_keepsTmp (setGr_keepsTmp (setGr_keepsTmp hx2)))

theorem State.cycleSets_keepsTmp {s : State} {p : Pool} {u : Nat} {old : Tmp} (hs : s.tmp = old) : (s.cycleSets p u).tmp = old := by
  unfold State.cycleSets
  split
  · exact wr_keepsTmp (wr_keepsTmp hs)
  · exact wr_keepsTmp hs
  · exact wr_keepsTmp (wr_keepsTmp (wr_keepsTmp hs))
  · exact wr_keepsTmp hs
  · exact hs

theorem State.cmpFault_keepsTmp {s : State} {p : Pool} {cause : Nat} {old : Tmp} (hs : s.tmp = old) : (s.cmpFault p cause).tmp = old := by
  unfold State.cmpFault
  split
  · exact keepTmp_ite (setEvt_keepsTmp hs) hs
  · exact keepTmp_ite (setEvt_keepsTmp hs) hs
  · exact hs

/-! ### `State.twn` -/

theorem keepTwn_ite {old : Twn} {c : Prop} [Decidable c] {s t : State} (hs : s.twn = old) (ht : t.twn = old) : (if c then s else t).twn =
  old := by
  split
  · exact hs
  · exact ht

theorem keepTwn_with {s : State} {old : Twn} {pending regs mem time freeCtr out edges bus pins cfg boot pwr evr tmp portA portB vfs fns qps
  dsp keys cores mbx act ddr ent eng lc tap lts} (h : s.twn = old) :
    State.twn ⟨pending, regs, mem, time, freeCtr, out, edges, bus, pins, cfg, boot, pwr, evr, tmp, portA, portB, vfs, fns, qps, dsp, keys,
      cores, mbx, act, ddr, ent, eng, lc, tap, s.twn, lts⟩ = old := h

theorem State.wr_keepsTwn {s : State} {f : Fld} {v : Nat} {old : Twn} (hs : s.twn = old) : (s.wr f v).twn = old := hs

theorem State.setEvt_keepsTwn {s : State} {f : Fld} {bit : Nat} {old : Twn} (hs : s.twn = old) : (s.setEvt f bit).twn = old :=
  keepTwn_with (wr_keepsTwn (wr_keepsTwn hs))

theorem State.setEvtAll_keepsTwn {s : State} {f : Fld} {old : Twn} (hs : s.twn = old) : (s.setEvtAll f).twn = old :=
  setEvt_keepsTwn (setEvt_keepsTwn (setEvt_keepsTwn (setEvt_keepsTwn hs)))

theorem State.setStatus_keepsTwn {s : State} {f : Fld} {v : Nat} {old : Twn} (hs : s.twn = old) : (s.setStatus f v).twn = old :=
  keepTwn_ite hs (setEvtAll_keepsTwn (wr_keepsTwn hs))

/-! ### `State.pins` -/

theorem keepPins_ite {old : Pins} {c : Prop} [Decidable c] {s t : State} (hs : s.pins = old) (ht : t.pins = old) : (if c then s else
  t).pins = old := by
  split
  · exact hs
  · exact ht

theorem keepPins_with {s : State} {old : Pins} {pending regs mem time freeCtr out edges bus cfg boot pwr evr tmp portA portB vfs fns qps
  dsp keys cores mbx act ddr ent eng lc tap twn lts} (h : s.pins = old) :
    State.pins ⟨pending, regs, mem, time, freeCtr, out, edges, bus, s.pins, cfg, boot, pwr, evr, tmp, portA, portB, vfs, fns, qps, dsp,
      keys, cores, mbx, act, ddr, ent, eng, lc, tap, twn, lts⟩ = old := h

theorem keepPins_fold {old : Pins} {α : Type} {f : State → α → State} {l : List α} {s : State} (h : s.pins = old)
    (hf : ∀ s a, s.pins = old → (f s a).pins = old) : (l.foldl f s).pins = old := by
  induction l generalizing s with
  | nil => exact h
  | cons a t ih => exact ih (hf s a h)

theorem keepPins_of_snd {old : Pins} {α : Type} {p : α × State} {a : α} {t : State} (e : p = (a, t)) (h : p.2.pins = old) : t.pins = old :=
  by rw [e] at h; exact h

theorem State.wr_keepsPins {s : State} {f : Fld} {v : Nat} {old : Pins} (hs : s.pins = old) : (s.wr f v).pins = old := hs

theorem State.clearRegs_keepsPins {s : State} {lo hi : Nat} {old : Pins} (hs : s.pins = old) : (s.clearRegs lo hi).pins = old := hs

theorem State.setEvt_keepsPins {s : State} {f : Fld} {bit : Nat} {old : Pins} (hs : s.pins = old) : (s.setEvt f bit).pins = old :=
  keepPins_with (wr_keepsPins (wr_keepsPins hs))

theorem State.setEvtAll_keepsPins {s : State} {f : Fld} {old : Pins} (hs : s.pins = old) : (s.setEvtAll f).pins = old :=
  setEvt_keepsPins (setEvt_keepsPins (setEvt_keepsPins (setEvt_keepsPins hs)))

theorem State.setStatus_keepsPins {s : State} {f : Fld} {v : Nat} {old : Pins} (hs : s.pins = old) : (s.setStatus f v).pins = old :=
  keepPins_ite hs (setEvtAll_keepsPins (wr_keepsPins hs))

theorem State.free_keepsPins {s : State} {n : Nat} {old : Pins} (hs : s.pins = old) : (s.free n).2.pins = old := hs

theorem State.freeNat_keepsPins {s : State} {n : Nat} {old : Pins} (hs : s.pins = old) : (s.freeNat n).2.pins = old := by
  unfold State.freeNat
  split
  rename_i x b s1 e
  exact keepPins_of_snd e (free_keepsPins hs)

theorem State.setPort_keepsPins {s : State} {p : Port} {v : PortSt} {old : Pins} (hs : s.pins = old) : (s.setPort p v).pins = old := by
  unfold State.setPort
  split
  · exact hs
  · exact hs

theorem State.setFnSt_keepsPins {s : State} {f : Fn} {v : FnSt} {old : Pins} (hs : s.pins = old) : (s.setFnSt f v).pins = old := hs

theorem State.setQp_keepsPins {s : State} {f : Fn} {q : Nat} {v : Qp} {old : Pins} (hs : s.pins = old) : (s.setQp f q v).pins = old := hs

theorem State.addClaim_keepsPins {s : State} {d : Nat} {old : Pins} (hs : s.pins = old) : (s.addClaim d).pins = old := wr_keepsPins hs

theorem State.dropClaim_keepsPins {s : State} {d : Nat} {old : Pins} (hs : s.pins = old) : (s.dropClaim d).pins = old := wr_keepsPins hs

theorem State.emit_keepsPins {s : State} {o : Out} {old : Pins} (hs : s.pins = old) : (s.emit o).pins = old := hs

theorem State.dropSync_keepsPins {s : State} {k : Nat} {old : Pins} (hs : s.pins = old) : (s.dropSync k).pins = old :=
  keepPins_fold hs (fun _ _ h => wr_keepsPins h)

theorem State.endEye_keepsPins {s : State} {result errors : Nat} {old : Pins} (hs : s.pins = old) : (s.endEye result errors).pins = old :=
  wr_keepsPins (keepPins_with (wr_keepsPins (wr_keepsPins (wr_keepsPins hs))))

theorem State.stopEye_keepsPins {s : State} {k : Nat} {old : Pins} (hs : s.pins = old) : (s.stopEye k).pins = old := by
  unfold State.stopEye
  split
  · split
    · split
      rename_i x n s1 e
      have hx : s1.pins = old := keepPins_of_snd e (freeNat_keepsPins hs)
      exact endEye_keepsPins hx
    · exact hs
  · exact hs

theorem State.leaveTest_keepsPins {s : State} {k : Nat} {old : Pins} (hs : s.pins = old) : (s.leaveTest k).pins = old :=
  keepPins_ite (stopEye_keepsPins (dropSync_keepsPins (wr_keepsPins (wr_keepsPins (wr_keepsPins (wr_keepsPins hs)))))) hs

theorem State.send_keepsPins {s : State} {f : Fn} {o : Out} {old : Pins} (hs : s.pins = old) : (s.send f o).pins = old :=
  keepPins_ite (setPort_keepsPins hs) (emit_keepsPins hs)

theorem State.portClaim_keepsPins {s : State} {p : Port} {old : Pins} (hs : s.pins = old) : (s.portClaim p).pins = old :=
  keepPins_ite (keepPins_ite (addClaim_keepsPins hs) hs) (keepPins_ite hs (dropClaim_keepsPins hs))

theorem State.nqRelease_keepsPins {s : State} {n : Nat} {old : Pins} (hs : s.pins = old) : (s.nqRelease n).pins = old := wr_keepsPins hs

theorem State.disableQp_keepsPins {s : State} {f : Fn} {q : Nat} {old : Pins} (hs : s.pins = old) : (s.disableQp f q).pins = old := by
  unfold State.disableQp
  extract_lets unbind s1 e s2 s3 s4
  have hs1 : s1.pins = old := setQp_keepsPins hs
  have hs2 : s2.pins = old := wr_keepsPins hs1
  have hs3 : s3.pins = old := keepPins_ite (wr_keepsPins (wr_keepsPins hs2)) hs2
  have hs4 : s4.pins = old := keepPins_ite hs3 (portClaim_keepsPins hs3)
  exact keepPins_ite (nqRelease_keepsPins hs4) hs4

theorem State.dropCtxs_keepsPins {s : State} {pred : Ctx → Bool} {old : Pins} (hs : s.pins = old) : (s.dropCtxs pred).pins = old := hs

theorem State.unhold_keepsPins {s : State} {id : Nat} {old : Pins} (hs : s.pins = old) : (s.unhold id).pins = old :=
  keepPins_fold hs (fun _ _ h => wr_keepsPins h)

theorem State.dropCmd_keepsPins {s : State} {id : Nat} {old : Pins} (hs : s.pins = old) : (s.dropCmd id).pins = old :=
  keepPins_with (unhold_keepsPins hs)

theorem State.endResidency_keepsPins {s : State} {p : Pool} {u : Nat} {old : Pins} (hs : s.pins = old) : (s.endResidency p u).pins = old :=
    by
  unfold State.endResidency
  split
  · exact keepPins_with (wr_keepsPins (wr_keepsPins (wr_keepsPins (wr_keepsPins hs))))
  · exact hs

theorem State.clearUnit_keepsPins {s : State} {p : Pool} {u : Nat} {old : Pins} (hs : s.pins = old) : (s.clearUnit p u).pins = old := by
  unfold State.clearUnit
  extract_lets x s1 s2
  have hs1 : s1.pins = old := hs
  have hs2 : s2.pins = old := endResidency_keepsPins (wr_keepsPins hs1)
  split
  · rename_i p
    exact keepPins_fold hs2 (fun _ _ h => wr_keepsPins h)
  · exact wr_keepsPins hs2

theorem State.idleFields_keepsPins {s : State} {p : Pool} {u l : Nat} {old : Pins} (hs : s.pins = old) : (s.idleFields p u l).pins = old :=
    by
  unfold State.idleFields
  split
  · exact hs
  · exact wr_keepsPins (wr_keepsPins (wr_keepsPins hs))
  · exact wr_keepsPins hs
  · exact wr_keepsPins hs
  · exact wr_keepsPins hs

theorem State.releaseLane_keepsPins {s : State} {p : Pool} {u l : Nat} {keep : Bool} {old : Pins} (hs : s.pins = old) : (s.releaseLane p u
    l keep).pins = old := by
  unfold State.releaseLane
  extract_lets tile x s1 s2 s3 s4
  have hs1 : s1.pins = old := hs
  have hs2 : s2.pins = old := dropClaim_keepsPins hs1
  have hs3 : s3.pins = old := keepPins_ite (keepPins_fold hs2 (fun _ _ h => idleFields_keepsPins h)) (idleFields_keepsPins hs2)
  have hs4 : s4.pins = old := keepPins_ite (wr_keepsPins (wr_keepsPins hs3)) (wr_keepsPins hs3)
  split
  · rename_i p
    exact keepPins_ite hs4 (keepPins_ite (clearUnit_keepsPins hs4) (wr_keepsPins hs4))
  · exact keepPins_ite (keepPins_ite (wr_keepsPins hs3) hs3) (keepPins_ite hs3 (clearUnit_keepsPins hs3))

theorem State.releaseExtra_keepsPins {s : State} {c : Cmd} {keep : Bool} {old : Pins} (hs : s.pins = old) : (s.releaseExtra c keep).pins =
    old := by
  unfold State.releaseExtra
  split
  · exact keepPins_ite (releaseLane_keepsPins hs) hs
  · exact hs

theorem State.releaseUnit_keepsPins {s : State} {c : Cmd} {keep : Bool} {old : Pins} (hs : s.pins = old) : (s.releaseUnit c keep).pins =
    old := by
  unfold State.releaseUnit
  extract_lets s1
  have hs1 : s1.pins = old := releaseExtra_keepsPins hs
  split
  · exact keepPins_ite (releaseLane_keepsPins hs1) hs1
  · exact hs1

theorem State.discardCmd_keepsPins {s : State} {c : Cmd} {old : Pins} (hs : s.pins = old) : (s.discardCmd c).pins = old :=
  setQp_keepsPins (dropCmd_keepsPins (releaseUnit_keepsPins hs))

theorem exportRecs_keepsPins {p : Port} {n : Nat} {l : List Rec} {s : State} {old : Pins} (hs : s.pins = old) : (exportRecs p n l s).pins =
    old := by
  induction l generalizing p n s with
  | nil =>
    unfold exportRecs
    exact hs
  | cons x l ih =>
    unfold exportRecs
    exact ih (send_keepsPins hs)

theorem State.expEnd_keepsPins {s : State} {p : Port} {result n : Nat} {old : Pins} (hs : s.pins = old) : (s.expEnd p result n).pins = old
    := by
  unfold State.expEnd
  extract_lets b l a s1 s2 s3
  have hs1 : s1.pins = old := exportRecs_keepsPins hs
  have hs2 : s2.pins = old := wr_keepsPins (wr_keepsPins (wr_keepsPins hs1))
  have hs3 : s3.pins = old := by
    unfold s3
    split
    · exact wr_keepsPins hs2
    · exact hs2
  exact setEvt_keepsPins hs3

theorem State.expReset_keepsPins {s : State} {p : Port} {old : Pins} (hs : s.pins = old) : (s.expReset p).pins = old := by
  unfold State.expReset
  split
  · split
    rename_i x n s1 e
    have hx : s1.pins = old := keepPins_of_snd e (freeNat_keepsPins hs)
    exact expEnd_keepsPins hx
  · exact hs

theorem State.emptyMbx_keepsPins {s : State} {lo n : Nat} {old : Pins} (hs : s.pins = old) : (s.emptyMbx lo n).pins = old :=
  keepPins_with (clearRegs_keepsPins hs)

theorem State.dropHeld_keepsPins {s : State} {pred : Fn → Bool} {p : Port} {old : Pins} (hs : s.pins = old) : (s.dropHeld pred p).pins =
    old :=
  setPort_keepsPins hs

theorem State.stopFns_keepsPins {s : State} {pred : Fn → Bool} {old : Pins} (hs : s.pins = old) : (s.stopFns pred).pins = old :=
  keepPins_fold (dropHeld_keepsPins (dropHeld_keepsPins (keepPins_fold (dropCtxs_keepsPins (keepPins_fold hs (fun _ _ h =>
    discardCmd_keepsPins h))) (fun _ _ h => disableQp_keepsPins h)))) (fun _ _ h => setFnSt_keepsPins h)

theorem State.linkOff_keepsPins {s : State} {p : Port} {old : Pins} (hs : s.pins = old) : (s.linkOff p).pins = old :=
  setPort_keepsPins (wr_keepsPins (wr_keepsPins (wr_keepsPins (wr_keepsPins (wr_keepsPins (leaveTest_keepsPins hs))))))

theorem State.dropVfEnable_keepsPins {s : State} {p : Port} {old : Pins} (hs : s.pins = old) : (s.dropVfEnable p).pins = old :=
  keepPins_ite (setEvt_keepsPins (setPort_keepsPins hs)) (setPort_keepsPins hs)

theorem State.teardownAll_keepsPins {s : State} {p : Port} {old : Pins} (hs : s.pins = old) : (s.teardownAll p).pins = old :=
  keepPins_fold (stopFns_keepsPins hs) (fun _ _ h => wr_keepsPins h)

theorem State.emptyPortMbx_keepsPins {s : State} {p : Port} {old : Pins} (hs : s.pins = old) : (s.emptyPortMbx p).pins = old :=
  emptyMbx_keepsPins hs

theorem State.resetPort_keepsPins {s : State} {p : Port} {kind : Nat} {old : Pins} (hs : s.pins = old) : (s.resetPort p kind).pins = old :=
  setPort_keepsPins (emptyPortMbx_keepsPins (dropVfEnable_keepsPins (teardownAll_keepsPins (stopFns_keepsPins (expReset_keepsPins hs)))))

theorem State.clearPortRegs_keepsPins {s : State} {p : Port} {old : Pins} (hs : s.pins = old) : (s.clearPortRegs p).pins = old :=
  clearRegs_keepsPins (clearRegs_keepsPins (clearRegs_keepsPins hs))

theorem State.trainPort_keepsPins {s : State} {p : Port} {old : Pins} (hs : s.pins = old) : (s.trainPort p).pins = old :=
  keepPins_ite (setPort_keepsPins hs) hs

theorem State.risePerst_keepsPins {s : State} {p : Port} {old : Pins} (hs : s.pins = old) : (s.risePerst p).pins = old :=
  keepPins_ite (trainPort_keepsPins (setEvt_keepsPins (clearPortRegs_keepsPins hs))) hs

/-! ### `State.boot` -/

theorem keepBoot_ite {old : Boot} {c : Prop} [Decidable c] {s t : State} (hs : s.boot = old) (ht : t.boot = old) : (if c then s else
  t).boot = old := by
  split
  · exact hs
  · exact ht

theorem keepBoot_ite_snd {old : Boot} {α : Type} {c : Prop} [Decidable c] {x y : α × State} (hx : x.2.boot = old) (hy : y.2.boot = old) :
    (if c then x else y).2.boot = old := by
  split
  · exact hx
  · exact hy

theorem keepBoot_with {s : State} {old : Boot} {pending regs mem time freeCtr out edges bus pins cfg pwr evr tmp portA portB vfs fns qps
  dsp keys cores mbx act ddr ent eng lc tap twn lts} (h : s.boot = old) :
    State.boot ⟨pending, regs, mem, time, freeCtr, out, edges, bus, pins, cfg, s.boot, pwr, evr, tmp, portA, portB, vfs, fns, qps, dsp,
      keys, cores, mbx, act, ddr, ent, eng, lc, tap, twn, lts⟩ = old := h

theorem keepBoot_fold {old : Boot} {α : Type} {f : State → α → State} {l : List α} {s : State} (h : s.boot = old)
    (hf : ∀ s a, s.boot = old → (f s a).boot = old) : (l.foldl f s).boot = old := by
  induction l generalizing s with
  | nil => exact h
  | cons a t ih => exact ih (hf s a h)

theorem keepBoot_fold_snd {old : Boot} {α β : Type} {f : β × State → α → β × State} {l : List α} {x : β × State} (h : x.2.boot = old)
    (hf : ∀ (x : β × State) a, x.2.boot = old → (f x a).2.boot = old) : (l.foldl f x).2.boot = old := by
  induction l generalizing x with
  | nil => exact h
  | cons a t ih => exact ih (hf x a h)

theorem keepBoot_of_snd {old : Boot} {α : Type} {p : α × State} {a : α} {t : State} (e : p = (a, t)) (h : p.2.boot = old) : t.boot = old :=
  by rw [e] at h; exact h

theorem keepBoot_of_thd {old : Boot} {α β : Type} {p : α × β × State} {a : α} {b : β} {t : State} (e : p = (a, b, t)) (h : p.2.2.boot =
  old) : t.boot = old := by
  rw [e] at h; exact h

theorem State.wr_keepsBoot {s : State} {f : Fld} {v : Nat} {old : Boot} (hs : s.boot = old) : (s.wr f v).boot = old := hs

theorem State.satAdd_keepsBoot {s : State} {f : Fld} {n : Nat} {old : Boot} (hs : s.boot = old) : (s.satAdd f n).boot = old :=
  wr_keepsBoot hs

theorem State.wrapAdd_keepsBoot {s : State} {f : Fld} {n : Nat} {old : Boot} (hs : s.boot = old) : (s.wrapAdd f n).boot = old :=
  wr_keepsBoot hs

theorem State.clearRegs_keepsBoot {s : State} {lo hi : Nat} {old : Boot} (hs : s.boot = old) : (s.clearRegs lo hi).boot = old := hs

theorem State.setEvt_keepsBoot {s : State} {f : Fld} {bit : Nat} {old : Boot} (hs : s.boot = old) : (s.setEvt f bit).boot = old :=
  keepBoot_with (wr_keepsBoot (wr_keepsBoot hs))

theorem State.setEvtAll_keepsBoot {s : State} {f : Fld} {old : Boot} (hs : s.boot = old) : (s.setEvtAll f).boot = old :=
  setEvt_keepsBoot (setEvt_keepsBoot (setEvt_keepsBoot (setEvt_keepsBoot hs)))

theorem State.setStatus_keepsBoot {s : State} {f : Fld} {v : Nat} {old : Boot} (hs : s.boot = old) : (s.setStatus f v).boot = old :=
  keepBoot_ite hs (setEvtAll_keepsBoot (wr_keepsBoot hs))

theorem State.free_keepsBoot {s : State} {n : Nat} {old : Boot} (hs : s.boot = old) : (s.free n).2.boot = old := hs

theorem State.freeNat_keepsBoot {s : State} {n : Nat} {old : Boot} (hs : s.boot = old) : (s.freeNat n).2.boot = old := by
  unfold State.freeNat
  split
  rename_i x b s1 e
  exact keepBoot_of_snd e (free_keepsBoot hs)

theorem State.setPort_keepsBoot {s : State} {p : Port} {v : PortSt} {old : Boot} (hs : s.boot = old) : (s.setPort p v).boot = old := by
  unfold State.setPort
  split
  · exact hs
  · exact hs

theorem State.setFnSt_keepsBoot {s : State} {f : Fn} {v : FnSt} {old : Boot} (hs : s.boot = old) : (s.setFnSt f v).boot = old := hs

theorem State.setVf_keepsBoot {s : State} {p : Port} {n : Nat} {v : Vf} {old : Boot} (hs : s.boot = old) : (s.setVf p n v).boot = old := hs

theorem State.setQp_keepsBoot {s : State} {f : Fn} {q : Nat} {v : Qp} {old : Boot} (hs : s.boot = old) : (s.setQp f q v).boot = old := hs

theorem State.setCore_keepsBoot {s : State} {p : Nat} {c : Core} {old : Boot} (hs : s.boot = old) : (s.setCore p c).boot = old := hs

theorem State.setChan_keepsBoot {s : State} {c : Nat} {v : Ddr} {old : Boot} (hs : s.boot = old) : (s.setChan c v).boot = old := hs

theorem State.wake_keepsBoot {s : State} {d : Nat} {old : Boot} (hs : s.boot = old) : (s.wake d).boot = old :=
  keepBoot_ite (wr_keepsBoot hs) hs

theorem State.addClaim_keepsBoot {s : State} {d : Nat} {old : Boot} (hs : s.boot = old) : (s.addClaim d).boot = old := wr_keepsBoot hs

theorem State.dropClaim_keepsBoot {s : State} {d : Nat} {old : Boot} (hs : s.boot = old) : (s.dropClaim d).boot = old := wr_keepsBoot hs

theorem State.emit_keepsBoot {s : State} {o : Out} {old : Boot} (hs : s.boot = old) : (s.emit o).boot = old := hs

theorem State.dropSync_keepsBoot {s : State} {k : Nat} {old : Boot} (hs : s.boot = old) : (s.dropSync k).boot = old :=
  keepBoot_fold hs (fun _ _ h => wr_keepsBoot h)

theorem State.endEye_keepsBoot {s : State} {result errors : Nat} {old : Boot} (hs : s.boot = old) : (s.endEye result errors).boot = old :=
  wr_keepsBoot (keepBoot_with (wr_keepsBoot (wr_keepsBoot (wr_keepsBoot hs))))

theorem State.stopEye_keepsBoot {s : State} {k : Nat} {old : Boot} (hs : s.boot = old) : (s.stopEye k).boot = old := by
  unfold State.stopEye
  split
  · split
    · split
      rename_i x n s1 e
      have hx : s1.boot = old := keepBoot_of_snd e (freeNat_keepsBoot hs)
      exact endEye_keepsBoot hx
    · exact hs
  · exact hs

theorem State.leaveTest_keepsBoot {s : State} {k : Nat} {old : Boot} (hs : s.boot = old) : (s.leaveTest k).boot = old :=
  keepBoot_ite (stopEye_keepsBoot (dropSync_keepsBoot (wr_keepsBoot (wr_keepsBoot (wr_keepsBoot (wr_keepsBoot hs)))))) hs

theorem State.hold_keepsBoot {s : State} {a : HeldAccess} {old : Boot} (hs : s.boot = old) : (s.hold a).boot = old := hs

theorem State.dropRecord_keepsBoot {s : State} {old : Boot} (hs : s.boot = old) : s.dropRecord.boot = old :=
  setEvt_keepsBoot (satAdd_keepsBoot hs)

theorem State.enqueueRec_keepsBoot {s : State} {r : Rec} {old : Boot} (hs : s.boot = old) : (s.enqueueRec r).boot = old :=
  keepBoot_ite hs (keepBoot_ite (dropRecord_keepsBoot hs) (dropRecord_keepsBoot hs))

theorem State.decideRecord_keepsBoot {s : State} {kind source : Nat} {sev arg : Nat} {old : Boot} (hs : s.boot = old) : (s.decideRecord
    kind source sev arg).boot = old :=
  keepBoot_ite (satAdd_keepsBoot hs) (enqueueRec_keepsBoot (wrapAdd_keepsBoot hs))

theorem State.recordInternal_keepsBoot {s : State} {source detail : Nat} {cid vf port : Nat} {old : Boot} (hs : s.boot = old) :
    (s.recordInternal source detail cid vf port).boot = old :=
  decideRecord_keepsBoot hs

theorem State.violation_keepsBoot {s : State} {cls : Nat} {world : World} {kind : AccKind} {source entry a : Nat} {old : Boot} (hs : s.boot
    = old) : (s.violation cls world kind source entry a).boot = old :=
  setEvt_keepsBoot (keepBoot_ite (satAdd_keepsBoot hs) (wr_keepsBoot (wr_keepsBoot (wr_keepsBoot (wr_keepsBoot (wr_keepsBoot (wr_keepsBoot
    hs)))))))

theorem State.sweepTo_keepsBoot {s : State} {c n : Nat} {old : Boot} (hs : s.boot = old) : (s.sweepTo c n).boot = old :=
  wr_keepsBoot (wr_keepsBoot (setChan_keepsBoot hs))

theorem State.fillBlock_keepsBoot {s : State} {c b : Nat} {old : Boot} (hs : s.boot = old) : (s.fillBlock c b).boot = old :=
  keepBoot_ite (wr_keepsBoot (setChan_keepsBoot hs)) (sweepTo_keepsBoot hs)

theorem State.wakeMem_keepsBoot {s : State} {a : Nat} {old : Boot} (hs : s.boot = old) : (s.wakeMem a).boot = old := by
  unfold State.wakeMem
  split
  · exact wake_keepsBoot hs
  · exact hs

theorem State.awaitFill_keepsBoot {s : State} {a : Nat} {old : Boot} (hs : s.boot = old) : (s.awaitFill a).boot = old := by
  unfold State.awaitFill
  split
  · exact keepBoot_ite (fillBlock_keepsBoot hs) hs
  · exact hs

theorem State.captureErr_keepsBoot {s : State} {c l : Nat} {kind pos : Nat} {scrub : Bool} {old : Boot} (hs : s.boot = old) : (s.captureErr
    c l kind pos scrub).boot = old :=
  keepBoot_ite hs (wr_keepsBoot (wr_keepsBoot (wr_keepsBoot (wr_keepsBoot (wr_keepsBoot (setChan_keepsBoot hs))))))

theorem State.setErr_keepsBoot {s : State} {c l : Nat} {e : Option LineErr} {old : Boot} (hs : s.boot = old) : (s.setErr c l e).boot = old
    :=
  setChan_keepsBoot hs

theorem State.cleanLine_keepsBoot {s : State} {c l : Nat} {old : Boot} (hs : s.boot = old) : (s.cleanLine c l).boot = old :=
  setErr_keepsBoot hs

theorem State.corrected_keepsBoot {s : State} {c l : Nat} {kind pos : Nat} {scrub : Bool} {old : Boot} (hs : s.boot = old) : (s.corrected c
    l kind pos scrub).boot = old :=
  setEvt_keepsBoot (satAdd_keepsBoot (captureErr_keepsBoot (cleanLine_keepsBoot hs)))

theorem State.fireMem_keepsBoot {s : State} {old : Boot} (hs : s.boot = old) : s.fireMem.boot = old := hs

theorem State.uncorrectable_keepsBoot {s : State} {c l : Nat} {scrub : Bool} {old : Boot} (hs : s.boot = old) : (s.uncorrectable c l
    scrub).boot = old :=
  fireMem_keepsBoot (setEvt_keepsBoot (satAdd_keepsBoot (captureErr_keepsBoot hs)))

theorem State.checkLine_keepsBoot {s : State} {c l : Nat} {scrub : Bool} {old : Boot} (hs : s.boot = old) : (s.checkLine c l scrub).boot =
    old := by
  unfold State.checkLine
  split
  · exact hs
  · exact corrected_keepsBoot hs
  · exact corrected_keepsBoot hs
  · exact uncorrectable_keepsBoot hs

theorem State.rmwFail_keepsBoot {s : State} {c l : Nat} {old : Boot} (hs : s.boot = old) : (s.rmwFail c l).boot = old :=
  setEvt_keepsBoot (uncorrectable_keepsBoot hs)

theorem State.setBytes_keepsBoot {s : State} {a : Nat} {l : List Byte} {old : Boot} (hs : s.boot = old) : (s.setBytes a l).boot = old := hs

theorem State.noteRefusal_keepsBoot {s : State} {cls : Nat} {world : World} {kind : AccKind} {r : Option (Nat × Nat × Nat)} {old : Boot}
    (hs : s.boot = old) : (s.noteRefusal cls world kind r).boot = old := by
  unfold State.noteRefusal
  split
  · exact violation_keepsBoot hs
  · exact hs

theorem State.serveLine_keepsBoot {s : State} {x : LineAccess} {old : Boot} (hs : s.boot = old) : (s.serveLine x).2.boot = old := by
  unfold State.serveLine
  split
  · exact hs
  · extract_lets a bad
    exact keepBoot_ite_snd hs (keepBoot_ite_snd (checkLine_keepsBoot hs) (keepBoot_ite_snd (keepBoot_ite hs (setBytes_keepsBoot
      (cleanLine_keepsBoot hs))) (keepBoot_ite_snd (rmwFail_keepsBoot hs) (setBytes_keepsBoot (checkLine_keepsBoot hs)))))

theorem State.yieldLock_keepsBoot {s : State} {c l : Nat} {old : Boot} (hs : s.boot = old) : (s.yieldLock c l).boot = old := by
  unfold State.yieldLock
  split
  · exact hs
  · exact setChan_keepsBoot (keepBoot_fold_snd hs fun _ _ h => serveLine_keepsBoot h)

theorem State.awaitLines_keepsBoot {s : State} {bs : List (Nat × Nat)} {old : Boot} (hs : s.boot = old) : (s.awaitLines bs).boot = old :=
  keepBoot_fold (keepBoot_fold hs (fun _ _ h => awaitFill_keepsBoot (wakeMem_keepsBoot h))) (fun _ _ h => yieldLock_keepsBoot h)

theorem putBeats_keepsBoot {skip : Nat × Nat → Bool} {l1 : List (Nat × Nat)} {l : List Byte} {s : State} {old : Boot} (hs : s.boot = old) :
    (putBeats skip l1 l s).boot = old := by
  induction l1 generalizing skip l s with
  | nil =>
    unfold putBeats
    exact hs
  | cons x l1 ih =>
    unfold putBeats
    exact ih (keepBoot_ite hs (setBytes_keepsBoot hs))

theorem State.writeMem_keepsBoot {s : State} {cls : Nat} {world : World} {a : Nat} {l : List Byte} {old : Boot} (hs : s.boot = old) :
    (s.writeMem cls world a l).2.boot = old := by
  unfold State.writeMem
  extract_lets bs r up s1
  have hs1 : s1.boot = old := awaitLines_keepsBoot hs
  split
  extract_lets s2 drop lost s'
  have hs2 : s2.boot = old := keepBoot_ite hs1 (keepBoot_fold hs1 (fun _ _ h => cleanLine_keepsBoot h))
  have hs' : s'.boot = old := keepBoot_fold hs2 (fun _ _ h => keepBoot_ite (rmwFail_keepsBoot h) (checkLine_keepsBoot h))
  exact noteRefusal_keepsBoot (putBeats_keepsBoot hs')

theorem writeAccesses_keepsBoot {cls : Nat} {world : World} {l1 : List (Nat × Nat)} {l : List Byte} {s : State} {old : Boot} (hs : s.boot =
    old) : (writeAccesses cls world l1 l s).2.boot = old := by
  induction l1 generalizing cls world l s with
  | nil =>
    unfold writeAccesses
    exact hs
  | cons x l1 ih =>
    unfold writeAccesses
    split
    · rename_i x1 s1 e
      have hx : s1.boot = old := keepBoot_of_snd e (writeMem_keepsBoot hs)
      exact ih hx
    · rename_i x1 s1 e
      exact keepBoot_of_snd e (writeMem_keepsBoot hs)

theorem State.dmaOut_keepsBoot {s : State} {cls : Nat} {world : World} {a : Nat} {l : List Byte} {old : Boot} (hs : s.boot = old) :
    (s.dmaOut cls world a l).2.boot = old :=
  writeAccesses_keepsBoot hs

theorem State.send_keepsBoot {s : State} {f : Fn} {o : Out} {old : Boot} (hs : s.boot = old) : (s.send f o).boot = old :=
  keepBoot_ite (setPort_keepsBoot hs) (emit_keepsBoot hs)

theorem State.vector_keepsBoot {s : State} {f : Fn} {v : Nat} {old : Boot} (hs : s.boot = old) : (s.vector f v).boot = old :=
  keepBoot_ite hs (keepBoot_ite (send_keepsBoot hs) (setFnSt_keepsBoot hs))

theorem State.migOverflow_keepsBoot {s : State} {p : Port} {n : Nat} {old : Boot} (hs : s.boot = old) : (s.migOverflow p n).boot = old :=
  keepBoot_ite (setEvt_keepsBoot (wr_keepsBoot (wr_keepsBoot hs))) (vector_keepsBoot (setEvt_keepsBoot (wr_keepsBoot (wr_keepsBoot hs))))

theorem State.logPage_keepsBoot {s : State} {p : Port} {n page : Nat} {old : Boot} (hs : s.boot = old) : (s.logPage p n page).boot = old :=
  keepBoot_ite (keepBoot_ite (migOverflow_keepsBoot hs) (setVf_keepsBoot (send_keepsBoot hs))) hs

theorem State.logPages_keepsBoot {s : State} {p : Port} {n page n1 : Nat} {old : Boot} (hs : s.boot = old) : (s.logPages p n page n1).boot
    = old := by
  induction n1 generalizing s p n page with
  | zero =>
    unfold State.logPages
    exact hs
  | succ n1 ih =>
    unfold State.logPages
    exact ih (logPage_keepsBoot hs)

theorem State.fnWrite_keepsBoot {s : State} {f : Fn} {cls addr : Nat} {data : List Byte} {kind : WriteKind} {old : Boot} (hs : s.boot =
    old) : (s.fnWrite f cls addr data kind).2.boot = old := by
  unfold State.fnWrite
  split
  · exact keepBoot_ite_snd (hold_keepsBoot hs) (dmaOut_keepsBoot hs)
  · exact send_keepsBoot hs
  · exact logPages_keepsBoot (send_keepsBoot hs)

theorem State.writeCompletion_keepsBoot {s : State} {f : Fn} {q cid : Nat} {status detail : Nat} {result aux written : Nat} {old : Boot}
    (hs : s.boot = old) : (s.writeCompletion f q cid status detail result aux written).boot = old := by
  unfold State.writeCompletion
  extract_lets qp able qp1 size data next full was s1 s2 s3 x s4 s5
  have hs1 : s1.boot = old := fnWrite_keepsBoot hs
  have hs2 : s2.boot = old := setQp_keepsBoot hs1
  have hs3 : s3.boot = old := wrapAdd_keepsBoot hs2
  have hs4 : s4.boot = old := keepBoot_ite hs3 hs3
  have hs5 : s5.boot = old := keepBoot_ite (vector_keepsBoot hs4) hs4
  exact keepBoot_ite (setQp_keepsBoot hs) (keepBoot_ite hs5 hs5)

theorem State.portClaim_keepsBoot {s : State} {p : Port} {old : Boot} (hs : s.boot = old) : (s.portClaim p).boot = old :=
  keepBoot_ite (keepBoot_ite (addClaim_keepsBoot hs) hs) (keepBoot_ite hs (dropClaim_keepsBoot hs))

theorem State.nqRelease_keepsBoot {s : State} {n : Nat} {old : Boot} (hs : s.boot = old) : (s.nqRelease n).boot = old := wr_keepsBoot hs

theorem State.disableQp_keepsBoot {s : State} {f : Fn} {q : Nat} {old : Boot} (hs : s.boot = old) : (s.disableQp f q).boot = old := by
  unfold State.disableQp
  extract_lets unbind s1 e s2 s3 s4
  have hs1 : s1.boot = old := setQp_keepsBoot hs
  have hs2 : s2.boot = old := wr_keepsBoot hs1
  have hs3 : s3.boot = old := keepBoot_ite (wr_keepsBoot (wr_keepsBoot hs2)) hs2
  have hs4 : s4.boot = old := keepBoot_ite hs3 (portClaim_keepsBoot hs3)
  exact keepBoot_ite (nqRelease_keepsBoot hs4) hs4

theorem State.finishDelete_keepsBoot {s : State} {f : Fn} {q : Nat} {old : Boot} (hs : s.boot = old) : (s.finishDelete f q).boot = old :=
  keepBoot_ite (disableQp_keepsBoot hs) hs

theorem State.endApproval_keepsBoot {s : State} {id : Nat} {old : Boot} (hs : s.boot = old) : (s.endApproval id).boot = old := by
  unfold State.endApproval
  split
  · exact hs
  · exact hs

theorem State.cancelApprovals_keepsBoot {s : State} {pred : Approval → Bool} {old : Boot} (hs : s.boot = old) : (s.cancelApprovals
    pred).boot = old :=
  keepBoot_fold hs (fun _ _ h => endApproval_keepsBoot h)

theorem State.dropCtx_keepsBoot {s : State} {i : Nat} {old : Boot} (hs : s.boot = old) : (s.dropCtx i).boot = old := hs

theorem State.dropCtxs_keepsBoot {s : State} {pred : Ctx → Bool} {old : Boot} (hs : s.boot = old) : (s.dropCtxs pred).boot = old := hs

theorem State.zeroize_keepsBoot {s : State} {old : Boot} (hs : s.boot = old) : s.zeroize.boot = old := by
  unfold State.zeroize
  extract_lets s1 x x1 s2 stop
  have hs1 : s1.boot = old := cancelApprovals_keepsBoot hs
  have hs2 : s2.boot = old := hs1
  exact wr_keepsBoot (keepBoot_ite (keepBoot_ite hs2 (wr_keepsBoot hs2)) (wr_keepsBoot (keepBoot_ite hs2 (wr_keepsBoot hs2))))

theorem State.refreshVf_keepsBoot {s : State} {w : Nat} {old : Boot} (hs : s.boot = old) : (s.refreshVf w).boot = old :=
  keepBoot_ite hs (vector_keepsBoot (wr_keepsBoot hs))

theorem State.refreshSuspended_keepsBoot {s : State} {old : Boot} (hs : s.boot = old) : s.refreshSuspended.boot = old :=
  keepBoot_fold hs (fun _ _ h => refreshVf_keepsBoot h)

theorem writePieces_keepsBoot {f : Fn} {cls : Nat} {l1 : List (Nat × Nat)} {l : List Byte} {s : State} {old : Boot} (hs : s.boot = old) :
    (writePieces f cls l1 l s).2.boot = old := by
  induction l1 generalizing f cls l s with
  | nil =>
    unfold writePieces
    exact hs
  | cons x l1 ih =>
    unfold writePieces
    split
    · exact hs
    · split
      · rename_i x1 s1 e
        have hx : s1.boot = old := keepBoot_of_snd e (fnWrite_keepsBoot hs)
        exact ih hx
      · rename_i x1 s1 e
        exact keepBoot_of_snd e (fnWrite_keepsBoot hs)

theorem State.unhold_keepsBoot {s : State} {id : Nat} {old : Boot} (hs : s.boot = old) : (s.unhold id).boot = old :=
  keepBoot_fold hs (fun _ _ h => wr_keepsBoot h)

theorem State.dropCmd_keepsBoot {s : State} {id : Nat} {old : Boot} (hs : s.boot = old) : (s.dropCmd id).boot = old :=
  keepBoot_with (unhold_keepsBoot hs)

theorem State.endResidency_keepsBoot {s : State} {p : Pool} {u : Nat} {old : Boot} (hs : s.boot = old) : (s.endResidency p u).boot = old :=
    by
  unfold State.endResidency
  split
  · exact keepBoot_with (wr_keepsBoot (wr_keepsBoot (wr_keepsBoot (wr_keepsBoot hs))))
  · exact hs

theorem State.clearUnit_keepsBoot {s : State} {p : Pool} {u : Nat} {old : Boot} (hs : s.boot = old) : (s.clearUnit p u).boot = old := by
  unfold State.clearUnit
  extract_lets x s1 s2
  have hs1 : s1.boot = old := hs
  have hs2 : s2.boot = old := endResidency_keepsBoot (wr_keepsBoot hs1)
  split
  · rename_i p
    exact keepBoot_fold hs2 (fun _ _ h => wr_keepsBoot h)
  · exact wr_keepsBoot hs2

theorem State.idleFields_keepsBoot {s : State} {p : Pool} {u l : Nat} {old : Boot} (hs : s.boot = old) : (s.idleFields p u l).boot = old :=
    by
  unfold State.idleFields
  split
  · exact hs
  · exact wr_keepsBoot (wr_keepsBoot (wr_keepsBoot hs))
  · exact wr_keepsBoot hs
  · exact wr_keepsBoot hs
  · exact wr_keepsBoot hs

theorem State.releaseLane_keepsBoot {s : State} {p : Pool} {u l : Nat} {keep : Bool} {old : Boot} (hs : s.boot = old) : (s.releaseLane p u
    l keep).boot = old := by
  unfold State.releaseLane
  extract_lets tile x s1 s2 s3 s4
  have hs1 : s1.boot = old := hs
  have hs2 : s2.boot = old := dropClaim_keepsBoot hs1
  have hs3 : s3.boot = old := keepBoot_ite (keepBoot_fold hs2 (fun _ _ h => idleFields_keepsBoot h)) (idleFields_keepsBoot hs2)
  have hs4 : s4.boot = old := keepBoot_ite (wr_keepsBoot (wr_keepsBoot hs3)) (wr_keepsBoot hs3)
  split
  · rename_i p
    exact keepBoot_ite hs4 (keepBoot_ite (clearUnit_keepsBoot hs4) (wr_keepsBoot hs4))
  · exact keepBoot_ite (keepBoot_ite (wr_keepsBoot hs3) hs3) (keepBoot_ite hs3 (clearUnit_keepsBoot hs3))

theorem State.releaseExtra_keepsBoot {s : State} {c : Cmd} {keep : Bool} {old : Boot} (hs : s.boot = old) : (s.releaseExtra c keep).boot =
    old := by
  unfold State.releaseExtra
  split
  · exact keepBoot_ite (releaseLane_keepsBoot hs) hs
  · exact hs

theorem State.releaseUnit_keepsBoot {s : State} {c : Cmd} {keep : Bool} {old : Boot} (hs : s.boot = old) : (s.releaseUnit c keep).boot =
    old := by
  unfold State.releaseUnit
  extract_lets s1
  have hs1 : s1.boot = old := releaseExtra_keepsBoot hs
  split
  · exact keepBoot_ite (releaseLane_keepsBoot hs1) hs1
  · exact hs1

theorem State.complete_keepsBoot {s : State} {c : Cmd} {r : Res} {old : Boot} (hs : s.boot = old) : (s.complete c r).boot = old := by
  unfold State.complete
  extract_lets p s1 s2 s3 s4 s5
  have hs1 : s1.boot = old := releaseUnit_keepsBoot hs
  have hs2 : s2.boot = old := dropCmd_keepsBoot hs1
  have hs3 : s3.boot = old := writeCompletion_keepsBoot hs2
  have hs4 : s4.boot = old := keepBoot_ite (recordInternal_keepsBoot hs3) hs3
  have hs5 : s5.boot = old := keepBoot_ite (decideRecord_keepsBoot hs4) hs4
  exact finishDelete_keepsBoot hs5

theorem State.xtsPart_keepsBoot {s : State} {c : Cmd} {old : Boot} (hs : s.boot = old) : (s.xtsPart c).2.2.boot = old := by
  unfold State.xtsPart
  split
  · split
    rename_i x n s1 e
    have hx : s1.boot = old := keepBoot_of_snd e (freeNat_keepsBoot hs)
    extract_lets units
    exact hx
  · exact hs

theorem State.helloEnd_keepsBoot {s : State} {c : Cmd} {status detail : Nat} {v granted : Nat} {old : Boot} (hs : s.boot = old) :
    (s.helloEnd c status detail v granted).boot = old := by
  unfold State.helloEnd
  extract_lets x s1
  have hs1 : s1.boot = old := setFnSt_keepsBoot hs
  split
  · exact complete_keepsBoot hs1
  · split
    rename_i x1 ok s2 e
    have hx : s2.boot = old := keepBoot_of_snd e (fnWrite_keepsBoot hs1)
    exact complete_keepsBoot hx

theorem State.stopCmd_keepsBoot {s : State} {c : Cmd} {status detail : Nat} {old : Boot} (hs : s.boot = old) : (s.stopCmd c status
    detail).boot = old := by
  unfold State.stopCmd
  split
  · exact helloEnd_keepsBoot hs
  · split
    · split
      rename_i x d n s1 e
      have hx : s1.boot = old := keepBoot_of_thd e (xtsPart_keepsBoot hs)
      exact complete_keepsBoot (writePieces_keepsBoot hx)
    · exact complete_keepsBoot hs

theorem State.dropCmdCtx_keepsBoot {s : State} {c : Cmd} {old : Boot} (hs : s.boot = old) : (s.dropCmdCtx c).boot = old := by
  unfold State.dropCmdCtx
  split
  · split
    · exact keepBoot_ite (dropCtx_keepsBoot hs) hs
    · exact hs
  · exact hs

theorem State.abortCmd_keepsBoot {s : State} {c : Cmd} {status : Nat} {old : Boot} (hs : s.boot = old) : (s.abortCmd c status).boot = old :=
  stopCmd_keepsBoot (keepBoot_ite (dropCmdCtx_keepsBoot hs) hs)

theorem State.abortSuspended_keepsBoot {s : State} {old : Boot} (hs : s.boot = old) : s.abortSuspended.boot = old :=
  keepBoot_fold hs (fun _ _ h => abortCmd_keepsBoot h)

theorem State.discardCmd_keepsBoot {s : State} {c : Cmd} {old : Boot} (hs : s.boot = old) : (s.discardCmd c).boot = old :=
  setQp_keepsBoot (dropCmd_keepsBoot (releaseUnit_keepsBoot hs))

theorem State.alarmLevel_keepsBoot {s : State} {old : Boot} (hs : s.boot = old) : s.alarmLevel.boot = old := setStatus_keepsBoot hs

theorem State.flagSource_keepsBoot {s : State} {acted : Bool} {src : Nat} {old : Boot} (hs : s.boot = old) : (s.flagSource acted src).boot
    = old :=
  setEvt_keepsBoot (wr_keepsBoot (keepBoot_ite hs (wr_keepsBoot (wr_keepsBoot hs))))

theorem State.sendFrame_keepsBoot {s : State} {purge : Bool} {p : TwinPayload} {old : Boot} (hs : s.boot = old) : (s.sendFrame purge
    p).boot = old :=
  hs

theorem State.sendClose_keepsBoot {s : State} {purge : Bool} {reason : Option Nat} {old : Boot} (hs : s.boot = old) : (s.sendClose purge
    reason).boot = old := by
  unfold State.sendClose
  split
  · exact sendFrame_keepsBoot hs
  · split
    rename_i x n s1 e
    have hx : s1.boot = old := keepBoot_of_snd e (freeNat_keepsBoot hs)
    exact sendFrame_keepsBoot hx

theorem State.respond_keepsBoot {s : State} {k : Nat} {old : Boot} (hs : s.boot = old) : (s.respond k).boot = old := by
  unfold State.respond
  split
  · exact alarmLevel_keepsBoot hs
  · split
    · exact abortSuspended_keepsBoot (refreshSuspended_keepsBoot (setStatus_keepsBoot hs))
    · exact keepBoot_ite (keepBoot_ite (keepBoot_ite (sendClose_keepsBoot hs) hs) (keepBoot_with (zeroize_keepsBoot (keepBoot_ite
      (sendClose_keepsBoot hs) hs)))) (keepBoot_ite hs (keepBoot_ite hs hs))

theorem State.respondAll_keepsBoot {s : State} {lo n : Nat} {old : Boot} (hs : s.boot = old) : (s.respondAll lo n).boot = old := by
  induction n generalizing s lo with
  | zero =>
    unfold State.respondAll
    exact hs
  | succ n ih =>
    unfold State.respondAll
    exact ih (respond_keepsBoot hs)

theorem State.execCode_keepsBoot {s : State} {srcs c : Nat} {old : Boot} (hs : s.boot = old) : (s.execCode srcs c).boot = old :=
  keepBoot_ite hs (setStatus_keepsBoot (wr_keepsBoot (keepBoot_ite (alarmLevel_keepsBoot (respondAll_keepsBoot hs)) (respondAll_keepsBoot
    hs))))

theorem State.alarmRecord_keepsBoot {s : State} {srcs code : Nat} {atStart : Bool} {old : Boot} (hs : s.boot = old) : (s.alarmRecord srcs
    code atStart).boot = old :=
  keepBoot_ite hs (decideRecord_keepsBoot hs)

theorem State.raiseAlarms_keepsBoot {s : State} {l : List Nat} {atStart : Bool} {old : Boot} (hs : s.boot = old) : (s.raiseAlarms l
    atStart).boot = old :=
  keepBoot_ite hs (alarmRecord_keepsBoot (execCode_keepsBoot (keepBoot_fold hs (fun _ _ h => flagSource_keepsBoot h))))

theorem State.writeCapacity_keepsBoot {s : State} {old : Boot} (hs : s.boot = old) : s.writeCapacity.boot = old :=
  wr_keepsBoot (wr_keepsBoot (wr_keepsBoot (wr_keepsBoot (wr_keepsBoot (wr_keepsBoot (wr_keepsBoot (wr_keepsBoot (wr_keepsBoot
    (wr_keepsBoot (wr_keepsBoot (wr_keepsBoot (wr_keepsBoot hs))))))))))))

theorem State.recapacity_keepsBoot {s : State} {before : List Nat} {old : Boot} (hs : s.boot = old) : (s.recapacity before).boot = old :=
  keepBoot_ite (decideRecord_keepsBoot (raiseAlarms_keepsBoot (setEvtAll_keepsBoot (writeCapacity_keepsBoot hs)))) (setEvtAll_keepsBoot
    (writeCapacity_keepsBoot hs))

theorem exportRecs_keepsBoot {p : Port} {n : Nat} {l : List Rec} {s : State} {old : Boot} (hs : s.boot = old) : (exportRecs p n l s).boot =
    old := by
  induction l generalizing p n s with
  | nil =>
    unfold exportRecs
    exact hs
  | cons x l ih =>
    unfold exportRecs
    exact ih (send_keepsBoot hs)

theorem State.expEnd_keepsBoot {s : State} {p : Port} {result n : Nat} {old : Boot} (hs : s.boot = old) : (s.expEnd p result n).boot = old
    := by
  unfold State.expEnd
  extract_lets b l a s1 s2 s3
  have hs1 : s1.boot = old := exportRecs_keepsBoot hs
  have hs2 : s2.boot = old := wr_keepsBoot (wr_keepsBoot (wr_keepsBoot hs1))
  have hs3 : s3.boot = old := by
    unfold s3
    split
    · exact wr_keepsBoot hs2
    · exact hs2
  exact setEvt_keepsBoot hs3

theorem State.expReset_keepsBoot {s : State} {p : Port} {old : Boot} (hs : s.boot = old) : (s.expReset p).boot = old := by
  unfold State.expReset
  split
  · split
    rename_i x n s1 e
    have hx : s1.boot = old := keepBoot_of_snd e (freeNat_keepsBoot hs)
    exact expEnd_keepsBoot hx
  · exact hs

theorem State.domResult_keepsBoot {s : State} {w : World} {r : Nat} {old : Boot} (hs : s.boot = old) : (s.domResult w r).boot = old :=
  wr_keepsBoot hs

theorem State.pendResult_keepsBoot {s : State} {d r : Nat} {old : Boot} (hs : s.boot = old) : (s.pendResult d r).boot = old :=
  keepBoot_ite (domResult_keepsBoot hs) hs

theorem State.setPending_keepsBoot {s : State} {d target : Nat} {w : World} {old : Boot} (hs : s.boot = old) : (s.setPending d target
    w).boot = old :=
  keepBoot_fold hs (fun _ _ h => wr_keepsBoot (wr_keepsBoot h))

theorem State.supersede_keepsBoot {s : State} {d : Nat} {old : Boot} (hs : s.boot = old) : (s.supersede d).boot = old :=
  keepBoot_ite hs (keepBoot_with (setEvt_keepsBoot (setPending_keepsBoot (pendResult_keepsBoot hs))))

theorem State.emptyMbx_keepsBoot {s : State} {lo n : Nat} {old : Boot} (hs : s.boot = old) : (s.emptyMbx lo n).boot = old :=
  keepBoot_with (clearRegs_keepsBoot hs)

theorem State.dropHeld_keepsBoot {s : State} {pred : Fn → Bool} {p : Port} {old : Boot} (hs : s.boot = old) : (s.dropHeld pred p).boot =
    old :=
  setPort_keepsBoot hs

theorem State.stopFns_keepsBoot {s : State} {pred : Fn → Bool} {old : Boot} (hs : s.boot = old) : (s.stopFns pred).boot = old :=
  keepBoot_fold (dropHeld_keepsBoot (dropHeld_keepsBoot (keepBoot_fold (dropCtxs_keepsBoot (keepBoot_fold hs (fun _ _ h =>
    discardCmd_keepsBoot h))) (fun _ _ h => disableQp_keepsBoot h)))) (fun _ _ h => setFnSt_keepsBoot h)

theorem State.linkOff_keepsBoot {s : State} {p : Port} {old : Boot} (hs : s.boot = old) : (s.linkOff p).boot = old :=
  setPort_keepsBoot (wr_keepsBoot (wr_keepsBoot (wr_keepsBoot (wr_keepsBoot (wr_keepsBoot (leaveTest_keepsBoot hs))))))

theorem State.dropVfEnable_keepsBoot {s : State} {p : Port} {old : Boot} (hs : s.boot = old) : (s.dropVfEnable p).boot = old :=
  keepBoot_ite (setEvt_keepsBoot (setPort_keepsBoot hs)) (setPort_keepsBoot hs)

theorem State.teardownAll_keepsBoot {s : State} {p : Port} {old : Boot} (hs : s.boot = old) : (s.teardownAll p).boot = old :=
  keepBoot_fold (stopFns_keepsBoot hs) (fun _ _ h => wr_keepsBoot h)

theorem State.emptyPortMbx_keepsBoot {s : State} {p : Port} {old : Boot} (hs : s.boot = old) : (s.emptyPortMbx p).boot = old :=
  emptyMbx_keepsBoot hs

theorem State.resetPort_keepsBoot {s : State} {p : Port} {kind : Nat} {old : Boot} (hs : s.boot = old) : (s.resetPort p kind).boot = old :=
  setPort_keepsBoot (emptyPortMbx_keepsBoot (dropVfEnable_keepsBoot (teardownAll_keepsBoot (stopFns_keepsBoot (expReset_keepsBoot hs)))))

theorem State.clearPortRegs_keepsBoot {s : State} {p : Port} {old : Boot} (hs : s.boot = old) : (s.clearPortRegs p).boot = old :=
  clearRegs_keepsBoot (clearRegs_keepsBoot (clearRegs_keepsBoot hs))

theorem State.assertPerst_keepsBoot {s : State} {p : Port} {old : Boot} (hs : s.boot = old) : (s.assertPerst p).boot = old :=
  keepBoot_fold (clearPortRegs_keepsBoot (keepBoot_with (linkOff_keepsBoot (resetPort_keepsBoot hs)))) (fun _ _ h => wr_keepsBoot h)

theorem State.revertLine_keepsBoot {s : State} {x : CacheLine} {old : Boot} (hs : s.boot = old) : (s.revertLine x).boot = old :=
  keepBoot_ite hs hs

theorem State.dropCaches_keepsBoot {s : State} {p : Nat} {old : Boot} (hs : s.boot = old) : (s.dropCaches p).boot = old :=
  setCore_keepsBoot (keepBoot_fold hs (fun _ _ h => revertLine_keepsBoot h))

theorem State.startSecure_keepsBoot {s : State} {p entry : Nat} {old : Boot} (hs : s.boot = old) : (s.startSecure p entry).boot = old :=
  setCore_keepsBoot (dropCaches_keepsBoot hs)

theorem State.enterRecovery_keepsBoot {s : State} {cause : Nat} {old : Boot} (hs : s.boot = old) : (s.enterRecovery cause).boot = old :=
  setStatus_keepsBoot (keepBoot_with (wr_keepsBoot (wr_keepsBoot (wr_keepsBoot (wr_keepsBoot hs)))))

theorem State.singleMode_keepsBoot {s : State} {old : Boot} (hs : s.boot = old) : s.singleMode.boot = old :=
  keepBoot_ite hs (setEvt_keepsBoot (wr_keepsBoot hs))

theorem State.startPairs_keepsBoot {s : State} {old : Boot} (hs : s.boot = old) : s.startPairs.boot = old :=
  keepBoot_fold hs (fun _ _ h => keepBoot_ite h (startSecure_keepsBoot h))

theorem State.captureEnt_keepsBoot {s : State} {q cell test : Nat} {startup : Bool} {old : Boot} (hs : s.boot = old) : (s.captureEnt q cell
    test startup).boot = old :=
  keepBoot_ite hs (wr_keepsBoot (wr_keepsBoot (wr_keepsBoot (wr_keepsBoot hs))))

theorem State.setDom_keepsBoot {s : State} {d st : Nat} {old : Boot} (hs : s.boot = old) : (s.setDom d st).boot = old :=
  keepBoot_fold hs (fun _ _ h => wr_keepsBoot h)

/-! ### `State.keys` -/

theorem keepKeys_ite {old : Keys} {c : Prop} [Decidable c] {s t : State} (hs : s.keys = old) (ht : t.keys = old) : (if c then s else
  t).keys = old := by
  split
  · exact hs
  · exact ht

theorem keepKeys_with {s : State} {old : Keys} {pending regs mem time freeCtr out edges bus pins cfg boot pwr evr tmp portA portB vfs fns
  qps dsp cores mbx act ddr ent eng lc tap twn lts} (h : s.keys = old) :
    State.keys ⟨pending, regs, mem, time, freeCtr, out, edges, bus, pins, cfg, boot, pwr, evr, tmp, portA, portB, vfs, fns, qps, dsp,
      s.keys, cores, mbx, act, ddr, ent, eng, lc, tap, twn, lts⟩ = old := h

theorem keepKeys_fold {old : Keys} {α : Type} {f : State → α → State} {l : List α} {s : State} (h : s.keys = old)
    (hf : ∀ s a, s.keys = old → (f s a).keys = old) : (l.foldl f s).keys = old := by
  induction l generalizing s with
  | nil => exact h
  | cons a t ih => exact ih (hf s a h)

theorem keepKeys_of_snd {old : Keys} {α : Type} {p : α × State} {a : α} {t : State} (e : p = (a, t)) (h : p.2.keys = old) : t.keys = old :=
  by rw [e] at h; exact h

theorem State.wr_keepsKeys {s : State} {f : Fld} {v : Nat} {old : Keys} (hs : s.keys = old) : (s.wr f v).keys = old := hs

theorem State.satAdd_keepsKeys {s : State} {f : Fld} {n : Nat} {old : Keys} (hs : s.keys = old) : (s.satAdd f n).keys = old :=
  wr_keepsKeys hs

theorem State.setEvt_keepsKeys {s : State} {f : Fld} {bit : Nat} {old : Keys} (hs : s.keys = old) : (s.setEvt f bit).keys = old :=
  keepKeys_with (wr_keepsKeys (wr_keepsKeys hs))

theorem State.setEvtAll_keepsKeys {s : State} {f : Fld} {old : Keys} (hs : s.keys = old) : (s.setEvtAll f).keys = old :=
  setEvt_keepsKeys (setEvt_keepsKeys (setEvt_keepsKeys (setEvt_keepsKeys hs)))

theorem State.setStatus_keepsKeys {s : State} {f : Fld} {v : Nat} {old : Keys} (hs : s.keys = old) : (s.setStatus f v).keys = old :=
  keepKeys_ite hs (setEvtAll_keepsKeys (wr_keepsKeys hs))

theorem State.free_keepsKeys {s : State} {n : Nat} {old : Keys} (hs : s.keys = old) : (s.free n).2.keys = old := hs

theorem State.freeNat_keepsKeys {s : State} {n : Nat} {old : Keys} (hs : s.keys = old) : (s.freeNat n).2.keys = old := by
  unfold State.freeNat
  split
  rename_i x b s1 e
  exact keepKeys_of_snd e (free_keepsKeys hs)

theorem State.dropSync_keepsKeys {s : State} {k : Nat} {old : Keys} (hs : s.keys = old) : (s.dropSync k).keys = old :=
  keepKeys_fold hs (fun _ _ h => wr_keepsKeys h)

theorem State.endEye_keepsKeys {s : State} {result errors : Nat} {old : Keys} (hs : s.keys = old) : (s.endEye result errors).keys = old :=
  wr_keepsKeys (keepKeys_with (wr_keepsKeys (wr_keepsKeys (wr_keepsKeys hs))))

theorem State.stopEye_keepsKeys {s : State} {k : Nat} {old : Keys} (hs : s.keys = old) : (s.stopEye k).keys = old := by
  unfold State.stopEye
  split
  · split
    · split
      rename_i x n s1 e
      have hx : s1.keys = old := keepKeys_of_snd e (freeNat_keepsKeys hs)
      exact endEye_keepsKeys hx
    · exact hs
  · exact hs

theorem State.leaveTest_keepsKeys {s : State} {k : Nat} {old : Keys} (hs : s.keys = old) : (s.leaveTest k).keys = old :=
  keepKeys_ite (stopEye_keepsKeys (dropSync_keepsKeys (wr_keepsKeys (wr_keepsKeys (wr_keepsKeys (wr_keepsKeys hs)))))) hs

theorem State.dropRecord_keepsKeys {s : State} {old : Keys} (hs : s.keys = old) : s.dropRecord.keys = old :=
  setEvt_keepsKeys (satAdd_keepsKeys hs)

theorem State.putRec_keepsKeys {s : State} {slot : Nat} {r : Rec} {old : Keys} (hs : s.keys = old) : (s.putRec slot r).keys = old := hs

theorem State.storeRec_keepsKeys {s : State} {r : Rec} {old : Keys} (hs : s.keys = old) : (s.storeRec r).keys = old := by
  unfold State.storeRec
  split
  · split
    rename_i x n s1 e
    have hx : s1.keys = old := keepKeys_of_snd e (freeNat_keepsKeys hs)
    exact keepKeys_ite (setEvt_keepsKeys (setEvt_keepsKeys (putRec_keepsKeys hx))) (setEvt_keepsKeys (putRec_keepsKeys hx))
  · split
    · exact keepKeys_ite (setEvt_keepsKeys (setEvt_keepsKeys (satAdd_keepsKeys (putRec_keepsKeys hs)))) (dropRecord_keepsKeys hs)
    · exact dropRecord_keepsKeys hs

theorem State.pickSlot_keepsKeys {s : State} {old : Keys} (hs : s.keys = old) : s.pickSlot.2.keys = old := by
  unfold State.pickSlot
  split
  · exact hs
  · split
    rename_i x n s1 e
    exact keepKeys_of_snd e (freeNat_keepsKeys hs)

theorem State.domResult_keepsKeys {s : State} {w : World} {r : Nat} {old : Keys} (hs : s.keys = old) : (s.domResult w r).keys = old :=
  wr_keepsKeys hs

theorem State.pendResult_keepsKeys {s : State} {d r : Nat} {old : Keys} (hs : s.keys = old) : (s.pendResult d r).keys = old :=
  keepKeys_ite (domResult_keepsKeys hs) hs

theorem State.setPending_keepsKeys {s : State} {d target : Nat} {w : World} {old : Keys} (hs : s.keys = old) : (s.setPending d target
    w).keys = old :=
  keepKeys_fold hs (fun _ _ h => wr_keepsKeys (wr_keepsKeys h))

theorem State.supersede_keepsKeys {s : State} {d : Nat} {old : Keys} (hs : s.keys = old) : (s.supersede d).keys = old :=
  keepKeys_ite hs (keepKeys_with (setEvt_keepsKeys (setPending_keepsKeys (pendResult_keepsKeys hs))))

theorem State.restoreSlot_keepsKeys {s : State} {old : Keys} (hs : s.keys = old) : s.restoreSlot.2.keys = old := by
  unfold State.restoreSlot
  split
  · exact hs
  · exact pickSlot_keepsKeys hs

theorem State.setDom_keepsKeys {s : State} {d st : Nat} {old : Keys} (hs : s.keys = old) : (s.setDom d st).keys = old :=
  keepKeys_fold hs (fun _ _ h => wr_keepsKeys h)

/-! ### `State.cfg` -/

theorem keepCfg_ite {old : Cfg} {c : Prop} [Decidable c] {s t : State} (hs : s.cfg = old) (ht : t.cfg = old) : (if c then s else t).cfg =
  old := by
  split
  · exact hs
  · exact ht

theorem keepCfg_with {s : State} {old : Cfg} {pending regs mem time freeCtr out edges bus pins boot pwr evr tmp portA portB vfs fns qps dsp
  keys cores mbx act ddr ent eng lc tap twn lts} (h : s.cfg = old) :
    State.cfg ⟨pending, regs, mem, time, freeCtr, out, edges, bus, pins, s.cfg, boot, pwr, evr, tmp, portA, portB, vfs, fns, qps, dsp,
      keys, cores, mbx, act, ddr, ent, eng, lc, tap, twn, lts⟩ = old := h

theorem State.wr_keepsCfg {s : State} {f : Fld} {v : Nat} {old : Cfg} (hs : s.cfg = old) : (s.wr f v).cfg = old := hs

theorem State.setEvt_keepsCfg {s : State} {f : Fld} {bit : Nat} {old : Cfg} (hs : s.cfg = old) : (s.setEvt f bit).cfg = old :=
  keepCfg_with (wr_keepsCfg (wr_keepsCfg hs))

theorem State.setEvtAll_keepsCfg {s : State} {f : Fld} {old : Cfg} (hs : s.cfg = old) : (s.setEvtAll f).cfg = old :=
  setEvt_keepsCfg (setEvt_keepsCfg (setEvt_keepsCfg (setEvt_keepsCfg hs)))

theorem State.setStatus_keepsCfg {s : State} {f : Fld} {v : Nat} {old : Cfg} (hs : s.cfg = old) : (s.setStatus f v).cfg = old :=
  keepCfg_ite hs (setEvtAll_keepsCfg (wr_keepsCfg hs))

theorem State.endApproval_keepsCfg {s : State} {id : Nat} {old : Cfg} (hs : s.cfg = old) : (s.endApproval id).cfg = old := by
  unfold State.endApproval
  split
  · exact hs
  · exact hs

/-! ### `State.dsp` -/

theorem keepDsp_ite {old : Dsp} {c : Prop} [Decidable c] {s t : State} (hs : s.dsp = old) (ht : t.dsp = old) : (if c then s else t).dsp =
  old := by
  split
  · exact hs
  · exact ht

theorem keepDsp_ite_snd {old : Dsp} {α : Type} {c : Prop} [Decidable c] {x y : α × State} (hx : x.2.dsp = old) (hy : y.2.dsp = old) :
    (if c then x else y).2.dsp = old := by
  split
  · exact hx
  · exact hy

theorem keepDsp_with {s : State} {old : Dsp} {pending regs mem time freeCtr out edges bus pins cfg boot pwr evr tmp portA portB vfs fns qps
  keys cores mbx act ddr ent eng lc tap twn lts} (h : s.dsp = old) :
    State.dsp ⟨pending, regs, mem, time, freeCtr, out, edges, bus, pins, cfg, boot, pwr, evr, tmp, portA, portB, vfs, fns, qps, s.dsp,
      keys, cores, mbx, act, ddr, ent, eng, lc, tap, twn, lts⟩ = old := h

theorem keepDsp_fold {old : Dsp} {α : Type} {f : State → α → State} {l : List α} {s : State} (h : s.dsp = old)
    (hf : ∀ s a, s.dsp = old → (f s a).dsp = old) : (l.foldl f s).dsp = old := by
  induction l generalizing s with
  | nil => exact h
  | cons a t ih => exact ih (hf s a h)

theorem keepDsp_fold_snd {old : Dsp} {α β : Type} {f : β × State → α → β × State} {l : List α} {x : β × State} (h : x.2.dsp = old)
    (hf : ∀ (x : β × State) a, x.2.dsp = old → (f x a).2.dsp = old) : (l.foldl f x).2.dsp = old := by
  induction l generalizing x with
  | nil => exact h
  | cons a t ih => exact ih (hf x a h)

theorem keepDsp_of_snd {old : Dsp} {α : Type} {p : α × State} {a : α} {t : State} (e : p = (a, t)) (h : p.2.dsp = old) : t.dsp = old := by
  rw [e] at h; exact h

theorem keepDsp_of_thd {old : Dsp} {α β : Type} {p : α × β × State} {a : α} {b : β} {t : State} (e : p = (a, b, t)) (h : p.2.2.dsp = old) :
  t.dsp = old := by
  rw [e] at h; exact h

theorem State.wr_keepsDsp {s : State} {f : Fld} {v : Nat} {old : Dsp} (hs : s.dsp = old) : (s.wr f v).dsp = old := hs

theorem State.satAdd_keepsDsp {s : State} {f : Fld} {n : Nat} {old : Dsp} (hs : s.dsp = old) : (s.satAdd f n).dsp = old := wr_keepsDsp hs

theorem State.wrapAdd_keepsDsp {s : State} {f : Fld} {n : Nat} {old : Dsp} (hs : s.dsp = old) : (s.wrapAdd f n).dsp = old := wr_keepsDsp hs

theorem State.setEvt_keepsDsp {s : State} {f : Fld} {bit : Nat} {old : Dsp} (hs : s.dsp = old) : (s.setEvt f bit).dsp = old :=
  keepDsp_with (wr_keepsDsp (wr_keepsDsp hs))

theorem State.setEvtAll_keepsDsp {s : State} {f : Fld} {old : Dsp} (hs : s.dsp = old) : (s.setEvtAll f).dsp = old :=
  setEvt_keepsDsp (setEvt_keepsDsp (setEvt_keepsDsp (setEvt_keepsDsp hs)))

theorem State.setStatus_keepsDsp {s : State} {f : Fld} {v : Nat} {old : Dsp} (hs : s.dsp = old) : (s.setStatus f v).dsp = old :=
  keepDsp_ite hs (setEvtAll_keepsDsp (wr_keepsDsp hs))

theorem State.countHost_keepsDsp {s : State} {n : Nat} {old : Dsp} (hs : s.dsp = old) : (s.countHost n).dsp = old := wr_keepsDsp hs

theorem State.countDraw_keepsDsp {s : State} {n : Nat} {old : Dsp} (hs : s.dsp = old) : (s.countDraw n).dsp = old := countHost_keepsDsp hs

theorem State.draw_keepsDsp {s : State} {n : Nat} {old : Dsp} (hs : s.dsp = old) : (s.draw n).2.dsp = old := countDraw_keepsDsp hs

theorem State.free_keepsDsp {s : State} {n : Nat} {old : Dsp} (hs : s.dsp = old) : (s.free n).2.dsp = old := hs

theorem State.freeNat_keepsDsp {s : State} {n : Nat} {old : Dsp} (hs : s.dsp = old) : (s.freeNat n).2.dsp = old := by
  unfold State.freeNat
  split
  rename_i x b s1 e
  exact keepDsp_of_snd e (free_keepsDsp hs)

theorem State.setPort_keepsDsp {s : State} {p : Port} {v : PortSt} {old : Dsp} (hs : s.dsp = old) : (s.setPort p v).dsp = old := by
  unfold State.setPort
  split
  · exact hs
  · exact hs

theorem State.setFnSt_keepsDsp {s : State} {f : Fn} {v : FnSt} {old : Dsp} (hs : s.dsp = old) : (s.setFnSt f v).dsp = old := hs

theorem State.setVf_keepsDsp {s : State} {p : Port} {n : Nat} {v : Vf} {old : Dsp} (hs : s.dsp = old) : (s.setVf p n v).dsp = old := hs

theorem State.setQp_keepsDsp {s : State} {f : Fn} {q : Nat} {v : Qp} {old : Dsp} (hs : s.dsp = old) : (s.setQp f q v).dsp = old := hs

theorem State.aerLog_keepsDsp {s : State} {f : Fn} {b : Nat} {old : Dsp} (hs : s.dsp = old) : (s.aerLog f b).dsp = old :=
  keepDsp_ite hs (setEvt_keepsDsp (setFnSt_keepsDsp hs))

theorem State.setCore_keepsDsp {s : State} {p : Nat} {c : Core} {old : Dsp} (hs : s.dsp = old) : (s.setCore p c).dsp = old := hs

theorem State.setChan_keepsDsp {s : State} {c : Nat} {v : Ddr} {old : Dsp} (hs : s.dsp = old) : (s.setChan c v).dsp = old := hs

theorem State.wake_keepsDsp {s : State} {d : Nat} {old : Dsp} (hs : s.dsp = old) : (s.wake d).dsp = old := keepDsp_ite (wr_keepsDsp hs) hs

theorem State.addClaim_keepsDsp {s : State} {d : Nat} {old : Dsp} (hs : s.dsp = old) : (s.addClaim d).dsp = old := wr_keepsDsp hs

theorem State.dropClaim_keepsDsp {s : State} {d : Nat} {old : Dsp} (hs : s.dsp = old) : (s.dropClaim d).dsp = old := wr_keepsDsp hs

theorem State.emit_keepsDsp {s : State} {o : Out} {old : Dsp} (hs : s.dsp = old) : (s.emit o).dsp = old := hs

theorem State.dropSync_keepsDsp {s : State} {k : Nat} {old : Dsp} (hs : s.dsp = old) : (s.dropSync k).dsp = old :=
  keepDsp_fold hs (fun _ _ h => wr_keepsDsp h)

theorem State.endEye_keepsDsp {s : State} {result errors : Nat} {old : Dsp} (hs : s.dsp = old) : (s.endEye result errors).dsp = old :=
  wr_keepsDsp (keepDsp_with (wr_keepsDsp (wr_keepsDsp (wr_keepsDsp hs))))

theorem State.stopEye_keepsDsp {s : State} {k : Nat} {old : Dsp} (hs : s.dsp = old) : (s.stopEye k).dsp = old := by
  unfold State.stopEye
  split
  · split
    · split
      rename_i x n s1 e
      have hx : s1.dsp = old := keepDsp_of_snd e (freeNat_keepsDsp hs)
      exact endEye_keepsDsp hx
    · exact hs
  · exact hs

theorem State.leaveTest_keepsDsp {s : State} {k : Nat} {old : Dsp} (hs : s.dsp = old) : (s.leaveTest k).dsp = old :=
  keepDsp_ite (stopEye_keepsDsp (dropSync_keepsDsp (wr_keepsDsp (wr_keepsDsp (wr_keepsDsp (wr_keepsDsp hs)))))) hs

theorem State.hold_keepsDsp {s : State} {a : HeldAccess} {old : Dsp} (hs : s.dsp = old) : (s.hold a).dsp = old := hs

theorem State.dropRecord_keepsDsp {s : State} {old : Dsp} (hs : s.dsp = old) : s.dropRecord.dsp = old :=
  setEvt_keepsDsp (satAdd_keepsDsp hs)

theorem State.enqueueRec_keepsDsp {s : State} {r : Rec} {old : Dsp} (hs : s.dsp = old) : (s.enqueueRec r).dsp = old :=
  keepDsp_ite hs (keepDsp_ite (dropRecord_keepsDsp hs) (dropRecord_keepsDsp hs))

theorem State.decideRecord_keepsDsp {s : State} {kind source : Nat} {sev arg : Nat} {old : Dsp} (hs : s.dsp = old) : (s.decideRecord kind
    source sev arg).dsp = old :=
  keepDsp_ite (satAdd_keepsDsp hs) (enqueueRec_keepsDsp (wrapAdd_keepsDsp hs))

theorem State.recordInternal_keepsDsp {s : State} {source detail : Nat} {cid vf port : Nat} {old : Dsp} (hs : s.dsp = old) :
    (s.recordInternal source detail cid vf port).dsp = old :=
  decideRecord_keepsDsp hs

theorem State.violation_keepsDsp {s : State} {cls : Nat} {world : World} {kind : AccKind} {source entry a : Nat} {old : Dsp} (hs : s.dsp =
    old) : (s.violation cls world kind source entry a).dsp = old :=
  setEvt_keepsDsp (keepDsp_ite (satAdd_keepsDsp hs) (wr_keepsDsp (wr_keepsDsp (wr_keepsDsp (wr_keepsDsp (wr_keepsDsp (wr_keepsDsp hs)))))))

theorem State.sweepTo_keepsDsp {s : State} {c n : Nat} {old : Dsp} (hs : s.dsp = old) : (s.sweepTo c n).dsp = old :=
  wr_keepsDsp (wr_keepsDsp (setChan_keepsDsp hs))

theorem State.fillBlock_keepsDsp {s : State} {c b : Nat} {old : Dsp} (hs : s.dsp = old) : (s.fillBlock c b).dsp = old :=
  keepDsp_ite (wr_keepsDsp (setChan_keepsDsp hs)) (sweepTo_keepsDsp hs)

theorem State.wakeMem_keepsDsp {s : State} {a : Nat} {old : Dsp} (hs : s.dsp = old) : (s.wakeMem a).dsp = old := by
  unfold State.wakeMem
  split
  · exact wake_keepsDsp hs
  · exact hs

theorem State.awaitFill_keepsDsp {s : State} {a : Nat} {old : Dsp} (hs : s.dsp = old) : (s.awaitFill a).dsp = old := by
  unfold State.awaitFill
  split
  · exact keepDsp_ite (fillBlock_keepsDsp hs) hs
  · exact hs

theorem State.captureErr_keepsDsp {s : State} {c l : Nat} {kind pos : Nat} {scrub : Bool} {old : Dsp} (hs : s.dsp = old) : (s.captureErr c
    l kind pos scrub).dsp = old :=
  keepDsp_ite hs (wr_keepsDsp (wr_keepsDsp (wr_keepsDsp (wr_keepsDsp (wr_keepsDsp (setChan_keepsDsp hs))))))

theorem State.setErr_keepsDsp {s : State} {c l : Nat} {e : Option LineErr} {old : Dsp} (hs : s.dsp = old) : (s.setErr c l e).dsp = old :=
  setChan_keepsDsp hs

theorem State.cleanLine_keepsDsp {s : State} {c l : Nat} {old : Dsp} (hs : s.dsp = old) : (s.cleanLine c l).dsp = old := setErr_keepsDsp hs

theorem State.corrected_keepsDsp {s : State} {c l : Nat} {kind pos : Nat} {scrub : Bool} {old : Dsp} (hs : s.dsp = old) : (s.corrected c l
    kind pos scrub).dsp = old :=
  setEvt_keepsDsp (satAdd_keepsDsp (captureErr_keepsDsp (cleanLine_keepsDsp hs)))

theorem State.fireMem_keepsDsp {s : State} {old : Dsp} (hs : s.dsp = old) : s.fireMem.dsp = old := hs

theorem State.uncorrectable_keepsDsp {s : State} {c l : Nat} {scrub : Bool} {old : Dsp} (hs : s.dsp = old) : (s.uncorrectable c l
    scrub).dsp = old :=
  fireMem_keepsDsp (setEvt_keepsDsp (satAdd_keepsDsp (captureErr_keepsDsp hs)))

theorem State.checkLine_keepsDsp {s : State} {c l : Nat} {scrub : Bool} {old : Dsp} (hs : s.dsp = old) : (s.checkLine c l scrub).dsp = old
    := by
  unfold State.checkLine
  split
  · exact hs
  · exact corrected_keepsDsp hs
  · exact corrected_keepsDsp hs
  · exact uncorrectable_keepsDsp hs

theorem State.rmwFail_keepsDsp {s : State} {c l : Nat} {old : Dsp} (hs : s.dsp = old) : (s.rmwFail c l).dsp = old :=
  setEvt_keepsDsp (uncorrectable_keepsDsp hs)

theorem State.setBytes_keepsDsp {s : State} {a : Nat} {l : List Byte} {old : Dsp} (hs : s.dsp = old) : (s.setBytes a l).dsp = old := hs

theorem State.noteRefusal_keepsDsp {s : State} {cls : Nat} {world : World} {kind : AccKind} {r : Option (Nat × Nat × Nat)} {old : Dsp} (hs
    : s.dsp = old) : (s.noteRefusal cls world kind r).dsp = old := by
  unfold State.noteRefusal
  split
  · exact violation_keepsDsp hs
  · exact hs

theorem State.serveLine_keepsDsp {s : State} {x : LineAccess} {old : Dsp} (hs : s.dsp = old) : (s.serveLine x).2.dsp = old := by
  unfold State.serveLine
  split
  · exact hs
  · extract_lets a bad
    exact keepDsp_ite_snd hs (keepDsp_ite_snd (checkLine_keepsDsp hs) (keepDsp_ite_snd (keepDsp_ite hs (setBytes_keepsDsp
      (cleanLine_keepsDsp hs))) (keepDsp_ite_snd (rmwFail_keepsDsp hs) (setBytes_keepsDsp (checkLine_keepsDsp hs)))))

theorem State.yieldLock_keepsDsp {s : State} {c l : Nat} {old : Dsp} (hs : s.dsp = old) : (s.yieldLock c l).dsp = old := by
  unfold State.yieldLock
  split
  · exact hs
  · exact setChan_keepsDsp (keepDsp_fold_snd hs fun _ _ h => serveLine_keepsDsp h)

theorem State.awaitLines_keepsDsp {s : State} {bs : List (Nat × Nat)} {old : Dsp} (hs : s.dsp = old) : (s.awaitLines bs).dsp = old :=
  keepDsp_fold (keepDsp_fold hs (fun _ _ h => awaitFill_keepsDsp (wakeMem_keepsDsp h))) (fun _ _ h => yieldLock_keepsDsp h)

theorem State.readMem_keepsDsp {s : State} {cls : Nat} {world : World} {kind : AccKind} {a len : Nat} {old : Dsp} (hs : s.dsp = old) :
    (s.readMem cls world kind a len).2.2.dsp = old := by
  unfold State.readMem
  extract_lets bs r up s1 data s'
  have hs1 : s1.dsp = old := awaitLines_keepsDsp hs
  have hs' : s'.dsp = old := keepDsp_fold hs1 (fun _ _ h => checkLine_keepsDsp h)
  exact noteRefusal_keepsDsp hs'

theorem putBeats_keepsDsp {skip : Nat × Nat → Bool} {l1 : List (Nat × Nat)} {l : List Byte} {s : State} {old : Dsp} (hs : s.dsp = old) :
    (putBeats skip l1 l s).dsp = old := by
  induction l1 generalizing skip l s with
  | nil =>
    unfold putBeats
    exact hs
  | cons x l1 ih =>
    unfold putBeats
    exact ih (keepDsp_ite hs (setBytes_keepsDsp hs))

theorem State.writeMem_keepsDsp {s : State} {cls : Nat} {world : World} {a : Nat} {l : List Byte} {old : Dsp} (hs : s.dsp = old) :
    (s.writeMem cls world a l).2.dsp = old := by
  unfold State.writeMem
  extract_lets bs r up s1
  have hs1 : s1.dsp = old := awaitLines_keepsDsp hs
  split
  extract_lets s2 drop lost s'
  have hs2 : s2.dsp = old := keepDsp_ite hs1 (keepDsp_fold hs1 (fun _ _ h => cleanLine_keepsDsp h))
  have hs' : s'.dsp = old := keepDsp_fold hs2 (fun _ _ h => keepDsp_ite (rmwFail_keepsDsp h) (checkLine_keepsDsp h))
  exact noteRefusal_keepsDsp (putBeats_keepsDsp hs')

theorem readAccesses_keepsDsp {cls : Nat} {world : World} {l : List (Nat × Nat)} {s : State} {old : Dsp} (hs : s.dsp = old) : (readAccesses
    cls world l s).2.2.dsp = old := by
  induction l generalizing cls world s with
  | nil =>
    unfold readAccesses
    exact hs
  | cons x l ih =>
    unfold readAccesses
    split
    · rename_i x1 d s1 e
      have hx : s1.dsp = old := keepDsp_of_thd e (readMem_keepsDsp hs)
      exact ih hx
    · rename_i x1 d s1 e
      exact keepDsp_of_thd e (readMem_keepsDsp hs)

theorem State.dmaIn_keepsDsp {s : State} {cls : Nat} {world : World} {a len : Nat} {old : Dsp} (hs : s.dsp = old) : (s.dmaIn cls world a
    len).2.2.dsp = old :=
  readAccesses_keepsDsp hs

theorem writeAccesses_keepsDsp {cls : Nat} {world : World} {l1 : List (Nat × Nat)} {l : List Byte} {s : State} {old : Dsp} (hs : s.dsp =
    old) : (writeAccesses cls world l1 l s).2.dsp = old := by
  induction l1 generalizing cls world l s with
  | nil =>
    unfold writeAccesses
    exact hs
  | cons x l1 ih =>
    unfold writeAccesses
    split
    · rename_i x1 s1 e
      have hx : s1.dsp = old := keepDsp_of_snd e (writeMem_keepsDsp hs)
      exact ih hx
    · rename_i x1 s1 e
      exact keepDsp_of_snd e (writeMem_keepsDsp hs)

theorem State.dmaOut_keepsDsp {s : State} {cls : Nat} {world : World} {a : Nat} {l : List Byte} {old : Dsp} (hs : s.dsp = old) : (s.dmaOut
    cls world a l).2.dsp = old :=
  writeAccesses_keepsDsp hs

theorem State.send_keepsDsp {s : State} {f : Fn} {o : Out} {old : Dsp} (hs : s.dsp = old) : (s.send f o).dsp = old :=
  keepDsp_ite (setPort_keepsDsp hs) (emit_keepsDsp hs)

theorem State.vector_keepsDsp {s : State} {f : Fn} {v : Nat} {old : Dsp} (hs : s.dsp = old) : (s.vector f v).dsp = old :=
  keepDsp_ite hs (keepDsp_ite (send_keepsDsp hs) (setFnSt_keepsDsp hs))

theorem State.migOverflow_keepsDsp {s : State} {p : Port} {n : Nat} {old : Dsp} (hs : s.dsp = old) : (s.migOverflow p n).dsp = old :=
  keepDsp_ite (setEvt_keepsDsp (wr_keepsDsp (wr_keepsDsp hs))) (vector_keepsDsp (setEvt_keepsDsp (wr_keepsDsp (wr_keepsDsp hs))))

theorem State.logPage_keepsDsp {s : State} {p : Port} {n page : Nat} {old : Dsp} (hs : s.dsp = old) : (s.logPage p n page).dsp = old :=
  keepDsp_ite (keepDsp_ite (migOverflow_keepsDsp hs) (setVf_keepsDsp (send_keepsDsp hs))) hs

theorem State.logPages_keepsDsp {s : State} {p : Port} {n page n1 : Nat} {old : Dsp} (hs : s.dsp = old) : (s.logPages p n page n1).dsp =
    old := by
  induction n1 generalizing s p n page with
  | zero =>
    unfold State.logPages
    exact hs
  | succ n1 ih =>
    unfold State.logPages
    exact ih (logPage_keepsDsp hs)

theorem State.fnWrite_keepsDsp {s : State} {f : Fn} {cls addr : Nat} {data : List Byte} {kind : WriteKind} {old : Dsp} (hs : s.dsp = old) :
    (s.fnWrite f cls addr data kind).2.dsp = old := by
  unfold State.fnWrite
  split
  · exact keepDsp_ite_snd (hold_keepsDsp hs) (dmaOut_keepsDsp hs)
  · exact send_keepsDsp hs
  · exact logPages_keepsDsp (send_keepsDsp hs)

theorem State.writeCompletion_keepsDsp {s : State} {f : Fn} {q cid : Nat} {status detail : Nat} {result aux written : Nat} {old : Dsp} (hs
    : s.dsp = old) : (s.writeCompletion f q cid status detail result aux written).dsp = old := by
  unfold State.writeCompletion
  extract_lets qp able qp1 size data next full was s1 s2 s3 x s4 s5
  have hs1 : s1.dsp = old := fnWrite_keepsDsp hs
  have hs2 : s2.dsp = old := setQp_keepsDsp hs1
  have hs3 : s3.dsp = old := wrapAdd_keepsDsp hs2
  have hs4 : s4.dsp = old := keepDsp_ite hs3 hs3
  have hs5 : s5.dsp = old := keepDsp_ite (vector_keepsDsp hs4) hs4
  exact keepDsp_ite (setQp_keepsDsp hs) (keepDsp_ite hs5 hs5)

theorem State.portClaim_keepsDsp {s : State} {p : Port} {old : Dsp} (hs : s.dsp = old) : (s.portClaim p).dsp = old :=
  keepDsp_ite (keepDsp_ite (addClaim_keepsDsp hs) hs) (keepDsp_ite hs (dropClaim_keepsDsp hs))

theorem State.nqRelease_keepsDsp {s : State} {n : Nat} {old : Dsp} (hs : s.dsp = old) : (s.nqRelease n).dsp = old := wr_keepsDsp hs

theorem State.disableQp_keepsDsp {s : State} {f : Fn} {q : Nat} {old : Dsp} (hs : s.dsp = old) : (s.disableQp f q).dsp = old := by
  unfold State.disableQp
  extract_lets unbind s1 e s2 s3 s4
  have hs1 : s1.dsp = old := setQp_keepsDsp hs
  have hs2 : s2.dsp = old := wr_keepsDsp hs1
  have hs3 : s3.dsp = old := keepDsp_ite (wr_keepsDsp (wr_keepsDsp hs2)) hs2
  have hs4 : s4.dsp = old := keepDsp_ite hs3 (portClaim_keepsDsp hs3)
  exact keepDsp_ite (nqRelease_keepsDsp hs4) hs4

theorem State.finishDelete_keepsDsp {s : State} {f : Fn} {q : Nat} {old : Dsp} (hs : s.dsp = old) : (s.finishDelete f q).dsp = old :=
  keepDsp_ite (disableQp_keepsDsp hs) hs

theorem State.setSlot_keepsDsp {s : State} {p : Nat} {v : Option Slot} {old : Dsp} (hs : s.dsp = old) : (s.setSlot p v).dsp = old := hs

theorem State.pickSlot_keepsDsp {s : State} {old : Dsp} (hs : s.dsp = old) : s.pickSlot.2.dsp = old := by
  unfold State.pickSlot
  split
  · exact hs
  · split
    rename_i x n s1 e
    exact keepDsp_of_snd e (freeNat_keepsDsp hs)

theorem State.endApproval_keepsDsp {s : State} {id : Nat} {old : Dsp} (hs : s.dsp = old) : (s.endApproval id).dsp = old := by
  unfold State.endApproval
  split
  · exact hs
  · exact hs

theorem State.cancelApprovals_keepsDsp {s : State} {pred : Approval → Bool} {old : Dsp} (hs : s.dsp = old) : (s.cancelApprovals pred).dsp =
    old :=
  keepDsp_fold hs (fun _ _ h => endApproval_keepsDsp h)

theorem State.refreshVf_keepsDsp {s : State} {w : Nat} {old : Dsp} (hs : s.dsp = old) : (s.refreshVf w).dsp = old :=
  keepDsp_ite hs (vector_keepsDsp (wr_keepsDsp hs))

theorem State.unhold_keepsDsp {s : State} {id : Nat} {old : Dsp} (hs : s.dsp = old) : (s.unhold id).dsp = old :=
  keepDsp_fold hs (fun _ _ h => wr_keepsDsp h)

theorem State.endResidency_keepsDsp {s : State} {p : Pool} {u : Nat} {old : Dsp} (hs : s.dsp = old) : (s.endResidency p u).dsp = old := by
  unfold State.endResidency
  split
  · exact keepDsp_with (wr_keepsDsp (wr_keepsDsp (wr_keepsDsp (wr_keepsDsp hs))))
  · exact hs

theorem State.flagSource_keepsDsp {s : State} {acted : Bool} {src : Nat} {old : Dsp} (hs : s.dsp = old) : (s.flagSource acted src).dsp =
    old :=
  setEvt_keepsDsp (wr_keepsDsp (keepDsp_ite hs (wr_keepsDsp (wr_keepsDsp hs))))

theorem State.sendFrame_keepsDsp {s : State} {purge : Bool} {p : TwinPayload} {old : Dsp} (hs : s.dsp = old) : (s.sendFrame purge p).dsp =
    old :=
  hs

theorem State.sendClose_keepsDsp {s : State} {purge : Bool} {reason : Option Nat} {old : Dsp} (hs : s.dsp = old) : (s.sendClose purge
    reason).dsp = old := by
  unfold State.sendClose
  split
  · exact sendFrame_keepsDsp hs
  · split
    rename_i x n s1 e
    have hx : s1.dsp = old := keepDsp_of_snd e (freeNat_keepsDsp hs)
    exact sendFrame_keepsDsp hx

theorem State.domResult_keepsDsp {s : State} {w : World} {r : Nat} {old : Dsp} (hs : s.dsp = old) : (s.domResult w r).dsp = old :=
  wr_keepsDsp hs

theorem State.pendResult_keepsDsp {s : State} {d r : Nat} {old : Dsp} (hs : s.dsp = old) : (s.pendResult d r).dsp = old :=
  keepDsp_ite (domResult_keepsDsp hs) hs

theorem State.setPending_keepsDsp {s : State} {d target : Nat} {w : World} {old : Dsp} (hs : s.dsp = old) : (s.setPending d target w).dsp =
    old :=
  keepDsp_fold hs (fun _ _ h => wr_keepsDsp (wr_keepsDsp h))

theorem State.supersede_keepsDsp {s : State} {d : Nat} {old : Dsp} (hs : s.dsp = old) : (s.supersede d).dsp = old :=
  keepDsp_ite hs (keepDsp_with (setEvt_keepsDsp (setPending_keepsDsp (pendResult_keepsDsp hs))))

theorem State.nqBind_keepsDsp {s : State} {n val : Nat} {old : Dsp} (hs : s.dsp = old) : (s.nqBind n val).dsp = old :=
  keepDsp_ite (keepDsp_ite (wr_keepsDsp hs) (wr_keepsDsp (wr_keepsDsp (wr_keepsDsp (wr_keepsDsp (wr_keepsDsp hs)))))) (keepDsp_ite
    (finishDelete_keepsDsp (setQp_keepsDsp (wr_keepsDsp hs))) (wr_keepsDsp hs))

theorem State.setGr_keepsDsp {s : State} {p : Nat} {d : Reg} {v : Word64} {old : Dsp} (hs : s.dsp = old) : (s.setGr p d v).dsp = old :=
  keepDsp_ite hs (setCore_keepsDsp hs)

theorem State.captureFault_keepsDsp {s : State} {p : Pool} {u : Nat} {inService : Bool} {f : UnitFault} {old : Dsp} (hs : s.dsp = old) :
    (s.captureFault p u inService f).dsp = old := by
  unfold State.captureFault
  split
  · exact hs
  · split
    extract_lets s1
    have hs1 : s1.dsp = old := wr_keepsDsp (wr_keepsDsp (wr_keepsDsp (wr_keepsDsp hs)))
    split
    · rename_i p e e1
      exact wr_keepsDsp hs1
    · rename_i p e e1
      exact wr_keepsDsp hs1
    · exact hs1

theorem State.forgetOwner_keepsDsp {s : State} {p : Pool} {u : Nat} {old : Dsp} (hs : s.dsp = old) : (s.forgetOwner p u).dsp = old := by
  unfold State.forgetOwner
  split
  · exact keepDsp_fold hs (fun _ _ h => wr_keepsDsp h)
  · exact wr_keepsDsp hs

theorem State.markFenced_keepsDsp {s : State} {p : Pool} {u : Nat} {inService : Bool} {f : UnitFault} {old : Dsp} (hs : s.dsp = old) :
    (s.markFenced p u inService f).dsp = old := by
  unfold State.markFenced
  extract_lets s1 s2 s3 x s4
  have hs1 : s1.dsp = old := forgetOwner_keepsDsp (endResidency_keepsDsp (captureFault_keepsDsp hs))
  have hs2 : s2.dsp = old := keepDsp_ite (unhold_keepsDsp hs1) hs1
  have hs3 : s3.dsp = old := wr_keepsDsp (wr_keepsDsp (wr_keepsDsp hs2))
  have hs4 : s4.dsp = old := hs3
  exact setEvt_keepsDsp (setEvt_keepsDsp hs4)

theorem State.selectNext_keepsDsp {s : State} {p : Pool} {old : Dsp} (hs : s.dsp = old) : (s.selectNext p).dsp = old := by
  unfold State.selectNext
  extract_lets prev
  split
  · exact wr_keepsDsp hs
  · exact hs

theorem State.reassign_keepsDsp {s : State} {p : Pool} {wasTesting wasSpare wasServing : Bool} {old : Dsp} (hs : s.dsp = old) : (s.reassign
    p wasTesting wasSpare wasServing).dsp = old := by
  unfold State.reassign
  extract_lets spare s1 x
  have hs1 : s1.dsp = old := wr_keepsDsp (wr_keepsDsp hs)
  split
  · exact keepDsp_ite (setEvt_keepsDsp (wr_keepsDsp (wr_keepsDsp (wr_keepsDsp (wr_keepsDsp hs))))) (keepDsp_ite (wr_keepsDsp (wr_keepsDsp
    (wr_keepsDsp (wr_keepsDsp hs)))) (wr_keepsDsp (wr_keepsDsp hs)))
  · exact keepDsp_ite (setEvt_keepsDsp hs) (keepDsp_ite hs1 (keepDsp_ite (selectNext_keepsDsp hs) hs))

theorem State.mask_keepsDsp {s : State} {n : Nat} {old : Dsp} (hs : s.dsp = old) : (s.mask n).dsp = old := countDraw_keepsDsp hs

theorem State.parkCtx_keepsDsp {s : State} {x : Ctx} {old : Dsp} (hs : s.dsp = old) : (s.parkCtx x).2.dsp = old := by
  unfold State.parkCtx
  split
  · split
    rename_i x1 b s1 e
    exact keepDsp_of_snd e (free_keepsDsp hs)
  · exact hs

theorem State.aerOf_keepsDsp {s : State} {f : Fn} {old : Dsp} (hs : s.dsp = old) : (s.aerOf f).dsp = old := by
  unfold State.aerOf
  split
  · exact hs
  · split
    rename_i x n s1 e
    have hx : s1.dsp = old := keepDsp_of_snd e (freeNat_keepsDsp hs)
    exact aerLog_keepsDsp hx

theorem State.captureEnt_keepsDsp {s : State} {q cell test : Nat} {startup : Bool} {old : Dsp} (hs : s.dsp = old) : (s.captureEnt q cell
    test startup).dsp = old :=
  keepDsp_ite hs (wr_keepsDsp (wr_keepsDsp (wr_keepsDsp (wr_keepsDsp hs))))

theorem State.remask_keepsDsp {s : State} {p : Nat} {sl : Slot} {old : Dsp} (hs : s.dsp = old) : (s.remask p sl).dsp = old := by
  unfold State.remask
  split
  rename_i x b s1 e
  have hx : s1.dsp = old := keepDsp_of_snd e (draw_keepsDsp hs)
  exact setSlot_keepsDsp hx

theorem State.restoreSlot_keepsDsp {s : State} {old : Dsp} (hs : s.dsp = old) : s.restoreSlot.2.dsp = old := by
  unfold State.restoreSlot
  split
  · exact hs
  · exact pickSlot_keepsDsp hs

theorem State.svcReturn_keepsDsp {s : State} {p status : Nat} {g2 g3 : Option Word64} {old : Dsp} (hs : s.dsp = old) : (s.svcReturn p
    status g2 g3).dsp = old := by
  unfold State.svcReturn
  split
  rename_i x n s1 e
  have hx : s1.dsp = old := keepDsp_of_snd e (freeNat_keepsDsp hs)
  split
  rename_i x1 n1 s2 e1
  have hx1 : s2.dsp = old := keepDsp_of_snd e1 (freeNat_keepsDsp hx)
  split
  rename_i x2 n2 s3 e2
  have hx2 : s3.dsp = old := keepDsp_of_snd e2 (freeNat_keepsDsp hx1)
  exact setGr_keepsDsp (setGr_keepsDsp (setGr_keepsDsp (setGr_keepsDsp hx2)))

theorem State.cycleSets_keepsDsp {s : State} {p : Pool} {u : Nat} {old : Dsp} (hs : s.dsp = old) : (s.cycleSets p u).dsp = old := by
  unfold State.cycleSets
  split
  · exact wr_keepsDsp (wr_keepsDsp hs)
  · exact wr_keepsDsp hs
  · exact wr_keepsDsp (wr_keepsDsp (wr_keepsDsp hs))
  · exact wr_keepsDsp hs
  · exact hs

theorem State.cmpFault_keepsDsp {s : State} {p : Pool} {cause : Nat} {old : Dsp} (hs : s.dsp = old) : (s.cmpFault p cause).dsp = old := by
  unfold State.cmpFault
  split
  · exact keepDsp_ite (setEvt_keepsDsp hs) hs
  · exact keepDsp_ite (setEvt_keepsDsp hs) hs
  · exact hs

/-! ### `State.qps` -/

theorem keepQps_ite {old : Tbl Qp} {c : Prop} [Decidable c] {s t : State} (hs : s.qps = old) (ht : t.qps = old) : (if c then s else t).qps
  = old := by
  split
  · exact hs
  · exact ht

theorem keepQps_with {s : State} {old : Tbl Qp} {pending regs mem time freeCtr out edges bus pins cfg boot pwr evr tmp portA portB vfs fns
  dsp keys cores mbx act ddr ent eng lc tap twn lts} (h : s.qps = old) :
    State.qps ⟨pending, regs, mem, time, freeCtr, out, edges, bus, pins, cfg, boot, pwr, evr, tmp, portA, portB, vfs, fns, s.qps, dsp,
      keys, cores, mbx, act, ddr, ent, eng, lc, tap, twn, lts⟩ = old := h

theorem keepQps_fold {old : Tbl Qp} {α : Type} {f : State → α → State} {l : List α} {s : State} (h : s.qps = old)
    (hf : ∀ s a, s.qps = old → (f s a).qps = old) : (l.foldl f s).qps = old := by
  induction l generalizing s with
  | nil => exact h
  | cons a t ih => exact ih (hf s a h)

theorem keepQps_of_snd {old : Tbl Qp} {α : Type} {p : α × State} {a : α} {t : State} (e : p = (a, t)) (h : p.2.qps = old) : t.qps = old :=
  by rw [e] at h; exact h

theorem State.wr_keepsQps {s : State} {f : Fld} {v : Nat} {old : Tbl Qp} (hs : s.qps = old) : (s.wr f v).qps = old := hs

theorem State.setEvt_keepsQps {s : State} {f : Fld} {bit : Nat} {old : Tbl Qp} (hs : s.qps = old) : (s.setEvt f bit).qps = old :=
  keepQps_with (wr_keepsQps (wr_keepsQps hs))

theorem State.free_keepsQps {s : State} {n : Nat} {old : Tbl Qp} (hs : s.qps = old) : (s.free n).2.qps = old := hs

theorem State.freeNat_keepsQps {s : State} {n : Nat} {old : Tbl Qp} (hs : s.qps = old) : (s.freeNat n).2.qps = old := by
  unfold State.freeNat
  split
  rename_i x b s1 e
  exact keepQps_of_snd e (free_keepsQps hs)

theorem State.setPort_keepsQps {s : State} {p : Port} {v : PortSt} {old : Tbl Qp} (hs : s.qps = old) : (s.setPort p v).qps = old := by
  unfold State.setPort
  split
  · exact hs
  · exact hs

theorem State.setFnSt_keepsQps {s : State} {f : Fn} {v : FnSt} {old : Tbl Qp} (hs : s.qps = old) : (s.setFnSt f v).qps = old := hs

theorem State.aerLog_keepsQps {s : State} {f : Fn} {b : Nat} {old : Tbl Qp} (hs : s.qps = old) : (s.aerLog f b).qps = old :=
  keepQps_ite hs (setEvt_keepsQps (setFnSt_keepsQps hs))

theorem State.addClaim_keepsQps {s : State} {d : Nat} {old : Tbl Qp} (hs : s.qps = old) : (s.addClaim d).qps = old := wr_keepsQps hs

theorem State.dropClaim_keepsQps {s : State} {d : Nat} {old : Tbl Qp} (hs : s.qps = old) : (s.dropClaim d).qps = old := wr_keepsQps hs

theorem State.emit_keepsQps {s : State} {o : Out} {old : Tbl Qp} (hs : s.qps = old) : (s.emit o).qps = old := hs

theorem State.send_keepsQps {s : State} {f : Fn} {o : Out} {old : Tbl Qp} (hs : s.qps = old) : (s.send f o).qps = old :=
  keepQps_ite (setPort_keepsQps hs) (emit_keepsQps hs)

theorem State.vector_keepsQps {s : State} {f : Fn} {v : Nat} {old : Tbl Qp} (hs : s.qps = old) : (s.vector f v).qps = old :=
  keepQps_ite hs (keepQps_ite (send_keepsQps hs) (setFnSt_keepsQps hs))

theorem State.portClaim_keepsQps {s : State} {p : Port} {old : Tbl Qp} (hs : s.qps = old) : (s.portClaim p).qps = old :=
  keepQps_ite (keepQps_ite (addClaim_keepsQps hs) hs) (keepQps_ite hs (dropClaim_keepsQps hs))

theorem State.unhold_keepsQps {s : State} {id : Nat} {old : Tbl Qp} (hs : s.qps = old) : (s.unhold id).qps = old :=
  keepQps_fold hs (fun _ _ h => wr_keepsQps h)

theorem State.dropCmd_keepsQps {s : State} {id : Nat} {old : Tbl Qp} (hs : s.qps = old) : (s.dropCmd id).qps = old :=
  keepQps_with (unhold_keepsQps hs)

theorem State.qzEvent_keepsQps {s : State} {f : Fld} {fn : Fn} {old : Tbl Qp} (hs : s.qps = old) : (s.qzEvent f fn).qps = old :=
  keepQps_ite (setEvt_keepsQps hs) (vector_keepsQps (setEvt_keepsQps hs))

theorem State.aerOf_keepsQps {s : State} {f : Fn} {old : Tbl Qp} (hs : s.qps = old) : (s.aerOf f).qps = old := by
  unfold State.aerOf
  split
  · exact hs
  · split
    rename_i x n s1 e
    have hx : s1.qps = old := keepQps_of_snd e (freeNat_keepsQps hs)
    exact aerLog_keepsQps hx

/-! ### `State.evr` -/

theorem State.endApproval_keepsEvr {s : State} {id : Nat} {old : Evr} (hs : s.evr = old) : (s.endApproval id).evr = old := by
  unfold State.endApproval
  split
  · exact hs
  · exact hs

/-! ### `State.tap` -/

theorem keepTap_ite {old : Tap} {c : Prop} [Decidable c] {s t : State} (hs : s.tap = old) (ht : t.tap = old) : (if c then s else t).tap =
  old := by
  split
  · exact hs
  · exact ht

theorem State.wr_keepsTap {s : State} {f : Fld} {v : Nat} {old : Tap} (hs : s.tap = old) : (s.wr f v).tap = old := hs

theorem State.setChan_keepsTap {s : State} {c : Nat} {v : Ddr} {old : Tap} (hs : s.tap = old) : (s.setChan c v).tap = old := hs

theorem State.captureErr_keepsTap {s : State} {c l : Nat} {kind pos : Nat} {scrub : Bool} {old : Tap} (hs : s.tap = old) : (s.captureErr c
    l kind pos scrub).tap = old :=
  keepTap_ite hs (wr_keepsTap (wr_keepsTap (wr_keepsTap (wr_keepsTap (wr_keepsTap (setChan_keepsTap hs))))))

/-! ### `State.ent` -/

theorem keepEnt_ite {old : Ent} {c : Prop} [Decidable c] {s t : State} (hs : s.ent = old) (ht : t.ent = old) : (if c then s else t).ent =
  old := by
  split
  · exact hs
  · exact ht

theorem keepEnt_ite_snd {old : Ent} {α : Type} {c : Prop} [Decidable c] {x y : α × State} (hx : x.2.ent = old) (hy : y.2.ent = old) :
    (if c then x else y).2.ent = old := by
  split
  · exact hx
  · exact hy

theorem keepEnt_with {s : State} {old : Ent} {pending regs mem time freeCtr out edges bus pins cfg boot pwr evr tmp portA portB vfs fns qps
  dsp keys cores mbx act ddr eng lc tap twn lts} (h : s.ent = old) :
    State.ent ⟨pending, regs, mem, time, freeCtr, out, edges, bus, pins, cfg, boot, pwr, evr, tmp, portA, portB, vfs, fns, qps, dsp, keys,
      cores, mbx, act, ddr, s.ent, eng, lc, tap, twn, lts⟩ = old := h

theorem keepEnt_fold {old : Ent} {α : Type} {f : State → α → State} {l : List α} {s : State} (h : s.ent = old)
    (hf : ∀ s a, s.ent = old → (f s a).ent = old) : (l.foldl f s).ent = old := by
  induction l generalizing s with
  | nil => exact h
  | cons a t ih => exact ih (hf s a h)

theorem keepEnt_fold_snd {old : Ent} {α β : Type} {f : β × State → α → β × State} {l : List α} {x : β × State} (h : x.2.ent = old)
    (hf : ∀ (x : β × State) a, x.2.ent = old → (f x a).2.ent = old) : (l.foldl f x).2.ent = old := by
  induction l generalizing x with
  | nil => exact h
  | cons a t ih => exact ih (hf x a h)

theorem keepEnt_of_snd {old : Ent} {α : Type} {p : α × State} {a : α} {t : State} (e : p = (a, t)) (h : p.2.ent = old) : t.ent = old := by
  rw [e] at h; exact h

theorem State.wr_keepsEnt {s : State} {f : Fld} {v : Nat} {old : Ent} (hs : s.ent = old) : (s.wr f v).ent = old := hs

theorem State.satAdd_keepsEnt {s : State} {f : Fld} {n : Nat} {old : Ent} (hs : s.ent = old) : (s.satAdd f n).ent = old := wr_keepsEnt hs

theorem State.setEvt_keepsEnt {s : State} {f : Fld} {bit : Nat} {old : Ent} (hs : s.ent = old) : (s.setEvt f bit).ent = old :=
  keepEnt_with (wr_keepsEnt (wr_keepsEnt hs))

theorem State.setChan_keepsEnt {s : State} {c : Nat} {v : Ddr} {old : Ent} (hs : s.ent = old) : (s.setChan c v).ent = old := hs

theorem State.wake_keepsEnt {s : State} {d : Nat} {old : Ent} (hs : s.ent = old) : (s.wake d).ent = old := keepEnt_ite (wr_keepsEnt hs) hs

theorem State.violation_keepsEnt {s : State} {cls : Nat} {world : World} {kind : AccKind} {source entry a : Nat} {old : Ent} (hs : s.ent =
    old) : (s.violation cls world kind source entry a).ent = old :=
  setEvt_keepsEnt (keepEnt_ite (satAdd_keepsEnt hs) (wr_keepsEnt (wr_keepsEnt (wr_keepsEnt (wr_keepsEnt (wr_keepsEnt (wr_keepsEnt hs)))))))

theorem State.sweepTo_keepsEnt {s : State} {c n : Nat} {old : Ent} (hs : s.ent = old) : (s.sweepTo c n).ent = old :=
  wr_keepsEnt (wr_keepsEnt (setChan_keepsEnt hs))

theorem State.fillBlock_keepsEnt {s : State} {c b : Nat} {old : Ent} (hs : s.ent = old) : (s.fillBlock c b).ent = old :=
  keepEnt_ite (wr_keepsEnt (setChan_keepsEnt hs)) (sweepTo_keepsEnt hs)

theorem State.wakeMem_keepsEnt {s : State} {a : Nat} {old : Ent} (hs : s.ent = old) : (s.wakeMem a).ent = old := by
  unfold State.wakeMem
  split
  · exact wake_keepsEnt hs
  · exact hs

theorem State.awaitFill_keepsEnt {s : State} {a : Nat} {old : Ent} (hs : s.ent = old) : (s.awaitFill a).ent = old := by
  unfold State.awaitFill
  split
  · exact keepEnt_ite (fillBlock_keepsEnt hs) hs
  · exact hs

theorem State.captureErr_keepsEnt {s : State} {c l : Nat} {kind pos : Nat} {scrub : Bool} {old : Ent} (hs : s.ent = old) : (s.captureErr c
    l kind pos scrub).ent = old :=
  keepEnt_ite hs (wr_keepsEnt (wr_keepsEnt (wr_keepsEnt (wr_keepsEnt (wr_keepsEnt (setChan_keepsEnt hs))))))

theorem State.setErr_keepsEnt {s : State} {c l : Nat} {e : Option LineErr} {old : Ent} (hs : s.ent = old) : (s.setErr c l e).ent = old :=
  setChan_keepsEnt hs

theorem State.cleanLine_keepsEnt {s : State} {c l : Nat} {old : Ent} (hs : s.ent = old) : (s.cleanLine c l).ent = old := setErr_keepsEnt hs

theorem State.corrected_keepsEnt {s : State} {c l : Nat} {kind pos : Nat} {scrub : Bool} {old : Ent} (hs : s.ent = old) : (s.corrected c l
    kind pos scrub).ent = old :=
  setEvt_keepsEnt (satAdd_keepsEnt (captureErr_keepsEnt (cleanLine_keepsEnt hs)))

theorem State.fireMem_keepsEnt {s : State} {old : Ent} (hs : s.ent = old) : s.fireMem.ent = old := hs

theorem State.uncorrectable_keepsEnt {s : State} {c l : Nat} {scrub : Bool} {old : Ent} (hs : s.ent = old) : (s.uncorrectable c l
    scrub).ent = old :=
  fireMem_keepsEnt (setEvt_keepsEnt (satAdd_keepsEnt (captureErr_keepsEnt hs)))

theorem State.checkLine_keepsEnt {s : State} {c l : Nat} {scrub : Bool} {old : Ent} (hs : s.ent = old) : (s.checkLine c l scrub).ent = old
    := by
  unfold State.checkLine
  split
  · exact hs
  · exact corrected_keepsEnt hs
  · exact corrected_keepsEnt hs
  · exact uncorrectable_keepsEnt hs

theorem State.rmwFail_keepsEnt {s : State} {c l : Nat} {old : Ent} (hs : s.ent = old) : (s.rmwFail c l).ent = old :=
  setEvt_keepsEnt (uncorrectable_keepsEnt hs)

theorem State.setBytes_keepsEnt {s : State} {a : Nat} {l : List Byte} {old : Ent} (hs : s.ent = old) : (s.setBytes a l).ent = old := hs

theorem State.noteRefusal_keepsEnt {s : State} {cls : Nat} {world : World} {kind : AccKind} {r : Option (Nat × Nat × Nat)} {old : Ent} (hs
    : s.ent = old) : (s.noteRefusal cls world kind r).ent = old := by
  unfold State.noteRefusal
  split
  · exact violation_keepsEnt hs
  · exact hs

theorem State.serveLine_keepsEnt {s : State} {x : LineAccess} {old : Ent} (hs : s.ent = old) : (s.serveLine x).2.ent = old := by
  unfold State.serveLine
  split
  · exact hs
  · extract_lets a bad
    exact keepEnt_ite_snd hs (keepEnt_ite_snd (checkLine_keepsEnt hs) (keepEnt_ite_snd (keepEnt_ite hs (setBytes_keepsEnt
      (cleanLine_keepsEnt hs))) (keepEnt_ite_snd (rmwFail_keepsEnt hs) (setBytes_keepsEnt (checkLine_keepsEnt hs)))))

theorem State.yieldLock_keepsEnt {s : State} {c l : Nat} {old : Ent} (hs : s.ent = old) : (s.yieldLock c l).ent = old := by
  unfold State.yieldLock
  split
  · exact hs
  · exact setChan_keepsEnt (keepEnt_fold_snd hs fun _ _ h => serveLine_keepsEnt h)

theorem State.awaitLines_keepsEnt {s : State} {bs : List (Nat × Nat)} {old : Ent} (hs : s.ent = old) : (s.awaitLines bs).ent = old :=
  keepEnt_fold (keepEnt_fold hs (fun _ _ h => awaitFill_keepsEnt (wakeMem_keepsEnt h))) (fun _ _ h => yieldLock_keepsEnt h)

theorem putBeats_keepsEnt {skip : Nat × Nat → Bool} {l1 : List (Nat × Nat)} {l : List Byte} {s : State} {old : Ent} (hs : s.ent = old) :
    (putBeats skip l1 l s).ent = old := by
  induction l1 generalizing skip l s with
  | nil =>
    unfold putBeats
    exact hs
  | cons x l1 ih =>
    unfold putBeats
    exact ih (keepEnt_ite hs (setBytes_keepsEnt hs))

theorem State.writeMem_keepsEnt {s : State} {cls : Nat} {world : World} {a : Nat} {l : List Byte} {old : Ent} (hs : s.ent = old) :
    (s.writeMem cls world a l).2.ent = old := by
  unfold State.writeMem
  extract_lets bs r up s1
  have hs1 : s1.ent = old := awaitLines_keepsEnt hs
  split
  extract_lets s2 drop lost s'
  have hs2 : s2.ent = old := keepEnt_ite hs1 (keepEnt_fold hs1 (fun _ _ h => cleanLine_keepsEnt h))
  have hs' : s'.ent = old := keepEnt_fold hs2 (fun _ _ h => keepEnt_ite (rmwFail_keepsEnt h) (checkLine_keepsEnt h))
  exact noteRefusal_keepsEnt (putBeats_keepsEnt hs')

theorem writeAccesses_keepsEnt {cls : Nat} {world : World} {l1 : List (Nat × Nat)} {l : List Byte} {s : State} {old : Ent} (hs : s.ent =
    old) : (writeAccesses cls world l1 l s).2.ent = old := by
  induction l1 generalizing cls world l s with
  | nil =>
    unfold writeAccesses
    exact hs
  | cons x l1 ih =>
    unfold writeAccesses
    split
    · rename_i x1 s1 e
      have hx : s1.ent = old := keepEnt_of_snd e (writeMem_keepsEnt hs)
      exact ih hx
    · rename_i x1 s1 e
      exact keepEnt_of_snd e (writeMem_keepsEnt hs)

theorem State.dmaOut_keepsEnt {s : State} {cls : Nat} {world : World} {a : Nat} {l : List Byte} {old : Ent} (hs : s.ent = old) : (s.dmaOut
    cls world a l).2.ent = old :=
  writeAccesses_keepsEnt hs

/-! ### `State.eng` -/

theorem keepEng_ite {old : Eng} {c : Prop} [Decidable c] {s t : State} (hs : s.eng = old) (ht : t.eng = old) : (if c then s else t).eng =
  old := by
  split
  · exact hs
  · exact ht

theorem keepEng_with {s : State} {old : Eng} {pending regs mem time freeCtr out edges bus pins cfg boot pwr evr tmp portA portB vfs fns qps
  dsp keys cores mbx act ddr ent lc tap twn lts} (h : s.eng = old) :
    State.eng ⟨pending, regs, mem, time, freeCtr, out, edges, bus, pins, cfg, boot, pwr, evr, tmp, portA, portB, vfs, fns, qps, dsp, keys,
      cores, mbx, act, ddr, ent, s.eng, lc, tap, twn, lts⟩ = old := h

theorem keepEng_of_snd {old : Eng} {α : Type} {p : α × State} {a : α} {t : State} (e : p = (a, t)) (h : p.2.eng = old) : t.eng = old := by
  rw [e] at h; exact h

theorem State.wr_keepsEng {s : State} {f : Fld} {v : Nat} {old : Eng} (hs : s.eng = old) : (s.wr f v).eng = old := hs

theorem State.setEvt_keepsEng {s : State} {f : Fld} {bit : Nat} {old : Eng} (hs : s.eng = old) : (s.setEvt f bit).eng = old :=
  keepEng_with (wr_keepsEng (wr_keepsEng hs))

theorem State.free_keepsEng {s : State} {n : Nat} {old : Eng} (hs : s.eng = old) : (s.free n).2.eng = old := hs

theorem State.freeNat_keepsEng {s : State} {n : Nat} {old : Eng} (hs : s.eng = old) : (s.freeNat n).2.eng = old := by
  unfold State.freeNat
  split
  rename_i x b s1 e
  exact keepEng_of_snd e (free_keepsEng hs)

theorem State.setFnSt_keepsEng {s : State} {f : Fn} {v : FnSt} {old : Eng} (hs : s.eng = old) : (s.setFnSt f v).eng = old := hs

theorem State.aerLog_keepsEng {s : State} {f : Fn} {b : Nat} {old : Eng} (hs : s.eng = old) : (s.aerLog f b).eng = old :=
  keepEng_ite hs (setEvt_keepsEng (setFnSt_keepsEng hs))

theorem State.aerOf_keepsEng {s : State} {f : Fn} {old : Eng} (hs : s.eng = old) : (s.aerOf f).eng = old := by
  unfold State.aerOf
  split
  · exact hs
  · split
    rename_i x n s1 e
    have hx : s1.eng = old := keepEng_of_snd e (freeNat_keepsEng hs)
    exact aerLog_keepsEng hx

/-! ### `State.pwr` -/

theorem keepPwr_ite {old : Pwr} {c : Prop} [Decidable c] {s t : State} (hs : s.pwr = old) (ht : t.pwr = old) : (if c then s else t).pwr =
  old := by
  split
  · exact hs
  · exact ht

theorem keepPwr_with {s : State} {old : Pwr} {pending regs mem time freeCtr out edges bus pins cfg boot evr tmp portA portB vfs fns qps dsp
  keys cores mbx act ddr ent eng lc tap twn lts} (h : s.pwr = old) :
    State.pwr ⟨pending, regs, mem, time, freeCtr, out, edges, bus, pins, cfg, boot, s.pwr, evr, tmp, portA, portB, vfs, fns, qps, dsp,
      keys, cores, mbx, act, ddr, ent, eng, lc, tap, twn, lts⟩ = old := h

theorem keepPwr_fold {old : Pwr} {α : Type} {f : State → α → State} {l : List α} {s : State} (h : s.pwr = old)
    (hf : ∀ s a, s.pwr = old → (f s a).pwr = old) : (l.foldl f s).pwr = old := by
  induction l generalizing s with
  | nil => exact h
  | cons a t ih => exact ih (hf s a h)

theorem keepPwr_of_snd {old : Pwr} {α : Type} {p : α × State} {a : α} {t : State} (e : p = (a, t)) (h : p.2.pwr = old) : t.pwr = old := by
  rw [e] at h; exact h

theorem State.wr_keepsPwr {s : State} {f : Fld} {v : Nat} {old : Pwr} (hs : s.pwr = old) : (s.wr f v).pwr = old := hs

theorem State.free_keepsPwr {s : State} {n : Nat} {old : Pwr} (hs : s.pwr = old) : (s.free n).2.pwr = old := hs

theorem State.freeNat_keepsPwr {s : State} {n : Nat} {old : Pwr} (hs : s.pwr = old) : (s.freeNat n).2.pwr = old := by
  unfold State.freeNat
  split
  rename_i x b s1 e
  exact keepPwr_of_snd e (free_keepsPwr hs)

theorem State.dropSync_keepsPwr {s : State} {k : Nat} {old : Pwr} (hs : s.pwr = old) : (s.dropSync k).pwr = old :=
  keepPwr_fold hs (fun _ _ h => wr_keepsPwr h)

theorem State.endEye_keepsPwr {s : State} {result errors : Nat} {old : Pwr} (hs : s.pwr = old) : (s.endEye result errors).pwr = old :=
  wr_keepsPwr (keepPwr_with (wr_keepsPwr (wr_keepsPwr (wr_keepsPwr hs))))

theorem State.stopEye_keepsPwr {s : State} {k : Nat} {old : Pwr} (hs : s.pwr = old) : (s.stopEye k).pwr = old := by
  unfold State.stopEye
  split
  · split
    · split
      rename_i x n s1 e
      have hx : s1.pwr = old := keepPwr_of_snd e (freeNat_keepsPwr hs)
      exact endEye_keepsPwr hx
    · exact hs
  · exact hs

theorem State.leaveTest_keepsPwr {s : State} {k : Nat} {old : Pwr} (hs : s.pwr = old) : (s.leaveTest k).pwr = old :=
  keepPwr_ite (stopEye_keepsPwr (dropSync_keepsPwr (wr_keepsPwr (wr_keepsPwr (wr_keepsPwr (wr_keepsPwr hs)))))) hs

theorem State.domResult_keepsPwr {s : State} {w : World} {r : Nat} {old : Pwr} (hs : s.pwr = old) : (s.domResult w r).pwr = old :=
  wr_keepsPwr hs

theorem State.pendResult_keepsPwr {s : State} {d r : Nat} {old : Pwr} (hs : s.pwr = old) : (s.pendResult d r).pwr = old :=
  keepPwr_ite (domResult_keepsPwr hs) hs

theorem State.setDom_keepsPwr {s : State} {d st : Nat} {old : Pwr} (hs : s.pwr = old) : (s.setDom d st).pwr = old :=
  keepPwr_fold hs (fun _ _ h => wr_keepsPwr h)

/-! ### `State.bus` -/

theorem keepBus_with {s : State} {old : Bus} {pending regs mem time freeCtr out edges pins cfg boot pwr evr tmp portA portB vfs fns qps dsp
  keys cores mbx act ddr ent eng lc tap twn lts} (h : s.bus = old) :
    State.bus ⟨pending, regs, mem, time, freeCtr, out, edges, s.bus, pins, cfg, boot, pwr, evr, tmp, portA, portB, vfs, fns, qps, dsp,
      keys, cores, mbx, act, ddr, ent, eng, lc, tap, twn, lts⟩ = old := h

theorem State.wr_keepsBus {s : State} {f : Fld} {v : Nat} {old : Bus} (hs : s.bus = old) : (s.wr f v).bus = old := hs

theorem State.setEvt_keepsBus {s : State} {f : Fld} {bit : Nat} {old : Bus} (hs : s.bus = old) : (s.setEvt f bit).bus = old :=
  keepBus_with (wr_keepsBus (wr_keepsBus hs))

theorem State.setEvtAll_keepsBus {s : State} {f : Fld} {old : Bus} (hs : s.bus = old) : (s.setEvtAll f).bus = old :=
  setEvt_keepsBus (setEvt_keepsBus (setEvt_keepsBus (setEvt_keepsBus hs)))

/-! ### `State.vfs` -/

theorem keepVfs_ite {old : Tbl Vf} {c : Prop} [Decidable c] {s t : State} (hs : s.vfs = old) (ht : t.vfs = old) : (if c then s else t).vfs
  = old := by
  split
  · exact hs
  · exact ht

theorem keepVfs_with {s : State} {old : Tbl Vf} {pending regs mem time freeCtr out edges bus pins cfg boot pwr evr tmp portA portB fns qps
  dsp keys cores mbx act ddr ent eng lc tap twn lts} (h : s.vfs = old) :
    State.vfs ⟨pending, regs, mem, time, freeCtr, out, edges, bus, pins, cfg, boot, pwr, evr, tmp, portA, portB, s.vfs, fns, qps, dsp,
      keys, cores, mbx, act, ddr, ent, eng, lc, tap, twn, lts⟩ = old := h

theorem keepVfs_fold {old : Tbl Vf} {α : Type} {f : State → α → State} {l : List α} {s : State} (h : s.vfs = old)
    (hf : ∀ s a, s.vfs = old → (f s a).vfs = old) : (l.foldl f s).vfs = old := by
  induction l generalizing s with
  | nil => exact h
  | cons a t ih => exact ih (hf s a h)

theorem State.wr_keepsVfs {s : State} {f : Fld} {v : Nat} {old : Tbl Vf} (hs : s.vfs = old) : (s.wr f v).vfs = old := hs

theorem State.setPort_keepsVfs {s : State} {p : Port} {v : PortSt} {old : Tbl Vf} (hs : s.vfs = old) : (s.setPort p v).vfs = old := by
  unfold State.setPort
  split
  · exact hs
  · exact hs

theorem State.setFnSt_keepsVfs {s : State} {f : Fn} {v : FnSt} {old : Tbl Vf} (hs : s.vfs = old) : (s.setFnSt f v).vfs = old := hs

theorem State.setQp_keepsVfs {s : State} {f : Fn} {q : Nat} {v : Qp} {old : Tbl Vf} (hs : s.vfs = old) : (s.setQp f q v).vfs = old := hs

theorem State.addClaim_keepsVfs {s : State} {d : Nat} {old : Tbl Vf} (hs : s.vfs = old) : (s.addClaim d).vfs = old := wr_keepsVfs hs

theorem State.dropClaim_keepsVfs {s : State} {d : Nat} {old : Tbl Vf} (hs : s.vfs = old) : (s.dropClaim d).vfs = old := wr_keepsVfs hs

theorem State.emit_keepsVfs {s : State} {o : Out} {old : Tbl Vf} (hs : s.vfs = old) : (s.emit o).vfs = old := hs

theorem State.send_keepsVfs {s : State} {f : Fn} {o : Out} {old : Tbl Vf} (hs : s.vfs = old) : (s.send f o).vfs = old :=
  keepVfs_ite (setPort_keepsVfs hs) (emit_keepsVfs hs)

theorem State.vector_keepsVfs {s : State} {f : Fn} {v : Nat} {old : Tbl Vf} (hs : s.vfs = old) : (s.vector f v).vfs = old :=
  keepVfs_ite hs (keepVfs_ite (send_keepsVfs hs) (setFnSt_keepsVfs hs))

theorem State.portClaim_keepsVfs {s : State} {p : Port} {old : Tbl Vf} (hs : s.vfs = old) : (s.portClaim p).vfs = old :=
  keepVfs_ite (keepVfs_ite (addClaim_keepsVfs hs) hs) (keepVfs_ite hs (dropClaim_keepsVfs hs))

theorem State.nqRelease_keepsVfs {s : State} {n : Nat} {old : Tbl Vf} (hs : s.vfs = old) : (s.nqRelease n).vfs = old := wr_keepsVfs hs

theorem State.disableQp_keepsVfs {s : State} {f : Fn} {q : Nat} {old : Tbl Vf} (hs : s.vfs = old) : (s.disableQp f q).vfs = old := by
  unfold State.disableQp
  extract_lets unbind s1 e s2 s3 s4
  have hs1 : s1.vfs = old := setQp_keepsVfs hs
  have hs2 : s2.vfs = old := wr_keepsVfs hs1
  have hs3 : s3.vfs = old := keepVfs_ite (wr_keepsVfs (wr_keepsVfs hs2)) hs2
  have hs4 : s4.vfs = old := keepVfs_ite hs3 (portClaim_keepsVfs hs3)
  exact keepVfs_ite (nqRelease_keepsVfs hs4) hs4

theorem State.dropCtxs_keepsVfs {s : State} {pred : Ctx → Bool} {old : Tbl Vf} (hs : s.vfs = old) : (s.dropCtxs pred).vfs = old := hs

theorem State.unhold_keepsVfs {s : State} {id : Nat} {old : Tbl Vf} (hs : s.vfs = old) : (s.unhold id).vfs = old :=
  keepVfs_fold hs (fun _ _ h => wr_keepsVfs h)

theorem State.dropCmd_keepsVfs {s : State} {id : Nat} {old : Tbl Vf} (hs : s.vfs = old) : (s.dropCmd id).vfs = old :=
  keepVfs_with (unhold_keepsVfs hs)

theorem State.endResidency_keepsVfs {s : State} {p : Pool} {u : Nat} {old : Tbl Vf} (hs : s.vfs = old) : (s.endResidency p u).vfs = old :=
    by
  unfold State.endResidency
  split
  · exact keepVfs_with (wr_keepsVfs (wr_keepsVfs (wr_keepsVfs (wr_keepsVfs hs))))
  · exact hs

theorem State.clearUnit_keepsVfs {s : State} {p : Pool} {u : Nat} {old : Tbl Vf} (hs : s.vfs = old) : (s.clearUnit p u).vfs = old := by
  unfold State.clearUnit
  extract_lets x s1 s2
  have hs1 : s1.vfs = old := hs
  have hs2 : s2.vfs = old := endResidency_keepsVfs (wr_keepsVfs hs1)
  split
  · rename_i p
    exact keepVfs_fold hs2 (fun _ _ h => wr_keepsVfs h)
  · exact wr_keepsVfs hs2

theorem State.idleFields_keepsVfs {s : State} {p : Pool} {u l : Nat} {old : Tbl Vf} (hs : s.vfs = old) : (s.idleFields p u l).vfs = old :=
    by
  unfold State.idleFields
  split
  · exact hs
  · exact wr_keepsVfs (wr_keepsVfs (wr_keepsVfs hs))
  · exact wr_keepsVfs hs
  · exact wr_keepsVfs hs
  · exact wr_keepsVfs hs

theorem State.releaseLane_keepsVfs {s : State} {p : Pool} {u l : Nat} {keep : Bool} {old : Tbl Vf} (hs : s.vfs = old) : (s.releaseLane p u
    l keep).vfs = old := by
  unfold State.releaseLane
  extract_lets tile x s1 s2 s3 s4
  have hs1 : s1.vfs = old := hs
  have hs2 : s2.vfs = old := dropClaim_keepsVfs hs1
  have hs3 : s3.vfs = old := keepVfs_ite (keepVfs_fold hs2 (fun _ _ h => idleFields_keepsVfs h)) (idleFields_keepsVfs hs2)
  have hs4 : s4.vfs = old := keepVfs_ite (wr_keepsVfs (wr_keepsVfs hs3)) (wr_keepsVfs hs3)
  split
  · rename_i p
    exact keepVfs_ite hs4 (keepVfs_ite (clearUnit_keepsVfs hs4) (wr_keepsVfs hs4))
  · exact keepVfs_ite (keepVfs_ite (wr_keepsVfs hs3) hs3) (keepVfs_ite hs3 (clearUnit_keepsVfs hs3))

theorem State.releaseExtra_keepsVfs {s : State} {c : Cmd} {keep : Bool} {old : Tbl Vf} (hs : s.vfs = old) : (s.releaseExtra c keep).vfs =
    old := by
  unfold State.releaseExtra
  split
  · exact keepVfs_ite (releaseLane_keepsVfs hs) hs
  · exact hs

theorem State.releaseUnit_keepsVfs {s : State} {c : Cmd} {keep : Bool} {old : Tbl Vf} (hs : s.vfs = old) : (s.releaseUnit c keep).vfs = old
    := by
  unfold State.releaseUnit
  extract_lets s1
  have hs1 : s1.vfs = old := releaseExtra_keepsVfs hs
  split
  · exact keepVfs_ite (releaseLane_keepsVfs hs1) hs1
  · exact hs1

theorem State.discardCmd_keepsVfs {s : State} {c : Cmd} {old : Tbl Vf} (hs : s.vfs = old) : (s.discardCmd c).vfs = old :=
  setQp_keepsVfs (dropCmd_keepsVfs (releaseUnit_keepsVfs hs))

theorem State.dropHeld_keepsVfs {s : State} {pred : Fn → Bool} {p : Port} {old : Tbl Vf} (hs : s.vfs = old) : (s.dropHeld pred p).vfs = old
    :=
  setPort_keepsVfs hs

theorem State.stopFns_keepsVfs {s : State} {pred : Fn → Bool} {old : Tbl Vf} (hs : s.vfs = old) : (s.stopFns pred).vfs = old :=
  keepVfs_fold (dropHeld_keepsVfs (dropHeld_keepsVfs (keepVfs_fold (dropCtxs_keepsVfs (keepVfs_fold hs (fun _ _ h => discardCmd_keepsVfs
    h))) (fun _ _ h => disableQp_keepsVfs h)))) (fun _ _ h => setFnSt_keepsVfs h)

/-! ### `State.fns` -/

theorem keepFns_with {s : State} {old : Tbl FnSt} {pending regs mem time freeCtr out edges bus pins cfg boot pwr evr tmp portA portB vfs
  qps dsp keys cores mbx act ddr ent eng lc tap twn lts} (h : s.fns = old) :
    State.fns ⟨pending, regs, mem, time, freeCtr, out, edges, bus, pins, cfg, boot, pwr, evr, tmp, portA, portB, vfs, s.fns, qps, dsp,
      keys, cores, mbx, act, ddr, ent, eng, lc, tap, twn, lts⟩ = old := h

theorem keepFns_fold {old : Tbl FnSt} {α : Type} {f : State → α → State} {l : List α} {s : State} (h : s.fns = old)
    (hf : ∀ s a, s.fns = old → (f s a).fns = old) : (l.foldl f s).fns = old := by
  induction l generalizing s with
  | nil => exact h
  | cons a t ih => exact ih (hf s a h)

theorem State.wr_keepsFns {s : State} {f : Fld} {v : Nat} {old : Tbl FnSt} (hs : s.fns = old) : (s.wr f v).fns = old := hs

theorem State.unhold_keepsFns {s : State} {id : Nat} {old : Tbl FnSt} (hs : s.fns = old) : (s.unhold id).fns = old :=
  keepFns_fold hs (fun _ _ h => wr_keepsFns h)

theorem State.dropCmd_keepsFns {s : State} {id : Nat} {old : Tbl FnSt} (hs : s.fns = old) : (s.dropCmd id).fns = old :=
  keepFns_with (unhold_keepsFns hs)

/-! ### `State.portA` -/

theorem keepPortA_ite {old : PortSt} {c : Prop} [Decidable c] {s t : State} (hs : s.portA = old) (ht : t.portA = old) : (if c then s else
  t).portA = old := by
  split
  · exact hs
  · exact ht

theorem keepPortA_with {s : State} {old : PortSt} {pending regs mem time freeCtr out edges bus pins cfg boot pwr evr tmp portB vfs fns qps
  dsp keys cores mbx act ddr ent eng lc tap twn lts} (h : s.portA = old) :
    State.portA ⟨pending, regs, mem, time, freeCtr, out, edges, bus, pins, cfg, boot, pwr, evr, tmp, s.portA, portB, vfs, fns, qps, dsp,
      keys, cores, mbx, act, ddr, ent, eng, lc, tap, twn, lts⟩ = old := h

theorem keepPortA_fold {old : PortSt} {α : Type} {f : State → α → State} {l : List α} {s : State} (h : s.portA = old)
    (hf : ∀ s a, s.portA = old → (f s a).portA = old) : (l.foldl f s).portA = old := by
  induction l generalizing s with
  | nil => exact h
  | cons a t ih => exact ih (hf s a h)

theorem keepPortA_of_snd {old : PortSt} {α : Type} {p : α × State} {a : α} {t : State} (e : p = (a, t)) (h : p.2.portA = old) : t.portA =
  old := by rw [e] at h; exact h

theorem State.wr_keepsPortA {s : State} {f : Fld} {v : Nat} {old : PortSt} (hs : s.portA = old) : (s.wr f v).portA = old := hs

theorem State.setEvt_keepsPortA {s : State} {f : Fld} {bit : Nat} {old : PortSt} (hs : s.portA = old) : (s.setEvt f bit).portA = old :=
  keepPortA_with (wr_keepsPortA (wr_keepsPortA hs))

theorem State.free_keepsPortA {s : State} {n : Nat} {old : PortSt} (hs : s.portA = old) : (s.free n).2.portA = old := hs

theorem State.freeNat_keepsPortA {s : State} {n : Nat} {old : PortSt} (hs : s.portA = old) : (s.freeNat n).2.portA = old := by
  unfold State.freeNat
  split
  rename_i x b s1 e
  exact keepPortA_of_snd e (free_keepsPortA hs)

theorem State.setFnSt_keepsPortA {s : State} {f : Fn} {v : FnSt} {old : PortSt} (hs : s.portA = old) : (s.setFnSt f v).portA = old := hs

theorem State.aerLog_keepsPortA {s : State} {f : Fn} {b : Nat} {old : PortSt} (hs : s.portA = old) : (s.aerLog f b).portA = old :=
  keepPortA_ite hs (setEvt_keepsPortA (setFnSt_keepsPortA hs))

theorem State.dropSync_keepsPortA {s : State} {k : Nat} {old : PortSt} (hs : s.portA = old) : (s.dropSync k).portA = old :=
  keepPortA_fold hs (fun _ _ h => wr_keepsPortA h)

theorem State.endEye_keepsPortA {s : State} {result errors : Nat} {old : PortSt} (hs : s.portA = old) : (s.endEye result errors).portA =
    old :=
  wr_keepsPortA (keepPortA_with (wr_keepsPortA (wr_keepsPortA (wr_keepsPortA hs))))

theorem State.stopEye_keepsPortA {s : State} {k : Nat} {old : PortSt} (hs : s.portA = old) : (s.stopEye k).portA = old := by
  unfold State.stopEye
  split
  · split
    · split
      rename_i x n s1 e
      have hx : s1.portA = old := keepPortA_of_snd e (freeNat_keepsPortA hs)
      exact endEye_keepsPortA hx
    · exact hs
  · exact hs

theorem State.leaveTest_keepsPortA {s : State} {k : Nat} {old : PortSt} (hs : s.portA = old) : (s.leaveTest k).portA = old :=
  keepPortA_ite (stopEye_keepsPortA (dropSync_keepsPortA (wr_keepsPortA (wr_keepsPortA (wr_keepsPortA (wr_keepsPortA hs)))))) hs

theorem State.unhold_keepsPortA {s : State} {id : Nat} {old : PortSt} (hs : s.portA = old) : (s.unhold id).portA = old :=
  keepPortA_fold hs (fun _ _ h => wr_keepsPortA h)

theorem State.dropCmd_keepsPortA {s : State} {id : Nat} {old : PortSt} (hs : s.portA = old) : (s.dropCmd id).portA = old :=
  keepPortA_with (unhold_keepsPortA hs)

theorem State.aerOf_keepsPortA {s : State} {f : Fn} {old : PortSt} (hs : s.portA = old) : (s.aerOf f).portA = old := by
  unfold State.aerOf
  split
  · exact hs
  · split
    rename_i x n s1 e
    have hx : s1.portA = old := keepPortA_of_snd e (freeNat_keepsPortA hs)
    exact aerLog_keepsPortA hx

/-! ### `State.portB` -/

theorem keepPortB_ite {old : PortSt} {c : Prop} [Decidable c] {s t : State} (hs : s.portB = old) (ht : t.portB = old) : (if c then s else
  t).portB = old := by
  split
  · exact hs
  · exact ht

theorem keepPortB_with {s : State} {old : PortSt} {pending regs mem time freeCtr out edges bus pins cfg boot pwr evr tmp portA vfs fns qps
  dsp keys cores mbx act ddr ent eng lc tap twn lts} (h : s.portB = old) :
    State.portB ⟨pending, regs, mem, time, freeCtr, out, edges, bus, pins, cfg, boot, pwr, evr, tmp, portA, s.portB, vfs, fns, qps, dsp,
      keys, cores, mbx, act, ddr, ent, eng, lc, tap, twn, lts⟩ = old := h

theorem keepPortB_fold {old : PortSt} {α : Type} {f : State → α → State} {l : List α} {s : State} (h : s.portB = old)
    (hf : ∀ s a, s.portB = old → (f s a).portB = old) : (l.foldl f s).portB = old := by
  induction l generalizing s with
  | nil => exact h
  | cons a t ih => exact ih (hf s a h)

theorem keepPortB_of_snd {old : PortSt} {α : Type} {p : α × State} {a : α} {t : State} (e : p = (a, t)) (h : p.2.portB = old) : t.portB =
  old := by rw [e] at h; exact h

theorem State.wr_keepsPortB {s : State} {f : Fld} {v : Nat} {old : PortSt} (hs : s.portB = old) : (s.wr f v).portB = old := hs

theorem State.free_keepsPortB {s : State} {n : Nat} {old : PortSt} (hs : s.portB = old) : (s.free n).2.portB = old := hs

theorem State.freeNat_keepsPortB {s : State} {n : Nat} {old : PortSt} (hs : s.portB = old) : (s.freeNat n).2.portB = old := by
  unfold State.freeNat
  split
  rename_i x b s1 e
  exact keepPortB_of_snd e (free_keepsPortB hs)

theorem State.dropSync_keepsPortB {s : State} {k : Nat} {old : PortSt} (hs : s.portB = old) : (s.dropSync k).portB = old :=
  keepPortB_fold hs (fun _ _ h => wr_keepsPortB h)

theorem State.endEye_keepsPortB {s : State} {result errors : Nat} {old : PortSt} (hs : s.portB = old) : (s.endEye result errors).portB =
    old :=
  wr_keepsPortB (keepPortB_with (wr_keepsPortB (wr_keepsPortB (wr_keepsPortB hs))))

theorem State.stopEye_keepsPortB {s : State} {k : Nat} {old : PortSt} (hs : s.portB = old) : (s.stopEye k).portB = old := by
  unfold State.stopEye
  split
  · split
    · split
      rename_i x n s1 e
      have hx : s1.portB = old := keepPortB_of_snd e (freeNat_keepsPortB hs)
      exact endEye_keepsPortB hx
    · exact hs
  · exact hs

theorem State.leaveTest_keepsPortB {s : State} {k : Nat} {old : PortSt} (hs : s.portB = old) : (s.leaveTest k).portB = old :=
  keepPortB_ite (stopEye_keepsPortB (dropSync_keepsPortB (wr_keepsPortB (wr_keepsPortB (wr_keepsPortB (wr_keepsPortB hs)))))) hs

theorem State.unhold_keepsPortB {s : State} {id : Nat} {old : PortSt} (hs : s.portB = old) : (s.unhold id).portB = old :=
  keepPortB_fold hs (fun _ _ h => wr_keepsPortB h)

theorem State.dropCmd_keepsPortB {s : State} {id : Nat} {old : PortSt} (hs : s.portB = old) : (s.dropCmd id).portB = old :=
  keepPortB_with (unhold_keepsPortB hs)

/-! ### `State.ddr` -/

theorem keepDdr_ite {old : Tbl Ddr} {c : Prop} [Decidable c] {s t : State} (hs : s.ddr = old) (ht : t.ddr = old) : (if c then s else t).ddr
  = old := by
  split
  · exact hs
  · exact ht

theorem keepDdr_with {s : State} {old : Tbl Ddr} {pending regs mem time freeCtr out edges bus pins cfg boot pwr evr tmp portA portB vfs fns
  qps dsp keys cores mbx act ent eng lc tap twn lts} (h : s.ddr = old) :
    State.ddr ⟨pending, regs, mem, time, freeCtr, out, edges, bus, pins, cfg, boot, pwr, evr, tmp, portA, portB, vfs, fns, qps, dsp, keys,
      cores, mbx, act, s.ddr, ent, eng, lc, tap, twn, lts⟩ = old := h

theorem keepDdr_fold {old : Tbl Ddr} {α : Type} {f : State → α → State} {l : List α} {s : State} (h : s.ddr = old)
    (hf : ∀ s a, s.ddr = old → (f s a).ddr = old) : (l.foldl f s).ddr = old := by
  induction l generalizing s with
  | nil => exact h
  | cons a t ih => exact ih (hf s a h)

theorem keepDdr_of_snd {old : Tbl Ddr} {α : Type} {p : α × State} {a : α} {t : State} (e : p = (a, t)) (h : p.2.ddr = old) : t.ddr = old :=
  by rw [e] at h; exact h

theorem State.wr_keepsDdr {s : State} {f : Fld} {v : Nat} {old : Tbl Ddr} (hs : s.ddr = old) : (s.wr f v).ddr = old := hs

theorem State.setEvt_keepsDdr {s : State} {f : Fld} {bit : Nat} {old : Tbl Ddr} (hs : s.ddr = old) : (s.setEvt f bit).ddr = old :=
  keepDdr_with (wr_keepsDdr (wr_keepsDdr hs))

theorem State.free_keepsDdr {s : State} {n : Nat} {old : Tbl Ddr} (hs : s.ddr = old) : (s.free n).2.ddr = old := hs

theorem State.freeNat_keepsDdr {s : State} {n : Nat} {old : Tbl Ddr} (hs : s.ddr = old) : (s.freeNat n).2.ddr = old := by
  unfold State.freeNat
  split
  rename_i x b s1 e
  exact keepDdr_of_snd e (free_keepsDdr hs)

theorem State.dropSync_keepsDdr {s : State} {k : Nat} {old : Tbl Ddr} (hs : s.ddr = old) : (s.dropSync k).ddr = old :=
  keepDdr_fold hs (fun _ _ h => wr_keepsDdr h)

theorem State.endEye_keepsDdr {s : State} {result errors : Nat} {old : Tbl Ddr} (hs : s.ddr = old) : (s.endEye result errors).ddr = old :=
  wr_keepsDdr (keepDdr_with (wr_keepsDdr (wr_keepsDdr (wr_keepsDdr hs))))

theorem State.stopEye_keepsDdr {s : State} {k : Nat} {old : Tbl Ddr} (hs : s.ddr = old) : (s.stopEye k).ddr = old := by
  unfold State.stopEye
  split
  · split
    · split
      rename_i x n s1 e
      have hx : s1.ddr = old := keepDdr_of_snd e (freeNat_keepsDdr hs)
      exact endEye_keepsDdr hx
    · exact hs
  · exact hs

theorem State.leaveTest_keepsDdr {s : State} {k : Nat} {old : Tbl Ddr} (hs : s.ddr = old) : (s.leaveTest k).ddr = old :=
  keepDdr_ite (stopEye_keepsDdr (dropSync_keepsDdr (wr_keepsDdr (wr_keepsDdr (wr_keepsDdr (wr_keepsDdr hs)))))) hs

theorem State.domResult_keepsDdr {s : State} {w : World} {r : Nat} {old : Tbl Ddr} (hs : s.ddr = old) : (s.domResult w r).ddr = old :=
  wr_keepsDdr hs

theorem State.pendResult_keepsDdr {s : State} {d r : Nat} {old : Tbl Ddr} (hs : s.ddr = old) : (s.pendResult d r).ddr = old :=
  keepDdr_ite (domResult_keepsDdr hs) hs

theorem State.setPending_keepsDdr {s : State} {d target : Nat} {w : World} {old : Tbl Ddr} (hs : s.ddr = old) : (s.setPending d target
    w).ddr = old :=
  keepDdr_fold hs (fun _ _ h => wr_keepsDdr (wr_keepsDdr h))

theorem State.supersede_keepsDdr {s : State} {d : Nat} {old : Tbl Ddr} (hs : s.ddr = old) : (s.supersede d).ddr = old :=
  keepDdr_ite hs (keepDdr_with (setEvt_keepsDdr (setPending_keepsDdr (pendResult_keepsDdr hs))))

theorem State.setDom_keepsDdr {s : State} {d st : Nat} {old : Tbl Ddr} (hs : s.ddr = old) : (s.setDom d st).ddr = old :=
  keepDdr_fold hs (fun _ _ h => wr_keepsDdr h)

/-! ### `State.edges` -/

theorem keepEdges_ite {old : List Nat} {c : Prop} [Decidable c] {s t : State} (hs : s.edges = old) (ht : t.edges = old) : (if c then s else
  t).edges = old := by
  split
  · exact hs
  · exact ht

theorem State.setPort_keepsEdges {s : State} {p : Port} {v : PortSt} {old : List Nat} (hs : s.edges = old) : (s.setPort p v).edges = old :=
    by
  unfold State.setPort
  split
  · exact hs
  · exact hs

theorem State.setFnSt_keepsEdges {s : State} {f : Fn} {v : FnSt} {old : List Nat} (hs : s.edges = old) : (s.setFnSt f v).edges = old := hs

theorem State.emit_keepsEdges {s : State} {o : Out} {old : List Nat} (hs : s.edges = old) : (s.emit o).edges = old := hs

theorem State.send_keepsEdges {s : State} {f : Fn} {o : Out} {old : List Nat} (hs : s.edges = old) : (s.send f o).edges = old :=
  keepEdges_ite (setPort_keepsEdges hs) (emit_keepsEdges hs)

theorem State.vector_keepsEdges {s : State} {f : Fn} {v : Nat} {old : List Nat} (hs : s.edges = old) : (s.vector f v).edges = old :=
  keepEdges_ite hs (keepEdges_ite (send_keepsEdges hs) (setFnSt_keepsEdges hs))

theorem State.routeMsg_keepsEdges {s : State} {p : Port} {n : Nat} {old : List Nat} (hs : s.edges = old) : (s.routeMsg p n).edges = old :=
  keepEdges_ite (vector_keepsEdges hs) hs

theorem State.sourceMsgs_keepsEdges {s : State} {bank n : Nat} {old : List Nat} (hs : s.edges = old) : (s.sourceMsgs bank n).edges = old :=
  keepEdges_ite (keepEdges_ite (routeMsg_keepsEdges hs) (keepEdges_ite (routeMsg_keepsEdges hs) hs)) (routeMsg_keepsEdges
    (routeMsg_keepsEdges hs))

/-! ### `State.regs` -/

theorem keepRegs_ite {old : Tbl Nat} {c : Prop} [Decidable c] {s t : State} (hs : s.regs = old) (ht : t.regs = old) : (if c then s else
  t).regs = old := by
  split
  · exact hs
  · exact ht

theorem keepRegs_fold {old : Tbl Nat} {α : Type} {f : State → α → State} {l : List α} {s : State} (h : s.regs = old)
    (hf : ∀ s a, s.regs = old → (f s a).regs = old) : (l.foldl f s).regs = old := by
  induction l generalizing s with
  | nil => exact h
  | cons a t ih => exact ih (hf s a h)

theorem keepRegs_of_snd {old : Tbl Nat} {α : Type} {p : α × State} {a : α} {t : State} (e : p = (a, t)) (h : p.2.regs = old) : t.regs = old
  := by rw [e] at h; exact h

theorem State.free_keepsRegs {s : State} {n : Nat} {old : Tbl Nat} (hs : s.regs = old) : (s.free n).2.regs = old := hs

theorem State.freeNat_keepsRegs {s : State} {n : Nat} {old : Tbl Nat} (hs : s.regs = old) : (s.freeNat n).2.regs = old := by
  unfold State.freeNat
  split
  rename_i x b s1 e
  exact keepRegs_of_snd e (free_keepsRegs hs)

theorem State.setPort_keepsRegs {s : State} {p : Port} {v : PortSt} {old : Tbl Nat} (hs : s.regs = old) : (s.setPort p v).regs = old := by
  unfold State.setPort
  split
  · exact hs
  · exact hs

theorem State.setFnSt_keepsRegs {s : State} {f : Fn} {v : FnSt} {old : Tbl Nat} (hs : s.regs = old) : (s.setFnSt f v).regs = old := hs

theorem State.emit_keepsRegs {s : State} {o : Out} {old : Tbl Nat} (hs : s.regs = old) : (s.emit o).regs = old := hs

theorem State.send_keepsRegs {s : State} {f : Fn} {o : Out} {old : Tbl Nat} (hs : s.regs = old) : (s.send f o).regs = old :=
  keepRegs_ite (setPort_keepsRegs hs) (emit_keepsRegs hs)

theorem State.vector_keepsRegs {s : State} {f : Fn} {v : Nat} {old : Tbl Nat} (hs : s.regs = old) : (s.vector f v).regs = old :=
  keepRegs_ite hs (keepRegs_ite (send_keepsRegs hs) (setFnSt_keepsRegs hs))

theorem State.endApproval_keepsRegs {s : State} {id : Nat} {old : Tbl Nat} (hs : s.regs = old) : (s.endApproval id).regs = old := by
  unfold State.endApproval
  split
  · exact hs
  · exact hs

theorem State.cancelApprovals_keepsRegs {s : State} {pred : Approval → Bool} {old : Tbl Nat} (hs : s.regs = old) : (s.cancelApprovals
    pred).regs = old :=
  keepRegs_fold hs (fun _ _ h => endApproval_keepsRegs h)

theorem State.sendFrame_keepsRegs {s : State} {purge : Bool} {p : TwinPayload} {old : Tbl Nat} (hs : s.regs = old) : (s.sendFrame purge
    p).regs = old :=
  hs

theorem State.sendClose_keepsRegs {s : State} {purge : Bool} {reason : Option Nat} {old : Tbl Nat} (hs : s.regs = old) : (s.sendClose purge
    reason).regs = old := by
  unfold State.sendClose
  split
  · exact sendFrame_keepsRegs hs
  · split
    rename_i x n s1 e
    have hx : s1.regs = old := keepRegs_of_snd e (freeNat_keepsRegs hs)
    exact sendFrame_keepsRegs hx

theorem State.parkCtx_keepsRegs {s : State} {x : Ctx} {old : Tbl Nat} (hs : s.regs = old) : (s.parkCtx x).2.regs = old := by
  unfold State.parkCtx
  split
  · split
    rename_i x1 b s1 e
    exact keepRegs_of_snd e (free_keepsRegs hs)
  · exact hs

/-! ### `State.mem` -/

theorem keepMem_ite {old : Tbl Byte} {c : Prop} [Decidable c] {s t : State} (hs : s.mem = old) (ht : t.mem = old) : (if c then s else
  t).mem = old := by
  split
  · exact hs
  · exact ht

theorem keepMem_with {s : State} {old : Tbl Byte} {pending regs time freeCtr out edges bus pins cfg boot pwr evr tmp portA portB vfs fns
  qps dsp keys cores mbx act ddr ent eng lc tap twn lts} (h : s.mem = old) :
    State.mem ⟨pending, regs, s.mem, time, freeCtr, out, edges, bus, pins, cfg, boot, pwr, evr, tmp, portA, portB, vfs, fns, qps, dsp,
      keys, cores, mbx, act, ddr, ent, eng, lc, tap, twn, lts⟩ = old := h

theorem keepMem_fold {old : Tbl Byte} {α : Type} {f : State → α → State} {l : List α} {s : State} (h : s.mem = old)
    (hf : ∀ s a, s.mem = old → (f s a).mem = old) : (l.foldl f s).mem = old := by
  induction l generalizing s with
  | nil => exact h
  | cons a t ih => exact ih (hf s a h)

theorem keepMem_of_snd {old : Tbl Byte} {α : Type} {p : α × State} {a : α} {t : State} (e : p = (a, t)) (h : p.2.mem = old) : t.mem = old
  := by rw [e] at h; exact h

theorem State.wr_keepsMem {s : State} {f : Fld} {v : Nat} {old : Tbl Byte} (hs : s.mem = old) : (s.wr f v).mem = old := hs

theorem State.satAdd_keepsMem {s : State} {f : Fld} {n : Nat} {old : Tbl Byte} (hs : s.mem = old) : (s.satAdd f n).mem = old :=
  wr_keepsMem hs

theorem State.wrapAdd_keepsMem {s : State} {f : Fld} {n : Nat} {old : Tbl Byte} (hs : s.mem = old) : (s.wrapAdd f n).mem = old :=
  wr_keepsMem hs

theorem State.clearRegs_keepsMem {s : State} {lo hi : Nat} {old : Tbl Byte} (hs : s.mem = old) : (s.clearRegs lo hi).mem = old := hs

theorem State.setEvt_keepsMem {s : State} {f : Fld} {bit : Nat} {old : Tbl Byte} (hs : s.mem = old) : (s.setEvt f bit).mem = old :=
  keepMem_with (wr_keepsMem (wr_keepsMem hs))

theorem State.setEvtAll_keepsMem {s : State} {f : Fld} {old : Tbl Byte} (hs : s.mem = old) : (s.setEvtAll f).mem = old :=
  setEvt_keepsMem (setEvt_keepsMem (setEvt_keepsMem (setEvt_keepsMem hs)))

theorem State.setStatus_keepsMem {s : State} {f : Fld} {v : Nat} {old : Tbl Byte} (hs : s.mem = old) : (s.setStatus f v).mem = old :=
  keepMem_ite hs (setEvtAll_keepsMem (wr_keepsMem hs))

theorem State.countHost_keepsMem {s : State} {n : Nat} {old : Tbl Byte} (hs : s.mem = old) : (s.countHost n).mem = old := wr_keepsMem hs

theorem State.countDraw_keepsMem {s : State} {n : Nat} {old : Tbl Byte} (hs : s.mem = old) : (s.countDraw n).mem = old :=
  countHost_keepsMem hs

theorem State.draw_keepsMem {s : State} {n : Nat} {old : Tbl Byte} (hs : s.mem = old) : (s.draw n).2.mem = old := countDraw_keepsMem hs

theorem State.free_keepsMem {s : State} {n : Nat} {old : Tbl Byte} (hs : s.mem = old) : (s.free n).2.mem = old := hs

theorem State.freeNat_keepsMem {s : State} {n : Nat} {old : Tbl Byte} (hs : s.mem = old) : (s.freeNat n).2.mem = old := by
  unfold State.freeNat
  split
  rename_i x b s1 e
  exact keepMem_of_snd e (free_keepsMem hs)

theorem State.setPort_keepsMem {s : State} {p : Port} {v : PortSt} {old : Tbl Byte} (hs : s.mem = old) : (s.setPort p v).mem = old := by
  unfold State.setPort
  split
  · exact hs
  · exact hs

theorem State.setFnSt_keepsMem {s : State} {f : Fn} {v : FnSt} {old : Tbl Byte} (hs : s.mem = old) : (s.setFnSt f v).mem = old := hs

theorem State.setQp_keepsMem {s : State} {f : Fn} {q : Nat} {v : Qp} {old : Tbl Byte} (hs : s.mem = old) : (s.setQp f q v).mem = old := hs

theorem State.setChan_keepsMem {s : State} {c : Nat} {v : Ddr} {old : Tbl Byte} (hs : s.mem = old) : (s.setChan c v).mem = old := hs

theorem State.addClaim_keepsMem {s : State} {d : Nat} {old : Tbl Byte} (hs : s.mem = old) : (s.addClaim d).mem = old := wr_keepsMem hs

theorem State.dropClaim_keepsMem {s : State} {d : Nat} {old : Tbl Byte} (hs : s.mem = old) : (s.dropClaim d).mem = old := wr_keepsMem hs

theorem State.emit_keepsMem {s : State} {o : Out} {old : Tbl Byte} (hs : s.mem = old) : (s.emit o).mem = old := hs

theorem State.dropSync_keepsMem {s : State} {k : Nat} {old : Tbl Byte} (hs : s.mem = old) : (s.dropSync k).mem = old :=
  keepMem_fold hs (fun _ _ h => wr_keepsMem h)

theorem State.endEye_keepsMem {s : State} {result errors : Nat} {old : Tbl Byte} (hs : s.mem = old) : (s.endEye result errors).mem = old :=
  wr_keepsMem (keepMem_with (wr_keepsMem (wr_keepsMem (wr_keepsMem hs))))

theorem State.stopEye_keepsMem {s : State} {k : Nat} {old : Tbl Byte} (hs : s.mem = old) : (s.stopEye k).mem = old := by
  unfold State.stopEye
  split
  · split
    · split
      rename_i x n s1 e
      have hx : s1.mem = old := keepMem_of_snd e (freeNat_keepsMem hs)
      exact endEye_keepsMem hx
    · exact hs
  · exact hs

theorem State.leaveTest_keepsMem {s : State} {k : Nat} {old : Tbl Byte} (hs : s.mem = old) : (s.leaveTest k).mem = old :=
  keepMem_ite (stopEye_keepsMem (dropSync_keepsMem (wr_keepsMem (wr_keepsMem (wr_keepsMem (wr_keepsMem hs)))))) hs

theorem State.dropRecord_keepsMem {s : State} {old : Tbl Byte} (hs : s.mem = old) : s.dropRecord.mem = old :=
  setEvt_keepsMem (satAdd_keepsMem hs)

theorem State.enqueueRec_keepsMem {s : State} {r : Rec} {old : Tbl Byte} (hs : s.mem = old) : (s.enqueueRec r).mem = old :=
  keepMem_ite hs (keepMem_ite (dropRecord_keepsMem hs) (dropRecord_keepsMem hs))

theorem State.decideRecord_keepsMem {s : State} {kind source : Nat} {sev arg : Nat} {old : Tbl Byte} (hs : s.mem = old) : (s.decideRecord
    kind source sev arg).mem = old :=
  keepMem_ite (satAdd_keepsMem hs) (enqueueRec_keepsMem (wrapAdd_keepsMem hs))

theorem State.putRec_keepsMem {s : State} {slot : Nat} {r : Rec} {old : Tbl Byte} (hs : s.mem = old) : (s.putRec slot r).mem = old := hs

theorem State.storeRec_keepsMem {s : State} {r : Rec} {old : Tbl Byte} (hs : s.mem = old) : (s.storeRec r).mem = old := by
  unfold State.storeRec
  split
  · split
    rename_i x n s1 e
    have hx : s1.mem = old := keepMem_of_snd e (freeNat_keepsMem hs)
    exact keepMem_ite (setEvt_keepsMem (setEvt_keepsMem (putRec_keepsMem hx))) (setEvt_keepsMem (putRec_keepsMem hx))
  · split
    · exact keepMem_ite (setEvt_keepsMem (setEvt_keepsMem (satAdd_keepsMem (putRec_keepsMem hs)))) (dropRecord_keepsMem hs)
    · exact dropRecord_keepsMem hs

theorem State.violation_keepsMem {s : State} {cls : Nat} {world : World} {kind : AccKind} {source entry a : Nat} {old : Tbl Byte} (hs :
    s.mem = old) : (s.violation cls world kind source entry a).mem = old :=
  setEvt_keepsMem (keepMem_ite (satAdd_keepsMem hs) (wr_keepsMem (wr_keepsMem (wr_keepsMem (wr_keepsMem (wr_keepsMem (wr_keepsMem hs)))))))

theorem State.captureErr_keepsMem {s : State} {c l : Nat} {kind pos : Nat} {scrub : Bool} {old : Tbl Byte} (hs : s.mem = old) :
    (s.captureErr c l kind pos scrub).mem = old :=
  keepMem_ite hs (wr_keepsMem (wr_keepsMem (wr_keepsMem (wr_keepsMem (wr_keepsMem (setChan_keepsMem hs))))))

theorem State.send_keepsMem {s : State} {f : Fn} {o : Out} {old : Tbl Byte} (hs : s.mem = old) : (s.send f o).mem = old :=
  keepMem_ite (setPort_keepsMem hs) (emit_keepsMem hs)

theorem State.vector_keepsMem {s : State} {f : Fn} {v : Nat} {old : Tbl Byte} (hs : s.mem = old) : (s.vector f v).mem = old :=
  keepMem_ite hs (keepMem_ite (send_keepsMem hs) (setFnSt_keepsMem hs))

theorem State.queueError_keepsMem {s : State} {f : Fn} {q : Nat} {old : Tbl Byte} (hs : s.mem = old) : (s.queueError f q).mem = old :=
  keepMem_ite hs (vector_keepsMem (setEvt_keepsMem (wr_keepsMem (setQp_keepsMem hs))))

theorem State.portClaim_keepsMem {s : State} {p : Port} {old : Tbl Byte} (hs : s.mem = old) : (s.portClaim p).mem = old :=
  keepMem_ite (keepMem_ite (addClaim_keepsMem hs) hs) (keepMem_ite hs (dropClaim_keepsMem hs))

theorem State.nqRelease_keepsMem {s : State} {n : Nat} {old : Tbl Byte} (hs : s.mem = old) : (s.nqRelease n).mem = old := wr_keepsMem hs

theorem State.disableQp_keepsMem {s : State} {f : Fn} {q : Nat} {old : Tbl Byte} (hs : s.mem = old) : (s.disableQp f q).mem = old := by
  unfold State.disableQp
  extract_lets unbind s1 e s2 s3 s4
  have hs1 : s1.mem = old := setQp_keepsMem hs
  have hs2 : s2.mem = old := wr_keepsMem hs1
  have hs3 : s3.mem = old := keepMem_ite (wr_keepsMem (wr_keepsMem hs2)) hs2
  have hs4 : s4.mem = old := keepMem_ite hs3 (portClaim_keepsMem hs3)
  exact keepMem_ite (nqRelease_keepsMem hs4) hs4

theorem State.finishDelete_keepsMem {s : State} {f : Fn} {q : Nat} {old : Tbl Byte} (hs : s.mem = old) : (s.finishDelete f q).mem = old :=
  keepMem_ite (disableQp_keepsMem hs) hs

theorem State.setOwner_keepsMem {s : State} {o : Nat} {v : Option Owner} {old : Tbl Byte} (hs : s.mem = old) : (s.setOwner o v).mem = old :=
  hs

theorem State.setSlot_keepsMem {s : State} {p : Nat} {v : Option Slot} {old : Tbl Byte} (hs : s.mem = old) : (s.setSlot p v).mem = old := hs

theorem State.pickSlot_keepsMem {s : State} {old : Tbl Byte} (hs : s.mem = old) : s.pickSlot.2.mem = old := by
  unfold State.pickSlot
  split
  · exact hs
  · split
    rename_i x n s1 e
    exact keepMem_of_snd e (freeNat_keepsMem hs)

theorem State.fillSlot_keepsMem {s : State} {p : Nat} {secret : List Byte} {a : Attr} {h : Holder} {share : List Byte} {old : Tbl Byte} (hs
    : s.mem = old) : (s.fillSlot p secret a h share).mem = old := by
  unfold State.fillSlot
  split
  · split
    rename_i x b s1 e
    have hx : s1.mem = old := keepMem_of_snd e (draw_keepsMem hs)
    exact setSlot_keepsMem hx
  · exact setSlot_keepsMem hs

theorem State.fillDevice_keepsMem {s : State} {n : Nat} {secret : List Byte} {old : Tbl Byte} (hs : s.mem = old) : (s.fillDevice n
    secret).mem = old :=
  keepMem_ite hs (fillSlot_keepsMem hs)

theorem State.uncount_keepsMem {s : State} {f : Option Fn} {isObj : Bool} {old : Tbl Byte} (hs : s.mem = old) : (s.uncount f isObj).mem =
    old := by
  unfold State.uncount
  split
  · exact wr_keepsMem hs
  · exact hs

theorem State.dropResident_keepsMem {s : State} {h : Nat} {old : Tbl Byte} (hs : s.mem = old) : (s.dropResident h).mem = old :=
  keepMem_fold hs (fun _ _ h1 => keepMem_ite (keepMem_with (wr_keepsMem (wr_keepsMem (keepMem_ite (keepMem_with (wr_keepsMem (wr_keepsMem
    h1))) h1)))) (keepMem_ite (keepMem_with (wr_keepsMem (wr_keepsMem h1))) h1))

theorem State.endApproval_keepsMem {s : State} {id : Nat} {old : Tbl Byte} (hs : s.mem = old) : (s.endApproval id).mem = old := by
  unfold State.endApproval
  split
  · exact hs
  · exact hs

theorem State.refreshVf_keepsMem {s : State} {w : Nat} {old : Tbl Byte} (hs : s.mem = old) : (s.refreshVf w).mem = old :=
  keepMem_ite hs (vector_keepsMem (wr_keepsMem hs))

theorem State.refreshSuspended_keepsMem {s : State} {old : Tbl Byte} (hs : s.mem = old) : s.refreshSuspended.mem = old :=
  keepMem_fold hs (fun _ _ h => refreshVf_keepsMem h)

theorem State.unhold_keepsMem {s : State} {id : Nat} {old : Tbl Byte} (hs : s.mem = old) : (s.unhold id).mem = old :=
  keepMem_fold hs (fun _ _ h => wr_keepsMem h)

theorem State.dropCmd_keepsMem {s : State} {id : Nat} {old : Tbl Byte} (hs : s.mem = old) : (s.dropCmd id).mem = old :=
  keepMem_with (unhold_keepsMem hs)

theorem State.endResidency_keepsMem {s : State} {p : Pool} {u : Nat} {old : Tbl Byte} (hs : s.mem = old) : (s.endResidency p u).mem = old
    := by
  unfold State.endResidency
  split
  · exact keepMem_with (wr_keepsMem (wr_keepsMem (wr_keepsMem (wr_keepsMem hs))))
  · exact hs

theorem State.domResult_keepsMem {s : State} {w : World} {r : Nat} {old : Tbl Byte} (hs : s.mem = old) : (s.domResult w r).mem = old :=
  wr_keepsMem hs

theorem State.pendResult_keepsMem {s : State} {d r : Nat} {old : Tbl Byte} (hs : s.mem = old) : (s.pendResult d r).mem = old :=
  keepMem_ite (domResult_keepsMem hs) hs

theorem State.trainChannel_keepsMem {s : State} {c : Nat} {old : Tbl Byte} (hs : s.mem = old) : (s.trainChannel c).mem = old :=
  wr_keepsMem (setChan_keepsMem hs)

theorem State.nqBind_keepsMem {s : State} {n val : Nat} {old : Tbl Byte} (hs : s.mem = old) : (s.nqBind n val).mem = old :=
  keepMem_ite (keepMem_ite (wr_keepsMem hs) (wr_keepsMem (wr_keepsMem (wr_keepsMem (wr_keepsMem (wr_keepsMem hs)))))) (keepMem_ite
    (finishDelete_keepsMem (setQp_keepsMem (wr_keepsMem hs))) (wr_keepsMem hs))

theorem State.clearPortRegs_keepsMem {s : State} {p : Port} {old : Tbl Byte} (hs : s.mem = old) : (s.clearPortRegs p).mem = old :=
  clearRegs_keepsMem (clearRegs_keepsMem (clearRegs_keepsMem hs))

theorem State.trainPort_keepsMem {s : State} {p : Port} {old : Tbl Byte} (hs : s.mem = old) : (s.trainPort p).mem = old :=
  keepMem_ite (setPort_keepsMem hs) hs

theorem State.risePerst_keepsMem {s : State} {p : Port} {old : Tbl Byte} (hs : s.mem = old) : (s.risePerst p).mem = old :=
  keepMem_ite (trainPort_keepsMem (setEvt_keepsMem (clearPortRegs_keepsMem hs))) hs

theorem State.backupRaise_keepsMem {s : State} {src : Nat} {old : Tbl Byte} (hs : s.mem = old) : (s.backupRaise src).mem = old :=
  keepMem_ite (wr_keepsMem (keepMem_ite hs (wr_keepsMem (wr_keepsMem hs)))) (keepMem_with (wr_keepsMem (keepMem_ite hs (wr_keepsMem
    (wr_keepsMem hs)))))

theorem State.resume_keepsMem {s : State} {val : Nat} {old : Tbl Byte} (hs : s.mem = old) : (s.resume val).mem = old :=
  keepMem_ite hs (keepMem_ite (wr_keepsMem hs) (refreshSuspended_keepsMem (setStatus_keepsMem (keepMem_with (wr_keepsMem hs)))))

theorem State.captureFault_keepsMem {s : State} {p : Pool} {u : Nat} {inService : Bool} {f : UnitFault} {old : Tbl Byte} (hs : s.mem = old)
    : (s.captureFault p u inService f).mem = old := by
  unfold State.captureFault
  split
  · exact hs
  · split
    extract_lets s1
    have hs1 : s1.mem = old := wr_keepsMem (wr_keepsMem (wr_keepsMem (wr_keepsMem hs)))
    split
    · rename_i p e e1
      exact wr_keepsMem hs1
    · rename_i p e e1
      exact wr_keepsMem hs1
    · exact hs1

theorem State.forgetOwner_keepsMem {s : State} {p : Pool} {u : Nat} {old : Tbl Byte} (hs : s.mem = old) : (s.forgetOwner p u).mem = old :=
    by
  unfold State.forgetOwner
  split
  · exact keepMem_fold hs (fun _ _ h => wr_keepsMem h)
  · exact wr_keepsMem hs

theorem State.markFenced_keepsMem {s : State} {p : Pool} {u : Nat} {inService : Bool} {f : UnitFault} {old : Tbl Byte} (hs : s.mem = old) :
    (s.markFenced p u inService f).mem = old := by
  unfold State.markFenced
  extract_lets s1 s2 s3 x s4
  have hs1 : s1.mem = old := forgetOwner_keepsMem (endResidency_keepsMem (captureFault_keepsMem hs))
  have hs2 : s2.mem = old := keepMem_ite (unhold_keepsMem hs1) hs1
  have hs3 : s3.mem = old := wr_keepsMem (wr_keepsMem (wr_keepsMem hs2))
  have hs4 : s4.mem = old := hs3
  exact setEvt_keepsMem (setEvt_keepsMem hs4)

theorem State.selectNext_keepsMem {s : State} {p : Pool} {old : Tbl Byte} (hs : s.mem = old) : (s.selectNext p).mem = old := by
  unfold State.selectNext
  extract_lets prev
  split
  · exact wr_keepsMem hs
  · exact hs

theorem State.reassign_keepsMem {s : State} {p : Pool} {wasTesting wasSpare wasServing : Bool} {old : Tbl Byte} (hs : s.mem = old) :
    (s.reassign p wasTesting wasSpare wasServing).mem = old := by
  unfold State.reassign
  extract_lets spare s1 x
  have hs1 : s1.mem = old := wr_keepsMem (wr_keepsMem hs)
  split
  · exact keepMem_ite (setEvt_keepsMem (wr_keepsMem (wr_keepsMem (wr_keepsMem (wr_keepsMem hs))))) (keepMem_ite (wr_keepsMem (wr_keepsMem
    (wr_keepsMem (wr_keepsMem hs)))) (wr_keepsMem (wr_keepsMem hs)))
  · exact keepMem_ite (setEvt_keepsMem hs) (keepMem_ite hs1 (keepMem_ite (selectNext_keepsMem hs) hs))

theorem State.startStep7_keepsMem {s : State} {old : Tbl Byte} (hs : s.mem = old) : s.startStep7.mem = old := by
  unfold State.startStep7
  split
  · exact hs
  · split
    rename_i x b s1 e
    have hx : s1.mem = old := keepMem_of_snd e (draw_keepsMem hs)
    extract_lets s2
    have hs2 : s2.mem = old := fillDevice_keepsMem hx
    split
    rename_i x1 b1 s3 e1
    have hx1 : s3.mem = old := keepMem_of_snd e1 (draw_keepsMem hs2)
    extract_lets s4
    have hs4 : s4.mem = old := fillDevice_keepsMem hx1
    split
    rename_i x2 b2 s5 e2
    have hx2 : s5.mem = old := keepMem_of_snd e2 (draw_keepsMem hs4)
    extract_lets x3 x4 s6 s7
    have hs6 : s6.mem = old := hx2
    have hs7 : s7.mem = old := by
      unfold s7
      split
      · split
        rename_i x5 b3 s8 e3
        have hx3 : s8.mem = old := keepMem_of_snd e3 (draw_keepsMem hs6)
        exact hx3
      · exact hs6
    split
    rename_i x5 b3 s8 e3
    have hx3 : s8.mem = old := keepMem_of_snd e3 (draw_keepsMem hs7)
    exact wr_keepsMem (trainChannel_keepsMem hx3)

theorem State.singleMode_keepsMem {s : State} {old : Tbl Byte} (hs : s.mem = old) : s.singleMode.mem = old :=
  keepMem_ite hs (setEvt_keepsMem (wr_keepsMem hs))

theorem State.routeMsg_keepsMem {s : State} {p : Port} {n : Nat} {old : Tbl Byte} (hs : s.mem = old) : (s.routeMsg p n).mem = old :=
  keepMem_ite (vector_keepsMem hs) hs

theorem State.sourceMsgs_keepsMem {s : State} {bank n : Nat} {old : Tbl Byte} (hs : s.mem = old) : (s.sourceMsgs bank n).mem = old :=
  keepMem_ite (keepMem_ite (routeMsg_keepsMem hs) (keepMem_ite (routeMsg_keepsMem hs) hs)) (routeMsg_keepsMem (routeMsg_keepsMem hs))

theorem State.qzEvent_keepsMem {s : State} {f : Fld} {fn : Fn} {old : Tbl Byte} (hs : s.mem = old) : (s.qzEvent f fn).mem = old :=
  keepMem_ite (setEvt_keepsMem hs) (vector_keepsMem (setEvt_keepsMem hs))

theorem State.qzEnable_keepsMem {s : State} {f : Fn} {q : Nat} {old : Tbl Byte} (hs : s.mem = old) : (s.qzEnable f q).mem = old :=
  keepMem_ite hs (keepMem_ite (wr_keepsMem hs) (keepMem_ite (wr_keepsMem (wr_keepsMem (setQp_keepsMem (wr_keepsMem hs))))
    (portClaim_keepsMem (wr_keepsMem (wr_keepsMem (setQp_keepsMem (wr_keepsMem hs)))))))

theorem State.deleteQp_keepsMem {s : State} {f : Fn} {q : Nat} {old : Tbl Byte} (hs : s.mem = old) : (s.deleteQp f q).mem = old :=
  keepMem_ite (finishDelete_keepsMem (setQp_keepsMem hs)) hs

theorem State.qzDisable_keepsMem {s : State} {f : Fn} {q : Nat} {old : Tbl Byte} (hs : s.mem = old) : (s.qzDisable f q).mem = old :=
  deleteQp_keepsMem (wr_keepsMem hs)

theorem State.entReady_keepsMem {s : State} {old : Tbl Byte} (hs : s.mem = old) : s.entReady.mem = old :=
  startStep7_keepsMem (setStatus_keepsMem (setEvt_keepsMem (wr_keepsMem hs)))

theorem State.captureEnt_keepsMem {s : State} {q cell test : Nat} {startup : Bool} {old : Tbl Byte} (hs : s.mem = old) : (s.captureEnt q
    cell test startup).mem = old :=
  keepMem_ite hs (wr_keepsMem (wr_keepsMem (wr_keepsMem (wr_keepsMem hs))))

theorem State.remask_keepsMem {s : State} {p : Nat} {sl : Slot} {old : Tbl Byte} (hs : s.mem = old) : (s.remask p sl).mem = old := by
  unfold State.remask
  split
  rename_i x b s1 e
  have hx : s1.mem = old := keepMem_of_snd e (draw_keepsMem hs)
  exact setSlot_keepsMem hx

theorem State.restoreSlot_keepsMem {s : State} {old : Tbl Byte} (hs : s.mem = old) : s.restoreSlot.2.mem = old := by
  unfold State.restoreSlot
  split
  · exact hs
  · exact pickSlot_keepsMem hs

theorem State.restoreDevice_keepsMem {s : State} {k : DeviceKey} {p : Nat} {old : Tbl Byte} (hs : s.mem = old) : (s.restoreDevice k p).mem
    = old := by
  unfold State.restoreDevice
  split
  · extract_lets s1
    have hs1 : s1.mem = old := fillSlot_keepsMem hs
    refine setEvt_keepsMem ?_
    split
    · exact setOwner_keepsMem hs1
    · exact hs1
  · extract_lets x s1
    have hs1 : s1.mem = old := hs
    split
    · split
      rename_i x1 b s2 e
      have hx : s2.mem = old := keepMem_of_snd e (draw_keepsMem hs1)
      exact keepMem_with (fillDevice_keepsMem hx)
    · exact setEvt_keepsMem (fillDevice_keepsMem hs1)

theorem State.exitTest_keepsMem {s : State} {k : Nat} {old : Tbl Byte} (hs : s.mem = old) : (s.exitTest k).mem = old :=
  keepMem_ite (keepMem_ite (trainPort_keepsMem (leaveTest_keepsMem hs)) (keepMem_ite (trainPort_keepsMem (leaveTest_keepsMem hs))
    (keepMem_ite (leaveTest_keepsMem hs) (trainChannel_keepsMem (leaveTest_keepsMem hs))))) hs

theorem State.zeroErrors_keepsMem {s : State} {k : Nat} {old : Tbl Byte} (hs : s.mem = old) : (s.zeroErrors k).mem = old :=
  keepMem_fold hs (fun _ _ h => wr_keepsMem h)

theorem State.runBits_keepsMem {s : State} {k : Nat} {gen chk : Bool} {old : Tbl Byte} (hs : s.mem = old) : (s.runBits k gen chk).mem = old
    :=
  keepMem_ite hs (wr_keepsMem (keepMem_ite (zeroErrors_keepsMem (wr_keepsMem hs)) (stopEye_keepsMem (dropSync_keepsMem (wr_keepsMem hs)))))

theorem State.bitErrors_keepsMem {s : State} {lane least : Nat} {old : Tbl Byte} (hs : s.mem = old) : (s.bitErrors lane least).mem = old :=
    by
  unfold State.bitErrors
  split
  rename_i x n s1 e
  have hx : s1.mem = old := keepMem_of_snd e (freeNat_keepsMem hs)
  exact satAdd_keepsMem hx

theorem State.eyeCtrl_keepsMem {s : State} {val : Nat} {old : Tbl Byte} (hs : s.mem = old) : (s.eyeCtrl val).mem = old := by
  unfold State.eyeCtrl
  extract_lets s1 s2 x
  have hs1 : s1.mem = old := wr_keepsMem (wr_keepsMem (wr_keepsMem (wr_keepsMem hs)))
  have hs2 : s2.mem = old := wr_keepsMem (wr_keepsMem hs1)
  exact keepMem_ite hs1 (keepMem_ite hs2 (endEye_keepsMem hs1))

theorem State.bindRun_keepsMem {s : State} {owner weight : Nat} {n n1 : Nat} {old : Tbl Byte} (hs : s.mem = old) : (s.bindRun owner weight
    n n1).mem = old := by
  induction n1 generalizing s owner weight n with
  | zero =>
    unfold State.bindRun
    exact hs
  | succ n1 ih =>
    unfold State.bindRun
    split
    rename_i x n2 s1 e
    have hx : s1.mem = old := keepMem_of_snd e (freeNat_keepsMem hs)
    exact ih (nqBind_keepsMem hx)

theorem State.enterSelfTest_keepsMem {s : State} {p : Pool} {u : Nat} {old : Tbl Byte} (hs : s.mem = old) : (s.enterSelfTest p u).mem = old
    :=
  wr_keepsMem (wr_keepsMem (keepMem_with (wr_keepsMem (forgetOwner_keepsMem (endResidency_keepsMem hs)))))

theorem State.cycleSets_keepsMem {s : State} {p : Pool} {u : Nat} {old : Tbl Byte} (hs : s.mem = old) : (s.cycleSets p u).mem = old := by
  unfold State.cycleSets
  split
  · exact wr_keepsMem (wr_keepsMem hs)
  · exact wr_keepsMem hs
  · exact wr_keepsMem (wr_keepsMem (wr_keepsMem hs))
  · exact wr_keepsMem hs
  · exact hs

theorem State.cmpFault_keepsMem {s : State} {p : Pool} {cause : Nat} {old : Tbl Byte} (hs : s.mem = old) : (s.cmpFault p cause).mem = old
    := by
  unfold State.cmpFault
  split
  · exact keepMem_ite (setEvt_keepsMem hs) hs
  · exact keepMem_ite (setEvt_keepsMem hs) hs
  · exact hs

/-! ### `State.rdStop` -/

/-- The field as it reads. -/
def State.rdStop (s : State) : Nat := s.rd R.TMP_BKP_STATUS_XTAL_STOP

/-- A field whose key is another: it lies at another bit, or above. -/
def Fld.clearStop (f : Fld) : Prop := f.lsb % 64 ≠ 7 ∨ 0x40024 < f.off

theorem unitState_clearStop (p : Pool) (u : Nat) : (unitState p u).clearStop := by
  cases p <;> exact .inr (Nat.lt_add_right _ (by decide))

theorem unitLastOwner_clearStop (p : Pool) (u l : Nat) : (unitLastOwner p u l).clearStop := by
  cases p <;> exact .inr (Nat.lt_add_right _ (by decide))

theorem alarmEvt_clearStop (src : Nat) : (alarmEvt src).1.clearStop := by
  unfold alarmEvt
  split <;> exact .inl (Nat.ne_of_beq_eq_false rfl)

theorem qzEvt_clearStop (f : Fld) (fn : Fn) (h : f.clearStop) : (qzEvt f fn).clearStop := by
  obtain h | h := h
  · cases fn <;> exact .inl h
  · cases fn <;> exact .inr (Nat.lt_add_right _ h)

theorem qzErr_clearStop (fn : Fn) (q : Nat) : (qzErr fn q).1.clearStop := by
  cases fn with
  | nw =>
    unfold qzErr
    dsimp only
    split
    · show Fld.clearStop R.WLD_NQ_QERR0_QERR
      exact .inr (by decide)
    · show Fld.clearStop R.WLD_NQ_QERR1_QERR
      exact .inr (by decide)
  | pf p => exact qzEvt_clearStop _ _ (.inl (Nat.ne_of_beq_eq_false rfl))
  | vf p n => exact qzEvt_clearStop _ _ (.inl (Nat.ne_of_beq_eq_false rfl))

theorem keepStop_ite {old : Nat} {c : Prop} [Decidable c] {s t : State} (hs : s.rdStop = old) (ht : t.rdStop = old) : (if c then s else
  t).rdStop = old := by
  split
  · exact hs
  · exact ht

theorem keepStop_ite_snd {old : Nat} {α : Type} {c : Prop} [Decidable c] {x y : α × State} (hx : x.2.rdStop = old) (hy : y.2.rdStop = old) :
    (if c then x else y).2.rdStop = old := by
  split
  · exact hx
  · exact hy

theorem keepStop_with {s : State} {old : Nat} {pending mem time freeCtr out edges bus pins cfg boot pwr evr tmp portA portB vfs fns qps dsp
  keys cores mbx act ddr ent eng lc tap twn lts} (h : s.rdStop = old) :
    State.rdStop ⟨pending, s.regs, mem, time, freeCtr, out, edges, bus, pins, cfg, boot, pwr, evr, tmp, portA, portB, vfs, fns, qps, dsp,
      keys, cores, mbx, act, ddr, ent, eng, lc, tap, twn, lts⟩ = old := h

theorem keepStop_fold {old : Nat} {α : Type} {f : State → α → State} {l : List α} {s : State} (h : s.rdStop = old)
    (hf : ∀ s a, s.rdStop = old → (f s a).rdStop = old) : (l.foldl f s).rdStop = old := by
  induction l generalizing s with
  | nil => exact h
  | cons a t ih => exact ih (hf s a h)

theorem keepStop_fold_snd {old : Nat} {α β : Type} {f : β × State → α → β × State} {l : List α} {x : β × State} (h : x.2.rdStop = old)
    (hf : ∀ (x : β × State) a, x.2.rdStop = old → (f x a).2.rdStop = old) : (l.foldl f x).2.rdStop = old := by
  induction l generalizing x with
  | nil => exact h
  | cons a t ih => exact ih (hf x a h)

theorem keepStop_of_snd {old : Nat} {α : Type} {p : α × State} {a : α} {t : State} (e : p = (a, t)) (h : p.2.rdStop = old) : t.rdStop = old
  := by rw [e] at h; exact h

theorem keepStop_of_thd {old : Nat} {α β : Type} {p : α × β × State} {a : α} {b : β} {t : State} (e : p = (a, b, t)) (h : p.2.2.rdStop =
  old) : t.rdStop = old := by
  rw [e] at h; exact h

theorem State.wr_keepsStop {s : State} {f : Fld} {v : Nat} {old : Nat} (hs : s.rdStop = old) (hf : f.clearStop) : (s.wr f v).rdStop = old
    := by
  refine (State.rd_wr_other _ _ ?_).trans hs
  unfold Fld.clearStop at hf
  simp only [Fld.key, R.TMP_BKP_STATUS_XTAL_STOP]
  omega

theorem State.satAdd_keepsStop {s : State} {f : Fld} {n : Nat} {old : Nat} (hs : s.rdStop = old) (hf : f.clearStop) : (s.satAdd f n).rdStop
    = old :=
  wr_keepsStop hs hf

theorem State.wrapAdd_keepsStop {s : State} {f : Fld} {n : Nat} {old : Nat} (hs : s.rdStop = old) (hf : f.clearStop) : (s.wrapAdd f
    n).rdStop = old :=
  wr_keepsStop hs hf

theorem State.setEvt_keepsStop {s : State} {f : Fld} {bit : Nat} {old : Nat} (hs : s.rdStop = old) (hf : f.clearStop) : (s.setEvt f
    bit).rdStop = old :=
  keepStop_with (wr_keepsStop (wr_keepsStop hs hf) (.inl (Nat.ne_of_beq_eq_false rfl)))

theorem State.setEvtAll_keepsStop {s : State} {f : Fld} {old : Nat} (hs : s.rdStop = old) (hf : f.clearStop) : (s.setEvtAll f).rdStop = old
    :=
  setEvt_keepsStop (setEvt_keepsStop (setEvt_keepsStop (setEvt_keepsStop hs hf) hf) hf) hf

theorem State.setStatus_keepsStop {s : State} {f : Fld} {v : Nat} {old : Nat} (hs : s.rdStop = old) (hf : f.clearStop) : (s.setStatus f
    v).rdStop = old :=
  keepStop_ite hs (setEvtAll_keepsStop (wr_keepsStop hs hf) (.inl (Nat.ne_of_beq_eq_false rfl)))

theorem State.free_keepsStop {s : State} {n : Nat} {old : Nat} (hs : s.rdStop = old) : (s.free n).2.rdStop = old := keepStop_with hs

theorem State.freeNat_keepsStop {s : State} {n : Nat} {old : Nat} (hs : s.rdStop = old) : (s.freeNat n).2.rdStop = old := by
  unfold State.freeNat
  split
  rename_i x b s1 e
  exact keepStop_of_snd e (free_keepsStop hs)

theorem State.setPort_keepsStop {s : State} {p : Port} {v : PortSt} {old : Nat} (hs : s.rdStop = old) : (s.setPort p v).rdStop = old := by
  unfold State.setPort
  split
  · exact keepStop_with hs
  · exact keepStop_with hs

theorem State.setFnSt_keepsStop {s : State} {f : Fn} {v : FnSt} {old : Nat} (hs : s.rdStop = old) : (s.setFnSt f v).rdStop = old :=
  keepStop_with hs

theorem State.setVf_keepsStop {s : State} {p : Port} {n : Nat} {v : Vf} {old : Nat} (hs : s.rdStop = old) : (s.setVf p n v).rdStop = old :=
  keepStop_with hs

theorem State.setQp_keepsStop {s : State} {f : Fn} {q : Nat} {v : Qp} {old : Nat} (hs : s.rdStop = old) : (s.setQp f q v).rdStop = old :=
  keepStop_with hs

theorem State.setChan_keepsStop {s : State} {c : Nat} {v : Ddr} {old : Nat} (hs : s.rdStop = old) : (s.setChan c v).rdStop = old :=
  keepStop_with hs

theorem State.wake_keepsStop {s : State} {d : Nat} {old : Nat} (hs : s.rdStop = old) : (s.wake d).rdStop = old :=
  keepStop_ite (wr_keepsStop hs (.inl (Nat.ne_of_beq_eq_false rfl))) hs

theorem State.addClaim_keepsStop {s : State} {d : Nat} {old : Nat} (hs : s.rdStop = old) : (s.addClaim d).rdStop = old :=
  wr_keepsStop (keepStop_with hs) (.inl (Nat.ne_of_beq_eq_false rfl))

theorem State.dropClaim_keepsStop {s : State} {d : Nat} {old : Nat} (hs : s.rdStop = old) : (s.dropClaim d).rdStop = old :=
  wr_keepsStop (keepStop_with hs) (.inl (Nat.ne_of_beq_eq_false rfl))

theorem State.emit_keepsStop {s : State} {o : Out} {old : Nat} (hs : s.rdStop = old) : (s.emit o).rdStop = old := keepStop_with hs

theorem State.hold_keepsStop {s : State} {a : HeldAccess} {old : Nat} (hs : s.rdStop = old) : (s.hold a).rdStop = old := keepStop_with hs

theorem State.dropRecord_keepsStop {s : State} {old : Nat} (hs : s.rdStop = old) : s.dropRecord.rdStop = old :=
  setEvt_keepsStop (satAdd_keepsStop hs (.inl (Nat.ne_of_beq_eq_false rfl))) (.inl (Nat.ne_of_beq_eq_false rfl))

theorem State.enqueueRec_keepsStop {s : State} {r : Rec} {old : Nat} (hs : s.rdStop = old) : (s.enqueueRec r).rdStop = old :=
  keepStop_ite (keepStop_with hs) (keepStop_ite (dropRecord_keepsStop (keepStop_with hs)) (dropRecord_keepsStop hs))

theorem State.decideRecord_keepsStop {s : State} {kind source : Nat} {sev arg : Nat} {old : Nat} (hs : s.rdStop = old) : (s.decideRecord
    kind source sev arg).rdStop = old :=
  keepStop_ite (satAdd_keepsStop hs (.inl (Nat.ne_of_beq_eq_false rfl))) (enqueueRec_keepsStop (wrapAdd_keepsStop hs (.inl
    (Nat.ne_of_beq_eq_false rfl))))

theorem State.recordInternal_keepsStop {s : State} {source detail : Nat} {cid vf port : Nat} {old : Nat} (hs : s.rdStop = old) :
    (s.recordInternal source detail cid vf port).rdStop = old :=
  decideRecord_keepsStop hs

theorem State.violation_keepsStop {s : State} {cls : Nat} {world : World} {kind : AccKind} {source entry a : Nat} {old : Nat} (hs :
    s.rdStop = old) : (s.violation cls world kind source entry a).rdStop = old := by
  unfold State.violation
  extract_lets s1
  have hs1 : s1.rdStop = old := by
    unfold s1
    split
    · exact satAdd_keepsStop hs (.inl (Nat.ne_of_beq_eq_false rfl))
    · refine wr_keepsStop (wr_keepsStop (wr_keepsStop (wr_keepsStop (wr_keepsStop (wr_keepsStop hs (.inl (Nat.ne_of_beq_eq_false rfl)))
      (.inl (Nat.ne_of_beq_eq_false rfl))) (.inl (Nat.ne_of_beq_eq_false rfl))) (.inl (Nat.ne_of_beq_eq_false rfl))) (.inl
      (Nat.ne_of_beq_eq_false rfl))) (.inl (Nat.ne_of_beq_eq_false rfl))
  exact setEvt_keepsStop hs1 (.inl (Nat.ne_of_beq_eq_false rfl))

theorem State.sweepTo_keepsStop {s : State} {c n : Nat} {old : Nat} (hs : s.rdStop = old) : (s.sweepTo c n).rdStop = old :=
  wr_keepsStop (wr_keepsStop (setChan_keepsStop hs) (.inl (Nat.ne_of_beq_eq_false rfl))) (.inl (Nat.ne_of_beq_eq_false rfl))

theorem State.fillBlock_keepsStop {s : State} {c b : Nat} {old : Nat} (hs : s.rdStop = old) : (s.fillBlock c b).rdStop = old :=
  keepStop_ite (wr_keepsStop (setChan_keepsStop hs) (.inl (Nat.ne_of_beq_eq_false rfl))) (sweepTo_keepsStop hs)

theorem State.wakeMem_keepsStop {s : State} {a : Nat} {old : Nat} (hs : s.rdStop = old) : (s.wakeMem a).rdStop = old := by
  unfold State.wakeMem
  split
  · exact wake_keepsStop hs
  · exact hs

theorem State.awaitFill_keepsStop {s : State} {a : Nat} {old : Nat} (hs : s.rdStop = old) : (s.awaitFill a).rdStop = old := by
  unfold State.awaitFill
  split
  · exact keepStop_ite (fillBlock_keepsStop hs) hs
  · exact hs

theorem State.captureErr_keepsStop {s : State} {c l : Nat} {kind pos : Nat} {scrub : Bool} {old : Nat} (hs : s.rdStop = old) :
    (s.captureErr c l kind pos scrub).rdStop = old := by
  unfold State.captureErr
  extract_lets ch s1
  have hs1 : s1.rdStop = old := setChan_keepsStop hs
  split
  · exact hs
  · exact wr_keepsStop (wr_keepsStop (wr_keepsStop (wr_keepsStop (wr_keepsStop hs1 (.inl (Nat.ne_of_beq_eq_false rfl))) (.inl
    (Nat.ne_of_beq_eq_false rfl))) (.inl (Nat.ne_of_beq_eq_false rfl))) (.inr (Nat.lt_add_right _ (by decide)))) (.inl
    (Nat.ne_of_beq_eq_false rfl))

theorem State.setErr_keepsStop {s : State} {c l : Nat} {e : Option LineErr} {old : Nat} (hs : s.rdStop = old) : (s.setErr c l e).rdStop =
    old :=
  setChan_keepsStop hs

theorem State.cleanLine_keepsStop {s : State} {c l : Nat} {old : Nat} (hs : s.rdStop = old) : (s.cleanLine c l).rdStop = old :=
  setErr_keepsStop hs

theorem State.corrected_keepsStop {s : State} {c l : Nat} {kind pos : Nat} {scrub : Bool} {old : Nat} (hs : s.rdStop = old) : (s.corrected
    c l kind pos scrub).rdStop = old :=
  setEvt_keepsStop (satAdd_keepsStop (captureErr_keepsStop (cleanLine_keepsStop hs)) (.inl (Nat.ne_of_beq_eq_false rfl))) (.inl
    (Nat.ne_of_beq_eq_false rfl))

theorem State.fireMem_keepsStop {s : State} {old : Nat} (hs : s.rdStop = old) : s.fireMem.rdStop = old := keepStop_with hs

theorem State.uncorrectable_keepsStop {s : State} {c l : Nat} {scrub : Bool} {old : Nat} (hs : s.rdStop = old) : (s.uncorrectable c l
    scrub).rdStop = old :=
  fireMem_keepsStop (setEvt_keepsStop (satAdd_keepsStop (captureErr_keepsStop hs) (.inl (Nat.ne_of_beq_eq_false rfl))) (.inl
    (Nat.ne_of_beq_eq_false rfl)))

theorem State.checkLine_keepsStop {s : State} {c l : Nat} {scrub : Bool} {old : Nat} (hs : s.rdStop = old) : (s.checkLine c l scrub).rdStop
    = old := by
  unfold State.checkLine
  split
  · exact hs
  · exact corrected_keepsStop hs
  · exact corrected_keepsStop hs
  · exact uncorrectable_keepsStop hs

theorem State.rmwFail_keepsStop {s : State} {c l : Nat} {old : Nat} (hs : s.rdStop = old) : (s.rmwFail c l).rdStop = old :=
  setEvt_keepsStop (uncorrectable_keepsStop hs) (.inl (Nat.ne_of_beq_eq_false rfl))

theorem State.setBytes_keepsStop {s : State} {a : Nat} {l : List Byte} {old : Nat} (hs : s.rdStop = old) : (s.setBytes a l).rdStop = old :=
  keepStop_with hs

theorem State.noteRefusal_keepsStop {s : State} {cls : Nat} {world : World} {kind : AccKind} {r : Option (Nat × Nat × Nat)} {old : Nat} (hs
    : s.rdStop = old) : (s.noteRefusal cls world kind r).rdStop = old := by
  unfold State.noteRefusal
  split
  · exact violation_keepsStop hs
  · exact hs

theorem State.serveLine_keepsStop {s : State} {x : LineAccess} {old : Nat} (hs : s.rdStop = old) : (s.serveLine x).2.rdStop = old := by
  unfold State.serveLine
  split
  · exact hs
  · extract_lets a bad
    exact keepStop_ite_snd hs (keepStop_ite_snd (checkLine_keepsStop hs) (keepStop_ite_snd (keepStop_ite hs (setBytes_keepsStop
      (cleanLine_keepsStop hs))) (keepStop_ite_snd (rmwFail_keepsStop hs) (setBytes_keepsStop (checkLine_keepsStop hs)))))

theorem State.yieldLock_keepsStop {s : State} {c l : Nat} {old : Nat} (hs : s.rdStop = old) : (s.yieldLock c l).rdStop = old := by
  unfold State.yieldLock
  split
  · exact hs
  · exact setChan_keepsStop (keepStop_fold_snd hs fun _ _ h => serveLine_keepsStop h)

theorem State.awaitLines_keepsStop {s : State} {bs : List (Nat × Nat)} {old : Nat} (hs : s.rdStop = old) : (s.awaitLines bs).rdStop = old :=
  keepStop_fold (keepStop_fold hs (fun _ _ h => awaitFill_keepsStop (wakeMem_keepsStop h))) (fun _ _ h => yieldLock_keepsStop h)

theorem putBeats_keepsStop {skip : Nat × Nat → Bool} {l1 : List (Nat × Nat)} {l : List Byte} {s : State} {old : Nat} (hs : s.rdStop = old)
    : (putBeats skip l1 l s).rdStop = old := by
  induction l1 generalizing skip l s with
  | nil =>
    unfold putBeats
    exact hs
  | cons x l1 ih =>
    unfold putBeats
    exact ih (keepStop_ite hs (setBytes_keepsStop hs))

theorem State.writeMem_keepsStop {s : State} {cls : Nat} {world : World} {a : Nat} {l : List Byte} {old : Nat} (hs : s.rdStop = old) :
    (s.writeMem cls world a l).2.rdStop = old := by
  unfold State.writeMem
  extract_lets bs r up s1
  have hs1 : s1.rdStop = old := awaitLines_keepsStop hs
  split
  extract_lets s2 drop lost s'
  have hs2 : s2.rdStop = old := keepStop_ite hs1 (keepStop_fold hs1 (fun _ _ h => cleanLine_keepsStop h))
  have hs' : s'.rdStop = old := keepStop_fold hs2 (fun _ _ h => keepStop_ite (rmwFail_keepsStop h) (checkLine_keepsStop h))
  exact noteRefusal_keepsStop (putBeats_keepsStop hs')

theorem writeAccesses_keepsStop {cls : Nat} {world : World} {l1 : List (Nat × Nat)} {l : List Byte} {s : State} {old : Nat} (hs : s.rdStop
    = old) : (writeAccesses cls world l1 l s).2.rdStop = old := by
  induction l1 generalizing cls world l s with
  | nil =>
    unfold writeAccesses
    exact hs
  | cons x l1 ih =>
    unfold writeAccesses
    split
    · rename_i x1 s1 e
      have hx : s1.rdStop = old := keepStop_of_snd e (writeMem_keepsStop hs)
      exact ih hx
    · rename_i x1 s1 e
      exact keepStop_of_snd e (writeMem_keepsStop hs)

theorem State.dmaOut_keepsStop {s : State} {cls : Nat} {world : World} {a : Nat} {l : List Byte} {old : Nat} (hs : s.rdStop = old) :
    (s.dmaOut cls world a l).2.rdStop = old :=
  writeAccesses_keepsStop hs

theorem State.send_keepsStop {s : State} {f : Fn} {o : Out} {old : Nat} (hs : s.rdStop = old) : (s.send f o).rdStop = old :=
  keepStop_ite (setPort_keepsStop hs) (emit_keepsStop hs)

theorem State.vector_keepsStop {s : State} {f : Fn} {v : Nat} {old : Nat} (hs : s.rdStop = old) : (s.vector f v).rdStop = old :=
  keepStop_ite hs (keepStop_ite (send_keepsStop hs) (setFnSt_keepsStop hs))

theorem State.migOverflow_keepsStop {s : State} {p : Port} {n : Nat} {old : Nat} (hs : s.rdStop = old) : (s.migOverflow p n).rdStop = old
    := by
  unfold State.migOverflow
  extract_lets was s1 s2
  have hs1 : s1.rdStop = old := wr_keepsStop (wr_keepsStop hs (.inl (Nat.ne_of_beq_eq_false rfl))) (.inl (Nat.ne_of_beq_eq_false rfl))
  have hs2 : s2.rdStop = old := setEvt_keepsStop hs1 (.inl (Nat.ne_of_beq_eq_false rfl))
  exact keepStop_ite hs2 (vector_keepsStop hs2)

theorem State.logPage_keepsStop {s : State} {p : Port} {n page : Nat} {old : Nat} (hs : s.rdStop = old) : (s.logPage p n page).rdStop = old
    :=
  keepStop_ite (keepStop_ite (migOverflow_keepsStop hs) (setVf_keepsStop (send_keepsStop hs))) hs

theorem State.logPages_keepsStop {s : State} {p : Port} {n page n1 : Nat} {old : Nat} (hs : s.rdStop = old) : (s.logPages p n page
    n1).rdStop = old := by
  induction n1 generalizing s p n page with
  | zero =>
    unfold State.logPages
    exact hs
  | succ n1 ih =>
    unfold State.logPages
    exact ih (logPage_keepsStop hs)

theorem State.fnWrite_keepsStop {s : State} {f : Fn} {cls addr : Nat} {data : List Byte} {kind : WriteKind} {old : Nat} (hs : s.rdStop =
    old) : (s.fnWrite f cls addr data kind).2.rdStop = old := by
  unfold State.fnWrite
  split
  · exact keepStop_ite_snd (hold_keepsStop hs) (dmaOut_keepsStop hs)
  · exact send_keepsStop hs
  · exact logPages_keepsStop (send_keepsStop hs)

theorem State.writeCompletion_keepsStop {s : State} {f : Fn} {q cid : Nat} {status detail : Nat} {result aux written : Nat} {old : Nat} (hs
    : s.rdStop = old) : (s.writeCompletion f q cid status detail result aux written).rdStop = old := by
  unfold State.writeCompletion
  extract_lets qp able qp1 size data next full was s1 s2 s3 x s4 s5
  have hs1 : s1.rdStop = old := fnWrite_keepsStop hs
  have hs2 : s2.rdStop = old := setQp_keepsStop hs1
  have hs3 : s3.rdStop = old := wrapAdd_keepsStop hs2 (.inl (Nat.ne_of_beq_eq_false rfl))
  have hs4 : s4.rdStop = old := keepStop_ite (keepStop_with hs3) hs3
  have hs5 : s5.rdStop = old := keepStop_ite (vector_keepsStop hs4) hs4
  exact keepStop_ite (setQp_keepsStop hs) (keepStop_ite (keepStop_with hs5) hs5)

theorem State.portClaim_keepsStop {s : State} {p : Port} {old : Nat} (hs : s.rdStop = old) : (s.portClaim p).rdStop = old :=
  keepStop_ite (keepStop_ite (addClaim_keepsStop hs) hs) (keepStop_ite hs (dropClaim_keepsStop hs))

theorem State.nqRelease_keepsStop {s : State} {n : Nat} {old : Nat} (hs : s.rdStop = old) : (s.nqRelease n).rdStop = old :=
  wr_keepsStop hs (.inl (Nat.ne_of_beq_eq_false rfl))

theorem State.disableQp_keepsStop {s : State} {f : Fn} {q : Nat} {old : Nat} (hs : s.rdStop = old) : (s.disableQp f q).rdStop = old := by
  unfold State.disableQp
  extract_lets unbind s1 e s2 s3 s4
  have hs1 : s1.rdStop = old := setQp_keepsStop hs
  have hs2 : s2.rdStop = old := wr_keepsStop hs1 (qzErr_clearStop _ _)
  have hs3 : s3.rdStop = old := keepStop_ite (wr_keepsStop (wr_keepsStop hs2 (.inl (Nat.ne_of_beq_eq_false rfl))) (.inl
    (Nat.ne_of_beq_eq_false rfl))) hs2
  have hs4 : s4.rdStop = old := keepStop_ite hs3 (portClaim_keepsStop hs3)
  exact keepStop_ite (nqRelease_keepsStop hs4) hs4

theorem State.finishDelete_keepsStop {s : State} {f : Fn} {q : Nat} {old : Nat} (hs : s.rdStop = old) : (s.finishDelete f q).rdStop = old :=
  keepStop_ite (disableQp_keepsStop hs) hs

theorem State.endApproval_keepsStop {s : State} {id : Nat} {old : Nat} (hs : s.rdStop = old) : (s.endApproval id).rdStop = old := by
  unfold State.endApproval
  split
  · exact hs
  · exact keepStop_with hs

theorem State.cancelApprovals_keepsStop {s : State} {pred : Approval → Bool} {old : Nat} (hs : s.rdStop = old) : (s.cancelApprovals
    pred).rdStop = old :=
  keepStop_fold hs (fun _ _ h => endApproval_keepsStop h)

theorem State.dropCtx_keepsStop {s : State} {i : Nat} {old : Nat} (hs : s.rdStop = old) : (s.dropCtx i).rdStop = old := keepStop_with hs

theorem State.zeroize_keepsStop {s : State} {old : Nat} (hs : s.rdStop = old) : s.zeroize.rdStop = old := by
  unfold State.zeroize
  extract_lets s1 x x1 s2 stop
  have hs1 : s1.rdStop = old := cancelApprovals_keepsStop hs
  have hs2 : s2.rdStop = old := keepStop_with hs1
  exact wr_keepsStop (keepStop_ite (keepStop_ite hs2 (wr_keepsStop hs2 (.inl (Nat.ne_of_beq_eq_false rfl)))) (wr_keepsStop (keepStop_ite
    hs2 (wr_keepsStop hs2 (.inl (Nat.ne_of_beq_eq_false rfl)))) (.inl (Nat.ne_of_beq_eq_false rfl)))) (.inl (Nat.ne_of_beq_eq_false rfl))

theorem State.refreshVf_keepsStop {s : State} {w : Nat} {old : Nat} (hs : s.rdStop = old) : (s.refreshVf w).rdStop = old :=
  keepStop_ite hs (vector_keepsStop (wr_keepsStop hs (.inl (Nat.ne_of_beq_eq_false rfl))))

theorem State.refreshSuspended_keepsStop {s : State} {old : Nat} (hs : s.rdStop = old) : s.refreshSuspended.rdStop = old :=
  keepStop_fold hs (fun _ _ h => refreshVf_keepsStop h)

theorem writePieces_keepsStop {f : Fn} {cls : Nat} {l1 : List (Nat × Nat)} {l : List Byte} {s : State} {old : Nat} (hs : s.rdStop = old) :
    (writePieces f cls l1 l s).2.rdStop = old := by
  induction l1 generalizing f cls l s with
  | nil =>
    unfold writePieces
    exact hs
  | cons x l1 ih =>
    unfold writePieces
    split
    · exact hs
    · split
      · rename_i x1 s1 e
        have hx : s1.rdStop = old := keepStop_of_snd e (fnWrite_keepsStop hs)
        exact ih hx
      · rename_i x1 s1 e
        exact keepStop_of_snd e (fnWrite_keepsStop hs)

theorem State.unhold_keepsStop {s : State} {id : Nat} {old : Nat} (hs : s.rdStop = old) : (s.unhold id).rdStop = old :=
  keepStop_fold hs (fun _ _ h => wr_keepsStop (keepStop_with h) (.inr (Nat.lt_add_right _ (by decide))))

theorem State.dropCmd_keepsStop {s : State} {id : Nat} {old : Nat} (hs : s.rdStop = old) : (s.dropCmd id).rdStop = old :=
  keepStop_with (unhold_keepsStop hs)

theorem State.endResidency_keepsStop {s : State} {p : Pool} {u : Nat} {old : Nat} (hs : s.rdStop = old) : (s.endResidency p u).rdStop = old
    := by
  unfold State.endResidency
  split
  · exact keepStop_with (wr_keepsStop (wr_keepsStop (wr_keepsStop (wr_keepsStop hs (.inl (Nat.ne_of_beq_eq_false rfl))) (.inl
    (Nat.ne_of_beq_eq_false rfl))) (.inl (Nat.ne_of_beq_eq_false rfl))) (.inl (Nat.ne_of_beq_eq_false rfl)))
  · exact hs

theorem State.clearUnit_keepsStop {s : State} {p : Pool} {u : Nat} {old : Nat} (hs : s.rdStop = old) : (s.clearUnit p u).rdStop = old := by
  unfold State.clearUnit
  extract_lets x s1 s2
  have hs1 : s1.rdStop = old := keepStop_with hs
  have hs2 : s2.rdStop = old := endResidency_keepsStop (wr_keepsStop hs1 (unitState_clearStop _ _))
  split
  · rename_i p
    exact keepStop_fold hs2 (fun _ _ h => wr_keepsStop h (.inl (Nat.ne_of_beq_eq_false rfl)))
  · exact wr_keepsStop hs2 (unitLastOwner_clearStop _ _ _)

theorem State.idleFields_keepsStop {s : State} {p : Pool} {u l : Nat} {old : Nat} (hs : s.rdStop = old) : (s.idleFields p u l).rdStop = old
    := by
  unfold State.idleFields
  split
  · exact hs
  · exact wr_keepsStop (wr_keepsStop (wr_keepsStop hs (.inl (Nat.ne_of_beq_eq_false rfl))) (.inl (Nat.ne_of_beq_eq_false rfl))) (.inl
    (Nat.ne_of_beq_eq_false rfl))
  · exact wr_keepsStop hs (.inl (Nat.ne_of_beq_eq_false rfl))
  · exact wr_keepsStop hs (.inl (Nat.ne_of_beq_eq_false rfl))
  · exact wr_keepsStop hs (.inl (Nat.ne_of_beq_eq_false rfl))

theorem State.releaseLane_keepsStop {s : State} {p : Pool} {u l : Nat} {keep : Bool} {old : Nat} (hs : s.rdStop = old) : (s.releaseLane p u
    l keep).rdStop = old := by
  unfold State.releaseLane
  extract_lets tile x s1 s2 s3 s4
  have hs1 : s1.rdStop = old := keepStop_with hs
  have hs2 : s2.rdStop = old := dropClaim_keepsStop hs1
  have hs3 : s3.rdStop = old := keepStop_ite (keepStop_fold hs2 (fun _ _ h => idleFields_keepsStop h)) (idleFields_keepsStop hs2)
  have hs4 : s4.rdStop = old := keepStop_ite (wr_keepsStop (wr_keepsStop hs3 (.inl (Nat.ne_of_beq_eq_false rfl))) (.inl
    (Nat.ne_of_beq_eq_false rfl))) (wr_keepsStop hs3 (.inl (Nat.ne_of_beq_eq_false rfl)))
  split
  · rename_i p
    exact keepStop_ite hs4 (keepStop_ite (clearUnit_keepsStop hs4) (wr_keepsStop hs4 (.inl (Nat.ne_of_beq_eq_false rfl))))
  · exact keepStop_ite (keepStop_ite (wr_keepsStop hs3 (unitState_clearStop _ _)) hs3) (keepStop_ite hs3 (clearUnit_keepsStop hs3))

theorem State.releaseExtra_keepsStop {s : State} {c : Cmd} {keep : Bool} {old : Nat} (hs : s.rdStop = old) : (s.releaseExtra c keep).rdStop
    = old := by
  unfold State.releaseExtra
  split
  · exact keepStop_ite (releaseLane_keepsStop hs) hs
  · exact hs

theorem State.releaseUnit_keepsStop {s : State} {c : Cmd} {keep : Bool} {old : Nat} (hs : s.rdStop = old) : (s.releaseUnit c keep).rdStop =
    old := by
  unfold State.releaseUnit
  extract_lets s1
  have hs1 : s1.rdStop = old := releaseExtra_keepsStop hs
  split
  · exact keepStop_ite (releaseLane_keepsStop hs1) hs1
  · exact hs1

theorem State.complete_keepsStop {s : State} {c : Cmd} {r : Res} {old : Nat} (hs : s.rdStop = old) : (s.complete c r).rdStop = old := by
  unfold State.complete
  extract_lets p s1 s2 s3 s4 s5
  have hs1 : s1.rdStop = old := releaseUnit_keepsStop hs
  have hs2 : s2.rdStop = old := dropCmd_keepsStop hs1
  have hs3 : s3.rdStop = old := writeCompletion_keepsStop hs2
  have hs4 : s4.rdStop = old := keepStop_ite (recordInternal_keepsStop hs3) hs3
  have hs5 : s5.rdStop = old := keepStop_ite (decideRecord_keepsStop hs4) hs4
  exact finishDelete_keepsStop hs5

theorem State.xtsPart_keepsStop {s : State} {c : Cmd} {old : Nat} (hs : s.rdStop = old) : (s.xtsPart c).2.2.rdStop = old := by
  unfold State.xtsPart
  split
  · split
    rename_i x n s1 e
    have hx : s1.rdStop = old := keepStop_of_snd e (freeNat_keepsStop hs)
    extract_lets units
    exact hx
  · exact hs

theorem State.helloEnd_keepsStop {s : State} {c : Cmd} {status detail : Nat} {v granted : Nat} {old : Nat} (hs : s.rdStop = old) :
    (s.helloEnd c status detail v granted).rdStop = old := by
  unfold State.helloEnd
  extract_lets x s1
  have hs1 : s1.rdStop = old := setFnSt_keepsStop hs
  split
  · exact complete_keepsStop hs1
  · split
    rename_i x1 ok s2 e
    have hx : s2.rdStop = old := keepStop_of_snd e (fnWrite_keepsStop hs1)
    exact complete_keepsStop hx

theorem State.stopCmd_keepsStop {s : State} {c : Cmd} {status detail : Nat} {old : Nat} (hs : s.rdStop = old) : (s.stopCmd c status
    detail).rdStop = old := by
  unfold State.stopCmd
  split
  · exact helloEnd_keepsStop hs
  · split
    · split
      rename_i x d n s1 e
      have hx : s1.rdStop = old := keepStop_of_thd e (xtsPart_keepsStop hs)
      exact complete_keepsStop (writePieces_keepsStop hx)
    · exact complete_keepsStop hs

theorem State.dropCmdCtx_keepsStop {s : State} {c : Cmd} {old : Nat} (hs : s.rdStop = old) : (s.dropCmdCtx c).rdStop = old := by
  unfold State.dropCmdCtx
  split
  · split
    · exact keepStop_ite (dropCtx_keepsStop hs) hs
    · exact hs
  · exact hs

theorem State.abortCmd_keepsStop {s : State} {c : Cmd} {status : Nat} {old : Nat} (hs : s.rdStop = old) : (s.abortCmd c status).rdStop =
    old :=
  stopCmd_keepsStop (keepStop_ite (dropCmdCtx_keepsStop hs) hs)

theorem State.abortSuspended_keepsStop {s : State} {old : Nat} (hs : s.rdStop = old) : s.abortSuspended.rdStop = old :=
  keepStop_fold hs (fun _ _ h => abortCmd_keepsStop h)

theorem State.alarmLevel_keepsStop {s : State} {old : Nat} (hs : s.rdStop = old) : s.alarmLevel.rdStop = old :=
  setStatus_keepsStop hs (.inl (Nat.ne_of_beq_eq_false rfl))

theorem State.flagSource_keepsStop {s : State} {acted : Bool} {src : Nat} {old : Nat} (hs : s.rdStop = old) : (s.flagSource acted
    src).rdStop = old :=
  setEvt_keepsStop (wr_keepsStop (keepStop_ite hs (wr_keepsStop (wr_keepsStop hs (.inl (Nat.ne_of_beq_eq_false rfl))) (.inl
    (Nat.ne_of_beq_eq_false rfl)))) (.inl (Nat.ne_of_beq_eq_false rfl))) (alarmEvt_clearStop _)

theorem State.sendFrame_keepsStop {s : State} {purge : Bool} {p : TwinPayload} {old : Nat} (hs : s.rdStop = old) : (s.sendFrame purge
    p).rdStop = old :=
  keepStop_with hs

theorem State.sendClose_keepsStop {s : State} {purge : Bool} {reason : Option Nat} {old : Nat} (hs : s.rdStop = old) : (s.sendClose purge
    reason).rdStop = old := by
  unfold State.sendClose
  split
  · exact sendFrame_keepsStop hs
  · split
    rename_i x n s1 e
    have hx : s1.rdStop = old := keepStop_of_snd e (freeNat_keepsStop hs)
    exact sendFrame_keepsStop hx

theorem State.respond_keepsStop {s : State} {k : Nat} {old : Nat} (hs : s.rdStop = old) : (s.respond k).rdStop = old := by
  unfold State.respond
  split
  · exact alarmLevel_keepsStop hs
  · split
    · exact abortSuspended_keepsStop (refreshSuspended_keepsStop (setStatus_keepsStop hs (.inl (Nat.ne_of_beq_eq_false rfl))))
    · exact keepStop_ite (keepStop_ite (keepStop_ite (sendClose_keepsStop hs) hs) (keepStop_with (zeroize_keepsStop (keepStop_ite
      (sendClose_keepsStop hs) hs)))) (keepStop_ite (keepStop_with hs) (keepStop_ite (keepStop_with hs) hs))

theorem State.respondAll_keepsStop {s : State} {lo n : Nat} {old : Nat} (hs : s.rdStop = old) : (s.respondAll lo n).rdStop = old := by
  induction n generalizing s lo with
  | zero =>
    unfold State.respondAll
    exact hs
  | succ n ih =>
    unfold State.respondAll
    exact ih (respond_keepsStop hs)

theorem State.execCode_keepsStop {s : State} {srcs c : Nat} {old : Nat} (hs : s.rdStop = old) : (s.execCode srcs c).rdStop = old :=
  keepStop_ite hs (setStatus_keepsStop (wr_keepsStop (keepStop_ite (alarmLevel_keepsStop (respondAll_keepsStop (keepStop_with hs)))
    (respondAll_keepsStop (keepStop_with hs))) (.inl (Nat.ne_of_beq_eq_false rfl))) (.inl (Nat.ne_of_beq_eq_false rfl)))

theorem State.alarmRecord_keepsStop {s : State} {srcs code : Nat} {atStart : Bool} {old : Nat} (hs : s.rdStop = old) : (s.alarmRecord srcs
    code atStart).rdStop = old :=
  keepStop_ite (keepStop_with hs) (decideRecord_keepsStop hs)

theorem State.raiseAlarms_keepsStop {s : State} {l : List Nat} {atStart : Bool} {old : Nat} (hs : s.rdStop = old) : (s.raiseAlarms l
    atStart).rdStop = old :=
  keepStop_ite hs (alarmRecord_keepsStop (execCode_keepsStop (keepStop_fold hs (fun _ _ h => flagSource_keepsStop h))))

theorem State.backupRaise_keepsStop {s : State} {src : Nat} {old : Nat} (hs : s.rdStop = old) : (s.backupRaise src).rdStop = old := by
  unfold State.backupRaise
  extract_lets fl s1 s2 x
  have hs1 : s1.rdStop = old := keepStop_ite hs (wr_keepsStop (wr_keepsStop hs (.inl (Nat.ne_of_beq_eq_false rfl))) (.inl
    (Nat.ne_of_beq_eq_false rfl)))
  have hs2 : s2.rdStop = old := wr_keepsStop hs1 (.inl (Nat.ne_of_beq_eq_false rfl))
  exact keepStop_ite hs2 (keepStop_with hs2)

end Sys2Proof.Machine
end

section
/-! Windows of the register space: an operation that writes within one leaves every field outside it as it is. -/

namespace Sys2Proof.Machine

/-- A field lies outside the words from `lo` up to `hi`. -/
abbrev Fld.outside (f : Fld) (lo hi : Nat) : Prop := f.lsb < 64 ∧ f.off < 0x1000000 ∧ (f.off < lo ∨ hi ≤ f.off)

/-- A field lies in the words from `lo` up to `hi`. -/
abbrev Fld.within (f : Fld) (lo hi : Nat) : Prop := f.lsb < 64 ∧ lo ≤ f.off ∧ f.off < hi ∧ hi ≤ 0x1000000

/-- Every field outside a window keeps its value. -/
def State.keepsOutside (s t : State) (lo hi : Nat) : Prop := ∀ f : Fld, f.outside lo hi → t.rd f = s.rd f

theorem Fld.outside.key_ne {f g : Fld} {lo hi : Nat} (hf : f.outside lo hi) (hg : g.within lo hi) : f.key ≠ g.key := by
  obtain ⟨hlsb, hoff, hout⟩ := hf
  obtain ⟨hlsb', hlo, hhi, hmax⟩ := hg
  exact Fld.key_ne_of_off hlsb hlsb' hoff (by omega) (by omega)

/-- A fold of writes leaves the fields that it does not write. -/
theorem State.rd_foldl_wr (s : State) {f : Fld} {g : Nat → Fld} {v : Nat} (l : List Nat) (h : ∀ i ∈ l, f.key ≠ (g i).key) :
    (l.foldl (fun s i => s.wr (g i) v) s).rd f = s.rd f := by
  induction l generalizing s with
  | nil => rfl
  | cons i t ih =>
    rw [List.foldl_cons, ih _ fun j hj => h j (List.mem_cons_of_mem _ hj), State.rd_wr_other _ _ (h i List.mem_cons_self)]

theorem State.rd_wr_of_key (s : State) {f g : Fld} (v : Nat) (h : g.key = f.key) (hr : g.reset = f.reset) : (s.wr f v).rd g = v % 2 ^ f.width := by
  simp [State.rd, State.wr, h, hr]

/-- A fold that writes one value to fields of one kind: each of them reads it. -/
theorem State.rd_foldl_wr_mem (s : State) {g : Nat → Fld} {v w r : Nat} (hw : ∀ i, (g i).width = w ∧ (g i).reset = r) {l : List Nat} {i : Nat} (hi : i ∈ l) :
    (l.foldl (fun s i => s.wr (g i) v) s).rd (g i) = v % 2 ^ w := by
  have hkeep (l : List Nat) : ∀ (s : State), s.rd (g i) = v % 2 ^ w → (l.foldl (fun s i => s.wr (g i) v) s).rd (g i) = v % 2 ^ w := by
    induction l with
    | nil => exact fun _ h => h
    | cons j t ih =>
      intro s h
      refine ih _ ?_
      by_cases hk : (g i).key = (g j).key
      · rw [State.rd_wr_of_key _ _ hk ((hw i).2.trans (hw j).2.symm), (hw j).1]
      · rw [State.rd_wr_other _ _ hk, h]
  induction l generalizing s with
  | nil => cases hi
  | cons j t ih =>
    obtain rfl | hi := List.mem_cons.mp hi
    · exact hkeep t _ (by rw [State.rd_wr_same, (hw _).1])
    · exact ih _ hi

namespace State
variable {s t u : State} {lo hi : Nat}

theorem keepsOutside_of_regs (h : t.regs = s.regs) : s.keepsOutside t lo hi := fun f _ => State.rd_of_regs h f

theorem keepsOutside.trans (h : s.keepsOutside t lo hi) (h' : t.keepsOutside u lo hi) : s.keepsOutside u lo hi := fun f hf => (h' f hf).trans (h f hf)

theorem keepsOutside.wr (h : s.keepsOutside t lo hi) {f : Fld} (v : Nat) (hf : f.within lo hi) : s.keepsOutside (t.wr f v) lo hi := fun g hg =>
  (State.rd_wr_other _ _ (hg.key_ne hf)).trans (h g hg)

theorem keepsOutside.setEvt (h : s.keepsOutside t lo hi) {f : Fld} (b : Nat) (hf : f.within lo hi) : s.keepsOutside (t.setEvt f b) lo hi := fun g hg =>
  (State.rd_setEvt_other _ b (hg.key_ne hf) (hg.key_ne ⟨(by omega : 16 < 64), hf.2⟩)).trans (h g hg)

theorem keepsOutside.foldl {α : Type} {f : State → α → State} (hf : ∀ (s : State) a, s.keepsOutside (f s a) lo hi) (l : List α) (h : s.keepsOutside t lo hi) :
    s.keepsOutside (l.foldl f t) lo hi := by
  induction l generalizing t with
  | nil => exact h
  | cons a l ih => exact ih (h.trans (hf t a))

end State
end Sys2Proof.Machine
end

section
/-! The link test block (chapter 22). -/

namespace Sys2Proof.Machine

theorem linkFirst_add_lt {k i : Nat} (hk : k < 5) (hi : i < linkLanes k) : linkFirst k + i < 200 := by
  unfold linkLanes at hi
  unfold linkFirst
  split at hi <;> split <;> omega

theorem laneFld_within {f : Fld} (hf : f = R.LTS_LANE_SYNC ∨ f = R.LTS_LANE_ERRORS) {l : Nat} (hl : l < 200) : (f.ix l).within 0x131000 0x133000 := by
  unfold Fld.within Fld.ix
  obtain rfl | rfl := hf <;> simp only [R.LTS_LANE_SYNC, R.LTS_LANE_ERRORS] <;> omega

theorem State.endEye_keeps (s : State) (r e : Nat) : s.keepsOutside (s.endEye r e) 0x131000 0x133000 :=
  ((((State.keepsOutside_of_regs (t := s) rfl).wr (f := R.LTS_EYE_RES_BUSY) _ (by decide)).wr (f := R.LTS_EYE_RES_DONE) _ (by decide)).wr
    (f := R.LTS_EYE_RES_RESULT) _ (by decide)).wr (f := R.LTS_EYE_RES_ERRORS) _ (by decide)

theorem State.dropSync_keeps (s : State) {k : Nat} (hk : k < 5) : s.keepsOutside (s.dropSync k) 0x131000 0x133000 := by
  intro f hf
  unfold State.dropSync
  exact State.rd_foldl_wr _ _ fun i hi => hf.key_ne (laneFld_within (.inl rfl) (linkFirst_add_lt hk (List.mem_range.mp hi)))

theorem State.zeroErrors_keeps (s : State) {k : Nat} (hk : k < 5) : s.keepsOutside (s.zeroErrors k) 0x131000 0x133000 := by
  intro f hf
  unfold State.zeroErrors
  exact State.rd_foldl_wr _ _ fun i hi => hf.key_ne (laneFld_within (.inr rfl) (linkFirst_add_lt hk (List.mem_range.mp hi)))

theorem State.stopEye_keeps (s : State) (k : Nat) : s.keepsOutside (s.stopEye k) 0x131000 0x133000 := by
  unfold State.stopEye
  split
  · split
    · exact (State.keepsOutside_of_regs (t := (s.freeNat 4).2) rfl).trans ((s.freeNat 4).2.endEye_keeps 2 (s.freeNat 4).1)
    · exact State.keepsOutside_of_regs rfl
  · exact State.keepsOutside_of_regs rfl

/-- GEN and CHK of a write leave every other field of LTS_CTRL. -/
theorem State.rd_runBits (s : State) {k : Nat} (hk : k < 5) (gen chk : Bool) {f : Fld} (hf : f.lsb < 64 ∧ f.off < 0x131000) (h1 : f.lsb ≠ 1) (h2 : f.lsb ≠ 2) :
    (s.runBits k gen chk).rd f = s.rd f := by
  have hout : f.outside 0x131000 0x133000 := by omega
  have hgen : f.key ≠ (R.LTS_CTRL_GEN.ix k).key := Fld.key_ne_of_lsb hf.1 (by simp [Fld.ix, R.LTS_CTRL_GEN]) (by simpa [Fld.ix, R.LTS_CTRL_GEN] using h1)
  have hchk : f.key ≠ (R.LTS_CTRL_CHK.ix k).key := Fld.key_ne_of_lsb hf.1 (by simp [Fld.ix, R.LTS_CTRL_CHK]) (by simpa [Fld.ix, R.LTS_CTRL_CHK] using h2)
  unfold State.runBits
  split
  · rfl
  · dsimp only
    rw [State.rd_wr_other _ _ hchk]
    split
    · rw [State.zeroErrors_keeps _ hk f hout, State.rd_wr_other _ _ hgen]
    · rw [State.stopEye_keeps _ k f hout, State.dropSync_keeps _ hk f hout, State.rd_wr_other _ _ hgen]

/-- The state but for the registers, the eye point under way and the free values. -/
def State.offTest (s : State) : State := { s with regs := [], lts := {}, freeCtr := 0 }

end Sys2Proof.Machine
end

section
/-! The link test block: the writes of LTS_CTRL and LTS_EYE_CTRL. -/

namespace Sys2Proof.Machine

theorem linkDomain_lt {k : Nat} : linkDomain k < 60 := by
  unfold linkDomain
  match k with
  | 0 | 1 | 2 | 3 | 4 => decide
  | k + 5 => simp

/-- Whether a link may enter its test state depends on nothing in the block. -/
theorem State.testCheck_congr {s t : State} (h : s.keepsOutside t 0x130000 0x133000) (hkeys : t.keys = s.keys) (hpwr : t.pwr = s.pwr) (k : Nat) :
    t.testCheck k = s.testCheck k := by
  have hdom : t.rd (domState (linkDomain k)) = s.rd (domState (linkDomain k)) := by
    have := linkDomain_lt (k := k)
    refine h _ ⟨?_, ?_, ?_⟩ <;> simp only [domState, Fld.ix, R.PWR_DOM_STAT_STATE] <;> omega
  have hcap (c : Nat) (hc : c < 2) : t.capBytes c = s.capBytes c := by
    unfold State.capBytes
    rw [h _ (show Fld.outside _ _ _ by simp only [Fld.outside, R.MEM_CFG_CAP_GIB]; omega)]
  have hobj : t.objCap = s.objCap := by simp only [State.objCap, h R.MEM_OBJ_CAP_CAP (by decide)]
  have hcell : t.cellOff = s.cellOff := by funext c; simp only [State.cellOff, hobj]
  have hon : t.objOn 1 = s.objOn 1 := by
    funext o; simp only [State.objOn, State.chanRange, hcell, hcap 0 (by omega), hcap 1 (by omega)]; rfl
  have hobjs : t.objects = s.objects := by simp only [State.objects, hkeys]
  have hclaims : t.claimsOn 22 = s.claimsOn 22 := by
    simp only [State.claimsOn, State.ddrClaim, hpwr, hobjs, hcell, hcap 0 (by omega), h R.WLD_DDR_WM_WM (by decide)]
  simp only [State.testCheck, State.recovery, State.flag, hdom, hobjs, hon, hclaims, h R.TWN_STATUS_STATE (by decide), h R.GLB_STATUS_RECOVERY (by decide)]
  rfl

/-- The write that a row of LTS_CTRL names: the bits of the word that was read, one of them changed. -/
theorem ltsBits : (∀ w < 128, (bitSet w 0).testBit 0 = true) ∧ (∀ w < 128, (bitClear w 0).testBit 0 = false) ∧
    (∀ w < 128, (bitSet w 2).testBit 2 = true ∧ (bitSet w 2).testBit 0 = w.testBit 0) := by decide

theorem State.ltsValue_enter (s : State) (k : Nat) : (s.ltsValue k 0 true).testBit 0 = true := ltsBits.1 _ (Nat.mod_lt _ (by decide))

theorem State.ltsValue_exit (s : State) (k : Nat) : (s.ltsValue k 0 false).testBit 0 = false := ltsBits.2.1 _ (Nat.mod_lt _ (by decide))

theorem State.ltsValue_chk (s : State) (k : Nat) :
    (s.ltsValue k 2 true).testBit 2 = true ∧ (s.ltsValue k 2 true).testBit 0 = (s.word 0 (0x130000 + 4 * k)).testBit 0 := by
  obtain ⟨h2, h0⟩ := ltsBits.2.2 (s.word 0 (0x130000 + 4 * k) % 128) (Nat.mod_lt _ (by decide))
  exact ⟨h2, h0.trans ((Nat.testBit_mod_two_pow (s.word 0 (0x130000 + 4 * k)) 7 0).trans (by simp))⟩

/-- The fields of LTS_CTRL[k] lie at different bits. -/
theorem ltsCtrl_key_ne {f g : Fld} (hf : f.lsb < 64) (hg : g.lsb < 64) (h : f.lsb ≠ g.lsb) (k : Nat) : (f.ix k).key ≠ (g.ix k).key :=
  Fld.key_ne_of_lsb hf hg h

/-- LOOP and PATTERN of a write to LTS_CTRL[k], before TEST, GEN and CHK act. -/
def State.ltsLoop (s : State) (k val : Nat) : State := (s.wr (R.LTS_CTRL_LOOP.ix k) (bits val 3 1)).wr (R.LTS_CTRL_PATTERN.ix k) (bits val 4 3)

theorem State.ltsCtrl_eq (s : State) (k val : Nat) :
    s.ltsCtrl k val = ((s.ltsLoop k val).testBitWrite k (val.testBit 0)).runBits k (val.testBit 1) (val.testBit 2) := rfl

theorem State.rd_ltsLoop (s : State) (k val : Nat) {f : Fld} (hf : f.lsb < 64) (h3 : f.lsb ≠ 3) (h4 : f.lsb ≠ 4) : (s.ltsLoop k val).rd f = s.rd f := by
  unfold State.ltsLoop
  rw [State.rd_wr_other _ _ (Fld.key_ne_of_lsb hf (by simp [Fld.ix, R.LTS_CTRL_PATTERN]) (by simpa [Fld.ix, R.LTS_CTRL_PATTERN] using h4)),
    State.rd_wr_other _ _ (Fld.key_ne_of_lsb hf (by simp [Fld.ix, R.LTS_CTRL_LOOP]) (by simpa [Fld.ix, R.LTS_CTRL_LOOP] using h3))]

theorem State.ltsLoop_keeps (s : State) {k : Nat} (hk : k < 5) (val : Nat) : s.keepsOutside (s.ltsLoop k val) 0x130000 0x133000 :=
  ((State.keepsOutside_of_regs (t := s) rfl).wr (f := R.LTS_CTRL_LOOP.ix k) _
    (by unfold Fld.within Fld.ix; simp only [R.LTS_CTRL_LOOP]; omega)).wr (f := R.LTS_CTRL_PATTERN.ix k) _
    (by unfold Fld.within Fld.ix; simp only [R.LTS_CTRL_PATTERN]; omega)

theorem State.inTest_ltsLoop (s : State) (k val : Nat) : (s.ltsLoop k val).inTest k = s.inTest k := by
  unfold State.inTest State.flag
  rw [State.rd_ltsLoop] <;> simp [Fld.ix, R.LTS_CTRL_STATE]

theorem State.testCheck_ltsLoop (s : State) {k : Nat} (hk : k < 5) (val : Nat) : (s.ltsLoop k val).testCheck k = s.testCheck k :=
  State.testCheck_congr (s.ltsLoop_keeps hk val) rfl rfl k

/-- The RESULT of a request for the test state is one of three codes. -/
theorem State.testCheck_lt (s : State) (k : Nat) : s.testCheck k < 8 := by
  have hcode (c : Prop) [Decidable c] (ok : Bool) : (if c then 2 else if ok then 0 else 1) < 8 := by
    split
    · decide
    · cases ok <;> decide
  exact hcode _ _

/-- A request that is granted ends in the test state, whatever GEN and CHK the write carries. -/
theorem State.ltsCtrl_enter (s : State) {k val : Nat} (hk : k < 5) (hval : val.testBit 0 = true) (hin : s.inTest k = false) (hok : s.testCheck k = 0) :
    (s.ltsCtrl k val).rd (R.LTS_CTRL_STATE.ix k) = 1 ∧ (s.ltsCtrl k val).rd (R.LTS_CTRL_TEST.ix k) = 1 := by
  have henter : (s.ltsLoop k val).testBitWrite k true = ((s.ltsLoop k val).wr (R.LTS_CTRL_RESULT.ix k) 0).enterTest k := by
    unfold State.testBitWrite
    simp only [State.inTest_ltsLoop, hin, State.testCheck_ltsLoop s hk, hok]
    rfl
  rw [State.ltsCtrl_eq, hval, henter,
    State.rd_runBits _ hk _ _ (by simp only [Fld.ix, R.LTS_CTRL_STATE]; omega) (by simp [Fld.ix, R.LTS_CTRL_STATE]) (by simp [Fld.ix, R.LTS_CTRL_STATE]),
    State.rd_runBits _ hk _ _ (by simp only [Fld.ix, R.LTS_CTRL_TEST]; omega) (by simp [Fld.ix, R.LTS_CTRL_TEST]) (by simp [Fld.ix, R.LTS_CTRL_TEST])]
  unfold State.enterTest
  dsimp only
  rw [State.rd_wr_other _ _ (ltsCtrl_key_ne (f := R.LTS_CTRL_TEST) (g := R.LTS_CTRL_STATE) (by decide) (by decide) (by decide) k)]
  exact ⟨State.rd_wr_same .., State.rd_wr_same ..⟩

/-- One that is not granted shows why, and nothing else happens. -/
theorem State.ltsCtrl_refused (s : State) {k val : Nat} (hk : k < 5) (hval : val.testBit 0 = true) (hin : s.inTest k = false) (hno : s.testCheck k ≠ 0) :
    (s.ltsCtrl k val).rd (R.LTS_CTRL_RESULT.ix k) = s.testCheck k ∧ (s.ltsCtrl k val).inTest k = false ∧ (s.ltsCtrl k val).mem = s.mem := by
  have hstay : (s.ltsLoop k val).testBitWrite k true = (s.ltsLoop k val).wr (R.LTS_CTRL_RESULT.ix k) (s.testCheck k) := by
    unfold State.testBitWrite
    simp only [State.inTest_ltsLoop, hin, State.testCheck_ltsLoop s hk]
    exact if_neg hno
  rw [State.ltsCtrl_eq, hval, hstay]
  refine ⟨?_, ?_, ?_⟩
  · rw [State.rd_runBits _ hk _ _ (by simp only [Fld.ix, R.LTS_CTRL_RESULT]; omega) (by simp [Fld.ix, R.LTS_CTRL_RESULT]) (by simp [Fld.ix, R.LTS_CTRL_RESULT]),
      State.rd_wr_same]
    exact Nat.mod_eq_of_lt (s.testCheck_lt k)
  · unfold State.inTest State.flag
    rw [State.rd_runBits _ hk _ _ (by simp only [Fld.ix, R.LTS_CTRL_STATE]; omega) (by simp [Fld.ix, R.LTS_CTRL_STATE]) (by simp [Fld.ix, R.LTS_CTRL_STATE]),
      State.rd_wr_other _ _ (ltsCtrl_key_ne (f := R.LTS_CTRL_STATE) (g := R.LTS_CTRL_RESULT) (by decide) (by decide) (by decide) k)]
    exact (s.inTest_ltsLoop k val).trans hin
  · exact State.runBits_keepsMem rfl

/-- A link that leaves the test state trains anew, which no field of LTS_CTRL shows. -/
theorem State.rd_exitTest (s : State) {k : Nat} (hk : k < 5) {f : Fld} (hf : f.lsb < 64 ∧ 0x130000 ≤ f.off ∧ f.off < 0x131000) (hin : s.inTest k = true) :
    (s.exitTest k).rd f = (s.leaveTest k).rd f := by
  have hport (p : Port) : ((s.leaveTest k).trainPort p).rd f = (s.leaveTest k).rd f := by
    refine State.rd_of_regs ?_ f
    unfold State.trainPort
    split
    · exact State.setPort_regs ..
    · rfl
  unfold State.exitTest
  rw [if_pos hin]
  dsimp only
  split
  · exact hport .a
  · split
    · exact hport .b
    · split
      · rfl
      · unfold State.trainChannel
        rw [State.rd_wr_other _ _ (Fld.key_ne_of_off hf.1 (by simp [Fld.mem, Fld.add, R.MEM_STATUS_STATE]) (by omega)
          (by simp only [Fld.mem, Fld.add, R.MEM_STATUS_STATE]; omega) (by simp only [Fld.mem, Fld.add, R.MEM_STATUS_STATE]; omega))]
        exact State.rd_of_regs (State.setChan_regs ..) f

/-- Leaving the test state ends it and its request. -/
theorem State.rd_leaveTest (s : State) {k : Nat} (hk : k < 5) (hin : s.inTest k = true) :
    (s.leaveTest k).rd (R.LTS_CTRL_STATE.ix k) = 0 ∧ (s.leaveTest k).rd (R.LTS_CTRL_TEST.ix k) = 0 := by
  have hne {f g : Fld} (hf : f.lsb < 64) (hg : g.lsb < 64) (h : f.lsb ≠ g.lsb) := ltsCtrl_key_ne hf hg h k
  unfold State.leaveTest
  rw [if_pos hin]
  dsimp only
  constructor
  · rw [State.stopEye_keeps _ k _ (by simp only [Fld.outside, Fld.ix, R.LTS_CTRL_STATE]; omega),
      State.dropSync_keeps _ hk _ (by simp only [Fld.outside, Fld.ix, R.LTS_CTRL_STATE]; omega),
      State.rd_wr_other _ _ (hne (f := R.LTS_CTRL_STATE) (g := R.LTS_CTRL_CHK) (by decide) (by decide) (by decide)),
      State.rd_wr_other _ _ (hne (f := R.LTS_CTRL_STATE) (g := R.LTS_CTRL_GEN) (by decide) (by decide) (by decide))]
    exact State.rd_wr_same ..
  · rw [State.stopEye_keeps _ k _ (by simp only [Fld.outside, Fld.ix, R.LTS_CTRL_TEST]; omega),
      State.dropSync_keeps _ hk _ (by simp only [Fld.outside, Fld.ix, R.LTS_CTRL_TEST]; omega),
      State.rd_wr_other _ _ (hne (f := R.LTS_CTRL_TEST) (g := R.LTS_CTRL_CHK) (by decide) (by decide) (by decide)),
      State.rd_wr_other _ _ (hne (f := R.LTS_CTRL_TEST) (g := R.LTS_CTRL_GEN) (by decide) (by decide) (by decide)),
      State.rd_wr_other _ _ (hne (f := R.LTS_CTRL_TEST) (g := R.LTS_CTRL_STATE) (by decide) (by decide) (by decide))]
    exact State.rd_wr_same ..

/-- Leaving the test state clears it, its request bit and RESULT. -/
theorem State.ltsCtrl_exit (s : State) {k val : Nat} (hk : k < 5) (hval : val.testBit 0 = false) (hin : s.inTest k = true) :
    (s.ltsCtrl k val).rd (R.LTS_CTRL_STATE.ix k) = 0 ∧ (s.ltsCtrl k val).rd (R.LTS_CTRL_TEST.ix k) = 0 ∧ (s.ltsCtrl k val).rd (R.LTS_CTRL_RESULT.ix k) = 0 ∧
      (s.ltsCtrl k val).mem = s.mem := by
  have hexit : (s.ltsLoop k val).testBitWrite k false = ((s.ltsLoop k val).exitTest k).wr (R.LTS_CTRL_RESULT.ix k) 0 := by
    unfold State.testBitWrite
    simp only [State.inTest_ltsLoop, hin]
    rfl
  have hin' : (s.ltsLoop k val).inTest k = true := (s.inTest_ltsLoop k val).trans hin
  rw [State.ltsCtrl_eq, hval, hexit]
  refine ⟨?_, ?_, ?_, State.runBits_keepsMem (State.exitTest_keepsMem rfl)⟩
  · rw [State.rd_runBits _ hk _ _ (by simp only [Fld.ix, R.LTS_CTRL_STATE]; omega) (by simp [Fld.ix, R.LTS_CTRL_STATE]) (by simp [Fld.ix, R.LTS_CTRL_STATE]),
      State.rd_wr_other _ _ (ltsCtrl_key_ne (f := R.LTS_CTRL_STATE) (g := R.LTS_CTRL_RESULT) (by decide) (by decide) (by decide) k),
      State.rd_exitTest _ hk (by simp only [Fld.ix, R.LTS_CTRL_STATE]; omega) hin']
    exact (State.rd_leaveTest _ hk hin').1
  · rw [State.rd_runBits _ hk _ _ (by simp only [Fld.ix, R.LTS_CTRL_TEST]; omega) (by simp [Fld.ix, R.LTS_CTRL_TEST]) (by simp [Fld.ix, R.LTS_CTRL_TEST]),
      State.rd_wr_other _ _ (ltsCtrl_key_ne (f := R.LTS_CTRL_TEST) (g := R.LTS_CTRL_RESULT) (by decide) (by decide) (by decide) k),
      State.rd_exitTest _ hk (by simp only [Fld.ix, R.LTS_CTRL_TEST]; omega) hin']
    exact (State.rd_leaveTest _ hk hin').2
  · rw [State.rd_runBits _ hk _ _ (by simp only [Fld.ix, R.LTS_CTRL_RESULT]; omega) (by simp [Fld.ix, R.LTS_CTRL_RESULT]) (by simp [Fld.ix, R.LTS_CTRL_RESULT])]
    exact State.rd_wr_same ..

/-- A start of the checkers of a link in test zeroes their error counts. -/
theorem State.ltsCtrl_chk (s : State) {k val : Nat} (h0 : val.testBit 0 = true) (h2 : val.testBit 2 = true) (hin : s.inTest k = true) :
    (s.ltsCtrl k val).rd (R.LTS_CTRL_CHK.ix k) = 1 ∧ (∀ i, i < linkLanes k → (s.ltsCtrl k val).rd (R.LTS_LANE_ERRORS.ix (linkFirst k + i)) = 0) ∧
      (s.ltsCtrl k val).mem = s.mem := by
  have hin' : (s.ltsLoop k val).inTest k = true := (s.inTest_ltsLoop k val).trans hin
  have hrun : s.ltsCtrl k val = (((s.ltsLoop k val).wr (R.LTS_CTRL_GEN.ix k) (val.testBit 1).toNat).zeroErrors k).wr (R.LTS_CTRL_CHK.ix k) 1 := by
    have hstay : (s.ltsLoop k val).testBitWrite k true = s.ltsLoop k val := by simp [State.testBitWrite, hin']
    rw [State.ltsCtrl_eq, h0, h2, hstay]
    simp [State.runBits, hin']
  rw [hrun]
  refine ⟨State.rd_wr_same .., fun i hi => ?_, ?_⟩
  · rw [State.rd_wr_other _ _ (Fld.key_ne_of_lsb (by simp [Fld.ix, R.LTS_LANE_ERRORS]) (by simp [Fld.ix, R.LTS_CTRL_CHK])
      (by simp [Fld.ix, R.LTS_LANE_ERRORS, R.LTS_CTRL_CHK]))]
    unfold State.zeroErrors
    exact State.rd_foldl_wr_mem (g := fun i => R.LTS_LANE_ERRORS.ix (linkFirst k + i)) (w := 31) (r := 0) _ (fun _ => ⟨rfl, rfl⟩) (List.mem_range.mpr hi)
  · exact State.zeroErrors_keepsMem rfl

/-- The words of the eye scan and of the lanes do not overlap. -/
theorem laneFld_key_ne_eye {f g : Fld} (hf : f = R.LTS_LANE_SYNC ∨ f = R.LTS_LANE_ERRORS) {l : Nat} (hl : l < 200)
    (hg : g ∈ [R.LTS_EYE_RES_BUSY, R.LTS_EYE_RES_DONE, R.LTS_EYE_RES_RESULT, R.LTS_EYE_RES_ERRORS]) : (f.ix l).key ≠ g.key := by
  simp only [List.mem_cons, List.not_mem_nil, or_false] at hg
  unfold Fld.ix Fld.key
  obtain rfl | rfl := hf <;> obtain rfl | rfl | rfl | rfl := hg <;>
    simp only [R.LTS_LANE_SYNC, R.LTS_LANE_ERRORS, R.LTS_EYE_RES_BUSY, R.LTS_EYE_RES_DONE, R.LTS_EYE_RES_RESULT, R.LTS_EYE_RES_ERRORS] <;> omega

/-- What the end of an eye point shows. -/
theorem State.endEye_shown (s : State) {result : Nat} (hr : result < 4) (errors : Nat) :
    (s.endEye result errors).rd R.LTS_EYE_RES_BUSY = 0 ∧ (s.endEye result errors).rd R.LTS_EYE_RES_DONE = 1 ∧
      (s.endEye result errors).rd R.LTS_EYE_RES_RESULT = result ∧ (s.endEye result errors).rd R.LTS_EYE_RES_ERRORS = min errors (2 ^ 28 - 1) := by
  unfold State.endEye
  simp (disch := decide) only [State.rd_wr_other, State.rd_with, State.rd_wr_same]
  refine ⟨rfl, rfl, Nat.mod_eq_of_lt hr, Nat.mod_eq_of_lt ?_⟩
  show min errors (2 ^ 28 - 1) < 2 ^ 28
  omega

theorem State.rd_endEye_lane (s : State) (result errors : Nat) {f : Fld} (hf : f = R.LTS_LANE_SYNC ∨ f = R.LTS_LANE_ERRORS) {l : Nat} (hl : l < 200) :
    (s.endEye result errors).rd (f.ix l) = s.rd (f.ix l) := by
  have hne {g : Fld} (hg : g ∈ [R.LTS_EYE_RES_BUSY, R.LTS_EYE_RES_DONE, R.LTS_EYE_RES_RESULT, R.LTS_EYE_RES_ERRORS]) := laneFld_key_ne_eye hf hl hg
  unfold State.endEye
  dsimp only
  rw [State.rd_wr_other _ _ (hne (by simp)), State.rd_with, State.rd_wr_other _ _ (hne (by simp)), State.rd_wr_other _ _ (hne (by simp)),
    State.rd_wr_other _ _ (hne (by simp))]

/-- A checker that loses synchronisation has counted 32 errors or more. -/
theorem State.rd_bitErrors (s : State) {l : Nat} (least : Nat) :
    min (s.rd (R.LTS_LANE_ERRORS.ix l) + least) (2 ^ 31 - 1) ≤ (s.bitErrors l least).rd (R.LTS_LANE_ERRORS.ix l) := by
  have hrd : (s.bitErrors l least).rd (R.LTS_LANE_ERRORS.ix l) =
      min (s.rd (R.LTS_LANE_ERRORS.ix l) + (least + (s.freeNat 4).1)) (2 ^ 31 - 1) % 2 ^ 31 := State.rd_wr_same ..
  rw [hrd, Nat.mod_eq_of_lt (by omega)]
  omega

end Sys2Proof.Machine
end

section
namespace Sys2Proof.Machine

theorem State.rd_bitErrors_other (s : State) {f : Fld} {l : Nat} (least : Nat) (h : f.key ≠ (R.LTS_LANE_ERRORS.ix l).key) : (s.bitErrors l least).rd f = s.rd f := by
  unfold State.bitErrors State.satAdd
  exact State.rd_wr_other (s.freeNat 4).2 _ h

/-- A checker that loses synchronisation: what its lane and its eye point show. -/
theorem execLtsCheckerSyncLost_shown {s : State} {lane : Nat} (hchk : s.checking lane = true) (hsync : s.rd (R.LTS_LANE_SYNC.ix lane) = 1) :
    ∃ t, execLtsCheckerSyncLost lane s = .next t ∧ t.rd (R.LTS_LANE_SYNC.ix lane) = 0 ∧
      min (s.rd (R.LTS_LANE_ERRORS.ix lane) + 32) (2 ^ 31 - 1) ≤ t.rd (R.LTS_LANE_ERRORS.ix lane) ∧ t.mem = s.mem ∧
      (s.lts.eyeLane = some lane → t.rd R.LTS_EYE_RES_RESULT = 1 ∧ t.rd R.LTS_EYE_RES_BUSY = 0) := by
  have hlane : lane < 200 := by
    simp only [State.checking, Bool.and_eq_true, decide_eq_true_eq] at hchk
    exact hchk.1.1
  have hne : (R.LTS_LANE_ERRORS.ix lane).key ≠ (R.LTS_LANE_SYNC.ix lane).key := ltsCtrl_key_ne (by decide) (by decide) (by decide) lane
  obtain ⟨u, hu⟩ : ∃ u, u = (s.wr (R.LTS_LANE_SYNC.ix lane) 0).bitErrors lane 32 := ⟨_, rfl⟩
  have husync : u.rd (R.LTS_LANE_SYNC.ix lane) = 0 := by
    rw [hu]
    exact (State.rd_bitErrors_other _ 32 hne.symm).trans (State.rd_wr_same ..)
  have huerr : min (s.rd (R.LTS_LANE_ERRORS.ix lane) + 32) (2 ^ 31 - 1) ≤ u.rd (R.LTS_LANE_ERRORS.ix lane) := by
    have h := (s.wr (R.LTS_LANE_SYNC.ix lane) 0).rd_bitErrors (l := lane) 32
    rwa [State.rd_wr_other _ _ hne, ← hu] at h
  have humem : u.mem = s.mem := hu ▸ State.bitErrors_keepsMem rfl
  have hueye : u.lts.eyeLane = s.lts.eyeLane := by rw [hu]; rfl
  have hgo : execLtsCheckerSyncLost lane s =
      if u.lts.eyeLane = some lane then .next ((u.freeNat 4).2.endEye 1 (u.freeNat 4).1) else .next u := by
    rw [hu]
    exact if_pos (by rw [hchk, State.flag_eq_true _ hsync]; rfl)
  rw [hgo, hueye]
  by_cases heye : s.lts.eyeLane = some lane
  · rw [if_pos heye]
    obtain ⟨hbusy, -, hresult, -⟩ := (u.freeNat 4).2.endEye_shown (result := 1) (by decide) (u.freeNat 4).1
    refine ⟨_, rfl, ?_, ?_, humem, fun _ => ⟨hresult, hbusy⟩⟩
    · rw [State.rd_endEye_lane _ _ _ (.inl rfl) hlane]; exact husync
    · rw [State.rd_endEye_lane _ _ _ (.inr rfl) hlane]; exact huerr
  · rw [if_neg heye]
    exact ⟨u, rfl, husync, huerr, humem, fun h => absurd h heye⟩

/-- Whether an eye scan may run on a lane depends on its link's LTS_CTRL and on its lane word alone. -/
theorem State.eyeEligible_congr {s t : State} (h : s.keepsOutside t 0x132000 0x133000) (l : Nat) : t.eyeEligible l = s.eyeEligible l := by
  unfold State.eyeEligible State.inTest State.flag
  by_cases hl : l < 12
  · have hlink : laneLink l < 5 := by unfold laneLink; split <;> omega
    rw [h _ (by simp only [Fld.outside, Fld.ix, R.LTS_CTRL_STATE]; omega), h _ (by simp only [Fld.outside, Fld.ix, R.LTS_CTRL_LOOP]; omega),
      h _ (by simp only [Fld.outside, Fld.ix, R.LTS_LANE_SYNC]; omega)]
  · simp [hl]

/-- GO of a write to LTS_EYE_CTRL while no point is under way. -/
theorem State.eyeCtrl_go (s : State) {val : Nat} (hgo : val.testBit 31 = true) (hidle : s.rd R.LTS_EYE_RES_BUSY = 0) :
    (s.eyeEligible (val % 256) = true → (s.eyeCtrl val).rd R.LTS_EYE_RES_BUSY = 1 ∧ (s.eyeCtrl val).lts.eyeLane = some (val % 256)) ∧
      (s.eyeEligible (val % 256) = false → (s.eyeCtrl val).rd R.LTS_EYE_RES_BUSY = 0 ∧ (s.eyeCtrl val).rd R.LTS_EYE_RES_RESULT = 3) := by
  obtain ⟨u, hu⟩ : ∃ u, u = (((s.wr R.LTS_EYE_CTRL_LANE (bits val 0 8)).wr R.LTS_EYE_CTRL_TOFF (bits val 8 6)).wr
    R.LTS_EYE_CTRL_VOFF (clampVoff (bits val 14 7))).wr R.LTS_EYE_CTRL_DWELL (bits val 21 6) := ⟨_, rfl⟩
  have hlane : bits val 0 8 = val % 256 := by simp [bits]
  have hbusy : u.flag R.LTS_EYE_RES_BUSY = false := by
    refine State.flag_eq_false _ ?_
    rw [hu]
    simp (disch := decide) only [State.rd_wr_other, hidle]
  have helig : u.eyeEligible (val % 256) = s.eyeEligible (val % 256) := by
    have hu' : s.keepsOutside u 0x132000 0x133000 := by
      rw [hu]
      exact ((((State.keepsOutside_of_regs (t := s) rfl).wr (f := R.LTS_EYE_CTRL_LANE) _ (by decide)).wr (f := R.LTS_EYE_CTRL_TOFF) _ (by decide)).wr
        (f := R.LTS_EYE_CTRL_VOFF) _ (by decide)).wr (f := R.LTS_EYE_CTRL_DWELL) _ (by decide)
    exact State.eyeEligible_congr hu' _
  have hval : s.eyeCtrl val = if u.eyeEligible (bits val 0 8) then
      { (u.wr R.LTS_EYE_RES_BUSY 1).wr R.LTS_EYE_RES_DONE 0 with lts := { u.lts with eyeLane := some (bits val 0 8) } }
      else u.endEye 3 (u.rd R.LTS_EYE_RES_ERRORS) := by
    rw [hu]
    exact if_neg (by rw [← hu, hgo, hbusy]; decide)
  rw [hval, hlane, helig]
  refine ⟨fun h => ?_, fun h => ?_⟩
  · rw [if_pos h]
    refine ⟨?_, rfl⟩
    rw [State.rd_with, State.rd_wr_other _ _ (by decide), State.rd_wr_same]
    rfl
  · rw [h]
    obtain ⟨hbusy, -, hresult, -⟩ := u.endEye_shown (result := 3) (by decide) (u.rd R.LTS_EYE_RES_ERRORS)
    exact ⟨hbusy, hresult⟩

/-- Settles O57, row by row. -/
theorem linkTestRows : Obligations.LinkTestRows := by
  unfold Obligations.LinkTestRows
  intro s
  refine ⟨?_, fun lane hchk hsync => ?_, fun lane hchk hsync => execLtsCheckerSyncLost_shown hchk hsync, fun who v hpass hgo hidle => ?_,
    fun result errors hbusy hres herr => ?_⟩
  · intro who link k hpass
    have hgate (val : Nat) (f : State → State) : s.gated who (0x130000 + 4 * k) val f = f s := State.gated_of_passes hpass val f
    refine ⟨fun hin hok => ?_, fun hin hno => ?_, fun hin => ?_, fun hin hbit => ?_⟩
    · exact ⟨_, congrArg Host.Outcome.next (hgate _ _), s.ltsCtrl_enter link.isLt (s.ltsValue_enter _) hin hok⟩
    · exact ⟨_, congrArg Host.Outcome.next (hgate _ _), s.ltsCtrl_refused link.isLt (s.ltsValue_enter _) hin hno⟩
    · exact ⟨_, congrArg Host.Outcome.next (hgate _ _), s.ltsCtrl_exit link.isLt (s.ltsValue_exit _) hin⟩
    · obtain ⟨h2, h0⟩ := s.ltsValue_chk link.val
      exact ⟨_, congrArg Host.Outcome.next (hgate _ _), s.ltsCtrl_chk (h0.trans hbit) h2 hin⟩
  · refine ⟨s.wr (R.LTS_LANE_SYNC.ix lane) 1, ?_, State.rd_wr_same .., rfl, s.keepsRegs_wr _ (List.mem_singleton.mpr rfl)⟩
    show execLtsCheckerAligned lane s = _
    exact if_pos (by rw [hchk, State.flag_eq_false _ hsync]; rfl)
  · obtain ⟨hyes, hno⟩ := s.eyeCtrl_go hgo hidle
    have hexec : exec (.ltsEyeGo who v) s = .next (s.eyeCtrl v.toNat) := congrArg Host.Outcome.next (State.gated_of_passes hpass _ _)
    exact ⟨fun h => ⟨_, hexec, (hyes h).1, (hyes h).2, State.eyeCtrl_keepsMem rfl⟩, fun h => ⟨_, hexec, (hno h).1, (hno h).2, State.eyeCtrl_keepsMem rfl⟩⟩
  · have hexec : exec (.ltsEyeDone result errors) s = .next (s.endEye result errors) := by
      show execLtsEyeDone result errors s = _
      exact if_pos (by simp [State.flag_eq_true _ hbusy, hres, herr])
    obtain ⟨h0, hdone, hresult, herrors⟩ := s.endEye_shown (by omega : result < 4) errors
    exact ⟨_, hexec, h0, hdone, hresult, herrors, rfl, rfl⟩

end Sys2Proof.Machine
end

section
/-! The access table (chapter 10) and the wide-value mailbox (chapter 05). -/

namespace Sys2Proof.Machine

/-- No entry is empty where none was, whatever happens outside the entries. -/
theorem State.emptyEntries_congr {s t : State} (h : s.keepsOutside t 0x80000 0x81000) : t.emptyEntries = s.emptyEntries := by
  unfold State.emptyEntries
  refine List.filter_congr fun i hi => ?_
  have hi := List.mem_range.mp hi
  have hent {f : Fld} (hf : 0x81000 ≤ f.off ∧ f.off ≤ 0x81018 ∧ f.lsb < 64 ∧ f.stride = 32) : t.rd (f.ix i) = s.rd (f.ix i) := by
    refine h _ ?_
    simp only [Fld.outside, Fld.ix, hf.2.2.2]
    omega
  simp only [State.flag, State.entLimit, State.entBase, hent (f := R.ACT_ENT6_ENABLE) (by decide), hent (f := R.ACT_ENT0_BASE_LO) (by decide),
    hent (f := R.ACT_ENT1_BASE_HI) (by decide), hent (f := R.ACT_ENT2_LIMIT_LO) (by decide), hent (f := R.ACT_ENT3_LIMIT_HI) (by decide)]
  rfl

/-- The end of an update with no access held and no command or alarm waiting. -/
theorem State.updateEnd_of_calm {s : State} (hheld : s.act.held = []) (hcalm : s.calm) (hempty : s.emptyEntries = []) :
    s.updateEnd = (s.wr R.ACT_CTRL_UPDATE 0).setEvt R.ACT_EVT_UPDATE_DONE := by
  have hkeeps : s.keepsOutside (s.wr R.ACT_CTRL_UPDATE 0) 0x80000 0x81000 :=
    (State.keepsOutside_of_regs (t := s) rfl).wr (f := R.ACT_CTRL_UPDATE) _ (by decide)
  have hsame : ({ (s.wr R.ACT_CTRL_UPDATE 0).setEvt R.ACT_EVT_UPDATE_DONE with act := { s.act with held := [] } } : State) =
      (s.wr R.ACT_CTRL_UPDATE 0).setEvt R.ACT_EVT_UPDATE_DONE := by
    rw [show ({ s.act with held := [] } : Act) = s.act by rw [← hheld]]
    rfl
  unfold State.updateEnd
  simp only [State.emptyEntries_congr hkeeps, hempty, List.foldl_nil, show ((s.wr R.ACT_CTRL_UPDATE 0).setEvt R.ACT_EVT_UPDATE_DONE).act = s.act from rfl, hheld]
  exact (congrArg State.pump hsame).trans (State.pump_of_calm hcalm)

/-- What an event shows. -/
theorem State.sawEvent_setEvt (s : State) {f : Fld} (b : Nat) (h : f.key ≠ f.seq.key) : s.sawEvent (s.setEvt f b) f b :=
  ⟨(State.rd_wr_other (s.wr f _) _ h).trans (State.rd_wr_same ..), State.rd_wr_same (s.wr f _) f.seq _⟩

/-- Settles O26: each row is a write of ACT_CTRL that met no obstacle. -/
theorem tableUpdates : Obligations.TableUpdates := by
  unfold Obligations.TableUpdates
  intro s who complement v hpass
  have hgate : s.writeGuarded who 0x80000 complement.toNat State.actCtrl = (s.dropGuard 0x80000).actCtrl v := State.writeGuarded_of_passes hpass _
  have hbits {r : Nat} (hv : v % 4 = r) : v.testBit 0 = r.testBit 0 ∧ v.testBit 1 = r.testBit 1 := by
    rw [← hv, show 4 = 2 ^ 2 from rfl, Nat.testBit_mod_two_pow, Nat.testBit_mod_two_pow]
    simp
  refine ⟨fun hv hlock => ?_, fun hv hlock => ?_, fun hv hup hheld hcalm hempty => ?_, fun hv hup => ?_⟩
  · have hdo : (s.dropGuard 0x80000).actCtrl v = (s.dropGuard 0x80000).wr R.ACT_CTRL_UPDATE 1 := by
      unfold State.actCtrl
      rw [(hbits hv).1, (hbits hv).2, show (s.dropGuard 0x80000).flag R.ACT_CTRL_LOCK = false from s.flag_eq_false hlock]
      rfl
    exact ⟨_, congrArg Host.Outcome.next (hgate.trans hdo), State.rd_wr_same .., State.keepsRegs_wr _ _ (List.mem_singleton.mpr rfl), rfl, rfl⟩
  · have hdo : (s.dropGuard 0x80000).actCtrl v = s.dropGuard 0x80000 := by
      unfold State.actCtrl
      rw [(hbits hv).1, (hbits hv).2, show (s.dropGuard 0x80000).flag R.ACT_CTRL_LOCK = true from s.flag_eq_true hlock]
      rfl
    exact ⟨_, congrArg Host.Outcome.next (hgate.trans hdo), rfl, rfl⟩
  · have hdo : (s.dropGuard 0x80000).actCtrl v = ((s.dropGuard 0x80000).wr R.ACT_CTRL_UPDATE 0).setEvt R.ACT_EVT_UPDATE_DONE := by
      rw [← State.updateEnd_of_calm (s := s.dropGuard 0x80000) hheld hcalm hempty]
      unfold State.actCtrl
      rw [(hbits hv).1, (hbits hv).2]
      exact if_pos (s.flag_eq_true hup)
    refine ⟨_, congrArg Host.Outcome.next (hgate.trans hdo), ?_, ?_, hheld, rfl, ?_⟩
    · rw [State.rd_setEvt_other _ _ (by decide) (by decide), State.rd_wr_same]
      rfl
    · have hevt := State.sawEvent_setEvt ((s.dropGuard 0x80000).wr R.ACT_CTRL_UPDATE 0) (f := R.ACT_EVT_UPDATE_DONE) 0 (by decide)
      unfold State.sawEvent at hevt ⊢
      rwa [State.rd_wr_other _ _ (by decide), State.rd_wr_other _ _ (by decide)] at hevt
    · exact (State.keepsRegs_wr (s.dropGuard 0x80000) _ (by decide)).trans (State.keepsRegs_setEvt _ 0 (by decide) (by decide)) (List.Subset.refl _)
  · have hdo : (s.dropGuard 0x80000).actCtrl v = (s.dropGuard 0x80000).wr R.ACT_CTRL_LOCK 1 := by
      unfold State.actCtrl
      have hflag : ((s.dropGuard 0x80000).wr R.ACT_CTRL_LOCK 1).flag R.ACT_CTRL_UPDATE = false :=
        State.flag_eq_false _ ((State.rd_wr_other _ _ (by decide)).trans hup)
      rw [(hbits hv).1, (hbits hv).2]
      exact if_neg (ne_true_of_eq_false hflag)
    exact ⟨_, congrArg Host.Outcome.next (hgate.trans hdo), State.rd_wr_same .., State.keepsRegs_wr _ _ (List.mem_singleton.mpr rfl), rfl⟩

end Sys2Proof.Machine
end

section
/-! Single bits of a register field. -/

namespace Sys2Proof.Machine

theorem testBit_bitSet (v i j : Nat) : (bitSet v i).testBit j = (decide (i = j) || v.testBit j) := by
  unfold bitSet
  split
  next hset =>
    by_cases h : i = j
    · simp [← h, hset]
    · simp [h]
  next hset =>
    have hlow : v % 2 ^ (i + 1) < 2 ^ i := by
      rw [Nat.testBit_eq_decide_div_mod_eq] at hset
      have hdiv := Nat.mod_mul (x := v) (a := 2 ^ i) (b := 2)
      have hpos := Nat.mod_lt v (Nat.two_pow_pos i)
      have hzero : v / 2 ^ i % 2 = 0 := by simpa using hset
      rw [Nat.pow_succ, hdiv, hzero]
      simpa using hpos
    have hsplit := (Nat.div_add_mod v (2 ^ (i + 1))).symm
    have hsum : 2 ^ i + v % 2 ^ (i + 1) < 2 ^ (i + 1) := lt_of_lt_of_eq (Nat.add_lt_add_left hlow _) (by rw [Nat.pow_succ, Nat.mul_two])
    have hv := Nat.testBit_two_pow_mul_add (v / 2 ^ (i + 1)) (Nat.mod_lt v (Nat.two_pow_pos (i + 1))) j
    rw [← hsplit] at hv
    have hu := Nat.testBit_two_pow_mul_add (v / 2 ^ (i + 1)) hsum j
    rw [show 2 ^ (i + 1) * (v / 2 ^ (i + 1)) + (2 ^ i + v % 2 ^ (i + 1)) = v + 2 ^ i by omega] at hu
    rw [hu, hv]
    obtain hlt | rfl | hgt := Nat.lt_trichotomy j i
    · rw [if_pos (by omega), if_pos (by omega), Nat.testBit_two_pow_add_gt hlt, decide_eq_false (by omega), Bool.false_or]
    · rw [if_pos (by omega), if_pos (by omega), Nat.testBit_two_pow_add_eq, Nat.testBit_lt_two_pow hlow]
      simp
    · rw [if_neg (by omega), if_neg (by omega), decide_eq_false (by omega), Bool.false_or]

theorem testBit_bitClear (v i j : Nat) : (bitClear v i).testBit j = (!decide (i = j) && v.testBit j) := by
  unfold bitClear
  split
  next hset =>
    have hge : 2 ^ i ≤ v := Nat.ge_two_pow_of_testBit hset
    obtain ⟨u, rfl⟩ := Nat.exists_eq_add_of_le hge
    rw [Nat.testBit_two_pow_add_eq] at hset
    have hu : u.testBit i = false := by simpa using hset
    have hboth := testBit_bitSet u i j
    rw [bitSet, if_neg (by simp [hu]), Nat.add_comm] at hboth
    rw [hboth, Nat.add_sub_cancel_left]
    by_cases h : i = j
    · simp [← h, hu]
    · simp [h]
  next hset =>
    by_cases h : i = j
    · simp [← h, hset]
    · simp [h]

/-- The bit of an event that is set. -/
theorem State.testBit_setEvt (s : State) {f : Fld} {b : Nat} (hb : b < f.width) (h : f.key ≠ f.seq.key) : ((s.setEvt f b).rd f).testBit b = true := by
  rw [(s.sawEvent_setEvt b h).1, Nat.testBit_mod_two_pow, testBit_bitSet]
  simp [hb]

end Sys2Proof.Machine
end

section
/-! The wide-value mailbox (chapter 05) and the start of a normal pair (chapter 08). -/

namespace Sys2Proof.Machine

/-- The words of a wide value go to the data words of their bank alone. -/
theorem putWide_rest (b v n : Nat) (s : State) : ({ putWide b v n s with regs := s.regs } : State) = s := by
  induction n with
  | zero => rfl
  | succ n ih => exact ih

theorem rd_putWide_other (b v n : Nat) (s : State) {f : Fld} (h : ∀ k, k < n → f.key ≠ ((R.GLB_WIDE_DATA_DATA.ix k).inst b).key) :
    (putWide b v n s).rd f = s.rd f := by
  induction n with
  | zero => rfl
  | succ n ih => exact (State.rd_wr_other _ _ (h n n.lt_succ_self)).trans (ih fun k hk => h k (hk.trans n.lt_succ_self))

theorem wideData_key_ne (b : Nat) {j k : Nat} (h : j ≠ k) :
    ((R.GLB_WIDE_DATA_DATA.ix j).inst b).key ≠ ((R.GLB_WIDE_DATA_DATA.ix k).inst b).key := by
  simp only [Fld.key, Fld.inst, Fld.ix, R.GLB_WIDE_DATA_DATA]
  omega

theorem rd_putWide (b v : Nat) {n k : Nat} (hk : k < n) (s : State) :
    (putWide b v n s).rd ((R.GLB_WIDE_DATA_DATA.ix k).inst b) = v / 2 ^ (32 * k) % 2 ^ 32 := by
  induction n with
  | zero => cases hk
  | succ n ih =>
    show ((putWide b v n s).wr _ _).rd _ = _
    obtain rfl | hlt := Nat.eq_or_lt_of_le (Nat.le_of_lt_succ hk)
    · exact State.rd_wr_same ..
    · rw [State.rd_wr_other _ _ (wideData_key_ne b (Nat.ne_of_lt hlt)), ih hlt]

/-- Settles O25: the request, and the snapshot that answers it. -/
theorem wideValues : Obligations.WideValues := by
  unfold Obligations.WideValues
  intro s
  have hne (b : Nat) {f g : Fld} (hf : f.lsb < 64) (hg : g.lsb < 64) (h : f.lsb ≠ g.lsb) : (f.inst b).key ≠ (g.inst b).key :=
    Fld.key_ne_of_lsb hf hg h
  refine ⟨?_, ?_⟩
  · intro who v hpass b
    refine ⟨s.wideSel who b v.toNat, congrArg Host.Outcome.next (State.gated_of_passes hpass _ _), ?_, ?_, ?_, rfl⟩
    · simp only [State.wideSel, State.rd_with, State.rd_wr_same, Nat.zero_mod]
    · simp only [State.wideSel, State.rd_with, State.rd_wr_other _ 0 (hne b (f := R.GLB_WIDE_SEL_OFFSET) (g := R.GLB_WIDE_VALID_VALID) (by decide) (by decide) (by decide)),
        State.rd_wr_same]
      exact Nat.mod_mod _ _
    · simp only [State.wideSel, tblGet_put_same]
  · intro bank who b hreq hheld hsel got
    let s1 := (((putWide b (got.getD 0) 8 s).wr (R.GLB_WIDE_VALID_VALID.inst b) 1).wr (R.GLB_WIDE_VALID_ERR.inst b) got.isNone.toNat).wr
      (R.GLB_WIDE_VALID_OFFSET.inst b) (s.rd (R.GLB_WIDE_SEL_OFFSET.inst b))
    have hexec : exec (.wideSnapshotDone bank) s = .next { s1 with bus := { s1.bus with wideReq := tblPut none s1.bus.wideReq b none } } := by
      show execWideSnapshotDone bank s = _
      unfold execWideSnapshotDone
      dsimp only
      rw [show tblGet none s.bus.wideReq bank.val = some who from hreq]
      exact if_neg (ne_true_of_eq_false hheld)
    refine ⟨_, hexec, ?_, ?_, fun k hk => ?_, tblGet_put_same none s1.bus.wideReq b none, (congrArg State.mem (putWide_rest b (got.getD 0) 8 s) :)⟩
    · rw [State.rd_with, State.rd_wr_other _ _ (hne b (by decide) (by decide) (by decide)),
        State.rd_wr_other _ _ (hne b (by decide) (by decide) (by decide)), State.rd_wr_same]
      rfl
    · rw [State.rd_with, State.rd_wr_other _ _ (hne b (by decide) (by decide) (by decide)), State.rd_wr_same]
      cases got <;> rfl
    · have hdata {f : Fld} (hoff : f.off = 0x104 ∧ f.lsb < 64) : ((R.GLB_WIDE_DATA_DATA.ix k).inst b).key ≠ (f.inst b).key := by
        simp only [Fld.key, Fld.inst, Fld.ix, R.GLB_WIDE_DATA_DATA, hoff.1]
        omega
      rw [State.rd_with, State.rd_wr_other _ _ (hdata (by decide)), State.rd_wr_other _ _ (hdata (by decide)), State.rd_wr_other _ _ (hdata (by decide))]
      exact rd_putWide b _ hk s

/-- A normal pair that has begun its firmware as it starts. -/
def State.freshPair (s : State) (p entry : Nat) : Prop :=
  (s.core p).run = .running ∧ (s.core p).level = .k ∧ (s.core p).pc = BitVec.ofNat 64 entry ∧ (∀ g : Reg, s.gr p g = 0) ∧
    (s.core p).icache = [] ∧ (s.core p).dcache = [] ∧ (s.core p).resv = none

theorem State.freshPair_congr {s t : State} {p entry : Nat} (h : t.core p = s.core p) (hs : s.freshPair p entry) : t.freshPair p entry := by
  unfold State.freshPair at hs ⊢
  simpa only [State.gr, h] using hs

theorem State.freshPair_startNormal (s : State) (p entry : Nat) : (s.startNormal p entry).freshPair p entry := by
  have hcore : (s.startNormal p entry).core p = { freshCore ((s.dropCaches p).core p) .k entry with nstarted := true } := State.core_setCore_same ..
  unfold State.freshPair
  simp only [State.gr, hcore]
  exact ⟨rfl, rfl, rfl, fun g => ite_self _, rfl, rfl, rfl⟩

theorem State.startNormal_boot (s : State) (p entry : Nat) : (s.startNormal p entry).boot = s.boot := by
  unfold State.startNormal
  exact State.dropCaches_keepsBoot rfl

/-- Settles O21: both requests come to the same start. -/
theorem pairStarts : Obligations.PairStarts := by
  unfold Obligations.PairStarts
  intro s who p entry hp hentry hdom fresh
  refine ⟨fun v hv hpass hrun hnst => ?_, fun v complement hv hpass hnst hrun => ?_⟩
  · have hdo : s.nstart v.toNat = (s.wr R.CCS_NSTART_START (bits v.toNat 2 2)).startNormal p entry := by
      have hans : (s.wr R.CCS_NSTART_START (bits v.toNat 2 2)).domAnswers (30 + p) = true := by
        unfold State.domAnswers
        rw [State.rd_wr_other _ _ (by obtain rfl | rfl := hp <;> decide), hdom]
        rfl
      have hrelease : (s.wr R.CCS_NSTART_START (bits v.toNat 2 2)).release p entry = (s.wr R.CCS_NSTART_START (bits v.toNat 2 2)).startNormal p entry :=
        (if_neg (by rw [show (s.wr R.CCS_NSTART_START (bits v.toNat 2 2)).core p = s.core p from rfl, hrun, hnst]; decide)).trans (if_pos hans)
      have hval (q : Nat) : v.toNat.testBit q = decide (p = q) := by rw [hv, Nat.testBit_two_pow]
      have hboot : (s.wr R.CCS_NSTART_START (bits v.toNat 2 2)).boot.normalEntry = some entry := hentry
      unfold State.nstart
      obtain rfl | rfl := hp <;> simp [hval, hrelease, State.startNormal_boot, hentry]
    exact ⟨_, congrArg Host.Outcome.next ((State.gated_of_passes hpass _ _).trans hdo), State.freshPair_startNormal ..⟩
  · let s0 := (s.dropGuard 0x140018).wr R.CCS_NRESET_PAIR (bits v 2 2)
    have hdo : (s.dropGuard 0x140018).nreset v = (s0.startNormal p entry).setEvt R.CCS_EVT_NRESET_DONE p := by
      have hval (q : Nat) : v.testBit q = decide (p = q) := by rw [hv, Nat.testBit_two_pow]
      have hboot : s0.boot.normalEntry = some entry := hentry
      have hdomain : s0.rd (domState (30 + p)) = 0 := (State.rd_wr_other _ _ (by obtain rfl | rfl := hp <;> decide)).trans hdom
      have hcore : s0.core p = s.core p := rfl
      unfold State.nreset
      show _ = (s0.startNormal p entry).setEvt R.CCS_EVT_NRESET_DONE p
      change List.foldl _ s0 [2, 3] = _
      obtain rfl | rfl := hp <;> simp [hboot, hval, hdomain, hcore, hnst, hrun, State.startNormal_boot, State.setEvt_boot]
    refine ⟨_, congrArg Host.Outcome.next ((State.writeGuarded_of_passes hpass _).trans hdo), State.freshPair_congr rfl (s0.freshPair_startNormal p entry),
      State.testBit_setEvt _ (by obtain rfl | rfl := hp <;> decide) (by decide)⟩

end Sys2Proof.Machine
end

section
/-! Frames of the Soade link (chapter 21). -/

namespace Sys2Proof.Machine

/-- Whatever ended the session, it is neither authenticated nor keyed. -/
theorem State.peerGone_ends (s : State) (lost : Bool) : (s.peerGone lost).twn.authed = false ∧ (s.peerGone lost).twn.keyed = false := by
  have hkeep {t u : State} (h : u.twn = t.twn) (ht : t.twn.authed = false ∧ t.twn.keyed = false) : u.twn.authed = false ∧ u.twn.keyed = false := by
    rwa [h]
  unfold State.peerGone
  extract_lets s1 was old s2 s3
  have h3 : s3.twn.authed = false ∧ s3.twn.keyed = false := hkeep (State.setStatus_keepsTwn (s := s2) rfl) ⟨rfl, rfl⟩
  split
  · split
    · exact hkeep (State.setEvt_keepsTwn (State.wr_keepsTwn (s := s3) rfl)) h3
    · exact hkeep (State.setEvt_keepsTwn (State.wr_keepsTwn (s := s3) rfl)) h3
  · split
    · exact hkeep (State.wr_keepsTwn (s := s3) rfl) h3
    · exact h3

/-- A frame that is heard. -/
theorem State.recvFrame_of_up {s : State} {h : FrameHdr} (hup : s.twn.linkUp = true) (tagged : Bool) (f : State → State) :
    s.recvFrame h tagged f =
      if h.lcrcOk = false then .next { s with twn := { s.twn with nak := true } }
      else if (tagged && !h.tagOk) = true then .next s.twinAuthFail
      else if h.seq = (s.takeAck h).twn.recvSeq then .next (f { s.takeAck h with twn := { (s.takeAck h).twn with recvSeq := (s.takeAck h).twn.recvSeq + 1 } })
      else if (tagged && decide (h.seq < (s.takeAck h).twn.recvSeq)) = true then .next (s.takeAck h).twinAuthFail
      else .next { s.takeAck h with twn := { (s.takeAck h).twn with nak := true } } := by
  unfold State.recvFrame
  simp [hup]

/-- An acknowledgement without a demand for a replay touches the session's buffer of frames alone. -/
theorem State.takeAck_of_noNak (s : State) {h : FrameHdr} (hnak : h.nak = false) :
    (s.takeAck h).twn.recvSeq = s.twn.recvSeq ∧ { s.takeAck h with twn := s.twn } = s := by
  unfold State.takeAck
  simp only [hnak, Bool.false_eq_true, if_false, and_self]

/-- A frame in order is taken. -/
theorem State.recvFrame_of_inOrder {s : State} {h : FrameHdr} (hin : s.inOrder h) (tagged : Bool) (f : State → State) :
    s.recvFrame h tagged f = .next (f (s.received h)) := by
  obtain ⟨hup, hlcrc, htag, hseq, hnak⟩ := hin
  rw [State.recvFrame_of_up hup, if_neg (by simp [hlcrc]), if_neg (by simp [htag]), if_pos (hseq.trans (s.takeAck_of_noNak hnak).1.symm)]
  rfl

/-- Settles O53: the four ways a frame can arrive. -/
theorem frameChecks : Obligations.FrameChecks := by
  unfold Obligations.FrameChecks
  intro s h cseq hup
  have hexec : exec (.heartbeat h cseq) s = s.recvFrame h true fun s => s := rfl
  refine ⟨fun hlcrc => ?_, fun hin => ?_, fun hlcrc htag hnak hahead => ?_, fun hlcrc htag => ?_⟩
  · exact ⟨_, hexec.trans ((State.recvFrame_of_up hup ..).trans (if_pos hlcrc)), rfl, rfl, rfl⟩
  · have hack := s.takeAck_of_noNak hin.2.2.2.2
    exact ⟨hexec.trans (State.recvFrame_of_inOrder hin ..), (congrArg (· + 1) hack.1 :), hack.2⟩
  · have hack := s.takeAck_of_noNak hnak
    have hstep : s.recvFrame h true (fun s => s) = .next { s.takeAck h with twn := { (s.takeAck h).twn with nak := true } } := by
      rw [State.recvFrame_of_up hup, if_neg (by simp [hlcrc]), if_neg (by simp [htag]), if_neg (by omega), if_neg (by simp; omega)]
    exact ⟨_, hexec.trans hstep, rfl, hack.1, hack.2⟩
  · refine ⟨s.twinAuthFail, hexec.trans ((State.recvFrame_of_up hup ..).trans ?_), State.peerGone_ends _ true⟩
    rw [if_neg (by simp [hlcrc]), if_pos (by simp [htag])]

end Sys2Proof.Machine
end

section
/-! Status bits that make an event (R39), and single words of bytes. -/

namespace Sys2Proof.Machine

/-- The event of a status bit, in every bank. -/
def statusFields : List Fld :=
  [R.GLB_EVT_STATUS.inst 0, (R.GLB_EVT_STATUS.inst 0).seq, R.GLB_EVT_STATUS.inst 1, (R.GLB_EVT_STATUS.inst 1).seq,
    R.GLB_EVT_STATUS.inst 2, (R.GLB_EVT_STATUS.inst 2).seq, R.GLB_EVT_STATUS.inst 3, (R.GLB_EVT_STATUS.inst 3).seq]

theorem State.setEvtAll_keepsRegs (s : State) : s.keepsRegs (s.setEvtAll R.GLB_EVT_STATUS) statusFields :=
  (((s.keepsRegs_setEvt 0 (by decide) (by decide)).trans (State.keepsRegs_setEvt _ 0 (by decide) (by decide)) (List.Subset.refl _)).trans
    (State.keepsRegs_setEvt _ 0 (by decide) (by decide)) (List.Subset.refl _)).trans (State.keepsRegs_setEvt _ 0 (by decide) (by decide)) (List.Subset.refl _)

theorem State.rd_setStatus_other (s : State) {f g : Fld} (v : Nat) (h : g.key ≠ f.key) (hg : g.key ∉ statusFields.map Fld.key) :
    (s.setStatus f v).rd g = s.rd g := by
  unfold State.setStatus
  split
  · rfl
  · exact ((s.wr f v).setEvtAll_keepsRegs g hg).trans (State.rd_wr_other _ _ h)

theorem State.rd_setStatus_same (s : State) {f : Fld} (v : Nat) (hf : f.key ∉ statusFields.map Fld.key) : (s.setStatus f v).rd f = v % 2 ^ f.width := by
  unfold State.setStatus
  split
  next h => exact h
  next => exact ((s.wr f v).setEvtAll_keepsRegs f hf).trans (State.rd_wr_same ..)

/-- A status bit that changes sets its event in every bank. -/
theorem State.rd_setStatus_evt (s : State) {f : Fld} {v : Nat} (h : s.rd f ≠ v % 2 ^ f.width) {k : Nat} (hk : k < 4) :
    (s.setStatus f v).rd (R.GLB_EVT_STATUS.inst k) = 1 := by
  unfold State.setStatus State.setEvtAll
  rw [if_neg h]
  match k, hk with
  | 0, _ | 1, _ | 2, _ | 3, _ =>
    simp (disch := decide) only [State.rd_setEvt_other, State.rd_setEvt_same]

theorem leNat_lt (l : List Byte) : leNat l < 256 ^ l.length := by
  induction l with
  | nil => exact Nat.one_pos
  | cons b t ih =>
    have hb := b.isLt
    rw [leNat, List.length_cons, Nat.pow_succ]
    omega

theorem leAt_word_lt (l : List Byte) (off : Nat) : leAt l off 4 < 2 ^ 32 := by
  refine lt_of_lt_of_le (leNat_lt _) ?_
  calc 256 ^ (slice l off 4).length ≤ 256 ^ 4 := Nat.pow_le_pow_right (by decide) (by simp [slice])
    _ = 2 ^ 32 := rfl

end Sys2Proof.Machine
end

section
/-! The end of a start, and the flash pass-through (chapter 04). -/

namespace Sys2Proof.Machine

/-- The words of the pass-through's buffer, and nothing else. -/
theorem putPtBuf_rest (l : List Byte) (n : Nat) (s : State) : ({ putPtBuf l n s with regs := s.regs } : State) = s := by
  induction n with
  | zero => rfl
  | succ n ih => exact ih

theorem rd_putPtBuf_other (l : List Byte) {n : Nat} (s : State) {f : Fld} (h : ∀ k, k < n → f.key ≠ (R.BOOT_PT_BUF_DATA.ix k).key) :
    (putPtBuf l n s).rd f = s.rd f := by
  induction n with
  | zero => rfl
  | succ n ih => exact (State.rd_wr_other _ _ (h n n.lt_succ_self)).trans (ih fun k hk => h k (hk.trans n.lt_succ_self))

theorem rd_putPtBuf (l : List Byte) {n k : Nat} (hk : k < n) (s : State) : (putPtBuf l n s).rd (R.BOOT_PT_BUF_DATA.ix k) = leAt l (4 * k) 4 := by
  induction n with
  | zero => cases hk
  | succ n ih =>
    show ((putPtBuf l n s).wr _ _).rd _ = _
    obtain rfl | hlt := Nat.eq_or_lt_of_le (Nat.le_of_lt_succ hk)
    · exact (State.rd_wr_same ..).trans (Nat.mod_eq_of_lt (leAt_word_lt ..))
    · rw [State.rd_wr_other _ _ ?_, ih hlt]
      simp only [Fld.key, Fld.ix, R.BOOT_PT_BUF_DATA]
      omega

theorem State.ptBuf_congr {s t : State} (h : ∀ k, k < 64 → t.rd (R.BOOT_PT_BUF_DATA.ix k) = s.rd (R.BOOT_PT_BUF_DATA.ix k)) : t.ptBuf = s.ptBuf := by
  unfold State.ptBuf
  rw [List.flatMap_def, List.flatMap_def, List.map_congr_left fun k hk => congrArg (leBytes 4) (h k (List.mem_range.mp hk))]

/-- READY and what rises with it. -/
theorem State.readyUp_shown (s : State) (h : s.rd R.GLB_STATUS_READY = 0) :
    s.readyUp.rd R.GLB_STATUS_READY = 1 ∧ s.readyUp.rd R.BOOT_STATUS_STAGE = 7 ∧ s.readyUp.boot.cfgOpen = true ∧ s.readyUp.mem = s.mem ∧
      ∀ k, k < 4 → s.readyUp.rd (R.GLB_EVT_STATUS.inst k) = 1 := by
  have hcore {t : State} (hready : t.rd R.GLB_STATUS_READY = 0) (hstage : t.rd R.BOOT_STATUS_STAGE = 7) (hmem : t.mem = s.mem) :
      let u := ({ t with boot := { t.boot with cfgOpen := true, snoopTile := none } } : State).setStatus R.GLB_STATUS_READY 1
      u.rd R.GLB_STATUS_READY = 1 ∧ u.rd R.BOOT_STATUS_STAGE = 7 ∧ u.boot.cfgOpen = true ∧ u.mem = s.mem ∧ ∀ k, k < 4 → u.rd (R.GLB_EVT_STATUS.inst k) = 1 := by
    refine ⟨State.rd_setStatus_same _ _ (by decide), (State.rd_setStatus_other _ _ (by decide) (by decide)).trans hstage, ?_, ?_, ?_⟩
    · exact congrArg Boot.cfgOpen (State.setStatus_keepsBoot rfl)
    · exact State.setStatus_keepsMem hmem
    · exact fun k hk => State.rd_setStatus_evt _ (by rw [State.rd_with, hready]; decide) hk
  have htile (t : Nat) {f : Fld} (hf : f.off < 0xE0000 ∧ f.bank = 0 ∧ f.lsb < 64) : f.key ≠ (R.HSH_TILE_STATE.ix t).key := by
    simp only [Fld.key, Fld.ix, R.HSH_TILE_STATE, hf.2.1]
    omega
  unfold State.readyUp
  extract_lets s1 s2
  have h1 : s1.rd R.GLB_STATUS_READY = 0 ∧ s1.rd R.BOOT_STATUS_STAGE = 7 := by
    simp (disch := decide) only [s1, State.rd_wr_other, State.rd_wr_same, h]
    exact ⟨trivial, rfl⟩
  have h2 : s2.rd R.GLB_STATUS_READY = 0 ∧ s2.rd R.BOOT_STATUS_STAGE = 7 ∧ s2.mem = s.mem := by
    unfold s2
    split
    next t _ =>
      split
      · exact ⟨(State.rd_wr_other _ _ (htile t (by decide))).trans h1.1, (State.rd_wr_other _ _ (htile t (by decide))).trans h1.2, rfl⟩
      · exact ⟨h1.1, h1.2, rfl⟩
    next => exact ⟨h1.1, h1.2, rfl⟩
  exact hcore h2.1 h2.2.1 h2.2.2

/-- What the recovery state shows. -/
theorem State.enterRecovery_shown (s : State) {cause : Nat} (h : cause < 2 ^ R.BOOT_STATUS_RECOVERY_CAUSE.width) : let t := s.enterRecovery cause
    t.rd R.GLB_STATUS_RECOVERY = 1 ∧ t.rd R.BOOT_STATUS_STAGE = 8 ∧ t.rd R.BOOT_STATUS_RECOVERY_CAUSE = cause ∧ t.cfg.sideband = false := by
  unfold State.enterRecovery
  refine ⟨State.rd_setStatus_same _ _ (by decide), ?_, ?_, congrArg Cfg.sideband (State.setStatus_keepsCfg rfl)⟩
  · simp (disch := decide) only [State.rd_setStatus_other, State.rd_with, State.rd_wr_other, State.rd_wr_same]
    rfl
  · simp (disch := decide) only [State.rd_setStatus_other, State.rd_with, State.rd_wr_other, State.rd_wr_same]
    exact Nat.mod_eq_of_lt h

/-- A command of the pass-through that starts. -/
theorem State.ptGo_started (s : State) {p : Nat} {l : Level} {val : Nat} (hgo : val.testBit 0 = true) (hready : s.rd R.GLB_STATUS_READY = 1)
    (hdom : s.domAnswers 26 = true) (hbusy : s.rd R.BOOT_PT_STAT_BUSY = 0) (hlen : s.rd R.BOOT_PT_CMD_LEN ≤ 256) :
    let c := if s.rd R.BOOT_STATUS_XSPI_SINGLE = 0 then s.rd R.BOOT_PT_CMD_CMD else s.rd R.BOOT_PT_CMD_CMD % 256
    let a := if s.rd R.BOOT_PT_CMD_ADDR_EN = 0 then 0 else s.rd R.BOOT_PT_ADDR_ADDR
    let t := (s.wr R.BOOT_PT_STAT_BUSY 1).wr R.BOOT_PT_STAT_RESULT 0
    s.ptGo (.core p .secure l) val =
      ({ t with boot := { t.boot with ptCmd := some (c, a, s.rd R.BOOT_PT_CMD_LEN, s.flag R.BOOT_PT_CMD_DIR) } } : State).emit
        (.flash c a (s.rd R.BOOT_PT_CMD_LEN) (decide (s.rd R.BOOT_PT_CMD_DIR = 0)) (s.rd R.BOOT_PT_CMD_ADDR_EN) (s.rd R.BOOT_PT_CMD_DUMMY)
          (if s.rd R.BOOT_PT_CMD_DIR = 0 then s.ptBuf.take (s.rd R.BOOT_PT_CMD_LEN) else [])) := by
  have hbuf {t u : State} {f : Fld} {v : Nat} (hf : f.off < 0x20100 ∧ f.lsb < 64 ∧ f.bank = 0) (h : u.ptBuf = t.ptBuf) : (u.wr f v).ptBuf = t.ptBuf := by
    refine (State.ptBuf_congr fun k _ => State.rd_wr_other _ _ ?_).trans h
    simp only [Fld.key, Fld.ix, R.BOOT_PT_BUF_DATA, hf.2.2]
    omega
  have hbuf2 : ((s.wr R.BOOT_PT_STAT_BUSY 1).wr R.BOOT_PT_STAT_RESULT 0).ptBuf = s.ptBuf := hbuf (by decide) (hbuf (by decide) rfl)
  unfold State.ptGo
  refine (if_neg (by simp [isSecure, State.flag, hready, hdom])).trans ((if_neg (by simp [hgo, State.flag, hbusy])).trans ((if_neg (by omega)).trans ?_))
  have hdec (n : Nat) : decide (n = 0) = !(n != 0) := by cases n <;> rfl
  simp (disch := decide) only [State.flag, State.rd_wr_other, hbuf2, hdec]
  by_cases h1 : s.rd R.BOOT_STATUS_XSPI_SINGLE = 0 <;> by_cases h2 : s.rd R.BOOT_PT_CMD_ADDR_EN = 0 <;> by_cases h3 : s.rd R.BOOT_PT_CMD_DIR = 0 <;>
    simp [h1, h2, h3]

/-- Settles O33, row by row. -/
theorem startRows : Obligations.StartRows := by
  unfold Obligations.StartRows
  intro s
  refine ⟨?_, ?_, ?_, ?_, ?_, ?_, ?_⟩
  · intro who v hpass hset
    exact ⟨_, congrArg Host.Outcome.next ((State.gated_of_passes hpass _ _).trans (if_pos hset)), State.rd_wr_same .., rfl, State.keepsRegs_wr _ _ (by decide)⟩
  · intro hkat hfw h12 hready
    refine ⟨s.readyUp, ?_, s.readyUp_shown hready⟩
    exact if_pos (by simp [hkat, h12, State.flag, hfw, hready])
  · intro halive hready hlimit
    exact ⟨_, (if_pos (by simp [halive, hlimit, State.flag, hready]) : execReadyTimeout s = _), rfl, rfl, rfl⟩
  · intro halive hkeys hent
    refine ⟨_, (if_pos (by simp [halive, hkeys, State.flag, hent]) : execEntropyStartTimeout s = _), fun hrec => ?_⟩
    rw [if_neg (by simp [State.recovery, State.flag, hrec])]
    exact State.enterRecovery_shown _ (by decide)
  · intro p l v who hpass hgo hready hdom hbusy hlen
    refine ⟨_, congrArg Host.Outcome.next ((State.gated_of_passes hpass _ _).trans (s.ptGo_started hgo hready hdom hbusy hlen)), ?_, ?_, rfl, ?_⟩
    · simp (disch := decide) only [State.emit, State.rd_with, State.rd_wr_other, State.rd_wr_same]
      rfl
    · simp only [State.emit, State.rd_with, State.rd_wr_same]
      rfl
    · rfl
  · intro result data cmd addr len dir hres hcmd
    have hbuf {k : Nat} {f : Fld} (hf : f.off < 0x20100 ∧ f.lsb < 64 ∧ f.bank = 0) : (R.BOOT_PT_BUF_DATA.ix k).key ≠ f.key := by
      simp only [Fld.key, Fld.ix, R.BOOT_PT_BUF_DATA, hf.2.2]
      omega
    let s1 := if dir ∧ result = 0 then putPtBuf (fit len data ++ s.ptBuf.drop len) 64 s else s
    let s2 := ({ s1 with boot := { s1.boot with ptCmd := none } } : State).wr R.BOOT_PT_STAT_BUSY 0 |>.wr R.BOOT_PT_STAT_RESULT result
    have hexec : exec (.ptCommandDone result data) s = .next (s2.setEvt (if result = 0 then R.BOOT_EVT_PT_DONE else R.BOOT_EVT_PT_ERROR)) := by
      show execPtCommandDone result data s = _
      unfold execPtCommandDone
      rw [hcmd]
      exact if_pos hres
    have hevt : (if result = 0 then R.BOOT_EVT_PT_DONE else R.BOOT_EVT_PT_ERROR) = R.BOOT_EVT_PT_DONE ∨
        (if result = 0 then R.BOOT_EVT_PT_DONE else R.BOOT_EVT_PT_ERROR) = R.BOOT_EVT_PT_ERROR := ite_eq_or_eq ..
    generalize (if result = 0 then R.BOOT_EVT_PT_DONE else R.BOOT_EVT_PT_ERROR) = e at hexec hevt ⊢
    have hother {f : Fld} (h : f.key ∉ [R.BOOT_EVT_PT_DONE, R.BOOT_EVT_PT_DONE.seq, R.BOOT_EVT_PT_ERROR, R.BOOT_EVT_PT_ERROR.seq].map Fld.key) :
        (s2.setEvt e).rd f = s2.rd f := by
      simp only [List.map_cons, List.map_nil, List.mem_cons, List.not_mem_nil, or_false, not_or] at h
      obtain ⟨h1, h2, h3, h4⟩ := h
      obtain rfl | rfl := hevt
      · exact State.rd_setEvt_other _ _ h1 h2
      · exact State.rd_setEvt_other _ _ h3 h4
    refine ⟨_, hexec, ?_, ?_, rfl, ?_, fun k hk => ?_⟩
    · rw [hother (by decide), State.rd_wr_other _ _ (by decide), State.rd_wr_same]
      rfl
    · rw [hother (by decide), State.rd_wr_same]
      obtain ⟨rfl, -⟩ | rfl := hres <;> rfl
    · obtain rfl | rfl := hevt
      · exact State.rd_setEvt_same _ rfl (by decide)
      · exact State.rd_setEvt_same _ rfl (by decide)
    · have h1 : s1.rd (R.BOOT_PT_BUF_DATA.ix k) = if dir = true ∧ result = 0 then leAt (fit len data ++ s.ptBuf.drop len) (4 * k) 4
          else s.rd (R.BOOT_PT_BUF_DATA.ix k) := by
        unfold s1
        split
        · exact rd_putPtBuf _ hk s
        · rfl
      rw [hother ?_, State.rd_wr_other _ _ (hbuf (by decide)), State.rd_wr_other _ _ (hbuf (by decide)), State.rd_with, h1]
      simp only [List.map_cons, List.map_nil, List.mem_cons, List.not_mem_nil, or_false, not_or]
      exact ⟨hbuf (by decide), hbuf (by decide), hbuf (by decide), hbuf (by decide)⟩
  · intro hpulse
    exact ⟨_, (if_pos hpulse : execStatusCommandPulseEnd s = _), rfl, rfl⟩

end Sys2Proof.Machine
end

section
/-! Alarms of a response code below 2 (chapter 19): they are shown and recorded, and nothing else changes. -/

namespace Sys2Proof.Machine

/-- The state but for its register file, its event recorder and the bookkeeping of alarms. -/
def State.unalarmed (s : State) : State := { s.unrecorded with tmp := { s.unrecorded.tmp with inForce := none, notify := 0 } }

theorem State.unalarmed_of_unrecorded {s t : State} (h : t.unrecorded = s.unrecorded) : t.unalarmed = s.unalarmed := by
  simp only [State.unalarmed, h]

theorem State.wr_unalarmed (s : State) (f : Fld) (v : Nat) : (s.wr f v).unalarmed = s.unalarmed := State.unalarmed_of_unrecorded rfl

theorem State.setEvt_unalarmed (s : State) (f : Fld) (b : Nat) : (s.setEvt f b).unalarmed = s.unalarmed :=
  State.unalarmed_of_unrecorded (s := s) (t := s.setEvt f b) (by unfold State.setEvt; rfl)

theorem State.setStatus_unalarmed (s : State) (f : Fld) (v : Nat) : (s.setStatus f v).unalarmed = s.unalarmed := by
  unfold State.setStatus
  split
  · rfl
  · exact (State.setEvt_unalarmed ..).trans ((State.setEvt_unalarmed ..).trans ((State.setEvt_unalarmed ..).trans ((State.setEvt_unalarmed ..).trans
      (State.wr_unalarmed ..))))

/-- The register fields in which a response below 2 and its record show. -/
def responseFields : List Fld := [R.TMP_STATUS_RESPONSE, R.GLB_STATUS_ALARM, R.GLB_STATUS_RESPONSE] ++ statusFields ++ recordFields

/-- The register fields in which an alarm itself shows. -/
def sourceFields : List Fld :=
  [R.TMP_FLAGS_SRC, R.TMP_ACTED_SRC, R.TMP_AEVT0_SRC, R.TMP_AEVT0_SRC.seq, R.TMP_AEVT1_SRC, R.TMP_AEVT1_SRC.seq] ++
    (List.range 24).map R.TMP_FLAG_TIME_TICKS.ix

/-- The register fields of an alarm that is shown and recorded. -/
def alarmFields : List Fld := sourceFields ++ responseFields

theorem statusFields_subset : statusFields ⊆ responseFields := fun _ h => List.mem_append_left _ (List.mem_append_right _ h)

theorem recordFields_subset : recordFields ⊆ responseFields := fun _ h => List.mem_append_right _ h

theorem State.keepsRegs.mono {s t : State} {l m : List Fld} (h : s.keepsRegs t l) (hl : l ⊆ m) : s.keepsRegs t m := fun f hf =>
  h f fun hm => hf (List.map_subset _ hl hm)

theorem State.setStatus_keepsRegs (s : State) {f : Fld} (v : Nat) {l : List Fld} (hf : f.key ∈ l.map Fld.key) (hl : statusFields ⊆ l) :
    s.keepsRegs (s.setStatus f v) l := by
  unfold State.setStatus
  split
  · exact s.keepsRegs_refl l
  · exact (s.keepsRegs_wr _ hf).trans ((State.setEvtAll_keepsRegs _).mono hl) (List.Subset.refl _)

theorem sourceFields_flagTime {src : Nat} (h : src < 24) : (R.TMP_FLAG_TIME_TICKS.ix src).key ∈ sourceFields.map Fld.key :=
  List.mem_map_of_mem (List.mem_append_right _ (List.mem_map_of_mem (List.mem_range.mpr h)))

theorem alarmEvt_mem (src : Nat) : (alarmEvt src).1.key ∈ sourceFields.map Fld.key ∧ (alarmEvt src).1.seq.key ∈ sourceFields.map Fld.key := by
  unfold alarmEvt
  split
  · exact (by decide : R.TMP_AEVT0_SRC.key ∈ sourceFields.map Fld.key ∧ R.TMP_AEVT0_SRC.seq.key ∈ sourceFields.map Fld.key)
  · exact (by decide : R.TMP_AEVT1_SRC.key ∈ sourceFields.map Fld.key ∧ R.TMP_AEVT1_SRC.seq.key ∈ sourceFields.map Fld.key)

namespace State
variable (s : State)

theorem flagSource_unalarmed (acted : Bool) (src : Nat) : (s.flagSource acted src).unalarmed = s.unalarmed := by
  unfold State.flagSource
  extract_lets fl s1 s2 e
  have h1 : s1.unalarmed = s.unalarmed := by
    unfold s1
    split
    · rfl
    · exact (State.wr_unalarmed ..).trans (State.wr_unalarmed ..)
  exact (State.setEvt_unalarmed ..).trans ((State.wr_unalarmed ..).trans h1)

theorem flagSource_keepsRegs (acted : Bool) {src : Nat} (h : src < 24) : s.keepsRegs (s.flagSource acted src) sourceFields := by
  unfold State.flagSource
  extract_lets fl s1 s2 e
  have h1 : s.keepsRegs s1 sourceFields := by
    unfold s1
    split
    · exact s.keepsRegs_refl _
    · exact (s.keepsRegs_wr _ (by decide)).trans (State.keepsRegs_wr _ _ (sourceFields_flagTime h)) (List.Subset.refl _)
  exact (h1.trans (State.keepsRegs_wr _ _ (by decide)) (List.Subset.refl _)).trans
    (State.keepsRegs_setEvt _ _ (alarmEvt_mem src).1 (alarmEvt_mem src).2) (List.Subset.refl _)

theorem alarmLevel_unalarmed : s.alarmLevel.unalarmed = s.unalarmed := s.setStatus_unalarmed _ _

theorem alarmLevel_keepsRegs : s.keepsRegs s.alarmLevel responseFields := s.setStatus_keepsRegs _ (by decide) statusFields_subset

/-- A code below 2 raises the alarm level at most. -/
theorem respondAll_minor {lo n : Nat} (h : lo + n ≤ 2) : (s.respondAll lo n).unalarmed = s.unalarmed ∧ s.keepsRegs (s.respondAll lo n) responseFields := by
  induction n generalizing s lo with
  | zero => exact ⟨rfl, s.keepsRegs_refl _⟩
  | succ n ih =>
    have hone : (s.respond lo).unalarmed = s.unalarmed ∧ s.keepsRegs (s.respond lo) responseFields := by
      obtain rfl | rfl : lo = 0 ∨ lo = 1 := by omega
      · exact ⟨rfl, s.keepsRegs_refl _⟩
      · exact ⟨s.alarmLevel_unalarmed, s.alarmLevel_keepsRegs⟩
    obtain ⟨hun, hkeep⟩ := ih (s.respond lo) (lo := lo + 1) (by omega)
    exact ⟨hun.trans hone.1, hone.2.trans hkeep (List.Subset.refl _)⟩

theorem execCode_minor (srcs : Nat) {c : Nat} (hc : c ≤ 1) : (s.execCode srcs c).unalarmed = s.unalarmed ∧ s.keepsRegs (s.execCode srcs c) responseFields := by
  unfold State.execCode
  extract_lets lo old s1 s2 s3 s4
  split
  · exact ⟨rfl, s.keepsRegs_refl _⟩
  next hlo =>
    obtain ⟨hun2, hkeep2⟩ := s1.respondAll_minor (lo := lo) (n := c + 1 - lo) (by omega)
    have h3 : s3.unalarmed = s2.unalarmed ∧ s2.keepsRegs s3 responseFields := by
      unfold s3
      split
      · exact ⟨s2.alarmLevel_unalarmed, s2.alarmLevel_keepsRegs⟩
      · exact ⟨rfl, s2.keepsRegs_refl _⟩
    refine ⟨(State.setStatus_unalarmed ..).trans (h3.1.trans (hun2.trans rfl)), ?_⟩
    have h13 : s.keepsRegs s3 responseFields := (State.keepsRegs_of_regs (t := s1) rfl _).trans (hkeep2.trans h3.2 (List.Subset.refl _)) (List.Subset.refl _)
    exact (h13.trans (s3.keepsRegs_wr _ (by decide)) (List.Subset.refl _)).trans (State.setStatus_keepsRegs _ _ (by decide) statusFields_subset)
      (List.Subset.refl _)

theorem alarmRecord_unalarmed (srcs code : Nat) (atStart : Bool) : (s.alarmRecord srcs code atStart).unalarmed = s.unalarmed := by
  unfold State.alarmRecord
  split
  · rfl
  · exact State.unalarmed_of_unrecorded (State.decideRecord_unrecorded ..)

theorem alarmRecord_keepsRegs (srcs code : Nat) (atStart : Bool) : s.keepsRegs (s.alarmRecord srcs code atStart) responseFields := by
  unfold State.alarmRecord
  split
  · exact State.keepsRegs_of_regs rfl _
  · exact (s.decideRecord_keepsRegs _ _ _ _).mono recordFields_subset

/-- One alarm whose response is 0 or 1: after it is shown, only its response and record show. -/
theorem raiseAlarm_shown {src : Nat} (hcode : s.respCode src ≤ 1) (atStart : Bool) :
    (s.raiseAlarms [src] atStart).unalarmed = s.unalarmed ∧ (s.flagSource true src).keepsRegs (s.raiseAlarms [src] atStart) responseFields := by
  obtain ⟨hun, hkeep⟩ := (s.flagSource true src).execCode_minor (srcBits [src]) (c := max 0 (s.respCode src)) (by omega)
  exact ⟨(State.alarmRecord_unalarmed ..).trans (hun.trans (s.flagSource_unalarmed true src)),
    hkeep.trans (State.alarmRecord_keepsRegs _ _ _ _) (List.Subset.refl _)⟩

theorem raiseAlarm_keepsRegs {src : Nat} (hsrc : src < 24) (hcode : s.respCode src ≤ 1) (atStart : Bool) :
    s.keepsRegs (s.raiseAlarms [src] atStart) alarmFields :=
  ((s.flagSource_keepsRegs true hsrc).mono (List.subset_append_left _ _)).trans
    ((s.raiseAlarm_shown hcode atStart).2.mono (List.subset_append_right _ _)) (List.Subset.refl _)

end State

end Sys2Proof.Machine
end

section
/-! An alarm is raised (R449, R452, R453, R459). -/

namespace Sys2Proof.Machine

namespace State
variable (s : State)

theorem testBit_of_bitSet_wr {f : Fld} {b : Nat} (hb : b < f.width) : ((s.wr f (bitSet (s.rd f) b)).rd f).testBit b = true := by
  rw [State.rd_wr_same, Nat.testBit_mod_two_pow, testBit_bitSet]
  simp [hb]

theorem testBit_of_bitClear_wr {f : Fld} {b : Nat} : ((s.wr f (bitClear (s.rd f) b)).rd f).testBit b = false := by
  rw [State.rd_wr_same, Nat.testBit_mod_two_pow, testBit_bitClear]
  simp

/-- The flag of a source, latched with its time. -/
theorem latched_flag {src : Nat} (h : src < 24) (u : State)
    (hu : u = if (s.rd R.TMP_FLAGS_SRC).testBit src then s
      else (s.wr R.TMP_FLAGS_SRC (bitSet (s.rd R.TMP_FLAGS_SRC) src)).wr (R.TMP_FLAG_TIME_TICKS.ix src) (s.rd R.TMP_TIME_TICKS % 2 ^ 48)) :
    (u.rd R.TMP_FLAGS_SRC).testBit src = true := by
  subst hu
  split
  next hset => exact hset
  next =>
    have hne : R.TMP_FLAGS_SRC.key ≠ (R.TMP_FLAG_TIME_TICKS.ix src).key := by
      simp only [Fld.key, Fld.ix, R.TMP_FLAGS_SRC, R.TMP_FLAG_TIME_TICKS]
      omega
    rw [State.rd_wr_other _ _ hne]
    exact s.testBit_of_bitSet_wr h

theorem flagSource_shown {src : Nat} (h : src < 24) : let t := s.flagSource true src
    (t.rd R.TMP_FLAGS_SRC).testBit src = true ∧ (t.rd R.TMP_ACTED_SRC).testBit src = true ∧ (t.rd (alarmEvt src).1).testBit (alarmEvt src).2 = true := by
  unfold State.flagSource
  extract_lets fl s1 s2 e t
  have hflag := s.latched_flag h s1 rfl
  have hacted : (s2.rd R.TMP_ACTED_SRC).testBit src = true := s1.testBit_of_bitSet_wr h
  have hflag2 : (s2.rd R.TMP_FLAGS_SRC).testBit src = true := by rwa [State.rd_wr_other _ _ (by decide)]
  unfold t
  by_cases hlt : src < 16
  · rw [show alarmEvt src = e from rfl, show e = (R.TMP_AEVT0_SRC, src) from if_pos hlt]
    dsimp only
    exact ⟨by rwa [State.rd_setEvt_other _ _ (by decide) (by decide)], by rwa [State.rd_setEvt_other _ _ (by decide) (by decide)],
      State.testBit_setEvt _ hlt (by decide)⟩
  · rw [show alarmEvt src = e from rfl, show e = (R.TMP_AEVT1_SRC, src - 16) from if_neg hlt]
    dsimp only
    exact ⟨by rwa [State.rd_setEvt_other _ _ (by decide) (by decide)], by rwa [State.rd_setEvt_other _ _ (by decide) (by decide)],
      State.testBit_setEvt _ (show src - 16 < 16 by omega) (by decide)⟩

/-- The alarm as it shows, where its response is 0 or 1. -/
theorem raiseAlarm_flags {src : Nat} (h : src < 24) (hcode : s.respCode src ≤ 1) : let t := s.raiseAlarms [src]
    (t.rd R.TMP_FLAGS_SRC).testBit src = true ∧ (t.rd R.TMP_ACTED_SRC).testBit src = true ∧ (t.rd (alarmEvt src).1).testBit (alarmEvt src).2 = true := by
  obtain ⟨-, hkeep⟩ := s.raiseAlarm_shown hcode false
  have hevt : (alarmEvt src).1.key ∉ responseFields.map Fld.key := by
    unfold alarmEvt
    split
    · exact (by decide : R.TMP_AEVT0_SRC.key ∉ responseFields.map Fld.key)
    · exact (by decide : R.TMP_AEVT1_SRC.key ∉ responseFields.map Fld.key)
  have hshown := s.flagSource_shown h
  dsimp only at hshown ⊢
  rwa [hkeep _ hevt, hkeep R.TMP_FLAGS_SRC (by decide), hkeep R.TMP_ACTED_SRC (by decide)]

theorem respondAll_succ (lo n : Nat) : s.respondAll lo (n + 1) = (s.respondAll lo n).respond (lo + n) := by
  induction n generalizing s lo with
  | zero => rfl
  | succ n ih =>
    rw [State.respondAll, ih, State.respondAll, Nat.add_right_comm, Nat.add_assoc]

/-- From code 4 on the BBK is gone, and code 5 begins the kill word. -/
theorem respondAll_erases {c : Nat} (hlo : 4 ≤ c) (hhi : c < 8) :
    (s.respondAll 0 (c + 1)).tmp.bbk = [] ∧ (c = 5 → (s.respondAll 0 (c + 1)).tmp.killing = true) := by
  have hsucc := s.respondAll_succ 0
  obtain rfl | rfl | rfl | rfl : c = 4 ∨ c = 5 ∨ c = 6 ∨ c = 7 := by omega
  · rw [hsucc]
    exact ⟨rfl, by simp⟩
  · rw [hsucc, hsucc]
    exact ⟨rfl, fun _ => rfl⟩
  · rw [hsucc, hsucc, hsucc]
    exact ⟨rfl, by simp⟩
  · rw [hsucc, hsucc, hsucc, hsucc]
    exact ⟨rfl, by simp⟩

/-- With no response in force, a code's responses begin with the first. -/
theorem execCode_responds {c : Nat} (hnone : s.tmp.inForce = none) (srcs : Nat) : ∃ v : State, (s.execCode srcs c).tmp = (v.respondAll 0 (c + 1)).tmp := by
  unfold State.execCode
  extract_lets lo old s1 s2 s3 s4
  have hlo : lo = 0 := by
    unfold lo
    rw [hnone]
  rw [if_neg (by omega)]
  refine ⟨s1, ?_⟩
  have h2 : s2 = s1.respondAll 0 (c + 1) := by
    unfold s2
    rw [hlo, Nat.sub_zero]
  rw [← h2]
  refine State.setStatus_keepsTmp (State.wr_keepsTmp ?_)
  unfold s3
  split
  · exact State.alarmLevel_keepsTmp rfl
  · rfl

theorem raiseAlarm_erases {src : Nat} (hcode : 4 ≤ s.respCode src) (hnone : s.tmp.inForce = none) :
    (s.raiseAlarms [src]).tmp.bbk = [] ∧ (s.respCode src = 5 → (s.raiseAlarms [src]).tmp.killing = true) := by
  have hlt : s.respCode src < 8 := Nat.mod_lt _ (by decide)
  have hforce : (s.flagSource true src).tmp.inForce = none := (congrArg Tmp.inForce (State.flagSource_keepsTmp rfl)).trans hnone
  obtain ⟨v, hv⟩ := execCode_responds (s.flagSource true src) (c := s.respCode src) hforce (srcBits [src])
  have htmp : (s.raiseAlarms [src]).tmp = (v.respondAll 0 (s.respCode src + 1)).tmp := by
    refine State.alarmRecord_keepsTmp ?_
    rw [← hv]
    exact congrArg (fun c => ((s.flagSource true src).execCode (srcBits [src]) c).tmp) (Nat.zero_max _)
  rw [htmp]
  exact v.respondAll_erases hcode hlt

end State

/-- A condition that appears on VBAT: its flag is latched, and the BBK is erased. -/
theorem State.backupRaise_shown (s : State) {src : Nat} (h : src < 24) (hvbat : s.tmp.mainPower = false) : let t := s.backupRaise src
    (t.rd R.TMP_FLAGS_SRC).testBit src = true ∧ (t.rd R.TMP_ACTED_SRC).testBit src = false ∧ t.tmp.bbk = [] ∧ t.mem = s.mem ∧
      t.rd R.TMP_COND_SRC = s.rd R.TMP_COND_SRC := by
  unfold State.backupRaise
  extract_lets fl s1 s2 old t
  have hflag := s.latched_flag h s1 rfl
  have h1 : s1.tmp = s.tmp ∧ s1.mem = s.mem ∧ s1.rd R.TMP_COND_SRC = s.rd R.TMP_COND_SRC := by
    unfold s1
    split
    · exact ⟨rfl, rfl, rfl⟩
    · refine ⟨rfl, rfl, (State.rd_wr_other _ _ ?_).trans (State.rd_wr_other _ _ (by decide))⟩
      simp only [Fld.key, Fld.ix, R.TMP_COND_SRC, R.TMP_FLAG_TIME_TICKS]
      omega
  obtain ⟨htmp, hmem, hcond⟩ := h1
  have ht : t = { s2 with tmp := { s2.tmp with bbk := [] } } := if_neg (by rw [show s2.tmp = s1.tmp from rfl, htmp, hvbat]; decide)
  rw [ht]
  simp only [State.rd_with]
  exact ⟨(congrArg (Nat.testBit · src) (State.rd_wr_other _ _ (by decide))).trans hflag, s1.testBit_of_bitClear_wr, trivial, hmem, (State.rd_wr_other _ _ (by decide)).trans hcond⟩

theorem State.respCode_wr_cond (s : State) (src v : Nat) : (s.wr R.TMP_COND_SRC v).respCode src = s.respCode src := by
  unfold State.respCode
  rw [State.rd_wr_other]
  simp only [Fld.key, Fld.ix, R.TMP_COND_SRC, R.TMP_RESP_CODE]
  omega

/-- Under main power a condition raises its alarm. -/
theorem State.condition_raises (s : State) {src : Nat} (hoff : (s.rd R.TMP_COND_SRC).testBit src = false) (halive : s.boot.alive = true)
    (hmain : s.tmp.mainPower = true) :
    s.condition src = (s.wr R.TMP_COND_SRC (bitSet (s.rd R.TMP_COND_SRC) src)).raiseAlarms [src] :=
  (if_neg (by simp [hoff])).trans (if_pos (by
    rw [show (s.wr R.TMP_COND_SRC (bitSet (s.rd R.TMP_COND_SRC) src)).tmp = s.tmp from rfl, hmain,
      show (s.wr R.TMP_COND_SRC (bitSet (s.rd R.TMP_COND_SRC) src)).boot = s.boot from rfl, halive]
    rfl))

/-- While the device runs, a source that appears comes to its alarm: from 14 to 22 at once, else with its condition bit set. -/
theorem alarmRaise_raises {s : State} {src : Nat} (hsrc : src < 24) (hoff : (s.rd R.TMP_COND_SRC).testBit src = false) (halive : s.boot.alive = true)
    (hmain : s.tmp.mainPower = true) (htest : src = 23 → s.testState = false) :
    ∃ u : State, exec (.alarmRaise src) s = .next (u.raiseAlarms [src]) ∧ u.tmp = s.tmp ∧ u.mem = s.mem ∧ u.respCode src = s.respCode src ∧
      (src < 14 ∨ src = 23 → (u.rd R.TMP_COND_SRC).testBit src = true) ∧ (src = 23 → u.pins.testHigh = true) := by
  show ∃ u : State, execAlarmRaise src s = _ ∧ _
  unfold execAlarmRaise
  by_cases h23 : src = 23
  · subst h23
    let s0 : State := { s with pins := { s.pins with testHigh := true } }
    have hball : s.testBallHigh = s0.condition 23 :=
      if_neg (by rw [show s0.testState = s.testState from rfl, show s0.boot = s.boot from rfl]; simp [htest rfl, halive])
    exact ⟨_, (if_pos rfl).trans (congrArg Host.Outcome.next (hball.trans (s0.condition_raises hoff halive hmain))), rfl, rfl, s0.respCode_wr_cond ..,
      fun _ => s0.testBit_of_bitSet_wr hsrc, fun _ => rfl⟩
  · rw [if_neg h23, if_neg (by simp [State.monitored, hsrc, halive, hoff])]
    by_cases hmid : 14 ≤ src ∧ src ≤ 22
    · exact ⟨s, if_pos hmid, rfl, rfl, rfl, by omega, by omega⟩
    · exact ⟨_, (if_neg hmid).trans (congrArg Host.Outcome.next (s.condition_raises hoff halive hmain)), rfl, rfl, s.respCode_wr_cond ..,
        fun _ => s.testBit_of_bitSet_wr hsrc, by omega⟩

/-- Settles O39. -/
theorem alarmRaised : Obligations.AlarmRaised := by
  unfold Obligations.AlarmRaised
  intro s src hsrc hoff raised
  have hminor {u : State} (hcode : u.respCode src ≤ 1) (hcond : src < 14 ∨ src = 23 → (u.rd R.TMP_COND_SRC).testBit src = true) :
      raised (u.raiseAlarms [src]) ∧ ((u.raiseAlarms [src]).rd R.TMP_ACTED_SRC).testBit src = true ∧
        ((u.raiseAlarms [src]).rd (alarmEvt src).1).testBit (alarmEvt src).2 = true ∧ (u.raiseAlarms [src]).unalarmed = u.unalarmed := by
    obtain ⟨hflag, hacted, hevt⟩ := u.raiseAlarm_flags hsrc hcode
    refine ⟨⟨fun h => ?_, hflag⟩, hacted, hevt, (u.raiseAlarm_shown hcode false).1⟩
    rw [u.raiseAlarm_keepsRegs hsrc hcode false R.TMP_COND_SRC (by decide)]
    exact hcond h
  refine ⟨fun hback hvbat => ?_, fun halive hmain htest => ⟨fun hcode => ?_, fun hcode hnone => ?_⟩, fun h23 halive htest hmain hcode => ?_⟩
  · let s1 := s.wr R.TMP_COND_SRC (bitSet (s.rd R.TMP_COND_SRC) src)
    have hdo : s.condition src = s1.backupRaise src :=
      (if_neg (by simp [hoff])).trans ((if_neg (by rw [show s1.tmp = s.tmp from rfl, hvbat]; simp)).trans (if_pos hback))
    have hlow : src < 4 ∨ src = 12 := by simpa [backupSource] using hback
    have hexec : execAlarmRaise src s = .next (s.condition src) := by
      unfold execAlarmRaise
      rw [if_neg (by omega), if_neg (by simp [State.monitored, hsrc, hback, hoff]), if_neg (by omega)]
    obtain ⟨hflag, hacted, hbbk, hmem, hcond⟩ := s1.backupRaise_shown hsrc hvbat
    refine ⟨s1.backupRaise src, hexec.trans (congrArg Host.Outcome.next hdo), ⟨fun _ => ?_, hflag⟩, hacted, hbbk, hmem⟩
    rw [hcond]
    exact s.testBit_of_bitSet_wr hsrc
  · obtain ⟨u, hexec, htmp, hmem, hresp, hcond, -⟩ := alarmRaise_raises hsrc hoff halive hmain htest
    obtain ⟨hraised, hacted, hevt, hun⟩ := hminor (hresp.trans_le hcode) hcond
    exact ⟨_, hexec, hraised, hacted, hevt, (congrArg State.mem hun : _).trans hmem, (congrArg (·.tmp.bbk) hun : _).trans (congrArg Tmp.bbk htmp)⟩
  · obtain ⟨u, hexec, htmp, -, hresp, -, -⟩ := alarmRaise_raises hsrc hoff halive hmain htest
    obtain ⟨hbbk, hkill⟩ := u.raiseAlarm_erases (src := src) (hresp.symm ▸ hcode) ((congrArg Tmp.inForce htmp).trans hnone)
    exact ⟨_, hexec, hbbk, fun h => hkill (hresp.trans h)⟩
  · subst h23
    obtain ⟨u, hexec, -, hmem, hresp, hcond, hpin⟩ := alarmRaise_raises hsrc hoff halive hmain fun _ => htest
    obtain ⟨hraised, -, -, hun⟩ := hminor (hresp.trans_le hcode) hcond
    exact ⟨_, hexec, (congrArg (·.pins.testHigh) hun : _).trans (hpin rfl), hraised, (congrArg State.mem hun : _).trans hmem⟩

end Sys2Proof.Machine
end

section
/-! The backup domain (chapter 19): conditions, loops, the resume and the clearing of flags. -/

namespace Sys2Proof.Machine

namespace State
variable (s : State)

theorem rd_clearRegs_reset {lo hi : Nat} {f : Fld} (hbank : f.bank = 0) (hlo : lo * 64 ≤ f.off * 64 + f.lsb) (hhi : f.off * 64 + f.lsb < hi * 64) :
    (s.clearRegs lo hi).rd f = f.reset := by
  have hkey : f.key = f.off * 64 + f.lsb := by simp [Fld.key, hbank]
  have hstay (b : Nat) (t : Tbl Nat) (h : tblGet f.reset t f.key = f.reset) : tblGet f.reset (regsClear lo hi b t) f.key = f.reset := by
    let keep : Nat → Bool := fun k => !(decide ((b * 0x1000000 + lo) * 64 ≤ k) && decide (k < (b * 0x1000000 + hi) * 64))
    show tblGet f.reset (t.filter fun e => keep e.1) f.key = f.reset
    cases hk : keep f.key with
    | true => exact (tblGet_filter_keep _ _ _ hk).trans h
    | false => exact tblGet_filter_drop _ _ _ hk
  have hdrop : tblGet f.reset (regsClear lo hi 0 s.regs) f.key = f.reset :=
    tblGet_filter_drop f.reset (fun k => !(decide ((0 * 0x1000000 + lo) * 64 ≤ k) && decide (k < (0 * 0x1000000 + hi) * 64))) _ (by
      simp only [hkey, Bool.not_eq_false', Bool.and_eq_true, decide_eq_true_eq]
      omega)
  exact hstay 3 _ (hstay 2 _ (hstay 1 _ hdrop))

theorem endCond_shown (n : Nat) : ((s.endCond n).rd R.TMP_COND_SRC).testBit n = false ∧ s.keepsRegs (s.endCond n) [R.TMP_COND_SRC] :=
  ⟨s.testBit_of_bitClear_wr, s.keepsRegs_wr _ (List.mem_singleton.mpr rfl)⟩

/-- A condition that appears on VBAT. -/
theorem condition_backup {src : Nat} (hoff : (s.rd R.TMP_COND_SRC).testBit src = false) (hvbat : s.tmp.mainPower = false) (hback : backupSource src = true) :
    s.condition src = (s.wr R.TMP_COND_SRC (bitSet (s.rd R.TMP_COND_SRC) src)).backupRaise src :=
  (if_neg (by simp [hoff])).trans ((if_neg (by
    rw [show (s.wr R.TMP_COND_SRC (bitSet (s.rd R.TMP_COND_SRC) src)).tmp = s.tmp from rfl, hvbat]; simp)).trans (if_pos hback))

theorem backupRaise_mem (src : Nat) : (s.backupRaise src).mem = s.mem := State.backupRaise_keepsMem rfl

/-- What latching several sources on VBAT leaves and erases. -/
theorem foldl_backupRaise (l : List Nat) (h : ∀ n ∈ l, n < 24) (hvbat : s.tmp.mainPower = false) :
    (l.foldl State.backupRaise s).rd R.TMP_COND_SRC = s.rd R.TMP_COND_SRC ∧ (l.foldl State.backupRaise s).mem = s.mem ∧
      ((l ≠ [] ∨ s.tmp.bbk = []) → (l.foldl State.backupRaise s).tmp.bbk = []) := by
  induction l generalizing s with
  | nil => exact ⟨rfl, rfl, fun h => h.resolve_left (fun hn => hn rfl)⟩
  | cons n t ih =>
    obtain ⟨-, -, hbbk, hmem, hcond⟩ := s.backupRaise_shown (h n List.mem_cons_self) hvbat
    have hpower : (s.backupRaise n).tmp.mainPower = false := by
      unfold State.backupRaise
      extract_lets fl s1 s2 old
      have h1 : s1.tmp = s.tmp := by
        unfold s1
        split <;> rfl
      split
      · exact (congrArg Tmp.mainPower h1).trans hvbat
      · exact (congrArg Tmp.mainPower h1).trans hvbat
    obtain ⟨hc, hm, hb⟩ := ih (s.backupRaise n) (fun k hk => h k (List.mem_cons_of_mem _ hk)) hpower
    exact ⟨hc.trans hcond, hm.trans hmem, fun _ => hb (.inr hbbk)⟩

theorem testBit_foldl_bitSet (l : List Nat) (v j : Nat) : (l.foldl bitSet v).testBit j = (decide (j ∈ l) || v.testBit j) := by
  induction l generalizing v with
  | nil => simp
  | cons i t ih =>
    rw [List.foldl_cons, ih, testBit_bitSet]
    by_cases h : i = j
    · simp [h]
    · simp [h, Ne.symm h]

/-- What the state of the VFs makes of suspension lies in their own registers. -/
theorem refreshSuspended_rd {f : Fld} (h : f.off < 0x200000 ∧ f.bank = 0 ∧ f.lsb < 64) : s.refreshSuspended.rd f = s.rd f := by
  have hone (t : State) (w : Nat) : (t.refreshVf w).rd f = t.rd f := by
    unfold State.refreshVf
    extract_lets p n v
    split
    · rfl
    · refine (State.rd_of_regs (State.vector_keepsRegs rfl) f).trans (State.rd_wr_other _ _ ?_)
      simp only [Fld.key, Fld.vf, Fld.add, R.VFS_STATE_SUSPENDED, h.2.1]
      omega
  unfold State.refreshSuspended
  induction (s.vfs.map Prod.fst) generalizing s with
  | nil => rfl
  | cons w t ih => exact (ih _).trans (hone s w)

/-- The resume that ends a suspension. -/
theorem resume_ends {v : Nat} (hv : v % 256 = 0xA5) (hok : s.resumeCheck = 0) :
    (s.resume v).rd R.TMP_STATUS_RESUME_RESULT = 0 ∧ (s.resume v).rd R.GLB_STATUS_SUSPENDED = 0 := by
  unfold State.resume
  rw [if_neg (by simp [bits, hv]), hok]
  refine ⟨?_, ?_⟩
  · refine (refreshSuspended_rd _ (by decide)).trans ?_
    rw [State.rd_setStatus_other _ _ (by decide) (by decide), State.rd_with, State.rd_wr_same]
    rfl
  · exact (refreshSuspended_rd _ (by decide)).trans (State.rd_setStatus_same _ _ (by decide))

theorem clearFlag_shown {i : Nat} (h : i < 24) : ((s.clearFlag i).rd R.TMP_FLAGS_SRC).testBit i = false := by
  unfold State.clearFlag
  rw [State.rd_wr_other, State.rd_wr_other _ _ (by decide)]
  · exact s.testBit_of_bitClear_wr
  · simp only [Fld.key, Fld.ix, R.TMP_FLAGS_SRC, R.TMP_FLAG_TIME_TICKS]
    omega

end State

/-- A clearing that may clear one flag. -/
theorem State.flagClr_shown (s : State) {v src : Nat} (h : src < 24) (hm : s.clearable v = 2 ^ src) :
    ((s.flagClr v).rd R.TMP_FLAGS_SRC).testBit src = false ∧ (s.flagClr v).rd R.TMP_BKP_STATUS_XTAL_STOP = 0 ∧ (s.flagClr v).mem = s.mem := by
  have hlist : (List.range 24).filter (fun i => (2 ^ src).testBit i) = [src] := by
    have hall : ∀ k < 24, (List.range 24).filter (fun i => decide (k = i)) = [k] := by decide
    simpa only [Nat.testBit_two_pow] using hall src h
  have hdo : s.flagClr v = ((s.clearFlag src).wr R.TMP_BKP_STATUS_XTAL_STOP 0).decideRecord 7 (lowestBit (2 ^ src)) 3 (2 ^ src) := by
    unfold State.flagClr
    rw [hm]
    dsimp only
    rw [if_neg (Nat.two_pow_pos src).ne', hlist]
    rfl
  rw [hdo]
  refine ⟨?_, ?_, State.decideRecord_keepsMem rfl⟩
  · rw [State.rd_decideRecord _ _ _ _ _ (by decide), State.rd_wr_other _ _ (by decide)]
    exact s.clearFlag_shown h
  · rw [State.rd_decideRecord _ _ _ _ _ (by decide), State.rd_wr_same]
    rfl

/-- A crystal that stops, and the loops whose condition appears with it. -/
theorem State.xtalStop_shown (s : State) : ∃ t, exec .xtalStop s = .next t ∧ t.rd R.TMP_BKP_STATUS_XTAL_STOP = 1 ∧ (s.tmp.mainPower = false → t.mem = s.mem ∧
    ∀ n, n < 4 → s.loopOn n = true → (t.rd R.TMP_COND_SRC).testBit n = true ∧ ((s.rd R.TMP_COND_SRC).testBit n = false → t.tmp.bbk = [])) := by
  let s1 := s.wr R.TMP_BKP_STATUS_XTAL_STOP 1
  let l := (List.range 4).filter fun n => s1.loopOn n && !(s1.rd R.TMP_COND_SRC).testBit n
  let s2 := s1.wr R.TMP_COND_SRC (l.foldl bitSet (s1.rd R.TMP_COND_SRC))
  have hstop : s2.rdStop = 1 := State.wr_keepsStop (s := s1) (State.rd_wr_same ..) (.inl (by decide))
  have hlt : ∀ n ∈ l, n < 24 := fun n hn => (List.mem_range.mp (List.mem_of_mem_filter hn)).trans (by decide)
  refine ⟨_, rfl, ?_, fun hvbat => ?_⟩
  · show State.rdStop (if s2.tmp.mainPower && s2.boot.alive then s2.raiseAlarms l else l.foldl State.backupRaise s2) = 1
    split
    · exact State.raiseAlarms_keepsStop hstop
    · exact keepStop_fold hstop fun _ _ h => State.backupRaise_keepsStop h
  · have hvb : ¬(s2.tmp.mainPower && s2.boot.alive) = true := by rw [show s2.tmp = s.tmp from rfl, hvbat]; simp
    obtain ⟨hcond, hmem, hbbk⟩ := s2.foldl_backupRaise l hlt hvbat
    show (if s2.tmp.mainPower && s2.boot.alive then s2.raiseAlarms l else l.foldl State.backupRaise s2).mem = _ ∧ ∀ n, n < 4 → s.loopOn n = true →
      ((if s2.tmp.mainPower && s2.boot.alive then s2.raiseAlarms l else l.foldl State.backupRaise s2).rd _).testBit n = true ∧
        (_ → (if s2.tmp.mainPower && s2.boot.alive then s2.raiseAlarms l else l.foldl State.backupRaise s2).tmp.bbk = [])
    rw [if_neg hvb, hcond]
    have hon1 (n : Nat) : s1.loopOn n = s.loopOn n := congrArg (Nat.testBit · n) (State.rd_wr_other s _ (by decide))
    have hcond1 : s1.rd R.TMP_COND_SRC = s.rd R.TMP_COND_SRC := State.rd_wr_other s _ (by decide)
    have hin (n : Nat) (hn : n < 4) (hloop : s.loopOn n = true) (hoff : (s.rd R.TMP_COND_SRC).testBit n = false) : n ∈ l :=
      List.mem_filter.mpr ⟨List.mem_range.mpr hn, by rw [hon1, hcond1, hloop, hoff]; rfl⟩
    refine ⟨hmem, fun n hn hloop => ⟨?_, fun hoff => hbbk (.inl (List.ne_nil_of_mem (hin n hn hloop hoff)))⟩⟩
    have hw : n < R.TMP_COND_SRC.width := hn.trans (by decide)
    rw [State.rd_wr_same, Nat.testBit_mod_two_pow, State.testBit_foldl_bitSet, hcond1]
    cases hc : (s.rd R.TMP_COND_SRC).testBit n with
    | true => simp [hw]
    | false => simp [hw, hin n hn hloop hc]

/-- Settles O38, row by row. -/
theorem backupAndTamper : Obligations.BackupAndTamper := by
  unfold Obligations.BackupAndTamper
  refine ⟨fun s => ⟨fun src hsrc hon => ?_, fun hvbat => ?_, fun hpor hgd => ?_, fun n level hoff => ?_, fun n level hvbat hloop hlevel hoff => ?_,
    fun n level hloop hlevel => ?_, ?_⟩, fun s => ⟨fun hzero => ?_, fun htest => ?_, fun who complement v hpass => ⟨fun hv => ?_, fun hv hr hlt => ?_, fun hv hr => ?_⟩,
    fun who complement v hpass hm => ?_, fun who complement v src hpass hsrc hm => ?_⟩⟩
  · have hexec : ∃ t : State, exec (.alarmConditionEnd src) s = .next t ∧ t.regs = (s.endCond src).regs ∧ t.mem = s.mem ∧ t.tmp = s.tmp := by
      show ∃ t : State, execAlarmConditionEnd src s = .next t ∧ _
      unfold execAlarmConditionEnd
      dsimp only
      by_cases h23 : src = 23
      · rw [if_pos h23, if_pos ⟨hsrc, hon⟩]
        exact ⟨_, congrArg Host.Outcome.next (if_neg (by omega)), rfl, rfl, rfl⟩
      · rw [if_neg h23, if_pos ⟨hsrc, hon⟩]
        split <;> exact ⟨_, rfl, rfl, rfl, rfl⟩
    obtain ⟨t, hexec, hregs, hmem, htmp⟩ := hexec
    obtain ⟨hbit, hkeep⟩ := s.endCond_shown src
    exact ⟨t, hexec, by rwa [State.rd_of_regs hregs], hkeep.trans (State.keepsRegs_of_regs hregs _) (List.Subset.refl _), hmem, htmp⟩
  · refine ⟨_, (if_neg (by simp [hvbat]) : execBackupDomainReset s = _), rfl, rfl, ?_, ?_, rfl⟩
    · exact (s.rd_clearRegs_reset rfl (by decide) (by decide) : (s.clearRegs 0x40000 0x40200).rd R.TMP_HOURS_COUNT = _)
    · exact (s.rd_clearRegs_reset rfl (by decide) (by decide) : (s.clearRegs 0x40000 0x40200).rd R.TMP_FLAGS_SRC = _)
  · refine ⟨_, (if_pos (by simp [hpor, hgd]) : execOperatingHourTick s = _), ?_, rfl, s.keepsRegs_wr _ (List.mem_singleton.mpr rfl), rfl⟩
    refine (State.rd_wr_same ..).trans (Nat.mod_eq_of_lt ?_)
    simp only [R.TMP_HOURS_COUNT]
    omega
  · have hdo : s.loopSample n.val level = { s with tmp := { s.tmp with loops := s.tmp.loops.set n.val (loopNext (s.loopReg n.val)) } } := by
      unfold State.loopSample
      simp only [hoff, Bool.not_false, if_true]
    exact ⟨_, congrArg Host.Outcome.next hdo, rfl, rfl, rfl⟩
  · have hn : n.val < 24 := by omega
    have hback : backupSource n.val = true := by simp [backupSource]
    let s1 := s.wr R.TMP_COND_SRC (bitSet (s.rd R.TMP_COND_SRC) n.val)
    obtain ⟨-, -, hbbk, hmem, hcond⟩ := s1.backupRaise_shown hn hvbat
    have hdo : s.loopSample n.val level =
        { s1.backupRaise n.val with tmp := { (s1.backupRaise n.val).tmp with loops := (s1.backupRaise n.val).tmp.loops.set n.val (loopNext (s.loopReg n.val)) } } := by
      unfold State.loopSample
      simp only [hloop, hlevel, Bool.not_true, Bool.false_eq_true, if_false, s.condition_backup hoff hvbat hback]
      rfl
    refine ⟨_, congrArg Host.Outcome.next hdo, ?_, hbbk, hmem⟩
    rw [State.rd_with, hcond]
    exact s.testBit_of_bitSet_wr hn
  · have hdo : s.loopSample n.val level = { s.endCond n.val with tmp := { s.tmp with loops := s.tmp.loops.set n.val (loopNext (s.loopReg n.val)) } } := by
      unfold State.loopSample
      simp only [hloop, hlevel, Bool.not_true, Bool.false_eq_true, if_false, if_true]
      rfl
    obtain ⟨hbit, hkeep⟩ := s.endCond_shown n.val
    exact ⟨_, congrArg Host.Outcome.next hdo, hbit, hkeep, rfl⟩
  · exact s.xtalStop_shown
  · exact ⟨_, (if_pos hzero : execZeroizationDone s = _), rfl, rfl, rfl⟩
  · refine ⟨{ s with pins := { s.pins with testHigh := true } }, congrArg Host.Outcome.next (if_pos ?_), rfl, rfl⟩
    rw [show ({ s with pins := { s.pins with testHigh := true } } : State).testState = s.testState from rfl,
      show ({ s with pins := { s.pins with testHigh := true } } : State).boot = s.boot from rfl]
    obtain h | h := htest <;> simp [h]
  · refine ⟨_, congrArg Host.Outcome.next ((State.writeGuarded_of_passes hpass _).trans (if_pos (by simpa [bits] using hv))), rfl⟩
  · have hdo : (s.dropGuard 0x40030).resume v = (s.dropGuard 0x40030).wr R.TMP_STATUS_RESUME_RESULT s.resumeCheck :=
      (if_neg (by simp [bits, hv])).trans (if_pos hr)
    exact ⟨_, congrArg Host.Outcome.next ((State.writeGuarded_of_passes hpass _).trans hdo), (State.rd_wr_same ..).trans (Nat.mod_eq_of_lt (hlt.trans_le (by decide))),
      State.keepsRegs_wr (s.dropGuard 0x40030) _ (List.mem_singleton.mpr rfl), rfl⟩
  · obtain ⟨hresult, hsusp⟩ := (s.dropGuard 0x40030).resume_ends hv hr
    exact ⟨_, congrArg Host.Outcome.next (State.writeGuarded_of_passes hpass _), hresult, hsusp, State.resume_keepsMem rfl⟩
  · exact ⟨_, congrArg Host.Outcome.next ((State.writeGuarded_of_passes hpass _).trans (if_pos hm)), rfl, rfl⟩
  · obtain ⟨hflag, hstop, hmem⟩ := (s.dropGuard 0x40028).flagClr_shown hsrc hm
    exact ⟨_, congrArg Host.Outcome.next (State.writeGuarded_of_passes hpass _), hflag, hstop, hmem⟩

end Sys2Proof.Machine
end

section
/-! PCIe configuration requests (chapter 06). -/

namespace Sys2Proof.Machine

/-- A write of a word of configuration space that lies elsewhere leaves the page size of the VFs. -/
theorem State.sysPage_setFnSt (s : State) {f : Fn} {d off w : Nat} {p : Port} (h : off ≠ 0x180) :
    (s.setFnSt f { s.fnSt f with cfgRegs := tblPut d (s.fnSt f).cfgRegs off w }).sysPage p = s.sysPage p := by
  have hreg : (s.setFnSt f { s.fnSt f with cfgRegs := tblPut d (s.fnSt f).cfgRegs off w }).cfgReg (.pf p) 0x180 1 = s.cfgReg (.pf p) 0x180 1 := by
    unfold State.cfgReg
    by_cases hid : (Fn.pf p).id = f.id
    · have hsame (u : State) : u.fnSt (.pf p) = u.fnSt f := by
        unfold State.fnSt
        rw [hid]
      rw [hsame, hsame, State.fnSt_setFnSt_same]
      exact tblGet_put_other _ _ _ _ (Ne.symm h)
    · rw [show (s.setFnSt f _).fnSt (.pf p) = s.fnSt (.pf p) from tblGet_put_other _ _ _ _ hid]
  unfold State.sysPage
  rw [hreg]

/-- Which bits of a word are fixed and which are writable does not change with a write of the word. -/
theorem State.cfgSpec_setFnSt (s : State) {f : Fn} {d off w : Nat} (haer : off ≠ aerStatus) :
    (s.setFnSt f { s.fnSt f with cfgRegs := tblPut d (s.fnSt f).cfgRegs off w }).cfgSpec f off = s.cfgSpec f off := by
  have hany : (s.setFnSt f { s.fnSt f with cfgRegs := tblPut d (s.fnSt f).cfgRegs off w }).cfgAny f off = s.cfgAny f off := by
    unfold State.cfgAny
    simp only [haer, if_false]
    rfl
  have hpf (p : Port) : (s.setFnSt f { s.fnSt f with cfgRegs := tblPut d (s.fnSt f).cfgRegs off w }).cfgPf p off = s.cfgPf p off := by
    by_cases hpage : off = 0x180
    · subst hpage
      rfl
    · unfold State.cfgPf
      simp only [s.sysPage_setFnSt hpage]
      rfl
  have hhead : (s.setFnSt f { s.fnSt f with cfgRegs := tblPut d (s.fnSt f).cfgRegs off w }).cfgHead f off = s.cfgHead f off := rfl
  unfold State.cfgSpec
  rw [hany, hhead]
  cases f <;> simp only [hpf]

/-- After a write a word reads its fixed bits and what was written to its writable ones. -/
theorem State.cfgWord_cfgStore (s : State) {f : Fn} {off v : Nat} (haer : off ≠ aerStatus) :
    (s.cfgStore f off v).cfgWord f off = (s.cfgSpec f off).fixed + Nat.land v (s.cfgSpec f off).mask := by
  unfold State.cfgStore
  dsimp only
  split
  next hmask =>
    unfold State.cfgWord
    simp [hmask]
  next =>
    unfold State.cfgWord
    rw [s.cfgSpec_setFnSt haer]
    dsimp only
    have hreg : (s.setFnSt f { s.fnSt f with cfgRegs := tblPut (s.cfgSpec f off).init (s.fnSt f).cfgRegs off (Nat.land v (s.cfgSpec f off).mask) }).cfgReg f off
        (s.cfgSpec f off).init = Nat.land v (s.cfgSpec f off).mask := by
      unfold State.cfgReg
      rw [State.fnSt_setFnSt_same]
      exact tblGet_put_same ..
    dsimp only at hreg
    rw [hreg]
    have hland (a b : Nat) : Nat.land (Nat.land a b) b = Nat.land a b := by
      show (a &&& b) &&& b = a &&& b
      rw [Nat.and_assoc, Nat.and_self]
    rw [hland]

/-- A write whose word has no further effect. -/
theorem State.cfgWrite_store (s : State) {f : Fn} {off v : Nat} (h1 : off ≠ 0x44) (h2 : off ≠ 0x58) (h3 : off ≠ 0x168) (haer : off ≠ aerStatus) :
    s.cfgWrite f off v = s.cfgStore f off v := by
  unfold State.cfgWrite
  rw [if_neg haer]
  cases f <;> simp [h1, h2, h3]

/-- Word 0 is the identifiers. -/
theorem State.cfgWord_ids (s : State) (f : Fn) : s.cfgWord f 0 = if f.isVf then 0xFFFFFFFF else 0x09601E5A := by
  have hspec : s.cfgSpec f 0 = { fixed := if f.isVf then 0xFFFFFFFF else 0x09601E5A } := by
    unfold State.cfgSpec State.cfgAny
    rfl
  unfold State.cfgWord
  rw [hspec]
  exact congrArg (_ + ·) (Nat.and_zero _)

/-- Settles O40. -/
theorem configurationRequests : Obligations.ConfigurationRequests := by
  unfold Obligations.ConfigurationRequests
  intro s fn off hfn halign hoff
  have hpass : ¬(!s.fnExists fn || off % 4 != 0 || decide (4096 ≤ off)) = true := by simp [hfn, halign, hoff]
  refine ⟨fun hclosed w => ?_, fun hopen => ⟨?_, fun v => ?_⟩⟩
  · exact ⟨_, ((if_neg hpass).trans (if_pos (by simp [hclosed])) : execConfigRequest fn off w s = _), rfl, rfl⟩
  · refine ⟨_, ((if_neg hpass).trans (if_neg (by simp [hopen])) : execConfigRequest fn off none s = _), rfl, rfl, fun h0 => ?_⟩
    subst h0
    exact s.cfgWord_ids fn
  · refine ⟨_, ((if_neg hpass).trans (if_neg (by simp [hopen])) : execConfigRequest fn off (some v) s = _), fun h1 h2 h3 haer => ?_⟩
    rw [State.cfgWrite_store _ h1 h2 h3 haer, State.cfgWord_cfgStore _ haer]
    have hrest : ∀ t : State, (t.cfgStore fn off v.toNat).out = t.out ∧ (t.cfgStore fn off v.toNat).regs = t.regs ∧
        (t.cfgStore fn off v.toNat).mem = t.mem ∧ (t.cfgStore fn off v.toNat).dsp = t.dsp := by
      intro t
      unfold State.cfgStore
      dsimp only
      split <;> exact ⟨rfl, rfl, rfl, rfl⟩
    obtain ⟨hout, hregs, hmem, hdsp⟩ := hrest (s.emit (.cfg fn (some 0)))
    exact ⟨hout, hregs, hmem, hdsp, rfl⟩

end Sys2Proof.Machine
end

section
/-! The power manager (chapter 03): rate, power, cap and AVS. -/

namespace Sys2Proof.Machine

theorem State.flag_of_rd_one {s : State} {f : Fld} (h : s.rd f = 1) : s.flag f = true := by simp [State.flag, h]

/-- The register fields of a tick of the power manager. -/
def tickFields : List Fld :=
  [R.PWR_POWER_TOTAL, R.PWR_POWER_TEMP, R.PWR_VCORE_MEASURED, R.PWR_VCORE_SETPOINT, R.PWR_EVT_CAP_ACTIVE, R.PWR_EVT_CAP_ACTIVE.seq]

/-- The power and the temperature are shown, and nothing changes but the fields of a tick. -/
structure State.Ticked (s t : State) (total temp : Nat) : Prop where
  keeps : s.keepsRegs t tickFields
  total : t.rd R.PWR_POWER_TOTAL = min total 65535
  temp : t.rd R.PWR_POWER_TEMP = temp % 65536
  mem : t.mem = s.mem
  cores : t.cores = s.cores

namespace State.Ticked
variable {s t u : State} {total temp : Nat}

theorem wr (h : s.Ticked t total temp) {f : Fld} (v : Nat) (hf : f.key ∈ tickFields.map Fld.key) (h1 : R.PWR_POWER_TOTAL.key ≠ f.key)
    (h2 : R.PWR_POWER_TEMP.key ≠ f.key) : s.Ticked (t.wr f v) total temp :=
  ⟨h.keeps.trans (t.keepsRegs_wr _ hf) (List.Subset.refl _), (State.rd_wr_other _ _ h1).trans h.total, (State.rd_wr_other _ _ h2).trans h.temp, h.mem, h.cores⟩

theorem of_regs (h : s.Ticked t total temp) (hr : u.regs = t.regs) (hm : u.mem = t.mem) (hc : u.cores = t.cores) : s.Ticked u total temp :=
  ⟨h.keeps.trans (State.keepsRegs_of_regs hr _) (List.Subset.refl _), (State.rd_of_regs hr _).trans h.total, (State.rd_of_regs hr _).trans h.temp,
    hm.trans h.mem, hc.trans h.cores⟩

theorem setpoint (h : s.Ticked t total temp) (mv : Nat) : s.Ticked (t.setpoint mv) total temp :=
  (h.wr (f := R.PWR_VCORE_SETPOINT) mv (by decide) (by decide) (by decide)).of_regs rfl rfl rfl

theorem capActive (h : s.Ticked t total temp) : s.Ticked (t.setEvt R.PWR_EVT_CAP_ACTIVE) total temp :=
  ((h.wr (f := R.PWR_EVT_CAP_ACTIVE) _ (by decide) (by decide) (by decide)).wr (f := R.PWR_EVT_CAP_ACTIVE.seq) _ (by decide) (by decide) (by decide)).of_regs
    rfl rfl rfl

end State.Ticked

/-- A tick of the power manager: what it shows, and what it leaves. -/
theorem State.powerTick_ticked (s : State) (total temp measured : Nat) : s.Ticked (s.powerTick total temp measured) total temp := by
  unfold State.powerTick
  extract_lets avs s1 s2 excess was old s3 sp s4
  have h1 : s.Ticked s1 total temp := by
    refine ⟨(s.keepsRegs_wr _ (by decide)).trans (State.keepsRegs_wr _ _ (by decide)) (List.Subset.refl _), ?_, State.rd_wr_same .., rfl, rfl⟩
    rw [State.rd_wr_other _ _ (by decide), State.rd_wr_same]
    exact Nat.mod_eq_of_lt (Nat.lt_succ_of_le (Nat.min_le_right ..))
  have h2 : s.Ticked s2 total temp := by
    unfold s2
    split
    · exact (h1.of_regs (u := s1.readRegulator) rfl rfl rfl).wr _ (by decide) (by decide) (by decide)
    · exact h1
  have h3 : s.Ticked s3 total temp := h2.of_regs rfl rfl rfl
  have h4 : s.Ticked s4 total temp := by
    unfold s4
    split
    · exact h3
    · exact h3.capActive
  split
  · exact h3
  · split
    · split
      · exact h4.setpoint _
      · exact h4
    · split
      · exact h3.setpoint _
      · split
        · exact h3.setpoint _
        · exact h3

/-- Above the cap the set-point falls by 5 mV, to 550 mV at the lowest. -/
theorem State.powerTick_setpoint (s : State) {total : Nat} (temp measured : Nat) (havs : s.rd R.PWR_VCORE_AVS_EN = 1)
    (hcap : 100 * min s.cfg.capW (s.rd R.PWR_CAP_CAP) < total) (hlow : 550 < s.rd R.PWR_VCORE_SETPOINT) (hhigh : s.rd R.PWR_VCORE_SETPOINT < 1024) :
    (s.powerTick total temp measured).rd R.PWR_VCORE_SETPOINT = max 550 (s.rd R.PWR_VCORE_SETPOINT - 5) := by
  unfold State.powerTick
  extract_lets avs s1 s2 excess was old s3 sp s4
  have havs' : avs = true := s.flag_of_rd_one havs
  have hrd2 {f : Fld} (h : f.key ≠ R.PWR_POWER_TOTAL.key ∧ f.key ≠ R.PWR_POWER_TEMP.key ∧ f.key ≠ R.PWR_VCORE_MEASURED.key) : s2.rd f = s.rd f := by
    unfold s2
    rw [if_pos havs', State.rd_wr_other _ _ h.2.2]
    exact (State.rd_wr_other _ _ h.2.1).trans (State.rd_wr_other _ _ h.1)
  have hsp : sp = s.rd R.PWR_VCORE_SETPOINT := hrd2 (by decide)
  have hexcess : excess = true := by
    have hcfg : s2.cfg = s.cfg := by
      unfold s2
      rw [if_pos havs']
      rfl
    unfold excess State.capNow
    rw [hcfg, hrd2 (by decide)]
    exact decide_eq_true hcap
  rw [if_neg (by simp [havs']), if_pos hexcess, if_pos (hsp.symm ▸ hlow), hsp]
  exact (State.rd_wr_same ..).trans (Nat.mod_eq_of_lt (lt_of_le_of_lt (Nat.max_le.mpr ⟨Nat.le_of_lt hlow, Nat.sub_le ..⟩) hhigh))

/-- The cap that an accepted write sets. -/
theorem State.capWrite_shown (s : State) (v : Nat) (h : s.cfg.capW < 64) :
    (State.capWrite v s).rd R.PWR_CAP_CAP = max 10 (min s.cfg.capW (v % 64)) :=
  (State.rd_wr_same ..).trans (by
    rw [show bits v 0 6 = v % 64 by simp [bits]]
    exact Nat.mod_eq_of_lt (Nat.max_lt.mpr ⟨by decide, lt_of_le_of_lt (Nat.min_le_left ..) h⟩))

theorem State.avsFault_shown (s : State) : s.sawEvent s.avsFault R.PWR_EVT_AVS_FAULT 0 ∧ s.avsFault.rd R.PWR_VCORE_AVS_EN = 0 ∧
    s.keepsRegs s.avsFault [R.PWR_EVT_AVS_FAULT, R.PWR_EVT_AVS_FAULT.seq, R.PWR_VCORE_AVS_EN, R.PWR_VCORE_MEASURED] := by
  refine ⟨?_, ?_, ?_⟩
  · have h := s.sawEvent_setEvt (f := R.PWR_EVT_AVS_FAULT) 0 (by decide)
    unfold State.sawEvent State.avsFault at *
    simpa (disch := decide) only [State.rd_wr_other] using h
  · unfold State.avsFault
    rw [State.rd_wr_other _ _ (by decide), State.rd_wr_same]
    rfl
  · exact ((s.keepsRegs_setEvt 0 (by decide) (by decide)).trans (State.keepsRegs_wr _ _ (by decide)) (List.Subset.refl _)).trans (State.keepsRegs_wr _ _ (by decide))
      (List.Subset.refl _)

/-- The pools' unit limits, folded over: each changes by its own step. -/
theorem State.limits_fold {f : State → Pool → State} {g : State → Pool → Nat}
    (hf : ∀ s p, (f s p).regs = s.regs ∧ (f s p).mem = s.mem ∧ (f s p).eng = s.eng ∧ tblGet 0 (f s p).pwr.limits p.num = g s p ∧
      ∀ q, q ≠ p → tblGet 0 (f s p).pwr.limits q.num = tblGet 0 s.pwr.limits q.num)
    (hg : ∀ s t p, t.regs = s.regs → t.eng = s.eng → tblGet 0 t.pwr.limits p.num = tblGet 0 s.pwr.limits p.num → g t p = g s p)
    (s : State) (l : List Pool) (hl : l.Nodup) : (l.foldl f s).regs = s.regs ∧ (l.foldl f s).mem = s.mem ∧ (l.foldl f s).eng = s.eng ∧
      ∀ p, tblGet 0 (l.foldl f s).pwr.limits p.num = if p ∈ l then g s p else tblGet 0 s.pwr.limits p.num := by
  induction l generalizing s with
  | nil => exact ⟨rfl, rfl, rfl, fun p => (if_neg (List.not_mem_nil)).symm⟩
  | cons q t ih =>
    obtain ⟨hnot, hnd⟩ := List.nodup_cons.mp hl
    obtain ⟨hr, hm, he, hsame, hother⟩ := hf s q
    obtain ⟨hr', hm', he', hp⟩ := ih (f s q) hnd
    refine ⟨hr'.trans hr, hm'.trans hm, he'.trans he, fun p => (hp p).trans ?_⟩
    by_cases hpq : p = q
    · subst hpq
      rw [if_neg hnot, if_pos List.mem_cons_self, hsame]
    · rw [hother p hpq, hg s (f s q) p hr he (hother p hpq)]
      simp [hpq]

theorem State.serving_congr {s t : State} (hr : t.regs = s.regs) (he : t.eng = s.eng) (p : Pool) : t.serving p = s.serving p := by
  have hrd (f : Fld) : t.rd f = s.rd f := State.rd_of_regs hr f
  have hin (u : Nat) : t.inService p u = s.inService p u := by
    unfold State.inService State.isTesting State.isSpare State.flag
    cases p <;> simp only [hrd, he]
  unfold State.serving
  rw [show t.inService p = s.inService p from funext hin]

theorem Pool.num_injective {p q : Pool} (h : p.num = q.num) : p = q := by
  cases p <;> cases q <;> first | rfl | cases h

theorem tblGet_limits_other {s : State} {p q : Pool} (h : q ≠ p) (v : Nat) : tblGet 0 (tblPut 0 s.pwr.limits p.num v) q.num = tblGet 0 s.pwr.limits q.num :=
  tblGet_put_other _ _ _ _ fun e => h (Pool.num_injective e)

/-- The limits that an excess leaves. -/
def State.halved (s : State) (p : Pool) : Nat :=
  if s.serving p = 0 then tblGet 0 s.pwr.limits p.num
  else ((if tblGet 0 s.pwr.limits p.num = 0 then s.serving p else tblGet 0 s.pwr.limits p.num) + 1) / 2

/-- The limits that a tick below the cap leaves. -/
def State.raised (s : State) (p : Pool) : Nat :=
  if tblGet 0 s.pwr.limits p.num = 0 ∨ s.serving p ≤ tblGet 0 s.pwr.limits p.num + 1 then 0 else tblGet 0 s.pwr.limits p.num + 1

theorem State.halveLimit_shown (s : State) (p : Pool) : (s.halveLimit p).regs = s.regs ∧ (s.halveLimit p).mem = s.mem ∧ (s.halveLimit p).eng = s.eng ∧
    tblGet 0 (s.halveLimit p).pwr.limits p.num = s.halved p ∧
    ∀ q, q ≠ p → tblGet 0 (s.halveLimit p).pwr.limits q.num = tblGet 0 s.pwr.limits q.num := by
  unfold State.halveLimit State.halved
  dsimp only
  split
  next h => exact ⟨rfl, rfl, rfl, rfl, fun _ _ => rfl⟩
  next h =>
    refine ⟨rfl, rfl, rfl, (tblGet_put_same ..).trans ?_, fun q hq => tblGet_limits_other hq _⟩
    split <;> rfl

theorem State.raiseLimit_shown (s : State) (p : Pool) : (s.raiseLimit p).regs = s.regs ∧ (s.raiseLimit p).mem = s.mem ∧ (s.raiseLimit p).eng = s.eng ∧
    tblGet 0 (s.raiseLimit p).pwr.limits p.num = s.raised p ∧
    ∀ q, q ≠ p → tblGet 0 (s.raiseLimit p).pwr.limits q.num = tblGet 0 s.pwr.limits q.num := by
  unfold State.raiseLimit State.raised
  dsimp only
  split
  next h => exact ⟨rfl, rfl, rfl, by simp [h], fun _ _ => rfl⟩
  next h =>
    refine ⟨rfl, rfl, rfl, (tblGet_put_same ..).trans ?_, fun q hq => tblGet_limits_other hq _⟩
    simp only [h, false_or]

theorem allPools_mem (p : Pool) : p ∈ allPools := by cases p <;> decide

end Sys2Proof.Machine
end

section
/-! The loss and the return of a supply (R63, R64). -/

namespace Sys2Proof.Machine

theorem domState_key_ne {x y : Nat} (h : x ≠ y) : (domState x).key ≠ (domState y).key := by
  simp only [domState, Fld.key, Fld.ix, R.PWR_DOM_STAT_STATE]
  omega

namespace State
variable (s : State)

theorem rd_clearRegs_other {lo hi : Nat} {f : Fld} (h : f.outside lo hi) (hhi : hi ≤ 0x1000000) : (s.clearRegs lo hi).rd f = s.rd f := by
  obtain ⟨hlsb, hoff, hout⟩ := h
  have hkeep (b : Nat) (t : Tbl Nat) : tblGet f.reset (regsClear lo hi b t) f.key = tblGet f.reset t f.key := by
    refine tblGet_filter_keep f.reset (fun k => !(decide ((b * 0x1000000 + lo) * 64 ≤ k) && decide (k < (b * 0x1000000 + hi) * 64))) t ?_
    have hout' : f.key < (b * 0x1000000 + lo) * 64 ∨ (b * 0x1000000 + hi) * 64 ≤ f.key := by
      simp only [Fld.key]
      omega
    simpa using hout'
  exact (hkeep 3 _).trans ((hkeep 2 _).trans ((hkeep 1 _).trans (hkeep 0 _)))

theorem rd_setDom {d x st : Nat} (hx : x ∈ domGroup d) : (s.setDom d st).rd (domState x) = st % 4 :=
  s.rd_foldl_wr_mem (w := 2) (r := 0) (fun _ => ⟨rfl, rfl⟩) hx

theorem rd_setDom_other {d st : Nat} {f : Fld} (hf : ∀ x ∈ domGroup d, f.key ≠ (domState x).key) : (s.setDom d st).rd f = s.rd f :=
  s.rd_foldl_wr _ hf

end State

/-- A channel whose supply is lost, with no command in flight and nothing held or locked there. -/
theorem State.loseChannel_idle (s : State) {c : Nat} (hidle : s.dsp.inflight = []) (hheld : (s.chan c).heldFill = []) (hlocks : (s.chan c).locks = []) :
    (s.loseChannel c).regs = s.regs ∧ (s.loseChannel c).chan c = {} ∧ (s.loseChannel c).pwr = s.pwr := by
  unfold State.loseChannel
  simp only [hidle, hheld, hlocks, List.filter_nil, List.foldl_nil, List.flatMap_nil, List.append_nil]
  exact ⟨rfl, (tblGet_put_same ({} : Ddr) s.ddr c {} :), rfl⟩

theorem domGroup_rail (c : Fin 2) (x : Nat) : x ∈ domGroup (18 + 4 * c.val) ↔ 18 + 4 * c.val ≤ x ∧ x < 18 + 4 * c.val + 4 := by
  match c with
  | 0 =>
    show x ∈ [18, 19, 20, 21] ↔ 18 ≤ x ∧ x < 22
    simp only [List.mem_cons, List.not_mem_nil, or_false]
    omega
  | 1 =>
    show x ∈ [22, 23, 24, 25] ↔ 22 ≤ x ∧ x < 26
    simp only [List.mem_cons, List.not_mem_nil, or_false]
    omega

/-- A field of another register than the states of the domains. -/
theorem domState_ne_of_off {f : Fld} (hf : f.lsb < 64 ∧ f.bank = 0 ∧ (f.off < 0x10100 ∨ 0x10200 ≤ f.off)) {d : Nat} (hd : d < 60) : f.key ≠ (domState d).key := by
  obtain ⟨hlsb, hbank, hoff⟩ := hf
  simp only [domState, Fld.key, Fld.ix, R.PWR_DOM_STAT_STATE, hbank]
  omega

/-- The key that DDR5 is encrypted with is where it was. -/
theorem State.ddrKeyGone_congr {s t : State} (hb : t.boot = s.boot) (hk : t.keys = s.keys) : t.ddrKeyGone = s.ddrKeyGone := by
  unfold State.ddrKeyGone State.deviceKey State.reservedSlot State.slotAt
  rw [hb, hk]

/-- A field of a channel's status: it is none of a domain's. -/
theorem memState_off (c : Fin 2) : (R.MEM_STATUS_STATE.mem c.val).lsb < 64 ∧ (R.MEM_STATUS_STATE.mem c.val).bank = 0 ∧
    ((R.MEM_STATUS_STATE.mem c.val).off < 0x10100 ∨ 0x10200 ≤ (R.MEM_STATUS_STATE.mem c.val).off) := by
  match c with
  | 0 | 1 => decide

theorem memState_ne_domainEvents (c : Fin 2) :
    (R.MEM_STATUS_STATE.mem c.val).key ≠ R.PWR_EVT_DOMAIN_LOST.key ∧ (R.MEM_STATUS_STATE.mem c.val).key ≠ R.PWR_EVT_DOMAIN_LOST.seq.key ∧
    (R.MEM_STATUS_STATE.mem c.val).key ≠ R.PWR_EVT_DOMAIN_RETURNED.key ∧ (R.MEM_STATUS_STATE.mem c.val).key ≠ R.PWR_EVT_DOMAIN_RETURNED.seq.key := by
  match c with
  | 0 | 1 => decide

/-- What an event of the domains leaves of their states. -/
theorem State.rd_domState_setEvt (s : State) {f : Fld} (hf : (f.lsb < 64 ∧ f.bank = 0 ∧ (f.off < 0x10100 ∨ 0x10200 ≤ f.off)) ∧
    f.seq.lsb < 64 ∧ f.seq.bank = 0 ∧ (f.seq.off < 0x10100 ∨ 0x10200 ≤ f.seq.off)) {d : Nat} (hd : d < 60) : (s.setEvt f).rd (domState d) = s.rd (domState d) :=
  State.rd_setEvt_other _ _ (domState_ne_of_off hf.1 hd).symm (domState_ne_of_off hf.2 hd).symm

/-- Any group's loss leaves its domains in LOST, with the event. -/
theorem State.groupLost_shown (s : State) {d : Nat} (hd : ∀ x ∈ domGroup d, x < 60) :
    (∀ x ∈ domGroup d, (s.groupLost d).rd (domState x) = 3) ∧ (s.groupLost d).rd R.PWR_EVT_DOMAIN_LOST = 1 := by
  unfold State.groupLost
  exact ⟨fun x hx => (State.rd_domState_setEvt _ (by decide) (hd x hx)).trans (State.rd_setDom _ hx), State.rd_setEvt_same _ rfl (by decide)⟩

/-- The loss of a channel's supply. -/
theorem State.groupLost_channel (s : State) (c : Fin 2) (hkey : s.ddrKeyGone = false) (hidle : s.dsp.inflight = []) (hheld : (s.chan c.val).heldFill = [])
    (hlocks : (s.chan c.val).locks = []) : let d := 18 + 4 * c.val
    let t := s.groupLost d
    (∀ x, d ≤ x → x < d + 4 → t.rd (domState x) = 3) ∧ t.rd R.PWR_EVT_DOMAIN_LOST = 1 ∧ t.rd (R.MEM_STATUS_STATE.mem c.val) = 4 ∧ t.chan c.val = {} ∧
      tblGet 0 t.pwr.moving d = 0 := by
  intro d t
  have hd : ¬(d = 3 ∨ d = 8) ∧ d ≠ 13 ∧ (d - 18) / 4 = c.val := by omega
  have hgroup (x : Nat) : x ∈ domGroup d ↔ d ≤ x ∧ x < d + 4 := domGroup_rail c x
  have hlt (x : Nat) (hx : x ∈ domGroup d) : x < 60 := by have := (hgroup x).mp hx; omega
  obtain ⟨hstate, hevt⟩ := s.groupLost_shown hlt
  let s2 : State := { s.supersede d with pwr := { (s.supersede d).pwr with moving := tblPut 0 (s.supersede d).pwr.moving d 0 } }
  let s3 := s2.leaveTest (3 + c.val)
  let s4 := s3.wr (R.MEM_STATUS_STATE.mem c.val) 4
  have hdsp : s3.dsp = s.dsp := State.leaveTest_keepsDsp (s := s2) (State.supersede_keepsDsp (s := s) rfl)
  have hddr : s3.ddr = s.ddr := State.leaveTest_keepsDdr (s := s2) (State.supersede_keepsDdr (s := s) rfl)
  have hgone : s3.ddrKeyGone = false := (State.ddrKeyGone_congr (State.leaveTest_keepsBoot (s := s2) (State.supersede_keepsBoot (s := s) rfl))
    (State.leaveTest_keepsKeys (s := s2) (State.supersede_keepsKeys (s := s) rfl))).trans hkey
  have hpwr : s3.pwr = s2.pwr := State.leaveTest_keepsPwr rfl
  have hchan : s4.chan c.val = s.chan c.val := congrArg (fun l => tblGet ({} : Ddr) l c.val) hddr
  obtain ⟨hregs, hempty, hpwr'⟩ := s4.loseChannel_idle (c := c.val) ((congrArg Dsp.inflight hdsp :).trans hidle) ((congrArg Ddr.heldFill hchan :).trans hheld)
    ((congrArg Ddr.locks hchan :).trans hlocks)
  have ht : t = ((s4.loseChannel c.val).setDom d 3).setEvt R.PWR_EVT_DOMAIN_LOST := by
    unfold t State.groupLost
    dsimp only
    rw [if_neg hd.1, if_neg hd.2.1, hd.2.2]
    show (State.setDom ((s3.wr _ (if s3.ddrKeyGone = true then 5 else 4)).loseChannel c.val) d 3).setEvt _ = _
    rw [hgone]
    rfl
  obtain ⟨hlost, hlost', -, -⟩ := memState_ne_domainEvents c
  refine ⟨fun x hlo hhi => hstate x ((hgroup x).mpr ⟨hlo, hhi⟩), hevt, ?_, ?_, ?_⟩
  · rw [ht, State.rd_setEvt_other _ _ hlost hlost', State.rd_setDom_other _ fun x hx => domState_ne_of_off (memState_off c) (hlt x hx), State.rd_of_regs hregs]
    exact State.rd_wr_same ..
  · rw [ht]
    exact (congrArg (fun l => tblGet ({} : Ddr) l c.val) (State.setDom_keepsDdr rfl : (State.setDom (s4.loseChannel c.val) d 3).ddr = _) :).trans hempty
  · rw [ht]
    refine (congrArg (fun p : Pwr => tblGet 0 p.moving d) ((State.setDom_keepsPwr rfl : (State.setDom (s4.loseChannel c.val) d 3).pwr = _).trans (hpwr'.trans hpwr)) :).trans ?_
    exact (tblGet_put_same 0 (s.supersede d).pwr.moving d 0 :)

/-- The return of a channel's supply: it trains again. -/
theorem State.domainOn_channel (s : State) (c : Fin 2) (hkey : s.ddrKeyGone = false) (hlost : s.rd (domState (18 + 4 * c.val)) = 3) : let d := 18 + 4 * c.val
    let t := (s.domainOn d).setEvt R.PWR_EVT_DOMAIN_RETURNED
    (∀ x, d ≤ x → x < d + 4 → t.rd (domState x) = 0) ∧ t.rd R.PWR_EVT_DOMAIN_RETURNED = 1 ∧ t.rd (R.MEM_STATUS_STATE.mem c.val) = 1 ∧ t.chan c.val = {} := by
  intro d t
  have hd : ¬(d = 3 ∨ d = 8) ∧ d ≠ 13 ∧ (d = 18 ∨ d = 22) ∧ (d - 18) / 4 = c.val := by omega
  have hgone : ((s.setDom d 0).clearRegs (0xB0000 + 0x1000 * c.val) (0xB1000 + 0x1000 * c.val)).ddrKeyGone = false :=
    (State.ddrKeyGone_congr (State.setDom_keepsBoot rfl : (s.setDom d 0).boot = s.boot) (State.setDom_keepsKeys rfl : (s.setDom d 0).keys = s.keys) :).trans hkey
  have hon : s.domainOn d = (((s.setDom d 0).clearRegs (0xB0000 + 0x1000 * c.val) (0xB1000 + 0x1000 * c.val)).setChan c.val {}).wr (R.MEM_STATUS_STATE.mem c.val) 1 := by
    unfold State.domainOn
    dsimp only
    rw [if_neg hd.1, if_neg hd.2.1, if_pos hd.2.2.1, hd.2.2.2, if_pos (beq_iff_eq.mpr hlost)]
    unfold State.powerChannel State.trainChannel
    rw [hgone]
    rfl
  obtain ⟨-, -, hret, hret'⟩ := memState_ne_domainEvents c
  have ht : t = _ := congrArg (fun s : State => s.setEvt R.PWR_EVT_DOMAIN_RETURNED) hon
  refine ⟨fun x hlo hhi => ?_, State.rd_setEvt_same _ rfl (by decide), ?_, ?_⟩
  · have hx : x < 60 := by omega
    have hout : (domState x).outside (0xB0000 + 0x1000 * c.val) (0xB1000 + 0x1000 * c.val) := by
      simp only [Fld.outside, domState, Fld.ix, R.PWR_DOM_STAT_STATE]
      omega
    rw [ht, State.rd_domState_setEvt _ (by decide) hx, State.rd_wr_other _ _ (domState_ne_of_off (memState_off c) hx).symm]
    refine (State.rd_clearRegs_other (s.setDom d 0) hout (by omega) :).trans ?_
    exact s.rd_setDom ((domGroup_rail c x).mpr ⟨hlo, hhi⟩)
  · rw [ht, State.rd_setEvt_other _ _ hret hret']
    exact State.rd_wr_same ..
  · rw [ht]
    exact (tblGet_put_same ({} : Ddr) (s.setDom d 0).ddr c.val {} :)

theorem railGroups_channel (c : Fin 2) : railGroups (if c = 0 then Rail.ddrA else Rail.ddrB) = [18 + 4 * c.val] := by
  revert c
  decide

theorem State.groupThere_channel (s : State) {c : Fin 2} (hdb : c = 1 → s.cfg.dbPresent = true) : s.groupThere (18 + 4 * c.val) = true := by
  match c with
  | 0 => rfl
  | 1 => exact hdb rfl

/-- A rail that feeds one group. -/
theorem State.supplyLost_of_group {s : State} {rail : Rail} {d : Nat} (hr : railGroups rail = [d]) (hthere : s.groupThere d = true) (hst : s.rd (domState d) ≠ 3)
    (halive : s.boot.alive = true) : execDomainSupplyLost rail s = .next (s.groupLost d) := by
  simp [execDomainSupplyLost, hr, hthere, hst, halive]

theorem State.supplyReturned_of_group {s : State} {rail : Rail} {d : Nat} (hr : railGroups rail = [d]) (hthere : s.groupThere d = true) (hst : s.rd (domState d) = 3) :
    execDomainSupplyReturned rail s = .next ((s.domainOn d).setEvt R.PWR_EVT_DOMAIN_RETURNED) := by
  simp [execDomainSupplyReturned, hr, hthere, hst]

/-- The rail of the SerDes feeds the Soade group last. -/
theorem State.supplyLost_serdes {s : State} (hst : s.rd (domState 13) ≠ 3) (halive : s.boot.alive = true) :
    ∃ u : State, execDomainSupplyLost .serdes s = .next (u.groupLost 13) := by
  let there (d : Nat) := s.groupThere d && s.rd (domState d) != 3
  have hlist : (railGroups .serdes).filter there = [3, 8].filter there ++ [13] := by
    rw [show railGroups .serdes = [3, 8] ++ [13] from rfl, List.filter_append]
    simp [there, State.groupThere, hst]
  refine ⟨([3, 8].filter there).foldl State.groupLost s, ?_⟩
  unfold execDomainSupplyLost
  extract_lets l
  rw [show l = _ from hlist, if_neg (by simp [halive]), List.foldl_append]
  rfl

theorem domGroup_soade (x : Nat) : x ∈ domGroup 13 ↔ 13 ≤ x ∧ x < 18 := by
  show x ∈ [13, 14, 15, 16, 17] ↔ _
  simp only [List.mem_cons, List.not_mem_nil, or_false]
  omega

/-- Settles O17. -/
theorem powerManagerRows : Obligations.PowerManagerRows := by
  unfold Obligations.PowerManagerRows
  refine ⟨fun s => ⟨fun rate => ?_, fun total temp measured halive => ?_, fun who complement v hpass hhigh hlow => ?_, fun w havs hw => ?_, fun havs => ?_⟩,
    fun s => ?_, fun s halive => ?_⟩
  · exact ⟨_, rfl, (State.rd_wr_same ..).trans (Nat.mod_eq_of_lt (Nat.lt_succ_of_le (Nat.min_le_right ..))), rfl, State.keepsRegs_wr _ _ (List.mem_singleton.mpr rfl)⟩
  · obtain ⟨hkeep, htotal, htemp, hmem, hcores⟩ := s.powerTick_ticked total temp measured
    exact ⟨_, (if_pos halive : execPowerManagerTick total temp measured s = _), htotal, htemp, hmem, hcores, hkeep, s.powerTick_setpoint temp measured⟩
  · refine ⟨_, congrArg Host.Outcome.next (State.writeGuarded_of_passes hpass _), (s.dropGuard 0x10008).capWrite_shown v hhigh,
      State.keepsRegs_wr (s.dropGuard 0x10008) _ (List.mem_singleton.mpr rfl), rfl, fun g hg => ?_⟩
    exact bne_iff_ne.mp (List.mem_filter.mp hg).2
  · obtain ⟨hevt, hoff, hkeep⟩ := (s.emit (.pmbus 0x79 w.toNat)).avsFault_shown
    have hexec : exec (.avsAlert w) s = .next (s.emit (.pmbus 0x79 w.toNat)).avsFault := by
      show execAvsAlert w s = _
      unfold execAvsAlert
      rw [if_pos (s.flag_of_rd_one havs)]
      exact congrArg Host.Outcome.next (if_neg hw)
    exact ⟨_, hexec, hevt, hoff, hkeep⟩
  · obtain ⟨hevt, hoff, hkeep⟩ := s.avsFault_shown
    exact ⟨_, (if_pos (s.flag_of_rd_one havs) : execAvsTimeout s = _), hevt, hoff, rfl, hkeep⟩
  · intro limit
    refine ⟨fun hover hsp => ?_, fun hover htotal => ?_⟩
    · obtain ⟨hr, hm, -, hp⟩ := State.limits_fold State.halveLimit_shown (fun s t p hr he hl => by
        unfold State.halved
        rw [State.serving_congr hr he, hl]) s allPools (by decide)
      refine ⟨_, (if_pos ⟨hover, .inr hsp⟩ : execCapLimitStep s = _), hr, hm, fun p hserve => (hp p).trans ((if_pos (allPools_mem p)).trans ?_)⟩
      exact if_neg (Nat.ne_of_gt hserve)
    · obtain ⟨hr, hm, -, hp⟩ := State.limits_fold State.raiseLimit_shown (fun s t p hr he hl => by
        unfold State.raised
        rw [State.serving_congr hr he, hl]) s allPools (by decide)
      exact ⟨_, ((if_neg (by simp [hover])).trans (if_pos htotal) : execCapLimitStep s = _), hr, hm, fun p => (hp p).trans (if_pos (allPools_mem p))⟩
  · refine ⟨?_, fun hst => ?_⟩
    · intro c rail d hkey hdb
      have hr : railGroups rail = [d] := railGroups_channel c
      have hthere : s.groupThere d = true := s.groupThere_channel hdb
      refine ⟨fun hst hidle hheld hlocks => ?_, fun hst => ?_⟩
      · exact ⟨_, State.supplyLost_of_group hr hthere hst halive, s.groupLost_channel c hkey hidle hheld hlocks⟩
      · exact ⟨_, State.supplyReturned_of_group hr hthere hst, s.domainOn_channel c hkey hst⟩
    · obtain ⟨u, hexec⟩ := State.supplyLost_serdes hst halive
      obtain ⟨hstate, hevt⟩ := u.groupLost_shown (d := 13) (by decide)
      exact ⟨_, hexec, fun x hlo hhi => hstate x ((domGroup_soade x).mpr ⟨hlo, hhi⟩), hevt⟩

end Sys2Proof.Machine
end

section
/-! Power domains: requests and transitions (R56 to R61). -/

namespace Sys2Proof.Machine

/-- A field of the domains' status words, at another bit than a field of the same words. -/
theorem domStat_key_ne {f g : Fld} (hf : f.lsb < 64) (hg : g.lsb < 64) (h : f.lsb ≠ g.lsb) (d e : Nat) : (f.ix d).key ≠ (g.ix e).key :=
  Fld.key_ne_of_lsb hf hg h

theorem State.startMove_moving (s : State) (d target : Nat) : tblGet 0 (s.startMove d target).pwr.moving d = target + 1 := by
  unfold State.startMove
  exact (tblGet_put_same 0 _ d (target + 1) :)

theorem State.startMove_mem (s : State) (d target : Nat) : (s.startMove d target).mem = s.mem := by
  unfold State.startMove
  dsimp only
  split
  · split
    · rfl
    · split <;> rfl
  · rfl

theorem State.startMove_regs {s : State} {d target : Nat} (h : target ≠ 0 ∨ s.rd (domState d) ≠ 2 ∨ (d ≠ 18 ∧ d ≠ 22)) :
    (s.startMove d target).regs = s.regs := by
  unfold State.startMove
  dsimp only
  split
  next hoff =>
    obtain ⟨h18, h22⟩ : d ≠ 18 ∧ d ≠ 22 := (h.resolve_left (· hoff.1)).resolve_left (· hoff.2)
    rw [if_neg h18, if_neg h22]
  next => rfl

/-- A DDR group's way out of OFF begins with the training of its channel. -/
theorem State.startMove_trains {s : State} (c : Fin 2) (hoff : s.rd (domState (18 + 4 * c.val)) = 2) (hkey : s.ddrKeyGone = false) :
    (s.startMove (18 + 4 * c.val) 0).rd (R.MEM_STATUS_STATE.mem c.val) = 1 := by
  have hgone (x : Nat) : (s.clearRegs (0xB0000 + 0x1000 * x) (0xB1000 + 0x1000 * x)).ddrKeyGone = false := hkey
  have htrain (x : Nat) : s.powerChannel x = ((s.clearRegs (0xB0000 + 0x1000 * x) (0xB1000 + 0x1000 * x)).setChan x {}).wr (R.MEM_STATUS_STATE.mem x) 1 := by
    unfold State.powerChannel State.trainChannel
    rw [hgone]
    rfl
  unfold State.startMove
  rw [if_pos ⟨rfl, hoff⟩]
  match c with
  | 0 =>
    show (s.powerChannel 0).rd _ = _
    rw [htrain]
    exact State.rd_wr_same ..
  | 1 =>
    show (s.powerChannel 1).rd _ = _
    rw [htrain]
    exact State.rd_wr_same ..

theorem domHead_lt {d : Nat} (hd : d < 60) : domHead d < 60 :=
  (by decide : ∀ d < 60, domHead d < 60) d hd

/-- The fields of a request: one copy for each world. -/
def requestFields (w : World) : List Fld :=
  [R.PWR_DOM_REQ_DOMAIN.inst w.num, R.PWR_DOM_REQ_TARGET.inst w.num, R.PWR_DOM_REQ_RESULT.inst w.num]

theorem State.domReqWrite_badDomain (s : State) (who : Requester) {v : Nat} (h : 60 ≤ v % 64) :
    (s.domReqWrite who v).rd (R.PWR_DOM_REQ_RESULT.inst (worldOf who).num) = 5 ∧ s.onlyRegs (s.domReqWrite who v) (requestFields (worldOf who)) := by
  have hwrite : s.domReqWrite who v = ((s.wr (R.PWR_DOM_REQ_DOMAIN.inst (worldOf who).num) (bits v 0 6)).wr (R.PWR_DOM_REQ_TARGET.inst (worldOf who).num)
      (bits v 8 2)).domResult (worldOf who) 5 :=
    if_pos (by simpa [bits] using h)
  rw [hwrite]
  exact ⟨State.rd_wr_same .., rfl, ((s.keepsRegs_wr _ (by simp [requestFields])).trans (State.keepsRegs_wr _ _ (by simp [requestFields])) (List.Subset.refl _)).trans
    (State.keepsRegs_wr _ _ (by simp [requestFields])) (List.Subset.refl _)⟩

/-- A field of the domains' status words is not one of a request. -/
theorem domStat_ne_request {f : Fld} (hf : f.bank = 0 ∧ f.stride = 4 ∧ f.off = 0x10100 ∧ f.lsb < 64) {d : Nat} (hd : d < 60) (w : World) {g : Fld}
    (hg : g = R.PWR_DOM_REQ_DOMAIN ∨ g = R.PWR_DOM_REQ_TARGET ∨ g = R.PWR_DOM_REQ_RESULT) : (f.ix d).key ≠ (g.inst w.num).key := by
  obtain ⟨hb, hs, ho, hl⟩ := hf
  have hgo : g.off = 0x10020 ∧ g.lsb < 64 := by rcases hg with rfl | rfl | rfl <;> decide
  simp only [Fld.key, Fld.ix, Fld.inst, hb, hs, ho, hgo.1]
  have := World.num_lt w
  omega

/-- A request for ON of a domain that is ON. -/
theorem State.domReqWrite_reached {s : State} (who : Requester) {v d : Nat} (hd : d < 60) (hv : v % 64 = d) (htarget : v / 256 % 4 = 0) (hhead : domHead d = d)
    (hon : s.rd (domState d) = 0) (hworld : s.rd (R.PWR_DOM_STAT_WORLD.ix d) = 2) (hpend : s.rd (R.PWR_DOM_STAT_PENDING.ix d) = 3)
    (hdb : 22 ≤ d ∧ d ≤ 25 → s.cfg.dbPresent = true) :
    let t := s.domReqWrite who v
    t.rd (R.PWR_DOM_REQ_RESULT.inst (worldOf who).num) = 1 ∧ t.rd R.PWR_EVT_GATE_DONE = 1 ∧ t.mem = s.mem ∧ t.pwr = s.pwr := by
  let s1 := (s.wr (R.PWR_DOM_REQ_DOMAIN.inst (worldOf who).num) d).wr (R.PWR_DOM_REQ_TARGET.inst (worldOf who).num) 0
  have hrd {f : Fld} (hf : f.bank = 0 ∧ f.stride = 4 ∧ f.off = 0x10100 ∧ f.lsb < 64) : s1.rd (f.ix d) = s.rd (f.ix d) :=
    (State.rd_wr_other _ _ (domStat_ne_request hf hd _ (.inr (.inl rfl)))).trans (State.rd_wr_other _ _ (domStat_ne_request hf hd _ (.inl rfl)))
  have hon1 : s1.rd (domState d) = 0 := (hrd (by decide)).trans hon
  have hallowed : s1.stateAllowed d 0 = true := by
    have hthere : (decide (22 ≤ d) && decide (d ≤ 25) && !s.cfg.dbPresent) = false := by
      by_cases h : 22 ≤ d ∧ d ≤ 25
      · simp [hdb h]
      · simp only [Bool.and_eq_false_iff, decide_eq_false_iff_not]
        omega
    unfold State.stateAllowed
    rw [if_neg (by simp [hon1]), if_pos rfl]
    exact congrArg (!·) hthere
  have haccept : s1.acceptRequest (worldOf who) d 0 = (s1.domResult (worldOf who) 1).setEvt R.PWR_EVT_GATE_DONE := by
    have hsuper : s1.supersede d = s1 := if_pos ((hrd (by decide)).trans hpend)
    unfold State.acceptRequest
    rw [hsuper]
    exact if_pos hon1
  have hwrite : s.domReqWrite who v = (s1.domResult (worldOf who) 1).setEvt R.PWR_EVT_GATE_DONE := by
    have hbits : bits v 0 6 = d ∧ bits v 8 2 = 0 := by simp [bits, hv, htarget]
    unfold State.domReqWrite
    dsimp only
    rw [hbits.1, hbits.2]
    show s1.domRequest (worldOf who) _ d 0 = _
    unfold State.domRequest
    dsimp only
    rw [if_neg (Nat.not_le.mpr hd), hhead, if_neg (fun h => h.1 ((hrd (by decide)).trans hworld)), if_neg (by simp [hallowed]), if_neg (fun h => absurd h.1 (by decide))]
    exact haccept
  intro t
  rw [show t = _ from hwrite]
  refine ⟨?_, State.rd_setEvt_same _ rfl (by decide), rfl, rfl⟩
  rw [State.rd_setEvt_other]
  · exact State.rd_wr_same ..
  · cases worldOf who <;> decide
  · cases worldOf who <;> decide

/-- A single domain's group has no channel's training. -/
theorem State.moveReady_of_single (s : State) {d : Nat} (h : domGroup d = [d]) (target : Nat) : s.moveReady d target = true := by
  have h18 : d ≠ 18 := by rintro rfl; exact absurd h (by decide)
  have h22 : d ≠ 22 := by rintro rfl; exact absurd h (by decide)
  simp [State.moveReady, h18, h22]

/-- What the end of a transition shows once the domain's state is the new one. -/
theorem State.endPending_shown (s : State) {d : Nat} (hd : d < 60) (hgroup : domGroup d = [d]) :
    let t := ((s.pendResult d 1).setPending d 3 .secure).setEvt R.PWR_EVT_GATE_DONE
    t.rd (domState d) = s.rd (domState d) ∧ t.rd (R.PWR_DOM_STAT_PENDING.ix d) = 3 ∧ t.rd R.PWR_EVT_GATE_DONE = 1 ∧ t.mem = s.mem ∧ t.pwr = s.pwr ∧
      (domHead (s.rd (R.PWR_DOM_REQ_DOMAIN.inst (s.pendWorld d).num)) = d → t.rd (R.PWR_DOM_REQ_RESULT.inst (s.pendWorld d).num) = 1) := by
  intro t
  have ht : t = (((s.pendResult d 1).wr (R.PWR_DOM_STAT_PENDING.ix d) 3).wr (R.PWR_DOM_STAT_PEND_WORLD.ix d) 0).setEvt R.PWR_EVT_GATE_DONE := by
    show State.setEvt (State.setPending _ d 3 .secure) _ = _
    unfold State.setPending
    rw [hgroup]
    rfl
  have hevt {f : Fld} (hf : f.lsb < 64 ∧ f.bank = 0 ∧ f.off = 0x10100 ∧ f.stride = 4) : t.rd (f.ix d) = (((s.pendResult d 1).wr (R.PWR_DOM_STAT_PENDING.ix d) 3).wr
      (R.PWR_DOM_STAT_PEND_WORLD.ix d) 0).rd (f.ix d) := by
    obtain ⟨hl, hb, ho, hs⟩ := hf
    rw [ht]
    refine State.rd_setEvt_other _ _ ?_ ?_ <;>
    · simp only [Fld.key, Fld.ix, Fld.seq, R.PWR_EVT_GATE_DONE, hb, ho, hs]
      omega
  have hres (f : Fld) (hf : f.bank = 0 ∧ f.stride = 4 ∧ f.off = 0x10100 ∧ f.lsb < 64) : (s.pendResult d 1).rd (f.ix d) = s.rd (f.ix d) := by
    unfold State.pendResult
    dsimp only
    split
    · exact State.rd_wr_other _ _ (domStat_ne_request hf hd _ (.inr (.inr rfl)))
    · rfl
  refine ⟨?_, ?_, ?_, ?_, ?_, fun hlast => ?_⟩
  · refine (hevt (f := R.PWR_DOM_STAT_STATE) (by decide)).trans ?_
    rw [State.rd_wr_other _ _ (domStat_key_ne (by decide) (by decide) (by decide) d d), State.rd_wr_other _ _ (domStat_key_ne (by decide) (by decide) (by decide) d d)]
    exact hres _ (by decide)
  · rw [hevt (by decide), State.rd_wr_other _ _ (domStat_key_ne (by decide) (by decide) (by decide) d d)]
    exact State.rd_wr_same ..
  · rw [ht]
    exact State.rd_setEvt_same _ rfl (by decide)
  · rw [ht]
    exact (State.pendResult_keepsMem rfl : (s.pendResult d 1).mem = _)
  · rw [ht]
    exact (State.pendResult_keepsPwr rfl : (s.pendResult d 1).pwr = _)
  · have hpr : s.pendResult d 1 = s.wr (R.PWR_DOM_REQ_RESULT.inst (s.pendWorld d).num) 1 := if_pos hlast
    rw [ht, State.rd_setEvt_other, State.rd_wr_other _ _ (domStat_ne_request (by decide) hd _ (.inr (.inr rfl))).symm,
      State.rd_wr_other _ _ (domStat_ne_request (by decide) hd _ (.inr (.inr rfl))).symm, hpr]
    · exact State.rd_wr_same ..
    · cases s.pendWorld d <;> decide
    · cases s.pendWorld d <;> decide

/-- A transition of a single domain between ON and BASKING ends. -/
theorem State.transitionDone_single {s : State} {d target : Nat} (hgroup : domGroup d = [d]) (ht : target < 2) (hwas : s.rd (domState d) < 2)
    (hmove : tblGet 0 s.pwr.moving d = target + 1) (hpend : s.rd (R.PWR_DOM_STAT_PENDING.ix d) = target) :
    let s1 := ({ s with pwr := { s.pwr with moving := tblPut 0 s.pwr.moving d 0 } } : State).wr (domState d) target
    execDomainTransitionDone d s = .next (((s1.pendResult d 1).setPending d 3 .secure).setEvt R.PWR_EVT_GATE_DONE) := by
  intro s1
  have hhead : domHead d = d := by simp [domHead, hgroup]
  have hreach : State.reachState { s with pwr := { s.pwr with moving := tblPut 0 s.pwr.moving d 0 } } d target = s1 := by
    unfold State.reachState
    dsimp only
    rw [if_neg (Nat.ne_of_lt ht), if_neg (fun h => absurd h.2 (Nat.not_le.mpr hwas))]
    unfold State.setDom
    rw [hgroup]
    rfl
  have hpend1 : s1.rd (R.PWR_DOM_STAT_PENDING.ix d) = target :=
    (State.rd_wr_other _ _ (domStat_key_ne (by decide) (by decide) (by decide) d d)).trans hpend
  unfold execDomainTransitionDone
  dsimp only
  simp only [hhead, hmove, s.moveReady_of_single hgroup, Bool.not_true, Bool.false_eq_true, if_false]
  rw [hreach, if_pos hpend1]

/-- Settles O18. -/
theorem domainRows : Obligations.DomainRows := by
  unfold Obligations.DomainRows
  refine ⟨fun s d hd => ⟨fun hbask hon hclaims hmove => ?_, fun hbask => ?_, fun target ht hpend hmove hclaims => ?_, fun who v hpass hv => ?_,
    fun who v hpass hv htarget hhead hon hworld hpend hdb => ?_⟩, fun s d target hd hgroup ht hwas hmove hpend => ?_⟩
  · exact ⟨_, (if_pos ⟨hd, s.flag_of_rd_one hbask, beq_iff_eq.mpr hon, hclaims, hmove⟩ : execIdleBaskTimeout d s = _), State.rd_wr_same .., rfl,
      s.keepsRegs_wr _ (List.mem_singleton.mpr rfl)⟩
  · have hwake : s.wake d = s.wr (domState d) 0 := if_pos hbask
    exact ⟨_, (if_pos hd : execBaskingWake d s = _).trans (congrArg _ hwake), State.rd_wr_same .., rfl, s.keepsRegs_wr _ (List.mem_singleton.mpr rfl)⟩
  · have hlt : domHead d < 60 := domHead_lt hd
    refine ⟨s.startMove (domHead d) target, ?_, s.startMove_moving .., s.startMove_mem .., State.startMove_regs, fun c hc h0 hoff hkey => ?_⟩
    · subst hpend
      exact (if_pos ⟨hlt, ht, hmove, hclaims⟩ : execDomainClaimsZero d s = _)
    · rw [hc] at hoff
      rw [hc, h0]
      exact State.startMove_trains c hoff hkey
  · obtain ⟨hres, honly⟩ := s.domReqWrite_badDomain who hv
    exact ⟨_, congrArg Host.Outcome.next (State.gated_of_passes hpass v.toNat _), hres, honly⟩
  · exact ⟨_, congrArg Host.Outcome.next (State.gated_of_passes hpass v.toNat _), State.domReqWrite_reached who hd hv htarget hhead hon hworld hpend hdb⟩
  · let s1 := ({ s with pwr := { s.pwr with moving := tblPut 0 s.pwr.moving d 0 } } : State).wr (domState d) target
    obtain ⟨hstate, hpend', hevt, hmem, hpwr, hlast⟩ := s1.endPending_shown hd hgroup
    have hsame : s1.rd (domState d) = target := (State.rd_wr_same ..).trans (Nat.mod_eq_of_lt (ht.trans (by decide : 2 < 2 ^ 2)))
    have hworld : s1.pendWorld d = s.pendWorld d := by
      unfold State.pendWorld State.flag
      rw [show s1.rd (R.PWR_DOM_STAT_PEND_WORLD.ix d) = s.rd (R.PWR_DOM_STAT_PEND_WORLD.ix d) from
        State.rd_wr_other _ _ (domStat_key_ne (by decide) (by decide) (by decide) d d)]
    refine ⟨_, State.transitionDone_single hgroup ht hwas hmove hpend, hstate.trans hsame, ?_, hpend', hevt, hmem, fun hdom => ?_⟩
    · rw [hpwr]
      exact (tblGet_put_same 0 s.pwr.moving d 0 :)
    · rw [hworld] at hlast
      refine hlast ?_
      rw [show s1.rd (R.PWR_DOM_REQ_DOMAIN.inst (s.pendWorld d).num) = s.rd (R.PWR_DOM_REQ_DOMAIN.inst (s.pendWorld d).num) from
        State.rd_wr_other _ _ (domStat_ne_request (f := R.PWR_DOM_STAT_STATE) (by decide) hd _ (.inl rfl)).symm]
      exact hdom

end Sys2Proof.Machine
end

section
/-! Requests to the register space (R97 to R101). -/

namespace Sys2Proof.Machine

/-- A write of a whole word to the register space below the window of single bits. -/
theorem State.writeAt_whole (s : State) (act : Nat → State → State) (who : Requester) {off : Nat} (hoff : off < 0x10000000) (h4 : off % 4 = 0) (v : Nat) :
    s.writeAt act who (regBase + off) 4 v = s.gated who off v fun s => s.regEffect who off v act := by
  unfold State.writeAt regBase bitBase
  rw [if_pos ⟨rfl, by omega⟩, if_neg (by omega), Nat.add_sub_cancel_left]

/-- The effect of a write to a register that is neither guarded nor banked, nor holds events. -/
theorem State.regEffect_plain (s : State) (who : Requester) {off : Nat} (v : Nat) (act : Nat → State → State)
    (h : guardedRegs.contains off = false ∧ guardedRegs.contains (off - 4) = false ∧ off < 0x200000 ∧ isBanked off = false ∧ isEvt off = false) :
    s.regEffect who off v act = s.valueWrite who 0 off v := by
  obtain ⟨h1, h2, h3, h4, h5⟩ := h
  have hign : s.ignores who off = false := by
    simp [State.ignores, h4, Nat.not_le.mpr h3]
  unfold State.regEffect
  simp only [h1, h2, h4, h5, hign, Bool.false_eq_true, and_false, if_false]

/-- A request of a core or of a host's function that writes. -/
theorem State.write_lands {s : State} {who : Requester} {addr a n : Nat} {v : Word32} {en : BitVec 4} (hwho : ∀ w, who ≠ .debug w)
    (hland : landing who addr = .reg a) (hn : (if en = 0xF then 4 else 1) = n) :
    exec (.registerWrite who addr (.write v) en) s = .next (s.writeAt State.actCtrl who a n v.toNat) := by
  have hexec : exec (.registerWrite who addr (.write v) en) s = .next (s.writeWord State.actCtrl who (landing who addr) (if en = 0xF then 4 else 1) v.toNat) := by
    cases who with
    | debug w => exact absurd rfl (hwho w)
    | core => rfl
    | host => rfl
  rw [hexec, hland, hn]
  rfl

/-- A request of a core lands in the register space. -/
theorem landing_core (p : Nat) (w : World) (l : Level) {addr : Nat} (h : addr < 2 ^ 33) : landing (.core p w l) addr = .reg (regBase + addr) :=
  if_neg (Nat.not_le.mpr h)

theorem landing_host (port : Port) {addr : Nat} (h : addr < 0x400000) : landing (.host port 0) addr = .reg (regBase + addr) := by
  unfold landing
  dsimp only
  rw [if_neg (by omega), if_neg (by omega), if_pos rfl, if_pos h]

/-- A core's write of a whole word to a plain register. -/
theorem State.coreWrite_plain {s : State} {p : Nat} {w : World} {l : Level} {off : Nat} (v : Word32) (hpass : s.passes (.core p w l) off = true)
    (hoff : off < 0x10000000 ∧ off % 4 = 0) (h : guardedRegs.contains off = false ∧ guardedRegs.contains (off - 4) = false ∧ off < 0x200000 ∧ isBanked off = false ∧ isEvt off = false) :
    exec (.registerWrite (.core p w l) off (.write v) 0xF) s = .next (s.valueWrite (.core p w l) 0 off v.toNat) := by
  refine (State.write_lands (who := .core p w l) nofun (landing_core p w l (hoff.1.trans (by decide))) rfl).trans ?_
  exact congrArg _ ((s.writeAt_whole _ _ hoff.1 hoff.2 _).trans ((State.gated_of_passes hpass _ _).trans (s.regEffect_plain _ _ _ h)))

theorem State.valueWrite_ptAddr (s : State) (who : Requester) (v : Nat) : s.valueWrite who 0 0x20024 v = s.wr R.BOOT_PT_ADDR_ADDR (bits v 0 32) := by
  have hfields : regFields 0x20024 = [R.BOOT_PT_ADDR_ADDR] := by decide
  have hplain : s.valueWrite who 0 0x20024 v = s.plainWrite 0 0x20024 v := rfl
  rw [hplain]
  unfold State.plainWrite
  rw [hfields]
  rfl

theorem State.valueWrite_userPattern (s : State) (who : Requester) (v : Nat) : s.valueWrite who 0 0x130020 v = s.userWrite false v := by
  have hqz : qzAt 0x130020 = none := by decide +kernel
  have hbell : doorbellAt 0x130020 = none := by decide +kernel
  unfold State.valueWrite
  rw [hqz, hbell]
  rfl

/-- A sequence of another requester is not broken. -/
theorem State.interleave_of_none {s : State} {who : Requester} (h : ∀ g ∈ s.bus.guards, sameSource g.who who = false) (off : Nat) : s.interleave who off = s :=
  State.interleave_of_all (List.all_eq_true.mpr fun g hg => by simp [h g hg])

/-- A write of fewer bytes than a word. -/
theorem State.writeAt_part {s : State} {act : Nat → State → State} {who : Requester} {a v : Nat} (hreach : s.reaches who = true) (hl1 : s.inL1 who = false)
    (hhold : s.tableHolds who = false) (hguards : ∀ g ∈ s.bus.guards, sameSource g.who who = false)
    (hgrant : s.beatRefusal (classOf who) .write (worldOf who) a = none) : s.writeAt act who a 1 v = s.errorWrite who a := by
  unfold State.writeAt State.parked
  simp only [hreach, hl1, hhold, Bool.not_true, Bool.false_eq_true, if_false, false_and, OfNat.one_ne_ofNat]
  rw [show s.interleaveAt who a = s from State.interleave_of_none hguards _, hgrant]

theorem State.tableHolds_of_idle {s : State} (who : Requester) (h : s.rd R.ACT_CTRL_UPDATE = 0) : s.tableHolds who = false := by
  simp [State.tableHolds, s.flag_eq_false h]

/-- A read of a word that is aligned. -/
theorem State.readAt_word (s : State) (who : Requester) {a : Nat} (h : a % 4 = 0) :
    s.readAt who a 4 = match s.readWord who a with | (none, s) => (none, s) | (some v, s) => (some (bits v 0 32), s) := by
  have hx : a / 4 * 4 = a ∧ (a + 4 - 1) / 4 * 4 = a := by omega
  unfold State.readAt
  dsimp only
  rw [hx.1, hx.2, if_neg (by omega), h]
  split <;> rename_i heq <;> simp only [heq]
  rfl

/-- A host's read of a word. -/
theorem State.hostRead {s : State} {port : Port} {addr : Nat} (en : BitVec 4) (haddr : addr < 0x400000) (hreach : s.reaches (.host port 0) = true)
    (hl1 : s.inL1 (.host port 0) = false) (hidle : s.rd R.ACT_CTRL_UPDATE = 0) :
    exec (.registerWrite (.host port 0) addr (.read 4) en) s = .next (s.answerRead (.host port 0) (regBase + addr) 4) := by
  show Host.Outcome.next (s.readFrom _ (landing (.host port 0) addr) 4) = _
  rw [landing_host port haddr]
  unfold State.readFrom State.parked
  simp only [hreach, hl1, State.tableHolds_of_idle _ hidle, Bool.not_true, Bool.false_eq_true, if_false]

theorem State.wakeWord_shown (s : State) (off : Nat) : (s.wakeWord off).out = s.out ∧ (s.wakeWord off).mem = s.mem ∧ (s.wakeWord off).cores = s.cores := by
  unfold State.wakeWord
  split
  · unfold State.wake
    split <;> exact ⟨rfl, rfl, rfl⟩
  · exact ⟨rfl, rfl, rfl⟩

/-- A read that is answered. -/
theorem State.answerRead_word {s : State} {who : Requester} {a x : Nat} (h4 : a % 4 = 0) (hgrant : s.wordRefusal who a = none) (hx : s.loadWord who a = some x) :
    s.answerRead who a 4 = (s.wakeWord (wordOff a)).emit (.answer who (some (bits x 0 32))) := by
  unfold State.answerRead
  rw [s.readAt_word who h4]
  unfold State.readWord
  simp only [hgrant, hx]

/-- A read that is refused. -/
theorem State.answerRead_refused {s : State} {who : Requester} {a : Nat} {r : Nat × Nat} (h4 : a % 4 = 0) (hr : s.wordRefusal who a = some r) :
    s.answerRead who a 4 = (s.noteRead who a r.1 r.2).errorRead who := by
  unfold State.answerRead
  rw [s.readAt_word who h4]
  unfold State.readWord
  simp only [hr]

theorem State.violation_event (s : State) (cls : Nat) (w : World) (k : AccKind) (src e a : Nat) : (s.violation cls w k src e a).rd R.ACT_EVT_VIOLATION = 1 := by
  unfold State.violation
  exact State.rd_setEvt_same _ rfl (by decide)

theorem State.noteRead_host (s : State) (port : Port) (n a src e : Nat) :
    (s.noteRead (.host port n) a src e).rd R.ACT_EVT_VIOLATION = 1 ∧ (s.noteRead (.host port n) a src e).mem = s.mem := by
  unfold State.noteRead
  exact ⟨State.violation_event .., State.violation_keepsMem rfl⟩

/-- What a host's uncorrectable error leaves. -/
theorem State.aerLog_host (s : State) (port : Port) (b : Nat) : s.sawEvent (s.aerLog (.pf port) b) (R.PE_EVT_AER_UNCORR.port port) 0 ∧
    (s.aerLog (.pf port) b).rd (R.PE_EVT_AER_UNCORR.port port) = 1 ∧ (s.aerLog (.pf port) b).mem = s.mem ∧
    s.keepsRegs (s.aerLog (.pf port) b) [R.PE_EVT_AER_UNCORR.port port, (R.PE_EVT_AER_UNCORR.port port).seq] := by
  let s1 := s.setFnSt (.pf port) { s.fnSt (.pf port) with
    cfgRegs := tblPut 0 (s.fnSt (.pf port)).cfgRegs aerStatus (bitSet (tblGet 0 (s.fnSt (.pf port)).cfgRegs aerStatus) b) }
  have haer : s.aerLog (.pf port) b = s1.setEvt (R.PE_EVT_AER_UNCORR.port port) := if_neg nofun
  rw [haer]
  exact ⟨s1.sawEvent_setEvt 0 (by cases port <;> decide), s1.rd_setEvt_same rfl (by cases port <;> decide), rfl, s1.keepsRegs_setEvt 0 (by simp) (by simp)⟩

/-- A word written to BOOT_PT_ADDR. -/
theorem State.coreWrite_ptAddr {s : State} {p : Nat} {w : World} {l : Level} (v : Word32) (hpass : s.passes (.core p w l) 0x20024 = true) :
    ∃ t, exec (.registerWrite (.core p w l) 0x20024 (.write v) 0xF) s = .next t ∧ t.rd R.BOOT_PT_ADDR_ADDR = v.toNat ∧ s.onlyRegs t [R.BOOT_PT_ADDR_ADDR] := by
  refine ⟨_, State.coreWrite_plain v hpass (by decide) (by decide +kernel), ?_⟩
  rw [State.valueWrite_ptAddr]
  refine ⟨(State.rd_wr_same ..).trans ?_, rfl, s.keepsRegs_wr _ (by decide)⟩
  simp only [bits, Nat.pow_zero, Nat.div_one, R.BOOT_PT_ADDR_ADDR, Nat.mod_mod]
  exact Nat.mod_eq_of_lt v.isLt

theorem State.onlyRegs_wr (s : State) {f : Fld} (v : Nat) {l : List Fld} (h : f.key ∈ l.map Fld.key) : s.onlyRegs (s.wr f v) l := ⟨rfl, s.keepsRegs_wr v h⟩

theorem State.rd_userPattern (s : State) {x : Nat} (h : x < 2 ^ 64) : (s.wr R.LTS_USER_PATTERN x).rd R.LTS_USER_PATTERN = x :=
  (State.rd_wr_same ..).trans (Nat.mod_eq_of_lt h)

theorem State.userWrite_low (s : State) {v : Nat} (h : v < 2 ^ 32) :
    s.userWrite false v = s.wr R.LTS_USER_PATTERN (s.rd R.LTS_USER_PATTERN / 2 ^ 32 * 2 ^ 32 + v) := by
  unfold State.userWrite
  dsimp only
  rw [Nat.mod_eq_of_lt h, if_neg Bool.false_ne_true]

/-- A word written to the low half of LTS_USER. -/
theorem State.coreWrite_user {s : State} {p : Nat} {w : World} {l : Level} (v : Word32) (hpass : s.passes (.core p w l) 0x130020 = true)
    (hlt : s.rd R.LTS_USER_PATTERN < 2 ^ 64) : ∃ t, exec (.registerWrite (.core p w l) 0x130020 (.write v) 0xF) s = .next t ∧
      t.rd R.LTS_USER_PATTERN = s.rd R.LTS_USER_PATTERN / 2 ^ 32 * 2 ^ 32 + v.toNat ∧ s.onlyRegs t [R.LTS_USER_PATTERN] := by
  have hwide : s.rd R.LTS_USER_PATTERN / 2 ^ 32 * 2 ^ 32 + v.toNat < 2 ^ 64 := by
    have := v.isLt
    omega
  exact ⟨_, (State.coreWrite_plain v hpass (by decide) (by decide +kernel)).trans
    (congrArg _ ((s.valueWrite_userPattern _ _).trans (s.userWrite_low v.isLt))), s.rd_userPattern hwide, s.onlyRegs_wr _ (List.mem_singleton.mpr rfl)⟩

/-- A core's write of fewer bytes than a word. -/
theorem State.coreWrite_part {s : State} {p : Nat} {w : World} {l : Level} {addr : Nat} {en : BitVec 4} (v : Word32) (hen : en ≠ 0xF) (haddr : addr < 2 ^ 33)
    (hhold : s.tableHolds (.core p w l) = false) (hguards : ∀ g ∈ s.bus.guards, sameSource g.who (.core p w l) = false)
    (hgrant : s.beatRefusal (classOf (.core p w l)) .write w (regBase + addr) = none) :
    exec (.registerWrite (.core p w l) addr (.write v) en) s = .next (s.errorWrite (.core p w l) (regBase + addr)) :=
  (State.write_lands (who := .core p w l) nofun (landing_core p w l haddr) (if_neg hen)).trans
    (congrArg _ (State.writeAt_part (who := .core p w l) rfl rfl hhold hguards hgrant))

theorem State.errorWrite_core (s : State) (p : Nat) (w : World) (l : Level) (a : Nat) :
    ((s.errorWrite (.core p w l) a).core p).storeErrs = (s.core p).storeErrs ++ [(a, l)] :=
  congrArg Core.storeErrs (tblGet_put_same {} s.cores p _ :)

/-- A host's write of fewer bytes than a word. -/
theorem State.hostWrite_part {s : State} {port : Port} {addr : Nat} {en : BitVec 4} (v : Word32) (hen : en ≠ 0xF) (haddr : addr < 0x400000)
    (hreach : s.reaches (.host port 0) = true) (hl1 : s.inL1 (.host port 0) = false) (hidle : s.rd R.ACT_CTRL_UPDATE = 0)
    (hguards : ∀ g ∈ s.bus.guards, sameSource g.who (.host port 0) = false)
    (hgrant : s.beatRefusal (classOf (.host port 0)) .write (worldOf (.host port 0)) (regBase + addr) = none) :
    exec (.registerWrite (.host port 0) addr (.write v) en) s = .next (s.aerLog (.pf port) 15) :=
  (State.write_lands (who := .host port 0) nofun (landing_host port haddr) (if_neg hen)).trans
    (congrArg _ (State.writeAt_part hreach hl1 (State.tableHolds_of_idle _ hidle) hguards hgrant))

/-- A host's read that is refused. -/
theorem State.hostRead_refused {s : State} {port : Port} {a : Nat} {r : Nat × Nat} (h4 : a % 4 = 0) (hr : s.wordRefusal (.host port 0) a = some r) :
    let t := s.answerRead (.host port 0) a 4
    t.out.head? = some (.answer (.host port 0) none) ∧ t.rd R.ACT_EVT_VIOLATION = 1 ∧ t.rd (R.PE_EVT_AER_UNCORR.port port) = 1 ∧ t.mem = s.mem := by
  intro t
  let s1 := s.noteRead (.host port 0) a r.1 r.2
  obtain ⟨hviol, hmem1⟩ : s1.rd R.ACT_EVT_VIOLATION = 1 ∧ s1.mem = s.mem := s.noteRead_host port 0 _ r.1 r.2
  obtain ⟨-, hevt, hmem, hkeep⟩ := s1.aerLog_host port 15
  have ht : t = (s1.aerLog (.pf port) 15).emit (.answer (.host port 0) none) := State.answerRead_refused h4 hr
  rw [ht]
  exact ⟨rfl, (hkeep _ (by cases port <;> decide)).trans hviol, hevt, hmem.trans hmem1⟩

/-- Settles O22. -/
theorem registerWrites : Obligations.RegisterWrites := by
  unfold Obligations.RegisterWrites
  refine ⟨fun s p w l v => ?_, fun s port addr en v haddr => ?_⟩
  · intro who
    refine ⟨State.coreWrite_ptAddr v, State.coreWrite_user v, fun addr en hen haddr hhold hguards hgrant => ?_⟩
    exact ⟨_, State.coreWrite_part v hen haddr hhold hguards hgrant, s.errorWrite_core p w l _, rfl⟩
  · intro who
    have h4' (h4 : addr % 4 = 0) : (regBase + addr) % 4 = 0 := by
      unfold regBase
      omega
    refine ⟨fun hreach hl1 hidle => ⟨fun hen hguards hgrant => ?_, fun h4 hgrant x hx => ?_, fun h4 r hr => ?_⟩, fun hreach hup => ?_⟩
    · obtain ⟨hevt, -, hmem, hkeep⟩ := s.aerLog_host port 15
      exact ⟨_, State.hostWrite_part v hen haddr hreach hl1 hidle hguards hgrant, hevt, hmem, hkeep⟩
    · obtain ⟨hout, hmem, hcores⟩ := s.wakeWord_shown (wordOff (regBase + addr))
      exact ⟨_, (State.hostRead en haddr hreach hl1 hidle).trans (congrArg _ (State.answerRead_word (h4' h4) hgrant hx)), congrArg (_ :: ·) hout, hmem, hcores⟩
    · exact ⟨_, State.hostRead en haddr hreach hl1 hidle, State.hostRead_refused (h4' h4) hr⟩
    · have hexec : s.unanswered who = s.emit (.unsupported who) := if_pos (s.flag_of_rd_one hup)
      show Host.Outcome.next (s.readFrom who (landing who addr) 4) = _
      rw [← hexec]
      exact congrArg _ (if_pos (by simp [hreach]))

end Sys2Proof.Machine
end

section
/-! Guarded writes and bit aliases (R110 to R113). -/

namespace Sys2Proof.Machine

/-- The fields of a guarded-write failure. -/
def guardFields : List Fld :=
  [R.GLB_GUARD_INFO_OFFSET, R.GLB_GUARD_INFO_CLASS, R.GLB_GUARD_INFO_CAUSE,
    R.GLB_GUARD_EVT_GUARD_FAIL.inst 0, (R.GLB_GUARD_EVT_GUARD_FAIL.inst 0).seq, R.GLB_GUARD_EVT_GUARD_FAIL.inst 1, (R.GLB_GUARD_EVT_GUARD_FAIL.inst 1).seq,
    R.GLB_GUARD_EVT_GUARD_FAIL.inst 2, (R.GLB_GUARD_EVT_GUARD_FAIL.inst 2).seq, R.GLB_GUARD_EVT_GUARD_FAIL.inst 3, (R.GLB_GUARD_EVT_GUARD_FAIL.inst 3).seq]

/-- The event of a failure in each of its registers, and nothing else. -/
theorem State.setEvtAll_guardFail (s : State) : (∀ k < 4, (s.setEvtAll R.GLB_GUARD_EVT_GUARD_FAIL).rd (R.GLB_GUARD_EVT_GUARD_FAIL.inst k) = 1) ∧
    ∀ f : Fld, f.key ∉ (guardFields.drop 3).map Fld.key → (s.setEvtAll R.GLB_GUARD_EVT_GUARD_FAIL).rd f = s.rd f := by
  unfold State.setEvtAll
  refine ⟨fun k hk => ?_, fun f hf => ?_⟩
  · match k, hk with
    | 0, _ =>
      rw [State.rd_setEvt_other _ _ (by decide) (by decide), State.rd_setEvt_other _ _ (by decide) (by decide), State.rd_setEvt_other _ _ (by decide) (by decide)]
      exact State.rd_setEvt_same _ rfl (by decide)
    | 1, _ =>
      rw [State.rd_setEvt_other _ _ (by decide) (by decide), State.rd_setEvt_other _ _ (by decide) (by decide)]
      exact State.rd_setEvt_same _ rfl (by decide)
    | 2, _ =>
      rw [State.rd_setEvt_other _ _ (by decide) (by decide)]
      exact State.rd_setEvt_same _ rfl (by decide)
    | 3, _ => exact State.rd_setEvt_same _ rfl (by decide)
  · simp only [guardFields, List.drop_succ_cons, List.drop_zero, List.map_cons, List.map_nil, List.mem_cons, List.not_mem_nil, or_false, not_or] at hf
    obtain ⟨h0, h0', h1, h1', h2, h2', h3, h3'⟩ := hf
    rw [State.rd_setEvt_other _ _ h3 h3', State.rd_setEvt_other _ _ h2 h2', State.rd_setEvt_other _ _ h1 h1', State.rd_setEvt_other _ _ h0 h0']

/-- A failure that is captured, with too few before it for an alarm. -/
structure State.GuardFailed (s t : State) (off cls cause : Nat) : Prop where
  cause : t.rd R.GLB_GUARD_INFO_CAUSE = cause % 8
  cls : t.rd R.GLB_GUARD_INFO_CLASS = cls % 16
  offset : t.rd R.GLB_GUARD_INFO_OFFSET = off / 4 % 2 ^ 20
  events : ∀ k < 4, t.rd (R.GLB_GUARD_EVT_GUARD_FAIL.inst k) = 1
  keeps : s.keepsRegs t guardFields
  mem : t.mem = s.mem
  cores : t.cores = s.cores
  guards : t.bus.guards = s.bus.guards

/-- The time of a failure is kept for the next ones. -/
def State.countFail (s : State) : State :=
  { s with bus := { s.bus with failTimes := (s.time :: s.bus.failTimes.filter fun t => decide (s.time < t + msTicks)).take 16 } }

/-- What a failure captures. -/
def State.captureFail (s : State) (off cls cause : Nat) : State :=
  ((s.wr R.GLB_GUARD_INFO_OFFSET (off / 4)).wr R.GLB_GUARD_INFO_CLASS cls).wr R.GLB_GUARD_INFO_CAUSE cause

theorem State.guardFail_eq {s : State} (off cls cause : Nat) (hfirst : s.rd (R.GLB_GUARD_EVT_GUARD_FAIL.inst 0) = 0) (hfew : s.bus.failTimes.length < 15) :
    s.guardFail off cls cause = ((s.captureFail off cls cause).setEvtAll R.GLB_GUARD_EVT_GUARD_FAIL).countFail := by
  have hbus : ((s.captureFail off cls cause).setEvtAll R.GLB_GUARD_EVT_GUARD_FAIL).bus = s.bus := State.setEvtAll_keepsBus rfl
  unfold State.guardFail
  rw [s.flag_eq_false hfirst, if_neg Bool.false_ne_true]
  extract_lets u1 u2 recent times u3
  have hu : (s.captureFail off cls cause).setEvtAll R.GLB_GUARD_EVT_GUARD_FAIL = u2 := rfl
  rw [hu] at hbus ⊢
  clear_value u2
  refine if_neg (Nat.ne_of_lt ((List.length_filter_le ..).trans_lt ?_))
  rw [hbus]
  exact hfew

theorem State.captureFail_setEvtAll (s : State) (off cls cause : Nat) :
    s.GuardFailed ((s.captureFail off cls cause).setEvtAll R.GLB_GUARD_EVT_GUARD_FAIL) off cls cause := by
  obtain ⟨hevts, hother⟩ := (s.captureFail off cls cause).setEvtAll_guardFail
  refine ⟨(hother _ (by decide)).trans (State.rd_wr_same ..), (hother _ (by decide)).trans ?_, (hother _ (by decide)).trans ?_, hevts, fun f hf => ?_,
    State.setEvtAll_keepsMem rfl, State.setEvtAll_keepsCores rfl, congrArg Bus.guards (State.setEvtAll_keepsBus rfl)⟩
  · simp (disch := decide) only [State.captureFail, State.rd_wr_other, State.rd_wr_same]
    rfl
  · simp (disch := decide) only [State.captureFail, State.rd_wr_other, State.rd_wr_same]
    rfl
  · have hmem : f.key ∉ (guardFields.take 3).map Fld.key ∧ f.key ∉ (guardFields.drop 3).map Fld.key := by
      refine not_or.mp fun h => hf ?_
      rw [← List.take_append_drop 3 guardFields, List.map_append]
      exact List.mem_append.mpr h
    refine (hother f hmem.2).trans ?_
    obtain ⟨h0, h1, h2⟩ : f.key ≠ R.GLB_GUARD_INFO_OFFSET.key ∧ f.key ≠ R.GLB_GUARD_INFO_CLASS.key ∧ f.key ≠ R.GLB_GUARD_INFO_CAUSE.key := by
      simpa [guardFields] using hmem.1
    unfold State.captureFail
    rw [State.rd_wr_other _ _ h2, State.rd_wr_other _ _ h1, State.rd_wr_other _ _ h0]

theorem State.GuardFailed.countFail {s t : State} {off cls cause : Nat} (h : s.GuardFailed t off cls cause) : s.GuardFailed t.countFail off cls cause :=
  ⟨h.cause, h.cls, h.offset, h.events, h.keeps, h.mem, h.cores, h.guards⟩

theorem State.guardFail_first {s : State} (off cls cause : Nat) (hfirst : s.rd (R.GLB_GUARD_EVT_GUARD_FAIL.inst 0) = 0) (hfew : s.bus.failTimes.length < 15) :
    s.GuardFailed (s.guardFail off cls cause) off cls cause := by
  rw [State.guardFail_eq off cls cause hfirst hfew]
  exact (s.captureFail_setEvtAll off cls cause).countFail

theorem State.dropGuard_single {s : State} {g : GuardPend} (h : s.bus.guards = [g]) : (s.dropGuard g.off).bus.guards = [] := by
  simp [State.dropGuard, h]

/-- The failure of the one sequence that is open. -/
theorem State.guardFail_single {s : State} {g : GuardPend} (h : s.bus.guards = [g]) (cls cause : Nat) (hfirst : s.rd (R.GLB_GUARD_EVT_GUARD_FAIL.inst 0) = 0)
    (hfew : s.bus.failTimes.length < 15) :
    (s.dropGuard g.off).GuardFailed ((s.dropGuard g.off).guardFail g.off cls cause) g.off cls cause ∧
      ((s.dropGuard g.off).guardFail g.off cls cause).bus.guards = [] :=
  have hfail := State.guardFail_first (s := s.dropGuard g.off) g.off cls cause hfirst hfew
  ⟨hfail, hfail.guards.trans (State.dropGuard_single h)⟩

/-- A wrong complement. -/
theorem State.writeGuarded_wrong {s : State} {who : Requester} {g : GuardPend} {c : Nat} (hpass : s.passes who (g.off + 4) = true) (hg : s.bus.guards = [g])
    (hsame : sameSource g.who who = true) (hwrong : c + g.val ≠ 2 ^ 32 - 1) (f : Nat → State → State) :
    s.writeGuarded who g.off c f = (s.dropGuard g.off).guardFail g.off (classOf who) 1 := by
  unfold State.writeGuarded
  rw [State.gated_of_passes hpass]
  unfold State.guardComplement
  rw [hg, List.find?_cons_of_pos (by simp [hsame])]
  exact if_neg hwrong

/-- A write of the writer to anything else. -/
theorem State.interleave_single {s : State} {who : Requester} {g : GuardPend} {off : Nat} (hg : s.bus.guards = [g]) (hsame : sameSource g.who who = true)
    (hoff : off ≠ g.off + 4) : s.interleave who off = (s.dropGuard g.off).guardFail g.off (classOf who) 2 := by
  unfold State.interleave
  rw [hg, List.filter_cons_of_pos (by simp [hsame, hoff])]
  rfl

/-- The value half of a guarded write, with none pending there. -/
theorem State.guardValue_waits {s : State} (who : Requester) {off : Nat} (v : Nat) (h : ∀ g ∈ s.bus.guards, g.off ≠ off) :
    s.guardValue who off v = { s with bus := { s.bus with guards := { off := off, val := v, who := who } :: s.bus.guards } } := by
  have hnone : (s.bus.guards.find? fun g => g.off == off) = none := List.find?_eq_none.mpr fun g hg => by simpa using h g hg
  unfold State.guardValue
  rw [hnone]

/-- A secure core's write to a word of single bits below the port blocks. -/
theorem State.bitAlias_secure {s : State} {p : Nat} {l : Level} {off : Nat} (bit : Fin 32) (v : Word32) (hhold : s.tableHolds (.core p .secure l) = false)
    (hguards : s.bus.guards = []) (hoff : off < 0x80000 ∧ off % 4 = 0 ∧ wordDomain off = none ∧ s.blockAnswers off = true)
    (hgrant : s.beatRefusal (classOf (.core p .secure l)) .write .secure (aliasAddr off bit.val) = none) :
    exec (.bitAliasWrite (.core p .secure l) off bit v) s = .next (s.bitEffect (.core p .secure l) 0 off bit.val v.toNat) := by
  obtain ⟨hlt, h4, hdom, hans⟩ := hoff
  have hbit := bit.isLt
  have haddr : aliasAddr off bit.val % 4 = 0 ∧ bitBase ≤ aliasAddr off bit.val ∧ wordOff (aliasAddr off bit.val) = off ∧
      (aliasAddr off bit.val - bitBase) / 4 % 32 = bit.val := by
    unfold wordOff aliasAddr bitBase
    rw [if_pos (by omega)]
    omega
  have hallowed : regAllowed s (.core p .secure l) true off = true := by
    unfold regAllowed
    dsimp only
    rw [if_neg (by omega), if_neg (by omega), if_neg (by omega), if_neg (by omega)]
  show Host.Outcome.next (s.writeAt State.actCtrl _ (aliasAddr off bit.val) 4 v.toNat) = _
  unfold State.writeAt
  rw [if_pos ⟨rfl, haddr.1⟩, if_pos haddr.2.1, haddr.2.2.1, haddr.2.2.2]
  unfold State.bitWrite State.parked
  simp only [show s.reaches (.core p .secure l) = true from rfl, show s.inL1 (.core p .secure l) = false from rfl, hhold, Bool.not_true, Bool.false_eq_true, if_false]
  rw [show s.interleaveAt (.core p .secure l) (aliasAddr off bit.val) = s from State.interleave_of_none (by simp [hguards]) _]
  rw [show worldOf (.core p .secure l) = World.secure from rfl, hgrant]
  simp only [hallowed, hans, Bool.not_true, Bool.false_eq_true, if_false, if_true]
  unfold State.wakeWord
  rw [hdom]
  rfl

theorem State.word_ptAddr (s : State) : s.word 0 0x20024 = s.rd R.BOOT_PT_ADDR_ADDR := by
  have hfields : regFields 0x20024 = [R.BOOT_PT_ADDR_ADDR] := by decide
  have hhidden : dataHidden s 0 0x20024 = false := rfl
  unfold State.word
  rw [if_neg (by decide), if_neg (by decide), hhidden, hfields]
  show s.rd R.BOOT_PT_ADDR_ADDR * 1 + 0 = _
  rw [Nat.mul_one, Nat.add_zero]

/-- One bit of BOOT_PT_ADDR. -/
theorem State.bitEffect_ptAddr (s : State) (who : Requester) (bit : Fin 32) (v : Nat) : s.bitEffect who 0 0x20024 bit.val v =
    s.wr R.BOOT_PT_ADDR_ADDR (bits ((if v.testBit 0 then bitSet else bitClear) (s.rd R.BOOT_PT_ADDR_ADDR) bit.val) 0 32) := by
  have hfield : ∀ bit : Fin 32, fieldAt 0x20024 bit.val = some R.BOOT_PT_ADDR_ADDR := by decide +kernel
  have hign : s.ignores who 0x20024 = false := by simp [State.ignores, isBanked]
  unfold State.bitEffect
  rw [hfield]
  dsimp only
  rw [hign, if_neg Bool.false_ne_true]
  exact (s.valueWrite_ptAddr who _).trans (by rw [State.word_ptAddr])

/-- The bit of a guarded field. -/
theorem State.bitEffect_cap (s : State) (who : Requester) (v : Nat) : s.bitEffect who 0 0x10008 0 v = s.guardFail 0x10008 (classOf who) 6 := by
  have hfield : fieldAt 0x10008 0 = some R.PWR_CAP_CAP := by decide +kernel
  have hign : s.ignores who 0x10008 = false := by simp [State.ignores, isBanked]
  unfold State.bitEffect
  rw [hfield]
  dsimp only
  rw [hign, if_neg Bool.false_ne_true]
  rfl

/-- The bits of read-only fields, and those of no field. -/
theorem State.bitEffect_readOnly (s : State) (who : Requester) (bit : Fin 32) (v : Nat) : s.bitEffect who 0 0x10000 bit.val v = s := by
  have hfield : ∀ bit : Fin 32, ∀ f ∈ fieldAt 0x10000 bit.val, f.acc = .ro := by decide +kernel
  unfold State.bitEffect
  split
  · rfl
  next f hf =>
    rw [hfield bit f hf]
    split <;> rfl

/-- Settles O24. -/
theorem guardedWrites : Obligations.GuardedWrites := by
  unfold Obligations.GuardedWrites
  refine ⟨fun s who v => ⟨fun off hoff hpass hnone => ?_, fun off g hg hoff hfirst hfew => ?_, fun g hpass hg hoff hsame hwrong hfirst hfew => ?_,
    fun g a hg hsame hoff hfirst hfew => ?_⟩, fun s p l bit v hhold hguards => ?_⟩
  · refine ⟨_, (if_pos (List.contains_iff_mem.mpr hoff) : execGuardValueWrite who off v s = _).trans
      (congrArg _ ((State.gated_of_passes hpass _ _).trans (State.guardValue_waits who v.toNat hnone))), rfl, rfl⟩
  · subst hoff
    obtain ⟨hfail, hempty⟩ := State.guardFail_single hg (classOf g.who) 3 hfirst hfew
    have hexec : exec (.guardTimeout g.off) s = .next ((s.dropGuard g.off).guardFail g.off (classOf g.who) 3) := by
      show execGuardTimeout g.off s = _
      unfold execGuardTimeout
      rw [hg, List.find?_cons_of_pos (by simp)]
    exact ⟨_, hexec, hempty, hfail.cause, hfail.cls, hfail.offset, hfail.events, hfail.mem, hfail.cores⟩
  · have hpass' : s.passes who (g.off + 4) = true := hoff.symm ▸ hpass
    obtain ⟨hfail, hempty⟩ := State.guardFail_single hg (classOf who) 1 hfirst hfew
    have hexec := State.writeGuarded_wrong hpass' hg hsame hwrong fun v s => State.capWrite v s
    rw [hoff] at hexec hfail hempty
    exact ⟨_, congrArg Host.Outcome.next hexec, hempty, hfail.cause, hfail.keeps _ (by decide), hfail.mem⟩
  · obtain ⟨hfail, hempty⟩ := State.guardFail_single hg (classOf who) 2 hfirst hfew
    rw [show s.interleaveAt who a = _ from State.interleave_single hg hsame (Ne.symm hoff)]
    exact ⟨hempty, hfail.cause, hfail.offset, hfail.mem⟩
  · intro who
    refine ⟨fun hgrant => ?_, fun hgrant hfirst htimes => ?_, fun hgrant => ?_⟩
    · refine ⟨_, State.bitAlias_secure bit v hhold hguards ⟨by decide, by decide, by decide, rfl⟩ hgrant, ?_⟩
      rw [State.bitEffect_ptAddr]
      refine ⟨(State.rd_wr_same ..).trans ?_, s.onlyRegs_wr _ (List.mem_singleton.mpr rfl)⟩
      simp only [bits, Nat.pow_zero, Nat.div_one, R.BOOT_PT_ADDR_ADDR, Nat.mod_mod]
      split <;> rfl
    · have hfail := State.guardFail_first (s := s) 0x10008 (classOf who) 6 hfirst (by simp [htimes])
      refine ⟨_, (State.bitAlias_secure 0 v hhold hguards ⟨by decide, by decide, by decide, rfl⟩ hgrant).trans (congrArg _ (s.bitEffect_cap who _)), hfail.cause,
        hfail.events 0 (by decide), hfail.keeps _ (by decide), hfail.mem⟩
    · exact (State.bitAlias_secure bit v hhold hguards ⟨by decide, by decide, by decide, rfl⟩ hgrant).trans (congrArg _ (s.bitEffect_readOnly who bit _))

end Sys2Proof.Machine
end

section
/-! Refused accesses (R235, R244, R246). -/

namespace Sys2Proof.Machine

/-- A violation that is captured, and nothing but registers and event deliveries differs. -/
structure State.Violated (s t : State) (cls : Nat) (world : World) (kind source a : Nat) : Prop where
  event : t.rd R.ACT_EVT_VIOLATION = 1
  hasClass : t.rd R.ACT_VIOL_INFO_CLASS = cls % 16
  hasWorld : t.rd R.ACT_VIOL_INFO_WORLD = if 2 ≤ cls then world.num else 0
  hasKind : t.rd R.ACT_VIOL_INFO_KIND = kind
  hasSource : t.rd R.ACT_VIOL_INFO_SOURCE = source
  hasAddr : t.rd R.ACT_VIOL_ADDR_ADDR = a % 2 ^ 40
  same : t.unrecorded = s.unrecorded

/-- A write that is a violation. -/
theorem State.violation_write {s : State} (cls : Nat) (world : World) {source : Nat} (entry a : Nat) (hfirst : s.rd R.ACT_EVT_VIOLATION = 0) (hsource : source < 8) :
    s.Violated (s.violation cls world .write source entry a) cls world 1 source a := by
  have hworld : (if 2 ≤ cls then world.num else 0) < 2 := by
    split
    · exact World.num_lt world
    · decide
  have haddr : a % 2 ^ 40 < 2 ^ 64 := (Nat.mod_lt _ (by decide)).trans (by decide)
  refine ⟨State.violation_event .., ?_, ?_, ?_, ?_, ?_, State.violation_unrecorded ..⟩ <;> unfold State.violation <;>
    rw [s.flag_eq_false hfirst, if_neg Bool.false_ne_true] <;>
    simp (disch := decide) only [State.rd_setEvt_other, State.rd_wr_other, State.rd_wr_same]
  · rfl
  · exact Nat.mod_eq_of_lt hworld
  · rfl
  · exact Nat.mod_eq_of_lt hsource
  · exact Nat.mod_eq_of_lt haddr

/-- The register fields of a violation. -/
def violationFields : List Fld :=
  [R.ACT_VIOL_COUNT_COUNT, R.ACT_VIOL_INFO_CLASS, R.ACT_VIOL_INFO_WORLD, R.ACT_VIOL_INFO_KIND, R.ACT_VIOL_INFO_SOURCE, R.ACT_VIOL_INFO_ENTRY, R.ACT_VIOL_ADDR_ADDR,
    R.ACT_EVT_VIOLATION, R.ACT_EVT_VIOLATION.seq]

theorem State.violation_keepsRegs (s : State) (cls : Nat) (w : World) (k : AccKind) (source entry a : Nat) :
    s.keepsRegs (s.violation cls w k source entry a) violationFields := by
  have hwr (t : State) {f : Fld} (v : Nat) (h : s.keepsRegs t violationFields) (hf : f.key ∈ violationFields.map Fld.key) : s.keepsRegs (t.wr f v) violationFields :=
    h.trans (t.keepsRegs_wr v hf) (List.Subset.refl _)
  unfold State.violation
  extract_lets s1
  have h1 : s.keepsRegs s1 violationFields := by
    unfold s1
    split
    · exact s.keepsRegs_wr _ (by decide)
    · exact hwr _ _ (hwr _ _ (hwr _ _ (hwr _ _ (hwr _ _ (s.keepsRegs_wr _ (by decide)) (by decide)) (by decide)) (by decide)) (by decide)) (by decide)
  exact h1.trans (s1.keepsRegs_setEvt 0 (by decide) (by decide)) (List.Subset.refl _)

/-- A violation that the end of a wait at the table captures. -/
theorem State.holdViolation_write {s : State} {a : HeldAccess} (hkind : a.kind = .write) (hfirst : s.rd R.ACT_EVT_VIOLATION = 0) :
    s.Violated (s.holdViolation a) a.cls a.world 1 5 a.addr := by
  have hviol := s.violation_write (cls := a.cls) a.world (source := 5) 0 a.addr hfirst (by decide)
  have hrd {f : Fld} (h : f.key ≠ R.ACT_EVT_HOLD_TIMEOUT.key) (h' : f.key ≠ R.ACT_EVT_HOLD_TIMEOUT.seq.key) :
      (s.holdViolation a).rd f = (s.violation a.cls a.world .write 5 0 a.addr).rd f := by
    unfold State.holdViolation
    rw [State.rd_setEvt_other _ _ h h', hkind]
  refine ⟨(hrd (by decide) (by decide)).trans hviol.event, (hrd (by decide) (by decide)).trans hviol.hasClass, (hrd (by decide) (by decide)).trans hviol.hasWorld,
    (hrd (by decide) (by decide)).trans hviol.hasKind, (hrd (by decide) (by decide)).trans hviol.hasSource, (hrd (by decide) (by decide)).trans hviol.hasAddr, ?_⟩
  unfold State.holdViolation
  rw [hkind]
  exact hviol.same

/-- A held write of a core that waited too long. -/
theorem State.holdTimeout_write {s s1 : State} {i : Nat} {a : HeldAccess} {p : Nat} {w : World} {l : Level} (hupdate : s.rd R.ACT_CTRL_UPDATE = 1)
    (hheld : s.act.held[i]? = some a) (hs1 : s1 = { s with act := { s.act with held := s.act.held.eraseIdx i } })
    (horigin : a.origin = .mem (.core p w l) ∨ a.origin = .bus (.core p w l)) (hkind : a.kind = .write) (hcalm : (s1.holdViolation a).calm) :
    exec (.actHoldTimeout i) s = .next ((s1.holdViolation a).errorWrite (.core p w l) a.addr) := by
  have hfails : (s1.holdViolation a).heldFails a = (s1.holdViolation a).errorWrite (.core p w l) a.addr := by
    unfold State.heldFails
    rcases horigin with h | h <;> rw [h] <;> dsimp only <;> rw [hkind] <;> rfl
  have hexec : exec (.actHoldTimeout i) s = .next ((s1.holdViolation a).heldFails a).pump := by
    show execActHoldTimeout i s = _
    unfold execActHoldTimeout
    rw [s.flag_of_rd_one hupdate, hheld, hs1]
  rw [hexec, hfails]
  exact congrArg _ (State.pump_of_calm (s := (s1.holdViolation a).errorWrite (.core p w l) a.addr) hcalm)

/-- Table 9-3 lets a normal-world core write no power cap. -/
theorem State.normalWrite_cap {s : State} {p : Nat} {l : Level} (v : Word32) (hidle : s.rd R.ACT_CTRL_UPDATE = 0) (hguards : s.bus.guards = [])
    (hgrant : s.beatRefusal (classOf (.core p .normal l)) .write .normal 0x40010008 = none) :
    exec (.registerWrite (.core p .normal l) 0x10008 (.write v) 0xF) s =
      .next ((s.violation (classOf (.core p .normal l)) .normal .write 2 0 0x40010008).errorWrite (.core p .normal l) 0x40010008) := by
  have hrefuse : s.regRefusal (.core p .normal l) true 0x10008 = some (2, 0) := by
    unfold State.regRefusal
    rw [if_pos rfl, show worldOf (.core p .normal l) = World.normal from rfl, show regBase + 0x10008 = 0x40010008 from rfl, hgrant]
    exact if_neg (by simp [regAllowed, normalAllowed])
  refine (State.write_lands (who := .core p .normal l) (n := 4) nofun (landing_core p .normal l (by decide)) rfl).trans (congrArg _ ?_)
  rw [State.writeAt_whole _ _ _ (by decide) (by decide)]
  unfold State.gated State.parked
  simp only [show s.reaches (.core p .normal l) = true from rfl, show s.inL1 (.core p .normal l) = false from rfl, State.tableHolds_of_idle _ hidle, Bool.not_true,
    Bool.false_eq_true, if_false]
  rw [State.interleave_of_none (by simp [hguards]), if_neg (by decide), hrefuse]
  rfl

/-- Settles O27. -/
theorem refusedAccesses : Obligations.RefusedAccesses := by
  unfold Obligations.RefusedAccesses
  refine ⟨fun s i a p w l hupdate hheld horigin hkind hcalm hfirst => ?_, fun s p l v _ => ?_⟩
  · let s1 : State := { s with act := { s.act with held := s.act.held.eraseIdx i } }
    have hviol : s1.Violated (s1.holdViolation a) a.cls a.world 1 5 a.addr := State.holdViolation_write hkind hfirst
    have hcores : (s1.holdViolation a).cores = s.cores := (congrArg State.cores hviol.same :)
    have hcalm' : (s1.holdViolation a).calm :=
      ⟨(congrArg Dsp.inflight (congrArg State.dsp hviol.same :)).trans hcalm.1, (congrArg Tmp.due (congrArg State.tmp hviol.same :)).trans hcalm.2⟩
    have hheld' : (s1.holdViolation a).act = s1.act := (congrArg State.act hviol.same :)
    refine ⟨_, State.holdTimeout_write (s1 := s1) hupdate hheld rfl horigin hkind hcalm', congrArg Act.held hheld', ?_, hviol.event, hviol.hasClass,
      hviol.hasKind, hviol.hasAddr, (congrArg State.mem hviol.same :)⟩
    refine (State.errorWrite_core _ p w l a.addr).trans ?_
    exact congrArg (fun c : Tbl Core => (tblGet {} c p).storeErrs ++ [(a.addr, l)]) hcores
  · intro who hidle hguards hgrant hfirst
    have hviol := State.violation_write (classOf who) .normal (source := 2) 0 0x40010008 hfirst (by decide)
    have hworld : (2 : Nat) ≤ classOf who := by simp only [who, classOf]; omega
    have hcap : (s.violation (classOf who) .normal .write 2 0 0x40010008).rd R.PWR_CAP_CAP = s.rd R.PWR_CAP_CAP :=
      State.violation_keepsRegs _ _ _ _ _ _ _ _ (by decide)
    refine ⟨_, State.normalWrite_cap v hidle hguards hgrant, hcap, (congrArg Bus.guards (congrArg State.bus hviol.same :)).trans hguards, hviol.hasSource, hviol.hasClass,
      hviol.hasWorld.trans (if_pos hworld), hviol.hasKind, hviol.hasAddr, ?_, (congrArg State.mem hviol.same :)⟩
    refine (State.errorWrite_core _ p .normal l _).trans ?_
    exact congrArg (fun c : Tbl Core => (tblGet {} c p).storeErrs ++ [(0x40010008, l)]) (congrArg State.cores hviol.same :)

end Sys2Proof.Machine
end

section
/-! Delivery of event sources and the MSI-X vectors (R134, R135, R467). -/

namespace Sys2Proof.Machine

theorem length_removeFirst {x : Nat} {l : List Nat} (h : x ∈ l) : (removeFirst x l).length + 1 = l.length := by
  induction l with
  | nil => cases h
  | cons y t ih =>
    rw [removeFirst]
    split
    · rfl
    next hne => exact congrArg (· + 1) (ih ((List.mem_cons.mp h).resolve_left hne))

/-- A decision to record adds no delivery while the queue has room. -/
theorem State.decideRecord_edges {s : State} (h : s.evr.queue.length < 32) (kind source sev arg : Nat) : (s.decideRecord kind source sev arg).edges = s.edges := by
  unfold State.decideRecord
  split
  · rfl
  · unfold State.enqueueRec
    dsimp only
    rw [if_pos (show (s.wrapAdd R.EVR_NEXT_SEQ_SEQ 1).evr.queue.length < 32 from h)]
    rfl

/-- What the record of a source leaves. -/
theorem State.sourceRecord_shown (s : State) (bank n : Nat) : (s.sourceRecord bank n).unrecorded = s.unrecorded ∧
    (s.evr.queue.length < 32 → (s.sourceRecord bank n).edges = s.edges) ∧ s.keepsRegs (s.sourceRecord bank n) recordFields := by
  unfold State.sourceRecord
  split
  · exact ⟨rfl, fun _ => rfl, fun _ _ => rfl⟩
  · exact ⟨State.decideRecord_unrecorded .., fun h => State.decideRecord_edges h .., s.decideRecord_keepsRegs 2 n 1 _⟩

/-- The event map of a port is none of the recorder's. -/
theorem eventMap_key_notMem {f : Fld} (hf : 0x101000 ≤ f.off) (p : Port) (n : Nat) : ((f.port p).ix n).key ∉ recordFields.map Fld.key := by
  have hlow : ∀ k ∈ recordFields.map Fld.key, k < 0x101000 * 64 := by decide
  have hhigh : 0x101000 * 64 ≤ ((f.port p).ix n).key := by
    simp only [Fld.key, Fld.ix, Fld.port, Fld.add]
    omega
  exact fun h => absurd (hlow _ h) (Nat.not_lt.mpr hhigh)

/-- A port whose map has no entry for a source sends nothing. -/
theorem State.routeMsg_unmapped {s : State} {p : Port} {n : Nat} (h : s.rd ((R.PE_EVMAP_ENABLE.port p).ix n) = 0) : s.routeMsg p n = s :=
  if_neg (by simp [s.flag_eq_false h])

/-- A port whose map has an entry for a source sends its PF's message. -/
theorem State.routeMsg_mapped {s : State} {p : Port} {n : Nat} (hmap : mappable n = true) (hon : s.rd ((R.PE_EVMAP_ENABLE.port p).ix n) = 1)
    (hheld : s.heldFn (.pf p) = false) (hmask : (s.fnSt (.pf p)).unmasked.testBit (s.rd ((R.PE_EVMAP_VECTOR.port p).ix n)) = true) :
    s.routeMsg p n = s.emit (.msix (.pf p) (s.rd ((R.PE_EVMAP_VECTOR.port p).ix n))) := by
  have hflag := s.flag_of_rd_one hon
  unfold State.routeMsg
  rw [if_pos (by simp [hmap, hflag])]
  unfold State.vector
  rw [if_neg nofun, if_pos hmask]
  exact if_neg (by simp [hheld])

theorem State.sourceMsgs_unmapped {s : State} {n : Nat} (bank : Nat) (h : ∀ p : Port, s.rd ((R.PE_EVMAP_ENABLE.port p).ix n) = 0) : s.sourceMsgs bank n = s := by
  have hroute (p : Port) : s.routeMsg p n = s := State.routeMsg_unmapped (h p)
  unfold State.sourceMsgs
  rw [hroute, hroute]
  split_ifs <;> rfl

theorem State.sourceMsgs_mapped {s : State} {p q : Port} {n : Nat} (bank : Nat) (hpq : p ≠ q) (h34 : n ≠ 34) (h35 : n ≠ 35) (hmap : mappable n = true)
    (hon : s.rd ((R.PE_EVMAP_ENABLE.port p).ix n) = 1) (hoff : s.rd ((R.PE_EVMAP_ENABLE.port q).ix n) = 0) (hheld : s.heldFn (.pf p) = false)
    (hmask : (s.fnSt (.pf p)).unmasked.testBit (s.rd ((R.PE_EVMAP_VECTOR.port p).ix n)) = true) :
    (s.sourceMsgs bank n).out = .msix (.pf p) (s.rd ((R.PE_EVMAP_VECTOR.port p).ix n)) :: s.out := by
  have hsend := State.routeMsg_mapped hmap hon hheld hmask
  have hnone : s.routeMsg q n = s := State.routeMsg_unmapped hoff
  have hnone' : (s.routeMsg p n).routeMsg q n = s.routeMsg p n := State.routeMsg_unmapped (by rw [hsend]; exact hoff)
  unfold State.sourceMsgs
  rw [if_neg (by simp [h34, h35])]
  cases p with
  | a =>
    cases q with
    | a => exact absurd rfl hpq
    | b => exact congrArg State.out (hnone'.trans hsend)
  | b =>
    cases q with
    | a => exact congrArg State.out ((congrArg (State.routeMsg · .b n) hnone).trans hsend)
    | b => exact absurd rfl hpq

/-- What a vector's unmasking shows. -/
theorem State.unmask_shown (s : State) (fn : Fn) (v : Nat) : ((s.unmask fn v).fnSt fn).unmasked.testBit v = true ∧ ((s.unmask fn v).fnSt fn).msixPend.testBit v = false ∧
    (s.unmask fn v).out = (if (s.fnSt fn).msixPend.testBit v = true ∧ s.heldFn fn = false then .msix fn v :: s.out else s.out) ∧
    (s.unmask fn v).regs = s.regs ∧ (s.unmask fn v).mem = s.mem := by
  let x := { s.fnSt fn with unmasked := bitSet (s.fnSt fn).unmasked v, msixPend := bitClear (s.fnSt fn).msixPend v }
  let s1 := s.setFnSt fn x
  have hx : x.unmasked.testBit v = true ∧ x.msixPend.testBit v = false := by
    simp [x, testBit_bitSet, testBit_bitClear]
  have hfn : s1.fnSt fn = x := s.fnSt_setFnSt_same fn x
  have hheld : s1.heldFn fn = s.heldFn fn := by
    unfold State.heldFn
    cases fn with
    | pf p => cases p <;> rfl
    | vf p n => cases p <;> rfl
    | nw => rfl
  have hmask : s.unmask fn v = if (s.fnSt fn).msixPend.testBit v then s1.send fn (.msix fn v) else s1 := rfl
  rw [hmask]
  by_cases hpend : (s.fnSt fn).msixPend.testBit v = true
  · rw [if_pos hpend]
    unfold State.send
    rw [hheld]
    by_cases h : s.heldFn fn = true
    · rw [if_pos h, if_neg (by simp [h])]
      have hset (st : PortSt) : (s1.setPort fn.port st).fns = s1.fns ∧ (s1.setPort fn.port st).out = s.out ∧ (s1.setPort fn.port st).regs = s.regs ∧
          (s1.setPort fn.port st).mem = s.mem := by
        cases fn.port <;> exact ⟨rfl, rfl, rfl, rfl⟩
      obtain ⟨hfns, hout, hregs, hmem⟩ := hset { s1.port fn.port with held := (s1.port fn.port).held ++ [.msix fn v] }
      have hfn' : (s1.setPort fn.port { s1.port fn.port with held := (s1.port fn.port).held ++ [.msix fn v] }).fnSt fn = x :=
        (congrArg (fun l => tblGet ({} : FnSt) l fn.id) hfns :).trans hfn
      rw [hfn']
      exact ⟨hx.1, hx.2, hout, hregs, hmem⟩
    · rw [if_neg h, if_pos ⟨hpend, by simpa using h⟩]
      rw [show (s1.emit (.msix fn v)).fnSt fn = x from hfn]
      exact ⟨hx.1, hx.2, rfl, rfl, rfl⟩
  · rw [if_neg hpend, if_neg (fun h => hpend h.1), hfn]
    exact ⟨hx.1, hx.2, rfl, rfl, rfl⟩

/-- Settles O28. -/
theorem eventDelivery : Obligations.EventDelivery := by
  unfold Obligations.EventDelivery
  refine fun s => ⟨fun source hsource => ?_, fun fn vector hfn hvec => ?_⟩
  · obtain ⟨e, hfind⟩ : ∃ e, (s.edges.find? fun e => e % 512 == source) = some e := by
      obtain ⟨e, he, hes⟩ := hsource
      exact Option.isSome_iff_exists.mp (List.find?_isSome.mpr ⟨e, he, beq_iff_eq.mpr hes⟩)
    let s1 : State := { s with edges := removeFirst e s.edges }
    let s2 := s1.sourceRecord (e / 512) source
    have hexec : exec (.eventSourceAssert source) s = .next (s2.sourceMsgs (e / 512) source) := by
      show execEventSourceAssert source s = _
      unfold execEventSourceAssert
      rw [hfind]
    obtain ⟨hsame, hedges, hkeep⟩ := s1.sourceRecord_shown (e / 512) source
    have hrd {f : Fld} (hf : 0x101000 ≤ f.off) (p : Port) : s2.rd ((f.port p).ix source) = s.rd ((f.port p).ix source) := hkeep _ (eventMap_key_notMem hf p source)
    have hout : s2.out = s.out := (congrArg State.out hsame :)
    have hfn (p : Port) : s2.fnSt (.pf p) = s.fnSt (.pf p) := (congrArg (fun t : State => t.fnSt (.pf p)) hsame :)
    have hheld' (p : Port) : s2.heldFn (.pf p) = s.heldFn (.pf p) := (congrArg (fun t : State => t.heldFn (.pf p)) hsame :)
    have hmem : (s2.sourceMsgs (e / 512) source).mem = s2.mem := State.sourceMsgs_keepsMem rfl
    have hedges' : (s2.sourceMsgs (e / 512) source).edges = s2.edges := State.sourceMsgs_keepsEdges rfl
    refine ⟨_, hexec, hmem.trans (congrArg State.mem hsame :), fun hroom => ?_, fun hnone => ?_, fun p q hpq h34 h35 hmap hon hoff hheld hmask => ?_⟩
    · rw [hedges', hedges hroom]
      exact length_removeFirst (List.mem_of_find?_eq_some hfind)
    · rw [State.sourceMsgs_unmapped _ fun p => (hrd (by decide) p).trans (hnone p)]
      exact hout
    · rw [State.sourceMsgs_mapped _ hpq h34 h35 hmap ((hrd (by decide) p).trans hon) ((hrd (by decide) q).trans hoff) ((hheld' p).trans hheld)
        (by rw [hfn, hrd (by decide)]; exact hmask), hrd (by decide), hout]
  · exact ⟨_, (if_pos (by simp [hfn, hvec]) : execMsixUnmask fn vector s = _), s.unmask_shown fn vector⟩

end Sys2Proof.Machine
end

section
/-! The event recorder: storing records (R470, R471). -/

namespace Sys2Proof.Machine

/-- A record of the queue that is at least as severe as every other. -/
theorem foldl_mostSevere (l : List Rec) (b : Rec) :
    ∃ r ∈ b :: l, (∀ x ∈ b :: l, x.sev ≤ r.sev) ∧ l.foldl (fun (a : Option Rec) r =>
      match a with
      | none => some r
      | some b => if b.sev < r.sev ∨ (b.sev = r.sev ∧ r.seq < b.seq) then some r else a) (some b) = some r := by
  induction l generalizing b with
  | nil => exact ⟨b, List.mem_singleton.mpr rfl, fun x hx => by rw [List.mem_singleton.mp hx], rfl⟩
  | cons y t ih =>
    rw [List.foldl_cons]
    dsimp only
    split
    next h =>
      obtain ⟨r, hr, hmax, hfold⟩ := ih y
      refine ⟨r, List.mem_cons_of_mem _ hr, fun x hx => ?_, hfold⟩
      rcases List.mem_cons.mp hx with rfl | hx
      · exact (by omega : x.sev ≤ y.sev).trans (hmax y List.mem_cons_self)
      · exact hmax x hx
    next h =>
      obtain ⟨r, hr, hmax, hfold⟩ := ih b
      refine ⟨r, ?_, fun x hx => ?_, hfold⟩
      · rcases List.mem_cons.mp hr with rfl | hr
        · exact List.mem_cons_self
        · exact List.mem_cons_of_mem _ (List.mem_cons_of_mem _ hr)
      · rcases List.mem_cons.mp hx with rfl | hx
        · exact hmax x List.mem_cons_self
        · rcases List.mem_cons.mp hx with rfl | hx
          · exact (by omega : x.sev ≤ b.sev).trans (hmax b List.mem_cons_self)
          · exact hmax x (List.mem_cons_of_mem _ hx)

theorem State.nextRec_mostSevere {s : State} (hclear : s.evr.clearing = none) (hq : s.evr.queue ≠ []) :
    ∃ r ∈ s.evr.queue, (∀ x ∈ s.evr.queue, x.sev ≤ r.sev) ∧ s.nextRec = some r := by
  obtain ⟨b, t, hbt⟩ := List.exists_cons_of_ne_nil hq
  unfold State.nextRec
  rw [hclear, hbt]
  exact foldl_mostSevere t b

/-- The register fields of a record's storing. -/
def storeFields : List Fld :=
  [R.EVR_EVT_STORED, R.EVR_EVT_STORED.seq, R.EVR_EVT_FULL, R.EVR_OVERWR_COUNT, R.EVR_EVT_OVERWRITE, R.EVR_DROPPED_COUNT, R.EVR_EVT_DROPPED]

/-- What the storing of a record does. -/
structure State.Stored (s t : State) (r : Rec) : Prop where
  keeps : s.keepsRegs t storeFields
  queue : t.evr.queue = s.evr.queue
  free : s.emptySlots ≠ [] → t.rd R.EVR_EVT_STORED = 1 ∧ ∃ slot ∈ s.emptySlots, tblGet none t.evr.slots slot = some r ∧
    ∀ k, k ≠ slot → tblGet none t.evr.slots k = tblGet none s.evr.slots k
  full : s.emptySlots = [] → t.rd R.EVR_EVT_OVERWRITE = 1 ∨ t.rd R.EVR_EVT_DROPPED = 1

theorem State.dropRecord_keeps (s : State) : s.keepsRegs s.dropRecord storeFields :=
  (s.keepsRegs_wr _ (by decide)).trans (State.keepsRegs_setEvt _ 0 (by decide) (by decide)) (List.Subset.refl _)

theorem State.storeRec_stored (s : State) (r : Rec) : s.Stored (s.storeRec r) r := by
  unfold State.storeRec
  split
  next e es hes =>
    let n := (s.freeNat 2).1
    let slot := (e :: es).getD (n % (es.length + 1)) e
    let s1 := (s.freeNat 2).2.putRec slot r
    have hslot : slot ∈ s.emptySlots := by
      rw [hes]
      unfold slot
      rw [List.getD_eq_getElem _ _ (Nat.mod_lt n (Nat.succ_pos es.length) : n % (es.length + 1) < (e :: es).length)]
      exact List.getElem_mem _
    have hevt : (s1.setEvt R.EVR_EVT_STORED).rd R.EVR_EVT_STORED = 1 := State.rd_setEvt_same _ rfl (by decide)
    have hkeep : s.keepsRegs (s1.setEvt R.EVR_EVT_STORED) storeFields :=
      (State.keepsRegs_of_regs (s := s) (t := s1) rfl _).trans (s1.keepsRegs_setEvt 0 (by decide) (by decide)) (List.Subset.refl _)
    have hslots : tblGet none s1.evr.slots slot = some r ∧ ∀ k, k ≠ slot → tblGet none s1.evr.slots k = tblGet none s.evr.slots k :=
      ⟨tblGet_put_same none s.evr.slots slot (some r), fun k hk => (tblGet_put_other none none s.evr.slots (some r) hk :)⟩
    dsimp only
    split
    · exact ⟨hkeep.trans (State.keepsRegs_setEvt _ 0 (by decide) (by decide)) (List.Subset.refl _), rfl,
        fun _ => ⟨(State.rd_setEvt_other _ _ (by decide) (by decide)).trans hevt, slot, hslot, hslots⟩, fun h => absurd (hes.symm.trans h) (List.cons_ne_nil _ _)⟩
    · exact ⟨hkeep, rfl, fun _ => ⟨hevt, slot, hslot, hslots⟩, fun h => absurd (hes.symm.trans h) (List.cons_ne_nil _ _)⟩
  next hes =>
    have hdrop : s.Stored s.dropRecord r :=
      ⟨s.dropRecord_keeps, rfl, fun h => absurd hes h, fun _ => .inr (State.rd_setEvt_same _ rfl (by decide))⟩
    split
    next slot sev hold =>
      split
      · let s1 := (s.putRec slot r).satAdd R.EVR_OVERWR_COUNT 1
        have hkeep1 : s.keepsRegs s1 storeFields :=
          (State.keepsRegs_of_regs (s := s) (t := s.putRec slot r) rfl _).trans (State.keepsRegs_wr _ _ (by decide)) (List.Subset.refl _)
        exact ⟨(hkeep1.trans (s1.keepsRegs_setEvt 0 (by decide) (by decide)) (List.Subset.refl _)).trans (State.keepsRegs_setEvt _ 0 (by decide) (by decide))
          (List.Subset.refl _), rfl, fun h => absurd hes h,
          fun _ => .inl ((State.rd_setEvt_other _ _ (by decide) (by decide)).trans (s1.rd_setEvt_same rfl (by decide)))⟩
      · exact hdrop
    next => exact hdrop

end Sys2Proof.Machine
end

section
/-! The event recorder: reading, exporting and clearing records (R472, R473). -/

namespace Sys2Proof.Machine

theorem State.rdSel_shown (s : State) (b slot : Nat) : let t := s.rdSel b slot
    t.rd (R.EVR_RD_SEL_SLOT.inst b) = slot % 2048 ∧ t.rd (R.EVR_RD_VALID_VALID.inst b) = 0 ∧ b ∈ t.evr.rdReq ∧ t.mem = s.mem := by
  have hkey : (R.EVR_RD_SEL_SLOT.inst b).key ≠ (R.EVR_RD_VALID_VALID.inst b).key := by
    simp only [Fld.key, Fld.inst, R.EVR_RD_SEL_SLOT, R.EVR_RD_VALID_VALID]
    omega
  intro t
  refine ⟨(State.rd_wr_other (s.wr (R.EVR_RD_SEL_SLOT.inst b) slot) 0 hkey).trans (State.rd_wr_same ..), State.rd_wr_same (s.wr _ _) _ 0, ?_, rfl⟩
  show b ∈ (if s.evr.rdReq.contains b then s.evr.rdReq else s.evr.rdReq ++ [b])
  split
  next h => exact List.contains_iff_mem.mp h
  · exact List.mem_append.mpr (.inr (List.mem_singleton.mpr rfl))

/-- Writing an array of data words changes nothing but their fields. -/
theorem putWords_rd_other {f g : Fld} {b : Nat} {l : List Byte} {n : Nat} (s : State) (h : ∀ k < n, g.key ≠ ((f.ix k).inst b).key) :
    (putWords f b l n s).rd g = s.rd g := by
  induction n with
  | zero => rfl
  | succ n ih =>
    rw [putWords, State.rd_wr_other _ _ (h n (Nat.lt_succ_self n))]
    exact ih fun k hk => h k (Nat.lt_succ_of_lt hk)

theorem recordData_key_ne (b : Nat) {j k : Nat} (h : j ≠ k) : ((R.EVR_RD_DATA_DATA.ix j).inst b).key ≠ ((R.EVR_RD_DATA_DATA.ix k).inst b).key := by
  simp only [Fld.key, Fld.inst, Fld.ix, R.EVR_RD_DATA_DATA]
  omega

theorem putWords_rd (b : Nat) (l : List Byte) {n k : Nat} (s : State) (hk : k < n) :
    (putWords R.EVR_RD_DATA_DATA b l n s).rd ((R.EVR_RD_DATA_DATA.ix k).inst b) = leAt l (4 * k) 4 := by
  induction n with
  | zero => cases hk
  | succ n ih =>
    rw [putWords]
    by_cases h : k = n
    · subst h
      exact (State.rd_wr_same ..).trans (Nat.mod_eq_of_lt (leAt_word_lt ..))
    · rw [State.rd_wr_other _ _ (recordData_key_ne b h)]
      exact ih (by omega)

theorem putWords_mem (f : Fld) (b : Nat) (l : List Byte) (n : Nat) (s : State) : (putWords f b l n s).mem = s.mem := by
  induction n with
  | zero => rfl
  | succ n ih => exact ih

/-- The fields that show a copy, apart from one another and from the data. -/
theorem recordValid_key_ne (b : Nat) : (R.EVR_RD_VALID_SLOT.inst b).key ≠ (R.EVR_RD_VALID_VALID.inst b).key ∧
    ∀ k, ((R.EVR_RD_DATA_DATA.ix k).inst b).key ≠ (R.EVR_RD_VALID_VALID.inst b).key ∧ ((R.EVR_RD_DATA_DATA.ix k).inst b).key ≠ (R.EVR_RD_VALID_SLOT.inst b).key := by
  simp only [Fld.key, Fld.inst, Fld.ix, R.EVR_RD_DATA_DATA, R.EVR_RD_VALID_VALID, R.EVR_RD_VALID_SLOT]
  refine ⟨by omega, fun k => ?_⟩
  omega

/-- The end of a copy, once its words are written. -/
def State.endCopy (s : State) (b slot : Nat) : State :=
  let s := (s.wr (R.EVR_RD_VALID_SLOT.inst b) slot).wr (R.EVR_RD_VALID_VALID.inst b) 1
  { s with evr := { s.evr with rdReq := s.evr.rdReq.filter (· != b) } }

theorem State.endCopy_shown (s : State) (b : Nat) {slot : Nat} (hslot : slot < 2048) : let t := s.endCopy b slot
    t.rd (R.EVR_RD_VALID_VALID.inst b) = 1 ∧ t.rd (R.EVR_RD_VALID_SLOT.inst b) = slot ∧ b ∉ t.evr.rdReq ∧
      (∀ k, t.rd ((R.EVR_RD_DATA_DATA.ix k).inst b) = s.rd ((R.EVR_RD_DATA_DATA.ix k).inst b)) ∧ t.mem = s.mem := by
  obtain ⟨hvs, hdata⟩ := recordValid_key_ne b
  refine ⟨State.rd_wr_same (s.wr _ _) _ 1,
    (State.rd_wr_other (s.wr (R.EVR_RD_VALID_SLOT.inst b) slot) 1 hvs).trans ((State.rd_wr_same s _ _).trans (Nat.mod_eq_of_lt hslot)), fun hmem => ?_,
    fun k => ?_, rfl⟩
  · exact absurd (List.mem_filter.mp hmem).2 (by simp)
  · exact (State.rd_wr_other (s.wr (R.EVR_RD_VALID_SLOT.inst b) slot) 1 (hdata k).1).trans (State.rd_wr_other s slot (hdata k).2)

theorem State.copyDone_shown {s : State} {bank : Fin 4} (hreq : bank.val ∈ s.evr.rdReq) (hslot : s.rd (R.EVR_RD_SEL_SLOT.inst bank.val) < 2048) : let b := bank.val
    ∃ t, exec (.evrRdCopyDone bank) s = .next t ∧ t.rd (R.EVR_RD_VALID_VALID.inst b) = 1 ∧
      t.rd (R.EVR_RD_VALID_SLOT.inst b) = s.rd (R.EVR_RD_SEL_SLOT.inst b) ∧ b ∉ t.evr.rdReq ∧
      (∀ k, k < 16 → t.rd ((R.EVR_RD_DATA_DATA.ix k).inst b) = leAt (s.slotBytes (s.rd (R.EVR_RD_SEL_SLOT.inst b))) (4 * k) 4) ∧ t.mem = s.mem := by
  intro b
  let slot := s.rd (R.EVR_RD_SEL_SLOT.inst b)
  have hexec : exec (.evrRdCopyDone bank) s = .next ((putWords R.EVR_RD_DATA_DATA b (s.slotBytes slot) 16 s).endCopy b slot) :=
    if_pos (List.contains_iff_mem.mpr hreq)
  obtain ⟨hvalid, hsl, hout, hdata, hmem⟩ := (putWords R.EVR_RD_DATA_DATA b (s.slotBytes slot) 16 s).endCopy_shown b hslot
  exact ⟨_, hexec, hvalid, hsl, hout, fun k hk => (hdata k).trans (putWords_rd b _ s hk), hmem.trans (putWords_mem ..)⟩

/-- The fields of a record copied out are apart from one another. -/
theorem exportStat_key_ne (b : Nat) : (R.EVR_EXP_STAT_BUSY.inst b).key ≠ (R.EVR_EXP_STAT_RESULT.inst b).key ∧
    (R.EVR_EXP_STAT_BUSY.inst b).key ≠ (R.EVR_EXP_STAT_WRITTEN.inst b).key ∧ (R.EVR_EXP_STAT_RESULT.inst b).key ≠ (R.EVR_EXP_STAT_WRITTEN.inst b).key ∧
    (R.EVR_EXP_STAT_BUSY.inst b).key ≠ (R.EVR_EXP_CTRL_COUNT.inst b).key ∧ (R.EVR_EXP_STAT_BUSY.inst b).key ≠ (R.EVR_EXP_LAST_SEQ.inst b).key ∧
    (R.EVR_EXP_STAT_RESULT.inst b).key ≠ (R.EVR_EXP_LAST_SEQ.inst b).key := by
  simp only [Fld.key, Fld.inst, R.EVR_EXP_STAT_BUSY, R.EVR_EXP_STAT_RESULT, R.EVR_EXP_STAT_WRITTEN, R.EVR_EXP_CTRL_COUNT, R.EVR_EXP_LAST_SEQ]
  omega

theorem State.expCtrl_shown {s : State} {b v : Nat} (hb : b ≠ 0) (hgo : v.testBit 31 = true) (hidle : s.rd (R.EVR_EXP_STAT_BUSY.inst b) = 0) :
    let t := s.expCtrl b v
    t.rd (R.EVR_EXP_STAT_BUSY.inst b) = 1 ∧ t.rd (R.EVR_EXP_STAT_WRITTEN.inst b) = 0 ∧ t.mem = s.mem ∧ t.evr = s.evr := by
  obtain ⟨hres, hwr, -⟩ := exportStat_key_ne b
  intro t
  have ht : t = ((((s.wr (R.EVR_EXP_CTRL_COUNT.inst b) (bits v 0 12)).wr (R.EVR_EXP_STAT_BUSY.inst b) 1).wr (R.EVR_EXP_STAT_RESULT.inst b) 0).wr
      (R.EVR_EXP_STAT_WRITTEN.inst b) 0) :=
    (if_neg hb).trans (if_pos (by simp [hgo, s.flag_eq_false hidle]))
  rw [ht]
  refine ⟨?_, State.rd_wr_same .., rfl, rfl⟩
  rw [State.rd_wr_other _ _ hwr, State.rd_wr_other _ _ hres]
  exact State.rd_wr_same ..

/-- Records go out as posted writes: one output each while the port is not in D3hot. -/
theorem exportRecs_shown {p : Port} (l : List Rec) (a : Nat) {s : State} (hd3 : (s.port p).d3 = false) :
    (exportRecs p a l s).out.length = s.out.length + l.length ∧ (exportRecs p a l s).regs = s.regs ∧ (exportRecs p a l s).evr = s.evr ∧
      (exportRecs p a l s).mem = s.mem := by
  induction l generalizing a s with
  | nil => exact ⟨rfl, rfl, rfl, rfl⟩
  | cons r t ih =>
    have hsend : s.send (.pf p) (.dmaWrite (.pf p) a (fit 64 r.bytes) .recorder) = s.emit (.dmaWrite (.pf p) a (fit 64 r.bytes) .recorder) :=
      if_neg (by simp [State.heldFn, Fn.port, hd3])
    have hport : ((s.emit (.dmaWrite (.pf p) a (fit 64 r.bytes) .recorder)).port p).d3 = false := by cases p <;> exact hd3
    obtain ⟨hout, hregs, hevr, hmem⟩ := ih (a + 64) hport
    rw [exportRecs, hsend]
    refine ⟨hout.trans ?_, hregs, hevr, hmem⟩
    show s.out.length + 1 + t.length = _
    rw [List.length_cons]
    omega

/-- The end of copying records out. -/
theorem State.expEnd_shown {s : State} {p : Port} {result n : Nat} (hd3 : (s.port p).d3 = false) (hresult : result < 4) : let b := 2 + p.num
    let t := s.expEnd p result n
    t.rd (R.EVR_EXP_STAT_BUSY.inst b) = 0 ∧ t.rd R.EVR_EVT_EXP_DONE = 1 ∧ t.rd (R.EVR_EXP_STAT_RESULT.inst b) = result ∧
      t.out.length = s.out.length + ((s.expRecs b).take n).length ∧ t.evr = s.evr ∧ t.mem = s.mem := by
  intro b t
  obtain ⟨hbr, hbw, hrw, -, hbl, hrl⟩ := exportStat_key_ne b
  unfold t State.expEnd
  extract_lets l a s1 s2 s3
  obtain ⟨hout, hregs, hevr, hmem⟩ := exportRecs_shown l (a / 64 * 64) hd3
  have hevt {f : Fld} (hf : f.off = 0x50110) (hl : f.lsb < 4) : (s3.setEvt R.EVR_EVT_EXP_DONE).rd (f.inst b) = s3.rd (f.inst b) := by
    refine State.rd_setEvt_other _ _ ?_ ?_ <;>
    · simp only [Fld.key, Fld.inst, Fld.seq, R.EVR_EVT_EXP_DONE, hf]
      omega
  have h3 : s3.out = s2.out ∧ s3.evr = s2.evr ∧ s3.mem = s2.mem ∧ s3.rd (R.EVR_EXP_STAT_BUSY.inst b) = s2.rd (R.EVR_EXP_STAT_BUSY.inst b) ∧
      s3.rd (R.EVR_EXP_STAT_RESULT.inst b) = s2.rd (R.EVR_EXP_STAT_RESULT.inst b) := by
    unfold s3
    split
    · exact ⟨rfl, rfl, rfl, State.rd_wr_other _ _ hbl, State.rd_wr_other _ _ hrl⟩
    · exact ⟨rfl, rfl, rfl, rfl, rfl⟩
  obtain ⟨hout3, hevr3, hmem3, hbusy3, hres3⟩ := h3
  refine ⟨?_, State.rd_setEvt_same _ rfl (by decide), ?_, ?_, ?_, ?_⟩
  · rw [hevt rfl (by decide), hbusy3, State.rd_wr_other _ _ hbw, State.rd_wr_other _ _ hbr]
    exact State.rd_wr_same ..
  · rw [hevt rfl (by decide), hres3, State.rd_wr_other _ _ hrw]
    exact (State.rd_wr_same ..).trans (Nat.mod_eq_of_lt hresult)
  · exact (congrArg List.length hout3).trans hout
  · exact hevr3.trans hevr
  · exact hmem3.trans hmem

theorem State.endApproval_gone (s : State) (id : Nat) : tblGet none (s.endApproval id).keys.approvals id = none := by
  unfold State.endApproval
  split
  next h => exact h
  next => exact (tblGet_put_same none s.keys.approvals id none :)

/-- A clearing that is refused. -/
theorem State.clearWrite_refused {s : State} {v : Nat} (hr : s.clearCheck (v % 65536) ≠ 0) (hlt : s.clearCheck (v % 65536) < 4) : let t := s.clearWrite v
    t.rd R.EVR_CLR_STATUS_RESULT = s.clearCheck (v % 65536) ∧ t.rd R.EVR_EVT_CLEAR_REFUSED = 1 ∧ t.evr = s.evr ∧ t.mem = s.mem := by
  have hid : bits v 0 16 = v % 65536 := by simp [bits]
  intro t
  have ht : t = ((((s.endApproval (v % 65536)).wr R.EVR_CLR_STATUS_RESULT (s.clearCheck (v % 65536))).wr R.EVR_CLEAR_APPROVAL_ID (v % 65536)).setEvt
      R.EVR_EVT_CLEAR_REFUSED) := by
    unfold t State.clearWrite
    rw [hid]
    exact if_pos hr
  rw [ht]
  refine ⟨?_, State.rd_setEvt_same _ rfl (by decide), State.endApproval_keepsEvr (s := s) rfl, State.endApproval_keepsMem (s := s) rfl⟩
  rw [State.rd_setEvt_other _ _ (by decide) (by decide), State.rd_wr_other _ _ (by decide)]
  exact (State.rd_wr_same ..).trans (Nat.mod_eq_of_lt hlt)

/-- A clearing that is accepted. -/
theorem State.clearWrite_accepted {s : State} {v : Nat} (hr : s.clearCheck (v % 65536) = 0) : let t := s.clearWrite v
    t.rd R.EVR_CLR_STATUS_RESULT = 0 ∧ t.evr.clearing = some (s.rd R.EVR_CLR_UPTO_UPTO) ∧ tblGet none t.keys.approvals (v % 65536) = none ∧ t.mem = s.mem := by
  have hid : bits v 0 16 = v % 65536 := by simp [bits]
  intro t
  have ht : s.clearWrite v = t := rfl
  clear_value t
  unfold State.clearWrite at ht
  rw [hid] at ht
  extract_lets id r owner s1 s2 upto rec_ s3 evr at ht
  clear_value rec_
  have hr0 : r = 0 := hr
  have hupto : upto = s.rd R.EVR_CLR_UPTO_UPTO :=
    (State.rd_wr_other s1 _ (by decide)).trans ((State.rd_wr_other (s.endApproval id) _ (by decide)).trans (State.rd_of_regs (State.endApproval_keepsRegs rfl) _))
  have hres : s2.rd R.EVR_CLR_STATUS_RESULT = 0 :=
    (State.rd_wr_other s1 _ (by decide)).trans ((State.rd_wr_same (s.endApproval id) _ r).trans (by rw [hr0]; rfl))
  have hstored : (s2.wrapAdd R.EVR_NEXT_SEQ_SEQ 1).Stored s3 rec_ := State.storeRec_stored _ _
  have hkeys : s3.keys = (s.endApproval id).keys := State.storeRec_keepsKeys (s := s2.wrapAdd R.EVR_NEXT_SEQ_SEQ 1) rfl
  have hmem : s3.mem = s.mem := (State.storeRec_keepsMem (s := s2.wrapAdd R.EVR_NEXT_SEQ_SEQ 1) rfl).trans (State.endApproval_keepsMem (s := s) rfl)
  clear_value s3
  have hrd : s3.rd R.EVR_CLR_STATUS_RESULT = 0 := (hstored.keeps R.EVR_CLR_STATUS_RESULT (by decide)).trans ((State.rd_wr_other s2 _ (by decide)).trans hres)
  rw [if_neg (fun h => h hr0)] at ht
  have htregs : s3.regs = t.regs := (congrArg State.regs ht :)
  have htevr : some upto = t.evr.clearing := congrArg (fun t : State => t.evr.clearing) ht
  have htkeys : s3.keys = t.keys := (congrArg State.keys ht :)
  have htmem : s3.mem = t.mem := (congrArg State.mem ht :)
  refine ⟨(State.rd_of_regs htregs.symm _).trans hrd, htevr.symm.trans (congrArg some hupto), ?_, htmem.symm.trans hmem⟩
  rw [← htkeys, hkeys]
  exact s.endApproval_gone id

/-- Settles O29. -/
theorem recordRows : Obligations.RecordRows := by
  unfold Obligations.RecordRows
  refine ⟨fun s happlied hclear hq => ?_, fun s => ⟨fun who v hpass => ?_, fun bank => State.copyDone_shown, fun p v => ?_, fun p dmaError hbusy hd3 => ?_⟩,
    fun s => ⟨fun who complement v hpass hr hlt => ?_, fun who complement v hpass hr => ?_, fun upto hclear => ?_⟩⟩
  · obtain ⟨r, hr, hmax, hnext⟩ := State.nextRec_mostSevere hclear hq
    let s1 : State := { s with evr := { s.evr with queue := s.evr.queue.filter fun x => x.seq != r.seq } }
    have hstored := s1.storeRec_stored r
    have hexec : exec .recordStore s = .next (s1.storeRec r) := by
      show execRecordStore s = _
      unfold execRecordStore
      rw [happlied, hnext]
    refine ⟨_, r, hexec, hr, hmax, fun x => ?_, State.storeRec_keepsMem (s := s1) rfl, hstored.free, hstored.full⟩
    rw [hstored.queue]
    exact List.mem_filter.trans (by rw [bne_iff_ne])
  · have hid : bits v.toNat 0 11 % 2048 = v.toNat % 2048 := by simp [bits]
    obtain ⟨hslot, hvalid, hreq, hmem⟩ := s.rdSel_shown ((bankOf who).getD 0) (bits v.toNat 0 11)
    exact ⟨_, congrArg Host.Outcome.next (State.gated_of_passes hpass v.toNat _), hslot.trans hid, hvalid, hreq, hmem⟩
  · intro who b hpass hgo hidle
    have hbank : (bankOf who).getD 0 = b := by cases p <;> rfl
    have hexec : exec (.evrExpGo who v) s = .next (s.expCtrl b v.toNat) :=
      congrArg Host.Outcome.next ((State.gated_of_passes hpass v.toNat _).trans (by rw [hbank]))
    exact ⟨_, hexec, State.expCtrl_shown (by omega) hgo hidle⟩
  · have hb : s.flag (R.EVR_EXP_STAT_BUSY.inst (2 + p.num)) = true := s.flag_of_rd_one hbusy
    cases dmaError with
    | true =>
      let n := (s.freeNat 2).1 % ((s.expRecs (2 + p.num)).length + 1)
      have hd3' : ((s.freeNat 2).2.port p).d3 = false := by cases p <;> exact hd3
      obtain ⟨hbusy', hdone, hres, -, hevr, hmem⟩ := State.expEnd_shown (n := n) (result := 2) hd3' (by decide)
      exact ⟨_, (if_pos hb : execEvrExpDone p true s = _), hbusy', hdone, hres, nofun, hevr, hmem⟩
    | false =>
      have hres' : (if (s.expRecs (2 + p.num)).length = 0 then 1 else 0) < 4 := by split <;> decide
      obtain ⟨hbusy', hdone, hres, hout, hevr, hmem⟩ := State.expEnd_shown (n := (s.expRecs (2 + p.num)).length) hd3 hres'
      refine ⟨_, (if_pos hb : execEvrExpDone p false s = _), hbusy', hdone, hres, fun _ => hout.trans ?_, hevr, hmem⟩
      rw [List.take_length]
  · obtain ⟨hres, hevt, hevr, hmem⟩ := State.clearWrite_refused (s := s.dropGuard 0x50024) hr hlt
    exact ⟨_, congrArg Host.Outcome.next (State.writeGuarded_of_passes hpass _), hres, hevt, congrArg Evr.slots hevr, congrArg Evr.clearing hevr, hmem⟩
  · obtain ⟨hres, hclear, happ, hmem⟩ := State.clearWrite_accepted (s := s.dropGuard 0x50024) hr
    exact ⟨_, congrArg Host.Outcome.next (State.writeGuarded_of_passes hpass _), hres, hclear, happ, hmem⟩
  · let keep := s.evr.slots.filter fun e => match e.2 with | some r => decide (upto < r.seq) | none => false
    let s1 := s.wr R.EVR_CLR_STATUS_REMOVED (s.evr.slots.length - keep.length)
    have hexec : exec .evrClearingDone s = .next (({ s1 with evr := { s.evr with slots := keep, clearing := none } } : State).setEvt R.EVR_EVT_CLEARED) := by
      show execEvrClearingDone s = _
      unfold execEvrClearingDone
      rw [hclear]
      rfl
    refine ⟨_, hexec, rfl, State.rd_setEvt_same _ rfl (by decide), fun e he r hr => ?_, rfl⟩
    have hkept := (List.mem_filter.mp he).2
    rw [hr] at hkept
    exact of_decide_eq_true hkept

end Sys2Proof.Machine
end

section
/-! Normal-world queue pairs and the services of the monitor (R216, R217, R221). -/

namespace Sys2Proof.Machine

/-- Two fields of WLD_NQ_BIND[n]. -/
theorem nqBind_key_ne {f g : Fld} (hf : f.lsb < 64) (hg : g.lsb < 64) (h : f.lsb ≠ g.lsb) (n : Nat) : (f.ix n).key ≠ (g.ix n).key :=
  Fld.key_ne_of_lsb hf hg h

theorem bits_lt (v lo w : Nat) : bits v lo w < 2 ^ w := Nat.mod_lt _ (Nat.two_pow_pos w)

/-- The fields of a binding. -/
def bindFields (n : Nat) : List Fld :=
  [R.WLD_NQ_BIND_RESULT.ix n, R.WLD_NQ_BIND_OWNER.ix n, R.WLD_NQ_BIND_WEIGHT.ix n, R.WLD_NQ_BIND_POOL_QP.ix n, R.WLD_NQ_BIND_BOUND.ix n]

/-- A bind that passes its check. -/
theorem State.nqBind_binds {s : State} {n v : Nat} (hbind : v.testBit 28 = true) (hcheck : s.bindCheck n v = 0) : let t := s.nqBind n v
    t.rd (R.WLD_NQ_BIND_BOUND.ix n) = 1 ∧ t.rd (R.WLD_NQ_BIND_RESULT.ix n) = 0 ∧ t.rd (R.WLD_NQ_BIND_OWNER.ix n) = bits v 0 10 ∧
      t.rd (R.WLD_NQ_BIND_WEIGHT.ix n) = bits v 10 8 ∧ t.rd (R.WLD_NQ_BIND_POOL_QP.ix n) = bits v 18 10 ∧ s.onlyRegs t (bindFields n) := by
  intro t
  have ht : t = ((((s.wr (R.WLD_NQ_BIND_RESULT.ix n) 0).wr (R.WLD_NQ_BIND_OWNER.ix n) (bits v 0 10)).wr (R.WLD_NQ_BIND_WEIGHT.ix n) (bits v 10 8)).wr
      (R.WLD_NQ_BIND_POOL_QP.ix n) (bits v 18 10)).wr (R.WLD_NQ_BIND_BOUND.ix n) 1 := by
    unfold t State.nqBind
    rw [if_pos hbind]
    dsimp only
    rw [hcheck]
    exact if_neg (fun h => h rfl)
  have hne {f g : Fld} (hf : f.lsb < 64) (hg : g.lsb < 64) (h : f.lsb ≠ g.lsb) : (f.ix n).key ≠ (g.ix n).key := nqBind_key_ne hf hg h n
  rw [ht]
  refine ⟨State.rd_wr_same .., ?_, ?_, ?_, ?_, rfl, ?_⟩
  · rw [State.rd_wr_other _ _ (hne (by decide) (by decide) (by decide)), State.rd_wr_other _ _ (hne (by decide) (by decide) (by decide)),
      State.rd_wr_other _ _ (hne (by decide) (by decide) (by decide)), State.rd_wr_other _ _ (hne (by decide) (by decide) (by decide))]
    exact State.rd_wr_same ..
  · rw [State.rd_wr_other _ _ (hne (by decide) (by decide) (by decide)), State.rd_wr_other _ _ (hne (by decide) (by decide) (by decide)),
      State.rd_wr_other _ _ (hne (by decide) (by decide) (by decide))]
    exact (State.rd_wr_same ..).trans (Nat.mod_eq_of_lt (bits_lt ..))
  · rw [State.rd_wr_other _ _ (hne (by decide) (by decide) (by decide)), State.rd_wr_other _ _ (hne (by decide) (by decide) (by decide))]
    exact (State.rd_wr_same ..).trans (Nat.mod_eq_of_lt (bits_lt ..))
  · rw [State.rd_wr_other _ _ (hne (by decide) (by decide) (by decide))]
    exact (State.rd_wr_same ..).trans (Nat.mod_eq_of_lt (bits_lt ..))
  · refine State.keepsRegs.trans (l := bindFields n) (State.keepsRegs.trans (l := bindFields n) (State.keepsRegs.trans (l := bindFields n)
      (State.keepsRegs.trans (l := bindFields n) (s.keepsRegs_wr _ ?_) (State.keepsRegs_wr _ _ ?_) (List.Subset.refl _)) (State.keepsRegs_wr _ _ ?_) (List.Subset.refl _))
      (State.keepsRegs_wr _ _ ?_) (List.Subset.refl _)) (State.keepsRegs_wr _ _ ?_) (List.Subset.refl _) <;> simp [bindFields]

/-- An unbind of a queue pair without commands. -/
theorem State.nqBind_unbinds {s : State} {n v : Nat} (hbind : v.testBit 28 = false) (hbound : s.rd (R.WLD_NQ_BIND_BOUND.ix n) = 1) (hidle : s.qpBusy .nw n = false) :
    (s.nqBind n v).rd (R.WLD_NQ_BIND_BOUND.ix n) = 0 ∧ (s.nqBind n v).qp .nw n = {} := by
  let s1 := (s.wr (R.WLD_NQ_BIND_RESULT.ix n) 0).setQp .nw n { s.qp .nw n with deleting := true, unbind := true }
  have hqp : s1.qp .nw n = { s.qp .nw n with deleting := true, unbind := true } := State.qp_setQp_same ..
  have ht : s.nqBind n v = s1.disableQp .nw n := by
    unfold State.nqBind
    rw [if_neg (by simp [hbind]), if_pos (s.flag_of_rd_one hbound)]
    show s1.finishDelete .nw n = _
    unfold State.finishDelete
    exact if_pos (by rw [hqp]; simp [show s1.qpBusy .nw n = false from hidle])
  let s2 := s1.setQp .nw n {}
  let s3 := s2.wr (qzErr .nw n).1 (bitClear (s2.rd (qzErr .nw n).1) (qzErr .nw n).2)
  let s4 := if hasQz .nw n then (s3.wr (R.QZ_STATUS_READY.qz .nw n) 0).wr (R.QZ_CTRL_ENABLE.qz .nw n) 0 else s3
  have ht' : s1.disableQp .nw n = s4.nqRelease n := by
    unfold State.disableQp
    dsimp only
    exact if_pos (by rw [hqp]; rfl)
  have hqps : s4.qp .nw n = {} := by
    have h : s4.qps = s2.qps := by
      unfold s4
      split <;> rfl
    exact (congrArg (fun l => tblGet ({} : Qp) l (qpId .nw n)) h :).trans (State.qp_setQp_same ..)
  rw [ht, ht']
  exact ⟨State.rd_wr_same .., hqps⟩

/-- What a service returns. -/
theorem State.svcReturn_shown (s : State) (p status : Nat) (g2 g3 : Option Word64) : let t := s.svcReturn p status g2 g3
    t.gr p 1 = BitVec.ofNat 64 status ∧ (∀ v, g2 = some v → t.gr p 2 = v) ∧ (∀ v, g3 = some v → t.gr p 3 = v) ∧
      (∀ g : Reg, (g = 0 ∨ 5 ≤ g) → t.gr p g = s.gr p g) ∧ t.regs = s.regs ∧ t.mem = s.mem := by
  let u := (((s.freeNat 8).2.freeNat 8).2.freeNat 8).2
  let v2 := g2.getD (BitVec.ofNat 64 (s.freeNat 8).1)
  let v3 := g3.getD (BitVec.ofNat 64 ((s.freeNat 8).2.freeNat 8).1)
  let v4 := BitVec.ofNat 64 (((s.freeNat 8).2.freeNat 8).2.freeNat 8).1
  intro t
  have ht : t = (((u.setGr p 1 (BitVec.ofNat 64 status)).setGr p 2 v2).setGr p 3 v3).setGr p 4 v4 := rfl
  rw [ht]
  refine ⟨?_, fun v hv => ?_, fun v hv => ?_, fun g hg => ?_, ?_, ?_⟩
  · simp [State.gr_setGr]
  · simp [State.gr_setGr, v2, hv]
  · simp [State.gr_setGr, v3, hv]
  · have hne : g ≠ 4 ∧ g ≠ 3 ∧ g ≠ 2 ∧ g ≠ 1 := by
      revert g
      decide
    simp only [State.gr_setGr, hne, false_and, if_false]
    rfl
  · simp only [State.setGr_regs]
    rfl
  · simp only [State.setGr_mem]
    rfl

/-- A service that is asked for by its number. -/
theorem State.service_of_serving {s : State} {p imm : Nat} (h : s.serving216 p imm = true) (f : State → State) : s.service p imm f = .next (f s) := if_pos h

/-- A number that Table 9-4 does not list is no service's. -/
theorem State.service_unknown {s : State} {p imm : Nat} (himm : imm ≤ 2) (h : s.servingUnknown p = true) (f : State → State) :
    s.service p imm f = .next (s.svcReturn p 1 none none) := by
  have hother : s.serving216 p imm = false := by
    have hbig : 2 < (s.core p).mcause.toNat / 65536 := by
      simp only [State.servingUnknown, Bool.and_eq_true, decide_eq_true_eq] at h
      exact h.2
    have hne : (s.core p).mcause ≠ causeWord 9 imm := by
      intro hc
      rw [hc, causeWord, BitVec.toNat_ofNat] at hbig
      omega
    simp [State.serving216, hne]
  unfold State.service
  rw [if_neg (by simp [hother]), if_pos h]

theorem getD_mod_mem {l : List Nat} (h : l ≠ []) (x d : Nat) : l.getD (x % l.length) d ∈ l := by
  rw [List.getD_eq_getElem _ _ (Nat.mod_lt x (List.length_pos_of_ne_nil h))]
  exact List.getElem_mem _

/-- Settles O20. -/
theorem normalWorldServices : Obligations.NormalWorldServices := by
  unfold Obligations.NormalWorldServices
  refine ⟨fun s who n v hn hpass => ?_, fun s pair => ?_⟩
  · have hexec : s.gated who (0x90400 + 4 * n) v.toNat (fun s => if n < 64 then s.nqBind n v.toNat else s) = s.nqBind n v.toNat :=
      (State.gated_of_passes hpass v.toNat _).trans (if_pos hn)
    refine ⟨fun hbind hbound hpool hused howner hweight => ?_, fun hbind hbound hidle => ?_⟩
    · have hcheck : s.bindCheck n v.toNat = 0 := by
        unfold State.bindCheck
        dsimp only
        rw [if_neg (by simp [s.flag_eq_false hbound]), if_neg (by simp [hused]; omega), if_neg (by simp [Option.isSome_iff_ne_none.mp howner]), if_neg hweight]
      exact ⟨_, congrArg Host.Outcome.next hexec, State.nqBind_binds hbind hcheck⟩
    · obtain ⟨hb, hqp⟩ := State.nqBind_unbinds hbind hbound hidle
      exact ⟨_, congrArg Host.Outcome.next hexec, hb, hqp, State.nqBind_keepsMem rfl⟩
  · intro p
    refine ⟨fun hserve => ?_, fun hserve => ?_, fun hserve => ?_, fun hunknown i hi => ?_⟩
    · obtain ⟨hg1, hg2, hg3, hrest, hregs, hmem⟩ := s.svcReturn_shown p 0 (some Config.firmwareRelease) (some 2)
      exact ⟨_, (State.service_of_serving hserve _ : execMonitorVersion pair s = _), hg1, hg2 _ rfl, hg3 _ rfl, hrest, hregs, hmem⟩
    · intro owner count h1 h16 hw1 hw255 howner hadmits hruns hpool
      let runs := s.freeRuns count
      let n := runs.getD ((s.freeNat 4).1 % runs.length) 0
      let s1 := (s.freeNat 4).2.bindRun owner (s.gr p 3).toNat n count
      have hrun : s.svcRequest p = s1.svcReturn p 0 (some (BitVec.ofNat 64 n)) (some (BitVec.ofNat 64 count)) := by
        unfold State.svcRequest
        dsimp only
        rw [if_neg (by omega), if_neg (not_or.mpr ⟨Nat.not_le.mpr howner, by rw [hadmits]; decide⟩),
          if_neg (not_or.mpr ⟨by rw [List.isEmpty_iff]; exact hruns, Nat.not_lt.mpr hpool⟩)]
      obtain ⟨hg1, hg2, hg3, -, -, hmem⟩ := s1.svcReturn_shown p 0 (some (BitVec.ofNat 64 n)) (some (BitVec.ofNat 64 count))
      exact ⟨_, n, (State.service_of_serving hserve _ : execNqRequest pair s = _).trans (congrArg _ hrun), getD_mod_mem hruns _ _, hg1, hg2 _ rfl, hg3 _ rfl,
        hmem.trans (State.bindRun_keepsMem rfl)⟩
    · intro n hn hbound hcalm
      let s1 := (s.nqBind n 0).svcReturn p 0 none none
      have hcalm1 : s1.calm :=
        ⟨(congrArg Dsp.inflight (State.svcReturn_keepsDsp (State.nqBind_keepsDsp rfl) : s1.dsp = s.dsp)).trans hcalm.1,
          (congrArg Tmp.due (State.svcReturn_keepsTmp (State.nqBind_keepsTmp rfl) : s1.tmp = s.tmp)).trans hcalm.2⟩
      have hrun : s.svcRelease p = s1 := by
        unfold State.svcRelease
        dsimp only
        rw [if_neg (not_or.mpr ⟨Nat.not_le.mpr hn, by rw [s.flag_of_rd_one hbound]; decide⟩)]
        exact State.pump_of_calm hcalm1
      obtain ⟨hb, -⟩ := State.nqBind_unbinds (v := 0) (by decide) hbound (by simp [State.qpBusy, hcalm.1])
      obtain ⟨hg1, -, -, -, hregs, hmem⟩ := (s.nqBind n 0).svcReturn_shown p 0 none none
      exact ⟨_, (State.service_of_serving hserve _ : execNqRelease pair s = _).trans (congrArg _ hrun), hg1, (State.rd_of_regs hregs _).trans hb, hmem.trans (State.nqBind_keepsMem rfl)⟩
    · obtain ⟨hg1, -, -, hrest, hregs, hmem⟩ := s.svcReturn_shown p 1 none none
      refine ⟨s.svcReturn p 1 none none, ?_, hg1, hrest, hregs, hmem⟩
      rcases hi with rfl | rfl | rfl
      · exact (State.service_unknown (imm := 0) (by decide) hunknown _ : execMonitorVersion pair s = _)
      · exact (State.service_unknown (imm := 1) (by decide) hunknown _ : execNqRequest pair s = _)
      · exact (State.service_unknown (imm := 2) (by decide) hunknown _ : execNqRelease pair s = _)

end Sys2Proof.Machine
end

section
/-! Life-cycle requests, transitions and repairs (R433 to R437). -/

namespace Sys2Proof.Machine

/-- The words of the token. -/
def tokenFields : List Fld := (List.range 4).map R.LC_TOKEN_TOKEN.ix

theorem State.clearToken_shown (s : State) : (∀ k < 4, s.clearToken.rd (R.LC_TOKEN_TOKEN.ix k) = 0) ∧
    ∀ f : Fld, f.key ∉ tokenFields.map Fld.key → s.clearToken.rd f = s.rd f := by
  unfold State.clearToken
  refine ⟨fun k hk => ?_, fun f hf => ?_⟩
  · exact s.rd_foldl_wr_mem (g := fun w => R.LC_TOKEN_TOKEN.ix w) (w := 32) (r := 0) (v := 0) (fun _ => ⟨rfl, rfl⟩) (List.mem_range.mpr hk)
  · refine s.rd_foldl_wr _ fun k hk h => hf ?_
    rw [h]
    exact List.mem_map_of_mem (List.mem_map_of_mem hk)

theorem State.foldl_wr_unrecorded (s : State) (g : Nat → Fld) (v : Nat) (l : List Nat) : (l.foldl (fun s i => s.wr (g i) v) s).unrecorded = s.unrecorded := by
  induction l generalizing s with
  | nil => rfl
  | cons i t ih => exact ih _

/-- What a token that does not match leaves. -/
def State.tokenFail (s : State) (arg : Nat) : State :=
  ((s.satAdd R.LC_STATUS_FAILS 1).setEvt R.LC_EVT_TOKEN_FAIL).decideRecord 4 36 2 arg

theorem State.tokenFail_unrecorded (s : State) (arg : Nat) : (s.tokenFail arg).unrecorded = s.unrecorded := State.decideRecord_unrecorded ..

theorem State.rd_tokenFail (s : State) (arg : Nat) {f : Fld} (h : f.key ∉ recordFields.map Fld.key ∧ f.key ≠ R.LC_EVT_TOKEN_FAIL.key ∧
    f.key ≠ R.LC_EVT_TOKEN_FAIL.seq.key ∧ f.key ≠ R.LC_STATUS_FAILS.key) : (s.tokenFail arg).rd f = s.rd f := by
  unfold State.tokenFail
  rw [State.rd_decideRecord _ _ _ _ _ h.1, State.rd_setEvt_other _ _ h.2.1 h.2.2.1]
  exact State.rd_wr_other _ _ h.2.2.2

/-- A request that is refused. -/
theorem State.lcRefuse_shown (s : State) (tap : Bool) (target : Nat) {r : Nat} (hr : r < 8) : let t := s.lcRefuse tap target r
    t.rd R.LC_STATUS_RESULT = r ∧ t.rd R.LC_EVT_REFUSED = 1 ∧ t.unrecorded = s.unrecorded ∧ ∀ k < 4, t.rd (R.LC_TOKEN_TOKEN.ix k) = 0 := by
  obtain ⟨hclear, hother⟩ := ((s.wr R.LC_STATUS_RESULT r).setEvt R.LC_EVT_REFUSED).clearToken_shown
  have hres : ((s.wr R.LC_STATUS_RESULT r).setEvt R.LC_EVT_REFUSED).clearToken.rd R.LC_STATUS_RESULT = r := (hother _ (by decide)).trans
    ((State.rd_setEvt_other _ _ (by decide) (by decide)).trans ((State.rd_wr_same ..).trans (Nat.mod_eq_of_lt hr)))
  have hsame : ((s.wr R.LC_STATUS_RESULT r).setEvt R.LC_EVT_REFUSED).clearToken.unrecorded = s.unrecorded :=
    State.foldl_wr_unrecorded ((s.wr R.LC_STATUS_RESULT r).setEvt R.LC_EVT_REFUSED) R.LC_TOKEN_TOKEN.ix 0 (List.range 4)
  have hevt : ((s.wr R.LC_STATUS_RESULT r).setEvt R.LC_EVT_REFUSED).clearToken.rd R.LC_EVT_REFUSED = 1 :=
    (hother _ (by decide)).trans (State.rd_setEvt_same _ rfl (by decide))
  have hrefuse : s.lcRefuse tap target r = if r = 2 then
      ((s.wr R.LC_STATUS_RESULT r).setEvt R.LC_EVT_REFUSED).clearToken.tokenFail (r + tap.toNat * 2 ^ 7 + target * 2 ^ 8)
    else ((s.wr R.LC_STATUS_RESULT r).setEvt R.LC_EVT_REFUSED).clearToken := rfl
  intro t
  rw [show t = _ from hrefuse]
  generalize ((s.wr R.LC_STATUS_RESULT r).setEvt R.LC_EVT_REFUSED).clearToken = u at hclear hres hsame hevt
  split
  · have htok : ∀ k < 4, (R.LC_TOKEN_TOKEN.ix k).key ∉ recordFields.map Fld.key ∧ (R.LC_TOKEN_TOKEN.ix k).key ≠ R.LC_EVT_TOKEN_FAIL.key ∧
        (R.LC_TOKEN_TOKEN.ix k).key ≠ R.LC_EVT_TOKEN_FAIL.seq.key ∧ (R.LC_TOKEN_TOKEN.ix k).key ≠ R.LC_STATUS_FAILS.key := by decide
    exact ⟨(u.rd_tokenFail _ (by decide)).trans hres, (u.rd_tokenFail _ (by decide)).trans hevt, (u.tokenFail_unrecorded _).trans hsame,
      fun k hk => (u.rd_tokenFail _ (htok k hk)).trans (hclear k hk)⟩
  · exact ⟨hres, hevt, hsame, hclear⟩

/-- What an accepted request begins with, whatever its target. -/
theorem State.resumeAll_shown (s : State) : (([0, 1, 2, 3].foldl State.resumeHalted s).regs = s.regs) ∧ ([0, 1, 2, 3].foldl State.resumeHalted s).lc = s.lc ∧
    ([0, 1, 2, 3].foldl State.resumeHalted s).mem = s.mem ∧ ([0, 1, 2, 3].foldl State.resumeHalted s).tap = s.tap ∧
    ([0, 1, 2, 3].foldl State.resumeHalted s).tmp = s.tmp := by
  have hone (s : State) (p : Nat) : (s.resumeHalted p).regs = s.regs ∧ (s.resumeHalted p).lc = s.lc ∧ (s.resumeHalted p).mem = s.mem ∧ (s.resumeHalted p).tap = s.tap ∧
      (s.resumeHalted p).tmp = s.tmp := by
    unfold State.resumeHalted
    split <;> exact ⟨rfl, rfl, rfl, rfl, rfl⟩
  simp only [List.foldl_cons, List.foldl_nil, hone, and_self]

/-- The part in transition. -/
def State.inTransition (s : State) (tap : Bool) (target : Nat) : State :=
  let s := [0, 1, 2, 3].foldl State.resumeHalted (s.wr R.LC_STATE_TRANSITIONED 1)
  { s with lc := { s.lc with busy := some { target := target, tap := tap } }, tap := { s.tap with testMode := false } }

theorem State.inTransition_shown (s : State) (tap : Bool) (target : Nat) : let t := s.inTransition tap target
    t.lc = { s.lc with busy := some { target := target, tap := tap } } ∧ t.rd R.LC_STATE_TRANSITIONED = 1 ∧ t.mem = s.mem ∧ t.tap = { s.tap with testMode := false } ∧
      t.tmp = s.tmp := by
  obtain ⟨hregs, hlc, hmem, htap, htmp⟩ := (s.wr R.LC_STATE_TRANSITIONED 1).resumeAll_shown
  have hrd : ([0, 1, 2, 3].foldl State.resumeHalted (s.wr R.LC_STATE_TRANSITIONED 1)).rd R.LC_STATE_TRANSITIONED = 1 :=
    (State.rd_of_regs hregs _).trans (State.rd_wr_same ..)
  unfold State.inTransition
  generalize [0, 1, 2, 3].foldl State.resumeHalted (s.wr R.LC_STATE_TRANSITIONED 1) = u at hlc hmem htap htmp hrd
  exact ⟨congrArg (fun l : Lc => { l with busy := some { target := target, tap := tap } }) hlc, hrd, hmem, congrArg (fun x : Tap => { x with testMode := false }) htap, htmp⟩

/-- A request, accepted or refused. -/
theorem State.lcRequest_refused {s : State} {tap : Bool} {target : Nat} {token : List Byte} (hr : s.lcCheck tap target token ≠ 0) :
    s.lcRequest tap target token = (s.wr R.LC_STATUS_PATH tap.toNat).lcRefuse tap target (s.lcCheck tap target token) := if_neg hr

theorem State.lcRequest_accepted {s : State} {tap : Bool} {target : Nat} {token : List Byte} (hr : s.lcCheck tap target token = 0) :
    s.lcRequest tap target token = (s.wr R.LC_STATUS_PATH tap.toNat).lcStart tap target := if_pos hr

theorem State.lcStart_plain (s : State) (tap : Bool) {target : Nat} (h18 : target ≠ 18) (h19 : target ≠ 19) : s.lcStart tap target = s.inTransition tap target := by
  unfold State.lcStart
  dsimp only
  rw [if_neg h18, if_neg h19]
  rfl

theorem State.lcStart_rma (s : State) (tap : Bool) : (s.lcStart tap 18).tmp.bbk = [] ∧ (s.lcStart tap 18).lc.dsec = BitVec.allOnes 256 := by
  unfold State.lcStart
  exact ⟨rfl, rfl⟩

theorem State.lcStart_scrap {s : State} (tap : Bool) (hnone : s.tmp.inForce = none) : (s.lcStart tap 19).tmp.bbk = [] ∧ (s.lcStart tap 19).tmp.killing = true := by
  have hforce : (s.inTransition tap 19).tmp.inForce = none := (congrArg Tmp.inForce (s.inTransition_shown tap 19).2.2.2.2).trans hnone
  obtain ⟨v, hv⟩ := State.execCode_responds (s.inTransition tap 19) (c := 5) hforce 0
  have hstart : s.lcStart tap 19 = (s.inTransition tap 19).execCode 0 5 := by
    unfold State.lcStart
    dsimp only
    rw [if_neg (by decide), if_pos rfl]
    rfl
  obtain ⟨hbbk, hkill⟩ := v.respondAll_erases (c := 5) (by decide) (by decide)
  rw [hstart, hv]
  exact ⟨hbbk, hkill rfl⟩

/-- A request of the register names the target that it holds. -/
theorem State.lcTarget_eq (s : State) (v : Nat) : s.lcTarget v = (s.wr R.LC_TARGET_TARGET (v % 32)).lcRequest false (v % 32) (s.wr R.LC_TARGET_TARGET (v % 32)).lcToken := by
  have htoken : (s.wr R.LC_TARGET_TARGET (v % 32)).lcToken = s.lcToken := by
    unfold State.lcToken
    refine List.flatMap_congr fun w hw => ?_
    have hne : ∀ w ∈ List.range 4, (R.LC_TOKEN_TOKEN.ix w).key ≠ R.LC_TARGET_TARGET.key := by decide
    rw [State.rd_wr_other _ _ (hne w hw)]
  rw [htoken]
  unfold State.lcTarget
  rw [show bits v 0 5 = v % 32 by simp [bits]]

/-- A request over the test access port. -/
theorem State.lcReq_exec {s : State} (dr : BitVec 136) (htrst : s.pins.trstN = true) :
    exec (.lcReq dr) s = .next ((s.tapSelect 0x10).lcRequest true (dr.toNat % 256) (leBytes 16 (dr.toNat / 256))) := by
  have htarget : bits dr.toNat 0 8 = dr.toNat % 256 := by simp [bits]
  have hexec : exec (.lcReq dr) s = .next ((s.tapSelect 0x10).lcRequest true (bits dr.toNat 0 8) (leBytes 16 (dr.toNat / 256))) := if_pos htrst
  rw [hexec, htarget]

/-- A refused request changes neither the part's state nor the port's. -/
theorem State.lcRequest_refuses {s : State} {tap : Bool} {target : Nat} {token : List Byte} (hr : s.lcCheck tap target token ≠ 0) (hlt : s.lcCheck tap target token < 8) :
    let t := s.lcRequest tap target token
    t.rd R.LC_STATUS_RESULT = s.lcCheck tap target token ∧ t.rd R.LC_EVT_REFUSED = 1 ∧ t.lc = s.lc ∧ t.tap = s.tap ∧ t.mem = s.mem ∧
      ∀ k < 4, t.rd (R.LC_TOKEN_TOKEN.ix k) = 0 := by
  obtain ⟨hres, hevt, hsame, htok⟩ := (s.wr R.LC_STATUS_PATH tap.toNat).lcRefuse_shown tap target hlt
  intro t
  rw [show t = _ from State.lcRequest_refused hr]
  exact ⟨hres, hevt, (congrArg State.lc hsame :), (congrArg State.tap hsame :), (congrArg State.mem hsame :), htok⟩

/-- An accepted request of a target without an effect of its own. -/
theorem State.lcRequest_starts {s : State} {tap : Bool} {target : Nat} {token : List Byte} (hr : s.lcCheck tap target token = 0) (h18 : target ≠ 18) (h19 : target ≠ 19) :
    let t := s.lcRequest tap target token
    t.lc = { s.lc with busy := some { target := target, tap := tap } } ∧ t.rd R.LC_STATE_TRANSITIONED = 1 ∧ t.mem = s.mem ∧ t.tap = { s.tap with testMode := false } := by
  obtain ⟨hlc, htrans, hmem, htap, -⟩ := (s.wr R.LC_STATUS_PATH tap.toNat).inTransition_shown tap target
  intro t
  rw [show t = _ from (State.lcRequest_accepted hr).trans (State.lcStart_plain _ _ h18 h19)]
  exact ⟨hlc, htrans, hmem, htap⟩

/-- The end of a transition. -/
theorem State.lcEnd_shown (s : State) (target : Nat) (fail : Option (Nat × BitVec 64)) : let t := s.lcEnd target fail
    t.lc.busy = none ∧ (fail = none → t.rd R.LC_STATUS_RESULT = 0 ∧ t.rd R.LC_EVT_DONE = 1) ∧ (fail ≠ none → t.rd R.LC_STATUS_RESULT = 6) ∧ t.mem = s.mem ∧
      t.boot = s.boot := by
  have hbusy : (programmed s.lc target fail).busy = none := by
    unfold programmed
    split <;> rfl
  let s1 : State := { s with lc := programmed s.lc target fail }
  have hclear : ({ s1.clearToken with regs := s.regs } : State) = { s1 with regs := s.regs } := by
    have hfold (l : List Nat) (u : State) : ({ l.foldl (fun s w => s.wr (R.LC_TOKEN_TOKEN.ix w) 0) u with regs := s.regs } : State) = { u with regs := s.regs } := by
      induction l generalizing u with
      | nil => rfl
      | cons i t ih => exact ih _
    exact hfold _ _
  have hlc : s1.clearToken.lc = programmed s.lc target fail := (congrArg State.lc hclear :)
  have hmem : s1.clearToken.mem = s.mem := (congrArg State.mem hclear :)
  have hboot : s1.clearToken.boot = s.boot := (congrArg State.boot hclear :)
  unfold State.lcEnd
  dsimp only
  cases fail with
  | none =>
    refine ⟨(congrArg Lc.busy hlc).trans hbusy, fun _ => ⟨?_, State.rd_setEvt_same _ rfl (by decide)⟩, fun h => absurd rfl h, hmem, hboot⟩
    rw [State.rd_setEvt_other _ _ (by decide) (by decide)]
    exact State.rd_wr_same ..
  | some f => exact ⟨(congrArg Lc.busy hlc).trans hbusy, nofun, fun _ => State.rd_wr_same .., hmem, hboot⟩

theorem State.releaseHeld_of_none {s : State} (hheld : s.boot.held = false) (hwarm : s.boot.heldWarm = false) : s.releaseHeld = s := by
  simp [State.releaseHeld, hheld, hwarm]

/-- A repair that may be carried out. -/
theorem State.lcRepair_exec {s : State} {w : Nat} (failed : Bool) (hbusy : s.lc.busy = none) (hreserve : s.reserveOk = true)
    (hready : s.rd R.GLB_STATUS_READY = 1 ∨ s.recovery = true) (hw : w ≠ 0) (hhigh : highestWord s.lc.words 18 = w) (hset : wordSet (tblGet {} s.lc.words w) = true)
    (hshort : (copyShort (tblGet {} s.lc.words w).c0 || copyShort (tblGet {} s.lc.words w).c1 || copyShort (tblGet {} s.lc.words w).c2) = true) :
    exec (.lcRepair w failed) s = if failed = true then
        .next (State.setEvt { (s.freeNat 8).2 with lc := { s.lc with words := tblPut {} s.lc.words w (halfRepaired (tblGet {} s.lc.words w) (BitVec.ofNat 64 (s.freeNat 8).1)) } }
          R.LC_EVT_REPAIR_FAIL)
      else .next (State.setEvt { s with lc := { s.lc with words := tblPut {} s.lc.words w (repaired (tblGet {} s.lc.words w)) } } R.LC_EVT_REPAIRED) := by
  have hup : (s.flag R.GLB_STATUS_READY || s.recovery) = true := by
    rcases hready with h | h
    · rw [s.flag_of_rd_one h, Bool.true_or]
    · rw [h, Bool.or_true]
  have hw' : (w != 0) = true := bne_iff_ne.mpr hw
  refine (if_pos ?_ : execLcRepair w failed s = _)
  rw [hbusy, hreserve, hup, hw', hhigh, hset, hshort]
  simp

/-- Settles O35. -/
theorem lifeCycleRows : Obligations.LifeCycleRows := by
  unfold Obligations.LifeCycleRows
  refine ⟨fun s => ⟨fun who complement v hpass => ?_, fun dr htrst => ?_⟩, fun s => ⟨fun q hbusy hheld hwarm => ?_, fun w hbusy hreserve hready hw hhigh hset hshort => ?_,
    fun hkilling hscrap => ?_⟩⟩
  · intro s0 r
    have hexec : exec (.lcTargetWrite who complement) s = .next (s0.lcRequest false (v % 32) s0.lcToken) :=
      congrArg Host.Outcome.next ((State.writeGuarded_of_passes hpass _).trans ((s.dropGuard 0x30004).lcTarget_eq v))
    refine ⟨fun hr hlt => ?_, fun hr h18 h19 => ?_, fun h18 => ?_, fun hr h19 hnone => ?_⟩
    · obtain ⟨hres, hevt, hlc, -, hmem, htok⟩ := State.lcRequest_refuses hr hlt
      exact ⟨_, hexec, hres, hevt, hlc, hmem, htok⟩
    · obtain ⟨hlc, htrans, hmem, -⟩ := State.lcRequest_starts hr h18 h19
      exact ⟨_, hexec, congrArg Lc.busy hlc, htrans, (congrArg Lc.words hlc :), hmem⟩
    · refine ⟨_, hexec, fun hr => ?_⟩
      rw [State.lcRequest_accepted hr, h18]
      exact State.lcStart_rma _ _
    · refine ⟨_, hexec, ?_⟩
      rw [State.lcRequest_accepted hr, h19]
      exact State.lcStart_scrap false hnone
  · intro target s0 r
    refine ⟨fun hr hlt => ?_, fun hr h18 h19 => ?_⟩
    · obtain ⟨hres, hevt, hlc, htap, hmem, -⟩ := State.lcRequest_refuses hr hlt
      exact ⟨_, State.lcReq_exec dr htrst, hres, hevt, congrArg Tap.ir htap, hlc, hmem⟩
    · obtain ⟨hlc, -, hmem, htap⟩ := State.lcRequest_starts hr h18 h19
      exact ⟨_, State.lcReq_exec dr htrst, congrArg Lc.busy hlc, congrArg Tap.ir htap, hmem⟩
  · have hexec (fail : Option (Nat × BitVec 64)) : exec (.lcTransitionDone fail) s = .next (s.lcEnd q.target fail) := by
      obtain ⟨-, -, -, -, hboot⟩ := s.lcEnd_shown q.target fail
      show execLcTransitionDone fail s = _
      unfold execLcTransitionDone
      rw [hbusy]
      exact congrArg _ (State.releaseHeld_of_none ((congrArg Boot.held hboot).trans hheld) ((congrArg Boot.heldWarm hboot).trans hwarm))
    refine ⟨?_, fun f => ?_⟩
    · obtain ⟨hdone, hok, -, hmem, -⟩ := s.lcEnd_shown q.target none
      exact ⟨_, hexec none, hdone, (hok rfl).1, (hok rfl).2, hmem⟩
    · obtain ⟨hdone, -, hfail, hmem, -⟩ := s.lcEnd_shown q.target (some f)
      exact ⟨_, hexec (some f), hdone, hfail nofun, hmem⟩
  · have hother (v : OtpWord) (k : Nat) (hk : k ≠ w) : tblGet {} (tblPut {} s.lc.words w v) k = tblGet {} s.lc.words k := tblGet_put_other _ _ _ _ hk
    refine ⟨⟨_, (State.lcRepair_exec true hbusy hreserve hready hw hhigh hset hshort).trans (if_pos rfl), State.rd_setEvt_same _ rfl (by decide), hother _, rfl⟩,
      ⟨_, (State.lcRepair_exec false hbusy hreserve hready hw hhigh hset hshort).trans (if_neg Bool.false_ne_true), State.rd_setEvt_same _ rfl (by decide),
        (tblGet_put_same {} s.lc.words w (repaired (tblGet {} s.lc.words w)) :), hother (repaired (tblGet {} s.lc.words w)), rfl⟩⟩
  · have hexec : s.tmp.killing = true ∧ (s.lc.busy.any fun r => r.target != 19) = false := by
      refine ⟨hkilling, ?_⟩
      cases h : s.lc.busy with
      | none => rfl
      | some r => simp [hscrap r h]
    refine ⟨_, (if_pos (by simp [hexec]) : execKillWordProgrammed s = _), ?_, State.rd_wr_same (s.wr _ 1) R.LC_STATE_NEXT 19, rfl, rfl, rfl,
      (s.keepsRegs_wr _ (by decide)).trans (State.keepsRegs_wr (s.wr R.LC_STATE_KILLED 1) (f := R.LC_STATE_NEXT) 19 (by decide)) (List.Subset.refl _)⟩
    exact (State.rd_wr_other (s.wr R.LC_STATE_KILLED 1) (g := R.LC_STATE_KILLED) (f := R.LC_STATE_NEXT) 19 (by decide)).trans (State.rd_wr_same s _ 1)

end Sys2Proof.Machine
end

section
/-! The copies of the image and the known-answer tests (R73, R78 to R81, R89). -/

namespace Sys2Proof.Machine

theorem State.rd_of_not_flag {s : State} {f : Fld} (h : s.flag f = false) : s.rd f = 0 := by simpa [State.flag] using h

theorem State.singleMode_shown {s : State} (h : s.rd R.BOOT_STATUS_XSPI_SINGLE = 0) : s.singleMode.rd R.BOOT_STATUS_XSPI_SINGLE = 1 := by
  unfold State.singleMode
  rw [s.flag_eq_false h, if_neg Bool.false_ne_true, State.rd_setEvt_other _ _ (by decide) (by decide)]
  exact State.rd_wr_same ..

theorem State.rd_singleMode (s : State) {f : Fld} (h : f.key ≠ R.BOOT_STATUS_XSPI_SINGLE.key ∧ f.key ≠ R.BOOT_EVT_SINGLE_FALLBACK.key ∧ f.key ≠ R.BOOT_EVT_SINGLE_FALLBACK.seq.key) :
    s.singleMode.rd f = s.rd f := by
  unfold State.singleMode
  split
  · rfl
  · rw [State.rd_setEvt_other _ _ h.2.1 h.2.2, State.rd_wr_other _ _ h.1]

/-- The mode that a copy is read in. -/
def State.inMode (s : State) (img : ImageRead) : State := if img.single then s.singleMode else s

theorem State.inMode_boot (s : State) (img : ImageRead) : (s.inMode img).boot = s.boot := by
  unfold State.inMode
  split
  · exact State.singleMode_keepsBoot rfl
  · rfl

theorem State.inMode_mem (s : State) (img : ImageRead) : (s.inMode img).mem = s.mem := by
  unfold State.inMode
  split
  · exact State.singleMode_keepsMem rfl
  · rfl

theorem State.copyRead_A {s : State} {img : ImageRead} (h : img.copyB = false) : s.copyRead img =
    (let u : State := { (s.inMode img).wr R.BOOT_STATUS_A_RESULT (s.copyResult img) with boot := { (s.inMode img).boot with headerBadA := headerBad img } }
     if s.copyResult img = 1 then u.useCopy img else u.copyBad false (s.copyResult img)) := by
  unfold State.copyRead
  rw [h]
  rfl

theorem State.copyRead_B {s : State} {img : ImageRead} (h : img.copyB = true) : s.copyRead img =
    (let u := (s.inMode img).wr R.BOOT_STATUS_B_RESULT (s.copyResult img)
     if s.copyResult img = 1 then u.useCopy img else (u.copyBad true (s.copyResult img)).bothBad (headerBad img && (s.inMode img).boot.headerBadA)) := by
  unfold State.copyRead
  rw [h]
  rfl

theorem State.copyRead_exec {s : State} {img : ImageRead} (hexp : s.expects img = true) (hext : s.tap.extest = true → img.readOk = false) :
    exec (.imageCopyReadDone img) s = .next (s.copyRead img) := by
  refine (if_pos ?_ : execImageCopyReadDone img s = _)
  rw [hexp]
  cases h : s.tap.extest with
  | false => rfl
  | true => rw [hext h]; rfl

theorem State.copyBad_boot (s : State) (b : Bool) (r : Nat) : (s.copyBad b r).boot.applied = s.boot.applied ∧ (s.copyBad b r).boot.headerBadA = s.boot.headerBadA := by
  unfold State.copyBad
  extract_lets s1 s2
  split
  · have h : (State.raiseAlarms { s2 with boot := { s2.boot with authRaised := true } } [18]).boot = { s2.boot with authRaised := true } := State.raiseAlarms_keepsBoot rfl
    rw [h]
    exact ⟨rfl, rfl⟩
  · exact ⟨rfl, rfl⟩

/-- A bad copy that is no authentication's failure. -/
theorem State.copyBad_plain (s : State) (b : Bool) {r : Nat} (h : r ≠ 4 ∧ r ≠ 5) :
    s.copyBad b r = (s.setEvt (if b then R.BOOT_EVT_COPY_B_BAD else R.BOOT_EVT_COPY_A_BAD)).clearSram := by
  unfold State.copyBad
  exact if_neg (fun hr => by omega)

theorem State.clearSram_byte (s : State) (a : Nat) : s.clearSram.byte a = if sramBase ≤ a ∧ a < sramBase + 0x800000 then 0 else s.byte a := by
  unfold State.byte
  by_cases ha : sramBase ≤ a ∧ a < sramBase + 0x800000
  · rw [if_pos ha, if_neg (by unfold sramBase at ha; omega)]
    exact tblGet_filter_drop 0 (fun k => !(decide (sramBase ≤ k) && decide (k < sramBase + 0x800000))) s.mem (by simp [ha])
  · rw [if_neg ha]
    split
    · rfl
    · exact tblGet_filter_keep 0 (fun k => !(decide (sramBase ≤ k) && decide (k < sramBase + 0x800000))) s.mem
        (by simpa only [Bool.not_eq_true', Bool.and_eq_false_iff, decide_eq_false_iff_not, not_and_or] using ha)

/-- A header that fails its CRC fails no authentication. -/
theorem State.copyResult_of_headerBad {s : State} {img : ImageRead} (h : headerBad img = true) : s.copyResult img ≠ 4 ∧ s.copyResult img ≠ 5 := by
  simp only [headerBad, Bool.and_eq_true, Bool.not_eq_true'] at h
  obtain ⟨⟨⟨hread, hsfdp⟩, -⟩, hcrc⟩ := h
  have hlayout (limit : Nat) : layoutOk limit img.bytes = false := by
    simp [layoutOk, hcrc]
  unfold State.copyResult
  dsimp only
  split
  · decide
  · rw [if_neg (by simp [hcrc]), if_pos (by simp [hlayout])]
    decide

/-- A good copy is applied. -/
theorem State.applyImage_applied (s : State) (b : List Byte) : (s.applyImage b).boot.applied = true := by
  unfold State.applyImage
  extract_lets s1 s2 s3 s4 s5 s6 s7 s8 s9 s10 s11 boot s12 s13
  clear_value s11
  have h12 : s12.boot.applied = true := rfl
  clear_value s12
  have h13 : s13.boot = s12.boot := rfl
  clear_value s13
  have h : s13.boot.applied = true := (congrArg Boot.applied h13).trans h12
  split
  · exact h
  · exact h

theorem State.useCopy_applied (s : State) (img : ImageRead) : (s.useCopy img).boot.applied = true := by
  unfold State.useCopy
  extract_lets s1 s2
  have h : s2.boot.applied = true := s1.applyImage_applied img.bytes
  clear_value s2
  split
  · exact h
  · exact (congrArg Boot.applied (State.assertPerst_keepsBoot (s := s2) (old := s2.boot) rfl)).trans h

theorem State.bothBad_applied (s : State) (again : Bool) : (s.bothBad again).boot.applied = s.boot.applied := by
  unfold State.bothBad
  split
  · exact congrArg Boot.applied (State.singleMode_keepsBoot (old := s.boot) rfl)
  · exact congrArg Boot.applied (State.enterRecovery_keepsBoot (old := s.boot) rfl)

theorem State.copyRead_applied (s : State) {img : ImageRead} (h : s.boot.applied = false) : (s.copyRead img).boot.applied = decide (s.copyResult img = 1) := by
  have hmode : (s.inMode img).boot.applied = false := (congrArg Boot.applied (s.inMode_boot img)).trans h
  cases hb : img.copyB with
  | false =>
    rw [State.copyRead_A hb]
    dsimp only
    split
    next hr =>
      rw [decide_eq_true hr]
      exact State.useCopy_applied _ img
    next hr =>
      rw [decide_eq_false hr]
      exact (State.copyBad_boot _ _ _).1.trans hmode
  | true =>
    rw [State.copyRead_B hb]
    dsimp only
    split
    next hr =>
      rw [decide_eq_true hr]
      exact State.useCopy_applied _ img
    next hr =>
      rw [decide_eq_false hr]
      exact ((State.bothBad_applied _ _).trans (State.copyBad_boot _ _ _).1).trans hmode

/-- Settles O34. -/
theorem imageAndTests : Obligations.ImageAndTests := by
  unfold Obligations.ImageAndTests
  refine fun s => ⟨fun img hexp hext => ?_, fun units pairs happlied hkat hunits hpairs => ?_⟩
  · have hexec := State.copyRead_exec hexp hext
    obtain ⟨hnot, hmode⟩ : s.boot.applied = false ∧ (img.single = true ∨ s.flag R.BOOT_STATUS_XSPI_SINGLE = false) := by
      simp only [State.expects, Bool.and_eq_true, Bool.not_eq_true', Bool.or_eq_true] at hexp
      obtain ⟨⟨⟨⟨⟨-, -⟩, hnot⟩, -⟩, hmode⟩, -⟩ := hexp
      exact ⟨hnot, hmode⟩
    refine ⟨fun hA h1 h4 h5 hlt => ?_, fun hB h1 hagain => ?_, fun hB h1 hagain => ?_, ⟨_, hexec, s.copyRead_applied hnot⟩⟩
    · let u : State := { (s.inMode img).wr R.BOOT_STATUS_A_RESULT (s.copyResult img) with boot := { (s.inMode img).boot with headerBadA := headerBad img } }
      have hread : s.copyRead img = (u.setEvt R.BOOT_EVT_COPY_A_BAD).clearSram :=
        (State.copyRead_A hA).trans ((if_neg h1).trans (u.copyBad_plain false ⟨h4, h5⟩))
      have happ := s.copyRead_applied (img := img) hnot
      rw [hread] at hexec happ
      refine ⟨_, hexec, happ.trans (decide_eq_false h1), ?_, ?_, fun a => ?_⟩
      · refine (State.rd_setEvt_other u 0 (by decide) (by decide)).trans ?_
        exact (State.rd_wr_same (s.inMode img) _ _).trans (Nat.mod_eq_of_lt hlt)
      · exact State.rd_setEvt_same u rfl (by decide)
      · rw [State.clearSram_byte]
        have hbyte : (u.setEvt R.BOOT_EVT_COPY_A_BAD).byte a = s.byte a := congrArg (fun m : Tbl Byte => if a < 0x40000 then Config.rom a else tblGet 0 m a) (s.inMode_mem img)
        rw [hbyte]
    · have hboot : (headerBad img && (s.inMode img).boot.headerBadA) = false := by rw [s.inMode_boot]; exact hagain
      have hread := (State.copyRead_B hB).trans (if_neg h1)
      rw [hboot] at hread
      obtain ⟨hrec, hstage, hcause, -⟩ := State.enterRecovery_shown (((s.inMode img).wr R.BOOT_STATUS_B_RESULT (s.copyResult img)).copyBad true (s.copyResult img))
        (cause := 1) (by decide)
      exact ⟨_, hexec.trans (congrArg _ hread), hstage, hcause, hrec⟩
    · have hboot : (headerBad img && (s.inMode img).boot.headerBadA) = true := by rw [s.inMode_boot]; exact hagain
      have hbad : headerBad img = true := (Bool.and_eq_true_iff.mp hagain).1
      have hread := (State.copyRead_B hB).trans (if_neg h1)
      rw [hboot, State.copyBad_plain _ _ (State.copyResult_of_headerBad hbad)] at hread
      have hsingle : img.single = false := by
        simp only [headerBad, Bool.and_eq_true, Bool.not_eq_true'] at hbad
        exact hbad.1.2
      have hin : s.inMode img = s := if_neg (by simp [hsingle])
      have hrd := State.rd_of_not_flag (hmode.resolve_left (by simp [hsingle]))
      rw [hin] at hread
      let u := ((((s.wr R.BOOT_STATUS_B_RESULT (s.copyResult img)).setEvt R.BOOT_EVT_COPY_B_BAD).clearSram.wr R.BOOT_STATUS_A_RESULT 0).wr R.BOOT_STATUS_B_RESULT 0)
      have hu : u.rd R.BOOT_STATUS_XSPI_SINGLE = 0 := by
        refine (State.rd_wr_other _ _ (by decide)).trans ((State.rd_wr_other _ _ (by decide)).trans ?_)
        refine Eq.trans (State.rd_setEvt_other (s.wr R.BOOT_STATUS_B_RESULT (s.copyResult img)) 0 (by decide) (by decide)) ?_
        exact (State.rd_wr_other _ _ (by decide)).trans hrd
      refine ⟨u.singleMode, hexec.trans (congrArg _ hread), State.singleMode_shown hu, (u.rd_singleMode (by decide)).trans ?_, (u.rd_singleMode (by decide)).trans (State.rd_wr_same ..)⟩
      exact (State.rd_wr_other _ _ (by decide)).trans (State.rd_wr_same ..)
  · have hexec : exec (.bootKatDone units pairs) s = .next (s.katDone units pairs) := by
      refine (if_pos ?_ : execBootKatDone units pairs s = _)
      rw [happlied, hkat, List.all_eq_true.mpr hunits, List.all_eq_true.mpr fun p hp => decide_eq_true (hpairs p hp)]
      rfl
    refine ⟨_, hexec, ?_, State.rd_wr_same ..⟩
    unfold State.katDone
    extract_lets s1 s2 s3 s4 s5 boot s6
    exact congrArg Boot.katDone (State.startPairs_keepsBoot (State.recapacity_keepsBoot (rfl : s6.boot = _)) : (s6.recapacity s6.cfg.floors).startPairs.boot = s6.boot)

end Sys2Proof.Machine
end

section
/-! Doorbells and the registers of a queue pair (R119, R142 to R151). -/

namespace Sys2Proof.Machine

theorem Fld.qz_key_ne {f g : Fld} (h : f.key ≠ g.key) (fn : Fn) (q : Nat) : (f.qz fn q).key ≠ (g.qz fn q).key := by
  simp only [Fld.key, Fld.qz, Fld.add] at h ⊢
  omega

theorem State.qp_setQp_other (s : State) {f g : Fn} {q k : Nat} (h : qpId g k ≠ qpId f q) (v : Qp) : (s.setQp f q v).qp g k = s.qp g k :=
  tblGet_put_other _ _ _ _ h

theorem State.qp_of_qps {s t : State} (h : t.qps = s.qps) (f : Fn) (q : Nat) : t.qp f q = s.qp f q := by
  unfold State.qp
  rw [h]

theorem bits_low12 (v : Nat) : bits v 0 12 = v % 4096 := by
  simp [bits]

theorem leNat_leBytes4 (v : Word32) : leNat (leBytes 4 v.toNat) = v.toNat := by
  have := v.isLt
  simp only [leBytes, leNat, BitVec.toNat_ofNat]
  omega

/-- An event of a queue pair's register. -/
theorem State.qzEvent_shown (s : State) (fn : Fn) : (s.qzEvent R.QZ_EVT_DB_DISABLED fn).rd (qzEvt R.QZ_EVT_DB_DISABLED fn) = 1 := by
  have hset : (s.setEvt (qzEvt R.QZ_EVT_DB_DISABLED fn)).rd (qzEvt R.QZ_EVT_DB_DISABLED fn) = 1 := by
    refine s.rd_setEvt_same (by cases fn <;> rfl) ?_
    cases fn <;> simp only [Fld.key, Fld.seq, qzEvt, Fld.add, R.QZ_EVT_DB_DISABLED] <;> omega
  unfold State.qzEvent
  dsimp only
  split
  · exact hset
  · exact (State.rd_of_regs (State.vector_keepsRegs rfl) _).trans hset

/-- A queue pair that is put into error. -/
theorem State.queueError_shown (s : State) (fn : Fn) (q : Nat) :
    ((s.queueError fn q).qp fn q).error = true ∧ ((s.queueError fn q).qp fn q).sqTail = (s.qp fn q).sqTail := by
  unfold State.queueError
  dsimp only
  by_cases herr : (s.qp fn q).error = true
  · rw [if_pos herr]
    exact ⟨herr, rfl⟩
  · rw [if_neg herr]
    have hqps (u : State) : ((u.setEvt (qzEvt R.QZ_EVT_QERR fn)).vector fn 0).qps = u.qps := State.vector_keepsQps (State.setEvt_keepsQps rfl)
    rw [State.qp_of_qps (hqps _)]
    have hqp : ∀ (f : Fld) (v : Nat) (u : State), (u.wr f v).qp fn q = u.qp fn q := fun _ _ _ => rfl
    rw [hqp, State.qp_setQp_same]
    exact ⟨rfl, rfl⟩

section
variable {s : State} {fn : Fn} {q : Nat}

theorem State.sqTail_moves {v : Nat} (hdrop : s.doorbellDrop fn q = none) (hon : (s.qp fn q).enabled = true) (hin : v % 4096 < 2 ^ (s.qp fn q).sqLog2) :
    s.sqTail fn q v = s.setQp fn q { s.qp fn q with sqTail := v % 4096 } := by
  unfold State.sqTail
  simp only [hdrop, bits_low12, hon, Bool.not_true, Bool.false_eq_true, if_false, Nat.not_le.mpr hin]

theorem State.sqTail_outside {v : Nat} (hdrop : s.doorbellDrop fn q = none) (hon : (s.qp fn q).enabled = true) (hin : 2 ^ (s.qp fn q).sqLog2 ≤ v % 4096) :
    s.sqTail fn q v = s.queueError fn q := by
  unfold State.sqTail
  simp only [hdrop, bits_low12, hon, Bool.not_true, Bool.false_eq_true, if_false, hin, if_true]

theorem State.sqTail_disabled (v : Nat) (hdrop : s.doorbellDrop fn q = none) (hoff : (s.qp fn q).enabled = false) :
    s.sqTail fn q v = s.qzEvent R.QZ_EVT_DB_DISABLED fn := by
  unfold State.sqTail
  simp only [hdrop, hoff, Bool.not_false, if_true]

theorem State.cqHead_moves {v : Nat} (hdrop : s.doorbellDrop fn q = none) (hon : (s.qp fn q).enabled = true) (hin : v % 4096 < 2 ^ (s.qp fn q).cqLog2)
    (hpast : (v % 4096 + 2 ^ (s.qp fn q).cqLog2 - (s.qp fn q).cqHead) % 2 ^ (s.qp fn q).cqLog2 ≤
      ((s.qp fn q).cqTail + 2 ^ (s.qp fn q).cqLog2 - (s.qp fn q).cqHead) % 2 ^ (s.qp fn q).cqLog2) :
    s.cqHead fn q v = s.setQp fn q { s.qp fn q with cqHead := v % 4096 } := by
  unfold State.cqHead
  simp only [hdrop, bits_low12, hon, Bool.not_true, Bool.false_eq_true, if_false, not_or.mpr ⟨Nat.not_le.mpr hin, Nat.not_lt.mpr hpast⟩]

/-- A doorbell that moves an index changes its queue pair alone. -/
theorem State.setQp_only (x : Qp) : (∀ g k, qpId g k ≠ qpId fn q → (s.setQp fn q x).qp g k = s.qp g k) ∧ { s.setQp fn q x with qps := s.qps } = s :=
  ⟨fun _ _ h => s.qp_setQp_other h x, rfl⟩

theorem execSqTail_of_passes {v : Word32} (hq : q < doorbells fn) (hpass : s.passes (fnRequester fn) (doorbellOff fn q true) = true) :
    exec (.sqTailDoorbell fn q v) s = .next (s.sqTail fn q v.toNat) :=
  (if_pos hq : execSqTailDoorbell fn q v s = _).trans (congrArg _ (State.gated_of_passes hpass _ _))

theorem execCqHead_of_passes {v : Word32} (hq : q < doorbells fn) (hpass : s.passes (fnRequester fn) (doorbellOff fn q false) = true) :
    exec (.cqHeadDoorbell fn q v) s = .next (s.cqHead fn q v.toNat) :=
  (if_pos hq : execCqHeadDoorbell fn q v s = _).trans (congrArg _ (State.gated_of_passes hpass _ _))

/-- A doorbell that arrives in L1 waits. -/
theorem execSqTail_inL1 {v : Word32} (hq : q < doorbells fn) (hfn : fn ≠ .nw) (hl1 : s.rd (R.PE_LINK_L1.port fn.port) = 1) (hreach : s.reaches (fnRequester fn) = true) :
    ∃ t, exec (.sqTailDoorbell fn q v) s = .next t ∧
      (t.port fn.port).l1Held = (s.port fn.port).l1Held ++ [busWrite (fnRequester fn) (regBase + doorbellOff fn q true) v.toNat] ∧ t.qps = s.qps ∧ t.regs = s.regs ∧ t.mem = s.mem := by
  let a := busWrite (fnRequester fn) (regBase + doorbellOff fn q true) v.toNat
  have hin : s.inL1 (fnRequester fn) = true := by
    cases fn with
    | nw => exact absurd rfl hfn
    | pf p => exact s.flag_of_rd_one hl1
    | vf p n => exact s.flag_of_rd_one hl1
  have hhold : s.holdL1 (fnRequester fn) a = s.setPort fn.port { s.port fn.port with l1Held := (s.port fn.port).l1Held ++ [a] } := by
    cases fn with
    | nw => exact absurd rfl hfn
    | pf p => rfl
    | vf p n => rfl
  have hexec : exec (.sqTailDoorbell fn q v) s = .next (s.holdL1 (fnRequester fn) a) := by
    refine (if_pos hq : execSqTailDoorbell fn q v s = _).trans (congrArg _ ?_)
    unfold State.ringDoorbell State.gated State.parked
    simp only [hreach, hin, Bool.not_true, Bool.false_eq_true, if_false, if_true]
    rfl
  rw [hhold] at hexec
  refine ⟨_, hexec, ?_⟩
  cases fn.port <;> exact ⟨rfl, rfl, rfl, rfl⟩

/-- The word at which a PF's doorbell stands is a doorbell, and nothing else. -/
theorem doorbellOff_pf (p : Port) {q : Nat} (hq : q < 4) : let off := doorbellOff (.pf p) q true
    off < 0x10000000 ∧ off % 4 = 0 ∧ guardedRegs.contains off = false ∧ guardedRegs.contains (off - 4) = false ∧ off < 0x200000 ∧ isBanked off = false ∧ isEvt off = false ∧
      qzAt off = none ∧ doorbellAt off = some (.pf p, q, true) := by
  have h : ∀ p : Bool, ∀ q : Fin 4, let off := doorbellOff (.pf (if p then .a else .b)) q true
      off < 0x10000000 ∧ off % 4 = 0 ∧ guardedRegs.contains off = false ∧ guardedRegs.contains (off - 4) = false ∧ off < 0x200000 ∧ isBanked off = false ∧ isEvt off = false ∧
        qzAt off = none ∧ doorbellAt off = some (.pf (if p then .a else .b), q.val, true) := by decide +kernel
  cases p
  · exact h true ⟨q, hq⟩
  · exact h false ⟨q, hq⟩

/-- A doorbell that waited in L1 reaches its queue pair. -/
theorem State.release_doorbell {p : Port} (v : Word32) (act : Nat → State → State) (hq : q < 4) (hpass : s.passes (fnRequester (.pf p)) (doorbellOff (.pf p) q true) = true) :
    s.releaseAccess (busWrite (fnRequester (.pf p)) (regBase + doorbellOff (.pf p) q true) v.toNat) act = s.sqTail (.pf p) q v.toNat := by
  obtain ⟨hlow, h4, hg, hg4, h2, hb, hev, hqz, hbell⟩ := doorbellOff_pf p hq
  have hwrite : s.releaseAccess (busWrite (fnRequester (.pf p)) (regBase + doorbellOff (.pf p) q true) v.toNat) act =
      s.writeAt act (.host p 0) (regBase + doorbellOff (.pf p) q true) 4 (leNat (leBytes 4 v.toNat)) := by
    unfold State.releaseAccess State.releaseBus busWrite busBytes fnRequester
    dsimp only
    rw [if_neg (by simp), if_neg (by unfold bar4Base regBase; omega)]
    rfl
  rw [hwrite, leNat_leBytes4, s.writeAt_whole act _ hlow h4, show State.gated s (.host p 0) _ _ _ = _ from State.gated_of_passes hpass _ _,
    s.regEffect_plain _ _ _ ⟨hg, hg4, h2, hb, hev⟩]
  unfold State.valueWrite
  rw [hqz, hbell]
  rfl

end

theorem State.flag_of_regs {s t : State} (hregs : t.regs = s.regs) (f : Fld) : t.flag f = s.flag f := by
  unfold State.flag
  rw [State.rd_of_regs hregs]

theorem State.refusingEntry_of_regs {s t : State} (hregs : t.regs = s.regs) (cls : Nat) (kind : AccKind) (normal : Bool) (a n : Nat) :
    t.refusingEntry cls kind normal a n = s.refusingEntry cls kind normal a n := by
  have hrd (f : Fld) : t.rd f = s.rd f := State.rd_of_regs hregs f
  induction n with
  | zero => rfl
  | succ n ih =>
    have hbase : t.entBase n = s.entBase n := by unfold State.entBase; rw [hrd, hrd]
    have hlimit : t.entLimit n = s.entLimit n := by unfold State.entLimit; rw [hrd, hrd]
    have hcovers : t.entCovers n a = s.entCovers n a := by unfold State.entCovers; rw [State.flag_of_regs hregs, hbase, hlimit]
    have hnibble : t.entNibble n cls = s.entNibble n cls := by unfold State.entNibble; rw [hrd, hrd]
    rw [State.refusingEntry, State.refusingEntry, ih, hcovers, hnibble]

section
variable {s t : State} (hregs : t.regs = s.regs)
include hregs

theorem State.areaOf_of_regs (a : Nat) : t.areaOf a = s.areaOf a := by
  have hrd (f : Fld) : t.rd f = s.rd f := State.rd_of_regs hregs f
  unfold State.areaOf
  rw [hrd, hrd]

theorem State.baseline_of_regs {cls : Nat} (hcls : classCoreS cls = false) (a : Nat) : t.baseline cls a = s.baseline cls a := by
  have htest : t.testDdr = s.testDdr := by
    unfold State.testDdr State.lcState
    rw [State.rd_of_regs hregs]
  unfold State.baseline
  rw [State.areaOf_of_regs hregs, htest]
  simp only [hcls, Bool.false_eq_true, if_false]

theorem State.codeRefuses_of_regs (cls : Nat) (kind : AccKind) (w : World) (a : Nat) : t.codeRefuses cls kind w a = s.codeRefuses cls kind w a := by
  have hrd (f : Fld) : t.rd f = s.rd f := State.rd_of_regs hregs f
  unfold State.codeRefuses
  rw [hrd, hrd, hrd, hrd, State.flag_of_regs hregs, State.flag_of_regs hregs]

/-- What the table answers to others than a secure core depends on registers only. -/
theorem State.beatRefusal_of_regs {cls : Nat} (hcls : classCoreS cls = false) (kind : AccKind) (w : World) (a : Nat) : t.beatRefusal cls kind w a = s.beatRefusal cls kind w a := by
  simp only [State.beatRefusal, State.areaOf_of_regs hregs, State.baseline_of_regs hregs hcls, State.codeRefuses_of_regs hregs, State.flag_of_regs hregs,
    State.refusingEntry_of_regs hregs]

end

/-- The accesses that wait in L1 stop no write of the port's PF. -/
theorem State.passes_dropL1 (s : State) (p : Port) (held : List HeldAccess) (off : Nat) :
    (s.setPort p { s.port p with l1Held := held }).passes (.host p 0) off = s.passes (.host p 0) off := by
  generalize ht : s.setPort p { s.port p with l1Held := held } = t
  have hport (r : Port) : (t.port r).pfReset = (s.port r).pfReset := by
    rw [← ht]
    cases p <;> cases r <;> rfl
  have hregs : t.regs = s.regs := by
    rw [← ht]
    cases p <;> rfl
  have hbus : t.bus = s.bus := by
    rw [← ht]
    cases p <;> rfl
  have hcores : t.cores = s.cores := by
    rw [← ht]
    cases p <;> rfl
  have hreach : t.reaches (.host p 0) = s.reaches (.host p 0) := by
    simp [State.reaches, State.flag, State.rd, hregs, hport]
  have hcls : classCoreS (classOf (.host p 0)) = false := by cases p <;> rfl
  have hvfs (r : Port) : (t.port r).vfEnable = (s.port r).vfEnable ∧ (t.port r).numVfs = (s.port r).numVfs := by
    rw [← ht]
    cases p <;> cases r <;> exact ⟨rfl, rfl⟩
  have hthere : t.windowThere off = s.windowThere off := by
    unfold State.windowThere
    dsimp only
    rw [(hvfs _).1, (hvfs _).2]
  have hrefusal : t.regRefusal (.host p 0) true off = s.regRefusal (.host p 0) true off := by
    simp only [State.regRefusal, State.beatRefusal_of_regs hregs hcls, regAllowed, hthere, State.recovery, State.flag, State.rd, hregs]
  have hanswers : t.blockAnswers off = s.blockAnswers off := by
    have hclosed (m : Nat) : t.mbxClosed m = s.mbxClosed m := by
      unfold State.mbxClosed State.pairOut State.core State.flag State.rd
      dsimp only
      rw [hregs, hcores, hport]
    have hdom : t.domAnswers 59 = s.domAnswers 59 := by
      unfold State.domAnswers
      rw [State.rd_of_regs hregs]
    simp only [State.blockAnswers, hdom, hclosed]
  unfold State.passes
  simp only [hreach, hrefusal, hanswers, hbus, State.inL1, State.tableHolds, State.flag, State.rd, hregs]

/-- A doorbell that waited is served as the link leaves L1. -/
theorem execL1Exit_serves {s : State} {p : Port} {q : Nat} (v : Word32) (hq : q < 4) (hl1 : s.rd (R.PE_LINK_L1.port p) = 1) (hdrop : s.doorbellDrop (.pf p) q = none)
    (hpass : (s.wr (R.PE_LINK_L1.port p) 0).passes (fnRequester (.pf p)) (doorbellOff (.pf p) q true) = true) (hon : (s.qp (.pf p) q).enabled = true)
    (hin : v.toNat % 4096 < 2 ^ (s.qp (.pf p) q).sqLog2) (hheld : (s.port p).l1Held = [busWrite (fnRequester (.pf p)) (regBase + doorbellOff (.pf p) q true) v.toNat]) :
    ∃ t, exec (.l1Exit p) s = .next t ∧ t.rd (R.PE_LINK_L1.port p) = 0 ∧ t.qp (.pf p) q = { s.qp (.pf p) q with sqTail := v.toNat % 4096 } ∧
      s.keepsRegs t [R.PE_LINK_L1.port p] ∧ t.mem = s.mem := by
  let s1 := (s.wr (R.PE_LINK_L1.port p) 0).setPort p { s.port p with l1Held := [] }
  have hsame : s1.passes (fnRequester (.pf p)) (doorbellOff (.pf p) q true) = (s.wr (R.PE_LINK_L1.port p) 0).passes (fnRequester (.pf p)) (doorbellOff (.pf p) q true) :=
    (s.wr (R.PE_LINK_L1.port p) 0).passes_dropL1 p [] _
  have hdrop1 : s1.doorbellDrop (.pf p) q = none := by
    have h : (s1.port p).pfReset = (s.port p).pfReset := by cases p <;> rfl
    unfold State.doorbellDrop at hdrop ⊢
    dsimp only at hdrop ⊢
    rw [h]
    split at hdrop
    · cases hdrop
    next hno => exact if_neg hno
  have hqp : s1.qp (.pf p) q = s.qp (.pf p) q := by cases p <;> rfl
  have hmove : s1.sqTail (.pf p) q v.toNat = s1.setQp (.pf p) q { s.qp (.pf p) q with sqTail := v.toNat % 4096 } := by
    rw [State.sqTail_moves hdrop1 (by rw [hqp]; exact hon) (by rw [hqp]; exact hin), hqp]
  have hexec : exec (.l1Exit p) s = .next (s1.setQp (.pf p) q { s.qp (.pf p) q with sqTail := v.toNat % 4096 }) := by
    refine (if_pos (s.flag_of_rd_one hl1) : execL1Exit p s = _).trans (congrArg _ ?_)
    rw [hheld]
    exact (State.release_doorbell v _ hq (hsame.trans hpass)).trans hmove
  have hregs : s1.regs = (s.wr (R.PE_LINK_L1.port p) 0).regs := by cases p <;> rfl
  refine ⟨_, hexec, ?_, State.qp_setQp_same .., ?_, ?_⟩
  · exact (State.rd_of_regs hregs _).trans (State.rd_wr_same ..)
  · intro f hf
    exact (State.rd_of_regs hregs f).trans (s.keepsRegs_wr 0 (List.mem_singleton.mpr rfl) f hf)
  · cases p <;> rfl

/-- The registers from which a queue pair is made do not include its status. -/
theorem State.qzQp_wr (s : State) (fn : Fn) (q v : Nat) : (s.wr (R.QZ_STATUS_CFG_ERR.qz fn q) v).qzQp fn q = s.qzQp fn q := by
  have hrd {f : Fld} (h : f.key ≠ R.QZ_STATUS_CFG_ERR.key) : (s.wr (R.QZ_STATUS_CFG_ERR.qz fn q) v).rd (f.qz fn q) = s.rd (f.qz fn q) :=
    State.rd_wr_other _ _ (Fld.qz_key_ne h fn q)
  unfold State.qzQp State.qzSqAddr State.qzCqAddr
  simp (disch := decide) only [hrd]

/-- The claims of a domain are no register of a queue pair. -/
theorem State.rd_portClaim_qz (s : State) (p : Port) {f : Fld} (hf : f.lsb < 64) (fn : Fn) (q : Nat) : (s.portClaim p).rd (f.qz fn q) = s.rd (f.qz fn q) := by
  have hkey (d : Nat) (hd : d ≤ 8) : (f.qz fn q).key ≠ (R.PWR_DOM_STAT_CLAIMS.ix d).key := by
    have hbase : 0x91000 ≤ qzBase fn q := by cases fn <;> simp only [qzBase] <;> omega
    simp only [Fld.key, Fld.qz, Fld.add, Fld.ix, R.PWR_DOM_STAT_CLAIMS]
    omega
  have hadd (d : Nat) (hd : d ≤ 8) : (s.addClaim d).rd (f.qz fn q) = s.rd (f.qz fn q) := State.rd_wr_other _ _ (hkey d hd)
  have hdrop (d : Nat) (hd : d ≤ 8) : (s.dropClaim d).rd (f.qz fn q) = s.rd (f.qz fn q) := State.rd_wr_other _ _ (hkey d hd)
  have hd : (if p = .a then 3 else 8) ≤ 8 := by split <;> decide
  unfold State.portClaim
  dsimp only
  generalize (if p = .a then 3 else 8) = d at hd ⊢
  split_ifs
  · exact hadd d hd
  · rfl
  · rfl
  · exact hdrop d hd

section
variable {s : State} {fn : Fn} {q : Nat}

/-- A queue pair brought into service. -/
theorem State.qzEnable_serves (hoff : s.rd (R.QZ_CTRL_ENABLE.qz fn q) = 0) (hqp : (s.qp fn q).enabled = false) (hcheck : s.qzCheck fn q = 0) :
    (s.qzEnable fn q).qp fn q = s.qzQp fn q ∧ (s.qzEnable fn q).rd (R.QZ_STATUS_READY.qz fn q) = 1 ∧ (s.qzEnable fn q).rd (R.QZ_STATUS_CFG_ERR.qz fn q) = 0 := by
  let s1 := (s.wr (R.QZ_STATUS_CFG_ERR.qz fn q) 0).setQp fn q (s.qzQp fn q)
  let s2 := (s1.wr (R.QZ_CTRL_ENABLE.qz fn q) 1).wr (R.QZ_STATUS_READY.qz fn q) 1
  have ht : s.qzEnable fn q = if fn = .nw then s2 else s2.portClaim fn.port := by
    unfold State.qzEnable
    rw [if_neg (by simp [s.flag_eq_false hoff, hqp])]
    dsimp only
    rw [hcheck, if_neg (fun h => h rfl), State.qzQp_wr]
  have hqps : (s.qzEnable fn q).qps = s2.qps := by
    rw [ht]
    split
    · rfl
    · exact State.portClaim_keepsQps rfl
  have hrd {f : Fld} (hf : f.lsb < 64) : (s.qzEnable fn q).rd (f.qz fn q) = s2.rd (f.qz fn q) := by
    rw [ht]
    split
    · rfl
    · exact s2.rd_portClaim_qz _ hf fn q
  refine ⟨(State.qp_of_qps hqps fn q).trans ?_, (hrd (by decide)).trans (State.rd_wr_same ..), (hrd (by decide)).trans ?_⟩
  · exact State.qp_setQp_same (s.wr (R.QZ_STATUS_CFG_ERR.qz fn q) 0) fn q (s.qzQp fn q)
  · rw [State.rd_wr_other _ _ (Fld.qz_key_ne (by decide) fn q), State.rd_wr_other _ _ (Fld.qz_key_ne (by decide) fn q)]
    exact (s.rd_wr_same (R.QZ_STATUS_CFG_ERR.qz fn q) 0 :)

/-- A queue pair whose registers fail their check. -/
theorem State.qzEnable_refused (hoff : s.rd (R.QZ_CTRL_ENABLE.qz fn q) = 0) (hqp : (s.qp fn q).enabled = false) (hcheck : s.qzCheck fn q ≠ 0) :
    s.qzEnable fn q = s.wr (R.QZ_STATUS_CFG_ERR.qz fn q) (s.qzCheck fn q) := by
  unfold State.qzEnable
  rw [if_neg (by simp [s.flag_eq_false hoff, hqp])]
  exact if_pos hcheck

/-- The checks of a queue pair's registers are numbered 1 to 5. -/
theorem State.qzCheck_lt (s : State) (fn : Fn) (q : Nat) : s.qzCheck fn q < 8 := by
  unfold State.qzCheck
  dsimp only
  split_ifs <;> decide

/-- A queue pair without commands is deleted at once. -/
theorem State.qzDisable_deletes (hqz : hasQz fn q = true) (hqp : (s.qp fn q).enabled = true) (hidle : s.qpBusy fn q = false) :
    ((s.qzDisable fn q).qp fn q).enabled = false ∧ (s.qzDisable fn q).rd (R.QZ_CTRL_ENABLE.qz fn q) = 0 ∧ (s.qzDisable fn q).rd (R.QZ_STATUS_READY.qz fn q) = 0 := by
  let s1 := (s.wr (R.QZ_CTRL_ENABLE.qz fn q) 0).setQp fn q { s.qp fn q with deleting := true }
  have hdel : s1.qp fn q = { s.qp fn q with deleting := true } := State.qp_setQp_same ..
  have ht : s.qzDisable fn q = s1.disableQp fn q := by
    refine (if_pos hqp : (s.wr (R.QZ_CTRL_ENABLE.qz fn q) 0).deleteQp fn q = _).trans ?_
    show s1.finishDelete fn q = _
    unfold State.finishDelete
    exact if_pos (by rw [hdel]; simp [show s1.qpBusy fn q = false from hidle])
  let s2 := s1.setQp fn q {}
  let s3 := s2.wr (qzErr fn q).1 (bitClear (s2.rd (qzErr fn q).1) (qzErr fn q).2)
  let s4 := (s3.wr (R.QZ_STATUS_READY.qz fn q) 0).wr (R.QZ_CTRL_ENABLE.qz fn q) 0
  let s5 := if fn = .nw then s4 else s4.portClaim fn.port
  have hqps5 : s5.qps = s2.qps := by
    unfold s5
    split
    · rfl
    · exact State.portClaim_keepsQps rfl
  have hrd5 {f : Fld} (hf : f.lsb < 64) : s5.rd (f.qz fn q) = s4.rd (f.qz fn q) := by
    unfold s5
    split
    · rfl
    · exact s4.rd_portClaim_qz _ hf fn q
  have hbound {f : Fld} (hf : f.lsb < 64) (hne : fn = .nw) : (f.qz fn q).key ≠ (R.WLD_NQ_BIND_BOUND.ix q).key ∨ 64 ≤ q := by
    subst hne
    simp only [Fld.key, Fld.qz, qzBase, Fld.add, Fld.ix, R.WLD_NQ_BIND_BOUND]
    omega
  have ht' : s1.disableQp fn q = if fn = .nw ∧ (s.qp fn q).unbind = true then s5.nqRelease q else s5 := by
    unfold State.disableQp
    dsimp only
    rw [if_pos hqz, hdel]
    simp only [Bool.and_eq_true, decide_eq_true_eq]
    rfl
  have hqps : (s1.disableQp fn q).qps = s2.qps := by
    rw [ht']
    split
    · exact hqps5
    · exact hqps5
  have hrd {f : Fld} (hf : f.lsb < 64) : (s1.disableQp fn q).rd (f.qz fn q) = s4.rd (f.qz fn q) := by
    rw [ht']
    split
    next hnw =>
      have hq : q < 64 := by simpa [hasQz, hnw.1] using hqz
      exact (State.rd_wr_other _ _ ((hbound hf hnw.1).resolve_right (Nat.not_le.mpr hq))).trans (hrd5 hf)
    · exact hrd5 hf
  have hoff : (s1.disableQp fn q).qp fn q = {} := (State.qp_of_qps hqps fn q).trans (State.qp_setQp_same ..)
  rw [ht]
  refine ⟨by rw [hoff], (hrd (by decide)).trans (State.rd_wr_same ..), (hrd (by decide)).trans ?_⟩
  rw [State.rd_wr_other _ _ (Fld.qz_key_ne (by decide) fn q)]
  exact State.rd_wr_same ..

theorem State.writeQzCtrl_of_passes (hpass : s.passes (fnRequester fn) (qzBase fn q + 0x14) = true) (hreach : s.qzReached fn q = true) (v : Nat) :
    s.writeQzCtrl fn q v = if v.testBit 0 then s.qzEnable fn q else s.qzDisable fn q :=
  (State.gated_of_passes hpass _ _).trans (if_neg (by simp [hreach]))

end

/-- The message of entries that wait. -/
theorem State.vector_sends {s : State} {fn : Fn} {v : Nat} (hfn : fn ≠ .nw) (hheld : s.heldFn fn = false) (hmask : (s.fnSt fn).unmasked.testBit v = true) :
    s.vector fn v = s.emit (.msix fn v) := by
  unfold State.vector
  rw [if_neg hfn, if_pos hmask]
  exact if_neg (by simp [hheld])

/-- Settles O42. -/
theorem queuePairRows : Obligations.QueuePairRows := by
  unfold Obligations.QueuePairRows
  refine ⟨fun s fn q v hq => ?_, fun s fn q => ⟨fun hqz hpass hreach => ?_, fun hon hwait _ => ?_⟩⟩
  · intro x i only
    refine ⟨fun _ hdrop => ⟨fun hpass => ?_, fun hpass hon hin hpast => ?_⟩, fun hfn hl1 hreach => execSqTail_inL1 hq hfn hl1 hreach, fun p hp hl1 hpass hon hin hheld => ?_⟩
    · have hexec : exec (.sqTailDoorbell fn q v) s = .next (s.sqTail fn q v.toNat) := execSqTail_of_passes hq hpass
      refine ⟨fun hon hin => ?_, fun hon hout => ?_, fun hoff => ?_⟩
      · refine ⟨_, hexec.trans (congrArg _ (State.sqTail_moves hdrop hon hin)), State.qp_setQp_same .., State.setQp_only _⟩
      · obtain ⟨herr, htail⟩ := s.queueError_shown fn q
        exact ⟨_, hexec.trans (congrArg _ (State.sqTail_outside hdrop hon hout)), herr, htail, State.queueError_keepsMem rfl⟩
      · exact ⟨_, hexec.trans (congrArg _ (State.sqTail_disabled _ hdrop hoff)), s.qzEvent_shown fn, State.qzEvent_keepsQps rfl, State.qzEvent_keepsMem rfl⟩
    · exact ⟨_, (execCqHead_of_passes hq hpass).trans (congrArg _ (State.cqHead_moves hdrop hon hin hpast)), State.qp_setQp_same .., State.setQp_only _⟩
    · subst hp
      have hdrop : s.doorbellDrop (.pf p) q = none := by
        have hup : (s.port p).pfReset = false := by
          simp only [State.passes, State.reaches, fnRequester, Bool.and_eq_true, Bool.not_eq_true'] at hpass
          obtain ⟨⟨⟨⟨⟨⟨⟨⟨⟨-, hup⟩, -⟩, -⟩, -⟩, -⟩, -⟩, -⟩, -⟩, -⟩ := hpass
          cases p <;> exact hup
        exact if_neg (by simp [hup, show q < 4 from hq])
      exact execL1Exit_serves v hq hl1 hdrop hpass hon hin hheld
  · refine ⟨fun hoff hqp hcheck => ?_, fun hoff hqp hcheck => ?_, fun hqp hidle => ?_⟩
    · obtain ⟨hmade, hready, herr⟩ := State.qzEnable_serves hoff hqp hcheck
      exact ⟨_, (if_pos hqz : execQzEnable fn q s = _).trans (congrArg _ (State.writeQzCtrl_of_passes hpass hreach 1)), hmade, hready, herr, State.qzEnable_keepsMem rfl⟩
    · refine ⟨_, (if_pos hqz : execQzEnable fn q s = _).trans (congrArg _ ((State.writeQzCtrl_of_passes hpass hreach 1).trans (State.qzEnable_refused hoff hqp hcheck))), ?_, rfl,
        s.keepsRegs_wr _ (List.mem_singleton.mpr rfl)⟩
      exact (State.rd_wr_same ..).trans (Nat.mod_eq_of_lt (s.qzCheck_lt fn q))
    · obtain ⟨hoff, hen, hready⟩ := State.qzDisable_deletes hqz hqp hidle
      exact ⟨_, (if_pos hqz : execQzDisable fn q s = _).trans (congrArg _ (State.writeQzCtrl_of_passes hpass hreach 0)), hoff, hen, hready, State.qzDisable_keepsMem rfl⟩
  · let s1 := s.setQp fn q { s.qp fn q with unsignalled := 0 }
    refine ⟨s1.vector fn (s.qp fn q).vector, (if_pos (by simp [*]) : execCoalTimeExpiry fn q s = _), ?_, State.vector_keepsRegs rfl, State.vector_keepsMem rfl, fun hfn hheld hmask => ?_⟩
    · exact (State.qp_of_qps (State.vector_keepsQps rfl) fn q).trans (State.qp_setQp_same ..)
    · exact congrArg State.out (State.vector_sends (s := s1) hfn hheld hmask)

end Sys2Proof.Machine
end

section
/-! VFs, function resets, the link states and the power states of a port (R122 to R129, R524, R525). -/

namespace Sys2Proof.Machine

/-- The words of a VF lie above those of the ports. -/
theorem vf_key_ne_port {f g : Fld} (hf : 0x200000 ≤ f.off ∧ f.bank = 0) (hg : g.off < 0x110000 ∧ g.bank = 0 ∧ g.lsb < 64) (p q : Port) (n : Nat) :
    (f.vf p n).key ≠ (g.port q).key := by
  have hq : q.num ≤ 1 := by cases q <;> decide
  simp only [Fld.key, Fld.vf, Fld.port, Fld.add]
  omega

theorem port_key_ne {f g : Fld} (h : f.key ≠ g.key) (p : Port) : (f.port p).key ≠ (g.port p).key := by
  simp only [Fld.key, Fld.port, Fld.add] at h ⊢
  omega

namespace State
variable (s : State) (p : Port)

@[simp] theorem regs_setPort (x : PortSt) : (s.setPort p x).regs = s.regs := by cases p <;> rfl

@[simp] theorem mem_setPort (x : PortSt) : (s.setPort p x).mem = s.mem := by cases p <;> rfl

@[simp] theorem pins_setPort (x : PortSt) : (s.setPort p x).pins = s.pins := by cases p <;> rfl

@[simp] theorem rd_setPort (x : PortSt) (f : Fld) : (s.setPort p x).rd f = s.rd f := rd_of_regs (s.regs_setPort p x) f

@[simp] theorem port_setEvt (f : Fld) (b : Nat) : (s.setEvt f b).port p = s.port p := by cases p <;> rfl

/-- An event of a port is set. -/
theorem rd_setEvt_port {f : Fld} (h : f.width = 1 ∧ f.key ≠ f.seq.key) : (s.setEvt (f.port p)).rd (f.port p) = 1 := by
  refine s.rd_setEvt_same h.1 ?_
  have hne := h.2
  simp only [Fld.key, Fld.port, Fld.add, Fld.seq] at hne ⊢
  omega

theorem rd_setEvt_port_other {f g : Fld} (h : g.key ≠ f.key ∧ g.key ≠ f.seq.key) : (s.setEvt (f.port p)).rd (g.port p) = s.rd (g.port p) :=
  s.rd_setEvt_other 0 (port_key_ne h.1 p) (port_key_ne (g := f.seq) h.2 p)

theorem rd_setEvt_port_vf {f g : Fld} (hf : 0x200000 ≤ f.off ∧ f.bank = 0) (hg : g.off < 0x110000 ∧ g.bank = 0 ∧ g.lsb < 64) (q : Port) (n : Nat) :
    (s.setEvt (g.port p)).rd (f.vf q n) = s.rd (f.vf q n) :=
  s.rd_setEvt_other 0 (vf_key_ne_port hf hg q p n) (vf_key_ne_port (g := g.seq) hf ⟨hg.1, hg.2.1, (by decide : (16 : Nat) < 64)⟩ q p n)

/-- VF Enable goes. -/
theorem dropVfEnable_shown : ((s.dropVfEnable p).port p).vfEnable = false ∧ ∀ n, (s.dropVfEnable p).rd (R.VFS_STATE_STATE.vf p n) = s.rd (R.VFS_STATE_STATE.vf p n) := by
  unfold dropVfEnable
  dsimp only
  split
  · refine ⟨by rw [port_setEvt, port_setPort_same], fun n => ?_⟩
    rw [rd_setEvt_port_vf _ _ (by decide) (by decide), rd_setPort]
  · exact ⟨by rw [port_setPort_same], fun n => s.rd_setPort ..⟩

/-- Every VF of a port is torn down. -/
theorem teardownAll_shown {n : Nat} (hn : n ∈ s.vfsOf p) : (s.teardownAll p).rd (R.VFS_STATE_STATE.vf p n) = 3 := by
  let s1 := s.stopFns fun f => onPort p f && f.isVf
  have hsame : s1.vfs = s.vfs := stopFns_keepsVfs rfl
  have hvfs : s1.vfsOf p = s.vfsOf p := congrArg (fun l : Tbl Vf => (l.filter fun e : Nat × Vf => e.1 / 128 == p.num).map fun e : Nat × Vf => e.1 % 128 + 1) hsame
  exact s1.rd_foldl_wr_mem (g := fun n => R.VFS_STATE_STATE.vf p n) (w := 2) (r := 0) (fun _ => ⟨rfl, rfl⟩) (hvfs ▸ hn)

theorem resetPort_port (kind : Nat) : ((s.resetPort p kind).port p).pfReset = true ∧ ((s.resetPort p kind).port p).resetKind = kind := by
  unfold resetPort
  rw [port_setPort_same]
  exact ⟨rfl, rfl⟩

theorem leaveTest_port (k : Nat) : (s.leaveTest k).port p = s.port p := by
  cases p
  · exact leaveTest_keepsPortA rfl
  · exact leaveTest_keepsPortB rfl

theorem linkOff_port : ((s.linkOff p).port p).pfReset = (s.port p).pfReset ∧ ((s.linkOff p).port p).resetKind = (s.port p).resetKind := by
  have h (f : Fld) (v : Nat) (u : State) : (u.wr f v).port p = u.port p := by cases p <;> rfl
  unfold linkOff
  dsimp only
  rw [port_setPort_same]
  simp only [h, leaveTest_port]
  exact ⟨trivial, trivial⟩

theorem linkOff_down : (s.linkOff p).rd (R.PE_LINK_DL_UP.port p) = 0 := by
  unfold linkOff
  dsimp only
  rw [rd_setPort, rd_wr_other _ _ (port_key_ne (by decide) p), rd_wr_other _ _ (port_key_ne (by decide) p)]
  exact rd_wr_same ..

/-- The words of a port read as reset. -/
theorem clearPortRegs_down : (s.clearPortRegs p).rd (R.PE_LINK_DL_UP.port p) = 0 := by
  unfold clearPortRegs
  cases p <;>
    exact (rd_clearRegs_other _ (by unfold Fld.outside; decide) (by decide)).trans
      ((rd_clearRegs_other _ (by unfold Fld.outside; decide) (by decide)).trans (rd_clearRegs_reset _ rfl (by decide) (by decide)))

theorem trainPort_shown : (s.trainPort p).regs = s.regs ∧ (s.trainPort p).pins = s.pins ∧ (s.trainPort p).mem = s.mem ∧
    ((s.trainPort p).port p).resetKind = (s.port p).resetKind := by
  unfold trainPort
  split
  · exact ⟨s.regs_setPort .., s.pins_setPort .., s.mem_setPort .., by rw [port_setPort_same]⟩
  · exact ⟨rfl, rfl, rfl, rfl⟩

theorem clearPortRegs_kept : (s.clearPortRegs p).port p = s.port p ∧ (s.clearPortRegs p).pins = s.pins := by
  cases p <;> exact ⟨rfl, rfl⟩

theorem foldl_wr_port (g : Nat → Fld) (v : Nat) (l : List Nat) : ∀ s : State, (l.foldl (fun s n => s.wr (g n) v) s).port p = s.port p ∧
    (l.foldl (fun s n => s.wr (g n) v) s).pins = s.pins := by
  induction l with
  | nil => exact fun s => ⟨rfl, rfl⟩
  | cons n l ih =>
    intro s
    obtain ⟨hport, hpins⟩ := ih (s.wr (g n) v)
    exact ⟨hport.trans (by cases p <;> rfl), hpins⟩

/-- The end of PERST_N low, once the port and its link are reset. -/
theorem perstCleared_shown (keep : Tbl FnSt) : let u : State := { s with fns := keep }
    let t := (u.vfsOf p).foldl (fun s n => s.wr (R.VFS_STATE_STATE.vf p n) 3) (u.clearPortRegs p)
    t.port p = s.port p ∧ t.pins = s.pins ∧ t.rd (R.PE_LINK_DL_UP.port p) = 0 := by
  intro u t
  obtain ⟨hport, hpins⟩ := foldl_wr_port p (fun n => R.VFS_STATE_STATE.vf p n) 3 (u.vfsOf p) (u.clearPortRegs p)
  obtain ⟨hport', hpins'⟩ := u.clearPortRegs_kept p
  refine ⟨(hport.trans hport').trans (by cases p <;> rfl), hpins.trans hpins', ?_⟩
  exact (rd_foldl_wr _ _ fun n _ => (vf_key_ne_port (by decide) (by decide) p p n).symm).trans (u.clearPortRegs_down p)

/-- PERST_N low. -/
theorem assertPerst_shown : ((s.assertPerst p).port p).pfReset = true ∧ ((s.assertPerst p).port p).resetKind = 3 ∧ (s.assertPerst p).rd (R.PE_LINK_DL_UP.port p) = 0 ∧
    (s.assertPerst p).pins = s.pins := by
  obtain ⟨hreset, hkind⟩ := s.resetPort_port p 3
  have hpins : (s.resetPort p 3).pins = s.pins := resetPort_keepsPins rfl
  unfold assertPerst
  generalize s.resetPort p 3 = s1 at hreset hkind hpins ⊢
  obtain ⟨hoff, hoffk⟩ := s1.linkOff_port p
  have hpins2 : (s1.linkOff p).pins = s1.pins := linkOff_keepsPins rfl
  generalize s1.linkOff p = s2 at hoff hoffk hpins2 ⊢
  obtain ⟨hport, hpins3, hdown⟩ := s2.perstCleared_shown p (s2.fns.filter fun e => !onPort p (fnOf e.1))
  exact ⟨(congrArg PortSt.pfReset hport).trans (hoff.trans hreset), (congrArg PortSt.resetKind hport).trans (hoffk.trans hkind), hdown,
    hpins3.trans (hpins2.trans hpins)⟩

/-- PERST_N high at a port that is alive. -/
theorem risePerst_shown (h : s.pfAlive p = true) : (s.risePerst p).rd (R.PE_EVT_PERST.port p) = 1 ∧ (s.risePerst p).pins = s.pins := by
  have ht : s.risePerst p = ((s.clearPortRegs p).setEvt (R.PE_EVT_PERST.port p)).trainPort p := if_pos h
  have hpins := (s.clearPortRegs_kept p).2
  rw [ht]
  generalize s.clearPortRegs p = s1 at hpins ⊢
  obtain ⟨hregs, htrain, -, -⟩ := (s1.setEvt (R.PE_EVT_PERST.port p)).trainPort_shown p
  exact ⟨(rd_of_regs hregs _).trans (s1.rd_setEvt_port p (by decide)), htrain.trans hpins⟩

/-- A link that goes down. -/
theorem linkDown_shown : (s.linkDown p).rd (R.PE_LINK_DL_UP.port p) = 0 ∧ (s.linkDown p).rd (R.PE_EVT_LINK_DOWN.port p) = 1 ∧ ((s.linkDown p).port p).resetKind = 4 := by
  have hkind := (s.resetPort_port p 4).2
  unfold linkDown
  generalize s.resetPort p 4 = s1 at hkind ⊢
  refine ⟨?_, rd_setEvt_port _ p (by decide), ?_⟩
  · rw [rd_setEvt_port_other _ p (by decide)]
    exact linkOff_down _ p
  · rw [port_setEvt]
    exact (s1.linkOff_port p).2.trans hkind

/-- The end of a port's reset. -/
theorem portResetDone_shown : ((s.portResetDone p).port p).pfReset = false ∧ ((s.portResetDone p).port p).resetKind = 0 ∧
    ((s.port p).resetKind = 1 → (s.portResetDone p).rd (R.PE_EVT_FLR_PF.port p) = 1) := by
  unfold portResetDone
  dsimp only
  split
  · rw [port_setEvt, port_setPort_same]
    exact ⟨rfl, rfl, fun _ => rd_setEvt_port _ p (by decide)⟩
  next hkind =>
    rw [port_setPort_same]
    exact ⟨rfl, rfl, fun h => absurd h hkind⟩

/-- Whether a VF reads as suspended says nothing of its state. -/
theorem rd_refreshVf (w n : Nat) {g : Fld} (h : (g = R.VFS_STATE_STATE.vf p n) ∨ (g = R.PE_EVT_FLR_VF.port p)) : (s.refreshVf w).rd g = s.rd g := by
  have hne (q : Port) (k : Nat) : g.key ≠ (R.VFS_STATE_SUSPENDED.vf q k).key := by
    rcases h with rfl | rfl
    · exact Fld.key_ne_of_lsb (by decide : (0 : Nat) < 64) (by decide : (2 : Nat) < 64) (by decide : (0 : Nat) ≠ 2)
    · exact (vf_key_ne_port (by decide) (by decide) q p k).symm
  unfold refreshVf
  dsimp only
  generalize (if w < 128 then Port.a else Port.b) = q
  generalize (if (s.flag R.GLB_STATUS_SUSPENDED || _) = true then 1 else 0) = v
  split
  · rfl
  · exact (rd_of_regs (vector_keepsRegs rfl) g).trans (rd_wr_other _ _ (hne _ _))

/-- The end of a VF's reset, no command in flight. -/
theorem vfResetDone_reset {n : Nat} (hidle : s.dsp.inflight = []) (h : s.rd (R.VFS_STATE_STATE.vf p n) = 2) :
    (s.vfResetDone p n).rd (R.VFS_STATE_STATE.vf p n) = 1 ∧ (s.vfResetDone p n).rd (R.PE_EVT_FLR_VF.port p) = 1 ∧ (s.vfResetDone p n).mem = s.mem := by
  let s1 := (s.wr (R.VFS_STATE_STATE.vf p n) 1).setEvt (R.PE_EVT_FLR_VF.port p)
  have hdsp : (s1.refreshVf (vfIndex p n)).dsp = s.dsp := refreshVf_keepsDsp (s := s1) (old := s.dsp) rfl
  have ht : s.vfResetDone p n = s1.refreshVf (vfIndex p n) := by
    unfold vfResetDone
    rw [if_pos h]
    refine if_neg ?_
    rw [show (s1.refreshVf (vfIndex p n)).dsp.inflight = [] from (congrArg Dsp.inflight hdsp).trans hidle]
    exact Bool.false_ne_true
  rw [ht, rd_refreshVf s1 p _ n (.inl rfl), rd_refreshVf s1 p _ n (.inr rfl)]
  refine ⟨?_, rd_setEvt_port _ p (by decide), refreshVf_keepsMem (s := s1) (old := s.mem) rfl⟩
  rw [rd_setEvt_port_vf _ p (by decide) (by decide)]
  exact rd_wr_same ..

/-- The end of a VF's teardown, no command in flight. -/
theorem vfResetDone_teardown {n : Nat} (hidle : s.dsp.inflight = []) (h : s.rd (R.VFS_STATE_STATE.vf p n) = 3) :
    (s.vfResetDone p n).rd (R.VFS_STATE_STATE.vf p n) = 0 ∧ (s.vfResetDone p n).mem = s.mem := by
  have ht : s.vfResetDone p n = s.releaseVf p n := by
    unfold vfResetDone
    rw [if_neg (by omega)]
    unfold endDestroys
    rw [show (s.releaseVf p n).dsp.inflight = [] from hidle]
    rfl
  rw [ht]
  refine ⟨(s.rd_clearRegs_reset rfl ?_ ?_ : (s.clearRegs _ _).rd (R.VFS_STATE_STATE.vf p n) = 0), rfl⟩
  · simp only [Fld.vf, Fld.add, R.VFS_STATE_STATE]
    omega
  · simp only [Fld.vf, Fld.add, R.VFS_STATE_STATE]
    omega

/-- What a new speed and width show. -/
theorem rd_linkWidth {speed width : Nat} (h : linkFits speed width = true) : let t := (s.wr (R.PE_LINK_SPEED.port p) speed).wr (R.PE_LINK_WIDTH.port p) width
    t.rd (R.PE_LINK_SPEED.port p) = speed ∧ t.rd (R.PE_LINK_WIDTH.port p) = width := by
  have hfit : speed < 8 ∧ width < 8 := by
    simp only [linkFits, Bool.and_eq_true, Bool.or_eq_true, decide_eq_true_eq, beq_iff_eq] at h
    omega
  refine ⟨?_, (rd_wr_same ..).trans (Nat.mod_eq_of_lt hfit.2)⟩
  rw [rd_wr_other _ _ (port_key_ne (by decide) p)]
  exact (rd_wr_same ..).trans (Nat.mod_eq_of_lt hfit.1)

theorem retrained_shown {speed width : Nat} (h : linkFits speed width = true) : let t := s.retrained p speed width
    t.rd (R.PE_LINK_SPEED.port p) = speed ∧ t.rd (R.PE_LINK_WIDTH.port p) = width ∧ t.mem = s.mem ∧
      (s.rd (R.PE_LINK_SPEED.port p) ≠ speed ∨ s.rd (R.PE_LINK_WIDTH.port p) ≠ width → t.rd (R.PE_EVT_SPEED_CHANGE.port p) = 1) := by
  obtain ⟨hspeed, hwidth⟩ := s.rd_linkWidth p h
  intro t
  have ht : s.retrained p speed width = t := rfl
  clear_value t
  unfold retrained at ht
  dsimp only at ht
  split at ht
  next hsame =>
    subst ht
    exact ⟨hspeed, hwidth, rfl, fun hdiff => absurd hsame (by omega)⟩
  · subst ht
    refine ⟨?_, ?_, rfl, fun _ => rd_setEvt_port _ p (by decide)⟩
    · rw [rd_setEvt_port_other _ p (by decide)]
      exact hspeed
    · rw [rd_setEvt_port_other _ p (by decide)]
      exact hwidth

theorem foldl_emit (l : List Out) : ∀ s : State, let t := l.foldl emit s
    t.out = l.reverse ++ s.out ∧ t.port p = s.port p ∧ t.regs = s.regs ∧ t.mem = s.mem := by
  induction l with
  | nil => exact fun s => ⟨rfl, rfl, rfl, rfl⟩
  | cons o l ih =>
    intro s
    obtain ⟨hout, hport, hregs, hmem⟩ := ih (s.emit o)
    refine ⟨hout.trans ?_, hport.trans (by cases p <;> rfl), hregs, hmem⟩
    rw [List.reverse_cons, List.append_assoc]
    rfl

/-- VF Enable is set. -/
theorem setVfEnable_shown {n : Nat} (halive : s.pfAlive p = true) (hopen : s.boot.cfgOpen = true) (hrec : s.rd R.GLB_STATUS_RECOVERY = 0) (hoff : (s.port p).vfEnable = false)
    (hkind : (s.port p).resetKind = 0) (hn : n ≤ s.maxVf p) (hmax : 0 < s.maxVf p) : let t := s.setVfEnable p n
    (t.port p).vfEnable = true ∧ (t.port p).numVfs = n ∧ t.rd (R.PE_EVT_VF_ENABLE.port p) = 1 ∧ t.mem = s.mem := by
  let s1 := s.setPort p { s.port p with vfEnable := true, numVfs := n }
  have ht : s.setVfEnable p n = s1.setEvt (R.PE_EVT_VF_ENABLE.port p) :=
    if_pos (by simp [halive, hopen, recovery, s.flag_eq_false hrec, hoff, hkind, hn, hmax])
  rw [ht]
  dsimp only
  rw [port_setEvt, port_setPort_same]
  exact ⟨rfl, rfl, s1.rd_setEvt_port p (by decide), s.mem_setPort p _⟩

/-- VF Enable is cleared. -/
theorem clearVfEnable_shown (hon : (s.port p).vfEnable = true) (hkind : (s.port p).resetKind = 0) : let t := s.clearVfEnable p
    (t.port p).vfEnable = false ∧ (t.port p).resetKind = 2 ∧ ∀ n, n ∈ s.vfsOf p → t.rd (R.VFS_STATE_STATE.vf p n) = 3 := by
  let s1 := (s.teardownAll p).dropVfEnable p
  have ht : s.clearVfEnable p = s1.setPort p { s1.port p with resetKind := 2 } := if_pos (by simp [hon, hkind])
  obtain ⟨hoff, hrd⟩ := (s.teardownAll p).dropVfEnable_shown p
  rw [ht]
  dsimp only
  rw [port_setPort_same]
  exact ⟨hoff, rfl, fun n hn => (s1.rd_setPort ..).trans ((hrd n).trans (s.teardownAll_shown p hn))⟩

/-- A VF's function-level reset. -/
theorem vfFlr_shown (n : Nat) : (s.rd (R.VFS_STATE_STATE.vf p n) = 1 → (s.vfFlr p n).rd (R.VFS_STATE_STATE.vf p n) = 2) ∧
    (s.rd (R.VFS_STATE_STATE.vf p n) = 0 → (s.vfFlr p n).rd (R.PE_EVT_FLR_VF.port p) = 1) := by
  unfold vfFlr
  generalize s.stopFns (· == .vf p n) = s1
  refine ⟨fun h => ?_, fun h => ?_⟩
  · rw [h]
    exact rd_wr_same ..
  · rw [h]
    exact s1.rd_setEvt_port p (by decide)

/-- PERST_N rises. -/
theorem risePerst_alive (halive : s.boot.alive = true) (hpin : (match p with | .a => s.pins.perstNA | .b => s.pins.perstNB) = true) :
    ((p = .b → s.cfg.portBEn = true) → (s.risePerst p).rd (R.PE_EVT_PERST.port p) = 1) ∧ (p = .b → s.cfg.portBEn = false → s.risePerst p = s) ∧ (s.risePerst p).pins = s.pins ∧
    (s.risePerst p).mem = s.mem := by
  have hup (hb : p = .b → s.cfg.portBEn = true) : s.pfAlive p = true := by
    unfold pfAlive
    cases p
    · simp [halive, hpin]
    · simp [halive, hpin, hb rfl]
  refine ⟨fun hb => (s.risePerst_shown p (hup hb)).1, fun hb hoff => ?_, ?_, risePerst_keepsMem rfl⟩
  · subst hb
    exact if_neg (by simp [pfAlive, hoff])
  · exact risePerst_keepsPins rfl

/-- A link that comes up. -/
theorem linkUp_shown (speed width : Nat) (rev : Nat) (h : linkFits speed width = true) :
    let t := ((((s.setPort p { s.port p with training := false }).wr (R.PE_LINK_SPEED.port p) speed).wr (R.PE_LINK_WIDTH.port p) width).wr (R.PE_LINK_DL_UP.port p) 1
      |>.wr (R.PE_LINK_LANE_REV.port p) rev).setEvt (R.PE_EVT_LINK_UP.port p)
    t.rd (R.PE_LINK_SPEED.port p) = speed ∧ t.rd (R.PE_LINK_WIDTH.port p) = width ∧ t.rd (R.PE_LINK_DL_UP.port p) = 1 ∧ t.rd (R.PE_EVT_LINK_UP.port p) = 1 ∧
      (t.port p).training = false ∧ t.mem = s.mem := by
  let s1 := s.setPort p { s.port p with training := false }
  obtain ⟨hspeed, hwidth⟩ := s1.rd_linkWidth p h
  have hport (f : Fld) (v : Nat) (u : State) : (u.wr f v).port p = u.port p := by cases p <;> rfl
  intro t
  refine ⟨?_, ?_, ?_, rd_setEvt_port _ p (by decide), ?_, s.mem_setPort p _⟩
  · rw [rd_setEvt_port_other _ p (by decide), rd_wr_other _ _ (port_key_ne (by decide) p), rd_wr_other _ _ (port_key_ne (by decide) p)]
    exact hspeed
  · rw [rd_setEvt_port_other _ p (by decide), rd_wr_other _ _ (port_key_ne (by decide) p), rd_wr_other _ _ (port_key_ne (by decide) p)]
    exact hwidth
  · rw [rd_setEvt_port_other _ p (by decide), rd_wr_other _ _ (port_key_ne (by decide) p)]
    exact rd_wr_same ..
  · rw [port_setEvt, hport, hport, hport, hport, port_setPort_same]

end State

/-- Settles O41. -/
theorem portRows : Obligations.PortRows := by
  unfold Obligations.PortRows
  intro s p x pin
  refine ⟨?_, ?_, ?_, ?_, ?_, ?_, ?_, ?_, ?_, ?_, ?_, ?_, ?_, ?_⟩
  · intro n halive hopen hrec hoff hkind hn hmax
    exact ⟨_, rfl, s.setVfEnable_shown p halive hopen hrec hoff hkind hn hmax⟩
  · intro hon hkind
    exact ⟨_, rfl, s.clearVfEnable_shown p hon hkind⟩
  · intro halive hup
    exact ⟨_, (if_pos (by simp [halive, s.flag_of_rd_one hup]) : execPfFlr p s = _), s.resetPort_port p 1⟩
  · intro n hex
    have hexec : exec (.vfFlr p n) s = .next (s.vfFlr p n) := (if_pos hex : execVfFlr p n s = _)
    exact ⟨fun h => ⟨_, hexec, (s.vfFlr_shown p n).1 h⟩, fun h => ⟨_, hexec, (s.vfFlr_shown p n).2 h⟩⟩
  · intro hkind
    exact ⟨_, if_neg hkind, s.portResetDone_shown p⟩
  · intro n hkind hidle
    refine ⟨fun h => ⟨_, if_pos ⟨hkind, ?_⟩, s.vfResetDone_reset p hidle h⟩, fun h => ⟨_, if_pos ⟨hkind, ?_⟩, s.vfResetDone_teardown p hidle h⟩⟩ <;> omega
  · intro hpin
    cases p with
    | a =>
      have hexec : exec (.perstNAssert .a) s = .next (({ s with pins := { s.pins with perstNA := false } } : State).assertPerst .a) := if_pos hpin
      obtain ⟨hreset, hkind, hdown, hpins⟩ := ({ s with pins := { s.pins with perstNA := false } } : State).assertPerst_shown .a
      generalize ({ s with pins := { s.pins with perstNA := false } } : State).assertPerst .a = t at hexec hreset hkind hdown hpins
      exact ⟨t, hexec, congrArg Pins.perstNA hpins, hreset, hkind, hdown⟩
    | b =>
      have hexec : exec (.perstNAssert .b) s = .next (({ s with pins := { s.pins with perstNB := false } } : State).assertPerst .b) := if_pos hpin
      obtain ⟨hreset, hkind, hdown, hpins⟩ := ({ s with pins := { s.pins with perstNB := false } } : State).assertPerst_shown .b
      generalize ({ s with pins := { s.pins with perstNB := false } } : State).assertPerst .b = t at hexec hreset hkind hdown hpins
      exact ⟨t, hexec, congrArg Pins.perstNB hpins, hreset, hkind, hdown⟩
  · intro hpin halive
    cases p with
    | a =>
      have hexec : exec (.perstNRise .a) s = .next (({ s with pins := { s.pins with perstNA := true } } : State).risePerst .a) := if_neg (ne_true_of_eq_false hpin)
      obtain ⟨hevt, hoff, hpins, hmem⟩ := ({ s with pins := { s.pins with perstNA := true } } : State).risePerst_alive .a halive rfl
      generalize ({ s with pins := { s.pins with perstNA := true } } : State).risePerst .a = t at hexec hevt hoff hpins hmem
      exact ⟨t, hexec, congrArg Pins.perstNA hpins, hmem, hevt, nofun⟩
    | b =>
      have hexec : exec (.perstNRise .b) s = .next (({ s with pins := { s.pins with perstNB := true } } : State).risePerst .b) := if_neg (ne_true_of_eq_false hpin)
      obtain ⟨hevt, hoff, hpins, hmem⟩ := ({ s with pins := { s.pins with perstNB := true } } : State).risePerst_alive .b halive rfl
      generalize ({ s with pins := { s.pins with perstNB := true } } : State).risePerst .b = t at hexec hevt hoff hpins hmem
      refine ⟨t, hexec, congrArg Pins.perstNB hpins, hmem, hevt, fun hb hdis => ?_⟩
      exact congrArg (fun t : State => { t with pins := s.pins }) (hoff hb hdis)
  · intro hup
    have hexec : exec (.dlDown p) s = .next ((s.linkDown p).trainPort p) := if_pos (s.flag_of_rd_one hup)
    obtain ⟨hdown, hevt, hkind⟩ := s.linkDown_shown p
    generalize s.linkDown p = s1 at hexec hdown hevt hkind
    obtain ⟨hregs, -, -, hport⟩ := s1.trainPort_shown p
    exact ⟨_, hexec, (State.rd_of_regs hregs _).trans hdown, (State.rd_of_regs hregs _).trans hevt, hport.trans hkind⟩
  · intro speed width rev htrain htest hfit
    exact ⟨_, if_pos (by simp [htest, hfit, show (s.port p).training = true from htrain]), s.linkUp_shown p speed width rev.toNat hfit⟩
  · intro hup hl1
    exact ⟨_, if_pos (by simp [s.flag_of_rd_one hup, s.flag_eq_false hl1]), State.rd_wr_same .., rfl, s.keepsRegs_wr _ (List.mem_singleton.mpr rfl)⟩
  · intro speed width hup hfit
    exact ⟨_, if_pos (by simp [s.flag_of_rd_one hup, hfit]), s.retrained_shown p hfit⟩
  · intro halive _
    have hexec : exec (.pfD3hotEntry p) s = .next (s.setPort p { s.port p with d3 := true }) := congrArg _ (if_pos halive)
    refine ⟨_, hexec, by rw [State.port_setPort_same], s.regs_setPort p _, s.mem_setPort p _, ?_⟩
    cases p <;> rfl
  · let s1 := s.setPort p { s.port p with d3 := false, held := [] }
    obtain ⟨hout, hport, hregs, hmem⟩ := State.foldl_emit p (byRank (s.port p).held) s1
    have hsame : s1.port p = { s.port p with d3 := false, held := [] } := s.port_setPort_same p _
    refine ⟨_, rfl, congrArg PortSt.d3 (hport.trans hsame), congrArg PortSt.held (hport.trans hsame), hout.trans ?_, hregs.trans (s.regs_setPort p _), hmem.trans (s.mem_setPort p _)⟩
    cases p <;> rfl

end Sys2Proof.Machine
end

section
/-! Molt passes and device keys that are derived again (R275, R276, R517). -/

namespace Sys2Proof.Machine

theorem length_condBlocks (c k : Nat) : (condBlocks c k).length = 32 * k := by
  induction k generalizing c with
  | zero => rfl
  | succ k ih =>
    rw [condBlocks, List.length_append, ih, conditioned, sha3, fit_length]
    omega

theorem State.length_delivered (s : State) (n : Nat) : (s.delivered n).length = n := by
  unfold State.delivered wordsFor
  rw [List.length_take, length_condBlocks]
  omega

/-- Two shares masked with one value still add up to the secret. -/
theorem xorBytes_mask {a b r : List Byte} {n : Nat} (ha : a.length = n) (hb : b.length = n) (hr : r.length = n) :
    xorBytes (xorBytes a r) (xorBytes b r) = xorBytes a b := by
  refine List.ext_getElem (by simp [xorBytes, ha, hb, hr]) fun i h1 h2 => ?_
  simp only [xorBytes, List.getElem_zipWith]
  rw [BitVec.xor_comm (b[i]'_), BitVec.xor_assoc, ← BitVec.xor_assoc (r[i]'_), BitVec.xor_self, BitVec.zero_xor]

theorem State.slotAt_setSlot_same (s : State) (p : Nat) (v : Option Slot) : (s.setSlot p v).slotAt p = v := tblGet_put_same ..

/-- A Molt pass over a sound slot. -/
theorem State.remask_shown (s : State) {p : Nat} {sl : Slot} (ha : sl.shareA.length = 128) (hb : sl.shareB.length = 128) : ∃ sl', (s.remask p sl).slotAt p = some sl' ∧
    sl'.secret = sl.secret ∧ sl'.failing p = 0 ∧ sl'.attr = sl.attr := by
  refine ⟨_, State.slotAt_setSlot_same .., ?_, by simp [Slot.failing], rfl⟩
  exact congrArg (List.take sl.attr.secretLen) (xorBytes_mask ha hb (s.length_delivered 128))

theorem State.remask_kept (s : State) (p : Nat) (sl : Slot) : (s.remask p sl).dsp = s.dsp ∧ (s.remask p sl).tmp = s.tmp ∧ (s.remask p sl).mem = s.mem ∧
    (s.remask p sl).rd R.KS_MOLT_PASSES = s.rd R.KS_MOLT_PASSES := by
  refine ⟨State.remask_keepsDsp rfl, State.remask_keepsTmp rfl, State.remask_keepsMem rfl, ?_⟩
  exact (State.rd_wr_other _ _ (by decide) : (({ s with ent := _, freeCtr := _ } : State).wr R.ENT_DRAWN_BYTES _).rd R.KS_MOLT_PASSES = _)

/-- The pass over a store with one sound slot. -/
theorem moltPass_sound {s : State} {p : Nat} {sl : Slot} (hzero : s.tmp.zeroing = false) (hslots : s.keys.slots = [(p, some sl)]) (hsound : sl.failing p = 0) :
    moltPass [] (s.keys.slots.map Prod.fst) s = (true, s.remask p sl) := by
  have hat : s.slotAt p = some sl := by
    unfold State.slotAt
    rw [hslots]
    simp [tblGet]
  have hmolt : s.moltSlot [] p = s.remask p sl := by
    unfold State.moltSlot
    rw [hat]
    exact if_pos hsound
  have htmp := (s.remask_kept p sl).2.1
  rw [hslots]
  show moltPass [] [p] s = _
  unfold moltPass
  dsimp only
  rw [hmolt, htmp, hzero]
  rfl

theorem State.calm_of {s t : State} (h : s.calm) (hdsp : t.dsp.inflight = s.dsp.inflight) (htmp : t.tmp = s.tmp) : t.calm :=
  ⟨hdsp.trans h.1, (congrArg Tmp.due htmp).trans h.2⟩

/-- The key of an owner is derived again. -/
theorem State.restoreKek_shown (s : State) {o p : Nat} {ow : Owner} (how : s.ownerAt o = some ow) : let t := s.restoreDevice (.kek o) p
    t.ownerAt o = some { ow with kekSlot := some p } ∧ t.rd R.KS_EVT_RESTORED = 1 ∧ t.keys.rederive = s.keys.rederive ∧ t.dsp = s.dsp := by
  let s1 := s.fillSlot p (ownerKek (s.derivedKey 2) o) { owner := o, secretLen := 32 } (.kek o)
  have hfill : s1.keys.owners = s.keys.owners ∧ s1.keys.rederive = s.keys.rederive ∧ s1.dsp = s.dsp := by
    unfold s1 fillSlot
    exact ⟨rfl, rfl, rfl⟩
  obtain ⟨howners, hrederive, hdsp⟩ := hfill
  have how1 : s1.ownerAt o = some ow := (congrArg (fun l => tblGet none l o) howners :).trans how
  intro t
  have ht : t = (s1.setOwner o (some { ow with kekSlot := some p })).setEvt R.KS_EVT_RESTORED := by
    show (match s1.ownerAt o with | some ow => s1.setOwner o (some { ow with kekSlot := some p }) | none => s1).setEvt R.KS_EVT_RESTORED = _
    rw [how1]
  rw [ht]
  exact ⟨(tblGet_put_same none s1.keys.owners o (some { ow with kekSlot := some p }) :), State.rd_setEvt_same _ rfl (by decide), hrederive, hdsp⟩

/-- A reserved slot's key is derived again. -/
theorem State.restoreReserved_shown (s : State) (n p : Nat) : let t := s.restoreDevice (.slot n) p
    tblGet none t.keys.reservedMap n = some p ∧ t.keys.rederive = s.keys.rederive ∧ t.dsp.inflight = s.dsp.inflight := by
  let s1 : State := { s with keys := { s.keys with reservedMap := tblPut none s.keys.reservedMap n (some p) } }
  have hfill (u : State) (k : Nat) (b : List Byte) : (u.fillDevice k b).keys.reservedMap = u.keys.reservedMap ∧ (u.fillDevice k b).keys.rederive = u.keys.rederive ∧
      (u.fillDevice k b).dsp = u.dsp := by
    unfold State.fillDevice
    split
    · exact ⟨rfl, rfl, rfl⟩
    · unfold State.fillSlot
      exact ⟨rfl, rfl, rfl⟩
  have hmap : tblGet none s1.keys.reservedMap n = some p := (tblGet_put_same none s.keys.reservedMap n (some p) :)
  unfold State.restoreDevice
  dsimp only
  split
  · obtain ⟨hres, hred, hdsp⟩ := hfill (s1.draw 32).2 4 (s1.draw 32).1
    exact ⟨(congrArg (fun l => tblGet none l n) hres :).trans hmap, hred, (congrArg Dsp.inflight hdsp :)⟩
  · obtain ⟨hres, hred, hdsp⟩ := hfill s1 n (s1.derivedKey n)
    exact ⟨(congrArg (fun l => tblGet none l n) hres :).trans hmap, hred, (congrArg Dsp.inflight hdsp :)⟩

theorem contains_filter_ne (key : DeviceKey) (l : List DeviceKey) : (l.filter (· != key)).contains key = false := by
  simp

/-- The state in which a key is derived again: it is no longer due. -/
def State.rederiving (s : State) (key : DeviceKey) : State := { s with keys := { s.keys with rederive := s.keys.rederive.filter (· != key) } }

section
variable {s : State} {key : DeviceKey} (hdue : s.keys.rederive.contains key = true) (hcalm : s.calm)
include hdue

theorem execDeviceKeyRederived_eq : exec (.deviceKeyRederived key) s = match (s.rederiving key).restoreSlot with
    | (some p, s) => .next (s.restoreDevice key p).pump
    | (none, s) => .next ({ s with keys := { s.keys with lost := key :: s.keys.lost } } : State).pump :=
  (if_pos hdue : execDeviceKeyRederived key s = _)

omit hdue in
/-- The search for a slot draws a free value at most. -/
theorem State.restoreSlot_kept : let s1 := (s.rederiving key).restoreSlot.2
    s1.keys = (s.rederiving key).keys ∧ s1.tmp = s.tmp ∧ s1.dsp = s.dsp ∧ s1.mem = s.mem :=
  ⟨State.restoreSlot_keepsKeys rfl, State.restoreSlot_keepsTmp rfl, State.restoreSlot_keepsDsp rfl, State.restoreSlot_keepsMem rfl⟩

include hcalm in
/-- A key that finds a slot. -/
theorem execDeviceKeyRederived_slot {p : Nat} (hslot : (s.rederiving key).restoreSlot.1 = some p)
    (hdsp : ((s.rederiving key).restoreSlot.2.restoreDevice key p).dsp.inflight = (s.rederiving key).restoreSlot.2.dsp.inflight) :
    exec (.deviceKeyRederived key) s = .next ((s.rederiving key).restoreSlot.2.restoreDevice key p) := by
  obtain ⟨-, htmp, hdsp1, -⟩ := State.restoreSlot_kept (s := s) (key := key)
  rw [execDeviceKeyRederived_eq hdue]
  rcases hx : (s.rederiving key).restoreSlot with ⟨op, s1⟩
  rw [hx] at hslot hdsp htmp hdsp1
  dsimp only at hslot hdsp htmp hdsp1 ⊢
  subst hslot
  exact congrArg Host.Outcome.next (State.pump_of_calm (State.calm_of hcalm (hdsp.trans (congrArg Dsp.inflight hdsp1)) ((State.restoreDevice_keepsTmp rfl).trans htmp)))

include hcalm in
/-- A key that finds no slot is lost. -/
theorem execDeviceKeyRederived_lost (hnone : (s.rederiving key).restoreSlot.1 = none) :
    ∃ t, exec (.deviceKeyRederived key) s = .next t ∧ t.keys.lost = key :: s.keys.lost ∧ t.mem = s.mem := by
  obtain ⟨hkeys, htmp, hdsp, hmem⟩ := State.restoreSlot_kept (s := s) (key := key)
  rw [execDeviceKeyRederived_eq hdue]
  rcases hx : (s.rederiving key).restoreSlot with ⟨op, s1⟩
  rw [hx] at hnone hkeys htmp hdsp hmem
  dsimp only at hnone hkeys htmp hdsp hmem ⊢
  subst hnone
  have hcalm1 : State.calm { s1 with keys := { s1.keys with lost := key :: s1.keys.lost } } := State.calm_of hcalm (congrArg Dsp.inflight hdsp) htmp
  exact ⟨_, congrArg Host.Outcome.next (State.pump_of_calm hcalm1), congrArg (key :: ·) (congrArg Keys.lost hkeys :), hmem⟩

end

/-- Settles O50. -/
theorem keyStoreRows : Obligations.KeyStoreRows := by
  unfold Obligations.KeyStoreRows
  intro s hcalm
  refine ⟨fun late p sl hdrawn hready hzero hslots hsound ha hb => ?_, fun key hdue => ?_⟩
  · obtain ⟨sl', hat, hsecret, hsound', hattr⟩ := s.remask_shown (p := p) ha hb
    obtain ⟨hdsp, htmp, hmem, hpasses⟩ := s.remask_kept p sl
    let s1 := s.remask p sl
    let s2 := if late then s1.setEvt R.KS_EVT_MOLT_LATE else s1
    let t := (s2.wrapAdd R.KS_MOLT_PASSES 1).wr R.KS_STATUS_MOLT_RUN late.toNat
    have hs2 : s2.keys = s1.keys ∧ s2.dsp = s1.dsp ∧ s2.tmp = s1.tmp ∧ s2.mem = s1.mem ∧ s2.rd R.KS_MOLT_PASSES = s1.rd R.KS_MOLT_PASSES := by
      unfold s2
      split
      · exact ⟨rfl, rfl, rfl, rfl, s1.rd_setEvt_other 0 (by decide) (by decide)⟩
      · exact ⟨rfl, rfl, rfl, rfl, rfl⟩
    obtain ⟨hkeys2, hdsp2, htmp2, hmem2, hpasses2⟩ := hs2
    have hcalm2 : t.calm := State.calm_of (s := s) hcalm (congrArg Dsp.inflight (hdsp2.trans hdsp)) (htmp2.trans htmp)
    have hexec : exec (.moltPeriod [] late) s = .next t := by
      refine (if_pos (by simp [hdrawn, s.flag_of_rd_one hready, hzero]) : execMoltPeriod [] late s = _).trans ?_
      rw [moltPass_sound hzero hslots hsound]
      exact congrArg _ (State.pump_of_calm hcalm2)
    refine ⟨t, sl', hexec, (congrArg (fun k : Keys => tblGet none k.slots p) hkeys2 :).trans hat, hsecret, hsound', hattr, ?_, ?_, hmem2.trans hmem⟩
    · rw [← hpasses, ← hpasses2]
      exact (State.rd_wr_other _ _ (by decide)).trans (State.rd_wr_same ..)
    · refine (State.rd_wr_same ..).trans ?_
      cases late <;> rfl
  · intro x
    refine ⟨fun hnone => ?_, fun o ow p hkey hslot how => ?_, fun n p hkey hslot => ?_⟩
    · exact execDeviceKeyRederived_lost hdue hcalm hnone
    · subst hkey
      obtain ⟨hkeys, -, -, hmem⟩ := State.restoreSlot_kept (s := s) (key := .kek o)
      have how1 : (s.rederiving (.kek o)).restoreSlot.2.ownerAt o = some ow := (congrArg (fun k : Keys => tblGet none k.owners o) hkeys :).trans how
      obtain ⟨howner, hevt, hred, hdsp⟩ := State.restoreKek_shown _ (p := p) how1
      refine ⟨_, execDeviceKeyRederived_slot hdue hcalm hslot (congrArg Dsp.inflight hdsp), howner, hevt, ?_, (State.restoreDevice_keepsMem rfl).trans hmem⟩
      rw [hred, hkeys]
      exact contains_filter_ne _ _
    · subst hkey
      obtain ⟨hkeys, -, -, hmem⟩ := State.restoreSlot_kept (s := s) (key := .slot n)
      obtain ⟨hmap, hred, hdsp⟩ := (s.rederiving (.slot n)).restoreSlot.2.restoreReserved_shown n p
      refine ⟨_, execDeviceKeyRederived_slot hdue hcalm hslot hdsp, hmap, ?_, (State.restoreDevice_keepsMem rfl).trans hmem⟩
      rw [hred, hkeys]
      exact contains_filter_ne _ _

end Sys2Proof.Machine
end

section
/-! The units of the engine pools: capacity, and what a fence, a reassignment and a rotation leave (R328, R348 to R351). -/

namespace Sys2Proof.Machine

/-- The register fields in which the capacity shows. -/
def capacityFields : List Fld :=
  [R.GLB_CAPACITY_LATTICE, R.GLB_CAPACITY_HASH, R.GLB_CAPACITY_BIGNUM, R.GLB_CAPACITY_CODE, R.GLB_CAPACITY_SYM, R.GLB_CAPACITY_ENTROPY, R.GLB_CAPACITY_CORES,
    R.GLB_CAPACITY_LAT_SPARE, R.LAT_ROTATE_SERVING, R.HSH_ROTATE_SERVING, R.BNE_ROTATE_SERVING, R.CBE_ROTATE_SERVING, R.SYM_ROTATE_SERVING]

/-- The event of a capacity that changed, for each of the instances of its register. -/
def capacityEvents : List Fld :=
  [R.GLB_EVT_CAPACITY.inst 0, (R.GLB_EVT_CAPACITY.inst 0).seq, R.GLB_EVT_CAPACITY.inst 1, (R.GLB_EVT_CAPACITY.inst 1).seq,
    R.GLB_EVT_CAPACITY.inst 2, (R.GLB_EVT_CAPACITY.inst 2).seq, R.GLB_EVT_CAPACITY.inst 3, (R.GLB_EVT_CAPACITY.inst 3).seq]

theorem State.writeCapacity_keepsRegs (s : State) : s.keepsRegs s.writeCapacity capacityFields := by
  intro f h
  simp only [capacityFields, List.map_cons, List.map_nil, List.mem_cons, List.not_mem_nil, or_false, not_or] at h
  obtain ⟨h1, h2, h3, h4, h5, h6, h7, h8, h9, h10, h11, h12, h13⟩ := h
  unfold State.writeCapacity
  rw [State.rd_wr_other _ _ h13, State.rd_wr_other _ _ h12, State.rd_wr_other _ _ h11, State.rd_wr_other _ _ h10, State.rd_wr_other _ _ h9, State.rd_wr_other _ _ h8,
    State.rd_wr_other _ _ h7, State.rd_wr_other _ _ h6, State.rd_wr_other _ _ h5, State.rd_wr_other _ _ h4, State.rd_wr_other _ _ h3, State.rd_wr_other _ _ h2,
    State.rd_wr_other _ _ h1]

theorem State.writeCapacity_unalarmed (s : State) : s.writeCapacity.unalarmed = s.unalarmed := by
  unfold State.writeCapacity
  simp only [State.wr_unalarmed]

theorem State.setEvtAll_capacity (s : State) : s.keepsRegs (s.setEvtAll R.GLB_EVT_CAPACITY) capacityEvents ∧ (s.setEvtAll R.GLB_EVT_CAPACITY).unalarmed = s.unalarmed := by
  unfold State.setEvtAll
  refine ⟨?_, (State.setEvt_unalarmed ..).trans ((State.setEvt_unalarmed ..).trans ((State.setEvt_unalarmed ..).trans (State.setEvt_unalarmed ..)))⟩
  have hevt (u : State) (k : Fin 4) : u.keepsRegs (u.setEvt (R.GLB_EVT_CAPACITY.inst k.val)) capacityEvents :=
    u.keepsRegs_setEvt 0 (by revert k; decide) (by revert k; decide)
  exact (((hevt _ 0).trans (hevt _ 1) (List.Subset.refl _)).trans (hevt _ 2) (List.Subset.refl _)).trans (hevt _ 3) (List.Subset.refl _)

/-- The register fields in which a change of the capacity shows, its alarm included. -/
def recapacityFields : List Fld := capacityFields ++ (capacityEvents ++ alarmFields)

theorem State.respCode_of_rd {s t : State} {src : Nat} (h : t.rd (R.TMP_RESP_CODE.ix (src / 10)) = s.rd (R.TMP_RESP_CODE.ix (src / 10))) : t.respCode src = s.respCode src :=
  congrArg (bits · (3 * (src % 10)) 3) h

/-- A change of the capacity whose alarm has a response code below 2. -/
theorem State.recapacity_minor {s : State} (hcode : s.respCode 20 ≤ 1) (before : List Nat) :
    s.keepsRegs (s.recapacity before) recapacityFields ∧ (s.recapacity before).unalarmed = s.unalarmed := by
  let s1 := s.writeCapacity.setEvtAll R.GLB_EVT_CAPACITY
  obtain ⟨hkeep, hun⟩ := s.writeCapacity.setEvtAll_capacity
  have hkeep1 : s.keepsRegs s1 recapacityFields :=
    (s.writeCapacity_keepsRegs.mono (List.subset_append_left _ _)).trans (hkeep.mono fun _ h => List.mem_append_right _ (List.mem_append_left _ h)) (List.Subset.refl _)
  have hun1 : s1.unalarmed = s.unalarmed := hun.trans s.writeCapacity_unalarmed
  have hcode1 : s1.respCode 20 ≤ 1 := by
    rw [State.respCode_of_rd (hkeep1 _ (by decide))]
    exact hcode
  have halarm := s1.raiseAlarm_shown hcode1 false
  have hkeep2 := s1.raiseAlarm_keepsRegs (by decide) hcode1 false
  have hsub : alarmFields ⊆ recapacityFields := fun _ h => List.mem_append_right _ (List.mem_append_right _ h)
  have hrec : recordFields ⊆ recapacityFields := fun _ h => hsub (List.mem_append_right _ (List.mem_append_right _ h))
  unfold State.recapacity
  dsimp only
  rw [show s.writeCapacity.setEvtAll R.GLB_EVT_CAPACITY = s1 from rfl]
  clear_value s1
  split
  · exact ⟨(hkeep1.trans (hkeep2.mono hsub) (List.Subset.refl _)).trans ((State.decideRecord_keepsRegs _ _ _ _ _).mono hrec) (List.Subset.refl _),
      (State.unalarmed_of_unrecorded (State.decideRecord_unrecorded ..)).trans (halarm.1.trans hun1)⟩
  · exact ⟨hkeep1, hun1⟩

/-- What such a change leaves. -/
theorem State.recapacity_kept {s : State} (hcode : s.respCode 20 ≤ 1) (before : List Nat) : (s.recapacity before).mem = s.mem ∧ (s.recapacity before).dsp = s.dsp ∧
    (s.recapacity before).tmp.due = s.tmp.due ∧ (s.recapacity before).eng = s.eng ∧ (s.recapacity before).ent = s.ent ∧ (s.recapacity before).boot = s.boot := by
  obtain ⟨-, hun⟩ := State.recapacity_minor hcode before
  generalize s.recapacity before = t at hun ⊢
  exact ⟨(congrArg State.mem hun :), (congrArg State.dsp hun :), (congrArg (fun s : State => s.tmp.due) hun :), (congrArg State.eng hun :), (congrArg State.ent hun :),
    (congrArg State.boot hun :)⟩

end Sys2Proof.Machine
end

section
/-! Fences, self-tests and rotation of the units of an engine pool (R328, R348 to R351). -/

namespace Sys2Proof.Machine

/-- The first word of a pool. -/
def poolBase : Pool → Nat
  | .lattice => 0xD0000
  | .hash => 0xE0000
  | .bignum => 0xF0000
  | .code => 0xF4000
  | .sym => 0xF8000

theorem poolBase_ge (p : Pool) : 0xD0000 ≤ poolBase p := by cases p <;> decide

/-- Where the fields of a unit lie. -/
structure UnitKeys (p : Pool) (u : Nat) : Prop where
  state : (unitState p u).key = (poolBase p + 4 * u) * 64
  selected : (unitSelected p u).key = (poolBase p + 4 * u) * 64 + 3 ∨ (unitSelected p u).key = (poolBase p + 4 * u) * 64 + 9
  cause : (unitCause p u).key = (poolBase p + 4 * u) * 64 + 16 ∨ (unitCause p u).key = (poolBase p + 4 * u) * 64 + 10
  done : (unitEvt p u).key = (poolBase p + 0x80 + 4 * u) * 64
  fault : (unitEvtFault p u).key = (poolBase p + 0x80 + 4 * u) * 64 + 1
  fenced : (unitEvtFenced p u).key = (poolBase p + 0x80 + 4 * u) * 64 + 2
  doneSeq : (unitEvt p u).seq.key = (poolBase p + 0x80 + 4 * u) * 64 + 16
  faultSeq : (unitEvtFault p u).seq.key = (poolBase p + 0x80 + 4 * u) * 64 + 16
  fencedSeq : (unitEvtFenced p u).seq.key = (poolBase p + 0x80 + 4 * u) * 64 + 16

theorem unitKeys (p : Pool) (u : Nat) : UnitKeys p u := by
  cases p <;> (constructor <;> simp only [Fld.key, Fld.seq, unitState, unitSelected, unitCause, unitEvtFault, unitEvtFenced, unitEvt, Fld.ix, poolBase,
    R.LAT_TILE_STATE, R.LAT_TILE_SELECTED, R.LAT_TILE_CAUSE, R.LAT_UEVT_DONE, R.HSH_TILE_STATE, R.HSH_TILE_SELECTED, R.HSH_TILE_CAUSE, R.HSH_UEVT_DONE, R.BNE_UNIT_STATE,
    R.BNE_UNIT_SELECTED, R.BNE_UNIT_CAUSE, R.BNE_UEVT_DONE, R.CBE_ENGINE_STATE, R.CBE_ENGINE_SELECTED, R.CBE_ENGINE_CAUSE, R.CBE_UEVT_DONE, R.SYM_LANE_STATE, R.SYM_LANE_SELECTED,
    R.SYM_LANE_CAUSE, R.SYM_UEVT_DONE] <;> omega)

/-- Where the fields of a pool lie. -/
structure PoolKeys (p : Pool) : Prop where
  testing : (poolTesting p).key = (poolBase p + 0x108) * 64
  suspended : (poolBase p + 0x108) * 64 < (poolSuspended p).key ∧ (poolSuspended p).key < (poolBase p + 0x108) * 64 + 16
  passes : (poolPasses p).key = (poolBase p + 0x108) * 64 + 16
  rotate : (poolEvtRotate p).key = (poolBase p + 0x100) * 64
  rotateSeq : (poolEvtRotate p).seq.key = (poolBase p + 0x100) * 64 + 16

theorem poolKeys (p : Pool) : PoolKeys p := by cases p <;> (constructor <;> decide)

theorem spareKeys : R.LAT_ROTATE_SPARE.key = (0xD0000 + 0x108) * 64 + 5 ∧ R.LAT_EVT_SPARE_OUT.key = (0xD0000 + 0x100) * 64 + 2 ∧
    R.LAT_EVT_SPARE_OUT.seq.key = (0xD0000 + 0x100) * 64 + 16 := by decide

/-- A register field that a reassignment in a pool leaves while its unit `u` is fenced. -/
structure Fld.Beside (f : Fld) (p : Pool) (u : Nat) : Prop where
  suspended : f.key ≠ (poolSuspended p).key
  testing : f.key ≠ (poolTesting p).key
  spare : f.key ≠ R.LAT_ROTATE_SPARE.key
  out : f.key ≠ R.LAT_EVT_SPARE_OUT.key
  outSeq : f.key ≠ R.LAT_EVT_SPARE_OUT.seq.key
  selected : ∀ v, f.key ≠ (unitSelected p v).key
  state : ∀ v, v ≠ u → f.key ≠ (unitState p v).key

/-- The fields of the unit itself. -/
theorem unitFields_beside (p : Pool) {u : Nat} (hu : u < 32) {f : Fld} (hf : f = unitState p u ∨ f = unitCause p u ∨ f = unitEvtFault p u ∨ f = unitEvtFenced p u) : f.Beside p u := by
  have hk := unitKeys p u
  have hpool := poolKeys p
  have hout := spareKeys
  have hbase : poolBase p = 0xD0000 ∨ 0xD1000 ≤ poolBase p := by cases p <;> decide
  have hkey : f.key = (poolBase p + 4 * u) * 64 ∨ f.key = (poolBase p + 4 * u) * 64 + 16 ∨ f.key = (poolBase p + 4 * u) * 64 + 10 ∨
      f.key = (poolBase p + 0x80 + 4 * u) * 64 + 1 ∨ f.key = (poolBase p + 0x80 + 4 * u) * 64 + 2 := by
    obtain ⟨h1, h2, h3, h4, h5, h6, -, -, -⟩ := hk
    rcases hf with rfl | rfl | rfl | rfl <;> omega
  obtain ⟨htest, hsusp, -, -, -⟩ := hpool
  refine ⟨by omega, by omega, by omega, by omega, by omega, fun v => ?_, fun v hv => ?_⟩
  · have := (unitKeys p v).selected
    omega
  · have := (unitKeys p v).state
    omega

/-- A field below the engines' registers. -/
theorem lowField_beside {f : Fld} (hf : f.key < 0xD0000 * 64) (p : Pool) (u : Nat) : f.Beside p u := by
  have hbase := poolBase_ge p
  obtain ⟨htest, hsusp, -, -, -⟩ := poolKeys p
  have hout := spareKeys
  refine ⟨by omega, by omega, by omega, by omega, by omega, fun v => ?_, fun v _ => ?_⟩
  · have := (unitKeys p v).selected
    omega
  · have := (unitKeys p v).state
    omega

namespace State
variable {s : State} {p : Pool} {u : Nat} {f : Fld}

theorem healthy_of_lastUnit {v : Nat} (h : s.lastUnit p = some v) : s.rd (unitState p v) ≠ 5 := by
  have hmem : v ∈ s.healthy p := by
    unfold lastUnit at h
    split at h
    next hl =>
      cases h
      rw [hl]
      exact List.mem_singleton.mpr rfl
    · cases h
  simpa [healthy] using (List.mem_filter.mp hmem).2

theorem spareHeld_state (h : s.spareHeld = true) : s.rd (R.LAT_TILE_STATE.ix (s.rd R.LAT_ROTATE_SPARE)) = 4 := by
  simp only [spareHeld, Bool.and_eq_true, beq_iff_eq] at h
  exact h.2

theorem rd_selectNext (h : ∀ v, f.key ≠ (unitSelected p v).key) : (s.selectNext p).rd f = s.rd f := by
  unfold selectNext
  dsimp only
  split
  · exact rd_wr_other _ _ (h _)
  · rfl

/-- A reassignment leaves the fields of the unit that is fenced. -/
theorem rd_reassign (hf : f.Beside p u) (hfenced : s.rd (unitState p u) = 5) (a b c : Bool) : (s.reassign p a b c).rd f = s.rd f := by
  unfold reassign
  dsimp only
  split
  next v hlast =>
    have hv : v ≠ u := fun h => healthy_of_lastUnit hlast (h ▸ hfenced)
    have hbase : ((s.wr (poolSuspended p) 1).wr (unitSelected p v) 0).rd f = s.rd f := (rd_wr_other _ _ (hf.selected v)).trans (rd_wr_other _ _ hf.suspended)
    split
    next hlat =>
      obtain ⟨rfl, -⟩ := hlat
      exact (rd_setEvt_other _ _ hf.out hf.outSeq).trans ((rd_wr_other _ _ (hf.state v hv)).trans ((rd_wr_other _ _ hf.spare).trans hbase))
    · split
      · exact (rd_wr_other _ _ (hf.state v hv)).trans ((rd_wr_other _ _ hf.testing).trans hbase)
      · exact hbase
  · split
    · exact rd_setEvt_other _ _ hf.out hf.outSeq
    · split
      next hlat =>
        obtain ⟨rfl, hheld, -⟩ := hlat
        have hspare : s.rd R.LAT_ROTATE_SPARE ≠ u := by
          intro h
          have hstate := spareHeld_state hheld
          rw [h] at hstate
          exact absurd (hstate.symm.trans hfenced) (by decide)
        exact ((rd_wr_other _ _ (hf.state _ hspare)).trans (rd_wr_other _ _ hf.spare) :
          ((s.wr R.LAT_ROTATE_SPARE 31).wr (R.LAT_TILE_STATE.ix (s.rd R.LAT_ROTATE_SPARE)) 3).rd f = s.rd f)
      · split
        · exact rd_selectNext hf.selected
        · rfl

/-- The fields that a change of the capacity leaves. -/
theorem rd_recapacity (hcode : s.respCode 20 ≤ 1) (before : List Nat) (hlow : 0xD0000 * 64 ≤ f.key) (hhigh : f.key < 0x1000000 * 64)
    (h : f.key ∉ [R.LAT_ROTATE_SERVING, R.HSH_ROTATE_SERVING, R.BNE_ROTATE_SERVING, R.CBE_ROTATE_SERVING, R.SYM_ROTATE_SERVING].map Fld.key) :
    (s.recapacity before).rd f = s.rd f := by
  have hkeys : ∀ k ∈ recapacityFields.map Fld.key, k < 0xD0000 * 64 ∨ 0x1000000 * 64 ≤ k ∨
      k ∈ [R.LAT_ROTATE_SERVING, R.HSH_ROTATE_SERVING, R.BNE_ROTATE_SERVING, R.CBE_ROTATE_SERVING, R.SYM_ROTATE_SERVING].map Fld.key := by decide +kernel
  refine (recapacity_minor hcode before).1 f fun hm => ?_
  rcases hkeys _ hm with hk | hk | hk
  · omega
  · omega
  · exact h hk

/-- No field below the registers of the engines differs. -/
def keepsLow (s t : State) : Prop := ∀ f : Fld, f.key < 0xD0000 * 64 → t.rd f = s.rd f

theorem keepsLow.trans {s t u : State} (h : s.keepsLow t) (h' : t.keepsLow u) : s.keepsLow u := fun f hf => (h' f hf).trans (h f hf)

theorem keepsLow_wr (s : State) {g : Fld} (v : Nat) (h : 0xD0000 * 64 ≤ g.key) : s.keepsLow (s.wr g v) := fun _ hf => rd_wr_other _ _ (by omega)

theorem keepsLow_setEvt (s : State) {g : Fld} (b : Nat) (h : 0xD0000 * 64 ≤ g.key ∧ 0xD0000 * 64 ≤ g.seq.key) : s.keepsLow (s.setEvt g b) := fun _ hf =>
  s.rd_setEvt_other b (by omega) (by omega)

theorem keepsLow_of_regs {s t : State} (h : t.regs = s.regs) : s.keepsLow t := fun f _ => rd_of_regs h f

theorem keepsLow_foldl {α : Type} (g : State → α → State) (h : ∀ (s : State) (a : α), s.keepsLow (g s a)) (l : List α) : ∀ s : State, s.keepsLow (l.foldl g s) := by
  induction l with
  | nil => exact fun s _ _ => rfl
  | cons a l ih => exact fun s => (h s a).trans (ih _)

theorem respCode_of_keepsLow {s t : State} (h : s.keepsLow t) : t.respCode 20 = s.respCode 20 := respCode_of_rd (h _ (by decide))

theorem captureFault_keepsLow (s : State) (p : Pool) (u : Nat) (b : Bool) (x : UnitFault) : s.keepsLow (s.captureFault p u b x) := by
  unfold captureFault
  split
  · exact fun _ _ => rfl
  · cases p with
    | lattice => exact ((((s.keepsLow_wr _ (by decide)).trans (keepsLow_wr _ _ (by decide))).trans (keepsLow_wr _ _ (by decide))).trans (keepsLow_wr _ _ (by decide))).trans (keepsLow_wr _ _ (by decide))
    | hash => exact ((((s.keepsLow_wr _ (by decide)).trans (keepsLow_wr _ _ (by decide))).trans (keepsLow_wr _ _ (by decide))).trans (keepsLow_wr _ _ (by decide))).trans (keepsLow_wr _ _ (by decide))
    | bignum => exact (((s.keepsLow_wr _ (by decide)).trans (keepsLow_wr _ _ (by decide))).trans (keepsLow_wr _ _ (by decide))).trans (keepsLow_wr _ _ (by decide))
    | code => exact (((s.keepsLow_wr _ (by decide)).trans (keepsLow_wr _ _ (by decide))).trans (keepsLow_wr _ _ (by decide))).trans (keepsLow_wr _ _ (by decide))
    | sym => exact (((s.keepsLow_wr _ (by decide)).trans (keepsLow_wr _ _ (by decide))).trans (keepsLow_wr _ _ (by decide))).trans (keepsLow_wr _ _ (by decide))

/-- A field of an array above the engines' first word lies there. -/
theorem le_key_ix {g : Fld} (h : 0xD0000 ≤ g.off) (i : Nat) : 0xD0000 * 64 ≤ (g.ix i).key := by
  simp only [Fld.key, Fld.ix]
  omega

theorem endResidency_keepsLow (s : State) (p : Pool) (u : Nat) : s.keepsLow (s.endResidency p u) := by
  cases p with
  | code =>
    let s4 := (((s.wr (R.CBE_ENGINE_PK_RES.ix u) 0).wr (R.CBE_ENGINE_SK_RES.ix u) 0).wr (R.CBE_PK_RES_HANDLE.ix u) 0).wr (R.CBE_SK_RES_HANDLE.ix u) 0
    have h4 : s.keepsLow s4 := (((s.keepsLow_wr _ (le_key_ix (by decide) u)).trans (keepsLow_wr _ _ (le_key_ix (by decide) u))).trans (keepsLow_wr _ _ (le_key_ix (by decide) u))).trans
      (keepsLow_wr _ _ (le_key_ix (by decide) u))
    exact h4.trans (keepsLow_of_regs (t := s.endResidency .code u) rfl)
  | lattice => exact fun _ _ => rfl
  | hash => exact fun _ _ => rfl
  | bignum => exact fun _ _ => rfl
  | sym => exact fun _ _ => rfl

theorem forgetOwner_keepsLow (s : State) (p : Pool) (u : Nat) : s.keepsLow (s.forgetOwner p u) := by
  cases p with
  | hash => exact keepsLow_foldl _ (fun s l => s.keepsLow_wr _ (le_key_ix (g := R.HSH_LANE_LAST_OWNER) (by decide) _)) _ s
  | lattice => exact s.keepsLow_wr _ (le_key_ix (by decide) u)
  | bignum => exact s.keepsLow_wr _ (le_key_ix (by decide) u)
  | code => exact s.keepsLow_wr _ (le_key_ix (by decide) u)
  | sym => exact s.keepsLow_wr _ (le_key_ix (by decide) u)

theorem unhold_keepsLow (s : State) (id : Nat) : s.keepsLow (s.unhold id) := by
  refine keepsLow_foldl _ (fun s e => ?_) _ s
  exact (keepsLow_of_regs (t := { s with eng := { s.eng with heldFor := tblPut 0 s.eng.heldFor e.1 0 } }) rfl).trans
    (keepsLow_wr _ _ (le_key_ix (g := R.HSH_TILE_HELD) (by decide) _))

theorem le_unitKeys (p : Pool) (u : Nat) : 0xD0000 * 64 ≤ (unitState p u).key ∧ 0xD0000 * 64 ≤ (unitCause p u).key ∧ 0xD0000 * 64 ≤ (unitSelected p u).key ∧
    (0xD0000 * 64 ≤ (unitEvtFault p u).key ∧ 0xD0000 * 64 ≤ (unitEvtFault p u).seq.key) ∧ (0xD0000 * 64 ≤ (unitEvtFenced p u).key ∧ 0xD0000 * 64 ≤ (unitEvtFenced p u).seq.key) := by
  have hbase := poolBase_ge p
  obtain ⟨h1, h2, h3, h4, h5, h6, h7, h8, h9⟩ := unitKeys p u
  omega

/-- A unit that is fenced. -/
theorem markFenced_shown (s : State) (p : Pool) (u : Nat) (b : Bool) (x : UnitFault) (hx : x.cause < 16) : let t := s.markFenced p u b x
    t.rd (unitState p u) = 5 ∧ t.rd (unitCause p u) = x.cause ∧ t.rd (unitEvtFault p u) = 1 ∧ t.rd (unitEvtFenced p u) = 1 ∧ s.keepsLow t := by
  let s1 := ((s.captureFault p u b x).endResidency p u).forgetOwner p u
  let s2 := if p = .hash ∧ tblGet 0 s1.eng.heldFor u ≠ 0 then s1.unhold (tblGet 0 s1.eng.heldFor u - 1) else s1
  let s3 := ((s2.wr (unitState p u) 5).wr (unitCause p u) x.cause).wr (unitSelected p u) 0
  have hlow2 : s.keepsLow s2 := by
    have h1 : s.keepsLow s1 := ((s.captureFault_keepsLow p u b x).trans (endResidency_keepsLow _ p u)).trans (forgetOwner_keepsLow _ p u)
    unfold s2
    split
    · exact h1.trans (unhold_keepsLow _ _)
    · exact h1
  obtain ⟨hk1, hk2, hk3, hk4, hk5, hk6, hk7, hk8, hk9⟩ := unitKeys p u
  obtain ⟨hle1, hle2, hle3, hle4, hle5⟩ := le_unitKeys p u
  have hlow3 : s.keepsLow s3 := ((hlow2.trans (keepsLow_wr _ _ hle1)).trans (keepsLow_wr _ _ hle2)).trans (keepsLow_wr _ _ hle3)
  have hstate3 : s3.rd (unitState p u) = 5 := by
    unfold s3
    rw [rd_wr_other _ _ (by omega), rd_wr_other _ _ (by omega), rd_wr_same]
    cases p <;> rfl
  have hcause3 : s3.rd (unitCause p u) = x.cause := by
    unfold s3
    rw [rd_wr_other _ _ (by omega), rd_wr_same]
    cases p <;> exact Nat.mod_eq_of_lt hx
  let s4 : State := { s3 with eng := { s3.eng with
    afterClear := tblPut 0 s3.eng.afterClear (unitKey p u) 6,
    passed := s3.eng.passed.filter (· != unitKey p u), returning := s3.eng.returning.filter (· != unitKey p u) } }
  intro t
  have ht : t = (s4.setEvt (unitEvtFault p u)).setEvt (unitEvtFenced p u) := rfl
  have hevt {g : Fld} (h : g.key ≠ (unitEvtFenced p u).key ∧ g.key ≠ (unitEvtFenced p u).seq.key) : t.rd g = (s4.setEvt (unitEvtFault p u)).rd g := by
    rw [ht]
    exact rd_setEvt_other _ _ h.1 h.2
  have hwidth : (unitEvtFault p u).width = 1 ∧ (unitEvtFenced p u).width = 1 := by cases p <;> exact ⟨rfl, rfl⟩
  refine ⟨?_, ?_, ?_, ?_, ?_⟩
  · rw [hevt (by omega), rd_setEvt_other _ _ (by omega) (by omega)]
    exact hstate3
  · rw [hevt (by omega), rd_setEvt_other _ _ (by omega) (by omega)]
    exact hcause3
  · rw [hevt (by omega)]
    exact rd_setEvt_same _ hwidth.1 (by omega)
  · rw [ht]
    exact rd_setEvt_same _ hwidth.2 (by omega)
  · rw [ht]
    exact ((hlow3.trans (keepsLow_of_regs (t := s4) rfl)).trans (keepsLow_setEvt _ _ hle4)).trans (keepsLow_setEvt _ _ hle5)

/-- The fields of a fenced unit are none of the capacity's. -/
theorem rd_recapacity_unit (hu : u < 32) (hcode : s.respCode 20 ≤ 1) (before : List Nat)
    (hf : f = unitState p u ∨ f = unitCause p u ∨ f = unitEvtFault p u ∨ f = unitEvtFenced p u) : (s.recapacity before).rd f = s.rd f := by
  have hk := unitKeys p u
  have hbase : poolBase p = 0xD0000 ∨ poolBase p = 0xE0000 ∨ poolBase p = 0xF0000 ∨ poolBase p = 0xF4000 ∨ poolBase p = 0xF8000 := by cases p <;> decide
  have hkey : f.key < (poolBase p + 0x100) * 64 ∧ poolBase p * 64 ≤ f.key := by
    obtain ⟨h1, h2, h3, h4, h5, h6, -, -, -⟩ := hk
    rcases hf with rfl | rfl | rfl | rfl <;> omega
  have hserving : [R.LAT_ROTATE_SERVING, R.HSH_ROTATE_SERVING, R.BNE_ROTATE_SERVING, R.CBE_ROTATE_SERVING, R.SYM_ROTATE_SERVING].map Fld.key =
      [(0xD0000 + 0x108) * 64 + 10, (0xE0000 + 0x108) * 64 + 4, (0xF0000 + 0x108) * 64 + 3, (0xF4000 + 0x108) * 64 + 2, (0xF8000 + 0x108) * 64 + 4] := by decide
  refine rd_recapacity hcode before (by omega) (by omega) ?_
  rw [hserving]
  simp only [List.mem_cons, List.not_mem_nil, or_false]
  omega

/-- Two registers that may be written. -/
theorem ite_wr_kept (s : State) (a b : Bool) (f g : Fld) (v w : Nat) : let s1 := if a then s.wr f v else s
    let s2 := if b then s1.wr g w else s1
    s2.mem = s.mem ∧ s2.dsp = s.dsp ∧ s2.tmp = s.tmp := by
  cases a <;> cases b <;> exact ⟨rfl, rfl, rfl⟩

/-- What the fence of a unit leaves, once its capacity alarm has a response code below 2. -/
theorem fenceUnit_shown (hu : u < 32) (hcode : s.respCode 20 ≤ 1) (b : Bool) (x : UnitFault) (hx : x.cause < 16) : let t := s.fenceUnit p u b x
    t.rd (unitState p u) = 5 ∧ t.rd (unitCause p u) = x.cause ∧ t.rd (unitEvtFault p u) = 1 ∧ t.rd (unitEvtFenced p u) = 1 ∧ t.mem = s.mem ∧ t.dsp = s.dsp ∧
      t.tmp.due = s.tmp.due := by
  obtain ⟨hstate, hcause, hfault, hfenced, hlow⟩ := s.markFenced_shown p u b x hx
  let s1 := s.markFenced p u b x
  let s2 := if s1.isTesting p u then s1.wr (poolTesting p) (noUnit p) else s1
  let s3 := if s.isSpare p u then s2.wr R.LAT_ROTATE_SPARE 31 else s2
  let s4 := s3.reassign p (s.isTesting p u || s.flag (unitSelected p u)) (s.isSpare p u) (s.inService p u)
  have hrd3 {f : Fld} (hf : f.Beside p u) : s3.rd f = s1.rd f := by
    have h2 : s2.rd f = s1.rd f := by
      unfold s2
      split
      · exact rd_wr_other _ _ hf.testing
      · rfl
    unfold s3
    split
    · exact (rd_wr_other _ _ hf.spare).trans h2
    · exact h2
  have hstate3 : s3.rd (unitState p u) = 5 := (hrd3 (unitFields_beside p hu (.inl rfl))).trans hstate
  have hrd4 {f : Fld} (hf : f.Beside p u) : s4.rd f = s1.rd f := (rd_reassign hf hstate3 _ _ _).trans (hrd3 hf)
  have hcode4 : s4.respCode 20 ≤ 1 := by
    rw [respCode_of_keepsLow (s := s1) fun f hf => hrd4 (lowField_beside hf p u), respCode_of_keepsLow hlow]
    exact hcode
  have hother : s4.mem = s.mem ∧ s4.dsp = s.dsp ∧ s4.tmp = s.tmp := by
    have h3 : s3.mem = s1.mem ∧ s3.dsp = s1.dsp ∧ s3.tmp = s1.tmp := s1.ite_wr_kept _ _ _ _ _ _
    exact ⟨(reassign_keepsMem rfl).trans (h3.1.trans (markFenced_keepsMem rfl)), (reassign_keepsDsp rfl).trans (h3.2.1.trans (markFenced_keepsDsp rfl)),
      (reassign_keepsTmp rfl).trans (h3.2.2.trans (markFenced_keepsTmp rfl))⟩
  obtain ⟨hmem, hdsp, hdue, -, -, -⟩ := recapacity_kept hcode4 s.capacityList
  have hrd {f : Fld} (hf : f = unitState p u ∨ f = unitCause p u ∨ f = unitEvtFault p u ∨ f = unitEvtFenced p u) : (s4.recapacity s.capacityList).rd f = s1.rd f :=
    (rd_recapacity_unit hu hcode4 _ hf).trans (hrd4 (unitFields_beside p hu hf))
  have ht : s.fenceUnit p u b x = s4.recapacity s.capacityList := rfl
  rw [ht]
  exact ⟨(hrd (.inl rfl)).trans hstate, (hrd (.inr (.inl rfl))).trans hcause, (hrd (.inr (.inr (.inl rfl)))).trans hfault, (hrd (.inr (.inr (.inr rfl)))).trans hfenced,
    hmem.trans hother.1, hdsp.trans hother.2.1, hdue.trans (congrArg Tmp.due hother.2.2)⟩

end State

end Sys2Proof.Machine
end

section
/-! The rows of the engine units: rotation, self-test, faults, Regrowth and clearing (R328, R348 to R351). -/

namespace Sys2Proof.Machine

theorem poolSize_lt (p : Pool) : poolSize p < 32 := by cases p <;> decide

namespace State
variable {s : State} {p : Pool} {u : Nat}

theorem rotate_of_next {last next : Nat} (hlast : tblGet 0 s.eng.lastTested p.num = last) (hnext : s.nextServing p (if last = 0 then u else last - 1) = some next) :
    s.rotate p u = (((s.returnUnit p u).wr (poolTesting p) (noUnit p)).wr (unitSelected p next) 1).setEvt (poolEvtRotate p) := by
  unfold rotate
  dsimp only
  rw [hlast]
  cases last with
  | zero =>
    rw [if_pos rfl] at hnext
    rw [hnext]
  | succ n =>
    rw [if_neg n.succ_ne_zero] at hnext
    rw [show n + 1 - 1 = n from rfl] at hnext
    rw [hnext]

/-- The rotation of a pool whose tester has passed. -/
theorem rotate_shown {last next : Nat} (hu : u < poolSize p) (hlast : tblGet 0 s.eng.lastTested p.num = last)
    (hnext : s.nextServing p (if last = 0 then u else last - 1) = some next) :
    let t := s.rotate p u
    t.rd (unitState p u) = 1 ∧ t.rd (unitSelected p next) = 1 ∧ t.rd (poolTesting p) = noUnit p ∧ t.rd (poolEvtRotate p) = 1 ∧ t.eng.passed.contains (unitKey p u) = false ∧
      t.mem = s.mem ∧ t.dsp = s.dsp ∧ t.tmp = s.tmp := by
  let s1 := s.returnUnit p u
  let s2 := (s1.wr (poolTesting p) (noUnit p)).wr (unitSelected p next) 1
  intro t
  have ht : t = s2.setEvt (poolEvtRotate p) := rotate_of_next hlast hnext
  have hsize := poolSize_lt p
  obtain ⟨htest, -, -, hrot, hseq⟩ := poolKeys p
  have hstate := (unitKeys p u).state
  have hsel := (unitKeys p next).selected
  have hevt {f : Fld} (h : f.key ≠ (poolEvtRotate p).key ∧ f.key ≠ (poolEvtRotate p).seq.key) : t.rd f = s2.rd f := by
    rw [ht]
    exact rd_setEvt_other _ _ h.1 h.2
  refine ⟨?_, ?_, ?_, ?_, ?_, by rw [ht]; rfl, by rw [ht]; rfl, by rw [ht]; rfl⟩
  · rw [hevt (by omega), rd_wr_other _ _ (by omega), rd_wr_other _ _ (by omega)]
    refine (rd_wr_same ..).trans ?_
    cases p <;> rfl
  · rw [hevt (by omega)]
    refine (rd_wr_same ..).trans ?_
    cases p <;> rfl
  · rw [hevt (by omega), rd_wr_other _ _ (by omega)]
    refine (rd_wr_same ..).trans ?_
    cases p <;> rfl
  · rw [ht]
    exact rd_setEvt_same _ (by cases p <;> rfl) (by omega)
  · rw [ht]
    show (s.eng.passed.filter (· != unitKey p u)).contains (unitKey p u) = false
    simp

/-- A unit that enters its self-test. -/
theorem enterSelfTest_shown (hu : u < poolSize p) : let t := s.enterSelfTest p u
    t.rd (unitState p u) = 3 ∧ t.rd (poolTesting p) = u ∧ t.rd (unitSelected p u) = 0 ∧ t.mem = s.mem := by
  let s1 := ((s.endResidency p u).forgetOwner p u).wr (unitSelected p u) 0
  let s2 : State := { s1 with eng := { s1.eng with
    lastTested := tblPut 0 s1.eng.lastTested p.num (u + 1), afterClear := tblPut 0 s1.eng.afterClear (unitKey p u) 0 } }
  intro t
  have ht : t = (s2.wr (unitState p u) 3).wr (poolTesting p) u := rfl
  have hsize := poolSize_lt p
  have htest := (poolKeys p).testing
  have hstate := (unitKeys p u).state
  have hsel := (unitKeys p u).selected
  refine ⟨?_, ?_, ?_, enterSelfTest_keepsMem rfl⟩
  · rw [ht, rd_wr_other _ _ (by omega), rd_wr_same]
    cases p <;> rfl
  · rw [ht, rd_wr_same]
    refine Nat.mod_eq_of_lt (lt_of_lt_of_le hu ?_)
    cases p <;> decide
  · rw [ht, rd_wr_other _ _ (by omega), rd_wr_other _ _ (by omega)]
    refine ((rd_wr_same ..).trans ?_ : s1.rd (unitSelected p u) = 0)
    cases p <;> rfl

/-- A passed run moves the unit on to its next parameter sets only. -/
theorem rd_cycleSets {f : Fld} (hf : f.key % 64 < 14 ∨ (poolBase p + 0x80) * 64 ≤ f.key) (hu : u < 32) : (s.cycleSets p u).rd f = s.rd f := by
  have hne {g : Fld} (hoff : g.off = poolBase p) (hbank : g.bank = 0) (hstride : g.stride = 4) (hlsb : 14 ≤ g.lsb ∧ g.lsb < 32) : f.key ≠ (g.ix u).key := by
    simp only [Fld.key] at hf
    simp only [Fld.key, Fld.ix, hoff, hbank, hstride]
    omega
  cases p with
  | lattice => exact (rd_wr_other _ _ (hne rfl rfl rfl (by decide))).trans (rd_wr_other _ _ (hne rfl rfl rfl (by decide)))
  | hash => exact rd_wr_other _ _ (hne rfl rfl rfl (by decide))
  | bignum =>
    exact (rd_wr_other _ _ (hne rfl rfl rfl (by decide))).trans ((rd_wr_other _ _ (hne rfl rfl rfl (by decide))).trans (rd_wr_other _ _ (hne rfl rfl rfl (by decide))))
  | code => exact rd_wr_other _ _ (hne rfl rfl rfl (by decide))
  | sym => rfl

/-- The tester of a pool that rotates passes its run. -/
theorem passUnit_shown (hu : u < poolSize p) (htester : s.isTesting p u = true) (hrun : s.rd (poolSuspended p) = 0) : let t := s.passUnit p u
    t.eng.passed.contains (unitKey p u) = true ∧ t.rd (poolPasses p) = (s.rd (poolPasses p) + 1) % 65536 ∧ t.rd (unitEvt p u) = 1 ∧
      t.rd (unitState p u) = s.rd (unitState p u) ∧ t.mem = s.mem ∧ t.dsp = s.dsp ∧ t.tmp = s.tmp := by
  let s1 := s.cycleSets p u
  let s2 := (s1.wrapAdd (poolPasses p) 1).setEvt (unitEvt p u)
  have hsize := poolSize_lt p
  obtain ⟨htest, hsusp, hpasses, -, -⟩ := poolKeys p
  have hstate := (unitKeys p u).state
  have hdone := (unitKeys p u).done
  have hseq := (unitKeys p u).doneSeq
  have hbase := poolBase_ge p
  have hrd2 {f : Fld} (h : f.key ≠ (unitEvt p u).key ∧ f.key ≠ (unitEvt p u).seq.key ∧ f.key ≠ (poolPasses p).key) : s2.rd f = s1.rd f :=
    (rd_setEvt_other _ _ h.1 h.2.1).trans (rd_wr_other _ _ h.2.2)
  have htester2 : s2.isTesting p u = true := by
    unfold isTesting at htester ⊢
    rw [hrd2 (by omega), rd_cycleSets (by omega) (by omega)]
    exact htester
  have hrun2 : s2.flag (poolSuspended p) = false := by
    refine s2.flag_eq_false ?_
    rw [hrd2 (by omega), rd_cycleSets (by omega) (by omega)]
    exact hrun
  intro t
  have ht : t = { s2 with eng := { s2.eng with passed := unitKey p u :: s2.eng.passed } } := by
    unfold t passUnit
    dsimp only
    exact if_pos (by simp [show (((s.cycleSets p u).wrapAdd (poolPasses p) 1).setEvt (unitEvt p u)) = s2 from rfl, htester2, hrun2])
  rw [ht]
  refine ⟨by simp, ?_, ?_, ?_, cycleSets_keepsMem rfl, cycleSets_keepsDsp rfl, cycleSets_keepsTmp rfl⟩
  · show s2.rd (poolPasses p) = _
    rw [show s2.rd (poolPasses p) = _ from rd_setEvt_other _ _ (by omega) (by omega), wrapAdd, rd_wr_same, rd_cycleSets (by omega) (by omega)]
    cases p <;> rfl
  · exact (rd_setEvt_same _ (by cases p <;> rfl) (by omega) : s2.rd (unitEvt p u) = 1)
  · exact (hrd2 (by omega)).trans (rd_cycleSets (by omega) (by omega))

/-- A fault of a unit of which no command has work. -/
theorem faultUnit_idle (hidle : s.dsp.inflight = []) (lane cause : Nat) :
    s.faultUnit p u lane cause = (s.cmpFault p cause).fenceUnit p u false { test := 0, sub := lane, cause := cause } := by
  have hnone : s.unitCmds p u = [] := by
    unfold unitCmds
    rw [hidle]
    rfl
  unfold faultUnit
  rw [hnone]
  rfl

theorem cmpFault_keepsLow (s : State) (p : Pool) (cause : Nat) : s.keepsLow (s.cmpFault p cause) := by
  unfold cmpFault
  split
  · split
    · exact s.keepsLow_setEvt 0 (by decide)
    · exact fun _ _ => rfl
  · split
    · exact s.keepsLow_setEvt 0 (by decide)
    · exact fun _ _ => rfl
  · exact fun _ _ => rfl

/-- An event of SPARE_OUT outlasts a reassignment. -/
theorem reassign_spareOut (h : s.rd R.LAT_EVT_SPARE_OUT = 1) (a b c : Bool) : (s.reassign .lattice a b c).rd R.LAT_EVT_SPARE_OUT = 1 := by
  obtain ⟨hspare, hout, hseq⟩ := spareKeys
  obtain ⟨htest, hsusp, -, -, -⟩ := poolKeys .lattice
  have hbase : poolBase .lattice = 0xD0000 := rfl
  have hsel (v : Nat) : R.LAT_EVT_SPARE_OUT.key ≠ (unitSelected .lattice v).key := by
    have := (unitKeys .lattice v).selected
    omega
  have hstate (v : Nat) : R.LAT_EVT_SPARE_OUT.key ≠ (unitState .lattice v).key := by
    have := (unitKeys .lattice v).state
    omega
  unfold reassign
  dsimp only
  split
  next v _ =>
    have hcut : ((s.wr (poolSuspended .lattice) 1).wr (unitSelected .lattice v) 0).rd R.LAT_EVT_SPARE_OUT = 1 :=
      (rd_wr_other _ _ (hsel v)).trans ((rd_wr_other _ _ (by omega)).trans h)
    split
    · exact rd_setEvt_same _ rfl (by omega)
    · split
      · exact (rd_wr_other _ _ (hstate v)).trans ((rd_wr_other _ _ (by omega)).trans hcut)
      · exact hcut
  · split
    · exact rd_setEvt_same _ rfl (by omega)
    · split
      · exact ((rd_wr_other _ _ (hstate _)).trans ((rd_wr_other _ _ (by omega)).trans h) :
          ((s.wr R.LAT_ROTATE_SPARE 31).wr (R.LAT_TILE_STATE.ix (s.rd R.LAT_ROTATE_SPARE)) 3).rd R.LAT_EVT_SPARE_OUT = 1)
      · split
        · exact (rd_selectNext hsel).trans h
        · exact h

theorem testCause_lt (p : Pool) (t : Nat) : testCause p t < 16 := by
  unfold testCause
  split
  · by_cases ht : t < 8
    · revert t
      decide
    · rw [List.getD_eq_default _ _ (by simpa using Nat.not_lt.mp ht)]
      decide
  · split <;> omega
  · split <;> omega

theorem runFault_cause_lt (s : State) (p : Pool) (u : Nat) (f : TestFail) : (s.runFault p u f).cause < 16 := by
  have h : (s.runFault p u f).cause = testCause p f.test := by cases p <;> rfl
  exact h ▸ testCause_lt p f.test

theorem serviceCause_lt {cause : Nat} (h : serviceCause p cause = true) : cause < 16 := by
  cases p <;> simp [serviceCause] at h <;> omega

/-- The fields of Regrowth's event. -/
theorem rd_recapacity_out (hcode : s.respCode 20 ≤ 1) (before : List Nat) {f : Fld} (hf : f = R.LAT_EVT_SPARE_OUT ∨ f = R.LAT_EVT_REGROWTH) :
    (s.recapacity before).rd f = s.rd f := by
  rcases hf with rfl | rfl <;> exact rd_recapacity hcode before (by decide) (by decide) (by decide)

/-- The tile that Regrowth returns to service, before the capacity is counted again. -/
def regrownTile (s : State) (u : Nat) : State :=
  let s : State := { s with eng := { s.eng with regrowth := none } }
  (((((s.wrapAdd R.LAT_ROTATE_PASSES 1).setEvt (unitEvt .lattice u)).wr (R.LAT_TILE_STATE.ix u) 1).setEvt R.LAT_EVT_REGROWTH).setEvt R.LAT_EVT_SPARE_OUT)

theorem regrown_eq (s : State) (u : Nat) : s.regrown u false = (s.regrownTile u).recapacity s.capacityList := rfl

theorem regrownTile_keepsLow (s : State) (u : Nat) : s.keepsLow (s.regrownTile u) := by
  have hdone := (unitKeys .lattice u).done
  have hseq := (unitKeys .lattice u).doneSeq
  have hbase : poolBase .lattice = 0xD0000 := rfl
  unfold regrownTile
  dsimp only
  generalize hs0 : ({ s with eng := { s.eng with regrowth := none } } : State) = s0
  have h0 : s.keepsLow s0 := keepsLow_of_regs (hs0 ▸ rfl)
  have h1 : s0.keepsLow (s0.wrapAdd R.LAT_ROTATE_PASSES 1) := s0.keepsLow_wr _ (by decide)
  have h2 := (s0.wrapAdd R.LAT_ROTATE_PASSES 1).keepsLow_setEvt (g := unitEvt .lattice u) 0 (by omega)
  generalize (s0.wrapAdd R.LAT_ROTATE_PASSES 1).setEvt (unitEvt .lattice u) = s2 at h2 ⊢
  have h3 := s2.keepsLow_wr (g := R.LAT_TILE_STATE.ix u) 1 (le_key_ix (by decide) u)
  generalize s2.wr (R.LAT_TILE_STATE.ix u) 1 = s3 at h3 ⊢
  exact (((h0.trans h1).trans h2).trans h3).trans ((s3.keepsLow_setEvt 0 (by decide)).trans (keepsLow_setEvt _ 0 (by decide)))

theorem setEvt_kept (s : State) (f : Fld) (b : Nat) : (s.setEvt f b).eng = s.eng ∧ (s.setEvt f b).mem = s.mem ∧ (s.setEvt f b).dsp = s.dsp ∧ (s.setEvt f b).tmp = s.tmp := by
  unfold setEvt
  exact ⟨rfl, rfl, rfl, rfl⟩

theorem regrownTile_shown (s : State) (u : Nat) : let t := s.regrownTile u
    t.rd (R.LAT_TILE_STATE.ix u) = 1 ∧ t.rd R.LAT_EVT_REGROWTH = 1 ∧ t.eng.regrowth = none ∧ t.mem = s.mem ∧ t.dsp = s.dsp ∧ t.tmp = s.tmp := by
  have hstate : (R.LAT_TILE_STATE.ix u).key = (0xD0000 + 4 * u) * 64 := (unitKeys .lattice u).state
  have hregrowth : R.LAT_EVT_REGROWTH.key = (0xD0000 + 0x100) * 64 + 1 ∧ R.LAT_EVT_REGROWTH.seq.key = (0xD0000 + 0x100) * 64 + 16 := by decide
  have hspare := spareKeys
  unfold regrownTile
  dsimp only
  generalize hs0 : ({ s with eng := { s.eng with regrowth := none } } : State) = s0
  have h0 : s0.eng.regrowth = none ∧ s0.mem = s.mem ∧ s0.dsp = s.dsp ∧ s0.tmp = s.tmp := by
    rw [← hs0]
    exact ⟨rfl, rfl, rfl, rfl⟩
  have h1 := ((s0.wrapAdd R.LAT_ROTATE_PASSES 1).setEvt_kept (unitEvt .lattice u) 0)
  generalize (s0.wrapAdd R.LAT_ROTATE_PASSES 1).setEvt (unitEvt .lattice u) = s2 at h1 ⊢
  obtain ⟨heng, hmem, hdsp, htmp⟩ := (((s2.wr (R.LAT_TILE_STATE.ix u) 1).setEvt R.LAT_EVT_REGROWTH).setEvt_kept R.LAT_EVT_SPARE_OUT 0)
  obtain ⟨heng', hmem', hdsp', htmp'⟩ := (s2.wr (R.LAT_TILE_STATE.ix u) 1).setEvt_kept R.LAT_EVT_REGROWTH 0
  refine ⟨?_, ?_, ?_, (hmem.trans hmem').trans (h1.2.1.trans h0.2.1), (hdsp.trans hdsp').trans (h1.2.2.1.trans h0.2.2.1), (htmp.trans htmp').trans (h1.2.2.2.trans h0.2.2.2)⟩
  rotate_left 2
  · exact (congrArg Eng.regrowth (heng.trans (heng'.trans h1.1))).trans h0.1
  · exact (rd_setEvt_other _ _ (by omega) (by omega)).trans ((rd_setEvt_other _ _ (by omega) (by omega)).trans (rd_wr_same ..))
  · exact (rd_setEvt_other _ _ (by omega) (by omega)).trans (rd_setEvt_same _ rfl (by omega))

/-- Regrowth that ends with the tile in service. -/
theorem regrown_shown (hu : u < 18) (hcode : s.respCode 20 ≤ 1) : let t := s.regrown u false
    t.rd (R.LAT_TILE_STATE.ix u) = 1 ∧ t.rd R.LAT_EVT_REGROWTH = 1 ∧ t.eng.regrowth = none ∧ t.mem = s.mem ∧ t.dsp = s.dsp ∧ t.tmp.due = s.tmp.due := by
  obtain ⟨hstate, hevt, hnone, hmem1, hdsp1, htmp1⟩ := s.regrownTile_shown u
  have hcode1 : (s.regrownTile u).respCode 20 ≤ 1 := by
    rw [respCode_of_keepsLow (s.regrownTile_keepsLow u)]
    exact hcode
  rw [regrown_eq]
  generalize s.regrownTile u = s1 at hstate hevt hnone hmem1 hdsp1 htmp1 hcode1 ⊢
  obtain ⟨hmem, hdsp, hdue, heng, -, -⟩ := recapacity_kept hcode1 s.capacityList
  exact ⟨(rd_recapacity_unit (p := .lattice) (by omega) hcode1 _ (.inl rfl)).trans hstate, (rd_recapacity_out hcode1 _ (.inr rfl)).trans hevt,
    (congrArg Eng.regrowth heng).trans hnone, hmem.trans hmem1, hdsp.trans hdsp1, hdue.trans (congrArg Tmp.due htmp1)⟩

/-- Regrowth that ends with the tile fenced. -/
theorem regrowthFailed_shown (hu : u < 18) (hcode : s.respCode 20 ≤ 1) (x : UnitFault) (hx : x.cause < 16) (before : List Nat) :
    let t := (((s.markFenced .lattice u false x).setEvt R.LAT_EVT_SPARE_OUT).reassign .lattice false false true).recapacity before
    t.rd (R.LAT_TILE_STATE.ix u) = 5 ∧ t.rd (R.LAT_TILE_CAUSE.ix u) = x.cause ∧ t.rd R.LAT_EVT_SPARE_OUT = 1 ∧ t.mem = s.mem ∧ t.dsp = s.dsp ∧ t.tmp.due = s.tmp.due := by
  obtain ⟨hstate, hcause, -, -, hlow⟩ := s.markFenced_shown .lattice u false x hx
  have hmem1 : (s.markFenced .lattice u false x).mem = s.mem := markFenced_keepsMem rfl
  have hdsp1 : (s.markFenced .lattice u false x).dsp = s.dsp := markFenced_keepsDsp rfl
  have htmp1 : (s.markFenced .lattice u false x).tmp = s.tmp := markFenced_keepsTmp rfl
  generalize s.markFenced .lattice u false x = s1 at hstate hcause hlow hmem1 hdsp1 htmp1 ⊢
  let s2 := s1.setEvt R.LAT_EVT_SPARE_OUT
  let s3 := s2.reassign .lattice false false true
  have hbeside {f : Fld} (hf : f.Beside .lattice u) : s2.rd f = s1.rd f := rd_setEvt_other _ _ hf.out hf.outSeq
  have hfield {f : Fld} (hf : f = unitState .lattice u ∨ f = unitCause .lattice u ∨ f = unitEvtFault .lattice u ∨ f = unitEvtFenced .lattice u) : f.Beside .lattice u :=
    unitFields_beside .lattice (by omega) hf
  have hfenced : s2.rd (unitState .lattice u) = 5 := (hbeside (hfield (.inl rfl))).trans hstate
  have hrd {f : Fld} (hf : f.Beside .lattice u) : s3.rd f = s1.rd f := (rd_reassign hf hfenced _ _ _).trans (hbeside hf)
  have hcode3 : s3.respCode 20 ≤ 1 := by
    rw [respCode_of_keepsLow (s := s1) fun f hf => hrd (lowField_beside hf .lattice u), respCode_of_keepsLow hlow]
    exact hcode
  have hout : s3.rd R.LAT_EVT_SPARE_OUT = 1 := reassign_spareOut (rd_setEvt_same _ rfl (by decide)) _ _ _
  have hkept : s3.mem = s1.mem ∧ s3.dsp = s1.dsp ∧ s3.tmp = s1.tmp := ⟨reassign_keepsMem rfl, reassign_keepsDsp rfl, reassign_keepsTmp rfl⟩
  obtain ⟨hmem, hdsp, hdue, -, -, -⟩ := recapacity_kept hcode3 before
  have hunit {f : Fld} (hf : f = unitState .lattice u ∨ f = unitCause .lattice u ∨ f = unitEvtFault .lattice u ∨ f = unitEvtFenced .lattice u) :
      (s3.recapacity before).rd f = s1.rd f := (rd_recapacity_unit (by omega) hcode3 _ hf).trans (hrd (hfield hf))
  exact ⟨(hunit (.inl rfl)).trans hstate, (hunit (.inr (.inl rfl))).trans hcause, (rd_recapacity_out hcode3 _ (.inl rfl)).trans hout,
    hmem.trans (hkept.1.trans hmem1), hdsp.trans (hkept.2.1.trans hdsp1), hdue.trans (congrArg Tmp.due (hkept.2.2.trans htmp1))⟩

end State

theorem State.calm_of_due {s t : State} (h : s.calm) (hdsp : t.dsp = s.dsp) (hdue : t.tmp.due = s.tmp.due) : t.calm := ⟨(congrArg Dsp.inflight hdsp).trans h.1, hdue.trans h.2⟩

/-- A unit that is not the tile in Regrowth. -/
theorem notRegrowing {s : State} {p : Pool} {u : Nat} (h : ∀ r, s.eng.regrowth = some r → p = .lattice → r.1 ≠ u) :
    (p == .lattice && s.eng.regrowth.any fun r => r.1 == u) = false := by
  cases hr : s.eng.regrowth with
  | none => simp
  | some r =>
    by_cases hp : p = .lattice
    · simp [h r hr hp]
    · simp [hp]

/-- Settles O52. -/
theorem unitRows : Obligations.UnitRows := by
  unfold Obligations.UnitRows
  intro s p u hcalm hu
  have hok : unitOk p u = true := decide_eq_true hu
  have hsize := poolSize_lt p
  refine ⟨?_, ?_, ?_, ?_, ?_, ?_, ?_, ?_, ?_, ?_⟩
  · intro next hkat hsusp hsel htester hpassed hnext
    have hnext' : s.nextServing p (if tblGet 0 s.eng.lastTested p.num = 0 then u else tblGet 0 s.eng.lastTested p.num - 1) = some next := by
      cases hlast : tblGet 0 s.eng.lastTested p.num <;> (rw [hlast] at hnext; exact hnext)
    obtain ⟨hstate, hnew, htest, hevt, hgone, hmem, hdsp, htmp⟩ := State.rotate_shown hu rfl hnext'
    have hexec : exec (.selfTestRotation p) s = .next (s.rotate p u).pump := by
      show execSelfTestRotation p s = _
      unfold execSelfTestRotation
      have hany : ((List.range (poolSize p)).any fun u => s.flag (unitSelected p u)) = false := by
        simp only [List.any_eq_false, List.mem_range]
        exact fun k hk => by simp [s.flag_eq_false (hsel k hk)]
      simp only [hkat, s.flag_eq_false hsusp, hany, htester, hpassed, Bool.not_true, Bool.or_self, Bool.false_eq_true, if_false, if_true]
    rw [State.pump_of_calm (State.calm_of hcalm (congrArg Dsp.inflight hdsp) htmp)] at hexec
    exact ⟨_, hexec, hstate, hnew, htest, hevt, hgone, hmem⟩
  · intro hkat htester hpassed
    show execSelfTestRotation p s = _
    unfold execSelfTestRotation
    simp only [hkat, htester, hpassed, Bool.not_true, Bool.false_eq_true, if_false, ite_self]
  · intro hsel hbusy hstate
    exact ⟨_, (if_pos (by simp [hok, s.flag_of_rd_one hsel, hbusy, hstate]) : execSelfTestEntry p u s = _), State.enterSelfTest_shown hu⟩
  · intro hstate hpassed hregrowth htester hsusp hverdict
    obtain ⟨hin, hpasses, hevt, hst, hmem, hdsp, htmp⟩ := State.passUnit_shown hu htester hsusp
    have hcond : (unitOk p u && s.rd (unitState p u) == 3 && !s.eng.passed.contains (unitKey p u) && s.verdict p none &&
        !(p == .lattice && s.eng.regrowth.any fun r => r.1 == u)) = true := by
      simp only [hok, hstate, hpassed, hverdict, notRegrowing hregrowth]
      rfl
    have hexec : exec (.selfTestRunDone p u none) s = .next (s.passUnit p u).pump := (if_pos hcond : execSelfTestRunDone p u none s = _)
    rw [State.pump_of_calm (State.calm_of hcalm (congrArg Dsp.inflight hdsp) htmp)] at hexec
    exact ⟨_, hexec, hin, hpasses, hevt, hst.trans hstate, hmem⟩
  · intro f hverdict hstate hpassed hregrowth hcode
    obtain ⟨hst, hcause, -, hfenced, hmem, hdsp, hdue⟩ := State.fenceUnit_shown (s := s) (p := p) (u := u) (by omega) hcode false (s.runFault p u f) (s.runFault_cause_lt p u f)
    have hcond : (unitOk p u && s.rd (unitState p u) == 3 && !s.eng.passed.contains (unitKey p u) && s.verdict p (some f) &&
        !(p == .lattice && s.eng.regrowth.any fun r => r.1 == u)) = true := by
      simp only [hok, hstate, hpassed, hverdict, notRegrowing hregrowth]
      rfl
    have hexec : exec (.selfTestRunDone p u (some f)) s = .next (s.fenceUnit p u false (s.runFault p u f)).pump := (if_pos hcond : execSelfTestRunDone p u (some f) s = _)
    rw [State.pump_of_calm (State.calm_of_due hcalm hdsp hdue)] at hexec
    exact ⟨_, hexec, hst, hcause, hfenced, hmem⟩
  · intro _ hfailed
    refine if_neg ?_
    simp [State.verdict, s.flag_of_rd_one hfailed]
  · intro lane cause hlane hcause h0 h5 hcode
    have hlow := s.cmpFault_keepsLow p cause
    have hexec : exec (.engineFault p u lane cause) s = .next (s.faultUnit p u lane cause).pump := by
      refine (if_pos ?_ : execEngineFault p u lane cause s = _)
      simp [hok, hlane, hcause, h0, h5]
    have hmem1 : (s.cmpFault p cause).mem = s.mem := State.cmpFault_keepsMem rfl
    have hdsp1 : (s.cmpFault p cause).dsp = s.dsp := State.cmpFault_keepsDsp rfl
    have htmp1 : (s.cmpFault p cause).tmp = s.tmp := State.cmpFault_keepsTmp rfl
    rw [State.faultUnit_idle hcalm.1] at hexec
    generalize s.cmpFault p cause = s1 at hlow hexec hmem1 hdsp1 htmp1
    have hcode1 : s1.respCode 20 ≤ 1 := by
      rw [State.respCode_of_keepsLow hlow]
      exact hcode
    obtain ⟨hst, hshown, hfault, hfenced, hmem, hdsp, hdue⟩ := State.fenceUnit_shown (s := s1) (p := p) (u := u) (by omega) hcode1 false
      { test := 0, sub := lane, cause := cause } (State.serviceCause_lt hcause)
    rw [State.pump_of_calm (State.calm_of_due hcalm (hdsp.trans hdsp1) (hdue.trans (congrArg Tmp.due htmp1)))] at hexec
    exact ⟨_, hexec, hst, hshown, hfault, hfenced, hmem.trans hmem1⟩
  · intro hp hregrowth hverdict hcode
    subst hp
    obtain ⟨hst, hevt, hnone, hmem, hdsp, hdue⟩ := State.regrown_shown hu hcode
    have hexec : exec (.regrowthDone u none) s = .next (s.regrown u false).pump := by
      show execRegrowthDone u none s = _
      unfold execRegrowthDone
      rw [hregrowth]
      exact if_neg (by simp [hverdict])
    rw [State.pump_of_calm (State.calm_of_due hcalm hdsp hdue)] at hexec
    exact ⟨_, hexec, hst, hevt, hnone, hmem⟩
  · intro f hp hregrowth hverdict hcode
    subst hp
    let s0 : State := { s with eng := { s.eng with regrowth := none } }
    obtain ⟨hst, hcause, hout, hmem, hdsp, hdue⟩ := State.regrowthFailed_shown (s := s0) hu hcode (testFault .lattice f)
      (State.testCause_lt .lattice f.test) s.capacityList
    have hexec : exec (.regrowthDone u (some f)) s =
        .next ((((s0.markFenced .lattice u false (testFault .lattice f)).setEvt R.LAT_EVT_SPARE_OUT).reassign .lattice false false true).recapacity s.capacityList).pump := by
      show execRegrowthDone u (some f) s = _
      unfold execRegrowthDone
      rw [hregrowth]
      exact if_neg (by simp [hverdict])
    rw [State.pump_of_calm (State.calm_of_due hcalm hdsp hdue)] at hexec
    exact ⟨_, hexec, hst, hcause, hout, hmem⟩
  · intro h0 h100
    let s1 : State := { s with eng := { s.eng with afterClear := tblPut 0 s.eng.afterClear (unitKey p u) 0 } }
    let s2 := if s.rd (unitState p u) = 5 then s1 else s1.wr (unitState p u) (if tblGet 0 s.eng.afterClear (unitKey p u) = 7 ∧ p ≠ .hash then 2 else 1)
    have hkept : s2.eng = s1.eng ∧ s2.dsp = s.dsp ∧ s2.tmp = s.tmp ∧ s2.mem = s.mem := by
      unfold s2
      split <;> exact ⟨rfl, rfl, rfl, rfl⟩
    obtain ⟨heng, hdsp, htmp, hmem⟩ := hkept
    have hexec : exec (.unitClearDone p u true) s = .next s2.pump := by
      refine (if_neg (by simp [hok, h0, h100]) : execUnitClearDone p u true s = _).trans ((if_pos rfl).trans ?_)
      simp only [decide_eq_true_eq]
      rfl
    rw [State.pump_of_calm (State.calm_of hcalm (congrArg Dsp.inflight hdsp) htmp)] at hexec
    refine ⟨_, hexec, (congrArg (fun e : Eng => tblGet 0 e.afterClear (unitKey p u)) heng :).trans (tblGet_put_same 0 s.eng.afterClear (unitKey p u) 0 :), ?_, ?_, hmem⟩
    · unfold s2
      split
      next hfenced => exact hfenced
      · refine (State.rd_wr_same ..).trans ?_
        cases p <;> (split <;> rfl)
    · unfold s2
      split
      · exact State.keepsRegs_of_regs rfl _
      · exact (State.keepsRegs_of_regs (t := s1) rfl _).trans (State.keepsRegs_wr _ _ (List.mem_singleton.mpr rfl)) (List.Subset.refl _)

end Sys2Proof.Machine
end

section
/-! Accesses to memory change the registers of the domains, of the access table and of the channels only (chapters 10 and 11). -/

namespace Sys2Proof.Machine

/-- A field that no access to memory changes. -/
def Fld.offMemory (f : Fld) : Prop := (0x20000 * 64 ≤ f.key ∧ f.key < 0x80000 * 64) ∨ 0xC0000 * 64 ≤ f.key

/-- No field off memory differs. -/
def State.keepsOff (s t : State) : Prop := ∀ f : Fld, f.offMemory → t.rd f = s.rd f

/-- A word that accesses to memory may change. -/
def Fld.onMemory (f : Fld) : Prop := f.bank = 0 ∧ f.lsb < 64 ∧ (f.off < 0x20000 ∨ (0x80000 ≤ f.off ∧ f.off < 0xC0000))

theorem Fld.onMemory_key {f g : Fld} (hf : f.offMemory) (hg : g.onMemory) : f.key ≠ g.key := by
  obtain ⟨hbank, hlsb, hoff⟩ := hg
  simp only [Fld.offMemory, Fld.key, hbank] at hf ⊢
  omega

theorem Fld.onMemory_seq {g : Fld} (hg : g.onMemory) : g.seq.onMemory := ⟨hg.1, (by decide : (16 : Nat) < 64), hg.2.2⟩

theorem Fld.onMemory_mem {g : Fld} {c : Nat} (hg : 0xB0000 ≤ g.off ∧ g.off < 0xB1000 ∧ g.bank = 0 ∧ g.lsb < 64) (hc : c < 2) : (g.mem c).onMemory := by
  obtain ⟨h1, h2, h3, h4⟩ := hg
  refine ⟨h3, h4, .inr ?_⟩
  simp only [Fld.mem, Fld.add]
  omega

namespace State

theorem keepsOff_refl (s : State) : s.keepsOff s := fun _ _ => rfl

theorem keepsOff.trans {s t u : State} (h : s.keepsOff t) (h' : t.keepsOff u) : s.keepsOff u := fun f hf => (h' f hf).trans (h f hf)

theorem keepsOff_of_regs {s t : State} (h : t.regs = s.regs) : s.keepsOff t := fun f _ => rd_of_regs h f

theorem keepsOff_wr (s : State) {g : Fld} (v : Nat) (h : g.onMemory) : s.keepsOff (s.wr g v) := fun _ hf => rd_wr_other _ _ (Fld.onMemory_key hf h)

theorem keepsOff_setEvt (s : State) {g : Fld} (b : Nat) (h : g.onMemory) : s.keepsOff (s.setEvt g b) := fun _ hf =>
  s.rd_setEvt_other b (Fld.onMemory_key hf h) (Fld.onMemory_key hf (Fld.onMemory_seq h))

theorem keepsOff_foldl {α : Type} {g : State → α → State} {l : List α} (h : ∀ (s : State) (a : α), a ∈ l → s.keepsOff (g s a)) : ∀ s : State, s.keepsOff (l.foldl g s) := by
  induction l with
  | nil => exact keepsOff_refl
  | cons a l ih => exact fun s => (h s a List.mem_cons_self).trans (ih (fun s b hb => h s b (List.mem_cons_of_mem _ hb)) _)

theorem keepsOff_setChan (s : State) (c : Nat) (x : Ddr) : s.keepsOff (s.setChan c x) := keepsOff_of_regs rfl

theorem violation_keepsOff (s : State) (cls : Nat) (w : World) (k : AccKind) (src e a : Nat) : s.keepsOff (s.violation cls w k src e a) := by
  have hviol : R.ACT_EVT_VIOLATION.onMemory := by unfold Fld.onMemory; decide
  have hwr (u : State) (g : Fld) (v : Nat) (h : 0x80000 ≤ g.off ∧ g.off < 0xC0000 ∧ g.bank = 0 ∧ g.lsb < 64) : u.keepsOff (u.wr g v) :=
    u.keepsOff_wr v ⟨h.2.2.1, h.2.2.2, .inr ⟨h.1, h.2.1⟩⟩
  unfold violation
  refine keepsOff.trans ?_ (keepsOff_setEvt _ 0 hviol)
  split
  · exact hwr _ _ _ (by decide)
  · exact (((((hwr s _ _ (by decide)).trans (hwr _ _ _ (by decide))).trans (hwr _ _ _ (by decide))).trans (hwr _ _ _ (by decide))).trans (hwr _ _ _ (by decide))).trans
      (hwr _ _ _ (by decide))

theorem noteRefusal_keepsOff (s : State) (cls : Nat) (w : World) (k : AccKind) (r : Option (Nat × Nat × Nat)) : s.keepsOff (s.noteRefusal cls w k r) := by
  unfold noteRefusal
  split
  · exact s.violation_keepsOff _ _ _ _ _ _
  · exact s.keepsOff_refl

section
variable (s : State) {c : Nat} (hc : c < 2)
include hc

theorem captureErr_keepsOff (l kind pos : Nat) (scrub : Bool) : s.keepsOff (s.captureErr c l kind pos scrub) := by
  have hwr (u : State) (g : Fld) (v : Nat) (h : 0xB0000 ≤ g.off ∧ g.off < 0xB1000 ∧ g.bank = 0 ∧ g.lsb < 64) : u.keepsOff (u.wr (g.mem c) v) :=
    u.keepsOff_wr v (Fld.onMemory_mem h hc)
  unfold captureErr
  dsimp only
  split
  · exact s.keepsOff_refl
  · exact (((((s.keepsOff_setChan c _).trans (hwr _ _ _ (by decide))).trans (hwr _ _ _ (by decide))).trans (hwr _ _ _ (by decide))).trans (hwr _ _ _ (by decide))).trans
      (hwr _ _ _ (by decide))

theorem uncorrectable_keepsOff (l : Nat) (scrub : Bool) : s.keepsOff (s.uncorrectable c l scrub) :=
  (((s.captureErr_keepsOff hc _ _ _ _).trans (keepsOff_wr _ _ (Fld.onMemory_mem (g := R.MEM_UE_COUNT_COUNT) (by decide) hc))).trans
    (keepsOff_setEvt _ 0 (Fld.onMemory_mem (g := R.MEM_EVT_UE) (by decide) hc))).trans (keepsOff_of_regs rfl)

theorem corrected_keepsOff (l kind pos : Nat) (scrub : Bool) : s.keepsOff (s.corrected c l kind pos scrub) :=
  (((s.keepsOff_setChan c _).trans (captureErr_keepsOff _ hc _ _ _ _)).trans (keepsOff_wr _ _ (Fld.onMemory_mem (g := R.MEM_CE_COUNT_COUNT) (by decide) hc))).trans
    (keepsOff_setEvt _ 0 (Fld.onMemory_mem (g := R.MEM_EVT_CE) (by decide) hc))

theorem rmwFail_keepsOff (l : Nat) : s.keepsOff (s.rmwFail c l) := (s.uncorrectable_keepsOff hc _ _).trans (keepsOff_setEvt _ 0 (Fld.onMemory_mem (g := R.MEM_EVT_RMW_FAIL) (by decide) hc))

theorem checkLine_keepsOff (l : Nat) (scrub : Bool) : s.keepsOff (s.checkLine c l scrub) := by
  unfold checkLine
  split
  · exact s.keepsOff_refl
  · exact s.corrected_keepsOff hc _ _ _ _
  · exact s.corrected_keepsOff hc _ _ _ _
  · exact s.uncorrectable_keepsOff hc _ _

theorem sweepTo_keepsOff (n : Nat) : s.keepsOff (s.sweepTo c n) :=
  ((s.keepsOff_setChan c _).trans (keepsOff_wr _ _ (Fld.onMemory_mem (g := R.MEM_FILL_FRONT_MIB) (by decide) hc))).trans (keepsOff_wr _ _ (Fld.onMemory_mem (g := R.MEM_FILL_OOO) (by decide) hc))

theorem fillBlock_keepsOff (b : Nat) : s.keepsOff (s.fillBlock c b) := by
  unfold fillBlock
  dsimp only
  split
  · exact (s.keepsOff_setChan c _).trans (keepsOff_wr _ _ (Fld.onMemory_mem (g := R.MEM_FILL_OOO) (by decide) hc))
  · exact s.sweepTo_keepsOff hc _

end

theorem chanOf_lt {s : State} {off c o : Nat} (h : s.chanOf off = some (c, o)) : c < 2 := by
  unfold chanOf at h
  split_ifs at h <;> cases h <;> decide

theorem lineOf_lt {s : State} {a c l : Nat} (h : s.lineOf a = some (c, l)) : c < 2 := by
  unfold lineOf at h
  split at h
  · obtain ⟨x, hx, heq⟩ := Option.map_eq_some_iff.mp h
    cases heq
    exact chanOf_lt hx
  · cases h

theorem linesOf_lt {s : State} {bs : List (Nat × Nat)} {x : Nat × Nat} (h : x ∈ s.linesOf bs) : x.1 < 2 := by
  obtain ⟨b, -, hb⟩ := List.mem_filterMap.mp (List.mem_dedup.mp h)
  exact lineOf_lt hb

theorem setBytes_keepsOff (s : State) (a : Nat) (l : List Byte) : s.keepsOff (s.setBytes a l) := keepsOff_of_regs rfl

theorem serveLine_keepsOff (s : State) (x : LineAccess) : s.keepsOff (s.serveLine x).2 := by
  unfold serveLine
  split
  · exact s.keepsOff_refl
  next c l hl =>
    have hc := lineOf_lt hl
    dsimp only
    split
    · exact s.keepsOff_refl
    · split
      · exact s.checkLine_keepsOff hc _ _
      · split
        · dsimp only
          split
          · exact s.keepsOff_refl
          · exact (s.keepsOff_setChan c _).trans (setBytes_keepsOff _ _ _)
        · split
          · exact s.rmwFail_keepsOff hc _
          · exact (s.checkLine_keepsOff hc _ _).trans (setBytes_keepsOff _ _ _)

theorem domState_onMemory {d : Nat} (h : d < 100) : (domState d).onMemory := by
  refine ⟨rfl, (by decide : (0 : Nat) < 64), .inl ?_⟩
  simp only [domState, Fld.ix, R.PWR_DOM_STAT_STATE]
  omega

theorem unitDomain_lt {p : Pool} {u : Nat} (h : u < 20) : unitDomain p u < 100 := by
  cases p <;> simp only [unitDomain] <;> (try split) <;> omega

theorem opWinUnit_lt {a : Nat} {x : Pool × Nat} (h : opWinUnit a = some x) : x.2 < 20 := by
  unfold opWinUnit at h
  dsimp only at h
  generalize a - opWinBase = o at h
  split_ifs at h <;> cases h <;> dsimp only <;> omega

theorem memDomain_lt {s : State} {a d : Nat} (h : s.memDomain a = some d) : d < 100 := by
  unfold memDomain at h
  split at h
  · cases h
    decide
  · cases h
    decide
  · obtain ⟨x, hx, hd⟩ := Option.map_eq_some_iff.mp h
    exact hd ▸ unitDomain_lt (opWinUnit_lt hx)
  · cases h

theorem wakeMem_keepsOff (s : State) (a : Nat) : s.keepsOff (s.wakeMem a) := by
  unfold wakeMem
  split
  next d hd =>
    unfold wake
    split
    · exact s.keepsOff_wr 0 (domState_onMemory (memDomain_lt hd))
    · exact s.keepsOff_refl
  · exact s.keepsOff_refl

theorem awaitFill_keepsOff (s : State) (a : Nat) : s.keepsOff (s.awaitFill a) := by
  unfold awaitFill
  split
  next c l hl =>
    split
    · exact s.fillBlock_keepsOff (lineOf_lt hl) _
    · exact s.keepsOff_refl
  · exact s.keepsOff_refl

/-- The accesses that wait for a line are served. -/
theorem serveLines_keepsOff (l : List LineAccess) : ∀ (r : List LineDone × State), r.2.keepsOff
    (l.foldl (fun r x => let (a, s) := r.2.serveLine x; (r.1 ++ [{ access := x, answer := a }], s)) r).2 := by
  induction l with
  | nil => exact fun r => r.2.keepsOff_refl
  | cons x l ih => exact fun r => (r.2.serveLine_keepsOff x).trans (ih _)

theorem yieldLock_keepsOff (s : State) (c l : Nat) : s.keepsOff (s.yieldLock c l) := by
  unfold yieldLock
  split
  · exact s.keepsOff_refl
  next k _ => exact (serveLines_keepsOff k.waiting (k.served, s)).trans (keepsOff_setChan _ _ _)

theorem awaitLines_keepsOff (s : State) (bs : List (Nat × Nat)) : s.keepsOff (s.awaitLines bs) := by
  have hstep (u : State) (b : Nat × Nat) : u.keepsOff ((u.wakeMem b.1).awaitFill b.1) := (u.wakeMem_keepsOff b.1).trans ((u.wakeMem b.1).awaitFill_keepsOff b.1)
  have h1 (u : State) : u.keepsOff (bs.foldl (fun s b => (s.wakeMem b.1).awaitFill b.1) u) := keepsOff_foldl (fun s b _ => hstep s b) u
  have h2 (u : State) (l : List (Nat × Nat)) : u.keepsOff (l.foldl (fun s x => s.yieldLock x.1 x.2) u) :=
    keepsOff_foldl (fun s x _ => s.yieldLock_keepsOff x.1 x.2) u
  exact (h1 s).trans (h2 _ _)

theorem putBeats_keepsOff (skip : Nat × Nat → Bool) (bs : List (Nat × Nat)) : ∀ (l : List Byte) (s : State), s.keepsOff (putBeats skip bs l s) := by
  induction bs with
  | nil => exact fun _ s => s.keepsOff_refl
  | cons b bs ih =>
    intro l s
    unfold putBeats
    split
    · exact ih _ s
    · exact (s.setBytes_keepsOff _ _).trans (ih _ _)

/-- A write of an engine changes no register but those of memory. -/
theorem writeMem_keepsOff (s : State) (cls : Nat) (w : World) (a : Nat) (l : List Byte) : s.keepsOff (s.writeMem cls w a l).2 := by
  let up := s.openBeats cls .write w (beats a l.length)
  let s1 := s.awaitLines up
  let full := (up.partition fun b => coversLine up b.1).1
  let part := (up.partition fun b => coversLine up b.1).2
  let s2 := if s1.tap.extest then s1 else (s1.linesOf full).foldl (fun s x => s.cleanLine x.1 x.2) s1
  have h2 : s1.keepsOff s2 := by
    unfold s2
    split
    · exact s1.keepsOff_refl
    · exact keepsOff_foldl (fun s _ _ => s.keepsOff_setChan _ _) s1
  let lost := (s2.linesOf part).filter fun x => s2.lineRead x.1 x.2 == .uncorrectable
  let s3 := (s2.linesOf part).foldl (fun s x => if lost.contains x then s.rmwFail x.1 x.2 else s.checkLine x.1 x.2 false) s2
  have h3 : s2.keepsOff s3 := by
    refine keepsOff_foldl (fun s x hx => ?_) s2
    split
    · exact s.rmwFail_keepsOff (linesOf_lt hx) _
    · exact s.checkLine_keepsOff (linesOf_lt hx) _ _
  exact (((s.awaitLines_keepsOff up).trans h2).trans h3).trans ((putBeats_keepsOff _ _ _ _).trans (noteRefusal_keepsOff _ _ _ _ _))

theorem writeAccesses_keepsOff (cls : Nat) (w : World) (t : List (Nat × Nat)) : ∀ (l : List Byte) (s : State), s.keepsOff (writeAccesses cls w t l s).2 := by
  induction t with
  | nil => exact fun _ s => s.keepsOff_refl
  | cons x t ih =>
    intro l s
    have h := s.writeMem_keepsOff cls w x.1 (l.take x.2)
    unfold writeAccesses
    split
    next s' heq =>
      rw [heq] at h
      exact h.trans (ih _ _)
    next s' heq =>
      rw [heq] at h
      exact h

theorem dmaOut_keepsOff (s : State) (cls : Nat) (w : World) (a : Nat) (l : List Byte) : s.keepsOff (s.dmaOut cls w a l).2 := writeAccesses_keepsOff _ _ _ _ _

/-- A read of an engine changes no register but those of memory. -/
theorem readMem_keepsOff (s : State) (cls : Nat) (w : World) (k : AccKind) (a n : Nat) : s.keepsOff (s.readMem cls w k a n).2.2 := by
  let up := s.openBeats cls k w (beats a n)
  let s1 := s.awaitLines up
  have h1 : s1.keepsOff ((s1.linesOf up).foldl (fun s x => s.checkLine x.1 x.2 false) s1) :=
    keepsOff_foldl (fun s x hx => s.checkLine_keepsOff (linesOf_lt hx) _ _) s1
  exact ((s.awaitLines_keepsOff up).trans h1).trans (noteRefusal_keepsOff _ _ _ _ _)

theorem readAccesses_keepsOff (cls : Nat) (w : World) (t : List (Nat × Nat)) : ∀ s : State, s.keepsOff (readAccesses cls w t s).2.2 := by
  induction t with
  | nil => exact keepsOff_refl
  | cons x t ih =>
    intro s
    have h := s.readMem_keepsOff cls w .read x.1 x.2
    unfold readAccesses
    split
    next d s' heq =>
      rw [heq] at h
      exact h.trans (ih _)
    next d s' heq =>
      rw [heq] at h
      exact h

theorem dmaIn_keepsOff (s : State) (cls : Nat) (w : World) (a n : Nat) : s.keepsOff (s.dmaIn cls w a n).2.2 := readAccesses_keepsOff _ _ _ _

end State

end Sys2Proof.Machine
end

section
/-! An alarm of any response while no command is in flight: what it leaves of the dispatcher, of the accesses due and of the registers of Spawn and of
the control queues. -/

namespace Sys2Proof.Machine

/-- A field of Spawn or of the dispatcher. -/
def Fld.outlastsAlarm (f : Fld) : Prop := (0x60000 * 64 ≤ f.key ∧ f.key < 0x60200 * 64) ∨ (0xC0000 * 64 ≤ f.key ∧ f.key < 0xC1000 * 64)

/-- No command in flight, no alarm due, and the fields of Spawn and of the dispatcher as before. -/
structure State.AlarmKept (s t : State) : Prop where
  inflight : t.dsp.inflight = s.dsp.inflight
  due : t.tmp.due = s.tmp.due
  regs : ∀ f : Fld, f.outlastsAlarm → t.rd f = s.rd f

namespace State

theorem AlarmKept.refl (s : State) : s.AlarmKept s := ⟨rfl, rfl, fun _ _ => rfl⟩

theorem AlarmKept.trans {s t u : State} (h : s.AlarmKept t) (h' : t.AlarmKept u) : s.AlarmKept u :=
  ⟨h'.inflight.trans h.inflight, h'.due.trans h.due, fun f hf => (h'.regs f hf).trans (h.regs f hf)⟩

theorem AlarmKept.of_same {s t : State} (hdsp : t.dsp = s.dsp) (htmp : t.tmp = s.tmp) (hregs : t.regs = s.regs) : s.AlarmKept t :=
  ⟨congrArg Dsp.inflight hdsp, congrArg Tmp.due htmp, fun f _ => rd_of_regs hregs f⟩

theorem AlarmKept.of_keepsRegs {s t : State} {l : List Fld} (hdsp : t.dsp = s.dsp) (htmp : t.tmp = s.tmp) (hregs : s.keepsRegs t l)
    (hl : ∀ k ∈ l.map Fld.key, ¬((0x60000 * 64 ≤ k ∧ k < 0x60200 * 64) ∨ (0xC0000 * 64 ≤ k ∧ k < 0xC1000 * 64))) : s.AlarmKept t :=
  ⟨congrArg Dsp.inflight hdsp, congrArg Tmp.due htmp, fun f hf => hregs f fun hm => hl _ hm hf⟩

theorem AlarmKept.wr (s : State) {g : Fld} (v : Nat) (h : ¬g.outlastsAlarm) : s.AlarmKept (s.wr g v) :=
  ⟨rfl, rfl, fun f hf => rd_wr_other _ _ fun hk => h (by unfold Fld.outlastsAlarm at hf ⊢; omega)⟩

theorem AlarmKept.setEvt (s : State) {g : Fld} (b : Nat) (h : ¬g.outlastsAlarm ∧ ¬g.seq.outlastsAlarm) : s.AlarmKept (s.setEvt g b) :=
  ⟨rfl, rfl, fun f hf => s.rd_setEvt_other b (fun hk => h.1 (by unfold Fld.outlastsAlarm at hf ⊢; omega)) fun hk => h.2 (by unfold Fld.outlastsAlarm at hf ⊢; omega)⟩

theorem flagSource_alarmKept (s : State) (acted : Bool) {src : Nat} (h : src < 24) : s.AlarmKept (s.flagSource acted src) :=
  .of_keepsRegs (flagSource_keepsDsp rfl) (flagSource_keepsTmp rfl) (s.flagSource_keepsRegs acted h) (by decide +kernel)

theorem setStatus_alarmKept (s : State) {f : Fld} (v : Nat) (h : f.off = 0x8 ∧ f.bank = 0 ∧ f.lsb < 64) : s.AlarmKept (s.setStatus f v) := by
  refine .of_keepsRegs (l := f :: statusFields) (setStatus_keepsDsp rfl) (setStatus_keepsTmp rfl) (s.setStatus_keepsRegs v (by simp) (List.subset_cons_self _ _)) fun k hk => ?_
  have hstatus : ∀ k ∈ statusFields.map Fld.key, ¬((0x60000 * 64 ≤ k ∧ k < 0x60200 * 64) ∨ (0xC0000 * 64 ≤ k ∧ k < 0xC1000 * 64)) := by decide +kernel
  rcases List.mem_cons.mp hk with rfl | hk
  · obtain ⟨h1, h2, h3⟩ := h
    simp only [Fld.key, h1, h2]
    omega
  · exact hstatus k hk

theorem decideRecord_alarmKept (s : State) (kind source sev arg : Nat) : s.AlarmKept (s.decideRecord kind source sev arg) :=
  .of_keepsRegs (decideRecord_keepsDsp rfl) (decideRecord_keepsTmp rfl) (s.decideRecord_keepsRegs kind source sev arg) (by decide +kernel)

theorem refreshVf_alarmKept (s : State) (w : Nat) : s.AlarmKept (s.refreshVf w) := by
  refine ⟨congrArg Dsp.inflight (refreshVf_keepsDsp (s := s) (old := s.dsp) rfl), congrArg Tmp.due (refreshVf_keepsTmp (s := s) (old := s.tmp) rfl), fun f hf => ?_⟩
  have hne (q : Port) (k : Nat) : f.key ≠ (R.VFS_STATE_SUSPENDED.vf q k).key := by
    simp only [Fld.outlastsAlarm] at hf
    simp only [Fld.key, Fld.vf, Fld.add, R.VFS_STATE_SUSPENDED] at hf ⊢
    omega
  unfold refreshVf
  dsimp only
  generalize (if w < 128 then Port.a else Port.b) = q
  generalize (if (s.flag R.GLB_STATUS_SUSPENDED || _) = true then 1 else 0) = v
  split
  · rfl
  · exact (rd_of_regs (vector_keepsRegs rfl) f).trans (rd_wr_other _ _ (hne _ _))

theorem AlarmKept.foldl {α : Type} {g : State → α → State} (h : ∀ (s : State) (a : α), s.AlarmKept (g s a)) (l : List α) : ∀ s : State, s.AlarmKept (l.foldl g s) := by
  induction l with
  | nil => exact .refl
  | cons a l ih => exact fun s => (h s a).trans (ih _)

theorem abortSuspended_idle {s : State} (h : s.dsp.inflight = []) : s.abortSuspended = s := by
  unfold abortSuspended
  rw [h]
  rfl

theorem entropyLost_idle {s : State} (h : s.dsp.inflight = []) : s.entropyLost = s := by
  unfold entropyLost
  rw [h]
  rfl

theorem zeroize_alarmKept (s : State) : s.AlarmKept s.zeroize := by
  let s1 := s.cancelApprovals fun _ => true
  let s2 : State := { s1 with
    keys := { s1.keys with slots := [], keys := [], owners := [], rederive := [], lost := [] },
    dsp := { s1.dsp with ctxs := [], ctxKey := [] } }
  have h1 : s.AlarmKept s1 := .of_same (cancelApprovals_keepsDsp rfl) (cancelApprovals_keepsTmp rfl) (cancelApprovals_keepsRegs rfl)
  have hstop (u : State) {c : Nat} (hc : c < 2) : u.AlarmKept (if u.rd (R.MEM_STATUS_STATE.mem c) = 0 then u else u.wr (R.MEM_STATUS_STATE.mem c) 5) := by
    split
    · exact .refl u
    · refine .wr u 5 ?_
      simp only [Fld.outlastsAlarm, Fld.key, Fld.mem, Fld.add, R.MEM_STATUS_STATE]
      omega
  exact (((h1.trans (⟨rfl, rfl, fun _ _ => rfl⟩ : s1.AlarmKept s2)).trans (hstop s2 (c := 0) (by decide))).trans (hstop _ (c := 1) (by decide))).trans (.wr _ 0 (by unfold Fld.outlastsAlarm; decide))

/-- One step of the response. -/
theorem respond_alarmKept {s : State} (h : s.dsp.inflight = []) (k : Nat) : s.AlarmKept (s.respond k) := by
  unfold respond
  split
  · exact s.setStatus_alarmKept _ (by decide)
  · split
    · have h1 : s.AlarmKept (s.setStatus R.GLB_STATUS_SUSPENDED 1) := s.setStatus_alarmKept _ (by decide)
      have h2 : (s.setStatus R.GLB_STATUS_SUSPENDED 1).AlarmKept (s.setStatus R.GLB_STATUS_SUSPENDED 1).refreshSuspended := AlarmKept.foldl refreshVf_alarmKept _ _
      rw [abortSuspended_idle ((h1.trans h2).inflight.trans h)]
      exact h1.trans h2
    · split
      · have h1 : s.AlarmKept (if s.twn.authed && s.twn.linkUp then s.sendClose true none else s) := by
          split
          · exact .of_same (sendClose_keepsDsp rfl) (sendClose_keepsTmp rfl) (sendClose_keepsRegs rfl)
          · exact .refl s
        dsimp only
        generalize (if s.twn.authed && s.twn.linkUp then s.sendClose true none else s) = s1 at h1 ⊢
        split
        · exact h1
        · exact (h1.trans s1.zeroize_alarmKept).trans ⟨rfl, rfl, fun _ _ => rfl⟩
      · split
        · exact ⟨rfl, rfl, fun _ _ => rfl⟩
        · split
          · exact ⟨rfl, rfl, fun _ _ => rfl⟩
          · exact .refl s

theorem respondAll_alarmKept {s : State} (h : s.dsp.inflight = []) (lo n : Nat) : s.AlarmKept (s.respondAll lo n) := by
  induction n generalizing s lo with
  | zero => exact .refl s
  | succ n ih => exact (respond_alarmKept h lo).trans (ih ((respond_alarmKept h lo).inflight.trans h) (lo + 1))

theorem execCode_alarmKept {s : State} (h : s.dsp.inflight = []) (srcs c : Nat) : s.AlarmKept (s.execCode srcs c) := by
  unfold execCode
  extract_lets lo old s1 s2 s3 s4
  split
  · exact .refl s
  · have h1 : s.AlarmKept s1 := ⟨rfl, rfl, fun _ _ => rfl⟩
    have h2 : s1.AlarmKept s2 := respondAll_alarmKept (h1.inflight.trans h) _ _
    have h3 : s2.AlarmKept s3 := by
      unfold s3
      split
      · exact s2.setStatus_alarmKept _ (by decide)
      · exact .refl s2
    exact (((h1.trans h2).trans h3).trans (.wr s3 _ (by unfold Fld.outlastsAlarm; decide))).trans (setStatus_alarmKept _ _ (by decide))

theorem alarmRecord_alarmKept (s : State) (srcs code : Nat) (atStart : Bool) : s.AlarmKept (s.alarmRecord srcs code atStart) := by
  unfold alarmRecord
  split
  · exact ⟨rfl, rfl, fun _ _ => rfl⟩
  · exact s.decideRecord_alarmKept _ _ _ _

/-- An alarm while no command is in flight. -/
theorem raiseAlarm_alarmKept {s : State} (h : s.dsp.inflight = []) {src : Nat} (hsrc : src < 24) : s.AlarmKept (s.raiseAlarms [src]) := by
  have h1 := s.flagSource_alarmKept true hsrc
  exact (h1.trans (execCode_alarmKept (h1.inflight.trans h) _ _)).trans (alarmRecord_alarmKept _ _ _ _)

/-- A change of the capacity while no command is in flight. -/
theorem recapacity_alarmKept {s : State} (h : s.dsp.inflight = []) (before : List Nat) : s.AlarmKept (s.recapacity before) := by
  have h1 : s.AlarmKept s.writeCapacity := by
    have hun := s.writeCapacity_unalarmed
    have hkeep := s.writeCapacity_keepsRegs
    generalize s.writeCapacity = t at hun hkeep ⊢
    exact ⟨(congrArg (fun s : State => s.dsp.inflight) hun :), (congrArg (fun s : State => s.tmp.due) hun :),
      fun f hf => hkeep f fun hm => (by decide +kernel : ∀ k ∈ capacityFields.map Fld.key, ¬((0x60000 * 64 ≤ k ∧ k < 0x60200 * 64) ∨ (0xC0000 * 64 ≤ k ∧ k < 0xC1000 * 64))) _ hm hf⟩
  have h2 : s.writeCapacity.AlarmKept (s.writeCapacity.setEvtAll R.GLB_EVT_CAPACITY) := by
    obtain ⟨hkeep, hun⟩ := s.writeCapacity.setEvtAll_capacity
    generalize s.writeCapacity.setEvtAll R.GLB_EVT_CAPACITY = t at hkeep hun ⊢
    exact ⟨(congrArg (fun s : State => s.dsp.inflight) hun :), (congrArg (fun s : State => s.tmp.due) hun :),
      fun f hf => hkeep f fun hm => (by decide +kernel : ∀ k ∈ capacityEvents.map Fld.key, ¬((0x60000 * 64 ≤ k ∧ k < 0x60200 * 64) ∨ (0xC0000 * 64 ≤ k ∧ k < 0xC1000 * 64))) _ hm hf⟩
  have h12 := h1.trans h2
  unfold recapacity
  dsimp only
  generalize s.writeCapacity.setEvtAll R.GLB_EVT_CAPACITY = s1 at h12 ⊢
  split
  · exact (h12.trans (raiseAlarm_alarmKept (h12.inflight.trans h) (by decide))).trans (decideRecord_alarmKept _ _ _ _ _)
  · exact h12

end State

end Sys2Proof.Machine
end

section
/-! The rows of Spawn (R305 to R320). -/

namespace Sys2Proof.Machine

/-- Fields of a quadrant lie in two words of its own. -/
theorem quadKeys (q : Nat) : (R.ENT_QSTAT_STATE.ix q).key = (0x60100 + 4 * q) * 64 ∧ (R.ENT_QSTAT_QUAR.ix q).key = (0x60100 + 4 * q) * 64 + 3 ∧
    (R.ENT_QEVT_FAIL.ix q).key = (0x60140 + 4 * q) * 64 ∧ (R.ENT_QEVT_JOINED.ix q).key = (0x60140 + 4 * q) * 64 + 1 ∧
    (R.ENT_QEVT_CAP_DONE.ix q).key = (0x60140 + 4 * q) * 64 + 2 ∧ (R.ENT_QEVT_FAIL.ix q).seq.key = (0x60140 + 4 * q) * 64 + 16 ∧
    (R.ENT_QEVT_JOINED.ix q).seq.key = (0x60140 + 4 * q) * 64 + 16 ∧ (R.ENT_QEVT_CAP_DONE.ix q).seq.key = (0x60140 + 4 * q) * 64 + 16 := by
  refine ⟨?_, ?_, ?_, ?_, ?_, ?_, ?_, ?_⟩ <;>
    simp only [Fld.key, Fld.seq, Fld.ix, R.ENT_QSTAT_STATE, R.ENT_QSTAT_QUAR, R.ENT_QEVT_FAIL, R.ENT_QEVT_JOINED, R.ENT_QEVT_CAP_DONE] <;> omega

namespace State
variable {s : State} {q : Nat}

theorem pump_of_idle (h : s.dsp.inflight = []) : s.pump = s.settle := by
  unfold pump
  rw [h]
  rfl

/-- The quadrant that joins, before Spawn is ready. -/
def quadJoined (s : State) (q : Nat) : State :=
  let s := ((s.wr (R.ENT_QSTAT_STATE.ix q) 2).wr R.ENT_STATUS_IN_SERVICE (s.rd R.ENT_STATUS_IN_SERVICE + 1)).setEvt (R.ENT_QEVT_JOINED.ix q)
  if !s.ent.joined.contains q then { s with ent := { s.ent with joined := q :: s.ent.joined } } else s

theorem quadJoined_shown (s : State) (hq : q < 4) : let t := s.quadJoined q
    t.quad q = 2 ∧ t.rd R.ENT_STATUS_IN_SERVICE = (s.rd R.ENT_STATUS_IN_SERVICE + 1) % 8 ∧ t.rd (R.ENT_QEVT_JOINED.ix q) = 1 ∧ q ∈ t.ent.joined ∧
      t.rd R.ENT_STATUS_READY = s.rd R.ENT_STATUS_READY ∧ t.rd R.ENT_STATUS_FAILED = s.rd R.ENT_STATUS_FAILED ∧ t.rd R.GLB_STATUS_RECOVERY = s.rd R.GLB_STATUS_RECOVERY := by
  obtain ⟨hst, -, -, hjoin, -, -, hseq, -⟩ := quadKeys q
  have hfix : R.ENT_STATUS_READY.key = 0x60000 * 64 ∧ R.ENT_STATUS_FAILED.key = 0x60000 * 64 + 1 ∧ R.ENT_STATUS_IN_SERVICE.key = 0x60000 * 64 + 2 ∧
      R.GLB_STATUS_RECOVERY.key < 0x60000 * 64 := by decide
  let s1 := ((s.wr (R.ENT_QSTAT_STATE.ix q) 2).wr R.ENT_STATUS_IN_SERVICE (s.rd R.ENT_STATUS_IN_SERVICE + 1)).setEvt (R.ENT_QEVT_JOINED.ix q)
  have ht : s.quadJoined q = if !s1.ent.joined.contains q then { s1 with ent := { s1.ent with joined := q :: s1.ent.joined } } else s1 := rfl
  have hrd (f : Fld) : (s.quadJoined q).rd f = s1.rd f := by
    rw [ht]
    split <;> rfl
  have hother {f : Fld} (h1 : f.key ≠ (R.ENT_QEVT_JOINED.ix q).key) (h2 : f.key ≠ (R.ENT_QEVT_JOINED.ix q).seq.key) :
      s1.rd f = ((s.wr (R.ENT_QSTAT_STATE.ix q) 2).wr R.ENT_STATUS_IN_SERVICE (s.rd R.ENT_STATUS_IN_SERVICE + 1)).rd f := rd_setEvt_other _ _ h1 h2
  have hsame {f : Fld} (h1 : f.key ≠ (R.ENT_QEVT_JOINED.ix q).key) (h2 : f.key ≠ (R.ENT_QEVT_JOINED.ix q).seq.key) (h3 : f.key ≠ R.ENT_STATUS_IN_SERVICE.key)
      (h4 : f.key ≠ (R.ENT_QSTAT_STATE.ix q).key) : (s.quadJoined q).rd f = s.rd f := by
    rw [hrd, hother h1 h2, rd_wr_other _ _ h3, rd_wr_other _ _ h4]
  refine ⟨?_, ?_, ?_, ?_, hsame (by omega) (by omega) (by omega) (by omega), hsame (by omega) (by omega) (by omega) (by omega), hsame (by omega) (by omega) (by omega) (by omega)⟩
  · unfold quad
    rw [hrd, hother (by omega) (by omega), rd_wr_other _ _ (by omega)]
    exact rd_wr_same ..
  · rw [hrd, hother (by omega) (by omega)]
    exact rd_wr_same ..
  · rw [hrd]
    exact rd_setEvt_same _ rfl (by omega)
  · rw [ht]
    split
    · exact List.mem_cons_self
    next h => simpa using h

theorem quadJoined_kept (s : State) (q : Nat) : let t := s.quadJoined q
    t.mem = s.mem ∧ t.dsp = s.dsp ∧ t.tmp = s.tmp ∧ t.boot = s.boot ∧ t.keys = s.keys := by
  unfold quadJoined
  dsimp only
  split <;> exact ⟨rfl, rfl, rfl, rfl, rfl⟩

/-- A quadrant that joins before the known-answer tests are done. -/
theorem joinQuad_early (hkat : s.boot.katDone = false) :
    s.joinQuad q = if (s.quadJoined q).flag R.ENT_STATUS_READY || (s.quadJoined q).flag R.ENT_STATUS_FAILED then s.quadJoined q else (s.quadJoined q).entReady := by
  have hcap : (if !s.ent.joined.contains q then (s.quadJoined q).entCapacity s.capacityList else s.quadJoined q) = s.quadJoined q := by
    split
    · exact if_neg (by rw [(s.quadJoined_kept q).2.2.2.1, hkat]; decide)
    · rfl
  have ht : s.joinQuad q = (fun u : State => if u.flag R.ENT_STATUS_READY || u.flag R.ENT_STATUS_FAILED then u else u.entReady)
      (if !s.ent.joined.contains q then (s.quadJoined q).entCapacity s.capacityList else s.quadJoined q) := rfl
  rw [ht, hcap]

theorem slotAt_setSlot_other (s : State) {p m : Nat} (h : m ≠ p) (v : Option Slot) : (s.setSlot p v).slotAt m = s.slotAt m := tblGet_put_other _ _ _ _ h

theorem rd_countDraw (s : State) {f : Fld} (h : f.key ≠ R.ENT_DRAWN_BYTES.key) (n : Nat) : (s.countDraw n).rd f = s.rd f := rd_wr_other _ _ h

/-- A reserved slot that is filled where nothing was moved or fenced. -/
theorem fillDevice_eq (hfenced : s.keys.fenced = []) (hmap : s.keys.reservedMap = []) (n : Nat) {b : List Byte} :
    s.fillDevice n b = (s.countDraw b.length).setSlot n (some (mkSlot (s.delivered b.length) b { secretLen := b.length } n (.device n))) := by
  have hslot : s.reservedSlot n = n := by
    unfold reservedSlot
    rw [hmap]
    rfl
  unfold fillDevice
  rw [hslot, hfenced]
  rfl

/-- The two device keys that step 7 of the start draws, the second given back. -/
def step7Fill (s : State) : List Byte × State :=
  let (k, s) := s.draw 32
  let s := s.fillDevice 3 k
  let (k, s) := s.draw 32
  (k, s.fillDevice 4 k)

/-- The context key and the boot id of the start. -/
def step7Boot (s : State) (k : List Byte) : State :=
  let (b, s) := s.draw 8
  { s with dsp := { s.dsp with ctxKey := k, bootId := b }, boot := { s.boot with keysDrawn := true } }

/-- The backup domain's key, where it has none. -/
def step7Bbk (s : State) : State :=
  if s.tmp.bbk.isEmpty then
    let (b, s) := s.draw 32
    { s with tmp := { s.tmp with bbk := b } }
  else s

/-- The seeds of the tamper loops. -/
def step7Loops (s : State) : State :=
  let (l, s) := s.draw 8
  { s with tmp := { s.tmp with loops := (List.range 4).map fun n => loopSeed n (leAt l (2 * n) 2) } }

theorem startStep7_eq (hrec : s.recovery = false) (hdrawn : s.boot.keysDrawn = false) (halive : s.boot.alive = true) :
    s.startStep7 = ((s.step7Fill.2.step7Boot s.step7Fill.1).step7Bbk.step7Loops.trainChannel 0).wr R.BOOT_STATUS_STAGE 3 := by
  unfold startStep7
  rw [if_neg (by simp [hrec, hdrawn, halive])]
  rfl

/-- A step of the start that draws. -/
structure Drew (s t : State) : Prop where
  inflight : t.dsp.inflight = s.dsp.inflight
  due : t.tmp.due = s.tmp.due
  regs : ∀ f : Fld, f.key ≠ R.ENT_DRAWN_BYTES.key → t.rd f = s.rd f

theorem Drew.trans {s t u : State} (h : s.Drew t) (h' : t.Drew u) : s.Drew u :=
  ⟨h'.inflight.trans h.inflight, h'.due.trans h.due, fun f hf => (h'.regs f hf).trans (h.regs f hf)⟩

theorem drew_draw (s : State) (n : Nat) : s.Drew (s.draw n).2 := ⟨rfl, rfl, fun _ hf => s.rd_countDraw hf n⟩

/-- The key of DDR5 lies in its slot, and no slot was moved or fenced. -/
def hasDdrKey (s : State) : Prop := s.keys.fenced = [] ∧ s.keys.reservedMap = [] ∧ ∃ sl, s.slotAt 3 = some sl ∧ sl.holder = .device 3

theorem fillDevice_drew (hfenced : s.keys.fenced = []) (hmap : s.keys.reservedMap = []) (n : Nat) (b : List Byte) : s.Drew (s.fillDevice n b) := by
  rw [fillDevice_eq hfenced hmap]
  exact ⟨rfl, rfl, fun f hf => s.rd_countDraw hf _⟩

theorem fillDevice_ddr (hfenced : s.keys.fenced = []) (hmap : s.keys.reservedMap = []) (b : List Byte) : (s.fillDevice 3 b).hasDdrKey := by
  rw [fillDevice_eq hfenced hmap]
  exact ⟨hfenced, hmap, _, slotAt_setSlot_same _ _ _, rfl⟩

theorem hasDdrKey.fill (h : s.hasDdrKey) (b : List Byte) : (s.fillDevice 4 b).hasDdrKey := by
  obtain ⟨hfenced, hmap, sl, hsl, hholder⟩ := h
  rw [fillDevice_eq hfenced hmap]
  refine ⟨hfenced, hmap, sl, ?_, hholder⟩
  exact (slotAt_setSlot_other _ (by decide) _).trans hsl

theorem step7Fill_shown (hfenced : s.keys.fenced = []) (hmap : s.keys.reservedMap = []) : s.Drew s.step7Fill.2 ∧ s.step7Fill.2.hasDdrKey := by
  have ht : s.step7Fill.2 = (((s.draw 32).2.fillDevice 3 (s.draw 32).1).draw 32).2.fillDevice 4 (((s.draw 32).2.fillDevice 3 (s.draw 32).1).draw 32).1 := rfl
  have h1 : s.Drew (s.draw 32).2 := s.drew_draw 32
  have hkeys1 : (s.draw 32).2.keys = s.keys := rfl
  rw [ht]
  generalize (s.draw 32).2 = s1 at h1 hkeys1 ⊢
  rw [← hkeys1] at hfenced hmap
  have h12 := h1.trans (fillDevice_drew hfenced hmap 3 (s.draw 32).1)
  have hkey : (s1.fillDevice 3 (s.draw 32).1).hasDdrKey := fillDevice_ddr hfenced hmap _
  generalize s1.fillDevice 3 (s.draw 32).1 = s2 at h12 hkey ⊢
  have hkey3 : (s2.draw 32).2.hasDdrKey := hkey
  have h3 := h12.trans (s2.drew_draw 32)
  generalize (s2.draw 32).2 = s3 at h3 hkey3 ⊢
  exact ⟨h3.trans (fillDevice_drew hkey3.1 hkey3.2.1 4 _), hkey3.fill _⟩

theorem step7Boot_shown (s : State) (k : List Byte) : s.Drew (s.step7Boot k) ∧ (s.step7Boot k).keys = s.keys ∧ (s.step7Boot k).boot.keysDrawn = true :=
  ⟨⟨rfl, rfl, fun _ hf => s.rd_countDraw hf 8⟩, rfl, rfl⟩

theorem step7Bbk_shown (s : State) : s.Drew s.step7Bbk ∧ s.step7Bbk.keys = s.keys ∧ s.step7Bbk.boot = s.boot := by
  unfold step7Bbk
  split
  · exact ⟨⟨rfl, rfl, fun _ hf => s.rd_countDraw hf 32⟩, rfl, rfl⟩
  · exact ⟨⟨rfl, rfl, fun _ _ => rfl⟩, rfl, rfl⟩

theorem step7Loops_shown (s : State) : s.Drew s.step7Loops ∧ s.step7Loops.keys = s.keys ∧ s.step7Loops.boot = s.boot :=
  ⟨⟨rfl, rfl, fun _ hf => s.rd_countDraw hf 8⟩, rfl, rfl⟩

theorem ddrKeyGone_false (h : s.hasDdrKey) : s.ddrKeyGone = false := by
  obtain ⟨-, hmap, sl, hsl, hholder⟩ := h
  have hslot : s.reservedSlot 3 = 3 := by
    unfold reservedSlot
    rw [hmap]
    rfl
  have hkey : s.deviceKey 3 = some sl.secret := by
    unfold deviceKey
    rw [hslot, hsl]
    exact if_pos hholder
  unfold ddrKeyGone
  rw [hkey]
  simp

/-- Step 7 of the start. -/
theorem startStep7_shown (hrec : s.recovery = false) (hdrawn : s.boot.keysDrawn = false) (halive : s.boot.alive = true) (hfenced : s.keys.fenced = [])
    (hmap : s.keys.reservedMap = []) : let t := s.startStep7
    t.boot.keysDrawn = true ∧ t.rd (R.MEM_STATUS_STATE.mem 0) = 1 ∧ t.rd R.BOOT_STATUS_STAGE = 3 ∧ t.dsp.inflight = s.dsp.inflight ∧ t.tmp.due = s.tmp.due ∧
      ∀ f : Fld, f.key ≠ R.ENT_DRAWN_BYTES.key → f.key ≠ (R.MEM_STATUS_STATE.mem 0).key → f.key ≠ R.BOOT_STATUS_STAGE.key → t.rd f = s.rd f := by
  obtain ⟨hfill, hkey⟩ := step7Fill_shown hfenced hmap
  rw [startStep7_eq hrec hdrawn halive]
  obtain ⟨hboot, hkeys5, hdrawn5⟩ := s.step7Fill.2.step7Boot_shown s.step7Fill.1
  have h5 := hfill.trans hboot
  have hkey5 : (s.step7Fill.2.step7Boot s.step7Fill.1).hasDdrKey := by
    unfold hasDdrKey slotAt at hkey ⊢
    rw [hkeys5]
    exact hkey
  generalize s.step7Fill.2.step7Boot s.step7Fill.1 = s5 at h5 hkey5 hdrawn5 ⊢
  obtain ⟨hbbk, hkeys6, hboot6⟩ := s5.step7Bbk_shown
  obtain ⟨hloops, hkeys7, hboot7⟩ := s5.step7Bbk.step7Loops_shown
  have h7 := (h5.trans hbbk).trans hloops
  have hkey7 : s5.step7Bbk.step7Loops.hasDdrKey := by
    unfold hasDdrKey slotAt at hkey5 ⊢
    rw [hkeys7, hkeys6]
    exact hkey5
  have hdrawn7 : s5.step7Bbk.step7Loops.boot.keysDrawn = true := by
    rw [hboot7, hboot6]
    exact hdrawn5
  generalize s5.step7Bbk.step7Loops = s7 at h7 hkey7 hdrawn7 ⊢
  have htrain : s7.trainChannel 0 = (s7.setChan 0 {}).wr (R.MEM_STATUS_STATE.mem 0) 1 := by
    unfold trainChannel
    rw [ddrKeyGone_false hkey7]
    rfl
  rw [htrain]
  refine ⟨hdrawn7, ?_, rd_wr_same .., h7.inflight, h7.due, fun f hf hmem hstage => ?_⟩
  · rw [rd_wr_other _ _ (by decide)]
    exact rd_wr_same ..
  · rw [rd_wr_other _ _ hstage, rd_wr_other _ _ hmem]
    exact h7.regs f hf

end State

end Sys2Proof.Machine
end

section
/-! Spawn: readiness, failures, trims, words granted and raw capture (R305 to R320). -/

namespace Sys2Proof.Machine

namespace State
variable {s : State} {q : Nat}

/-- Spawn as it shows that it is ready. -/
theorem readyShown_shown (s : State) : let t := ((s.wr R.ENT_STATUS_READY 1).setEvt R.ENT_EVT_READY).setStatus R.GLB_STATUS_ENT_READY 1
    t.rd R.ENT_STATUS_READY = 1 ∧ t.rd R.GLB_STATUS_RECOVERY = s.rd R.GLB_STATUS_RECOVERY ∧ (∀ q, t.quad q = s.quad q) ∧
      t.boot = s.boot ∧ t.keys = s.keys ∧ t.dsp = s.dsp ∧ t.tmp = s.tmp := by
  let s1 := (s.wr R.ENT_STATUS_READY 1).setEvt R.ENT_EVT_READY
  refine ⟨?_, ?_, fun q => ?_, setStatus_keepsBoot rfl, setStatus_keepsKeys rfl, setStatus_keepsDsp rfl, setStatus_keepsTmp rfl⟩
  · rw [rd_setStatus_other _ _ (by decide) (by decide), rd_setEvt_other _ _ (by decide) (by decide)]
    exact rd_wr_same ..
  · rw [rd_setStatus_other _ _ (by decide) (by decide), rd_setEvt_other _ _ (by decide) (by decide), rd_wr_other _ _ (by decide)]
  · have hkey := (quadKeys q).1
    have hready : R.ENT_STATUS_READY.key < 0x60100 * 64 ∧ R.ENT_EVT_READY.key < 0x60100 * 64 ∧ R.ENT_EVT_READY.seq.key < 0x60100 * 64 := by decide
    have hstatus : (R.ENT_QSTAT_STATE.ix q).key ∉ statusFields.map Fld.key := by
      have h : ∀ k ∈ statusFields.map Fld.key, k < 0x60000 * 64 ∨ k % 64 ≠ 0 := by decide
      intro hm
      have := h _ hm
      omega
    have hent : R.GLB_STATUS_ENT_READY.key < 0x60100 * 64 := by decide
    unfold quad
    rw [rd_setStatus_other _ _ (by omega) hstatus, rd_setEvt_other _ _ (by omega) (by omega), rd_wr_other _ _ (by omega)]

/-- Spawn that becomes ready in the course of the start. -/
theorem entReady_shown (hrec : s.rd R.GLB_STATUS_RECOVERY = 0) (hdrawn : s.boot.keysDrawn = false) (halive : s.boot.alive = true) (hfenced : s.keys.fenced = [])
    (hmap : s.keys.reservedMap = []) (hq : q < 4) : let t := s.entReady
    t.rd R.ENT_STATUS_READY = 1 ∧ t.boot.keysDrawn = true ∧ t.rd (R.MEM_STATUS_STATE.mem 0) = 1 ∧ t.rd R.BOOT_STATUS_STAGE = 3 ∧ t.dsp.inflight = s.dsp.inflight ∧
      t.tmp.due = s.tmp.due ∧ t.quad q = s.quad q := by
  obtain ⟨hready, hrec1, hquad, hboot, hkeys, hdsp, htmp⟩ := s.readyShown_shown
  unfold entReady
  dsimp only
  generalize ((s.wr R.ENT_STATUS_READY 1).setEvt R.ENT_EVT_READY).setStatus R.GLB_STATUS_ENT_READY 1 = s1 at hready hrec1 hquad hboot hkeys hdsp htmp ⊢
  obtain ⟨hdrawn2, hmem2, hstage2, hinf2, hdue2, hrd2⟩ := startStep7_shown (s := s1) (s1.flag_eq_false (hrec1.trans hrec)) (hboot ▸ hdrawn) (hboot ▸ halive)
    (hkeys ▸ hfenced) (hkeys ▸ hmap)
  have hkey := (quadKeys q).1
  have hother : R.ENT_DRAWN_BYTES.key < 0x60100 * 64 ∧ 0x60200 * 64 ≤ (R.MEM_STATUS_STATE.mem 0).key ∧ R.BOOT_STATUS_STAGE.key < 0x60100 * 64 := by decide
  exact ⟨(hrd2 _ (by decide) (by decide) (by decide)).trans hready, hdrawn2, hmem2, hstage2, hinf2.trans (congrArg Dsp.inflight hdsp), hdue2.trans (congrArg Tmp.due htmp),
    (hrd2 _ (by omega) (by omega) (by omega)).trans (hquad q)⟩

/-- A cell of a window is trimmed on its own. -/
theorem trimCells_below (lo hi : Nat) (ones : List Nat) : ∀ (s : State) (c k : Nat), k < q * 512 + c → tblGet 32 (s.trimCells q lo hi c ones).ent.trims k = tblGet 32 s.ent.trims k := by
  induction ones with
  | nil => exact fun _ _ _ _ => rfl
  | cons n ones ih =>
    intro s c k hk
    exact (ih _ (c + 1) k (by omega)).trans (tblGet_put_other _ _ _ _ (by omega))

/-- The trims follow the counts of the window. -/
theorem trimCells_shown (lo hi : Nat) (ones : List Nat) : ∀ (s : State) (c : Nat), let t := s.trimCells q lo hi c ones
    { t with ent := s.ent } = s ∧ t.ent.acquired = s.ent.acquired ∧
      ∀ k n, ones[k]? = some n → tblGet 32 t.ent.trims (q * 512 + (c + k)) = trimStep (tblGet 32 s.ent.trims (q * 512 + (c + k))) n lo hi := by
  induction ones with
  | nil => exact fun s c => ⟨rfl, rfl, fun k n h => by simp at h⟩
  | cons n ones ih =>
    intro s c
    let s1 : State := { s with ent := { s.ent with trims := tblPut 32 s.ent.trims (q * 512 + c) (trimStep (tblGet 32 s.ent.trims (q * 512 + c)) n lo hi) } }
    obtain ⟨hrest, hacq, htrims⟩ := ih s1 (c + 1)
    refine ⟨congrArg (fun u : State => { u with ent := s.ent }) hrest, hacq, fun k m hk => ?_⟩
    cases k with
    | zero =>
      have hm : n = m := by simpa using hk
      subst hm
      exact (trimCells_below lo hi ones s1 (c + 1) (q * 512 + c) (by omega)).trans (tblGet_put_same 32 s.ent.trims (q * 512 + c) _)
    | succ k =>
      have hm := htrims k m (by simpa using hk)
      rw [show c + 1 + k = c + (k + 1) by omega] at hm
      refine hm.trans ?_
      rw [show tblGet 32 s1.ent.trims (q * 512 + (c + (k + 1))) = tblGet 32 s.ent.trims (q * 512 + (c + (k + 1))) from tblGet_put_other _ _ _ _ (by omega)]

/-- A cell whose count or trim fails the window is found. -/
theorem windowFails_found (ones : List Nat) : ∀ (c k n : Nat), ones[k]? = some n → (n < 1748 ∨ 2348 < n ∨ s.trimAtEnd q (c + k) = true) →
    ∃ x, s.windowFails q c ones = some x := by
  induction ones with
  | nil => exact fun c k n h => by simp at h
  | cons m ones ih =>
    intro c k n hk hbad
    unfold windowFails
    by_cases hm : balanceFails m = true
    · exact ⟨_, if_pos hm⟩
    · rw [if_neg hm]
      by_cases hend : s.trimAtEnd q c = true
      · exact ⟨_, if_pos hend⟩
      · rw [if_neg hend]
        cases k with
        | zero =>
          have hn : m = n := by simpa using hk
          subst hn
          simp only [balanceFails, Bool.or_eq_true, decide_eq_true_eq, not_or] at hm
          rcases hbad with h | h | h
          · exact absurd h hm.1
          · exact absurd h hm.2
          · exact absurd h hend
        | succ k =>
          refine ih (c + 1) k n (by simpa using hk) ?_
          rw [show c + 1 + k = c + (k + 1) by omega]
          exact hbad

/-- The registers of the quadrant that fails. -/
def quadOut (s : State) (q : Nat) : State :=
  let s := ((s.wr (R.ENT_QSTAT_STATE.ix q) 4).wr (R.ENT_QSTAT_QUAR.ix q) 0).setEvt (R.ENT_QEVT_FAIL.ix q)
  { s with ent := { s.ent with joined := s.ent.joined.filter (· != q) } }

/-- The quadrant that leaves service, before its failure shows in the capacity. -/
def quadFailed (s : State) (q cell test : Nat) : State :=
  let t := (s.captureEnt q cell test (s.quad q == 1)).quadOut q
  if s.quad q = 2 then t.wr R.ENT_STATUS_IN_SERVICE (t.rd R.ENT_STATUS_IN_SERVICE - 1) else t

theorem failQuad_eq (s : State) (q cell test : Nat) : s.failQuad q cell test =
    (fun u : State => if s.quad q = 2 ∧ u.rd R.ENT_STATUS_IN_SERVICE = 0 then u.allFailed else if (List.range 4).all fun i => u.quad i == 4 then u.wr R.ENT_STATUS_FAILED 1 else u)
      (if s.ent.joined.contains q then (s.quadFailed q cell test).entCapacity s.capacityList else s.quadFailed q cell test) := rfl

/-- The failure that is captured first. -/
theorem captureEnt_shown (s : State) {cell test : Nat} (hq : q < 4) (hcell : cell < 512) (htest : test < 8) (b : Bool) : let t := s.captureEnt q cell test b
    (s.rd R.ENT_FAIL_INFO_TEST = 0 → t.rd R.ENT_FAIL_INFO_QUAD = q ∧ t.rd R.ENT_FAIL_INFO_CELL = cell ∧ t.rd R.ENT_FAIL_INFO_TEST = test) := by
  intro t h0
  have ht : t = (((s.wr R.ENT_FAIL_INFO_QUAD q).wr R.ENT_FAIL_INFO_CELL cell).wr R.ENT_FAIL_INFO_TEST test).wr R.ENT_FAIL_INFO_STARTUP b.toNat :=
    if_neg (by simp [s.flag_eq_false h0])
  rw [ht]
  refine ⟨?_, ?_, ?_⟩
  · rw [rd_wr_other _ _ (by decide), rd_wr_other _ _ (by decide), rd_wr_other _ _ (by decide)]
    exact (rd_wr_same ..).trans (Nat.mod_eq_of_lt hq)
  · rw [rd_wr_other _ _ (by decide), rd_wr_other _ _ (by decide)]
    exact (rd_wr_same ..).trans (Nat.mod_eq_of_lt hcell)
  · rw [rd_wr_other _ _ (by decide)]
    exact (rd_wr_same ..).trans (Nat.mod_eq_of_lt htest)

theorem rd_captureEnt (s : State) {f : Fld} (h : f.key < 0x60008 * 64 ∨ 0x60009 * 64 ≤ f.key) (q cell test : Nat) (b : Bool) : (s.captureEnt q cell test b).rd f = s.rd f := by
  have hkeys : R.ENT_FAIL_INFO_QUAD.key = 0x60008 * 64 ∧ R.ENT_FAIL_INFO_CELL.key = 0x60008 * 64 + 2 ∧ R.ENT_FAIL_INFO_TEST.key = 0x60008 * 64 + 11 ∧
      R.ENT_FAIL_INFO_STARTUP.key = 0x60008 * 64 + 14 := by decide
  unfold captureEnt
  split
  · rfl
  · rw [rd_wr_other _ _ (by omega), rd_wr_other _ _ (by omega), rd_wr_other _ _ (by omega), rd_wr_other _ _ (by omega)]

/-- What the registers show of the quadrant that fails. -/
theorem quadOut_shown (s : State) (q : Nat) : let t := s.quadOut q
    t.quad q = 4 ∧ t.rd (R.ENT_QEVT_FAIL.ix q) = 1 ∧ q ∉ t.ent.joined ∧ (∀ f : Fld, f.key < 0x60100 * 64 → t.rd f = s.rd f) ∧
      t.mem = s.mem ∧ t.dsp = s.dsp ∧ t.tmp = s.tmp ∧ t.boot = s.boot := by
  obtain ⟨hst, hquar, hfail, -, -, hseq, -, -⟩ := quadKeys q
  refine ⟨?_, ?_, ?_, fun f h => ?_, rfl, rfl, rfl, rfl⟩
  · exact (rd_setEvt_other _ _ (by omega) (by omega)).trans ((rd_wr_other _ _ (by omega)).trans (rd_wr_same ..))
  · exact rd_setEvt_same _ rfl (by omega)
  · show q ∉ List.filter (· != q) _
    simp
  · exact (rd_setEvt_other _ _ (by omega) (by omega)).trans ((rd_wr_other _ _ (by omega)).trans (rd_wr_other _ _ (by omega)))

/-- What the quadrant's failure leaves. -/
theorem quadFailed_shown (s : State) (q cell test : Nat) : let t := s.quadFailed q cell test
    t.quad q = 4 ∧ t.rd (R.ENT_QEVT_FAIL.ix q) = 1 ∧ (s.quad q = 2 → t.rd R.ENT_STATUS_IN_SERVICE = (s.rd R.ENT_STATUS_IN_SERVICE - 1) % 8) ∧ q ∉ t.ent.joined ∧
      (∀ f : Fld, f.key < 0x60100 * 64 → f.key ≠ R.ENT_STATUS_IN_SERVICE.key → t.rd f = (s.captureEnt q cell test (s.quad q == 1)).rd f) ∧
      t.mem = s.mem ∧ t.dsp = s.dsp ∧ t.tmp = s.tmp ∧ t.boot = s.boot := by
  obtain ⟨hst, -, hfail, -⟩ := quadKeys q
  have hserv : R.ENT_STATUS_IN_SERVICE.key = 0x60000 * 64 + 2 := by decide
  unfold quadFailed
  have hmem1 : (s.captureEnt q cell test (s.quad q == 1)).mem = s.mem := captureEnt_keepsMem rfl
  have hdsp1 : (s.captureEnt q cell test (s.quad q == 1)).dsp = s.dsp := captureEnt_keepsDsp rfl
  have htmp1 : (s.captureEnt q cell test (s.quad q == 1)).tmp = s.tmp := captureEnt_keepsTmp rfl
  have hboot1 : (s.captureEnt q cell test (s.quad q == 1)).boot = s.boot := captureEnt_keepsBoot rfl
  have hserv1 : (s.captureEnt q cell test (s.quad q == 1)).rd R.ENT_STATUS_IN_SERVICE = s.rd R.ENT_STATUS_IN_SERVICE := s.rd_captureEnt (by omega) _ _ _ _
  dsimp only
  generalize s.captureEnt q cell test (s.quad q == 1) = s1 at hmem1 hdsp1 htmp1 hboot1 hserv1 ⊢
  obtain ⟨hstate, hevent, hjoined, hrd, hmem, hdsp, htmp, hboot⟩ := s1.quadOut_shown q
  generalize s1.quadOut q = s2 at hstate hevent hjoined hrd hmem hdsp htmp hboot ⊢
  rw [hmem1] at hmem
  rw [hdsp1] at hdsp
  rw [htmp1] at htmp
  rw [hboot1] at hboot
  by_cases hwas : s.quad q = 2
  · rw [if_pos hwas]
    refine ⟨(rd_wr_other _ _ (by omega)).trans hstate, (rd_wr_other _ _ (by omega)).trans hevent, fun _ => ?_, hjoined, fun f hf hne => (rd_wr_other _ _ hne).trans (hrd f hf),
      hmem, hdsp, htmp, hboot⟩
    rw [rd_wr_same, hrd _ (by omega), hserv1]
    rfl
  · rw [if_neg hwas]
    exact ⟨hstate, hevent, fun h => absurd h hwas, hjoined, fun f hf _ => hrd f hf, hmem, hdsp, htmp, hboot⟩

end State

end Sys2Proof.Machine
end

section
/-! Spawn: the failure of a quadrant and of all of them (R305, R310). -/

namespace Sys2Proof.Machine

namespace State
variable {s : State} {q : Nat}

/-- Spawn as it shows that all its quadrants have failed. -/
def failShown (s : State) : State := (((s.wr R.ENT_STATUS_READY 0).wr R.ENT_STATUS_FAILED 1).setStatus R.GLB_STATUS_ENT_READY 0).setEvt R.ENT_EVT_ALL_FAILED

theorem failShown_shown (s : State) : let t := s.failShown
    t.rd R.ENT_STATUS_READY = 0 ∧ t.rd R.ENT_STATUS_FAILED = 1 ∧ t.rd R.ENT_EVT_ALL_FAILED = 1 ∧ t.mem = s.mem ∧ t.dsp = s.dsp ∧ t.tmp = s.tmp ∧
      t.respCode 14 = s.respCode 14 ∧ ∀ f : Fld, 0x60100 * 64 ≤ f.key → f.key < 0x60200 * 64 → t.rd f = s.rd f := by
  let s1 := (s.wr R.ENT_STATUS_READY 0).wr R.ENT_STATUS_FAILED 1
  let s2 := s1.setStatus R.GLB_STATUS_ENT_READY 0
  have hmem : s2.mem = s1.mem := setStatus_keepsMem rfl
  have hdsp : s2.dsp = s1.dsp := setStatus_keepsDsp rfl
  have htmp : s2.tmp = s1.tmp := setStatus_keepsTmp rfl
  have hready : s2.rd R.ENT_STATUS_READY = 0 := by
    rw [rd_setStatus_other _ _ (by decide) (by decide), rd_wr_other _ _ (by decide)]
    exact rd_wr_same ..
  have hfailed : s2.rd R.ENT_STATUS_FAILED = 1 := by
    rw [rd_setStatus_other _ _ (by decide) (by decide)]
    exact rd_wr_same ..
  have hcode : s2.rd (R.TMP_RESP_CODE.ix (14 / 10)) = s.rd (R.TMP_RESP_CODE.ix (14 / 10)) := by
    rw [rd_setStatus_other _ _ (by decide) (by decide), rd_wr_other _ _ (by decide), rd_wr_other _ _ (by decide)]
  have hquad (f : Fld) (hlo : 0x60100 * 64 ≤ f.key) (hhi : f.key < 0x60200 * 64) : s2.rd f = s.rd f := by
    have hkeys : R.ENT_STATUS_READY.key < 0x60100 * 64 ∧ R.ENT_STATUS_FAILED.key < 0x60100 * 64 := by decide
    exact ((s1.setStatus_alarmKept 0 (by decide)).regs f (.inl ⟨by omega, hhi⟩)).trans ((rd_wr_other _ _ (by omega)).trans (rd_wr_other _ _ (by omega)))
  have ht : s.failShown = s2.setEvt R.ENT_EVT_ALL_FAILED := rfl
  rw [ht]
  have hmem1 : s1.mem = s.mem := rfl
  have hdsp1 : s1.dsp = s.dsp := rfl
  have htmp1 : s1.tmp = s.tmp := rfl
  clear_value s2 s1
  have hkeys : R.ENT_EVT_ALL_FAILED.key < 0x60100 * 64 ∧ R.ENT_EVT_ALL_FAILED.seq.key < 0x60100 * 64 := by decide
  refine ⟨?_, ?_, rd_setEvt_same _ rfl (by decide), hmem.trans hmem1, hdsp.trans hdsp1, htmp.trans htmp1, ?_, fun f hlo hhi => ?_⟩
  · exact (rd_setEvt_other _ _ (by decide) (by decide)).trans hready
  · exact (rd_setEvt_other _ _ (by decide) (by decide)).trans hfailed
  · exact respCode_of_rd ((rd_setEvt_other _ _ (by decide) (by decide)).trans hcode)
  · exact (rd_setEvt_other _ _ (by omega) (by omega)).trans (hquad f hlo hhi)

theorem allFailed_eq (s : State) : s.allFailed = (s.failShown.raiseAlarms [14]).entropyLost.wr R.KS_STATUS_MOLT_RUN 0 := rfl

/-- All quadrants failed, with no command in flight. -/
theorem allFailed_calm (h : s.calm) : s.allFailed.calm ∧ ∀ f : Fld, 0x60100 * 64 ≤ f.key → f.key < 0x60200 * 64 → s.allFailed.rd f = s.rd f := by
  obtain ⟨-, -, -, -, hdsp, htmp, -, hquad⟩ := s.failShown_shown
  rw [allFailed_eq]
  generalize s.failShown = s1 at hdsp htmp hquad ⊢
  have hinf1 : s1.dsp.inflight = [] := (congrArg Dsp.inflight hdsp).trans h.1
  have h2 := raiseAlarm_alarmKept hinf1 (src := 14) (by decide)
  generalize s1.raiseAlarms [14] = s2 at h2 ⊢
  rw [entropyLost_idle (h2.inflight.trans hinf1)]
  have h3 : s2.AlarmKept (s2.wr R.KS_STATUS_MOLT_RUN 0) := .wr s2 0 (by unfold Fld.outlastsAlarm; decide)
  have h13 := h2.trans h3
  exact ⟨⟨h13.inflight.trans hinf1, h13.due.trans ((congrArg Tmp.due htmp).trans h.2)⟩, fun f hlo hhi => (h13.regs f (.inl ⟨by omega, hhi⟩)).trans (hquad f hlo hhi)⟩

/-- All quadrants failed, where that alarm has no response of its own. -/
theorem allFailed_shown (h : s.calm) (hcode : s.respCode 14 ≤ 1) : let t := s.allFailed
    t.rd R.ENT_STATUS_READY = 0 ∧ t.rd R.ENT_STATUS_FAILED = 1 ∧ t.rd R.ENT_EVT_ALL_FAILED = 1 ∧ (t.rd R.TMP_FLAGS_SRC).testBit 14 = true ∧ t.mem = s.mem := by
  obtain ⟨hready, hfailed, hevt, hmem, hdsp, -, hcode1, -⟩ := s.failShown_shown
  rw [allFailed_eq]
  generalize s.failShown = s1 at hready hfailed hevt hmem hdsp hcode1 ⊢
  have hinf1 : s1.dsp.inflight = [] := (congrArg Dsp.inflight hdsp).trans h.1
  have h2 := raiseAlarm_alarmKept hinf1 (src := 14) (by decide)
  have hflag := (raiseAlarm_flags (s := s1) (src := 14) (by decide) (hcode1 ▸ hcode)).1
  have hmem2 : (s1.raiseAlarms [14]).mem = s1.mem := (congrArg State.mem (raiseAlarm_shown (s := s1) (src := 14) (hcode1 ▸ hcode) false).1 :)
  generalize s1.raiseAlarms [14] = s2 at h2 hflag hmem2 ⊢
  rw [entropyLost_idle (h2.inflight.trans hinf1)]
  have hother {f : Fld} (hne : f.key ≠ R.KS_STATUS_MOLT_RUN.key) : (s2.wr R.KS_STATUS_MOLT_RUN 0).rd f = s2.rd f := rd_wr_other _ _ hne
  refine ⟨?_, ?_, ?_, ?_, hmem2.trans hmem⟩
  · exact (hother (by decide)).trans ((h2.regs _ (by unfold Fld.outlastsAlarm; decide)).trans hready)
  · exact (hother (by decide)).trans ((h2.regs _ (by unfold Fld.outlastsAlarm; decide)).trans hfailed)
  · exact (hother (by decide)).trans ((h2.regs _ (by unfold Fld.outlastsAlarm; decide)).trans hevt)
  · rw [hother (by decide)]
    exact hflag

/-- A change of the capacity leaves Spawn as it is. -/
theorem entCapacity_alarmKept (h : s.dsp.inflight = []) (before : List Nat) : s.AlarmKept (s.entCapacity before) := by
  unfold entCapacity
  split
  · exact recapacity_alarmKept h before
  · exact .refl s

/-- A quadrant that fails, with no command in flight. -/
theorem failQuad_calm (h : s.calm) (q cell test : Nat) (hq : q < 4) : let t := s.failQuad q cell test
    t.calm ∧ t.quad q = 4 ∧ t.rd (R.ENT_QEVT_FAIL.ix q) = 1 := by
  obtain ⟨hst, -, hfail, -⟩ := quadKeys q
  obtain ⟨hstate, hevent, -, -, -, -, hdsp, htmp, -⟩ := s.quadFailed_shown q cell test
  rw [failQuad_eq]
  generalize s.quadFailed q cell test = s1 at hstate hevent hdsp htmp ⊢
  have hcalm1 : s1.calm := calm_of h (congrArg Dsp.inflight hdsp) htmp
  have h2 : s1.AlarmKept (if s.ent.joined.contains q then s1.entCapacity s.capacityList else s1) := by
    split
    · exact entCapacity_alarmKept hcalm1.1 _
    · exact .refl s1
  dsimp only
  generalize (if s.ent.joined.contains q then s1.entCapacity s.capacityList else s1) = s2 at h2 ⊢
  have hcalm2 : s2.calm := ⟨h2.inflight.trans hcalm1.1, h2.due.trans hcalm1.2⟩
  have hstate2 : s2.rd (R.ENT_QSTAT_STATE.ix q) = 4 := (h2.regs _ (.inl ⟨by omega, by omega⟩)).trans hstate
  have hevent2 : s2.rd (R.ENT_QEVT_FAIL.ix q) = 1 := (h2.regs _ (.inl ⟨by omega, by omega⟩)).trans hevent
  split
  · obtain ⟨hcalm, hkeep⟩ := allFailed_calm hcalm2
    exact ⟨hcalm, (hkeep _ (by omega) (by omega)).trans hstate2, (hkeep _ (by omega) (by omega)).trans hevent2⟩
  · split
    · have hfailed : R.ENT_STATUS_FAILED.key < 0x60100 * 64 := by decide
      exact ⟨hcalm2, (rd_wr_other _ _ (by omega)).trans hstate2, (rd_wr_other _ _ (by omega)).trans hevent2⟩
    · exact ⟨hcalm2, hstate2, hevent2⟩

/-- Before the known-answer tests are done a failure changes no capacity. -/
theorem failQuad_early (hkat : s.boot.katDone = false) (q cell test : Nat) : s.failQuad q cell test =
    (fun u : State => if s.quad q = 2 ∧ u.rd R.ENT_STATUS_IN_SERVICE = 0 then u.allFailed else if (List.range 4).all fun i => u.quad i == 4 then u.wr R.ENT_STATUS_FAILED 1 else u)
      (s.quadFailed q cell test) := by
  have hboot : (s.quadFailed q cell test).boot = s.boot := (s.quadFailed_shown q cell test).2.2.2.2.2.2.2.2
  have hcap : (if s.ent.joined.contains q then (s.quadFailed q cell test).entCapacity s.capacityList else s.quadFailed q cell test) = s.quadFailed q cell test := by
    split
    · exact if_neg (by rw [hboot, hkat]; decide)
    · rfl
  rw [failQuad_eq, hcap]

/-- The failure of a quadrant while others serve. -/
theorem failQuad_serving (hkat : s.boot.katDone = false) {q cell test : Nat} (hq : q < 4) (hcell : cell < 512) (htest : test < 8) (hquad : s.quad q = 2)
    (hlo : 2 ≤ s.rd R.ENT_STATUS_IN_SERVICE) (hhi : s.rd R.ENT_STATUS_IN_SERVICE ≤ 4) (hinfo : s.rd R.ENT_FAIL_INFO_TEST = 0) : let t := s.failQuad q cell test
    t.rd R.ENT_STATUS_IN_SERVICE + 1 = s.rd R.ENT_STATUS_IN_SERVICE ∧ t.rd R.ENT_FAIL_INFO_QUAD = q ∧ t.rd R.ENT_FAIL_INFO_CELL = cell ∧ t.rd R.ENT_FAIL_INFO_TEST = test ∧
      q ∉ t.ent.joined ∧ t.mem = s.mem := by
  obtain ⟨-, -, hserv, hjoined, hkept, hmem, -, -, -⟩ := s.quadFailed_shown q cell test
  obtain ⟨hiq, hic, hit⟩ := s.captureEnt_shown hq hcell htest (s.quad q == 1) hinfo
  replace hserv : (s.quadFailed q cell test).rd R.ENT_STATUS_IN_SERVICE + 1 = s.rd R.ENT_STATUS_IN_SERVICE := by
    rw [hserv hquad]
    omega
  have hq1 := (hkept R.ENT_FAIL_INFO_QUAD (by decide) (by decide)).trans hiq
  have hc1 := (hkept R.ENT_FAIL_INFO_CELL (by decide) (by decide)).trans hic
  have ht1 := (hkept R.ENT_FAIL_INFO_TEST (by decide) (by decide)).trans hit
  rw [failQuad_early hkat]
  generalize s.quadFailed q cell test = s1 at hserv hq1 hc1 ht1 hjoined hmem ⊢
  have hmain : ¬(s.quad q = 2 ∧ s1.rd R.ENT_STATUS_IN_SERVICE = 0) := by omega
  dsimp only
  rw [if_neg hmain]
  split
  · have hother {f : Fld} (hne : f.key ≠ R.ENT_STATUS_FAILED.key) : (s1.wr R.ENT_STATUS_FAILED 1).rd f = s1.rd f := rd_wr_other _ _ hne
    rw [hother (by decide), hother (by decide), hother (by decide), hother (by decide)]
    exact ⟨hserv, hq1, hc1, ht1, hjoined, hmem⟩
  · exact ⟨hserv, hq1, hc1, ht1, hjoined, hmem⟩

/-- The failure of the last quadrant that serves. -/
theorem failQuad_last (h : s.calm) (hkat : s.boot.katDone = false) {q : Nat} (cell test : Nat) (hquad : s.quad q = 2) (hserv : s.rd R.ENT_STATUS_IN_SERVICE = 1)
    (hcode : s.respCode 14 ≤ 1) : let t := s.failQuad q cell test
    t.rd R.ENT_STATUS_READY = 0 ∧ t.rd R.ENT_STATUS_FAILED = 1 ∧ t.rd R.ENT_EVT_ALL_FAILED = 1 ∧ (t.rd R.TMP_FLAGS_SRC).testBit 14 = true ∧ t.mem = s.mem := by
  obtain ⟨-, -, hserv1, -, hkept, hmem, hdsp, htmp, -⟩ := s.quadFailed_shown q cell test
  replace hserv1 : (s.quadFailed q cell test).rd R.ENT_STATUS_IN_SERVICE = 0 := by
    rw [hserv1 hquad, hserv]
  have hcode1 : (s.quadFailed q cell test).respCode 14 = s.respCode 14 := by
    refine respCode_of_rd ?_
    rw [hkept _ (by decide) (by decide), rd_captureEnt _ (by decide)]
  rw [failQuad_early hkat]
  generalize s.quadFailed q cell test = s1 at hserv1 hmem hdsp htmp hcode1 ⊢
  dsimp only
  rw [if_pos ⟨hquad, hserv1⟩, ← hmem]
  exact allFailed_shown (calm_of h (congrArg Dsp.inflight hdsp) htmp) (hcode1 ▸ hcode)

end State

end Sys2Proof.Machine
end

section
/-! Spawn: words granted and raw capture (R315 to R317, R320), and O51. -/

namespace Sys2Proof.Machine

namespace State
variable {s : State} {q : Nat}

/-- The only command that draws is the next one. -/
theorem nextDrawer_single {c : Cmd} (hinf : s.dsp.inflight = [c]) (hstage : c.stage = .drawing) (cls : Nat) :
    s.nextDrawer cls = if c.entClass = cls then some c else none := by
  have hl : s.drawers cls = if c.entClass = cls then [c] else [] := by
    unfold drawers
    rw [hinf]
    by_cases h : c.entClass = cls <;> simp [hstage, h]
  unfold nextDrawer
  rw [hl]
  by_cases h : c.entClass = cls
  · rw [if_pos h, if_pos h]
    by_cases ht : tblGet 0 s.ent.turns cls ≤ c.id <;> simp [ht]
  · rw [if_neg h, if_neg h]
    rfl

/-- A command that still draws stays as it is. -/
theorem pump_of_drawing {c : Cmd} (hinf : s.dsp.inflight = [c]) (hdue : s.tmp.due = []) (hstage : c.stage = .drawing) (hlen : c.drawn.length < c.outLen) : s.pump = s := by
  have hcmd : s.cmd c.id = some c := by
    unfold cmd
    rw [hinf]
    simp
  have hwait : s.helloWaits c = false := by
    unfold helloWaits
    rw [hinf]
    simp
  have hnext : (if s.flag R.ACT_CTRL_UPDATE then s.nextAccess c else none) = none := by
    unfold nextAccess
    rw [hstage]
    simp only [show ¬c.outLen ≤ c.drawn.length by omega, and_false, if_false]
    split <;> rfl
  have hdo : s.stageDo c = (s, false) := by
    unfold stageDo
    rw [hstage]
    exact if_neg (by omega)
  have hstep : s.stageStep c = (s, false) := by
    unfold stageStep
    rw [hwait, hnext]
    exact hdo
  have hadvance : s.advance c.id stages = s := by
    show s.advance c.id (23 + 1) = s
    unfold advance
    rw [hcmd]
    dsimp only
    rw [hstep]
  unfold pump
  rw [hinf]
  show (s.advance c.id stages).settle = s
  rw [hadvance]
  exact settle_of_none hdue

/-- The word goes to the command that waits. -/
theorem grantWord_shown {c : Cmd} (hinf : s.dsp.inflight = [c]) (hlen : c.drawn.length + 32 < c.outLen) : let t := s.grantWord c
    ∃ w : List Byte, w.length = 32 ∧ t.dsp.inflight = [{ c with drawn := c.drawn ++ w }] ∧ t.mem = s.mem ∧ t.tmp = s.tmp := by
  have hmin : min 32 (c.outLen - c.drawn.length) = 32 := by omega
  refine ⟨s.delivered 32, s.length_delivered 32, ?_, rfl, rfl⟩
  unfold grantWord
  rw [hmin]
  show (s.dsp.inflight.map fun x => if x.id = c.id then { c with drawn := c.drawn ++ s.delivered 32 } else x) = _
  rw [hinf]
  simp

/-- The checks of a raw capture read no register that its request writes. -/
theorem captureCheck_of_rd {t : State} (hst : t.rd R.LC_STATE_STATE = s.rd R.LC_STATE_STATE) (hquad : ∀ i, t.quad i = s.quad i)
    (hwm : t.rd R.WLD_SRAM_WM_WM = s.rd R.WLD_SRAM_WM_WM) (q dest len : Nat) : t.captureCheck q dest len = s.captureCheck q dest len := by
  unfold captureCheck captureState lcState
  rw [hst, hwm]
  simp only [hquad]

/-- A raw capture that starts. -/
theorem startCapture_shown (s : State) (q dest len : Nat) (hq : q < 4) : let t := s.startCapture q dest len
    t.rd R.ENT_CAP_STAT_BUSY = 1 ∧ t.quad q = 3 ∧ t.rd R.ENT_CAP_STAT_RESULT = s.rd R.ENT_CAP_STAT_RESULT ∧ t.mem = s.mem ∧
      ∃ mode cell, t.ent.capture = some (q, mode, cell, dest, len) := by
  obtain ⟨hst, -⟩ := quadKeys q
  have hfix : R.ENT_STATUS_IN_SERVICE.key < 0x60100 * 64 ∧ R.ENT_CAP_STAT_BUSY.key < 0x60100 * 64 ∧ R.ENT_CAP_STAT_RESULT.key < 0x60100 * 64 := by decide
  unfold startCapture
  dsimp only
  have h1 : (if s.quad q = 2 then s.wr R.ENT_STATUS_IN_SERVICE (s.rd R.ENT_STATUS_IN_SERVICE - 1) else s).rd R.ENT_CAP_STAT_RESULT = s.rd R.ENT_CAP_STAT_RESULT := by
    split
    · exact rd_wr_other _ _ (by decide)
    · rfl
  have h2 : (if s.quad q = 2 then s.wr R.ENT_STATUS_IN_SERVICE (s.rd R.ENT_STATUS_IN_SERVICE - 1) else s).mem = s.mem := by split <;> rfl
  generalize (if s.quad q = 2 then s.wr R.ENT_STATUS_IN_SERVICE (s.rd R.ENT_STATUS_IN_SERVICE - 1) else s) = s1 at h1 h2 ⊢
  have hbusy : ((s1.wr (R.ENT_QSTAT_STATE.ix q) 3).wr R.ENT_CAP_STAT_BUSY 1).rd R.ENT_CAP_STAT_BUSY = 1 := rd_wr_same ..
  have hquad : ((s1.wr (R.ENT_QSTAT_STATE.ix q) 3).wr R.ENT_CAP_STAT_BUSY 1).quad q = 3 := (rd_wr_other _ _ (by omega)).trans (rd_wr_same ..)
  have hresult : ((s1.wr (R.ENT_QSTAT_STATE.ix q) 3).wr R.ENT_CAP_STAT_BUSY 1).rd R.ENT_CAP_STAT_RESULT = s.rd R.ENT_CAP_STAT_RESULT :=
    (rd_wr_other _ _ (by decide)).trans ((rd_wr_other _ _ (by omega)).trans h1)
  have hmem : ((s1.wr (R.ENT_QSTAT_STATE.ix q) 3).wr R.ENT_CAP_STAT_BUSY 1).mem = s.mem := h2
  generalize (s1.wr (R.ENT_QSTAT_STATE.ix q) 3).wr R.ENT_CAP_STAT_BUSY 1 = u at hbusy hquad hresult hmem ⊢
  exact ⟨hbusy, hquad, hresult, hmem, _, _, rfl⟩

/-- A request for a raw capture. -/
theorem capCtrl_shown {v : Nat} (hgo : v.testBit 31 = true) (hbusy : s.rd R.ENT_CAP_STAT_BUSY = 0) :
    let dest := s.rd R.ENT_CAP_ADDR_ADDR * 64
    let len := s.rd R.ENT_CAP_LEN_LEN_KIB * 1024
    let t := s.capCtrl v
    t.rd R.ENT_CAP_STAT_RESULT = s.captureCheck (v % 4) dest len ∧ t.mem = s.mem ∧
      (s.captureCheck (v % 4) dest len = 0 → t.rd R.ENT_CAP_STAT_BUSY = 1 ∧ t.quad (v % 4) = 3 ∧ ∃ mode cell, t.ent.capture = some (v % 4, mode, cell, dest, len)) ∧
      (s.captureCheck (v % 4) dest len ≠ 0 → t.rd R.ENT_CAP_STAT_BUSY = 0 ∧ t.ent.capture = s.ent.capture) := by
  intro dest len t
  have hq : bits v 0 2 = v % 4 := by simp [bits]
  let s1 := ((s.wr R.ENT_CAP_CTRL_QUAD (v % 4)).wr R.ENT_CAP_CTRL_MODE (bits v 2 2)).wr R.ENT_CAP_CTRL_CELL (bits v 4 9)
  have hrd (f : Fld) (h : f.key < 0x60020 * 64 ∨ 0x60021 * 64 ≤ f.key) : s1.rd f = s.rd f := by
    have hkeys : R.ENT_CAP_CTRL_QUAD.key = 0x60020 * 64 ∧ R.ENT_CAP_CTRL_MODE.key = 0x60020 * 64 + 2 ∧ R.ENT_CAP_CTRL_CELL.key = 0x60020 * 64 + 4 := by decide
    exact (rd_wr_other _ _ (by omega)).trans ((rd_wr_other _ _ (by omega)).trans (rd_wr_other _ _ (by omega)))
  have hdest : s1.rd R.ENT_CAP_ADDR_ADDR * 64 = dest := by rw [hrd _ (by decide)]
  have hlen : s1.rd R.ENT_CAP_LEN_LEN_KIB * 1024 = len := by rw [hrd _ (by decide)]
  have hbusy1 : s1.rd R.ENT_CAP_STAT_BUSY = 0 := (hrd _ (by decide)).trans hbusy
  have hcheck : s1.captureCheck (v % 4) dest len = s.captureCheck (v % 4) dest len := by
    refine captureCheck_of_rd (hrd _ (by decide)) (fun i => hrd _ ?_) (hrd _ (by decide)) _ _ _
    have := (quadKeys i).1
    omega
  have hent1 : s1.ent = s.ent := rfl
  have hmem1 : s1.mem = s.mem := rfl
  have ht : t = if !v.testBit 31 || s1.flag R.ENT_CAP_STAT_BUSY then s1
      else (fun u : State => if s1.captureCheck (v % 4) dest len = 0 then u.startCapture (v % 4) dest len else u) (s1.wr R.ENT_CAP_STAT_RESULT (s1.captureCheck (v % 4) dest len)) := by
    rw [← hdest, ← hlen]
    unfold t capCtrl
    rw [hq]
  rw [if_neg (by rw [hgo, s1.flag_eq_false hbusy1]; decide)] at ht
  rw [ht, ← hcheck]
  clear_value s1
  have hr8 : s1.captureCheck (v % 4) dest len < 8 := by
    unfold captureCheck
    split
    · decide
    · split
      · decide
      · split <;> decide
  have hresult : (s1.wr R.ENT_CAP_STAT_RESULT (s1.captureCheck (v % 4) dest len)).rd R.ENT_CAP_STAT_RESULT = s1.captureCheck (v % 4) dest len :=
    (rd_wr_same ..).trans (Nat.mod_eq_of_lt hr8)
  have hbusy2 : (s1.wr R.ENT_CAP_STAT_RESULT (s1.captureCheck (v % 4) dest len)).rd R.ENT_CAP_STAT_BUSY = 0 := (rd_wr_other _ _ (by decide)).trans hbusy1
  have hent2 : (s1.wr R.ENT_CAP_STAT_RESULT (s1.captureCheck (v % 4) dest len)).ent = s.ent := hent1
  have hmem2 : (s1.wr R.ENT_CAP_STAT_RESULT (s1.captureCheck (v % 4) dest len)).mem = s.mem := hmem1
  generalize s1.wr R.ENT_CAP_STAT_RESULT (s1.captureCheck (v % 4) dest len) = s2 at hresult hbusy2 hent2 hmem2 ⊢
  dsimp only
  by_cases h0 : s1.captureCheck (v % 4) dest len = 0
  · rw [if_pos h0]
    obtain ⟨hb, hquad, hr, hmem, hcap⟩ := s2.startCapture_shown (v % 4) dest len (Nat.mod_lt _ (by decide))
    exact ⟨hr.trans hresult, hmem.trans hmem2, fun _ => ⟨hb, hquad, hcap⟩, fun h => absurd h0 h⟩
  · rw [if_neg h0]
    exact ⟨hresult, hmem2, fun h => absurd h h0, fun _ => ⟨hbusy2, congrArg Ent.capture hent2⟩⟩

/-- The end of a raw capture, once its samples are written. -/
def captureEnd (s : State) (q : Nat) (failed : Bool) : State :=
  let s := ((s.wr R.ENT_CAP_STAT_BUSY 0).wr R.ENT_CAP_STAT_RESULT (if failed then 4 else 0)).setEvt (R.ENT_QEVT_CAP_DONE.ix q)
  if failed then s else s.restartQuad q

theorem captureEnd_shown (s : State) {q : Nat} (hq : q < 4) (failed : Bool) : let t := s.captureEnd q failed
    t.rd R.ENT_CAP_STAT_BUSY = 0 ∧ t.rd R.ENT_CAP_STAT_RESULT = (if failed then 4 else 0) ∧ t.rd (R.ENT_QEVT_CAP_DONE.ix q) = 1 ∧
      t.quad q = (if failed then s.quad q else 1) ∧ t.ent.capture = s.ent.capture ∧ t.mem = s.mem ∧ t.tmp = s.tmp := by
  obtain ⟨hst, -, -, -, hcap, -, -, hseq⟩ := quadKeys q
  have hfix : R.ENT_CAP_STAT_BUSY.key < 0x60100 * 64 ∧ R.ENT_CAP_STAT_RESULT.key < 0x60100 * 64 := by decide
  let s1 := ((s.wr R.ENT_CAP_STAT_BUSY 0).wr R.ENT_CAP_STAT_RESULT (if failed then 4 else 0)).setEvt (R.ENT_QEVT_CAP_DONE.ix q)
  have hbusy : s1.rd R.ENT_CAP_STAT_BUSY = 0 := (rd_setEvt_other _ _ (by omega) (by omega)).trans ((rd_wr_other _ _ (by decide)).trans (rd_wr_same ..))
  have hresult : s1.rd R.ENT_CAP_STAT_RESULT = (if failed then 4 else 0) := by
    refine (rd_setEvt_other _ _ (by omega) (by omega)).trans ((rd_wr_same ..).trans ?_)
    cases failed <;> rfl
  have hevent : s1.rd (R.ENT_QEVT_CAP_DONE.ix q) = 1 := rd_setEvt_same _ rfl (by omega)
  have hquad : s1.quad q = s.quad q := (rd_setEvt_other _ _ (by omega) (by omega)).trans ((rd_wr_other _ _ (by omega)).trans (rd_wr_other _ _ (by omega)))
  have ht : s.captureEnd q failed = if failed then s1 else s1.restartQuad q := rfl
  have hent : s1.ent = s.ent := rfl
  have hmem : s1.mem = s.mem := rfl
  have htmp : s1.tmp = s.tmp := rfl
  rw [ht]
  clear_value s1
  cases failed
  · have hother {f : Fld} (h : f.key ≠ (R.ENT_QSTAT_STATE.ix q).key) : (s1.restartQuad q).rd f = s1.rd f := rd_wr_other _ _ h
    refine ⟨(hother (by omega)).trans hbusy, (hother (by omega)).trans hresult, (hother (by omega)).trans hevent, rd_wr_same .., ?_, hmem, htmp⟩
    exact (congrArg Ent.capture hent : s1.ent.capture = s.ent.capture)
  · exact ⟨hbusy, hresult, hevent, hquad, congrArg Ent.capture hent, hmem, htmp⟩

end State

end Sys2Proof.Machine
end

section
/-! Every row of Spawn (O51). -/

namespace Sys2Proof.Machine

theorem execEntQuadrantJoined_next {s t : State} {quadrant : Fin 4} (hquad : s.quad quadrant.val = 1) (hjoin : s.joinQuad quadrant.val = t) (ht : t.calm) :
    exec (.entQuadrantJoined quadrant) s = .next t := by
  show execEntQuadrantJoined quadrant s = _
  unfold execEntQuadrantJoined
  rw [if_pos hquad, hjoin, State.pump_of_calm ht]

theorem quadrantJoins_served {s : State} (quadrant : Fin 4) (hcalm : s.calm) (hquad : s.quad quadrant.val = 1) (hkat : s.boot.katDone = false)
    (hshown : s.rd R.ENT_STATUS_READY = 1 ∨ s.rd R.ENT_STATUS_FAILED = 1) : exec (.entQuadrantJoined quadrant) s = .next (s.quadJoined quadrant.val) := by
  obtain ⟨-, -, -, -, hready, hfailed, -⟩ := s.quadJoined_shown quadrant.isLt
  obtain ⟨-, hdsp, htmp, -, -⟩ := s.quadJoined_kept quadrant.val
  refine execEntQuadrantJoined_next hquad ?_ (State.calm_of hcalm (congrArg Dsp.inflight hdsp) htmp)
  rw [State.joinQuad_early hkat]
  generalize s.quadJoined quadrant.val = s1 at hready hfailed ⊢
  refine if_pos ?_
  rcases hshown with h | h
  · rw [s1.flag_eq_true (hready.trans h)]
    rfl
  · rw [s1.flag_eq_true (hfailed.trans h), Bool.or_true]

theorem quadrantJoins_first {s : State} (quadrant : Fin 4) (hcalm : s.calm) (hquad : s.quad quadrant.val = 1) (hready : s.rd R.ENT_STATUS_READY = 0)
    (hfailed : s.rd R.ENT_STATUS_FAILED = 0) (hkat : s.boot.katDone = false) (halive : s.boot.alive = true) (hdrawn : s.boot.keysDrawn = false)
    (hrec : s.rd R.GLB_STATUS_RECOVERY = 0) (hfenced : s.keys.fenced = []) (hmap : s.keys.reservedMap = []) : ∃ t, exec (.entQuadrantJoined quadrant) s = .next t ∧
      t.quad quadrant.val = 2 ∧ t.rd R.ENT_STATUS_READY = 1 ∧ t.boot.keysDrawn = true ∧ t.rd (R.MEM_STATUS_STATE.mem 0) = 1 ∧ t.rd R.BOOT_STATUS_STAGE = 3 ∧ t.mem = s.mem := by
  obtain ⟨hquad1, -, -, -, hready1, hfailed1, hrec1⟩ := s.quadJoined_shown quadrant.isLt
  obtain ⟨hmem1, hdsp1, htmp1, hboot1, hkeys1⟩ := s.quadJoined_kept quadrant.val
  have hjoin := State.joinQuad_early (q := quadrant.val) hkat
  generalize s.quadJoined quadrant.val = s1 at hquad1 hready1 hfailed1 hrec1 hmem1 hdsp1 htmp1 hboot1 hkeys1 hjoin
  rw [if_neg (by rw [s1.flag_eq_false (hready1.trans hready), s1.flag_eq_false (hfailed1.trans hfailed)]; decide)] at hjoin
  obtain ⟨h1, h2, h3, h4, hinf, hdue, h5⟩ := State.entReady_shown (q := quadrant.val) (hrec1.trans hrec) (hboot1 ▸ hdrawn) (hboot1 ▸ halive) (hkeys1 ▸ hfenced) (hkeys1 ▸ hmap)
    quadrant.isLt
  have hmem : s1.entReady.mem = s.mem := State.entReady_keepsMem hmem1
  exact ⟨_, execEntQuadrantJoined_next hquad hjoin ⟨hinf.trans ((congrArg Dsp.inflight hdsp1).trans hcalm.1), hdue.trans ((congrArg Tmp.due htmp1).trans hcalm.2)⟩,
    h5.trans hquad1, h1, h2, h3, h4, hmem⟩

theorem balanceWindow_trims {s : State} (quadrant : Fin 4) {ones : List Nat} (hlen : ones.length = 512) (hlo : 1 ≤ s.quad quadrant.val) (hhi : s.quad quadrant.val ≤ 3)
    (hgood : s.windowFails quadrant.val 0 ones = none) : ∃ t, exec (.entBalanceWindowEnd quadrant false ones) s = .next t ∧ { t with ent := s.ent } = s ∧
      ∀ k n, ones[k]? = some n → tblGet 32 t.ent.trims (quadrant.val * 512 + k) = trimStep (tblGet 32 s.ent.trims (quadrant.val * 512 + k)) n 1984 2112 := by
  have hexec : exec (.entBalanceWindowEnd quadrant false ones) s = .next (s.trimCells quadrant.val 1984 2112 0 ones) := by
    show execEntBalanceWindowEnd quadrant false ones s = _
    unfold execEntBalanceWindowEnd
    dsimp only
    rw [if_neg (by omega), if_neg (by decide), hgood]
  obtain ⟨hrest, -, htrims⟩ := State.trimCells_shown (q := quadrant.val) 1984 2112 ones s 0
  simp only [Nat.zero_add] at htrims
  exact ⟨_, hexec, hrest, htrims⟩

theorem balanceWindow_fails {s : State} (quadrant : Fin 4) (hcalm : s.calm) {ones : List Nat} (hlen : ones.length = 512) (hlo : 1 ≤ s.quad quadrant.val)
    (hhi : s.quad quadrant.val ≤ 3) {k n : Nat} (hk : ones[k]? = some n) (hbad : n < 1748 ∨ 2348 < n ∨ s.trimAtEnd quadrant.val k = true) :
    ∃ t, exec (.entBalanceWindowEnd quadrant false ones) s = .next t ∧ t.quad quadrant.val = 4 ∧ t.rd (R.ENT_QEVT_FAIL.ix quadrant.val) = 1 := by
  obtain ⟨⟨cell, test⟩, hfound⟩ := State.windowFails_found (s := s) (q := quadrant.val) ones 0 k n hk (by rwa [Nat.zero_add])
  obtain ⟨ht, hquad, hevent⟩ := State.failQuad_calm hcalm quadrant.val cell test quadrant.isLt
  have hexec : exec (.entBalanceWindowEnd quadrant false ones) s = .next (s.failQuad quadrant.val cell test).pump := by
    show execEntBalanceWindowEnd quadrant false ones s = _
    unfold execEntBalanceWindowEnd
    dsimp only
    rw [if_neg (by omega), if_neg (by decide), hfound]
  rw [State.pump_of_calm ht] at hexec
  exact ⟨_, hexec, hquad, hevent⟩

theorem balanceWindow_acquires {s : State} (quadrant : Fin 4) {ones : List Nat} (hlen : ones.length = 512) (hquad : s.quad quadrant.val = 1)
    (hacq : tblGet 0 s.ent.acquired quadrant.val < 10) : ∃ t, exec (.entBalanceWindowEnd quadrant true ones) s = .next t ∧ { t with ent := s.ent } = s ∧
      tblGet 0 t.ent.acquired quadrant.val = tblGet 0 s.ent.acquired quadrant.val + 1 ∧
      ∀ k n, ones[k]? = some n → tblGet 32 t.ent.trims (quadrant.val * 512 + k) = trimStep (tblGet 32 s.ent.trims (quadrant.val * 512 + k)) n 496 528 := by
  let s1 : State := { s with ent := { s.ent with acquired := tblPut 0 s.ent.acquired quadrant.val (tblGet 0 s.ent.acquired quadrant.val + 1) } }
  have hexec : exec (.entBalanceWindowEnd quadrant true ones) s = .next (s1.trimCells quadrant.val 496 528 0 ones) := by
    show execEntBalanceWindowEnd quadrant true ones s = _
    unfold execEntBalanceWindowEnd
    dsimp only
    rw [if_neg (by omega), if_pos rfl, if_pos ⟨hquad, hacq⟩]
  obtain ⟨hrest, hacquired, htrims⟩ := State.trimCells_shown (q := quadrant.val) 496 528 ones s1 0
  simp only [Nat.zero_add] at htrims
  refine ⟨_, hexec, congrArg (fun u : State => { u with ent := s.ent }) hrest, ?_, htrims⟩
  rw [hacquired]
  exact tblGet_put_same 0 s.ent.acquired quadrant.val (tblGet 0 s.ent.acquired quadrant.val + 1)

theorem execEntQuadrantFail_next {s t : State} {quadrant : Fin 4} {cell : Nat} {fail : HealthFail} (hcell : cell < 512) (hfail : s.healthFails quadrant.val cell fail = true)
    (hquad : s.quad quadrant.val = 2) (ht : s.failQuad quadrant.val cell (failCode fail) = t) (hcalm : t.calm) : exec (.entQuadrantFail quadrant cell fail) s = .next t := by
  show execEntQuadrantFail quadrant cell fail s = _
  unfold execEntQuadrantFail
  dsimp only
  rw [if_pos ⟨hcell, hfail, by omega, by omega⟩, ht, State.pump_of_calm hcalm]

theorem failCode_lt (fail : HealthFail) : failCode fail < 8 := by cases fail <;> simp [failCode]

theorem blockRelease_shown {s : State} (quadrant : Fin 4) (hquad : s.quad quadrant.val = 2) : ∃ t, exec (.entBlockRelease quadrant) s = .next t ∧
    t.rd (R.ENT_QSTAT_QUAR.ix quadrant.val) ≤ 2048 ∧ s.keepsRegs t [R.ENT_QSTAT_QUAR.ix quadrant.val] ∧ t.mem = s.mem := by
  let s1 := (s.freeNat 2).2
  have hexec : exec (.entBlockRelease quadrant) s = .next (s1.wr (R.ENT_QSTAT_QUAR.ix quadrant.val) ((s.freeNat 2).1 % 2049)) := if_pos hquad
  have hregs : s1.regs = s.regs := rfl
  have hmem : s1.mem = s.mem := rfl
  clear_value s1
  refine ⟨_, hexec, ?_, fun f hf => ?_, hmem⟩
  · rw [State.rd_wr_same]
    exact (Nat.mod_le _ _).trans (by omega)
  · rw [State.rd_wr_other _ _ (by simpa using hf)]
    exact State.rd_of_regs hregs f

theorem wordGrant_shown {s : State} {c : Cmd} (hready : s.rd R.ENT_STATUS_READY = 1) (hinf : s.dsp.inflight = [c]) (hdue : s.tmp.due = []) (hstage : c.stage = .drawing)
    (hlen : c.drawn.length + 32 < c.outLen) : ∃ (t : State) (w : List Byte), exec .entWordGrant s = .next t ∧ w.length = 32 ∧
      t.dsp.inflight = [{ c with drawn := c.drawn ++ w }] ∧ t.mem = s.mem := by
  obtain ⟨w, hw, hinf1, hmem1, htmp1⟩ := State.grantWord_shown (s := s) hinf hlen
  have hexec : exec .entWordGrant s = .next (s.grantWord c).pump := by
    show execEntWordGrant s = _
    unfold execEntWordGrant
    rw [State.nextDrawer_single hinf hstage, State.nextDrawer_single hinf hstage, s.flag_eq_true hready]
    by_cases h4 : c.entClass = 4
    · rw [if_pos h4]
      rfl
    · have h5 : c.entClass = 5 := by
        unfold Cmd.entClass at h4 ⊢
        split
        · rfl
        next h => exact absurd (if_neg h) h4
      rw [if_neg h4, if_pos h5]
      rfl
  generalize s.grantWord c = s1 at hinf1 hmem1 htmp1 hexec
  have hdrawn : ({ c with drawn := c.drawn ++ w } : Cmd).drawn.length < c.outLen := by
    rw [List.length_append, hw]
    exact hlen
  rw [State.pump_of_drawing hinf1 (htmp1 ▸ hdue) hstage hdrawn] at hexec
  exact ⟨s1, w, hexec, hw, hinf1, hmem1⟩

theorem starved_shown {s : State} {c : Cmd} (hmem : c ∈ s.dsp.inflight) (hstage : c.stage = .drawing) : ∃ t, exec .entStarved s = .next t ∧
    t.rd R.ENT_EVT_STARVED = 1 ∧ s.onlyEvents t [R.ENT_EVT_STARVED, R.ENT_EVT_STARVED.seq] := by
  have hany : (s.dsp.inflight.any fun c => c.stage == .drawing) = true := List.any_eq_true.mpr ⟨c, hmem, by rw [hstage]; rfl⟩
  exact ⟨_, if_pos hany, State.rd_setEvt_same _ rfl (by decide), s.setEvt_frame _ _⟩

theorem captureDone_shown {s : State} {q mode cell dest len : Nat} {failed : Bool} {groups : List (BitVec 512)} (hcap : s.ent.capture = some (q, mode, cell, dest, len))
    (hq : q < 4) (hupdate : s.rd R.ACT_CTRL_UPDATE = 0) (hfailed : failed = decide (s.quad q = 4)) (hle : (captureData mode cell groups).length ≤ len)
    (hall : failed = false → (captureData mode cell groups).length = len) :
    let data := captureData mode cell groups
    let y := if mode = 3 then s.free data.length else (data, s)
    let w := (({ y.2 with ent := { s.ent with capture := none } } : State).dmaOut 12 .secure dest y.1).2
    w.tmp.due = [] → ∃ t, exec (.entCaptureDone failed groups) s = .next t ∧ t.rd R.ENT_CAP_STAT_BUSY = 0 ∧ t.rd R.ENT_CAP_STAT_RESULT = (if failed then 4 else 0) ∧
      t.rd (R.ENT_QEVT_CAP_DONE.ix q) = 1 ∧ t.quad q = (if failed then 4 else 1) ∧ t.ent.capture = none ∧ t.mem = w.mem := by
  intro data y w hdue
  have hy : y.2.regs = s.regs ∧ y.2.ent = s.ent := by
    unfold y
    split <;> exact ⟨rfl, rfl⟩
  let s1 : State := { y.2 with ent := { s.ent with capture := none } }
  have hs1 : ({ y.2 with ent := { y.2.ent with capture := none } } : State) = s1 := by rw [hy.2]
  have hquad1 : s1.quad q = s.quad q := State.rd_of_regs hy.1 _
  have hupdate1 : s1.rd R.ACT_CTRL_UPDATE = 0 := (State.rd_of_regs hy.1 _).trans hupdate
  have hexec : exec (.entCaptureDone failed groups) s =
      .next ((({ y.2 with ent := { y.2.ent with capture := none } } : State).captureWrite dest y.1).captureEnd q failed).settle := by
    show execEntCaptureDone failed groups s = _
    unfold execEntCaptureDone
    rw [hcap]
    refine if_neg ?_
    rintro (h | h | ⟨h, h'⟩)
    · exact h hfailed
    · exact absurd hle (by omega)
    · exact h' (hall h)
  have hwrite : s1.captureWrite dest y.1 = w := if_neg (by rw [s1.flag_eq_false hupdate1]; decide)
  rw [hs1, hwrite] at hexec
  have hkey := (quadKeys q).1
  have hquad : w.quad q = s.quad q := (s1.dmaOut_keepsOff 12 .secure dest y.1 _ (by unfold Fld.offMemory; omega)).trans hquad1
  have hent : w.ent = { s.ent with capture := none } := State.dmaOut_keepsEnt (s := s1) rfl
  clear_value w
  obtain ⟨h1, h2, h3, h4, h5, h6, h7⟩ := w.captureEnd_shown hq failed
  generalize w.captureEnd q failed = t at hexec h1 h2 h3 h4 h5 h6 h7
  rw [State.settle_of_none ((congrArg Tmp.due h7).trans hdue)] at hexec
  refine ⟨t, hexec, h1, h2, h3, ?_, h5.trans (congrArg Ent.capture hent), h6⟩
  rw [h4, hquad]
  cases failed
  · rfl
  · exact of_decide_eq_true hfailed.symm

/-- Settles O51: the rows of Spawn's quadrants, and of the words and samples it gives. -/
theorem spawnRows : Obligations.SpawnRows := by
  unfold Obligations.SpawnRows
  refine ⟨fun s quadrant hcalm => ⟨?_, ?_, ?_, ?_, ?_, ?_, ?_, ?_⟩, fun s => ⟨?_, ?_, ?_, ?_, ?_⟩⟩
  · intro hquad hready hkat
    obtain ⟨h1, h2, h3, h4, -⟩ := s.quadJoined_shown quadrant.isLt
    exact ⟨_, quadrantJoins_served quadrant hcalm hquad hkat (.inl hready), h1, h2, h3, h4, (s.quadJoined_kept quadrant.val).1⟩
  · intro hquad hready hfailed hkat
    obtain ⟨h1, -, -, -, h5, h6, -⟩ := s.quadJoined_shown quadrant.isLt
    exact ⟨_, quadrantJoins_served quadrant hcalm hquad hkat (.inr hfailed), h1, h5.trans hready, h6.trans hfailed, (s.quadJoined_kept quadrant.val).1⟩
  · exact quadrantJoins_first quadrant hcalm
  · exact fun ones hlen hlo hhi => ⟨balanceWindow_trims quadrant hlen hlo hhi, fun k n hk hbad => balanceWindow_fails quadrant hcalm hlen hlo hhi hk hbad⟩
  · exact fun ones hlen hquad hacq => balanceWindow_acquires quadrant hlen hquad hacq
  · intro cell fail hcell hfail hquad hlo hhi hinfo hkat
    obtain ⟨ht, hquad4, hevent⟩ := State.failQuad_calm hcalm quadrant.val cell (failCode fail) quadrant.isLt
    obtain ⟨hserv, hiq, hic, hit, hjoined, hmem⟩ := State.failQuad_serving hkat quadrant.isLt hcell (failCode_lt fail) hquad hlo hhi hinfo
    exact ⟨_, execEntQuadrantFail_next hcell hfail hquad rfl ht, hquad4, hevent, hserv, hiq, hic, hit, hjoined, hmem⟩
  · intro cell fail hcell hfail hquad hserv hkat hcode
    obtain ⟨ht, -, -⟩ := State.failQuad_calm hcalm quadrant.val cell (failCode fail) quadrant.isLt
    exact ⟨_, execEntQuadrantFail_next hcell hfail hquad rfl ht, State.failQuad_last hcalm hkat cell (failCode fail) hquad hserv hcode⟩
  · exact blockRelease_shown quadrant
  · exact fun c hready hinf hdue hstage hlen => wordGrant_shown hready hinf hdue hstage hlen
  · intro halive htime
    exact ⟨_, if_pos (by rw [halive, decide_eq_true htime]; rfl), rfl, rfl⟩
  · exact fun c hmem hstage => starved_shown hmem hstage
  · intro who v q dest len hpass hgo hbusy
    refine ⟨_, congrArg Host.Outcome.next (State.gated_of_passes hpass v.toNat fun s => s.capCtrl v.toNat), State.capCtrl_shown hgo hbusy⟩
  · exact fun q mode cell dest len failed groups hcap hq hupdate hfailed hle hall => captureDone_shown hcap hq hupdate hfailed hle hall

end Sys2Proof.Machine
end

section
/-! The registers of a DDR5 channel, and what leaves all channels as they are. -/

namespace Sys2Proof.Machine

theorem Fld.mem_key (f : Fld) (c : Nat) : (f.mem c).key = f.key + 0x40000 * c := by
  simp only [Fld.mem, Fld.add, Fld.key]
  omega

theorem Fld.mem_seq (f : Fld) (c : Nat) : (f.mem c).seq = f.seq.mem c := rfl

/-- A field of the channels' registers. -/
def Fld.ofChannels (f : Fld) : Prop := 0xB0000 * 64 ≤ f.key ∧ f.key < 0xC0000 * 64

theorem Fld.ofChannels_mem {f : Fld} {c : Nat} (hc : c < 2) (hf : 0xB0000 * 64 ≤ f.key ∧ f.key < 0xB1000 * 64) : (f.mem c).ofChannels := by
  unfold Fld.ofChannels
  rw [Fld.mem_key]
  omega

namespace State

theorem rd_wr_mem_other (s : State) {f g : Fld} (h : f.key ≠ g.key) (c v : Nat) : (s.wr (g.mem c) v).rd (f.mem c) = s.rd (f.mem c) :=
  rd_wr_other _ _ (by rw [Fld.mem_key, Fld.mem_key]; omega)

theorem rd_setEvt_mem_other (s : State) {f g : Fld} (h : f.key ≠ g.key ∧ f.key ≠ g.seq.key) (c : Nat) (b : Nat := 0) : (s.setEvt (g.mem c) b).rd (f.mem c) = s.rd (f.mem c) :=
  rd_setEvt_other _ _ (by rw [Fld.mem_key, Fld.mem_key]; omega) (by rw [Fld.mem_seq, Fld.mem_key, Fld.mem_key]; omega)

theorem rd_setEvt_mem_same (s : State) {f : Fld} (hw : f.width = 1) (h : f.key ≠ f.seq.key) (c : Nat) : (s.setEvt (f.mem c)).rd (f.mem c) = 1 :=
  rd_setEvt_same _ hw (by rw [Fld.mem_seq, Fld.mem_key, Fld.mem_key]; omega)

/-- The channels and their registers, memory and the test port's hold on them are as before. -/
structure ChannelsKept (s t : State) : Prop where
  regs : ∀ f : Fld, f.ofChannels → t.rd f = s.rd f
  ddr : t.ddr = s.ddr
  mem : t.mem = s.mem
  extest : t.tap.extest = s.tap.extest

theorem ChannelsKept.refl (s : State) : s.ChannelsKept s := ⟨fun _ _ => rfl, rfl, rfl, rfl⟩

theorem ChannelsKept.trans {s t u : State} (h : s.ChannelsKept t) (h' : t.ChannelsKept u) : s.ChannelsKept u :=
  ⟨fun f hf => (h'.regs f hf).trans (h.regs f hf), h'.ddr.trans h.ddr, h'.mem.trans h.mem, h'.extest.trans h.extest⟩

theorem ChannelsKept.of_regs {s t : State} (hregs : t.regs = s.regs) (hddr : t.ddr = s.ddr) (hmem : t.mem = s.mem) (htap : t.tap.extest = s.tap.extest) : s.ChannelsKept t :=
  ⟨fun f _ => rd_of_regs hregs f, hddr, hmem, htap⟩

theorem ChannelsKept.setEvt (s : State) {g : Fld} (b : Nat) (h : ¬g.ofChannels ∧ ¬g.seq.ofChannels) : s.ChannelsKept (s.setEvt g b) := by
  refine ⟨fun f hf => s.rd_setEvt_other b (fun hk => h.1 ?_) fun hk => h.2 ?_, rfl, rfl, rfl⟩
  · unfold Fld.ofChannels at hf ⊢
    omega
  · unfold Fld.ofChannels at hf ⊢
    omega

theorem aerLog_channels (s : State) (f : Fn) (b : Nat) : s.ChannelsKept (s.aerLog f b) := by
  unfold aerLog
  split
  · exact .refl s
  · refine ChannelsKept.trans (t := s.setFnSt f _) (.of_regs rfl rfl rfl rfl) (.setEvt _ 0 ?_)
    cases f.port <;> simp only [Fld.ofChannels] <;> decide

theorem errorRead_channels (s : State) (w : Requester) : s.ChannelsKept (s.errorRead w) ∧ (s.errorRead w).tmp = s.tmp ∧ (s.errorRead w).respCode 15 = s.respCode 15 := by
  unfold errorRead
  split
  · exact ⟨.refl s, rfl, rfl⟩
  next p n =>
    refine ⟨(s.aerLog_channels (hostFn p n) 15).trans (.of_regs rfl rfl rfl rfl), aerLog_keepsTmp rfl, respCode_of_rd ?_⟩
    show (s.aerLog (hostFn p n) 15).rd _ = _
    unfold aerLog
    split
    · rfl
    · refine (rd_setEvt_other _ _ ?_ ?_).trans (rd_of_regs rfl _) <;> cases (hostFn p n).port <;> decide
  · exact ⟨.of_regs rfl rfl rfl rfl, rfl, rfl⟩

/-- A minor alarm of memory. -/
theorem settle_mem {s : State} (hdue : s.tmp.due = [15]) (hcode : s.respCode 15 ≤ 1) : s.ChannelsKept s.settle := by
  let s1 : State := { s with tmp := { s.tmp with due := [] } }
  have ht : s.settle = s1.raiseAlarms [15] := by
    unfold settle
    rw [hdue]
    rfl
  have hun := (raiseAlarm_shown (s := s1) (src := 15) hcode false).1
  have hkeep := raiseAlarm_keepsRegs (s := s1) (src := 15) (by decide) hcode false
  have h1 : s.ChannelsKept s1 := .of_regs rfl rfl rfl rfl
  rw [ht]
  clear_value s1
  generalize s1.raiseAlarms [15] = t at hun hkeep
  refine h1.trans ⟨fun f hf => hkeep f fun hm => ?_, (congrArg State.ddr hun :), (congrArg State.mem hun :), (congrArg (fun s : State => s.tap.extest) hun :)⟩
  have h : ∀ k ∈ alarmFields.map Fld.key, ¬(0xB0000 * 64 ≤ k ∧ k < 0xC0000 * 64) := by decide +kernel
  exact h _ hm hf

/-- The capture of an error. -/
theorem captureErr_shown (s : State) (c l kind pos : Nat) (scrub : Bool) : let t := s.captureErr c l kind pos scrub
    (∀ f : Fld, f.key < 0xB0018 * 64 → t.rd (f.mem c) = s.rd (f.mem c)) ∧ ∃ b, t.chan c = { s.chan c with captured := b } := by
  unfold captureErr
  dsimp only
  split
  · exact ⟨fun _ _ => rfl, _, rfl⟩
  · refine ⟨fun f hf => ?_, true, tblGet_put_same ({} : Ddr) s.ddr c { s.chan c with captured := true }⟩
    have hkeys : R.MEM_ERR_INFO_KIND.key = 0xB0018 * 64 ∧ R.MEM_ERR_INFO_SUBCH.key = 0xB0018 * 64 + 2 ∧ R.MEM_ERR_INFO_POS.key = 0xB0018 * 64 + 3 ∧
        R.MEM_ERR_INFO_SCRUB.key = 0xB0018 * 64 + 7 ∧ R.MEM_ERR_ADDR_ADDR.key = 0xB0020 * 64 := by decide
    rw [rd_wr_mem_other _ (by omega), rd_wr_mem_other _ (by omega), rd_wr_mem_other _ (by omega), rd_wr_mem_other _ (by omega), rd_wr_mem_other _ (by omega)]
    rfl

theorem rd_satAdd_same (s : State) (f : Fld) : (s.satAdd f 1).rd f = min (s.rd f + 1) (2 ^ f.width - 1) :=
  (rd_wr_same ..).trans (Nat.mod_eq_of_lt (by have := Nat.two_pow_pos f.width; omega))

/-- An error that is corrected: the line is written back. -/
theorem corrected_shown (s : State) (c l kind pos : Nat) (scrub : Bool) : let t := s.corrected c l kind pos scrub
    t.rd (R.MEM_EVT_CE.mem c) = 1 ∧ t.rd (R.MEM_CE_COUNT_COUNT.mem c) = min (s.rd (R.MEM_CE_COUNT_COUNT.mem c) + 1) (2 ^ 32 - 1) ∧
      (∃ b, t.chan c = { s.chan c with errs := tblPut none (s.chan c).errs l none, captured := b }) ∧ t.mem = s.mem ∧ t.tmp = s.tmp ∧ t.out = s.out := by
  let s1 := s.cleanLine c l
  have hchan1 : s1.chan c = { s.chan c with errs := tblPut none (s.chan c).errs l none } := tblGet_put_same ({} : Ddr) s.ddr c _
  have hrd1 (f : Fld) : s1.rd f = s.rd f := rfl
  have hsame1 : s1.mem = s.mem ∧ s1.tmp = s.tmp ∧ s1.out = s.out := ⟨rfl, rfl, rfl⟩
  have ht : s.corrected c l kind pos scrub = ((s1.captureErr c l kind pos scrub).satAdd (R.MEM_CE_COUNT_COUNT.mem c) 1).setEvt (R.MEM_EVT_CE.mem c) := rfl
  clear_value s1
  obtain ⟨hm1, ht1, ho1⟩ := hsame1
  have hmem : (s1.captureErr c l kind pos scrub).mem = s.mem := captureErr_keepsMem hm1
  have htmp : (s1.captureErr c l kind pos scrub).tmp = s.tmp := captureErr_keepsTmp ht1
  have hout : (s1.captureErr c l kind pos scrub).out = s.out := captureErr_keepsOut ho1
  obtain ⟨hrd, b, hchan⟩ := s1.captureErr_shown c l kind pos scrub
  rw [ht]
  generalize s1.captureErr c l kind pos scrub = s2 at hmem htmp hout hrd hchan ⊢
  refine ⟨rd_setEvt_mem_same _ rfl (by decide) c, ?_, ⟨b, ?_⟩, hmem, htmp, hout⟩
  · rw [rd_setEvt_mem_other _ (by decide), rd_satAdd_same, hrd _ (by decide), hrd1]
    rfl
  · show s2.chan c = _
    rw [hchan, hchan1]

/-- An error beyond correction: it is counted, and the line stays as it is. -/
theorem uncorrectable_shown (s : State) {c : Nat} (hc : c < 2) (l : Nat) (scrub : Bool) : let t := s.uncorrectable c l scrub
    t.rd (R.MEM_EVT_UE.mem c) = 1 ∧ t.rd (R.MEM_UE_COUNT_COUNT.mem c) = min (s.rd (R.MEM_UE_COUNT_COUNT.mem c) + 1) (2 ^ 32 - 1) ∧
      (∃ b, t.chan c = { s.chan c with captured := b }) ∧ t.mem = s.mem ∧ t.tmp.due = s.tmp.due ++ [15] ∧ t.tap = s.tap ∧ t.respCode 15 = s.respCode 15 := by
  have hcode : (s.uncorrectable c l scrub).respCode 15 = s.respCode 15 := respCode_of_rd (s.uncorrectable_keepsOff hc l scrub _ (by unfold Fld.offMemory; decide))
  have hmem : (s.captureErr c l 2 15 scrub).mem = s.mem := captureErr_keepsMem rfl
  have htmp : (s.captureErr c l 2 15 scrub).tmp = s.tmp := captureErr_keepsTmp rfl
  have htap : (s.captureErr c l 2 15 scrub).tap = s.tap := captureErr_keepsTap rfl
  obtain ⟨hrd, b, hchan⟩ := s.captureErr_shown c l 2 15 scrub
  have ht : s.uncorrectable c l scrub = (((s.captureErr c l 2 15 scrub).satAdd (R.MEM_UE_COUNT_COUNT.mem c) 1).setEvt (R.MEM_EVT_UE.mem c)).fireMem := rfl
  rw [ht] at hcode ⊢
  generalize s.captureErr c l 2 15 scrub = s1 at hmem htmp htap hrd hchan hcode ⊢
  refine ⟨rd_setEvt_mem_same _ rfl (by decide) c, ?_, ⟨b, hchan⟩, hmem, congrArg (fun x : Tmp => x.due ++ [15]) htmp, htap, hcode⟩
  refine (rd_setEvt_mem_other _ (by decide) c).trans ?_
  rw [rd_satAdd_same, hrd _ (by decide)]
  rfl

/-- The initiator of a read that failed hears of it. -/
theorem initError_read (s : State) (w : Requester) (off : Nat) (why : LineFault) : let t := s.initError { who := .requester w, off := off, data := [] } why
    s.ChannelsKept t ∧ t.tmp = s.tmp ∧ t.respCode 15 = s.respCode 15 := by
  show s.ChannelsKept (match w with | .core _ _ _ => s.emit (.answer w none) | _ => s.errorRead w) ∧ _
  cases w with
  | core p l world => exact ⟨.of_regs rfl rfl rfl rfl, rfl, rfl⟩
  | host p n => exact s.errorRead_channels (.host p n)
  | debug world => exact s.errorRead_channels (.debug world)

/-- A read that fails beyond correction, where memory's alarm has no response of its own. -/
theorem lostRead_shown {s : State} {c l : Nat} (hc : c < 2) (w : Requester) (off : Nat) (hdue : s.tmp.due = []) (hcode : s.respCode 15 ≤ 1) :
    let t := ((s.uncorrectable c l false).initError { who := .requester w, off := off, data := [] } .uncorrectable).settle
    t.rd (R.MEM_EVT_UE.mem c) = 1 ∧ t.rd (R.MEM_UE_COUNT_COUNT.mem c) = min (s.rd (R.MEM_UE_COUNT_COUNT.mem c) + 1) (2 ^ 32 - 1) ∧ t.mem = s.mem ∧
      ∀ k, t.lineRead c k = s.lineRead c k := by
  obtain ⟨hevt, hcount, ⟨b, hchan⟩, hmem, hdue1, htap, hcode1⟩ := s.uncorrectable_shown hc l false
  generalize s.uncorrectable c l false = s1 at hevt hcount hchan hmem hdue1 htap hcode1 ⊢
  obtain ⟨hkept, htmp2, hcode2⟩ := s1.initError_read w off .uncorrectable
  generalize s1.initError { who := .requester w, off := off, data := [] } .uncorrectable = s2 at hkept htmp2 hcode2 ⊢
  have hdue2 : s2.tmp.due = [15] := by rw [htmp2, hdue1, hdue]; rfl
  have hall := hkept.trans (settle_mem hdue2 (by rw [hcode2, hcode1]; exact hcode))
  have hfield {f : Fld} (hf : 0xB0000 * 64 ≤ f.key ∧ f.key < 0xB1000 * 64) := hall.regs (f.mem c) (Fld.ofChannels_mem hc hf)
  refine ⟨(hfield (by decide)).trans hevt, (hfield (by decide)).trans hcount, hall.mem.trans hmem, fun k => ?_⟩
  have herrs : (s2.settle.chan c).errs = (s.chan c).errs := by
    unfold chan at hchan ⊢
    rw [hall.ddr, hchan]
  unfold lineRead
  rw [hall.extest, htap, herrs]

end State

end Sys2Proof.Machine
end

section
/-! Accesses to the lines of DDR5 (R255 to R261). -/

namespace Sys2Proof.Machine

namespace State

/-! Where a line lies, and whether its channel answers, is read from the registers only. -/

theorem capBytes_of_regs {s t : State} (h : t.regs = s.regs) (c : Nat) : t.capBytes c = s.capBytes c := congrArg (· * 0x40000000) (rd_of_regs h _)

theorem lineOf_of_regs {s t : State} (h : t.regs = s.regs) (a : Nat) : t.lineOf a = s.lineOf a := by
  unfold lineOf chanOf
  rw [capBytes_of_regs h, capBytes_of_regs h]

theorem chanUp_of_regs {s t : State} (h : t.regs = s.regs) (c : Nat) : t.chanUp c = s.chanUp c := by
  unfold chanUp domAnswers
  rw [rd_of_regs h, rd_of_regs h]

/-- What befalls a line leaves all but its stored bits and its content as they are. -/
structure Befallen (s t : State) (c : Nat) : Prop where
  regs : t.regs = s.regs
  tmp : t.tmp = s.tmp
  tap : t.tap = s.tap
  out : t.out = s.out
  chan : ∃ errs, t.chan c = { s.chan c with errs := errs }

theorem befall_kept (s : State) (c l : Nat) (e : LineEvent) : s.Befallen (s.befall c l e) c := by
  have herr (s : State) (x : Option LineErr) : s.Befallen (s.setErr c l x) c := ⟨rfl, rfl, rfl, rfl, _, tblGet_put_same ({} : Ddr) s.ddr c _⟩
  unfold befall
  split
  · exact ⟨rfl, rfl, rfl, rfl, _, rfl⟩
  · exact herr s _
  · exact herr s _
  · split
    · exact ⟨rfl, rfl, rfl, rfl, _, rfl⟩
    · exact herr s _
  · exact herr s _
  · exact herr s _
  next data =>
    obtain ⟨hregs, htmp, htap, hout, herrs⟩ := herr s none
    exact ⟨hregs, htmp, htap, hout, herrs⟩

/-- An event that befalls the line of one access. -/
theorem befallFrom_one (s : State) (a : Nat) (e : LineEvent) : let u := befallFrom a [e] s
    u.regs = s.regs ∧ u.tmp = s.tmp ∧ u.tap = s.tap ∧ u.out = s.out := by
  show let u := (match s.lineOf a with | some (c, l) => s.befall c l e | none => s); u.regs = s.regs ∧ u.tmp = s.tmp ∧ u.tap = s.tap ∧ u.out = s.out
  cases hl : s.lineOf a with
  | none => exact ⟨rfl, rfl, rfl, rfl⟩
  | some x =>
    obtain ⟨hregs, htmp, htap, hout, -⟩ := s.befall_kept x.1 x.2 e
    exact ⟨hregs, htmp, htap, hout⟩

section
variable {s : State} {x : LineAccess} {c l : Nat} (hline : s.lineOf (ddrBase + x.off) = some (c, l)) (hup : s.chanUp c = true)
  (hlock : tblGet none (s.chan c).locks l = none)
include hline hup hlock

/-- A read of a line that is neither locked nor above the fill front. -/
theorem channelAccess_read (hfill : s.lineFilled c (64 * l) = true) (hdata : x.data = []) : s.channelAccess x =
    (s.checkLine c l (x.who == .scrub)).lineAnswer x (if s.lineRead c l == .uncorrectable then none else some (s.bytes (ddrBase + x.off / 64 * 64) 64)) := by
  have hhold : s.holdLine c l x = none := by
    unfold holdLine
    simp only [hlock, hfill, if_true]
  have hpart : s.lockFor c l x = s := if_neg (by simp [isPartial, hdata])
  have hserve : s.serveLine x = (if s.lineRead c l == .uncorrectable then none else some (s.bytes (ddrBase + x.off / 64 * 64) 64), s.checkLine c l (x.who == .scrub)) := by
    unfold serveLine
    rw [hline]
    dsimp only
    rw [hup, hdata]
    rfl
  unfold channelAccess
  rw [hline]
  dsimp only
  rw [hup, hhold]
  dsimp only
  rw [hpart, hserve]
  rfl

/-- A write of part of a line that reads well: it is merged, and locks the line. -/
theorem channelAccess_merge (hfill : s.lineFilled c (64 * l) = true) (hdata : x.data ≠ []) (hlen : x.data.length < 64) (hgood : s.lineRead c l = .good) :
    s.channelAccess x = (s.setChan c { s.chan c with locks := tblPut none (s.chan c).locks l (some {}) }).setBytes (ddrBase + x.off) x.data := by
  have hhold : s.holdLine c l x = none := by
    unfold holdLine
    simp only [hlock, hfill, if_true]
  have hempty : x.data.isEmpty = false := by simpa using hdata
  let u := s.setChan c { s.chan c with locks := tblPut none (s.chan c).locks l (some {}) }
  have hpart : s.lockFor c l x = u := if_pos (by
    unfold isPartial
    rw [hempty, show (x.data.length == 64) = false from beq_false_of_ne (by omega), Bool.and_false]
    rfl)
  have hgood1 : u.lineRead c l = .good := by
    have hchan : u.chan c = { s.chan c with locks := tblPut none (s.chan c).locks l (some {}) } := s.chan_setChan_same c _
    unfold lineRead at hgood ⊢
    rw [hchan]
    exact hgood
  have hline1 : u.lineOf (ddrBase + x.off) = some (c, l) := hline
  have hup1 : u.chanUp c = true := hup
  have hserve : u.serveLine x = (some [], u.setBytes (ddrBase + x.off) x.data) := by
    unfold serveLine checkLine
    rw [hline1]
    dsimp only
    rw [hup1, hempty, hgood1, if_neg (by decide), if_neg (by decide), if_neg (by omega)]
    rfl
  have hanswer : (u.setBytes (ddrBase + x.off) x.data).lineAnswer x (some []) = u.setBytes (ddrBase + x.off) x.data := by
    unfold lineAnswer
    dsimp only
    split
    · rw [hempty]
      rfl
    · rfl
  unfold channelAccess
  rw [hline]
  dsimp only
  rw [hup, hhold]
  dsimp only
  rw [hpart, hserve]
  exact hanswer

/-- A write of a whole line: it replaces what was stored, without a read. -/
theorem channelAccess_whole (hfill : s.lineFilled c (64 * l) = true) (hoff : x.off % 64 = 0) (hlen : x.data.length = 64) (hextest : s.tap.extest = false) :
    s.channelAccess x = (s.cleanLine c l).setBytes (ddrBase + x.off) x.data := by
  have hhold : s.holdLine c l x = none := by
    unfold holdLine
    simp only [hlock, hfill, if_true]
  have hempty : x.data.isEmpty = false := by
    cases hd : x.data with
    | nil => simp [hd] at hlen
    | cons => rfl
  have hpart : s.lockFor c l x = s := if_neg (by
    unfold isPartial
    rw [hoff, hlen, hempty]
    decide)
  have hserve : s.serveLine x = (some [], (s.cleanLine c l).setBytes (ddrBase + x.off) x.data) := by
    unfold serveLine
    rw [hline]
    dsimp only
    rw [hup, hempty, hextest, if_neg (by decide), if_neg (by decide), if_pos ⟨hoff, hlen⟩]
    rfl
  have hanswer (u : State) : u.lineAnswer x (some []) = u := by
    unfold lineAnswer
    dsimp only
    split
    · rw [hempty]
      rfl
    · rfl
  unfold channelAccess
  rw [hline]
  dsimp only
  rw [hup, hhold]
  dsimp only
  rw [hpart, hserve]
  exact hanswer _

end

/-- An access to a locked line waits. -/
theorem channelAccess_locked {s : State} {x : LineAccess} {c l : Nat} {k : LineLock} (hline : s.lineOf (ddrBase + x.off) = some (c, l)) (hup : s.chanUp c = true)
    (hlock : tblGet none (s.chan c).locks l = some k) : s.channelAccess x =
    s.setChan c { s.chan c with locks := tblPut none (s.chan c).locks l (some { k with waiting := k.waiting ++ [x] }) } := by
  unfold channelAccess holdLine
  rw [hline]
  dsimp only
  rw [hup, hlock]
  rfl

/-- The bytes that a write leaves. -/
theorem setBytes_bytes (s : State) (a : Nat) (l : List Byte) (ha : 0x40000 ≤ a) : (s.setBytes a l).bytes a l.length = l ∧ s.keepsBytes (s.setBytes a l) a l.length := by
  have hbyte (y : Nat) : (s.setBytes a l).byte y = if y < 0x40000 then s.byte y else if a ≤ y then l.getD (y - a) (tblGet 0 s.mem y) else tblGet 0 s.mem y := by
    have hmem : (s.setBytes a l).mem = memPut s.mem a l := rfl
    unfold byte
    rw [hmem, tblGet_memPut]
    split <;> rfl
  have hget (n : Nat) : ∀ k, k + n = l.length → (s.setBytes a l).bytes (a + k) n = l.drop k := by
    induction n with
    | zero => exact fun k hk => (List.drop_eq_nil_of_le (by omega)).symm
    | succ n ih =>
      intro k hk
      have hlt : k < l.length := by omega
      have hhead : (s.setBytes a l).byte (a + k) = l[k] := by
        rw [hbyte, if_neg (by omega), if_pos (by omega), Nat.add_sub_cancel_left, List.getD_eq_getElem _ _ hlt]
      show (s.setBytes a l).byte (a + k) :: (s.setBytes a l).bytes (a + k + 1) n = _
      rw [hhead, Nat.add_assoc, ih (k + 1) (by omega)]
      exact (List.drop_eq_getElem_cons hlt).symm
  refine ⟨hget l.length 0 (by omega), fun y hy => ?_⟩
  rw [hbyte]
  unfold byte
  split
  · rfl
  · split
    · exact List.getD_eq_default _ _ (by omega)
    · rfl

/-- An access of a requester that the table does not hold. -/
theorem lineArrives_eq {s : State} {w : Requester} {off : Nat} {data : List Byte} {e : LineEvent} (hhold : (befallFrom (ddrBase + off) [e] s).tableHolds w = false)
    (hgrant : (befallFrom (ddrBase + off) [e] s).lineRefusal { who := .requester w, off := off, data := data } = none) :
    s.lineArrives { who := .requester w, off := off, data := data } e = ((befallFrom (ddrBase + off) [e] s).channelAccess { who := .requester w, off := off, data := data }).settle := by
  have hline : (befallFrom (ddrBase + off) [e] s).lineAccess { who := .requester w, off := off, data := data } =
      (befallFrom (ddrBase + off) [e] s).channelAccess { who := .requester w, off := off, data := data } := by
    unfold lineAccess
    rw [hgrant]
  show (if (befallFrom (ddrBase + off) [e] s).tableHolds w = true then (befallFrom (ddrBase + off) [e] s).hold _ else _).settle = _
  rw [hhold, hline]
  rfl

end State

end Sys2Proof.Machine
end

section
/-! Training, fill and scrub of a DDR5 channel (R249, R250, R264 to R267). -/

namespace Sys2Proof.Machine

namespace State

theorem ChannelsKept.wr (s : State) {g : Fld} (v : Nat) (h : ¬g.ofChannels) : s.ChannelsKept (s.wr g v) := by
  refine ⟨fun f hf => rd_wr_other _ _ fun hk => h ?_, rfl, rfl, rfl⟩
  unfold Fld.ofChannels at hf ⊢
  omega

theorem ChannelsKept.foldl {α : Type} {g : State → α → State} {l : List α} (h : ∀ (s : State) (a : α), a ∈ l → s.ChannelsKept (g s a)) : ∀ s : State, s.ChannelsKept (l.foldl g s) := by
  induction l with
  | nil => exact .refl
  | cons a l ih => exact fun s => (h s a List.mem_cons_self).trans (ih (fun s b hb => h s b (List.mem_cons_of_mem _ hb)) _)

theorem domState_notChannels {d : Nat} (h : d < 60) : ¬(domState d).ofChannels := by
  simp only [Fld.ofChannels, domState, Fld.key, Fld.ix, R.PWR_DOM_STAT_STATE]
  omega

theorem supersede_channels (s : State) : s.ChannelsKept (s.supersede 22) := by
  have hresult : s.ChannelsKept (s.pendResult 22 6) := by
    unfold pendResult
    dsimp only
    split
    · refine .wr s 6 ?_
      cases s.pendWorld 22 <;> simp only [Fld.ofChannels] <;> decide
    · exact .refl s
  have hpending (u : State) : u.ChannelsKept (u.setPending 22 3 .secure) := by
    refine ChannelsKept.foldl (fun u d hd => ?_) u
    have hlt : d < 60 := (by decide : ∀ d ∈ domGroup 22, d < 60) d hd
    refine (ChannelsKept.wr u 3 ?_).trans (.wr _ _ ?_)
    · simp only [Fld.ofChannels, Fld.key, Fld.ix, R.PWR_DOM_STAT_PENDING]
      omega
    · simp only [Fld.ofChannels, Fld.key, Fld.ix, R.PWR_DOM_STAT_PEND_WORLD]
      omega
  unfold supersede
  split
  · exact .refl s
  · have h := (hresult.trans (hpending _)).trans (.setEvt _ 0 (g := R.PWR_EVT_GATE_SUPERSEDED) (by simp only [Fld.ofChannels]; decide))
    dsimp only
    generalize ((s.pendResult 22 6).setPending 22 3 .secure).setEvt R.PWR_EVT_GATE_SUPERSEDED = u at h ⊢
    exact h.trans (.of_regs rfl rfl rfl rfl)

section
variable (s : State) (c : Nat)

theorem reportModule_shown (present wide two : Bool) {rate gib : Nat} (hrate : rate < 8) (hgib : gib < 256) : let t := s.reportModule c present wide two rate gib
    t.rd (R.MEM_CFG_PRESENT.mem c) = present.toNat ∧ t.rd (R.MEM_CFG_RATE.mem c) = rate ∧ t.rd (R.MEM_CFG_CAP_GIB.mem c) = gib ∧
      (∀ f : Fld, 0xB0004 * 64 ≤ f.key → t.rd (f.mem c) = s.rd (f.mem c)) ∧ t.mem = s.mem := by
  unfold reportModule
  refine ⟨?_, ?_, ?_, fun f hf => ?_, rfl⟩
  · rw [rd_wr_mem_other _ (by decide), rd_wr_mem_other _ (by decide), rd_wr_mem_other _ (by decide), rd_wr_mem_other _ (by decide), rd_wr_same]
    cases present <;> rfl
  · rw [rd_wr_mem_other _ (by decide), rd_wr_same]
    exact Nat.mod_eq_of_lt hrate
  · rw [rd_wr_same]
    exact Nat.mod_eq_of_lt hgib
  · have hkeys : R.MEM_CFG_PRESENT.key < 0xB0004 * 64 ∧ R.MEM_CFG_WIDTH.key < 0xB0004 * 64 ∧ R.MEM_CFG_RANKS.key < 0xB0004 * 64 ∧ R.MEM_CFG_RATE.key < 0xB0004 * 64 ∧
        R.MEM_CFG_CAP_GIB.key < 0xB0004 * 64 := by decide
    rw [rd_wr_mem_other _ (by omega), rd_wr_mem_other _ (by omega), rd_wr_mem_other _ (by omega), rd_wr_mem_other _ (by omega), rd_wr_mem_other _ (by omega)]

/-- A training that fails. -/
theorem trainFail_shown (hc : c < 2) {cause : Nat} (hcause : cause < 8) (hstate : s.rd (R.MEM_STATUS_STATE.mem c) = 1) : let t := s.trainFail c cause
    (t.rd (R.MEM_STATUS_CAUSE.mem c) = cause ∧ t.rd (R.MEM_EVT_TRAIN_FAIL.mem c) = 1 ∧ t.rd (R.MEM_STATUS_STATE.mem c) = (if c = 1 then 4 else 1) ∧ t.mem = s.mem) ∧
      ∀ f : Fld, 0xB0000 * 64 ≤ f.key → f.key < 0xB0004 * 64 → t.rd (f.mem c) = s.rd (f.mem c) := by
  let s1 := (s.wr (R.MEM_STATUS_CAUSE.mem c) cause).setEvt (R.MEM_EVT_TRAIN_FAIL.mem c)
  have hkeys : R.MEM_STATUS_CAUSE.key = 0xB0004 * 64 + 3 ∧ R.MEM_STATUS_STATE.key = 0xB0004 * 64 ∧ R.MEM_EVT_TRAIN_FAIL.key = 0xB000C * 64 + 3 ∧
      R.MEM_EVT_TRAIN_FAIL.seq.key = 0xB000C * 64 + 16 := by decide
  have hcause1 : s1.rd (R.MEM_STATUS_CAUSE.mem c) = cause := (rd_setEvt_mem_other _ (by decide) c).trans ((rd_wr_same ..).trans (Nat.mod_eq_of_lt hcause))
  have hevt1 : s1.rd (R.MEM_EVT_TRAIN_FAIL.mem c) = 1 := rd_setEvt_mem_same _ rfl (by decide) c
  have hstate1 : s1.rd (R.MEM_STATUS_STATE.mem c) = 1 := (rd_setEvt_mem_other _ (by decide) c).trans ((rd_wr_mem_other _ (by decide) c _).trans hstate)
  have hcfg1 (f : Fld) (hf : f.key < 0xB0004 * 64) : s1.rd (f.mem c) = s.rd (f.mem c) :=
    (rd_setEvt_mem_other _ (by omega) c).trans (rd_wr_mem_other _ (by omega) c _)
  have hmem1 : s1.mem = s.mem := rfl
  let lose (u : State) : State := ([22, 23, 24, 25].foldl (fun s d => s.wr (domState d) 3) (u.wr (R.MEM_STATUS_STATE.mem 1) 4)).setEvt R.PWR_EVT_DOMAIN_LOST
  let s2 : State := { s1.supersede 22 with pwr := { (s1.supersede 22).pwr with moving := tblPut 0 (s1.supersede 22).pwr.moving 22 0 } }
  have ht : s.trainFail c cause = if c = 1 then lose s2 else s1 := rfl
  have h2 : s1.ChannelsKept s2 := s1.supersede_channels.trans (.of_regs rfl rfl rfl rfl)
  clear_value s2
  rw [ht]
  clear_value s1
  by_cases h : c = 1
  · subst h
    rw [if_pos rfl, if_pos rfl]
    have h3 : (s2.wr (R.MEM_STATUS_STATE.mem 1) 4).ChannelsKept (lose s2) := by
      refine (ChannelsKept.foldl (fun u d hd => .wr u 3 (domState_notChannels ?_)) _).trans (.setEvt _ 0 (by simp only [Fld.ofChannels]; decide))
      exact (by decide : ∀ d ∈ [22, 23, 24, 25], d < 60) d hd
    have hrd {f : Fld} (hf : 0xB0000 * 64 ≤ f.key ∧ f.key < 0xB1000 * 64) (hne : f.key ≠ R.MEM_STATUS_STATE.key) : (lose s2).rd (f.mem 1) = s1.rd (f.mem 1) :=
      (h3.regs _ (Fld.ofChannels_mem (by decide) hf)).trans ((rd_wr_mem_other _ hne 1 4).trans (h2.regs _ (Fld.ofChannels_mem (by decide) hf)))
    refine ⟨⟨(hrd (by decide) (by decide)).trans hcause1, (hrd (by decide) (by decide)).trans hevt1, ?_, h3.mem.trans (h2.mem.trans hmem1)⟩, fun f hlo hhi => ?_⟩
    · exact (h3.regs _ (by unfold Fld.ofChannels; decide)).trans (rd_wr_same ..)
    · exact (hrd ⟨hlo, by omega⟩ (by omega)).trans (hcfg1 f hhi)
  · rw [if_neg h, if_neg h]
    exact ⟨⟨hcause1, hevt1, hstate1, hmem1⟩, fun f _ hhi => hcfg1 f hhi⟩

/-- A channel that is trained. -/
theorem trained_shown : let t := s.trained c
    t.rd (R.MEM_STATUS_STATE.mem c) = 2 ∧ t.rd (R.MEM_FILL_DONE.mem c) = 0 ∧ (t.chan c).sweep = 0 ∧ t.mem = s.mem ∧
      ∀ f : Fld, f.key < 0xB0004 * 64 → t.rd (f.mem c) = s.rd (f.mem c) := by
  have hkeys : R.MEM_STATUS_CAUSE.key = 0xB0004 * 64 + 3 ∧ R.MEM_STATUS_STATE.key = 0xB0004 * 64 ∧ R.MEM_FILL_FRONT_MIB.key = 0xB0008 * 64 ∧
      R.MEM_FILL_OOO.key = 0xB0008 * 64 + 18 ∧ R.MEM_FILL_DONE.key = 0xB0008 * 64 + 31 := by decide
  unfold trained
  dsimp only
  have hrd (u : State) (f : Fld) : (u.setChan c {}).rd f = u.rd f := rfl
  refine ⟨?_, ?_, ?_, rfl, fun f hf => ?_⟩
  · rw [hrd, rd_wr_mem_other _ (by decide), rd_wr_mem_other _ (by decide), rd_wr_mem_other _ (by decide)]
    exact rd_wr_same ..
  · rw [hrd]
    exact rd_wr_same ..
  · rw [chan_setChan_same]
  · rw [hrd, rd_wr_mem_other _ (by omega), rd_wr_mem_other _ (by omega), rd_wr_mem_other _ (by omega), rd_wr_mem_other _ (by omega), rd_wr_mem_other _ (by omega)]

/-- The sweep up to block `n`, with no block filled ahead. -/
theorem sweepTo_shown (hooo : (s.chan c).ooo = []) {n : Nat} (hn : n ≤ s.chanBlocks c) : let t := s.sweepTo c n
    (t.chan c).sweep = n ∧ t.rd (R.MEM_FILL_FRONT_MIB.mem c) = n / 16 % 2 ^ 18 := by
  unfold sweepTo
  dsimp only
  rw [hooo]
  dsimp only [List.length_nil, skipBlocks, List.filter_nil]
  rw [Nat.min_eq_left hn]
  have hchan (u : State) (f : Fld) (v : Nat) : (u.wr f v).chan c = u.chan c := rfl
  refine ⟨?_, ?_⟩
  · rw [hchan, hchan, chan_setChan_same]
  · rw [rd_wr_mem_other _ (by decide), rd_wr_same]
    rfl

/-- What the sweep leaves. -/
theorem sweepTo_kept (n : Nat) : let t := s.sweepTo c n
    t.mem = s.mem ∧ t.tmp = s.tmp ∧ (t.chan c).heldFill = (s.chan c).heldFill := by
  unfold sweepTo
  dsimp only
  refine ⟨rfl, rfl, ?_⟩
  have hchan (u : State) (f : Fld) (v : Nat) : (u.wr f v).chan c = u.chan c := rfl
  rw [hchan, hchan, chan_setChan_same]

/-- No access waits for the fill. -/
theorem releaseFilled_none {s : State} {c : Nat} (hheld : (s.chan c).heldFill = []) (hdue : s.tmp.due = []) :
    s.releaseFilled c = s.setChan c { s.chan c with heldFill := [] } := by
  unfold releaseFilled
  dsimp only
  rw [hheld]
  exact settle_of_none hdue

/-- The patrol scrub goes on. -/
theorem scrubOn_shown : let n := s.filledLines c
    let t := s.scrubOn c
    ((s.chan c).scrubLine + 1 < n → (t.chan c).scrubLine = (s.chan c).scrubLine + 1 ∧ t.rd (R.MEM_SCRUB_PROGRESS.mem c) = min 1023 (((s.chan c).scrubLine + 1) * 1024 / n)) ∧
    (n ≤ (s.chan c).scrubLine + 1 → (t.chan c).scrubLine = 0 ∧ (t.chan c).passDone = true ∧ t.rd (R.MEM_EVT_SCRUB_PASS.mem c) = 1) ∧
    t.mem = s.mem ∧ t.tmp = s.tmp ∧ t.out = s.out ∧ (t.chan c).errs = (s.chan c).errs ∧
      ∀ f : Fld, f.key < 0xB0018 * 64 → f.key ≠ R.MEM_EVT_SCRUB_PASS.key → f.key ≠ R.MEM_EVT_SCRUB_PASS.seq.key → t.rd (f.mem c) = s.rd (f.mem c) := by
  have hkeys : R.MEM_SCRUB_PROGRESS.key = 0xB0028 * 64 ∧ R.MEM_SCRUB_PASSES.key = 0xB0028 * 64 + 16 := by decide
  intro n t
  by_cases hlt : (s.chan c).scrubLine + 1 < n
  · let s1 := s.setChan c { s.chan c with scrubLine := (s.chan c).scrubLine + 1 }
    have ht : t = s1.wr (R.MEM_SCRUB_PROGRESS.mem c) (min 1023 (((s.chan c).scrubLine + 1) * 1024 / n)) := if_pos hlt
    have hchan1 : s1.chan c = { s.chan c with scrubLine := (s.chan c).scrubLine + 1 } := s.chan_setChan_same c _
    have hrd1 (f : Fld) : s1.rd f = s.rd f := rfl
    have hsame : s1.mem = s.mem ∧ s1.tmp = s.tmp ∧ s1.out = s.out := ⟨rfl, rfl, rfl⟩
    have hchan : t.chan c = s1.chan c := by rw [ht]; rfl
    obtain ⟨hm, htm, ho⟩ := hsame
    clear_value s1
    rw [hchan, hchan1, ht]
    refine ⟨fun _ => ⟨rfl, ?_⟩, fun h => absurd hlt (by omega), hm, htm, ho, rfl, fun f hf _ _ => (rd_wr_mem_other _ (by omega) c _).trans (hrd1 _)⟩
    rw [rd_wr_same]
    exact Nat.mod_eq_of_lt (show _ < 1024 by omega)
  · let s1 := s.setChan c { s.chan c with scrubLine := 0, passDone := true }
    let s2 := (s1.wr (R.MEM_SCRUB_PROGRESS.mem c) 0).satAdd (R.MEM_SCRUB_PASSES.mem c) 1
    have ht : t = s2.setEvt (R.MEM_EVT_SCRUB_PASS.mem c) := if_neg hlt
    have hchan1 : s1.chan c = { s.chan c with scrubLine := 0, passDone := true } := s.chan_setChan_same c _
    have hrd2 (f : Fld) (hf : f.key < 0xB0018 * 64) : s2.rd (f.mem c) = s.rd (f.mem c) := (rd_wr_mem_other _ (by omega) c _).trans (rd_wr_mem_other _ (by omega) c _)
    have hsame : s2.mem = s.mem ∧ s2.tmp = s.tmp ∧ s2.out = s.out := ⟨rfl, rfl, rfl⟩
    have hchan : t.chan c = s1.chan c := by rw [ht]; rfl
    obtain ⟨hm, htm, ho⟩ := hsame
    clear_value s2 s1
    rw [hchan, hchan1, ht]
    exact ⟨fun h => absurd h hlt, fun _ => ⟨rfl, rfl, rd_setEvt_mem_same _ rfl (by decide) c⟩, hm, htm, ho, rfl,
      fun f hf h1 h2 => (rd_setEvt_mem_other _ ⟨h1, h2⟩ c).trans (hrd2 f hf)⟩

end

end State

end Sys2Proof.Machine
end

section
/-! The events of a DDR5 channel, and accesses to its lines (O49). -/

namespace Sys2Proof.Machine

section
variable {s : State} {channel : Fin 2}

theorem trainingDone_module (htrain : s.inTraining channel.val = true) {w r lanes : Bool} {rate gib : Nat} (hfits : trainingFits rate gib = true) :
    exec (.ddrTrainingDone channel (.module w r rate gib lanes)) s =
      .next (if lanes then (s.reportModule channel.val true w r rate gib).trained channel.val else (s.reportModule channel.val true w r rate gib).trainFail channel.val 3) := by
  show execDdrTrainingDone channel (.module w r rate gib lanes) s = _
  unfold execDdrTrainingDone
  dsimp only
  rw [htrain, hfits]
  cases lanes <;> rfl

theorem trainingDone_misfit (htrain : s.inTraining channel.val = true) {w r lanes : Bool} {rate gib : Nat} (hfits : trainingFits rate gib = false) :
    exec (.ddrTrainingDone channel (.module w r rate gib lanes)) s = .next ((s.reportModule channel.val false false false 0 0).trainFail channel.val 2) := by
  show execDdrTrainingDone channel (.module w r rate gib lanes) s = _
  unfold execDdrTrainingDone
  dsimp only
  rw [htrain, hfits]
  rfl

theorem trainingDone_noSpd (htrain : s.inTraining channel.val = true) :
    exec (.ddrTrainingDone channel .noSpd) s = .next ((s.reportModule channel.val false false false 0 0).trainFail channel.val 1) := by
  show execDdrTrainingDone channel .noSpd s = _
  unfold execDdrTrainingDone
  dsimp only
  rw [htrain]
  rfl

theorem trainingFits_lt {rate gib : Nat} (h : trainingFits rate gib = true) : rate < 8 ∧ gib < 256 := by
  simp only [trainingFits, Bool.and_eq_true, decide_eq_true_eq] at h
  omega

/-- A training that fails once what was found is reported. -/
theorem reportThenFail_shown (htrain : s.inTraining channel.val = true) (present wide two : Bool) {rate gib cause : Nat} (hrate : rate < 8) (hgib : gib < 256) (hcause : cause < 8) :
    let t := (s.reportModule channel.val present wide two rate gib).trainFail channel.val cause
    (t.rd (R.MEM_CFG_PRESENT.mem channel.val) = present.toNat ∧ t.rd (R.MEM_CFG_RATE.mem channel.val) = rate ∧ t.rd (R.MEM_CFG_CAP_GIB.mem channel.val) = gib) ∧
      t.rd (R.MEM_STATUS_CAUSE.mem channel.val) = cause ∧ t.rd (R.MEM_EVT_TRAIN_FAIL.mem channel.val) = 1 ∧
      t.rd (R.MEM_STATUS_STATE.mem channel.val) = (if channel.val = 1 then 4 else 1) ∧ t.mem = s.mem := by
  have hstate : s.rd (R.MEM_STATUS_STATE.mem channel.val) = 1 := by
    simp only [State.inTraining, Bool.and_eq_true, beq_iff_eq] at htrain
    exact htrain.1.1
  obtain ⟨hp, hr, hg, hkept, hmem⟩ := s.reportModule_shown channel.val present wide two hrate hgib
  generalize s.reportModule channel.val present wide two rate gib = s1 at hp hr hg hkept hmem ⊢
  obtain ⟨⟨h1, h2, h3, h4⟩, hcfg⟩ := s1.trainFail_shown channel.val channel.isLt hcause ((hkept _ (by decide)).trans hstate)
  exact ⟨⟨(hcfg _ (by decide) (by decide)).trans hp, (hcfg _ (by decide) (by decide)).trans hr, (hcfg _ (by decide) (by decide)).trans hg⟩, h1, h2, h3, h4.trans hmem⟩

theorem reportThenTrained_shown (wide two : Bool) {rate gib : Nat} (hrate : rate < 8) (hgib : gib < 256) : let t := (s.reportModule channel.val true wide two rate gib).trained channel.val
    (t.rd (R.MEM_CFG_PRESENT.mem channel.val) = 1 ∧ t.rd (R.MEM_CFG_RATE.mem channel.val) = rate ∧ t.rd (R.MEM_CFG_CAP_GIB.mem channel.val) = gib) ∧
      t.rd (R.MEM_STATUS_STATE.mem channel.val) = 2 ∧ t.rd (R.MEM_FILL_DONE.mem channel.val) = 0 ∧ (t.chan channel.val).sweep = 0 ∧ t.mem = s.mem := by
  obtain ⟨hp, hr, hg, -, hmem⟩ := s.reportModule_shown channel.val true wide two hrate hgib
  generalize s.reportModule channel.val true wide two rate gib = s1 at hp hr hg hmem ⊢
  obtain ⟨h1, h2, h3, h4, hcfg⟩ := s1.trained_shown channel.val
  exact ⟨⟨(hcfg _ (by decide)).trans hp, (hcfg _ (by decide)).trans hr, (hcfg _ (by decide)).trans hg⟩, h1, h2, h3, h4.trans hmem⟩

theorem zeroFillBlock_sweeps (hst : s.rd (R.MEM_STATUS_STATE.mem channel.val) = 2) (hsweep : (s.chan channel.val).sweep < s.chanBlocks channel.val)
    (hooo : (s.chan channel.val).ooo = []) (hheld : (s.chan channel.val).heldFill = []) (hdue : s.tmp.due = []) :
    ∃ t, exec (.zeroFillBlock channel (s.chan channel.val).sweep) s = .next t ∧ (t.chan channel.val).sweep = (s.chan channel.val).sweep + 1 ∧
      t.rd (R.MEM_FILL_FRONT_MIB.mem channel.val) = ((s.chan channel.val).sweep + 1) / 16 % 2 ^ 18 ∧ t.mem = s.mem := by
  have hexec : exec (.zeroFillBlock channel (s.chan channel.val).sweep) s =
      .next ((s.sweepTo channel.val ((s.chan channel.val).sweep + 1)).releaseFilled channel.val) := by
    show execZeroFillBlock channel (s.chan channel.val).sweep s = _
    unfold execZeroFillBlock
    dsimp only
    rw [if_neg (by omega), if_pos rfl]
  obtain ⟨hsw, hfront⟩ := s.sweepTo_shown channel.val hooo (n := (s.chan channel.val).sweep + 1) hsweep
  obtain ⟨hmem, htmp, hheld1⟩ := s.sweepTo_kept channel.val ((s.chan channel.val).sweep + 1)
  generalize s.sweepTo channel.val ((s.chan channel.val).sweep + 1) = s1 at hexec hsw hfront hmem htmp hheld1
  rw [State.releaseFilled_none (hheld1.trans hheld) ((congrArg Tmp.due htmp).trans hdue)] at hexec
  refine ⟨_, hexec, ?_, hfront, hmem⟩
  rw [State.chan_setChan_same]
  exact hsw

theorem fillDone_shown (hst : s.rd (R.MEM_STATUS_STATE.mem channel.val) = 2) (hheld : (s.chan channel.val).heldFill = []) (hdue : s.tmp.due = []) :
    ∃ t, exec (.fillDone channel) s = .next t ∧ t.rd (R.MEM_STATUS_STATE.mem channel.val) = 3 ∧ t.rd (R.MEM_FILL_DONE.mem channel.val) = 1 ∧
      t.rd (R.MEM_EVT_FILL_DONE.mem channel.val) = 1 ∧ t.mem = s.mem := by
  have hexec : exec (.fillDone channel) s = .next ((((s.sweepTo channel.val (s.chanBlocks channel.val)).wr (R.MEM_FILL_DONE.mem channel.val) 1).wr
      (R.MEM_STATUS_STATE.mem channel.val) 3).setEvt (R.MEM_EVT_FILL_DONE.mem channel.val) |>.releaseFilled channel.val) := if_pos hst
  obtain ⟨hmem, htmp, hheld1⟩ := s.sweepTo_kept channel.val (s.chanBlocks channel.val)
  generalize s.sweepTo channel.val (s.chanBlocks channel.val) = s1 at hexec hmem htmp hheld1
  let s2 := ((s1.wr (R.MEM_FILL_DONE.mem channel.val) 1).wr (R.MEM_STATUS_STATE.mem channel.val) 3).setEvt (R.MEM_EVT_FILL_DONE.mem channel.val)
  have hrelease : s2.releaseFilled channel.val = s2.setChan channel.val { s2.chan channel.val with heldFill := [] } :=
    State.releaseFilled_none (hheld1.trans hheld) ((congrArg Tmp.due htmp).trans hdue)
  refine ⟨_, hexec.trans (congrArg Host.Outcome.next hrelease), ?_, ?_, ?_, hmem⟩
  · refine (State.rd_setEvt_mem_other _ (by decide) channel.val).trans ?_
    exact State.rd_wr_same ..
  · refine (State.rd_setEvt_mem_other _ (by decide) channel.val).trans ((State.rd_wr_mem_other _ (by decide) channel.val 3).trans ?_)
    exact State.rd_wr_same ..
  · exact State.rd_setEvt_mem_same _ rfl (by decide) channel.val

/-- The patrol scrub's access to its line. -/
theorem patrolScrub_access {event : LineEvent} (hup : s.chanUp channel.val = true) (hlt : (s.chan channel.val).scrubLine < s.filledLines channel.val)
    (hpass : (s.chan channel.val).passDone = false) (hlock : tblGet none (s.chan channel.val).locks (s.chan channel.val).scrubLine = none)
    (hline : s.lineOf (ddrBase + s.lineAddr channel.val (s.chan channel.val).scrubLine) = some (channel.val, (s.chan channel.val).scrubLine))
    (hread : (s.befall channel.val (s.chan channel.val).scrubLine event).lineRead channel.val (s.chan channel.val).scrubLine ≠ .uncorrectable) :
    exec (.patrolScrubLine channel event) s =
      .next ((((s.befall channel.val (s.chan channel.val).scrubLine event).checkLine channel.val (s.chan channel.val).scrubLine true).scrubOn channel.val).settle) := by
  have hlines : s.filledLines channel.val = 1024 * (s.chan channel.val).sweep := rfl
  have hexec : exec (.patrolScrubLine channel event) s = .next ((((s.befall channel.val (s.chan channel.val).scrubLine event).channelAccess
      { who := .scrub, off := s.lineAddr channel.val (s.chan channel.val).scrubLine, data := [] }).scrubOn channel.val).settle) := by
    show execPatrolScrubLine channel event s = _
    unfold execPatrolScrubLine
    dsimp only
    rw [hup, hpass, decide_eq_false (by omega)]
    rfl
  obtain ⟨hregs, -, -, -, errs, hchan⟩ := s.befall_kept channel.val (s.chan channel.val).scrubLine event
  generalize s.befall channel.val (s.chan channel.val).scrubLine event = u at hexec hregs hchan hread ⊢
  have hfill : u.lineFilled channel.val (64 * (s.chan channel.val).scrubLine) = true := by
    have hdiv : 64 * (s.chan channel.val).scrubLine / 0x10000 < (u.chan channel.val).sweep := by
      rw [hchan]
      dsimp only
      omega
    unfold State.lineFilled
    rw [decide_eq_true hdiv, Bool.or_true, Bool.true_or]
  have haccess := State.channelAccess_read (s := u) (x := { who := .scrub, off := s.lineAddr channel.val (s.chan channel.val).scrubLine, data := [] })
    ((State.lineOf_of_regs hregs _).trans hline) ((State.chanUp_of_regs hregs _).trans hup) (by rw [hchan]; exact hlock) hfill rfl
  rw [if_neg (by simpa using hread)] at haccess
  rw [hexec, haccess]
  rfl

theorem scrubPeriodEnd_done (hup : s.chanUp channel.val = true) (hpass : (s.chan channel.val).passDone = true) :
    ∃ t, exec (.scrubPeriodEnd channel) s = .next t ∧ (t.chan channel.val).passDone = false ∧ t.regs = s.regs ∧ t.mem = s.mem := by
  have hexec : exec (.scrubPeriodEnd channel) s = .next (s.setChan channel.val { s.chan channel.val with passDone := false }) := by
    show execScrubPeriodEnd channel s = _
    unfold execScrubPeriodEnd
    dsimp only
    rw [hup, hpass]
    rfl
  refine ⟨_, hexec, ?_, rfl, rfl⟩
  rw [State.chan_setChan_same]

theorem scrubPeriodEnd_late (hup : s.chanUp channel.val = true) (hpass : (s.chan channel.val).passDone = false) :
    ∃ t, exec (.scrubPeriodEnd channel) s = .next t ∧ t.rd (R.MEM_EVT_SCRUB_LATE.mem channel.val) = 1 ∧ t.mem = s.mem := by
  have hexec : exec (.scrubPeriodEnd channel) s = .next (s.setEvt (R.MEM_EVT_SCRUB_LATE.mem channel.val)) := by
    show execScrubPeriodEnd channel s = _
    unfold execScrubPeriodEnd
    dsimp only
    rw [hup, hpass]
    rfl
  exact ⟨_, hexec, State.rd_setEvt_mem_same _ rfl (by decide) channel.val, rfl⟩

theorem ddrAlert_retries (again : Bool) (l : List LineAccess) (hup : s.chanUp channel.val = true) (hreplays : (s.chan channel.val).replays < 3) :
    ∃ t, exec (.ddrAlert channel again l) s = .next t ∧ (t.chan channel.val).replays = (if again then (s.chan channel.val).replays + 1 else 0) ∧
      t.rd (R.MEM_EVT_ALERT_RETRY.mem channel.val) = 1 ∧ t.mem = s.mem := by
  let s1 := s.setChan channel.val { s.chan channel.val with replays := if again then (s.chan channel.val).replays + 1 else 0 }
  have hexec : exec (.ddrAlert channel again l) s = .next (s1.setEvt (R.MEM_EVT_ALERT_RETRY.mem channel.val)) := by
    show execDdrAlert channel again l s = _
    unfold execDdrAlert
    dsimp only
    rw [hup, if_pos hreplays]
    rfl
  have hchan : s1.chan channel.val = { s.chan channel.val with replays := if again then (s.chan channel.val).replays + 1 else 0 } := s.chan_setChan_same _ _
  refine ⟨_, hexec, ?_, State.rd_setEvt_mem_same _ rfl (by decide) channel.val, rfl⟩
  show (s1.chan channel.val).replays = _
  rw [hchan]

theorem ddrAlert_fails (again : Bool) {w : Requester} {off l : Nat} (hup : s.chanUp channel.val = true) (hreplays : 3 ≤ (s.chan channel.val).replays)
    (hline : s.lineOf (ddrBase + off) = some (channel.val, l)) (hdue : s.tmp.due = []) (hcode : s.respCode 15 ≤ 1) :
    ∃ t, exec (.ddrAlert channel again [{ who := .requester w, off := off, data := [] }]) s = .next t ∧ t.rd (R.MEM_EVT_UE.mem channel.val) = 1 ∧
      t.rd (R.MEM_UE_COUNT_COUNT.mem channel.val) = min (s.rd (R.MEM_UE_COUNT_COUNT.mem channel.val) + 1) (2 ^ 32 - 1) ∧ t.mem = s.mem := by
  let s1 := s.setChan channel.val { s.chan channel.val with replays := 0 }
  have hline1 : s1.lineOf (ddrBase + off) = some (channel.val, l) := hline
  have hfail : s1.alertFail channel.val { who := .requester w, off := off, data := [] } =
      (s1.uncorrectable channel.val l false).initError { who := .requester w, off := off, data := [] } .uncorrectable := by
    unfold State.alertFail
    rw [hline1]
    dsimp only
    rw [if_neg (fun h => h rfl)]
    rfl
  have hexec : exec (.ddrAlert channel again [{ who := .requester w, off := off, data := [] }]) s =
      .next (((s1.uncorrectable channel.val l false).initError { who := .requester w, off := off, data := [] } .uncorrectable).settle) := by
    show execDdrAlert channel again _ s = _
    unfold execDdrAlert
    dsimp only
    rw [hup, if_neg (by decide), if_neg (by omega), ← hfail]
    rfl
  have hrd (f : Fld) : s1.rd f = s.rd f := rfl
  obtain ⟨hevt, hcount, hmem, -⟩ := State.lostRead_shown (s := s1) (l := l) channel.isLt w off hdue hcode
  exact ⟨_, hexec, hevt, hcount, hmem⟩

end

end Sys2Proof.Machine
end

section
/-! Accesses to lines of DDR5 as events, and O49. -/

namespace Sys2Proof.Machine

theorem patrolScrub_good {s : State} {channel : Fin 2} {event : LineEvent} (hup : s.chanUp channel.val = true) (hlt : (s.chan channel.val).scrubLine < s.filledLines channel.val)
    (hpass : (s.chan channel.val).passDone = false) (hlock : tblGet none (s.chan channel.val).locks (s.chan channel.val).scrubLine = none) (hdue : s.tmp.due = [])
    (hline : s.lineOf (ddrBase + s.lineAddr channel.val (s.chan channel.val).scrubLine) = some (channel.val, (s.chan channel.val).scrubLine)) :
    let c := channel.val
    let x := s.chan c
    let u := s.befall c x.scrubLine event
    u.lineRead c x.scrubLine = .good → ∃ t, exec (.patrolScrubLine channel event) s = .next t ∧ t.mem = u.mem ∧
      (x.scrubLine + 1 < s.filledLines c → (t.chan c).scrubLine = x.scrubLine + 1 ∧ t.rd (R.MEM_SCRUB_PROGRESS.mem c) = min 1023 ((x.scrubLine + 1) * 1024 / s.filledLines c)) ∧
      (s.filledLines c ≤ x.scrubLine + 1 → (t.chan c).scrubLine = 0 ∧ (t.chan c).passDone = true ∧ t.rd (R.MEM_EVT_SCRUB_PASS.mem c) = 1) := by
  intro c x u hgood
  have hexec := patrolScrub_access hup hlt hpass hlock hline (event := event) (by rw [hgood]; decide)
  have hcheck : u.checkLine c x.scrubLine true = u := by
    unfold State.checkLine
    rw [hgood]
  obtain ⟨-, htmp, -, -, errs, hchan⟩ := s.befall_kept c x.scrubLine event
  have hexec' : exec (.patrolScrubLine channel event) s = .next ((u.checkLine c x.scrubLine true).scrubOn c).settle := hexec
  rw [hcheck] at hexec'
  replace hchan : u.chan c = { x with errs := errs } := hchan
  replace htmp : u.tmp = s.tmp := htmp
  clear_value u
  obtain ⟨hmore, hend, hmem, htmp1, -⟩ := u.scrubOn_shown c
  have hlines : u.filledLines c = s.filledLines c := by
    unfold State.filledLines
    rw [hchan]
  rw [hlines, hchan] at hmore hend
  rw [State.settle_of_none ((congrArg Tmp.due (htmp1.trans htmp)).trans hdue)] at hexec'
  exact ⟨_, hexec', hmem, hmore, hend⟩

theorem patrolScrub_corrects {s : State} {channel : Fin 2} {event : LineEvent} (hup : s.chanUp channel.val = true)
    (hlt : (s.chan channel.val).scrubLine < s.filledLines channel.val) (hpass : (s.chan channel.val).passDone = false)
    (hlock : tblGet none (s.chan channel.val).locks (s.chan channel.val).scrubLine = none) (hdue : s.tmp.due = [])
    (hline : s.lineOf (ddrBase + s.lineAddr channel.val (s.chan channel.val).scrubLine) = some (channel.val, (s.chan channel.val).scrubLine)) :
    let c := channel.val
    let x := s.chan c
    let u := s.befall c x.scrubLine event
    ∀ k, u.lineRead c x.scrubLine = .corrected k → ∃ t, exec (.patrolScrubLine channel event) s = .next t ∧ t.rd (R.MEM_EVT_CE.mem c) = 1 ∧
      t.rd (R.MEM_CE_COUNT_COUNT.mem c) = min (s.rd (R.MEM_CE_COUNT_COUNT.mem c) + 1) (2 ^ 32 - 1) ∧ tblGet none (t.chan c).errs x.scrubLine = none ∧ t.mem = u.mem := by
  intro c x u k hcorr
  have hexec : exec (.patrolScrubLine channel event) s = .next ((u.checkLine c x.scrubLine true).scrubOn c).settle :=
    patrolScrub_access hup hlt hpass hlock hline (by rw [hcorr]; exact nofun)
  have hcheck : u.checkLine c x.scrubLine true = u.corrected c x.scrubLine 1 k true := by
    unfold State.checkLine
    rw [hcorr]
  rw [hcheck] at hexec
  obtain ⟨hregs, htmp, -⟩ := s.befall_kept c x.scrubLine event
  replace hregs : u.regs = s.regs := hregs
  replace htmp : u.tmp = s.tmp := htmp
  clear_value u
  obtain ⟨hce, hcount, ⟨b, hchan⟩, hmem1, htmp1, -⟩ := u.corrected_shown c x.scrubLine 1 k true
  generalize u.corrected c x.scrubLine 1 k true = v at hexec hce hcount hchan hmem1 htmp1
  obtain ⟨-, -, hmem2, htmp2, -, herrs2, hkept⟩ := v.scrubOn_shown c
  rw [State.settle_of_none ((congrArg Tmp.due (htmp2.trans (htmp1.trans htmp))).trans hdue)] at hexec
  refine ⟨_, hexec, (hkept _ (by decide) (by decide) (by decide)).trans hce, ?_, ?_, hmem2.trans hmem1⟩
  · rw [hkept _ (by decide) (by decide) (by decide), hcount, State.rd_of_regs hregs]
  · rw [herrs2, hchan]
    exact tblGet_put_same none (u.chan c).errs x.scrubLine none

/-- A field that no count of errors changes: the module's, and the state of a channel or of its domain. -/
def Fld.steady (f : Fld) : Prop := ∀ (g : Fld) (c : Nat), 0xB000C * 64 ≤ g.key ∧ g.key < 0xB1000 * 64 → f.key ≠ (g.mem c).key

theorem Fld.steady_mem {f : Fld} (h : 0xB0000 * 64 ≤ f.key ∧ f.key < 0xB000C * 64) (c : Nat) : (f.mem c).steady := by
  intro g d hg
  rw [Fld.mem_key, Fld.mem_key]
  omega

theorem State.rd_uncorrectable (s : State) {f : Fld} (h : f.steady) (c l : Nat) (scrub : Bool) : (s.uncorrectable c l scrub).rd f = s.rd f := by
  have hwr (u : State) {g : Fld} (v : Nat) (hg : 0xB000C * 64 ≤ g.key ∧ g.key < 0xB1000 * 64) : (u.wr (g.mem c) v).rd f = u.rd f := State.rd_wr_other _ _ (h g c hg)
  have hcapture : (s.captureErr c l 2 15 scrub).rd f = s.rd f := by
    unfold State.captureErr
    dsimp only
    split
    · rfl
    · rw [hwr _ _ (by decide), hwr _ _ (by decide), hwr _ _ (by decide), hwr _ _ (by decide), hwr _ _ (by decide)]
      rfl
  have ht : s.uncorrectable c l scrub = (((s.captureErr c l 2 15 scrub).satAdd (R.MEM_UE_COUNT_COUNT.mem c) 1).setEvt (R.MEM_EVT_UE.mem c)).fireMem := rfl
  rw [ht]
  refine ((State.rd_setEvt_other _ _ (h R.MEM_EVT_UE c (by decide)) (h R.MEM_EVT_UE.seq c (by decide))).trans (hwr _ _ (by decide))).trans hcapture

theorem State.lineOf_uncorrectable (s : State) (c l : Nat) (scrub : Bool) (a : Nat) : (s.uncorrectable c l scrub).lineOf a = s.lineOf a := by
  have hcap (d : Nat) : (s.uncorrectable c l scrub).capBytes d = s.capBytes d :=
    congrArg (· * 0x40000000) (s.rd_uncorrectable (Fld.steady_mem (f := R.MEM_CFG_CAP_GIB) (by decide) d) c l scrub)
  unfold State.lineOf State.chanOf
  rw [hcap, hcap]

theorem State.chanUp_uncorrectable (s : State) (c l : Nat) (scrub : Bool) {d : Nat} (hd : d < 2) : (s.uncorrectable c l scrub).chanUp d = s.chanUp d := by
  have hdom : (domState (18 + 4 * d)).steady := by
    intro g e hg
    rw [Fld.mem_key]
    simp only [domState, Fld.key, Fld.ix, R.PWR_DOM_STAT_STATE] at hg ⊢
    omega
  unfold State.chanUp State.domAnswers
  rw [s.rd_uncorrectable (Fld.steady_mem (by decide) d), s.rd_uncorrectable hdom]

section
variable {s u : State} {w : Requester} {off c l : Nat} {event : LineEvent}
  (hu : befallFrom (ddrBase + off) [event] s = u) (hhold : u.tableHolds w = false) (hdue : u.tmp.due = [])
  (hline : u.lineOf (ddrBase + off) = some (c, l)) (hup : u.chanUp c = true)
include hu hhold hdue hline hup

omit hdue in
/-- A read of a line, as an event. -/
theorem ddrLineRead_served (hgrant : u.lineRefusal { who := .requester w, off := off, data := [] } = none) (hlock : tblGet none (u.chan c).locks l = none)
    (hfill : u.lineFilled c (64 * l) = true) : exec (.ddrLineRead (.requester w) off event) s =
    .next ((u.checkLine c l false).lineAnswer { who := .requester w, off := off, data := [] }
      (if u.lineRead c l == .uncorrectable then none else some (u.bytes (ddrBase + off / 64 * 64) 64))).settle := by
  have hexec : exec (.ddrLineRead (.requester w) off event) s = .next (s.lineArrives { who := .requester w, off := off, data := [] } event) := rfl
  rw [hexec, State.lineArrives_eq (by rwa [hu]) (by rwa [hu]), hu]
  have haccess := State.channelAccess_read (x := { who := .requester w, off := off, data := [] }) hline hup hlock hfill rfl
  rw [haccess]
  rfl

theorem ddrLineRead_good (hgrant : u.lineRefusal { who := .requester w, off := off, data := [] } = none) (hlock : tblGet none (u.chan c).locks l = none)
    (hfill : u.lineFilled c (64 * l) = true) (hgood : u.lineRead c l = .good) : ∃ t, exec (.ddrLineRead (.requester w) off event) s = .next t ∧
      t.out = .answer w (some (leNat (u.bytes (ddrBase + off / 64 * 64) 64))) :: s.out ∧ { t with out := s.out } = u := by
  have hout : u.out = s.out := hu ▸ (s.befallFrom_one (ddrBase + off) event).2.2.2
  have hexec := ddrLineRead_served hu hhold hline hup hgrant hlock hfill
  have hcheck : u.checkLine c l false = u := by
    unfold State.checkLine
    rw [hgood]
  have hanswer (d : List Byte) : u.lineAnswer { who := .requester w, off := off, data := [] } (some d) = u.emit (.answer w (some (leNat d))) := rfl
  rw [hcheck, hgood, if_neg (by decide), hanswer, State.settle_of_none (by exact hdue)] at hexec
  refine ⟨_, hexec, congrArg (Out.answer w (some (leNat (u.bytes (ddrBase + off / 64 * 64) 64))) :: ·) hout, ?_⟩
  rw [← hout]
  rfl

theorem ddrLineRead_corrects (hgrant : u.lineRefusal { who := .requester w, off := off, data := [] } = none) (hlock : tblGet none (u.chan c).locks l = none)
    (hfill : u.lineFilled c (64 * l) = true) {k : Nat} (hcorr : u.lineRead c l = .corrected k) : ∃ t, exec (.ddrLineRead (.requester w) off event) s = .next t ∧
      t.out = .answer w (some (leNat (u.bytes (ddrBase + off / 64 * 64) 64))) :: s.out ∧ t.rd (R.MEM_EVT_CE.mem c) = 1 ∧ tblGet none (t.chan c).errs l = none ∧ t.mem = u.mem := by
  have hout : u.out = s.out := hu ▸ (s.befallFrom_one (ddrBase + off) event).2.2.2
  have hexec := ddrLineRead_served hu hhold hline hup hgrant hlock hfill
  have hcheck : u.checkLine c l false = u.corrected c l 1 k false := by
    unfold State.checkLine
    rw [hcorr]
  rw [hcheck, hcorr, if_neg (by exact nofun)] at hexec
  obtain ⟨hce, -, ⟨b, hchan⟩, hmem1, htmp1, hout1⟩ := u.corrected_shown c l 1 k false
  generalize u.corrected c l 1 k false = v at hexec hce hchan hmem1 htmp1 hout1
  have hanswer (d : List Byte) : v.lineAnswer { who := .requester w, off := off, data := [] } (some d) = v.emit (.answer w (some (leNat d))) := rfl
  have hdue2 (o : Out) : (v.emit o).tmp.due = [] := (congrArg Tmp.due htmp1).trans hdue
  rw [hanswer, State.settle_of_none (hdue2 _)] at hexec
  refine ⟨_, hexec, congrArg (Out.answer w (some (leNat (u.bytes (ddrBase + off / 64 * 64) 64))) :: ·) (hout1.trans hout), hce, ?_, hmem1⟩
  show tblGet none (v.chan c).errs l = none
  rw [hchan]
  exact tblGet_put_same none (u.chan c).errs l none

theorem ddrLineRead_fails (hgrant : u.lineRefusal { who := .requester w, off := off, data := [] } = none) (hlock : tblGet none (u.chan c).locks l = none)
    (hfill : u.lineFilled c (64 * l) = true) (hbad : u.lineRead c l = .uncorrectable) (hcode : s.respCode 15 ≤ 1) : ∃ t, exec (.ddrLineRead (.requester w) off event) s = .next t ∧
      t.rd (R.MEM_EVT_UE.mem c) = 1 ∧ t.lineRead c l = .uncorrectable ∧ t.mem = u.mem := by
  have hcode1 : u.respCode 15 = s.respCode 15 := State.respCode_of_rd (State.rd_of_regs (hu ▸ (s.befallFrom_one (ddrBase + off) event).1) _)
  have hexec := ddrLineRead_served hu hhold hline hup hgrant hlock hfill
  have hc := State.lineOf_lt hline
  have hcheck : u.checkLine c l false = u.uncorrectable c l false := by
    unfold State.checkLine
    rw [hbad]
  have hregs1 : (u.uncorrectable c l false).lineOf (ddrBase + off) = some (c, l) ∧ (u.uncorrectable c l false).chanUp c = true := by
    exact ⟨(State.lineOf_uncorrectable ..).trans hline, (State.chanUp_uncorrectable _ _ _ _ hc).trans hup⟩
  have hanswer : (u.uncorrectable c l false).lineAnswer { who := .requester w, off := off, data := [] } none =
      (u.uncorrectable c l false).initError { who := .requester w, off := off, data := [] } .uncorrectable := by
    unfold State.lineAnswer
    dsimp only
    rw [hregs1.1]
    dsimp only
    rw [hregs1.2]
    rfl
  rw [hcheck, hbad, if_pos (by rfl), hanswer] at hexec
  obtain ⟨hevt, -, hmem, hread⟩ := State.lostRead_shown (s := u) (l := l) hc w off hdue (hcode1 ▸ hcode)
  exact ⟨_, hexec, hevt, (hread l).trans hbad, hmem⟩

theorem ddrLineRead_waits (hgrant : u.lineRefusal { who := .requester w, off := off, data := [] } = none) {k : LineLock} (hlock : tblGet none (u.chan c).locks l = some k) :
    ∃ t, exec (.ddrLineRead (.requester w) off event) s = .next t ∧
      tblGet none (t.chan c).locks l = some { k with waiting := k.waiting ++ [{ who := .requester w, off := off, data := [] }] } ∧ t.out = s.out ∧ t.mem = u.mem ∧ t.regs = s.regs := by
  obtain ⟨hregs, -, -, hout⟩ := s.befallFrom_one (ddrBase + off) event
  rw [hu] at hregs hout
  have hexec : exec (.ddrLineRead (.requester w) off event) s = .next (s.lineArrives { who := .requester w, off := off, data := [] } event) := rfl
  have haccess := State.channelAccess_locked (x := { who := .requester w, off := off, data := [] }) hline hup hlock
  rw [State.lineArrives_eq (by rwa [hu]) (by rwa [hu]), hu, haccess, State.settle_of_none (by exact hdue)] at hexec
  refine ⟨_, hexec, ?_, hout, rfl, hregs⟩
  rw [State.chan_setChan_same]
  dsimp only
  exact tblGet_put_same ..

theorem ddrPartialWrite_merges {data : List Byte} (hgrant : u.lineRefusal { who := .requester w, off := off, data := data } = none)
    (hlock : tblGet none (u.chan c).locks l = none) (hfill : u.lineFilled c (64 * l) = true) (hdata : data ≠ []) (hin : off % 64 + data.length ≤ 64)
    (hlen : data.length < 64) (hgood : u.lineRead c l = .good) : ∃ t, exec (.ddrPartialWrite (.requester w) off data event) s = .next t ∧
      t.bytes (ddrBase + off) data.length = data ∧ u.keepsBytes t (ddrBase + off) data.length ∧ tblGet none (t.chan c).locks l = some {} ∧ t.regs = s.regs := by
  have hregs : u.regs = s.regs := hu ▸ (s.befallFrom_one (ddrBase + off) event).1
  have hexec : exec (.ddrPartialWrite (.requester w) off data event) s = .next (s.lineArrives { who := .requester w, off := off, data := data } event) :=
    if_neg (by simpa [hdata] using hin)
  have haccess := State.channelAccess_merge (x := { who := .requester w, off := off, data := data }) hline hup hlock hfill hdata hlen hgood
  rw [State.lineArrives_eq (by rwa [hu]) (by rwa [hu]), hu, haccess, State.settle_of_none (by exact hdue)] at hexec
  let u1 := u.setChan c { u.chan c with locks := tblPut none (u.chan c).locks l (some {}) }
  have hchan1 : u1.chan c = { u.chan c with locks := tblPut none (u.chan c).locks l (some {}) } := u.chan_setChan_same c _
  have hmem1 : u1.mem = u.mem := rfl
  obtain ⟨hbytes, hkept⟩ := u1.setBytes_bytes (ddrBase + off) data (by unfold ddrBase; omega)
  refine ⟨_, hexec, hbytes, fun y hy => (hkept y hy).trans (State.byte_of_mem hmem1 y), ?_, hregs⟩
  show tblGet none (u1.chan c).locks l = some {}
  rw [hchan1]
  dsimp only
  exact tblGet_put_same ..

theorem ddrPartialWrite_replaces {data : List Byte} (hgrant : u.lineRefusal { who := .requester w, off := off, data := data } = none)
    (hlock : tblGet none (u.chan c).locks l = none) (hfill : u.lineFilled c (64 * l) = true) (hin : off % 64 + data.length ≤ 64)
    (hlen : data.length = 64) (hextest : s.tap.extest = false) : ∃ t, exec (.ddrPartialWrite (.requester w) off data event) s = .next t ∧
      t.bytes (ddrBase + off) 64 = data ∧ u.keepsBytes t (ddrBase + off) 64 ∧ tblGet none (t.chan c).errs l = none ∧ t.regs = s.regs := by
  obtain ⟨hregs, -, htap, -⟩ := s.befallFrom_one (ddrBase + off) event
  rw [hu] at hregs htap
  have hdata : data ≠ [] := by
    rintro rfl
    simp at hlen
  have hexec : exec (.ddrPartialWrite (.requester w) off data event) s = .next (s.lineArrives { who := .requester w, off := off, data := data } event) :=
    if_neg (by simpa [hdata] using hin)
  have haccess := State.channelAccess_whole (x := { who := .requester w, off := off, data := data }) hline hup hlock hfill (by omega : off % 64 = 0) hlen (htap ▸ hextest)
  rw [State.lineArrives_eq (by rwa [hu]) (by rwa [hu]), hu, haccess, State.settle_of_none (by exact hdue)] at hexec
  let u1 := u.cleanLine c l
  have hchan1 : u1.chan c = { u.chan c with errs := tblPut none (u.chan c).errs l none } := u.chan_setChan_same c _
  have hmem1 : u1.mem = u.mem := rfl
  obtain ⟨hbytes, hkept⟩ := u1.setBytes_bytes (ddrBase + off) data (by unfold ddrBase; omega)
  rw [hlen] at hbytes hkept
  refine ⟨_, hexec, hbytes, fun y hy => (hkept y hy).trans (State.byte_of_mem hmem1 y), ?_, hregs⟩
  show tblGet none (u1.chan c).errs l = none
  rw [hchan1]
  exact tblGet_put_same none (u.chan c).errs l none

end

/-- The lock of a line that nothing waits for ends. -/
theorem ddrLockRelease_free {s : State} {off c l : Nat} (hline : s.lineOf (ddrBase + off) = some (c, l)) (hdue : s.tmp.due = [])
    (hlock : tblGet none (s.chan c).locks l = some {}) :
    ∃ t, exec (.ddrLockRelease off) s = .next t ∧ tblGet none (t.chan c).locks l = none ∧ t.regs = s.regs ∧ t.mem = s.mem := by
  have hexec : exec (.ddrLockRelease off) s = .next (s.setChan c { s.chan c with locks := tblPut none (s.chan c).locks l none }).settle := by
    show execDdrLockRelease off s = _
    unfold execDdrLockRelease
    rw [hline]
    dsimp only
    rw [hlock]
    rfl
  rw [State.settle_of_none (by exact hdue)] at hexec
  refine ⟨_, hexec, ?_, rfl, rfl⟩
  rw [State.chan_setChan_same]
  exact tblGet_put_same none (s.chan c).locks l none

/-- The end of the lock lets the access go on that waits for it. -/
theorem ddrLockRelease_serves {s : State} {w : Requester} {off o c l : Nat} (hline : s.lineOf (ddrBase + off) = some (c, l)) (hdue : s.tmp.due = [])
    (hlock : tblGet none (s.chan c).locks l = some { waiting := [{ who := .requester w, off := o, data := [] }] }) (hwait : s.lineOf (ddrBase + o) = some (c, l))
    (hup : s.chanUp c = true) (hfill : s.lineFilled c (64 * l) = true) (hgood : s.lineRead c l = .good) :
    ∃ t, exec (.ddrLockRelease off) s = .next t ∧ tblGet none (t.chan c).locks l = none ∧
      t.out = .answer w (some (leNat (s.bytes (ddrBase + o / 64 * 64) 64))) :: s.out ∧ t.mem = s.mem := by
  let u := s.setChan c { s.chan c with locks := tblPut none (s.chan c).locks l none }
  have hchan : u.chan c = { s.chan c with locks := tblPut none (s.chan c).locks l none } := s.chan_setChan_same c _
  have hlock1 : tblGet none (u.chan c).locks l = none := by
    rw [hchan]
    exact tblGet_put_same none (s.chan c).locks l none
  have hfill1 : u.lineFilled c (64 * l) = true := by
    unfold State.lineFilled at hfill ⊢
    rw [hchan]
    exact hfill
  have hgood1 : u.lineRead c l = .good := by
    unfold State.lineRead at hgood ⊢
    rw [hchan]
    exact hgood
  have hexec : exec (.ddrLockRelease off) s = .next (u.channelAccess { who := .requester w, off := o, data := [] }).settle := by
    show execDdrLockRelease off s = _
    unfold execDdrLockRelease
    rw [hline]
    dsimp only
    rw [hlock]
    rfl
  have hcheck : u.checkLine c l false = u := by
    unfold State.checkLine
    rw [hgood1]
  have haccess := State.channelAccess_read (s := u) (x := { who := .requester w, off := o, data := [] }) hwait hup hlock1 hfill1 rfl
  have hanswer (d : List Byte) : u.lineAnswer { who := .requester w, off := o, data := [] } (some d) = u.emit (.answer w (some (leNat d))) := rfl
  rw [show ((Initiator.requester w) == .scrub) = false from rfl, hcheck, hgood1, if_neg (by decide), hanswer] at haccess
  have hbytes : u.bytes (ddrBase + o / 64 * 64) 64 = s.bytes (ddrBase + o / 64 * 64) 64 := State.bytes_of_mem rfl _ _
  rw [haccess, State.settle_of_none (by exact hdue)] at hexec
  exact ⟨_, hexec, hlock1, congrArg (fun d => Out.answer w (some (leNat d)) :: s.out) hbytes, rfl⟩

/-- Settles O49: training, fill, scrub and alert of a channel, and the accesses to its lines. -/
theorem memoryChannels : Obligations.MemoryChannels := by
  unfold Obligations.MemoryChannels
  refine ⟨fun s channel => ⟨fun htrain => ⟨?_, ?_, ?_⟩, ?_, ?_, ?_, ?_, ?_, ?_, ?_⟩, ?_, ?_⟩
  · intro w r rate gib lanes hfits
    obtain ⟨hrate, hgib⟩ := trainingFits_lt hfits
    have hexec := trainingDone_module htrain (w := w) (r := r) (lanes := lanes) hfits
    cases lanes with
    | true =>
      obtain ⟨⟨hp, hr, hg⟩, h1, h2, h3, h4⟩ := reportThenTrained_shown (s := s) (channel := channel) w r hrate hgib
      exact ⟨_, hexec, hp, hr, hg, nofun, fun _ => ⟨h1, h2, h3, h4⟩⟩
    | false =>
      obtain ⟨⟨hp, hr, hg⟩, h⟩ := reportThenFail_shown htrain true w r hrate hgib (cause := 3) (by decide)
      exact ⟨_, hexec, hp, hr, hg, fun _ => h, nofun⟩
  · intro w r rate gib lanes hfits
    obtain ⟨⟨hp, -, -⟩, h⟩ := reportThenFail_shown htrain false false false (rate := 0) (gib := 0) (cause := 2) (by decide) (by decide) (by decide)
    exact ⟨_, trainingDone_misfit htrain hfits, hp, h⟩
  · obtain ⟨⟨hp, -, -⟩, h⟩ := reportThenFail_shown htrain false false false (rate := 0) (gib := 0) (cause := 1) (by decide) (by decide) (by decide)
    exact ⟨_, trainingDone_noSpd htrain, hp, h⟩
  · exact zeroFillBlock_sweeps
  · exact fillDone_shown
  · exact fun event hup hlt hpass hlock hdue hline => ⟨patrolScrub_good hup hlt hpass hlock hdue hline, patrolScrub_corrects hup hlt hpass hlock hdue hline⟩
  · exact scrubPeriodEnd_done
  · exact scrubPeriodEnd_late
  · exact fun again l hup hreplays => ddrAlert_retries again l hup hreplays
  · exact fun again w off l hup hreplays hline hdue hcode => ddrAlert_fails again hup hreplays hline hdue hcode
  · intro s w off c l event u hhold hdue hline hup read
    refine ⟨fun hgrant => ⟨fun hlock hfill => ⟨?_, ?_, ?_⟩, ?_⟩, fun data hgrant hlock hfill hdata hin => ⟨?_, ?_⟩⟩
    · exact ddrLineRead_good rfl hhold hdue hline hup hgrant hlock hfill
    · exact fun k => ddrLineRead_corrects rfl hhold hdue hline hup hgrant hlock hfill
    · exact ddrLineRead_fails rfl hhold hdue hline hup hgrant hlock hfill
    · exact fun k => ddrLineRead_waits rfl hhold hdue hline hup hgrant
    · exact ddrPartialWrite_merges rfl hhold hdue hline hup hgrant hlock hfill hdata hin
    · exact ddrPartialWrite_replaces rfl hhold hdue hline hup hgrant hlock hfill hin
  · exact fun s w off o c l hline hdue => ⟨ddrLockRelease_free hline hdue, ddrLockRelease_serves hline hdue⟩

end Sys2Proof.Machine
end

section
/-! The end of a twin session with no command in flight, and the Soade link (R479, R482, R491). -/

namespace Sys2Proof.Machine

/-- The fields that the end of a session may change. -/
def goneFields : List Fld :=
  [R.GLB_STATUS_TWIN_UP, R.TWN_STATUS_STATE, R.TWN_EVT_PEER_LOST, R.TWN_EVT_LINK_DOWN, R.TWN_EVT_PEER_LOST.seq] ++ statusFields

/-- The end of the session, for the twin's own state. -/
def Twn.gone (x : Twn) : Twn := { x with authed := false, keyed := false, sentEnd := false, gotEnd := false }

namespace State
variable {s : State}

theorem commits_of_idle (h : s.dsp.inflight = []) : s.commits = [] := by
  unfold commits
  rw [h]
  rfl

/-- The session is over, and the status shows it. -/
def sessionOver (s : State) : State := ({ s with twn := s.twn.gone } : State).setStatus R.GLB_STATUS_TWIN_UP 0

theorem peerGone_idle (h : s.commits = []) (lost : Bool) : s.peerGone lost =
    if s.twn.authed then
      if lost then (s.sessionOver.wr R.TWN_STATUS_STATE 6).setEvt R.TWN_EVT_PEER_LOST else (s.sessionOver.wr R.TWN_STATUS_STATE 5).setEvt R.TWN_EVT_LINK_DOWN
    else if s.sessionOver.rd R.TWN_STATUS_STATE = 2 then s.sessionOver.wr R.TWN_STATUS_STATE s.sessionOver.twn.before else s.sessionOver := by
  unfold peerGone
  rw [h]
  rfl

/-- What the end of a session leaves, with no commit under way. -/
structure PeerGone (s t : State) : Prop where
  regs : s.keepsRegs t goneFields
  up : t.rd R.GLB_STATUS_TWIN_UP = 0
  twn : t.twn = s.twn.gone
  mem : t.mem = s.mem
  cfg : t.cfg = s.cfg
  pins : t.pins = s.pins
  dsp : t.dsp = s.dsp
  tmp : t.tmp = s.tmp
  keys : t.keys = s.keys
  out : t.out = s.out

theorem sessionOver_shown (s : State) : s.PeerGone s.sessionOver :=
  ⟨(setStatus_keepsRegs _ 0 (by simp [goneFields]) (List.subset_append_right _ _) : ({ s with twn := s.twn.gone } : State).keepsRegs s.sessionOver goneFields),
    rd_setStatus_same _ 0 (by decide), setStatus_keepsTwn rfl, setStatus_keepsMem rfl, setStatus_keepsCfg rfl, setStatus_keepsPins rfl, setStatus_keepsDsp rfl,
    setStatus_keepsTmp rfl, setStatus_keepsKeys rfl, setStatus_keepsOut rfl⟩

theorem PeerGone.wr {t : State} (h : s.PeerGone t) {f : Fld} (v : Nat) (hf : f.key ∈ goneFields.map Fld.key) (hup : R.GLB_STATUS_TWIN_UP.key ≠ f.key) : s.PeerGone (t.wr f v) :=
  ⟨h.regs.trans (t.keepsRegs_wr v hf) (List.Subset.refl _), (rd_wr_other _ _ hup).trans h.up, h.twn, h.mem, h.cfg, h.pins, h.dsp, h.tmp, h.keys, h.out⟩

theorem PeerGone.setEvt {t : State} (h : s.PeerGone t) {f : Fld} (hf : f.key ∈ goneFields.map Fld.key ∧ f.seq.key ∈ goneFields.map Fld.key)
    (hup : R.GLB_STATUS_TWIN_UP.key ≠ f.key ∧ R.GLB_STATUS_TWIN_UP.key ≠ f.seq.key) : s.PeerGone (t.setEvt f) :=
  ⟨h.regs.trans (t.keepsRegs_setEvt 0 hf.1 hf.2) (List.Subset.refl _), (rd_setEvt_other _ _ hup.1 hup.2).trans h.up, h.twn, h.mem, h.cfg, h.pins, h.dsp, h.tmp, h.keys, h.out⟩

theorem peerGone_shown (h : s.commits = []) (lost : Bool) : s.PeerGone (s.peerGone lost) := by
  have hover := s.sessionOver_shown
  rw [peerGone_idle h]
  split
  · split
    · exact (hover.wr 6 (by decide) (by decide)).setEvt (by decide) (by decide)
    · exact (hover.wr 5 (by decide) (by decide)).setEvt (by decide) (by decide)
  · split
    · exact hover.wr _ (by decide) (by decide)
    · exact hover

/-- A session that ends shows the state it leaves. -/
theorem peerGone_state (h : s.commits = []) (hauth : s.twn.authed = true) (lost : Bool) : (s.peerGone lost).rd R.TWN_STATUS_STATE = (if lost then 6 else 5) := by
  rw [peerGone_idle h, if_pos hauth]
  cases lost
  · refine (rd_setEvt_other _ _ (by decide) (by decide)).trans ?_
    exact rd_wr_same ..
  · refine (rd_setEvt_other _ _ (by decide) (by decide)).trans ?_
    exact rd_wr_same ..

theorem peerGone_lost (h : s.commits = []) (hauth : s.twn.authed = true) : (s.peerGone true).rd R.TWN_EVT_PEER_LOST = 1 := by
  rw [peerGone_idle h, if_pos hauth]
  exact rd_setEvt_same _ rfl (by decide)

/-- A link that goes down. -/
theorem twinDown_shown (h : s.commits = []) : let t := s.twinDown
    t.twn.linkUp = false ∧ t.rd R.TWN_STATUS_SPEED = 0 ∧ t.mem = s.mem ∧ t.pins = s.pins ∧
      (s.twn.authed = true → s.cfg.sideband = false → t.rd R.TWN_STATUS_STATE = 6 ∧ t.rd R.TWN_EVT_PEER_LOST = 1 ∧ t.twn.authed = false) := by
  let s1 := (({ s with twn := { s.twn with linkUp := false } } : State).wr R.TWN_STATUS_SPEED 0).wr R.TWN_STATUS_WIDTH 0
  have ht : s.twinDown = if s.twn.authed && s.cfg.sideband then s1 else s1.peerGone true := rfl
  have hspeed : s1.rd R.TWN_STATUS_SPEED = 0 := (rd_wr_other _ _ (by decide)).trans (rd_wr_same ..)
  have hup : s1.twn.linkUp = false := rfl
  have hauth1 : s1.twn.authed = s.twn.authed := rfl
  have hcommits : s1.commits = [] := h
  have hmem : s1.mem = s.mem := rfl
  have hpins : s1.pins = s.pins := rfl
  rw [ht]
  clear_value s1
  have hgone := peerGone_shown hcommits true
  split
  next hside =>
    simp only [Bool.and_eq_true] at hside
    exact ⟨hup, hspeed, hmem, hpins, fun _ hno => by simp [hside.2] at hno⟩
  next =>
    refine ⟨?_, (hgone.regs _ (by decide)).trans hspeed, hgone.mem.trans hmem, hgone.pins.trans hpins, fun hauth _ => ?_⟩
    · rw [hgone.twn]
      exact hup
    · rw [← hauth1] at hauth
      exact ⟨peerGone_state hcommits hauth true, peerGone_lost hcommits hauth, (s1.peerGone_ends true).1⟩

/-- A session that is closed. -/
theorem closeSession_shown (h : s.commits = []) (hauth : s.twn.authed = true) : let t := s.closeSession
    t.rd R.TWN_STATUS_STATE = 6 ∧ t.twn.authed = false ∧ t.rd R.TWN_EVT_LINK_DOWN = 1 ∧ t.mem = s.mem := by
  let s1 := s.setEvt R.TWN_EVT_LINK_DOWN
  have hevt : s1.rd R.TWN_EVT_LINK_DOWN = 1 := rd_setEvt_same _ rfl (by decide)
  have hmem : s1.mem = s.mem := rfl
  have hcommits : s1.commits = [] := h
  have hauth1 : s1.twn.authed = true := hauth
  have ht : s.closeSession = s1.peerGone true := rfl
  rw [ht]
  clear_value s1
  have hgone := peerGone_shown hcommits true
  refine ⟨peerGone_state hcommits hauth1 true, (s1.peerGone_ends true).1, ?_, hgone.mem.trans hmem⟩
  rw [peerGone_idle hcommits, if_pos hauth1]
  refine (rd_setEvt_other _ _ (by decide) (by decide)).trans ((rd_wr_other _ _ (by decide)).trans ?_)
  have hkept : ({ s1 with twn := s1.twn.gone } : State).rd R.TWN_EVT_LINK_DOWN = s1.rd R.TWN_EVT_LINK_DOWN := rfl
  exact ((rd_setStatus_other _ _ (by decide) (by decide)).trans hkept).trans hevt

/-- A link that trains, outside a session. -/
theorem linkTrained_shown (hauth : s.twn.authed = false) (speed width : Nat) (hspeed : speed < 8) (hwidth : width < 8) : let t := s.linkTrained speed width
    t.twn.linkUp = true ∧ t.twn.recvSeq = 0 ∧ t.twn.sendSeq = 1 ∧ t.rd R.TWN_STATUS_SPEED = speed ∧ t.rd R.TWN_STATUS_WIDTH = width ∧
      (s.takesPart = true → t.rd R.TWN_STATUS_STATE = 2) ∧ t.mem = s.mem ∧
      ∃ f, t.out = .soade f :: s.out ∧ f.seq = 0 ∧ f.payload = .hello (s.twinVer 0) (s.twinVer 1) (s.twinVer 2) (s.twinVer 3) Config.serial.toNat := by
  let x : Twn := { s.twn with
    linkUp := true, sendSeq := 0, recvSeq := 0, unacked := [], replays := 0, failedRetrains := 0, nak := false,
    peerSerial := none, sent := [], got := [], eph := [], keyed := false, authed := false, sentEnd := false, gotEnd := false,
    before := if s.rd R.TWN_STATUS_STATE = 2 then s.twn.before else s.rd R.TWN_STATUS_STATE }
  let s1 := (({ s with twn := x } : State).wr R.TWN_STATUS_SPEED speed).wr R.TWN_STATUS_WIDTH width
  let s2 := if s.takesPart then s1.wr R.TWN_STATUS_STATE 2 else s1
  have ht : s.linkTrained speed width = s2.sendNoted 1 (helloBytes (s.twinVer 0) (s.twinVer 1) (s.twinVer 2) (s.twinVer 3) Config.serial.toNat)
      (.hello (s.twinVer 0) (s.twinVer 1) (s.twinVer 2) (s.twinVer 3) Config.serial.toNat) := by
    have hsame : (if s.twn.authed then s.peerGone false else s) = s := if_neg (by simp [hauth])
    have hcfg : s2.cfg = s.cfg := by
      unfold s2
      split <;> rfl
    have hver (i : Nat) : s2.twinVer i = s.twinVer i := by
      unfold twinVer
      rw [hcfg]
    rw [← hver 0, ← hver 1, ← hver 2, ← hver 3]
    unfold linkTrained
    rw [hsame]
    rfl
  have h2 : s2.twn = x ∧ s2.out = s.out ∧ s2.mem = s.mem := by
    unfold s2
    split <;> exact ⟨rfl, rfl, rfl⟩
  have hspeed2 : s2.rd R.TWN_STATUS_SPEED = speed := by
    have h1 : s1.rd R.TWN_STATUS_SPEED = speed := (rd_wr_other _ _ (by decide)).trans ((rd_wr_same ..).trans (Nat.mod_eq_of_lt hspeed))
    unfold s2
    split
    · exact (rd_wr_other _ _ (by decide)).trans h1
    · exact h1
  have hwidth2 : s2.rd R.TWN_STATUS_WIDTH = width := by
    have h1 : s1.rd R.TWN_STATUS_WIDTH = width := (rd_wr_same ..).trans (Nat.mod_eq_of_lt hwidth)
    unfold s2
    split
    · exact (rd_wr_other _ _ (by decide)).trans h1
    · exact h1
  have hstate2 : s.takesPart = true → s2.rd R.TWN_STATUS_STATE = 2 := by
    intro h
    unfold s2
    rw [if_pos h]
    exact rd_wr_same ..
  obtain ⟨htwn, hout, hmem⟩ := h2
  rw [ht]
  clear_value s2
  refine ⟨?_, ?_, ?_, hspeed2, hwidth2, hstate2, hmem, _, congrArg (_ :: ·) hout, ?_, rfl⟩
  · exact congrArg Twn.linkUp htwn
  · exact congrArg Twn.recvSeq htwn
  · exact congrArg (fun x : Twn => x.sendSeq + 1) htwn
  · exact congrArg Twn.sendSeq htwn

end State

end Sys2Proof.Machine
end

section
/-! The rows of the Soade link, its heartbeats and TWN_PAIR (O54). -/

namespace Sys2Proof.Machine

section
variable {s : State} (hidle : s.dsp.inflight = [])
include hidle

theorem heartbeatMiss_shown (toggles : Bool) (hauth : s.twn.authed = true) : ∃ t, exec (.heartbeatMiss toggles) s = .next t ∧ t.twn.authed = false ∧
    t.rd R.GLB_STATUS_TWIN_UP = 0 ∧ t.mem = s.mem ∧
    t.rd R.TWN_STATUS_STATE = (if s.cfg.sideband = true ∧ toggles = true ∧ s.pins.peerFaultIn = false then 5 else 6) := by
  have hcommits := State.commits_of_idle hidle
  have hgone := State.peerGone_shown hcommits (!(s.cfg.sideband && toggles && !s.pins.peerFaultIn))
  refine ⟨_, if_pos hauth, (s.peerGone_ends _).1, hgone.up, hgone.mem, ?_⟩
  rw [State.peerGone_state hcommits hauth]
  simp only [Bool.not_eq_true', Bool.and_eq_false_iff, Bool.not_eq_false']
  by_cases h : s.cfg.sideband = true ∧ toggles = true ∧ s.pins.peerFaultIn = false
  · rw [if_pos h, if_neg]
    simp [h.1, h.2.1, h.2.2]
  · rw [if_neg h, if_pos]
    by_contra hn
    simp only [not_or, Bool.not_eq_false, Bool.not_eq_true] at hn
    exact h ⟨hn.1.1, hn.1.2, hn.2⟩

theorem peerFaultIn_ends (hside : s.cfg.sideband = true) (happlied : s.boot.applied = true) (hauth : s.twn.authed = true) :
    ∃ t, exec .peerFaultInHigh s = .next t ∧ t.pins.peerFaultIn = true ∧ t.rd R.TWN_STATUS_STATE = 6 ∧ t.rd R.TWN_EVT_PEER_LOST = 1 ∧ t.twn.authed = false ∧ t.mem = s.mem := by
  let s1 : State := { s with pins := { s.pins with peerFaultIn := true } }
  have hcommits : s1.commits = [] := State.commits_of_idle hidle
  have hauth1 : s1.twn.authed = true := hauth
  have hexec : exec .peerFaultInHigh s = .next (s1.peerGone true) := by
    show execPeerFaultInHigh s = _
    unfold execPeerFaultInHigh
    dsimp only
    rw [hside, happlied, hauth]
    rfl
  have hgone := State.peerGone_shown hcommits true
  exact ⟨_, hexec, congrArg Pins.peerFaultIn hgone.pins, State.peerGone_state hcommits hauth1 true, State.peerGone_lost hcommits hauth1, (s1.peerGone_ends true).1, hgone.mem⟩

theorem twPresentN_shown (high : Bool) : ∃ t, exec (.twPresentNChange high) s = .next t ∧ t.pins.twPresentN = high ∧ t.mem = s.mem ∧
    (high = true → t.twn.linkUp = false) ∧ (high = false → { t with pins := s.pins } = s) := by
  let s1 : State := { s with pins := { s.pins with twPresentN := high } }
  have hcommits : s1.commits = [] := State.commits_of_idle hidle
  have hexec : exec (.twPresentNChange high) s = .next (if high && s1.twn.linkUp then s1.twinDown else s1) := rfl
  obtain ⟨hup, -, hmem, hpins, -⟩ := State.twinDown_shown hcommits
  refine ⟨_, hexec, ?_, ?_, fun hhigh => ?_, fun hlow => ?_⟩
  · split
    · rw [hpins]
    · rfl
  · split
    · exact hmem
    · rfl
  · subst hhigh
    split
    · exact hup
    next h => simpa using h
  · subst hlow
    rfl

theorem close_shown {h : FrameHdr} (reason : Nat) (hin : s.inOrder h) (hauth : s.twn.authed = true) : ∃ t, exec (.close h reason) s = .next t ∧
    t.rd R.TWN_STATUS_STATE = 6 ∧ t.twn.authed = false ∧ t.rd R.TWN_EVT_LINK_DOWN = 1 ∧ t.mem = s.mem := by
  have hrest := (s.takeAck_of_noNak hin.2.2.2.2).2
  have hdsp : (s.received h).dsp = s.dsp := (congrArg State.dsp hrest :)
  have hmem : (s.received h).mem = s.mem := (congrArg State.mem hrest :)
  have hauth1 : (s.received h).twn.authed = true := by
    have htwn : (s.takeAck h).twn.authed = s.twn.authed := by
      unfold State.takeAck
      rw [hin.2.2.2.2]
      rfl
    exact htwn.trans hauth
  have hcommits : (s.received h).commits = [] := State.commits_of_idle ((congrArg Dsp.inflight hdsp).trans hidle)
  have hexec : exec (.close h reason) s = .next (s.received h).closeSession := State.recvFrame_of_inOrder hin true _
  obtain ⟨hstate, hends, hevt, hmem1⟩ := State.closeSession_shown hcommits hauth1
  exact ⟨_, hexec, hstate, hends, hevt, hmem1.trans hmem⟩

end

section
variable {s : State}

theorem twinRetrain_shown (ok : Bool) (hlead : s.lead = true) (hst : s.rd R.TWN_STATUS_STATE = 5 ∨ s.rd R.TWN_STATUS_STATE = 6) (hpres : s.pins.twPresentN = false)
    (htest : s.inTest 2 = false) : ∃ t, exec (.twinRetrainTimer ok) s = .next t ∧ t.rd R.TWN_LINK_ERR_RETRAINS = min (s.rd R.TWN_LINK_ERR_RETRAINS + 1) 255 ∧
      t.twn.failedRetrains = (if ok then 0 else s.twn.failedRetrains + 1) ∧ t.mem = s.mem := by
  let s1 := s.satAdd R.TWN_LINK_ERR_RETRAINS 1
  have hexec : exec (.twinRetrainTimer ok) s = .next { s1 with twn := { s1.twn with failedRetrains := if ok then 0 else s1.twn.failedRetrains + 1 } } := by
    show execTwinRetrainTimer ok s = _
    unfold execTwinRetrainTimer
    dsimp only
    refine if_pos ?_
    rw [hlead, hpres, htest]
    rcases hst with h | h <;> rw [h] <;> rfl
  exact ⟨_, hexec, s.rd_satAdd_same _, rfl, rfl⟩

theorem heartbeatSend_link (hauth : s.twn.authed = true) (hup : s.twn.linkUp = true) (hside : s.cfg.sideband = false) : ∃ t f, exec .heartbeatSend s = .next t ∧
    t.out = .soade f :: s.out ∧ f.payload = .heartbeat (s.rd R.TWN_CSEQ_COUNT) ∧ f.seq = s.twn.sendSeq ∧ t.twn.sendSeq = s.twn.sendSeq + 1 ∧ t.regs = s.regs ∧ t.mem = s.mem := by
  have hexec : exec .heartbeatSend s = .next (s.sendFrame false (.heartbeat (s.rd R.TWN_CSEQ_COUNT))) := by
    show execHeartbeatSend s = _
    unfold execHeartbeatSend
    dsimp only
    rw [hauth, hup, hside]
    rfl
  exact ⟨_, _, hexec, rfl, rfl, rfl, rfl, rfl, rfl⟩

theorem heartbeatSend_side (hside : s.cfg.sideband = true) (happlied : s.boot.applied = true) (hrec : s.rd R.GLB_STATUS_RECOVERY = 0) : ∃ t, exec .heartbeatSend s = .next t ∧
    t.pins.beat = (!s.pins.beat) ∧ t.regs = s.regs ∧ t.mem = s.mem := by
  let s1 := if s.twn.authed && s.twn.linkUp then s.sendFrame false (.heartbeat (s.rd R.TWN_CSEQ_COUNT)) else s
  have hrecovery : s.recovery = false := s.flag_eq_false hrec
  have hexec : exec .heartbeatSend s = .next { s1 with pins := { s1.pins with beat := !s1.pins.beat } } := by
    show execHeartbeatSend s = _
    unfold execHeartbeatSend
    dsimp only
    rw [hside, happlied, hrecovery]
    rfl
  have hsame : s1.pins = s.pins ∧ s1.regs = s.regs ∧ s1.mem = s.mem := by
    unfold s1
    split <;> exact ⟨rfl, rfl, rfl⟩
  exact ⟨_, hexec, congrArg (fun p : Pins => !p.beat) hsame.1, hsame.2⟩

end

/-- TWN_PAIR's fields hold what was written, and its approval is used up. -/
def State.pairTaken (s : State) (v : Nat) : State :=
  (((s.wr R.TWN_PAIR_APPROVAL_ID (v % 65536)).wr R.TWN_PAIR_BLOB (v.testBit 16).toNat).wr R.TWN_PAIR_JOIN (v.testBit 17).toNat).endApproval (v % 65536)

theorem State.pairTaken_shown (s : State) (v : Nat) : let t := s.pairTaken v
    t.approvalAt (v % 65536) = none ∧ t.rd R.TWN_PAIR_STATUS_BUSY = s.rd R.TWN_PAIR_STATUS_BUSY ∧ t.cfg = s.cfg ∧ t.mem = s.mem := by
  let s1 := ((s.wr R.TWN_PAIR_APPROVAL_ID (v % 65536)).wr R.TWN_PAIR_BLOB (v.testBit 16).toNat).wr R.TWN_PAIR_JOIN (v.testBit 17).toNat
  have hbusy : s1.rd R.TWN_PAIR_STATUS_BUSY = s.rd R.TWN_PAIR_STATUS_BUSY :=
    (State.rd_wr_other _ _ (by decide)).trans ((State.rd_wr_other _ _ (by decide)).trans (State.rd_wr_other _ _ (by decide)))
  have hcfg : s1.cfg = s.cfg := rfl
  have hmem : s1.mem = s.mem := rfl
  show (s1.endApproval (v % 65536)).approvalAt (v % 65536) = none ∧ (s1.endApproval (v % 65536)).rd _ = _ ∧ (s1.endApproval (v % 65536)).cfg = _ ∧ (s1.endApproval (v % 65536)).mem = _
  clear_value s1
  refine ⟨s1.endApproval_gone _, ?_, State.endApproval_keepsCfg hcfg, State.endApproval_keepsMem hmem⟩
  unfold State.endApproval
  split
  · exact hbusy
  · exact hbusy

/-- While a pairing is under way another is refused. -/
theorem State.pairWrite_busy {s : State} (v : Nat) (hbusy : s.rd R.TWN_PAIR_STATUS_BUSY = 1) : let t := s.pairWrite v
    t.rd R.TWN_PAIR_STATUS_RESULT = 7 ∧ t.rd R.TWN_PAIR_STATUS_BUSY = 1 ∧ t.rd R.TWN_EVT_PAIR_FAIL = 1 ∧ t.approvalAt (v % 65536) = none ∧ t.mem = s.mem := by
  obtain ⟨hgone, hkept, -, hmem⟩ := s.pairTaken_shown v
  have hid : bits v 0 16 = v % 65536 := by simp [bits]
  have ht : s.pairWrite v = ((s.pairTaken v).wr R.TWN_PAIR_STATUS_RESULT 7).setEvt R.TWN_EVT_PAIR_FAIL := by
    unfold State.pairWrite
    rw [hid]
    exact if_pos ((s.pairTaken v).flag_eq_true (hkept.trans hbusy))
  rw [ht]
  generalize s.pairTaken v = s1 at hgone hkept hmem ⊢
  refine ⟨?_, ?_, State.rd_setEvt_same _ rfl (by decide), hgone, hmem⟩
  · refine (State.rd_setEvt_other _ _ (by decide) (by decide)).trans ?_
    exact State.rd_wr_same ..
  · exact (State.rd_setEvt_other _ _ (by decide) (by decide)).trans ((State.rd_wr_other _ _ (by decide)).trans (hkept.trans hbusy))

/-- An approved pairing begins. -/
theorem State.pairWrite_begins {s : State} {v : Nat} {a : Approval} (hbusy : s.rd R.TWN_PAIR_STATUS_BUSY = 0) (hparity : s.byParity = true) (hblob : v.testBit 16 = false)
    (ha : s.approvalAt (v % 65536) = some a) (hmet : s.pairApproval (v % 65536) = 0) : let t := s.pairWrite v
    t.rd R.TWN_PAIR_STATUS_BUSY = 1 ∧ t.rd R.TWN_PAIR_STATUS_RESULT = 0 ∧ t.rd R.TWN_STATUS_STATE = 2 ∧ t.approvalAt (v % 65536) = none ∧
      t.twn.approved = some (a.owner, a.digest) ∧ t.twn.join = v.testBit 17 ∧ t.twn.linkUp = false ∧ t.mem = s.mem := by
  obtain ⟨hgone, hkept, hcfg, hmem⟩ := s.pairTaken_shown v
  have hid : bits v 0 16 = v % 65536 := by simp [bits]
  let begun (u : State) : State := ({ u with twn := { u.twn with approved := some (a.owner, a.digest), join := v.testBit 17 } } : State).beginPair
  have ht : s.pairWrite v = begun (s.pairTaken v) := by
    have hparity1 : (s.pairTaken v).byParity = true := by
      unfold State.byParity at hparity ⊢
      rw [hcfg]
      exact hparity
    unfold State.pairWrite
    dsimp only
    rw [hid, ha, hmet, hblob]
    have hnot : ¬(s.pairTaken v).flag R.TWN_PAIR_STATUS_BUSY = true := by rw [(s.pairTaken v).flag_eq_false (hkept.trans hbusy)]; decide
    have htaken : (((s.wr R.TWN_PAIR_APPROVAL_ID (v % 65536)).wr R.TWN_PAIR_BLOB false.toNat).wr R.TWN_PAIR_JOIN (v.testBit 17).toNat).endApproval (v % 65536) = s.pairTaken v := by
      rw [← hblob]
      rfl
    rw [htaken, if_neg hnot, hparity1]
    rfl
  rw [ht]
  generalize s.pairTaken v = s1 at hgone hmem ⊢
  let u : State := { s1 with twn := { s1.twn with approved := some (a.owner, a.digest), join := v.testBit 17 } }
  let u1 := ((u.wr R.TWN_PAIR_STATUS_BUSY 1).wr R.TWN_PAIR_STATUS_RESULT 0).wr R.TWN_STATUS_STATE 2
  have hbegun : begun s1 = { u1 with twn := { u1.twn with linkUp := false, before := if u.rd R.TWN_STATUS_STATE = 2 then u1.twn.before else u.rd R.TWN_STATUS_STATE } } := rfl
  have h1 : u1.rd R.TWN_PAIR_STATUS_BUSY = 1 := (State.rd_wr_other _ _ (by decide)).trans ((State.rd_wr_other _ _ (by decide)).trans (State.rd_wr_same ..))
  have h2 : u1.rd R.TWN_PAIR_STATUS_RESULT = 0 := (State.rd_wr_other _ _ (by decide)).trans (State.rd_wr_same ..)
  have h3 : u1.rd R.TWN_STATUS_STATE = 2 := State.rd_wr_same ..
  have htwn : u1.twn.approved = some (a.owner, a.digest) ∧ u1.twn.join = v.testBit 17 := ⟨rfl, rfl⟩
  have hsame : u1.keys = s1.keys ∧ u1.mem = s1.mem := ⟨rfl, rfl⟩
  rw [hbegun]
  clear_value u1
  refine ⟨h1, h2, h3, ?_, htwn.1, htwn.2, rfl, hsame.2.trans hmem⟩
  show tblGet none u1.keys.approvals (v % 65536) = none
  rw [hsame.1]
  exact hgone

/-- Settles O54: the Soade link, its heartbeats and the start of a pairing. -/
theorem twinLinkRows : Obligations.TwinLinkRows := by
  unfold Obligations.TwinLinkRows
  refine ⟨fun s hcalm => ⟨?_, ?_, ?_, ?_, ?_, ?_, ?_, ?_, ?_, ?_⟩, fun s who complement v hpass => ⟨?_, ?_⟩⟩
  · intro speed width hparity hpres hdom htest hauth hspeed hwidth
    have hexec : exec (.twinLinkTrained speed width) s = .next (s.linkTrained speed width) := by
      refine (if_pos ?_ : execTwinLinkTrained speed width s = _)
      rw [hparity, hpres, hdom, htest]
      rcases hspeed with rfl | rfl <;> rcases hwidth with rfl | rfl | rfl <;> rfl
    obtain ⟨h1, h2, h3, h4, h5, h6, h7, f, h8, h9, h10⟩ := State.linkTrained_shown hauth speed width (by omega) (by omega)
    exact ⟨_, f, hexec, h1, h2, h3, h4, h5, h6, h8, h9, h10, h7⟩
  · exact fun ok => twinRetrain_shown ok
  · intro hparity
    obtain ⟨h1, h2, h3, -, h4⟩ := State.twinDown_shown (State.commits_of_idle hcalm.1)
    exact ⟨_, if_pos hparity, h1, h2, h3, h4⟩
  · exact heartbeatSend_link
  · exact heartbeatSend_side
  · exact fun toggles => heartbeatMiss_shown hcalm.1 toggles
  · exact peerFaultIn_ends hcalm.1
  · intro hside
    have hexec : exec .peerFaultInHigh s = .next { s with pins := { s.pins with peerFaultIn := true } } := by
      show execPeerFaultInHigh s = _
      unfold execPeerFaultInHigh
      dsimp only
      rw [hside]
      rfl
    exact ⟨_, hexec, rfl, rfl⟩
  · exact twPresentN_shown hcalm.1
  · exact fun h reason hin => close_shown hcalm.1 reason hin
  · intro a hbusy hparity hblob ha hmet
    exact ⟨_, congrArg Host.Outcome.next (State.writeGuarded_of_passes hpass _), State.pairWrite_begins (s := s.dropGuard 0x120008) hbusy hparity hblob ha hmet⟩
  · intro hbusy
    exact ⟨_, congrArg Host.Outcome.next (State.writeGuarded_of_passes hpass _), State.pairWrite_busy (s := s.dropGuard 0x120008) v hbusy⟩

end Sys2Proof.Machine
end

section
/-! The handshake of a twin session (R482 to R486). -/

namespace Sys2Proof.Machine

namespace State
variable {s : State} {h : FrameHdr}

/-- A frame that is taken changes the session's buffer and count of frames only. -/
theorem received_twn (hin : s.inOrder h) : ∃ l r, (s.received h).twn = { s.twn with unacked := l, replays := r, recvSeq := s.twn.recvSeq + 1 } := by
  unfold received takeAck
  rw [hin.2.2.2.2]
  exact ⟨_, _, rfl⟩

theorem received_rest (hin : s.inOrder h) : { s.received h with twn := s.twn } = s := (s.takeAck_of_noNak hin.2.2.2.2).2

/-- What a taken frame leaves. -/
structure Taken (s t : State) : Prop where
  regs : t.regs = s.regs
  mem : t.mem = s.mem
  out : t.out = s.out
  cfg : t.cfg = s.cfg
  pins : t.pins = s.pins
  dsp : t.dsp = s.dsp
  keys : t.keys = s.keys
  tmp : t.tmp = s.tmp

theorem received_taken (hin : s.inOrder h) : s.Taken (s.received h) := by
  have hrest := received_rest hin
  exact ⟨(congrArg State.regs hrest :), (congrArg State.mem hrest :), (congrArg State.out hrest :), (congrArg State.cfg hrest :), (congrArg State.pins hrest :),
    (congrArg State.dsp hrest :), (congrArg State.keys hrest :), (congrArg State.tmp hrest :)⟩

/-- The end of a pairing attempt. -/
theorem pairEnd_shown (s : State) {r : Nat} (hr : r < 8) : let t := s.pairEnd r
    t.rd R.TWN_PAIR_STATUS_RESULT = r ∧ t.rd R.TWN_PAIR_STATUS_BUSY = 0 ∧ t.twn = { s.twn with approved := none } ∧ t.mem = s.mem ∧ t.out = s.out ∧ t.dsp = s.dsp ∧
      ∀ f : Fld, f.key < 0x120004 * 64 → t.rd f = s.rd f := by
  let s1 : State := (s.wr R.TWN_PAIR_STATUS_BUSY 0).wr R.TWN_PAIR_STATUS_RESULT r
  let s2 : State := { s1 with twn := { s1.twn with approved := none } }
  have hkeys : R.TWN_PAIR_STATUS_BUSY.key = 0x120010 * 64 ∧ R.TWN_PAIR_STATUS_RESULT.key = 0x120010 * 64 + 1 ∧ R.TWN_EVT_PAIR_FAIL.key = 0x120004 * 64 + 5 ∧
      R.TWN_EVT_PAIR_FAIL.seq.key = 0x120004 * 64 + 16 := by decide
  have hresult : s2.rd R.TWN_PAIR_STATUS_RESULT = r := (rd_wr_same (s.wr R.TWN_PAIR_STATUS_BUSY 0) R.TWN_PAIR_STATUS_RESULT r).trans (Nat.mod_eq_of_lt hr)
  have hbusy : s2.rd R.TWN_PAIR_STATUS_BUSY = 0 := (rd_wr_other (s.wr R.TWN_PAIR_STATUS_BUSY 0) _ (by decide)).trans (rd_wr_same ..)
  have hother (f : Fld) (hf : f.key < 0x120004 * 64) : s2.rd f = s.rd f :=
    (rd_wr_other (s.wr R.TWN_PAIR_STATUS_BUSY 0) _ (by omega)).trans (rd_wr_other _ _ (by omega))
  have hsame : s2.twn = { s.twn with approved := none } ∧ s2.mem = s.mem ∧ s2.out = s.out ∧ s2.dsp = s.dsp := ⟨rfl, rfl, rfl, rfl⟩
  have ht : s.pairEnd r = if r ≠ 0 ∧ s.rd R.TWN_PAIR_STATUS_RESULT = 0 then s2.setEvt R.TWN_EVT_PAIR_FAIL else s2 := rfl
  obtain ⟨htwn, hmem, hout, hdsp⟩ := hsame
  rw [ht]
  clear_value s2
  split
  · exact ⟨(rd_setEvt_other _ _ (by decide) (by decide)).trans hresult, (rd_setEvt_other _ _ (by decide) (by decide)).trans hbusy, htwn, hmem, hout, hdsp,
      fun f hf => (rd_setEvt_other _ _ (by omega) (by omega)).trans (hother f hf)⟩
  · exact ⟨hresult, hbusy, htwn, hmem, hout, hdsp, hother⟩

/-- A session closed with no command in flight: what it leaves, and its last frame. -/
theorem closeWith_shown (hidle : s.dsp.inflight = []) (reason : Option Nat) : let t := s.closeWith reason
    (∀ f : Fld, f.key ∉ goneFields.map Fld.key → t.rd f = s.rd f) ∧ t.twn.authed = false ∧ t.twn.keyed = false ∧ t.mem = s.mem ∧
      ∃ f, t.out = .soade f :: s.out ∧ ∀ r, reason = some r → f.payload = .close r := by
  let s1 := s.sendClose false reason
  have h1 : s1.regs = s.regs ∧ s1.dsp = s.dsp ∧ s1.mem = s.mem ∧ ∃ f, s1.out = .soade f :: s.out ∧ ∀ r, reason = some r → f.payload = .close r := by
    unfold s1 sendClose
    cases reason with
    | none => exact ⟨rfl, rfl, rfl, _, rfl, nofun⟩
    | some r =>
      refine ⟨rfl, rfl, rfl, _, rfl, fun r' hr' => ?_⟩
      cases hr'
      rfl
  let s2 := s1.setEvt R.TWN_EVT_LINK_DOWN
  have ht : s.closeWith reason = s2.peerGone true := rfl
  have hrd2 (f : Fld) (hf : f.key ∉ goneFields.map Fld.key) : s2.rd f = s1.rd f := by
    have hne (g : Fld) (hg : g.key ∈ goneFields.map Fld.key) : f.key ≠ g.key := fun e => hf (by rw [e]; exact hg)
    exact rd_setEvt_other _ _ (hne R.TWN_EVT_LINK_DOWN (by decide)) (hne R.TWN_EVT_LINK_DOWN.seq (by decide))
  have h2 : s2.dsp = s1.dsp ∧ s2.mem = s1.mem ∧ s2.out = s1.out := ⟨rfl, rfl, rfl⟩
  rw [ht]
  clear_value s2 s1
  obtain ⟨hregs, hdsp, hmem, f, hout, hpay⟩ := h1
  obtain ⟨hdsp2, hmem2, hout2⟩ := h2
  have hgone := peerGone_shown (commits_of_idle ((congrArg Dsp.inflight (hdsp2.trans hdsp)).trans hidle)) true
  obtain ⟨hauth, hkeyed⟩ := s2.peerGone_ends true
  refine ⟨fun g hg => (hgone.regs g hg).trans ((hrd2 g hg).trans (rd_of_regs hregs g)), hauth, hkeyed, hgone.mem.trans (hmem2.trans hmem), f, ?_, hpay⟩
  rw [hgone.out, hout2, hout]

theorem chooseVersion_some {lo hi v : Nat} (h : s.chooseVersion lo hi = some v) : v / 256 < 16 ∧ v % 256 < 16 := by
  have hmem : v ∈ [0x102, 0x101, 0x100] := List.mem_of_find?_eq_some h
  fin_cases hmem <;> decide

/-- The peer's HELLO as it is noted. -/
def helloNoted (s : State) (h : FrameHdr) (a b c d serial : Nat) : State :=
  let s := s.noteGot 1 h (helloBytes a b c d serial)
  { s with twn := { s.twn with peerSerial := some serial } }

theorem gotHello_eq (s : State) (h : FrameHdr) (a b c d serial : Nat) : s.gotHello h a b c d serial =
    match s.chooseVersion (a * 256 + b) (c * 256 + d) with
    | none =>
      (fun u : State => if u.rd R.TWN_STATUS_STATE = 2 then u.wr R.TWN_STATUS_STATE u.twn.before else u) ((s.helloNoted h a b c d serial).pairEnd 1)
    | some v =>
      (fun u : State => if !s.takesPart then u.closeWith (some 5) else if s.lead then u.sendKem else u)
        (((s.helloNoted h a b c d serial).wr R.TWN_STATUS_VER_MAJOR (v / 256)).wr R.TWN_STATUS_VER_MINOR (v % 256)) := by
  unfold gotHello
  have hver : (s.helloNoted h a b c d serial).chooseVersion (a * 256 + b) (c * 256 + d) = s.chooseVersion (a * 256 + b) (c * 256 + d) := rfl
  show (match (s.helloNoted h a b c d serial).chooseVersion (a * 256 + b) (c * 256 + d) with | none => _ | some v => _) = _
  rw [hver]
  cases s.chooseVersion (a * 256 + b) (c * 256 + d) <;> rfl

/-- A HELLO with no version in common. -/
theorem gotHello_none {a b c d : Nat} (hver : s.chooseVersion (a * 256 + b) (c * 256 + d) = none) (serial : Nat) : let t := s.gotHello h a b c d serial
    t.rd R.TWN_PAIR_STATUS_RESULT = 1 ∧ t.rd R.TWN_PAIR_STATUS_BUSY = 0 ∧ t.mem = s.mem := by
  rw [gotHello_eq, hver]
  have hmem0 : (s.helloNoted h a b c d serial).mem = s.mem := rfl
  obtain ⟨hresult, hbusy, -, hmem, -⟩ := (s.helloNoted h a b c d serial).pairEnd_shown (r := 1) (by decide)
  dsimp only
  generalize (s.helloNoted h a b c d serial).pairEnd 1 = s1 at hresult hbusy hmem ⊢
  split
  · exact ⟨(rd_wr_other _ _ (by decide)).trans hresult, (rd_wr_other _ _ (by decide)).trans hbusy, hmem.trans hmem0⟩
  · exact ⟨hresult, hbusy, hmem.trans hmem0⟩

/-- A HELLO that settles the version. -/
theorem gotHello_some (hidle : s.dsp.inflight = []) {a b c d v : Nat} (hver : s.chooseVersion (a * 256 + b) (c * 256 + d) = some v) (serial : Nat) :
    let t := s.gotHello h a b c d serial
    (s.takesPart = false → t.twn.authed = false ∧ t.mem = s.mem ∧ ∃ f, t.out = .soade f :: s.out ∧ f.payload = .close 5) ∧
    (s.takesPart = true → t.twn.peerSerial = some serial ∧ t.rd R.TWN_STATUS_VER_MAJOR = v / 256 ∧ t.rd R.TWN_STATUS_VER_MINOR = v % 256 ∧ t.mem = s.mem ∧
      (s.lead = false → t.out = s.out) ∧ (s.lead = true → ∃ f x k, t.out = .soade f :: s.out ∧ f.payload = .pairKem x k)) := by
  obtain ⟨hmajor, hminor⟩ := chooseVersion_some hver
  rw [gotHello_eq, hver]
  dsimp only
  let s0 := s.helloNoted h a b c d serial
  let s1 := (s0.wr R.TWN_STATUS_VER_MAJOR (v / 256)).wr R.TWN_STATUS_VER_MINOR (v % 256)
  have h1 : s1.rd R.TWN_STATUS_VER_MAJOR = v / 256 := (rd_wr_other _ _ (by decide)).trans ((rd_wr_same ..).trans (Nat.mod_eq_of_lt hmajor))
  have h2 : s1.rd R.TWN_STATUS_VER_MINOR = v % 256 := (rd_wr_same ..).trans (Nat.mod_eq_of_lt hminor)
  have hsame : s1.twn.peerSerial = some serial ∧ s1.mem = s.mem ∧ s1.out = s.out ∧ s1.dsp = s.dsp := ⟨rfl, rfl, rfl, rfl⟩
  obtain ⟨hserial, hmem, hout, hdsp⟩ := hsame
  change (s.takesPart = false → let t := (if !s.takesPart then s1.closeWith (some 5) else if s.lead then s1.sendKem else s1)
      t.twn.authed = false ∧ t.mem = s.mem ∧ ∃ f, t.out = .soade f :: s.out ∧ f.payload = .close 5) ∧
    (s.takesPart = true → let t := (if !s.takesPart then s1.closeWith (some 5) else if s.lead then s1.sendKem else s1)
      t.twn.peerSerial = some serial ∧ t.rd R.TWN_STATUS_VER_MAJOR = v / 256 ∧ t.rd R.TWN_STATUS_VER_MINOR = v % 256 ∧ t.mem = s.mem ∧
      (s.lead = false → t.out = s.out) ∧ (s.lead = true → ∃ f x k, t.out = .soade f :: s.out ∧ f.payload = .pairKem x k))
  clear_value s1
  refine ⟨fun htake => ?_, fun htake => ?_⟩
  · rw [htake]
    obtain ⟨-, hauth, -, hmem1, f, hout1, hpay⟩ := closeWith_shown (s := s1) ((congrArg Dsp.inflight hdsp).trans hidle) (some 5)
    exact ⟨hauth, hmem1.trans hmem, f, hout1.trans (congrArg (_ :: ·) hout), hpay 5 rfl⟩
  · rw [htake]
    cases hlead : s.lead with
    | false => exact ⟨hserial, h1, h2, hmem, fun _ => hout, nofun⟩
    | true =>
      have hdrawn {f : Fld} (hf : f.key ≠ R.ENT_DRAWN_BYTES.key) : s1.sendKem.rd f = s1.rd f := s1.rd_countDraw hf 96
      refine ⟨hserial, (hdrawn (by decide)).trans h1, (hdrawn (by decide)).trans h2, hmem, nofun, fun _ => ⟨_, _, _, congrArg (_ :: ·) hout, rfl⟩⟩

end State

end Sys2Proof.Machine
end

section
/-! Session keys and identities of a twin session, and O55. -/

namespace Sys2Proof.Machine

namespace State
variable {s : State} {h : FrameHdr}

/-- A device key that is in its own slot, with none moved. -/
theorem deviceKey_eq (hmap : s.keys.reservedMap = []) (n : Nat) : s.deviceKey n = (s.slotAt n).bind fun sl => if sl.holder = .device n then some sl.secret else none := by
  have hslot : s.reservedSlot n = n := by
    unfold reservedSlot
    rw [hmap]
    rfl
  unfold deviceKey
  rw [hslot]
  cases s.slotAt n <;> rfl

/-- A device key is filled in its slot, and the others stay. -/
theorem fillDevice_keys (hmap : s.keys.reservedMap = []) {n : Nat} (hfenced : s.keys.fenced.contains n = false) (b : List Byte) : let t := s.fillDevice n b
    (t.deviceKey n).isSome = true ∧ (∀ m, m ≠ n → t.deviceKey m = s.deviceKey m) ∧ t.keys.reservedMap = [] ∧ t.keys.fenced = s.keys.fenced ∧
      t.twn = s.twn ∧ t.out = s.out ∧ t.mem = s.mem ∧ t.pins = s.pins := by
  have hslot : s.reservedSlot n = n := by
    unfold reservedSlot
    rw [hmap]
    rfl
  let s1 := s.countDraw b.length
  let v : Slot := mkSlot (s.delivered b.length) b { secretLen := b.length } n (.device n)
  have ht : s.fillDevice n b = s1.setSlot n (some v) := by
    unfold fillDevice
    rw [hslot, hfenced]
    rfl
  have hsame : s1.keys = s.keys ∧ s1.twn = s.twn ∧ s1.out = s.out ∧ s1.mem = s.mem ∧ s1.pins = s.pins := ⟨rfl, rfl, rfl, rfl, rfl⟩
  have hholder : v.holder = .device n := rfl
  rw [ht]
  clear_value s1 v
  obtain ⟨hkeys, htwn, hout, hmem, hpins⟩ := hsame
  have hmap1 : (s1.setSlot n (some v)).keys.reservedMap = [] := (congrArg Keys.reservedMap hkeys :).trans hmap
  refine ⟨?_, fun m hm => ?_, hmap1, ?_, htwn, hout, hmem, hpins⟩
  · rw [deviceKey_eq hmap1, slotAt_setSlot_same, ← hholder]
    rw [Option.bind_some, if_pos rfl]
    rfl
  · rw [deviceKey_eq hmap1, deviceKey_eq hmap, slotAt_setSlot_other _ hm]
    unfold slotAt
    rw [hkeys]
  · exact (congrArg Keys.fenced hkeys : s1.keys.fenced = s.keys.fenced)

/-- The identity is sent in three frames. -/
theorem sendAuth_shown {k0 k1 : List Byte} (h0 : s.deviceKey 0 = some k0) (h1 : s.deviceKey 1 = some k1) : let t := s.sendAuth
    t.keys = s.keys ∧ t.twn.keyed = s.twn.keyed ∧ t.mem = s.mem ∧ ∃ f f1 f0 b, t.out = .soade f :: .soade f1 :: .soade f0 :: s.out ∧ f.payload = .pairAuth 2 b := by
  have ht : ∃ b, s.sendAuth = (((s.draw 32).2.draw 48).2).sendThree b := by
    unfold sendAuth
    rw [h0, h1]
    exact ⟨_, rfl⟩
  obtain ⟨b, ht⟩ := ht
  have hsame : ((s.draw 32).2.draw 48).2.keys = s.keys ∧ ((s.draw 32).2.draw 48).2.twn = s.twn ∧ ((s.draw 32).2.draw 48).2.mem = s.mem ∧
      ((s.draw 32).2.draw 48).2.out = s.out := ⟨rfl, rfl, rfl, rfl⟩
  rw [ht]
  generalize ((s.draw 32).2.draw 48).2 = s1 at hsame ⊢
  obtain ⟨hkeys, htwn, hmem, hout⟩ := hsame
  exact ⟨hkeys, (congrArg Twn.keyed htwn : s1.twn.keyed = s.twn.keyed), hmem, _, _, _, _, congrArg (fun l => _ :: _ :: _ :: l) hout, rfl⟩

/-- The session's keys are derived, and the identity is sent. -/
theorem deriveSession_shown (hmap : s.keys.reservedMap = []) (hfenced : ∀ n, n ∈ [5, 6, 7] → s.keys.fenced.contains n = false) {k0 k1 : List Byte}
    (h0 : s.deviceKey 0 = some k0) (h1 : s.deviceKey 1 = some k1) (shared : List Byte) : let t := s.deriveSession shared
    t.twn.keyed = true ∧ (t.deviceKey 7).isSome = true ∧ (t.deviceKey 5).isSome = true ∧ (t.deviceKey 6).isSome = true ∧ t.mem = s.mem ∧
      ∃ f f1 f0 b, t.out = .soade f :: .soade f1 :: .soade f0 :: s.out ∧ f.payload = .pairAuth 2 b := by
  have hany : ([5, 6, 7].any fun n => s.keys.fenced.contains (s.reservedSlot n)) = false := by
    rw [List.any_eq_false]
    intro n hn
    have hslot : s.reservedSlot n = n := by
      unfold reservedSlot
      rw [hmap]
      rfl
    rw [hslot, hfenced n hn]
    decide
  let session := kdf shared "HX960 TWIN" s.transcript 256
  let s1 := s.fillDevice 7 session
  let s2 := s1.fillDevice 5 (kdf session "HX960 TWIN LF" [] 256)
  let s3 := s2.fillDevice 6 (kdf session "HX960 TWIN FL" [] 256)
  let s4 : State := { s3 with twn := { s3.twn with keyed := true } }
  have ht : s.deriveSession shared = s4.sendAuth := if_neg (by rw [hany]; decide)
  obtain ⟨h71, hk1, hmap1, hf1, -, hout1, hmem1, -⟩ := fillDevice_keys hmap (hfenced 7 (by decide)) session
  obtain ⟨h52, hk2, hmap2, hf2, -, hout2, hmem2, -⟩ := fillDevice_keys (s := s1) (n := 5) hmap1 (by rw [show s1.keys.fenced = _ from hf1]; exact hfenced 5 (by decide))
    (kdf session "HX960 TWIN LF" [] 256)
  obtain ⟨h63, hk3, -, -, -, hout3, hmem3, -⟩ := fillDevice_keys (s := s2) (n := 6) hmap2
    (by rw [show s2.keys.fenced = _ from hf2, show s1.keys.fenced = _ from hf1]; exact hfenced 6 (by decide)) (kdf session "HX960 TWIN FL" [] 256)
  have hkeep (m : Nat) (hm : m ≠ 7 ∧ m ≠ 5 ∧ m ≠ 6) : s3.deviceKey m = s.deviceKey m := (hk3 m hm.2.2).trans ((hk2 m hm.2.1).trans (hk1 m hm.1))
  have h7 : (s3.deviceKey 7).isSome = true := by rw [show s3.deviceKey 7 = _ from hk3 7 (by decide), show s2.deviceKey 7 = _ from hk2 7 (by decide)]; exact h71
  have h5 : (s3.deviceKey 5).isSome = true := by rw [show s3.deviceKey 5 = _ from hk3 5 (by decide)]; exact h52
  have h6 : (s3.deviceKey 6).isSome = true := h63
  have hout : s3.out = s.out := hout3.trans (hout2.trans hout1)
  have hmem : s3.mem = s.mem := hmem3.trans (hmem2.trans hmem1)
  have hk4 (m : Nat) : s4.deviceKey m = s3.deviceKey m := rfl
  have hsame4 : s4.twn.keyed = true ∧ s4.out = s3.out ∧ s4.mem = s3.mem := ⟨rfl, rfl, rfl⟩
  rw [ht]
  clear_value s4 s3 s2 s1
  obtain ⟨hkeyed4, hout4, hmem4⟩ := hsame4
  obtain ⟨hkeys, hkeyed, hmem5, f, f1, f0, b, hout5, hpay⟩ := sendAuth_shown ((hk4 0).trans ((hkeep 0 (by decide)).trans h0)) ((hk4 1).trans ((hkeep 1 (by decide)).trans h1))
  have hdev (m : Nat) : s4.sendAuth.deviceKey m = s3.deviceKey m := by
    rw [← hk4 m]
    unfold deviceKey reservedSlot slotAt
    rw [hkeys]
  refine ⟨hkeyed.trans hkeyed4, ?_, ?_, ?_, hmem5.trans (hmem4.trans hmem), f, f1, f0, b, ?_, hpay⟩
  · rw [hdev]
    exact h7
  · rw [hdev]
    exact h5
  · rw [hdev]
    exact h6
  · rw [hout5, hout4, hout]

/-- PAIR_KEM, taken. -/
theorem gotKem_shown (hmap : s.keys.reservedMap = []) (hfenced : ∀ n, n ∈ [5, 6, 7] → s.keys.fenced.contains n = false) {k0 k1 : List Byte}
    (h0 : s.deviceKey 0 = some k0) (h1 : s.deviceKey 1 = some k1) (x k : List Byte) : let t := s.gotKem h x k
    t.twn.keyed = true ∧ (t.deviceKey 7).isSome = true ∧ (t.deviceKey 5).isSome = true ∧ (t.deviceKey 6).isSome = true ∧ t.mem = s.mem ∧
      ∃ f b, t.out.head? = some (.soade f) ∧ f.payload = .pairAuth 2 b ∧ t.out.length = s.out.length + (if s.lead then 3 else 4) := by
  let s0 := s.noteGot 2 h (x ++ k)
  cases hlead : s.lead with
  | true =>
    have ht : s.gotKem h x k = s0.deriveSession (twinStep 2 s0.twn.eph (x ++ k) 64) := if_pos hlead
    obtain ⟨h2, h3, h4, h5, h6, f, f1, f0, b, hout, hpay⟩ := deriveSession_shown (s := s0) hmap hfenced h0 h1 (twinStep 2 s0.twn.eph (x ++ k) 64)
    rw [ht]
    have hout0 : s0.out = s.out := rfl
    rw [hout0] at hout
    refine ⟨h2, h3, h4, h5, h6, f, b, ?_, hpay, ?_⟩
    · rw [hout]
      rfl
    · rw [hout]
      rfl
  | false =>
    let s1 := (s0.draw 64).2
    let b := twinStep 1 (s0.draw 64).1 (x ++ k) 1120
    let s2 : State := { s1 with twn := { s1.twn with eph := (s0.draw 64).1 } }
    let s3 := s2.sendNoted 2 b (.pairKem (b.take 32) (b.drop 32))
    have ht : s.gotKem h x k = s3.deriveSession (twinStep 3 (s0.draw 64).1 (x ++ k) 64) := if_neg (by show ¬s.lead = true; rw [hlead]; decide)
    have hout3 : ∃ o, s3.out = o :: s.out := ⟨_, rfl⟩
    have hkeys3 : s3.keys = s.keys := rfl
    have hmem3 : s3.mem = s.mem := rfl
    have hdev (m : Nat) : s3.deviceKey m = s.deviceKey m := rfl
    rw [ht]
    clear_value s3
    obtain ⟨o, hout3⟩ := hout3
    obtain ⟨h2, h3, h4, h5, h6, f, f1, f0, b, hout, hpay⟩ := deriveSession_shown (s := s3) (by rw [hkeys3]; exact hmap) (by rw [hkeys3]; exact hfenced) ((hdev 0).trans h0)
      ((hdev 1).trans h1) (twinStep 3 (s0.draw 64).1 (x ++ k) 64)
    rw [hout3] at hout
    refine ⟨h2, h3, h4, h5, h6.trans hmem3, f, b, ?_, hpay, ?_⟩
    · rw [hout]
      rfl
    · rw [hout]
      rfl

/-- The resynchronisation starts. -/
theorem startResync_shown (s : State) (first : Bool) : let t := s.startResync first
    t.twn.authed = s.twn.authed ∧ t.rd R.TWN_STATUS_STATE = 3 ∧ t.mem = s.mem ∧ ∀ f : Fld, 0x120004 * 64 ≤ f.key → t.rd f = s.rd f := by
  have hstep (u : State) (m : Bool) : (u.sendResync m).twn.authed = u.twn.authed ∧ (u.sendResync m).mem = u.mem ∧
      (u.sendResync m).regs = (u.wr R.TWN_STATUS_MODE (if m then 1 else 2)).regs := ⟨rfl, rfl, rfl⟩
  have hkeys : R.TWN_STATUS_STATE.key < 0x120004 * 64 ∧ R.TWN_STATUS_MODE.key < 0x120004 * 64 := by decide
  let s1 := s.wr R.TWN_STATUS_STATE 3
  have hstate : s1.rd R.TWN_STATUS_STATE = 3 := rd_wr_same ..
  have hother (f : Fld) (hf : 0x120004 * 64 ≤ f.key) : s1.rd f = s.rd f := rd_wr_other _ _ (by omega)
  have hsame : s1.twn = s.twn ∧ s1.mem = s.mem := ⟨rfl, rfl⟩
  have ht : ∃ m, s.startResync first = s1.sendResync m := ⟨_, rfl⟩
  obtain ⟨m, ht⟩ := ht
  rw [ht]
  clear_value s1
  obtain ⟨hauth, hmem, hregs⟩ := hstep s1 m
  refine ⟨hauth.trans (congrArg Twn.authed hsame.1), ?_, hmem.trans hsame.2, fun f hf => ?_⟩
  · rw [rd_of_regs hregs, rd_wr_other _ _ (by decide)]
    exact hstate
  · rw [rd_of_regs hregs, rd_wr_other _ _ (by omega)]
    exact hother f hf

/-- A pairing renewed with a peer known before. -/
theorem paired_again (happ : s.twn.approved = none) (hash : List Byte) : let t := s.paired hash
    t.twn.authed = true ∧ t.rd R.TWN_STATUS_STATE = 3 ∧ t.rd R.TWN_EVT_PAIRED = 1 ∧ t.rd R.TWN_PAIR_STATUS_RESULT = 0 ∧ t.mem = s.mem := by
  let y := if s.lead then s.draw 8 else s.free 8
  let serial := s.twn.peerSerial.getD 0
  let pid := match y.2.twn.bound, y.2.twn.kept with
    | some _, _ => y.2.twn.pairId
    | none, some (p, _, _) => p
    | none, none => leNat y.1
  let s2 := y.2.pairEnd 0
  let s3 : State := { s2 with
    pins := { s2.pins with peerFaultIn := false }
    twn := { s2.twn with authed := true, bound := none, pairId := pid, kept := some (pid, serial, hash) } }
  have ht : s.paired hash = (s3.setEvt R.TWN_EVT_PAIRED).startResync false := by
    unfold paired
    rw [happ]
    rfl
  have hmem0 : y.2.mem = s.mem := by
    unfold y
    split <;> rfl
  obtain ⟨hresult, -, -, hmem2, -⟩ := y.2.pairEnd_shown (r := 0) (by decide)
  have hresult3 : s3.rd R.TWN_PAIR_STATUS_RESULT = 0 := hresult
  have hsame3 : s3.twn.authed = true ∧ s3.mem = s2.mem := ⟨rfl, rfl⟩
  replace hmem2 : s2.mem = y.2.mem := hmem2
  rw [ht]
  clear_value s3 s2
  obtain ⟨hauth3, hmem3⟩ := hsame3
  let s4 := s3.setEvt R.TWN_EVT_PAIRED
  have hevt4 : s4.rd R.TWN_EVT_PAIRED = 1 := rd_setEvt_same _ rfl (by decide)
  have hresult4 : s4.rd R.TWN_PAIR_STATUS_RESULT = 0 := (rd_setEvt_other _ _ (by decide) (by decide)).trans hresult3
  have hsame4 : s4.twn.authed = s3.twn.authed ∧ s4.mem = s3.mem := ⟨rfl, rfl⟩
  show (s4.startResync false).twn.authed = true ∧ (s4.startResync false).rd _ = 3 ∧ (s4.startResync false).rd _ = 1 ∧ (s4.startResync false).rd _ = 0 ∧ (s4.startResync false).mem = _
  clear_value s4
  obtain ⟨hauth, hstate, hmem, hkept⟩ := s4.startResync_shown false
  exact ⟨hauth.trans (hsame4.1.trans hauth3), hstate, (hkept _ (by decide)).trans hevt4, (hkept _ (by decide)).trans hresult4,
    hmem.trans (hsame4.2.trans (hmem3.trans (hmem2.trans hmem0)))⟩

/-- An identity that is not accepted ends the pairing. -/
theorem gotAuth_refused (hidle : s.dsp.inflight = []) {im ip : List Byte} (hacc : s.peerAccepted (sha384 (im ++ ip)) = false) (sm sp : List Byte) : let t := s.gotAuth im ip sm sp
    t.rd R.TWN_PAIR_STATUS_RESULT = 3 ∧ t.twn.keyed = false ∧ t.mem = s.mem := by
  let s1 : State := { s with twn := { s.twn with recvSeq := s.twn.recvSeq + 2 } }
  have ht : s.gotAuth im ip sm sp = (s1.pairEnd 3).closeWith none := if_pos (by
    show (!s.peerAccepted (sha384 (im ++ ip))) = true
    rw [hacc]
    rfl)
  obtain ⟨hresult, -, -, hmem, -, hdsp, -⟩ := s1.pairEnd_shown (r := 3) (by decide)
  have hmem1 : s1.mem = s.mem := rfl
  have hdsp1 : s1.dsp = s.dsp := rfl
  rw [ht]
  generalize s1.pairEnd 3 = s2 at hresult hmem hdsp ⊢
  obtain ⟨hkept, -, hkeyed, hmem2, -⟩ := closeWith_shown (s := s2) ((congrArg Dsp.inflight (hdsp.trans hdsp1)).trans hidle) none
  exact ⟨(hkept _ (by decide)).trans hresult, hkeyed, hmem2.trans (hmem.trans hmem1)⟩

/-- The accepted identity, with its two signatures. -/
theorem gotAuth_accepted {im ip : List Byte} (hacc : s.peerAccepted (sha384 (im ++ ip)) = true) (happ : s.twn.approved = none) (sm sp : List Byte) :
    let good := verifies algMldsa65 pureMode im (ascii "HX960 TWIN") s.transcript sm && verifies algP384 sha384Mode ip [] s.transcript sp
    let t := s.gotAuth im ip sm sp
    t.twn.authed = good ∧ (good = true → t.rd R.TWN_STATUS_STATE = 3 ∧ t.rd R.TWN_EVT_PAIRED = 1 ∧ t.rd R.TWN_PAIR_STATUS_RESULT = 0 ∧ t.mem = s.mem) := by
  intro good t
  let s1 : State := { s with twn := { s.twn with recvSeq := s.twn.recvSeq + 2 } }
  have ht : t = if !good then s1.twinAuthFail else if s1.twn.approved.isSome then
      (if ((s1.freeNat 1).1 % 2 == 1) == (s1.freeNat 1).2.twn.join then ((s1.freeNat 1).2.pairEnd 5).closeWith none else (s1.freeNat 1).2.paired (sha384 (im ++ ip)))
      else s1.paired (sha384 (im ++ ip)) := by
    refine if_neg ?_
    show ¬(!s.peerAccepted (sha384 (im ++ ip))) = true
    rw [hacc]
    decide
  have happ1 : s1.twn.approved = none := happ
  rw [happ1, Option.isSome_none, if_neg (show ¬false = true by decide)] at ht
  rw [ht]
  cases hgood : good with
  | true => exact ⟨(paired_again happ1 (sha384 (im ++ ip))).1, fun _ => (paired_again happ1 (sha384 (im ++ ip))).2⟩
  | false =>
    have hends : s1.twinAuthFail.twn.authed = false := (State.peerGone_ends _ true).1
    exact ⟨hends, nofun⟩

end State

/-- Settles O55: HELLO, PAIR_KEM and PAIR_AUTH. -/
theorem handshake : Obligations.Handshake := by
  unfold Obligations.Handshake
  intro s h hcalm hin
  have htaken := State.received_taken hin
  obtain ⟨l, r, htwn⟩ := State.received_twn hin
  have hidle : (s.received h).dsp.inflight = [] := (congrArg Dsp.inflight htaken.dsp).trans hcalm.1
  have hlead : (s.received h).lead = s.lead := congrArg Pins.twRole htaken.pins
  refine ⟨fun a b c d serial => ⟨fun hver => ?_, fun v hver => ?_⟩, ?_, ?_⟩
  · have hexec : exec (.soadeHello h a b c d serial) s = .next ((s.received h).gotHello h a b c d serial) := State.recvFrame_of_inOrder hin false fun s => s.gotHello h a b c d serial
    obtain ⟨h1, h2, h3⟩ := State.gotHello_none hver serial
    exact ⟨_, hexec, h1, h2, h3.trans htaken.mem⟩
  · have hexec : exec (.soadeHello h a b c d serial) s = .next ((s.received h).gotHello h a b c d serial) := State.recvFrame_of_inOrder hin false fun s => s.gotHello h a b c d serial
    obtain ⟨hno, hyes⟩ := State.gotHello_some (h := h) hidle hver serial
    have htake : (s.received h).takesPart = s.takesPart := by
      unfold State.takesPart
      rw [htwn]
    rw [htake, htaken.out, htaken.mem] at hno
    rw [htake, htaken.out, htaken.mem, hlead] at hyes
    refine ⟨fun hpart => ?_, fun hpart => ⟨_, hexec, hyes hpart⟩⟩
    obtain ⟨h1, h2, f, h3, h4⟩ := hno hpart
    exact ⟨_, f, hexec, h3, h4, h1, h2⟩
  · intro x k k0 k1 hserial hkeyed hstate hmap hfenced h0 h1
    have hexec : exec (.pairKem h x k) s = .next ((s.received h).gotKem h x k) := by
      refine (if_neg ?_ : execPairKem h x k s = _).trans (State.recvFrame_of_inOrder hin false _)
      rw [hkeyed, hstate]
      cases hs : s.twn.peerSerial with
      | none => simp [hs] at hserial
      | some serial => exact Bool.false_ne_true
    have hdev (m : Nat) : (s.received h).deviceKey m = s.deviceKey m := by
      unfold State.deviceKey State.reservedSlot State.slotAt
      rw [htaken.keys]
    obtain ⟨h2, h3, h4, h5, h6, f, b, h7, h8, h9⟩ := State.gotKem_shown (s := s.received h) (h := h) (by rw [htaken.keys]; exact hmap) (by rw [htaken.keys]; exact hfenced)
      ((hdev 0).trans h0) ((hdev 1).trans h1) x k
    rw [htaken.out, hlead] at h9
    exact ⟨_, f, b, hexec, h2, h3, h4, h5, h7, h8, h9, h6.trans htaken.mem⟩
  · intro im ip sm sp hkeyed hauth auth
    have hexec : auth = .next ((s.received h).gotAuth im ip sm sp) := by
      refine (if_pos ?_ : execPairAuth h im ip sm sp s = _).trans (State.recvFrame_of_inOrder hin true _)
      rw [hkeyed, hauth]
      rfl
    refine ⟨fun hacc => ?_, fun hacc happ => ?_⟩
    · obtain ⟨h1, h2, h3⟩ := State.gotAuth_refused hidle hacc sm sp
      exact ⟨_, hexec, h1, h2, h3.trans htaken.mem⟩
    · obtain ⟨h1, h2⟩ := State.gotAuth_accepted hacc (by rw [htwn]; exact happ) sm sp
      rw [htaken.mem] at h2
      exact ⟨_, hexec, h1, h2⟩

end Sys2Proof.Machine
end

section
/-! A paired session: commits, resynchronisation and keys (R489 to R496), and O56. -/

namespace Sys2Proof.Machine

namespace State
variable {s : State} {h : FrameHdr}

/-- A record of a destroyed key. -/
theorem applyDestroy_shown {o i g : Nat} {k : Key} (hk : s.keyAt o i = some k) (hg : k.attr.gen ≤ g) :
    (s.applyRec (.destroy o i g)).1 = 0 ∧ (s.applyRec (.destroy o i g)).2.keyAt o i = none := by
  have hdestroy : s.applyDestroy o i g = (0, false, s.destroyKey o i) := by
    unfold applyDestroy
    rw [hk]
    exact if_pos hg
  have hrec : s.applyRec (.destroy o i g) = (0, s.destroyKey o i) := by
    unfold applyRec
    dsimp only
    rw [hdestroy]
    rfl
  have hgone : ∃ u : State, s.destroyKey o i = u.setKey o i none := by
    unfold destroyKey
    rw [hk]
    exact ⟨_, rfl⟩
  obtain ⟨u, hu⟩ := hgone
  rw [hrec]
  refine ⟨rfl, ?_⟩
  show (s.destroyKey o i).keyAt o i = none
  rw [hu]
  exact tblGet_put_same none u.keys.keys (keyId o i) none

/-- A command that completes is gone. -/
theorem cmd_complete (s : State) (c : Cmd) (r : Res) : (s.complete c r).cmd c.id = none := by
  let p := match c.unit with | some (p, _) => poolOf p | none => .lattice
  let s1 := s.releaseUnit c (keepsMemory p r.status && !r.clear)
  let s2 := (s1.dropCmd c.id).writeCompletion c.fn c.qp (if c.entry.isEmpty then 0xFFFF else c.cid) r.status r.detail r.result r.aux r.output.length
  let s3 := if r.status = 0x7F then s2.recordInternal c.source r.detail c.cid (recVf c.fn) c.fn.port.num else s2
  let s4 := if c.opcode = 1 ∧ r.status = 0 ∧ !c.entry.isEmpty then
      s3.decideRecord 6 (match c.fn with | .nw => 34 | f => 37 + f.port.num) 0 (c.par 16 8) else s3
  have ht : s.complete c r = s4.finishDelete c.fn c.qp := rfl
  have h1 : (s1.dropCmd c.id).dsp.inflight = (s1.unhold c.id).dsp.inflight.filter fun x => x.id != c.id := rfl
  have h2 : s2.dsp = (s1.dropCmd c.id).dsp := writeCompletion_keepsDsp (s := s1.dropCmd c.id) rfl
  have h3 : s3.dsp = s2.dsp := by
    unfold s3
    split
    · exact recordInternal_keepsDsp (s := s2) rfl
    · rfl
  have h4 : s4.dsp = s3.dsp := by
    unfold s4
    split
    · exact decideRecord_keepsDsp (s := s3) rfl
    · rfl
  have h5 : (s4.finishDelete c.fn c.qp).dsp = s4.dsp := finishDelete_keepsDsp (s := s4) rfl
  rw [ht]
  clear_value s4 s3 s2
  unfold cmd
  rw [h5, h4, h3, h2, h1, List.find?_eq_none]
  intro x hx
  have hne := (List.mem_filter.mp hx).2
  simpa using hne

theorem commits_received (hin : s.inOrder h) : (s.received h).commits = s.commits := by
  unfold commits
  rw [(received_taken hin).dsp]

/-- An acknowledgement of the last record of a command. -/
theorem gotAck_last {c : Cmd} {x : ChangeRec} (hc : s.commits = [c]) (hx : c.changes = [x]) : (s.gotAck 0).cmd c.id = none := by
  have ht : s.gotAck 0 = s.complete c c.res := by
    unfold gotAck
    rw [hc]
    dsimp only
    rw [hx]
    rfl
  rw [ht]
  exact s.cmd_complete c c.res

/-- An acknowledgement of a record that others follow. -/
theorem gotAck_more {c : Cmd} {x y : ChangeRec} {l : List ChangeRec} (hc : s.commits = [c]) (hx : c.changes = x :: y :: l) : let t := s.gotAck 0
    t.dsp.inflight = s.dsp.inflight.map (fun z => if z.id = c.id then { c with changes := y :: l } else z) ∧ t.regs = s.regs ∧ t.mem = s.mem := by
  have ht : s.gotAck 0 = s.setCmd { c with changes := y :: l } := by
    unfold gotAck
    rw [hc]
    dsimp only
    rw [hx]
    rfl
  rw [ht]
  exact ⟨rfl, rfl, rfl⟩

/-- The buffer of the resynchronisation meets no refusal. -/
theorem buffered_granted (hgrant : ∀ a, ddrBase ≤ a → a < ddrBase + 0x40000000 → s.beatRefusal 2 .write .secure a = none) (f : State → State) :
    s.buffered f = f (s.freeNat 4).2 := by
  have hregs : (s.freeNat 4).2.regs = s.regs := rfl
  have hrefusal : (s.freeNat 4).2.beatRefusal 2 .write .secure (ddrBase + (s.freeNat 4).1 % 0x40000000 / 64 * 64) = none := by
    rw [beatRefusal_of_regs hregs rfl]
    exact hgrant _ (by omega) (by omega)
  show (match (s.freeNat 4).2.beatRefusal 2 .write .secure (ddrBase + (s.freeNat 4).1 % 0x40000000 / 64 * 64) with | some (src, e) => _ | none => f (s.freeNat 4).2) = _
  rw [hrefusal]

/-- The resynchronisation is over in both directions. -/
theorem resyncDone_both (hsent : s.twn.sentEnd = true) (hgot : s.twn.gotEnd = true) : let t := s.resyncDone
    t.rd R.TWN_STATUS_STATE = 4 ∧ t.rd R.GLB_STATUS_TWIN_UP = 1 ∧ t.rd R.TWN_EVT_RESYNC_DONE = 1 ∧ t.twn.journal = [] ∧ t.mem = s.mem := by
  let s0 : State := { s with twn := { s.twn with sentEnd := false, gotEnd := false, journal := [], journalOk := true } }
  let s1 := (s0.wr R.TWN_STATUS_STATE 4).wr R.TWN_JOURNAL_OVERFLOW 0
  have hstate1 : s1.rd R.TWN_STATUS_STATE = 4 := (rd_wr_other _ _ (by decide)).trans (rd_wr_same ..)
  have hsame1 : s1.twn.journal = [] ∧ s1.mem = s.mem := ⟨rfl, rfl⟩
  have ht : s.resyncDone = (s1.setStatus R.GLB_STATUS_TWIN_UP 1).setEvt R.TWN_EVT_RESYNC_DONE := if_pos (by rw [hsent, hgot]; rfl)
  rw [ht]
  clear_value s1
  have hstate2 : (s1.setStatus R.GLB_STATUS_TWIN_UP 1).rd R.TWN_STATUS_STATE = 4 := (rd_setStatus_other _ _ (by decide) (by decide)).trans hstate1
  have hup2 : (s1.setStatus R.GLB_STATUS_TWIN_UP 1).rd R.GLB_STATUS_TWIN_UP = 1 := rd_setStatus_same _ 1 (by decide)
  have htwn2 : (s1.setStatus R.GLB_STATUS_TWIN_UP 1).twn = s1.twn := setStatus_keepsTwn rfl
  have hmem2 : (s1.setStatus R.GLB_STATUS_TWIN_UP 1).mem = s1.mem := setStatus_keepsMem rfl
  generalize s1.setStatus R.GLB_STATUS_TWIN_UP 1 = s2 at hstate2 hup2 htwn2 hmem2 ⊢
  exact ⟨(rd_setEvt_other _ _ (by decide) (by decide)).trans hstate2, (rd_setEvt_other _ _ (by decide) (by decide)).trans hup2, rd_setEvt_same _ rfl (by decide),
    (congrArg Twn.journal htwn2 : s2.twn.journal = s1.twn.journal).trans hsame1.1, hmem2.trans hsame1.2⟩

/-- A key that its peer gives back. -/
theorem restoreKey_shown {a : Attr} {stored : List Byte} {object : Bool} {k : Key} {d : Nat} {x : State} (hk : s.keyAt a.owner a.index = some k) (hloc : k.loc = .defective)
    (hgen : k.attr.gen = a.gen)
    (hplace : (s.uncount k.counted k.obj.isSome).placeAt k.attr stored (!object && goesToSlot a.cls stored.length false && !s.freeSlots.isEmpty) k.counted = ((0, d), x)) :
    s.restoreKey a stored object = x.setEvt R.KS_EVT_RESTORED := by
  unfold restoreKey
  rw [hk]
  dsimp only
  rw [if_pos ⟨hloc, hgen⟩, hplace]
  rfl

end State

section
variable {s : State} {h : FrameHdr} (hin : s.inOrder h)
include hin

theorem commit_shown (rec : ChangeRec) (hauth : s.twn.authed = true) : ∃ t f l, exec (.commit h rec) s = .next t ∧ t.out = .soade f :: l ∧
    f.payload = .ack ((s.received h).applyRec rec).1 ∧ t.rd R.TWN_CSEQ_COUNT = (((s.received h).applyRec rec).2.rd R.TWN_CSEQ_COUNT + 1) % 2 ^ 64 ∧
    t.keys = ((s.received h).applyRec rec).2.keys ∧ t.mem = ((s.received h).applyRec rec).2.mem := by
  have hexec : exec (.commit h rec) s = .next ((s.received h).gotCommit rec) :=
    (if_pos hauth : execCommit h rec s = _).trans (State.recvFrame_of_inOrder hin true fun s => s.gotCommit rec)
  have ht : (s.received h).gotCommit rec = (((s.received h).applyRec rec).2.countCommit).sendFrame false (.ack ((s.received h).applyRec rec).1) := rfl
  rw [ht] at hexec
  generalize (s.received h).applyRec rec = x at hexec ⊢
  have hcount : x.2.countCommit.rd R.TWN_CSEQ_COUNT = (x.2.rd R.TWN_CSEQ_COUNT + 1) % 2 ^ 64 := State.rd_wr_same ..
  exact ⟨_, _, _, hexec, rfl, rfl, hcount, rfl, rfl⟩

theorem ack_gotten {c : Cmd} (hauth : s.twn.authed = true) (hc : s.commits = [c]) : exec (.ack h 0) s = .next ((s.received h).gotAck 0) := by
  refine (if_pos ?_ : execAck h 0 s = _).trans (State.recvFrame_of_inOrder hin true fun s => s.gotAck 0)
  rw [hauth, hc]
  rfl

theorem resync_buffered {recs : List ChangeRec} (hst : s.rd R.TWN_STATUS_STATE = 3)
    (hgrant : ∀ a, ddrBase ≤ a → a < ddrBase + 0x40000000 → s.beatRefusal 2 .write .secure a = none) :
    (s.rd R.TWN_STATUS_MODE ≠ 1 → exec (.resyncData h recs) s = .next (((s.received h).freeNat 4).2.applyAll recs)) ∧
      exec (.journal h recs) s = .next (((s.received h).freeNat 4).2.applyAll recs) := by
  have hregs := (State.received_taken hin).regs
  have hbuffered := State.buffered_granted (s := s.received h) (fun a hlo hhi => (State.beatRefusal_of_regs hregs rfl ..).trans (hgrant a hlo hhi)) fun s => s.applyAll recs
  refine ⟨fun hmode => ?_, ?_⟩
  · refine (if_pos hst : execResyncData h recs s = _).trans ((State.recvFrame_of_inOrder hin true fun s => s.gotResync recs).trans (congrArg Host.Outcome.next ?_))
    have hmode1 : (s.received h).rd R.TWN_STATUS_MODE ≠ 1 := by
      rw [State.rd_of_regs hregs]
      exact hmode
    unfold State.gotResync
    rw [if_neg hmode1]
    exact hbuffered
  · exact (if_pos hst : execJournal h recs s = _).trans ((State.recvFrame_of_inOrder hin true fun s => s.buffered fun s => s.applyAll recs).trans
      (congrArg Host.Outcome.next hbuffered))

theorem resyncEnd_noted (count : Nat) (hst : s.rd R.TWN_STATUS_STATE = 3) : exec (.resyncEnd h count) s =
    .next (({ s.received h with twn := { (s.received h).twn with gotEnd := true } } : State).resyncDone) :=
  (if_pos hst : execResyncEnd h count s = _).trans (State.recvFrame_of_inOrder hin true fun s => ({ s with twn := { s.twn with gotEnd := true } } : State).resyncDone)

theorem received_secureServing : (s.received h).secureServing = s.secureServing := by
  have hregs := (State.received_taken hin).regs
  have hcores : (s.received h).cores = s.cores := (congrArg State.cores (State.received_rest hin) :)
  unfold State.secureServing State.core
  rw [State.flag_of_regs hregs, State.flag_of_regs hregs, hcores]

theorem keyReq_answered (handle : Nat) (hauth : s.twn.authed = true) (hrest : s.twinRestores = true) (hserve : s.secureServing = true) :
    ∃ t f, exec (.keyReq h handle) s = .next t ∧ t.out = .soade f :: s.out ∧ f.payload = .keyResp ((s.received h).keyRecord handle) ∧ t.regs = s.regs ∧ t.mem = s.mem := by
  have htaken := State.received_taken hin
  have hexec : exec (.keyReq h handle) s = .next ((s.received h).sendFrame false (.keyResp ((s.received h).keyRecord handle))) := by
    refine (if_pos ?_ : execKeyReq h handle s = _).trans ((State.recvFrame_of_inOrder hin true fun s =>
      if s.secureServing then s.sendFrame false (.keyResp (s.keyRecord handle)) else s).trans (congrArg Host.Outcome.next (if_pos ?_)))
    · rw [hauth, hrest]
      rfl
    · rw [received_secureServing hin]
      exact hserve
  exact ⟨_, _, hexec, congrArg (_ :: ·) htaken.out, rfl, htaken.regs, htaken.mem⟩

theorem keyResp_taken (rec : Option ChangeRec) (hauth : s.twn.authed = true) (hrest : s.twinRestores = true) : exec (.keyResp h rec) s =
    .next (match rec with | some (.key a stored object) => (s.received h).restoreKey a stored object | _ => s.received h) := by
  have hcond : (s.twn.authed && s.twinRestores) = true := by rw [hauth, hrest]; rfl
  have hexec := (if_pos hcond : execKeyResp h rec s = _).trans (State.recvFrame_of_inOrder hin true _)
  refine Eq.trans hexec ?_
  cases rec with
  | none => rfl
  | some r => cases r <;> rfl

end

/-- Settles O56: commits, acknowledgements, resynchronisation and keys of a session. -/
theorem twinSession : Obligations.TwinSession := by
  unfold Obligations.TwinSession
  intro s h hin
  have htaken := State.received_taken hin
  obtain ⟨l, r, htwn⟩ := State.received_twn hin
  have hkey (o i : Nat) : (s.received h).keyAt o i = s.keyAt o i := by
    unfold State.keyAt
    rw [htaken.keys]
  refine ⟨fun rec hauth => commit_shown hin rec hauth, fun o i g k hk hg => State.applyDestroy_shown ((hkey o i).trans hk) hg, ?_, ?_, fun recs hst => resync_buffered hin hst,
    ?_, ?_, fun handle => keyReq_answered hin handle, fun hauth hrest => ⟨keyResp_taken hin none hauth hrest, ?_⟩⟩
  · intro c x hauth hc hx
    exact ⟨_, ack_gotten hin hauth hc, State.gotAck_last ((State.commits_received hin).trans hc) hx⟩
  · intro c x y l hauth hc hx
    obtain ⟨h1, h2, h3⟩ := State.gotAck_more ((State.commits_received hin).trans hc) hx
    rw [htaken.dsp] at h1
    exact ⟨_, ack_gotten hin hauth hc, h1, h2.trans htaken.regs, h3.trans htaken.mem⟩
  · intro count hst hsent
    obtain ⟨h1, h2, h3, h4, h5⟩ := State.resyncDone_both (s := { s.received h with twn := { (s.received h).twn with gotEnd := true } }) (by rw [htwn]; exact hsent) rfl
    exact ⟨_, resyncEnd_noted hin count hst, h1, h2, h3, h4, h5.trans htaken.mem⟩
  · intro count hst hsent
    have hsent1 : (s.received h).twn.sentEnd = false := by
      rw [htwn]
      exact hsent
    have hnot : ({ s.received h with twn := { (s.received h).twn with gotEnd := true } } : State).resyncDone =
        { s.received h with twn := { (s.received h).twn with gotEnd := true } } := if_neg (by rw [hsent1, Bool.false_and]; exact Bool.false_ne_true)
    exact ⟨_, (resyncEnd_noted hin count hst).trans (congrArg Host.Outcome.next hnot), rfl, htaken.regs, htaken.mem⟩
  · intro a stored object k d x hk hloc hgen hplace
    have ht := State.restoreKey_shown ((hkey _ _).trans hk) hloc hgen hplace
    exact ⟨_, (keyResp_taken hin _ hauth hrest).trans (congrArg Host.Outcome.next ht), State.rd_setEvt_same _ rfl (by decide), rfl, rfl⟩

end Sys2Proof.Machine
end

section
/-! A command that arrives at its engine (R24), and O43. -/

namespace Sys2Proof.Machine

namespace State
variable {s u : State} {c : Cmd} {id : Nat}

/-- One stage of a command. -/
theorem advance_succ (hcmd : s.cmd id = some c) (n : Nat) : s.advance id (n + 1) = if (s.stageStep c).2 then (s.stageStep c).1.advance id n else (s.stageStep c).1 := by
  conv => lhs; unfold advance
  rw [hcmd]
  dsimp only
  rcases s.stageStep c with ⟨t, go⟩
  cases go <;> rfl

theorem advance_on (hcmd : s.cmd id = some c) {t : State} (hstep : s.stageStep c = (t, true)) (n : Nat) : s.advance id (n + 1) = t.advance id n := by
  rw [advance_succ hcmd, hstep]
  rfl

theorem advance_stop (hcmd : s.cmd id = some c) {t : State} (hstep : s.stageStep c = (t, false)) (n : Nat) : s.advance id (n + 1) = t := by
  rw [advance_succ hcmd, hstep]
  rfl

/-- A command that its stages bring to step 8 comes there with at least one stage left. -/
theorem advance_of_toEngine : ∀ (n : Nat) {s : State}, s.toEngine id n = some (c, u) →
    u.cmd id = some c ∧ c.stage = .engine ∧ c.preHash = false ∧ u.goesOn c = true ∧ ∃ k, ∀ m, s.advance id (n + m) = u.advance id (k + 1 + m) := by
  intro n
  induction n with
  | zero => exact fun h => by cases h
  | succ n ih =>
    intro s h
    unfold toEngine at h
    cases hcmd : s.cmd id with
    | none => simp [hcmd] at h
    | some x =>
      rw [hcmd] at h
      dsimp only at h
      by_cases hx : x.stage = .engine ∧ x.preHash = false ∧ s.goesOn x = true
      · rw [if_pos hx] at h
        cases h
        exact ⟨hcmd, hx.1, hx.2.1, hx.2.2, n, fun m => rfl⟩
      · rw [if_neg hx] at h
        cases hstep : s.stageStep x with
        | mk s' go =>
          rw [hstep] at h
          cases go with
          | false => cases h
          | true =>
            obtain ⟨h1, h2, h3, h4, k, hk⟩ := ih h
            refine ⟨h1, h2, h3, h4, k, fun m => ?_⟩
            rw [← hk m, Nat.add_right_comm]
            exact advance_on hcmd hstep (n + m)

/-- Nothing holds the command back. -/
theorem stageStep_of_goesOn (h : s.goesOn c = true) : s.stageStep c = s.stageDo c := by
  simp only [goesOn, Bool.and_eq_true, Bool.not_eq_true', Option.isNone_iff_eq_none] at h
  unfold stageStep
  rw [h.1, h.2]
  rfl

/-- What the arrival of an entry says of its command. -/
structure Arrived (s : State) (fn : Fn) (q : Nat) (e : List Byte) (h : HostData) (c : Cmd) (u : State) : Prop where
  fetch : s.mayFetch fn q = true ∧ e.length = 64 ∧ s.fetchedEntry fn q e = e
  ofEntry : c.entry = e
  ofFn : c.fn = fn
  ofQp : c.qp = q
  isWhole : c.whole = true
  cmd : u.cmd c.id = some c
  stage : c.stage = .engine
  preHash : c.preHash = false
  goesOn : u.goesOn c = true
  advance : ∃ k, (s.takeEntry fn q).begin (s.rowCmd fn q e h) = u.advance c.id (k + 3)

theorem arrives_arrived {fn : Fn} {q : Nat} {e : List Byte} {h : HostData} (harr : s.arrives fn q e h = some (c, u)) : s.Arrived fn q e h c u := by
  unfold arrives at harr
  dsimp only at harr
  split at harr
  next hfetch =>
    simp only [Bool.and_eq_true, beq_iff_eq] at hfetch
    obtain ⟨⟨hmay, hlen⟩, hsame⟩ := hfetch
    obtain ⟨heng, hfilter⟩ := Option.filter_eq_some_iff.mp harr
    simp only [Bool.and_eq_true, beq_iff_eq] at hfilter
    obtain ⟨⟨⟨⟨hentry, hfn⟩, hqp⟩, hid⟩, hwhole⟩ := hfilter
    obtain ⟨hcmd, hstage, hpre, hgoes, k, hk⟩ := advance_of_toEngine _ heng
    have hrow : (s.rowCmd fn q e h).id = s.dsp.nextId := by
      unfold rowCmd newCmd
      cases fn <;> rfl
    refine ⟨⟨hmay, hlen, hsame⟩, hentry, hfn, hqp, hwhole, hid ▸ hcmd, hstage, hpre, hgoes, k, ?_⟩
    unfold begin
    rw [hrow, hid]
    exact hk 2
  next => cases harr

namespace Arrived
variable {fn : Fn} {q : Nat} {e : List Byte} {h : HostData} (a : s.Arrived fn q e h c u)
include a

theorem opcode : c.opcode = leAt e 0 1 := by
  unfold Cmd.opcode
  rw [a.ofEntry]

/-- The row of the entry carries the command to its engine. -/
theorem whole_eq {ops : List Byte → List Byte → Bool} (hops : ops e (h.input.getD []) = true) :
    ∃ k, s.whole ops fn q e h = .next (u.advance c.id (k + 3)).pump := by
  obtain ⟨hmay, hlen, hsame⟩ := a.fetch
  obtain ⟨k, hk⟩ := a.advance
  refine ⟨k, ?_⟩
  unfold State.whole
  rw [if_pos (by rw [hmay, decide_eq_true hlen, hsame, hops]; rfl), ← hk]
  rfl

theorem step : u.stageStep c = u.stageEngine c := by
  rw [stageStep_of_goesOn a.goesOn]
  unfold stageDo
  rw [a.stage]

/-- A command of the data plane is carried out and finished. -/
theorem ends {ops : List Byte → List Byte → Bool} (hops : ops e (h.input.getD []) = true)
    (hop : (controlOp (leAt e 0 1) || leAt e 0 1 == 1 || leAt e 0 1 == 5) = false) : s.whole ops fn q e h = .next (u.finish c (u.runOp c c.input)).pump := by
  obtain ⟨k, hk⟩ := a.whole_eq hops
  rw [← a.opcode] at hop
  simp only [Bool.or_eq_false_iff, beq_eq_false_iff_ne] at hop
  obtain ⟨⟨hcontrol, h1⟩, h5⟩ := hop
  have hengine : u.stageEngine c = (u.finish c (u.runOp c c.input), false) := by
    unfold stageEngine
    rw [hcontrol, if_neg (by decide), if_neg h1, if_neg h5, a.isWhole, if_neg (by simp), if_neg (by simp), a.preHash, if_neg (by decide)]
  rw [hk, advance_stop a.cmd (a.step.trans hengine)]

/-- A command of the control plane is handed to the queue whose turn it is. -/
theorem handsOver (hop : controlOp c.opcode = true) {p : Nat} (hpick : u.pickQueue = some p) (hahead : u.handoverAhead c = false) :
    u.stageEngine c = (u.handOver c p, true) := by
  have hup : ¬((!u.queueUp 0) = true ∧ (!u.queueUp 1) = true) := by
    rintro ⟨h0, h1⟩
    have hroom (m : Nat) (hm : m < 2) : u.queueRoom m = false := by
      unfold queueRoom
      rcases (by omega : m = 0 ∨ m = 1) with rfl | rfl
      · simp [show u.queueUp 0 = false by simpa using h0]
      · simp [show u.queueUp 1 = false by simpa using h1]
    have hnone : u.pickQueue = none := by
      unfold pickQueue
      dsimp only
      rw [hroom _ (Nat.mod_lt _ (by decide)), hroom _ (by omega)]
      rfl
    rw [hnone] at hpick
    cases hpick
  unfold stageEngine stageControl
  rw [hop, if_pos rfl, if_neg hup, hpick]
  dsimp only
  rw [a.isWhole, hahead]
  rfl

/-- It is served once it is with secure firmware. -/
theorem serves (hop : controlOp c.opcode = true) {w : State} {p tag : Nat} (hupdate : w.rd R.ACT_CTRL_UPDATE = 0)
    (hserve : w.servable { c with stage := .handed p tag } = true) :
    w.stageStep { c with stage := .handed p tag } = (w.serve { c with stage := .handed p tag } p tag, false) := by
  have hhello : w.helloWaits { c with stage := .handed p tag } = false := by
    have hne : (c.opcode == 1) = false := by
      refine beq_false_of_ne fun h1 => ?_
      rw [h1] at hop
      cases hop
    have hne' : (({ c with stage := .handed p tag } : Cmd).opcode == 1) = false := hne
    unfold helloWaits
    rw [hne', Bool.false_and]
  have hflag : w.flag R.ACT_CTRL_UPDATE = false := w.flag_eq_false hupdate
  have hnone : (if w.flag R.ACT_CTRL_UPDATE then w.nextAccess { c with stage := .handed p tag } else none) = none := if_neg (by rw [hflag]; decide)
  have hdo : w.stageDo { c with stage := .handed p tag } = (w.serve { c with stage := .handed p tag } p tag, false) := by
    refine (if_pos ?_ : w.stageHanded { c with stage := .handed p tag } p tag = _)
    rw [hserve, hflag, a.isWhole]
    rfl
  unfold stageStep
  rw [hhello, hnone]
  exact hdo

/-- A command of the control plane goes to the queue whose turn it is, and is served. -/
theorem served {ops : List Byte → List Byte → Bool} (hops : ops e (h.input.getD []) = true) (hop : controlOp (leAt e 0 1) = true) : ∀ p, u.pickQueue = some p →
    u.handoverAhead c = false → let tag := u.dsp.nextTag % 65536
      let d : Cmd := { c with stage := .handed p tag }
      let w := u.handOver c p
      w.cmd c.id = some d → w.rd R.ACT_CTRL_UPDATE = 0 → w.servable d = true → s.whole ops fn q e h = .next (w.serve d p tag).pump := by
  intro p hpick hahead tag d w hcmd hupdate hserve
  obtain ⟨k, hk⟩ := a.whole_eq hops
  rw [← a.opcode] at hop
  have hengine : u.stageEngine c = (w, true) := a.handsOver hop hpick hahead
  clear_value w tag
  rw [hk, show k + 3 = (k + 1 + 1) + 1 from rfl, advance_on a.cmd (a.step.trans hengine), advance_stop hcmd (a.serves hop hupdate hserve)]

end Arrived

end State

section
variable {s u : State} {fn : Fn} {q : Nat} {e : List Byte} {h : HostData} {c : Cmd} {op : Nat}

/-- The row of one opcode of the data plane. -/
theorem opRow_ends (a : s.Arrived fn q e h c u) (hop : leAt e 0 1 = op) (hplane : (controlOp op || op == 1 || op == 5) = false) :
    s.opRow op fn q e h = .next (u.finish c (u.runOp c c.input)).pump :=
  a.ends (beq_iff_eq.mpr hop) (hop ▸ hplane)

/-- The row of one opcode of the control plane. -/
theorem opRow_served (a : s.Arrived fn q e h c u) (hop : leAt e 0 1 = op) (hplane : controlOp op = true) : ∀ p, u.pickQueue = some p →
    u.handoverAhead c = false → let tag := u.dsp.nextTag % 65536
      let d : Cmd := { c with stage := .handed p tag }
      let w := u.handOver c p
      w.cmd c.id = some d → w.rd R.ACT_CTRL_UPDATE = 0 → w.servable d = true → s.opRow op fn q e h = .next (w.serve d p tag).pump :=
  a.served (beq_iff_eq.mpr hop) (hop ▸ hplane)

end

/-- Settles O43: an entry that arrives at step 8 is carried out by the row of its opcode and mode. -/
theorem commandsComplete : Obligations.CommandsComplete := by
  unfold Obligations.CommandsComplete
  intro s fn q e h c u harr
  have a := State.arrives_arrived harr
  refine ⟨fun hop => opRow_ends a hop rfl, fun hop => opRow_ends a hop rfl, fun hop => opRow_ends a hop rfl, fun hop => opRow_ends a hop rfl,
    fun hop => opRow_ends a hop rfl, fun hop => opRow_served a hop rfl, fun hop => opRow_served a hop rfl, fun hop => opRow_served a hop rfl,
    fun hop => opRow_ends a hop rfl, fun hop => opRow_served a hop rfl, fun hop => opRow_ends a hop rfl, fun hop => opRow_ends a hop rfl,
    fun hop => opRow_ends a hop rfl, fun hop => opRow_ends a hop rfl, fun hop => opRow_ends a hop rfl, fun hop => opRow_ends a hop rfl,
    fun hop => opRow_ends a hop rfl, fun hop => opRow_ends a hop rfl, fun hop => opRow_ends a hop rfl, fun hop => opRow_ends a hop rfl,
    fun hop => opRow_ends a hop rfl, fun hop => opRow_ends a hop rfl, fun hop => opRow_ends a hop rfl, fun hop => opRow_ends a hop rfl,
    fun hop => opRow_ends a hop rfl, fun hop => opRow_ends a hop rfl, fun hop => opRow_ends a hop rfl, fun hop => opRow_ends a hop rfl,
    fun hop => opRow_served a hop rfl, fun hop => opRow_served a hop rfl, fun hop => opRow_served a hop rfl, fun hop => opRow_served a hop rfl,
    fun hop => opRow_served a hop rfl, fun hop hmode => ?_, fun hop hmode => ?_, fun hop hmode => ?_, fun hop hmode => ?_, fun hop hmode => ?_, fun hop hmode => ?_,
    fun hop hmode => ?_, fun hop hmode => ?_⟩
  · exact a.ends (ops := fun e _ => leAt e 0 1 == 3 && leAt e 0x29 1 != 1) (by simp [hop, hmode]) (by rw [hop]; rfl)
  · exact a.ends (ops := fun e _ => leAt e 0 1 == 3 && leAt e 0x29 1 == 1) (by simp [hop, hmode]) (by rw [hop]; rfl)
  · exact a.served (ops := fun e d => leAt e 0 1 == 0x71 && (leAt d 5 1 == 0 || decide (3 < leAt d 5 1))) (by simpa [hop] using hmode) (by rw [hop]; rfl)
  · exact a.served (ops := fun e d => leAt e 0 1 == 0x71 && leAt d 5 1 == 1) (by simpa [hop] using hmode) (by rw [hop]; rfl)
  · exact a.served (ops := fun e d => leAt e 0 1 == 0x71 && leAt d 5 1 == 2) (by simpa [hop] using hmode) (by rw [hop]; rfl)
  · exact a.served (ops := fun e d => leAt e 0 1 == 0x71 && leAt d 5 1 == 3) (by simpa [hop] using hmode) (by rw [hop]; rfl)
  · exact a.served (ops := fun e _ => leAt e 0 1 == 0x7D && leAt e 0x29 1 != 0) (by simpa [hop] using hmode) (by rw [hop]; rfl)
  · exact a.served (ops := fun e _ => leAt e 0 1 == 0x7D && leAt e 0x29 1 == 0) (by simpa [hop] using hmode) (by rw [hop]; rfl)

end Sys2Proof.Machine
end

section
/-! HELLO, QUEUE_DELETE and VF_DESTROY (O44). -/

namespace Sys2Proof.Machine

namespace State
variable {s u : State} {c : Cmd} {fn : Fn} {q : Nat} {e : List Byte} {h : HostData}

theorem helloEnd_answered {v g : Nat} (hout : c.outLen = 64) :
    let w := s.setFnSt c.fn { s.fnSt c.fn with version := v, granted := g }
    let x := w.fnWrite c.fn 12 c.outAddr (w.helloResponse c v g) .output
    x.1 = true → s.helloEnd c 0 0 v g = x.2.complete c { output := zeros 64 } := by
  intro w x hok
  have ht : s.helloEnd c 0 0 v g = x.2.complete c (if x.1 then { status := 0, detail := 0, output := zeros 64 } else { status := 0x14, detail := 3 }) :=
    if_neg (by rw [hout]; decide)
  rw [ht, hok]
  rfl

/-- HELLO answers its function. -/
theorem Arrived.hello (a : s.Arrived fn q e h c u) (hop : leAt e 0 1 = 1) {v : Nat} (hver : c.helloVersion = some v) (hout : c.outLen = 64) :
    let w := u.setFnSt fn { u.fnSt fn with version := v, granted := c.granted v }
    let x := w.fnWrite fn 12 c.outAddr (w.helloResponse c v (c.granted v)) .output
    x.1 = true → s.opRow 1 fn q e h = .next (x.2.complete c { output := zeros 64 }).pump := by
  intro w x hok
  obtain ⟨k, hk⟩ := a.whole_eq (ops := fun e _ => leAt e 0 1 == 1) (beq_iff_eq.mpr hop)
  have hengine : u.stageEngine c = (u.hello c, false) := by
    unfold stageEngine
    rw [a.opcode, hop]
    rfl
  have hhello : u.hello c = x.2.complete c { output := zeros 64 } := by
    have hend := helloEnd_answered (s := u) (c := c) (v := v) (g := c.granted v) hout
    rw [a.ofFn] at hend
    unfold State.hello
    rw [hver]
    exact hend hok
  unfold opRow
  rw [hk, advance_stop a.cmd (a.step.trans hengine), hhello]

theorem cmd_of_dsp {t : State} (hdsp : t.dsp = s.dsp) (id : Nat) : t.cmd id = s.cmd id := by
  unfold cmd
  rw [hdsp]

/-- A queue pair of a host that is disabled. -/
theorem disableQp_shown (s : State) {f : Fn} (hf : f ≠ .nw) (k : Nat) : ((s.disableQp f k).qp f k).enabled = false := by
  have hunbind : (decide (f = .nw) && (s.qp f k).unbind) = false := by rw [decide_eq_false hf, Bool.false_and]
  let s1 := s.setQp f k {}
  let e := qzErr f k
  let s2 := s1.wr e.1 (bitClear (s1.rd e.1) e.2)
  let s3 := if hasQz f k then (s2.wr (R.QZ_STATUS_READY.qz f k) 0).wr (R.QZ_CTRL_ENABLE.qz f k) 0 else s2
  have ht : s.disableQp f k = s3.portClaim f.port := by
    unfold disableQp
    rw [hunbind]
    show (if f = .nw then s3 else s3.portClaim f.port) = _
    rw [if_neg hf]
  have hqps : (s3.portClaim f.port).qps = s1.qps := portClaim_keepsQps (s := s3) (by
    unfold s3
    split <;> rfl)
  rw [ht, qp_of_qps hqps]
  rw [show s1.qp f k = {} from s.qp_setQp_same f k {}]

/-- QUEUE_DELETE of a queue pair that is disabled. -/
theorem Arrived.deleteDisabled (a : s.Arrived fn q e h c u) (hop : leAt e 0 1 = 5) (hdone : c.engineDone = false) (hoff : (u.qp fn (c.par 0 1)).enabled = false) :
    s.opRow 5 fn q e h = .next (u.complete c { result := 1 }).pump := by
  obtain ⟨k, hk⟩ := a.whole_eq (ops := fun e _ => leAt e 0 1 == 5) (beq_iff_eq.mpr hop)
  have hdelete : u.stageDelete c = (u.complete c { result := 1 }, false) := by
    unfold stageDelete
    rw [hdone, a.ofFn]
    dsimp only
    rw [hoff]
    rfl
  have hengine : u.stageEngine c = u.stageDelete c := by
    unfold stageEngine
    rw [a.opcode, hop]
    rfl
  unfold opRow
  rw [hk, advance_stop a.cmd (a.step.trans (hengine.trans hdelete))]

/-- QUEUE_DELETE disables a queue pair that is enabled and has no command fetched. -/
theorem Arrived.deleteEnabled (a : s.Arrived fn q e h c u) (hop : leAt e 0 1 = 5) (hdone : c.engineDone = false) (hfn : fn ≠ .nw)
    (hon : (u.qp fn (c.par 0 1)).enabled = true) (hfree : u.qpBusy fn (c.par 0 1) = false) : s.opRow 5 fn q e h =
      .next ((((u.setQp fn (c.par 0 1) { u.qp fn (c.par 0 1) with deleting := true }).disableQp fn (c.par 0 1)).setCmd { c with engineDone := true }).complete
        { c with engineDone := true } {}).pump := by
  obtain rfl : c.fn = fn := a.ofFn
  obtain ⟨k, hk⟩ := a.whole_eq (ops := fun e _ => leAt e 0 1 == 5) (beq_iff_eq.mpr hop)
  let u1 := u.setQp c.fn (c.par 0 1) { u.qp c.fn (c.par 0 1) with deleting := true }
  let d : Cmd := { c with engineDone := true }
  have hdeleting : (u1.qp c.fn (c.par 0 1)).deleting = true := by rw [show u1.qp c.fn (c.par 0 1) = _ from u.qp_setQp_same _ _ _]
  have hfinish : u1.finishDelete c.fn (c.par 0 1) = u1.disableQp c.fn (c.par 0 1) := by
    refine if_pos ?_
    rw [hdeleting, show u1.qpBusy c.fn (c.par 0 1) = false from hfree]
    rfl
  have hdelete : u.stageDelete c = ((u1.disableQp c.fn (c.par 0 1)).setCmd d, true) := by
    have hoff : ¬(!(u.qp c.fn (c.par 0 1)).enabled) = true := by rw [hon]; exact Bool.false_ne_true
    unfold stageDelete
    dsimp only
    rw [if_neg (by rw [hdone]; exact Bool.false_ne_true), if_neg hoff, ← hfinish]
  have hengine : u.stageEngine c = u.stageDelete c := by
    unfold stageEngine
    rw [a.opcode, hop]
    rfl
  have hoff : (((u1.disableQp c.fn (c.par 0 1)).setCmd d).qp c.fn (c.par 0 1)).enabled = false := u1.disableQp_shown hfn _
  have hdsp : (u1.disableQp c.fn (c.par 0 1)).dsp = u.dsp := disableQp_keepsDsp (s := u1) rfl
  have hcmd : ((u1.disableQp c.fn (c.par 0 1)).setCmd d).cmd c.id = some d := cmd_setCmd (d := d) ((cmd_of_dsp hdsp c.id).trans a.cmd)
  show s.whole _ c.fn q e h = .next (((u1.disableQp c.fn (c.par 0 1)).setCmd d).complete d {}).pump
  rw [hk, show k + 3 = (k + 1 + 1) + 1 from rfl, advance_on a.cmd (a.step.trans (hengine.trans hdelete))]
  generalize (u1.disableQp c.fn (c.par 0 1)).setCmd d = w at hoff hcmd ⊢
  have hopd : d.opcode = 5 := a.opcode.trans hop
  have hgoes : w.goesOn d = true := by
    have hhello : w.helloWaits d = false := by
      unfold helloWaits
      rw [hopd]
      rfl
    have hcreates : w.creates d = [] := by
      unfold creates
      rw [hopd]
      rfl
    have hnext : w.nextAccess d = none := by
      have hstage : d.stage = .engine := a.stage
      have hwhole : d.whole = true := a.isWhole
      have hfnd : d.fn ≠ .nw := hfn
      unfold nextAccess
      rw [hstage, hopd, hwhole, hcreates]
      simp [hfnd, controlOp]
    unfold State.goesOn
    rw [hhello, hnext]
    cases w.flag R.ACT_CTRL_UPDATE <;> rfl
  have hstep : w.stageStep d = (w.complete d {}, false) := by
    rw [stageStep_of_goesOn hgoes]
    have hstage : d.stage = .engine := a.stage
    have hdelete : w.stageDelete d = (w.complete d {}, false) := by
      have hoff' : (w.qp d.fn (d.par 0 1)).enabled = false := hoff
      unfold stageDelete
      rw [show d.engineDone = true from rfl]
      dsimp only
      rw [hoff']
      rfl
    unfold stageDo
    rw [hstage]
    dsimp only
    unfold stageEngine
    rw [hopd]
    exact hdelete
  rw [advance_stop hcmd hstep]

/-- What VF_DESTROY does to a VF of each state. -/
theorem opVfDestroy_of {st : Nat} (hvf : s.noVf c (c.par 0 1) = false) (hst : s.rd (R.VFS_STATE_STATE.vf c.fn.port (c.par 0 1)) = st) :
    (st = 0 → s.opVfDestroy c = (ranOut s [] 1, false)) ∧ (st = 1 → s.opVfDestroy c = (ran (s.startTeardown c.fn.port (c.par 0 1)) 0, true)) := by
  unfold opVfDestroy
  dsimp only
  rw [hvf, hst]
  refine ⟨fun h0 => ?_, fun h1 => ?_⟩
  · rw [h0]
    rfl
  · rw [h1]
    rfl

theorem controlRes_vfDestroy (hop : c.opcode = 0x7E) : s.controlRes c = (s.opVfDestroy c).1.1 := if_pos hop

/-- VF_DESTROY of an unprovisioned VF. -/
theorem vfDestroy_unprovisioned (hop : c.opcode = 0x7E) (hvf : s.noVf c (c.par 0 1) = false) (hst : s.rd (R.VFS_STATE_STATE.vf c.fn.port (c.par 0 1)) = 0) :
    s.controlRes c = { result := 1 } ∧ s.returned c { result := 1 } = s.complete c { result := 1 } := by
  have hran := (opVfDestroy_of hvf hst).1 rfl
  have hreturned : s.returned c { result := 1 } = s.vfDestroyed c { result := 1 } false := by
    unfold returned
    rw [if_pos hop, hran]
    unfold ranOut
    exact if_pos rfl
  refine ⟨?_, hreturned.trans (if_neg Bool.false_ne_true)⟩
  rw [controlRes_vfDestroy hop, hran]
  rfl

/-- VF_DESTROY of an active VF. -/
theorem vfDestroy_active (hop : c.opcode = 0x7E) (hvf : s.noVf c (c.par 0 1) = false) (hst : s.rd (R.VFS_STATE_STATE.vf c.fn.port (c.par 0 1)) = 1) :
    s.controlRes c = {} ∧ s.returned c {} = (s.startTeardown c.fn.port (c.par 0 1)).setCmd { c with stage := .teardown, res := {} } := by
  have hran := (opVfDestroy_of hvf hst).2 rfl
  have hreturned : s.returned c {} = (s.startTeardown c.fn.port (c.par 0 1)).vfDestroyed c {} true := by
    unfold returned
    rw [if_pos hop, hran]
    unfold ran
    exact if_pos rfl
  refine ⟨?_, hreturned.trans (if_pos rfl)⟩
  rw [controlRes_vfDestroy hop, hran]
  rfl

end State

/-- Settles O44. -/
theorem helloDeleteDestroy : Obligations.HelloDeleteDestroy := by
  unfold Obligations.HelloDeleteDestroy
  refine ⟨fun s fn q e h c u harr => ?_, fun s c hop hvf => ⟨State.vfDestroy_unprovisioned hop hvf, State.vfDestroy_active hop hvf⟩⟩
  have a := State.arrives_arrived harr
  exact ⟨fun v hop hver hout => a.hello hop hver hout, fun hop hdone hfn => ⟨a.deleteDisabled hop hdone, a.deleteEnabled hop hdone hfn⟩⟩

end Sys2Proof.Machine
end

section
/-! The control queues: handover, enabling, returns, approvals that expire (R176, R177, R294). -/

namespace Sys2Proof.Machine

/-- No alarm became due but that of an uncorrectable line. -/
def State.firesMem (s t : State) : Prop := ∀ x ∈ t.tmp.due, x ∈ s.tmp.due ∨ x = 15

namespace State
variable {s : State} {c : Cmd} {p : Nat}

theorem firesMem.refl (s : State) : s.firesMem s := fun _ hx => .inl hx

theorem firesMem.trans {s t u : State} (h : s.firesMem t) (h' : t.firesMem u) : s.firesMem u := fun x hx => (h' x hx).elim (h x) .inr

theorem firesMem.of_tmp {s t : State} (h : t.tmp = s.tmp) : s.firesMem t := fun _ hx => .inl (h ▸ hx)

theorem firesMem.foldl {α : Type} {g : State → α → State} (h : ∀ (s : State) (a : α), s.firesMem (g s a)) (l : List α) : ∀ s : State, s.firesMem (l.foldl g s) := by
  induction l with
  | nil => exact .refl
  | cons a l ih => exact fun s => (h s a).trans (ih _)

theorem uncorrectable_fires (s : State) (c l : Nat) (scrub : Bool) : s.firesMem (s.uncorrectable c l scrub) := by
  have htmp : (s.captureErr c l 2 15 scrub).tmp = s.tmp := captureErr_keepsTmp rfl
  intro x hx
  have hx : x ∈ (s.captureErr c l 2 15 scrub).tmp.due ++ [15] := hx
  rw [htmp] at hx
  exact (List.mem_append.mp hx).imp id List.mem_singleton.mp

theorem checkLine_fires (s : State) (c l : Nat) (scrub : Bool) : s.firesMem (s.checkLine c l scrub) := by
  unfold checkLine
  split
  · exact .refl s
  · exact .of_tmp (corrected_keepsTmp rfl)
  · exact .of_tmp (corrected_keepsTmp rfl)
  · exact s.uncorrectable_fires c l scrub

theorem rmwFail_fires (s : State) (c l : Nat) : s.firesMem (s.rmwFail c l) := by
  have h := s.uncorrectable_fires c l false
  unfold rmwFail
  generalize s.uncorrectable c l false = t at h ⊢
  exact h.trans (.of_tmp rfl)

theorem serveLine_fires (s : State) (x : LineAccess) : s.firesMem (s.serveLine x).2 := by
  unfold serveLine
  split
  · exact .refl s
  next c l _ =>
    dsimp only
    split
    · exact .refl s
    · split
      · exact s.checkLine_fires c l _
      · split
        · dsimp only
          split
          · exact .refl s
          · exact .of_tmp rfl
        · split
          · exact s.rmwFail_fires c l
          · exact (s.checkLine_fires c l false).trans (.of_tmp rfl)

/-- The accesses that wait for a line are served. -/
theorem serveLines_fires (l : List LineAccess) : ∀ r : List LineDone × State, r.2.firesMem
    (l.foldl (fun r x => let (a, s) := r.2.serveLine x; (r.1 ++ [{ access := x, answer := a }], s)) r).2 := by
  induction l with
  | nil => exact fun r => .refl r.2
  | cons x l ih => exact fun r => (r.2.serveLine_fires x).trans (ih _)

theorem yieldLock_fires (s : State) (c l : Nat) : s.firesMem (s.yieldLock c l) := by
  unfold yieldLock
  split
  · exact .refl s
  next k _ => exact (serveLines_fires k.waiting (k.served, s)).trans (.of_tmp rfl)

theorem awaitLines_fires (s : State) (bs : List (Nat × Nat)) : s.firesMem (s.awaitLines bs) := by
  have h1 := firesMem.foldl (g := fun (s : State) (b : Nat × Nat) => (s.wakeMem b.1).awaitFill b.1)
    (fun s b => .of_tmp ((awaitFill_keepsTmp rfl).trans (wakeMem_keepsTmp rfl))) bs s
  exact h1.trans (firesMem.foldl (g := fun (s : State) (x : Nat × Nat) => s.yieldLock x.1 x.2) (fun s x => s.yieldLock_fires x.1 x.2) _ _)

theorem readMem_fires (s : State) (cls : Nat) (w : World) (k : AccKind) (a n : Nat) : s.firesMem (s.readMem cls w k a n).2.2 := by
  let up := s.openBeats cls k w (beats a n)
  have hcheck := firesMem.foldl (g := fun (s : State) (x : Nat × Nat) => s.checkLine x.1 x.2 false) (fun s x => s.checkLine_fires x.1 x.2 false)
    ((s.awaitLines up).linesOf up) (s.awaitLines up)
  exact ((s.awaitLines_fires up).trans hcheck).trans (.of_tmp (noteRefusal_keepsTmp rfl))

theorem readAccesses_fires (cls : Nat) (w : World) (t : List (Nat × Nat)) : ∀ s : State, s.firesMem (readAccesses cls w t s).2.2 := by
  induction t with
  | nil => exact .refl
  | cons x t ih =>
    intro s
    have h := s.readMem_fires cls w .read x.1 x.2
    unfold readAccesses
    split
    next d s' heq =>
      rw [heq] at h
      exact h.trans (ih _)
    next d s' heq =>
      rw [heq] at h
      exact h

/-- A read of an engine fires the alarm of an uncorrectable line at most. -/
theorem dmaIn_fires (s : State) (cls : Nat) (w : World) (a n : Nat) : s.firesMem (s.dmaIn cls w a n).2.2 := readAccesses_fires _ _ _ _

/-- The alarms due are raised while no command is in flight. -/
theorem settle_fired (hinf : s.dsp.inflight = []) (hdue : ∀ x ∈ s.tmp.due, x = 15) {f : Fld} (hf : f.outlastsAlarm) : s.settle.rd f = s.rd f := by
  have hrep : s.tmp.due = List.replicate s.tmp.due.length 15 := List.eq_replicate_of_mem hdue
  by_cases hnil : s.tmp.due = []
  · rw [settle_of_none hnil]
  · have hdedup : s.tmp.due.dedup = [15] := by
      rw [hrep]
      exact List.replicate_dedup (fun h => hnil (List.length_eq_zero_iff.mp h))
    let s1 : State := { s with tmp := { s.tmp with due := [] } }
    have hsettle : s.settle = s1.raiseAlarms [15] := by
      rw [← hdedup]
      exact if_neg (by simpa using hnil)
    rw [hsettle]
    exact (raiseAlarm_alarmKept (s := s1) hinf (by decide)).regs f hf

theorem pump_fired (hinf : s.dsp.inflight = []) (hdue : ∀ x ∈ s.tmp.due, x = 15) {f : Fld} (hf : f.outlastsAlarm) : s.pump.rd f = s.rd f := by
  have hpump : s.pump = s.settle := by
    unfold pump
    rw [hinf]
    rfl
  rw [hpump, settle_fired hinf hdue hf]

/-! Handover. -/

theorem stopCmd_gone (s : State) (c : Cmd) (status detail : Nat) : (s.stopCmd c status detail).cmd c.id = none := by
  unfold stopCmd
  split
  · unfold helloEnd
    dsimp only
    split
    · exact cmd_complete _ c _
    · exact cmd_complete _ c _
  · split
    · exact cmd_complete _ c _
    · exact cmd_complete _ c _

theorem failLate_gone (s : State) (c : Cmd) (status detail : Nat) : (s.failLate c status detail).cmd c.id = none := stopCmd_gone _ c status detail

theorem pickQueue_lt (h : s.pickQueue = some p) : p < 2 := by
  unfold pickQueue at h
  dsimp only at h
  split_ifs at h <;> cases h <;> omega

/-- A command ends, or its queue's tail, the tag and the turn move on. -/
theorem handOver_cases (s : State) (c : Cmd) (p : Nat) : let u := s.handOver c p
    u.cmd c.id = none ∨ (u.rd (R.DSP_CQ_HTAIL_TAIL.ix p) = (s.rd (R.DSP_CQ_HTAIL_TAIL.ix p) + 1) % s.ringSize p % 2 ^ 10 ∧
      u.dsp.nextTag = s.dsp.nextTag % 65536 + 1 ∧ u.dsp.cqTurn = 1 - p) := by
  have hoff (f : Fld) (hf : f.off = 0xC0108 + 0x20 * p ∨ f.off = 0xC010C + 0x20 * p) : f.offMemory := by
    unfold Fld.offMemory Fld.key
    omega
  intro u
  have h1 : s.keepsOff (s.freeNat 4).2 := keepsOff_of_regs rfl
  unfold u handOver
  dsimp only
  have htag1 : (s.freeNat 4).2.dsp.nextTag = s.dsp.nextTag := rfl
  generalize (s.freeNat 4).1 = n
  generalize (s.freeNat 4).2 = s1 at h1 htag1 ⊢
  split
  next s2 _ => exact .inl (failLate_gone _ _ _ _)
  next s2 heq =>
    have h2 := s1.dmaOut_keepsOff 13 .secure (ddrBase + n % 16760832 * 64) c.input
    rw [heq] at h2
    split
    next s3 _ => exact .inl (failLate_gone _ _ _ _)
    next s3 heq3 =>
      have h3 : s2.keepsOff s3 := (congrArg (fun x : Bool × State => s2.keepsOff x.2) heq3).mp (s2.dmaOut_keepsOff 13 .secure _ _)
      have htail := h1 (R.DSP_CQ_HTAIL_TAIL.ix p) (hoff _ (.inr rfl))
      have hlog : s3.rd (R.DSP_CQ_CFG_LOG2.ix p) = s.rd (R.DSP_CQ_CFG_LOG2.ix p) := ((h1.trans h2).trans h3) _ (hoff _ (.inl rfl))
      have hring : s3.ringSize p = s.ringSize p := congrArg (2 ^ ·) hlog
      rw [htail, hring]
      refine .inr ?_
      split
      · exact ⟨rd_wr_same .., congrArg (· % 65536 + 1) htag1, rfl⟩
      · exact ⟨rd_wr_same .., congrArg (· % 65536 + 1) htag1, rfl⟩

/-- A command that waits is handed to the queue whose turn it is. -/
theorem handover_shown (hcmd : s.cmd c.id = some c) (hqueue : s.pickQueue = some p) (hwaits : c.waitsHandover = true) (hidle : s.rd R.ACT_CTRL_UPDATE = 0)
    (hfirst : s.handoverAhead c = false) : let u := s.handOver c p
    exec (.controlHandover c.id) s = .next u.pump ∧
      (u.cmd c.id = some { c with stage := .handed p (s.dsp.nextTag % 65536) } → s.rd (R.DSP_CQ_CFG_LOG2.ix p) ≤ 10 →
        u.rd (R.DSP_CQ_HTAIL_TAIL.ix p) = (s.rd (R.DSP_CQ_HTAIL_TAIL.ix p) + 1) % 2 ^ s.rd (R.DSP_CQ_CFG_LOG2.ix p) ∧
        u.dsp.nextTag = s.dsp.nextTag % 65536 + 1 ∧ u.dsp.cqTurn = 1 - p) := by
  intro u
  refine ⟨?_, fun hhanded hlog => ?_⟩
  · show execControlHandover c.id s = _
    unfold execControlHandover
    rw [hcmd, hqueue]
    exact if_pos (by rw [hwaits, flag_eq_false s hidle, hfirst]; rfl)
  · rcases s.handOver_cases c p with hgone | ⟨htail, htag, hturn⟩
    · exact absurd (hgone.symm.trans hhanded) (by simp)
    · refine ⟨htail.trans (Nat.mod_eq_of_lt ?_), htag, hturn⟩
      exact (Nat.mod_lt _ (Nat.two_pow_pos _)).trans_le (Nat.pow_le_pow_right (by decide) hlog)

/-! Enabling and disabling. -/

theorem cqError_lt (s : State) (p : Nat) : s.cqError p < 8 := by
  unfold cqError
  dsimp only
  split_ifs <;> decide

theorem ix_key_ne {f g : Fld} (hoff : f.off = g.off) (hstride : f.stride = g.stride) (hbank : f.bank = g.bank) (h : f.lsb ≠ g.lsb) (p : Nat) :
    (f.ix p).key ≠ (g.ix p).key := by
  simp only [Fld.key, Fld.ix, hoff, hstride, hbank]
  omega

/-- ENABLE = 1 of a queue that is disabled. -/
theorem cqEnable_shown (hoff : s.rd (R.DSP_CQ_CFG_ENABLE.ix p) = 0) : let t := s.cqEnable p
    t.rd (R.DSP_CQ_CFG_CFG_ERR.ix p) = s.cqError p ∧ t.rd (R.DSP_CQ_CFG_ENABLE.ix p) = (if s.cqError p = 0 then 1 else 0) ∧
      s.onlyRegs t [R.DSP_CQ_CFG_CFG_ERR.ix p, R.DSP_CQ_CFG_ENABLE.ix p] := by
  have hne : (R.DSP_CQ_CFG_ENABLE.ix p).key ≠ (R.DSP_CQ_CFG_CFG_ERR.ix p).key := ix_key_ne (f := R.DSP_CQ_CFG_ENABLE) (g := R.DSP_CQ_CFG_CFG_ERR) rfl rfl rfl (by decide) p
  let s1 := s.wr (R.DSP_CQ_CFG_CFG_ERR.ix p) (s.cqError p)
  have herr : s1.rd (R.DSP_CQ_CFG_CFG_ERR.ix p) = s.cqError p := (rd_wr_same ..).trans (Nat.mod_eq_of_lt (s.cqError_lt p))
  have hkeep : s.keepsRegs s1 [R.DSP_CQ_CFG_CFG_ERR.ix p, R.DSP_CQ_CFG_ENABLE.ix p] := s.keepsRegs_wr _ (by simp)
  have ht : s.cqEnable p = if s.cqError p = 0 then s1.wr (R.DSP_CQ_CFG_ENABLE.ix p) 1 else s1 := if_neg (by rw [flag_eq_false s hoff]; exact Bool.false_ne_true)
  intro t
  rw [show t = _ from ht]
  by_cases h0 : s.cqError p = 0
  · rw [if_pos h0, if_pos h0]
    exact ⟨(rd_wr_other _ _ hne.symm).trans herr, rd_wr_same .., rfl, hkeep.trans (keepsRegs_wr _ _ (by simp)) (List.Subset.refl _)⟩
  · rw [if_neg h0, if_neg h0]
    exact ⟨herr, (rd_wr_other _ _ hne).trans hoff, rfl, hkeep⟩

theorem cqDisable_idle (hinf : s.dsp.inflight = []) : s.cqDisable p = s.wr (R.DSP_CQ_CFG_ENABLE.ix p) 0 := by
  unfold cqDisable
  rw [hinf]
  rfl

/-! Return tails. -/

variable {tail : Nat}

theorem cqRtail_off (hoff : s.rd (R.DSP_CQ_CFG_ENABLE.ix p) = 0) (v : Nat) : s.cqRtail p v = s.wr (R.DSP_CQ_RTAIL_TAIL.ix p) (bits v 0 10) :=
  if_pos (by rw [flag_eq_false s hoff]; rfl)

theorem cqRtail_outside (hon : s.rd (R.DSP_CQ_CFG_ENABLE.ix p) = 1) {v : Nat} (h : s.ringSize p ≤ bits v 0 10) : s.cqRtail p v = s.setEvt R.DSP_EVT_BAD_RETURN :=
  (if_neg (by rw [flag_eq_true s hon]; exact Bool.false_ne_true)).trans (if_pos h)

theorem cqRtail_inside (hon : s.rd (R.DSP_CQ_CFG_ENABLE.ix p) = 1) {v : Nat} (h : bits v 0 10 < s.ringSize p) :
    s.cqRtail p v = ((s.wr (R.DSP_CQ_RTAIL_TAIL.ix p) (bits v 0 10)).readReturns p).pump :=
  (if_neg (by rw [flag_eq_true s hon]; exact Bool.false_ne_true)).trans (if_neg (by omega))


/-- The registers of a queue that a return tail does not change. -/
theorem rtail_other (s : State) (f : Fld) (v : Nat) (h : f.bank = 0 ∧ f.off ≠ 0xC0114 + 0x20 * p ∧ f.lsb < 64) : (s.wr (R.DSP_CQ_RTAIL_TAIL.ix p) v).rd f = s.rd f := by
  refine rd_wr_other _ _ ?_
  obtain ⟨hbank, hoff, hlsb⟩ := h
  simp only [Fld.key, Fld.ix, R.DSP_CQ_RTAIL_TAIL, hbank]
  omega

theorem rtail_rhead (s : State) (p v : Nat) : (s.wr (R.DSP_CQ_RTAIL_TAIL.ix p) v).rd (R.DSP_CQ_RHEAD_HEAD.ix p) = s.rd (R.DSP_CQ_RHEAD_HEAD.ix p) :=
  s.rtail_other _ _ ⟨rfl, by simp only [Fld.ix, R.DSP_CQ_RHEAD_HEAD]; omega, (by decide : 0 < 64)⟩

theorem rtail_ringSize (s : State) (p v : Nat) : (s.wr (R.DSP_CQ_RTAIL_TAIL.ix p) v).ringSize p = s.ringSize p :=
  congrArg (2 ^ ·) (s.rtail_other _ _ ⟨rfl, by simp only [Fld.ix, R.DSP_CQ_CFG_LOG2]; omega, (by decide : 0 < 64)⟩)

/-- A return tail that moves has the return entries up to it taken. -/
theorem readReturns_takes (hidle : s.rd R.ACT_CTRL_UPDATE = 0) (htail : tail < 1024) (hmoves : s.rd (R.DSP_CQ_RHEAD_HEAD.ix p) ≠ tail) :
    (s.wr (R.DSP_CQ_RTAIL_TAIL.ix p) tail).readReturns p = (s.wr (R.DSP_CQ_RTAIL_TAIL.ix p) tail).takeReturns p tail (s.ringSize p) := by
  let w := s.wr (R.DSP_CQ_RTAIL_TAIL.ix p) tail
  have hrtail : w.rd (R.DSP_CQ_RTAIL_TAIL.ix p) = tail := (rd_wr_same ..).trans (Nat.mod_eq_of_lt htail)
  have hrhead : w.rd (R.DSP_CQ_RHEAD_HEAD.ix p) = s.rd (R.DSP_CQ_RHEAD_HEAD.ix p) := s.rtail_rhead p _
  have hring : w.ringSize p = s.ringSize p := s.rtail_ringSize p _
  have hupdate : w.rd R.ACT_CTRL_UPDATE = 0 := (s.rtail_other _ _ ⟨rfl, by simp only [R.ACT_CTRL_UPDATE]; omega, by decide⟩).trans hidle
  show w.readReturns p = w.takeReturns p tail (s.ringSize p)
  unfold readReturns
  dsimp only
  rw [if_neg (by rw [hrhead, hrtail]; exact hmoves), if_neg (by rw [flag_eq_false w hupdate]; exact Bool.false_ne_true), hrtail, hring]

/-- A return tail without new entries. -/
theorem readReturns_none (htail : tail < 1024) (hstays : s.rd (R.DSP_CQ_RHEAD_HEAD.ix p) = tail) :
    (s.wr (R.DSP_CQ_RTAIL_TAIL.ix p) tail).readReturns p = s.wr (R.DSP_CQ_RTAIL_TAIL.ix p) tail :=
  if_pos ((s.rtail_rhead p _).trans
    (hstays.trans ((rd_wr_same ..).trans (Nat.mod_eq_of_lt htail)).symm))

theorem rd_badReturn (s : State) : (s.setEvt R.DSP_EVT_BAD_RETURN).rd R.DSP_EVT_BAD_RETURN = 1 := s.rd_setEvt_same rfl (by decide)

theorem takeReturns_moves (hmoves : s.rd (R.DSP_CQ_RHEAD_HEAD.ix p) ≠ tail) (n : Nat) :
    let r := s.dmaIn 13 .secure (s.ringBase p true + 32 * s.rd (R.DSP_CQ_RHEAD_HEAD.ix p)) 32
    let s2 := r.2.2.wr (R.DSP_CQ_RHEAD_HEAD.ix p) ((s.rd (R.DSP_CQ_RHEAD_HEAD.ix p) + 1) % r.2.2.ringSize p)
    s.takeReturns p tail (n + 1) = (if r.2.1 then s2.takeReturn p r.1 else s2.setEvt R.DSP_EVT_BAD_RETURN).takeReturns p tail n := if_neg hmoves

/-- The last return entry, for no command. -/
theorem takeReturn_unknown (hinf : s.dsp.inflight = []) (hp : p < 2) (hlt : tail < 1024) (ok : Bool) (e : List Byte) (n : Nat) : let s2 := s.wr (R.DSP_CQ_RHEAD_HEAD.ix p) tail
    let t := (if ok then s2.takeReturn p e else s2.setEvt R.DSP_EVT_BAD_RETURN).takeReturns p tail n
    t.rd (R.DSP_CQ_RHEAD_HEAD.ix p) = tail ∧ t.rd R.DSP_EVT_BAD_RETURN = 1 ∧ t.dsp = s.dsp ∧ t.tmp = s.tmp := by
  intro s2 t
  let s3 := s2.setEvt R.DSP_EVT_BAD_RETURN
  have htake : s2.takeReturn p e = s3 := by
    unfold takeReturn
    rw [show s2.dsp.inflight = [] from hinf]
    rfl
  have hhead : s3.rd (R.DSP_CQ_RHEAD_HEAD.ix p) = tail := by
    refine (s2.rd_setEvt_other 0 ?_ ?_).trans ((rd_wr_same ..).trans (Nat.mod_eq_of_lt hlt))
    · simp only [Fld.key, Fld.ix, R.DSP_CQ_RHEAD_HEAD, R.DSP_EVT_BAD_RETURN]
      omega
    · simp only [Fld.key, Fld.ix, Fld.seq, R.DSP_CQ_RHEAD_HEAD, R.DSP_EVT_BAD_RETURN]
      omega
  have hrest : s3.takeReturns p tail n = s3 := by
    cases n with
    | zero => rfl
    | succ n => exact if_pos hhead
  have ht : t = s3 := by
    unfold t
    rw [htake, ite_self, hrest]
  rw [ht]
  exact ⟨hhead, s2.rd_badReturn, rfl, rfl⟩

/-- One return entry for no command. -/
theorem takeReturns_one (hinf : s.dsp.inflight = []) (hp : p < 2) (n : Nat) (hring : s.ringSize p ≤ 1024) (hmoves : s.rd (R.DSP_CQ_RHEAD_HEAD.ix p) ≠ tail)
    (hnext : (s.rd (R.DSP_CQ_RHEAD_HEAD.ix p) + 1) % s.ringSize p = tail) : let t := s.takeReturns p tail (n + 1)
    t.rd (R.DSP_CQ_RHEAD_HEAD.ix p) = tail ∧ t.rd R.DSP_EVT_BAD_RETURN = 1 ∧ t.dsp.inflight = [] ∧ s.firesMem t := by
  intro t
  have ht : t = _ := takeReturns_moves hmoves n
  generalize s.ringBase p true + 32 * s.rd (R.DSP_CQ_RHEAD_HEAD.ix p) = a at ht
  have hkeep := s.dmaIn_keepsOff 13 .secure a 32
  have hdsp : (s.dmaIn 13 .secure a 32).2.2.dsp = s.dsp := dmaIn_keepsDsp rfl
  have hfires := s.dmaIn_fires 13 .secure a 32
  generalize s.dmaIn 13 .secure a 32 = r at ht hkeep hdsp hfires
  have hring1 : r.2.2.ringSize p = s.ringSize p := congrArg (2 ^ ·) (hkeep (R.DSP_CQ_CFG_LOG2.ix p) (.inr (by simp only [Fld.key, Fld.ix, R.DSP_CQ_CFG_LOG2]; omega)))
  rw [hring1, hnext] at ht
  have hlt : tail < 1024 := hnext ▸ (Nat.mod_lt _ (Nat.two_pow_pos _)).trans_le hring
  obtain ⟨hhead, hevt, hdsp3, htmp3⟩ := takeReturn_unknown (s := r.2.2) ((congrArg Dsp.inflight hdsp).trans hinf) hp hlt r.2.1 r.1 n
  rw [ht]
  exact ⟨hhead, hevt, (congrArg Dsp.inflight (hdsp3.trans hdsp)).trans hinf, hfires.trans (.of_tmp htmp3)⟩

/-- A return entry of a command ends it with the output that secure staging holds. -/
theorem takeReturn_ends {e out : List Byte} {u : State} (hfind : s.dsp.inflight.find? (fun x => x.stage == .handed p (leAt e 0 2)) = some c) (hlen : leAt e 0x1C 4 ≤ c.outLen)
    (hread : s.dmaIn 13 .secure (ddrBase + leAt e 0x18 4) (leAt e 0x1C 4) = (out, true, u)) :
    s.takeReturn p e = u.returned c { status := leAt e 2 1, detail := leAt e 4 2, result := leAt e 8 8, aux := leAt e 0x10 8, output := out } := by
  unfold takeReturn
  rw [hfind]
  dsimp only
  rw [if_neg (by omega), hread]

end State

section
variable {s : State} {who : Requester} {queue : Fin 2}

theorem dspCqEnable_shown (hcalm : s.calm) (hpass : s.passes who (0xC0108 + 0x20 * queue.val) = true) (hoff : s.rd (R.DSP_CQ_CFG_ENABLE.ix queue.val) = 0) :
    ∃ t, exec (.dspCqEnable who queue) s = .next t ∧ t.rd (R.DSP_CQ_CFG_CFG_ERR.ix queue.val) = s.cqError queue.val ∧
      t.rd (R.DSP_CQ_CFG_ENABLE.ix queue.val) = (if s.cqError queue.val = 0 then 1 else 0) ∧
      s.onlyRegs t [R.DSP_CQ_CFG_CFG_ERR.ix queue.val, R.DSP_CQ_CFG_ENABLE.ix queue.val] := by
  have hshown := State.cqEnable_shown hoff
  have hsame := hshown.2.2.1
  have hdsp : (s.cqEnable queue.val).dsp = s.dsp := (congrArg State.dsp hsame :)
  have htmp : (s.cqEnable queue.val).tmp = s.tmp := (congrArg State.tmp hsame :)
  refine ⟨_, congrArg Host.Outcome.next ((State.gated_of_passes hpass _ _).trans (State.pump_of_calm (State.calm_of hcalm (congrArg Dsp.inflight hdsp) htmp))), hshown⟩

theorem dspCqDisable_shown (hcalm : s.calm) (hpass : s.passes who (0xC0108 + 0x20 * queue.val) = true) :
    ∃ t, exec (.dspCqDisable who queue) s = .next t ∧ t.rd (R.DSP_CQ_CFG_ENABLE.ix queue.val) = 0 ∧ s.onlyRegs t [R.DSP_CQ_CFG_ENABLE.ix queue.val] := by
  have hstate : (s.cqDisable queue.val).pump = s.wr (R.DSP_CQ_CFG_ENABLE.ix queue.val) 0 := by
    rw [State.cqDisable_idle hcalm.1]
    exact State.pump_of_calm (State.calm_of hcalm rfl rfl)
  exact ⟨_, congrArg Host.Outcome.next ((State.gated_of_passes hpass _ _).trans hstate), State.rd_wr_same .., s.onlyRegs_wr _ (List.mem_singleton.mpr rfl)⟩

theorem dspCqRtailWrite_next (hpass : s.passes who (0xC0114 + 0x20 * queue.val) = true) {v : Word32} :
    exec (.dspCqRtailWrite who queue v) s = .next (s.cqRtail queue.val v.toNat) := congrArg Host.Outcome.next (State.gated_of_passes hpass _ _)

/-- A return tail with one new entry, for no command. -/
theorem dspCqRtailWrite_one (hpass : s.passes who (0xC0114 + 0x20 * queue.val) = true) (hidle : s.rd R.ACT_CTRL_UPDATE = 0) {v : Word32} {tail : Nat} (hv : bits v.toNat 0 10 = tail)
    (hcalm : s.calm) (hon : s.rd (R.DSP_CQ_CFG_ENABLE.ix queue.val) = 1) (hring : s.ringSize queue.val ≤ 1024) (htail : tail < s.ringSize queue.val)
    (hmoves : s.rd (R.DSP_CQ_RHEAD_HEAD.ix queue.val) ≠ tail) (hnext : (s.rd (R.DSP_CQ_RHEAD_HEAD.ix queue.val) + 1) % s.ringSize queue.val = tail) :
    ∃ t, exec (.dspCqRtailWrite who queue v) s = .next t ∧ t.rd (R.DSP_CQ_RHEAD_HEAD.ix queue.val) = tail ∧ t.rd R.DSP_EVT_BAD_RETURN = 1 := by
  let p := queue.val
  let w := s.wr (R.DSP_CQ_RTAIL_TAIL.ix p) tail
  have hrhead : w.rd (R.DSP_CQ_RHEAD_HEAD.ix p) = s.rd (R.DSP_CQ_RHEAD_HEAD.ix p) := s.rtail_rhead p _
  have hringw : w.ringSize p = s.ringSize p := s.rtail_ringSize p _
  obtain ⟨n, hn⟩ : ∃ n, s.ringSize p = n + 1 := ⟨s.ringSize p - 1, by have : 0 < s.ringSize p := Nat.two_pow_pos _; omega⟩
  obtain ⟨hhead, hevt, hinf, hfires⟩ := State.takeReturns_one (s := w) (p := p) hcalm.1 queue.isLt n (hringw.trans_le hring)
    (fun h => hmoves (hrhead.symm.trans h)) (by rw [hrhead, hringw]; exact hnext)
  have hstate : s.cqRtail p v.toNat = (w.takeReturns p tail (n + 1)).pump := by
    rw [State.cqRtail_inside hon (by rw [hv]; exact htail), hv, State.readReturns_takes hidle (htail.trans_le hring) hmoves, hn]
  refine ⟨_, (dspCqRtailWrite_next hpass).trans (congrArg _ hstate), ?_, ?_⟩
  all_goals
    have hdue : ∀ x ∈ (w.takeReturns p tail (n + 1)).tmp.due, x = 15 := fun x hx => (hfires x hx).resolve_left (by rw [show w.tmp.due = [] from hcalm.2]; exact List.not_mem_nil)
  · exact (State.pump_fired hinf hdue (by
      have hp := queue.isLt
      simp only [Fld.outlastsAlarm, Fld.key, Fld.ix, R.DSP_CQ_RHEAD_HEAD]
      omega)).trans hhead
  · exact (State.pump_fired hinf hdue (by unfold Fld.outlastsAlarm; decide)).trans hevt

end

/-- Settles O48. -/
theorem controlQueues : Obligations.ControlQueues := by
  unfold Obligations.ControlQueues
  refine fun s => ⟨fun c p hcmd hqueue hwaits hidle hfirst => State.handover_shown hcmd hqueue hwaits hidle hfirst,
    fun who queue hcalm hpass => ⟨dspCqEnable_shown hcalm hpass, dspCqDisable_shown hcalm hpass⟩, fun who queue v hpass hidle => ?_,
    fun c p e out u hfind hlen hread => State.takeReturn_ends hfind hlen hread, fun id hsome => ?_⟩
  · have hv : bits v.toNat 0 10 = v.toNat % 1024 := by simp [bits]
    have hlt : v.toNat % 1024 < 1024 := Nat.mod_lt _ (by decide)
    generalize htaileq : v.toNat % 1024 = tail at hv hlt ⊢
    refine ⟨fun hoff => ?_, fun hon hout => ?_, fun hon hin hmoves => ?_, fun hcalm hon hstays hin => ?_, fun hcalm hon hring hin hmoves hnext => ?_⟩
    · refine ⟨_, (dspCqRtailWrite_next hpass).trans (congrArg _ (State.cqRtail_off hoff _)), ?_, s.onlyRegs_wr _ (List.mem_singleton.mpr rfl)⟩
      rw [hv]
      exact (State.rd_wr_same ..).trans (Nat.mod_eq_of_lt hlt)
    · exact ⟨_, (dspCqRtailWrite_next hpass).trans (congrArg _ (State.cqRtail_outside hon (hv ▸ hout))), s.rd_badReturn, s.setEvt_frame _ 0⟩
    · rw [dspCqRtailWrite_next hpass, State.cqRtail_inside hon (hv ▸ hin), hv, State.readReturns_takes hidle hlt hmoves]
    · have hstate : s.cqRtail queue.val v.toNat = s.wr (R.DSP_CQ_RTAIL_TAIL.ix queue.val) tail := by
        rw [State.cqRtail_inside hon (hv ▸ hin), hv, State.readReturns_none hlt hstays]
        exact State.pump_of_calm (State.calm_of hcalm rfl rfl)
      exact ⟨_, (dspCqRtailWrite_next hpass).trans (congrArg _ hstate), (State.rd_wr_same ..).trans (Nat.mod_eq_of_lt hlt), s.onlyRegs_wr _ (List.mem_singleton.mpr rfl)⟩
    · exact dspCqRtailWrite_one hpass hidle hv hcalm hon hring hin hmoves hnext
  · exact ⟨_, if_pos hsome, s.endApproval_gone id, State.endApproval_keepsRegs rfl, State.endApproval_keepsMem rfl⟩

end Sys2Proof.Machine
end

section
/-! Steps 9 to 11 of a command: its output, its commit and its completion entry (R24, R149, R150, R175). -/

namespace Sys2Proof.Machine

/-- A queue pair after a completion entry that fills its count. -/
def Qp.completed (x : Qp) : Qp :=
  { x with
    reserved := x.reserved - 1, usable := x.usable - 1, cqTail := (x.cqTail + 1) % 2 ^ x.cqLog2,
    phase := if (x.cqTail + 1) % 2 ^ x.cqLog2 = 0 then !x.phase else x.phase, unsignalled := 0 }

namespace State
variable {s t : State} {c : Cmd} {r : Res} {p : Port}

theorem releaseUnit_none (hunit : c.unit = none) (hlane : c.lane = none) (keep : Bool) : s.releaseUnit c keep = s := by
  unfold releaseUnit releaseExtra
  rw [hunit, hlane]

theorem fnSt_of_fns (h : t.fns = s.fns) (f : Fn) : t.fnSt f = s.fnSt f := congrArg (fun l => tblGet ({} : FnSt) l f.id) h

theorem port_of (ha : t.portA = s.portA) (hb : t.portB = s.portB) (p : Port) : t.port p = s.port p := by
  cases p with
  | a => exact ha
  | b => exact hb

/-- A completion entry that fills the count of its queue pair, and its message. -/
theorem writeCompletion_full {q : Nat} (cid status detail result aux written : Nat) (hd3 : (s.port p).d3 = false) (herr : (s.qp (.pf p) q).error = false)
    (hres : 0 < (s.qp (.pf p) q).reserved) (hfull : (s.qp (.pf p) q).coalCount ≤ (s.qp (.pf p) q).unsignalled + 1)
    (hmask : (s.fnSt (.pf p)).unmasked.testBit (s.qp (.pf p) q).vector = true) : let x := s.qp (.pf p) q
    let t := s.writeCompletion (.pf p) q cid status detail result aux written
    t.out = .msix (.pf p) x.vector :: .dmaWrite (.pf p) (x.cqAddr + 32 * x.cqTail) (completionBytes cid status q x.sqHead detail result aux written x.phase) .completion :: s.out ∧
      t.qps = (s.setQp (.pf p) q x.completed).qps ∧ t.mem = s.mem ∧ t.regs = (s.wrapAdd R.DSP_CMDS_COUNT 1).regs ∧ t.tmp = s.tmp := by
  intro x t
  let o : Out := .dmaWrite (.pf p) (x.cqAddr + 32 * x.cqTail) (completionBytes cid status q x.sqHead detail result aux written x.phase) .completion
  let s1 := ((s.emit o).setQp (.pf p) q x.completed).wrapAdd R.DSP_CMDS_COUNT 1
  let s2 : State := if s1.gpioStatus 7 then { s1 with pins := { s1.pins with cmdPulse := true } } else s1
  have hsame : s2.out = o :: s.out ∧ s2.qps = (s.setQp (.pf p) q x.completed).qps ∧ s2.mem = s.mem ∧ s2.fns = s.fns ∧ s2.portA = s.portA ∧ s2.portB = s.portB ∧
      s2.regs = (s.wrapAdd R.DSP_CMDS_COUNT 1).regs ∧ s2.tmp = s.tmp := by
    unfold s2
    split <;> exact ⟨rfl, rfl, rfl, rfl, rfl, rfl, rfl, rfl⟩
  have hsend : (s.fnWrite (.pf p) 13 (x.cqAddr + 32 * x.cqTail) (completionBytes cid status q x.sqHead detail result aux written x.phase) .completion).2 = s.emit o :=
    if_neg (by rw [show s.heldFn (.pf p) = false from hd3]; exact Bool.false_ne_true)
  have ht : t = s2.vector (.pf p) x.vector := by
    unfold t writeCompletion
    dsimp only
    rw [if_neg (by rw [herr]; simp [hres]), hsend, decide_eq_true hfull]
    exact if_neg (by simp)
  obtain ⟨hout, hqps, hmem, hfns, ha, hb, hregs, htmp⟩ := hsame
  clear_value s2
  have hheld : s2.heldFn (.pf p) = false := (congrArg PortSt.d3 (port_of ha hb p)).trans hd3
  rw [ht, vector_sends (by simp) hheld ((congrArg (fun f : FnSt => f.unmasked.testBit x.vector) (fnSt_of_fns hfns (.pf p))).trans hmask)]
  exact ⟨congrArg _ hout, hqps, hmem, hregs, htmp⟩

/-- Step 11 of a command of a PF. -/
theorem complete_shown (hfn : c.fn = .pf p) (hunit : c.unit = none) (hlane : c.lane = none) (hd3 : (s.port p).d3 = false) (hentry : c.entry ≠ []) (herr : (s.qp c.fn c.qp).error = false)
    (hres : 0 < (s.qp c.fn c.qp).reserved) (hkeep : (s.qp c.fn c.qp).deleting = false) (hst : r.status ≠ 0x7F) (hop : c.opcode ≠ 1)
    (hfull : (s.qp c.fn c.qp).coalCount ≤ (s.qp c.fn c.qp).unsignalled + 1) (hmask : (s.fnSt c.fn).unmasked.testBit (s.qp c.fn c.qp).vector = true) : let x := s.qp c.fn c.qp
    let t := s.complete c r
    t.out = .msix c.fn x.vector :: .dmaWrite c.fn (x.cqAddr + 32 * x.cqTail) (completionBytes c.cid r.status c.qp x.sqHead r.detail r.result r.aux r.output.length x.phase) .completion :: s.out ∧
      t.qp c.fn c.qp = x.completed ∧ t.mem = s.mem := by
  let s1 := s.dropCmd c.id
  have hout1 : s1.out = s.out := dropCmd_keepsOut rfl
  have hmem1 : s1.mem = s.mem := dropCmd_keepsMem rfl
  have hqp1 : s1.qp c.fn c.qp = s.qp c.fn c.qp := qp_of_qps (dropCmd_keepsQps rfl) c.fn c.qp
  have hfns1 : s1.fnSt c.fn = s.fnSt c.fn := fnSt_of_fns (dropCmd_keepsFns rfl) c.fn
  have hport1 : s1.port p = s.port p := port_of (dropCmd_keepsPortA rfl) (dropCmd_keepsPortB rfl) p
  let s2 := s1.writeCompletion c.fn c.qp c.cid r.status r.detail r.result r.aux r.output.length
  have ht : s.complete c r = s2.finishDelete c.fn c.qp := by
    have hnonempty : c.entry.isEmpty = false := by simpa using hentry
    unfold complete
    dsimp only
    rw [releaseUnit_none hunit hlane, hnonempty, if_neg hst, if_neg (fun h => hop h.1), if_neg Bool.false_ne_true]
  intro x t
  rw [show t = _ from ht]
  have hshown := s1.writeCompletion_full (p := p) (q := c.qp) c.cid r.status r.detail r.result r.aux r.output.length (by rw [hport1]; exact hd3)
  rw [← hfn, hqp1, hfns1] at hshown
  obtain ⟨hout, hqps, hmem, -, -⟩ := hshown herr hres hfull hmask
  have hmem2 : s2.mem = s.mem := hmem.trans hmem1
  rw [hout1] at hout
  have hqp : s2.qp c.fn c.qp = x.completed := (qp_of_qps hqps c.fn c.qp).trans (s1.qp_setQp_same c.fn c.qp x.completed)
  have hout2 : s2.out = .msix c.fn x.vector ::
      .dmaWrite c.fn (x.cqAddr + 32 * x.cqTail) (completionBytes c.cid r.status c.qp x.sqHead r.detail r.result r.aux r.output.length x.phase) .completion :: s.out := hout
  clear_value s2 s1
  have hstays : s2.finishDelete c.fn c.qp = s2 := by
    refine if_neg ?_
    rw [hqp, show x.completed.deleting = false from hkeep]
    exact Bool.false_ne_true
  rw [hstays]
  exact ⟨hout2, hqp, hmem2⟩

/-- Step 10 while the twin is paired: the change waits for its commit record. -/
theorem commitStep_paired (a : ChangeRec) (hst : s.rd R.TWN_STATUS_STATE = 4) (hauth : s.twn.authed = true) (hup : s.twn.linkUp = true) :
    s.commitStep c r [a] = ((s.countCommit.sendFrame false (.commit a)).setCmd
      { c with stage := .commit ((s.countCommit.sendFrame false (.commit a)).rd R.TWN_CSEQ_COUNT), changes := [a], res := r }) := by
  unfold commitStep
  dsimp only
  rw [hst, if_neg (by simp), if_pos ⟨.inr rfl, hauth, hup⟩, if_neg (by decide)]
  rfl

theorem commitStep_lost (a : ChangeRec) (hst : s.rd R.TWN_STATUS_STATE = 6) (hroom : s.twn.journal.length < 1048576) :
    s.commitStep c r [a] = ({ s with twn := { s.twn with journal := s.twn.journal ++ [a] } } : State).complete c { r with status := 0x50 } := by
  have hadd : [a].foldl State.journalAdd s = { s with twn := { s.twn with journal := s.twn.journal ++ [a] } } := if_pos hroom
  unfold commitStep
  dsimp only
  rw [hst, if_neg (by simp), if_neg (by simp), if_pos (.inl (by decide)), hadd]

/-- Step 9. -/
theorem finish_cases (pre : State) (c : Cmd) (r : Res) (ch : List ChangeRec) (s : State) : (r.status ≠ 0 → pre.finish c (r, ch, s) = (s.dropCmdCtx c).complete c r) ∧
    (r.status = 0 → (writePieces c.fn 12 c.outPieces r.output s).1 = true → pre.finish c (r, ch, s) = (writePieces c.fn 12 c.outPieces r.output s).2.commitStep c r ch) := by
  refine ⟨fun hst => if_pos hst, fun hst hok => (if_neg (not_not.mpr hst)).trans ?_⟩
  generalize writePieces c.fn 12 c.outPieces r.output s = w at hok
  obtain ⟨ok, w⟩ := w
  cases hok
  rfl

end State

/-- Settles O45. -/
theorem completion : Obligations.Completion := by
  unfold Obligations.Completion
  intro s c r p x
  refine ⟨fun pre ch => State.finish_cases pre c r ch s, fun hfn hunit hlane hd3 hentry herr hres hkeep hst hop hfull hmask => ?_, fun a hst hauth hup => ?_,
    fun a hst hroom => State.commitStep_lost a hst hroom⟩
  · obtain ⟨hout, hqp, hmem⟩ := State.complete_shown hfn hunit hlane hd3 hentry herr hres hkeep hst hop hfull hmask
    exact ⟨hout, congrArg Qp.cqTail hqp, congrArg Qp.reserved hqp, congrArg Qp.phase hqp, s.cmd_complete c r, hmem⟩
  · intro t
    rw [show t = _ from State.commitStep_paired a hst hauth hup]
    exact ⟨⟨_, rfl, rfl⟩, State.rd_wr_same .., rfl⟩

end Sys2Proof.Machine
end

section
/-! The stages of a command (O47): an entry that cannot be read, in a state that holds a hash tile there is not. -/

namespace Sys2Proof.Machine

/-- Queue pair 0 of port A waits to be read, no command is in flight, and the tile table holds a tile for the next command whose register would lie on
the AER bit of PE_EVT. -/
def strayHold : State :=
  let s := ((State.reset.wr (R.PE_LINK_DL_UP.port .a) 1).setQp (.pf .a) 0 { enabled := true, sqLog2 := 2, cqLog2 := 2, sqTail := 1 }).setFnSt (.pf .a) { unmasked := 1 }
  { s with boot := { s.boot with alive := true }, eng := { s.eng with heldFor := [(0x8001, 1)] } }

/-- The command of the entry that cannot be read. -/
def strayCmd : Cmd := { id := 0, fn := .pf .a, qp := 0, entry := [], stage := .check }

namespace State
variable {s : State}

/-- The command's tile is let go, and with it the bit its register lies on. -/
theorem dropCmd_stray (hheld : s.eng.heldFor = [(0x8001, 1)]) : (s.dropCmd 0).rd (R.PE_EVT_AER_UNCORR.port .a) = 0 := by
  have hregs : (s.dropCmd 0).regs = (s.unhold 0).regs := rfl
  rw [rd_of_regs hregs]
  unfold unhold
  rw [hheld]
  have hsame : R.PE_EVT_AER_UNCORR.port .a = { R.HSH_TILE_HELD.ix 0x8001 with acc := .sq } := by decide
  exact (congrArg (fun f => State.rd _ f) hsame).trans (rd_wr_same ..)

/-- The command ends without its error bit. -/
theorem complete_stray {r : Res} (hheld : s.eng.heldFor = [(0x8001, 1)]) (hinf : s.dsp.inflight = [strayCmd]) (hdue : s.tmp.due = [])
    (hqp : s.qp (.pf .a) 0 = { enabled := true, sqLog2 := 2, cqLog2 := 2, sqTail := 1, sqHead := 1, reserved := 1 }) (hmask : (s.fnSt (.pf .a)).unmasked = 1) (hd3 : s.portA.d3 = false)
    (hst : r.status ≠ 0x7F) : (s.complete strayCmd r).pump.rd (R.PE_EVT_AER_UNCORR.port .a) = 0 := by
  let s1 := s.dropCmd 0
  have hbit1 : s1.rd (R.PE_EVT_AER_UNCORR.port .a) = 0 := dropCmd_stray hheld
  have hqp1 : s1.qp (.pf .a) 0 = s.qp (.pf .a) 0 := qp_of_qps (dropCmd_keepsQps rfl) (.pf .a) 0
  have hfns1 : s1.fnSt (.pf .a) = s.fnSt (.pf .a) := fnSt_of_fns (dropCmd_keepsFns rfl) (.pf .a)
  have hport1 : s1.portA = s.portA := dropCmd_keepsPortA rfl
  have htmp1 : s1.tmp = s.tmp := dropCmd_keepsTmp rfl
  have hinf1 : s1.dsp.inflight = [] := by
    have hunhold : (s.unhold 0).dsp = s.dsp := unhold_keepsDsp rfl
    have hdrop : s1.dsp.inflight = (s.unhold 0).dsp.inflight.filter fun x => x.id != 0 := rfl
    rw [hdrop, hunhold, hinf]
    rfl
  let s2 := s1.writeCompletion (.pf .a) 0 0xFFFF r.status r.detail r.result r.aux r.output.length
  have ht : s.complete strayCmd r = s2.finishDelete (.pf .a) 0 := by
    unfold complete
    dsimp only
    rw [releaseUnit_none rfl rfl, if_neg hst, if_neg (fun h => Nat.zero_ne_one h.1)]
    rfl
  have hshown := s1.writeCompletion_full (p := .a) (q := 0) 0xFFFF r.status r.detail r.result r.aux r.output.length
    ((congrArg PortSt.d3 hport1).trans hd3)
  rw [hqp1, hqp, hfns1, hmask] at hshown
  obtain ⟨-, hqps, -, hregs, htmp⟩ := hshown rfl (by decide) (by decide) (by decide)
  have hqp2 : (s2.qp (.pf .a) 0).deleting = false := congrArg Qp.deleting ((qp_of_qps hqps (.pf .a) 0).trans (s1.qp_setQp_same (.pf .a) 0 _))
  have hbit2 : s2.rd (R.PE_EVT_AER_UNCORR.port .a) = 0 := (rd_of_regs hregs _).trans ((rd_wr_other _ _ (by decide)).trans hbit1)
  have hdsp2 : s2.dsp = s1.dsp := writeCompletion_keepsDsp rfl
  have htmp2 : s2.tmp = s1.tmp := htmp
  clear_value s2 s1
  have hstays : s2.finishDelete (.pf .a) 0 = s2 := by
    refine if_neg ?_
    rw [hqp2]
    exact Bool.false_ne_true
  have hcalm : s2.calm := ⟨(congrArg Dsp.inflight hdsp2).trans hinf1, (congrArg Tmp.due (htmp2.trans htmp1)).trans hdue⟩
  rw [ht, hstays, pump_of_calm hcalm]
  exact hbit2

theorem aerLog_unmasked (s : State) (b : Nat) : ((s.aerLog (.pf .a) b).fnSt (.pf .a)).unmasked = (s.fnSt (.pf .a)).unmasked := by
  let x := s.fnSt (.pf .a)
  let s1 := s.setFnSt (.pf .a) { x with cfgRegs := tblPut 0 x.cfgRegs aerStatus (bitSet (tblGet 0 x.cfgRegs aerStatus) b) }
  have ht : s.aerLog (.pf .a) b = s1.setEvt (R.PE_EVT_AER_UNCORR.port .a) := if_neg (by decide)
  rw [ht]
  exact (congrArg FnSt.unmasked (tblGet_put_same ({} : FnSt) s.fns (Fn.pf .a).id _) : (s1.fnSt (.pf .a)).unmasked = _)

end State

/-- An entry that cannot be read ends its command, and the bit of its error is gone. -/
theorem strayHold_unreadable : (strayHold.unreadable (.pf .a) 0).pump.rd (R.PE_EVT_AER_UNCORR.port .a) = 0 := by
  let s1 := strayHold.takeEntry (.pf .a) 0
  let s2 : State := { s1 with dsp := { s1.dsp with inflight := [strayCmd] } }
  have hheld : s2.eng.heldFor = [(0x8001, 1)] := rfl
  have hqp : s2.qp (.pf .a) 0 = { enabled := true, sqLog2 := 2, cqLog2 := 2, sqTail := 1, sqHead := 1, reserved := 1 } := by decide +kernel
  let s3 := s2.aerOf (.pf .a)
  have hmask : (s3.fnSt (.pf .a)).unmasked = 1 := (State.aerLog_unmasked (s2.freeNat 1).2 _).trans rfl
  have heng3 : s3.eng = s2.eng := State.aerOf_keepsEng rfl
  have hqps3 : s3.qps = s2.qps := State.aerOf_keepsQps rfl
  have hdsp3 : s3.dsp = s2.dsp := State.aerOf_keepsDsp rfl
  have htmp3 : s3.tmp = s2.tmp := State.aerOf_keepsTmp rfl
  have hport3 : s3.portA = s2.portA := State.aerOf_keepsPortA rfl
  show (s3.complete strayCmd { status := 0x14, detail := 1 }).pump.rd _ = 0
  clear_value s3
  exact State.complete_stray ((congrArg Eng.heldFor heng3).trans hheld) (congrArg Dsp.inflight hdsp3) (congrArg Tmp.due htmp3) ((State.qp_of_qps hqps3 (.pf .a) 0).trans hqp) hmask
    (congrArg PortSt.d3 hport3) (by decide)

/-- Refutes O47: where the table of held tiles names a tile there is not, letting go of it as the command ends clears the AER bit its register would lie
on (0xE0000 + 4 × 0x8001 is PE_EVT of port A). -/
theorem not_commandStages : ¬Obligations.CommandStages := by
  unfold Obligations.CommandStages
  intro h
  obtain ⟨t, hexec, -, -, hbit, -⟩ := (h strayHold).1 .a 0 (by decide +kernel) ⟨rfl, rfl⟩
  have hnext : exec (.sqEntryFetchDone (.pf .a) 0 none) strayHold = .next (strayHold.unreadable (.pf .a) 0).pump := by
    show execSqEntryFetchDone (.pf .a) 0 none strayHold = _
    unfold execSqEntryFetchDone
    rw [show strayHold.mayFetch (.pf .a) 0 = true by decide +kernel]
    rfl
  cases hexec.symm.trans hnext
  exact absurd (hbit.symm.trans strayHold_unreadable) (by decide)

end Sys2Proof.Machine
end

section
/-! The operations of step 8 (O46): information, queues, keys, contexts, random bytes, migration. -/

namespace Sys2Proof.Machine

/-- The counters of an operation on a context. -/
def contextCounts : List Fld := [R.ENT_DRAWN_BYTES, R.HSH_BYTES_COUNT, R.SYM_BYTES_COUNT]

/-- No context changed, and no register but the counters. -/
structure State.ContextsKept (s t : State) : Prop where
  dsp : t.dsp = s.dsp
  regs : s.keepsRegs t contextCounts

/-- A context after more input. -/
def Ctx.grown (x : Ctx) (d : List Byte) : Ctx := { x with count := x.count + d.length, absorbed := x.absorbed ++ d }

namespace State
variable {s t u : State} {c : Cmd} {d : List Byte} {x : Ctx}

theorem ContextsKept.trans (h : s.ContextsKept t) (h' : t.ContextsKept u) : s.ContextsKept u :=
  ⟨h'.dsp.trans h.dsp, h.regs.trans h'.regs (List.Subset.refl _)⟩

theorem ContextsKept.wrapAdd (s : State) {f : Fld} (n : Nat) (h : f.key ∈ contextCounts.map Fld.key) : s.ContextsKept (s.wrapAdd f n) := ⟨rfl, s.keepsRegs_wr _ h⟩

theorem mask_kept (s : State) (n : Nat) : s.ContextsKept (s.mask n) := ⟨mask_keepsDsp rfl, fun f hf => s.rd_countDraw (fun h => hf (by rw [h]; decide)) n⟩

theorem countHashed_kept (s : State) (n : Nat) : s.ContextsKept (s.countHashed n) := .wrapAdd s n (by decide)

theorem countMac_kept (s : State) (a n : Nat) : s.ContextsKept (s.countMac a n) := .wrapAdd s n (by split <;> decide)

theorem macMasks_kept (s : State) (x : Ctx) (n : Nat) (first last : Bool) : s.ContextsKept (s.macMasks x n first last) := by
  unfold macMasks
  dsimp only
  split
  · exact s.mask_kept _
  · split
    · exact s.mask_kept _
    · exact s.mask_kept _

theorem aeadCount_kept (s : State) (c : Cmd) (x : Ctx) (first last : Bool) : s.ContextsKept (s.aeadCount c x first last) :=
  (s.mask_kept _).trans (.wrapAdd _ _ (by decide))

/-- The owner whose contexts a queue pair reaches. -/
theorem ContextsKept.ctxOwner (h : s.ContextsKept t) (f : Fn) {q : Nat} (hq : q < 64) : t.ctxOwner f q = s.ctxOwner f q := by
  unfold State.ctxOwner State.ownerOf
  cases f with
  | pf p => rfl
  | vf p n =>
    refine congrArg (fun v => (some v).getD 0x3FF) (h.regs _ fun hm => ?_)
    simp only [contextCounts, List.map_cons, List.map_nil, List.mem_cons, List.not_mem_nil, or_false, Fld.key, Fld.vf, Fld.add, R.VFS_OWNER_OWNER, R.ENT_DRAWN_BYTES, R.HSH_BYTES_COUNT,
      R.SYM_BYTES_COUNT] at hm
    omega
  | nw =>
    refine congrArg (fun v => (some v).getD 0x3FF) (h.regs _ fun hm => ?_)
    simp only [contextCounts, List.map_cons, List.map_nil, List.mem_cons, List.not_mem_nil, or_false, Fld.key, Fld.ix, R.WLD_NQ_BIND_OWNER, R.ENT_DRAWN_BYTES, R.HSH_BYTES_COUNT,
      R.SYM_BYTES_COUNT] at hm
    omega

theorem ownerOf_of_regs (h : t.regs = s.regs) (f : Fn) (q : Nat) : t.ownerOf f q = s.ownerOf f q := by
  cases f with
  | pf p => rfl
  | vf p n => exact congrArg some (rd_of_regs h _)
  | nw => exact congrArg some (rd_of_regs h _)

theorem unparkCtx_of_key (h : t.dsp.ctxKey = s.dsp.ctxKey) (x : Ctx) : t.unparkCtx x = s.unparkCtx x := by
  unfold unparkCtx
  rw [h]

/-! Contexts found and opened. -/

theorem findCtx_iff (f : Fn) (q h : Nat) : s.findCtx f q h = .inl x ↔ (hClass h = 0x3F ∧ hOwner h = s.ctxOwner f q) ∧ tblGet none s.dsp.ctxs (hIndex h) = some x ∧
    (x.fn = f ∧ x.owner = s.ctxOwner f q) ∧ x.gen = hGen h := by
  unfold findCtx
  by_cases hname : hClass h = 0x3F ∧ hOwner h = s.ctxOwner f q
  · rw [if_neg (by rw [not_or, not_not, not_not]; exact hname)]
    cases tblGet none s.dsp.ctxs (hIndex h) with
    | none => simp
    | some y =>
      dsimp only
      split_ifs with howner hgen
      · constructor
        · exact fun h => by cases h
        · rintro ⟨-, hy, hof, -⟩
          cases hy
          exact absurd howner (by rw [not_or, not_not, not_not]; exact hof)
      · constructor
        · exact fun h => by cases h
        · rintro ⟨-, hy, -, hof⟩
          cases hy
          exact absurd hof hgen
      · rw [not_or, not_not, not_not] at howner
        rw [not_not] at hgen
        constructor
        · intro h
          cases h
          exact ⟨hname, rfl, howner, hgen⟩
        · rintro ⟨-, hy, -, -⟩
          cases hy
          rfl
  · rw [if_pos (by rw [← not_and_or]; exact hname)]
    exact ⟨nofun, fun h => absurd h.1 hname⟩

theorem ctxOf_iff : s.ctxOf c = .inl x ↔ ∃ y, s.findCtx c.fn c.qp c.key = .inl y ∧ s.unparkCtx y = some x := by
  unfold ctxOf
  cases s.findCtx c.fn c.qp c.key with
  | inr st => simp
  | inl y =>
    dsimp only
    cases hy : s.unparkCtx y with
    | none => simp [hy]
    | some z => simp [hy]

/-- An open context is its parked one but for what is wrapped. -/
theorem unparkCtx_some {y : Ctx} (h : s.unparkCtx y = some x) : (x.fn = y.fn ∧ x.owner = y.owner ∧ x.gen = y.gen) ∧
    (x.keyed = true → x.wrapIv = [] ∧ x.wrapped = [] ∧ x.wrapTag = []) := by
  unfold unparkCtx at h
  by_cases hk : y.keyed = true
  · rw [if_pos hk] at h
    split at h
    · cases h
      exact ⟨⟨rfl, rfl, rfl⟩, fun _ => ⟨rfl, rfl, rfl⟩⟩
    · cases h
  · rw [if_neg hk] at h
    cases h
    exact ⟨⟨rfl, rfl, rfl⟩, fun h => absurd h hk⟩

theorem parkCtx_named (s : State) (x : Ctx) : ((s.parkCtx x).1.fn = x.fn ∧ (s.parkCtx x).1.owner = x.owner ∧ (s.parkCtx x).1.gen = x.gen) ∧
    (x.keyed = true → (s.parkCtx x).1.key = [] ∧ (s.parkCtx x).1.absorbed = []) := by
  unfold parkCtx
  by_cases hk : x.keyed = true
  · rw [if_pos hk]
    exact ⟨⟨rfl, rfl, rfl⟩, fun _ => ⟨rfl, rfl⟩⟩
  · rw [if_neg hk]
    exact ⟨⟨rfl, rfl, rfl⟩, fun h => absurd h hk⟩

/-- A context that was parked opens as it was. -/
theorem unparkCtx_parked (hw : x.keyed = true → x.wrapIv = [] ∧ x.wrapped = [] ∧ x.wrapTag = []) (hk : x.key.length < 65536) (hi : x.iv.length < 65536)
    (hc : x.custom.length < 65536) (ht : t.dsp.ctxKey = s.dsp.ctxKey) : t.unparkCtx (s.parkCtx x).1 = some x := by
  by_cases hkeyed : x.keyed = true
  · exact unpark_park hkeyed (hw hkeyed) hk hi hc ht
  · have hpark : (s.parkCtx x).1 = x := congrArg Prod.fst (if_neg hkeyed)
    rw [hpark]
    exact if_neg hkeyed

/-- A context that takes more input is parked and opens with it. -/
theorem growCtx_kept (hctx : s.ctxOf c = .inl x) (hkept : s.ContextsKept t) (hq : c.qp < 64) (d : List Byte) (hk : x.key.length < 65536) (hi : x.iv.length < 65536)
    (hc : x.custom.length < 65536) : (t.growCtx c x d).ctxOf c = .inl (x.grown d) ∧
      (x.keyed = true → ∃ y, tblGet none (t.growCtx c x d).dsp.ctxs (hIndex c.key) = some y ∧ y.key = [] ∧ y.absorbed = []) := by
  obtain ⟨y, hfind, hopen⟩ := ctxOf_iff.mp hctx
  obtain ⟨hname, -, ⟨hfn, howner⟩, hgen⟩ := (findCtx_iff _ _ _).mp hfind
  obtain ⟨⟨hfn', howner', hgen'⟩, hwrap⟩ := unparkCtx_some hopen
  obtain ⟨⟨hpfn, hpowner, hpgen⟩, hempty⟩ := t.parkCtx_named (x.grown d)
  let z := (t.parkCtx (x.grown d)).1
  let u := (t.parkCtx (x.grown d)).2
  have hdsp : u.dsp = t.dsp := parkCtx_keepsDsp rfl
  have hregs : u.regs = t.regs := parkCtx_keepsRegs rfl
  have hz : t.unparkCtx z = some (x.grown d) := unparkCtx_parked (x := x.grown d) hwrap hk hi hc rfl
  have ht : t.growCtx c x d = { u with dsp := { u.dsp with ctxs := tblPut none u.dsp.ctxs (hIndex c.key) (some z) } } := rfl
  have hput : tblGet none (t.growCtx c x d).dsp.ctxs (hIndex c.key) = some z := by
    rw [ht]
    exact tblGet_put_same none u.dsp.ctxs (hIndex c.key) (some z)
  have howns : (t.growCtx c x d).ctxOwner c.fn c.qp = s.ctxOwner c.fn c.qp := by
    rw [ht]
    exact (congrArg (fun v => v.getD 0x3FF) (ownerOf_of_regs (hregs : u.regs = t.regs) c.fn c.qp)).trans (hkept.ctxOwner c.fn hq)
  have hkey : (t.growCtx c x d).dsp.ctxKey = t.dsp.ctxKey := by
    rw [ht]
    exact (congrArg Dsp.ctxKey hdsp : u.dsp.ctxKey = t.dsp.ctxKey)
  refine ⟨ctxOf_iff.mpr ⟨z, (findCtx_iff _ _ _).mpr ⟨?_, hput, ?_, ?_⟩, ?_⟩, fun hkeyed => ⟨z, hput, hempty hkeyed⟩⟩
  · rw [howns]
    exact hname
  · rw [howns]
    exact ⟨hpfn.trans (hfn'.trans hfn), hpowner.trans (howner'.trans howner)⟩
  · exact hpgen.trans (hgen'.trans hgen)
  · exact (unparkCtx_of_key hkey z).trans hz


/-! What the operations do with an open context. -/

/-- What a command leaves of its context where it takes more input. -/
def grows (t : State) (c : Cmd) (x : Ctx) (d : List Byte) : Prop := x.key.length < 65536 → x.iv.length < 65536 → x.custom.length < 65536 →
  t.ctxOf c = .inl (x.grown d) ∧ (x.keyed = true → ∃ y, tblGet none t.dsp.ctxs (hIndex c.key) = some y ∧ y.key = [] ∧ y.absorbed = [])

theorem dropCtx_gone (s : State) (i : Nat) : tblGet none (s.dropCtx i).dsp.ctxs i = none := tblGet_put_same none s.dsp.ctxs i none

theorem compared_status (s : State) (got want : List Byte) {status : Nat} (h : status ≠ 0) : (s.compared got want status).1.status = 0 ↔ got = want := by
  show (if got = want then 0 else status) = 0 ↔ got = want
  split_ifs with he
  · exact iff_of_true rfl he
  · exact iff_of_false h he

theorem aeadEnd_state (s : State) (x : Ctx) (iv d : List Byte) : (s.aeadEnd x iv d).2.2 = s := by
  unfold aeadEnd
  dsimp only
  split
  · rfl
  · split <;> rfl

section
variable (hctx : s.ctxOf c = .inl x)
include hctx

/-- HASH_UPDATE, HASH_FINAL and HASH_VERIFY of an open context. -/
theorem opHash_open (hop : c.opcode ≠ 0x40) (d : List Byte) : let w := s.countHashed (c.inLen - c.uncounted x)
    (c.opcode = 0x41 → s.opHash c d = ran (w.growCtx c x d) 0) ∧
    (c.opcode = 0x42 → s.opHash c d = ranOut (w.dropCtx (hIndex c.key)) (x.digest d c.outLen)) ∧
    (c.opcode = 0x43 → s.opHash c d = (w.dropCtx (hIndex c.key)).compared (x.digest (d.take (c.inLen - c.par 8 2)) (c.par 8 2)) (d.drop (c.inLen - c.par 8 2)) 0x31) := by
  intro w
  have hopen : s.opHash c d = if c.opcode = 0x41 then ran (w.growCtx c x d) 0 else if c.opcode = 0x42 then ranOut (w.dropCtx (hIndex c.key)) (x.digest d c.outLen)
      else (w.dropCtx (hIndex c.key)).compared (x.digest (d.take (c.inLen - c.par 8 2)) (c.par 8 2)) (d.drop (c.inLen - c.par 8 2)) 0x31 := by
    unfold opHash
    rw [if_neg hop, hctx]
  rw [hopen]
  exact ⟨fun h => if_pos h, fun h => (if_neg (by omega)).trans (if_pos h), fun h => (if_neg (by omega)).trans (if_neg (by omega))⟩

/-- MAC_UPDATE, MAC_FINAL and MAC_VERIFY of an open context. -/
theorem opMac_open (hop : c.opcode ≠ 0x48) (d : List Byte) : let w := s.countMac x.alg (c.inLen - c.uncounted x)
    let n := c.inLen - c.par 8 2
    (c.opcode = 0x49 → s.opMac c d = ran ((w.macMasks x d.length false false).growCtx c x d) 0) ∧
    (c.opcode = 0x4A → s.opMac c d = ranOut ((w.macMasks x c.inLen false true).dropCtx (hIndex c.key)) (x.mac d)) ∧
    (c.opcode = 0x4B → s.opMac c d = ((w.macMasks x n false true).dropCtx (hIndex c.key)).compared ((x.mac (d.take n)).take (c.par 8 2)) (d.drop n) 0x33) := by
  intro w n
  unfold opMac
  rw [if_neg hop, hctx]
  refine ⟨fun h => if_pos h, fun h => (if_neg (by omega)).trans ?_, fun h => (if_neg (by omega)).trans ?_⟩
  · rw [if_pos h, if_neg (by omega)]
  · rw [if_neg (by omega), if_pos h]

/-- AEAD_UPDATE and AEAD_FINAL of an open context. -/
theorem opAead_open (hop : c.opcode ≠ 0x51) (d : List Byte) : let w := s.aeadCount c x false (c.opcode = 0x53)
    (c.opcode = 0x52 → s.opAead c d = ranOut (w.growCtx c x d) (x.stream d)) ∧ (c.opcode = 0x53 → s.opAead c d = (w.dropCtx (hIndex c.key)).aeadEnd x [] d) := by
  intro w
  unfold opAead
  rw [if_neg hop, hctx]
  exact ⟨fun h => if_pos h, fun h => if_neg (by omega)⟩

end

/-! Which operation an opcode runs. -/

theorem not_hashOp {op : Nat} (h : op < 0x40 ∨ 0x43 < op) : ¬hashOp op = true := by
  simp only [hashOp, Bool.and_eq_true, decide_eq_true_eq]
  omega

theorem runOp_hash (h : hashOp c.opcode = true) (d : List Byte) : s.runOp c d = s.opHash c d := by
  have hop := h
  simp only [hashOp, Bool.and_eq_true, decide_eq_true_eq] at hop
  obtain ⟨hlo, hhi⟩ := hop
  simp (disch := omega) only [runOp, if_neg]
  exact if_pos h

theorem runOp_mac (hlo : 0x48 ≤ c.opcode) (hhi : c.opcode ≤ 0x4B) (d : List Byte) : s.runOp c d = s.opMac c d := by
  simp (disch := omega) only [runOp, if_neg, if_neg (not_hashOp (op := c.opcode) (by omega))]
  exact if_pos ⟨hlo, hhi⟩

theorem runOp_aead (hlo : 0x51 ≤ c.opcode) (hhi : c.opcode ≤ 0x53) (d : List Byte) : s.runOp c d = s.opAead c d := by
  simp (disch := omega) only [runOp, if_neg, if_neg (not_hashOp (op := c.opcode) (by omega))]
  exact if_pos ⟨hlo, hhi⟩

theorem runOp_control (h : 0x60 < c.opcode ∨ (0x11 ≤ c.opcode ∧ c.opcode < 0x14)) (d : List Byte) : s.runOp c d = s.opControl c d := by
  simp (disch := omega) only [runOp, if_neg, if_neg (not_hashOp (op := c.opcode) (by omega))]


theorem runOp_random (h : c.opcode = 0x60) (d : List Byte) : s.runOp c d = s.opRandom c := by
  simp (disch := omega) only [runOp, if_neg, if_neg (not_hashOp (op := c.opcode) (by omega))]
  exact if_pos h

theorem runOp_create (h : c.opcode = 0x04) (d : List Byte) : s.runOp c d = s.opQueueCreate c := by
  simp (disch := omega) only [runOp, if_neg]
  exact if_pos h

theorem runOp_export (h : c.opcode = 0x06) (d : List Byte) : s.runOp c d = s.opCtxExport c := by
  simp (disch := omega) only [runOp, if_neg]
  exact if_pos h

theorem opControl_destroy (h : c.opcode = 0x13) (d : List Byte) : s.opControl c d = s.opDestroy c := by
  simp (disch := omega) only [opControl, if_neg]
  exact if_pos h

theorem opControl_migration (h : c.opcode = 0x7D) (d : List Byte) : s.opControl c d = s.opMigration c := by
  simp (disch := omega) only [opControl, if_neg]
  exact if_pos h

/-! Contexts that do not authenticate, queues, keys, random bytes, migration. -/

/-- A context that does not authenticate. -/
theorem runOp_unopened {y : Ctx} (hfind : s.findCtx c.fn c.qp c.key = .inl y) (hopen : s.unparkCtx y = none) (hop : ctxOp c.opcode = true) (d : List Byte) :
    s.runOp c d = ran s 0x33 := by
  have hctx : s.ctxOf c = .inr 0x33 := by
    unfold ctxOf
    rw [hfind]
    dsimp only
    rw [hopen]
  have hcases : c.opcode = 6 ∨ (0x41 ≤ c.opcode ∧ c.opcode ≤ 0x43) ∨ (0x49 ≤ c.opcode ∧ c.opcode ≤ 0x4B) ∨ (0x52 ≤ c.opcode ∧ c.opcode ≤ 0x53) := by
    simp only [ctxOp, Bool.or_eq_true, Bool.and_eq_true, beq_iff_eq, decide_eq_true_eq] at hop
    omega
  rcases hcases with h6 | ⟨hlo, hhi⟩ | ⟨hlo, hhi⟩ | ⟨hlo, hhi⟩
  · rw [runOp_export h6]
    unfold opCtxExport
    rw [hctx]
  · rw [runOp_hash (by simp only [hashOp, Bool.and_eq_true, decide_eq_true_eq]; omega)]
    unfold opHash
    rw [if_neg (by omega), hctx]
  · rw [runOp_mac (by omega) hhi]
    unfold opMac
    rw [if_neg (by omega), hctx]
  · rw [runOp_aead (by omega) hhi]
    unfold opAead
    rw [if_neg (by omega), hctx]

theorem opQueueCreate_shown (s : State) (c : Cmd) : let r := s.opQueueCreate c
    r.1.status = 0 ∧ r.2.2.mem = s.mem ∧ r.2.2.qp c.fn (c.par 0 1) =
      { enabled := true, sqAddr := c.par 8 8, cqAddr := c.par 16 8, sqLog2 := c.par 1 1, cqLog2 := c.par 2 1, vector := c.par 3 1, coalCount := c.par 4 1, coalTime := c.par 6 2 } := by
  let x : Qp := { enabled := true, sqAddr := c.par 8 8, cqAddr := c.par 16 8, sqLog2 := c.par 1 1, cqLog2 := c.par 2 1, vector := c.par 3 1, coalCount := c.par 4 1, coalTime := c.par 6 2 }
  let s1 := s.setQp c.fn (c.par 0 1) x
  have hmem : (s1.portClaim c.fn.port).mem = s1.mem := portClaim_keepsMem rfl
  have hqps : (s1.portClaim c.fn.port).qps = s1.qps := portClaim_keepsQps rfl
  exact ⟨rfl, hmem, (qp_of_qps hqps c.fn _).trans (s.qp_setQp_same c.fn (c.par 0 1) x)⟩

theorem destroyKey_gone (s : State) (o i : Nat) (f : Option Fn) : (s.destroyKey o i f).keyAt o i = none := by
  unfold destroyKey
  split
  next h => exact h
  next k _ =>
    dsimp only
    generalize (if k.attr.alg / 256 = 7 then _ else _ : State) = u
    exact tblGet_put_same none u.keys.keys (keyId o i) none

/-- A key that is no object takes no memory with it. -/
theorem destroyKey_mem {o i : Nat} {k : Key} (hk : s.keyAt o i = some k) (hobj : k.obj = none) (f : Option Fn) : (s.destroyKey o i f).mem = s.mem := by
  let s1 := match k.loc, k.obj with
    | .slot p, _ => s.clearSlot p
    | _, some o => s.wipeCells o.cells
    | _, none => s
  have h1 : s1.mem = s.mem := by
    unfold s1
    rw [hobj]
    cases k.loc <;> rfl
  let s2 := s1.uncount (countedBy f k.counted) k.obj.isSome
  have h2 : s2.mem = s1.mem := uncount_keepsMem rfl
  let s3 := if k.attr.alg / 256 = 7 then s2.dropResident (attrHandle k.attr) else s2
  have h3 : s3.mem = s2.mem := by
    unfold s3
    split
    · exact dropResident_keepsMem rfl
    · rfl
  have ht : s.destroyKey o i f = s3.setKey o i none := by
    unfold destroyKey
    rw [hk] <;> rfl
  rw [ht]
  exact (h3.trans h2).trans h1

theorem opMigration_off (h : c.par 1 1 = 0) : s.opMigration c = ran (s.wr (R.VFS_STATE_MIG_ON.vf c.fn.port (c.par 0 1)) 0) 0 := if_pos h

theorem opMigration_on (h : c.par 1 1 ≠ 0) : let r := s.opMigration c
    r.1.status = 0 ∧ r.2.2.rd (R.VFS_STATE_MIG_ON.vf c.fn.port (c.par 0 1)) = 1 ∧ (r.2.2.vf c.fn.port (c.par 0 1)).logAddr = c.par 8 8 := by
  let p := c.fn.port
  let n := c.par 0 1
  let x : Vf := { s.vf p n with logAddr := c.par 8 8, logSize := 2 ^ c.par 2 1, logIdx := 0, logPhase := true, logPages := [] }
  let s1 := (s.setVf p n x).wr ((R.PE_MIG_HEAD_HEAD.port p).ix (n - 1)) 0
  let s2 := (s1.wr (R.VFS_STATE_MIG_ON.vf p n) 1).wr (R.VFS_STATE_MIG_OVERFLOW.vf p n) 0
  let s3 := if s1.flag (R.VFS_STATE_MIG_OVERFLOW.vf p n) then s2.vector (.vf p n) 0 else s2
  have ht : s.opMigration c = ran s3 0 := if_neg h
  have hon : s2.rd (R.VFS_STATE_MIG_ON.vf p n) = 1 := by
    refine (rd_wr_other _ _ ?_).trans (rd_wr_same ..)
    simp only [Fld.key, Fld.vf, Fld.add, R.VFS_STATE_MIG_ON, R.VFS_STATE_MIG_OVERFLOW]
    omega
  have hlog : (s2.vf p n).logAddr = c.par 8 8 := congrArg Vf.logAddr (tblGet_put_same ({} : Vf) s.vfs (vfIndex p n) x)
  have h3 : s3.regs = s2.regs ∧ s3.vfs = s2.vfs := by
    unfold s3
    split
    · exact ⟨vector_keepsRegs rfl, vector_keepsVfs rfl⟩
    · exact ⟨rfl, rfl⟩
  clear_value s3 s2
  intro r
  rw [show r = _ from ht]
  exact ⟨rfl, (rd_of_regs h3.1 _).trans hon, (congrArg (fun l => (tblGet ({} : Vf) l (vfIndex p n)).logAddr) h3.2).trans hlog⟩

end State

/-- Settles O46. -/
theorem commandEffects : Obligations.CommandEffects := by
  unfold Obligations.CommandEffects
  intro s c d hq
  refine ⟨fun hop => if_pos hop, fun hop => ?_, fun hop => ?_, fun y hfind hopen hop => ?_, fun x hctx => ⟨fun hop => ?_, fun hop => ?_, fun hop => ?_, fun hop => ?_, fun hop => ?_,
    fun hop => ?_, fun hop => ?_, fun hop => ?_⟩, fun hop => ?_, fun hop hoff => ?_, fun hop hon => ?_⟩
  · rw [State.runOp_create hop]
    exact s.opQueueCreate_shown c
  · rw [State.runOp_control (.inr (by omega)), State.opControl_destroy hop]
    exact ⟨s.destroyKey_gone .., rfl, fun k hk hobj => State.destroyKey_mem hk hobj _⟩
  · rw [State.runOp_unopened hfind hopen hop]
    exact ⟨rfl, rfl⟩
  · rw [State.runOp_hash (by rw [hop]; rfl), (State.opHash_open hctx (by omega) d).1 hop]
    exact ⟨rfl, State.growCtx_kept hctx (s.countHashed_kept _) hq d⟩
  · rw [State.runOp_hash (by rw [hop]; rfl), (State.opHash_open hctx (by omega) d).2.1 hop]
    exact ⟨rfl, State.dropCtx_gone _ _⟩
  · rw [State.runOp_hash (by rw [hop]; rfl), (State.opHash_open hctx (by omega) d).2.2 hop]
    exact ⟨State.dropCtx_gone _ _, State.compared_status _ _ _ (by decide)⟩
  · rw [State.runOp_mac (by omega) (by omega), (State.opMac_open hctx (by omega) d).1 hop]
    exact ⟨rfl, State.growCtx_kept hctx ((s.countMac_kept _ _).trans (State.macMasks_kept ..)) hq d⟩
  · rw [State.runOp_mac (by omega) (by omega), (State.opMac_open hctx (by omega) d).2.1 hop]
    exact ⟨rfl, State.dropCtx_gone _ _⟩
  · rw [State.runOp_mac (by omega) (by omega), (State.opMac_open hctx (by omega) d).2.2 hop]
    exact ⟨State.dropCtx_gone _ _, State.compared_status _ _ _ (by decide)⟩
  · rw [State.runOp_aead (by omega) (by omega), (State.opAead_open hctx (by omega) d).1 hop]
    exact ⟨rfl, State.growCtx_kept hctx (s.aeadCount_kept ..) hq d⟩
  · rw [State.runOp_aead (by omega) (by omega), (State.opAead_open hctx (by omega) d).2 hop, State.aeadEnd_state]
    exact State.dropCtx_gone _ _
  · rw [State.runOp_random hop]
    exact ⟨s.length_delivered _, rfl, State.countHost_keepsMem rfl⟩
  · rw [State.runOp_control (.inl (by omega)), State.opControl_migration hop, State.opMigration_off hoff]
    exact ⟨rfl, State.rd_wr_same ..⟩
  · rw [State.runOp_control (.inl (by omega)), State.opControl_migration hop]
    exact State.opMigration_on hon

end Sys2Proof.Machine
end
